-- ==== Sys2Proof/Word.lean ====
section
/-! DEFINITION. The machine's word types: a byte of DRAM and a 64-bit word of a waybill, packet or dictionary value.
Identifiers, counts and object values are `Nat`: the widths the manual gives them are checked in `WellFormed.lean`
and kept by the operations that write them. -/

namespace Sys2Proof

/-- One byte of DRAM, of a packet payload or of a dictionary value. -/
abbrev Byte := BitVec 8

/-- One 64-bit word of a waybill, a layout descriptor or a counter. -/
abbrev Word := BitVec 64

/-- A string of bytes in the order the manual lists them. -/
abbrev Bytes := List Byte

end Sys2Proof
end

