-- ==== Sys2Proof/Packet.lean ====
section
/-! DEFINITION. What crosses the package's contacts: packets (Table 9.1), flits (Table 8.3), CTRL messages (Table 8.4),
Ethernet frames (R456), set-formation payloads (Table 1.5) and the few records that events carry. -/

namespace Sys2Proof

/-- A packet: the header fields of Table 9.1 and LEN * 64 payload bytes. -/
structure Packet where
  dst : Nat := 0
  src : Nat := 0
  pkey : Nat := 0
  tc : Nat := 0
  vc : Nat := 0
  ect : Bool := false
  ce : Bool := false
  poi : Bool := false
  opc : Nat := 0
  len : Nat := 0
  /-- H1[50:48], reserved. -/
  rsvd : Nat := 0
  addr : Nat := 0
  seq : Nat := 0
  tag : Nat := 0
  status : Nat := 0
  ece : Bool := false
  turned : Bool := false
  hops : Nat := 0
  xw : Nat := 0
  payload : Bytes := []
deriving DecidableEq, Repr

/-- A flit as it arrives or leaves: the header fields of Table 8.3, 240 payload bytes and the CRC. -/
structure Flit where
  fseq : Nat := 0
  ack : Nat := 0xFFF
  pause : Bool := false
  cretTc : Nat := 0
  cretDl : Nat := 0
  cretN : Nat := 0
  aux : Nat := 0
  ftype : Nat := 0
  sop : Nat := 0xF
  pad : Nat := 0xF
  abt : Bool := false
  abtVc : Nat := 0
  payload : Bytes := []
  crc : Nat := 0
deriving DecidableEq, Repr

/-- The header fields of a CTRL flit that are valid (R246). -/
structure CtrlHdr where
  ack : Nat := 0xFFF
  pause : Bool := false
  cretTc : Nat := 0
  cretDl : Nat := 0
  cretN : Nat := 0
deriving DecidableEq, Repr

/-- CTRL messages (Table 8.4). -/
inductive CtrlMsg where
  | retryReq (fseq : Nat)
  | null
  | laneMap (lane map : Nat)
  | laneMapAck (lane map : Nat)
  | creditSyncReq
  | creditSyncRsp (blocks : List Nat)
  | linkDown (cause : Nat)
  | standbyReq
  | standbyAck
  | hello (version : Nat) (audit narrow : Bool)
  | cert (chain : Bytes)
  | share (pub sig : Bytes)
  | finished (mac : Bytes)
deriving DecidableEq, Repr

/-- A DIMM as its SPD gives it: kind (0 none, 1 MRDIMM, 2 RDIMM), bytes, ranks, whether its devices are x8, module manufacturer ID and
serial number. -/
structure Dimm where
  kind : Nat := 0
  bytes : Nat := 0
  ranks : Nat := 1
  x8 : Bool := false
  maker : Nat := 0
  serial : Nat := 0
deriving DecidableEq, Repr

/-- A passing delay window of a strobe lane at one reference step: delays from lo up to, not with, hi, in 1/128 UI (R342). -/
structure EyeWindow where
  vref : Nat := 0
  lo : Nat := 0
  hi : Nat := 0
deriving DecidableEq, Repr

/-- What the delay and reference sweeps of a strobe lane of a rank meet: the windows in which reads and writes pass. -/
structure LaneSweep where
  read : List EyeWindow := []
  write : List EyeWindow := []
deriving DecidableEq, Repr

/-- An Ethernet frame on the T1S segment (R456): addresses, EtherType, whether it carries a VLAN tag, whether its FCS
is correct, and its payload. -/
structure Frame where
  dst : Nat
  src : Nat
  ethertype : Nat
  vlan : Bool
  fcsOk : Bool
  payload : Bytes
deriving DecidableEq, Repr

/-- A guest definition as DISTRIBUTE carries it: key and window directory, entries of 128 bits by index (R47, R48). -/
structure GuestDef where
  gid : Nat
  pkey : Nat := 0
  dir : List (Nat × Nat) := []
deriving DecidableEq, Repr

/-- What a SETMSG says, by its KIND (Table 9.3; R22, R24 to R29, R401). How its payload lays this out the manual does not
state (assumption 21). -/
inductive SetMsg where
  | announce (setId state : Nat) (nonce : Bytes)
  | join (idReq : Nat) (chain sig : Bytes)
  | admission (devid : Nat)
  | refuse (setId state : Nat)
  /-- Members as (DEVID, EPID), definitions to apply, and guests to tear down. -/
  | distribute (members : List (Nat × Nat)) (guests : List GuestDef) (erase : List Nat)
deriving DecidableEq, Repr

/-- What leaves the package, in the order it leaves. -/
inductive Out where
  /-- A packet starts on a link (R313). -/
  | pkt (link : Nat) (p : Packet)
  /-- A sequenced flit is sent (R247). -/
  | flit (link : Nat) (f : Flit)
  /-- A link control message is sent, with the CTRL flits that carry it (R246). -/
  | ctrl (link : Nat) (h : CtrlHdr) (m : CtrlMsg) (flits : List Flit)
  /-- A T1S frame is sent to a MAC address (R457). -/
  | frame (dst : Nat) (payload : Bytes)
  /-- A line on the debug UART (R532). -/
  | uart (line : String)
  /-- A command on a DRAM channel (R333). -/
  | dram (chan sub : Nat) (cmd : String)
  /-- A transfer on a sideband bus (R353). -/
  | sideband (bus chan target reg : Nat) (write : Bool) (data : Bytes)
  /-- Nine clock pulses and a STOP on a sideband bus (R355). -/
  | sbRecover (bus : Nat)
  /-- A broadcast reset of dynamic addresses on an I3C bus (R355). -/
  | sbReset (bus : Nat)
deriving DecidableEq, Repr

/-- Who is held on a non-resident page (R206). -/
inductive HoldOf where
  | req (trk : Nat)
  | granule (stream seq g : Nat)
  | fetch (stream : Nat)
  /-- The write-back of a reduction context. -/
  | ctx (rctx : Nat)
deriving DecidableEq, Repr

end Sys2Proof
end

