-- ==== Sys2Proof/Syntax.lean ====
section
/-! DEFINITION. The commands that reach the block: one constructor per row of spec/opcode_table.json, in the table's
order, each with the operands its rule leaves to the surroundings (which link, which guest, which timer's subject,
what a peer's message held). A command-record command (R47) has no operand: it is the write of its code to the
record's OP object and reads the record's other objects from the state. -/

namespace Sys2Proof

/-- A command from outside the block: a register write, a packet or flit at a link, a frame, a contact edge, or the
expiry or completion of something the block has pending. -/
inductive Instr where
  /-- R393. VDD_AON rises and the device will draw new package keys at the first reset release. -/
  | powerOn
  /-- R508. RESET_N falls: datapath activity stops, the I3C resets are broadcast and the contacts take their reset states. -/
  | resetNFall
  /-- R508. PWR_GOOD falls while VDD_AON stays up; a cold reset begins and the supply monitors are disarmed. -/
  | pwrGoodFall
  /-- R508. Reset conditions clear with a good reference clock; straps are sampled, the timebase starts and start-up begins. -/
  | resetRelease (early : Fin 2048) (late : Fin 2048) (present : Nat)
  /-- R407. The boot ROM checks and loads the preferred firmware slot, falling back to the other slot. -/
  | secureBoot (ik0 : Bool) (ik1 : Bool) (dimms : List Dimm)
  /-- R508. POWER_CMD COLD_RESET starts a cold reset 10 ms after its answer. -/
  | coldReset
  /-- R508. The 10 ms after the COLD_RESET answer runs out and reset entry begins. -/
  | coldResetDelayExpiry
  /-- R413. A supply, clock or temperature tamper condition purges keys and enters TAMPER_HALT. -/
  | tamper (cause : Fin 3)
  /-- R47. The manager defines a guest on every member, each member generating its own key. -/
  | define
  /-- R47. A guest is pinned on this device, made resident first if spilled, within GUEST_PINNED_LIMIT. -/
  | pin
  /-- R47. A pinned guest becomes an ordinary resident guest on this device. -/
  | unpin
  /-- R19. The manager writes a window directory entry to every member after checking overlap and range. -/
  | windowSet
  /-- R22. The manager clears a window directory entry on every member. -/
  | windowClear
  /-- R47. QUERY reports the guest state on this device in GUEST_CMD_STATE. -/
  | guestQuery
  /-- R48. The manager changes a guest's device partition key on every member. -/
  | setPkey
  /-- R22. Every member has applied a guest command and drained requests under the old entry, so RESULT reads done. -/
  | guestCmdApplied
  /-- R12. The swapped-in guest entry is installed and its waiting requests proceed. -/
  | guestSwapDone (gid : Fin 1048576)
  /-- R13. No victim became eligible within GUEST_SWAP_HOLD and the request completes NOT_RESIDENT. -/
  | guestSwapHoldExpiry (gid : Fin 1048576)
  /-- R13. A resident guest becomes eligible as victim and a waiting swap proceeds. -/
  | swapVictimEligible
  /-- R29. An ANNOUNCE SETMSG is received and leads to a JOIN, a CONFLICT or a drop of the intruder. -/
  | announce (link : Fin 32) (p : Packet) (setId : Nat) (state : Nat) (nonce : Bytes)
  /-- R24. The manager announces SET_ID by broadcast and by unicast to SET_PEER_EPID. -/
  | announceSend
  /-- R26. The manager checks a JOIN's chain, signature and DEVID and admits, readmits or refuses it. -/
  | join (link : Fin 32) (p : Packet) (idReq : Nat) (chain : Bytes) (sig : Bytes)
  /-- R25. A worker receives its DEVID in ADMIT. -/
  | admitMsg (link : Fin 32) (p : Packet) (devid : Nat)
  /-- R29. A REFUSE is received and puts a worker in REFUSED or a forming manager in CONFLICT. -/
  | refuse (link : Fin 32) (p : Packet) (setId : Nat) (state : Nat)
  /-- R27. A member applies the distributed guest definitions and directories and enters SERVING. -/
  | distribute (link : Fin 32) (p : Packet) (members : List (Nat × Nat)) (guests : List GuestDef) (erase : List Nat)
  /-- R24. FORM_TIMEOUT runs out and the manager ends admission and distributes. -/
  | formTimeoutExpiry
  /-- R280. A READ packet for this device is deduplicated, mapped to a guest, checked, translated and answered with one RSP. -/
  | read (link : Fin 32) (p : Packet)
  /-- R280. A WRITE packet is checked, translated, entered in the WCB and answered once acknowledged. -/
  | write (link : Fin 32) (p : Packet)
  /-- R281. A posted write is checked and applied, or discarded and counted. -/
  | writeP (link : Fin 32) (p : Packet)
  /-- R280. An ATOMIC packet is applied by the Cellar atomic unit and answered with the old value. -/
  | atomicPacket (link : Fin 32) (p : Packet)
  /-- R63. A DOORBELL advances a stream's TAIL or is discarded and counted. -/
  | doorbell (link : Fin 32) (p : Packet)
  /-- R281. A NOTIFY addressed to the device is discarded and counted as unmatched. -/
  | notifyReceived (link : Fin 32) (p : Packet)
  /-- R311. A CNP from a destination lowers that destination's congestion rate. -/
  | cnp (link : Fin 32) (p : Packet)
  /-- R279. An answer is matched to its request by SRC_EPID, TC and TAG, or dropped as unmatched. -/
  | rsp (link : Fin 32) (p : Packet)
  /-- R459. An in-band MGMT packet carries a dictionary PDU to the dictionary queue. -/
  | mgmt (link : Fin 32) (p : Packet)
  /-- R283. A packet header at a port passes form, key, hop, route and egress checks and is forwarded, delivered or dropped. -/
  | packetHeader (link : Fin 32) (p : Packet)
  /-- R296. A (SRC_EPID, SEQ) entry of the broadcast filter expires after 10 ms. -/
  | broadcastFilterExpiry (src : Nat) (seq : Nat)
  /-- R32. A zero fill completes; the waiting writes are applied, ZM is cleared and a ZM_CLEARED record is posted. -/
  | zeroFillDone (gid : Fin 1048576) (pva : Nat)
  /-- R40. A DRAM read returns to the LRC and is installed unless invalidated meanwhile. -/
  | lrcFill (line : Nat)
  /-- R38. A PUBLISH waybill drains the range from the WCBs, then invalidates the LRC and increments the tally. -/
  | publish (stream : Fin 1048576) (seq : Nat)
  /-- R38. The WCB drain of a PUBLISH range reaches DRAM; LRC lines are invalidated and the tally is incremented. -/
  | publishDrainDone (stream : Fin 1048576) (seq : Nat)
  /-- R42. A whole-LRC sweep for a large range ends. -/
  | lrcSweepDone (stream : Fin 1048576) (seq : Nat)
  /-- R61. CREATE defines a stream with HEAD = TAIL = 0 after checking the guest and ring. -/
  | streamCreate
  /-- R87. DESTROY removes a stream with no running waybill. -/
  | streamDestroy
  /-- R69. RESET sets HEAD = TAIL and leaves ERROR. -/
  | streamReset
  /-- R69. QUERY reports the stream state, HEAD and failing SEQ. -/
  | streamQuery
  /-- R66. A spilled stream becomes resident and its pending doorbell is applied. -/
  | streamSwapDone (stream : Fin 1048576)
  /-- R65. The slot at HEAD is fetched, HEAD advances and the waybill gets its SEQ. -/
  | waybillAccept (stream : Fin 1048576)
  /-- R70. A sequencer prefetches the next slots of a stream. -/
  | descriptorPrefetch (stream : Fin 1048576)
  /-- R71. A waybill whose FENCE and WAIT conditions are met starts running. -/
  | waybillStart (stream : Fin 1048576) (seq : Nat)
  /-- R78. WAIT_TALLY was not ready within WAIT_TIMEOUT and the waybill completes TIMEOUT. -/
  | waitTimeoutExpiry (stream : Fin 1048576) (seq : Nat)
  /-- R53. TALLY_INC adds OPW1 to COUNT. -/
  | tallyInc (stream : Fin 1048576) (seq : Nat)
  /-- R53. TALLY_SET sets COUNT. -/
  | tallySet (stream : Fin 1048576) (seq : Nat)
  /-- R53. TALLY_ARM sets TARGET. -/
  | tallyArm (stream : Fin 1048576) (seq : Nat)
  /-- R53. TALLY_READ returns COUNT in the completion MASK. -/
  | tallyRead (stream : Fin 1048576) (seq : Nat)
  /-- R53. DRAIN completes after every earlier waybill of its stream has completed. -/
  | drain (stream : Fin 1048576) (seq : Nat)
  /-- R53. NOP completes OK. -/
  | nop (stream : Fin 1048576) (seq : Nat)
  /-- R79. CANCEL marks earlier uncompleted waybills with the WID and cancels them. -/
  | cancel (stream : Fin 1048576) (seq : Nat)
  /-- R80. A coalesced mirror write of COUNT is made and published, or dropped. -/
  | tallyMirrorWrite (tally : Fin 16384)
  /-- R125. A ready chunk is placed on a cluster chosen by pick_cluster when a slot is free. -/
  | chunkDispatch (stream : Fin 1048576) (seq : Nat)
  /-- R399. Guest-switch clearing of a cluster ends and the chunk starts. -/
  | clusterClearDone (cluster : Fin 128)
  /-- R81. The Ledger test-and-sets a granule's bit and the write is acknowledged or withdrawn as a duplicate. -/
  | granuleCommit (stream : Fin 1048576) (seq : Nat) (g : Nat) (cluster : Fin 128)
  /-- R82. A cluster that stops answering is declared lost and its chunks are queued for re-dispatch. -/
  | clusterLost (cluster : Fin 128)
  /-- R82. An unfinished chunk is dispatched to another cluster and skips committed granules. -/
  | chunkRedispatch (stream : Fin 1048576) (seq : Nat) (chunk : Nat)
  /-- R82. A Porter die is lost; its streams are rebound and their waybills fetched again. -/
  | porterDieLost (die : Fin 16)
  /-- R84. The completion-done bit is set, the record is written and published, and the tally is incremented. -/
  | waybillComplete (stream : Fin 1048576) (seq : Nat)
  /-- R75. A tracker frees and a request waiting in its receive buffer takes it. -/
  | trackerGrant
  /-- R88. ALLOC gives the lowest free tally to a guest. -/
  | tallyAlloc
  /-- R88. FREE releases a tally with no waiters. -/
  | tallyFree
  /-- R89. ARM through TALLY_CMD sets TARGET. -/
  | tallyCmdArm
  /-- R89. SET through TALLY_CMD sets COUNT. -/
  | tallyCmdSet
  /-- R88. CONFIG sets MIRROR, NOTIFY_ON_TARGET, MIRROR_PVA and NOTIFY_EPID after checking the mirror address. -/
  | tallyConfig
  /-- R76. QUERY returns the tally entry. -/
  | tallyQuery
  /-- R556. A write of 0 restarts the tracker high-water mark from TRK_IN_USE. -/
  | trkHighWaterWrite (v : Nat)
  /-- R117. A write clears the ARITH_FLAGS_SEEN bits written as 1. -/
  | arithFlagsSeenWrite (v : Nat)
  /-- R128. COPY copies LEN bytes. -/
  | copy (stream : Fin 1048576) (seq : Nat) (chunk : Nat)
  /-- R129. CONVERT converts elements between formats. -/
  | convert (stream : Fin 1048576) (seq : Nat) (chunk : Nat)
  /-- R131. FILL writes a repeated pattern. -/
  | fill (stream : Fin 1048576) (seq : Nat) (chunk : Nat)
  /-- R132. ELTWISE computes an element-wise operation. -/
  | eltwise (stream : Fin 1048576) (seq : Nat) (chunk : Nat)
  /-- R134. DELIVER sends converted source data to an endpoint as write packets. -/
  | deliver (stream : Fin 1048576) (seq : Nat) (chunk : Nat)
  /-- R153. GATHER reads indexed elements into a packed buffer. -/
  | gather (stream : Fin 1048576) (seq : Nat) (chunk : Nat)
  /-- R153. SCATTER writes packed elements to indexed places. -/
  | scatter (stream : Fin 1048576) (seq : Nat) (chunk : Nat)
  /-- R137. An ATOMIC waybill applies an operation to each element at the atomic unit. -/
  | atomic (stream : Fin 1048576) (seq : Nat) (chunk : Nat)
  /-- R141. CAS compares and swaps each element. -/
  | cas (stream : Fin 1048576) (seq : Nat) (chunk : Nat)
  /-- R126. A remote granule access exceeds REMOTE_TIMEOUT and fails with TIMEOUT. -/
  | remoteTimeoutExpiry (dst : Nat) (tc : Fin 4) (tag : Nat)
  /-- R144. RED_OPEN opens a reduction context and places the start value. -/
  | redOpen (stream : Fin 1048576) (seq : Nat) (chunk : Nat)
  /-- R144. Staging frees and a waiting RED_OPEN takes it. -/
  | stagingAlloc (stream : Fin 1048576) (seq : Nat)
  /-- R144. A RED_OPEN that waited for staging past WAIT_TIMEOUT completes TIMEOUT. -/
  | redOpenTimeout (stream : Fin 1048576) (seq : Nat)
  /-- R145. RED_CONTRIB applies, or queues for its turn, one contribution to a context. -/
  | redContrib (stream : Fin 1048576) (seq : Nat) (chunk : Nat)
  /-- R148. An ordered contribution's predecessor completes and it starts applying. -/
  | contribTurn (stream : Fin 1048576) (seq : Nat)
  /-- R148. A waiting contribution's SRC is read into staging while budget allows. -/
  | stagedPrefetch (stream : Fin 1048576) (seq : Nat)
  /-- R146. An accumulator granule lock frees and a waiting locked read takes it. -/
  | granuleLockGrant (unit : Nat)
  /-- R150. RED_CLOSE ends a context early, cancelling waiting contributions. -/
  | redClose (stream : Fin 1048576) (seq : Nat)
  /-- R149. A context completes: staging is written back, DST is published and DONE_TALLY is incremented. -/
  | redContextComplete (rctx : Fin 1024)
  /-- R151. REDUCE applies one contribution in DRAM mode with no context. -/
  | reduce (stream : Fin 1048576) (seq : Nat) (chunk : Nat)
  /-- R185. RESHARD copies a tensor from one registered layout to another. -/
  | reshard (stream : Fin 1048576) (seq : Nat) (chunk : Nat)
  /-- R166. MVB multiplies a weight matrix by a vector batch. -/
  | mvb (stream : Fin 1048576) (seq : Nat) (chunk : Nat)
  /-- R167. MOEFFN runs a mixture-of-experts feed-forward block in two phases. -/
  | moeffn (stream : Fin 1048576) (seq : Nat) (chunk : Nat)
  /-- R172. Every participant holds the whole intermediate h and phase 2 starts. -/
  | moeffnExchangeDone (stream : Fin 1048576) (seq : Nat)
  /-- R181. REGISTER stores a valid layout descriptor at the lowest free number. -/
  | layoutRegister
  /-- R186. REMOVE frees a layout not named by a running RESHARD. -/
  | layoutRemove
  /-- R189. QUERY returns a layout descriptor. -/
  | layoutQuery
  /-- R200. TRANS_CMD COMMIT checks a batch of update records against the table and GEN. -/
  | commit
  /-- R201. A batch takes effect in one cycle, GEN rises and held requests are translated again. -/
  | commitPoint
  /-- R202. Old-entry requests finish, writes drain and LRC lines are invalidated, so RESULT reads done. -/
  | commitDrainDone
  /-- R213. QUERY returns the leaf that translates a PVA. -/
  | transQuery
  /-- R194. A Ledger walk returns the entry that decides a translation's outcome. -/
  | translationWalkDone (trk : Fin 16384)
  /-- R207. A held request's FAULT_HOLD_TIMEOUT expires and it completes NOT_RESIDENT. -/
  | faultHoldExpiry (h : HoldOf)
  /-- R208. A waiting fault-queue record is written once the queue has room. -/
  | faultQueueRecord
  /-- R208. The driver advances FQ_HEAD and frees queue space. -/
  | fqHeadWrite (v : Nat)
  /-- R214. A write of FQ_EPID, FQ_BASE or FQ_LOG2 resets the queue indices and phase. -/
  | fqConfigWrite (which : Fin 3) (v : Nat)
  /-- R210. Every page write of a MIGRATE_IN is acknowledged and the commit point falls. -/
  | migrateInDone
  /-- R211. Every host write of a MIGRATE_OUT reports success and the commit point falls. -/
  | migrateOutDone
  /-- R212. A migration transfer exceeds MIGRATE_TIMEOUT; the batch is not applied and RESULT reads 0x07. -/
  | migrateTimeoutExpiry
  /-- R197. A Ledger die is lost; mirrors serve duplicated tables and the cache and walks are rehashed. -/
  | ledgerDieLost (die : Fin 6)
  /-- R224. The home serves a read for sharing by the directory state. -/
  | rdS (link : Fin 32) (p : Packet)
  /-- R224. The home serves a read for ownership. -/
  | rdX (link : Fin 32) (p : Packet)
  /-- R224. The home serves an upgrade from S to exclusive. -/
  | upg (link : Fin 32) (p : Packet)
  /-- R224. A write-back of an M line is taken and acknowledged. -/
  | wb (link : Fin 32) (p : Packet)
  /-- R224. The drop of an E line is taken and acknowledged. -/
  | evc (link : Fin 32) (p : Packet)
  /-- R224. A snoop response without data is taken by the home. -/
  | snpAck (link : Fin 32) (p : Packet)
  /-- R224. A snoop response with dirty data is taken and written. -/
  | snpData (link : Fin 32) (p : Packet)
  /-- R224. A snoop response reporting a WB or EVC in flight makes the home await it. -/
  | snpWbp (link : Fin 32) (p : Packet)
  /-- R217. A coherence answer or data message that matches no snoop is dropped and counted. -/
  | coherenceUnmatched (link : Fin 32) (p : Packet)
  /-- R225. A busy line's transaction ends and the next queued request is served. -/
  | hearthLineDequeue (line : Nat)
  /-- R232. A full directory set back-invalidates a victim way for a waiting request. -/
  | backInvalidation (line : Nat)
  /-- R230. A snoop goes unanswered past the limit and its caching endpoint is fenced. -/
  | hearthSnoopTimeout (line : Nat) (ceid : Fin 4096)
  /-- R230. The walk that removes a fenced CEID from pointer entries ends. -/
  | fenceWalkDone (ceid : Fin 4096)
  /-- R217. REGISTER_CE registers a caching endpoint with its EPID and partition key. -/
  | registerCe
  /-- R239. REMOVE_CE recalls every line the endpoint may hold and frees the CEID. -/
  | removeCe
  /-- R231. RESET_CE returns a FENCED endpoint to service after the fence walk. -/
  | resetCe
  /-- R238. QUERY_CE reports a caching endpoint's state. -/
  | queryCe
  /-- R234. FLUSH recalls every cached line of a range and leaves it DI. -/
  | flush
  /-- R238. QUERY_LINE returns a line's directory entry. -/
  | queryLine
  /-- R226. The snoop answers of an uncached access or recall arrive and the access proceeds. -/
  | hearthRecallDone (line : Nat)
  /-- R249. A sequenced flit arrives and is accepted, discarded or dropped, its header fields being applied. `word` holds the symbols received
  in error of the FEC codeword that carries the flit's first bit, `ends` says whether that codeword ends within the flit, and `next` holds
  those of the codeword that carries the flit's other bits, where one does (R241; a flit of 2,048 bits meets at most two of 5,140). -/
  | flitReceive (link : Fin 32) (f : Flit) (word : List (Fin 544)) (ends : Bool) (next : List (Fin 544))
  /-- R250. A RETRY_REQ makes the sender replay from the named FSEQ. -/
  | retryReq (link : Fin 32) (h : CtrlHdr) (fseq : Nat)
  /-- R248. A NULL CTRL flit carries ACK, PAUSE and credits. -/
  | null (link : Fin 32) (h : CtrlHdr)
  /-- R250. The replay timer reaches REPLAY_TIMEOUT and replay restarts from the oldest unacknowledged flit. -/
  | replayTimeout (link : Fin 32)
  /-- R243. A data lane loses lock or exceeds LANE_SER_LIMIT and sparing or NARROW begins. -/
  | laneFailing (link : Fin 32) (lane : Fin 9)
  /-- R243. The spare lane fails its PRBS31 check and is marked unusable. -/
  | spareUnusable (link : Fin 32)
  /-- R243. A LANE_MAP from the peer makes the transmitter move the failing lane onto the spare. -/
  | laneMap (link : Fin 32) (h : CtrlHdr) (lane : Nat) (map : Nat)
  /-- R243. The peer's LANE_MAP_ACK lets the receiver deskew the new lane set. -/
  | laneMapAck (link : Fin 32) (h : CtrlHdr) (lane : Nat) (map : Nat)
  /-- R243. The LANE_MAP is repeated every 100 ns until acknowledged. -/
  | laneMapResend (link : Fin 32)
  /-- R243. Alignment is regained, flits resume and a RETRY_REQ recovers lost flits. -/
  | laneSparingDone (link : Fin 32)
  /-- R257. A VC turns quiet and a window below CREDIT_RETRAIN_FLOOR starts a credit sync. -/
  | creditQuietExpiry (link : Fin 32) (vc : Fin 8)
  /-- R258. Once every sent flit is acknowledged, the sender sends CREDIT_SYNC_REQ. -/
  | creditSyncRequest (link : Fin 32)
  /-- R258. The receiver drops due credits and answers with the blocks each VC holds. -/
  | creditSyncReq (link : Fin 32) (h : CtrlHdr)
  /-- R258. The sender resets U_v and R_v from the response and resumes. -/
  | creditSyncRsp (link : Fin 32) (h : CtrlHdr) (blocks : List Nat)
  /-- R258. No response within 20 microseconds; the request is repeated or the link goes down. -/
  | creditSyncTimeout (link : Fin 32)
  /-- R266. A LINK_DOWN CTRL message from the peer takes the link DOWN. -/
  | linkDown (link : Fin 32) (h : CtrlHdr) (cause : Nat)
  /-- R489. A peer's STANDBY_REQ is answered with STANDBY_ACK and both ends stop. -/
  | standbyReq (link : Fin 32) (h : CtrlHdr)
  /-- R489. The peer agrees and the link enters STANDBY unless a packet is ready. -/
  | standbyAck (link : Fin 32) (h : CtrlHdr)
  /-- R489. No STANDBY_ACK within 10 microseconds; the link stays ACTIVE. -/
  | standbyAckTimeout (link : Fin 32)
  /-- R489. No DATA flit for LINK_STANDBY_IDLE and the link asks to enter STANDBY. -/
  | linkStandbyIdleExpiry (link : Fin 32)
  /-- R489. A packet to send or peer activity wakes a STANDBY link, which resumes with its counters. -/
  | linkWake (link : Fin 32)
  /-- R259. The peer's HELLO opens the key exchange. -/
  | hello (link : Fin 32) (version : Nat) (audit : Bool) (narrow : Bool)
  /-- R259. The peer's certificate chain is received and checked. -/
  | cert (link : Fin 32) (chain : Bytes)
  /-- R259. The peer's ephemeral key and signature are received and checked. -/
  | share (link : Fin 32) (pub : Bytes) (sig : Bytes)
  /-- R259. The peer's FINISHED is checked; keys are derived and the link becomes ACTIVE. -/
  | finished (link : Fin 32) (mac : Bytes)
  /-- R259. A key-exchange message unanswered for 1 ms is sent again. -/
  | keyxRetransmit (link : Fin 32)
  /-- R259. The key exchange exceeds 5 ms and the link enters FAILED with cause AUTH. -/
  | keyxTimeout (link : Fin 32)
  /-- R264. A link in DETECT finds its peer and enters TRAIN. -/
  | peerDetected (link : Fin 32)
  /-- R264. Lanes are adapted and aligned and the link enters KEYX. -/
  | trainingDone (link : Fin 32)
  /-- R266. Lanes fail to adapt or align within 400 ms and the link enters FAILED. -/
  | trainingFailed (link : Fin 32)
  /-- R266. No good flit for LINK_DEAD_TIMEOUT and the link goes DOWN. -/
  | linkDeadTimeout (link : Fin 32)
  /-- R272. LINK_RETRY_INTERVAL runs out and a DOWN or FAILED link restarts from DETECT. -/
  | linkRetry (link : Fin 32)
  /-- R301. A Gatehouse die is lost; its links go down and retained packets are resent on the partners. -/
  | gatehouseDieLost (gh : Fin 16)
  /-- R271. A dedup entry whose source has been silent for DEDUP_HOLD frees. -/
  | dedupExpiry (epid : Nat) (tc : Fin 4)
  /-- R274. LINK_CMD RETRAIN takes the link DOWN and restarts it from DETECT. -/
  | retrain
  /-- R274. LINK_CMD DISABLE makes the link DISABLED. -/
  | disable
  /-- R264. LINK_CMD ENABLE moves a DISABLED link to DETECT. -/
  | enable
  /-- R273. QUERY reports the link's lanes and the peer certificate hash. -/
  | linkQuery
  /-- R274. DEDUP_CLEAR frees every dedup entry of an EPID. -/
  | dedupClear
  /-- R310. No packet carried ECE to a CE source within 1 microsecond, so a CNP is sent. -/
  | cnpSend (src : Nat) (tc : Fin 4)
  /-- R311. A CC_AI_PERIOD passes without a decrease and CC_AI is added to the rate. -/
  | ccRateIncrease (epid : Nat) (tc : Fin 4)
  /-- R313. An egress link chooses its next packet by class buckets, DRR or WFQ and express windows. -/
  | egressSelect (link : Fin 32)
  /-- R316. An express window of a link opens at its period boundary. -/
  | expressWindowOpen (link : Fin 32)
  /-- R319. An express window of a link ends. -/
  | expressWindowClose (link : Fin 32)
  /-- R306. SET_BLOCK writes a block route entry in every Gatehouse. -/
  | setBlock
  /-- R306. SET_EXACT writes an exact route entry. -/
  | setExact
  /-- R306. CLEAR_EXACT removes an exact route entry. -/
  | clearExact
  /-- R293. PAIR_OUT takes a pair out of service. -/
  | pairOut
  /-- R293. PAIR_IN returns a pair to service. -/
  | pairIn
  /-- R321. QUERY returns the route entry in use for an EPID. -/
  | routeQuery
  /-- R306. The last packet under an old route or guest-map entry finishes and RESULT reads done. -/
  | epochDrainDone (route : Bool)
  /-- R304. SET writes an exact or wildcard guest-map entry. -/
  | gmapSet
  /-- R307. CLEAR removes a guest-map entry. -/
  | gmapClear
  /-- R321. QUERY returns the GID of a guest-map entry. -/
  | gmapQuery
  /-- R303. ADD puts a key in a link's key set. -/
  | pkeyAdd
  /-- R303. REMOVE takes a key out of a link's key set. -/
  | pkeyRemove
  /-- R321. QUERY returns a link's key set. -/
  | pkeyQuery
  /-- R322. SET configures an egress queue. -/
  | queueSet
  /-- R322. REMOVE deletes a configured queue, moving its packets to the default queue. -/
  | queueRemove
  /-- R321. QUERY reports an egress queue. -/
  | queueQuery
  /-- R333. A subchannel picks and issues its next DRAM command. -/
  | columnCommandIssue (ch : Fin 48) (sub : Fin 2) (ready : List Nat) (retire : Nat)
  /-- R362. A DRAM read returns and is decoded, corrected, re-read or reconstructed. -/
  | dramReadReturn (ch : Fin 48) (line : Nat) (e1 : Nat) (e2 : Nat)
  /-- R331. A WCB line drains to DRAM when quiet, when the buffer is high or when asked. -/
  | wcbDrain (ch : Fin 48) (line : Nat)
  /-- R334. A bank's idle timer reaches PAGE_IDLE_TIMER and the bank is precharged. -/
  | pageIdleExpiry (ch : Fin 48) (sub : Fin 2) (bank : Fin 128)
  /-- R336. A rank's refresh falls due and is issued or postponed. -/
  | refresh (ch : Fin 48) (sub : Fin 2) (rank : Fin 4) (ba : Fin 4) (due : Bool)
  /-- R337. Every SB_POLL the DIMM sensors are read and throttling is set. -/
  | dimmTempPoll (ch : Fin 48) (t : Int)
  /-- R338. A channel idle for CH_IDLE_SR enters self-refresh. -/
  | chIdleSrExpiry (ch : Fin 48)
  /-- R338. A request wakes a channel from self-refresh. -/
  | selfRefreshExit (ch : Fin 48)
  /-- R488. A channel idle for CH_IDLE_PD enters power-down. -/
  | chIdlePdExpiry (ch : Fin 48)
  /-- R339. CHnn_ALERT_N asserts and both subchannels stop issuing. -/
  | alertNAssert (ch : Fin 48)
  /-- R339. The alert releases; the DIMM error is cleared and the retry buffer is replayed. -/
  | alertRelease (ch : Fin 48)
  /-- R341. Start-up training of a channel passes, reruns or fails. `ok` tells that every step but the sweeps passed, `lanes` what the sweeps
  meet, rank by rank, 20 lanes each, and `osc` the DQS-oscillator counts by rank and subchannel. -/
  | channelTrainingDone (ch : Fin 48) (ok : Bool) (lanes : List LaneSweep) (osc : List Nat)
  /-- R345. A channel's fill ends and it serves. -/
  | channelFillDone (ch : Fin 48)
  /-- R347. Every 2 ms a rank's DQS oscillator is measured and write delays are corrected. -/
  | dqsOscMeasure (ch : Fin 48) (rank : Fin 4) (change : Int)
  /-- R348. Every 100 ms a lane's read centre is rechecked and moved. -/
  | readCentreRecheck (ch : Fin 48) (lane : Fin 20) (off : Int)
  /-- R349. A channel due for retrain enters RETRAINING once no group peer retrains. -/
  | retrainStart (ch : Fin 48)
  /-- R350. A retrain ends; the channel is READY or FAILED. -/
  | retrainDone (ch : Fin 48) (lanes : List LaneSweep) (osc : List Nat)
  /-- R349. TRAIN_CMD RETRAIN asks for a channel retrain. -/
  | trainRetrain
  /-- R352. TRAIN_CMD FULL reruns training steps 3 to 9 on a channel. -/
  | trainFull
  /-- R354. The device loses I2C arbitration, stops driving and backs off. -/
  | sbArbLost (bus : Fin 6)
  /-- R354. The backoff runs out and the sideband transfer is retried. -/
  | sbBackoffExpiry (bus : Fin 6) (answer : Option Bytes)
  /-- R355. SDA low for over 25 ms is cleared with clock pulses and a STOP. -/
  | sbBusRecovery (bus : Fin 6)
  /-- R358. SB_CMD READ reads DIMM sideband registers. -/
  | sbRead (lost : Bool) (answer : Option Bytes)
  /-- R358. SB_CMD WRITE writes DIMM sideband registers. -/
  | sbWrite (lost : Bool) (acked : Bool)
  /-- R368. The patrol scrubber reads the next line and checks stripe parity. -/
  | scrubLine (ch : Fin 48)
  /-- R371. A delta reaches the parity Cellar and is merged and acknowledged. -/
  | parityDelta (ch : Fin 48) (m : Fin 8) (line : Nat)
  /-- R373. A delta is not acknowledged in time and the stripe becomes stale. -/
  | parityAckTimeout (ch : Fin 48) (m : Fin 8) (line : Nat)
  /-- R374. A stale stripe's parity is rewritten once the parity channel is READY. -/
  | staleStripeRebuild (group : Fin 5) (stripe : Nat)
  /-- R376. A channel enters FAILED; parity logs replay and a spare rebuild is chosen. -/
  | channelFailed (ch : Fin 48)
  /-- R378. The rebuild writes the next stripe onto the spare under the stripe lock. -/
  | rebuildStripe (group : Fin 5)
  /-- R382. A row is repaired by sPPR, and hPPR where enabled. -/
  | rowRepair (ch : Fin 48) (left : Bool)
  /-- R367. WRITE_RAW stores raw data and ECC bytes. -/
  | writeRaw
  /-- R367. READ_RAW returns the stored bytes. -/
  | readRaw
  /-- R367. READ_DECODED decodes a line and returns data and syndromes. -/
  | readDecoded
  /-- R387. CE_LOG_CLEAR empties a channel's corrected-error log. -/
  | ceLogClear
  /-- R388. PPR applies hPPR to the row holding a line. -/
  | ppr
  /-- R388. EVACUATE fails a strongroom member and rebuilds it onto a spare. -/
  | evacuate
  /-- R391. A health test fails and the DRBG stops. -/
  | entropyHealthFail
  /-- R391. Every 100 ms the stopped source reruns its start-up tests and may resume the DRBG. -/
  | entropyRetest (ok : Bool)
  /-- R391. The DRBG is reseeded after 65,536 requests or 10 s. -/
  | drbgReseed
  /-- R397. A key record arrives for a missed key and is unwrapped and installed. -/
  | keyCacheFill (die : Fin 24) (gid : Fin 1048576)
  /-- R402. TEARDOWN marks a guest TEARING on every member and starts its teardown. -/
  | teardown
  /-- R402. The guest holds no tracker, slot or lock; recall, drain, sweep, key destruction and freeing follow. -/
  | teardownDrainDone
  /-- R416. QUERY_KEY reports a guest's KSTATE on this device. -/
  | queryKey
  /-- R409. WRITE_CHUNK writes firmware bytes into the slot not running. -/
  | writeChunk
  /-- R409. VERIFY checks the other slot's image. -/
  | verify
  /-- R409. ACTIVATE hands control to the verified image by planned takeovers. -/
  | activate
  /-- R409. The new image holds control for 60 s and the boot flag names its slot. -/
  | fwConfirm
  /-- R408. COMMIT_SVN blows fuses up to the running image's SVN. -/
  | commitSvn
  /-- R406. A write of ATTEST_NONCE produces a signed attestation report. -/
  | attest (nonce : Bytes)
  /-- R411. CHALLENGE returns a debug-unlock nonce. -/
  | challenge
  /-- R411. UNLOCK checks the signature, purges keys and grants a debug level. -/
  | unlock
  /-- R411. A debug nonce expires 60 s after CHALLENGE. -/
  | debugNonceExpiry
  /-- R410. The first use of EXTEST, CLAMP or HIGHZ purges keys and enters TEST_HALT. -/
  | extest
  /-- R509. TRST_N or five TCK cycles with TMS high reset the TAP. -/
  | tapReset
  /-- R425. The active Innkeeper writes a heartbeat to both AON blocks every 1 ms. -/
  | heartbeat
  /-- R425. No heartbeat for 3 ms and the standby declares the active failed. -/
  | heartbeatTimeout
  /-- R425. A core watchdog expires and the active Innkeeper is declared failed. -/
  | watchdogExpiry
  /-- R427. An SRAM error, firmware fatal error or die loss starts an unplanned takeover. -/
  | innkeeperFailure (die : Fin 2) (cause : Fin 3)
  /-- R427. The standby has loaded checkpoint and journal and becomes ACTIVE, ending the gap. -/
  | takeoverDone
  /-- R422. Every 10 ms the active Innkeeper captures a checkpoint. -/
  | checkpoint
  /-- R422. A checkpoint's sequence number is written in both copies and the journal is trimmed. -/
  | checkpointComplete
  /-- R422. A checkpoint not complete 10 ms after capture raises source 0x001. -/
  | checkpointLate
  /-- R432. A returning Innkeeper die runs its once-a-second self-test. -/
  | ikSelfTestRun (die : Fin 2) (pass : Bool)
  /-- R437. With both Innkeepers lost, a die is reset and tested every 10 s. -/
  | ikRecoveryTest (die : Fin 2) (pass : Bool)
  /-- R434. IK_CMD SWITCH runs a planned takeover. -/
  | switch
  /-- R432. IK_CMD RETEST retests a FAILED die. -/
  | retest
  /-- R433. IK_CMD HOLD_OUT puts a die in HELD_OUT. -/
  | holdOut
  /-- R433. IK_CMD RELEASE ends HELD_OUT. -/
  | release
  /-- R439. A rising source edge sets PENDING and counts an arrival. -/
  | irqEdge (src : Fin 512)
  /-- R441. Arbitration presents the winning source's vector to a ready core. -/
  | irqDeliver (reenabled : Fin 16)
  /-- R453. QUERY returns a source's vector and PRIO. -/
  | irqQuery
  /-- R440. SET_PENDING sets a source's PENDING bit. -/
  | setPending
  /-- R439. CLEAR_PENDING clears a source's PENDING bit. -/
  | clearPending
  /-- R439. CLEAR_COUNT clears a source's arrival counter. -/
  | clearCount
  /-- R445. A write of 1 clears alert-status bits and may release ALERT_N. -/
  | irqAlertStatusWrite (v : Nat)
  /-- R443. A write of 1 clears IRQ_OVERRUN bits. -/
  | irqOverrunWrite (v : Nat)
  /-- R446. A PIGEON WRITE_IN stores words in a hole's IN direction. -/
  | writeIn (link : Fin 32) (p : Packet)
  /-- R446. A PIGEON READ_OUT returns the OUT words and clears FULL. -/
  | readOut (link : Fin 32) (p : Packet)
  /-- R447. A PIGEON POLL returns the hole's status word. -/
  | poll (link : Fin 32) (p : Packet)
  /-- R446. PIGEON_CMD READ_IN returns the IN words and clears FULL. -/
  | readIn
  /-- R446. PIGEON_CMD WRITE_OUT stores words in the OUT direction. -/
  | writeOut
  /-- R449. A write of PIGEON_OWNER empties both directions of the hole. -/
  | pigeonOwnerWrite (hole : Fin 64) (v : Nat)
  /-- R456. A T1S frame is filtered and its PDU queued, or it is discarded and counted. -/
  | t1sFrame (f : Frame)
  /-- R458. A follower hears no BEACON for 10 ms and falls back to CSMA/CD. -/
  | plcaBeaconTimeout
  /-- R462. A READ PDU returns value bytes, taking a snapshot at offset 0. -/
  | dictRead
  /-- R463. A WRITE PDU stages or applies a value after the checks of R468. -/
  | dictWrite (lost : Bool) (answer : Option Bytes)
  /-- R466. DESCRIBE returns an object's type, access, size and default. -/
  | describe
  /-- R479. DEFAULTS returns RWP objects to their defaults. -/
  | defaults
  /-- R471. OPEN_HELLO starts a session and returns the device's signed key share. -/
  | openHello
  /-- R471. OPEN_CERT stages the peer's certificate chain. -/
  | openCert
  /-- R471. OPEN_PROVE checks the peer's chain and signature and opens or frees the session. -/
  | openProve
  /-- R474. CLOSE ends a session. -/
  | close
  /-- R462. A read snapshot is dropped 1 s after it was taken. -/
  | snapshotExpiry
  /-- R463. A segmented-write staging is discarded 1 s after its latest segment. -/
  | stagingExpiry (session : Fin 8)
  /-- R471. A session not OPEN within 5 s of OPEN_HELLO is freed. -/
  | sessionOpenTimeout (session : Fin 8)
  /-- R474. A session idle for SESSION_IDLE ends. -/
  | sessionIdleExpiry (session : Fin 8)
  /-- R475. A peer's 60 s lockout after eight failed opens ends. -/
  | openLockoutExpiry (inband : Bool) (addr : Nat)
  /-- R477. Compaction into the other configuration copy ends and waiting writes proceed. -/
  | flashCompactionDone
  /-- R484. CLEAR_TRAINED sets a channel's trained calibration group to zeros. -/
  | clearTrained
  /-- R465. A write to an object with no behaviour of its own stores the value. -/
  | registerWrite (idx : Fin 65536) (sub : Fin 256) (v : Bytes)
  /-- R487. An idle cluster enters Shuttered after CLUSTER_SHUTTER_IDLE. -/
  | clusterShutterExpiry (cluster : Fin 128)
  /-- R487. A Shuttered cluster enters Dark after CLUSTER_DARK_IDLE. -/
  | clusterDarkExpiry (cluster : Fin 128)
  /-- R486. A cluster woken for work reaches Open. -/
  | clusterWakeDone (cluster : Fin 128)
  /-- R492. POWER_CMD NIGHT checks blockers and starts Night entry. -/
  | night
  /-- R492. A drain, checkpoint or save of Night entry completes and entry moves on. -/
  | nightEntryStepDone
  /-- R493. A wake source or packet aborts Night entry or starts a Night exit. -/
  | wake (source : Fin 5) (link : Fin 32)
  /-- R491. WAKE_N held low is a wake source. -/
  | wakeNLow (low : Bool)
  /-- R491. TIMEBASE reaches WAKE_TIMER and the device wakes. -/
  | wakeTimerExpiry
  /-- R495. Channels retrain, the Ledger is restored and the Innkeeper resumes. -/
  | nightExitDone (bad : Nat)
  /-- R500. A reference clock is declared bad and the device switches clocks or falls back to the oscillator. -/
  | refclkFail (which : Fin 2)
  /-- R500. REFCLK_A good for 1 s and the device returns to it. -/
  | refclkRevert
  /-- R501. A clock good for 10 ms after both failed; PLLs relock and work resumes. -/
  | refclkRecovery (which : Fin 2) (bad : Nat)
  /-- R507. Every 100 microseconds a die temperature is read and warning or throttling applies. -/
  | dieTempSample (die : Fin 64) (t : Int)
  /-- R503. A write of 1 clears CDC_OVERRUN bits. -/
  | cdcOverrunWrite (v : Nat)
  /-- R515. CONFIG sets a counter's configuration word or is refused. -/
  | ctrConfig
  /-- R534. READ returns a counter's configuration and value words. -/
  | ctrRead
  /-- R516. WRITE sets a counter's value word. -/
  | ctrWrite
  /-- R518. SNAPSHOT sets a capture time 10 microseconds ahead for every die. -/
  | snapshot
  /-- R518. Each die copies its counters when its timebase reaches the capture time. -/
  | snapshotCapture (die : Fin 64)
  /-- R534. CLEAR_DIE zeroes every counter of a die. -/
  | clearDie
  /-- R518. A write of CTR_FREEZE stops or restarts every counter 10 microseconds later. -/
  | ctrFreezeWrite (v : Bool)
  /-- R527. At each SAMPLE_PERIOD boundary in SERVICE each sampler records depth and tags an item. -/
  | sampleTick
  /-- R527. A write of SAMPLE_QUEUE or SAMPLE_PERIOD clears the records concerned. -/
  | samplerConfigWrite (sampler : Option (Fin 64)) (v : Nat)
  /-- R528. A write of HWM_QUEUE clears that queue's marks. -/
  | hwmQueueWrite (k : Fin 64) (v : Nat)
  /-- R525. RECOVERY_HOLD runs out after the last recovery event and the phase changes. -/
  | recoveryHoldExpiry
  /-- R525. START ends after 60 s without SERVING. -/
  | startPhaseExpiry
  /-- R531. LOG_CMD READ returns up to 15 records from a RECNO. -/
  | logRead
  /-- R539. The active Innkeeper toggles STAT3 every 500 ms. -/
  | stat3Toggle
  /-- R546. VDD_AON falls, destroying the package keys and ending TAMPER_HALT, TEST_HALT and a latched THERMTRIP_N. -/
  | powerOff
  /-- R274. A link under RETRAIN has spent 400 ms in DETECT without finding a peer, so LINK_CMD RESULT reads 0x00 and the link goes on retrying. -/
  | detectWithoutPeer (link : Fin 32)
  /-- R353. In I3C mode a DIMM temperature sensor raises an in-band interrupt that the device accepts. -/
  | i3cInBandInterrupt (ch : Fin 48) (t : Int)
  /-- R458. A PLCA follower that fell back to CSMA/CD hears a BEACON again and resumes PLCA access. -/
  | plcaBeaconHeard
  /-- R400. A cluster declared lost under R82 returns to service and is cleared before it takes any chunk. -/
  | clusterReturnsToService (cluster : Fin 128)
  /-- R376. A Cellar die is lost: both its channels fail, its key cache, atomic unit and any parity log it held are gone, and Δ acknowledgements to it time out. -/
  | cellarDieLost (die : Fin 24)
  /-- R500. A reference clock that was declared bad becomes good again, so its bit of REFCLK_STATUS is set and a later switch to it becomes possible. -/
  | refclkGood (which : Fin 2)
deriving DecidableEq, Repr

end Sys2Proof
end

