-- ==== Sys2Proof/Config.lean ====
section
/-! DEFINITION. What the model takes as given: the standard algorithms the manual names without writing them out, the
values burnt into a part at the factory, and the free values of results the manual leaves open. None of the opaque
constants has a body, so nothing can be proved of their values. -/

namespace Sys2Proof.Config

open Sys2Proof

/-! Standard algorithms, named by the manual and not written out in it (assumption 1). -/

/-- SHA-384 of a byte string. -/
opaque sha384 : Bytes → Bytes

/-- HMAC-SHA-384 of data under a key. -/
opaque hmac384 : Bytes → Bytes → Bytes

/-- HKDF (RFC 5869) with SHA-384: input key material, salt, info, and the index of an output byte. -/
opaque hkdf384 : Bytes → Bytes → Bytes → Nat → Byte

/-- ECDSA P-384 verification: public key, data, signature. -/
opaque ecdsaVerify : Bytes → Bytes → Bytes → Bool

/-- ECDSA P-384 signature by the identity key over data. -/
opaque ecdsaSign : Bytes → Bytes

/-- The ephemeral P-384 public key made from DRBG output at n, and the ECDH secret it makes with a peer's key. -/
opaque ephemeralPub : Nat → Bytes
opaque ecdhSecret : Nat → Bytes → Bytes

/-- ECDSA P-384 verification of data against the key whose SHA-384 a trust anchor holds. -/
opaque anchorVerify : Bytes → Bytes → Bytes → Bool

/-- AES-256-GCM: byte i of the keystream of (key, IV), and the 128-bit tag of (key, IV, AAD, ciphertext). -/
opaque gcmStream : Bytes → Bytes → Nat → Byte
opaque gcmTag : Bytes → Bytes → Bytes → Bytes → BitVec 128

/-- AES-256-XTS of one 64-byte line (R394): a permutation of the line for each 512-bit key and 128-bit tweak. -/
opaque xts : BitVec 512 → BitVec 128 → Equiv.Perm (BitVec 512)

/-- Output byte i of the CTR_DRBG (R391). -/
opaque drbg : Nat → Byte

/-- The certificates of a DER chain, leaf first; empty when it does not parse. -/
opaque chainCerts : Bytes → List Bytes

/-- A certificate's public key; its issuer's public key; whether its signature verifies under a key, with ECDSA P-384
and SHA-384; its subject's serial number; and whether the issuer is the Koeraique device CA. -/
opaque certKey : Bytes → Bytes
opaque certIssuerKey : Bytes → Bytes
opaque certSigOk : Bytes → Bytes → Bool
opaque certSerial : Bytes → Bytes
opaque certByDeviceCa : Bytes → Bool

/-- Checks of step 4 of Table 12.4 other than SVN on a slot's 1,024-byte chunks: version, SVN and SHA-384 of an image
that passes them. -/
opaque fwImage : List (Nat × Bytes) → Option (Nat × Nat × Bytes)

/-! Factory values of a part (assumption 2). -/

/-- `SERIAL_NUMBER`, `DEVICE_CERT`, `DEVICE_CA_CERT`, anchor 1 and the factory calibration of a channel. -/
opaque serialNumber : Bytes
opaque deviceCert : Bytes
opaque deviceCaCert : Bytes
opaque anchor1 : Bytes
/-- SHA-384 of the image a slot left the factory with. -/
opaque factoryHash : Nat → Bytes
opaque calSeed : Nat → Bytes
opaque calTrim : Nat → Bytes
/-- `MAC_ADDRESS`, as a 48-bit number. -/
opaque macAddress : Nat
/-- A DRAM timing parameter of Table 10.6 as the SPDs give it, in ps. -/
opaque spdTiming : Nat → Nat
/-- `FW_SVN_MIN` as fused. -/
opaque svnFused : Nat

/-! Fixed functions the manual does not state (assumption 3). -/

/-- The spur hash of R289. -/
opaque spurHash : Nat → Nat → Nat → Nat
/-- Mesh hops from a sequencer's cluster to a cluster (R125). -/
opaque meshHops : Nat → Nat → Nat
/-- Payload bytes of a SETMSG (assumption 21). -/
opaque setmsgBytes : SetMsg → Bytes
/-- SiLU and GELU of an FP32 value, within the 2 ulp of R109. -/
opaque silu : BitVec 32 → BitVec 32
opaque gelu : BitVec 32 → BitVec 32

/-- What the firmware image sets for an interrupt source: a vector, a multiple of 16, and a PRIO (R441). -/
opaque irqVector : Nat → Nat
opaque irqPrio : Nat → Nat

/-! Free values of results the manual leaves open (assumption 4), indexed by `State.freeCount`. -/

opaque freeByte : Nat → Byte
/-- DATA flits that have left the flit FIFO of a link by the n-th time it is looked at (R251; assumption 42). -/
opaque fifoDrain : Nat → Nat → Nat
/-- Issue slots that a cluster uses in the AON cycle that begins at a time, and those that a granule of a waybill took (R523, R524;
assumption 48). -/
opaque issueSlots : Nat → Nat → Nat
opaque granuleSlots : Nat → Nat → Nat → Nat
/-- What stands for the line key of a guest that has none. -/
opaque noKey : Nat → Bytes
opaque freeWord : Nat → Word
/-- A choice among n outcomes the manual leaves unordered. -/
opaque freeNat : Nat → Nat
opaque freeBool : Nat → Bool

end Sys2Proof.Config
end

