-- ==== Sys2Proof/Machine/Tab.lean ====
section
/-! DEFINITION. A table of rows by number, kept sorted by rising key with no repeats, so that equal tables are equal
data. A number with no row stands for the entry's reset value, which each reader names. -/

namespace Sys2Proof

/-- A table by number: rows of (key, entry). -/
structure Tab (α : Type) where
  rows : List (Nat × α) := []
deriving DecidableEq, Repr

/-- The rows with (k, v) put in its place, replacing a row of the same key. -/
def putRow {α : Type} (k : Nat) (v : α) : List (Nat × α) → List (Nat × α)
  | [] => [(k, v)]
  | (k', v') :: r => if k < k' then (k, v) :: (k', v') :: r else if k = k' then (k, v) :: r else (k', v') :: putRow k v r

/-- The entry of a key among rows. -/
def findRow {α : Type} (k : Nat) : List (Nat × α) → Option α
  | [] => none
  | (k', v) :: r => if k = k' then some v else findRow k r

/-- The entry at k, if the table has a row for it. -/
def Tab.find {α : Type} (t : Tab α) (k : Nat) : Option α := findRow k t.rows

/-- The entry at k, or d where there is no row. -/
def Tab.getD {α : Type} (t : Tab α) (k : Nat) (d : α) : α := (t.find k).getD d

/-- The table has a row for k. -/
def Tab.has {α : Type} (t : Tab α) (k : Nat) : Bool := (t.find k).isSome

/-- The table with v at k. -/
def Tab.put {α : Type} (t : Tab α) (k : Nat) (v : α) : Tab α := ⟨putRow k v t.rows⟩

/-- The table without a row for k. -/
def Tab.del {α : Type} (t : Tab α) (k : Nat) : Tab α := ⟨t.rows.filter fun r => r.1 != k⟩

/-- The table with the entry at k changed, where there is one. -/
def Tab.upd {α : Type} (t : Tab α) (k : Nat) (f : α → α) : Tab α :=
  match t.find k with
  | none => t
  | some v => t.put k (f v)

/-- The rows that satisfy p. -/
def Tab.filter {α : Type} (t : Tab α) (p : Nat → α → Bool) : Tab α := ⟨t.rows.filter fun r => p r.1 r.2⟩

/-- Every entry changed by f. -/
def Tab.map {α : Type} (t : Tab α) (f : Nat → α → α) : Tab α := ⟨t.rows.map fun r => (r.1, f r.1 r.2)⟩

/-- The number of rows that satisfy p. -/
def Tab.count {α : Type} (t : Tab α) (p : Nat → α → Bool) : Nat := (t.rows.filter fun r => p r.1 r.2).length

/-- The number of rows. -/
def Tab.size {α : Type} (t : Tab α) : Nat := t.rows.length

/-- The keys, rising. -/
def Tab.keys {α : Type} (t : Tab α) : List Nat := t.rows.map (·.1)

/-- Lowest number below n, from k on, that has no row. -/
def freeFrom {α : Type} (t : Tab α) (k : Nat) : Nat → Option Nat
  | 0 => none
  | n + 1 => if t.has k then freeFrom t (k + 1) n else some k

/-- Lowest number below n without a row. -/
def Tab.lowestFree {α : Type} (t : Tab α) (n : Nat) : Option Nat := freeFrom t 0 n

/-- Rows strictly rising from a bound. -/
def risingFrom {α : Type} : Nat → List (Nat × α) → Bool
  | _, [] => true
  | b, (k, _) :: r => decide (b ≤ k) && risingFrom (k + 1) r

/-- The table's canonical form: keys strictly rising. -/
def Tab.wf {α : Type} (t : Tab α) : Bool := risingFrom 0 t.rows

end Sys2Proof
end

