-- ==== Sys2Proof/Machine/CellarTypes.lean ====
section
/-! DEFINITION. State of the DRAM channels, their training and sideband, and of stored-data protection (chapters 10
and 11). Plain data. -/

namespace Sys2Proof.Machine

open Sys2Proof

/-- A line of a write-combining buffer (R331, R366, R394): its bytes as plaintext (a raw parity line: as stored), which
of them were written since it entered, and the guest whose key encrypts it. -/
structure WLine where
  data : Bytes := []
  /-- Bit b: byte b has been written since the line entered. -/
  mask : Nat := 0
  gid : Nat := 0
  /-- The line is stored with POISON = 1 when it is written whole. -/
  poison : Bool := false
  /-- HSH, as the hearth leaves it. -/
  hsh : Bool := false
  /-- Time it entered and time of its last write, ns. -/
  entered : Nat := 0
  written : Nat := 0
deriving DecidableEq, Repr

/-- A parity line being accumulated in the parity channel's WCB (R371): 64 bytes and metadata bits of Δ. -/
structure PLine where
  delta : Bytes := []
  dmeta : Nat := 0
deriving DecidableEq, Repr

/-- A burst in a subchannel queue (R332). -/
structure Burst where
  write : Bool := false
  line : Nat := 0
  /-- Time it joined, ns. -/
  joined : Nat := 0
  /-- Tracker of the request it serves, if any. -/
  trk : Option Nat := none
  /-- Matrix weight stream that reads it, as waybill key and cluster (R178). -/
  weight : Option (Nat × Nat) := none
deriving DecidableEq, Repr

/-- A subchannel's controller (R332 to R339). -/
structure Sub where
  rq : List Burst := []
  wq : List Burst := []
  /-- Reads issued and not returned. -/
  inFlight : List Burst := []
  writes : Bool := false
  /-- Open row by rank * 32 + bank group * 4 + bank, and the time of the bank's last column command, ns. -/
  rows : Tab (Nat × Nat) := {}
  /-- Refreshes postponed (positive) or pulled in, by rank. -/
  refresh : Tab Int := {}
  /-- Retry buffer, oldest first: command and when issued, ns. -/
  retry : List (String × Nat) := []
deriving DecidableEq, Repr

/-- A corrected-error log entry (Table 11.3). -/
structure CeEnt where
  source : Nat := 0
  word : Nat := 0
  synd : Nat := 0
  line : Nat := 0
  count : Nat := 0
  time : Nat := 0
deriving DecidableEq, Repr

/-- One DRAM channel. -/
structure Chan where
  /-- CHANNEL_STATE (Table 10.2). -/
  st : Nat := 0
  /-- CHANNEL_DIMM, capacity in bytes and ranks as its SPD gives them. -/
  dimm : Nat := 0
  size : Nat := 0
  ranks : Nat := 4
  /-- In TRAINING: steps pass, and the fill runs. -/
  filling : Bool := false
  /-- Steps 3 to 9 have been run a second time (R342). -/
  reran : Bool := false
  wcb : Tab WLine := {}
  /-- Parity lines of a parity channel, by line. -/
  plines : Tab PLine := {}
  /-- Parity log of a parity channel: lines in the WCBs of the data members, (member, line). -/
  plog : List (Nat × Nat) := []
  /-- Deltas sent and not acknowledged: (member, line, when, Δ bytes, Δ metadata). -/
  deltas : List (Nat × Nat × Nat × Bytes × Nat) := []
  subs : List Sub := [{}, {}]
  /-- Power-down (R488). -/
  pd : Bool := false
  /-- Time of the last request, ns. -/
  lastReq : Nat := 0
  /-- Hottest sensor, quarter degrees; throttle level 0, 1 or 2 (R337). -/
  temp : Int := 0
  throttle : Nat := 0
  /-- ALERT_N is asserted; times of the alerts of the last 1 ms, ns. -/
  alert : Bool := false
  alerts : List Nat := []
  /-- Built of x8 devices, whose lanes 2j and 2j + 1 are one (R324). -/
  x8 : Bool := false
  /-- Module manufacturer ID and serial number of its SPD. -/
  maker : Nat := 0
  serial : Nat := 0
  /-- Lane entries that the sweeps of the training that runs start from, none where every lane is swept whole; and the trims in force
  (R343, R481, R482). -/
  seed : Option Bytes := none
  trim : Bytes := []
  /-- Lane entries in use (Table 14.9). -/
  entries : Bytes := []
  /-- Trained result: widest windows of the 20 lanes, write and read drift from the trained value per rank or lane, baselines. -/
  eyes : List Nat := List.replicate 20 0
  wrDrift : Tab Int := {}
  rdDrift : Tab Int := {}
  oscBase : Tab Nat := {}
  /-- A retrain or FULL is asked for, its cause: 1 drift, 2 errors, 3 alert, 4 command, 5 FULL. -/
  want : Nat := 0
  /-- FULL runs. -/
  full : Bool := false
  retrains : Nat := 0
  /-- Times of retrains of the last 60 minutes, ms; time of the last retrain for errors, ms. -/
  times : List Nat := []
  ceRetrain : Option Nat := none
  /-- Until this time, ms, errors ask for no retrain (R349). -/
  ceHold : Nat := 0
  /-- Times of corrected errors of the last second, ms. -/
  ceTimes : List Nat := []
  ceCount : Nat := 0
  ueRepaired : Nat := 0
  ueLost : Nat := 0
  ceLog : List CeEnt := []
  /-- Rows uncorrectable after re-read, with time in ms (R376). -/
  ueRows : List (Nat × Nat) := []
  /-- Offset of the next line to scrub, in lines. -/
  scrub : Nat := 0
  pprUsed : Nat := 0
  /-- Row repair in progress: its row, and whether hard. -/
  repair : Option (Nat × Bool) := none
  /-- Rows to repair, and bank groups of a rank and a subchannel that are out of repair resources. -/
  wantRepair : List Nat := []
  noRepair : List Nat := []
deriving DecidableEq, Repr

/-- A strongroom group (Table 11.5). -/
structure Group where
  st : Nat := 0
  /-- Channel of member m; 8 is the parity member. -/
  members : List Nat := []
  /-- Failed members. -/
  failed : List Nat := []
  /-- Rebuild: member, the spare, next stripe. -/
  rebuild : Option (Nat × Nat × Nat) := none
  /-- Member failed by EVACUATE, whose rebuild reads its own granules where they decode (R388). -/
  evac : Option Nat := none
  /-- Lines (member, line index) that a rebuild wrote poisoned and whose parity has not been made again since: the stripes do not
  give their other members' lines (R378, R383). -/
  lost : List (Nat × Nat) := []
  /-- Lines that the rebuild wrote poisoned. -/
  poisoned : Nat := 0
deriving DecidableEq, Repr

/-- A stale-stripe entry (Table 11.4). -/
structure Stale where
  group : Nat := 0
  stripe : Nat := 0
  lines : Nat := 0
  members : Nat := 0
  time : Nat := 0
deriving DecidableEq, Repr

/-- A sideband bus (R353 to R355). -/
structure Bus where
  /-- The transfer under way lost arbitration this many times in a row. -/
  losses : Nat := 0
  recoveries : Nat := 0
  /-- SB_CMD transfer under way on this bus. -/
  busy : Bool := false
  /-- Sensor reads that wait for the bus, oldest first: channel and what its sensors show (R355). -/
  queue : List (Nat × Int) := []
deriving DecidableEq, Repr

/-- DRAM and its protection. -/
structure Cellar where
  chans : Tab Chan := {}
  /-- Stored bits: bytes at channel * 2^40 + line * 128 + b, b < 80. A byte without a row is 0 (assumption 13). -/
  dram : List Host.Cell := []
  layout : Nat := 1
  /-- 1 MRDIMM-8800, 2 RDIMM-6400. -/
  mode : Nat := 1
  /-- CHANNEL_CAPACITY, ADDRESSABLE_BYTES, TABLE_REGION_BASE. -/
  cap : Nat := 0
  bytes : Nat := 0
  tableBase : Nat := 0
  /-- Channels of the layout-0x00 region, ascending. -/
  plain : List Nat := []
  groups : Tab Group := {}
  /-- Channels of role spare, unused; spares rebuilding are named by their group. -/
  spares : List Nat := []
  stale : List Stale := []
  buses : Tab Bus := {}
  /-- HEARTH range in force: base, size; state 0 disabled, 1 enabled, 2 invalid. -/
  hearthState : Nat := 0
deriving DecidableEq, Repr

end Sys2Proof.Machine
end

