-- ==== Sys2Proof/Machine/FabricTypes.lean ====
section
/-! DEFINITION. State of the fabric side: links (chapter 08), routing, keys, queues and congestion (chapter 09). Plain data. -/

namespace Sys2Proof.Machine

open Sys2Proof

/-- A sequenced flit in the replay buffer (R247): the payload as encrypted and the header bits that replay keeps. -/
structure TxFlit where
  ftype : Nat := 0
  sop : Nat := 0xF
  pad : Nat := 0xF
  abt : Bool := false
  abtVc : Nat := 0
  cipher : Bytes := []
deriving DecidableEq, Repr

/-- A packet in an egress queue. -/
structure EPkt where
  link : Nat := 0
  queue : Nat := 0
  p : Packet := {}
  /-- Link whose receive pool holds it, for a packet in transit. -/
  inLink : Option Nat := none
  /-- VC it holds blocks of there. -/
  inVc : Nat := 0
  /-- The device originated it. -/
  own : Bool := false
  /-- WFQ finish tag (R315). -/
  finish : Nat := 0
  /-- Time it joined, ns. -/
  joined : Nat := 0
  /-- Route update count when it was routed (R306). -/
  epoch : Nat := 0
  /-- Tracker it keeps while it waits (R311), if it is the answer of a request that holds one. -/
  tracker : Option Nat := none
deriving DecidableEq, Repr

/-- Transmit direction of a link: sequence, replay and credits (R247 to R258). -/
structure LinkTx where
  /-- Sequenced flits formed since link-up: the next FSEQ is this modulo 4,096 and its group this div 64. -/
  formed : Nat := 0
  /-- Flits covered by the newest ACK, counted from link-up. -/
  acked : Nat := 0
  /-- Unacknowledged flits, oldest first: flit number acked + i stands at place i. -/
  buf : List TxFlit := []
  /-- Packets with a flit not yet acknowledged, oldest first, with the number of their last flit. -/
  sent : List (Nat × EPkt) := []
  /-- Replay pointer: number of the flit to resend next, while a replay runs. -/
  replay : Option Nat := none
  /-- Number of the flit the running replay started from. -/
  replayFrom : Nat := 0
  /-- Replays started with no ACK advance between them. -/
  consec : Nat := 0
  /-- Times, in ns, of the latest start of a replay and of the latest advance of the ACK (R250). -/
  replayAt : Option Nat := none
  ackAt : Option Nat := none
  /-- Bytes of started packets that no flit carries yet (R246). -/
  line : Bytes := []
  /-- `line` begins within a packet. -/
  mid : Bool := false
  /-- Started packets whose last byte is still in `line`, oldest first, with the length of `line` up to it. -/
  ends : List (Nat × EPkt) := []
  /-- Header bits [13:0] and ciphertext of the flits of the group being formed. -/
  grpOut : List (Nat × Bytes) := []
  /-- Tags of complete groups by group number, kept while a flit that carries a word of one may be sent again (R261). -/
  tags : Tab Nat := {}
  /-- The transmitter has stopped to move a lane (Table 8.2, step 3). -/
  moving : Bool := false
  /-- U_v: credits of each VC spent and not returned. -/
  used : List Nat := [0, 0, 0, 0, 0, 0, 0, 0]
  /-- R_v: credits received for each VC, modulo 2^16. -/
  got : List Nat := [0, 0, 0, 0, 0, 0, 0, 0]
  /-- VCs found quiet (R257). -/
  quiet : List Bool := [false, false, false, false, false, false, false, false]
  /-- The peer asks for no DATA flit (R251). -/
  paused : Bool := false
  /-- Rotating pointer over the VCs (R254). -/
  vcPtr : Nat := 0
  /-- Credit sync (R258): 0 none, 1 waiting for acknowledgements, 2 request sent. -/
  sync : Nat := 0
  /-- Requests of the running sync that went unanswered. -/
  syncTries : Nat := 0
deriving DecidableEq, Repr

/-- An accepted flit whose group has not verified. -/
structure RxFlit where
  hdr : Nat := 0
  ftype : Nat := 0
  sop : Nat := 0xF
  pad : Nat := 0xF
  abt : Bool := false
  abtVc : Nat := 0
  cipher : Bytes := []
deriving DecidableEq, Repr

/-- Receive direction of a link: expected flit, groups, pool and credits due (R249 to R263). -/
structure LinkRx where
  /-- Sequenced flits accepted since link-up: E is this modulo 4,096. -/
  taken : Nat := 0
  /-- Groups verified, counted from link-up. -/
  verified : Nat := 0
  /-- Accepted flits of groups not yet verified, oldest first. -/
  grp : List RxFlit := []
  /-- Words of the tag of group `verified`, by w (1 to 8). -/
  tagWords : Tab Nat := {}
  /-- A RETRY_REQ for the present gap has been sent. -/
  asked : Bool := false
  /-- Receiver does not accept flits (Table 8.2, step 1). -/
  closed : Bool := false
  /-- DATA flits in the flit FIFO, and the times it has been found drained (R251; assumption 42). -/
  fifo : Nat := 0
  draws : Nat := 0
  /-- PAUSE is set in every header sent (R251). -/
  pausing : Bool := false
  /-- Corrected FEC symbols of the last 1 ms: lane and time, in ns (R243). -/
  fixed : List (Nat × Nat) := []
  /-- Bytes of the packet in progress. -/
  partialPkt : Bytes := []
  /-- Verified packets that wait for their header to be taken at the port. -/
  released : List Packet := []
  /-- Pool blocks each VC holds. -/
  held : List Nat := [0, 0, 0, 0, 0, 0, 0, 0]
  /-- Credits due to the peer and not yet attached. -/
  due : List Nat := [0, 0, 0, 0, 0, 0, 0, 0]
  /-- Cumulative credits attached, modulo 2^16 (R256). -/
  attached : List Nat := [0, 0, 0, 0, 0, 0, 0, 0]
  /-- VC whose credits the next header carries first (R255). -/
  crPtr : Nat := 0
  /-- Times of the latest tag failures, in ns. -/
  tagFails : List Nat := []
deriving DecidableEq, Repr

/-- Progress of a key exchange (R259). -/
structure Keyx where
  /-- 0 not running; 1 HELLO, 2 CERT, 3 SHARE, 4 FINISHED is this end's latest message. -/
  step : Nat := 0
  tries : Nat := 0
  /-- Trust anchors 2 to 8 and the deny list as the exchange began (R405). -/
  anchors : List Bytes := []
  deny : Bytes := []
  /-- Messages of this end and of the peer, in order, as bytes of the transcript. -/
  mine : List Bytes := []
  peer : List Bytes := []
  peerChain : Bytes := []
  peerPub : Bytes := []
  /-- Number of this end's ephemeral key. -/
  eph : Nat := 0
  peerAudit : Bool := false
  peerNarrow : Bool := false
  /-- This end's latest message, kept for sending again. -/
  latest : Option CtrlMsg := none
deriving DecidableEq, Repr

/-- One fabric link. -/
structure Link where
  /-- LINK_STATE (Table 8.5). -/
  st : Nat := 0
  /-- LINK_DOWN_CAUSE (Table 8.8). -/
  cause : Nat := 0
  /-- State that SPARING or CREDIT_SYNC returns to: true NARROW, in either direction. -/
  narrow : Bool := false
  /-- The receive direction runs on seven lanes (R244). -/
  rxNarrow : Bool := false
  tx : LinkTx := {}
  rx : LinkRx := {}
  kx : Keyx := {}
  /-- LINK_NARROW_OK and LINK_AUDIT_EN as read at the last entry to DETECT (R273). -/
  narrowOk : Bool := true
  auditEn : Bool := true
  /-- Audit negotiated in HELLO (R256). -/
  audit : Bool := false
  /-- Link keys, 72 bytes of R260; empty when none. -/
  keys : Bytes := []
  /-- This end is side A of R260. -/
  sideA : Bool := false
  /-- SHA-384 of the peer certificate. -/
  peerHash : Bytes := []
  /-- The peer presented a chain that ends in the Koeraique device CA (R297). -/
  peerTH : Bool := false
  /-- Physical lanes that carry data in the receive direction, bit n for lane n. -/
  lanes : Nat := 0x0FF
  /-- The spare lane is unusable. -/
  spareBad : Bool := false
  /-- Logical lane that the spare carries in the receive direction. -/
  spareFor : Option Nat := none
  /-- LANE_MAP sent and not acknowledged: failing lane, and the physical lanes that will carry data. -/
  mapSent : Option (Nat × Nat) := none
  /-- Physical lanes that carry data in the transmit direction. -/
  txLanes : Nat := 0x0FF
  /-- STANDBY_REQ sent and not answered. -/
  standbyAsked : Bool := false
  /-- LINK_CMD RETRAIN runs on this link (R274). -/
  retrainCmd : Bool := false
  /-- The lanes of the transmitter still work (R267, step 1). -/
  lanesOk : Bool := true
deriving DecidableEq, Repr

/-- A dedup entry (R270): H and the bitmap of the 1,024 SEQ values below H. -/
structure Dedup where
  h : Nat := 0
  map : Nat := 0
  /-- Use stamp, for the least recently used entry (R271). -/
  used : Nat := 0
deriving DecidableEq, Repr

/-- Configuration of a queue of a Gatehouse (R314). -/
structure QueueCfg where
  link : Nat := 0
  tc : Nat := 0
  pkey : Nat := 0
  weight : Nat := 1
  quantum : Nat := 4224
  rate : Nat := 0
  burst : Nat := 65536
deriving DecidableEq, Repr

/-- Scheduler state of a queue. Tokens are in thousandths of a byte. -/
structure QueueRun where
  deficit : Nat := 0
  last : Nat := 0
  tokens : Int := 65536000
  stamp : Nat := 0
deriving DecidableEq, Repr

/-- Scheduler state of an egress link (R313, R315). -/
structure EgressLink where
  ptr : Nat := 0
  fresh : Bool := true
  vt : Nat := 0
  /-- WFQ in force on this link (changes at the next packet start). -/
  wfq : Bool := false
  tc3Tokens : Int := 16384000
  tc2Tokens : Int := 65536000
  stamp : Nat := 0
  /-- An express window is open (R316). -/
  window : Bool := false
  /-- Schedule in force and the one that takes effect at the next period boundary (R322). -/
  period : Nat := 0
  width : Nat := 0
deriving DecidableEq, Repr

/-- A rate entry (R311). Tokens are in thousandths of a byte. -/
structure RateEntry where
  rate : Nat := 99210
  /-- Time of the latest decrease, ns. -/
  decreased : Nat := 0
  /-- Time of the latest increase and the rate before it: a decrease in the same cycle discards the increase. -/
  raised : Option (Nat × Nat) := none
  tokens : Nat := 16384000
  stamp : Nat := 0
deriving DecidableEq, Repr

/-- A broadcast seen (R296, step 5). -/
structure Bcast where
  src : Nat := 0
  seq : Nat := 0
  delivered : Bool := false
  fwd : Bool := false
  fwdTurned : Bool := false
deriving DecidableEq, Repr

/-- A CE mark whose echo is owed (R310). -/
structure EchoDue where
  src : Nat := 0
  tc : Nat := 0
  pkey : Nat := 0
  at_ : Nat := 0
deriving DecidableEq, Repr

/-- What an outstanding request of the device is for (R279). -/
inductive OwnKind where
  /-- A remote operand read of a waybill: key of the waybill, chunk and place in its operand list (R126). -/
  | remoteRead (wb chunk idx : Nat)
  /-- A remote granule write (R126). -/
  | remoteWrite (wb chunk granule pva : Nat)
  /-- A DELIVER write (R134). -/
  | deliver (wb chunk granule : Nat)
  /-- A host read of a MIGRATE_IN: record and byte offset (R210). -/
  | migrateIn (idx off : Nat)
  /-- A host write of a MIGRATE_OUT (R211). -/
  | migrateOut (idx off : Nat)
  /-- A remote completion-record or mirror write (R84, R80). -/
  | postWrite
deriving DecidableEq, Repr

/-- A request of the device that waits for its answer. -/
structure OwnReq where
  dst : Nat := 0
  tc : Nat := 0
  tag : Nat := 0
  kind : OwnKind := .postWrite
  bytes : Nat := 0
deriving DecidableEq, Repr

/-- A copy in a retention buffer (R301): the die that keeps it, the link it was queued on, the packet, and the flit
number whose acknowledgement frees it (none until the packet has started). -/
structure Retained where
  gh : Nat := 0
  link : Nat := 0
  p : Packet := {}
  lastFlit : Option Nat := none
deriving DecidableEq, Repr

/-- The fabric side of the device. -/
structure Fabric where
  /-- Links by number; no row: DISABLED, all counters at link-up values. -/
  links : Tab Link := {}
  /-- Gatehouse dies declared lost, bit n for GHn. -/
  ghLost : Nat := 0
  dedup : Tab Dedup := {}
  useStamp : Nat := 0
  /-- Next SEQ by destination * 4 + class (R279). -/
  nextSeq : Tab Nat := {}
  own : List OwnReq := []
  blockRoutes : Tab Nat := {}
  exactRoutes : Tab Nat := {}
  routeEpoch : Nat := 0
  gmapExact : Tab Nat := {}
  gmapWild : Tab Nat := {}
  gmapEpoch : Nat := 0
  /-- What a route update that drains changed: 0 a block, 1 a destination, 2 a pair; and which (R306). -/
  routeWait : Option (Nat × Nat) := none
  /-- Key and source, none for a wildcard, of a guest-map update that drains (R306). -/
  gmapWait : Option (Nat × Option Nat) := none
  /-- PAIR_SERVICE by pair: 1 out of service. -/
  pairOut : Nat := 0
  /-- Key set of a link (R303). -/
  keySets : Tab (List Nat) := {}
  bcast : List Bcast := []
  egress : List EPkt := []
  /-- Packets of the device, routed, that wait for room in a retention buffer, oldest first (R301). -/
  stalled : List EPkt := []
  /-- Configured queues, by Gatehouse * 1,024 + queue. -/
  queues : Tab QueueCfg := {}
  queueRun : Tab QueueRun := {}
  egLinks : Tab EgressLink := {}
  rates : Tab RateEntry := {}
  echoes : List EchoDue := []
  /-- Time of the last CNP by source * 4 + class, ns. -/
  lastCnp : Tab Nat := {}
  retained : List Retained := []
  /-- Links declared down whose traffic the partner carries, bit n for Ln (R299, Table 16.9). -/
  carried : Nat := 0
deriving DecidableEq, Repr

end Sys2Proof.Machine
end

