-- ==== Sys2Proof/Machine/MgmtTypes.lean ====
section
/-! DEFINITION. State of the management plane: the Innkeeper pair, interrupt controller and pigeonholes (chapter 13),
and the dictionary's queue, sessions and flash (chapter 14). Plain data. -/

namespace Sys2Proof.Machine

open Sys2Proof

/-- State of one Innkeeper die (R418, R432). -/
structure IkDie where
  /-- IK_STATE: 0 OFF, 1 SELF_TEST, 2 BOOTING, 3 STANDBY, 4 ACTIVE, 5 FAILED, 6 HELD_OUT. -/
  st : Nat := 0
  /-- IK_PASS_COUNT. -/
  passes : Nat := 0
  /-- Failed self-test runs in a row. -/
  failRuns : Nat := 0
  /-- Times of this die's failures within the last 60 minutes, ms (R433). -/
  failures : List Nat := []
deriving DecidableEq, Repr

/-- An arrival state of the interrupt controller (R439, R444). -/
structure Pend where
  /-- PENDING bitmap. -/
  bits : Nat := 0
  /-- Arrival counters by source. -/
  counts : Tab Nat := {}
deriving DecidableEq, Repr

/-- A takeover in progress. -/
structure Takeover where
  target : Nat := 0
  cause : Nat := 0
  /-- Start of the gap, ns. -/
  start : Nat := 0
  planned : Bool := false
  /-- IK_CMD SWITCH started it. -/
  byCmd : Bool := false
  /-- FW_CMD ACTIVATE started it. -/
  byFw : Bool := false
deriving DecidableEq, Repr

/-- A checkpoint being written or complete (R422, R444). -/
structure Ckpt where
  seq : Nat := 0
  /-- Capture time, ns. -/
  at_ : Nat := 0
  pend : Pend := {}
  /-- Journal entries at the capture. -/
  journaled : Nat := 0
deriving DecidableEq, Repr

/-- The Innkeeper pair. -/
structure Ik where
  /-- IK_ACTIVE: 0, 1, or 0xFF for none. -/
  active : Nat := 0
  dies : Tab IkDie := {}
  failovers : Nat := 0
  lastCause : Nat := 0
  lastGap : Nat := 0
  ckptSeq : Nat := 0
  /-- Latest complete checkpoint. -/
  ckpt : Ckpt := {}
  /-- Checkpoint captured and not complete. -/
  ckptDue : Option Ckpt := none
  /-- The late interrupt of the running checkpoint has been raised. -/
  ckptLate : Bool := false
  /-- Journal: dictionary writes answered since the latest complete checkpoint (R423), as object keys. -/
  journal : List Nat := []
  /-- A takeover runs: the management gap (R427). -/
  gap : Option Takeover := none
  /-- Planned takeover asked for, to start at the next checkpoint boundary (R434). -/
  planned : Option Takeover := none
  /-- Both Innkeepers are lost (R435). -/
  bothLost : Bool := false
  /-- Time of the last heartbeat, ns. -/
  beat : Nat := 0
  /-- No firmware runs (R419, R407). -/
  noFirmware : Bool := false
deriving DecidableEq, Repr

/-- The interrupt controller of the active Innkeeper and the standby's latches (R438 to R445). -/
structure Irq where
  pend : Pend := {}
  /-- Vector and PRIO of a source; no row: as the firmware image sets them (R441). -/
  vectors : Tab Nat := {}
  prios : Tab Nat := {}
  alertEn : Nat := 0x15 + (2 ^ 80 - 1) * 2 ^ 64
  alertStatus : Nat := 0
  overrun : Nat := 0
  /-- Core that last received a vector. -/
  lastCore : Nat := 3
  /-- Interrupt enable of each core. -/
  coreIe : List Bool := [true, true, true, true]
  /-- Cores halted by debug. -/
  halted : List Bool := [false, false, false, false]
  /-- Vectors presented, newest first: (core, source, vector). -/
  presented : List (Nat × Nat × Nat) := []
  /-- The controller's clock is stopped and the AON latches catch edges (R443). -/
  stopped : Bool := false
  /-- Edges caught by the AON latches while the clock is stopped. -/
  latched : Nat := 0
  /-- Edges latched by the standby since the latest complete checkpoint's capture (R444). -/
  standby : Pend := {}
  /-- Edges latched by the standby since the capture of the checkpoint being written. -/
  standbyNew : Pend := {}
deriving DecidableEq, Repr

/-- One direction of a pigeonhole (R446): the words stored; FULL is their presence. -/
structure Hole where
  owner : Nat := 0
  inFull : Bool := false
  inWords : List Nat := []
  outFull : Bool := false
  outWords : List Nat := []
deriving DecidableEq, Repr

/-- Who sent a dictionary request: a MAC address on T1S, or an EPID in-band. -/
inductive Via where
  | t1s (mac : Nat)
  | inband (epid tag : Nat)
deriving DecidableEq, Repr

/-- A request in the dictionary queue. -/
structure DictReq where
  via : Via
  pdu : Bytes
  /-- Its number among all that have joined the queue. -/
  joined : Nat := 0
  /-- Tracker that an in-band request holds (R74). -/
  trk : Option Nat := none
deriving DecidableEq, Repr

/-- A segmented write being staged (R463). -/
structure Staging where
  idx : Nat := 0
  sub : Nat := 0
  total : Nat := 0
  data : Bytes := []
deriving DecidableEq, Repr

/-- A management session (R471). -/
structure Session where
  /-- 1 opening, 2 open. -/
  st : Nat := 1
  via : Via := .t1s 0
  /-- Step 1 and 2 data of the transcript. -/
  transcript : Bytes := []
  peerPub : Bytes := []
  /-- Number of the device's ephemeral key. -/
  eph : Nat := 0
  chain : Bytes := []
  staging : Option Staging := none
  /-- 72 bytes of R472. -/
  keys : Bytes := []
  /-- Highest SEQ accepted. -/
  seq : Nat := 0
deriving DecidableEq, Repr

/-- A read snapshot (R462). -/
structure Snap where
  session : Nat := 0
  via : Via
  idx : Nat := 0
  sub : Nat := 0
  data : Bytes := []
deriving DecidableEq, Repr

/-- Open failures of a peer (R475): times of the latest ones in ms, and whether it is locked out. -/
structure Fails where
  via : Via
  times : List Nat := []
  locked : Bool := false
deriving DecidableEq, Repr

/-- A record of a configuration log (R476): key, value, record number, and whether its HMAC holds. -/
structure FlashRec where
  key : Nat := 0
  value : Bytes := []
  recno : Nat := 0
  good : Bool := true
deriving DecidableEq, Repr

/-- Dictionary, sessions and flash. -/
structure Dict where
  queue : List DictReq := []
  /-- Requests that have joined the queue. -/
  arrived : Nat := 0
  sessions : Tab Session := {}
  /-- Snapshots, oldest first. -/
  snaps : List Snap := []
  /-- Open failures by peer, most recently seen first. -/
  fails : List Fails := []
  sessionFails : Nat := 0
  /-- Configuration copies 0 and 1, oldest record first. -/
  copy0 : List FlashRec := []
  copy1 : List FlashRec := []
  /-- Active copy. -/
  copy : Nat := 0
  recno : Nat := 0
  /-- FLASH_RECORDS. -/
  appended : Nat := 0
  /-- PERSIST_STATE without the compaction code: 1, no valid copy. -/
  noCopy : Bool := false
  /-- A compaction runs; the writes that wait for it, oldest first, as (key, value). -/
  compacting : Bool := false
  waiting : List (Nat × Bytes) := []
  /-- The flash does not program (its failure is the flash's own). -/
  flashBad : Bool := false
  /-- Channels whose factory group has been overwritten (R482), bit n for CHn. -/
  calOver : Nat := 0
  /-- This follower sends by CSMA/CD after a BEACON loss (R458). -/
  csma : Bool := false
deriving DecidableEq, Repr

end Sys2Proof.Machine
end

