-- ==== Sys2Proof/Machine/Bits.lean ====
section
/-! DEFINITION. Bit fields of numbers and the byte order of multi-byte values (least significant byte first
wherever the manual lays out a value in bytes: R460, R464, Table 9.1). -/

namespace Sys2Proof

/-- Bits hi..lo of n, as a number. -/
def bitsOf (n hi lo : Nat) : Nat := (n >>> lo) % 2 ^ (hi + 1 - lo)

/-- Bit i of n. -/
def bitOf (n i : Nat) : Bool := n.testBit i

/-- n with bit i set. -/
def setBit (n i : Nat) : Nat := n ||| (1 <<< i)

/-- n with bit i clear. -/
def clearBit (n i : Nat) : Nat := if n.testBit i then n - 2 ^ i else n

/-- n with the bits of m clear (a register whose bits are cleared by writing 1). -/
def clearMask (n m : Nat) : Nat := n - (n &&& m)

/-- A Bool as a number. -/
def b2n (b : Bool) : Nat := if b then 1 else 0

/-- The value of a byte string, least significant byte first. -/
def leNat : Bytes → Nat
  | [] => 0
  | b :: bs => b.toNat + 256 * leNat bs

/-- The low w bytes of n, least significant first. -/
def leBytes : Nat → Nat → Bytes
  | 0, _ => []
  | w + 1, n => BitVec.ofNat 8 n :: leBytes w (n / 256)

/-- The value of a byte string, most significant byte first. -/
def beNat (bs : Bytes) : Nat := leNat bs.reverse

/-- The low w bytes of n, most significant first. -/
def beBytes (w n : Nat) : Bytes := (leBytes w n).reverse

/-- Bytes [off, off + len) of a string, short when the string is. -/
def sliceBytes (bs : Bytes) (off len : Nat) : Bytes := (bs.drop off).take len

/-- A byte string cut or filled with zeros to w bytes. -/
def padBytes (w : Nat) (bs : Bytes) : Bytes := bs.take w ++ List.replicate (w - bs.length) 0

/-- w zero bytes. -/
def zeroBytes (w : Nat) : Bytes := List.replicate w 0

/-- The ASCII bytes of a string. -/
def strBytes (s : String) : Bytes := s.toList.map fun c => BitVec.ofNat 8 c.toNat

/-- A string of bytes with byte i replaced. -/
def setByte (bs : Bytes) (i : Nat) (b : Byte) : Bytes := bs.set i b

/-- Bit i of a bitmap held in bytes, least significant byte and bit first. -/
def mapBit (bs : Bytes) (i : Nat) : Bool := ((bs.getD (i / 8) 0).toNat).testBit (i % 8)

/-- A bitmap of w bytes whose set bits are those of a number. -/
def bitmapBytes (w n : Nat) : Bytes := leBytes w n

/-- Smallest multiple of k not below n. -/
def roundUp (n k : Nat) : Nat := ((n + k - 1) / k) * k

/-- n / k rounded up. -/
def ceilDiv (n k : Nat) : Nat := (n + k - 1) / k

/-- Two's complement value of the low w bits of n. -/
def signedOf (w n : Nat) : Int :=
  let v := n % 2 ^ w
  if v < 2 ^ (w - 1) then (v : Int) else (v : Int) - 2 ^ w

/-- Low w bits of the two's complement encoding of i. -/
def unsignedOf (w : Nat) (i : Int) : Nat := (i % (2 ^ w : Int)).toNat

/-- Saturating increment of a count of w bits. -/
def satInc (w n : Nat) : Nat := if n + 1 < 2 ^ w then n + 1 else 2 ^ w - 1

/-- Wrapping sum of a count of w bits. -/
def wrapAdd (w a b : Nat) : Nat := (a + b) % 2 ^ w

/-- Wrapping difference of counts of w bits: (a - b) mod 2^w. -/
def wrapSub (w a b : Nat) : Nat := (a % 2 ^ w + 2 ^ w - b % 2 ^ w) % 2 ^ w

/-- [a, a + la) and [b, b + lb) share a byte. -/
def overlaps (a la b lb : Nat) : Bool := decide (a < b + lb) && decide (b < a + la) && decide (0 < la) && decide (0 < lb)

/-- The numbers below n, ascending. -/
def upto (n : Nat) : List Nat := List.range n

/-- First number from k on, within n, that satisfies ok. -/
def firstFrom (ok : Nat → Bool) : Nat → Nat → Option Nat
  | 0, _ => none
  | n + 1, k => if ok k then some k else firstFrom ok n (k + 1)

end Sys2Proof
end

