-- ==== Sys2Proof/Machine/Objects.lean ====
section
/-! DEFINITION. The static object table of the Evoust dictionary: every object of Tables 0.9, 1.6, 1.7, 2.9, 3.10, 4.14, 5.12,
6.8, 7.9, 8.10, 9.10, 10.10, 11.8, 12.8, 13.9, 14.11, 14.12, 15.9, 16.13 and their companions, with its type, access
right, default, written range (R464 to R467) and whether it is persisted (R477). An object is named by the key
index * 256 + sub. -/

namespace Sys2Proof

/-- Object types (Table 14.3); an OCTETS or VSTRING type carries its size or its maximum. -/
inductive ObjTy where
  | bool | u8 | u16 | u32 | u64 | s16
  | octets (size : Nat)
  | octetsVar (max : Nat)
  | vstring (max : Nat)
deriving DecidableEq, Repr

/-- Access rights (Table 14.4). -/
inductive Access where
  | ro | wo | rw | rwp | con | rwa
deriving DecidableEq, Repr

/-- The values a write may hold (R467), as the object's table gives them. The last group compares with another object. -/
inductive Rng where
  /-- Every value of the type. -/
  | any
  /-- lo to hi. -/
  | between (lo hi : Nat)
  /-- One value, or lo to hi. -/
  | orVal (v lo hi : Nat)
  /-- Only 0 (R556). -/
  | zeroOnly
  /-- A listed value. -/
  | oneOf (vs : List Nat)
  /-- Bits outside m must be 0. -/
  | mask (m : Nat)
  | hearthSize | wqHigh | wqLow | dimmThrottle | dimmCrit | tempWarn | tempThrottle | expPeriod | expWindow | anchorMask
  | calSeed | calTrim | calTrained
deriving DecidableEq, Repr

/-- One row of an object table: subs lo to hi of an index. -/
structure ObjRow where
  idx : Nat
  lo : Nat
  hi : Nat
  ty : ObjTy
  acc : Access
  /-- Default of a numeric object. -/
  dflt : Nat
  /-- Default of a byte-string object. -/
  dbytes : Bytes
  rng : Rng
  /-- The default is computed at reset or set at the factory (R466). -/
  computed : Bool
  /-- A write is persisted (R477). -/
  persisted : Bool
deriving DecidableEq, Repr

/-- The key of an object: index * 256 + sub. -/
def objKey (idx sub : Nat) : Nat := idx * 256 + sub

namespace Obj

/-- `0x1000:00` VENDOR_NAME. -/
def vendorName : Nat := 0x100000
/-- `0x1001:00` PART_NUMBER. -/
def partNumber : Nat := 0x100100
/-- `0x1002:00` STEPPING. -/
def stepping : Nat := 0x100200
/-- `0x1003:00` ORDERING_CODE. -/
def orderingCode : Nat := 0x100300
/-- `0x1004:00` SERIAL_NUMBER. -/
def serialNumber : Nat := 0x100400
/-- `0x1005:00` ROLE_STRAP. -/
def roleStrap : Nat := 0x100500
/-- `0x1006:00` DICT_VERSION. -/
def dictVersion : Nat := 0x100600
/-- `0x1007:00` DIE_PRESENT. -/
def diePresent : Nat := 0x100700
/-- `0x1008:00` UPTIME. -/
def uptime : Nat := 0x100800
/-- `0x1009:00` MAC_ADDRESS. -/
def macAddress : Nat := 0x100900
/-- `0x100A:00` T1S_NODE_ID. -/
def t1sNodeId : Nat := 0x100A00
/-- `0x100B:00` T1S_NODE_IN_USE. -/
def t1sNodeInUse : Nat := 0x100B00
/-- `0x100C:00` PLCA_EN. -/
def plcaEn : Nat := 0x100C00
/-- `0x100D:00` PLCA_NODE_COUNT. -/
def plcaNodeCount : Nat := 0x100D00
/-- `0x100E:00` PLCA_TO_TIMER. -/
def plcaToTimer : Nat := 0x100E00
/-- `0x100F:00` INBAND_EN. -/
def inbandEn : Nat := 0x100F00
/-- `0x1010:00` DICT_DROPPED. -/
def dictDropped : Nat := 0x101000
/-- `0x1080:00` SESSION_MAX. -/
def sessionMax : Nat := 0x108000
/-- `0x1081:01` on, SESSION_INFO, of unit n (sub n + 1). -/
def sessionInfo (n : Nat) : Nat := 0x108101 + n
/-- `0x1082:00` SESSION_IDLE. -/
def sessionIdle : Nat := 0x108200
/-- `0x1083:00` OPEN_WRITE. -/
def openWrite : Nat := 0x108300
/-- `0x1084:00` SESSION_ANCHOR_MASK. -/
def sessionAnchorMask : Nat := 0x108400
/-- `0x1085:00` SESSION_FAILS. -/
def sessionFails : Nat := 0x108500
/-- `0x1090:00` PERSIST_STATE. -/
def persistState : Nat := 0x109000
/-- `0x1091:00` FLASH_RECORDS. -/
def flashRecords : Nat := 0x109100
/-- `0x2000:00` SET_ID. -/
def setId : Nat := 0x200000
/-- `0x2001:00` DEVICE_ID. -/
def deviceId : Nat := 0x200100
/-- `0x2002:00` DEVICE_ID_REQ. -/
def deviceIdReq : Nat := 0x200200
/-- `0x2003:00` SET_STATE. -/
def setState : Nat := 0x200300
/-- `0x2004:00` SET_MEMBERS. -/
def setMembers : Nat := 0x200400
/-- `0x2005:00` EXPECTED_WORKERS. -/
def expectedWorkers : Nat := 0x200500
/-- `0x2006:00` FORM_TIMEOUT. -/
def formTimeout : Nat := 0x200600
/-- `0x2007:00` DEVICE_EPID. -/
def deviceEpid : Nat := 0x200700
/-- `0x2008:00` ADDRESSABLE_BYTES. -/
def addressableBytes : Nat := 0x200800
/-- `0x2009:00` TABLE_REGION_BASE. -/
def tableRegionBase : Nat := 0x200900
/-- `0x200A:00` MANAGER_EPID. -/
def managerEpid : Nat := 0x200A00
/-- `0x200B:01` on, SET_PEER_EPID, of unit n (sub n + 1). -/
def setPeerEpid (n : Nat) : Nat := 0x200B01 + n
/-- `0x2100:00` GUEST_DEFINED_COUNT. -/
def guestDefinedCount : Nat := 0x210000
/-- `0x2101:00` GUEST_RESIDENT_COUNT. -/
def guestResidentCount : Nat := 0x210100
/-- `0x2102:00` GUEST_PINNED_LIMIT. -/
def guestPinnedLimit : Nat := 0x210200
/-- `0x2103:00` GUEST_SWAP_HOLD. -/
def guestSwapHold : Nat := 0x210300
/-- `0x2104:01` GUEST_CMD_OP. -/
def guestCmdOp : Nat := 0x210401
/-- `0x2104:02` GUEST_CMD_GID. -/
def guestCmdGid : Nat := 0x210402
/-- `0x2104:03` GUEST_CMD_WINDOW. -/
def guestCmdWindow : Nat := 0x210403
/-- `0x2104:04` GUEST_CMD_ENTRY. -/
def guestCmdEntry : Nat := 0x210404
/-- `0x2104:05` GUEST_CMD_RESULT. -/
def guestCmdResult : Nat := 0x210405
/-- `0x2104:06` GUEST_CMD_STATE. -/
def guestCmdState : Nat := 0x210406
/-- `0x2104:07` GUEST_CMD_PKEY. -/
def guestCmdPkey : Nat := 0x210407
/-- `0x2180:01` TEARDOWN_CMD_OP. -/
def teardownCmdOp : Nat := 0x218001
/-- `0x2180:02` TEARDOWN_CMD_GID. -/
def teardownCmdGid : Nat := 0x218002
/-- `0x2180:03` TEARDOWN_CMD_RESULT. -/
def teardownCmdResult : Nat := 0x218003
/-- `0x2180:04` TEARDOWN_CMD_KSTATE. -/
def teardownCmdKstate : Nat := 0x218004
/-- `0x2181:00` KEY_EPOCH. -/
def keyEpoch : Nat := 0x218100
/-- `0x2182:00` KEYS_PENDING. -/
def keysPending : Nat := 0x218200
/-- `0x3000:00` LINK_COUNT. -/
def linkCount : Nat := 0x300000
/-- `0x3001:01` on, LINK_STATE, of unit n (sub n + 1). -/
def linkState (n : Nat) : Nat := 0x300101 + n
/-- `0x3002:01` on, LINK_ENABLE, of unit n (sub n + 1). -/
def linkEnable (n : Nat) : Nat := 0x300201 + n
/-- `0x3003:01` on, LINK_NARROW_OK, of unit n (sub n + 1). -/
def linkNarrowOk (n : Nat) : Nat := 0x300301 + n
/-- `0x3004:01` on, LINK_AUDIT_EN, of unit n (sub n + 1). -/
def linkAuditEn (n : Nat) : Nat := 0x300401 + n
/-- `0x3005:00` REPLAY_TIMEOUT. -/
def replayTimeout : Nat := 0x300500
/-- `0x3006:00` REPLAY_MAX. -/
def replayMax : Nat := 0x300600
/-- `0x3007:01` LINK_DEAD_TIMEOUT. -/
def linkDeadTimeout : Nat := 0x300701
/-- `0x3007:02` LINK_RETRY_INTERVAL. -/
def linkRetryInterval : Nat := 0x300702
/-- `0x3008:00` CREDIT_RETRAIN_FLOOR. -/
def creditRetrainFloor : Nat := 0x300800
/-- `0x3009:00` CREDIT_QUIET. -/
def creditQuiet : Nat := 0x300900
/-- `0x300A:00` LANE_SER_LIMIT. -/
def laneSerLimit : Nat := 0x300A00
/-- `0x300B:00` DEDUP_HOLD. -/
def dedupHold : Nat := 0x300B00
/-- `0x300C:00` DEDUP_IN_USE. -/
def dedupInUse : Nat := 0x300C00
/-- `0x3010:01` LINK_CMD_OP. -/
def linkCmdOp : Nat := 0x301001
/-- `0x3010:02` LINK_CMD_LINK. -/
def linkCmdLink : Nat := 0x301002
/-- `0x3010:03` LINK_CMD_EPID. -/
def linkCmdEpid : Nat := 0x301003
/-- `0x3010:04` LINK_CMD_RESULT. -/
def linkCmdResult : Nat := 0x301004
/-- `0x3010:05` LINK_CMD_LANES. -/
def linkCmdLanes : Nat := 0x301005
/-- `0x3010:06` LINK_CMD_PEER. -/
def linkCmdPeer : Nat := 0x301006
/-- `0x3012:01` on, LINK_DOWN_CAUSE, of unit n (sub n + 1). -/
def linkDownCause (n : Nat) : Nat := 0x301201 + n
/-- `0x3100:01` on, PAIR_MODE, of unit n (sub n + 1). -/
def pairMode (n : Nat) : Nat := 0x310001 + n
/-- `0x3101:01` on, PAIR_DATELINE, of unit n (sub n + 1). -/
def pairDateline (n : Nat) : Nat := 0x310101 + n
/-- `0x3102:01` on, PAIR_RING, of unit n (sub n + 1). -/
def pairRing (n : Nat) : Nat := 0x310201 + n
/-- `0x3103:01` on, PAIR_SERVICE, of unit n (sub n + 1). -/
def pairService (n : Nat) : Nat := 0x310301 + n
/-- `0x3104:00` HOP_LIMIT. -/
def hopLimit : Nat := 0x310400
/-- `0x3108:01` ROUTE_CMD_OP. -/
def routeCmdOp : Nat := 0x310801
/-- `0x3108:02` ROUTE_CMD_EPID. -/
def routeCmdEpid : Nat := 0x310802
/-- `0x3108:03` ROUTE_CMD_ENTRY. -/
def routeCmdEntry : Nat := 0x310803
/-- `0x3108:04` ROUTE_CMD_PAIR. -/
def routeCmdPair : Nat := 0x310804
/-- `0x3108:05` ROUTE_CMD_RESULT. -/
def routeCmdResult : Nat := 0x310805
/-- `0x3110:01` GMAP_CMD_OP. -/
def gmapCmdOp : Nat := 0x311001
/-- `0x3110:02` GMAP_CMD_EPID. -/
def gmapCmdEpid : Nat := 0x311002
/-- `0x3110:03` GMAP_CMD_PKEY. -/
def gmapCmdPkey : Nat := 0x311003
/-- `0x3110:04` GMAP_CMD_GID. -/
def gmapCmdGid : Nat := 0x311004
/-- `0x3110:05` GMAP_CMD_RESULT. -/
def gmapCmdResult : Nat := 0x311005
/-- `0x3110:06` GMAP_CMD_FREE. -/
def gmapCmdFree : Nat := 0x311006
/-- `0x3118:01` PKEY_CMD_OP. -/
def pkeyCmdOp : Nat := 0x311801
/-- `0x3118:02` PKEY_CMD_LINK. -/
def pkeyCmdLink : Nat := 0x311802
/-- `0x3118:03` PKEY_CMD_PKEY. -/
def pkeyCmdPkey : Nat := 0x311803
/-- `0x3118:04` PKEY_CMD_SET. -/
def pkeyCmdSet : Nat := 0x311804
/-- `0x3118:05` PKEY_CMD_RESULT. -/
def pkeyCmdResult : Nat := 0x311805
/-- `0x3119:01` on, PKEY_ALL, of unit n (sub n + 1). -/
def pkeyAll (n : Nat) : Nat := 0x311901 + n
/-- `0x3120:01` QUEUE_CMD_OP. -/
def queueCmdOp : Nat := 0x312001
/-- `0x3120:02` QUEUE_CMD_GH. -/
def queueCmdGh : Nat := 0x312002
/-- `0x3120:03` QUEUE_CMD_QUEUE. -/
def queueCmdQueue : Nat := 0x312003
/-- `0x3120:04` QUEUE_CMD_LINK. -/
def queueCmdLink : Nat := 0x312004
/-- `0x3120:05` QUEUE_CMD_TC. -/
def queueCmdTc : Nat := 0x312005
/-- `0x3120:06` QUEUE_CMD_PKEY. -/
def queueCmdPkey : Nat := 0x312006
/-- `0x3120:07` QUEUE_CMD_WEIGHT. -/
def queueCmdWeight : Nat := 0x312007
/-- `0x3120:08` QUEUE_CMD_QUANTUM. -/
def queueCmdQuantum : Nat := 0x312008
/-- `0x3120:09` QUEUE_CMD_RATE. -/
def queueCmdRate : Nat := 0x312009
/-- `0x3120:0A` QUEUE_CMD_BURST. -/
def queueCmdBurst : Nat := 0x31200A
/-- `0x3120:0B` QUEUE_CMD_RESULT. -/
def queueCmdResult : Nat := 0x31200B
/-- `0x3121:01` on, QUEUE_COUNT, of unit n (sub n + 1). -/
def queueCount (n : Nat) : Nat := 0x312101 + n
/-- `0x3122:01` on, QUEUE_MODE, of unit n (sub n + 1). -/
def queueMode (n : Nat) : Nat := 0x312201 + n
/-- `0x3128:01` on, EXP_PERIOD, of unit n (sub n + 1). -/
def expPeriod (n : Nat) : Nat := 0x312801 + n
/-- `0x3129:01` on, EXP_WINDOW, of unit n (sub n + 1). -/
def expWindow (n : Nat) : Nat := 0x312901 + n
/-- `0x3130:00` ECN_THRESHOLD. -/
def ecnThreshold : Nat := 0x313000
/-- `0x3131:00` CC_MD. -/
def ccMd : Nat := 0x313100
/-- `0x3132:00` CC_HOLD. -/
def ccHold : Nat := 0x313200
/-- `0x3133:00` CC_AI. -/
def ccAi : Nat := 0x313300
/-- `0x3134:00` CC_AI_PERIOD. -/
def ccAiPeriod : Nat := 0x313400
/-- `0x3135:00` CC_MIN_RATE. -/
def ccMinRate : Nat := 0x313500
/-- `0x3136:00` CNP_GAP. -/
def cnpGap : Nat := 0x313600
/-- `0x3137:00` CC_ENABLE. -/
def ccEnable : Nat := 0x313700
/-- `0x3138:00` TC2_RATE. -/
def tc2Rate : Nat := 0x313800
/-- `0x4000:00` CHANNEL_COUNT. -/
def channelCount : Nat := 0x400000
/-- `0x4001:00` CHANNEL_MODE_SEL. -/
def channelModeSel : Nat := 0x400100
/-- `0x4002:00` CHANNEL_LAYOUT. -/
def channelLayout : Nat := 0x400200
/-- `0x4003:01` on, CHANNEL_STATE, of unit n (sub n + 1). -/
def channelState (n : Nat) : Nat := 0x400301 + n
/-- `0x4004:01` on, CHANNEL_DIMM, of unit n (sub n + 1). -/
def channelDimm (n : Nat) : Nat := 0x400401 + n
/-- `0x4005:00` CHANNEL_CAPACITY. -/
def channelCapacity : Nat := 0x400500
/-- `0x4006:01` on, CHANNEL_ENABLE, of unit n (sub n + 1). -/
def channelEnable (n : Nat) : Nat := 0x400601 + n
/-- `0x4010:01` on, TIMING_OVERRIDE, of unit n (sub n + 1). -/
def timingOverride (n : Nat) : Nat := 0x401001 + n
/-- `0x4011:01` on, TIMING_IN_USE, of unit n (sub n + 1). -/
def timingInUse (n : Nat) : Nat := 0x401101 + n
/-- `0x4020:00` PAGE_IDLE_TIMER. -/
def pageIdleTimer : Nat := 0x402000
/-- `0x4021:00` AGE_CAP. -/
def ageCap : Nat := 0x402100
/-- `0x4022:00` WQ_HIGH. -/
def wqHigh : Nat := 0x402200
/-- `0x4023:00` WQ_LOW. -/
def wqLow : Nat := 0x402300
/-- `0x4024:00` CH_IDLE_SR. -/
def chIdleSr : Nat := 0x402400
/-- `0x4025:00` REFRESH_MODE. -/
def refreshMode : Nat := 0x402500
/-- `0x4026:00` WRITE_CRC_EN. -/
def writeCrcEn : Nat := 0x402600
/-- `0x4027:00` WCB_HIGH. -/
def wcbHigh : Nat := 0x402700
/-- `0x4030:01` on, SB_MODE, of unit n (sub n + 1). -/
def sbMode (n : Nat) : Nat := 0x403001 + n
/-- `0x4031:00` SB_I2C_RATE. -/
def sbI2cRate : Nat := 0x403100
/-- `0x4032:00` SB_BACKOFF. -/
def sbBackoff : Nat := 0x403200
/-- `0x4033:00` SB_POLL. -/
def sbPoll : Nat := 0x403300
/-- `0x4034:00` DIMM_THROTTLE_TEMP. -/
def dimmThrottleTemp : Nat := 0x403400
/-- `0x4035:00` DIMM_CRIT_TEMP. -/
def dimmCritTemp : Nat := 0x403500
/-- `0x4036:01` SB_CMD_OP. -/
def sbCmdOp : Nat := 0x403601
/-- `0x4036:02` SB_CMD_CHANNEL. -/
def sbCmdChannel : Nat := 0x403602
/-- `0x4036:03` SB_CMD_TARGET. -/
def sbCmdTarget : Nat := 0x403603
/-- `0x4036:04` SB_CMD_REG. -/
def sbCmdReg : Nat := 0x403604
/-- `0x4036:05` SB_CMD_LEN. -/
def sbCmdLen : Nat := 0x403605
/-- `0x4036:06` SB_CMD_DATA. -/
def sbCmdData : Nat := 0x403606
/-- `0x4036:07` SB_CMD_RESULT. -/
def sbCmdResult : Nat := 0x403607
/-- `0x4037:01` on, DIMM_TEMP, of unit n (sub n + 1). -/
def dimmTemp (n : Nat) : Nat := 0x403701 + n
/-- `0x4100:01` TRAIN_CMD_OP. -/
def trainCmdOp : Nat := 0x410001
/-- `0x4100:02` TRAIN_CMD_CHANNEL. -/
def trainCmdChannel : Nat := 0x410002
/-- `0x4100:03` TRAIN_CMD_RESULT. -/
def trainCmdResult : Nat := 0x410003
/-- `0x4101:00` TRAIN_MIN_EYE. -/
def trainMinEye : Nat := 0x410100
/-- `0x4103:00` WR_TRACK_RANGE. -/
def wrTrackRange : Nat := 0x410300
/-- `0x4104:00` RD_TRACK_RANGE. -/
def rdTrackRange : Nat := 0x410400
/-- `0x4105:00` CE_RETRAIN_RATE. -/
def ceRetrainRate : Nat := 0x410500
/-- `0x4106:01` on, TRAIN_EYE, of unit n (sub n + 1). -/
def trainEye (n : Nat) : Nat := 0x410601 + n
/-- `0x4107:01` on, RETRAIN_COUNT, of unit n (sub n + 1). -/
def retrainCount (n : Nat) : Nat := 0x410701 + n
/-- `0x4108:00` RETRAIN_LIMIT. -/
def retrainLimit : Nat := 0x410800
/-- `0x4200:00` SCRUB_PERIOD. -/
def scrubPeriod : Nat := 0x420000
/-- `0x4201:00` SCRUB_ENABLE. -/
def scrubEnable : Nat := 0x420100
/-- `0x4202:01` on, SCRUB_PROGRESS, of unit n (sub n + 1). -/
def scrubProgress (n : Nat) : Nat := 0x420201 + n
/-- `0x4203:01` on, CE_COUNT, of unit n (sub n + 1). -/
def ceCount (n : Nat) : Nat := 0x420301 + n
/-- `0x4204:01` on, UE_COUNT, of unit n (sub n + 1). -/
def ueCount (n : Nat) : Nat := 0x420401 + n
/-- `0x4205:01` on, CE_LOG, of unit n (sub n + 1). -/
def ceLog (n : Nat) : Nat := 0x420501 + n
/-- `0x4206:01` ECC_CMD_OP. -/
def eccCmdOp : Nat := 0x420601
/-- `0x4206:02` ECC_CMD_CHANNEL. -/
def eccCmdChannel : Nat := 0x420602
/-- `0x4206:03` ECC_CMD_CO. -/
def eccCmdCo : Nat := 0x420603
/-- `0x4206:04` ECC_CMD_DATA. -/
def eccCmdData : Nat := 0x420604
/-- `0x4206:05` ECC_CMD_ECC. -/
def eccCmdEcc : Nat := 0x420605
/-- `0x4206:06` ECC_CMD_SYNDROME. -/
def eccCmdSyndrome : Nat := 0x420606
/-- `0x4206:07` ECC_CMD_RESULT. -/
def eccCmdResult : Nat := 0x420607
/-- `0x4210:00` GROUP_MAP. -/
def groupMap : Nat := 0x421000
/-- `0x4211:01` on, GROUP_STATE, of unit n (sub n + 1). -/
def groupState (n : Nat) : Nat := 0x421101 + n
/-- `0x4212:01` on, REBUILD_PROGRESS, of unit n (sub n + 1). -/
def rebuildProgress (n : Nat) : Nat := 0x421201 + n
/-- `0x4213:01` on, CHANNEL_ROLE, of unit n (sub n + 1). -/
def channelRole (n : Nat) : Nat := 0x421301 + n
/-- `0x4214:00` REBUILD_RATE. -/
def rebuildRate : Nat := 0x421400
/-- `0x4215:00` STALE_COUNT. -/
def staleCount : Nat := 0x421500
/-- `0x4216:00` PARITY_ACK_TIMEOUT. -/
def parityAckTimeout : Nat := 0x421600
/-- `0x4220:00` PPR_CE_THRESHOLD. -/
def pprCeThreshold : Nat := 0x422000
/-- `0x4221:00` PPR_HARD_EN. -/
def pprHardEn : Nat := 0x422100
/-- `0x4222:01` on, PPR_USED, of unit n (sub n + 1). -/
def pprUsed (n : Nat) : Nat := 0x422201 + n
/-- `0x4223:00` UE_FAIL_ROWS. -/
def ueFailRows : Nat := 0x422300
/-- `0x4230:00` FATAL_GUEST_COUNT. -/
def fatalGuestCount : Nat := 0x423000
/-- `0x5000:00` STREAM_DEFINED_COUNT. -/
def streamDefinedCount : Nat := 0x500000
/-- `0x5001:00` STREAM_RESIDENT_COUNT. -/
def streamResidentCount : Nat := 0x500100
/-- `0x5002:01` STREAM_CMD_OP. -/
def streamCmdOp : Nat := 0x500201
/-- `0x5002:02` STREAM_CMD_STREAM. -/
def streamCmdStream : Nat := 0x500202
/-- `0x5002:03` STREAM_CMD_GID. -/
def streamCmdGid : Nat := 0x500203
/-- `0x5002:04` STREAM_CMD_RING_PVA. -/
def streamCmdRingPva : Nat := 0x500204
/-- `0x5002:05` STREAM_CMD_LOG2_SIZE. -/
def streamCmdLog2Size : Nat := 0x500205
/-- `0x5002:06` NOTIFY_EPID. -/
def notifyEpid : Nat := 0x500206
/-- `0x5002:07` WAIT_TIMEOUT. -/
def waitTimeout : Nat := 0x500207
/-- `0x5002:08` STREAM_CMD_RESULT. -/
def streamCmdResult : Nat := 0x500208
/-- `0x5002:09` STREAM_CMD_STATE. -/
def streamCmdState : Nat := 0x500209
/-- `0x5002:0A` STREAM_CMD_HEAD. -/
def streamCmdHead : Nat := 0x50020A
/-- `0x5002:0B` STREAM_CMD_ERR. -/
def streamCmdErr : Nat := 0x50020B
/-- `0x5010:00` TRK_IN_USE. -/
def trkInUse : Nat := 0x501000
/-- `0x5011:00` TRK_RESERVE_TC2. -/
def trkReserveTc2 : Nat := 0x501100
/-- `0x5012:00` TRK_RESERVE_TC3. -/
def trkReserveTc3 : Nat := 0x501200
/-- `0x5013:00` TRK_HIGH_WATER. -/
def trkHighWater : Nat := 0x501300
/-- `0x5014:00` PREFETCH_DEPTH. -/
def prefetchDepth : Nat := 0x501400
/-- `0x5015:00` REDISPATCH_LIMIT. -/
def redispatchLimit : Nat := 0x501500
/-- `0x5100:00` TALLY_FREE_COUNT. -/
def tallyFreeCount : Nat := 0x510000
/-- `0x5101:01` TALLY_CMD_OP. -/
def tallyCmdOp : Nat := 0x510101
/-- `0x5101:02` TALLY_CMD_TALLY. -/
def tallyCmdTally : Nat := 0x510102
/-- `0x5101:03` TALLY_CMD_GID. -/
def tallyCmdGid : Nat := 0x510103
/-- `0x5101:04` TALLY_CMD_VALUE. -/
def tallyCmdValue : Nat := 0x510104
/-- `0x5101:05` TALLY_CMD_FLAGS. -/
def tallyCmdFlags : Nat := 0x510105
/-- `0x5101:06` TALLY_CMD_MIRROR_PVA. -/
def tallyCmdMirrorPva : Nat := 0x510106
/-- `0x5101:07` TALLY_CMD_NOTIFY_EPID. -/
def tallyCmdNotifyEpid : Nat := 0x510107
/-- `0x5101:08` TALLY_CMD_RESULT. -/
def tallyCmdResult : Nat := 0x510108
/-- `0x5101:09` TALLY_CMD_ENTRY. -/
def tallyCmdEntry : Nat := 0x510109
/-- `0x5200:00` ARITH_REPORT_MASK. -/
def arithReportMask : Nat := 0x520000
/-- `0x5201:00` ARITH_FLAGS_SEEN. -/
def arithFlagsSeen : Nat := 0x520100
/-- `0x5202:00` STOCH_ALLOWED. -/
def stochAllowed : Nat := 0x520200
/-- `0x5203:00` FORMAT_CAPS. -/
def formatCaps : Nat := 0x520300
/-- `0x5300:00` CHUNK_SPREAD_MAX. -/
def chunkSpreadMax : Nat := 0x530000
/-- `0x5301:00` RED_CTX_FREE. -/
def redCtxFree : Nat := 0x530100
/-- `0x5302:00` STAGE_FREE_KIB. -/
def stageFreeKib : Nat := 0x530200
/-- `0x5303:00` STAGE_PREFETCH_MAX. -/
def stagePrefetchMax : Nat := 0x530300
/-- `0x5304:00` REMOTE_TIMEOUT. -/
def remoteTimeout : Nat := 0x530400
/-- `0x5380:00` MATRIX_SPLIT_DEFAULT. -/
def matrixSplitDefault : Nat := 0x538000
/-- `0x5381:00` LAYOUT_FREE_COUNT. -/
def layoutFreeCount : Nat := 0x538100
/-- `0x5382:01` LAYOUT_CMD_OP. -/
def layoutCmdOp : Nat := 0x538201
/-- `0x5382:02` LAYOUT_CMD_ID. -/
def layoutCmdId : Nat := 0x538202
/-- `0x5382:03` LAYOUT_CMD_GID. -/
def layoutCmdGid : Nat := 0x538203
/-- `0x5382:04` LAYOUT_CMD_DESC. -/
def layoutCmdDesc : Nat := 0x538204
/-- `0x5382:05` LAYOUT_CMD_RESULT. -/
def layoutCmdResult : Nat := 0x538205
/-- `0x5383:00` MATRIX_READ_SHARE. -/
def matrixReadShare : Nat := 0x538300
/-- `0x6000:00` FAULT_HOLD_TIMEOUT. -/
def faultHoldTimeout : Nat := 0x600000
/-- `0x6001:01` TRANS_CMD_OP. -/
def transCmdOp : Nat := 0x600101
/-- `0x6001:02` TRANS_CMD_GID. -/
def transCmdGid : Nat := 0x600102
/-- `0x6001:03` TRANS_CMD_EXPECT_GEN. -/
def transCmdExpectGen : Nat := 0x600103
/-- `0x6001:04` TRANS_CMD_COUNT. -/
def transCmdCount : Nat := 0x600104
/-- `0x6001:05` TRANS_CMD_BATCH. -/
def transCmdBatch : Nat := 0x600105
/-- `0x6001:06` TRANS_CMD_RESULT. -/
def transCmdResult : Nat := 0x600106
/-- `0x6001:07` TRANS_CMD_GEN. -/
def transCmdGen : Nat := 0x600107
/-- `0x6001:08` TRANS_CMD_QPVA. -/
def transCmdQpva : Nat := 0x600108
/-- `0x6001:09` TRANS_CMD_QENTRY. -/
def transCmdQentry : Nat := 0x600109
/-- `0x6001:0A` TRANS_CMD_QLEVEL. -/
def transCmdQlevel : Nat := 0x60010A
/-- `0x6001:0B` TRANS_CMD_FAIL_INDEX. -/
def transCmdFailIndex : Nat := 0x60010B
/-- `0x6002:00` FQ_EPID. -/
def fqEpid : Nat := 0x600200
/-- `0x6003:00` FQ_BASE. -/
def fqBase : Nat := 0x600300
/-- `0x6004:00` FQ_LOG2. -/
def fqLog2 : Nat := 0x600400
/-- `0x6005:00` FQ_HEAD. -/
def fqHead : Nat := 0x600500
/-- `0x6006:00` FQ_TAIL. -/
def fqTail : Nat := 0x600600
/-- `0x6007:00` FAULT_PENDING. -/
def faultPending : Nat := 0x600700
/-- `0x6008:00` ZM_LOST. -/
def zmLost : Nat := 0x600800
/-- `0x6009:00` HEAP_FREE_BLOCKS. -/
def heapFreeBlocks : Nat := 0x600900
/-- `0x600A:00` MIGRATE_TIMEOUT. -/
def migrateTimeout : Nat := 0x600A00
/-- `0x6100:00` HEARTH_BASE. -/
def hearthBase : Nat := 0x610000
/-- `0x6101:00` HEARTH_SIZE. -/
def hearthSize : Nat := 0x610100
/-- `0x6102:00` HEARTH_STATE. -/
def hearthState : Nat := 0x610200
/-- `0x6103:00` HEARTH_SNOOP_TIMEOUT. -/
def hearthSnoopTimeout : Nat := 0x610300
/-- `0x6104:00` HEARTH_GRANT_E. -/
def hearthGrantE : Nat := 0x610400
/-- `0x6105:00` DIR_VALID_COUNT. -/
def dirValidCount : Nat := 0x610500
/-- `0x6107:00` HEARTH_BI_MAX. -/
def hearthBiMax : Nat := 0x610700
/-- `0x6108:00` HEARTH_RMAP_BASE. -/
def hearthRmapBase : Nat := 0x610800
/-- `0x6110:01` HEARTH_CMD_OP. -/
def hearthCmdOp : Nat := 0x611001
/-- `0x6110:02` HEARTH_CMD_CEID. -/
def hearthCmdCeid : Nat := 0x611002
/-- `0x6110:03` HEARTH_CMD_EPID. -/
def hearthCmdEpid : Nat := 0x611003
/-- `0x6110:04` HEARTH_CMD_PKEY. -/
def hearthCmdPkey : Nat := 0x611004
/-- `0x6110:05` HEARTH_CMD_PA. -/
def hearthCmdPa : Nat := 0x611005
/-- `0x6110:06` HEARTH_CMD_LEN. -/
def hearthCmdLen : Nat := 0x611006
/-- `0x6110:07` HEARTH_CMD_RESULT. -/
def hearthCmdResult : Nat := 0x611007
/-- `0x6110:08` HEARTH_CMD_CE_STATE. -/
def hearthCmdCeState : Nat := 0x611008
/-- `0x6110:09` HEARTH_CMD_ENTRY. -/
def hearthCmdEntry : Nat := 0x611009
/-- `0x7000:00` CTR_FREEZE. -/
def ctrFreeze : Nat := 0x700000
/-- `0x7001:01` CTR_CMD_OP. -/
def ctrCmdOp : Nat := 0x700101
/-- `0x7001:02` CTR_CMD_DIE. -/
def ctrCmdDie : Nat := 0x700102
/-- `0x7001:03` CTR_CMD_COUNTER. -/
def ctrCmdCounter : Nat := 0x700103
/-- `0x7001:04` CTR_CMD_CONFIG. -/
def ctrCmdConfig : Nat := 0x700104
/-- `0x7001:05` CTR_CMD_VALUE. -/
def ctrCmdValue : Nat := 0x700105
/-- `0x7001:06` CTR_CMD_SNAP_TIME. -/
def ctrCmdSnapTime : Nat := 0x700106
/-- `0x7001:07` CTR_CMD_RESULT. -/
def ctrCmdResult : Nat := 0x700107
/-- `0x7002:00` CTR_OVF_DIES. -/
def ctrOvfDies : Nat := 0x700200
/-- `0x7010:01` on, CTR_SNAPSHOT, of unit n (sub n + 1). -/
def ctrSnapshot (n : Nat) : Nat := 0x701001 + n
/-- `0x7040:00` SAMPLE_PERIOD. -/
def samplePeriod : Nat := 0x704000
/-- `0x7041:01` on, SAMPLE_QUEUE, of unit n (sub n + 1). -/
def sampleQueue (n : Nat) : Nat := 0x704101 + n
/-- `0x7042:01` on, SAMPLE_RECORD, of unit n (sub n + 1). -/
def sampleRecord (n : Nat) : Nat := 0x704201 + n
/-- `0x7043:00` OBS_PHASE. -/
def obsPhase : Nat := 0x704300
/-- `0x7044:00` RECOVERY_HOLD. -/
def recoveryHold : Nat := 0x704400
/-- `0x7045:01` on, HWM_QUEUE, of unit n (sub n + 1). -/
def hwmQueue (n : Nat) : Nat := 0x704501 + n
/-- `0x7046:01` on, HWM_RECORD, of unit n (sub n + 1). -/
def hwmRecord (n : Nat) : Nat := 0x704601 + n
/-- `0x7100:00` LOG_TAIL. -/
def logTail : Nat := 0x710000
/-- `0x7101:01` LOG_CMD_OP. -/
def logCmdOp : Nat := 0x710101
/-- `0x7101:02` LOG_CMD_RECNO. -/
def logCmdRecno : Nat := 0x710102
/-- `0x7101:03` LOG_CMD_COUNT. -/
def logCmdCount : Nat := 0x710103
/-- `0x7101:04` LOG_CMD_DATA. -/
def logCmdData : Nat := 0x710104
/-- `0x7101:05` LOG_CMD_RESULT. -/
def logCmdResult : Nat := 0x710105
/-- `0x7102:00` LOG_PRESERVED. -/
def logPreserved : Nat := 0x710200
/-- `0x7103:00` LOG_COALESCE. -/
def logCoalesce : Nat := 0x710300
/-- `0x8000:00` CAL_FORMAT. -/
def calFormat : Nat := 0x800000
/-- `0x8001:01` on, CAL_STATE, of unit n (sub n + 1). -/
def calState (n : Nat) : Nat := 0x800101 + n
/-- `0x8002:01` on, CAL_SEED, of unit n (sub n + 1). -/
def calSeed (n : Nat) : Nat := 0x800201 + n
/-- `0x8003:01` on, CAL_TRIM, of unit n (sub n + 1). -/
def calTrim (n : Nat) : Nat := 0x800301 + n
/-- `0x8004:01` on, CAL_TRAINED, of unit n (sub n + 1). -/
def calTrained (n : Nat) : Nat := 0x800401 + n
/-- `0x8010:01` CAL_CMD_OP. -/
def calCmdOp : Nat := 0x801001
/-- `0x8010:02` CAL_CMD_CHANNEL. -/
def calCmdChannel : Nat := 0x801002
/-- `0x8010:03` CAL_CMD_RESULT. -/
def calCmdResult : Nat := 0x801003
/-- `0x9000:00` SECURITY_STATE. -/
def securityState : Nat := 0x900000
/-- `0x9001:00` FW_ACTIVE_SLOT. -/
def fwActiveSlot : Nat := 0x900100
/-- `0x9002:01` on, FW_VERSION, of unit n (sub n + 1). -/
def fwVersion (n : Nat) : Nat := 0x900201 + n
/-- `0x9003:00` FW_SVN_MIN. -/
def fwSvnMin : Nat := 0x900300
/-- `0x9004:01` FW_CMD_OP. -/
def fwCmdOp : Nat := 0x900401
/-- `0x9004:02` FW_CMD_OFFSET. -/
def fwCmdOffset : Nat := 0x900402
/-- `0x9004:03` FW_CMD_DATA. -/
def fwCmdData : Nat := 0x900403
/-- `0x9004:04` FW_CMD_RESULT. -/
def fwCmdResult : Nat := 0x900404
/-- `0x9008:00` DEVICE_CERT. -/
def deviceCert : Nat := 0x900800
/-- `0x9009:00` DEVICE_CA_CERT. -/
def deviceCaCert : Nat := 0x900900
/-- `0x900A:01` on, TRUST_ANCHOR, of unit n (sub n + 1). -/
def trustAnchor (n : Nat) : Nat := 0x900A01 + n
/-- `0x900B:00` DENY_LIST. -/
def denyList : Nat := 0x900B00
/-- `0x900C:00` ENTROPY_STATE. -/
def entropyState : Nat := 0x900C00
/-- `0x900D:00` DRBG_RESEEDS. -/
def drbgReseeds : Nat := 0x900D00
/-- `0x9010:01` ATTEST_NONCE. -/
def attestNonce : Nat := 0x901001
/-- `0x9010:02` ATTEST_REPORT. -/
def attestReport : Nat := 0x901002
/-- `0x9018:01` DEBUG_CMD_OP. -/
def debugCmdOp : Nat := 0x901801
/-- `0x9018:02` DEBUG_CMD_LEVEL. -/
def debugCmdLevel : Nat := 0x901802
/-- `0x9018:03` DEBUG_CMD_NONCE. -/
def debugCmdNonce : Nat := 0x901803
/-- `0x9018:04` DEBUG_CMD_SIG. -/
def debugCmdSig : Nat := 0x901804
/-- `0x9018:05` DEBUG_CMD_RESULT. -/
def debugCmdResult : Nat := 0x901805
/-- `0x9019:00` DEBUG_ANCHOR_MASK. -/
def debugAnchorMask : Nat := 0x901900
/-- `0x9020:00` TAMPER_CAUSE. -/
def tamperCause : Nat := 0x902000
/-- `0xA000:00` POWER_STATE. -/
def powerState : Nat := 0xA00000
/-- `0xA001:01` POWER_CMD_OP. -/
def powerCmdOp : Nat := 0xA00101
/-- `0xA001:02` POWER_CMD_RESULT. -/
def powerCmdResult : Nat := 0xA00102
/-- `0xA001:03` POWER_CMD_BLOCKER. -/
def powerCmdBlocker : Nat := 0xA00103
/-- `0xA002:00` WAKE_EN. -/
def wakeEn : Nat := 0xA00200
/-- `0xA003:00` WAKE_LINK_MASK. -/
def wakeLinkMask : Nat := 0xA00300
/-- `0xA004:00` WAKE_TIMER. -/
def wakeTimer : Nat := 0xA00400
/-- `0xA005:00` LAST_WAKE_CAUSE. -/
def lastWakeCause : Nat := 0xA00500
/-- `0xA006:00` NIGHT_COUNT. -/
def nightCount : Nat := 0xA00600
/-- `0xA010:00` CLUSTER_SHUTTER_IDLE. -/
def clusterShutterIdle : Nat := 0xA01000
/-- `0xA011:00` CLUSTER_DARK_IDLE. -/
def clusterDarkIdle : Nat := 0xA01100
/-- `0xA012:00` CLUSTER_OPEN_MIN. -/
def clusterOpenMin : Nat := 0xA01200
/-- `0xA013:00` CLUSTER_STATE. -/
def clusterState : Nat := 0xA01300
/-- `0xA014:00` CH_IDLE_PD. -/
def chIdlePd : Nat := 0xA01400
/-- `0xA015:00` LINK_STANDBY_IDLE. -/
def linkStandbyIdle : Nat := 0xA01500
/-- `0xA020:00` TIMEBASE. -/
def timebase : Nat := 0xA02000
/-- `0xA021:00` REFCLK_SEL. -/
def refclkSel : Nat := 0xA02100
/-- `0xA022:00` REFCLK_STATUS. -/
def refclkStatus : Nat := 0xA02200
/-- `0xA023:00` REFCLK_REVERT. -/
def refclkRevert : Nat := 0xA02300
/-- `0xA024:00` REFCLK_SWITCH_COUNT. -/
def refclkSwitchCount : Nat := 0xA02400
/-- `0xA025:00` CDC_OVERRUN. -/
def cdcOverrun : Nat := 0xA02500
/-- `0xA030:01` on, DIE_TEMP, of unit n (sub n + 1). -/
def dieTemp (n : Nat) : Nat := 0xA03001 + n
/-- `0xA031:00` DIE_TEMP_WARN. -/
def dieTempWarn : Nat := 0xA03100
/-- `0xA032:00` DIE_TEMP_THROTTLE. -/
def dieTempThrottle : Nat := 0xA03200
/-- `0xA033:00` THROTTLE_STATE. -/
def throttleState : Nat := 0xA03300
/-- `0xA040:00` RESET_CAUSE. -/
def resetCause : Nat := 0xA04000
/-- `0xA041:00` RESET_HISTORY. -/
def resetHistory : Nat := 0xA04100
/-- `0xB000:00` IK_ACTIVE. -/
def ikActive : Nat := 0xB00000
/-- `0xB001:01` on, IK_STATE, of unit n (sub n + 1). -/
def ikState (n : Nat) : Nat := 0xB00101 + n
/-- `0xB002:00` IK_REVERT_EN. -/
def ikRevertEn : Nat := 0xB00200
/-- `0xB003:00` IK_FAILOVER_COUNT. -/
def ikFailoverCount : Nat := 0xB00300
/-- `0xB004:00` IK_LAST_CAUSE. -/
def ikLastCause : Nat := 0xB00400
/-- `0xB005:00` IK_LAST_GAP. -/
def ikLastGap : Nat := 0xB00500
/-- `0xB006:00` IK_CHECKPOINT_SEQ. -/
def ikCheckpointSeq : Nat := 0xB00600
/-- `0xB007:01` on, IK_PASS_COUNT, of unit n (sub n + 1). -/
def ikPassCount (n : Nat) : Nat := 0xB00701 + n
/-- `0xB010:01` IK_CMD_OP. -/
def ikCmdOp : Nat := 0xB01001
/-- `0xB010:02` IK_CMD_DIE. -/
def ikCmdDie : Nat := 0xB01002
/-- `0xB010:03` IK_CMD_RESULT. -/
def ikCmdResult : Nat := 0xB01003
/-- `0xB100:00` IRQ_SOURCE_COUNT. -/
def irqSourceCount : Nat := 0xB10000
/-- `0xB101:00` IRQ_PENDING. -/
def irqPending : Nat := 0xB10100
/-- `0xB102:00` IRQ_MASK. -/
def irqMask : Nat := 0xB10200
/-- `0xB103:00` IRQ_ALERT_EN. -/
def irqAlertEn : Nat := 0xB10300
/-- `0xB104:00` IRQ_ALERT_STATUS. -/
def irqAlertStatus : Nat := 0xB10400
/-- `0xB105:00` IRQ_COUNTS. -/
def irqCounts : Nat := 0xB10500
/-- `0xB106:00` IRQ_OVERRUN. -/
def irqOverrun : Nat := 0xB10600
/-- `0xB107:00` IRQ_TARGET_EN. -/
def irqTargetEn : Nat := 0xB10700
/-- `0xB110:01` IRQ_CMD_OP. -/
def irqCmdOp : Nat := 0xB11001
/-- `0xB110:02` IRQ_CMD_SOURCE. -/
def irqCmdSource : Nat := 0xB11002
/-- `0xB110:03` IRQ_CMD_VECTOR. -/
def irqCmdVector : Nat := 0xB11003
/-- `0xB110:04` IRQ_CMD_PRIO. -/
def irqCmdPrio : Nat := 0xB11004
/-- `0xB110:05` IRQ_CMD_RESULT. -/
def irqCmdResult : Nat := 0xB11005
/-- `0xB200:00` PIGEON_COUNT. -/
def pigeonCount : Nat := 0xB20000
/-- `0xB201:01` on, PIGEON_OWNER, of unit n (sub n + 1). -/
def pigeonOwner (n : Nat) : Nat := 0xB20101 + n
/-- `0xB202:01` on, PIGEON_FLAGS, of unit n (sub n + 1). -/
def pigeonFlags (n : Nat) : Nat := 0xB20201 + n
/-- `0xB210:01` PIGEON_CMD_OP. -/
def pigeonCmdOp : Nat := 0xB21001
/-- `0xB210:02` PIGEON_CMD_HOLE. -/
def pigeonCmdHole : Nat := 0xB21002
/-- `0xB210:03` PIGEON_CMD_WORDS. -/
def pigeonCmdWords : Nat := 0xB21003
/-- `0xB210:04` PIGEON_CMD_DATA. -/
def pigeonCmdData : Nat := 0xB21004
/-- `0xB210:05` PIGEON_CMD_RESULT. -/
def pigeonCmdResult : Nat := 0xB21005

end Obj

/-- Rows 0x1000 to 0x2102 of the object table. -/
def objRows0 : List ObjRow := [
  ⟨0x1000, 0x00, 0x00, .vstring 9, .ro, 0, strBytes "Koeraique", .any, false, false⟩,
  ⟨0x1001, 0x00, 0x00, .vstring 7, .ro, 0, strBytes "TH-6416", .any, false, false⟩,
  ⟨0x1002, 0x00, 0x00, .u8, .ro, 177, [], .any, false, false⟩,
  ⟨0x1003, 0x00, 0x00, .vstring 12, .ro, 0, strBytes "TH-6416-B1-L", .any, false, false⟩,
  ⟨0x1004, 0x00, 0x00, .octets 16, .ro, 0, [], .any, true, false⟩,
  ⟨0x1005, 0x00, 0x00, .u8, .ro, 0, [], .any, true, false⟩,
  ⟨0x1006, 0x00, 0x00, .u16, .con, 1, [], .any, false, false⟩,
  ⟨0x1007, 0x00, 0x00, .u64, .ro, 0, [], .any, true, false⟩,
  ⟨0x1008, 0x00, 0x00, .u64, .ro, 0, [], .any, false, false⟩,
  ⟨0x1009, 0x00, 0x00, .octets 6, .ro, 0, [], .any, true, false⟩,
  ⟨0x100A, 0x00, 0x00, .u8, .rwp, 255, [], .orVal 0xFF 0 254, false, true⟩,
  ⟨0x100B, 0x00, 0x00, .u8, .ro, 0, [], .any, true, false⟩,
  ⟨0x100C, 0x00, 0x00, .bool, .rwp, 1, [], .any, false, true⟩,
  ⟨0x100D, 0x00, 0x00, .u8, .rwp, 8, [], .between 1 255, false, true⟩,
  ⟨0x100E, 0x00, 0x00, .u8, .rwp, 32, [], .between 1 255, false, true⟩,
  ⟨0x100F, 0x00, 0x00, .bool, .rwp, 1, [], .any, false, true⟩,
  ⟨0x1010, 0x00, 0x00, .u32, .rw, 0, [], .zeroOnly, false, false⟩,
  ⟨0x1080, 0x00, 0x00, .u8, .con, 8, [], .any, false, false⟩,
  ⟨0x1081, 0x01, 0x08, .u64, .ro, 0, [], .any, false, false⟩,
  ⟨0x1082, 0x00, 0x00, .u32, .rw, 60000, [], .between 1000 3600000, false, false⟩,
  ⟨0x1083, 0x00, 0x00, .bool, .rwa, 0, [], .any, false, true⟩,
  ⟨0x1084, 0x00, 0x00, .u8, .rwa, 255, [], .anchorMask, false, true⟩,
  ⟨0x1085, 0x00, 0x00, .u32, .ro, 0, [], .any, false, false⟩,
  ⟨0x1090, 0x00, 0x00, .u8, .ro, 0, [], .any, false, false⟩,
  ⟨0x1091, 0x00, 0x00, .u32, .ro, 0, [], .any, false, false⟩,
  ⟨0x2000, 0x00, 0x00, .u32, .rwp, 0, [], .any, false, true⟩,
  ⟨0x2001, 0x00, 0x00, .u8, .ro, 255, [], .any, false, false⟩,
  ⟨0x2002, 0x00, 0x00, .u8, .rwp, 255, [], .orVal 0xFF 1 63, false, true⟩,
  ⟨0x2003, 0x00, 0x00, .u8, .ro, 0, [], .any, false, false⟩,
  ⟨0x2004, 0x00, 0x00, .u64, .ro, 0, [], .any, false, false⟩,
  ⟨0x2005, 0x00, 0x00, .u8, .rwp, 0, [], .between 0 63, false, true⟩,
  ⟨0x2006, 0x00, 0x00, .u32, .rwp, 12000, [], .between 1000 600000, false, true⟩,
  ⟨0x2007, 0x00, 0x00, .u32, .rwp, 0, [], .mask 0x000FFFFF, false, true⟩,
  ⟨0x2008, 0x00, 0x00, .u64, .ro, 0, [], .any, true, false⟩,
  ⟨0x2009, 0x00, 0x00, .u64, .ro, 0, [], .any, true, false⟩,
  ⟨0x200A, 0x00, 0x00, .u32, .ro, 0, [], .any, false, false⟩,
  ⟨0x200B, 0x01, 0x3F, .u32, .rwp, 0, [], .mask 0x000FFFFF, false, true⟩,
  ⟨0x2100, 0x00, 0x00, .u32, .ro, 0, [], .any, false, false⟩,
  ⟨0x2101, 0x00, 0x00, .u32, .ro, 0, [], .any, false, false⟩,
  ⟨0x2102, 0x00, 0x00, .u32, .rw, 8192, [], .between 0 8192, false, false⟩
]

/-- Rows 0x2103 to 0x3104 of the object table. -/
def objRows1 : List ObjRow := [
  ⟨0x2103, 0x00, 0x00, .u32, .rw, 1000, [], .between 10 20000, false, false⟩,
  ⟨0x2104, 0x00, 0x00, .u8, .rwa, 7, [], .between 7 7, false, false⟩,
  ⟨0x2104, 0x01, 0x01, .u8, .rwa, 0, [], .any, false, false⟩,
  ⟨0x2104, 0x02, 0x02, .u32, .rwa, 0, [], .any, false, false⟩,
  ⟨0x2104, 0x03, 0x03, .u8, .rwa, 0, [], .between 0 239, false, false⟩,
  ⟨0x2104, 0x04, 0x04, .octets 16, .rwa, 0, List.replicate 16 0x00, .any, false, false⟩,
  ⟨0x2104, 0x05, 0x05, .u8, .ro, 0, [], .any, false, false⟩,
  ⟨0x2104, 0x06, 0x06, .u8, .ro, 0, [], .any, false, false⟩,
  ⟨0x2104, 0x07, 0x07, .u16, .rwa, 0, [], .any, false, false⟩,
  ⟨0x2180, 0x00, 0x00, .u8, .rwa, 4, [], .between 4 4, false, false⟩,
  ⟨0x2180, 0x01, 0x01, .u8, .rwa, 0, [], .any, false, false⟩,
  ⟨0x2180, 0x02, 0x02, .u32, .rwa, 0, [], .any, false, false⟩,
  ⟨0x2180, 0x03, 0x03, .u8, .ro, 0, [], .any, false, false⟩,
  ⟨0x2180, 0x04, 0x04, .u8, .ro, 0, [], .any, false, false⟩,
  ⟨0x2181, 0x00, 0x00, .u64, .ro, 0, [], .any, false, false⟩,
  ⟨0x2182, 0x00, 0x00, .u32, .ro, 0, [], .any, false, false⟩,
  ⟨0x3000, 0x00, 0x00, .u8, .ro, 32, [], .any, false, false⟩,
  ⟨0x3001, 0x01, 0x20, .u8, .ro, 0, [], .any, false, false⟩,
  ⟨0x3002, 0x01, 0x20, .bool, .rwp, 1, [], .any, false, true⟩,
  ⟨0x3003, 0x01, 0x20, .bool, .rwp, 1, [], .any, false, true⟩,
  ⟨0x3004, 0x01, 0x20, .bool, .rwp, 1, [], .any, false, true⟩,
  ⟨0x3005, 0x00, 0x00, .u32, .rw, 3000, [], .between 1000 50000, false, false⟩,
  ⟨0x3006, 0x00, 0x00, .u8, .rw, 8, [], .between 2 32, false, false⟩,
  ⟨0x3007, 0x01, 0x01, .u32, .rw, 10000, [], .between 2000 1000000, false, false⟩,
  ⟨0x3007, 0x02, 0x02, .u32, .rw, 1000, [], .between 10 60000, false, false⟩,
  ⟨0x3008, 0x00, 0x00, .u16, .rw, 6144, [], .between 0 8192, false, false⟩,
  ⟨0x3009, 0x00, 0x00, .u32, .rw, 20, [], .between 5 10000, false, false⟩,
  ⟨0x300A, 0x00, 0x00, .u32, .rw, 50000, [], .between 100 5000000, false, false⟩,
  ⟨0x300B, 0x00, 0x00, .u32, .rw, 50, [], .between 10 1000, false, false⟩,
  ⟨0x300C, 0x00, 0x00, .u32, .ro, 0, [], .any, false, false⟩,
  ⟨0x3010, 0x00, 0x00, .u8, .rwa, 6, [], .between 6 6, false, false⟩,
  ⟨0x3010, 0x01, 0x01, .u8, .rwa, 0, [], .any, false, false⟩,
  ⟨0x3010, 0x02, 0x02, .u8, .rwa, 0, [], .any, false, false⟩,
  ⟨0x3010, 0x03, 0x03, .u32, .rwa, 0, [], .any, false, false⟩,
  ⟨0x3010, 0x04, 0x04, .u8, .ro, 0, [], .any, false, false⟩,
  ⟨0x3010, 0x05, 0x05, .u16, .ro, 255, [], .any, false, false⟩,
  ⟨0x3010, 0x06, 0x06, .octets 16, .ro, 0, List.replicate 16 0x00, .any, false, false⟩,
  ⟨0x3012, 0x01, 0x20, .u8, .ro, 0, [], .any, false, false⟩,
  ⟨0x3100, 0x01, 0x10, .u8, .rwp, 0, [], .between 0 2, false, true⟩,
  ⟨0x3101, 0x01, 0x10, .bool, .rwp, 0, [], .any, false, true⟩,
  ⟨0x3102, 0x01, 0x10, .u8, .rwp, 0, [], .any, false, true⟩,
  ⟨0x3103, 0x01, 0x10, .u8, .ro, 0, [], .any, false, false⟩,
  ⟨0x3104, 0x00, 0x00, .u8, .rw, 32, [], .between 4 63, false, false⟩
]

/-- Rows 0x3108 to 0x3137 of the object table. -/
def objRows2 : List ObjRow := [
  ⟨0x3108, 0x00, 0x00, .u8, .rwa, 5, [], .between 5 5, false, false⟩,
  ⟨0x3108, 0x01, 0x01, .u8, .rwa, 0, [], .any, false, false⟩,
  ⟨0x3108, 0x02, 0x02, .u32, .rwa, 0, [], .any, false, false⟩,
  ⟨0x3108, 0x03, 0x03, .u16, .rwa, 0, [], .any, false, false⟩,
  ⟨0x3108, 0x04, 0x04, .u8, .rwa, 0, [], .any, false, false⟩,
  ⟨0x3108, 0x05, 0x05, .u8, .ro, 0, [], .any, false, false⟩,
  ⟨0x3110, 0x00, 0x00, .u8, .rwa, 6, [], .between 6 6, false, false⟩,
  ⟨0x3110, 0x01, 0x01, .u8, .rwa, 0, [], .any, false, false⟩,
  ⟨0x3110, 0x02, 0x02, .u32, .rwa, 0, [], .any, false, false⟩,
  ⟨0x3110, 0x03, 0x03, .u16, .rwa, 0, [], .any, false, false⟩,
  ⟨0x3110, 0x04, 0x04, .u32, .rwa, 0, [], .any, false, false⟩,
  ⟨0x3110, 0x05, 0x05, .u8, .ro, 0, [], .any, false, false⟩,
  ⟨0x3110, 0x06, 0x06, .u32, .ro, 262144, [], .any, false, false⟩,
  ⟨0x3118, 0x00, 0x00, .u8, .rwa, 5, [], .between 5 5, false, false⟩,
  ⟨0x3118, 0x01, 0x01, .u8, .rwa, 0, [], .any, false, false⟩,
  ⟨0x3118, 0x02, 0x02, .u8, .rwa, 0, [], .between 0 31, false, false⟩,
  ⟨0x3118, 0x03, 0x03, .u16, .rwa, 0, [], .any, false, false⟩,
  ⟨0x3118, 0x04, 0x04, .octets 128, .ro, 0, List.replicate 128 0x00, .any, false, false⟩,
  ⟨0x3118, 0x05, 0x05, .u8, .ro, 0, [], .any, false, false⟩,
  ⟨0x3119, 0x01, 0x20, .bool, .rw, 0, [], .any, false, false⟩,
  ⟨0x3120, 0x00, 0x00, .u8, .rwa, 11, [], .between 11 11, false, false⟩,
  ⟨0x3120, 0x01, 0x01, .u8, .rwa, 0, [], .any, false, false⟩,
  ⟨0x3120, 0x02, 0x02, .u8, .rwa, 0, [], .any, false, false⟩,
  ⟨0x3120, 0x03, 0x03, .u16, .rwa, 0, [], .any, false, false⟩,
  ⟨0x3120, 0x04, 0x04, .u8, .rwa, 0, [], .any, false, false⟩,
  ⟨0x3120, 0x05, 0x05, .u8, .rwa, 0, [], .any, false, false⟩,
  ⟨0x3120, 0x06, 0x06, .u16, .rwa, 0, [], .any, false, false⟩,
  ⟨0x3120, 0x07, 0x07, .u16, .rwa, 1, [], .any, false, false⟩,
  ⟨0x3120, 0x08, 0x08, .u32, .rwa, 4224, [], .any, false, false⟩,
  ⟨0x3120, 0x09, 0x09, .u32, .rwa, 0, [], .any, false, false⟩,
  ⟨0x3120, 0x0A, 0x0A, .u32, .rwa, 65536, [], .any, false, false⟩,
  ⟨0x3120, 0x0B, 0x0B, .u8, .ro, 0, [], .any, false, false⟩,
  ⟨0x3121, 0x01, 0x10, .u16, .ro, 4, [], .any, false, false⟩,
  ⟨0x3122, 0x01, 0x10, .u8, .ro, 0, [], .any, false, false⟩,
  ⟨0x3128, 0x01, 0x20, .u32, .rw, 0, [], .expPeriod, false, false⟩,
  ⟨0x3129, 0x01, 0x20, .u32, .rw, 0, [], .expWindow, false, false⟩,
  ⟨0x3130, 0x00, 0x00, .u32, .rw, 96, [], .between 4 4096, false, false⟩,
  ⟨0x3131, 0x00, 0x00, .u8, .rw, 64, [], .between 1 255, false, false⟩,
  ⟨0x3132, 0x00, 0x00, .u32, .rw, 8, [], .between 1 1000, false, false⟩,
  ⟨0x3133, 0x00, 0x00, .u32, .rw, 2000, [], .between 10 99210, false, false⟩,
  ⟨0x3134, 0x00, 0x00, .u32, .rw, 10, [], .between 1 1000, false, false⟩,
  ⟨0x3135, 0x00, 0x00, .u32, .rw, 500, [], .between 100 99210, false, false⟩,
  ⟨0x3136, 0x00, 0x00, .u32, .rw, 2, [], .between 1 100, false, false⟩,
  ⟨0x3137, 0x00, 0x00, .bool, .rw, 1, [], .any, false, false⟩
]

/-- Rows 0x3138 to 0x4106 of the object table. -/
def objRows3 : List ObjRow := [
  ⟨0x3138, 0x00, 0x00, .u32, .rw, 25000, [], .between 1000 99210, false, false⟩,
  ⟨0x4000, 0x00, 0x00, .u8, .ro, 48, [], .any, false, false⟩,
  ⟨0x4001, 0x00, 0x00, .u8, .rwp, 0, [], .between 0 2, false, true⟩,
  ⟨0x4002, 0x00, 0x00, .u8, .rwp, 1, [], .between 0 2, false, true⟩,
  ⟨0x4003, 0x01, 0x30, .u8, .ro, 0, [], .any, false, false⟩,
  ⟨0x4004, 0x01, 0x30, .u8, .ro, 0, [], .any, false, false⟩,
  ⟨0x4005, 0x00, 0x00, .u64, .ro, 0, [], .any, true, false⟩,
  ⟨0x4006, 0x01, 0x30, .bool, .rwp, 1, [], .any, false, true⟩,
  ⟨0x4010, 0x01, 0x12, .u32, .rwp, 0, [], .any, false, true⟩,
  ⟨0x4011, 0x01, 0x12, .u32, .ro, 0, [], .any, true, false⟩,
  ⟨0x4020, 0x00, 0x00, .u16, .rw, 48, [], .between 0 4096, false, false⟩,
  ⟨0x4021, 0x00, 0x00, .u16, .rw, 2048, [], .between 64 65535, false, false⟩,
  ⟨0x4022, 0x00, 0x00, .u8, .rw, 48, [], .wqHigh, false, false⟩,
  ⟨0x4023, 0x00, 0x00, .u8, .rw, 16, [], .wqLow, false, false⟩,
  ⟨0x4024, 0x00, 0x00, .u32, .rw, 500, [], .orVal 0 10 1000000, false, false⟩,
  ⟨0x4025, 0x00, 0x00, .u8, .rw, 1, [], .between 0 1, false, false⟩,
  ⟨0x4026, 0x00, 0x00, .bool, .rwp, 0, [], .any, false, true⟩,
  ⟨0x4027, 0x00, 0x00, .u16, .rw, 3072, [], .between 512 4000, false, false⟩,
  ⟨0x4030, 0x01, 0x06, .u8, .rwp, 0, [], .between 0 1, false, true⟩,
  ⟨0x4031, 0x00, 0x00, .u32, .rwp, 1000, [], .oneOf [100, 400, 1000], false, true⟩,
  ⟨0x4032, 0x00, 0x00, .u16, .rw, 20, [], .between 1 10000, false, false⟩,
  ⟨0x4033, 0x00, 0x00, .u16, .rw, 8, [], .between 1 1000, false, false⟩,
  ⟨0x4034, 0x00, 0x00, .u8, .rw, 95, [], .dimmThrottle, false, false⟩,
  ⟨0x4035, 0x00, 0x00, .u8, .rw, 105, [], .dimmCrit, false, false⟩,
  ⟨0x4036, 0x00, 0x00, .u8, .rwa, 7, [], .between 7 7, false, false⟩,
  ⟨0x4036, 0x01, 0x01, .u8, .rwa, 0, [], .any, false, false⟩,
  ⟨0x4036, 0x02, 0x02, .u8, .rwa, 0, [], .any, false, false⟩,
  ⟨0x4036, 0x03, 0x03, .u8, .rwa, 0, [], .any, false, false⟩,
  ⟨0x4036, 0x04, 0x04, .u16, .rwa, 0, [], .any, false, false⟩,
  ⟨0x4036, 0x05, 0x05, .u8, .rwa, 1, [], .any, false, false⟩,
  ⟨0x4036, 0x06, 0x06, .octets 64, .rwa, 0, List.replicate 64 0x00, .any, false, false⟩,
  ⟨0x4036, 0x07, 0x07, .u8, .ro, 0, [], .any, false, false⟩,
  ⟨0x4037, 0x01, 0x30, .s16, .ro, 0, [], .any, false, false⟩,
  ⟨0x4100, 0x00, 0x00, .u8, .rwa, 3, [], .between 3 3, false, false⟩,
  ⟨0x4100, 0x01, 0x01, .u8, .rwa, 0, [], .any, false, false⟩,
  ⟨0x4100, 0x02, 0x02, .u8, .rwa, 0, [], .between 0 47, false, false⟩,
  ⟨0x4100, 0x03, 0x03, .u8, .ro, 0, [], .any, false, false⟩,
  ⟨0x4101, 0x00, 0x00, .u8, .rwp, 40, [], .between 16 96, false, true⟩,
  ⟨0x4103, 0x00, 0x00, .u8, .rw, 24, [], .between 4 48, false, false⟩,
  ⟨0x4104, 0x00, 0x00, .u8, .rw, 16, [], .between 4 48, false, false⟩,
  ⟨0x4105, 0x00, 0x00, .u32, .rw, 1000, [], .any, false, false⟩,
  ⟨0x4106, 0x01, 0x30, .octets 40, .ro, 0, List.replicate 40 0x00, .any, false, false⟩
]

/-- Rows 0x4107 to 0x5002 of the object table. -/
def objRows4 : List ObjRow := [
  ⟨0x4107, 0x01, 0x30, .u32, .ro, 0, [], .any, false, false⟩,
  ⟨0x4108, 0x00, 0x00, .u8, .rw, 4, [], .between 1 60, false, false⟩,
  ⟨0x4200, 0x00, 0x00, .u16, .rw, 24, [], .between 1 720, false, false⟩,
  ⟨0x4201, 0x00, 0x00, .bool, .rw, 1, [], .any, false, false⟩,
  ⟨0x4202, 0x01, 0x30, .u32, .ro, 0, [], .any, false, false⟩,
  ⟨0x4203, 0x01, 0x30, .u32, .rw, 0, [], .zeroOnly, false, false⟩,
  ⟨0x4204, 0x01, 0x30, .u64, .rw, 0, [], .zeroOnly, false, false⟩,
  ⟨0x4205, 0x01, 0x30, .octets 512, .ro, 0, List.replicate 512 0x00, .any, false, false⟩,
  ⟨0x4206, 0x00, 0x00, .u8, .rwa, 7, [], .between 7 7, false, false⟩,
  ⟨0x4206, 0x01, 0x01, .u8, .rwa, 0, [], .any, false, false⟩,
  ⟨0x4206, 0x02, 0x02, .u8, .rwa, 0, [], .any, false, false⟩,
  ⟨0x4206, 0x03, 0x03, .u64, .rwa, 0, [], .any, false, false⟩,
  ⟨0x4206, 0x04, 0x04, .octets 64, .rwa, 0, List.replicate 64 0x00, .any, false, false⟩,
  ⟨0x4206, 0x05, 0x05, .octets 16, .rwa, 0, List.replicate 16 0x00, .any, false, false⟩,
  ⟨0x4206, 0x06, 0x06, .octets 9, .ro, 0, List.replicate 9 0x00, .any, false, false⟩,
  ⟨0x4206, 0x07, 0x07, .u8, .ro, 0, [], .any, false, false⟩,
  ⟨0x4210, 0x00, 0x00, .octets 46, .ro, 0, [], .any, true, false⟩,
  ⟨0x4211, 0x01, 0x05, .u8, .ro, 0, [], .any, false, false⟩,
  ⟨0x4212, 0x01, 0x05, .u32, .ro, 0, [], .any, false, false⟩,
  ⟨0x4213, 0x01, 0x30, .u8, .ro, 0, [], .any, true, false⟩,
  ⟨0x4214, 0x00, 0x00, .u32, .rw, 16000, [], .between 1000 60000, false, false⟩,
  ⟨0x4215, 0x00, 0x00, .u32, .ro, 0, [], .any, false, false⟩,
  ⟨0x4216, 0x00, 0x00, .u32, .rw, 20, [], .between 5 1000, false, false⟩,
  ⟨0x4220, 0x00, 0x00, .u16, .rw, 8, [], .any, false, false⟩,
  ⟨0x4221, 0x00, 0x00, .bool, .rwp, 1, [], .any, false, true⟩,
  ⟨0x4222, 0x01, 0x30, .u16, .ro, 0, [], .any, false, false⟩,
  ⟨0x4223, 0x00, 0x00, .u16, .rw, 16, [], .between 1 4096, false, false⟩,
  ⟨0x4230, 0x00, 0x00, .u32, .ro, 0, [], .any, false, false⟩,
  ⟨0x5000, 0x00, 0x00, .u32, .ro, 0, [], .any, false, false⟩,
  ⟨0x5001, 0x00, 0x00, .u32, .ro, 0, [], .any, false, false⟩,
  ⟨0x5002, 0x00, 0x00, .u8, .rwa, 11, [], .between 11 11, false, false⟩,
  ⟨0x5002, 0x01, 0x01, .u8, .rwa, 0, [], .any, false, false⟩,
  ⟨0x5002, 0x02, 0x02, .u32, .rwa, 0, [], .any, false, false⟩,
  ⟨0x5002, 0x03, 0x03, .u32, .rwa, 0, [], .any, false, false⟩,
  ⟨0x5002, 0x04, 0x04, .u64, .rwa, 0, [], .any, false, false⟩,
  ⟨0x5002, 0x05, 0x05, .u8, .rwa, 0, [], .between 0 20, false, false⟩,
  ⟨0x5002, 0x06, 0x06, .u32, .rwa, 0, [], .any, false, false⟩,
  ⟨0x5002, 0x07, 0x07, .u32, .rwa, 0, [], .any, false, false⟩,
  ⟨0x5002, 0x08, 0x08, .u8, .ro, 0, [], .any, false, false⟩,
  ⟨0x5002, 0x09, 0x09, .u8, .ro, 0, [], .any, false, false⟩,
  ⟨0x5002, 0x0A, 0x0A, .u32, .ro, 0, [], .any, false, false⟩,
  ⟨0x5002, 0x0B, 0x0B, .u64, .ro, 0, [], .any, false, false⟩
]

/-- Rows 0x5010 to 0x6001 of the object table. -/
def objRows5 : List ObjRow := [
  ⟨0x5010, 0x00, 0x00, .u32, .ro, 0, [], .any, false, false⟩,
  ⟨0x5011, 0x00, 0x00, .u16, .rw, 512, [], .between 0 2048, false, false⟩,
  ⟨0x5012, 0x00, 0x00, .u16, .rw, 128, [], .between 16 512, false, false⟩,
  ⟨0x5013, 0x00, 0x00, .u32, .rw, 0, [], .zeroOnly, false, false⟩,
  ⟨0x5014, 0x00, 0x00, .u8, .rw, 2, [], .between 0 2, false, false⟩,
  ⟨0x5015, 0x00, 0x00, .u8, .rw, 3, [], .between 1 7, false, false⟩,
  ⟨0x5100, 0x00, 0x00, .u32, .ro, 16384, [], .any, false, false⟩,
  ⟨0x5101, 0x00, 0x00, .u8, .rwa, 9, [], .between 9 9, false, false⟩,
  ⟨0x5101, 0x01, 0x01, .u8, .rwa, 0, [], .any, false, false⟩,
  ⟨0x5101, 0x02, 0x02, .u16, .rwa, 0, [], .between 0 0x3FFF, false, false⟩,
  ⟨0x5101, 0x03, 0x03, .u32, .rwa, 0, [], .any, false, false⟩,
  ⟨0x5101, 0x04, 0x04, .u64, .rwa, 0, [], .any, false, false⟩,
  ⟨0x5101, 0x05, 0x05, .u8, .rwa, 0, [], .mask 0x03, false, false⟩,
  ⟨0x5101, 0x06, 0x06, .u64, .rwa, 0, [], .any, false, false⟩,
  ⟨0x5101, 0x07, 0x07, .u32, .rwa, 0, [], .any, false, false⟩,
  ⟨0x5101, 0x08, 0x08, .u8, .ro, 0, [], .any, false, false⟩,
  ⟨0x5101, 0x09, 0x09, .octets 64, .ro, 0, List.replicate 64 0x00, .any, false, false⟩,
  ⟨0x5200, 0x00, 0x00, .u16, .rw, 1539, [], .mask 0x3FFF, false, false⟩,
  ⟨0x5201, 0x00, 0x00, .u16, .rw, 0, [], .any, false, false⟩,
  ⟨0x5202, 0x00, 0x00, .bool, .rwa, 1, [], .any, false, false⟩,
  ⟨0x5203, 0x00, 0x00, .u64, .ro, 16557103054879, [], .any, false, false⟩,
  ⟨0x5300, 0x00, 0x00, .u8, .rw, 16, [], .between 1 64, false, false⟩,
  ⟨0x5301, 0x00, 0x00, .u16, .ro, 1024, [], .any, false, false⟩,
  ⟨0x5302, 0x00, 0x00, .u32, .ro, 131072, [], .any, false, false⟩,
  ⟨0x5303, 0x00, 0x00, .u32, .rw, 32768, [], .between 0 65536, false, false⟩,
  ⟨0x5304, 0x00, 0x00, .u32, .rw, 1000, [], .between 10 1000000, false, false⟩,
  ⟨0x5380, 0x00, 0x00, .u8, .rw, 16, [], .between 1 16, false, false⟩,
  ⟨0x5381, 0x00, 0x00, .u32, .ro, 65536, [], .any, false, false⟩,
  ⟨0x5382, 0x00, 0x00, .u8, .rwa, 5, [], .between 5 5, false, false⟩,
  ⟨0x5382, 0x01, 0x01, .u8, .rwa, 0, [], .any, false, false⟩,
  ⟨0x5382, 0x02, 0x02, .u16, .rwa, 0, [], .any, false, false⟩,
  ⟨0x5382, 0x03, 0x03, .u32, .rwa, 0, [], .any, false, false⟩,
  ⟨0x5382, 0x04, 0x04, .octets 128, .rwa, 0, List.replicate 128 0x00, .any, false, false⟩,
  ⟨0x5382, 0x05, 0x05, .u8, .ro, 0, [], .any, false, false⟩,
  ⟨0x5383, 0x00, 0x00, .u8, .rw, 80, [], .between 10 100, false, false⟩,
  ⟨0x6000, 0x00, 0x00, .u32, .rw, 20000, [], .between 100 1000000, false, false⟩,
  ⟨0x6001, 0x00, 0x00, .u8, .rwa, 11, [], .between 11 11, false, false⟩,
  ⟨0x6001, 0x01, 0x01, .u8, .rwa, 0, [], .any, false, false⟩,
  ⟨0x6001, 0x02, 0x02, .u32, .rwa, 0, [], .any, false, false⟩,
  ⟨0x6001, 0x03, 0x03, .u32, .rwa, 0, [], .any, false, false⟩,
  ⟨0x6001, 0x04, 0x04, .u8, .rwa, 0, [], .any, false, false⟩,
  ⟨0x6001, 0x05, 0x05, .octetsVar 4096, .rwa, 0, [], .any, false, false⟩,
  ⟨0x6001, 0x06, 0x06, .u8, .ro, 0, [], .any, false, false⟩
]

/-- Rows 0x6001 to 0x7002 of the object table. -/
def objRows6 : List ObjRow := [
  ⟨0x6001, 0x07, 0x07, .u32, .ro, 0, [], .any, false, false⟩,
  ⟨0x6001, 0x08, 0x08, .u64, .rwa, 0, [], .any, false, false⟩,
  ⟨0x6001, 0x09, 0x09, .u64, .ro, 0, [], .any, false, false⟩,
  ⟨0x6001, 0x0A, 0x0A, .u8, .ro, 255, [], .any, false, false⟩,
  ⟨0x6001, 0x0B, 0x0B, .u8, .ro, 0, [], .any, false, false⟩,
  ⟨0x6002, 0x00, 0x00, .u32, .rw, 0, [], .mask 0x000FFFFF, false, false⟩,
  ⟨0x6003, 0x00, 0x00, .u64, .rw, 0, [], .mask 0x0000FFFFFFFFFFE0, false, false⟩,
  ⟨0x6004, 0x00, 0x00, .u8, .rw, 0, [], .orVal 0 4 16, false, false⟩,
  ⟨0x6005, 0x00, 0x00, .u32, .rw, 0, [], .any, false, false⟩,
  ⟨0x6006, 0x00, 0x00, .u32, .ro, 0, [], .any, false, false⟩,
  ⟨0x6007, 0x00, 0x00, .u16, .ro, 0, [], .any, false, false⟩,
  ⟨0x6008, 0x00, 0x00, .u32, .rw, 0, [], .zeroOnly, false, false⟩,
  ⟨0x6009, 0x00, 0x00, .u32, .ro, 8388608, [], .any, false, false⟩,
  ⟨0x600A, 0x00, 0x00, .u32, .rw, 1000, [], .between 10 100000, false, false⟩,
  ⟨0x6100, 0x00, 0x00, .u64, .rwp, 0, [], .any, false, true⟩,
  ⟨0x6101, 0x00, 0x00, .u64, .rwp, 0, [], .hearthSize, false, true⟩,
  ⟨0x6102, 0x00, 0x00, .u8, .ro, 0, [], .any, false, false⟩,
  ⟨0x6103, 0x00, 0x00, .u32, .rw, 1000, [], .between 10 100000, false, false⟩,
  ⟨0x6104, 0x00, 0x00, .bool, .rw, 1, [], .any, false, false⟩,
  ⟨0x6105, 0x00, 0x00, .u32, .ro, 0, [], .any, false, false⟩,
  ⟨0x6107, 0x00, 0x00, .u16, .rw, 256, [], .between 16 1024, false, false⟩,
  ⟨0x6108, 0x00, 0x00, .u64, .ro, 0, [], .any, true, false⟩,
  ⟨0x6110, 0x00, 0x00, .u8, .rwa, 9, [], .between 9 9, false, false⟩,
  ⟨0x6110, 0x01, 0x01, .u8, .rwa, 0, [], .any, false, false⟩,
  ⟨0x6110, 0x02, 0x02, .u16, .rwa, 0, [], .between 0 4095, false, false⟩,
  ⟨0x6110, 0x03, 0x03, .u32, .rwa, 0, [], .any, false, false⟩,
  ⟨0x6110, 0x04, 0x04, .u16, .rwa, 0, [], .any, false, false⟩,
  ⟨0x6110, 0x05, 0x05, .u64, .rwa, 0, [], .any, false, false⟩,
  ⟨0x6110, 0x06, 0x06, .u64, .rwa, 0, [], .any, false, false⟩,
  ⟨0x6110, 0x07, 0x07, .u8, .ro, 0, [], .any, false, false⟩,
  ⟨0x6110, 0x08, 0x08, .u8, .ro, 0, [], .any, false, false⟩,
  ⟨0x6110, 0x09, 0x09, .octets 16, .ro, 0, List.replicate 16 0x00, .any, false, false⟩,
  ⟨0x7000, 0x00, 0x00, .bool, .rw, 0, [], .any, false, false⟩,
  ⟨0x7001, 0x00, 0x00, .u8, .rwa, 7, [], .between 7 7, false, false⟩,
  ⟨0x7001, 0x01, 0x01, .u8, .rwa, 0, [], .any, false, false⟩,
  ⟨0x7001, 0x02, 0x02, .u8, .rwa, 0, [], .between 0 63, false, false⟩,
  ⟨0x7001, 0x03, 0x03, .u8, .rwa, 0, [], .any, false, false⟩,
  ⟨0x7001, 0x04, 0x04, .u64, .rwa, 0, [], .mask 0xC000FFFFFFFFFF00, false, false⟩,
  ⟨0x7001, 0x05, 0x05, .u64, .rwa, 0, [], .mask 0x8000FFFFFFFFFFFF, false, false⟩,
  ⟨0x7001, 0x06, 0x06, .u64, .ro, 0, [], .any, false, false⟩,
  ⟨0x7001, 0x07, 0x07, .u8, .ro, 0, [], .any, false, false⟩,
  ⟨0x7002, 0x00, 0x00, .u64, .ro, 0, [], .any, false, false⟩
]

/-- Rows 0x7010 to 0x9010 of the object table. -/
def objRows7 : List ObjRow := [
  ⟨0x7010, 0x01, 0x40, .octetsVar 2048, .ro, 0, [], .any, false, false⟩,
  ⟨0x7040, 0x00, 0x00, .u32, .rw, 100, [], .between 1 1000000, false, false⟩,
  ⟨0x7041, 0x01, 0x40, .u32, .rw, 0, [], .any, false, false⟩,
  ⟨0x7042, 0x01, 0x40, .octets 32, .ro, 0, List.replicate 32 0x00, .any, false, false⟩,
  ⟨0x7043, 0x00, 0x00, .u8, .ro, 1, [], .any, false, false⟩,
  ⟨0x7044, 0x00, 0x00, .u32, .rw, 1000, [], .between 0 10000000, false, false⟩,
  ⟨0x7045, 0x01, 0x40, .u32, .rw, 0, [], .any, false, false⟩,
  ⟨0x7046, 0x01, 0x40, .octets 48, .ro, 0, List.replicate 48 0x00, .any, false, false⟩,
  ⟨0x7100, 0x00, 0x00, .u32, .ro, 0, [], .any, false, false⟩,
  ⟨0x7101, 0x00, 0x00, .u8, .rwa, 5, [], .between 5 5, false, false⟩,
  ⟨0x7101, 0x01, 0x01, .u8, .rwa, 0, [], .any, false, false⟩,
  ⟨0x7101, 0x02, 0x02, .u32, .rwa, 0, [], .any, false, false⟩,
  ⟨0x7101, 0x03, 0x03, .u8, .rwa, 15, [], .any, false, false⟩,
  ⟨0x7101, 0x04, 0x04, .octetsVar 960, .ro, 0, [], .any, false, false⟩,
  ⟨0x7101, 0x05, 0x05, .u8, .ro, 0, [], .any, false, false⟩,
  ⟨0x7102, 0x00, 0x00, .octetsVar 4096, .ro, 0, [], .any, false, false⟩,
  ⟨0x7103, 0x00, 0x00, .u32, .rw, 1000, [], .any, false, false⟩,
  ⟨0x8000, 0x00, 0x00, .u16, .con, 1, [], .any, false, false⟩,
  ⟨0x8001, 0x01, 0x30, .u8, .ro, 0, [], .any, false, false⟩,
  ⟨0x8002, 0x01, 0x30, .octets 640, .rwa, 0, [], .calSeed, true, true⟩,
  ⟨0x8003, 0x01, 0x30, .octets 64, .rwa, 0, [], .calTrim, true, true⟩,
  ⟨0x8004, 0x01, 0x30, .octets 672, .rwa, 0, List.replicate 672 0x00, .calTrained, false, true⟩,
  ⟨0x8010, 0x00, 0x00, .u8, .rwa, 3, [], .between 3 3, false, false⟩,
  ⟨0x8010, 0x01, 0x01, .u8, .rwa, 0, [], .any, false, false⟩,
  ⟨0x8010, 0x02, 0x02, .u8, .rwa, 0, [], .any, false, false⟩,
  ⟨0x8010, 0x03, 0x03, .u8, .ro, 0, [], .any, false, false⟩,
  ⟨0x9000, 0x00, 0x00, .u8, .ro, 0, [], .any, false, false⟩,
  ⟨0x9001, 0x00, 0x00, .u8, .ro, 0, [], .any, true, false⟩,
  ⟨0x9002, 0x01, 0x02, .u32, .ro, 0, [], .any, false, false⟩,
  ⟨0x9003, 0x00, 0x00, .u16, .ro, 0, [], .any, true, false⟩,
  ⟨0x9004, 0x00, 0x00, .u8, .rwa, 4, [], .between 4 4, false, false⟩,
  ⟨0x9004, 0x01, 0x01, .u8, .rwa, 0, [], .any, false, false⟩,
  ⟨0x9004, 0x02, 0x02, .u32, .rwa, 0, [], .any, false, false⟩,
  ⟨0x9004, 0x03, 0x03, .octetsVar 1024, .rwa, 0, [], .any, false, false⟩,
  ⟨0x9004, 0x04, 0x04, .u8, .ro, 0, [], .any, false, false⟩,
  ⟨0x9008, 0x00, 0x00, .octetsVar 2048, .ro, 0, [], .any, true, false⟩,
  ⟨0x9009, 0x00, 0x00, .octetsVar 2048, .ro, 0, [], .any, true, false⟩,
  ⟨0x900A, 0x01, 0x08, .octets 48, .rwa, 0, List.replicate 48 0x00, .any, false, true⟩,
  ⟨0x900B, 0x00, 0x00, .octets 3072, .rwa, 0, List.replicate 3072 0x00, .any, false, true⟩,
  ⟨0x900C, 0x00, 0x00, .u8, .ro, 0, [], .any, false, false⟩,
  ⟨0x900D, 0x00, 0x00, .u32, .ro, 0, [], .any, false, false⟩,
  ⟨0x9010, 0x00, 0x00, .u8, .rwa, 2, [], .between 2 2, false, false⟩,
  ⟨0x9010, 0x01, 0x01, .octets 32, .rwa, 0, List.replicate 32 0x00, .any, false, false⟩,
  ⟨0x9010, 0x02, 0x02, .octets 256, .ro, 0, List.replicate 256 0x00, .any, false, false⟩
]

/-- Rows 0x9018 to 0xB005 of the object table. -/
def objRows8 : List ObjRow := [
  ⟨0x9018, 0x00, 0x00, .u8, .rwa, 5, [], .between 5 5, false, false⟩,
  ⟨0x9018, 0x01, 0x01, .u8, .rwa, 0, [], .any, false, false⟩,
  ⟨0x9018, 0x02, 0x02, .u8, .rwa, 0, [], .any, false, false⟩,
  ⟨0x9018, 0x03, 0x03, .octets 32, .ro, 0, List.replicate 32 0x00, .any, false, false⟩,
  ⟨0x9018, 0x04, 0x04, .octets 96, .rwa, 0, List.replicate 96 0x00, .any, false, false⟩,
  ⟨0x9018, 0x05, 0x05, .u8, .ro, 0, [], .any, false, false⟩,
  ⟨0x9019, 0x00, 0x00, .u8, .rwa, 0, [], .any, false, true⟩,
  ⟨0x9020, 0x00, 0x00, .u8, .ro, 0, [], .any, false, false⟩,
  ⟨0xA000, 0x00, 0x00, .u8, .ro, 0, [], .any, false, false⟩,
  ⟨0xA001, 0x00, 0x00, .u8, .rwa, 3, [], .between 3 3, false, false⟩,
  ⟨0xA001, 0x01, 0x01, .u8, .rwa, 0, [], .any, false, false⟩,
  ⟨0xA001, 0x02, 0x02, .u8, .ro, 0, [], .any, false, false⟩,
  ⟨0xA001, 0x03, 0x03, .u16, .ro, 0, [], .any, false, false⟩,
  ⟨0xA002, 0x00, 0x00, .u8, .rw, 7, [], .mask 0x0F, false, false⟩,
  ⟨0xA003, 0x00, 0x00, .u32, .rw, 4294967295, [], .any, false, false⟩,
  ⟨0xA004, 0x00, 0x00, .u64, .rw, 0, [], .any, false, false⟩,
  ⟨0xA005, 0x00, 0x00, .u8, .ro, 0, [], .any, false, false⟩,
  ⟨0xA006, 0x00, 0x00, .u32, .ro, 0, [], .any, false, false⟩,
  ⟨0xA010, 0x00, 0x00, .u32, .rw, 2000, [], .between 200 1000000, false, false⟩,
  ⟨0xA011, 0x00, 0x00, .u32, .rw, 1000, [], .orVal 0 10 60000000, false, false⟩,
  ⟨0xA012, 0x00, 0x00, .u8, .rw, 16, [], .between 0 128, false, false⟩,
  ⟨0xA013, 0x00, 0x00, .octets 128, .ro, 0, List.replicate 128 0x02, .any, false, false⟩,
  ⟨0xA014, 0x00, 0x00, .u32, .rw, 0, [], .orVal 0 100 1000000, false, false⟩,
  ⟨0xA015, 0x00, 0x00, .u32, .rw, 0, [], .orVal 0 1 3600000, false, false⟩,
  ⟨0xA020, 0x00, 0x00, .u64, .ro, 0, [], .any, false, false⟩,
  ⟨0xA021, 0x00, 0x00, .u8, .ro, 0, [], .any, false, false⟩,
  ⟨0xA022, 0x00, 0x00, .u8, .ro, 3, [], .any, false, false⟩,
  ⟨0xA023, 0x00, 0x00, .bool, .rwp, 0, [], .any, false, true⟩,
  ⟨0xA024, 0x00, 0x00, .u32, .ro, 0, [], .any, false, false⟩,
  ⟨0xA025, 0x00, 0x00, .u64, .rw, 0, [], .any, false, false⟩,
  ⟨0xA030, 0x01, 0x40, .s16, .ro, 0, [], .any, false, false⟩,
  ⟨0xA031, 0x00, 0x00, .u8, .rw, 100, [], .tempWarn, false, false⟩,
  ⟨0xA032, 0x00, 0x00, .u8, .rw, 103, [], .tempThrottle, false, false⟩,
  ⟨0xA033, 0x00, 0x00, .u64, .ro, 0, [], .any, false, false⟩,
  ⟨0xA040, 0x00, 0x00, .u8, .ro, 0, [], .any, true, false⟩,
  ⟨0xA041, 0x00, 0x00, .octets 8, .ro, 0, List.replicate 8 0x00, .any, false, false⟩,
  ⟨0xB000, 0x00, 0x00, .u8, .ro, 0, [], .any, false, false⟩,
  ⟨0xB001, 0x01, 0x02, .u8, .ro, 0, [], .any, false, false⟩,
  ⟨0xB002, 0x00, 0x00, .bool, .rwp, 1, [], .any, false, true⟩,
  ⟨0xB003, 0x00, 0x00, .u32, .ro, 0, [], .any, false, false⟩,
  ⟨0xB004, 0x00, 0x00, .u8, .ro, 0, [], .any, false, false⟩,
  ⟨0xB005, 0x00, 0x00, .u32, .ro, 0, [], .any, false, false⟩
]

/-- Rows 0xB006 to 0xB210 of the object table. -/
def objRows9 : List ObjRow := [
  ⟨0xB006, 0x00, 0x00, .u64, .ro, 0, [], .any, false, false⟩,
  ⟨0xB007, 0x01, 0x02, .u8, .ro, 0, [], .any, false, false⟩,
  ⟨0xB010, 0x00, 0x00, .u8, .rwa, 3, [], .between 3 3, false, false⟩,
  ⟨0xB010, 0x01, 0x01, .u8, .rwa, 0, [], .any, false, false⟩,
  ⟨0xB010, 0x02, 0x02, .u8, .rwa, 0, [], .any, false, false⟩,
  ⟨0xB010, 0x03, 0x03, .u8, .ro, 0, [], .any, false, false⟩,
  ⟨0xB100, 0x00, 0x00, .u16, .ro, 1024, [], .any, false, false⟩,
  ⟨0xB101, 0x00, 0x00, .octets 128, .ro, 0, List.replicate 128 0x00, .any, false, false⟩,
  ⟨0xB102, 0x00, 0x00, .octets 128, .rwa, 0, List.replicate 128 0xFF, .any, false, false⟩,
  ⟨0xB103, 0x00, 0x00, .octets 128, .rwp, 0, leBytes 128 (0x15 + (2 ^ 80 - 1) * 2 ^ 64), .any, true, true⟩,
  ⟨0xB104, 0x00, 0x00, .octets 128, .rwa, 0, List.replicate 128 0x00, .any, false, false⟩,
  ⟨0xB105, 0x00, 0x00, .octets 1024, .ro, 0, List.replicate 1024 0x00, .any, false, false⟩,
  ⟨0xB106, 0x00, 0x00, .octets 128, .rwa, 0, List.replicate 128 0x00, .any, false, false⟩,
  ⟨0xB107, 0x00, 0x00, .u8, .rwa, 15, [], .mask 0x0F, false, false⟩,
  ⟨0xB110, 0x00, 0x00, .u8, .rwa, 5, [], .between 5 5, false, false⟩,
  ⟨0xB110, 0x01, 0x01, .u8, .rwa, 0, [], .any, false, false⟩,
  ⟨0xB110, 0x02, 0x02, .u16, .rwa, 0, [], .any, false, false⟩,
  ⟨0xB110, 0x03, 0x03, .u64, .ro, 0, [], .any, false, false⟩,
  ⟨0xB110, 0x04, 0x04, .u8, .ro, 0, [], .any, false, false⟩,
  ⟨0xB110, 0x05, 0x05, .u8, .ro, 0, [], .any, false, false⟩,
  ⟨0xB200, 0x00, 0x00, .u8, .ro, 64, [], .any, false, false⟩,
  ⟨0xB201, 0x01, 0x40, .u32, .rwa, 0, [], .mask 0x800FFFFF, false, false⟩,
  ⟨0xB202, 0x01, 0x40, .u16, .ro, 0, [], .any, false, false⟩,
  ⟨0xB210, 0x00, 0x00, .u8, .rwa, 5, [], .between 5 5, false, false⟩,
  ⟨0xB210, 0x01, 0x01, .u8, .rwa, 0, [], .any, false, false⟩,
  ⟨0xB210, 0x02, 0x02, .u8, .rwa, 0, [], .any, false, false⟩,
  ⟨0xB210, 0x03, 0x03, .u8, .rwa, 0, [], .any, false, false⟩,
  ⟨0xB210, 0x04, 0x04, .octets 64, .rwa, 0, List.replicate 64 0x00, .any, false, false⟩,
  ⟨0xB210, 0x05, 0x05, .u8, .ro, 0, [], .any, false, false⟩
]

/-- The whole object table, in index order. -/
def objRows : List ObjRow := objRows0 ++ objRows1 ++ objRows2 ++ objRows3 ++ objRows4 ++ objRows5 ++ objRows6 ++ objRows7 ++ objRows8 ++ objRows9

/-- The rows of one index. -/
def indexRows (idx : Nat) : List ObjRow := objRows.filter fun r => r.idx == idx

/-- The row that defines index:sub. -/
def objRow (idx sub : Nat) : Option ObjRow :=
  objRows.find? fun r => r.idx == idx && decide (r.lo ≤ sub) && decide (sub ≤ r.hi)

/-- The row of a key. -/
def keyRow (k : Nat) : Option ObjRow := objRow (k / 256) (k % 256)

/-- The index is defined (R483). -/
def indexDefined (idx : Nat) : Bool := objRows.any fun r => r.idx == idx

/-- Sub 0x00 of a record or range: the U8 count of its subs (R464), for an index whose table gives no sub 0. -/
def subCount (idx : Nat) : Option Nat :=
  match indexRows idx with
  | [] => none
  | rs => if rs.any fun r => r.lo == 0 then none else some (rs.foldl (fun m r => max m r.hi) 0)

/-- Default of a numeric object. -/
def objDefault (k : Nat) : Nat := ((keyRow k).map (·.dflt)).getD 0

/-- Default of a byte-string object. -/
def objDefaultBytes (k : Nat) : Bytes := ((keyRow k).map (·.dbytes)).getD []

/-- Bytes of a type, the maximum for a variable one. -/
def ObjTy.size : ObjTy → Nat
  | .bool => 1 | .u8 => 1 | .u16 => 2 | .u32 => 4 | .u64 => 8 | .s16 => 2
  | .octets n => n | .octetsVar n => n | .vstring n => n

/-- The type holds a number. -/
def ObjTy.isNum : ObjTy → Bool
  | .octets _ | .octetsVar _ | .vstring _ => false
  | _ => true

/-- Type code (Table 14.3). -/
def ObjTy.code : ObjTy → Nat
  | .bool => 0x01 | .u8 => 0x02 | .u16 => 0x03 | .u32 => 0x04 | .u64 => 0x05 | .s16 => 0x06
  | .octets _ | .octetsVar _ => 0x0A
  | .vstring _ => 0x0B

/-- Access code (Table 14.4). -/
def Access.code : Access → Nat
  | .ro => 0x01 | .wo => 0x02 | .rw => 0x03 | .rwp => 0x04 | .con => 0x05 | .rwa => 0x06

end Sys2Proof
end

