-- ==== Sys2Proof/Machine/ObsTypes.lean ====
section
/-! DEFINITION. State of counters, samplers, marks and the error log (chapter 16). Plain data. -/

namespace Sys2Proof.Machine

open Sys2Proof

/-- A counter (R514 to R516): configuration word, OVF and COUNT. -/
structure Ctr where
  cfg : Nat := 0
  ovf : Bool := false
  count : Nat := 0
deriving DecidableEq, Repr

/-- An error-log record (Tables 16.12 and 16.13). -/
structure LogRec where
  type : Nat := 0
  sev : Nat := 0
  die : Nat := 0
  /-- Microseconds. -/
  time : Nat := 0
  recno : Nat := 0
  count : Nat := 1
  w2 : Nat := 0
  w3 : Nat := 0
  w4 : Nat := 0
  w5 : Nat := 0
  w6 : Nat := 0
  w7 : Nat := 0
deriving DecidableEq, Repr

/-- A sample record (Table 16.11). -/
structure Sample where
  n : Nat := 0
  lastDepth : Nat := 0
  sumDepth : Nat := 0
  sumDelay : Nat := 0
  nd : Nat := 0
  maxDelay : Nat := 0
  /-- The next item to enter is tagged. -/
  arm : Bool := false
  /-- Tagged items (by their names in the queue) and when they entered, ns. -/
  tagged : List (Nat × Nat) := []
deriving DecidableEq, Repr

/-- Marks of one queue in one phase (R528). -/
structure Mark where
  maxDepth : Nat := 0
  maxDelay : Nat := 0
  /-- TIMEBASE in microseconds at the maximum depth. -/
  time : Nat := 0
deriving DecidableEq, Repr

/-- Marks of one queue. -/
structure Hwm where
  start : Mark := {}
  recovery : Mark := {}
  test : Mark := {}
  /-- Tagged items and when they entered, ns; one a microsecond is tagged. -/
  tagged : List (Nat × Nat) := []
  lastTag : Nat := 0
deriving DecidableEq, Repr

/-- Counters, samplers, marks and logs. -/
structure Obs where
  /-- Counters by die * 128 + counter. -/
  ctrs : Tab Ctr := {}
  /-- Counters are stopped (R518). -/
  frozen : Bool := false
  /-- Issue slots of a chunk that are issued and in no kind yet, by waybill key * 2^20 + chunk (R524). -/
  slots : Tab Nat := {}
  /-- A write of CTR_FREEZE that acts at this time, ns. -/
  freezeAt : Option (Nat × Bool) := none
  /-- Value words by die, as of the last capture. -/
  snaps : Tab (List Nat) := {}
  /-- Capture time of a SNAPSHOT in progress and the dies that have not captured. -/
  snapDue : Option (Nat × Nat) := none
  samples : Tab Sample := {}
  marks : Tab Hwm := {}
  /-- Error log, newest first, at most 65,536 records. -/
  log : List LogRec := []
  logTail : Nat := 0
  /-- The 64 newest ERROR and CRITICAL records, newest first (AON SRAM). -/
  preserved : List LogRec := []
  /-- SERVING has been reached since reset release, or the 60 s of START are over (Table 16.9). -/
  startOver : Bool := false
  /-- A recovery event has begun, and RECOVERY_HOLD after the last one has not run out. -/
  recoveryHold : Bool := false
deriving DecidableEq, Repr

end Sys2Proof.Machine
end

