-- ==== Sys2Proof/Machine/SecTypes.lean ====
section
/-! DEFINITION. State of keys, secure boot, debug and teardown (chapter 12). Plain data. -/

namespace Sys2Proof.Machine

open Sys2Proof

/-- A key record (Table 12.1): KSTATE, the epoch of its wrapping, ciphertext and tag. -/
structure KeyRec where
  /-- 0 none or destroyed, 1 valid, 2 PENDING. -/
  kstate : Nat := 0
  epoch : Nat := 0
  ct : Bytes := []
  tag : BitVec 128 := 0
deriving DecidableEq, Repr

/-- A firmware slot of the flash (R407). -/
structure FwSlot where
  /-- The checks of step 4 of Table 12.4 other than the SVN check pass. -/
  valid : Bool := false
  version : Nat := 0
  svn : Nat := 0
  hash : Bytes := []
  /-- Chunks of 1,024 bytes written since the factory image, by offset / 1,024. -/
  chunks : Tab Bytes := {}
deriving DecidableEq, Repr

/-- Keys, boot, debug. -/
structure Sec where
  /-- SECURITY_STATE: 0 NORMAL, 1 DEBUG_UNLOCKED, 2 TAMPER_HALT, 3 TEST_HALT, 4 BOOT_FAIL. -/
  st : Nat := 0
  /-- A health test failed and the DRBG is stopped. -/
  entropyBad : Bool := false
  /-- Bytes drawn from the DRBG, the index of its next output byte. -/
  drawn : Nat := 0
  /-- Generate requests since the last seeding. -/
  drbgReqs : Nat := 0
  reseeds : Nat := 0
  /-- DRBG state zeroed by a key purge (R413). -/
  drbgZeroed : Bool := false
  /-- KWRAP (32 bytes) and KTABLE (64 bytes), from the first reset release after VDD_AON rises to power-off or purge. -/
  kwrap : Option Bytes := none
  ktable : Option Bytes := none
  /-- KEY_EPOCH. -/
  epoch : Nat := 0
  /-- Key caches by Cellar die: (GID, key), most recently used first, at most 512. -/
  caches : Tab (List (Nat × Bytes)) := {}
  /-- Key fetches in flight: die * 2^20 + GID, and whether a purge of the GID fell on them. -/
  fetches : List Nat := []
  /-- Firmware slots A and B. -/
  slotA : FwSlot := { valid := true, version := 1 }
  slotB : FwSlot := {}
  /-- FW_ACTIVE_SLOT, the slot the running image came from. -/
  slot : Nat := 0
  bootFlag : Nat := 0
  /-- Firmware runs. -/
  booted : Bool := false
  /-- Slot that FW_CMD VERIFY last passed. -/
  verified : Option Nat := none
  /-- ACTIVATE runs: the old slot, until the image is confirmed or returned. -/
  confirm : Option Nat := none
  /-- SVNs blown by COMMIT_SVN: FW_SVN_MIN. -/
  svnBlown : Nat := 0
  /-- Debug: nonce in force, failed UNLOCKs, level unlocked. -/
  nonce : Option Bytes := none
  failedUnlocks : Nat := 0
  debugLevel : Nat := 0
  /-- Definitions are refused until power-on (R411). -/
  noDefine : Bool := false
  /-- Identity key zeroed. -/
  noIdentity : Bool := false
  tamperCause : Nat := 0
  /-- Guests whose teardown runs on this member, and when each began, us. -/
  teardown : List (Nat × Nat) := []
deriving DecidableEq, Repr

end Sys2Proof.Machine
end

