-- ==== Sys2Proof/Machine/PoolTypes.lean ====
section
/-! DEFINITION. State of guests, pool sets, translation and the hearth (chapters 01, 06, 07), and of the fabric requests
that hold a tracker (R73 to R75). Plain data. -/

namespace Sys2Proof.Machine

open Sys2Proof

/-- A window directory entry (Table 1.4). -/
structure Window where
  base : Nat := 0
  size : Nat := 0
  home : Nat := 0
  valid : Bool := false
  hearth : Bool := false
  lrcAlloc : Bool := true
  atomic : Bool := false
  write : Bool := false
  read : Bool := false
deriving DecidableEq, Repr

/-- A guest's record on this device (Table 1.1, R18, R48, R395). -/
structure Guest where
  resident : Bool := false
  pinned : Bool := false
  /-- 0 not fatal, 1 fatal under R386, 2 fatal under R396. -/
  fatal : Nat := 0
  tearing : Bool := false
  pkey : Nat := 0
  key : KeyRec := {}
  /-- Window directory by index, 0 to 239. -/
  dir : Tab Window := {}
  /-- Use stamp for the least recently used guest (R11). -/
  used : Nat := 0
  /-- Generation number of its window table (R199). -/
  gen : Nat := 0
deriving DecidableEq, Repr

/-- A window-table leaf (Table 6.2), at a level and a first PVA. -/
structure Leaf where
  gid : Nat := 0
  level : Nat := 3
  pva : Nat := 0
  nr : Bool := false
  zm : Bool := false
  run : Nat := 0
  wp : Bool := false
  /-- Pool address of the page. -/
  pa : Nat := 0
  sw : Nat := 0
deriving DecidableEq, Repr

/-- A table of a guest's window table: level, the PVA its first entry covers, its address in the heap (R190, R193). -/
structure WTable where
  gid : Nat := 0
  level : Nat := 0
  pva : Nat := 0
  at_ : Nat := 0
deriving DecidableEq, Repr

/-- An entry of a TLB or of the translation cache: a page or a run (R197, R198). -/
structure TlbEnt where
  gid : Nat := 0
  level : Nat := 3
  /-- First PVA and bytes covered. -/
  base : Nat := 0
  span : Nat := 0
  nr : Bool := false
  zm : Bool := false
  wp : Bool := false
  /-- Pool address of `base`; of a pointer, the table it points at. -/
  pa : Int := 0
  /-- It is a pointer of this level, and no leaf (R197). -/
  ptr : Bool := false
deriving DecidableEq, Repr

/-- A hold on a non-resident page (R206, R207): the page's level and first PVA, what the held access does, when the hold began, ns, and
its fault-table entry, none while the table is full. -/
structure Hold where
  level : Nat := 3
  page : Nat := 0
  write : Bool := false
  atomic : Bool := false
  since : Nat := 0
  fault : Option Nat := none
deriving DecidableEq, Repr

/-- Where a request that holds a tracker waits. -/
inductive Stage where
  /-- For its guest to become resident (R10, R13). -/
  | swap
  /-- A doorbell, for a place in the pending-doorbell queue (R67). -/
  | bell
  /-- For a walk begun at this GEN (R194, R201). -/
  | walk (gen : Nat)
  /-- On a non-resident page (R206, R207). -/
  | hold (h : Hold)
  /-- For the zero fill of a page at this pool address (R33). -/
  | fill (pa : Nat)
  /-- For DRAM reads or a channel that does not serve (R338, R351). -/
  | dram
  /-- For a place in a WCB, a parity log or a fill of its page (R331, R370). -/
  | wcb
  /-- For the snoops of an uncached hearth access (R226, R227). -/
  | hearth
  /-- In a hearth line's queue, or its transaction runs (R225). -/
  | line
  /-- In the dictionary queue or with firmware (R74). -/
  | mgmt
  /-- Its answer waits to start on a link (R73, R311). -/
  | answer
deriving DecidableEq, Repr

/-- A fabric request that holds a tracker. -/
structure Req where
  link : Nat := 0
  p : Packet := {}
  gid : Nat := 0
  stage : Stage := .walk 0
  /-- Arrival, ns. -/
  since : Nat := 0
  /-- Pool 0 shared, 2 the TC2 reserve, 3 the TC3 reserve (R74). -/
  pool : Nat := 0
  /-- Pool-address ranges it translated to, with the commit count at that time (R202). -/
  pas : List (Nat × Nat) := []
  epoch : Nat := 0
  /-- Lines read so far, by line address: bytes and poison. -/
  got : Tab (Bytes × Bool) := {}
  /-- Directory-change count when it was accepted (R22), and guest-map count when its header was looked up (R306). -/
  dirEpoch : Nat := 0
  gmEpoch : Nat := 0
  /-- The guest's window directory when it was accepted (R22). -/
  dir : Tab Window := {}
  /-- The window it was checked against, once checks 2 to 5 of R20 have passed. -/
  win : Option Window := none
  /-- What a SETMSG that waits for firmware says. -/
  msg : Option SetMsg := none
deriving DecidableEq, Repr

/-- A packet accepted at a port that waits for a tracker (R75). -/
structure Claim where
  link : Nat := 0
  p : Packet := {}
  gid : Nat := 0
  gmEpoch : Nat := 0
  msg : Option SetMsg := none
  /-- The packet's blocks stay in the receive pool for it; false where a forwarded copy of a broadcast keeps them. -/
  pooled : Bool := true
deriving DecidableEq, Repr

/-- A swap in progress (R11, R12): the guest it brings in; whether a slot is reserved; since when it looks for a victim. -/
structure Swap where
  gid : Nat := 0
  since : Nat := 0
  /-- A slot is free for it. -/
  slot : Bool := false
  /-- Waybills, and streams' fetches, that wait for it. -/
  wbs : List Nat := []
  fetches : List Nat := []
deriving DecidableEq, Repr

/-- A guest command that runs (R22, R47). -/
structure GuestCmd where
  /-- 0 none, 1 a change of a guest's directory or key, 2 a DEFINE, 3 a PIN that waits for a swap. -/
  kind : Nat := 0
  gid : Nat := 0
  /-- Requests accepted at or before this directory-change count must end. -/
  dirEpoch : Nat := 0
deriving DecidableEq, Repr

/-- A zero fill under way (R32): guest, page PVA, level, pool address and its size. -/
structure ZFill where
  gid : Nat := 0
  pva : Nat := 0
  level : Nat := 3
  pa : Nat := 0
  size : Nat := 65536
  /-- Commit count when it began (R202). -/
  epoch : Nat := 0
deriving DecidableEq, Repr

/-- A member of the set: its EPID and the serial number of its certificate. -/
structure Member where
  epid : Nat := 0
  serial : Bytes := []
deriving DecidableEq, Repr

/-- Guests and the pool set. -/
structure Pool where
  guests : Tab Guest := {}
  /-- Window directories of guests that a teardown has ended (R401). -/
  oldDirs : Tab (Tab Window) := {}
  stamp : Nat := 0
  swaps : List Swap := []
  dirEpoch : Nat := 0
  cmd : GuestCmd := {}
  reqs : Tab Req := {}
  claims : List Claim := []
  /-- Rotating pointer over the Gatehouses (R75). -/
  trkPtr : Nat := 0
  /-- Trackers of the TC2 and of the TC3 reserve as the last take or free of a tracker left them (R87). -/
  trk2 : Nat := 0
  trk3 : Nat := 0
  /-- SET_STATE: 0 ALONE, 1 FORMING, 2 JOINED, 3 SERVING, 4 CONFLICT, 5 REFUSED. -/
  setState : Nat := 0
  devid : Nat := 0xFF
  /-- Members by DEVID, this device included. -/
  members : Tab Member := {}
  managerEpid : Nat := 0
  /-- Nonce of this manager's latest ANNOUNCE, or of the latest one a worker has acted on. -/
  nonce : Bytes := []
  /-- SET_STATE of the manager a worker follows, as its ANNOUNCE gave it. -/
  heard : Nat := 0
  /-- EPIDs whose SETMSGs are dropped (R29). -/
  intruders : List Nat := []
  /-- Zero fills under way. -/
  fills : List ZFill := []
  /-- LRC lines by line address: GID and plaintext (R394). -/
  lrc : Tab (Nat × Bytes) := {}
  /-- LRC fills in flight: line address, GID, plaintext, and whether an invalidation fell on it (R40). -/
  lrcFills : List (Nat × Nat × Bytes × Bool) := []
deriving DecidableEq, Repr

/-- An update record (Table 6.5). -/
structure UpdRec where
  op : Nat := 0
  level : Nat := 0
  forceZm : Bool := false
  rsvd : Bool := false
  pva : Nat := 0
  entry : Nat := 0
  hostEpid : Nat := 0
  hostAddr : Nat := 0
deriving DecidableEq, Repr

/-- A commit in progress (R201, R202, R210, R211): batch, phase and what it waits for. -/
structure Commit where
  gid : Nat := 0
  recs : List UpdRec := []
  /-- 1 before the commit point, 2 MIGRATE_IN transfers, 3 MIGRATE_OUT drain, 4 MIGRATE_OUT transfers, 5 after the commit point. -/
  phase : Nat := 1
  /-- Next host offset to request. -/
  next : Nat := 0
  /-- Host transfers answered. -/
  done : Nat := 0
  /-- Pool-address ranges that the old leaves of its records' spans mapped, and those of them that it unmaps or remaps. -/
  spans : List (Nat × Nat) := []
  drops : List (Nat × Nat) := []
  /-- Tables that went at the commit point, and their heap blocks, to give back. -/
  gone : List WTable := []
  freed : Nat := 0
  /-- Commit count: requests translated at or before it are in flight under the old entries. -/
  epoch : Nat := 0
deriving DecidableEq, Repr

/-- A fault-table entry (R206). -/
structure FaultEnt where
  gid : Nat := 0
  pva : Nat := 0
  level : Nat := 3
  wr : Bool := false
  at_ : Bool := false
  porter : Bool := false
  /-- Its FAULT record is not written yet because a MIGRATE_OUT runs (R211). -/
  quiet : Bool := false
  /-- A hold of it has expired. -/
  expired : Bool := false
deriving DecidableEq, Repr

/-- A fault-queue record that waits to be written (Table 6.6). -/
structure FqRec where
  ty : Nat := 1
  wr : Bool := false
  at_ : Bool := false
  porter : Bool := false
  gid : Nat := 0
  fault : Nat := 0
  level : Nat := 0
  pva : Nat := 0
  gen : Nat := 0
deriving DecidableEq, Repr

/-- Translation. -/
structure Trans where
  leaves : List Leaf := []
  tables : List WTable := []
  heapFree : Nat := 8388608
  cache : List TlbEnt := []
  /-- L1 TLBs by cluster, most recently used first. -/
  tlbs : Tab (List TlbEnt) := {}
  commit : Option Commit := none
  epoch : Nat := 0
  faults : Tab FaultEnt := {}
  nextFault : Nat := 1
  fq : List FqRec := []
  /-- Records written to the fault queue. -/
  fqTail : Nat := 0
deriving DecidableEq, Repr

/-- A caching endpoint (R217). -/
structure Ce where
  epid : Nat := 0
  pkey : Nat := 0
  fenced : Bool := false
  /-- The walk of R230 runs. -/
  walking : Bool := false
deriving DecidableEq, Repr

/-- What a busy entry does when the awaited answers have come. -/
inductive Grant where
  /-- Read grant to a request, by tracker (BS). -/
  | read (trk : Nat)
  /-- Ownership grant to a request, by tracker (BX). -/
  | own (trk : Nat) (upg : Bool)
  /-- Uncached read or write, or an atomic, of a request (BR). -/
  | uncached (trk : Nat)
  /-- Uncached read, write or atomic of a waybill's granule or element (BR). -/
  | porter (wb g : Nat) (write atomic : Bool)
  /-- FLUSH (BR). -/
  | flush
  /-- REMOVE_CE of an endpoint (BR). -/
  | leave (ceid : Nat)
  /-- Back-invalidation for the line that waits for the way (BR). -/
  | victim (line : Nat)
  /-- A walk that only tidies (fencing). -/
  | none
deriving DecidableEq, Repr

/-- A directory entry by line index (Table 7.4), with the snoops it awaits. -/
structure Dir where
  /-- DSTATE: 1 DS, 2 DX, 4 BS, 5 BX, 6 BR, 7 BW. -/
  st : Nat := 1
  coarse : Bool := false
  ptrs : List Nat := []
  cvec : Nat := 0
  rpl : Nat := 0
  /-- Way of its set. -/
  way : Nat := 0
  grant : Grant := .none
  /-- Snoops awaited: CEID, opcode, TAG, and when sent, ns. -/
  snoops : List (Nat × Nat × Nat × Nat) := []
  /-- Dirty data that came back: bytes, and whether it is lost. -/
  dirty : Option (Bytes × Bool) := none
  /-- That data came with POI. -/
  poi : Bool := false
  /-- The recall of an uncached write is over, and the entry is busy until the write is acknowledged (R226). -/
  open_ : Bool := false
  /-- Owner when the transaction began; 4,096 for none. -/
  owner : Nat := 4096
  /-- The owner answered SNP_WBP: its WB is awaited (BW). -/
  wbp : Bool := false
  /-- Its WB or EVC has come, before its answer to the snoop. -/
  wbGot : Bool := false
deriving DecidableEq, Repr

/-- The hearth. -/
structure Hearth where
  ces : Tab Ce := {}
  dir : Tab Dir := {}
  /-- Requests that wait for a line: (line index, tracker), oldest first (R225). -/
  queue : List (Nat × Nat) := []
  /-- Reverse map by 64 KiB of the hearth: GID and PVA[47:16] (Table 7.1). -/
  rmap : Tab (Nat × Nat) := {}
  /-- Snoops whose limit expired, to drop their late answers: (CEID, TAG). -/
  late : List (Nat × Nat) := []
  /-- Running FLUSH or REMOVE_CE: first and end line index, and the CEID of a REMOVE_CE. -/
  flush : Option (Nat × Nat × Option Nat) := none
  /-- Coarse entries whose copy at the endpoint of a running REMOVE_CE has been recalled (R239). -/
  swept : List Nat := []
  /-- Ways that a back-invalidation freed, kept for the line that waits: (line index, way) (R232). -/
  kept : List (Nat × Nat) := []
deriving DecidableEq, Repr

end Sys2Proof.Machine
end

