-- ==== Sys2Proof/Machine/PowerTypes.lean ====
section
/-! DEFINITION. State of power, clocks, reset, die temperature and contacts (chapters 15 and 17). Plain data. -/

namespace Sys2Proof.Machine

open Sys2Proof

/-- Power, clocks, reset and contacts. -/
structure Power where
  /-- VDD_AON is up. -/
  aon : Bool := true
  /-- RESET_N is high. -/
  resetN : Bool := false
  /-- PWR_GOOD is high. -/
  pwrGood : Bool := false
  /-- The device is held in reset (R508). -/
  inReset : Bool := true
  /-- A power-on since the last reset release, whose cause it is (R509). -/
  powerOn : Bool := true
  /-- No package keys have been drawn since VDD_AON rose (R393). -/
  keysDue : Bool := true
  /-- Straps sampled at the last reset release (R540). -/
  roleMgr : Bool := false
  boot : Nat := 0
  nodeId : Nat := 0xFF
  /-- RESET_CAUSE, and RESET_HISTORY newest first. -/
  resetCause : Nat := 0x01
  history : List Nat := []
  /-- Cause recorded at reset entry, taken at release. -/
  coldDelay : Bool := false
  /-- TIMEBASE, ns. -/
  timebase : Nat := 0
  /-- POWER_STATE: 0 RUN, 1 ENTERING, 2 NIGHT, 3 EXITING. -/
  st : Nat := 0
  /-- Step of Table 15.4 that Night entry is in. -/
  nightStep : Nat := 0
  wakeCause : Nat := 0
  nights : Nat := 0
  /-- Links that take no part in link-activity wake during this Night, bit n for Ln. -/
  deafLinks : Nat := 0
  /-- Links in STANDBY because of Night entry. -/
  nightLinks : Nat := 0
  /-- Channels that Night entry put to sleep, bit n for CHn. -/
  nightChans : Nat := 0
  /-- WAKE_N is low. -/
  wakeN : Bool := false
  /-- REFCLK_SEL and REFCLK_STATUS. -/
  refSel : Nat := 0
  refGood : Nat := 0x3
  refSwitches : Nat := 0
  /-- Both reference clocks failed and work is stopped (R501). -/
  clocksLost : Bool := false
  /-- DIE_PRESENT. -/
  present : Nat := 2 ^ 64 - 1
  /-- DIE_TEMP by die, quarter degrees. -/
  temps : Tab Int := {}
  /-- Dies that warned and have not fallen 3 degrees below DIE_TEMP_WARN, that throttle, and that pause (R507). -/
  warned : Nat := 0
  throttled : Nat := 0
  paused : Nat := 0
  /-- THERMTRIP_N is asserted (R510). -/
  thermtrip : Bool := false
  /-- The supply monitors are armed (R544). -/
  supplyArmed : Bool := false
  /-- STAT3 as last toggled (R539). -/
  stat3 : Bool := false
  /-- Values that ALERT_N and STAT[3:0] hold during a management gap, in Night and from it: (ALERT_N asserted, STAT bits). -/
  held : Option (Bool × Nat) := none
  /-- Test access port in Test-Logic-Reset (R509). -/
  tapReset : Bool := true
deriving DecidableEq, Repr

end Sys2Proof.Machine
end

