-- ==== Sys2Proof/Machine/WorkTypes.lean ====
section
/-! DEFINITION. State of streams, waybills, tallies, Porter clusters, reductions and layouts (chapters 02 to 05). Plain
data. -/

namespace Sys2Proof.Machine

open Sys2Proof

/-- A stream (R61 to R70). -/
structure Stream where
  gid : Nat := 0
  ring : Nat := 0
  k : Nat := 0
  head : Nat := 0
  tail : Nat := 0
  /-- SEQ of the next waybill to be accepted. -/
  seq : Nat := 0
  notify : Nat := 0
  /-- WAIT_TIMEOUT, microseconds. -/
  limit : Nat := 0
  resident : Bool := false
  used : Nat := 0
  /-- Sequencer it is bound to, by the number of its cluster. -/
  seqr : Nat := 0
  /-- In ERROR: SEQ and status of the failed fetch. -/
  err : Option (Nat × Nat) := none
  /-- Fetch at HEAD that waits on a non-resident page. -/
  held : Option Hold := none
  /-- Slots fetched ahead: HEAD index and bytes. -/
  ahead : List (Nat × List Byte) := []
deriving DecidableEq, Repr

/-- A range of output bytes computed for a granule or element: where it goes, and its bytes. -/
structure OutRange where
  /-- 0 local memory, 1 staging of a reduction context. Remote parts are sent at once and have no range. -/
  kind : Nat := 0
  /-- Pool address of the first byte; in staging the byte offset. -/
  pa : Nat := 0
  bytes : Bytes := []
  /-- It poisons its line where it writes the whole of it (R122, step 2). -/
  poison : Bool := false
deriving DecidableEq, Repr

/-- A granule's or element's write that is computed and not yet committed (R81, step 1). -/
structure Held where
  outs : List OutRange := []
  /-- ARITH flags of its elements (R115). -/
  flags : Nat := 0
  poison : Bool := false
  /-- Some of its input was reconstructed for a group without spare (DEGRADED). -/
  degraded : Bool := false
  /-- Cause it fails with: it is left unchanged, or takes the pattern (GATHER). -/
  fail : Nat := 0
  /-- First byte that failed (Table 4.7). -/
  failPva : Nat := 0
  /-- Remote writes of it that have not been answered. -/
  waiting : Nat := 0
  /-- Commit count when it was translated (R202). -/
  epoch : Nat := 0
deriving DecidableEq, Repr

/-- A chunk in flight or done (R81, R124, R171). -/
structure Chunk where
  cluster : Nat := 0
  /-- First granule or element, and how many. -/
  first : Nat := 0
  count : Nat := 0
  /-- Commit map. -/
  bits : Nat := 0
  held : Tab Held := {}
  /-- Writes of clusters that were lost, whose test-and-sets are in flight: cluster, granule, write (R82, R146). -/
  old : List (Nat × Nat × Held) := []
  /-- 1 dispatched, 2 its cluster was lost and it waits to be dispatched again, 3 ended. -/
  st : Nat := 1
  /-- Its cluster is being cleared for the guest (R399). -/
  clearing : Bool := false
  redispatched : Nat := 0
deriving DecidableEq, Repr

/-- What a cluster's scratchpad keeps of a matrix waybill (R169, R170): the vector batch, the router weights, the weight lines that
have come for the granule it makes, by line address, and for MOEFFN the intermediate. -/
structure Scratch where
  x : Bytes := []
  rsc : Bytes := []
  /-- Bytes, poison, reconstructed for a group without spare. -/
  lines : Tab (Bytes × Bool × Bool) := {}
  h : Option Bytes := none
deriving DecidableEq, Repr

/-- A waybill accepted and not yet completed. -/
structure Waybill where
  stream : Nat := 0
  seq : Nat := 0
  gid : Nat := 0
  /-- W0 to W15. -/
  w : List Nat := []
  /-- Pool address of its completion record (R51). -/
  cpl : Nat := 0
  /-- Ring index of its slot (R82). -/
  slot : Nat := 0
  /-- Its words went with its sequencer's die and are to be fetched from its slot again (R82). -/
  refetch : Bool := false
  /-- It has been checked under R55: at its acceptance, which for a PUBLISH that waits on FENCE or WAIT is its start (R65). -/
  checked : Bool := false
  /-- The guest's window directory when it was accepted (R22). -/
  dir : Tab Window := {}
  /-- Its tally is not incremented (R60: check 4 of R55 failed). -/
  noTally : Bool := false
  /-- 0 waits to start, 1 runs, 2 ended and ready for its record. -/
  st : Nat := 0
  /-- It has become ready on its tally (R78). -/
  ready : Bool := false
  /-- It is on a wait list, since when, ns. -/
  waits : Option Nat := none
  /-- Status decided before any data moved (R55). -/
  early : Option Nat := none
  /-- It ended without having started or opened its context, for want of time: every granule is marked (R56, R57). -/
  whole : Bool := false
  cancelled : Bool := false
  chunks : Tab Chunk := {}
  /-- Granules or elements in all. -/
  total : Nat := 0
  /-- Granules per chunk and rows per chunk (R171); 0 rows where chunks are of 4,096 granules. -/
  perChunk : Nat := 4096
  rows : Nat := 0
  /-- Failed, poisoned and not applied granules or elements, with their cause. -/
  marks : Tab Nat := {}
  committed : Nat := 0
  flags : Nat := 0
  degraded : Bool := false
  redispatch : Nat := 0
  /-- MASK of TALLY_READ and CANCEL. -/
  mask : Nat := 0
  /-- Bytes that came from other devices, by PVA * 2,048 + length of the access: bytes, poison, and the cause where it failed. -/
  remote : Tab (Bytes × Bool × Nat) := {}
  /-- Granules held on non-resident pages. -/
  holds : Tab Hold := {}
  /-- Elements of group 0x1 that have failed and whose records are to be written: cause and first byte that failed (R154, R156). -/
  failed : Tab (Nat × Nat) := {}
  /-- PUBLISH: lines it must see drained, as channel * 2^40 + line; 1 draining, 2 sweeping. -/
  drains : List Nat := []
  pubStep : Nat := 0
  /-- RED_CONTRIB: waits for its turn; staged prefetch taken, KiB. -/
  turn : Bool := false
  staged : Nat := 0
  /-- Bytes read into staging ahead of its turn, and which came from poisoned lines (R148). -/
  pre : Bytes := []
  prePz : List Bool := []
  /-- RED_OPEN waits for staging, since when, ns. -/
  openWait : Option Nat := none
  /-- RED_CONTRIB: it passed the checks of R145 and counts when it completes. -/
  counts : Bool := false
  /-- RED_CLOSE: the context it closes is over. -/
  closed : Bool := false
  /-- MATRIX_SPLIT_DEFAULT and MATRIX_READ_SHARE when it was accepted (R188). -/
  splitDef : Nat := 16
  readShare : Nat := 80
  /-- Clusters that a matrix waybill runs on (R169). -/
  nparts : Nat := 0
  /-- Clusters it runs on, and what their scratchpads keep of it (R169). -/
  parts : List Nat := []
  scratch : Tab Scratch := {}
  /-- MOEFFN: slices of phase 1 done, exchange done, and h as the slices done make it. -/
  slices : Nat := 0
  exchanged : Bool := false
  h : Bytes := []
  /-- Matrix inputs that every granule depends on (Table 5.6): cause of a fault, poison, and flags of h (R168). -/
  hFail : Nat := 0
  hPoison : Bool := false
  hFlags : Nat := 0
  /-- Commit count when CPL_PVA was translated (R202), and directory-change count when it was checked (R22). -/
  epoch : Nat := 0
  dirEpoch : Nat := 0
deriving DecidableEq, Repr

/-- A tally (Table 2.8). -/
structure Tally where
  count : Nat := 0
  target : Nat := 0
  notifyOn : Bool := false
  mirror : Bool := false
  gid : Nat := 0
  mirrorPva : Nat := 0
  notify : Nat := 0
  /-- A mirror write is due (R80). -/
  due : Bool := false
deriving DecidableEq, Repr

/-- A Porter cluster (R125, R399, R487). -/
structure Cluster where
  /-- 0 Open, 1 Shuttered, 2 Dark, 3 waking from Shuttered, 4 waking from Dark. -/
  pw : Nat := 2
  lost : Bool := false
  lastGid : Option Nat := none
  /-- A chunk of the guest holds it for clearing. -/
  clearing : Bool := false
  /-- Time its last chunk ended or its state changed, ns. -/
  idle : Nat := 0
deriving DecidableEq, Repr

/-- A reduction context (R143 to R150). -/
structure RedCtx where
  gid : Nat := 0
  dst : Nat := 0
  len : Nat := 0
  afmt : Nat := 0
  rop : Nat := 0
  ordered : Bool := false
  staged : Bool := false
  init : Bool := false
  ncontrib : Nat := 0
  doneTally : Nat := 0xFFFF
  /-- Contributor indices accepted, and contributions counted. -/
  seen : List Nat := []
  counted : Nat := 0
  /-- Contributor indices completed (R148). -/
  doneIdx : List Nat := []
  /-- Staging copy, and its lines whose POISON bit is set, as PVA / 64. -/
  stage : Bytes := []
  bad : List Nat := []
  /-- Granules of the staging copy that have been written back (R149, step 1). -/
  wrote : Nat := 0
  /-- Its write-back is held on a non-resident page. -/
  hold : Option Hold := none
  /-- The RED_OPEN that opened it, by key. -/
  opener : Nat := 0
  /-- KiB of staging and of prefetches it holds. -/
  kib : Nat := 0
  prefetched : Nat := 0
  /-- The start value is in place. -/
  open_ : Bool := false
  /-- RED_CLOSE that was accepted for the context, as its waybill key (R150). -/
  closing : Option Nat := none
deriving DecidableEq, Repr

/-- A registered layout (Table 5.10): owner and descriptor words. -/
structure Layout where
  gid : Nat := 0
  w : List Nat := []
deriving DecidableEq, Repr

/-- A granule lock (R146): who holds it, none while it has just been freed, and who waits, as waybill key and granule. -/
structure GLock where
  pa : Nat := 0
  holder : Option (Nat × Nat) := none
  waiters : List (Nat × Nat) := []
deriving DecidableEq, Repr

/-- A doorbell that waits for its stream (R67): its tail, and the source, key and guest-map count it was looked up with (R306). -/
structure Bell where
  stream : Nat := 0
  tail : Nat := 0
  src : Nat := 0
  pkey : Nat := 0
  gmEpoch : Nat := 0
deriving DecidableEq, Repr

/-- Streams, waybills, tallies and the Porter. -/
structure Work where
  streams : Tab Stream := {}
  stamp : Nat := 0
  /-- Doorbells for spilled streams that wait (R67). -/
  bells : List Bell := []
  /-- Doorbells discarded (R63). -/
  discarded : Nat := 0
  /-- Waybills by stream * 2^32 + SEQ. -/
  wbs : Tab Waybill := {}
  tallies : Tab Tally := {}
  clusters : Tab Cluster := {}
  ctxs : Tab RedCtx := {}
  /-- Staging in use, KiB. -/
  stageUsed : Nat := 0
  layouts : Tab Layout := {}
  locks : List GLock := []
deriving DecidableEq, Repr

end Sys2Proof.Machine
end

