-- ==== Sys2Proof/Machine/State.lean ====
section
/-! DEFINITION. The machine state: every register, table, buffer, queue and contact the manual gives the device, the
commands that wait, and the state right after power-on with the device held in reset. -/

namespace Sys2Proof.Machine

open Sys2Proof

/-- Faults. The manual lets no command stop the device: every error it describes is a status, a result code, a record
or an interrupt, which are effects on the state. No meaning raises a fault. -/
inductive Fault where
  /-- Raised by nobody; it stands for a stop the manual does not have. Safe: nothing rests on it. -/
  | none
deriving DecidableEq, Repr

/-- Refusals. -/
inductive Refusal where
  /-- Raised by `exec` alone, for a command whose meaning is not written. Safe: the machine stops where the hardware
  goes on. -/
  | notModelled (mnemonic : String)
deriving DecidableEq, Repr

/-- The device. -/
structure State where
  /-- Commands that wait, first in first out. -/
  pending : List Instr := []
  /-- Dictionary objects by key, those without a row at their default: numbers, and byte strings. -/
  regs : Tab Nat := {}
  blobs : Tab Bytes := {}
  /-- Values of RWP objects in force since the last reset (R465). -/
  forced : Tab Nat := {}
  power : Power := {}
  fabric : Fabric := {}
  obs : Obs := {}
  ik : Ik := {}
  irq : Irq := {}
  /-- Pigeonholes; no row: unowned and empty. -/
  holes : Tab Hole := {}
  dict : Dict := {}
  sec : Sec := {}
  pool : Pool := {}
  trans : Trans := {}
  hearth : Hearth := {}
  work : Work := {}
  cellar : Cellar := {}
  /-- What has left the package, newest first. -/
  out : List Out := []
  /-- The model's own count of free values used (assumption 4). -/
  freeCount : Nat := 0
deriving DecidableEq, Repr

/-- The configuration log as the factory leaves it: the calibration seed and trims of each channel (R476, R480). -/
def factoryLog : List FlashRec :=
  ((List.range 48).map fun n =>
    [({ key := Obj.calSeed n, value := Config.calSeed n, recno := 2 * n } : FlashRec),
     { key := Obj.calTrim n, value := Config.calTrim n, recno := 2 * n + 1 }]).flatten

/-- The device after power-on, held in reset: every object at its default, every table empty, and the flash as the factory left it. -/
def State.reset : State := { dict := { copy0 := factoryLog, recno := 96 } }

end Sys2Proof.Machine
end

