-- ==== Sys2Proof/Machine/Ops.lean ====
section
/-! DEFINITION. Operations that every family of commands uses: dictionary objects, time, outputs, free values, when the
device acts at all, counters (R514 to R517), interrupt edges (R439 to R445), the error log (R529 to R532) and
command records (R47). -/

namespace Sys2Proof.Machine

open Sys2Proof

/-! ## Objects -/

/-- Value of a numeric object. -/
def State.reg (s : State) (k : Nat) : Nat := s.regs.getD k (objDefault k)

/-- A numeric object written. -/
def State.setReg (s : State) (k v : Nat) : State := { s with regs := s.regs.put k v }

/-- Value of a byte-string object. -/
def State.blob (s : State) (k : Nat) : Bytes := s.blobs.getD k (objDefaultBytes k)

/-- A byte-string object written. -/
def State.setBlob (s : State) (k : Nat) (v : Bytes) : State := { s with blobs := s.blobs.put k v }

/-- Value in force of an RWP object that acts at reset (R465). -/
def State.inForce (s : State) (k : Nat) : Nat := s.forced.getD k (objDefault k)

/-- A numeric object read as a BOOL. -/
def State.flag (s : State) (k : Nat) : Bool := s.reg k != 0

/-! ## Time, outputs, free values -/

/-- TIMEBASE in ns (R498). -/
def State.now (s : State) : Nat := s.power.timebase

/-- TIMEBASE in microseconds. -/
def State.nowUs (s : State) : Nat := s.power.timebase / 1000

/-- TIMEBASE in ms. -/
def State.nowMs (s : State) : Nat := s.power.timebase / 1000000

/-- Something leaves the package. -/
def State.emit (s : State) (o : Out) : State := { s with out := o :: s.out }

/-- The next n free values are used up. -/
def State.useFree (s : State) (n : Nat) : State := { s with freeCount := s.freeCount + n }

/-- n bytes the manual leaves open. -/
def State.freeBytes (s : State) (n : Nat) : Bytes := (upto n).map fun i => Config.freeByte (s.freeCount + i)

/-! ## When the device acts -/

/-- Powered, out of reset and not tripped (R508, R510). -/
def State.up (s : State) : Bool := s.power.aon && !s.power.inReset && !s.power.thermtrip

/-- Halted by tamper or by a test instruction (R410, R413). -/
def State.halted (s : State) : Bool := s.sec.st == 2 || s.sec.st == 3

/-- The datapath acts: up, not halted, clocked, and not asleep (R492, R501, R508). -/
def State.running (s : State) : Bool := s.up && !s.halted && !s.power.clocksLost && s.power.st != 2

/-- Firmware of an active Innkeeper serves: no management gap, not both lost, booted, awake (R428, R436, R492). -/
def State.served (s : State) : Bool :=
  s.up && !s.halted && s.sec.booted && s.ik.gap.isNone && !s.ik.bothLost && s.ik.active != 0xFF && s.power.st == 0 && !s.power.clocksLost

/-- A command's outcome on a device whose datapath acts; on one that does not, nothing is accepted. -/
def live (s : State) (f : State → State) : Host.Outcome State Fault Refusal := .next (if s.running then f s else s)

/-- A management command's outcome: it takes effect where firmware serves, and is answered busy where not. -/
def managed (s : State) (f : State → State) : Host.Outcome State Fault Refusal := .next (if s.served then f s else s)

/-- An outcome on a device that is powered and out of reset, asleep or not. -/
def awake (s : State) (f : State → State) : Host.Outcome State Fault Refusal := .next (if s.up then f s else s)

/-! ## Dies -/

/-- Bit of a die in DIE_PRESENT (Table 14.11). -/
def dieIK (n : Nat) : Nat := n
def dieGH (n : Nat) : Nat := 2 + n
def dieCL (n : Nat) : Nat := 18 + n
def diePD (n : Nat) : Nat := 42 + n
def dieLG (n : Nat) : Nat := 58 + n

/-- Gatehouse that hosts a link (Table 0.4). -/
def linkGH (l : Nat) : Nat := if l < 16 then l else (l - 16 + 8) % 16

/-- Die that hosts a link. -/
def linkDie (l : Nat) : Nat := dieGH (linkGH l)

/-- INST of a link in its Gatehouse's counters (Table 16.1). -/
def linkInst (l : Nat) : Nat := if l < 16 then 0 else 1

/-- Partner link of a pair. -/
def partner (l : Nat) : Nat := if l < 16 then l + 16 else l - 16

/-- The die is present. -/
def State.hasDie (s : State) (d : Nat) : Bool := s.power.present.testBit d

/-- Active Innkeeper's die bit. -/
def State.ikDie (s : State) : Nat := if s.ik.active == 1 then 1 else 0

/-! ## Interrupt edges -/

/-- Arrival of one edge at a controller: PENDING set, counter saturating at 255 (R439). -/
def Pend.edge (p : Pend) (src : Nat) : Pend :=
  { bits := setBit p.bits src, counts := p.counts.put src (satInc 8 (p.counts.getD src 0)) }

/-- Two arrival states joined: PENDING OR, counters summed and saturating (R444). -/
def Pend.join (p q : Pend) : Pend :=
  { bits := p.bits ||| q.bits,
    counts := q.counts.rows.foldl (fun t r => t.put r.1 (min 255 (t.getD r.1 0 + r.2))) p.counts }

/-- A rising edge of a source (R439, R443, R444, R445). -/
def State.irqEdge (s : State) (src : Nat) : State :=
  let q := s.irq
  let q := { q with standby := q.standby.edge src, standbyNew := q.standbyNew.edge src }
  let q := if q.stopped then
      if q.latched.testBit src then { q with overrun := setBit q.overrun src } else { q with latched := setBit q.latched src }
    else if s.ik.gap.isNone && !s.ik.bothLost then { q with pend := q.pend.edge src } else q
  let q := if q.alertEn.testBit src then { q with alertStatus := setBit q.alertStatus src } else q
  { s with irq := q }

/-! ## Counters -/

/-- Programmable counters of a die (Table 16.1). -/
def progCounters (d : Nat) : Nat := if d < 2 then 8 else if 42 ≤ d && d < 58 then 32 else 16

/-- Counters of a die, fixed ones included. -/
def allCounters (d : Nat) : Nat := if d < 2 then 9 else if 42 ≤ d && d < 58 then 96 else 16

/-- The Sel value that stands for every kind of an event, if it has one (Tables 16.3 to 16.7). Cycles with any VC stalled are counted on their
own. -/
def selAll (ev : Nat) : Option Nat :=
  if ev == 0x2010 || ev == 0x2011 || ev == 0x2012 || ev == 0x2014 || ev == 0x2022 then some 0
  else if ev == 0x2016 || ev == 0x2020 || ev == 0x2021 || ev == 0x4013 then some 0xFF
  else none

/-- A counter of a die configured with cfg counts an event; sel / 256 names the subchannel of a DRAM command (R520). -/
def ctrCounts (d c cfg ev inst sel : Nat) : Bool :=
  let want := bitsOf cfg 39 32
  let ci := bitsOf cfg 15 8
  let subs := bitsOf cfg 41 40
  bitOf cfg 63 && bitsOf cfg 31 16 == ev && (want == sel % 256 || selAll ev == some want) &&
    (sel / 256 == 0 || subs == 0 || subs == sel / 256) &&
    (if 42 ≤ d && d < 58 then c / 4 == inst else if 2 ≤ d && d < 42 then ci == 2 || ci == inst else true)

/-- n added to a counter: COUNT wraps at 2^48 and the wrap sets OVF (R516). -/
def Ctr.add (c : Ctr) (n : Nat) : Ctr :=
  { c with count := (c.count + n) % 2 ^ 48, ovf := c.ovf || decide (2 ^ 48 ≤ c.count + n) }

/-- Counters are stopped: as CTR_FREEZE last had its effect, ten microseconds after its write (R518). -/
def State.frozen (s : State) : Bool :=
  match s.obs.freezeAt with
  | some (t, v) => if t ≤ s.now then v else s.obs.frozen
  | none => s.obs.frozen

/-- n events of a kind on a die: every programmable counter that selects it counts, unless counters are frozen; a new
OVF with OVF_IRQ raises source 0x005 (R515, R516). -/
def State.countN (s : State) (d inst ev sel n : Nat) : State :=
  if s.frozen || !s.hasDie d then s else
  let hit (k : Nat) (c : Ctr) : Bool :=
    k / 128 == d && decide (k % 128 < progCounters d) && ctrCounts d (k % 128) c.cfg ev inst sel
  let wraps := s.obs.ctrs.rows.any fun r => hit r.1 r.2 && !r.2.ovf && (r.2.add n).ovf && bitOf r.2.cfg 62
  let s := { s with obs := { s.obs with ctrs := s.obs.ctrs.map fun k c => if hit k c then c.add n else c } }
  if wraps then s.irqEdge 0x005 else s

/-- n added to a fixed counter of a die, by its number there (R515, R516). -/
def State.addFixed (s : State) (d c n : Nat) : State :=
  if s.frozen || !s.hasDie d then s
  else { s with obs := { s.obs with ctrs := s.obs.ctrs.put (d * 128 + c) ((s.obs.ctrs.getD (d * 128 + c) {}).add n) } }

/-- One event. -/
def State.count (s : State) (d inst ev sel : Nat) : State := s.countN d inst ev sel 1

/-- One event of a link (Table 16.3). -/
def State.countLink (s : State) (l ev sel : Nat) : State := s.count (linkDie l) (linkInst l) ev sel

/-- n events of a link. -/
def State.countLinkN (s : State) (l ev sel n : Nat) : State := s.countN (linkDie l) (linkInst l) ev sel n

/-- One event of a channel (Table 16.4). -/
def State.countChan (s : State) (ch ev sel : Nat) : State := s.count (dieCL (ch / 2)) (ch % 2) ev sel

/-- One event of a cluster (Table 16.5). -/
def State.countCluster (s : State) (pc ev sel : Nat) : State := s.count (diePD (pc / 8)) (pc % 8) ev sel

/-- n added to a fixed counter of a cluster, by its offset (Tables 16.1 and 16.8). -/
def State.countOffset (s : State) (pc off n : Nat) : State := s.addFixed (diePD (pc / 8)) (32 + 8 * (pc % 8) + off) n

/-- Fixed counters that a kind of issue slot is counted in (Table 16.8). -/
def slotOffsets : Nat → List Nat
  | 0 => [1]
  | 1 => [2]
  | 2 => [3]
  | 3 => [4, 5]
  | 4 => [4, 6]
  | _ => [4, 7]

/-- n issue slots of a cluster counted in a kind: 0 retired, 1 wasted, 2 front-starved, 3 to 5 back-starved on memory, credits or scratchpad
(R523). -/
def State.countSlots (s : State) (pc kind n : Nat) : State :=
  if n == 0 then s else
  (slotOffsets kind).foldl (fun (s : State) o => s.countOffset pc o n) (s.countN (diePD (pc / 8)) (pc % 8) 0x4010 kind n)

/-- n of the issued slots of a chunk are counted in a kind (R524). -/
def State.settleSlots (s : State) (key c cl kind n : Nat) : State :=
  let k := key * 2 ^ 20 + c
  let n := min n (s.obs.slots.getD k 0)
  State.countSlots { s with obs := { s.obs with slots := s.obs.slots.upd k (· - n) } } cl kind n

/-- Every issued slot of a chunk is counted in a kind: the chunk ends (R524). -/
def State.settleChunk (s : State) (key c cl kind : Nat) : State :=
  let k := key * 2 ^ 20 + c
  let s := s.settleSlots key c cl kind (s.obs.slots.getD k 0)
  { s with obs := { s.obs with slots := s.obs.slots.del k } }

/-- A granule commits or is withdrawn, and the slots that it took are counted (R524). DESIGN CHOICE (assumption 48): how many of its chunk's
slots they are is free. -/
def State.settleGranule (s : State) (key c g cl kind : Nat) : State := s.settleSlots key c cl kind (Config.granuleSlots key g s.now)

/-- The issued slots of a chunk on a lost cluster are never counted (R524). -/
def State.loseSlots (s : State) (key c : Nat) : State := { s with obs := { s.obs with slots := s.obs.slots.del (key * 2 ^ 20 + c) } }

/-- One Ledger event, counted on LG0's bank or the first Ledger die present (Table 16.6). -/
def State.countLedger (s : State) (ev sel : Nat) : State :=
  match (upto 6).find? fun n => s.hasDie (dieLG n) with
  | some n => s.count (dieLG n) 0 ev sel
  | none => s

/-- One Innkeeper event, on the active die (Table 16.7). -/
def State.countIk (s : State) (ev sel : Nat) : State := s.count (dieIK s.ikDie) 0 ev sel

/-! ## Error log -/

/-- SEV of a record type (Table 16.13): 0 INFO, 1 WARN, 2 ERROR, 3 CRITICAL. -/
def logSev (ty : Nat) : Nat :=
  if ty == 0x02 || ty == 0x04 || ty == 0x09 || ty == 0x0D then 2
  else if ty == 0x06 || ty == 0x0A || ty == 0x0B || ty == 0x0F || ty == 0x12 then 3
  else if ty == 0x07 || ty == 0x0E || ty == 0x10 || ty == 0x11 || ty == 0x13 || ty == 0x14 then 1
  else 0

/-- Name of a record type (Table 16.13). -/
def logName (ty : Nat) : String :=
  (["", "UE_REPAIRED", "UE_LOST", "STALE_STRIPE", "PARITY_MISMATCH", "PPR_DONE", "CHANNEL_FAILED", "REBUILD_START",
    "REBUILD_END", "GROUP_STATE", "GUEST_FATAL", "KEY_UNWRAP_FAIL", "TEARDOWN_DONE", "HEARTH_FENCE", "IK_FAILOVER",
    "CONFIG_LOST", "LINK_DOWN", "CLUSTER_LOST", "DIE_LOST", "REFCLK_SWITCH", "DIE_THERMAL"] : List String).getD ty ""

/-- One upper-case hexadecimal digit. -/
def hexDigit (n : Nat) : Char := "0123456789ABCDEF".toList.getD (n % 16) '0'

/-- w upper-case hexadecimal digits of n. -/
def hexStr : Nat → Nat → String
  | 0, _ => ""
  | w + 1, n => (hexStr w (n / 16)).push (hexDigit n)

/-- The UART line of a CRITICAL record (R532). -/
def uartLine (r : LogRec) : String :=
  "CRIT " ++ hexStr 8 r.recno ++ " " ++ toString r.time ++ " " ++ hexStr 2 r.type ++ " " ++ logName r.type ++ " " ++
    toString r.die ++ " " ++ hexStr 16 r.w2 ++ " " ++ hexStr 16 r.w3 ++ " " ++ hexStr 16 r.w4 ++ " " ++ hexStr 16 r.w5 ++
    " " ++ hexStr 16 r.w6 ++ " " ++ hexStr 16 r.w7 ++ "\r\n"

/-- The record equals an event's type, die and payload, and the event comes within LOG_COALESCE of its TIME (R530). -/
def LogRec.sameEvent (r e : LogRec) (within : Nat) : Bool :=
  r.type == e.type && r.die == e.die && r.w2 == e.w2 && r.w3 == e.w3 && r.w4 == e.w4 && r.w5 == e.w5 && r.w6 == e.w6 &&
    r.w7 == e.w7 && decide (e.time ≤ r.time + within)

/-- COUNT of the record numbered n raised by one, saturating. -/
def raiseCount (n : Nat) (rs : List LogRec) : List LogRec :=
  rs.map fun r => if r.recno == n then { r with count := satInc 16 r.count } else r

/-- An event writes a record or raises the COUNT of the newest one of its type (R529, R530, R532). -/
def State.log (s : State) (ty die w2 : Nat) (w3 : Nat := 0) (w4 : Nat := 0) (w5 : Nat := 0) : State :=
  let sev := logSev ty
  let e : LogRec := { type := ty, sev := sev, die := die, time := s.nowUs, recno := s.obs.logTail, w2 := w2, w3 := w3, w4 := w4, w5 := w5 }
  let within := s.reg Obj.logCoalesce
  match s.obs.log.find? fun r => r.type == ty with
  | some r =>
    if sev != 3 && within != 0 && r.sameEvent e within then
      { s with obs := { s.obs with log := raiseCount r.recno s.obs.log, preserved := raiseCount r.recno s.obs.preserved } }
    else appendLog s e
  | none => appendLog s e
where
  /-- A new record takes the next RECNO and overwrites the one 65,536 older. -/
  appendLog (s : State) (e : LogRec) : State :=
    let s := { s with obs := { s.obs with log := (e :: s.obs.log).take 65536, logTail := (s.obs.logTail + 1) % 2 ^ 32,
                                          preserved := if 2 ≤ e.sev then (e :: s.obs.preserved).take 64 else s.obs.preserved } }
    if e.sev == 3 then s.emit (.uart (uartLine e)) else s

/-! ## Command records -/

/-- RESULT of a record reads 0x01 and its OP is refused busy (R47). -/
def State.busy (s : State) (result : Nat) : Bool := s.reg result == 0x01

/-- A command record's OP is written with a code: the firmware serves it unless RESULT reads 0x01, in which case the
write is refused and the command in progress is unaffected (R47, R468 check 10). -/
def record (s : State) (op result code : Nat) (f : State → State) : Host.Outcome State Fault Refusal :=
  .next (if s.served && !s.busy result then f (s.setReg op code) else s)

end Sys2Proof.Machine
end

