-- ==== Sys2Proof/Machine/ObsOps.lean ====
section
/-! DEFINITION. The observation phase (R525), queue depths (R526), and what samplers and marks take when an item enters or leaves a
sampled queue (R527, R528). -/

namespace Sys2Proof.Machine

open Sys2Proof

/-- A recovery event of Table 16.9 is in progress. -/
def State.recovering (s : State) : Bool :=
  s.ik.gap.isSome || s.fabric.carried != 0 || (s.cellar.chans.rows.any fun r => r.2.st == 5) ||
    (s.cellar.groups.rows.any fun r => r.2.st == 1) || (s.work.wbs.rows.any fun w => w.2.chunks.rows.any fun c => c.2.st == 2) ||
    s.power.st == 3

/-- OBS_PHASE (R525): 0 SERVICE, 1 START, 2 RECOVERY, 3 TEST. -/
def State.phase (s : State) : Nat :=
  if s.sec.st == 1 || s.pool.setState == 0 || s.pool.setState == 4 || s.pool.setState == 5 then 3
  else if !s.obs.startOver then 1
  else if s.recovering || s.obs.recoveryHold then 2 else 0

/-- Queue IDs (Table 16.10). -/
def qidEgress (gh q : Nat) : Nat := 0x01 * 2 ^ 24 + gh * 2 ^ 16 + q
def qidPool (l : Nat) : Nat := 0x02 * 2 ^ 24 + l
def qidRead (ch sub : Nat) : Nat := 0x03 * 2 ^ 24 + 2 * ch + sub
def qidWrite (ch sub : Nat) : Nat := 0x04 * 2 ^ 24 + 2 * ch + sub
def qidWcb (ch : Nat) : Nat := 0x05 * 2 ^ 24 + ch
def qidTrk : Nat := 0x06 * 2 ^ 24
def qidBell : Nat := 0x07 * 2 ^ 24
def qidChunk : Nat := 0x08 * 2 ^ 24
def qidFault : Nat := 0x09 * 2 ^ 24
def qidDict : Nat := 0x0A * 2 ^ 24
def qidHearth : Nat := 0x0B * 2 ^ 24
def qidPlog (g : Nat) : Nat := 0x0C * 2 ^ 24 + g

/-- Gatehouse that hosts the queue of an egress packet. -/
def EPkt.gh (e : EPkt) : Nat := linkGH e.link

/-- Entries of the chunk table in use: one for each row block or other chunk in flight, and one for all slices of a MOEFFN (R85, R172). -/
def State.chunkEntries (s : State) : Nat :=
  s.work.wbs.rows.foldl (fun n w => n + (w.2.chunks.count fun i c => decide (i < 65536) && c.st != 3) + b2n (w.2.chunks.keys.any fun i => decide (65536 ≤ i))) 0

/-- Depth of a queue in its unit (Table 16.10); none for an ID that names no queue. -/
def State.queueDepth (s : State) (qid : Nat) : Option Nat :=
  let k := qid / 2 ^ 24
  let i := qid % 2 ^ 24
  let chan (n : Nat) : Chan := s.cellar.chans.getD n {}
  if k == 1 then
    if i / 2 ^ 16 < 16 && i % 2 ^ 16 < 1024 then
      some ((s.fabric.egress.filter fun e => e.gh == i / 2 ^ 16 && e.queue == i % 2 ^ 16).foldl (fun n e => n + 32 + 64 * e.p.len) 0)
    else none
  else if k == 2 then (if i < 32 then some ((s.fabric.links.getD i {}).rx.held.foldl (· + ·) 0) else none)
  else if k == 3 then (if i < 96 then some ((chan (i / 2)).subs.getD (i % 2) {}).rq.length else none)
  else if k == 4 then (if i < 96 then some ((chan (i / 2)).subs.getD (i % 2) {}).wq.length else none)
  else if k == 5 then (if i < 48 then some (chan i).wcb.size else none)
  else if k == 12 then
    (if i < 5 then some (chan ((s.cellar.groups.getD i {}).members.getD 8 48)).plog.length else none)
  else if i != 0 then none
  else if k == 6 then some s.pool.reqs.size
  else if k == 7 then some s.work.bells.length
  else if k == 8 then some s.chunkEntries
  else if k == 9 then some s.trans.faults.size
  else if k == 10 then some s.dict.queue.length
  else if k == 11 then some s.hearth.queue.length
  else none

/-- The mark of a phase changed: 1 START, 2 RECOVERY, 3 TEST. -/
def Hwm.onPhase (h : Hwm) (phase : Nat) (f : Mark → Mark) : Hwm :=
  if phase == 1 then { h with start := f h.start } else if phase == 2 then { h with recovery := f h.recovery }
  else if phase == 3 then { h with test := f h.test } else h

/-- A delay compared with a mark; a tie keeps the earlier. -/
def Mark.delay (m : Mark) (d : Nat) : Mark := if m.maxDelay < d then { m with maxDelay := min d (2 ^ 32 - 1) } else m

/-- A depth compared with a mark, with the time in microseconds. -/
def Mark.depth (m : Mark) (d t : Nat) : Mark := if m.maxDepth < d then { m with maxDepth := d, time := t } else m

/-- Every cycle's depth of a watched queue is compared with the marks of the phase that holds (R528). -/
def State.markDepths (s : State) : State :=
  let phase := s.phase
  let mark (k : Nat) (r : Hwm) : Hwm := match s.queueDepth (s.reg (Obj.hwmQueue k)) with
    | some d => r.onPhase phase (·.depth d s.nowUs)
    | none => r
  { s with obs := { s.obs with marks := s.obs.marks.map mark } }

/-- A recovery event of Table 16.9 begins. -/
def State.recovery (s : State) : State := { s with obs := { s.obs with recoveryHold := true } }

/-- An item has entered a queue: armed samplers and marks tag it, and marks compare the depth (R527, R528). -/
def State.enterQ (s : State) (qid item : Nat) : State :=
  let phase := s.phase
  let depth := (s.queueDepth qid).getD 0
  let tag := (item, s.now)
  let tagS (k : Nat) (r : Sample) : Sample :=
    if s.reg (Obj.sampleQueue k) == qid && r.arm then { r with arm := false, tagged := r.tagged ++ [tag] } else r
  let tagM (k : Nat) (r : Hwm) : Hwm :=
    if s.reg (Obj.hwmQueue k) != qid then r else
    let r := r.onPhase phase (·.depth depth s.nowUs)
    if phase != 0 && decide (r.lastTag + 1000 ≤ s.now) then { r with tagged := r.tagged ++ [tag], lastTag := s.now } else r
  { s with obs := { s.obs with samples := s.obs.samples.map tagS, marks := s.obs.marks.map tagM } }

/-- A recorded delay added to a sampler (Table 16.11). -/
def Sample.delay (r : Sample) (d : Nat) : Sample :=
  { r with sumDelay := (r.sumDelay + d) % 2 ^ 64, nd := satInc 32 r.nd, maxDelay := max r.maxDelay (min d (2 ^ 32 - 1)) }

/-- An item leaves its queue: a tagged one gives its delay. -/
def State.leaveQ (s : State) (qid item : Nat) : State :=
  let phase := s.phase
  let recS (k : Nat) (r : Sample) : Sample :=
    match r.tagged.find? (·.1 == item) with
    | some x => if s.reg (Obj.sampleQueue k) == qid then { r.delay (s.now - x.2) with tagged := r.tagged.erase x } else r
    | none => r
  let recM (k : Nat) (r : Hwm) : Hwm :=
    match r.tagged.find? (·.1 == item) with
    | some x => if s.reg (Obj.hwmQueue k) == qid then { r.onPhase phase (·.delay (s.now - x.2)) with tagged := r.tagged.erase x } else r
    | none => r
  { s with obs := { s.obs with samples := s.obs.samples.map recS, marks := s.obs.marks.map recM } }

/-- An item leaves its queue by being dropped or discarded: a tag on it records nothing. -/
def State.discardQ (s : State) (qid item : Nat) : State :=
  let untag (t : List (Nat × Nat)) : List (Nat × Nat) := t.filter fun x => x.1 != item
  let offS (k : Nat) (r : Sample) : Sample := if s.reg (Obj.sampleQueue k) == qid then { r with tagged := untag r.tagged } else r
  let offM (k : Nat) (r : Hwm) : Hwm := if s.reg (Obj.hwmQueue k) == qid then { r with tagged := untag r.tagged } else r
  { s with obs := { s.obs with samples := s.obs.samples.map offS, marks := s.obs.marks.map offM } }

end Sys2Proof.Machine
end

