-- ==== Sys2Proof/Machine/LinkOps.lean ====
section
/-! DEFINITION. Operations of the link layer (chapter 08): the packet and flit layouts, the CRC, forming and sending
flits, applying ACKs, credits and audits, groups and their tags, and taking a link down with handover. -/

namespace Sys2Proof

/-- Bytes of a packet on the link, header and payload. -/
def Packet.size (p : Packet) : Nat := 32 + 64 * p.len

/-- Receive-pool blocks a packet takes (R253). -/
def Packet.blocks (p : Packet) : Nat := p.len + 1

/-- A packet's VC and TURNED when it is turned onto the partner of a broken ring port (R299). -/
def Packet.turn (p : Packet) : Packet := { p with turned := true, vc := 2 * p.tc + 1 }

end Sys2Proof

namespace Sys2Proof.Machine

open Sys2Proof

/-! ## Layouts -/

/-- The 32-byte header of a packet (Table 9.1). -/
def packetHeader (p : Packet) : Bytes :=
  leBytes 8 (p.dst * 2 ^ 44 + p.src * 2 ^ 24 + p.pkey * 2 ^ 8 + p.tc * 64 + p.vc * 8 + b2n p.ect * 4 + b2n p.ce * 2 + b2n p.poi) ++
  leBytes 8 (p.opc * 2 ^ 56 + p.len * 2 ^ 51 + p.rsvd * 2 ^ 48 + p.addr) ++
  leBytes 8 (p.seq * 2 ^ 32 + p.tag * 2 ^ 16 + p.status * 256 + b2n p.ece * 128 + b2n p.turned * 64 + p.hops) ++
  leBytes 8 p.xw

/-- The bytes of a packet. -/
def packetBytes (p : Packet) : Bytes := packetHeader p ++ p.payload

/-- The packet that bytes spell: a header and LEN * 64 payload bytes. -/
def packetOf (bs : Bytes) : Packet :=
  let h0 := leNat (sliceBytes bs 0 8)
  let h1 := leNat (sliceBytes bs 8 8)
  let h2 := leNat (sliceBytes bs 16 8)
  { dst := bitsOf h0 63 44, src := bitsOf h0 43 24, pkey := bitsOf h0 23 8, tc := bitsOf h0 7 6, vc := bitsOf h0 5 3,
    ect := bitOf h0 2, ce := bitOf h0 1, poi := bitOf h0 0, opc := bitsOf h1 63 56, len := bitsOf h1 55 51,
    rsvd := bitsOf h1 50 48, addr := bitsOf h1 47 0, seq := bitsOf h2 63 32, tag := bitsOf h2 31 16, status := bitsOf h2 15 8,
    ece := bitOf h2 7, turned := bitOf h2 6, hops := bitsOf h2 5 0, xw := leNat (sliceBytes bs 24 8),
    payload := sliceBytes bs 32 (bitsOf h1 55 51 * 64) }

/-- The header word of a flit (Table 8.3). -/
def flitHeader (f : Flit) : Nat :=
  f.fseq * 2 ^ 52 + f.ack * 2 ^ 40 + b2n f.pause * 2 ^ 39 + f.cretTc * 2 ^ 37 + f.cretDl * 2 ^ 36 + f.cretN * 2 ^ 30 +
    f.aux * 2 ^ 14 + f.ftype * 2 ^ 12 + f.sop * 256 + f.pad * 16 + b2n f.abt * 8 + f.abtVc

/-- One bit of CRC-64 with polynomial 0x42F0_E1EB_A9EA_3693, no reflection (R245). -/
def crcBit (c : Nat) : Nat :=
  if c.testBit 63 then ((c * 2) % 2 ^ 64) ^^^ 0x42F0E1EBA9EA3693 else c * 2

/-- One byte of CRC-64. -/
def crcByte (c : Nat) (b : Byte) : Nat :=
  crcBit (crcBit (crcBit (crcBit (crcBit (crcBit (crcBit (crcBit (c ^^^ (b.toNat * 2 ^ 56)))))))))

/-- CRC-64 of a byte string, initial value 0, no final XOR (R245). -/
def crc64 (bs : Bytes) : Nat := bs.foldl crcByte 0

/-- CRC of a flit over bytes 0 to 247 as sent. -/
def flitCrc (f : Flit) : Nat := crc64 (leBytes 8 (flitHeader f) ++ padBytes 240 f.payload)

/-- Header bits [13:0], which the group tag protects (R261). -/
def hdr14 (ftype sop pad : Nat) (abt : Bool) (abtVc : Nat) : Nat := ftype * 2 ^ 12 + sop * 256 + pad * 16 + b2n abt * 8 + abtVc

/-- A flit with its CRC. -/
def sealFlit (f : Flit) : Flit := { f with crc := flitCrc f }

/-- Code and contents of a CTRL message (Table 8.4). How a key-exchange message lays out its contents the manual does not state
(assumption 44). -/
def ctrlBody : CtrlMsg → Nat × Bytes
  | .retryReq fseq => (0x01, leBytes 2 fseq)
  | .null => (0x02, [])
  | .laneMap lane map => (0x03, leBytes 1 lane ++ leBytes 1 map)
  | .laneMapAck lane map => (0x04, leBytes 1 lane ++ leBytes 1 map)
  | .creditSyncReq => (0x05, [])
  | .creditSyncRsp blocks => (0x06, ((upto 8).map fun v => leBytes 2 (blocks.getD v 0)).flatten)
  | .linkDown cause => (0x07, leBytes 1 cause)
  | .standbyReq => (0x08, [])
  | .standbyAck => (0x09, [])
  | .hello v a n => (0x10, leBytes 2 v ++ leBytes 1 (b2n a) ++ leBytes 1 (b2n n))
  | .cert c => (0x11, c)
  | .share p g => (0x12, p ++ g)
  | .finished m => (0x13, m)

/-- Payloads of the CTRL flits that carry a message: payload byte 0 is the code, and a long message spans several flits. -/
def ctrlPayloads (m : CtrlMsg) : List Bytes :=
  let b := ctrlBody m
  (upto (max 1 (ceilDiv b.2.length 239))).map fun i => padBytes 240 (leBytes 1 b.1 ++ sliceBytes b.2 (239 * i) (min 239 (b.2.length - 239 * i)))

/-- CTRL flits of a message: no FSEQ, AUX 0, not encrypted; the first carries the credit return (R246). -/
def ctrlFlits (h : CtrlHdr) (m : CtrlMsg) : List Flit :=
  (ctrlPayloads m).zipIdx.map fun x =>
    let h := if x.2 == 0 then h else { ack := h.ack, pause := h.pause }
    sealFlit { ack := h.ack, pause := h.pause, cretTc := h.cretTc, cretDl := h.cretDl, cretN := h.cretN, ftype := 2, payload := x.1 }

/-- The message of one CTRL flit, for the codes that a link in service uses (Table 8.4). -/
def ctrlOf (payload : Bytes) : Option CtrlMsg :=
  let word (i : Nat) : Nat := leNat (sliceBytes payload i 2)
  let byte (i : Nat) : Nat := leNat (sliceBytes payload i 1)
  match byte 0 with
  | 0x01 => some (.retryReq (word 1 % 4096))
  | 0x02 => some .null
  | 0x03 => some (.laneMap (byte 1) (byte 2))
  | 0x04 => some (.laneMapAck (byte 1) (byte 2))
  | 0x05 => some .creditSyncReq
  | 0x06 => some (.creditSyncRsp ((upto 8).map fun v => word (1 + 2 * v)))
  | 0x07 => some (.linkDown (byte 1))
  | 0x08 => some .standbyReq
  | 0x09 => some .standbyAck
  | _ => none

/-! ## Links -/

/-- A link's state; links never touched are DISABLED with counters at their link-up values. -/
def State.link (s : State) (l : Nat) : Link := s.fabric.links.getD l {}

/-- A link's state written. -/
def State.setLink (s : State) (l : Nat) (k : Link) : State :=
  { s with fabric := { s.fabric with links := s.fabric.links.put l k } }

/-- A link's state changed. -/
def State.onLink (s : State) (l : Nat) (f : Link → Link) : State := s.setLink l (f (s.link l))

/-- The link carries packets: ACTIVE or NARROW. -/
def State.linkUp (s : State) (l : Nat) : Bool := (s.link l).st == 4 || (s.link l).st == 5

/-- The link has been ACTIVE and keeps its counters: ACTIVE, NARROW, SPARING, CREDIT_SYNC or STANDBY. -/
def Link.established (k : Link) : Bool := decide (4 ≤ k.st) && decide (k.st ≤ 8)

/-- State to which SPARING and CREDIT_SYNC return. -/
def Link.upState (k : Link) : Nat := if k.narrow then 5 else 4

/-- State that a pause of this link returns to: CREDIT_SYNC while one runs. -/
def Link.resumeState (k : Link) : Nat := if k.tx.sync != 0 then 7 else k.upState

/-- First VC from the rotating pointer with credits due (R255). -/
def dueVc (due : List Nat) (ptr : Nat) : Option Nat :=
  ((upto 8).map fun i => (ptr + i) % 8).find? fun v => due.getD v 0 != 0

/-- The ACK a receiver places in headers: last FSEQ of the newest verified group, 0xFFF for none (R249). -/
def LinkRx.ack (r : LinkRx) : Nat := (r.verified * 64 + 4095) % 4096

/-- The header built afresh for a flit about to leave: ACK, PAUSE and one VC's due credits (R247, R255). -/
def LinkRx.header (r : LinkRx) : CtrlHdr × LinkRx :=
  match dueVc r.due r.crPtr with
  | none => ({ ack := r.ack, pause := r.pausing }, r)
  | some v =>
    let n := min 63 (r.due.getD v 0)
    ({ ack := r.ack, pause := r.pausing, cretTc := v / 2, cretDl := v % 2, cretN := n },
     { r with due := r.due.set v (r.due.getD v 0 - n), attached := r.attached.set v ((r.attached.getD v 0 + n) % 2 ^ 16), crPtr := (v + 1) % 8 })

/-- The flit FIFO holds n DATA flits, and PAUSE follows its fill (R251). -/
def LinkRx.filled (r : LinkRx) (n : Nat) : LinkRx :=
  { r with fifo := n, pausing := if 3 ≤ n then true else if n ≤ 1 then false else r.pausing }

/-- The flit FIFO has drained by a number of flits that the manual does not state (R251; assumption 42). -/
def LinkRx.drained (r : LinkRx) (l : Nat) : LinkRx := LinkRx.filled { r with draws := r.draws + 1 } (r.fifo - Config.fifoDrain l r.draws)

/-- The header that a link builds for its next flit, and its receive side after that. -/
def Link.header (k : Link) (l : Nat) : CtrlHdr × LinkRx := (k.rx.drained l).header

/-- A CTRL message is sent (R246). -/
def State.sendCtrl (s : State) (l : Nat) (m : CtrlMsg) : State :=
  let k := s.link l
  let (h, r) := k.header l
  ((s.setLink l { k with rx := r }).emit (.ctrl l h m (ctrlFlits h m))).countLinkN l 0x2010 3 (ctrlFlits h m).length

/-- Transmit key and nonce salt of this end (R260). -/
def Link.txKey (k : Link) : Bytes × Bytes :=
  if k.sideA then (sliceBytes k.keys 0 32, sliceBytes k.keys 32 4) else (sliceBytes k.keys 36 32, sliceBytes k.keys 68 4)

/-- Receive key and nonce salt of this end. -/
def Link.rxKey (k : Link) : Bytes × Bytes :=
  if k.sideA then (sliceBytes k.keys 36 32, sliceBytes k.keys 68 4) else (sliceBytes k.keys 0 32, sliceBytes k.keys 32 4)

/-- IV of group g (R261). -/
def groupIv (salt : Bytes) (g : Nat) : Bytes := salt ++ beBytes 8 g

/-- Payload j of a group under the group's keystream: encryption and decryption are one XOR (R261). -/
def groupCrypt (key salt : Bytes) (g j : Nat) (bs : Bytes) : Bytes :=
  bs.zipIdx.map fun x => x.1 ^^^ Config.gcmStream key (groupIv salt g) (j * 240 + x.2)

/-- Tag of group g over its flits' header bits and ciphertexts (R261). -/
def groupTag (key salt : Bytes) (g : Nat) (flits : List (Nat × Bytes)) : Nat :=
  (Config.gcmTag key (groupIv salt g) (beBytes 8 g ++ (flits.map fun f => leBytes 2 f.1).flatten) ((flits.map (·.2)).flatten)).toNat

/-- Word w (1 to 8) of a tag: tag bits [143 - 16w : 128 - 16w]. -/
def tagWord (tag w : Nat) : Nat := bitsOf tag (143 - 16 * w) (128 - 16 * w)

/-- AUX of the sequenced flit numbered n: AUDIT, a tag word, or 0 (Table 8.3, R256, R261). -/
def Link.aux (k : Link) (n : Nat) : Nat :=
  let q := n % 64
  if q == 0 then (if k.audit then k.rx.attached.getD (bitsOf (n % 4096) 8 6) 0 else 0)
  else if q ≤ 8 then (if n < 64 then 0 else tagWord (k.tx.tags.getD (n / 64 - 1) 0) q)
  else 0

/-- The sequenced flit numbered n is transmitted: header fields are built afresh, payload as encrypted (R247). -/
def State.transmit (s : State) (l n : Nat) (x : TxFlit) : State :=
  let k := s.link l
  let aux := k.aux n
  let (h, r) := k.header l
  let f : Flit := { fseq := n % 4096, ack := h.ack, pause := h.pause, cretTc := h.cretTc, cretDl := h.cretDl, cretN := h.cretN,
                    aux := aux, ftype := x.ftype, sop := x.sop, pad := x.pad, abt := x.abt, abtVc := x.abtVc, payload := x.cipher }
  ((s.setLink l { k with rx := r }).emit (.flit l (sealFlit f))).countLink l 0x2010 (if x.ftype == 1 then 2 else 1)

/-- A new sequenced flit is formed from its plaintext, kept for replay and transmitted (R247, R261). -/
def State.formFlit (s : State) (l ftype sop pad : Nat) (plain : Bytes) : State :=
  let k := s.link l
  let n := k.tx.formed
  let c := groupCrypt k.txKey.1 k.txKey.2 (n / 64) (n % 64) (padBytes 240 plain)
  let x : TxFlit := { ftype := ftype, sop := sop, pad := pad, cipher := c }
  let grp := k.tx.grpOut ++ [(hdr14 ftype sop pad false 0, c)]
  let s := (s.setLink l { k with tx := { k.tx with formed := n + 1, buf := k.tx.buf ++ [x], grpOut := grp } }).transmit l n x
  if n % 64 == 63 then
    s.onLink l fun k => { k with tx := { k.tx with tags := k.tx.tags.put (n / 64) (groupTag k.txKey.1 k.txKey.2 (n / 64) grp), grpOut := [] } }
  else s

/-- The retained copy of a packet frees with the ACK of its last flit (R301). -/
def State.retainTo (s : State) (l : Nat) (p : Packet) (n : Nat) : State :=
  let mark (r : Retained) : Retained :=
    if r.link == l && r.p.dst == p.dst && r.p.tc == p.tc && r.p.seq == p.seq then { r with lastFlit := some n } else r
  { s with fabric := { s.fabric with retained := s.fabric.retained.map mark } }

/-- Slot of the first packet start among the first m bytes of the line, 0xF for none (R246). -/
def LinkTx.sop (t : LinkTx) (m : Nat) : Nat :=
  let starts := (if t.mid then [] else [0]) ++ (t.ends.filter fun e => decide (e.1 < t.line.length)).map (·.1)
  match starts.find? fun b => decide (b < m) with
  | some b => b / 16
  | none => 0xF

/-- The first m bytes of the line have left it in the flit numbered n. -/
def LinkTx.cut (t : LinkTx) (m n : Nat) : LinkTx :=
  { t with line := t.line.drop m, mid := !(t.ends.any fun e => e.1 == m),
           ends := (t.ends.filter fun e => decide (m < e.1)).map fun e => (e.1 - m, e.2),
           sent := t.sent ++ (t.ends.filter fun e => decide (e.1 ≤ m)).map fun e => (n, e.2) }

/-- A DATA flit takes up to fifteen slots of started packets; the slots beyond them are padding (R246). -/
def State.formData (s : State) (l : Nat) : State :=
  let t := (s.link l).tx
  let m := min 240 t.line.length
  let s := s.formFlit l 1 (t.sop m) (if m < 240 then m / 16 else 0xF) (t.line.take m)
  let s := s.onLink l fun k => { k with tx := k.tx.cut m t.formed }
  (t.ends.filter fun e => decide (e.1 ≤ m)).foldl (fun (s : State) e => s.retainTo l e.2.p t.formed) s

/-- n IDLE flits. -/
def State.formIdle (s : State) (l : Nat) : Nat → State
  | 0 => s
  | n + 1 => (s.formFlit l 0 0xF 0xF (zeroBytes 240)).formIdle l n

/-! ## What a received header does -/

/-- Number of the newest flit that an ACK covers, if it covers one not yet covered (R250). -/
def LinkTx.covers (t : LinkTx) (ack : Nat) : Option Nat :=
  let n := t.acked + wrapSub 12 ack t.acked
  if n < t.formed then some n else none

/-- An ACK is applied: flits free, the consecutive count restarts, and a replay behind it moves up (R250). -/
def LinkTx.ackUpTo (t : LinkTx) (ack : Nat) : LinkTx :=
  match t.covers ack with
  | none => t
  | some n =>
    { t with acked := n + 1, buf := t.buf.drop (n + 1 - t.acked), sent := t.sent.filter (fun x => decide (n < x.1)), consec := 0,
             tags := t.tags.filter fun g _ => decide (n + 1 < 64 * g + 73),
             replay := match t.replay with
               | some p => if n + 1 < t.formed then some (max p (n + 1)) else none
               | none => none }

/-- The time of the latest advance of the ACK, against the side before it (R250). -/
def LinkTx.stamped (t before : LinkTx) (now : Nat) : LinkTx := if t.acked == before.acked then t else { t with ackAt := some now }

/-- A credit return is applied (R253, R256). -/
def LinkTx.credit (t : LinkTx) (v n : Nat) : LinkTx :=
  { t with used := t.used.set v (t.used.getD v 0 - n), got := t.got.set v ((t.got.getD v 0 + n) % 2 ^ 16),
           quiet := if n == 0 then t.quiet else t.quiet.set v false }

/-- Sends the request of a credit sync once every sequenced flit is acknowledged (R258, step 2). -/
def State.syncStart (s : State) (l : Nat) : State :=
  let k := s.link l
  if (k.st == 4 || k.st == 5 || k.st == 6) && k.tx.sync == 0 then
    (s.setLink l { k with st := if k.st == 6 then 6 else 7, tx := { k.tx with sync := 1, syncTries := 0 } }).countLink l 0x2019 3
  else s

/-- An AUDIT is applied: credits lost in bad flits are restored; one that cannot come from lost flits starts a sync (R256). -/
def State.applyAudit (s : State) (l v audit : Nat) : State :=
  let t := (s.link l).tx
  let lost := wrapSub 16 audit (t.got.getD v 0)
  if lost == 0 then s
  else if t.used.getD v 0 < lost then (s.countLink l 0x2019 2).syncStart l
  else ((s.onLink l fun k => { k with tx := k.tx.credit v lost }).countLink l 0x2019 0).countLinkN l 0x2019 1 lost

/-! ## Link down and handover -/

/-- Mode in force of a pair (R286): 0 unused, 1 ring stop, 2 spur. -/
def State.pairMode (s : State) (k : Nat) : Nat := s.inForce (Obj.pairMode k)

/-- The pair is out of service (R293). -/
def State.pairIsOut (s : State) (k : Nat) : Bool := s.fabric.pairOut.testBit k

/-- A link is paired: its pair is a ring stop or spur in service (R274). -/
def State.paired (s : State) (l : Nat) : Bool := s.pairMode (l % 16) != 0 && !s.pairIsOut (l % 16)

/-- Queue of a Gatehouse that a TC0 or TC1 packet joins on a link: the configured queue that matches it, or its default
(R314). TC2 and TC3 packets join none (R313) and stand under numbers that name no queue. -/
def State.queueFor (s : State) (l : Nat) (p : Packet) : Nat :=
  if 2 ≤ p.tc then 1024 + p.tc else
  match s.fabric.queues.rows.find? fun r =>
      r.1 / 1024 == linkGH l && decide (4 ≤ r.1 % 1024) && r.2.link == l && r.2.tc == p.tc && r.2.pkey == p.pkey with
  | some r => r.1 % 1024
  | none => 2 * linkInst l + (if p.tc == 1 then 1 else 0)

/-- The handover set of a link that leaves service: started packets not acknowledged whole, then queued ones (R267, step 3). -/
def State.handoverSet (s : State) (l : Nat) : List EPkt :=
  ((s.link l).tx.sent.map (·.2)) ++ ((s.link l).tx.ends.map (·.2)) ++ s.fabric.egress.filter (fun e => e.link == l)

/-- Credits of a receive pool fall due when a packet leaves it (R253). -/
def State.leavePool (s : State) (inLink : Option Nat) (vc blocks : Nat) : State :=
  match inLink with
  | none => s
  | some l => s.onLink l fun k => { k with rx := { k.rx with
      held := k.rx.held.set vc (k.rx.held.getD vc 0 - blocks), due := k.rx.due.set vc (k.rx.due.getD vc 0 + blocks) } }

/-- Scheduler state of an egress link. -/
def State.eg (s : State) (l : Nat) : EgressLink := s.fabric.egLinks.getD l {}

/-- Configuration of a queue (R314). -/
def State.queueCfg (s : State) (gh q : Nat) : QueueCfg := s.fabric.queues.getD (gh * 1024 + q) {}

/-- Scheduler state of a queue. -/
def State.queueRun (s : State) (gh q : Nat) : QueueRun := s.fabric.queueRun.getD (gh * 1024 + q) {}

/-- A packet takes its place behind the others of a queue; a TC0 or TC1 packet under WFQ takes its finish tag (R315). -/
def State.joinQueue (s : State) (e : EPkt) (q : Nat) : State :=
  let gh := linkGH e.link
  let run := s.queueRun gh q
  let wfq := (s.eg e.link).wfq && decide (e.p.tc ≤ 1)
  let empty := !(s.fabric.egress.any fun x => x.link == e.link && x.queue == q)
  let start := if empty then max (s.eg e.link).vt run.last else run.last
  let fin := start + e.p.size * 65536 / (s.queueCfg gh q).weight
  let e := { e with queue := q, finish := if wfq then fin else 0 }
  let s := if wfq then { s with fabric := { s.fabric with queueRun := s.fabric.queueRun.put (gh * 1024 + q) { run with last := fin } } } else s
  { s with fabric := { s.fabric with egress := s.fabric.egress ++ [e] } }

/-- Trackers of a pool in use. -/
def State.poolUsed (s : State) (k : Nat) : Nat := s.pool.reqs.count fun _ r => r.pool == k

/-- Request trackers of the device (R73). -/
def trackerCount : Nat := 16384

/-- Size of a reserve once trackers of it that are free have been given back: never below those in use (R87). -/
def shrinkReserve (size want used : Nat) : Nat := if want < size then max want used else size

/-- Sizes of the TC2 and of the TC3 reserve now: a change of TRK_RESERVE_TC2 or TRK_RESERVE_TC3 moves trackers that are free, and the
rest as they free (R87). -/
def State.trkSizes (s : State) : Nat × Nat :=
  let a := shrinkReserve s.pool.trk2 (s.reg Obj.trkReserveTc2) (s.poolUsed 2)
  let b := shrinkReserve s.pool.trk3 (s.reg Obj.trkReserveTc3) (s.poolUsed 3)
  let a' := max a (min (s.reg Obj.trkReserveTc2) (trackerCount - s.poolUsed 0 - b))
  (a', max b (min (s.reg Obj.trkReserveTc3) (trackerCount - s.poolUsed 0 - a')))

/-- The sizes of the reserves take effect as far as they can. -/
def State.settleTrk (s : State) : State := { s with pool := { s.pool with trk2 := s.trkSizes.1, trk3 := s.trkSizes.2 } }

/-- The tracker that an answer kept frees (R73). -/
def State.dropTracker (s : State) (t : Option Nat) : State :=
  match t with
  | some t => State.settleTrk { s with pool := { s.pool with reqs := s.pool.reqs.del t } }
  | none => s

/-- A queued packet moves to the partner link, behind what waits there (R267, R299). -/
def State.moveTo (s : State) (p : Nat) (ring : Bool) (e : EPkt) : State :=
  let pk := if ring then e.p.turn else e.p
  let q := s.queueFor p pk
  let s := s.discardQ (qidEgress e.gh e.queue) e.p.seq
  (s.joinQueue { e with link := p, p := pk } q).enterQ (qidEgress (linkGH p) q) e.p.seq

/-- A packet is dropped with its link, counted by a Sel of PKT_DROP: its blocks and its tracker free (R268). -/
def State.dropQueued (s : State) (l sel : Nat) (e : EPkt) : State :=
  (((s.dropTracker e.tracker).leavePool e.inLink e.inVc e.p.blocks).discardQ (qidEgress (linkGH l) e.queue) e.p.seq).countLink l 0x2022 sel

/-- A packet for link l cannot be turned: it is TURNED already, and meets a down link in its direction of travel (R299). -/
def State.stuck (s : State) (l : Nat) (p : Packet) : Bool := s.pairMode (l % 16) == 1 && p.turned

/-- A packet of link l goes out on the partner instead, TURNED on a ring, or is undeliverable (R267, R299). -/
def State.handTo (s : State) (l : Nat) (e : EPkt) : State :=
  if s.stuck l e.p then s.dropQueued l 4 e else s.moveTo (partner l) (s.pairMode (l % 16) == 1) e

/-- A packet as the partner of link l carries it. -/
def State.onPartner (s : State) (l : Nat) (p : Packet) : Packet := if s.pairMode (l % 16) == 1 then p.turn else p

/-- Die that retains copies of the packets queued on a link (R301). -/
def retainDie (l : Nat) : Nat := (linkGH l + 8) % 16

/-- Retained copies that follow their packets to the partner of link l. -/
def State.movedRetained (s : State) (l : Nat) : List Retained :=
  (s.fabric.retained.filter fun r => !(r.link == l && s.stuck l r.p)).map fun r =>
    if r.link == l then { r with gh := retainDie (partner l), link := partner l, p := s.onPartner l r.p, lastFlit := none } else r

/-- Packets of the device that wait for a retention buffer go with the traffic of link l. -/
def State.moveStalled (s : State) (l : Nat) : State :=
  let (mine, rest) := s.fabric.stalled.partition fun e => e.link == l
  let up := s.linkUp (partner l)
  let goes (e : EPkt) : Bool := up && !s.stuck l e.p
  let moved := (mine.filter goes).map fun e => { e with link := partner l, p := s.onPartner l e.p }
  let s := { s with fabric := { s.fabric with stalled := rest ++ moved } }
  (mine.filter fun e => !goes e).foldl (fun (s : State) e => s.dropQueued l (if up then 4 else 10) e) s

/-- A routed packet joins its egress queue. -/
def State.enqueue (s : State) (e : EPkt) : State :=
  let q := s.queueFor e.link e.p
  (s.joinQueue { e with joined := s.now, epoch := s.fabric.routeEpoch } q).enterQ (qidEgress (linkGH e.link) q) e.p.seq

/-- Bytes that a die retains. -/
def State.retainedBytes (s : State) (gh : Nat) : Nat := (s.fabric.retained.filter fun r => r.gh == gh).foldl (fun n r => n + r.p.size) 0

/-- A packet of the device is queued on its link, with a copy in the 1 MiB retention buffer of the couple die; while that is full it
waits to be queued, behind those that wait for it already (R301). -/
def State.queueOwn (s : State) (e : EPkt) : State :=
  let gh := retainDie e.link
  if s.fabric.ghLost.testBit gh then s.enqueue e
  else if (s.fabric.stalled.any fun x => retainDie x.link == gh) || decide (1048576 < s.retainedBytes gh + e.p.size) then
    { s with fabric := { s.fabric with stalled := s.fabric.stalled ++ [e] } }
  else
    State.enqueue { s with fabric := { s.fabric with retained := s.fabric.retained ++ [({ gh := gh, link := e.link, p := e.p } : Retained)] } } e

/-- Packets that wait for a retention buffer are queued as far as there is room. -/
def State.unstall (s : State) : State :=
  s.fabric.stalled.foldl (fun (s : State) e => s.queueOwn e) { s with fabric := { s.fabric with stalled := [] } }

/-- Fields of a header that is not bad are applied (R249): ACK, PAUSE and credits; retained copies the ACK covers free (R301). -/
def State.applyHdr (s : State) (l : Nat) (h : CtrlHdr) : State :=
  let s := s.onLink l fun k => { k with tx := { ((k.tx.ackUpTo h.ack).stamped k.tx s.now).credit (2 * h.cretTc + h.cretDl) h.cretN with paused := h.pause } }
  let a := (s.link l).tx.acked
  State.unstall { s with fabric := { s.fabric with retained := s.fabric.retained.filter fun r =>
      !(r.link == l && (match r.lastFlit with | some n => decide (n < a) | none => false)) } }

/-- The handover set moves to the partner in its order, or is dropped and counted when the partner is not up (R267, R268). -/
def State.handover (s : State) (l : Nat) : State :=
  let set := s.handoverSet l
  let s := { s with fabric := { s.fabric with egress := s.fabric.egress.filter (fun e => e.link != l) } }
  let s := if s.linkUp (partner l) then
      let s := set.foldl (fun (s : State) e => s.handTo l e) s
      let s := { s with fabric := { s.fabric with carried := setBit s.fabric.carried l, retained := s.movedRetained l } }
      s.recovery.countLinkN l 0x2026 0 set.length
    else
      let s := set.foldl (fun (s : State) e => s.dropQueued l 10 e) s
      { s with fabric := { s.fabric with retained := s.fabric.retained.filter fun r => r.link != l } }
  (s.moveStalled l).unstall

/-- A link leaves service, or fails before it was in service: cause recorded, interrupt raised, LINK_DOWN sent while the
lanes work, keys destroyed, traffic handed over, counters and buffers discarded (R260, R266, R267, R268). -/
def State.linkDown (s : State) (l st cause : Nat) : State :=
  let k := s.link l
  let n := if k.established then (s.handoverSet l).length else 0
  let s := if k.lanesOk && k.established && cause != 0x07 then s.sendCtrl l (.linkDown cause) else s
  let s := if k.established then s.handover l else s
  let s := s.onLink l fun k =>
    { k with st := st, cause := cause, narrow := false, rxNarrow := false, keys := [], kx := {}, tx := {}, standbyAsked := false, mapSent := none,
             rx := { released := k.rx.released, held := k.rx.held } }
  (s.irqEdge (0x020 + l)).log 0x10 (linkDie l) (l + cause * 256) n

/-- What is left in the receive pool of a link that was down is discarded (R268): no packet holds its blocks any more. -/
def State.discardPool (s : State) (l : Nat) : State :=
  let s := (s.link l).rx.released.foldl (fun (s : State) p => s.discardQ (qidPool l) p.seq) s
  { s with fabric := { s.fabric with egress := s.fabric.egress.map fun e => if e.inLink == some l then { e with inLink := none } else e },
           pool := { s.pool with claims := s.pool.claims.map fun c => if c.link == l then { c with pooled := false } else c } }

/-- A link starts from DETECT with an empty receive pool, taking its RWP settings; with LINK_ENABLE = 0 it stays DISABLED
(R264, R268, R273). -/
def State.toDetect (s : State) (l : Nat) : State :=
  let s := s.discardPool l
  s.onLink l fun k =>
    { k with st := if s.flag (Obj.linkEnable l) then 1 else 0, narrowOk := s.flag (Obj.linkNarrowOk l),
             auditEn := s.flag (Obj.linkAuditEn l), narrow := false, rxNarrow := false, kx := {}, tx := {}, rx := {},
             keys := [], lanes := 0x0FF, txLanes := 0x0FF, spareFor := none, spareBad := false, lanesOk := true }

/-- A replay starts from flit number n (R250); beyond REPLAY_MAX in a row the link goes down. -/
def State.startReplay (s : State) (l n sel : Nat) : State :=
  let c := (s.link l).tx.consec + 1
  let now := s.now
  let s := (s.onLink l fun k => { k with tx := { k.tx with replay := some n, replayFrom := n, consec := c, replayAt := some now } }).countLink l 0x2014 sel
  if s.reg Obj.replayMax < c then s.linkDown l 9 0x02 else s

end Sys2Proof.Machine
end

