-- ==== Sys2Proof/Machine/PowerOps.lean ====
section
/-! DEFINITION. What a wake does (R491 to R495), for the links, frames, contacts and timers that are wake sources. -/

namespace Sys2Proof.Machine

open Sys2Proof

/-- A STANDBY link wakes and resumes with its counters (R489). -/
def State.wakeLink (s : State) (l : Nat) : State :=
  if (s.link l).st == 8 then (s.onLink l fun k => { k with st := k.upState, standbyAsked := false }).irqEdge 0x008 else s

/-- Every link that Night put in STANDBY wakes; a deaf one starts from DETECT (R492 step 5, R493, R495 step 4). -/
def State.wakeNightLinks (s : State) : State :=
  let s := (upto 32).foldl (fun s l =>
    if s.power.deafLinks.testBit l then s.toDetect l
    else if s.power.nightLinks.testBit l then s.wakeLink l else s) s
  { s with power := { s.power with deafLinks := 0, nightLinks := 0 } }

/-- A wake: it aborts an entry, or starts a Night exit; awake it does nothing (R493, R495). -/
def State.wake (s : State) (cause : Nat) : State :=
  if s.power.st == 1 then
    let s := s.wakeNightLinks
    let up (n : Nat) (c : Chan) : Chan := if s.power.nightStep == 7 && c.st == 6 && s.power.nightChans.testBit n then { c with st := 4 } else c
    let s := { s with cellar := { s.cellar with chans := s.cellar.chans.map up } }
    ({ s with power := { s.power with st := 0, nightStep := 0, nightChans := 0 } }).setReg Obj.powerCmdResult 0x04
  else if s.power.st == 2 then
    { s with power := { s.power with st := 3, wakeCause := cause } }
  else s

/-- A source fires: it wakes the device when its bit of WAKE_EN is set (R491). -/
def State.wakeSource (s : State) (bit cause : Nat) : State :=
  if (s.reg Obj.wakeEn).testBit bit then s.wake cause else s

end Sys2Proof.Machine
end

