-- ==== Sys2Proof/Machine/SecOps.lean ====
section
/-! DEFINITION. Operations on keys, certificates and the DRBG (chapter 12) that links, sessions, guests and the Cellar share. -/

namespace Sys2Proof.Machine

open Sys2Proof

/-- The DRBG answers requests: it is seeded, healthy and not zeroed (R391, R413). -/
def State.drbgOk (s : State) : Bool := !s.sec.entropyBad && !s.sec.drbgZeroed

/-- One generate request for n bytes (R391). -/
def State.draw (s : State) (n : Nat) : Bytes × State :=
  ((upto n).map (fun i => Config.drbg (s.sec.drawn + i)),
   { s with sec := { s.sec with drawn := s.sec.drawn + n, drbgReqs := s.sec.drbgReqs + 1 } })

/-- Trust anchor n (1 to 8): anchor 1 is fused, the others are objects (R405). -/
def State.anchor (s : State) (n : Nat) : Bytes := if n == 1 then Config.anchor1 else s.blob (Obj.trustAnchor (n - 1))

/-- Anchors whose entry is this hash and enabled (not all zeros). -/
def State.anchorsOf (s : State) (hash : Bytes) : List Nat :=
  [1, 2, 3, 4, 5, 6, 7, 8].filter fun n => s.anchor n == hash && s.anchor n != zeroBytes 48

/-- The hash is listed in DENY_LIST. -/
def State.denied (s : State) (hash : Bytes) : Bool :=
  (upto 64).any fun i => sliceBytes (s.blob Obj.denyList) (48 * i) 48 == hash

/-- Each certificate verifies under the next one's key, the last under its issuer's. -/
def sigsOk : List Bytes → Bool
  | [] => true
  | [c] => Config.certSigOk c (Config.certIssuerKey c)
  | c :: d :: r => Config.certSigOk c (Config.certKey d) && sigsOk (d :: r)

/-- Hash of the last issuer's public key of a chain. -/
def issuerHash (certs : List Bytes) : Bytes :=
  match certs.getLast? with
  | some c => Config.sha384 (Config.certIssuerKey c)
  | none => []

/-- The chain is accepted (R405), with an anchor among those allowed. -/
def State.chainOk (s : State) (chain : Bytes) (allowed : Nat → Bool) : Bool :=
  let cs := Config.chainCerts chain
  !cs.isEmpty && decide (cs.length ≤ 4) && cs.all (fun c => decide (c.length ≤ 2048)) && sigsOk cs &&
    (s.anchorsOf (issuerHash cs)).any allowed && cs.all (fun c => !s.denied (Config.sha384 c))

/-- Trust anchors 2 to 8 as they are now. -/
def State.trustNow (s : State) : List Bytes := (upto 7).map fun i => s.blob (Obj.trustAnchor (i + 1))

/-- The state as a key exchange that began under other anchors and another deny list sees it (R405). -/
def State.withTrust (s : State) (anchors : List Bytes) (deny : Bytes) : State :=
  (anchors.zipIdx.foldl (fun (s : State) x => s.setBlob (Obj.trustAnchor (x.2 + 1)) x.1) s).setBlob Obj.denyList deny

/-- The chain ends in the Koeraique device CA of anchor 1 (R297). -/
def chainTH (chain : Bytes) : Bool :=
  let cs := Config.chainCerts chain
  match cs.getLast? with
  | some c => Config.certByDeviceCa c && issuerHash cs == Config.anchor1
  | none => false

/-- Public key of a chain's leaf. -/
def leafKey (chain : Bytes) : Bytes :=
  match Config.chainCerts chain with
  | c :: _ => Config.certKey c
  | [] => []

/-- The device's certificate chain, leaf first. -/
def ownChain : Bytes := Config.deviceCert ++ Config.deviceCaCert

/-- HKDF output of 72 bytes (R260, R472). -/
def hkdf72 (ikm salt : Bytes) (info : String) : Bytes := (upto 72).map fun i => Config.hkdf384 ikm salt (strBytes info) i

/-- XOR of a byte string with a GCM keystream. -/
def gcmXor (key iv bs : Bytes) : Bytes := bs.zipIdx.map fun x => x.1 ^^^ Config.gcmStream key iv x.2

/-- Words W0 and W1 of a key record, its AAD (R395). -/
def keyAad (epoch gid kstate : Nat) : Bytes := leBytes 8 epoch ++ leBytes 8 (gid * 2 ^ 32 + kstate)

/-- IV of a key record (R395). -/
def keyIv (epoch gid : Nat) : Bytes := beBytes 4 gid ++ beBytes 8 epoch

/-- A 64-byte key wrapped for a guest under KWRAP at an epoch (R395). -/
def wrapKey (kwrap : Bytes) (epoch gid : Nat) (key : Bytes) : KeyRec :=
  let ct := gcmXor kwrap (keyIv epoch gid) key
  { kstate := 1, epoch := epoch, ct := ct, tag := Config.gcmTag kwrap (keyIv epoch gid) (keyAad epoch gid 1) ct }

/-- The key a record holds, where its tag verifies under KWRAP (R396). -/
def unwrapKey (kwrap : Option Bytes) (gid : Nat) (r : KeyRec) : Option Bytes :=
  match kwrap with
  | none => none
  | some k =>
    if r.kstate == 1 && Config.gcmTag k (keyIv r.epoch gid) (keyAad r.epoch gid 1) r.ct == r.tag
    then some (gcmXor k (keyIv r.epoch gid) r.ct) else none

/-- A guest data key is drawn, wrapped at the next epoch and recorded; PENDING while the DRBG is stopped (R392, R395). -/
def State.makeKey (s : State) (gid : Nat) : KeyRec × State :=
  if s.drbgOk then
    match s.sec.kwrap with
    | some k =>
      let (key, s) := s.draw 64
      (wrapKey k (s.sec.epoch + 1) gid key, ({ s with sec := { s.sec with epoch := s.sec.epoch + 1 } }).countIk 0x1014 0)
    | none => ({ kstate := 2 }, s)
  else ({ kstate := 2 }, s)

/-- Guests whose key is PENDING receive one, where firmware runs and the DRBG answers (R392, R436). -/
def State.makePending (s : State) : State :=
  if !s.served || !s.drbgOk || s.sec.kwrap.isNone then s else
  (s.pool.guests.rows.filter fun r => r.2.key.kstate == 2).foldl (fun (s : State) r =>
    let (k, s) := s.makeKey r.1
    { s with pool := { s.pool with guests := s.pool.guests.upd r.1 fun g => { g with key := k } } }) s

/-- Every Cellar key cache purges a guest, and fetches of its key install nothing (R397). -/
def State.purgeKey (s : State) (gid : Nat) : State :=
  let s := (upto 24).foldl (fun (s : State) d => s.count (dieCL d) 0 0x301A 2) s
  { s with sec := { s.sec with caches := s.sec.caches.map fun _ c => c.filter fun e => e.1 != gid,
                               fetches := s.sec.fetches.filter fun f => f % 2 ^ 20 != gid } }

end Sys2Proof.Machine
end

