-- ==== Sys2Proof/Machine/Links.lean ====
section
/-! DEFINITION. Meanings of the link-layer commands (chapter 08, with R489, R299 to R301). -/

namespace Sys2Proof.Machine

open Sys2Proof

/-! ## Receiving flits -/

/-- Packets that a run of bytes holds whole, and the bytes of the packet in progress. -/
def takePackets : Nat → Bytes → List Packet × Bytes
  | 0, bs => ([], bs)
  | n + 1, bs =>
    if bs.length < 32 then ([], bs) else
    let sz := 32 + 64 * bitsOf (leNat (sliceBytes bs 8 8)) 55 51
    if bs.length < sz then ([], bs) else
    let (ps, r) := takePackets n (bs.drop sz)
    (packetOf (bs.take sz) :: ps, r)

/-- Payload of a verified DATA flit joined to the packet in progress (R246): packets completed, bytes left over. -/
def unpackFlit (inProgress : Bytes) (f : RxFlit) (plain : Bytes) : List Packet × Bytes :=
  if f.ftype != 1 then ([], inProgress) else
  let body := plain.take (if f.pad < 15 then f.pad * 16 else 240)
  let body := if inProgress.isEmpty then (if f.sop < 15 then body.drop (f.sop * 16) else []) else body
  let (ps, r) := takePackets 8 (inProgress ++ body)
  (ps, if f.abt then [] else r)

/-- A packet that reaches a link of an Unused pair is not carried: it is dropped and its credits fall due (R286; assumption 46). -/
def State.refuseUnused (s : State) (l : Nat) (p : Packet) : State :=
  (s.onLink l fun k => { k with rx := { k.rx with due := k.rx.due.set p.vc (k.rx.due.getD p.vc 0 + p.blocks) } }).countLink l 0x2022 4

/-- Packets arrive in the receive pool and take their blocks (R253). -/
def State.arrive (s : State) (l : Nat) (ps : List Packet) : State :=
  ps.foldl (fun s p =>
    if s.pairMode (l % 16) == 0 then s.refuseUnused l p else
    ((s.onLink l fun k => { k with rx := { k.rx with released := k.rx.released ++ [p],
                                                     held := k.rx.held.set p.vc (k.rx.held.getD p.vc 0 + p.blocks) } }).countLink l 0x2021 p.tc).enterQ (qidPool l) p.seq) s

/-- Flits of a verified group are unpacked in order. -/
def State.unpackGroup (s : State) (l g : Nat) (flits : List RxFlit) : State :=
  flits.zipIdx.foldl (fun s x =>
    let k := s.link l
    let (ps, r) := unpackFlit k.rx.partialPkt x.1 (groupCrypt k.rxKey.1 k.rxKey.2 g x.2 x.1.cipher)
    let s := if x.1.ftype == 1 && x.1.abt then s.countLink l 0x2028 0 else s
    (s.setLink l { k with rx := { k.rx with partialPkt := r } }).arrive l ps) s

/-- Tag assembled from its eight AUX words, where all have come. -/
def LinkRx.wholeTag (r : LinkRx) : Option Nat :=
  if [1, 2, 3, 4, 5, 6, 7, 8].all r.tagWords.has then
    some ([1, 2, 3, 4, 5, 6, 7, 8].foldl (fun t w => t + r.tagWords.getD w 0 * 2 ^ (128 - 16 * w)) 0)
  else none

/-- RETRY_REQ for the next expected FSEQ, once for a gap (R249). -/
def State.askReplay (s : State) (l : Nat) : State :=
  let r := (s.link l).rx
  if r.asked then s else
  (s.onLink l fun k => { k with rx := { k.rx with asked := true } }).sendCtrl l (.retryReq (r.taken % 4096))

/-- GROUP_TAG_VERIFY: the oldest unverified group, once whole, releases its bytes, or is discarded and asked for again;
the fourth failure within 1 ms fails the link (R262, R263). -/
def State.verifyGroup (s : State) (l : Nat) : State :=
  let k := s.link l
  let r := k.rx
  match r.wholeTag with
  | none => s
  | some tag =>
    if r.grp.length < 64 then s else
    let flits := r.grp.take 64
    let g := r.verified
    if groupTag k.rxKey.1 k.rxKey.2 g (flits.map fun f => (f.hdr, f.cipher)) == tag then
      (s.setLink l { k with rx := { r with verified := g + 1, grp := r.grp.drop 64, tagWords := {} } }).unpackGroup l g flits
    else
      let fails := (s.now :: r.tagFails).filter fun t => decide (s.now < t + 1000000)
      let s := (s.setLink l { k with rx := { r with taken := 64 * g, grp := [], tagWords := {}, tagFails := fails, asked := true } }).countLink l 0x2018 0
      let s := s.sendCtrl l (.retryReq (64 * g % 4096))
      if 4 ≤ fails.length then (s.linkDown l 10 0x05).irqEdge (0x040 + l) else s

/-- A tag word rides in the AUX of flits 1 to 8 of the group after the one it covers (R261). -/
def State.takeAux (s : State) (l n aux : Nat) : State :=
  let q := n % 64
  if 1 ≤ q && q ≤ 8 then
    s.onLink l fun k => if n / 64 == k.rx.verified + 1 then { k with rx := { k.rx with tagWords := k.rx.tagWords.put q aux } } else k
  else s

/-- Header fields of a sequenced flit that is not bad, number n of the link (R249, R256). -/
def State.applyFlit (s : State) (l n : Nat) (f : Flit) : State :=
  let s := if f.fseq % 64 == 0 && (s.link l).audit then s.applyAudit l (bitsOf f.fseq 8 6) f.aux else s
  let s := s.applyHdr l { ack := f.ack, pause := f.pause, cretTc := f.cretTc, cretDl := f.cretDl, cretN := f.cretN }
  s.takeAux l n f.aux

/-! ## Lanes -/

/-- Lanes set in a map. -/
def laneCount (m : Nat) : Nat := ((upto 9).filter fun i => m.testBit i).length

/-- Physical lanes that carry the data of a direction, in the order of their logical lanes (R241, R243). -/
def carriers (lanes : Nat) (spareFor : Option Nat) : List Nat :=
  (upto 8).filterMap fun i => if lanes.testBit i then some i else if spareFor == some i && lanes.testBit 8 then some 8 else none

/-- Lane map of LANE_MAP in one byte: bit n set where a lane still carries logical lane n (Table 8.4; assumption 43). -/
def laneByte (lanes : Nat) (spareFor : Option Nat) : Nat :=
  (upto 8).foldl (fun m i => if lanes.testBit i || (spareFor == some i && lanes.testBit 8) then setBit m i else m) 0

/-- Receive lanes that carry data, or will when a LANE_MAP sent is acknowledged. -/
def Link.lanesNext (k : Link) : Nat := match k.mapSent with | some x => x.2 | none => k.lanes

/-- The spare can take a failing data lane. -/
def Link.spareFree (k : Link) : Bool := !k.spareBad && !k.lanesNext.testBit 8

/-- Receive lanes after a data lane failed: a usable spare takes its place, else it is left out (R243, R244). -/
def Link.remap (k : Link) (lane : Nat) : Nat :=
  if k.spareFree then setBit (clearBit k.lanesNext lane) 8 else clearBit k.lanesNext lane

/-- A data lane of the receive direction fails: it is replaced by a usable spare, or the direction goes NARROW, or the link goes down
(R243, R244). The other direction goes on. -/
def State.laneFail (s : State) (l lane : Nat) : State :=
  let k := s.link l
  if decide (4 ≤ k.st) && decide (k.st ≤ 7) && k.lanesNext.testBit lane then
    if k.rxNarrow || (!k.spareFree && !k.narrowOk) then s.linkDown l 9 0x03
    else
      let sf := if k.spareFree then some lane else if lane == 8 then none else k.spareFor
      let s := s.setLink l { k with st := 6, narrow := k.narrow || !k.spareFree, rxNarrow := !k.spareFree, spareFor := sf,
                                    mapSent := some (lane, k.remap lane), rx := { k.rx with closed := true } }
      s.sendCtrl l (.laneMap lane (laneByte (k.remap lane) sf))
  else s

/-- LANE_FAILING (R243, R244): a data lane loses lock, or its corrected symbols pass LANE_SER_LIMIT. -/
def execLaneFailing (link : Fin 32) (lane : Fin 9) (s : State) : Host.Outcome State Fault Refusal :=
  live s fun s => s.laneFail link lane

/-- SPARE_UNUSABLE (R243): the idle spare fails its PRBS31 check. -/
def execSpareUnusable (link : Fin 32) (s : State) : Host.Outcome State Fault Refusal :=
  live s fun s =>
    let k := s.link link
    if k.established && !k.lanes.testBit 8 && !k.spareBad then (s.setLink link { k with spareBad := true }).countLink link 0x2017 1 else s

/-! ## Forward error correction (R241, R243) -/

/-- More than 15 symbols of a codeword were received in error. -/
def uncorrectable (w : List (Fin 544)) : Bool := decide (15 < w.length)

/-- Lanes of the symbols that were corrected in a codeword, once it ends; symbols are dealt round robin over the lanes in use. -/
def Link.fixedLanes (k : Link) (word : List (Fin 544)) (ends : Bool) : List Nat :=
  let c := carriers k.lanes k.spareFor
  if ends && !uncorrectable word then word.filterMap fun i => (c.drop (i.val % c.length)).head? else []

/-- Corrected symbols are counted per lane and remembered for 1 ms. -/
def State.countFixed (s : State) (l : Nat) (lanes : List Nat) : State :=
  let now := s.now
  let s := lanes.foldl (fun (s : State) n => s.countLink l 0x2016 n) s
  s.onLink l fun k =>
    { k with rx := { k.rx with fixed := (k.rx.fixed.filter fun x => decide (now < x.2 + 1000000)) ++ lanes.map fun n => (n, now) } }

/-- A data lane whose corrected symbols of the last 1 ms exceed LANE_SER_LIMIT is failing. -/
def State.serCheck (s : State) (l : Nat) : State :=
  (upto 9).foldl (fun (s : State) n =>
    if s.reg Obj.laneSerLimit < ((s.link l).rx.fixed.filter fun x => x.1 == n).length then
      (s.onLink l fun k => { k with rx := { k.rx with fixed := k.rx.fixed.filter fun x => x.1 != n } }).laneFail l n
    else s) s

/-! ## CTRL messages of a running link -/

/-- A CTRL flit arrives: its header fields are applied, then its message, on a link that is in service. -/
def State.ctrlIn (s : State) (l : Nat) (h : CtrlHdr) (f : State → State) : State :=
  if (s.link l).established then f ((s.countLink l 0x2011 3).applyHdr l h) else s

/-- Number of an unacknowledged flit by its FSEQ. -/
def LinkTx.unacked (t : LinkTx) (fseq : Nat) : Option Nat :=
  let n := t.acked + wrapSub 12 fseq t.acked
  if n < t.formed then some n else none

/-- The transmitter goes on after a lane move (Table 8.2, step 5). -/
def Link.moved (k : Link) : Link :=
  if k.tx.moving then { k with tx := { k.tx with moving := false }, st := if k.st == 6 && !k.rx.closed then k.resumeState else k.st } else k

/-- RETRY_REQ (R250): the sender resends from the named flit, unless a replay that started at or before it runs. -/
def State.takeRetry (s : State) (l fseq : Nat) : State :=
  let s := s.onLink l Link.moved
  let t := (s.link l).tx
  match t.unacked fseq with
  | none => s
  | some n => if t.replay.isSome && decide (t.replayFrom ≤ n) then s else s.startReplay l n 1

/-- RETRY_REQ. -/
def execRetryReq (link : Fin 32) (h : CtrlHdr) (fseq : Nat) (s : State) : Host.Outcome State Fault Refusal :=
  live s fun s => s.ctrlIn link h fun s => s.takeRetry link fseq

/-- NULL (R248): a CTRL flit that carries ACK, PAUSE and credits. -/
def execNull (link : Fin 32) (h : CtrlHdr) (s : State) : Host.Outcome State Fault Refusal :=
  live s fun s => s.ctrlIn link h id

/-- REPLAY_TIMEOUT (R250): the replay timer, running while a flit is unacknowledged, reaches its limit. An ACK that advances in the cycle
wins, and a replay that a RETRY_REQ started in the cycle is the one replay, from the lower flit. -/
def execReplayTimeout (link : Fin 32) (s : State) : Host.Outcome State Fault Refusal :=
  live s fun s =>
    let k := s.link link
    if !k.established || decide (k.tx.formed ≤ k.tx.acked) || k.tx.ackAt == some s.now then s
    else if k.tx.replayAt == some s.now then
      s.setLink link { k with tx := { k.tx with replay := some k.tx.acked, replayFrom := k.tx.acked } }
    else s.startReplay link k.tx.acked 2

/-- Physical lanes of the transmitter after a LANE_MAP: the failing lane's data goes onto the spare where its logical lane is still
carried, else the lane is left out (R243, R244). -/
def remapTx (lanes lane map : Nat) : Nat :=
  if lane < 8 && map.testBit lane then setBit (clearBit lanes lane) 8 else clearBit lanes lane

/-- LANE_MAP (R243): the transmitter stops, answers and moves to the new lanes; on seven lanes its direction is NARROW (R244). -/
def State.takeLaneMap (s : State) (l lane map : Nat) : State :=
  let s := s.sendCtrl l (.laneMapAck lane map)
  s.onLink l fun k =>
    let m := remapTx k.txLanes lane map
    if m == k.txLanes then k
    else { k with txLanes := m, narrow := k.narrow || decide (laneCount map < 8), tx := { k.tx with moving := true },
                  st := if k.st == 4 || k.st == 5 || k.st == 7 then 6 else k.st }

/-- LANE_MAP. -/
def execLaneMap (link : Fin 32) (h : CtrlHdr) (lane : Nat) (map : Nat) (s : State) : Host.Outcome State Fault Refusal :=
  live s fun s => s.ctrlIn link h fun s => s.takeLaneMap link lane map

/-- LANE_MAP_ACK (R243): the receiver deskews the new lane set. -/
def State.takeLaneMapAck (s : State) (l lane map : Nat) : State :=
  s.onLink l fun k =>
    match k.mapSent with
    | some (n, m) => if n == lane && laneByte m k.spareFor == map then { k with mapSent := none, lanes := m } else k
    | none => k

/-- LANE_MAP_ACK. -/
def execLaneMapAck (link : Fin 32) (h : CtrlHdr) (lane : Nat) (map : Nat) (s : State) : Host.Outcome State Fault Refusal :=
  live s fun s => s.ctrlIn link h fun s => s.takeLaneMapAck link lane map

/-- LANE_MAP_RESEND (R243): an unacknowledged LANE_MAP is repeated. -/
def execLaneMapResend (link : Fin 32) (s : State) : Host.Outcome State Fault Refusal :=
  live s fun s =>
    match (s.link link).mapSent with
    | some (lane, m) => s.sendCtrl link (.laneMap lane (laneByte m (s.link link).spareFor))
    | none => s

/-- LANE_SPARING_DONE (R243 step 5, R244): flits resume and replay recovers what was lost; at the transmitter's end, it goes on. -/
def execLaneSparingDone (link : Fin 32) (s : State) : Host.Outcome State Fault Refusal :=
  live s fun s =>
    let k := s.link link
    if k.st == 6 && k.rx.closed && k.mapSent.isNone then
      let s := (s.setLink link { k with st := if k.tx.moving then 6 else k.resumeState,
                                        rx := { k.rx with closed := false, asked := true } }).countLink link 0x2017 (if k.rxNarrow then 2 else 0)
      s.sendCtrl link (.retryReq (k.rx.taken % 4096))
    else s.onLink link Link.moved

/-! ## Credits -/

/-- The sender's window: 8,192 less the credits that quiet VCs have spent (R257). -/
def LinkTx.window (t : LinkTx) : Nat := 8192 - ((upto 8).foldl (fun n v => if t.quiet.getD v false then n + t.used.getD v 0 else n) 0)

/-- CREDIT_QUIET_EXPIRY (R257): a VC is quiet; with audit off, a window below the floor starts a credit sync. -/
def execCreditQuietExpiry (link : Fin 32) (vc : Fin 8) (s : State) : Host.Outcome State Fault Refusal :=
  live s fun s =>
    if (s.link link).established then
      let s := s.onLink link fun k => { k with tx := { k.tx with quiet := k.tx.quiet.set vc true } }
      if !(s.link link).audit && decide ((s.link link).tx.window < s.reg Obj.creditRetrainFloor) then s.syncStart link else s
    else s

/-- No flit that carries packet bytes is unacknowledged: the IDLE flits that carry the last group's tag stay so until the next group
verifies (R258 step 2; assumption 45). -/
def LinkTx.settled (t : LinkTx) : Bool := t.line.isEmpty && (t.acked == t.formed || t.buf.all fun x => x.ftype == 0)

/-- CREDIT_SYNC_REQUEST (R258 step 2): what was sent is acknowledged and the request is sent. -/
def execCreditSyncRequest (link : Fin 32) (s : State) : Host.Outcome State Fault Refusal :=
  live s fun s =>
    let k := s.link link
    if (k.st == 6 || k.st == 7) && k.tx.sync == 1 && k.tx.settled then
      (s.setLink link { k with tx := { k.tx with sync := 2 } }).sendCtrl link .creditSyncReq
    else s

/-- CREDIT_SYNC_REQ (R258 step 3): due credits are dropped, the blocks each VC holds are reported, audit counts restart. -/
def State.takeSyncReq (s : State) (l : Nat) : State :=
  let s := s.onLink l fun k => { k with rx := { k.rx with due := List.replicate 8 0, attached := List.replicate 8 0 } }
  s.sendCtrl l (.creditSyncRsp (s.link l).rx.held)

/-- CREDIT_SYNC_REQ. -/
def execCreditSyncReq (link : Fin 32) (h : CtrlHdr) (s : State) : Host.Outcome State Fault Refusal :=
  live s fun s => s.ctrlIn link h fun s => s.takeSyncReq link

/-- CREDIT_SYNC_RSP (R258 step 4): the sender takes the blocks reported as its spent credits and resumes. -/
def State.takeSyncRsp (s : State) (l : Nat) (blocks : List Nat) : State :=
  s.onLink l fun k => if (k.st == 6 || k.st == 7) && k.tx.sync == 2 then
    { k with st := if k.st == 6 then 6 else k.upState,
             tx := { k.tx with used := (upto 8).map fun v => blocks.getD v 0, got := List.replicate 8 0,
                               quiet := List.replicate 8 false, sync := 0, syncTries := 0 } }
    else k

/-- CREDIT_SYNC_RSP. -/
def execCreditSyncRsp (link : Fin 32) (h : CtrlHdr) (blocks : List Nat) (s : State) : Host.Outcome State Fault Refusal :=
  live s fun s => s.ctrlIn link h fun s => s.takeSyncRsp link blocks

/-- CREDIT_SYNC_TIMEOUT (R258): the request is repeated, and after three failed requests the link goes down. -/
def execCreditSyncTimeout (link : Fin 32) (s : State) : Host.Outcome State Fault Refusal :=
  live s fun s =>
    let k := s.link link
    if (k.st == 6 || k.st == 7) && k.tx.sync == 2 then
      if 3 ≤ k.tx.syncTries + 1 then s.linkDown link 9 0x04
      else (s.setLink link { k with tx := { k.tx with syncTries := k.tx.syncTries + 1 } }).sendCtrl link .creditSyncReq
    else s

/-! ## Down, standby and wake -/

/-- The RETRAIN of a link, if one runs, ends done (R274). -/
def State.retrainEnd (s : State) (l : Nat) : State :=
  if (s.link l).retrainCmd then (s.onLink l fun k => { k with retrainCmd := false }).setReg Obj.linkCmdResult 0x00 else s

/-- LINK_DOWN (R266): the peer's LINK_DOWN takes the link DOWN. -/
def execLinkDown (link : Fin 32) (h : CtrlHdr) (_cause : Nat) (s : State) : Host.Outcome State Fault Refusal :=
  live s fun s => if (s.link link).established then (s.applyHdr link h).linkDown link 9 0x06 else s

/-- LINK_DEAD_TIMEOUT (R266): no good flit for the limit. -/
def execLinkDeadTimeout (link : Fin 32) (s : State) : Host.Outcome State Fault Refusal :=
  live s fun s => if (s.link link).established && (s.link link).st != 8 then s.linkDown link 9 0x01 else s

/-- A packet waits to be sent on the link. -/
def State.linkBusy (s : State) (l : Nat) : Bool := (s.fabric.egress.any fun e => e.link == l) || !(s.link l).tx.line.isEmpty

/-- Sequenced flits through flit 8 of the next group, so that every byte sent is verified (R262). -/
def State.closeGroup (s : State) (l : Nat) : State :=
  let n := (s.link l).tx.formed
  s.formIdle l ((64 - n % 64) % 64 + 9)

/-- STANDBY_REQ (R489): a device with nothing to send agrees and both ends stop. -/
def State.takeStandbyReq (s : State) (l : Nat) : State :=
  if s.linkUp l && !s.linkBusy l then ((s.closeGroup l).sendCtrl l .standbyAck).onLink l fun k => { k with st := 8 } else s

/-- STANDBY_REQ. -/
def execStandbyReq (link : Fin 32) (h : CtrlHdr) (s : State) : Host.Outcome State Fault Refusal :=
  live s fun s => s.ctrlIn link h fun s => s.takeStandbyReq link

/-- STANDBY_ACK (R489): the link enters STANDBY unless a packet is ready to send. -/
def State.takeStandbyAck (s : State) (l : Nat) : State :=
  if (s.link l).standbyAsked then
    if s.linkBusy l then s.onLink l fun k => { k with standbyAsked := false }
    else
      let s := s.onLink l fun k => { k with st := 8, standbyAsked := false }
      if s.power.st == 1 then { s with power := { s.power with nightLinks := setBit s.power.nightLinks l } } else s
  else s

/-- STANDBY_ACK. -/
def execStandbyAck (link : Fin 32) (h : CtrlHdr) (s : State) : Host.Outcome State Fault Refusal :=
  live s fun s => s.ctrlIn link h fun s => s.takeStandbyAck link

/-- STANDBY_ACK_TIMEOUT (R489): the link stays ACTIVE; in Night entry it stops and takes no part in link-activity wake (R492). -/
def execStandbyAckTimeout (link : Fin 32) (s : State) : Host.Outcome State Fault Refusal :=
  live s fun s =>
    if (s.link link).standbyAsked then
      let s := s.onLink link fun k => { k with standbyAsked := false }
      if s.power.st == 1 then { s with power := { s.power with deafLinks := setBit s.power.deafLinks link } } else s
    else s

/-- The device asks its peer to enter STANDBY (R489 steps 1 and 2). -/
def State.askStandby (s : State) (l : Nat) : State :=
  ((s.closeGroup l).sendCtrl l .standbyReq).onLink l fun k => { k with standbyAsked := true }

/-- LINK_STANDBY_IDLE_EXPIRY (R489): no DATA flit has passed for LINK_STANDBY_IDLE. -/
def execLinkStandbyIdleExpiry (link : Fin 32) (s : State) : Host.Outcome State Fault Refusal :=
  live s fun s => if s.reg Obj.linkStandbyIdle != 0 && s.linkUp link && !s.linkBusy link then s.askStandby link else s

/-- LINK_WAKE (R489, R491): a packet to send or peer activity wakes a STANDBY link; in Night, activity on a link that
may wake the device does. -/
def execLinkWake (link : Fin 32) (s : State) : Host.Outcome State Fault Refusal :=
  awake s fun s =>
    if s.power.st == 2 then
      if (s.link link).st == 8 && (s.reg Obj.wakeLinkMask).testBit link && !s.power.deafLinks.testBit link
      then s.wakeSource 0 (0x01 + link * 4) else s
    else s.wakeLink link

/-! ## A flit arrives -/

/-- What makes an arriving flit bad, by the Sel of FLITS_BAD: 1 CRC, 2 FEC uncorrectable, 3 FIFO full (R241, R245, R251). -/
def flitBad (f : Flit) (word next : List (Fin 544)) (fifo : Nat) : Option Nat :=
  if uncorrectable word || uncorrectable next then some 2 else if f.crc != flitCrc f then some 1
  else if f.ftype == 1 && decide (128 ≤ fifo) then some 3 else none

/-- A message that came as a CTRL flit has its effect. -/
def State.takeCtrl (s : State) (l : Nat) (m : CtrlMsg) : State :=
  match m with
  | .retryReq f => s.takeRetry l f
  | .laneMap a b => s.takeLaneMap l a b
  | .laneMapAck a b => s.takeLaneMapAck l a b
  | .creditSyncReq => s.takeSyncReq l
  | .creditSyncRsp b => s.takeSyncRsp l b
  | .linkDown _ => s.linkDown l 9 0x06
  | .standbyReq => s.takeStandbyReq l
  | .standbyAck => s.takeStandbyAck l
  | .null | .hello _ _ _ | .cert _ | .share _ _ | .finished _ => s

/-- Header fields of a flit that every type carries. -/
def Flit.ctrlHdr (f : Flit) : CtrlHdr := { ack := f.ack, pause := f.pause, cretTc := f.cretTc, cretDl := f.cretDl, cretN := f.cretN }

/-- A sequenced flit that is not bad (R249). -/
def State.takeSeqFlit (s : State) (l : Nat) (f : Flit) : State :=
  let k := s.link l
  let d := wrapSub 12 f.fseq (k.rx.taken % 4096)
  if d == 0 then
    let x : RxFlit := { hdr := hdr14 f.ftype f.sop f.pad f.abt f.abtVc, ftype := f.ftype, sop := f.sop, pad := f.pad,
                        abt := f.abt, abtVc := f.abtVc, cipher := padBytes 240 f.payload }
    let s := s.onLink l fun k => { k with rx := { k.rx with taken := k.rx.taken + 1, asked := false, grp := k.rx.grp ++ [x] } }
    (s.applyFlit l k.rx.taken f).verifyGroup l
  else if d ≤ 2047 then s.applyFlit l (k.rx.taken + d) f
  else (s.countLink l 0x2013 0).applyFlit l (k.rx.taken + d - 4096) f

/-- A flit arrives at a link that exchanges flits: a bad one is ignored whole; a DATA flit enters the flit FIFO; FSEQ is ignored in a CTRL
flit (R246, R249, R251). -/
def State.recvFlit (s : State) (l : Nat) (f : Flit) (word next : List (Fin 544)) : State :=
  let s := s.countLink l 0x2011 (if f.ftype == 1 then 2 else if f.ftype == 0 then 1 else 3)
  let s := s.onLink l fun k => { k with rx := k.rx.drained l }
  match flitBad f word next (s.link l).rx.fifo with
  | some sel => (s.countLink l 0x2012 sel).askReplay l
  | none =>
    if 2 ≤ f.ftype then
      let s := s.applyHdr l (Flit.ctrlHdr f)
      match (if f.ftype == 2 then ctrlOf f.payload else none) with
      | some m => s.takeCtrl l m
      | none => s
    else
      let s := if f.ftype == 1 then s.onLink l fun k => { k with rx := k.rx.filled (k.rx.fifo + 1) } else s
      s.takeSeqFlit l f

/-- The link takes flits in its receive direction: all of them, or only CTRL flits while that direction is paused (Table 8.2, step 1). -/
def Link.receives (k : Link) (f : Flit) : Bool :=
  (k.st == 4 || k.st == 5 || k.st == 6 || k.st == 7) && (!k.rx.closed || f.ftype == 2)

/-- FLIT_RECEIVE (R241, R243, R249, R251): a flit arrives in one or two codewords; what the code corrected is counted by lane once a codeword
ends, and a lane that passes its limit is failing. -/
def execFlitReceive (link : Fin 32) (f : Flit) (word : List (Fin 544)) (ends : Bool) (next : List (Fin 544)) (s : State) :
    Host.Outcome State Fault Refusal :=
  live s fun s =>
    let s := s.countFixed link ((s.link link).fixedLanes word ends)
    (if (s.link link).receives f then s.recvFlit link f word next else s).serCheck link

/-! ## Key exchange -/

/-- Bytes of a key-exchange message in the transcript: its code and contents. -/
def keyxBytes (m : CtrlMsg) : Bytes := leBytes 1 (ctrlBody m).1 ++ (ctrlBody m).2

/-- The transcript that both ends hold: message by message, side A's before side B's, as far as both have sent (R259; assumption 44). -/
def transcript (sideA : Bool) (mine peer : List Bytes) : Bytes :=
  ((if sideA then mine.zip peer else peer.zip mine).map fun x => x.1 ++ x.2).flatten

/-- The transcript of a link's exchange so far. -/
def Link.transcript (k : Link) : Bytes := Machine.transcript k.sideA k.kx.mine k.kx.peer

/-- This end is side A of R260: its certificate has the lower SHA-384 hash. -/
def lowerCert (leaf : Bytes) : Bool := decide (beNat (Config.sha384 Config.deviceCert) < beNat (Config.sha384 leaf))

/-- Leaf certificate of a chain. -/
def leafOfChain (chain : Bytes) : Bytes := (Config.chainCerts chain).headD []

/-- This end's next key-exchange message is sent and enters the transcript. -/
def State.keyxSend (s : State) (l step : Nat) (m : CtrlMsg) : State :=
  (s.onLink l fun k => { k with kx := { k.kx with step := step, tries := 0, latest := some m, mine := k.kx.mine ++ [keyxBytes m] } }).sendCtrl l m

/-- A peer's message enters the transcript. -/
def State.keyxTake (s : State) (l : Nat) (m : CtrlMsg) : State :=
  s.onLink l fun k => { k with kx := { k.kx with peer := k.kx.peer ++ [keyxBytes m] } }

/-- A failed exchange puts the link in FAILED with cause AUTH (R259). -/
def State.keyxFail (s : State) (l : Nat) : State := (s.linkDown l 10 0x05).retrainEnd l

/-- The identity key can sign: firmware serves and the key is not zeroed (R429, R411, R436). -/
def State.canSign (s : State) : Bool := s.served && !s.sec.noIdentity

/-- HELLO (R259 step 1): the peer's audit and NARROW support are taken and the chain is sent. -/
def execHello (link : Fin 32) (version : Nat) (audit : Bool) (narrow : Bool) (s : State) : Host.Outcome State Fault Refusal :=
  live s fun s =>
    if (s.link link).st == 3 && (s.link link).kx.step == 1 then
      let s := s.keyxTake link (.hello version audit narrow)
      let s := s.onLink link fun k => { k with kx := { k.kx with peerAudit := audit, peerNarrow := narrow } }
      s.keyxSend link 2 (.cert ownChain)
    else s

/-- CERT (R259 step 2): the peer's chain is checked under R405; this end's share, signed, is sent. -/
def execCert (link : Fin 32) (chain : Bytes) (s : State) : Host.Outcome State Fault Refusal :=
  live s fun s =>
    if (s.link link).st == 3 && (s.link link).kx.step == 2 then
      let x := (s.link link).kx
      if !(s.withTrust x.anchors x.deny).chainOk chain (fun _ => true) || s.sec.noIdentity then s.keyxFail link
      else if !s.canSign then s
      else
        let s := s.keyxTake link (.cert chain)
        let n := s.sec.drawn
        let s := (s.draw 48).2.onLink link fun k => { k with sideA := lowerCert (leafOfChain chain), kx := { k.kx with peerChain := chain, eph := n } }
        let sig := Config.ecdsaSign (Config.sha384 (s.link link).transcript)
        s.keyxSend link 3 (.share (Config.ephemeralPub n) sig)
    else s

/-- SHARE (R259 step 3): the peer's signature over the transcript of HELLO and CERT is checked; keys are derived and FINISHED, the HMAC
over the transcript with both shares, is sent (R260). -/
def execShare (link : Fin 32) (pub : Bytes) (sig : Bytes) (s : State) : Host.Outcome State Fault Refusal :=
  live s fun s =>
    let k := s.link link
    if k.st == 3 && k.kx.step == 3 then
      if Config.ecdsaVerify (leafKey k.kx.peerChain) (Config.sha384 k.transcript) sig then
        let s := s.keyxTake link (.share pub sig)
        let t := (s.link link).transcript
        let keys := hkdf72 (Config.ecdhSecret k.kx.eph pub) (Config.sha384 t) "TRH link v1"
        let s := s.onLink link fun k =>
          { k with keys := keys, peerHash := Config.sha384 (leafOfChain k.kx.peerChain), peerTH := chainTH k.kx.peerChain,
                   kx := { k.kx with peerPub := pub } }
        s.keyxSend link 4 (.finished (Config.hmac384 keys t))
      else s.keyxFail link
    else s

/-- FINISHED (R259 step 4, R265): the peer's HMAC is checked; the link becomes ACTIVE with every counter fresh, and
routes name it again (R300). -/
def execFinished (link : Fin 32) (mac : Bytes) (s : State) : Host.Outcome State Fault Refusal :=
  live s fun s =>
    let k := s.link link
    if k.st == 3 && k.kx.step == 4 then
      if mac == Config.hmac384 k.keys k.transcript then
        let s := s.setLink link { k with st := 4, narrow := false, rxNarrow := false, audit := k.auditEn && k.kx.peerAudit, kx := {}, tx := {},
                                         rx := {} }
        { s with fabric := { s.fabric with carried := clearBit s.fabric.carried link } }.retrainEnd link
      else s.keyxFail link
    else s

/-- KEYX_RETRANSMIT (R259): a message unanswered for 1 ms is sent again, up to three times. -/
def execKeyxRetransmit (link : Fin 32) (s : State) : Host.Outcome State Fault Refusal :=
  live s fun s =>
    let k := s.link link
    if k.st == 3 && decide (k.kx.tries < 3) then
      match k.kx.latest with
      | some m => (s.setLink link { k with kx := { k.kx with tries := k.kx.tries + 1 } }).sendCtrl link m
      | none => s
    else s

/-- KEYX_TIMEOUT (R259): the exchange exceeds 5 ms. -/
def execKeyxTimeout (link : Fin 32) (s : State) : Host.Outcome State Fault Refusal :=
  live s fun s => if (s.link link).st == 3 then s.keyxFail link else s

/-- PEER_DETECTED (R264): DETECT finds its peer. -/
def execPeerDetected (link : Fin 32) (s : State) : Host.Outcome State Fault Refusal :=
  live s fun s => s.onLink link fun k => if k.st == 1 then { k with st := 2 } else k

/-- TRAINING_DONE (R264): lanes adapted and aligned; the key exchange opens with HELLO. -/
def execTrainingDone (link : Fin 32) (s : State) : Host.Outcome State Fault Refusal :=
  live s fun s =>
    let k := s.link link
    if k.st == 2 then (s.setLink link { k with st := 3, kx := { anchors := s.trustNow, deny := s.blob Obj.denyList } }).keyxSend link 1 (.hello 1 k.auditEn k.narrowOk) else s

/-- TRAINING_FAILED (R266): lanes not adapted or aligned within 400 ms. -/
def execTrainingFailed (link : Fin 32) (s : State) : Host.Outcome State Fault Refusal :=
  live s fun s => if (s.link link).st == 2 then (s.linkDown link 10 0x09).retrainEnd link else s

/-- LINK_RETRY (R272): a DOWN or FAILED link restarts from DETECT. -/
def execLinkRetry (link : Fin 32) (s : State) : Host.Outcome State Fault Refusal :=
  live s fun s => if (s.link link).st == 9 || (s.link link).st == 10 then s.toDetect link else s

/-- DETECT_WITHOUT_PEER (R274): a link under RETRAIN spent 400 ms in DETECT. -/
def execDetectWithoutPeer (link : Fin 32) (s : State) : Host.Outcome State Fault Refusal :=
  live s fun s => if (s.link link).st == 1 then s.retrainEnd link else s

/-! ## Die loss, dedup entries, LINK_CMD -/

/-- The second link of a Gatehouse. -/
def secondLink (gh : Nat) : Nat := 16 + (gh + 8) % 16

/-- A retained packet as a queued one, with the tracker that its first copy kept. -/
def State.retainedPkt (s : State) (r : Retained) : EPkt :=
  let first := s.fabric.egress.find? fun e => e.link == r.link && e.own && e.p.dst == r.p.dst && e.p.tc == r.p.tc && e.p.seq == r.p.seq
  { link := r.link, p := r.p, own := true, joined := s.now, epoch := s.fabric.routeEpoch, tracker := (first.map (·.tracker)).getD none }

/-- Retained packets of a lost link are sent again on its partner, in their original order (R301). -/
def State.resendRetained (s : State) (l : Nat) (es : List EPkt) : State :=
  let s := if s.linkUp (partner l) then
      let s := es.foldl (fun (s : State) e => s.handTo l e) s.recovery
      { s with fabric := { s.fabric with carried := setBit s.fabric.carried l, retained := s.movedRetained l } }
    else
      let s := es.foldl (fun (s : State) e => s.dropQueued l 10 e) s
      { s with fabric := { s.fabric with retained := s.fabric.retained.filter fun r => r.link != l } }
  (s.moveStalled l).unstall

/-- The dedup entry of a packet, and the filter entry of a broadcast, forget a packet that was lost before it was acted on, so that a
copy that its source sends again is taken (R5, R270, R301). -/
def State.forgetPkt (s : State) (p : Packet) : State :=
  if p.dst == 0xFFFFF then
    { s with fabric := { s.fabric with bcast := s.fabric.bcast.map fun b => if b.src == p.src && b.seq == p.seq then { b with delivered := false } else b } }
  else { s with fabric := { s.fabric with dedup := s.fabric.dedup.upd (p.src * 4 + p.tc) fun e => { e with map := clearBit e.map (wrapSub 32 e.h p.seq) } } }

/-- What a lost link's pools and queues held goes with it: transit packets give their blocks back to the pools of other
links, and requests that waited for a tracker are lost (R301). -/
def State.loseHeld (s : State) (l : Nat) : State :=
  let gone (e : EPkt) : Bool := e.link == l || e.inLink == some l
  let lost := s.fabric.egress.filter gone
  let claims := s.pool.claims.filter fun c => c.link == l
  let s := { s with fabric := { s.fabric with egress := s.fabric.egress.filter fun e => !gone e },
                    pool := { s.pool with claims := s.pool.claims.filter fun c => c.link != l } }
  let s := claims.foldl (fun (s : State) c => s.forgetPkt c.p) s
  lost.foldl (fun (s : State) e => (s.leavePool e.inLink e.inVc e.p.blocks).discardQ (qidEgress e.gh e.queue) e.p.seq) s

/-- A link of a lost die goes down with it (R266, R301). -/
def State.loseLink (s : State) (l : Nat) : State :=
  let es := (s.fabric.retained.filter fun r => r.link == l).map s.retainedPkt
  let s := (s.loseHeld l).resendRetained l es
  let s := s.onLink l fun k =>
    { k with st := 9, cause := 0x07, narrow := false, rxNarrow := false, keys := [], kx := {}, tx := {}, rx := {}, mapSent := none,
             standbyAsked := false, lanesOk := false }
  (s.irqEdge (0x020 + l)).log 0x10 (linkDie l) (l + 0x07 * 256) es.length

/-- GATEHOUSE_DIE_LOST (R266, R301): both links of the die go down and retained packets go out on the partners. -/
def execGatehouseDieLost (gh : Fin 16) (s : State) : Host.Outcome State Fault Refusal :=
  live s fun s =>
    if s.hasDie (dieGH gh) then
      let s := { s with power := { s.power with present := clearBit s.power.present (dieGH gh) },
                        fabric := { s.fabric with ghLost := setBit s.fabric.ghLost gh, retained := s.fabric.retained.filter fun r => r.gh != gh.val,
                                                  rates := s.fabric.rates.filter fun k _ => (k / 4) % 16 != gh } }
      ((s.loseLink gh).loseLink (secondLink gh)).log 0x12 (dieGH gh) (dieGH gh)
    else s

/-- DEDUP_EXPIRY (R271): a source silent for DEDUP_HOLD frees its entry. -/
def execDedupExpiry (epid : Nat) (tc : Fin 4) (s : State) : Host.Outcome State Fault Refusal :=
  live s fun s => { s with fabric := { s.fabric with dedup := s.fabric.dedup.del (epid * 4 + tc) } }

/-- A LINK_CMD with a valid link number; 0x02 otherwise (Table 8.10). -/
def linkCmd (s : State) (code : Nat) (f : Nat → State → State) : Host.Outcome State Fault Refusal :=
  record s Obj.linkCmdOp Obj.linkCmdResult code fun s =>
    let l := s.reg Obj.linkCmdLink
    if l < 32 then f l s else s.setReg Obj.linkCmdResult 0x02

/-- RETRAIN and DISABLE of a paired link in service are refused while the partner is not up (R274). -/
def State.needsPartner (s : State) (l : Nat) : Bool := s.paired l && (s.link l).established && !s.linkUp (partner l)

/-- RETRAIN (R274): the link goes DOWN unless already down and restarts from DETECT; with LINK_ENABLE = 0 it stays DISABLED there and the
command is done. -/
def execRetrain (s : State) : Host.Outcome State Fault Refusal :=
  linkCmd s 0x01 fun l s =>
    let st := (s.link l).st
    if st == 0 then s.setReg Obj.linkCmdResult 0x04
    else if s.needsPartner l then s.setReg Obj.linkCmdResult 0x03
    else
      let s := if st == 9 || st == 10 then s else s.linkDown l 9 0x08
      let s := s.toDetect l
      if (s.link l).st == 0 then s.setReg Obj.linkCmdResult 0x00
      else (s.onLink l fun k => { k with retrainCmd := true }).setReg Obj.linkCmdResult 0x01

/-- DISABLE (R274): the link becomes DISABLED. -/
def execDisable (s : State) : Host.Outcome State Fault Refusal :=
  linkCmd s 0x02 fun l s =>
    if s.needsPartner l then s.setReg Obj.linkCmdResult 0x03
    else
      let s := if (s.link l).st == 0 then s else s.linkDown l 0 0x08
      s.setReg Obj.linkCmdResult 0x00

/-- ENABLE (R264): a DISABLED link goes to DETECT. -/
def execEnable (s : State) : Host.Outcome State Fault Refusal :=
  linkCmd s 0x03 fun l s =>
    let s := if (s.link l).st == 0 then s.toDetect l else s
    s.setReg Obj.linkCmdResult 0x00

/-- QUERY of LINK_CMD (R273): lanes and the peer certificate hash. -/
def execLinkQuery (s : State) : Host.Outcome State Fault Refusal :=
  linkCmd s 0x04 fun l s =>
    let k := s.link l
    ((s.setReg Obj.linkCmdLanes (k.lanes + (if k.spareBad then 0x8000 else 0))).setBlob Obj.linkCmdPeer (padBytes 16 (k.peerHash.take 16))).setReg Obj.linkCmdResult 0x00

/-- DEDUP_CLEAR (R274): every dedup entry of an EPID frees. -/
def execDedupClear (s : State) : Host.Outcome State Fault Refusal :=
  record s Obj.linkCmdOp Obj.linkCmdResult 0x05 fun s =>
    let e := s.reg Obj.linkCmdEpid % 2 ^ 20
    { s with fabric := { s.fabric with dedup := s.fabric.dedup.filter fun k _ => k / 4 != e } }.setReg Obj.linkCmdResult 0x00

end Sys2Proof.Machine
end

