-- ==== Sys2Proof/Machine/RouteOps.lean ====
section
/-! DEFINITION. Operations of routing, partition keys, congestion and egress queues (chapter 09): the port checks of R283,
the route of R289, packets the device originates, and rate entries. -/

namespace Sys2Proof.Machine

open Sys2Proof

/-! ## Keys and routes -/

/-- Key set of a link (R303). -/
def State.keySet (s : State) (l : Nat) : List Nat := s.fabric.keySets.getD l []

/-- A packet passes the key check of a link (R303). -/
def State.keyOk (s : State) (l : Nat) (p : Packet) : Bool :=
  if p.tc == 3 then p.pkey == 0xFFFF
  else if s.flag (Obj.pkeyAll l) then decide (1 ≤ p.pkey) && decide (p.pkey ≤ 0xFFFE)
  else p.pkey != 0 && p.pkey != 0xFFFF && (s.keySet l).contains p.pkey

/-- DEVICE_EPID in force. -/
def State.epid (s : State) : Nat := s.inForce Obj.deviceEpid % 2 ^ 20

/-- Route entry of a destination: exact, else block, else DROP (R288, R289). -/
def State.routeEntry (s : State) (dst : Nat) : Nat :=
  match s.fabric.exactRoutes.find dst with
  | some e => e
  | none => s.fabric.blockRoutes.getD (dst / 256) 0

/-- The link can carry packets, or holds them until it is ACTIVE again (R265, R289). -/
def State.linkUsable (s : State) (l : Nat) : Bool := (s.link l).established

/-- Choice between the two links of a spur: the hashed one, else the other, where ACTIVE or NARROW (R289 step 3). -/
def State.spurLink (s : State) (k : Nat) (p : Packet) : Option Nat :=
  let a := k + 16 * (Config.spurHash p.src p.dst p.tc % 2)
  let b := partner a
  if s.linkUp a then some a else if s.linkUp b then some b else none

/-- The packet has crossed, or crosses on this way out, the dateline of its ring (R287, R294). -/
def State.crosses (s : State) (k out : Nat) (inLink : Option Nat) : Bool :=
  s.inForce (Obj.pairDateline k) != 0 && (out == k || inLink == some k)

/-- VC on leaving by a ring port (R294): DL 0 on entering a ring, 1 past the dateline or when turned. -/
def State.ringVc (s : State) (k out : Nat) (p : Packet) (inLink : Option Nat) : Nat :=
  let onRing := match inLink with | some i => i % 16 == k | none => false
  2 * p.tc + b2n (p.turned || (onRing && p.vc % 2 == 1) || s.crosses k out (if onRing then inLink else none))

/-- The way out of a packet not addressed to the device: link and header fields, or none when undeliverable
(R289, R294, R299). -/
def State.route (s : State) (p : Packet) (inLink : Option Nat) : Option (Nat × Packet) :=
  let e := s.routeEntry p.dst
  let k := bitsOf e 3 0
  if bitsOf e 15 14 != 2 || s.pairMode k == 0 || s.pairIsOut k then none
  else if s.pairMode k == 2 then
    match s.spurLink k p with
    | some l => if inLink == some l then none else some (l, { p with turned := false, vc := 2 * p.tc })
    | none => none
  else
    let onRing := match inLink with | some i => i % 16 == k | none => false
    let p := if onRing then p else { p with turned := false }
    let want := if p.turned then (match inLink with | some i => partner i | none => k) else if bitOf e 13 then k + 16 else k
    if s.linkUsable want then
      if inLink == some want then none else some (want, { p with vc := s.ringVc k want p inLink })
    else if p.turned then none
    else if s.linkUp (partner want) then some (partner want, p.turn)
    else none

/-! ## Egress queues -/

/-- Queues of a Gatehouse, defaults included. -/
def State.queueCount (s : State) (gh : Nat) : Nat := 4 + s.fabric.queues.count fun k _ => k / 1024 == gh && decide (4 ≤ k % 1024)

/-! ## Packets the device originates -/

/-- A SEQ taken for a destination and class (R279). -/
def State.takeSeq (s : State) (dst tc : Nat) : Nat × State :=
  let n := s.fabric.nextSeq.getD (dst * 4 + tc) 0
  (n, { s with fabric := { s.fabric with nextSeq := s.fabric.nextSeq.put (dst * 4 + tc) ((n + 1) % 2 ^ 32) } })

/-- ECE is owed to a source on a class: a CE arrived from it within the last microsecond (R310). -/
def State.takeEcho (s : State) (dst tc : Nat) : Bool × State :=
  let due := s.fabric.echoes.any fun e => e.src == dst && e.tc == tc && decide (s.now ≤ e.at_ + 1000)
  let now := s.now
  (due, if due then { s with fabric := { s.fabric with echoes := s.fabric.echoes.filter fun e =>
    !(e.src == dst && e.tc == tc && decide (now ≤ e.at_ + 1000)) } } else s)

/-- A packet of the device is numbered, routed, checked at its egress link and queued (R279, R283, R301, R303, R309). -/
def State.originate (s : State) (p : Packet) (tracker : Option Nat := none) : State :=
  let (n, s) := s.takeSeq p.dst p.tc
  let (ece, s) := s.takeEcho p.dst p.tc
  let p := { p with src := s.epid, seq := n, ece := ece, ect := decide (p.tc ≤ 1), ce := false, hops := 0, turned := false, vc := 2 * p.tc }
  match s.route p none with
  | none => (s.dropTracker tracker).countLink 0 0x2022 4
  | some (l, p) =>
    if s.keyOk l p then s.queueOwn { link := l, p := p, own := true, tracker := tracker }
    else (s.dropTracker tracker).countLink l 0x2022 5

/-- A TAG not used by another outstanding request to the destination (R279). -/
def State.freeTag (s : State) (dst : Nat) : Nat :=
  (firstFrom (fun t => !(s.fabric.own.any fun o => o.dst == dst && o.tag == t)) 65536 0).getD 0

/-- A request of the device goes out and waits for its answer (R279). -/
def State.request (s : State) (p : Packet) (kind : OwnKind) (bytes : Nat) : State :=
  let t := s.freeTag p.dst
  ({ s with fabric := { s.fabric with own := s.fabric.own ++ [({ dst := p.dst, tc := p.tc, tag := t, kind := kind, bytes := bytes } : OwnReq)] } }).originate { p with tag := t }

/-- The RSP to a request (R280): status, data padded to whole units, poison. -/
def answerTo (req : Packet) (status : Nat) (data : Bytes) (poi : Bool) : Packet :=
  { dst := req.src, pkey := req.pkey, tc := req.tc, opc := 0x08, len := ceilDiv data.length 64, addr := req.addr, tag := req.tag,
    status := status, poi := poi, xw := data.length, payload := padBytes (64 * ceilDiv data.length 64) data }

/-! ## Congestion (R309 to R312) -/

/-- Rate entry of (destination, class). -/
def rateKey (epid tc : Nat) : Nat := epid * 4 + tc

/-- A rate entry's bucket filled up to now (R311). -/
def State.rateNow (s : State) (r : RateEntry) : RateEntry :=
  { r with tokens := min 16384000 (r.tokens + r.rate * (s.now - r.stamp)), stamp := s.now }

/-- A decrease for a destination and class, at most once per CC_HOLD; a full table evicts the entry of highest rate (R311, R312). -/
def State.ccDecrease (s : State) (epid tc : Nat) : State :=
  if 1 < tc || !s.flag Obj.ccEnable then s else
  let old := s.fabric.rates.find (rateKey epid tc)
  let hold := match old with | some r => decide (s.now < r.decreased + s.reg Obj.ccHold * 1000) | none => false
  if hold then s else
  let r := (old.map s.rateNow).getD { stamp := s.now }
  let before := match r.raised with | some (t, b) => if t == s.now then b else r.rate | none => r.rate
  let rate := max (s.reg Obj.ccMinRate) (before * (256 - s.reg Obj.ccMd) / 256)
  let gh := epid % 16
  let here := s.fabric.rates.filter fun k _ => (k / 4) % 16 == gh
  let victim := here.rows.foldl (fun (b : Option (Nat × RateEntry)) x => match b with | some y => if y.2.rate < x.2.rate then some x else b | none => some x) none
  let (rates, evicted) := match old, victim with
    | none, some v => if 4096 ≤ here.size then (s.fabric.rates.del v.1, true) else (s.fabric.rates, false)
    | _, _ => (s.fabric.rates, false)
  let s := if evicted then s.count (dieGH gh) 0 0x2024 4 else s
  { s with fabric := { s.fabric with rates := rates.put (rateKey epid tc) { r with rate := rate, decreased := s.now } } }.count (dieGH gh) 0 0x2024 3

/-- ECE and CE of a packet that arrives for the device (R310, R311). -/
def State.takeMarks (s : State) (l : Nat) (p : Packet) : State :=
  let s := if p.ece then (s.countLink l 0x2024 2).ccDecrease p.src p.tc else s
  if p.ce then
    { s with fabric := { s.fabric with echoes := s.fabric.echoes ++ [({ src := p.src, tc := p.tc, pkey := p.pkey, at_ := s.now } : EchoDue)] } }
  else s

/-- A packet is dropped at a port and counted by its check (R283). -/
def State.dropPkt (s : State) (l sel : Nat) : State := s.countLink l 0x2022 sel

/-! ## Set formation on the fabric (R296, R297) -/

/-- KIND of a SETMSG (Table 9.3). -/
def setKind : SetMsg → Nat
  | .announce _ _ _ => 1
  | .join _ _ _ => 2
  | .admission _ => 3
  | .refuse _ _ => 4
  | .distribute _ _ _ => 5

/-- Pieces of at most 1,024 bytes, at least one. -/
def pieces1k (bs : Bytes) : List Bytes := (upto (max 1 (ceilDiv bs.length 1024))).map fun i => sliceBytes bs (1024 * i) 1024

/-- Packets that carry a SETMSG to an endpoint; a packet carries at least one unit (Table 9.2; assumption 21). -/
def setPackets (dst : Nat) (m : SetMsg) : List Packet :=
  (pieces1k (Config.setmsgBytes m)).map fun b =>
    let n := max 1 (ceilDiv b.length 64)
    { dst := dst, pkey := 0xFFFF, tc := 3, vc := 6, opc := 0x31, len := n, xw := setKind m, payload := padBytes (64 * n) b }

/-- A SETMSG is sent by unicast (R297). -/
def State.sendSet (s : State) (dst : Nat) (m : SetMsg) : State := (setPackets dst m).foldl (fun s p => s.originate p) s

/-- The pair is a ring stop in service. -/
def State.ringPair (s : State) (k : Nat) : Bool := s.pairMode k == 1 && !s.pairIsOut k

/-- Way out of a broadcast copy on a ring: the port wanted, or turned onto the other; none when it meets a down link while
TURNED (R296 step 4). -/
def State.ringCopy (s : State) (p : Packet) (want : Nat) (inLink : Option Nat) : Option (Nat × Packet) :=
  if s.linkUsable want then some (want, { p with vc := s.ringVc (want % 16) want p inLink })
  else if p.turned then none
  else if s.linkUp (partner want) then some (partner want, p.turn)
  else none

/-- The link of a spur that a broadcast copy takes: the lower-numbered one that is up and whose peer is a TH-6416 (R297). -/
def State.spurCopy (s : State) (k : Nat) : Option Nat :=
  if s.pairMode k == 2 && !s.pairIsOut k then [k, k + 16].find? fun l => s.linkUp l && (s.link l).peerTH else none

/-- Copies of a broadcast that start anew: east on every ring pair but the one it arrived on, and onto spurs (R296 steps 1 and 2). -/
def State.freshCopies (s : State) (p : Packet) (inLink : Option Nat) : List (Nat × Packet) :=
  let p := { p with turned := false, vc := 2 * p.tc }
  (upto 16).filterMap fun k =>
    if s.ringPair k && inLink.map (· % 16) != some k then s.ringCopy p k none
    else match s.spurCopy k with
      | some l => if inLink == some l then none else some (l, p)
      | none => none

/-- The ring copy of a broadcast that arrived on a ring pair, in its direction of travel (R296 step 3). -/
def State.onwardCopy (s : State) (p : Packet) (l : Nat) : List (Nat × Packet) :=
  if s.ringPair (l % 16) then (s.ringCopy p (partner l) (some l)).toList else []

/-- The filter entry of a broadcast (R296 step 5). -/
def State.bcastOf (s : State) (p : Packet) : Option Bcast := s.fabric.bcast.find? fun b => b.src == p.src && b.seq == p.seq

/-- The filter entry written; the oldest of 1,024 gives way (assumption 23). -/
def State.setBcast (s : State) (b : Bcast) : State :=
  let rest := s.fabric.bcast.filter fun x => !(x.src == b.src && x.seq == b.seq)
  { s with fabric := { s.fabric with bcast := (b :: rest).take 1024 } }

/-- A broadcast of the device (R296 step 1): numbered for the broadcast address, its copies queued. -/
def State.broadcast (s : State) (p : Packet) : State :=
  let (n, s) := s.takeSeq 0xFFFFF p.tc
  let p := { p with src := s.epid, seq := n }
  let s := s.setBcast { src := p.src, seq := n, delivered := true, fwd := true }
  (s.freshCopies p none).foldl (fun s x => s.queueOwn { link := x.1, p := x.2, own := true }) s

/-! ## Form of a packet (R275 to R278, R283 check 1) -/

/-- Coherence opcodes that carry data (Table 9.2, Table 7.2). -/
def cohHasData (opc : Nat) : Bool :=
  opc == 0x13 || opc == 0x15 || opc == 0x16 || opc == 0x1E || opc == 0x1F || opc == 0x20 || opc == 0x22

/-- The opcode may travel on the class (Table 9.2). -/
def opcOnTc (opc tc : Nat) : Bool :=
  if opc == 0x01 || opc == 0x02 || opc == 0x04 || opc == 0x05 || opc == 0x07 then decide (tc ≤ 1)
  else if opc == 0x03 then tc == 0 || tc == 1 || tc == 3
  else if opc == 0x06 then tc == 1
  else if opc == 0x08 then true
  else if decide (0x10 ≤ opc) && decide (opc ≤ 0x23) then tc == 2
  else if opc == 0x30 || opc == 0x31 || opc == 0x32 then tc == 3
  else false

/-- LEN agrees with the opcode and with BYTES (Table 9.2, Table 9.3). -/
def lenOk (p : Packet) : Bool :=
  let bytes := bitsOf p.xw 10 0
  if p.opc == 0x01 then p.len == 0 && decide (1 ≤ bytes) && decide (bytes ≤ 1024)
  else if p.opc == 0x02 || p.opc == 0x03 then decide (1 ≤ bytes) && decide (bytes ≤ 1024) && p.len == ceilDiv bytes 64
  else if p.opc == 0x08 then decide (bytes ≤ 1024) && p.len == ceilDiv bytes 64
  else if p.opc == 0x04 || p.opc == 0x06 then p.len == 1
  else if p.opc == 0x05 || p.opc == 0x07 then p.len == 0
  else if p.opc == 0x30 || p.opc == 0x31 then decide (1 ≤ p.len) && decide (p.len ≤ 16)
  else if p.opc == 0x32 then decide (p.len ≤ 1)
  else p.len == b2n (cohHasData p.opc)

/-- XW holds only fields of the opcode (Table 9.3). -/
def xwOk (p : Packet) : Bool :=
  if p.opc == 0x01 || p.opc == 0x02 || p.opc == 0x03 || p.opc == 0x08 then decide (p.xw < 2 ^ 11)
  else if p.opc == 0x04 then decide (p.xw < 2 ^ 17)
  else if p.opc == 0x19 || p.opc == 0x1A then decide (p.xw < 2 ^ 52) && bitsOf p.xw 31 16 == 0
  else if p.opc == 0x06 then decide (p.xw < 2 ^ 8)
  else if p.opc == 0x31 then decide (p.xw < 2 ^ 8)
  else p.xw == 0

/-- ADDR is 0 where Table 9.2 says so. -/
def addrOk (p : Packet) : Bool := if p.opc == 0x06 || p.opc == 0x07 || p.opc == 0x30 || p.opc == 0x31 then p.addr == 0 else true

/-- Check 1 of R283: the packet is well formed. -/
def State.formOk (s : State) (p : Packet) : Bool :=
  opcOnTc p.opc p.tc && lenOk p && xwOk p && addrOk p && p.rsvd == 0 && p.vc / 2 == p.tc &&
    !(p.tc == 3 && p.dst == s.epid && !(p.opc == 0x30 || p.opc == 0x31 || p.opc == 0x32 || p.opc == 0x08)) &&
    !(p.dst == 0xFFFFF && p.opc != 0x31)

end Sys2Proof.Machine
end

