-- ==== Sys2Proof/Machine/CellarOps.lean ====
section
/-! DEFINITION. Operations on DRAM: where a pool address lies (R327 to R330), the line code (R359 to R362), stored bits,
write-combining buffers (R331, R366, R370), drains with parity (R371), reads with correction, reconstruction and
poison (R363 to R366, R375). -/

namespace Sys2Proof.Machine

open Sys2Proof

/-! ## The line code -/

/-- Columns of weight 3, ascending, then the first eight of weight 5 (R359). -/
def eccColumns : List Nat :=
  ((upto 256).filter fun v => ((upto 8).filter (v.testBit ·)).length == 3) ++
    (((upto 256).filter fun v => ((upto 8).filter (v.testBit ·)).length == 5).take 8)

/-- Check bits of a word of n information bits (R359). -/
def checkBits (n w : Nat) : Nat :=
  ((eccColumns.take n).zipIdx).foldl (fun c x => if w.testBit x.2 then c ^^^ x.1 else c) 0

/-- Syndrome of a word: stored check bits XOR recomputed ones (R362). -/
def syndrome (n w chk : Nat) : Nat := chk ^^^ checkBits n w

/-- One word decoded (Table 11.2): the corrected word, or none when it is uncorrectable. -/
def fixWord (n w synd : Nat) : Option Nat :=
  if synd == 0 || [1, 2, 4, 8, 16, 32, 64, 128].contains synd then some w
  else match (eccColumns.take n).idxOf? synd with
    | some k => some (w ^^^ 2 ^ k)
    | none => none

/-- Data word w of a line. -/
def lineWord (bs : Bytes) (w : Nat) : Nat := leNat (sliceBytes bs (8 * w) 8)

/-- The 16 ECC bytes of a line with metadata information bits m (R360). -/
def eccBytes (bs : Bytes) (m : Nat) : Bytes :=
  ((upto 8).map fun w => BitVec.ofNat 8 (checkBits 64 (lineWord bs w))) ++ leBytes 7 m ++ [BitVec.ofNat 8 (checkBits 56 m)]

/-- A decoded line: bytes as stored or corrected, metadata, nine syndromes, and whether it is clean (0), corrected (1) or
uncorrectable (2). -/
structure Decoded where
  data : Bytes := []
  dmeta : Nat := 0
  synds : List Nat := []
  res : Nat := 0
deriving DecidableEq, Repr

/-- The decoder of R362 on 80 stored bytes; a strongroom line with two words to correct is uncorrectable. -/
def decodeLine (raw : Bytes) (strong : Bool) : Decoded :=
  let bs := sliceBytes raw 0 64
  let m := leNat (sliceBytes raw 72 7)
  let synds := ((upto 8).map fun w => syndrome 64 (lineWord bs w) (raw.getD (64 + w) 0).toNat) ++ [syndrome 56 m (raw.getD 79 0).toNat]
  let fixed := ((upto 8).map fun w => fixWord 64 (lineWord bs w) (synds.getD w 0)) ++ [fixWord 56 m (synds.getD 8 0)]
  let bad := (synds.filter (· != 0)).length
  if fixed.any (·.isNone) || (strong && decide (2 ≤ bad)) then { data := bs, dmeta := m, synds := synds, res := 2 }
  else { data := (((fixed.take 8).map fun w => leBytes 8 (w.getD 0))).flatten, dmeta := (fixed.getD 8 none).getD 0, synds := synds, res := if bad == 0 then 0 else 1 }

/-! ## Stored bits -/

/-- Key of byte b of a line of a channel. -/
def dramKey (ch line b : Nat) : Nat := ch * 2 ^ 40 + line * 128 + b

/-- Sorted rows of bytes with one byte put in place; a zero byte takes no row (Host.Cell, canonical form). -/
def cellPut (a : Nat) (v : Byte) : List Host.Cell → List Host.Cell
  | [] => if v = 0 then [] else [(a, v)]
  | (a', v') :: r =>
    if a < a' then (if v = 0 then (a', v') :: r else (a, v) :: (a', v') :: r)
    else if a = a' then (if v = 0 then r else (a, v) :: r)
    else (a', v') :: cellPut a v r

/-- A stored byte; an unlisted one reads 0 (assumption 13). -/
def cellGet (a : Nat) : List Host.Cell → Byte
  | [] => 0
  | (a', v') :: r => if a = a' then v' else cellGet a r

/-- Canonical form of the DRAM: addresses strictly rising from a bound, no byte 0. -/
def cellsWf : Nat → List Host.Cell → Bool
  | _, [] => true
  | b, (a, v) :: r => decide (b ≤ a) && (v != 0) && cellsWf (a + 1) r

/-- Memory.wf: the DRAM's canonical form. -/
def Memory.wf (m : List Host.Cell) : Bool := cellsWf 0 m

/-- A string of bytes stored from an address on. -/
def cellsPut (a : Nat) : Bytes → List Host.Cell → List Host.Cell
  | [], m => m
  | b :: bs, m => cellsPut (a + 1) bs (cellPut a b m)

/-- The 80 stored bytes of a line. -/
def State.rawLine (s : State) (ch line : Nat) : Bytes := (upto 80).map fun b => cellGet (dramKey ch line b) s.cellar.dram

/-- The 80 stored bytes of a line written. -/
def State.putRaw (s : State) (ch line : Nat) (raw : Bytes) : State :=
  { s with cellar := { s.cellar with dram := cellsPut (dramKey ch line 0) (padBytes 80 raw) s.cellar.dram } }

/-- A line stored with its code. -/
def State.putLine (s : State) (ch line : Nat) (bs : Bytes) (m : Nat) : State := s.putRaw ch line (padBytes 64 bs ++ eccBytes (padBytes 64 bs) m)

/-! ## Channels -/

/-- A channel. -/
def State.chan (s : State) (ch : Nat) : Chan := s.cellar.chans.getD ch {}

/-- A channel changed. -/
def State.onChan (s : State) (ch : Nat) (f : Chan → Chan) : State :=
  { s with cellar := { s.cellar with chans := s.cellar.chans.put ch (f (s.chan ch)) } }

/-- A group. -/
def State.group (s : State) (g : Nat) : Group := s.cellar.groups.getD g {}

/-- A group changed. -/
def State.onGroup (s : State) (g : Nat) (f : Group → Group) : State :=
  { s with cellar := { s.cellar with groups := s.cellar.groups.put g (f (s.group g)) } }

/-- Groups of a layout. -/
def groupCount (layout : Nat) : Nat := if layout == 1 then 5 else if layout == 2 then 4 else 0

/-- Group and member of a channel, if it has one. -/
def State.memberOf (s : State) (ch : Nat) : Option (Nat × Nat) :=
  (upto (groupCount s.cellar.layout)).findSome? fun g => ((s.group g).members.idxOf? ch).map fun m => (g, m)

/-- Where a pool address lies: its region, and there a group's member and stripe, or a plain channel (R327 to R329). -/
inductive Place where
  | plain (ch co : Nat)
  | strong (g m co : Nat)
  | nowhere
deriving DecidableEq, Repr

/-- Plain channels of layout 0x02 (Table 10.4). -/
def plain2 : List Nat := [17, 27, 29, 31, 33, 35, 37, 39, 41, 43, 45, 47]

/-- Place of a granule by index in a region of n channels. -/
def placeIn (pa base n : Nat) : Nat × Nat := (((pa - base) / 256) % n, ((pa - base) / 256 / n) * 256 + pa % 256)

/-- The place of a pool address (R327, R328, R329). -/
def State.place (s : State) (pa : Nat) : Place :=
  let c := s.cellar
  if c.bytes ≤ pa then .nowhere
  else if c.layout == 0 then
    let (i, co) := placeIn pa 0 c.plain.length
    .plain (c.plain.getD i 0) co
  else
    let n := 8 * groupCount c.layout
    if pa < n * c.cap then
      let (i, co) := placeIn pa 0 n
      .strong (i / 8) (i % 8) co
    else
      let (i, co) := placeIn pa (n * c.cap) 12
      .plain (plain2.getD i 0) co

/-- Pool address of a line (line index) of a channel, where it has one. -/
def State.lineAddr (s : State) (ch line : Nat) : Option Nat :=
  let c := s.cellar
  let co := line * 64
  let back (i n base : Nat) : Nat := base + ((co / 256) * n + i) * 256 + co % 256
  if c.cap ≤ co then none
  else if c.layout == 0 then (c.plain.idxOf? ch).map fun i => back i c.plain.length 0
  else match s.memberOf ch with
    | some (g, m) => if m < 8 then some (back (8 * g + m) (8 * groupCount c.layout) 0) else none
    | none => if c.layout == 2 then (plain2.idxOf? ch).map fun i => back i 12 (8 * groupCount 2 * c.cap) else none

/-- The channel serves requests or will after a wake: READY or SELF_REFRESH. -/
def Chan.serves (c : Chan) : Bool := (c.st == 4 || c.st == 6) && c.repair.isNone

/-- A subchannel is offline for a row repair: its own with sPPR, both with hPPR (R382). -/
def Chan.repairs (c : Chan) (k : Nat) : Bool := match c.repair with | some (key, hard) => hard || key % 2 == k | none => false

/-- The channel is RETRAINING, under row repair or in start-up training (R326, R351, R382). -/
def Chan.away (c : Chan) : Bool := c.st == 5 || c.st == 3 || ((c.st == 4 || c.st == 6) && c.repair.isSome)

/-- A line's subchannel is offline so: reads reconstruct, plain ones wait (R351, R375, R382). -/
def Chan.awayAt (c : Chan) (line : Nat) : Bool := c.st == 5 || c.st == 3 || ((c.st == 4 || c.st == 6) && c.repairs (line / 4 % 2))

/-- The channel cannot serve at all: absent, disabled, mismatched or failed. -/
def Chan.gone (c : Chan) : Bool := !c.serves && !c.away

/-- Channel that holds a member's granule of a stripe: the spare below the rebuild pointer, none where the member is failed
without a copy (R378). -/
def State.memberChan (s : State) (g m stripe : Nat) : Option Nat :=
  let gr := s.group g
  if gr.failed.contains m then
    match gr.rebuild with
    | some (m', sp, ptr) => if m' == m && stripe < ptr then some sp else none
    | none => none
  else gr.members[m]?

/-- Channel whose WCB keeps the lines of a member: the spare where one stands for it, else the member's own. -/
def State.wcbChan (s : State) (g m stripe : Nat) : Nat := ((s.memberChan g m stripe) <|> (s.group g).members[m]?).getD 0

/-! ## Keys of stored lines -/

/-- The pool address lies in the device table region (R17). -/
def State.inTables (s : State) (pa : Nat) : Bool := decide (s.cellar.tableBase ≤ pa) && decide (pa < s.cellar.bytes)

/-- A guest; Undefined guests have the default record. -/
def State.guest (s : State) (gid : Nat) : Guest := s.pool.guests.getD gid {}

/-- A guest changed, where it is defined. -/
def State.onGuest (s : State) (gid : Nat) (f : Guest → Guest) : State :=
  { s with pool := { s.pool with guests := s.pool.guests.upd gid f } }

/-- Key that encrypts a line (R394): KTABLE for the table region, else the guest's. No access begins for a guest without one
(check 5 of R20, check 9 of R55); what still runs when a key is destroyed uses a free value. -/
def State.lineKey (s : State) (pa gid : Nat) : Bytes :=
  if s.inTables pa then s.sec.ktable.getD (Config.noKey (2 ^ 20))
  else (unwrapKey s.sec.kwrap gid (s.guest gid).key).getD (Config.noKey gid)

/-- The key cache of the channel's Cellar die is looked up for a guest's line; a miss fetches the key record (R397). -/
def State.keyLook (s : State) (ch pa gid : Nat) : State :=
  if s.inTables pa || !s.pool.guests.has gid then s else
  let die := ch / 2
  let c := s.sec.caches.getD die []
  let s := s.countChan ch 0x301A 0
  match c.find? (·.1 == gid) with
  | some e => { s with sec := { s.sec with caches := s.sec.caches.put die (e :: c.erase e) } }
  | none =>
    let f := die * 2 ^ 20 + gid
    State.countChan { s with sec := { s.sec with fetches := if s.sec.fetches.contains f then s.sec.fetches else s.sec.fetches ++ [f] } } ch 0x301A 1

/-- A line's plaintext encrypted for its pool address (R394). -/
def State.seal (s : State) (pa gid : Nat) (bs : Bytes) : Bytes :=
  leBytes 64 (Config.xts (BitVec.ofNat 512 (leNat (s.lineKey pa gid))) (BitVec.ofNat 128 pa) (BitVec.ofNat 512 (leNat bs))).toNat

/-- A stored line's bytes decrypted. -/
def State.unseal (s : State) (pa gid : Nat) (bs : Bytes) : Bytes :=
  leBytes 64 ((Config.xts (BitVec.ofNat 512 (leNat (s.lineKey pa gid))) (BitVec.ofNat 128 pa)).symm (BitVec.ofNat 512 (leNat bs))).toNat

/-- The poison pattern of R122: 0x7FC0_0000 at every 4-byte offset; byte at an address. -/
def poisonByte (a : Nat) : Byte := if a % 4 == 2 then 0xC0 else if a % 4 == 3 then 0x7F else 0

/-- n bytes of the pattern from an address. -/
def poisonBytes (a n : Nat) : Bytes := (upto n).map fun i => poisonByte (a + i)

/-! ## Reporting (R385) -/

/-- Memory-error interrupt of a channel. -/
def State.memIrq (s : State) (ch : Nat) : State := s.irqEdge (0x060 + ch)

/-- Cellar die of a channel. -/
def chanDie (ch : Nat) : Nat := dieCL (ch / 2)

/-- Streams of a guest enter ERROR with NOTIFY and source 0x003 (R69, R386). -/
def State.streamError (s : State) (k status : Nat) : State :=
  match s.work.streams.find k with
  | none => s
  | some t =>
    if t.err.isSome then s else
    let s := { s with work := { s.work with streams := s.work.streams.put k { t with err := some (t.seq, status), held := none } } }
    let err := t.seq * 256 + status
    let s := s.originate { dst := t.notify, pkey := (s.guest t.gid).pkey, tc := 1, opc := 0x06, len := 1, xw := 0x03,
                           payload := padBytes 64 (leBytes 8 k ++ leBytes 8 err) }
    s.irqEdge 0x003

/-- Every stream of a guest enters ERROR. -/
def State.guestStreamsError (s : State) (gid status : Nat) : State :=
  s.work.streams.rows.foldl (fun s r => if r.2.gid == gid then s.streamError r.1 status else s) s

/-- A guest becomes fatal because a line of its control data is poisoned (R386). -/
def State.guestFatal (s : State) (gid pa ch : Nat) : State :=
  match s.pool.guests.find gid with
  | none => s
  | some g =>
    if g.fatal != 0 then s else
    let s := s.onGuest gid fun g => { g with fatal := 1 }
    ((s.log 0x0A (chanDie ch) gid pa).memIrq ch).guestStreamsError gid 0x07

/-- First byte of a layout's entry. DESIGN CHOICE (assumption 38): the entries follow the table heap of R193. -/
def State.layoutAt (s : State) (i : Nat) : Nat := s.cellar.tableBase + 0x1C0000000 + i * 128

/-- Guests whose control data a line of the table region holds (R386, R17, R179, R193, R216). -/
def State.controlOf (s : State) (pa : Nat) : List Nat :=
  let o := pa - s.cellar.tableBase
  if o < 0x100000000 then (let g := o / 4096; if s.pool.guests.has g && !(s.guest g).resident then [g] else [])
  else if o < 0x140000000 then
    let k := (o - 0x100000000) / 1024
    match s.work.streams.find k with | some t => [t.gid] | none => []
  else if 0x1C0000000 ≤ o && o < 0x1C0800000 then
    match s.work.layouts.find ((o - 0x1C0000000) / 128) with | some l => [l.gid] | none => []
  else if 0x1FF800000 ≤ o then
    (upto 8).filterMap fun i => (s.hearth.rmap.find ((o - 0x1FF800000) / 8 + i)).map (·.1)
  else ((s.trans.tables.filter fun t => decide (t.at_ < pa + 64) && decide (pa < t.at_ + (if t.level == 3 then 256 else 4096))).map (·.gid)).dedup

/-- A lost line of a channel is counted, logged and reported, and a lost line of control data makes its guests fatal (R365, R385,
R386). -/
def State.reportLost (s : State) (ch line : Nat) (pa : Option Nat) (reader : Option Nat) : State :=
  let s := s.onChan ch fun c => { c with ueLost := satInc 32 c.ueLost }
  let s := (s.countChan ch 0x3015 4).log 0x02 (chanDie ch) ch (line * 64) (pa.getD 0) (match reader with | some g => 2 ^ 63 + g | none => 0)
  let s := s.memIrq ch
  match pa with
  | some a => if s.inTables a then (s.controlOf (a / 64 * 64)).foldl (fun s g => s.guestFatal g (a / 64 * 64) ch) s else s
  | none => s

/-- A line becomes poisoned: it is rewritten with POISON = 1, its data bytes free, and reported (R365). -/
def State.poisonLine (s : State) (ch line : Nat) (reader : Option Nat) : State :=
  let pa := s.lineAddr ch line
  ((s.putLine ch line (s.freeBytes 64) 1).useFree 64).reportLost ch line pa reader

/-! ## Corrected errors (R363, R364) -/

/-- Row key of a line: subchannel, rank, bank group, bank and row (Table 10.5). -/
structure RowAddr where
  sub : Nat
  rank : Nat
  bg : Nat
  ba : Nat
  row : Nat
  col : Nat
deriving DecidableEq, Repr

/-- Channel offset decoded for a number of ranks (R330). -/
def decodeCo (ranks co : Nat) : RowAddr :=
  let r := if ranks == 4 then 2 else if ranks == 2 then 1 else 0
  let row := co / 2 ^ (19 + r)
  { sub := bitsOf co 8 8, rank := (co / 2 ^ 19) % 2 ^ r, row := row,
    bg := (bitsOf co 11 9) ^^^ (row % 8), ba := (bitsOf co 13 12) ^^^ ((row / 8) % 4),
    col := (bitsOf co 18 14 * 4 + bitsOf co 7 6) * 16 }

/-- A row of a channel as one number. -/
def RowAddr.key (r : RowAddr) : Nat := (((r.row * 4 + r.rank) * 8 + r.bg) * 4 + r.ba) * 2 + r.sub

/-- Rank, bank group and subchannel of a row key, as `noRepair` names them. -/
def keyBankGroup (key : Nat) : Nat := key / 8 % 32 * 2 + key % 2

/-- Key of a line's row. -/
def State.rowKey (s : State) (ch line : Nat) : Nat := (decodeCo (s.chan ch).ranks (line * 64)).key

/-- The log entry that a new correction replaces: lowest COUNT, oldest TIME on a tie (R364). -/
def ceVictim (l : List CeEnt) : Option CeEnt :=
  l.foldl (fun b e => match b with
    | none => some e
    | some v => if e.count < v.count || (e.count == v.count && e.time < v.time) then some e else some v) none

/-- A correction enters the corrected-error log (R364). -/
def ceEnter (l : List CeEnt) (e : CeEnt) : List CeEnt :=
  match l.find? fun x => x.line == e.line with
  | some x => l.map fun y => if y.line == e.line then { e with count := satInc 16 x.count } else y
  | none =>
    if l.length < 32 then l ++ [{ e with count := 1 }]
    else match ceVictim l with
      | some v => l.map fun y => if y.line == v.line then { e with count := 1 } else y
      | none => l

/-- Last word of a line that was corrected, and its syndrome. -/
def lastWrong (synds : List Nat) : Nat × Nat :=
  (synds.zipIdx.foldl (fun (b : Nat × Nat) x => if x.1 != 0 then (x.2, x.1) else b) (0, 0))

/-- A row counts toward UE_FAIL_ROWS at a time in ms; rows of 24 hours ago go (R376, R382). -/
def ueRow (l : List (Nat × Nat)) (row ms : Nat) : List (Nat × Nat) := (row, ms) :: l.filter fun r => decide (ms < r.2 + 86400000) && r.1 != row

/-- A corrected line is counted and logged; its row may be due for repair, its channel for a retrain (R349, R363, R364, R382). -/
def State.corrected (s : State) (ch line source : Nat) (synds : List Nat) : State :=
  let (w, y) := lastWrong synds
  let s := s.onChan ch fun c =>
    let log := ceEnter c.ceLog { source := source, word := w, synd := y, line := line, time := s.nowUs % 2 ^ 48 }
    let times := (s.nowMs :: c.ceTimes).filter fun t => decide (s.nowMs < t + 1000)
    { c with ceCount := satInc 32 c.ceCount, ceLog := log, ceTimes := times }
  let c := s.chan ch
  let row := s.rowKey ch line
  let sum := (c.ceLog.filter fun e => s.rowKey ch e.line == row).foldl (fun n e => n + e.count) 0
  let many := s.reg Obj.pprCeThreshold != 0 && decide (s.reg Obj.pprCeThreshold ≤ sum)
  let due := many && !c.wantRepair.contains row && !c.noRepair.contains (keyBankGroup row)
  let s := if many && c.noRepair.contains (keyBankGroup row) then s.onChan ch fun c => { c with ueRows := ueRow c.ueRows row s.nowMs } else s
  let high := s.reg Obj.ceRetrainRate != 0 && decide (s.reg Obj.ceRetrainRate < c.ceTimes.length)
  let soon := match c.ceRetrain with | some t => decide (s.nowMs ≤ t + 10000) | none => false
  let free := decide (c.ceHold ≤ s.nowMs)
  let rate := high && free && !soon && c.want == 0 && c.st != 5
  (s.onChan ch fun c => { c with wantRepair := if due then c.wantRepair ++ [row] else c.wantRepair, want := if rate then 2 else c.want,
                                 ceHold := if high && free && soon then s.nowMs + 60000 else c.ceHold }).countChan ch 0x3015 0

/-! ## Reads of stored lines -/

/-- What a read of a line gave: stored (encrypted) bytes and metadata, or lost. -/
structure Got where
  data : Bytes := []
  dmeta : Nat := 0
  lost : Bool := false
  /-- Reconstructed for a member of a DEGRADED or BROKEN group. -/
  degraded : Bool := false
  /-- It needs a member that is away and waits (R375). -/
  waits : Bool := false
deriving DecidableEq, Repr

/-- The line is a strongroom data or parity line: its channel stands for a member. -/
def State.strongChan (s : State) (ch : Nat) : Bool := (s.memberOf ch).isSome || ((upto 5).any fun g => match (s.group g).rebuild with | some (_, sp, _) => sp == ch | none => false)

/-- Δ that the parity Cellar holds or has in flight for a parity line. -/
def Chan.pending (c : Chan) (line : Nat) : Bytes × Nat :=
  let p := c.plines.getD line { delta := zeroBytes 64 }
  (c.deltas.filter fun d => d.2.1 == line).foldl (fun (b : Bytes × Nat) d => (b.1.zipWith (· ^^^ ·) d.2.2.2.1, b.2 ^^^ d.2.2.2.2))
    (padBytes 64 p.delta, p.dmeta)

/-- One line of one channel read and decoded, re-read once when uncorrectable (R340), with what it counts; e1 and e2 are
the bits in which the two reads differ from what is stored. -/
def State.readStored (s : State) (ch line source e1 e2 : Nat) : Option Got × State :=
  let raw := s.rawLine ch line
  let flip (e : Nat) : Bytes := if e == 0 then raw else leBytes 80 (leNat raw ^^^ e)
  let strong := s.strongChan ch
  let d := decodeLine (flip e1) strong
  if d.res == 0 then (some { data := d.data, dmeta := d.dmeta }, s)
  else if d.res == 1 then
    let s := s.corrected ch line source d.synds
    (some { data := d.data, dmeta := d.dmeta }, if (s.chan ch).wcb.has line then s.countChan ch 0x3015 5 else s.putLine ch line d.data d.dmeta)
  else
    let s := s.countChan ch 0x3015 1
    let d2 := decodeLine (flip e2) strong
    if d2.res == 2 then
      let row := s.rowKey ch line
      let s := s.onChan ch fun c =>
        { c with ueRows := ueRow c.ueRows row s.nowMs, wantRepair := if c.wantRepair.contains row || c.noRepair.contains (keyBankGroup row) then c.wantRepair else c.wantRepair ++ [row] }
      (none, s)
    else
      let s := s.countChan ch 0x3015 2
      let s := if d2.res == 1 then s.corrected ch line 2 d2.synds else s
      (some { data := d2.data, dmeta := d2.dmeta }, s.putLine ch line d2.data d2.dmeta)

/-- Stale lines of a stripe (R373, R374). -/
def State.staleOf (s : State) (g stripe : Nat) : Option Stale := s.cellar.stale.find? fun e => e.group == g && e.stripe == stripe

/-- A line of member m of a stripe put together from the eight others (R375); stored lines only. -/
def State.reconstruct (s : State) (g m line source : Nat) : Got × State :=
  let stripe := line / 4
  let stale := m != 8 && ((match s.staleOf g stripe with | some e => e.lines.testBit (line % 4) | none => false) ||
    (s.group g).lost.any fun x => x.1 != m && x.2 == line)
  let others := (upto 9).filter (· != m)
  let chans := others.map fun o => (o, s.memberChan g o stripe)
  if stale || chans.any (fun x => match x.2 with | none => true | some c => (s.chan c).gone) then ({ lost := true }, s)
  else if chans.any (fun x => match x.2 with | none => false | some c => (s.chan c).awayAt line) then ({ waits := true }, s)
  else
    let (acc, s) := chans.foldl (fun (b : Option (Bytes × Nat) × State) x =>
      let (acc, s) := b
      let ch := x.2.getD 0
      let (r, s) := s.readStored ch line source 0 0
      match acc, r with
      | some (a, am), some r =>
        let (p, pm) := if x.1 == 8 then (s.chan ch).pending line else (zeroBytes 64, 0)
        (some ((a.zipWith (· ^^^ ·) r.data).zipWith (· ^^^ ·) p, am ^^^ r.dmeta ^^^ pm), s)
      | _, _ => (none, s)) (some (zeroBytes 64, 0), s)
    match acc with
    | some (d, dm) => ({ data := d, dmeta := dm }, s)
    | none => ({ lost := true }, s)

/-- A line that was to be put together is counted as reconstructed, or reported as lost (R365, R385). -/
def State.countBuilt (s : State) (r : Got) (ch line m : Nat) (reader : Option Nat) : State :=
  if r.waits then s
  else if r.lost then (if m < 8 then s.reportLost ch line (s.lineAddr ch line) reader else s)
  else s.countChan ch 0x3015 3

/-- A stored line of a strongroom's member or of a plain channel, with everything a demand read does to it (R365, R375,
R383, R384). e1 and e2 as in `readStored`. -/
def State.fetch (s : State) (pl : Place) (source e1 e2 : Nat) (reader : Option Nat) : Got × State :=
  match pl with
  | .nowhere => ({ lost := true }, s)
  | .plain ch co =>
    if (s.chan ch).gone then ({ lost := true }, s)
    else if (s.chan ch).awayAt (co / 64) then ({ waits := true }, s)
    else match s.readStored ch (co / 64) source e1 e2 with
      | (some r, s) => (r, s)
      | (none, s) => ({ lost := true }, s.poisonLine ch (co / 64) reader)
  | .strong g m co =>
    let line := co / 64
    let own := s.memberChan g m (line / 4)
    match own with
    | none =>
      let (r, s) := s.reconstruct g m line source
      let ch := (s.group g).members.getD m 0
      let s := s.countBuilt r ch line m reader
      ({ r with degraded := decide (2 ≤ (s.group g).st) }, s)
    | some ch =>
      if (s.chan ch).gone then
        let (r, s) := s.reconstruct g m line source
        let s := s.countBuilt r ch line m reader
        ({ r with degraded := decide (2 ≤ (s.group g).st) }, s)
      else if (s.chan ch).awayAt line then
        let (r, s) := s.reconstruct g m line source
        if r.lost then ({ waits := true }, s) else (r, s.countBuilt r ch line m reader)
      else match s.readStored ch line source e1 e2 with
        | (some r, s) => (r, s)
        | (none, s) =>
          match s.reconstruct g m line source with
          | (r, s) =>
            if r.waits then (r, s)
            else if r.lost then ({ lost := true }, s.poisonLine ch line reader)
            else
              let s := (s.putLine ch line r.data r.dmeta).countChan ch 0x3015 3
              let s := s.onChan ch fun c => { c with ueRepaired := satInc 32 c.ueRepaired }
              (r, s.log 0x01 (chanDie ch) ch (line * 64))

/-! ## Write-combining buffers -/

/-- Channel and line whose WCB holds a place. -/
def State.wcbOf (s : State) : Place → Nat × Nat
  | .plain ch co => (ch, co / 64)
  | .strong g m co => (s.wcbChan g m (co / 256), co / 64)
  | .nowhere => (0, 0)

/-- Mask of n bytes from byte b. -/
def byteMask (b n : Nat) : Nat := (2 ^ n - 1) <<< b

/-- Every byte of a line. -/
def fullMask : Nat := 2 ^ 64 - 1

/-- Bytes of new where the mask is set, else of old. -/
def mergeBytes (mask : Nat) (new old : Bytes) : Bytes :=
  (upto 64).map fun i => if mask.testBit i then new.getD i 0 else old.getD i 0

/-- A WCB line holds its poison: it came with poison and was written whole (R366). -/
def WLine.whole (w : WLine) : Bool := w.mask == fullMask

/-- What a reader of a guest sees of the line of a pool address: plaintext and poison, from the WCB merged over DRAM (R331,
R365, R366). -/
structure Seen where
  data : Bytes := []
  poison : Bool := false
  degraded : Bool := false
  waits : Bool := false
deriving DecidableEq, Repr

/-- The line at a pool address as a reader of gid sees it: with another guest's key it gets what its own key makes of the stored bits,
whether they have left the WCB or not (R390, R394). -/
def State.readLine (s : State) (pa gid : Nat) (e1 : Nat := 0) (e2 : Nat := 0) : Seen × State :=
  let a := pa / 64 * 64
  let pl := s.place a
  let (ch, line) := s.wcbOf pl
  match (s.chan ch).wcb.find line with
  | some w =>
    let view (bs : Bytes) : Bytes := if w.gid == gid || s.inTables a then bs else s.unseal a gid (s.seal a w.gid bs)
    if w.whole then ({ data := if w.poison then poisonBytes 0 64 else view w.data, poison := w.poison }, s)
    else
      let (r, s) := s.fetch pl 0 e1 e2 (some gid)
      if r.waits then ({ waits := true }, s)
      else if r.lost || r.dmeta.testBit 0 then ({ data := poisonBytes 0 64, poison := true, degraded := r.degraded }, s)
      else ({ data := view (mergeBytes w.mask w.data (s.unseal a w.gid r.data)), degraded := r.degraded }, s.keyLook ch a gid)
  | none =>
    let (r, s) := s.fetch pl 0 e1 e2 (some gid)
    if r.waits then ({ waits := true }, s)
    else if r.lost || r.dmeta.testBit 0 then ({ data := poisonBytes 0 64, poison := true, degraded := r.degraded }, s)
    else ({ data := s.unseal a gid r.data, degraded := r.degraded }, s.keyLook ch a gid)

/-- A line read by a burst that a channel had issued, which completes in RETRAINING too (Table 10.9, step 1). -/
def State.readIssued (s : State) (ch pa gid e1 e2 : Nat) : Seen × State :=
  if (s.chan ch).st == 5 then
    let (x, t) := (s.onChan ch fun c => { c with st := 4 }).readLine pa gid e1 e2
    (x, t.onChan ch fun c => { c with st := 5 })
  else s.readLine pa gid e1 e2

/-- The line at a pool address is lost for writes: its channel failed without copy and without redundancy (R383, R384). -/
def State.lineLost (s : State) (pa : Nat) : Bool :=
  match s.place (pa / 64 * 64) with
  | .nowhere => true
  | .plain ch _ => (s.chan ch).gone
  | .strong g m co =>
    let stripe := co / 256
    let dead (o : Nat) : Bool := match s.memberChan g o stripe with | none => true | some c => (s.chan c).gone
    dead m && ((upto 9).filter fun o => o != m && dead o).length != 0

/-- Metadata of a line written whole: HSH kept, POISON as the write says, PSTALE clear (R361, R366). -/
def lineMeta (poison hsh : Bool) : Nat := b2n poison + 2 * b2n hsh

/-- The Δ of a drain goes to the parity Cellar; with no parity member the drain is without Δ (R371, R372). -/
def State.sendDelta (s : State) (g m line : Nat) (d : Bytes) (dm : Nat) : State :=
  match s.memberChan g 8 (line / 4) with
  | some p => s.onChan p fun c => { c with deltas := c.deltas ++ [(m, line, s.now, d, dm)] }
  | none => s

/-- The metadata of a stored line changes and its data stays, and the change goes to the parity Cellar (R224, R230, R369). -/
def State.putMeta (s : State) (pl : Place) (f : Nat → Nat) : State :=
  let (ch, line) := s.wcbOf pl
  let d := decodeLine (s.rawLine ch line) (s.strongChan ch)
  if (s.chan ch).gone || d.res == 2 || f d.dmeta == d.dmeta then s
  else
    let s := s.putLine ch line d.data (f d.dmeta)
    match pl with
    | .strong g m _ => s.sendDelta g m line (zeroBytes 64) (d.dmeta ^^^ f d.dmeta)
    | _ => s

/-- One WCB line drains to DRAM (R331, R366, R371, R379, R394). A line that cannot be read where it must be, or whose
channel does not serve, stays. -/
def State.drainLine (s : State) (ch line : Nat) : State :=
  match (s.chan ch).wcb.find line with
  | none => s
  | some w =>
    let pl : Place := match s.memberOf ch with
      | some (g, m) => .strong g m (line * 64)
      | none =>
        match (upto 5).findSome? fun g => match (s.group g).rebuild with | some (m, sp, _) => if sp == ch then some (g, m) else none | none => none with
        | some (g, m) => .strong g m (line * 64)
        | none => .plain ch (line * 64)
    let pa := match pl with
      | .strong g m co => ((co / 256) * (8 * groupCount s.cellar.layout) + 8 * g + m) * 256 + co % 256
      | _ => (s.lineAddr ch line).getD 0
    let strong := match pl with | .strong _ _ _ => true | _ => false
    let evac := match pl with | .strong g m _ => (s.group g).evac == some m | _ => false
    let dead := (s.chan ch).gone && !evac
    if (s.chan ch).awayAt line then s
    else if dead && !strong then s.onChan ch fun c => { c with wcb := c.wcb.del line }
    else
      let (old, s) := if w.whole && !strong then ({ data := zeroBytes 64 }, s) else s.fetch pl 0 0 0 none
      if old.waits then s
      else
        let poisoned := old.lost || old.dmeta.testBit 0
        let plain := if w.whole then w.data else mergeBytes w.mask w.data (if poisoned then poisonBytes 0 64 else s.unseal pa w.gid old.data)
        let cipher := s.seal pa w.gid plain
        let s := s.keyLook ch pa w.gid
        let dm := lineMeta (if w.whole then w.poison else poisoned) w.hsh
        let s := if w.whole then s else s.countChan ch 0x3014 3
        let s := if dead then s else s.putLine ch line cipher dm
        let s := match pl with
          | .strong g m _ =>
            if old.lost then s
            else
              let s := s.sendDelta g m line (old.data.zipWith (· ^^^ ·) cipher) (old.dmeta ^^^ dm)
              match s.memberChan g 8 (line / 4) with
              | some p => (s.onChan p fun c => { c with plog := c.plog.filter (· != (m, line)) }).leaveQ (qidPlog g) (m * 2 ^ 33 + line)
              | none => s
          | _ => s
        ((s.onChan ch fun c => { c with wcb := c.wcb.del line }).countChan ch 0x3014 1).leaveQ (qidWcb ch) line

/-- A WCB line tagged with another guest drains before a write of this guest to it, as no guest's data goes out under another's key
(R389, R394). One that cannot drain is given up. DESIGN CHOICE (assumption 66). -/
def State.clearForeign (s : State) (pa gid : Nat) : State :=
  let a := pa / 64 * 64
  let (ch, line) := s.wcbOf (s.place a)
  match (s.chan ch).wcb.find line with
  | none => s
  | some w =>
    if w.gid == gid || s.inTables a then s else
    let s := s.drainLine ch line
    if (s.chan ch).wcb.has line then (s.onChan ch fun c => { c with wcb := c.wcb.del line }).discardQ (qidWcb ch) line else s

/-- A write of some bytes of one line enters the WCB and merges there (R331, R366, R370). -/
def State.wcbWrite (s : State) (pa gid : Nat) (bs : Bytes) (poison : Bool) : State :=
  let s := s.clearForeign pa gid
  let a := pa / 64 * 64
  let pl := s.place a
  let (ch, line) := s.wcbOf pl
  let m := byteMask (pa % 64) bs.length
  let old := (s.chan ch).wcb.find line
  let w := old.getD { data := zeroBytes 64, entered := s.now }
  let new := zeroBytes (pa % 64) ++ bs
  let w := { w with data := mergeBytes m (padBytes 64 new) w.data, mask := w.mask ||| m, gid := gid, written := s.now,
                    poison := if m == fullMask then poison else w.poison && w.mask != m }
  let s := s.onChan ch fun c => { c with wcb := c.wcb.put line w, lastReq := s.now }
  let s := match pl with
    | .strong g mm co =>
      match s.memberChan g 8 (co / 256) with
      | some p =>
        if (s.chan p).plog.contains (mm, line) then s
        else (s.onChan p fun c => { c with plog := c.plog ++ [(mm, line)] }).enterQ (qidPlog ((s.memberOf p).getD (0, 0)).1) (mm * 2 ^ 33 + line)
      | none => s
    | _ => s
  if old.isSome then s.countChan ch 0x3014 0 else s.enterQ (qidWcb ch) line

/-- Lines of a parity channel whose WCB entries are taken: drained into, awaited or reserved (R370). -/
def Chan.parityHeld (c : Chan) : List Nat := (c.plog.map (·.2) ++ c.plines.keys ++ c.deltas.map (·.2.1)).dedup

/-- The parity Cellar has an entry for the parity line of a data line, where the parity member is there (R370). -/
def State.parityRoom (s : State) (pl : Place) : Bool :=
  match pl with
  | .strong g m co =>
    match s.memberChan g 8 (co / 256) with
    | some p => m == 8 || (s.chan p).parityHeld.contains (co / 64) || decide ((s.chan p).parityHeld.length < 4096)
    | none => true
  | _ => true

/-- The WCB of a line's channel has room for it, and the parity Cellar an entry of its parity line (R331, R370). -/
def State.wcbRoom (s : State) (pa : Nat) : Bool :=
  let pl := s.place pa
  let (ch, line) := s.wcbOf pl
  (s.chan ch).wcb.has line || (decide ((s.chan ch).wcb.size < 4096) && s.parityRoom pl)

/-- The device's own write of a part of a line: where the WCB has no room for it, it goes on to DRAM at once. -/
def State.wcbPut (s : State) (pa gid : Nat) (bs : Bytes) (poison : Bool := false) : State :=
  let room := s.wcbRoom pa
  let s := s.wcbWrite pa gid bs poison
  if room then s else (let x := s.wcbOf (s.place (pa / 64 * 64)); s.drainLine x.1 x.2)

/-- A write of table data, in DRAM at once. -/
def State.putThrough (s : State) (pa gid : Nat) (bs : Bytes) : State :=
  let s := s.wcbWrite pa gid bs false
  let x := s.wcbOf (s.place (pa / 64 * 64))
  s.drainLine x.1 x.2

/-- Every WCB line of a channel drains. -/
def State.drainChan (s : State) (ch : Nat) : State := (s.chan ch).wcb.keys.foldl (fun s l => s.drainLine ch l) s

/-- Lines of a pool-address range, by line address. -/
def lineAddrs (pa len : Nat) : List Nat := if len == 0 then [] else (upto ((pa + len - 1) / 64 + 1 - pa / 64)).map fun i => (pa / 64 + i) * 64

/-- An area of the device table region that is freed, or about to be used, is overwritten with zeros (R204, R400). -/
def State.zeroArea (s : State) (pa len gid : Nat) : State :=
  (lineAddrs pa len).foldl (fun (s : State) a => s.putThrough a gid (zeroBytes 64)) s

/-- Lines of the WCBs that a pool-address range reaches. -/
def State.wcbLinesIn (s : State) (pa len : Nat) : List (Nat × Nat) :=
  (s.cellar.chans.rows.map fun r => (r.2.wcb.keys.filter fun l =>
    match s.lineAddr r.1 l with | some a => overlaps a 64 pa len | none => false).map fun l => (r.1, l)).flatten

/-- WCB lines of a range drain; true when none is left. -/
def State.drainRange (s : State) (pa len : Nat) : Bool × State :=
  let s := (s.wcbLinesIn pa len).foldl (fun s x => s.drainLine x.1 x.2) s
  ((s.wcbLinesIn pa len).isEmpty, s)

/-- LRC lines that overlap a range are invalidated, fills in flight of them too (R38, R40). -/
def State.lrcDrop (s : State) (pa len : Nat) : State :=
  let hit (a : Nat) : Bool := overlaps (a * 64) 64 pa len
  { s with pool := { s.pool with
    lrc := s.pool.lrc.filter (fun a _ => !hit a),
    lrcFills := s.pool.lrcFills.map fun f => if hit f.1 then (f.1, f.2.1, f.2.2.1, true) else f } }

/-- LRC lines of a PUBLISH are invalidated and counted (R38, Table 16.6). -/
def State.lrcPublish (s : State) (pa len : Nat) : State :=
  (s.lrcDrop pa len).countN (dieLG 0) 0 0x5010 3 (s.pool.lrc.count fun a _ => overlaps (a * 64) 64 pa len)

end Sys2Proof.Machine
end

