-- ==== Sys2Proof/Machine/PoolOps.lean ====
section
/-! DEFINITION. Operations on guests, windows, translations, trackers and fault holds (R10 to R22, R31 to R37, R73 to
R75, R190 to R208) that packets, waybills and commands share. -/

namespace Sys2Proof.Machine

open Sys2Proof

/-! ## Windows and rights -/

/-- One GiB. -/
def gib : Nat := 2 ^ 30

/-- The window holds the address. -/
def Window.holds (w : Window) (pva : Nat) : Bool := w.valid && decide (w.base * gib ≤ pva) && decide (pva < (w.base + w.size) * gib)

/-- The valid window of a directory that holds an address. -/
def dirAt (dir : Tab Window) (pva : Nat) : Option Window := (dir.rows.find? fun r => r.2.holds pva).map (·.2)

/-- The guest's valid window that holds an address. -/
def Guest.windowAt (g : Guest) (pva : Nat) : Option Window := dirAt g.dir pva

/-- The window is homed on this device. -/
def State.homed (s : State) (w : Window) : Bool := w.home == s.pool.devid

/-- A window directory entry read from its 16 bytes (Table 1.4). -/
def windowOf (n : Nat) : Window :=
  { base := bitsOf n 127 110, size := bitsOf n 109 94, home := bitsOf n 93 88, valid := bitOf n 7, hearth := bitOf n 6,
    lrcAlloc := bitOf n 5, atomic := bitOf n 4, write := bitOf n 3, read := bitOf n 2 }

/-- Rights a request needs. -/
structure Need where
  read : Bool := false
  write : Bool := false
  atomic : Bool := false
deriving DecidableEq, Repr

/-- The window grants them. -/
def Window.grants (w : Window) (n : Need) : Bool := (!n.read || w.read) && (!n.write || w.write) && (!n.atomic || w.atomic)

/-- Check 2 of R20: the guest's state. A device that is not SERVING has no guest it serves (R23, R25, R28; assumption 22). -/
def State.guestCheck (s : State) (gid : Nat) : Option Nat :=
  match s.pool.guests.find gid with
  | none => some 0x07
  | some g => if s.pool.setState != 3 || g.tearing || g.fatal == 1 then some 0x07 else if g.fatal == 2 then some 0x0D else none

/-- Checks 3 and 4 of R20 by the directory under which the request was accepted (R22): the window of ADDR, the last byte, the
rights. -/
def State.windowCheck (s : State) (dir : Tab Window) (pva len : Nat) (need : Need) : Option Nat × Option Window :=
  match dirAt dir pva with
  | none => (some 0x05, none)
  | some w =>
    if !s.homed w then (some 0x05, none)
    else if !w.holds (pva + len - 1) then (some 0x04, none)
    else if !w.grants need then (some 0x07, none)
    else (none, some w)

/-- Check 5 of R20: the key. -/
def State.keyCheck (s : State) (gid : Nat) : Option Nat := if (s.guest gid).key.kstate != 1 then some 0x0D else none

/-- A key record that cannot be unwrapped makes its guest fatal (R396). -/
def State.keyFail (s : State) (gid : Nat) : State :=
  match s.pool.guests.find gid with
  | none => s
  | some g =>
    if g.fatal != 0 then s else
    let s := s.onGuest gid fun g => { g with fatal := 2 }
    ((s.log 0x0B (dieIK 0) gid).irqEdge 0x002).guestStreamsError gid 0x0D

/-- The key record of a guest verifies. -/
def State.keyUnwraps (s : State) (gid : Nat) : Bool := (unwrapKey s.sec.kwrap gid (s.guest gid).key).isSome

/-! ## Residency (R10 to R14) -/

/-- Guests resident. -/
def State.residents (s : State) : Nat := s.pool.guests.count fun _ g => g.resident

/-- The guest holds a tracker, or a waybill of it runs. -/
def State.guestBusy (s : State) (gid : Nat) : Bool :=
  (s.pool.reqs.rows.any fun r => r.2.gid == gid && r.2.stage != .mgmt && r.2.stage != .swap) ||
    (s.work.wbs.rows.any fun w => w.2.gid == gid && w.2.st == 1 && w.2.chunks.rows.any fun c => c.2.st == 1)

/-- Victim of a swap: the least recently used guest that is resident, not pinned and not busy (R11). -/
def State.swapVictim (s : State) : Option Nat :=
  (s.pool.guests.rows.foldl (fun (b : Option (Nat × Nat)) r =>
    if r.2.resident && !r.2.pinned && !s.guestBusy r.1 then
      (match b with | some v => if r.2.used < v.2 then some (r.1, r.2.used) else b | none => some (r.1, r.2.used)) else b) none).map (·.1)

/-- The spilled entry is written whole over its slot of the DRAM guest table, which clears POISON there (R11, R386). -/
def State.spill (s : State) (gid : Nat) : State :=
  let a := s.cellar.tableBase + gid * 4096
  let s := (lineAddrs a 0x1000).foldl (fun (s : State) (l : Nat) => State.useFree (s.wcbPut l gid (s.freeBytes 64)) 64) s
  s.onGuest gid fun g => { g with resident := false }

/-- A use of a guest, for the least recently used order. DESIGN CHOICE (assumption 27): a request's access, the dispatch of a
chunk, the end of a swap and the guest's definition are its uses; R11 does not say what is. -/
def State.touchGuest (s : State) (gid : Nat) : State :=
  State.onGuest { s with pool := { s.pool with stamp := s.pool.stamp + 1 } } gid fun g => { g with used := s.pool.stamp + 1 }

/-- A swap takes a slot: a free one, or that of a victim which is spilled (R11). -/
def State.swapSlot (s : State) (w : Swap) : State :=
  let put (s : State) (w : Swap) : State := { s with pool := { s.pool with swaps := s.pool.swaps.map fun x => if x.gid == w.gid then w else x } }
  if w.slot then s
  else if s.residents + (s.pool.swaps.filter (·.slot)).length < 16384 then put s { w with slot := true }
  else match s.swapVictim with
    | some v => put (s.spill v) { w with slot := true }
    | none => s

/-- A spilled guest is wanted: a swap starts, or the swap that runs is joined (R10, R12). -/
def State.startSwap (s : State) (gid : Nat) : State :=
  if s.pool.swaps.any (·.gid == gid) then s else
  let w : Swap := { gid := gid, since := s.now }
  (State.swapSlot { s with pool := { s.pool with swaps := s.pool.swaps ++ [w] } } w).countLedger 0x5013 0

/-- A waybill waits for the swap of its guest (R10). -/
def State.swapWb (s : State) (gid key : Nat) : State :=
  let s := s.startSwap gid
  { s with pool := { s.pool with swaps := s.pool.swaps.map fun x => if x.gid == gid && !x.wbs.contains key then { x with wbs := x.wbs ++ [key] } else x } }

/-- A stream's fetch waits for the swap of its guest (R10). -/
def State.swapFetch (s : State) (gid k : Nat) : State :=
  let s := s.startSwap gid
  { s with pool := { s.pool with swaps := s.pool.swaps.map fun x => if x.gid == gid && !x.fetches.contains k then { x with fetches := x.fetches ++ [k] } else x } }

/-! ## Trackers (R73 to R75) -/

/-- Free trackers of a pool: 0 shared, 2 and 3 the reserves (R74). -/
def State.poolFree (s : State) (k : Nat) : Nat :=
  (if k == 0 then trackerCount - s.trkSizes.1 - s.trkSizes.2 else if k == 2 then s.trkSizes.1 else s.trkSizes.2) - s.poolUsed k

/-- Pool from which a request of a class takes a tracker now, if any has one (R74). -/
def State.trackerPool (s : State) (tc : Nat) : Option Nat :=
  if 0 < s.poolFree 0 then some 0
  else if tc == 2 && 0 < s.poolFree 2 then some 2
  else if tc == 3 && 0 < s.poolFree 3 then some 3
  else none

/-- The pool that a class draws on has one free tracker left (R75). -/
def State.lastTracker (s : State) (tc : Nat) : Bool := match s.trackerPool tc with | some k => s.poolFree k == 1 | none => false

/-- A request put into a free tracker, with its guest's directory of now and the high-water mark (R22, R73, R86). -/
def State.putReq (s : State) (t k : Nat) (r : Req) : State :=
  let r : Req := { r with pool := k, since := s.now, dirEpoch := s.pool.dirEpoch, dir := (s.guest r.gid).dir }
  let s : State := s.settleTrk
  let s : State := { s with pool := { s.pool with reqs := s.pool.reqs.put t r } }
  let s : State := s.countLedger 0x5012 0
  if s.reg Obj.trkHighWater < s.pool.reqs.size then s.setReg Obj.trkHighWater s.pool.reqs.size else s

/-- A request takes a tracker: its number and the state, or none. -/
def State.takeTracker (s : State) (r : Req) : Option (Nat × State) :=
  match s.trackerPool r.p.tc with
  | none => none
  | some k => (s.pool.reqs.lowestFree trackerCount).map fun t => (t, s.putReq t k r)

/-- A tracker frees. -/
def State.freeTracker (s : State) (t : Nat) : State := State.settleTrk { s with pool := { s.pool with reqs := s.pool.reqs.del t } }

/-- A request changed. -/
def State.onReq (s : State) (t : Nat) (f : Req → Req) : State := { s with pool := { s.pool with reqs := s.pool.reqs.upd t f } }

/-- A request ends with a status: an answer, or for a posted packet a discard that is counted (R280, R281). -/
def State.endReq (s : State) (t status : Nat) (data : Bytes) (poi : Bool) : State :=
  match s.pool.reqs.find t with
  | none => s
  | some r =>
    let posted := r.p.opc == 0x03 || r.p.opc == 0x05
    let s := if posted then s.freeTracker t else s.onReq t fun r => { r with stage := .answer }
    if posted then (if status == 0 || status == 2 then s else s.dropPkt r.link 7)
    else s.originate (answerTo r.p status data poi) (some t)

/-! ## The window table and translation (R190 to R198) -/

/-- Bytes that one entry of a level spans (Table 6.1). -/
def levelSpan (l : Nat) : Nat := if l == 0 then 2 ^ 39 else if l == 1 then 2 ^ 30 else if l == 2 then 2 ^ 21 else 2 ^ 16

/-- Pages of a run (R191). -/
def runPages (r : Nat) : Nat := if r == 1 then 4 else if r == 2 then 8 else if r == 3 then 16 else 1

/-- The leaf covers an address of a guest. -/
def Leaf.covers (l : Leaf) (gid pva : Nat) : Bool := l.gid == gid && decide (l.pva ≤ pva) && decide (pva < l.pva + levelSpan l.level)

/-- The leaf that maps an address. -/
def State.leafAt (s : State) (gid pva : Nat) : Option Leaf := s.trans.leaves.find? fun l => l.covers gid pva

/-- A line of the table region reads with POISON set or stays uncorrectable (R194). -/
def State.tableLineBad (s : State) (pa : Nat) : Bool :=
  let look (ch line : Nat) : Bool :=
    let d := decodeLine (s.rawLine ch line) (s.strongChan ch)
    d.res == 2 || d.dmeta.testBit 0
  match s.place (pa / 64 * 64) with
  | .nowhere => true
  | .plain ch co => (s.chan ch).gone || look ch (co / 64)
  | .strong g m co => match s.memberChan g m (co / 256) with
    | some ch => look ch (co / 64) && (s.reconstruct g m (co / 64) 0).1.lost
    | none => (s.reconstruct g m (co / 64) 0).1.lost

/-- Index of an address in a table of a level (Table 6.1). -/
def levelIndex (l pva : Nat) : Nat := if l == 3 then pva / 2 ^ 16 % 32 else pva / levelSpan l % 512

/-- A table lies on the way of an address. -/
def WTable.covers (t : WTable) (gid pva : Nat) : Bool :=
  t.gid == gid && decide (t.pva ≤ pva) && decide (pva < t.pva + (if t.level == 0 then 2 ^ 48 else levelSpan (t.level - 1)))

/-- Level of the first table that a walk reads: below the deepest pointer that the translation cache holds for the address (R197). -/
def State.walkFrom (s : State) (gid pva : Nat) : Nat :=
  s.trans.cache.foldl (fun l e => if e.ptr && e.gid == gid && decide (e.base ≤ pva) && decide (pva < e.base + e.span) then max l (e.level + 1) else l) 0

/-- A walk reads one line of each table from there down to the leaf; one of them is unreadable (R194). -/
def State.walkBad (s : State) (gid pva : Nat) : Bool :=
  let from_ := s.walkFrom gid pva
  s.trans.tables.any fun t => t.covers gid pva && decide (from_ ≤ t.level) && s.tableLineBad (t.at_ + 8 * levelIndex t.level pva)

/-- Pointers that a walk to an address has met, as entries of the translation cache (R191, R197). -/
def State.pointers (s : State) (gid pva : Nat) : List TlbEnt :=
  (s.trans.tables.filter fun t => t.covers gid pva && t.level != 0).map fun t =>
    { gid := gid, level := t.level - 1, base := t.pva, span := levelSpan (t.level - 1), pa := t.at_, ptr := true }

/-- What a translation meets (Table 6.3). -/
inductive Xl where
  /-- It ends at once with a status. -/
  | stop (status : Nat)
  /-- A non-resident page: level and first PVA. -/
  | hold (level pva : Nat)
  /-- A page allocated and not yet written: level, first PVA, pool address. -/
  | zero (level pva pa : Nat)
  | ok (pa : Nat)
  /-- No entry of the cache covers it: a walk is needed. -/
  | miss
deriving DecidableEq, Repr

/-- Entry that a leaf fills: its page, or its run (R198). -/
def Leaf.entry (l : Leaf) : TlbEnt :=
  let page := levelSpan l.level
  let n := if l.nr || l.zm then 1 else runPages l.run
  let base := l.pva / (page * n) * (page * n)
  { gid := l.gid, level := l.level, base := base, span := page * n, nr := l.nr, zm := l.zm, wp := l.wp, pa := (l.pa : Int) - (l.pva - base : Nat) }

/-- The entry is of a page or run that covers an address. -/
def TlbEnt.covers (e : TlbEnt) (gid pva : Nat) : Bool := !e.ptr && e.gid == gid && decide (e.base ≤ pva) && decide (pva < e.base + e.span)

/-- Outcome of an entry for an address, by the rows of Table 6.3 in order. -/
def State.entryOutcome (s : State) (e : TlbEnt) (pva : Nat) (write : Bool) : Xl :=
  let page := pva / levelSpan e.level * levelSpan e.level
  if e.nr then .hold e.level page
  else if e.wp && write then .stop 0x07
  else
    let pa := e.pa + ((pva - e.base : Nat) : Int)
    if pa < 0 || (s.cellar.tableBase : Int) ≤ pa then .stop 0x05
    else if e.zm then .zero e.level page (pa.toNat - (pva - page))
    else .ok pa.toNat

/-- The page of a MIGRATE_OUT in progress holds the address: level and first PVA; new translations of it are held (R211). -/
def State.outPage (s : State) (gid pva : Nat) : Option (Nat × Nat) :=
  match s.trans.commit with
  | some c =>
    if c.gid == gid && (c.phase == 3 || c.phase == 4) then
      (c.recs.find? fun u => u.op == 3 && decide (u.pva ≤ pva) && decide (pva < u.pva + levelSpan u.level)).map fun u => (u.level, u.pva)
    else none
  | none => none

/-- Outcome by the translation cache (R194). -/
def State.xlCached (s : State) (gid pva : Nat) (write : Bool) : Xl :=
  match s.outPage gid pva with
  | some (l, p) => .hold l p
  | none =>
  match s.trans.cache.find? fun e => e.covers gid pva with
  | some e => s.entryOutcome e pva write
  | none => .miss

/-- Records that the fault queue has room for (R208). -/
def State.fqRoom (s : State) : Nat := 2 ^ s.reg Obj.fqLog2 - wrapSub 32 s.trans.fqTail (s.reg Obj.fqHead)

/-- A TABLE_ERROR record (Table 6.6) is made; so are the others, by this operation. A ZM_CLEARED record is dropped where 256 of them wait
behind a full queue (R208). -/
def State.fqAdd (s : State) (r : FqRec) : State :=
  let zms := ((s.trans.fq.drop s.fqRoom).filter (·.ty == 2)).length
  if s.reg Obj.fqLog2 == 0 || (r.ty == 2 && 256 ≤ zms && decide (s.fqRoom ≤ s.trans.fq.length)) then
    (if r.ty == 2 then s.setReg Obj.zmLost (satInc 32 (s.reg Obj.zmLost)) else s)
  else { s with trans := { s.trans with fq := s.trans.fq ++ [r] } }

/-- Entries put into the translation cache, which holds 12,582,912 (R197). -/
def State.cacheAdd (s : State) (es : List TlbEnt) : State :=
  { s with trans := { s.trans with cache := (es ++ s.trans.cache.filter fun e => !es.contains e).take 12582912 } }

/-- A walk of the table: the outcome, with the cache filled (R194, R197). -/
def State.xlWalk (s : State) (gid pva : Nat) (write : Bool) : Xl × State :=
  let s := s.countLedger 0x5011 2
  if s.walkBad gid pva then (.stop 0x05, s.fqAdd { ty := 4, gid := gid, pva := pva, gen := (s.guest gid).gen })
  else match s.leafAt gid pva with
    | none => (.stop 0x05, s)
    | some l => (s.entryOutcome l.entry pva write, s.cacheAdd (l.entry :: s.pointers gid pva))

/-- A walk whose faults leave no record (R70, R80). -/
def State.xlQuiet (s : State) (gid pva : Nat) (write : Bool) : Xl × State :=
  if s.walkBad gid pva then (.stop 0x05, s.countLedger 0x5011 2) else s.xlWalk gid pva write

/-- Pages that a byte range touches, as the first address of the range in each; ranges are split at 64 KiB, the smallest page. -/
def pieces (pva len : Nat) : List (Nat × Nat) :=
  if len == 0 then [] else
  (upto ((pva + len - 1) / 65536 + 1 - pva / 65536)).map fun i =>
    let a := max pva ((pva / 65536 + i) * 65536)
    let b := min (pva + len) ((pva / 65536 + i + 1) * 65536)
    (a, b - a)

/-- A zero fill runs on the page. -/
def State.filling (s : State) (pa : Nat) : Option ZFill := s.pool.fills.find? fun f => decide (f.pa ≤ pa) && decide (pa < f.pa + f.size)

/-! ## Fault table (R206 to R208) -/

/-- Requests, granules and fetches held on an entry (HELD of Table 6.6). -/
def State.heldOn (s : State) (n : Nat) : Nat :=
  let on (h : Hold) : Bool := h.fault == some n
  (s.pool.reqs.count fun _ r => match r.stage with | .hold h => on h | _ => false) +
  (s.work.wbs.rows.foldl (fun c w => c + w.2.holds.count fun _ h => on h) 0) +
  (s.work.streams.count fun _ t => t.held.any on) + (s.work.ctxs.count fun _ x => x.hold.any on)

/-- A held granule as an item of the fault table's queue. -/
def holdItem (wb g : Nat) : Nat := 2 ^ 64 + wb * 2 ^ 28 + g

/-- A held request joins or opens the entry of its page; none while the table is full (R206). -/
def State.openFault (s : State) (gid level pva : Nat) (write atomic porter : Bool) : Option Nat × State :=
  match s.trans.faults.rows.find? fun r => r.2.gid == gid && r.2.pva == pva && r.2.level == level with
  | some r => (some r.1, s)
  | none =>
    if 4096 ≤ s.trans.faults.size then (none, s) else
    let n := s.trans.nextFault
    let quiet := match s.trans.commit with
      | some c => c.gid == gid && (c.phase == 3 || c.phase == 4) && c.recs.any fun u => u.op == 3 && u.pva == pva
      | none => false
    let e : FaultEnt := { gid := gid, pva := pva, level := level, wr := write, at_ := atomic, porter := porter, quiet := quiet }
    let s := State.countLedger { s with trans := { s.trans with faults := s.trans.faults.put n e, nextFault := if n + 1 < 2 ^ 32 then n + 1 else 1 } } 0x5011 4
    (some n, if quiet then s else s.fqAdd { ty := 1, wr := write, at_ := atomic, porter := porter, gid := gid, fault := n, level := level, pva := pva, gen := (s.guest gid).gen })

/-- A hold joins or opens the fault-table entry of its page. -/
def State.openHold (s : State) (gid : Nat) (h : Hold) (porter : Bool) : Hold × State :=
  let (n, s) := s.openFault gid h.level h.page h.write h.atomic porter
  ({ h with fault := n }, s)

/-- Holds of requests, granules, fetches and write-backs that wait for a fault-table entry: whose, the guest, the hold, and whether it
comes from a Porter cluster. -/
def State.unfiled (s : State) : List (HoldOf × Nat × Hold × Bool) :=
  let free (h : Hold) : Bool := h.fault.isNone
  (s.pool.reqs.rows.filterMap fun r => match r.2.stage with | .hold h => if free h then some (.req r.1, r.2.gid, h, false) else none | _ => none) ++
    (s.work.wbs.rows.map fun w => (w.2.holds.rows.filter fun h => free h.2).map fun h => (HoldOf.granule w.2.stream w.2.seq h.1, w.2.gid, h.2, true)).flatten ++
    (s.work.streams.rows.filterMap fun t => match t.2.held with | some h => if free h then some (.fetch t.1, t.2.gid, h, true) else none | none => none) ++
    (s.work.ctxs.rows.filterMap fun x => match x.2.hold with | some h => if free h then some (.ctx x.1, x.2.gid, h, true) else none | none => none)

/-- The hold of a request, granule, fetch or write-back is now this. -/
def State.setHold (s : State) (k : HoldOf) (h : Hold) : State :=
  match k with
  | .req t => s.onReq t fun r => { r with stage := .hold h }
  | .granule k q g => { s with work := { s.work with wbs := s.work.wbs.upd (k * 2 ^ 32 + q) fun w => { w with holds := w.holds.put g h } } }
  | .fetch k => { s with work := { s.work with streams := s.work.streams.upd k fun t => { t with held := some h } } }
  | .ctx r => { s with work := { s.work with ctxs := s.work.ctxs.upd r fun x => { x with hold := some h } } }

/-- Holds in the order in which they began. -/
def oldestHolds (l : List (HoldOf × Nat × Hold × Bool)) : List (HoldOf × Nat × Hold × Bool) :=
  l.foldr (fun x l => (l.takeWhile fun y => decide (y.2.2.1.since < x.2.2.1.since)) ++ x :: l.dropWhile fun y => decide (y.2.2.1.since < x.2.2.1.since)) []

/-- An entry has freed: the holds that wait for one take it, oldest first (R206). -/
def State.refile (s : State) : State :=
  (oldestHolds s.unfiled).foldl (fun (s : State) x =>
    let (h, s) := s.openHold x.2.1 x.2.2.1 x.2.2.2
    if h.fault.isSome then s.setHold x.1 h else s) s

/-- An entry with nothing held on it frees, with a HOLD_EXPIRED record when holds expired (R206, R207). -/
def State.closeFault (s : State) (n : Nat) : State :=
  match s.trans.faults.find n with
  | none => s
  | some e =>
    if s.heldOn n != 0 then s else
    let s := { s with trans := { s.trans with faults := s.trans.faults.del n } }
    let s := if e.expired && !e.quiet then s.fqAdd { ty := 3, wr := e.wr, at_ := e.at_, porter := e.porter, gid := e.gid, fault := n, level := e.level, pva := e.pva, gen := (s.guest e.gid).gen } else s
    s.refile

/-! ## LRC (R37) -/

/-- The LRC holds the line for the guest; whether a line filled earlier is still there is a free value (assumption 14). -/
def State.lrcLook (s : State) (pa gid : Nat) : Option Bytes × State :=
  let s := s.countLedger 0x5010 0
  match s.pool.lrc.find (pa / 64) with
  | some (g, d) =>
    if g != gid then (none, s)
    else
      let kept := Config.freeBool s.freeCount
      let s := s.useFree 1
      if kept then (some d, s.countLedger 0x5010 1) else (none, { s with pool := { s.pool with lrc := s.pool.lrc.del (pa / 64) } })
  | none => (none, s)

/-- A read that may allocate starts a fill of its line (R37). -/
def State.lrcFill (s : State) (pa gid : Nat) (d : Bytes) : State :=
  { s with pool := { s.pool with lrcFills := s.pool.lrcFills ++ [(pa / 64, gid, d, false)] } }

/-- The pool address lies in the hearth range (R215). -/
def State.inHearth (s : State) (pa : Nat) : Bool :=
  s.cellar.hearthState == 1 && decide (s.inForce Obj.hearthBase ≤ pa) && decide (pa < s.inForce Obj.hearthBase + s.inForce Obj.hearthSize)

end Sys2Proof.Machine
end

