-- ==== Sys2Proof/Machine/Routing.lean ====
section
/-! DEFINITION. Routes, guest map, keys, queues, congestion and egress scheduling (chapter 09: R288 to R293, R303 to R322). -/

namespace Sys2Proof.Machine

open Sys2Proof

/-! ## Routes (R288, R293, R306, R307) -/

/-- A ROUTE_CMD. -/
def routeCmd (s : State) (code : Nat) (f : State → State) : Host.Outcome State Fault Refusal :=
  record s Obj.routeCmdOp Obj.routeCmdResult code f

/-- RESULT of ROUTE_CMD. -/
def State.routeResult (s : State) (v : Nat) : State := s.setReg Obj.routeCmdResult v

/-- DST_EPID of ROUTE_CMD. -/
def State.routeEpid (s : State) : Nat := s.reg Obj.routeCmdEpid % 2 ^ 20

/-- An entry may be written: DROP or PAIR, reserved bits 0, and a pair in use (Table 9.4, Table 9.6). -/
def State.entryOk (s : State) (e : Nat) : Bool :=
  bitsOf e 12 4 == 0 && (bitsOf e 15 14 == 0 || (bitsOf e 15 14 == 2 && s.pairMode (bitsOf e 3 0) != 0))

/-- The update point of a route command: it drains what was routed before (R306). -/
def State.routeUpdate (s : State) (what : Nat × Nat) : State :=
  State.routeResult { s with fabric := { s.fabric with routeEpoch := s.fabric.routeEpoch + 1, routeWait := some what } } 0x01

/-- SET_BLOCK (R288). -/
def execSetBlock (s : State) : Host.Outcome State Fault Refusal :=
  routeCmd s 0x01 fun s =>
    let e := s.reg Obj.routeCmdEntry
    let b := s.routeEpid / 256
    if !s.entryOk e then s.routeResult 0x04
    else State.routeUpdate { s with fabric := { s.fabric with blockRoutes := s.fabric.blockRoutes.put b e } } (0, b)

/-- SET_EXACT (R288): at most 4,096 exact entries. -/
def execSetExact (s : State) : Host.Outcome State Fault Refusal :=
  routeCmd s 0x02 fun s =>
    let e := s.reg Obj.routeCmdEntry
    let d := s.routeEpid
    if !s.entryOk e then s.routeResult 0x04
    else if !s.fabric.exactRoutes.has d && 4096 ≤ s.fabric.exactRoutes.size then s.routeResult 0x02
    else State.routeUpdate { s with fabric := { s.fabric with exactRoutes := s.fabric.exactRoutes.put d e } } (1, d)

/-- CLEAR_EXACT (R288). -/
def execClearExact (s : State) : Host.Outcome State Fault Refusal :=
  routeCmd s 0x03 fun s =>
    let d := s.routeEpid
    if !s.fabric.exactRoutes.has d then s.routeResult 0x03
    else State.routeUpdate { s with fabric := { s.fabric with exactRoutes := s.fabric.exactRoutes.del d } } (1, d)

/-- PAIR_OUT and PAIR_IN on a pair in use (R293). -/
def State.pairCmd (s : State) (f : Nat → Nat) : State :=
  let k := s.reg Obj.routeCmdPair
  if 16 ≤ k || s.pairMode k == 0 then s.routeResult 0x04
  else State.routeUpdate { s with fabric := { s.fabric with pairOut := f k } } (2, k)

/-- PAIR_OUT (R293): new headers to the pair are undeliverable. -/
def execPairOut (s : State) : Host.Outcome State Fault Refusal :=
  routeCmd s 0x04 fun s => s.pairCmd fun k => setBit s.fabric.pairOut k

/-- PAIR_IN (R293). -/
def execPairIn (s : State) : Host.Outcome State Fault Refusal :=
  routeCmd s 0x05 fun s => s.pairCmd fun k => clearBit s.fabric.pairOut k

/-- QUERY of ROUTE_CMD: the entry in use for an EPID. -/
def execRouteQuery (s : State) : Host.Outcome State Fault Refusal :=
  routeCmd s 0x06 fun s => (s.setReg Obj.routeCmdEntry (s.routeEntry s.routeEpid)).routeResult 0x00

/-- A queued packet was routed by what an update changed, before it (R306). -/
def State.routedOld (s : State) (what : Nat × Nat) (e : EPkt) : Bool :=
  decide (e.epoch < s.fabric.routeEpoch) &&
    (if what.1 == 0 then e.p.dst / 256 == what.2 && !s.fabric.exactRoutes.has e.p.dst
     else if what.1 == 1 then e.p.dst == what.2 else e.link % 16 == what.2)

/-! ## The guest map (R304 to R307) -/

/-- A GMAP_CMD. -/
def gmapCmd (s : State) (code : Nat) (f : State → State) : Host.Outcome State Fault Refusal :=
  record s Obj.gmapCmdOp Obj.gmapCmdResult code f

/-- RESULT of GMAP_CMD. -/
def State.gmapResult (s : State) (v : Nat) : State := s.setReg Obj.gmapCmdResult v

/-- The command names a wildcard entry. -/
def State.gmapWildcard (s : State) : Bool := bitOf (s.reg Obj.gmapCmdEpid) 31

/-- SRC_EPID of GMAP_CMD. -/
def State.gmapEpid (s : State) : Nat := s.reg Obj.gmapCmdEpid % 2 ^ 20

/-- Row of an exact entry. -/
def gmapKey (src pkey : Nat) : Nat := src * 65536 + pkey

/-- GID of a source and key: the exact entry, else the wildcard one (R305). -/
def State.gmapLook (s : State) (src pkey : Nat) : Option Nat :=
  (s.fabric.gmapExact.find (gmapKey src pkey)) <|> (s.fabric.gmapWild.find pkey)

/-- Entry that the command names. -/
def State.gmapEntry (s : State) : Option Nat :=
  if s.gmapWildcard then s.fabric.gmapWild.find (s.reg Obj.gmapCmdPkey) else s.fabric.gmapExact.find (gmapKey s.gmapEpid (s.reg Obj.gmapCmdPkey))

/-- The update point of a guest-map command (R306). -/
def State.gmapUpdate (s : State) (exact wild : Tab Nat) : State :=
  let what := (s.reg Obj.gmapCmdPkey, if s.gmapWildcard then none else some s.gmapEpid)
  State.gmapResult { s with fabric := { s.fabric with gmapExact := exact, gmapWild := wild, gmapEpoch := s.fabric.gmapEpoch + 1, gmapWait := some what } } 0x01

/-- A table of the guest map has no room for a new entry (R304). -/
def State.gmapFull (s : State) : Bool :=
  if s.gmapWildcard then decide (65536 ≤ s.fabric.gmapWild.size) else decide (262144 ≤ s.fabric.gmapExact.size)

/-- SET of GMAP_CMD (R304, R321): the first of three faults decides. -/
def execGmapSet (s : State) : Host.Outcome State Fault Refusal :=
  gmapCmd s 0x01 fun s =>
    let k := s.reg Obj.gmapCmdPkey
    let g := s.reg Obj.gmapCmdGid % 2 ^ 20
    if !(decide (1 ≤ k) && decide (k ≤ 0xFFFE)) then s.gmapResult 0x05
    else if !s.pool.guests.has g then s.gmapResult 0x04
    else if s.gmapEntry.isNone && s.gmapFull then s.gmapResult 0x02
    else if s.gmapWildcard then s.gmapUpdate s.fabric.gmapExact (s.fabric.gmapWild.put k g)
    else s.gmapUpdate (s.fabric.gmapExact.put (gmapKey s.gmapEpid k) g) s.fabric.gmapWild

/-- CLEAR of GMAP_CMD (R304, R307). -/
def execGmapClear (s : State) : Host.Outcome State Fault Refusal :=
  gmapCmd s 0x02 fun s =>
    let k := s.reg Obj.gmapCmdPkey
    if !(decide (1 ≤ k) && decide (k ≤ 0xFFFE)) then s.gmapResult 0x05
    else if s.gmapEntry.isNone then s.gmapResult 0x03
    else if s.gmapWildcard then s.gmapUpdate s.fabric.gmapExact (s.fabric.gmapWild.del k)
    else s.gmapUpdate (s.fabric.gmapExact.del (gmapKey s.gmapEpid k)) s.fabric.gmapWild

/-- QUERY of GMAP_CMD. -/
def execGmapQuery (s : State) : Host.Outcome State Fault Refusal :=
  gmapCmd s 0x03 fun s =>
    match s.gmapEntry with
    | some g => (s.setReg Obj.gmapCmdGid g).gmapResult 0x00
    | none => s.gmapResult 0x03

/-- A source and key, looked up at a guest-map count, matched the entry that an update changed (R306). -/
def State.mappedOld (s : State) (what : Nat × Option Nat) (src pkey epoch : Nat) : Bool :=
  decide (epoch < s.fabric.gmapEpoch) && pkey == what.1 &&
    (match what.2 with | some e => src == e | none => !s.fabric.gmapExact.has (gmapKey src pkey))

/-- A packet admitted under the changed entry is still in flight (R306). -/
def State.gmapInFlight (s : State) (what : Nat × Option Nat) : Bool :=
  (s.pool.reqs.rows.any fun r => s.mappedOld what r.2.p.src r.2.p.pkey r.2.gmEpoch) ||
    (s.pool.claims.any fun c => s.mappedOld what c.p.src c.p.pkey c.gmEpoch) ||
    s.work.bells.any fun b => s.mappedOld what b.src b.pkey b.gmEpoch

/-- EPOCH_DRAIN_DONE (R306, R307): the last packet under the old entry of the route, or the guest map, has finished. -/
def execEpochDrainDone (route : Bool) (s : State) : Host.Outcome State Fault Refusal :=
  live s fun s =>
    if route then
      match s.fabric.routeWait with
      | some w => if s.fabric.egress.any (s.routedOld w) then s
        else State.routeResult { s with fabric := { s.fabric with routeWait := none } } 0x00
      | none => s
    else
      match s.fabric.gmapWait with
      | some w => if s.gmapInFlight w then s else State.gmapResult { s with fabric := { s.fabric with gmapWait := none } } 0x00
      | none => s

/-! ## Key sets (R303) -/

/-- A PKEY_CMD on a link with a key from 0x0001 to 0xFFFE. -/
def pkeyCmd (s : State) (code : Nat) (f : State → Nat → Nat → State) : Host.Outcome State Fault Refusal :=
  record s Obj.pkeyCmdOp Obj.pkeyCmdResult code fun s =>
    let k := s.reg Obj.pkeyCmdPkey
    if !(decide (1 ≤ k) && decide (k ≤ 0xFFFE)) then s.setReg Obj.pkeyCmdResult 0x05 else f s (s.reg Obj.pkeyCmdLink) k

/-- A link's key set written, and RESULT. -/
def State.setKeys (s : State) (l : Nat) (ks : List Nat) : State :=
  State.setReg { s with fabric := { s.fabric with keySets := s.fabric.keySets.put l ks } } Obj.pkeyCmdResult 0x00

/-- PKEY_CMD ADD: up to 64 keys. -/
def execPkeyAdd (s : State) : Host.Outcome State Fault Refusal :=
  pkeyCmd s 0x01 fun s l k =>
    if (s.keySet l).contains k then s.setReg Obj.pkeyCmdResult 0x00
    else if 64 ≤ (s.keySet l).length then s.setReg Obj.pkeyCmdResult 0x02
    else s.setKeys l (s.keySet l ++ [k])

/-- PKEY_CMD REMOVE. -/
def execPkeyRemove (s : State) : Host.Outcome State Fault Refusal :=
  pkeyCmd s 0x02 fun s l k =>
    if (s.keySet l).contains k then s.setKeys l ((s.keySet l).filter (· != k)) else s.setReg Obj.pkeyCmdResult 0x03

/-- PKEY_CMD QUERY: the link's keys, two bytes each. -/
def execPkeyQuery (s : State) : Host.Outcome State Fault Refusal :=
  record s Obj.pkeyCmdOp Obj.pkeyCmdResult 0x03 fun s =>
    let ks := (s.keySet (s.reg Obj.pkeyCmdLink)).map fun k => leBytes 2 k
    (s.setBlob Obj.pkeyCmdSet (padBytes 128 ks.flatten)).setReg Obj.pkeyCmdResult 0x00

/-! ## Queues (R314, R315, R322) -/

/-- Default queue of a link and class. -/
def defaultQueue (l tc : Nat) : Nat := 2 * linkInst l + tc

/-- Packets of a queue move, in order, to the default queue of their link and class (R322). -/
def State.emptyQueue (s : State) (gh q : Nat) : State :=
  let mine := s.fabric.egress.filter fun e => e.gh == gh && e.queue == q
  let s := { s with fabric := { s.fabric with egress := s.fabric.egress.filter fun e => !(e.gh == gh && e.queue == q) } }
  mine.foldl (fun (s : State) e => (s.discardQ (qidEgress gh q) e.p.seq).joinQueue e (defaultQueue e.link e.p.tc)) s

/-- RESULT of QUEUE_CMD. -/
def State.queueResult (s : State) (v : Nat) : State := s.setReg Obj.queueCmdResult v

/-- The link lies on the Gatehouse. -/
def onGh (gh l : Nat) : Bool := decide (l < 32) && linkGH l == gh

/-- The fields of a SET that every queue has are valid (Table 9.6). -/
def QueueCfg.shapeOk (c : QueueCfg) : Bool :=
  decide (1 ≤ c.weight) && decide (c.weight ≤ 65535) && decide (1056 ≤ c.quantum) && decide (c.quantum ≤ 1048576) && decide (c.rate ≤ 99210) &&
    decide (1056 ≤ c.burst) && decide (c.burst ≤ 4194304)

/-- The match of a configured queue is valid. -/
def QueueCfg.matchOk (c : QueueCfg) (gh : Nat) : Bool :=
  onGh gh c.link && decide (c.tc ≤ 1) && decide (1 ≤ c.pkey) && decide (c.pkey ≤ 0xFFFE)

/-- Two configurations match the same packets. -/
def QueueCfg.same (a b : QueueCfg) : Bool := a.link == b.link && a.tc == b.tc && a.pkey == b.pkey

/-- Configuration that the command's fields give. -/
def State.cmdQueue (s : State) : QueueCfg :=
  { link := s.reg Obj.queueCmdLink, tc := s.reg Obj.queueCmdTc, pkey := s.reg Obj.queueCmdPkey, weight := s.reg Obj.queueCmdWeight,
    quantum := s.reg Obj.queueCmdQuantum, rate := s.reg Obj.queueCmdRate, burst := s.reg Obj.queueCmdBurst }

/-- A queue's shaping bucket filled up to now, at the RATE and BURST in force (R314). -/
def State.queueNow (s : State) (gh q : Nat) : QueueRun :=
  let r := s.queueRun gh q
  let c := s.queueCfg gh q
  { r with tokens := min ((c.burst * 1000 : Nat) : Int) (r.tokens + ((c.rate * (s.now - r.stamp) : Nat) : Int)), stamp := s.now }

/-- A queue's configuration written; its bucket is first settled under the one before. -/
def State.putQueue (s : State) (gh q : Nat) (c : QueueCfg) : State :=
  let k := gh * 1024 + q
  let r := s.queueNow gh q
  { s with fabric := { s.fabric with queueRun := s.fabric.queueRun.put k r, queues := s.fabric.queues.put k c } }

/-- SET of a default queue: its weight, quantum and shaping only. -/
def State.setDefault (s : State) (gh q : Nat) (c : QueueCfg) : State :=
  if !c.shapeOk then s.queueResult 0x04
  else (s.putQueue gh q { s.queueCfg gh q with weight := c.weight, quantum := c.quantum, rate := c.rate, burst := c.burst }).queueResult 0x00

/-- SET of a configured queue: packets that its old match brought in move to their default queue (assumption 24). -/
def State.setQueue (s : State) (gh q : Nat) (c : QueueCfg) : State :=
  if !c.shapeOk || !c.matchOk gh then s.queueResult 0x04
  else if s.fabric.queues.rows.any fun r => r.1 / 1024 == gh && decide (4 ≤ r.1 % 1024) && r.1 % 1024 != q && r.2.same c then s.queueResult 0x06
  else
    let moved := match s.fabric.queues.find (gh * 1024 + q) with | some old => !old.same c | none => false
    ((if moved then s.emptyQueue gh q else s).putQueue gh q c).queueResult 0x00

/-- SET of QUEUE_CMD (R314, R322). -/
def execQueueSet (s : State) : Host.Outcome State Fault Refusal :=
  record s Obj.queueCmdOp Obj.queueCmdResult 0x01 fun s =>
    let gh := s.reg Obj.queueCmdGh
    let q := s.reg Obj.queueCmdQueue
    if 16 ≤ gh || 1024 ≤ q then s.queueResult 0x04
    else if q < 4 then s.setDefault gh q s.cmdQueue else s.setQueue gh q s.cmdQueue

/-- REMOVE of QUEUE_CMD (R322). -/
def execQueueRemove (s : State) : Host.Outcome State Fault Refusal :=
  record s Obj.queueCmdOp Obj.queueCmdResult 0x02 fun s =>
    let gh := s.reg Obj.queueCmdGh
    let q := s.reg Obj.queueCmdQueue
    if q < 4 then s.queueResult 0x05
    else if !s.fabric.queues.has (gh * 1024 + q) || 16 ≤ gh || 1024 ≤ q then s.queueResult 0x03
    else
      let s := s.emptyQueue gh q
      let k := gh * 1024 + q
      State.queueResult { s with fabric := { s.fabric with queues := s.fabric.queues.del k, queueRun := s.fabric.queueRun.del k } } 0x00

/-- The fields of the record written from a queue's configuration. -/
def State.showQueue (s : State) (c : QueueCfg) : State :=
  ((((((s.setReg Obj.queueCmdLink c.link).setReg Obj.queueCmdTc c.tc).setReg Obj.queueCmdPkey c.pkey).setReg Obj.queueCmdWeight c.weight).setReg
    Obj.queueCmdQuantum c.quantum).setReg Obj.queueCmdRate c.rate).setReg Obj.queueCmdBurst c.burst

/-- Link of a default queue. -/
def defaultLink (gh q : Nat) : Nat := if q / 2 == 0 then gh else 16 + (gh + 8) % 16

/-- QUERY of QUEUE_CMD. -/
def execQueueQuery (s : State) : Host.Outcome State Fault Refusal :=
  record s Obj.queueCmdOp Obj.queueCmdResult 0x03 fun s =>
    let gh := s.reg Obj.queueCmdGh
    let q := s.reg Obj.queueCmdQueue
    if 16 ≤ gh || 1024 ≤ q || (4 ≤ q && !s.fabric.queues.has (gh * 1024 + q)) then s.queueResult 0x03
    else if q < 4 then (s.showQueue { s.queueCfg gh q with link := defaultLink gh q, tc := q % 2 }).queueResult 0x00
    else (s.showQueue (s.queueCfg gh q)).queueResult 0x00

/-! ## Congestion (R309 to R312) -/

/-- CNP_SEND (R310): a CE mark whose echo no packet carried is answered by a CNP, at most one per CNP_GAP; within the gap the echo stays
owed. -/
def execCnpSend (src : Nat) (tc : Fin 4) (s : State) : Host.Outcome State Fault Refusal :=
  live s fun s =>
    match s.fabric.echoes.find? fun e => e.src == src && e.tc == tc.val with
    | none => s
    | some d =>
      let key := rateKey src tc
      let recent := match s.fabric.lastCnp.find key with | some t => decide (s.now < t + s.reg Obj.cnpGap * 1000) | none => false
      if recent then s else
      let now := s.now
      let paid (e : EchoDue) : Bool := e.src == src && e.tc == tc.val && (decide (e.at_ ≤ d.at_) || decide (e.at_ + 1000 < now))
      let s := { s with fabric := { s.fabric with echoes := s.fabric.echoes.filter fun e => !paid e } }
      let p : Packet := { dst := src, pkey := d.pkey, tc := tc, vc := 2 * tc, opc := 0x07 }
      let l := match s.route { p with src := s.epid } none with | some x => x.1 | none => 0
      let s := State.originate { s with fabric := { s.fabric with lastCnp := s.fabric.lastCnp.put key s.now } } p
      s.countLink l 0x2024 1

/-- CC_RATE_INCREASE (R311, R312): a period without a decrease adds CC_AI; at full rate the entry frees. A decrease in the same cycle wins. -/
def execCcRateIncrease (epid : Nat) (tc : Fin 4) (s : State) : Host.Outcome State Fault Refusal :=
  live s fun s =>
    let key := rateKey epid tc
    match s.fabric.rates.find key with
    | none => s
    | some r =>
      if r.decreased == s.now then s else
      let r' := s.rateNow r
      let rate := r.rate + s.reg Obj.ccAi
      let t := if 99210 ≤ rate then s.fabric.rates.del key else s.fabric.rates.put key { r' with rate := rate, raised := some (s.now, r.rate) }
      { s with fabric := { s.fabric with rates := t } }

/-- BROADCAST_FILTER_EXPIRY (R296 step 5). -/
def execBroadcastFilterExpiry (src seq : Nat) (s : State) : Host.Outcome State Fault Refusal :=
  live s fun s => { s with fabric := { s.fabric with bcast := s.fabric.bcast.filter fun b => !(b.src == src && b.seq == seq) } }

/-! ## Express windows (R316 to R319, R322) -/

/-- An egress link's scheduler changed. -/
def State.onEg (s : State) (l : Nat) (f : EgressLink → EgressLink) : State :=
  { s with fabric := { s.fabric with egLinks := s.fabric.egLinks.put l (f (s.eg l)) } }

/-- EXPRESS_WINDOW_OPEN (R316, R319, R322): at a period boundary the schedule as written comes into force, and its window opens. -/
def execExpressWindowOpen (link : Fin 32) (s : State) : Host.Outcome State Fault Refusal :=
  live s fun s =>
    let p := s.reg (Obj.expPeriod link)
    let s := if p != 0 && (s.link link).tx.ends.any (fun x => x.2.p.tc != 1) then s.countLink link 0x2025 2 else s
    s.onEg link fun g => { g with period := p, width := s.reg (Obj.expWindow link), window := p != 0 }

/-- EXPRESS_WINDOW_CLOSE (R316). -/
def execExpressWindowClose (link : Fin 32) (s : State) : Host.Outcome State Fault Refusal :=
  live s fun s => s.onEg link fun g => { g with window := false }

/-- Slots of a packet (R246). -/
def packetSlots (p : Packet) : Nat := 2 + 4 * p.len

/-- Time of one slot of a link's transmit direction in 1/15,000 ns (Table 8.1). -/
def State.slotTime (s : State) (l : Nat) : Nat := if laneCount (s.link l).txLanes < 8 then 2765 else 2419

/-- End of a packet that starts now, in 1/15,000 ns. -/
def State.endOf (s : State) (l : Nat) (p : Packet) : Nat := s.now * 15000 + packetSlots p * s.slotTime l

/-- A packet of another class than TC1 ends by the start of the next window (R318). -/
def State.fitsGap (s : State) (l : Nat) (p : Packet) : Bool :=
  let g := s.eg l
  g.period == 0 || decide (s.endOf l p ≤ (s.now / g.period + 1) * g.period * 15000)

/-! ## Egress selection (R253, R254, R309, R311, R313 to R315) -/

/-- Credits of the shared blocks that a VC holds or would hold (R253). -/
def overReserve (n : Nat) : Nat := n - 256

/-- Shared blocks not counted against other VCs than v. -/
def LinkTx.sharedFree (t : LinkTx) (v : Nat) : Nat :=
  6144 - ((upto 8).filter (· != v)).foldl (fun n x => n + overReserve (t.used.getD x 0)) 0

/-- The packet's credits are present (R253). -/
def LinkTx.hasCredits (t : LinkTx) (p : Packet) : Bool := decide (overReserve (t.used.getD p.vc 0 + p.blocks) ≤ t.sharedFree p.vc)

/-- Shared blocks that a packet would add to those of its VC. -/
def LinkTx.sharedNeed (t : LinkTx) (p : Packet) : Nat := overReserve (t.used.getD p.vc 0 + p.blocks) - overReserve (t.used.getD p.vc 0)

/-- The VC that takes the last shared credits among heads of several VCs that cannot all have them: the first from the link's
pointer (R254). None where they do not compete. -/
def LinkTx.favoured (t : LinkTx) (heads : List Packet) : Option Nat :=
  let want := heads.filter fun p => t.hasCredits p && decide (0 < t.sharedNeed p)
  let free := 6144 - (upto 8).foldl (fun n x => n + overReserve (t.used.getD x 0)) 0
  if want.any fun p => want.any fun q => p.vc != q.vc && decide (free < t.sharedNeed p + t.sharedNeed q) then
    ((upto 8).map fun i => (t.vcPtr + i) % 8).find? fun v => want.any fun p => p.vc == v
  else none

/-- The rate tokens of a packet of the device are present (R311, R312). -/
def State.hasRate (s : State) (e : EPkt) : Bool :=
  if !e.own || 2 ≤ e.p.tc || !s.flag Obj.ccEnable then true
  else match s.fabric.rates.find (rateKey e.p.dst e.p.tc) with
    | some r => decide (e.p.size * 1000 ≤ (s.rateNow r).tokens)
    | none => true

/-- The shaping tokens of a TC0 or TC1 packet's queue are above 0 (R314). -/
def State.hasShape (s : State) (e : EPkt) : Bool :=
  decide (2 ≤ e.p.tc) || (s.queueCfg e.gh e.queue).rate == 0 || decide (0 < (s.queueNow e.gh e.queue).tokens)

/-- The class buckets of a link filled up to now (R313). -/
def State.bucketsNow (s : State) (l : Nat) : EgressLink :=
  let g := s.eg l
  let dt := s.now - g.stamp
  { g with tc3Tokens := min 16384000 (g.tc3Tokens + ((1000 * dt : Nat) : Int)),
           tc2Tokens := min 65536000 (g.tc2Tokens + ((s.reg Obj.tc2Rate * dt : Nat) : Int)), stamp := s.now }

/-- First packets of each VC and queue of a link. -/
def State.headsOf (s : State) (l : Nat) : List EPkt :=
  let mine := s.fabric.egress.filter fun e => e.link == l
  (mine.foldl (fun (b : List EPkt) e => if b.any fun x => if e.p.tc ≤ 1 then x.queue == e.queue else x.p.vc == e.p.vc then b else b ++ [e]) [])

/-- A head of a link is eligible (R313). -/
def State.eligible313 (s : State) (l : Nat) (favoured : Option Nat) (e : EPkt) : Bool :=
  let t := (s.link l).tx
  t.hasCredits e.p && (t.sharedNeed e.p == 0 || favoured == none || favoured == some e.p.vc) && s.hasRate e && s.hasShape e &&
    (if (s.eg l).window then e.p.tc == 1 else e.p.tc == 1 || s.fitsGap l e.p)

/-- Queues of a link, rising: its defaults and its configured ones. -/
def State.queuesOf (s : State) (l : Nat) : List Nat :=
  [defaultQueue l 0, defaultQueue l 1] ++ ((s.fabric.queues.rows.filter fun r => r.1 / 1024 == linkGH l && decide (4 ≤ r.1 % 1024) && r.2.link == l).map fun r => r.1 % 1024)

/-- The queue after q in a link's round. -/
def nextQueue (qs : List Nat) (q : Nat) : Nat := (qs.find? (q < ·)).getD (qs.headD 0)

/-- A queue's scheduler state changed. -/
def State.onRun (s : State) (gh q : Nat) (f : QueueRun → QueueRun) : State :=
  { s with fabric := { s.fabric with queueRun := s.fabric.queueRun.put (gh * 1024 + q) (f (s.queueRun gh q)) } }

/-- drr_next of R315, over at most n queues. -/
def drrNext (l : Nat) (qs : List Nat) (heads : List EPkt) (ok : EPkt → Bool) : Nat → State → Option EPkt × State
  | 0, s => (none, s)
  | n + 1, s =>
    let g := s.eg l
    let gh := linkGH l
    let q := if qs.contains g.ptr then g.ptr else qs.headD 0
    let pass (s : State) : State := s.onEg l fun g => { g with ptr := nextQueue qs q, fresh := true }
    match heads.find? fun e => e.queue == q && decide (e.p.tc ≤ 1) with
    | none => drrNext l qs heads ok n (pass (s.onRun gh q fun r => { r with deficit := 0 }))
    | some e =>
      let d := (s.queueRun gh q).deficit + (if g.fresh then (s.queueCfg gh q).quantum else 0)
      if ok e && decide (e.p.size ≤ d) then
        let only := (s.fabric.egress.filter fun x => x.link == l && x.queue == q).length ≤ 1
        let d := if only then 0 else d - e.p.size
        (some e, (s.onRun gh q fun r => { r with deficit := d }).onEg l fun g => { g with ptr := q, fresh := false })
      else drrNext l qs heads ok n (pass (s.onRun gh q fun r => { r with deficit := d }))

/-- wfq_next of R315. -/
def wfqNext (l : Nat) (heads : List EPkt) (ok : EPkt → Bool) (s : State) : Option EPkt × State :=
  let c := heads.filter fun e => decide (e.p.tc ≤ 1) && ok e
  match c.foldl (fun (b : Option EPkt) e => match b with
    | some x => if e.finish < x.finish || (e.finish == x.finish && e.queue < x.queue) then some e else b
    | none => some e) none with
  | some e => (some e, s.onEg l fun g => { g with vt := e.finish })
  | none => (none, s)

/-- The Gatehouse runs weighted fair queueing (R315). -/
def State.wantWfq (s : State) (l : Nat) : Bool := decide (256 < s.queueCount (linkGH l))

/-- A link changes mode: every deficit, finish tag and virtual time starts from 0 (R315). -/
def State.changeMode (s : State) (l : Nat) : State :=
  let s := (s.queuesOf l).foldl (fun (s : State) q => s.onRun (linkGH l) q fun r => { r with deficit := 0, last := 0 }) s
  let eg := s.fabric.egress.map fun e => if e.link == l then { e with finish := 0 } else e
  State.onEg { s with fabric := { s.fabric with egress := eg } } l fun g => { g with wfq := s.wantWfq l, vt := 0, fresh := true }

/-- The TC0 or TC1 packet that the link's discipline picks. -/
def State.pickData (s : State) (l : Nat) (heads : List EPkt) (ok : EPkt → Bool) : Option EPkt × State :=
  if (s.eg l).wfq then wfqNext l heads ok s else drrNext l (s.queuesOf l) heads ok (s.queuesOf l).length s

/-- The VC that wins the last shared credits among the heads of a link that could start otherwise (R254, R313). -/
def State.favours (s : State) (l : Nat) : Option Nat :=
  (s.link l).tx.favoured (((s.headsOf l).filter (s.eligible313 l none)).map (·.p))

/-- The packet that starts next on a link (R313, R315, R317). -/
def State.pickPacket (s : State) (l : Nat) : Option EPkt × State :=
  let heads := s.headsOf l
  let ok := s.eligible313 l (s.favours l)
  let g := s.bucketsNow l
  let first (tc : Nat) : Option EPkt := heads.find? fun e => e.p.tc == tc && ok e
  let some3 := if 0 < g.tc3Tokens then first 3 else none
  let some2 := if 0 < g.tc2Tokens then first 2 else none
  match some3 <|> some2 with
  | some e => (some e, s)
  | none =>
    match s.pickData l heads ok with
    | (some e, s) => (some e, s)
    | (none, s) => (first 3 <|> first 2, s)

/-- Bytes that wait for a link and VC (R309). -/
def State.vcBytes (s : State) (l v : Nat) : Nat :=
  (s.fabric.egress.filter fun e => e.link == l && e.p.vc == v).foldl (fun n e => n + e.p.size) 0

/-- CE is set on a packet that meets congestion as it starts (R309). -/
def State.markCe (s : State) (l : Nat) (p : Packet) : Packet × State :=
  if p.ect && decide (s.reg Obj.ecnThreshold * 1024 < s.vcBytes l p.vc) then ({ p with ce := true }, s.countLink l 0x2024 0) else (p, s)

/-- Tokens that a start takes: of its class, of its queue, and of its rate entry (R311, R313, R314). -/
def State.takeTokens (s : State) (l : Nat) (e : EPkt) : State :=
  let n : Nat := e.p.size * 1000
  let g := s.bucketsNow l
  let g := { g with tc3Tokens := if e.p.tc == 3 then g.tc3Tokens - n else g.tc3Tokens, tc2Tokens := if e.p.tc == 2 then g.tc2Tokens - n else g.tc2Tokens }
  let s := s.onEg l fun _ => g
  if 2 ≤ e.p.tc then s else
  let r := s.queueNow e.gh e.queue
  let s := s.onRun e.gh e.queue fun _ => { r with tokens := if (s.queueCfg e.gh e.queue).rate == 0 then r.tokens else r.tokens - n }
  let key := rateKey e.p.dst e.p.tc
  if e.own then { s with fabric := { s.fabric with rates := s.fabric.rates.upd key fun x => let x := s.rateNow x; { x with tokens := x.tokens - n } } } else s

/-- Credits that a start spends, with the pointer moved past a VC that won the last shared ones (R253, R254). -/
def LinkTx.spend (t : LinkTx) (p : Packet) (won : Bool) : LinkTx :=
  { t with used := t.used.set p.vc (t.used.getD p.vc 0 + p.blocks), quiet := t.quiet.set p.vc false, vcPtr := if won then (p.vc + 1) % 8 else t.vcPtr }

/-- Slots of a packet that starts now beyond the end of its window (R319). -/
def State.overrunSlots (s : State) (l : Nat) (p : Packet) : Nat :=
  let g := s.eg l
  ceilDiv (s.endOf l p - (s.now / g.period * g.period + g.width) * 15000) (s.slotTime l)

/-- A TC1 packet of a window that runs past its end is counted (R319). -/
def State.countOverrun (s : State) (l : Nat) (p : Packet) : State :=
  if (s.eg l).window && p.tc == 1 && 0 < s.overrunSlots l p then (s.countLink l 0x2025 0).countLinkN l 0x2025 1 (s.overrunSlots l p) else s

/-- A packet joins the line of started packets (R246). -/
def LinkTx.put (t : LinkTx) (e : EPkt) : LinkTx :=
  { t with line := t.line ++ packetBytes e.p, ends := t.ends ++ [(t.line.length + (packetBytes e.p).length, e)] }

/-- A packet starts on its link: it leaves its queue and its receive pool, its answer's tracker frees, and its bytes stand next in line
(R73, R246, R253, R309, R313). -/
def State.startPacket (s : State) (l : Nat) (e : EPkt) (won : Bool) : State :=
  let (p, s) := s.markCe l e.p
  let s := (s.takeTokens l e).countOverrun l p
  let s := State.leaveQ { s with fabric := { s.fabric with egress := s.fabric.egress.erase e } } (qidEgress (linkGH l) e.queue) e.p.seq
  let s := match e.inLink with | some i => s.leaveQ (qidPool i) e.p.seq | none => s
  let s := ((s.leavePool e.inLink e.inVc e.p.blocks).dropTracker e.tracker).onLink l fun k => { k with tx := k.tx.spend p won }
  let done : EPkt := { e with p := p, inLink := none, tracker := none }
  ((s.emit (.pkt l p)).countLink l 0x2020 p.tc).onLink l fun k => { k with tx := k.tx.put done }

/-- The sender holds 1,024 unacknowledged flits (R248). -/
def LinkTx.full (t : LinkTx) : Bool := decide (t.acked + 1024 ≤ t.formed)

/-- The transmitter sends flits: its link is in service and awake, and it does not move a lane (Table 8.2, R265). -/
def Link.sends (k : Link) : Bool := (k.st == 4 || k.st == 5 || k.st == 6 || k.st == 7) && !k.tx.moving

/-- The link may start a packet (R246, R248, R250, R251, R258). -/
def State.maySend (s : State) (l : Nat) : Bool :=
  let k := s.link l
  k.sends && k.st != 7 && k.tx.sync == 0 && k.tx.replay.isNone && !k.tx.full && !k.tx.paused && decide (k.tx.line.length < 240)

/-- The flit at the replay pointer is sent again with its header built afresh, and the pointer moves on; past the newest flit the replay
ends (R247, R250). -/
def State.resend (s : State) (l n : Nat) : State :=
  let t := (s.link l).tx
  let s := match t.buf[n - t.acked]? with | some x => s.transmit l n x | none => s
  s.onLink l fun k => { k with tx := { k.tx with replay := if n + 1 < t.formed then some (n + 1) else none } }

/-- A new sequenced flit: DATA while bytes of started packets wait, else IDLE (R246, R262). -/
def State.nextFlit (s : State) (l : Nat) : State := if (s.link l).tx.line.isEmpty then s.formIdle l 1 else s.formData l

/-- The packet that starts now, if one may; a full flit then goes out at once, and with no packet to start the line does (R313). -/
def State.startNext (s : State) (l : Nat) : State :=
  let change := (s.eg l).wfq != s.wantWfq l
  let fav := s.favours l
  match (if change then s.changeMode l else s).pickPacket l with
  | (some e, t) =>
    let t := t.startPacket l e (fav == some e.p.vc)
    if 240 ≤ (t.link l).tx.line.length then t.formData l else t
  | (none, t) => (if change then s else t).nextFlit l

/-- EGRESS_SELECT (R246 to R251, R262, R313 to R318): the transmitter's next turn. A replay resends its next flit; a stalled sender sends
NULL; a paused one sends IDLE flits; else the next packet starts, if one may, and flits carry what was started, or are IDLE
(assumption 45). -/
def execEgressSelect (link : Fin 32) (s : State) : Host.Outcome State Fault Refusal :=
  live s fun s =>
    let k := s.link link
    if !k.sends then s else
    match k.tx.replay with
    | some n => s.resend link n
    | none =>
      if k.tx.full then s.sendCtrl link .null
      else if k.tx.paused then s.formIdle link 1
      else if s.maySend link then s.startNext link
      else s.nextFlit link

end Sys2Proof.Machine
end

