-- ==== Sys2Proof/Machine/Flags.lean ====
section
/-! DEFINITION. The arithmetic flags of the ARITH field (Table 3.9) and the arithmetic control word ACTL (Table 3.4). -/

namespace Sys2Proof.Machine

open Sys2Proof

/-- Flag bits of ARITH (Table 3.9). -/
def fNV : Nat := 0x0001
def fDZ : Nat := 0x0002
def fOF : Nat := 0x0004
def fUF : Nat := 0x0008
def fNX : Nat := 0x0010
def fSAT : Nat := 0x0020
def fNAN : Nat := 0x0040
def fMXNAN : Nat := 0x0080
def fDENORM : Nat := 0x0100
def fIOVF : Nat := 0x0200
def fIDZ : Nat := 0x0400
def fISAT : Nat := 0x0800
def fCLAMP : Nat := 0x1000
def fISHIFT : Nat := 0x2000

/-- A flag raised on a condition. -/
def flagIf (b : Bool) (f : Nat) : Nat := if b then f else 0

/-- The arithmetic control word (Table 3.4). -/
structure Actl where
  fit : Bool := false
  imode : Nat := 0
  ftz : Bool := false
  daz : Bool := false
  fp8nan : Bool := false
  rnd : Nat := 0
deriving DecidableEq, Repr

/-- ACTL from its 16 bits. -/
def actlOf (w : Nat) : Actl :=
  { fit := bitOf w 8, imode := bitsOf w 7 6, ftz := bitOf w 5, daz := bitOf w 4, fp8nan := bitOf w 3, rnd := bitsOf w 2 0 }

/-- ACTL has no reserved bit, IMODE or RND (R98). -/
def actlOk (w : Nat) : Bool := bitsOf w 15 9 == 0 && decide (bitsOf w 7 6 ≤ 1) && decide (bitsOf w 2 0 ≤ 5)

end Sys2Proof.Machine
end

