-- ==== Sys2Proof/Machine/Arith.lean ====
section
/-! DEFINITION. Porter arithmetic (chapter 03): formats, exact values, rounding, narrowing, MX blocks, integer operations
and FP32 steps. A finite number is its exact rational value. -/

namespace Sys2Proof.Machine

open Sys2Proof

/-! ## Formats -/

/-- A floating-point format (Table 3.2): exponent and mantissa widths and bias; kind 0 has infinities and NaNs, 1 is E4M3,
2 has neither. -/
structure FFmt where
  ebits : Nat
  mbits : Nat
  bias : Nat
  kind : Nat
deriving DecidableEq, Repr

def fp32 : FFmt := ⟨8, 23, 127, 0⟩
def fp16 : FFmt := ⟨5, 10, 15, 0⟩
def bf16 : FFmt := ⟨8, 7, 127, 0⟩
def e4m3 : FFmt := ⟨4, 3, 7, 1⟩
def e5m2 : FFmt := ⟨5, 2, 15, 0⟩
def e3m2 : FFmt := ⟨3, 2, 3, 2⟩
def e2m3 : FFmt := ⟨2, 3, 1, 2⟩
def e2m1 : FFmt := ⟨2, 1, 1, 2⟩

/-- Bits of a format. -/
def FFmt.width (f : FFmt) : Nat := 1 + f.ebits + f.mbits

/-- What a format code stands for (Table 3.1). -/
inductive Fmt where
  | flt (f : FFmt)
  /-- An MX format: element format (none: MXINT8), bits of an element, bytes of a block, EMAX. -/
  | mx (f : Option FFmt) (bits blk emax : Nat)
  | int (signed : Bool) (w : Nat)
deriving DecidableEq, Repr

/-- Format of a code (Table 3.1). -/
def fmtOf (c : Nat) : Option Fmt :=
  match c with
  | 0x00 => some (.flt fp32)
  | 0x01 => some (.flt fp16)
  | 0x02 => some (.flt bf16)
  | 0x03 => some (.flt e4m3)
  | 0x04 => some (.flt e5m2)
  | 0x10 => some (.mx (some e4m3) 8 32 8)
  | 0x11 => some (.mx (some e5m2) 8 32 15)
  | 0x12 => some (.mx (some e2m3) 6 24 2)
  | 0x13 => some (.mx (some e3m2) 6 24 4)
  | 0x14 => some (.mx (some e2m1) 4 16 2)
  | 0x15 => some (.mx none 8 32 0)
  | 0x20 => some (.int true 8)
  | 0x21 => some (.int true 16)
  | 0x22 => some (.int true 32)
  | 0x23 => some (.int true 64)
  | 0x28 => some (.int false 8)
  | 0x29 => some (.int false 16)
  | 0x2A => some (.int false 32)
  | 0x2B => some (.int false 64)
  | _ => none

/-- Bytes of an element; 0 for an MX format, which is counted in blocks. -/
def Fmt.size : Fmt → Nat
  | .flt f => f.width / 8
  | .mx _ _ _ _ => 0
  | .int _ w => w / 8

/-- The format is an MX format. -/
def Fmt.isMx : Fmt → Bool
  | .mx _ _ _ _ => true
  | _ => false

/-- Bytes of a block of an MX format. -/
def Fmt.blk : Fmt → Nat
  | .mx _ _ b _ => b
  | _ => 0

/-! ## Values -/

/-- A value read from a float: NaN, signed infinity, signed zero, or an exact nonzero number. -/
inductive FV where
  | nan
  | inf (neg : Bool)
  | zero (neg : Bool)
  | num (v : Rat)
deriving DecidableEq, Repr

/-- 2 to an integer power. -/
def two (e : Int) : Rat := if 0 ≤ e then ((2 ^ e.toNat : Nat) : Rat) else 1 / ((2 ^ (-e).toNat : Nat) : Rat)

/-- Value of an exact number, zero with a sign. -/
def fvOf (v : Rat) (neg : Bool) : FV := if v == 0 then .zero neg else .num v

/-- A float read from its bits: value, and the flags its reading raises (R91, R92, R93, R103). -/
def readFloat (f : FFmt) (daz : Bool) (bits : Nat) : FV × Nat :=
  let s := bits.testBit (f.ebits + f.mbits)
  let e := bits / 2 ^ f.mbits % 2 ^ f.ebits
  let m := bits % 2 ^ f.mbits
  let sg : Rat := if s then -1 else 1
  let top := e + 1 == 2 ^ f.ebits
  if top && f.kind == 0 then
    (if m == 0 then (.inf s, 0) else (.nan, if m.testBit (f.mbits - 1) then fNAN else fNV))
  else if top && f.kind == 1 && m + 1 == 2 ^ f.mbits then (.nan, fNAN)
  else if e == 0 then
    if m == 0 then (.zero s, 0)
    else if daz then (.zero s, fDENORM)
    else (.num (sg * m * two (1 - (f.bias : Int) - f.mbits)), 0)
  else (.num (sg * (2 ^ f.mbits + m : Nat) * two ((e : Int) - f.bias - f.mbits)), 0)

/-- Canonical NaN of a format (R92). -/
def nanBits (f : FFmt) : Nat :=
  if f.kind == 1 then 0x7F else (2 ^ f.ebits - 1) * 2 ^ f.mbits + 2 ^ (f.mbits - 1)

/-- Exponent of the smallest normal. -/
def FFmt.emin (f : FFmt) : Int := 1 - (f.bias : Int)

/-- Bits of the largest finite magnitude. -/
def FFmt.maxBits (f : FFmt) : Nat :=
  if f.kind == 0 then (2 ^ f.ebits - 1) * 2 ^ f.mbits - 1
  else if f.kind == 1 then 2 ^ (f.ebits + f.mbits) - 2
  else 2 ^ (f.ebits + f.mbits) - 1

/-- Largest finite value. -/
def FFmt.maxVal (f : FFmt) : Rat :=
  let b := f.maxBits
  ((2 ^ f.mbits + b % 2 ^ f.mbits : Nat) : Rat) * two (((b / 2 ^ f.mbits : Nat) : Int) - f.bias - f.mbits)

/-- Floor of the base-2 logarithm of a positive number. -/
def flog2 (v : Rat) : Int :=
  let e : Int := (Nat.log2 v.num.toNat : Int) - Nat.log2 v.den
  if v < two e then e - 1 else e

/-! ## Rounding (R99 to R102) -/

/-- Random bits of an element (R101). -/
def srBits (seed stage idx : Nat) : Nat :=
  let m := 2 ^ 64
  let z := ((seed * 2 ^ 32) % m) ^^^ ((stage * 2 ^ 40) % m) ^^^ (idx % m)
  let z := (z + 0x9E3779B97F4A7C15) % m
  let z := ((z ^^^ (z / 2 ^ 30)) * 0xBF58476D1CE4E5B9) % m
  let z := ((z ^^^ (z / 2 ^ 27)) * 0x94D049BB133111EB) % m
  let z := z ^^^ (z / 2 ^ 31)
  z / 2 ^ 48

/-- A magnitude counted in units, with a fraction left: whether it rounds up (R99, R100). -/
def roundsUp (rnd r16 : Nat) (neg : Bool) (n : Nat) (frac : Rat) : Bool :=
  if frac == 0 then false
  else match rnd with
    | 0 => decide (1 / 2 < frac) || (frac == 1 / 2 && n % 2 == 1)
    | 1 => false
    | 2 => neg
    | 3 => !neg
    | 4 => decide (1 / 2 ≤ frac)
    | _ => decide (65536 ≤ (frac * 65536).floor.toNat + r16)

/-- A positive magnitude rounded to units of 2^q: units, and whether inexact. -/
def toUnits (rnd r16 : Nat) (neg : Bool) (a : Rat) (q : Int) : Nat × Bool :=
  let x := a / two q
  let n := x.floor.toNat
  let frac := x - n
  (if roundsUp rnd r16 neg n frac then n + 1 else n, frac != 0)

/-- Bits of a magnitude that the format holds. -/
def encodeMag (f : FFmt) (r : Rat) : Nat :=
  if r == 0 then 0
  else if r < two f.emin then (r / two (f.emin - f.mbits)).floor.toNat
  else
    let e := flog2 r
    (e + f.bias).toNat * 2 ^ f.mbits + ((r / two (e - f.mbits)).floor.toNat - 2 ^ f.mbits)

/-- Sign bit of a format. -/
def signBits (f : FFmt) (neg : Bool) : Nat := if neg then 2 ^ (f.ebits + f.mbits) else 0

/-- Overflow outcome of a target (Table 3.5), for a positive magnitude beyond the largest finite. -/
def overflowBits (f : FFmt) (c : Actl) (neg mx : Bool) : Nat × Nat :=
  let inf := (2 ^ f.ebits - 1) * 2 ^ f.mbits
  let away := c.rnd == 0 || c.rnd == 4 || c.rnd == 5 || (c.rnd == 2 && neg) || (c.rnd == 3 && !neg)
  let ieee := (signBits f neg + (if away then inf else f.maxBits), fOF + fNX)
  if mx then (signBits f neg + f.maxBits, fSAT)
  else if f == e4m3 then (if c.fp8nan then (0x7F, fOF + fNX) else (signBits f neg + f.maxBits, fSAT + fNX))
  else if f == e5m2 && !c.fp8nan then (signBits f neg + f.maxBits, fSAT + fNX)
  else ieee

/-- A value rounded once to a format: bits and flags (R99 to R103). mx: the target is an MX element. -/
def narrow (f : FFmt) (c : Actl) (r16 : Nat) (mx : Bool) (v : FV) : Nat × Nat :=
  match v with
  | .nan => (nanBits f, 0)
  | .zero n => (signBits f n, 0)
  | .inf n =>
    if f == e4m3 then (if c.fp8nan then (0x7F, fNV) else (signBits f n + f.maxBits, fSAT))
    else if f == e5m2 && !c.fp8nan then (signBits f n + f.maxBits, fSAT)
    else (signBits f n + (2 ^ f.ebits - 1) * 2 ^ f.mbits, 0)
  | .num x =>
    let neg := decide (x < 0)
    let a := |x|
    let e := flog2 a
    let q := max e f.emin - f.mbits
    let (n, inexact) := toUnits c.rnd r16 neg a q
    let r := (n : Rat) * two q
    if f.maxVal < r then overflowBits f c neg mx
    else
      let un := toUnits c.rnd r16 neg a (e - f.mbits)
      let tiny := decide ((un.1 : Rat) * two (e - f.mbits) < two f.emin)
      if c.ftz && r != 0 && decide (r < two f.emin) then (signBits f neg, fDENORM + fUF + fNX)
      else (signBits f neg + encodeMag f r, flagIf inexact fNX + flagIf (inexact && tiny) fUF)

/-- A value rounded to an integer type (R107, Table 3.5). -/
def toInt (sg : Bool) (w : Nat) (c : Actl) (r16 : Nat) (v : FV) : Nat × Nat :=
  let hi : Int := if sg then 2 ^ (w - 1) - 1 else 2 ^ w - 1
  let lo : Int := if sg then -(2 ^ (w - 1)) else 0
  match v with
  | .nan => (0, fNV)
  | .inf n => (unsignedOf w (if n then lo else hi), fNV)
  | .zero _ => (0, 0)
  | .num x =>
    let (n, inexact) := toUnits c.rnd r16 (decide (x < 0)) |x| 0
    let i : Int := if x < 0 then -(n : Int) else n
    if hi < i then (unsignedOf w hi, fNV) else if i < lo then (unsignedOf w lo, fNV)
    else (unsignedOf w i, flagIf inexact fNX)

/-- Value of an integer element. -/
def intVal (sg : Bool) (w bits : Nat) : Int := if sg then signedOf w bits else (bits % 2 ^ w : Nat)

/-- Integer to integer (R129). -/
def intToInt (sg : Bool) (w : Nat) (c : Actl) (i : Int) : Nat × Nat :=
  let hi : Int := if sg then 2 ^ (w - 1) - 1 else 2 ^ w - 1
  let lo : Int := if sg then -(2 ^ (w - 1)) else 0
  if lo ≤ i && i ≤ hi then (unsignedOf w i, 0)
  else if c.imode == 1 then (unsignedOf w (if hi < i then hi else lo), fISAT)
  else (unsignedOf w i, fIOVF)

/-! ## Float operations on exact values (R93, R99, R132) -/

/-- Sign of a value. -/
def FV.neg : FV → Bool
  | .nan => false
  | .inf n => n
  | .zero n => n
  | .num v => decide (v < 0)

/-- The value with its sign changed. -/
def FV.flip : FV → FV
  | .nan => .nan
  | .inf n => .inf (!n)
  | .zero n => .zero (!n)
  | .num v => .num (-v)

/-- Sum; an exact zero is +0 except toward minus infinity (R99). -/
def fvAdd (rnd : Nat) (a b : FV) : FV × Nat :=
  match a, b with
  | .nan, _ => (.nan, 0)
  | _, .nan => (.nan, 0)
  | .inf x, .inf y => if x == y then (.inf x, 0) else (.nan, fNV)
  | .inf x, _ => (.inf x, 0)
  | _, .inf y => (.inf y, 0)
  | .zero x, .zero y => (.zero (if x == y then x else rnd == 2), 0)
  | .zero _, .num y => (.num y, 0)
  | .num x, .zero _ => (.num x, 0)
  | .num x, .num y => (fvOf (x + y) (rnd == 2), 0)

/-- Product. -/
def fvMul (a b : FV) : FV × Nat :=
  match a, b with
  | .nan, _ => (.nan, 0)
  | _, .nan => (.nan, 0)
  | .inf _, .zero _ => (.nan, fNV)
  | .zero _, .inf _ => (.nan, fNV)
  | .num x, .num y => (.num (x * y), 0)
  | .inf _, _ => (.inf (a.neg != b.neg), 0)
  | _, .inf _ => (.inf (a.neg != b.neg), 0)
  | _, _ => (.zero (a.neg != b.neg), 0)

/-- Quotient: nonzero by zero is an infinity with DZ, 0/0 the NaN with NV (R132). -/
def fvDiv (a b : FV) : FV × Nat :=
  match a, b with
  | .nan, _ => (.nan, 0)
  | _, .nan => (.nan, 0)
  | .inf _, .inf _ => (.nan, fNV)
  | .zero _, .zero _ => (.nan, fNV)
  | .inf _, _ => (.inf (a.neg != b.neg), 0)
  | .num _, .zero _ => (.inf (a.neg != b.neg), fDZ)
  | .num x, .num y => (.num (x / y), 0)
  | _, _ => (.zero (a.neg != b.neg), 0)

/-- Order with -0 below +0 and infinities outermost (R93); neither is a NaN. -/
def fvLt (a b : FV) : Bool :=
  match a, b with
  | .inf x, .inf y => x && !y
  | .inf x, _ => x
  | _, .inf y => !y
  | .zero x, .zero y => x && !y
  | .zero _, .num y => decide (0 < y)
  | .num x, .zero _ => decide (x < 0)
  | .num x, .num y => decide (x < y)
  | _, _ => false

/-- Minimum or maximum; a NaN operand gives the NaN. -/
def fvMinMax (mx : Bool) (a b : FV) : FV :=
  if a == .nan || b == .nan then .nan else if fvLt a b != mx then a else b

/-! ## Operation codes (Table 4.3) -/

/-- Integer operation of a code (R104 to R106, Table 3.7): result bits and flags. -/
def intOp (op : Nat) (sg : Bool) (w : Nat) (c : Actl) (a b : Nat) : Nat × Nat :=
  let x := intVal sg w a
  let y := intVal sg w b
  let hi : Int := if sg then 2 ^ (w - 1) - 1 else 2 ^ w - 1
  let lo : Int := if sg then -(2 ^ (w - 1)) else 0
  let u := b % 2 ^ w
  match op with
  | 0x00 => intToInt sg w c (x + y)
  | 0x01 => intToInt sg w c (x - y)
  | 0x02 => intToInt sg w c (x * y)
  | 0x03 => (unsignedOf w ((x * y) / 2 ^ w), 0)
  | 0x04 =>
    if y == 0 then (unsignedOf w (if sg then (if 0 ≤ x then hi else lo) else hi), fIDZ)
    else if sg && x == lo && y == -1 then (unsignedOf w lo, fIOVF) else (unsignedOf w (Int.tdiv x y), 0)
  | 0x05 =>
    if y == 0 then (a % 2 ^ w, fIDZ) else (unsignedOf w (Int.tmod x y), 0)
  | 0x06 => (unsignedOf w (min x y), 0)
  | 0x07 => (unsignedOf w (max x y), 0)
  | 0x08 => ((a % 2 ^ w) &&& u, 0)
  | 0x09 => ((a % 2 ^ w) ||| u, 0)
  | 0x0A => ((a % 2 ^ w) ^^^ u, 0)
  | 0x0B => if w ≤ u then (0, fISHIFT) else ((a * 2 ^ u) % 2 ^ w, 0)
  | 0x0C => if w ≤ u then (0, fISHIFT) else ((a % 2 ^ w) / 2 ^ u, 0)
  | 0x0D => if w ≤ u then (if 0 ≤ x then 0 else 2 ^ w - 1, fISHIFT) else (unsignedOf w (x / 2 ^ u), 0)
  | 0x10 => if sg then (unsignedOf w (-x), flagIf (x == lo) fIOVF) else (unsignedOf w (-x), flagIf (x != 0) fIOVF)
  | 0x11 => if sg then (unsignedOf w |x|, flagIf (x == lo) fIOVF) else (a % 2 ^ w, 0)
  | 0x12 => (2 ^ w - 1 - a % 2 ^ w, 0)
  | _ => (u, 0)

/-- Float operation of a code on bits, rounded once to the format (R132, R136, R103): result bits and flags. -/
def floatOp (op : Nat) (f : FFmt) (c : Actl) (r16 a b : Nat) : Nat × Nat :=
  let (x, fx) := readFloat f c.daz a
  let (y, fy) := readFloat f c.daz b
  let out (r : FV × Nat) : Nat × Nat :=
    let (bits, fl) := narrow f c r16 false r.1
    (bits, fx ||| fy ||| r.2 ||| fl)
  let top := f.ebits + f.mbits
  let signOp (v : Nat) : Nat × Nat :=
    let (z, fz) := readFloat f false a
    if z == .nan then (nanBits f, fz) else (v, 0)
  match op with
  | 0x00 => out (fvAdd c.rnd x y)
  | 0x01 => out (fvAdd c.rnd x y.flip)
  | 0x02 => out (fvMul x y)
  | 0x04 => out (fvDiv x y)
  | 0x06 => out (fvMinMax false x y, 0)
  | 0x07 => out (fvMinMax true x y, 0)
  | 0x10 => signOp (a ^^^ 2 ^ top)
  | 0x11 => signOp (clearBit a top)
  | _ => (b % 2 ^ f.width, 0)

/-- An operation of Table 4.3 on elements of a format: result bits and flags. -/
def elemOp (op : Nat) (t : Fmt) (c : Actl) (r16 a b : Nat) : Nat × Nat :=
  match t with
  | .flt f => floatOp op f c r16 a b
  | .int sg w => intOp op sg w c a b
  | .mx _ _ _ _ => (0, 0)

/-- A code is listed for a format (Table 4.3). -/
def opFits (op : Nat) (t : Fmt) : Bool :=
  let isInt := match t with | .int _ _ => true | _ => false
  let signed := match t with | .int sg _ => sg | _ => false
  let flt := t == .flt fp32 || t == .flt fp16 || t == .flt bf16
  if [0x00, 0x01, 0x02, 0x04, 0x06, 0x07, 0x10, 0x11, 0x18].contains op then isInt || flt
  else if [0x03, 0x05, 0x08, 0x09, 0x0A, 0x0B, 0x0C, 0x12].contains op then isInt
  else if op == 0x0D then signed
  else false

/-- A code takes one operand. -/
def opUnary (op : Nat) : Bool := op == 0x10 || op == 0x11 || op == 0x12

/-! ## MX blocks (R94 to R96) -/

/-- Element i of a block's bytes. -/
def mxElem (bits : Nat) (blk : Bytes) (i : Nat) : Nat := leNat blk / 2 ^ (bits * i) % 2 ^ bits

/-- An MX element decoded with its scale byte: value and flags (R95). -/
def mxDecode (f : Option FFmt) (bits : Nat) (daz : Bool) (scale e : Nat) : FV × Nat :=
  if scale == 255 then (.nan, fMXNAN) else
  let sc := two ((scale : Int) - 127)
  let wide (v : Rat) (fl : Nat) : FV × Nat :=
    if fp32.maxVal < |v| then (.inf (decide (v < 0)), fl ||| fOF) else (fvOf v false, fl)
  match f with
  | none =>
    let i := signedOf bits e
    if i == 0 then (.zero false, 0) else wide ((i : Rat) * two (-6) * sc) 0
  | some f =>
    match readFloat f daz e with
    | (.num v, fl) => wide (v * sc) fl
    | (v, fl) => (v, fl)

/-- An exact value scaled by 2^-e. -/
def FV.scale (v : FV) (e : Int) : FV :=
  match v with
  | .num x => .num (x * two (-e))
  | w => w

/-- An MXINT8 element: rounded to units of 2^-6 and saturated to plus or minus 127. -/
def mxInt (c : Actl) (r16 : Nat) (v : FV) : Nat × Nat :=
  match v with
  | .num x =>
    let (n, inexact) := toUnits c.rnd r16 (decide (x < 0)) |x| (-6)
    let sat := decide (127 < n)
    (unsignedOf 8 (if x < 0 then -((min n 127 : Nat) : Int) else ((min n 127 : Nat) : Int)), if sat then fSAT else flagIf inexact fNX)
  | _ => (0, 0)

/-- One element of a block quantised at a shared exponent (R96, step 5). -/
def mxQuant (f : Option FFmt) (c : Actl) (r16 : Nat) (e : Int) (v : FV) : Nat × Nat :=
  match f with
  | none => mxInt c r16 (v.scale e)
  | some g => narrow g c r16 true (v.scale e)

/-- Magnitude of a value for the largest of a block. -/
def FV.mag : FV → Rat
  | .num v => |v|
  | _ => 0

/-- 32 values quantised into a block: scale byte, elements, flags (R96). base is the index of the first element; the values
have raised their own reading flags. -/
def mxBlock (f : Option FFmt) (emax : Nat) (c : Actl) (seed base : Nat) (vs : List FV) : Nat × List Nat × Nat :=
  let r (i : Nat) : Nat := srBits seed 0 (base + i)
  let infs := vs.any fun v => v == .inf true || v == .inf false
  if infs || vs.any (· == .nan) then (255, List.replicate 32 0, fMXNAN ||| flagIf infs fNV)
  else
    let m := vs.foldl (fun b v => max b v.mag) 0
    if m == 0 then (0, List.replicate 32 0, 0)
    else
      let e0 := flog2 m - emax
      let e1 : Int := max e0 (-127)
      let at_ (e : Int) : List (Nat × Nat) := vs.zipIdx.map fun x => mxQuant f c (r x.2) e x.1
      let sat := (at_ e1).any fun x => x.2 &&& fSAT != 0
      let e := if c.fit && sat && e1 < 127 then e1 + 1 else e1
      let q := at_ e
      ((e + 127).toNat, q.map (·.1), (q.foldl (fun b x => b ||| x.2) 0) ||| flagIf (decide (e0 < -127)) fCLAMP)

/-- Bytes of a block from its 32 elements. -/
def mxPack (bits : Nat) (es : List Nat) : Bytes :=
  leBytes (4 * bits) (es.zipIdx.foldl (fun n x => n + x.1 * 2 ^ (bits * x.2)) 0)

/-! ## Conversion of one element (R129) -/

/-- An element converted between formats that are not MX: result bits and flags. -/
def convElem (sf df : Fmt) (c : Actl) (r16 a : Nat) : Nat × Nat :=
  match sf, df with
  | .flt f, .flt g =>
    let (v, fl) := readFloat f c.daz a
    let (r, fr) := narrow g c r16 false v
    (r, fl ||| fr)
  | .flt f, .int sg w =>
    let (v, fl) := readFloat f c.daz a
    let (r, fr) := toInt sg w c r16 v
    (r, fl ||| fr)
  | .int sg w, .flt g => narrow g c r16 false (fvOf (intVal sg w a : Rat) false)
  | .int sg w, .int sg' w' => intToInt sg' w' c (intVal sg w a)
  | _, _ => (0, 0)

/-- Value of an element that is not MX, with the flags of its reading. -/
def elemVal (t : Fmt) (daz : Bool) (a : Nat) : FV × Nat :=
  match t with
  | .flt f => readFloat f daz a
  | .int sg w => (fvOf (intVal sg w a : Rat) false, 0)
  | .mx _ _ _ _ => (.nan, 0)

/-- A value written to a format that is not MX. -/
def putVal (t : Fmt) (c : Actl) (r16 : Nat) (v : FV) : Nat × Nat :=
  match t with
  | .flt f => narrow f c r16 false v
  | .int sg w => toInt sg w c r16 v
  | .mx _ _ _ _ => (0, 0)

/-! ## FP32 steps inside an operation (R99, R108, R109) -/

/-- RNE with nothing flushed, as every rounding inside an operation. -/
def rne : Actl := {}

/-- An exact result rounded to FP32, as a value, with OF when it overflows; inexactness inside is not reported (assumption 15). -/
def step32 (v : FV) : FV × Nat :=
  match v with
  | .num x =>
    let (b, fl) := narrow fp32 rne 0 false (.num x)
    ((readFloat fp32 false b).1, fl &&& fOF)
  | w => (w, 0)

/-- FP32 sum and product of values. -/
def add32 (a b : FV) : FV × Nat :=
  let (v, f) := fvAdd 0 a b
  let (r, g) := step32 v
  (r, f ||| g)

/-- FP32 fused multiply-add: a * b + c with a single rounding (R109). -/
def fma32 (a b c : FV) : FV × Nat :=
  let (p, f) := fvMul a b
  let (v, g) := fvAdd 0 p c
  let (r, h) := step32 v
  (r, f ||| g ||| h)

/-- FP32 product. -/
def mul32 (a b : FV) : FV × Nat :=
  let (v, f) := fvMul a b
  let (r, g) := step32 v
  (r, f ||| g)

/-- A block's products summed exactly and scaled (R108, steps 2 and 3). -/
def blockSum (ps : List (FV × FV)) (scale : Rat) : FV × Nat :=
  let (v, f) := ps.foldl (fun (b : FV × Nat) p =>
    let (x, f) := fvMul p.1 p.2
    let (r, g) := fvAdd 0 b.1 x
    (r, b.2 ||| f ||| g)) (.zero false, 0)
  (match v with | .num x => fvOf (x * scale) false | w => w, f)

/-- A scaled block sum added to the accumulator (R108, step 4). -/
def macBlock (acc : FV × Nat) (ps : List (FV × FV)) (scale : Rat) : FV × Nat :=
  let (b, f) := blockSum ps scale
  let (r, g) := add32 acc.1 b
  (r, acc.2 ||| f ||| g)

/-- Bits of an FP32 value. -/
def bits32 (v : FV) : Nat := (narrow fp32 rne 0 false v).1

/-- Units of 2^-400 in a rational, rounded down. -/
def fix400 (x : Rat) : Nat := (x * 2 ^ 400).floor.toNat

/-- e^-y for y from 0 to 300 in units of 2^-400: 40 terms of its series at y / 1024, squared ten times. -/
def expFix (y : Rat) : Nat :=
  let z := fix400 (y / 1024)
  let (up, down, _) := (upto 40).foldl (fun (b : Nat × Nat × Nat) i =>
    let t := b.2.2
    (if i % 2 == 0 then b.1 + t else b.1, if i % 2 == 0 then b.2.1 else b.2.1 + t, t * z / 2 ^ 400 / (i + 1))) (0, 0, 2 ^ 400)
  (upto 10).foldl (fun e _ => e * e / 2 ^ 400) (up - down)

/-- x / (1 + e^-v), the real value to far beyond FP32 (Table 3.8). -/
def sigmoidProd (x v : Rat) : Rat :=
  if 300 < v then x
  else if v < -300 then 0
  else
    let e : Rat := (expFix |v| : Rat) / 2 ^ 400
    if 0 ≤ v then x / (1 + e) else x * e / (1 + e)

/-- SiLU and GELU as Table 3.8 defines them; 0.5 (1 + tanh u) is 1 / (1 + e^-2u). -/
def siluReal (x : Rat) : Rat := sigmoidProd x x
def geluReal (x : Rat) : Rat := sigmoidProd x (2 * (79788456 / 100000000 : Rat) * (x + (44715 / 1000000 : Rat) * x ^ 3))

/-- FP32 value of a real result; a zero takes the sign given. -/
def near32 (neg : Bool) (r : Rat) : FV := if r == 0 then .zero neg else (readFloat fp32 false (bits32 (.num r))).1

/-- Value of a finite FP32 number. -/
def FV.real : FV → Rat
  | .num v => v
  | _ => 0

/-- A result lies within 2 ulp of a finite FP32 reference (R109). -/
def within2 (r c : FV) : Bool :=
  let ulp := two (max (if r.real == 0 then -126 else flog2 |r.real|) (-126) - 23)
  (match c with | .num _ => true | .zero _ => true | _ => false) && decide (|c.real - r.real| ≤ 2 * ulp)

/-- An activation of a finite value: what the unit's own function gives where that keeps the bound of R109, which leaves the choice of
value within it open (assumption 3), else the definition's value rounded. -/
def boundAct (f : BitVec 32 → BitVec 32) (real : Rat → Rat) (v : FV) : FV :=
  match v with
  | .nan => .nan
  | .inf n => if n then .zero true else .inf false
  | w =>
    let ref := near32 (w == .zero true || decide (w.real < 0)) (real w.real)
    let c := (readFloat fp32 false (f (BitVec.ofNat 32 (bits32 w))).toNat).1
    if within2 ref c then c else ref

/-- Activation of an FP32 value (Table 3.8): 0 none, 1 ReLU, 2 SiLU, 3 GELU. -/
def activate (act : Nat) (v : FV) : FV :=
  match act with
  | 1 => fvMinMax true v (.zero false)
  | 2 => boundAct Config.silu siluReal v
  | 3 => boundAct Config.gelu geluReal v
  | _ => v

end Sys2Proof.Machine
end

