-- ==== Sys2Proof/Machine/HearthOps.lean ====
section
/-! DEFINITION. The hearth directory (R215 to R236): lines and sets, snoops, grants, uncached accesses, back-invalidation
and fencing. -/

namespace Sys2Proof.Machine

open Sys2Proof

/-- Line index of a pool address in the hearth range (R222). -/
def State.hline (s : State) (pa : Nat) : Nat := (pa - s.inForce Obj.hearthBase) / 64

/-- Pool address of a line index. -/
def State.hlinePa (s : State) (l : Nat) : Nat := s.inForce Obj.hearthBase + l * 64

/-- Set of a line (R222). -/
def hset (l : Nat) : Nat := (l % 2 ^ 20) ^^^ (l / 2 ^ 20 % 2 ^ 10)

/-- Guest and PVA of a line by the reverse map (R216). -/
def State.hlineOwner (s : State) (l : Nat) : Nat × Nat :=
  let (g, hi) := s.hearth.rmap.getD (l / 1024) (0, 0)
  (g, hi * 65536 + (l % 1024) * 64)

/-- Directory entry of a line; none: DI. -/
def State.dirOf (s : State) (l : Nat) : Option Dir := s.hearth.dir.find l

/-- The entry is busy (Table 7.4). -/
def Dir.busy (d : Dir) : Bool := decide (4 ≤ d.st)

/-- The entry is DX or busy with an ownership grant (R224). -/
def Dir.owned (d : Dir) : Bool := d.st == 2 || (d.busy && (match d.grant with | .own _ _ => true | _ => false))

/-- HSH of a line, in its WCB or in DRAM (R224, R361). -/
def State.hint (s : State) (l : Nat) (on : Bool) : State :=
  let pl := s.place (s.hlinePa l)
  let (ch, line) := s.wcbOf pl
  if (s.chan ch).wcb.has line then s.onChan ch fun c => { c with wcb := c.wcb.upd line fun w => { w with hsh := on } }
  else s.putMeta pl fun m => if on then setBit m 1 else clearBit m 1

/-- Entry of a line written, with the line's hint. -/
def State.setDir (s : State) (l : Nat) (d : Dir) : State := State.hint { s with hearth := { s.hearth with dir := s.hearth.dir.put l d } } l d.owned

/-- The line becomes DI and its way frees. -/
def State.dropDir (s : State) (l : Nat) : State := State.hint { s with hearth := { s.hearth with dir := s.hearth.dir.del l } } l false

/-- Owner that an entry names: PTR0 in DX, 4,096 (no CEID) otherwise. -/
def Dir.holder (d : Dir) : Nat := if d.st == 2 then d.ptrs.headD 4096 else 4096

/-- The line has a transaction in progress. -/
def State.hbusy (s : State) (l : Nat) : Bool := match s.dirOf l with | some d => d.busy | none => false

/-- Registered endpoint of an EPID: CEID and record. -/
def State.ceOf (s : State) (epid : Nat) : Option (Nat × Ce) := s.hearth.ces.rows.find? fun r => r.2.epid == epid

/-- The endpoint is registered and ACTIVE. -/
def State.ceActive (s : State) (c : Nat) : Bool := match s.hearth.ces.find c with | some e => !e.fenced | none => false

/-- Sharers or owner that an entry names: pointers, or every ACTIVE endpoint of a marked group (R223). -/
def State.holders (s : State) (d : Dir) : List Nat :=
  if d.coarse then (s.hearth.ces.keys.filter fun c => d.cvec.testBit (c / 64) && s.ceActive c) else d.ptrs

/-- A sharer added; the seventh makes the entry coarse (R223). -/
def Dir.share (d : Dir) (c : Nat) : Dir :=
  if d.coarse then { d with cvec := setBit d.cvec (c / 64) }
  else if d.ptrs.contains c then d
  else if d.ptrs.length < 6 then { d with ptrs := d.ptrs ++ [c] }
  else { d with coarse := true, ptrs := [], cvec := (d.ptrs ++ [c]).foldl (fun v x => setBit v (x / 64)) 0 }

/-- A snoop TAG free for the endpoint (R279). -/
def State.snoopTag (s : State) (c epid : Nat) : Nat :=
  let used (t : Nat) : Bool := (s.hearth.dir.rows.any fun r => r.2.snoops.any fun x => x.1 == c && x.2.2.1 == t) ||
    s.hearth.late.contains (c, t) || s.fabric.own.any fun o => o.dst == epid && o.tag == t
  (firstFrom (fun t => !used t) 4096 0).getD 0

/-- The packet of a snoop: its ADDR and partition key by the reverse map and the registration, and for a forward the requester (R216, R217,
R279). -/
def State.sendSnoop (s : State) (l : Nat) (e : Ce) (opc tag fwd : Nat) : State :=
  s.originate { dst := e.epid, pkey := e.pkey, tc := 2, opc := opc, addr := (s.hlineOwner l).2, tag := tag, xw := if opc == 0x19 || opc == 0x1A then fwd else 0 }

/-- A snoop is sent to an endpoint for a line and awaited; one to a FENCED endpoint counts as
answered, and one to a FENCED owner as the loss of the line (R217, R226, R230). -/
def State.snoop (s : State) (l c opc reqEpid reqTag : Nat) : State :=
  match s.hearth.ces.find c with
  | none => s
  | some e =>
    if e.fenced then
      (match s.dirOf l with | some d => if d.owner == c then s.setDir l { d with dirty := some ([], true) } else s | none => s) else
    let t := s.snoopTag c e.epid
    let s := match s.dirOf l with | some d => s.setDir l { d with snoops := d.snoops ++ [(c, opc, t, s.now)] } | none => s
    s.sendSnoop l e opc t (reqEpid * 2 ^ 32 + reqTag)

/-- Requester that a forward of an entry names. -/
def State.forwardOf (s : State) (d : Dir) : Nat :=
  let req (t : Nat) : Nat := match s.pool.reqs.find t with | some r => r.p.src * 2 ^ 32 + r.p.tag | none => 0
  match d.grant with
  | .read t => req t
  | .own t _ => req t
  | _ => 0

/-- The outstanding snoops of a mirror pair's sets are sent again, and their limits start again (R236). -/
def State.resnoop (s : State) (pair : Nat) : State :=
  (s.hearth.dir.rows.filter fun r => hset r.1 % 3 == pair).foldl (fun (s : State) r =>
    let now := s.now
    let s := s.setDir r.1 { r.2 with snoops := r.2.snoops.map fun x => (x.1, x.2.1, x.2.2.1, now) }
    r.2.snoops.foldl (fun (s : State) x => match s.hearth.ces.find x.1 with
      | some e => s.sendSnoop r.1 e x.2.1 x.2.2.1 (s.forwardOf r.2)
      | none => s) s) s

/-- Snoops to a list of endpoints. -/
def State.snoopAll (s : State) (l opc : Nat) (cs : List Nat) : State := cs.foldl (fun s c => s.snoop l c opc 0 0) s

/-- Recall of every copy that an entry names: SNP_RCL to an owner, SNP_INV to sharers (R226, R232). -/
def State.recall (s : State) (l : Nat) (d : Dir) : State :=
  let s := if d.coarse then s.countN (dieLG (2 * (hset l % 3))) 0 0x5014 5 (s.holders d).length else s
  if d.st == 2 then s.snoopAll l 0x1C d.ptrs else s.snoopAll l 0x1D (s.holders d)

/-- A coherence message that answers a tracked request (R73). -/
def State.grantMsg (s : State) (t : Nat) (r : Req) (opc : Nat) (data : Bytes) (poi : Bool) : State :=
  let b := padBytes 64 data
  (s.onReq t fun r => { r with stage := Stage.answer }).originate
    { dst := r.p.src, pkey := r.p.pkey, tc := 2, opc := opc, len := b2n (cohHasData opc), addr := r.p.addr, tag := r.p.tag,
      poi := poi, payload := if cohHasData opc then b else [] } (some t)

/-- Data of a line as the home reads it, from the WCB or DRAM (R224). -/
def State.hread (s : State) (l : Nat) : Seen × State := s.readLine (s.hlinePa l) (s.hlineOwner l).1

/-- Dirty data that came back is written to the line (R224, R226). -/
def State.hwrite (s : State) (l : Nat) (d : Bytes) (poi : Bool) : State :=
  s.wcbPut (s.hlinePa l) (s.hlineOwner l).1 (padBytes 64 d) poi

/-- Entries of a set. -/
def State.waysOf (s : State) (l : Nat) : List (Nat × Dir) := s.hearth.dir.rows.filter fun r => hset r.1 == hset l

/-- The victim of a full set: the highest RPL that is not busy, the lowest way on a tie (R232). A line that a request waits for
is not chosen. -/
def State.hvictim (s : State) (l : Nat) : Option (Nat × Dir) :=
  ((s.waysOf l).filter fun r => !r.2.busy && !(s.hearth.queue.any (·.1 == r.1))).foldl (fun b r => match b with
    | some v => if v.2.rpl < r.2.rpl || (v.2.rpl == r.2.rpl && decide (r.2.way < v.2.way)) then some r else b
    | none => some r) none

/-- A way is free in the line's set, or kept for the line (R232). -/
def State.hasWay (s : State) (l : Nat) : Bool :=
  decide ((s.waysOf l).length + (s.hearth.kept.filter fun k => k.1 != l && hset k.1 == hset l).length < 16)

/-- The request's transaction is over; its tracker frees unless the home's answer keeps it (R73). -/
def State.hdone (s : State) (t : Nat) : State :=
  (match s.pool.reqs.find t with | some r => if r.stage == Stage.answer then s else s.freeTracker t | none => s).countLedger 0x5014 0

/-- The transaction of an entry whose awaited answers have all come (Table 7.5, R226, R230, R232). OWNER 4,096 stands for none:
the home then grants from memory itself, and waits where the line cannot be read yet. -/
def State.hfinish (s : State) (l : Nat) (d : Dir) : State :=
  if !d.snoops.isEmpty || d.st == 7 then s else
  let lost := match d.dirty with | some (_, b) => b | none => false
  let s := match d.dirty with | some (x, false) => s.hwrite l x d.poi | _ => s
  match d.grant with
  | .read t =>
    match s.pool.reqs.find t with
    | none => s.setDir l { d with st := 1, grant := .none }
    | some r =>
      let c := ((s.ceOf r.p.src).map (·.1)).getD 0
      let new : Dir := { st := 1, ptrs := if lost || d.owner == c || d.owner == 4096 then [c] else [d.owner, c], way := d.way }
      if lost then ((s.setDir l new).grantMsg t r 0x15 (poisonBytes 0 64) true).hdone t
      else if d.owner == 4096 then
        let (x, s) := s.hread l
        if x.waits then s.setDir l { d with dirty := none }
        else ((s.setDir l new).grantMsg t r 0x15 x.data x.poison).hdone t
      else (s.setDir l new).hdone t
  | .own t upg =>
    match s.pool.reqs.find t with
    | none => s.dropDir l
    | some r =>
      let c := ((s.ceOf r.p.src).map (·.1)).getD 0
      let fromDs := d.owner == 4096
      let new : Dir := { st := 2, ptrs := [c], way := d.way }
      if upg then ((s.setDir l new).grantMsg t r 0x17 [] false).hdone t
      else if lost then ((s.setDir l new).grantMsg t r 0x16 (poisonBytes 0 64) true).hdone t
      else if fromDs then
        let (x, s) := s.hread l
        if x.waits then s.setDir l { d with dirty := none }
        else ((s.setDir l new).grantMsg t r 0x16 x.data x.poison).hdone t
      else (s.setDir l new).hdone t
  | .uncached _ => s.setDir l d
  | .porter _ _ _ _ => s.setDir l d
  | .flush => s.dropDir l
  | .leave c =>
    let e : Dir := { d with st := 1, grant := .none, ptrs := d.ptrs.filter (· != c), dirty := none, owner := 4096 }
    if e.coarse then State.setDir { s with hearth := { s.hearth with swept := l :: s.hearth.swept } } l e
    else if e.ptrs.isEmpty then s.dropDir l else s.setDir l e
  | .victim w =>
    let s := s.dropDir l
    if s.hearth.queue.any (·.1 == w) then { s with hearth := { s.hearth with kept := (w, d.way) :: s.hearth.kept } } else s
  | .none => s.setDir l { d with st := 1 }

/-- The entry is recalled for a way. -/
def Dir.isVictim (d : Dir) : Bool := d.busy && (match d.grant with | .victim _ => true | _ => false)

/-- A line has its victim, or the way that it freed (R232). -/
def State.hasVictim (s : State) (l : Nat) : Bool :=
  (s.hearth.kept.any fun k => k.1 == l) || s.hearth.dir.rows.any fun r => r.2.busy && r.2.grant == .victim l

/-- A victim enters BR and its copies are recalled (R232); at most HEARTH_BI_MAX at once (R233). A line that waits has one victim. -/
def State.backInvalidate (s : State) (l : Nat) : State :=
  if s.hasVictim l || s.reg Obj.hearthBiMax ≤ s.hearth.dir.count (fun _ d => d.isVictim) then s else
  match s.hvictim l with
  | some (v, d) =>
    let s := ((s.setDir v { d with st := 6, grant := .victim l, owner := d.holder, snoops := [] }).recall v d).countLedger 0x5014 1
    match s.dirOf v with | some d => s.hfinish v d | none => s
  | none => s

/-- A new entry in the way kept for the line, else in the lowest free way: every other valid way of the set ages by one (R223, R232). -/
def State.hnew (s : State) (l : Nat) (d : Dir) : State :=
  let used := ((s.waysOf l).map fun r => r.2.way) ++ (s.hearth.kept.filter fun k => hset k.1 == hset l).map (·.2)
  let way := match s.hearth.kept.find? fun k => k.1 == l with
    | some k => k.2
    | none => (firstFrom (fun w => !used.contains w) 16 0).getD 0
  let aged := s.hearth.dir.map fun k x => if hset k == hset l then { x with rpl := min 15 (x.rpl + 1) } else x
  State.setDir { s with hearth := { s.hearth with dir := aged, kept := s.hearth.kept.filter fun k => k.1 != l } } l { d with way := way }

/-- A request queued for its line (R225). -/
def State.hqueue (s : State) (l t : Nat) : State :=
  if s.hearth.queue.contains (l, t) then s
  else (State.onReq { s with hearth := { s.hearth with queue := s.hearth.queue ++ [(l, t)] } } t fun r => { r with stage := .line }).enterQ qidHearth t

/-- Another request stands before this one in the line's queue. -/
def State.hahead (s : State) (t l : Nat) : Bool := match s.hearth.queue.find? fun x => x.1 == l with | some x => x.2 != t | none => false

/-- An atomic of another request is at work on the line (R139, R227). -/
def State.hatomic (s : State) (t l : Nat) : Bool :=
  s.pool.reqs.rows.any fun r => r.1 != t && r.2.p.opc == 0x04 && (r.2.stage == .dram || r.2.stage == .wcb) && r.2.win.any (·.hearth) &&
    r.2.pas.any fun x => s.hline x.1 == l

/-- A request for the line has to wait for its turn (R225). -/
def State.hwaits (s : State) (t l : Nat) : Bool := s.hbusy l || s.hahead t l || s.hatomic t l

/-- RD_S may be granted E (R219, R238). -/
def State.mayGrantE (s : State) (r : Req) (l : Nat) : Bool :=
  s.flag Obj.hearthGrantE && (match r.win with | some w => w.write | none => false) &&
    (match s.leafAt r.gid (r.p.addr) with | some f => !f.wp | none => false) && decide (l < 2 ^ 30)

/-- A request served from DI: data is read and granted (Table 7.5). It waits while a way or the data is not there. -/
def State.serveDI (s : State) (t : Nat) (r : Req) (l c : Nat) : State :=
  if !s.hasWay l then (s.backInvalidate l).hqueue l t else
  let (d, s) := s.hread l
  if d.waits then s.hqueue l t else
  let e := r.p.opc != 0x10 || s.mayGrantE r l
  let s := s.hnew l { st := if e then 2 else 1, ptrs := [c] }
  (s.grantMsg t r (if e then 0x16 else 0x15) d.data d.poison).hdone t

/-- A request served from DS (Table 7.5). -/
def State.serveDS (s : State) (t : Nat) (r : Req) (l c : Nat) (d : Dir) : State :=
  if r.p.opc == 0x10 then
    let (x, s) := s.hread l
    if x.waits then s.hqueue l t else
    let s : State := { s with hearth := { s.hearth with swept := s.hearth.swept.filter (· != l) } }
    ((s.setDir l { d.share c with rpl := 0 }).grantMsg t r 0x15 x.data x.poison).hdone t
  else
    let others := (s.holders d).filter (· != c)
    let upg := r.p.opc == 0x12 && (if d.coarse then d.cvec.testBit (c / 64) else d.ptrs.contains c)
    let s := s.setDir l { d with st := 5, grant := .own t upg, owner := 4096, rpl := 0, snoops := [] }
    let s := if d.coarse then s.countN (dieLG (2 * (hset l % 3))) 0 0x5014 5 others.length else s
    (s.snoopAll l 0x1D others).onReq t fun r => { r with stage := .hearth }

/-- A request served from DX (Table 7.5). -/
def State.serveDX (s : State) (t : Nat) (r : Req) (l c : Nat) (d : Dir) : State :=
  let o := d.ptrs.headD 0
  let read := r.p.opc == 0x10
  let g : Grant := if read then .read t else .own t false
  let s := s.onReq t fun r => { r with stage := .hearth }
  if o == c then s.setDir l { d with st := 7, grant := g, owner := o, wbp := true, rpl := 0, snoops := [] }
  else
    let s := s.setDir l { d with st := if read then 4 else 5, grant := g, owner := o, rpl := 0, snoops := [] }
    s.snoop l o (if read then 0x19 else 0x1A) r.p.src r.p.tag

/-- Endpoint whose request an entry is busy with. -/
def State.grantee (s : State) (d : Dir) : Nat :=
  let ce (t : Nat) : Nat := match s.pool.reqs.find t with | some r => ((s.ceOf r.p.src).map (·.1)).getD 4096 | none => 4096
  match d.grant with
  | .read t => ce t
  | .own t _ => ce t
  | _ => 4096

/-- An endpoint may hold the line of an entry, or its transaction may give it the line (R239). -/
def State.mayHold (s : State) (l c : Nat) (d : Dir) : Bool :=
  if d.busy then d.owner == c || (s.holders d).contains c || s.grantee d == c
  else (s.holders d).contains c && !(d.coarse && s.hearth.swept.contains l)

/-- Lines of a running FLUSH or REMOVE_CE that are still cached (R234, R239). -/
def State.flushLeft (s : State) : List (Nat × Dir) :=
  match s.hearth.flush with
  | some (a, b, none) => s.hearth.dir.rows.filter fun r => decide (a ≤ r.1) && decide (r.1 < b)
  | some (a, b, some c) => s.hearth.dir.rows.filter fun r => decide (a ≤ r.1) && decide (r.1 < b) && s.mayHold r.1 c r.2
  | none => []

/-- One line of a FLUSH is recalled from every holder; one of a REMOVE_CE from its endpoint alone (R234, R239). -/
def State.flushLine (s : State) (l : Nat) (d : Dir) (ce : Option Nat) : State :=
  let put (g : Grant) : State := s.setDir l { d with st := 6, grant := g, owner := d.holder, snoops := [] }
  let s := match ce with
    | none => (put .flush).recall l d
    | some c => (put (.leave c)).snoopAll l (if d.st == 2 then 0x1C else 0x1D) [c]
  match s.dirOf l with | some d => s.hfinish l d | none => s

/-- A running FLUSH recalls what is cached and not busy, and ends when nothing of its range is (R234, R239). -/
def State.flushOn (s : State) : State :=
  match s.hearth.flush with
  | none => s
  | some (_, _, ce) =>
    let s := s.flushLeft.foldl (fun s r => if r.2.busy then s else s.flushLine r.1 r.2 ce) s
    if s.flushLeft.isEmpty then
      let s := { s with hearth := { s.hearth with flush := none, swept := [], ces := match ce with | some c => s.hearth.ces.del c | none => s.hearth.ces } }
      s.setReg Obj.hearthCmdResult 0
    else s

/-- A line held in DX by an endpoint that does not answer is lost: its poison bit is set, in DRAM or in the WCB that cannot drain (R230). -/
def State.hlose (s : State) (l : Nat) : State :=
  let pl := s.place (s.hlinePa l)
  let (ch, line) := s.wcbOf pl
  let s := s.drainLine ch line
  if (s.chan ch).wcb.has line then s.onChan ch fun c => { c with wcb := c.wcb.upd line fun w => { w with mask := fullMask, poison := true } }
  else s.putMeta pl fun m => setBit m 0

/-- The entry awaits a WB or EVC that has not come (BW of Table 7.4). -/
def Dir.awaitsWb (d : Dir) : Bool := d.st == 7 && !d.wbGot

/-- Fencing of an endpoint: record, interrupt, snoops answered, its DX lines poisoned (R230). -/
def State.fence (s : State) (c : Nat) : State :=
  match s.hearth.ces.find c with
  | none => s
  | some e =>
    let mine := s.hearth.dir.rows.filter fun r => (r.2.st == 2 && r.2.ptrs.headD 0 == c) || (r.2.busy && r.2.owner == c && (r.2.snoops.any (·.1 == c) || r.2.awaitsWb))
    let late := (s.hearth.dir.rows.map fun r => (r.2.snoops.filter (·.1 == c)).map fun x => (c, x.2.2.1)).flatten
    let s := { s with hearth := { s.hearth with ces := s.hearth.ces.put c { e with fenced := true, walking := true }, late := s.hearth.late ++ late } }
    let s := mine.foldl (fun s r => s.hlose r.1) s
    let s := ((s.irqEdge 0x004).log 0x0D (dieLG 0) (e.epid * 2 ^ 32 + c) mine.length).countLedger 0x5014 6
    s.hearth.dir.rows.foldl (fun s r =>
      if r.2.snoops.any (·.1 == c) || (r.2.awaitsWb && r.2.owner == c) then
        let st := if !r.2.awaitsWb then r.2.st else (match r.2.grant with | .read _ => 4 | .own _ _ => 5 | _ => 6)
        let d := { r.2 with st := st, snoops := r.2.snoops.filter (·.1 != c), dirty := if r.2.owner == c then some ([], true) else r.2.dirty }
        (s.setDir r.1 d).hfinish r.1 d
      else s) s

/-! ## Uncached accesses (R226, R227) -/

/-- An uncached access of a line may proceed: a read when the line is DI or DS, a write or an atomic when it is DI, and one whose own recall
keeps the entry busy. -/
def State.uncachedOk (s : State) (l : Nat) (write : Bool) (mine : Grant → Bool) : Bool :=
  match s.dirOf l with
  | none => true
  | some d => (!write && d.st == 1) || (d.open_ && mine d.grant)

/-- The recall that an uncached access needs starts; one on a busy line waits (R223, R226). -/
def State.uncachedStart (s : State) (l : Nat) (g : Grant) (write : Bool) : State :=
  match s.dirOf l with
  | none => s
  | some d =>
    if d.busy then s
    else
      let s := s.setDir l { d with st := 6, grant := g, owner := d.holder, snoops := [], dirty := none, open_ := false, rpl := 0 }
      if d.st == 2 && !write then s.snoopAll l 0x1B d.ptrs else s.recall l d

/-- The recall of an uncached access is over: dirty data is written. After a read the entry is DS; for a write it stays busy until the write is
acknowledged or withdrawn (R226). -/
def State.uncachedEnd (s : State) (l : Nat) (write : Bool) : State :=
  match s.dirOf l with
  | some d =>
    let s := match d.dirty with | some (x, false) => s.hwrite l x d.poi | _ => s
    if write then s.setDir l { d with open_ := true, dirty := none }
    else if d.ptrs.isEmpty then s.dropDir l
    else s.setDir l { d with st := 1, grant := .none, dirty := none, snoops := [] }
  | none => s

/-- The entries that uncached writes kept busy become DI (R226). -/
def State.uncachedFree (s : State) (mine : Grant → Bool) : State :=
  let ls := (s.hearth.dir.rows.filter fun r => r.2.open_ && mine r.2.grant).map (·.1)
  if ls.isEmpty then s else (ls.foldl (fun (s : State) l => s.dropDir l) s).flushOn

/-! ## Answers to snoops (R217, R224) -/

/-- Entry whose snoop to an endpoint with this TAG is outstanding. -/
def State.snoopedLine (s : State) (c tag : Nat) : Option (Nat × Dir) :=
  s.hearth.dir.rows.find? fun r => r.2.snoops.any fun x => x.1 == c && x.2.2.1 == tag

/-- An awaited snoop is answered by SNP_ACK, SNP_DATA with the line's bytes, or SNP_WBP. -/
def Dir.answered (d : Dir) (c tag : Nat) : Dir := { d with snoops := d.snoops.filter fun x => !(x.1 == c && x.2.2.1 == tag) }

/-! ## Entries as QUERY_LINE returns them (Table 7.4) -/

/-- A directory entry's 128 bits. -/
def dirBits (l : Nat) (d : Dir) : Nat :=
  (l / 2 ^ 20 % 2 ^ 10) * 2 ^ 118 + d.st * 2 ^ 115 + b2n d.coarse * 2 ^ 114 + (if d.coarse then 0 else d.ptrs.length * 2 ^ 111) + d.rpl * 2 ^ 72 +
    (if d.coarse then d.cvec else d.ptrs.zipIdx.foldl (fun n x => n + x.1 * 2 ^ (12 * x.2)) 0)

end Sys2Proof.Machine
end

