-- ==== Sys2Proof/Machine/AccessOps.lean ====
section
/-! DEFINITION. What a request that holds a tracker does: residency, the checks of R20, translation with its holds and zero
fills, and then its access: loads, stores, atomics, coherent requests and doorbells (R10, R20, R31 to R37, R63,
R194 to R207, R219 to R227, R280, R557). -/

namespace Sys2Proof.Machine

open Sys2Proof

/-! ## Kinds of requests -/

/-- Rights that an opcode needs (R20, R219). -/
def needOf (opc : Nat) : Need :=
  if opc == 0x01 || opc == 0x10 then { read := true }
  else if opc == 0x02 || opc == 0x03 || opc == 0x11 || opc == 0x12 then { write := true }
  else if opc == 0x04 then { atomic := true }
  else {}

/-- A coherent request (Table 7.2). -/
def isCoh (opc : Nat) : Bool := decide (0x10 ≤ opc) && decide (opc ≤ 0x14)

/-- The request writes or is atomic, for WP and ZM (Table 6.3). -/
def writes (opc : Nat) : Bool := opc == 0x02 || opc == 0x03 || opc == 0x04 || opc == 0x11 || opc == 0x12

/-- Bytes of an ATOMIC's element, 0 where its FMT permits none. -/
def atomicSize (p : Packet) : Nat :=
  match fmtOf (bitsOf p.xw 7 0) with
  | some (.int _ w) => w / 8
  | some (.flt f) => if f == fp32 || f == fp16 || f == bf16 then f.width / 8 else 0
  | _ => 0

/-- The operand tests of an ATOMIC packet (R136, R141, R280). -/
def atomicOk (p : Packet) : Bool :=
  let n := atomicSize p
  let op := bitsOf p.xw 15 8
  n != 0 && p.addr % n == 0 &&
    (if bitOf p.xw 16 then op == 0 && (match fmtOf (bitsOf p.xw 7 0) with | some (.int _ _) => true | _ => false)
     else match fmtOf (bitsOf p.xw 7 0) with | some t => opFits op t | none => false)

/-- Bytes that a request touches. -/
def reqLen (p : Packet) : Nat :=
  if p.opc == 0x04 then atomicSize p else if isCoh p.opc then 1 else bitsOf p.xw 10 0

/-! ## Doorbells (R62, R63, R66, R67) -/

/-- D(x) of R63. -/
def Stream.dist (t : Stream) (x : Nat) : Nat := wrapSub 21 x t.head

/-- A doorbell passes the four conditions of R63. -/
def State.bellOk (s : State) (gid addr : Nat) : Bool :=
  match s.work.streams.find (bitsOf addr 47 28) with
  | some t => t.gid == gid && decide (t.dist (bitsOf addr 20 0) ≤ 2 ^ t.k) && decide (t.dist t.tail < t.dist (bitsOf addr 20 0))
  | none => false

/-- The pending-doorbell queue is full (R67). -/
def State.bellsFull (s : State) : Bool := decide (4096 ≤ s.work.bells.length)

/-- A doorbell must wait for a place in the queue of those for spilled streams (R67). -/
def State.bellStalls (s : State) (gid addr : Nat) : Bool :=
  s.bellsFull && s.bellOk gid addr && !(s.work.streams.getD (bitsOf addr 47 28) {}).resident

/-- Streams resident. -/
def State.residentStreams (s : State) : Nat := s.work.streams.count fun _ t => t.resident

/-- A stream has an accepted waybill that has not completed. -/
def State.streamBusy (s : State) (k : Nat) : Bool := s.work.wbs.rows.any fun r => r.2.stream == k

/-- The least loaded sequencer (R68). DESIGN CHOICE (assumption 33): its load is the number of resident streams bound to it, a tie goes
to the lowest number, and the sequencers of lost clusters are left out. -/
def State.bestSeqr (s : State) : Nat :=
  let load (c : Nat) : Nat := s.work.streams.count fun _ t => t.resident && t.seqr == c
  let open_ := (upto 128).filter fun c => !(s.work.clusters.getD c {}).lost && s.hasDie (diePD (c / 8))
  (open_.foldl (fun (b : Option (Nat × Nat)) c => match b with
    | some v => if load c < v.2 then some (c, load c) else b
    | none => some (c, load c)) none).map (·.1) |>.getD 0

/-- A stream made resident (R66, R68). -/
def State.residentStream (s : State) (k : Nat) : State :=
  let q := s.bestSeqr
  { s with work := { s.work with streams := s.work.streams.upd k fun t => { t with resident := true, seqr := q, used := s.work.stamp + 1 }, stamp := s.work.stamp + 1 } }

/-- A doorbell applied: TAIL moves. -/
def State.applyBell (s : State) (k tail : Nat) : State :=
  { s with work := { s.work with streams := s.work.streams.upd k fun t => { t with tail := tail, used := s.work.stamp + 1 }, stamp := s.work.stamp + 1 } }

/-- A doorbell of a guest: discarded and counted, applied, or put in the pending-doorbell queue of a spilled stream. -/
def State.doorbell (s : State) (r : Req) : State :=
  let link := r.link
  let gid := r.gid
  let addr := r.p.addr
  let k := bitsOf addr 47 28
  if !s.bellOk gid addr then
    State.dropPkt { s with work := { s.work with discarded := s.work.discarded + 1 } } link 9
  else if (s.work.streams.getD k {}).resident then s.applyBell k (bitsOf addr 20 0)
  else
    let b : Bell := { stream := k, tail := bitsOf addr 20 0, src := r.p.src, pkey := r.p.pkey, gmEpoch := r.gmEpoch }
    State.enterQ { s with work := { s.work with bells := s.work.bells ++ [b] } } qidBell k

/-! ## Lines that a request reads -/

/-- A page that reads as zeros stands in a request's ranges as this pool address and above (R31). -/
def zeroMark : Nat := 2 ^ 45

/-- Line addresses of a request's ranges that it must read from memory, ascending. -/
def Req.lines (r : Req) : List Nat := ((r.pas.filter fun x => decide (x.1 < zeroMark)).map fun x => lineAddrs x.1 x.2).flatten

/-- A read burst for the line of a pool address joins its subchannel's queue of 128; while that is full it waits upstream (R332). -/
def State.queueBurst (s : State) (pa : Nat) (b : Burst) : State :=
  let (ch, line) := s.wcbOf (s.place pa)
  let sub := line / 4 % 2
  let b := { b with line := line, joined := s.now }
  let q := (s.chan ch).subs.getD sub {}
  if (q.rq ++ q.inFlight).any (fun x => x.line == line && x.trk == b.trk && x.weight == b.weight) || 128 ≤ q.rq.length then s
  else (s.onChan ch fun c => { c with lastReq := s.now, subs := c.subs.modify sub fun q => { q with rq := q.rq ++ [b] } }).enterQ (qidRead ch sub) line

/-- A read burst of a request. -/
def State.queueRead (s : State) (pa t : Nat) : State := s.queueBurst pa { trk := some t }

/-- A line that a request needs: from the LRC, from the WCB, from DRAM when its channel does not serve it (reconstructed,
or lost), or a burst is queued and the request waits (R37, R331, R351, R375). -/
def State.needLine (s : State) (t : Nat) (r : Req) (pa : Nat) (lrc : Bool) : State :=
  if r.got.has (pa / 64) then s else
  let take (s : State) (d : Bytes) (poi : Bool) : State := s.onReq t fun r => { r with got := r.got.put (pa / 64) (d, poi) }
  let (hit, s) := if lrc then s.lrcLook pa r.gid else (none, s)
  match hit with
  | some d => take s d false
  | none =>
    let (ch, line) := s.wcbOf (s.place pa)
    let whole := match (s.chan ch).wcb.find line with | some w => w.whole | none => false
    if whole || !(s.chan ch).serves then
      let (x, s) := s.readLine pa r.gid
      if x.waits then s.queueRead pa t
      else
        let s := take s x.data x.poison
        if lrc && !x.poison then s.lrcFill pa r.gid x.data else s
    else s.queueRead pa t

/-- A request has every line it needs. -/
def Req.ready (r : Req) : Bool := r.lines.all fun a => r.got.has (a / 64)

/-- Bytes of a range from the lines read. -/
def Req.rangeBytes (r : Req) (x : Nat × Nat) : Bytes :=
  if zeroMark ≤ x.1 then zeroBytes x.2
  else (sliceBytes (((lineAddrs x.1 x.2).map fun a => (r.got.getD (a / 64) (zeroBytes 64, false)).1).flatten) (x.1 % 64) x.2)

/-- One of the lines read delivered poison. -/
def Req.poisoned (r : Req) : Bool := r.lines.any fun a => (r.got.getD (a / 64) ([], false)).2

/-! ## Accesses -/

/-- The request's window lies in the hearth, outside the LRC. -/
def Req.hearth (r : Req) : Bool := match r.win with | some w => w.hearth | none => false

/-- Reads may allocate in the LRC (R37). -/
def Req.lrc (r : Req) : Bool := match r.win with | some w => w.lrcAlloc && !w.hearth | none => false

/-- The entry is busy with this request's uncached access. -/
def Grant.ofReq (t : Nat) (g : Grant) : Bool := g == .uncached t

/-- Lines of the hearth that the request must have recalled first, or whose turn it must wait for (R225 to R227). -/
def State.hearthStop (s : State) (t : Nat) (r : Req) (write : Bool) : Option Nat :=
  let open_ (l : Nat) : Bool := match s.dirOf l with | some d => d.open_ && Grant.ofReq t d.grant | none => false
  if r.hearth then (r.pas.map fun x => lineAddrs x.1 x.2).flatten.findSome? fun a =>
    let l := s.hline a
    if open_ l || (s.uncachedOk l write (Grant.ofReq t) && !s.hahead t l && !s.hatomic t l) then none else some l
  else none

/-- The request waits for the recall of a line, or in its queue; what it has read is read again (R225, R226). -/
def State.hearthWait (s : State) (t l : Nat) (write : Bool) : State :=
  let s := s.onReq t fun r => { r with got := {} }
  if s.hwaits t l then s.hqueue l t else (s.uncachedStart l (.uncached t) write).onReq t fun r => { r with stage := .hearth }

/-- An uncached access is acknowledged, and the lines that it kept busy are free (R226). -/
def State.ackReq (s : State) (t status : Nat) (data : Bytes) (poi : Bool) : State := (s.endReq t status data poi).uncachedFree (Grant.ofReq t)

/-- A load: lines are read and answered, with POI when one is poisoned (R280, R366). -/
def State.load (s : State) (t : Nat) (r : Req) : State :=
  match s.hearthStop t r false with
  | some l => s.hearthWait t l false
  | none =>
    let s := r.lines.foldl (fun s a => s.needLine t r a r.lrc) s
    match s.pool.reqs.find t with
    | none => s
    | some r =>
      if r.ready then s.endReq t (if r.poisoned then 0x02 else 0) (r.pas.map r.rangeBytes).flatten r.poisoned
      else s.onReq t fun r => { r with stage := .dram }

/-- Ranges of a store: pool address, bytes, one for each line. -/
def storeLines (pas : List (Nat × Nat)) (data : Bytes) : List (Nat × Bytes) :=
  (pas.foldl (fun (b : List (Nat × Bytes) × Nat) x =>
    (b.1 ++ (lineAddrs x.1 x.2).map fun a =>
      let lo := max a x.1
      let hi := min (a + 64) (x.1 + x.2)
      (lo, sliceBytes data (b.2 + (lo - x.1)) (hi - lo)), b.2 + x.2)) ([], 0)).1

/-- A store: every byte enters the WCB, and it is acknowledged; a store to a lost line is applied nowhere and answers POISON
(R35, R366, R370, R383). -/
def State.store (s : State) (t : Nat) (r : Req) : State :=
  match s.hearthStop t r true with
  | some l => s.hearthWait t l true
  | none =>
    let parts := storeLines r.pas r.p.payload
    if parts.any (fun x => s.lineLost x.1) then s.ackReq t 0x02 [] false
    else if parts.all (fun x => s.wcbRoom x.1) then
      (parts.foldl (fun s x => s.wcbWrite x.1 r.gid x.2 r.p.poi) s).ackReq t 0 [] false
    else s.onReq t fun r => { r with stage := .wcb }

/-- An ATOMIC's element: old value read and new value written (R137, R138, R141, R278, R280, R557). -/
def State.atomic (s : State) (t : Nat) (r : Req) : State :=
  match s.hearthStop t r true with
  | some l => s.hearthWait t l true
  | none =>
    let s := r.lines.foldl (fun s a => s.needLine t r a false) s
    match s.pool.reqs.find t, r.pas with
    | some r, x :: _ =>
      if !r.ready then s.onReq t fun r => { r with stage := .dram } else
      let (ch, _) := s.wcbOf (s.place x.1)
      let n := atomicSize r.p
      if r.poisoned || r.p.poi then s.ackReq t 0x02 (padBytes 8 (poisonBytes (x.1 % 64) n)) true
      else if !s.wcbRoom x.1 then s.onReq t fun r => { r with stage := .wcb, got := {} }
      else
        let old := r.rangeBytes x
        let b := sliceBytes r.p.payload 0 n
        let new := if bitOf r.p.xw 16 then (if old == b then sliceBytes r.p.payload 8 n else old)
          else match fmtOf (bitsOf r.p.xw 7 0) with
            | some f => leBytes n (elemOp (bitsOf r.p.xw 15 8) f {} 0 (leNat old) (leNat b)).1
            | none => old
        ((s.wcbWrite x.1 r.gid new false).countChan ch 0x301B 0).ackReq t 0 (padBytes 8 old) false
    | _, _ => s

/-! ## Coherent requests (R219, R224, R225) -/

/-- What follows a WB or EVC that a busy entry awaited (Table 7.5): the pending grant is served by the home. -/
def State.afterWb (s : State) (l : Nat) (d : Dir) : State :=
  let s := match d.dirty with | some (x, false) => s.hwrite l x d.poi | _ => s
  let grantTo (s : State) (t : Nat) (own : Bool) : State :=
    match s.pool.reqs.find t with
    | none => s.dropDir l
    | some r =>
      let c := ((s.ceOf r.p.src).map (·.1)).getD 0
      if c == d.owner then (s.dropDir l).serveDI t r l c
      else
        let e : Dir := { d with st := if own then 5 else 4, owner := 4096, ptrs := [], snoops := [], dirty := none, wbp := false, wbGot := false }
        (s.setDir l e).hfinish l e
  match d.grant with
  | .read t => grantTo s t false
  | .own t _ => grantTo s t true
  | .uncached _ => s.setDir l { d with st := 6, ptrs := [], snoops := [], dirty := none, owner := 4096 }
  | .porter _ _ _ _ => s.setDir l { d with st := 6, ptrs := [], snoops := [], dirty := none, owner := 4096 }
  | _ => s.dropDir l

/-- A WB or EVC from an endpoint (Table 7.5). -/
def State.takeWb (s : State) (t : Nat) (r : Req) (l c : Nat) : State :=
  let ack (s : State) : State := (s.grantMsg t r 0x18 [] false).hdone t
  let data : Option (Bytes × Bool) := if r.p.opc == 0x13 then some (padBytes 64 r.p.payload, false) else none
  match s.dirOf l with
  | none => (ack s).countLedger 0x5014 3
  | some d =>
    if d.st == 2 && d.holder == c then
      let s := match data with | some (x, _) => s.hwrite l x r.p.poi | none => s
      (ack (s.dropDir l)).flushOn
    else if d.busy && d.owner == c && !d.wbGot then
      let d := { d with dirty := data, poi := r.p.poi, wbGot := true }
      if d.wbp then (ack (s.afterWb l d)).flushOn else ack (s.setDir l d)
    else (ack s).countLedger 0x5014 3

/-- A coherent request at its line (R217, R219, R224, R225). -/
def State.coherent (s : State) (t : Nat) (r : Req) : State :=
  match s.ceOf r.p.src, r.pas with
  | some (c, e), x :: _ =>
    if e.fenced then s.endReq t 0x07 [] false else
    let l := s.hline x.1
    if r.p.opc == 0x13 || r.p.opc == 0x14 then s.takeWb t r l c
    else if s.hwaits t l then s.hqueue l t
    else match s.dirOf l with
      | none => s.serveDI t r l c
      | some d =>
        let s := if d.st == 2 then s.serveDX t r l c d else s.serveDS t r l c d
        match s.dirOf l with | some d => if d.busy then s.hfinish l d else s | none => s
  | _, _ => s.endReq t 0x07 [] false

/-! ## Translation of a request (R194, R195) -/

/-- A zero fill of a page starts unless it runs (R32, R33). -/
def State.startFill (s : State) (gid level pva pa : Nat) : State :=
  if (s.filling pa).isSome then s
  else
    let f : ZFill := { gid := gid, pva := pva, level := level, pa := pa, size := levelSpan level, epoch := s.trans.epoch }
    { s with pool := { s.pool with fills := s.pool.fills ++ [f] } }

/-- The request is held on a non-resident page; one that was held keeps the start of its hold (R206, R207). -/
def State.holdReq (s : State) (t : Nat) (r : Req) (level pva : Nat) : State :=
  let since := match r.stage with | .hold h => h.since | _ => s.now
  let (h, s) := s.openHold r.gid { level := level, page := pva, write := writes r.p.opc, atomic := r.p.opc == 0x04, since := since } false
  (s.onReq t fun r => { r with stage := .hold h }).enterQ qidFault t

/-- The access that a translated request makes. -/
def State.perform (s : State) (t : Nat) (r : Req) : State :=
  if r.p.opc == 0x01 then s.load t r
  else if r.p.opc == 0x02 || r.p.opc == 0x03 then s.store t r
  else if r.p.opc == 0x04 then s.atomic t r
  else s.coherent t r

/-- A part of a request in one page: its first address, its bytes, and what its translation met. -/
structure Page where
  pva : Nat
  len : Nat
  xl : Xl

/-- Pool address of a part, in a zero page only where the page is written or its fill runs (R31 to R33). -/
def State.pageAt (s : State) (write : Bool) (x : Page) : Nat :=
  match x.xl with
  | .ok a => a
  | .zero _ p a => if write || (s.filling a).isSome then a + (x.pva - p) else zeroMark
  | _ => zeroMark

/-- A translated request waits for the fills of its pages, or makes its access (R33). -/
def State.settled (s : State) (t : Nat) (r : Req) : State :=
  match r.pas.findSome? fun x => s.filling x.1 with
  | some f => s.onReq t fun r => { r with stage := .fill f.pa }
  | none => s.perform t r

/-- Outcome of a request's pages (R195): the first that ends it, else a hold on the first that is not resident, else zero fills of those
it writes first, else its access. -/
def State.onPages (s : State) (t : Nat) (r : Req) (outs : List Page) : State :=
  match outs.findSome? fun x => match x.xl with | .stop e => some e | _ => none with
  | some e => s.endReq t e [] false
  | none =>
    match outs.findSome? fun x => match x.xl with | .hold l p => some (l, p) | _ => none with
    | some (l, p) => s.holdReq t r l p
    | none =>
      let w := writes r.p.opc
      let r := { r with pas := outs.map fun x => (s.pageAt w x, x.len), epoch := s.trans.epoch }
      let s := outs.foldl (fun (s : State) x => match x.xl with | .zero l p a => if w then s.startFill r.gid l p a else s | _ => s) s
      (s.onReq t fun _ => r).settled t r

/-- The request's pages looked up in the cache; a miss starts a walk (R194). -/
def State.translate (s : State) (t : Nat) (r : Req) : State :=
  let outs := (pieces r.p.addr (reqLen r.p)).map fun x => ({ pva := x.1, len := x.2, xl := s.xlCached r.gid x.1 (writes r.p.opc) } : Page)
  let s := s.countLedger 0x5011 0
  if outs.any (fun x => x.xl == .miss) then s.onReq t fun r => { r with stage := .walk (s.guest r.gid).gen }
  else (s.countLedger 0x5011 1).onPages t r outs

/-- A walk has returned for each page that missed (R194, R201). -/
def State.walked (s : State) (t : Nat) (r : Req) : State :=
  let (outs, s) := (pieces r.p.addr (reqLen r.p)).foldl (fun (b : List Page × State) x =>
    let (outs, s) := b
    let o := s.xlCached r.gid x.1 (writes r.p.opc)
    let (o, s) := if o == .miss then s.xlWalk r.gid x.1 (writes r.p.opc) else (o, s)
    (outs ++ [{ pva := x.1, len := x.2, xl := o }], s)) ([], s)
  s.onPages t r outs

/-- A held request is translated again (R207). -/
def State.rewalk (s : State) (t : Nat) : State :=
  match s.pool.reqs.find t with
  | some r => (s.leaveQ qidFault t).walked t r
  | none => s

/-! ## The whole request -/

/-- Checks 3 to 5 of R20 with the tests of R280 and R219 in their places: a status, or the window. -/
def State.checks (s : State) (r : Req) : Option Nat × Option Window :=
  if r.p.opc == 0x04 && !atomicOk r.p then (some 0x09, none) else
  match s.windowCheck r.dir r.p.addr (reqLen r.p) (needOf r.p.opc) with
  | (some e, _) => (some e, none)
  | (none, w) =>
    match s.keyCheck r.gid with
    | some e => (some e, none)
    | none => if isCoh r.p.opc && (!(match w with | some w => w.hearth | none => false) || r.p.addr % 64 != 0) then (some 0x09, none) else (none, w)

/-- A tracked request goes as far as it can: checks once, then translation once, then its access (R10, R20, R22, R202). -/
def State.access (s : State) (t : Nat) : State :=
  match s.pool.reqs.find t with
  | none => s
  | some r =>
    if r.stage == Stage.answer || r.stage == Stage.mgmt then s else
    let s := match r.stage with | .hold _ => s.leaveQ qidFault t | _ => s
    if !r.pas.isEmpty then (match r.stage with | .fill _ => s.settled t r | _ => s.perform t r)
    else match (if r.win.isSome then none else s.guestCheck r.gid) with
      | some e => s.endReq t e [] false
      | none =>
        if !(s.guest r.gid).resident then (s.startSwap r.gid).onReq t fun r => { r with stage := .swap }
        else
          let s := s.touchGuest r.gid
          if r.p.opc == 0x05 then
            (if s.bellStalls r.gid r.p.addr then s.onReq t fun r => { r with stage := .bell } else (s.freeTracker t).doorbell r)
          else match r.win with
            | some _ => s.translate t r
            | none =>
              match s.checks r with
              | (some e, _) => s.endReq t e [] false
              | (none, w) =>
                if s.keyUnwraps r.gid then
                  let r := { r with win := w }
                  (s.onReq t fun _ => r).translate t r
                else (s.keyFail r.gid).endReq t 0x0D [] false

/-- Every request at a stage that satisfies f goes on. -/
def State.resume (s : State) (f : Req → Bool) : State :=
  (s.pool.reqs.rows.filter fun r => f r.2).foldl (fun s r => s.access r.1) s

/-- SNP_ACK, SNP_DATA or SNP_WBP, which answer snoops (Table 7.2); the home awaits no other message. -/
def answersSnoop (opc : Nat) : Bool := decide (0x21 ≤ opc) && decide (opc ≤ 0x23)

/-- A coherence answer or data message from an endpoint, in the order of R217. -/
def State.snoopAnswer (s : State) (link : Nat) (p : Packet) : State :=
  match s.ceOf p.src with
  | none => s.dropPkt link 8
  | some (c, e) =>
    if e.fenced then s.countLedger 0x5014 4
    else if !answersSnoop p.opc then s.dropPkt link 8
    else match s.snoopedLine c p.tag with
      | none =>
        if s.hearth.late.contains (c, p.tag) then
          State.countLedger { s with hearth := { s.hearth with late := s.hearth.late.filter (· != (c, p.tag)) } } 0x5014 2
        else s.dropPkt link 8
      | some (l, d) =>
        if (p.opc == 0x23 || d.wbGot) && d.owner == c then
          let d := { d.answered c p.tag with wbp := true }
          (if d.wbGot then s.afterWb l d else s.setDir l { d with st := 7 }).flushOn
        else
          let d := d.answered c p.tag
          let s := s.setDir l d
          let s := if p.opc == 0x22 then s.hwrite l p.payload p.poi else s
          (s.hfinish l d).flushOn

end Sys2Proof.Machine
end

