-- ==== Sys2Proof/Machine/Operands.lean ====
section
/-! DEFINITION. Operand forms: the fields of a waybill (Tables 2.1 and 2.2), its operand words by group (Tables 4.2, 4.4, 4.5,
4.6, 5.2, 5.3, 5.11), granules of an output range (R59), and the layout descriptor with its offsets (R180 to R182). -/

namespace Sys2Proof.Machine

open Sys2Proof

/-! ## The waybill (Table 2.1) -/

/-- Word Wi. -/
def Waybill.word (w : Waybill) (i : Nat) : Nat := w.w.getD i 0

/-- Operand word OPWi. -/
def Waybill.op (w : Waybill) (i : Nat) : Nat := w.word (6 + i)

/-- Fields of W0 to W5. -/
def Waybill.opc (w : Waybill) : Nat := bitsOf (w.word 0) 63 56
def Waybill.group (w : Waybill) : Nat := w.opc / 16
def Waybill.fence (w : Waybill) : Bool := bitOf (w.word 0) 55
def Waybill.ordered (w : Waybill) : Bool := bitOf (w.word 0) 54
def Waybill.notify (w : Waybill) : Bool := bitOf (w.word 0) 53
def Waybill.waitOn (w : Waybill) : Bool := bitOf (w.word 0) 52
def Waybill.ver (w : Waybill) : Nat := bitsOf (w.word 0) 39 32
def Waybill.wid (w : Waybill) : Nat := bitsOf (w.word 0) 31 0
def Waybill.len (w : Waybill) : Nat := bitsOf (w.word 1) 63 32
def Waybill.tally (w : Waybill) : Nat := bitsOf (w.word 1) 31 16
def Waybill.tallyAdd (w : Waybill) : Nat := bitsOf (w.word 1) 15 0
def Waybill.src (w : Waybill) : Nat := bitsOf (w.word 2) 47 0
def Waybill.dst (w : Waybill) : Nat := bitsOf (w.word 3) 47 0
def Waybill.cplPva (w : Waybill) : Nat := bitsOf (w.word 4) 47 0
def Waybill.waitTally (w : Waybill) : Nat := bitsOf (w.word 5) 63 48
def Waybill.seed (w : Waybill) : Nat := bitsOf (w.word 5) 31 0
def Waybill.actl (w : Waybill) : Actl := actlOf (bitsOf (w.op 9) 15 0)

/-- Key of a waybill among those accepted. -/
def wbKey (stream seq : Nat) : Nat := stream * 2 ^ 32 + seq

/-- Key of a waybill. -/
def Waybill.key (w : Waybill) : Nat := wbKey w.stream w.seq

/-- Sixteen words from 128 bytes. -/
def wordsOf (bs : Bytes) : List Nat := (upto 16).map fun i => leNat (sliceBytes bs (8 * i) 8)

/-- A PVA field of an operand word. -/
def Waybill.pvaOp (w : Waybill) (i : Nat) : Nat := bitsOf (w.op i) 47 0

/-! ## Formats -/

/-- The format of a code; codes not listed are caught by the operand rules and read as FP32 nowhere else. -/
def fmtD (c : Nat) : Fmt := (fmtOf c).getD (.flt fp32)

/-- Bytes of n elements of a format: blocks of 32 for an MX format. -/
def Fmt.extent (t : Fmt) (n : Nat) : Nat := if t.isMx then (n / 32) * t.blk else n * t.size

/-- A float format of 8 bits. -/
def isFp8 (c : Nat) : Bool := c == 0x03 || c == 0x04

/-- A code of an MX format. -/
def isMxCode (c : Nat) : Bool := decide (0x10 ≤ c) && decide (c ≤ 0x15)

/-! ## Group 0x0 (Table 4.2) -/

def Waybill.bvec (w : Waybill) : Bool := bitOf (w.op 0) 16
def Waybill.sfmt (w : Waybill) : Nat := bitsOf (w.op 0) 15 8
def Waybill.dfmt (w : Waybill) : Nat := bitsOf (w.op 0) 7 0
def Waybill.aop (w : Waybill) : Nat := bitsOf (w.op 0) 15 8
def Waybill.patw (w : Waybill) : Nat := bitsOf (w.op 0) 3 0
def Waybill.depid (w : Waybill) : Nat := bitsOf (w.op 3) 19 0
def Waybill.dtc (w : Waybill) : Nat := bitsOf (w.op 3) 33 32

/-- The waybill is a byte copy: COPY, DELIVER with RAW = 1, or a conversion between equal formats that are not MX. -/
def Waybill.rawCopy (w : Waybill) : Bool :=
  w.opc == 0x00 || (w.opc == 0x04 && w.bvec) || ((w.opc == 0x01 || w.opc == 0x04) && w.sfmt == w.dfmt && !isMxCode w.sfmt)

/-- Elements of a CONVERT or DELIVER (R129); none where the count is not whole. -/
def Waybill.convCount (w : Waybill) : Option Nat :=
  let d := fmtD w.dfmt
  let num := if d.isMx then 32 * w.len else w.len
  let den := if d.isMx then d.blk else d.size
  let mx := d.isMx || (fmtD w.sfmt).isMx
  if num % den != 0 || (mx && num / den % 32 != 0) then none else some (num / den)

/-- Source extent of a CONVERT or DELIVER (R129). -/
def Waybill.convSrc (w : Waybill) : Nat :=
  if w.opc == 0x04 && w.bvec then w.len else (fmtD w.sfmt).extent (w.convCount.getD 0)

/-! ## Groups 0x1, 0x2, 0x3 (Tables 4.6, 4.4, 4.5) -/

def Waybill.idx (w : Waybill) (i : Nat) : Nat := if i % 2 == 0 then bitsOf (w.op (i / 2)) 31 0 else bitsOf (w.op (i / 2)) 63 32
def Waybill.gcount (w : Waybill) : Nat := bitsOf (w.op 8) 52 48
def Waybill.frec (w : Waybill) : Nat := bitsOf (w.op 8) 47 0
def Waybill.stride (w : Waybill) : Nat := bitsOf (w.op 9) 63 16
def Waybill.fetchOld (w : Waybill) : Bool := bitOf (w.op 0) 17
def Waybill.afmt (w : Waybill) : Nat := bitsOf (w.op 0) 7 0
def Waybill.cfmt (w : Waybill) : Nat := bitsOf (w.op 0) 39 32
def Waybill.rop (w : Waybill) : Nat := bitsOf (w.op 0) 15 8
def Waybill.rctx (w : Waybill) : Nat := bitsOf (w.op 0) 25 16
def Waybill.redStaged (w : Waybill) : Bool := bitOf (w.op 0) 26
def Waybill.redInit (w : Waybill) : Bool := bitOf (w.op 0) 27
def Waybill.ncontrib (w : Waybill) : Nat := bitsOf (w.op 1) 16 0
def Waybill.cidx (w : Waybill) : Nat := bitsOf (w.op 2) 15 0
def Waybill.doneTally (w : Waybill) : Nat := bitsOf (w.op 3) 15 0

/-- Accumulator formats of a reduction (Table 4.5). -/
def isAfmt (c : Nat) : Bool := [0x00, 0x01, 0x02, 0x22, 0x23, 0x2A, 0x2B].contains c

/-- ROP of a reduction. -/
def isRop (c : Nat) : Bool := c == 0x00 || c == 0x06 || c == 0x07

/-- CFMT is permitted for an accumulator format (Table 4.5). -/
def cfmtFits (cf af : Nat) : Bool :=
  match fmtOf cf, fmtOf af with
  | some (.flt _), some (.flt _) => [0x00, 0x01, 0x02, 0x03, 0x04].contains cf
  | some (.int s w), some (.int s' w') => s == s' && decide (w ≤ w')
  | _, _ => false

/-! ## Group 0x5 (Tables 5.2, 5.3) -/

def Waybill.wfmt (w : Waybill) : Nat := bitsOf (w.op 0) 63 56
def Waybill.xfmt (w : Waybill) : Nat := bitsOf (w.op 0) 55 48
def Waybill.yfmt (w : Waybill) : Nat := bitsOf (w.op 0) 47 40
def Waybill.bfmt (w : Waybill) : Nat := bitsOf (w.op 0) 39 32
def Waybill.act (w : Waybill) : Nat := bitsOf (w.op 0) 31 30
def Waybill.split (w : Waybill) : Nat := bitsOf (w.op 0) 28 24
def Waybill.batch (w : Waybill) : Nat := bitsOf (w.op 0) 4 0
def Waybill.rowsM (w : Waybill) : Nat := bitsOf (w.op 1) 48 32
def Waybill.colsK (w : Waybill) : Nat := bitsOf (w.op 1) 16 0

/-- Row of Table 5.4 of a pairing; none where the formats form no pairing. -/
def pairing (wf xf : Nat) : Option Nat :=
  if wf == 0x14 && isFp8 xf then some 0
  else if isMxCode wf && isFp8 xf then some 1
  else if isFp8 wf && isFp8 xf then some 2
  else if isMxCode wf && xf == 0x02 then some 3
  else if wf == 0x02 && xf == 0x02 then some 4
  else none

/-- Row block of R171. -/
def rowBlock (m p b ysize acc perRow : Nat) : Nat :=
  let rg := 256 / Nat.gcd 256 (b * ysize)
  let cap := rg * (min (acc / perRow) (1048576 / (b * ysize)) / rg)
  min (rg * ceilDiv (ceilDiv m p) rg) cap

/-- Rows of a slice of MOEFFN's phase 1 (R172). -/
def sliceRows (i p b : Nat) : Nat := min (32 * ceilDiv (ceilDiv i p) 32) (32 * (520192 / (256 * b)))

/-! ## Granules (R59) -/

/-- Granules of an output range. -/
def granules (dst len : Nat) : Nat := if len == 0 then 0 else (dst + len - 1) / 256 + 1 - dst / 256

/-- Part of an output range that granule g holds: first address and bytes. -/
def granulePart (dst len g : Nat) : Nat × Nat :=
  let b := (dst / 256 + g) * 256
  let lo := max dst b
  (lo, min (dst + len) (b + 256) - lo)

/-! ## Layouts (R180 to R182) -/

/-- Descriptor word. -/
def Layout.word (l : Layout) (i : Nat) : Nat := l.w.getD i 0
def Layout.fmt (l : Layout) : Nat := bitsOf (l.word 0) 39 32
def Layout.rank (l : Layout) : Nat := bitsOf (l.word 0) 26 24
def Layout.pi (l : Layout) (k : Nat) : Nat := bitsOf (l.word 0) (3 * k + 2) (3 * k)
def Layout.n (l : Layout) (d : Nat) : Nat := if d % 2 == 0 then bitsOf (l.word (d / 2 + 1)) 31 0 else bitsOf (l.word (d / 2 + 1)) 63 32
def Layout.t (l : Layout) (d : Nat) : Nat := if d < 4 then bitsOf (l.word 4) (16 * d + 15) (16 * d) else bitsOf (l.word 5) (16 * d - 49) (16 * d - 64)
def Layout.s (l : Layout) (d : Nat) : Nat := bitsOf (l.word (6 + d)) 47 0
def Layout.esize (l : Layout) : Nat := (fmtD l.fmt).size

/-- Bytes of a tile. -/
def Layout.tile (l : Layout) : Nat := (upto 6).foldl (fun p d => p * l.t d) l.esize

/-- Extent E of R181. -/
def Layout.extent (l : Layout) : Nat := (upto 6).foldl (fun e d => e + (l.n d / l.t d - 1) * l.s d) l.tile

/-- A list of three-bit fields is a permutation of the numbers below a rank, and the identity above. -/
def isPerm (f : Nat → Nat) (rank : Nat) : Bool :=
  ((upto rank).all fun d => (upto rank).any fun k => f k == d) && (upto 6).all fun k => decide (k < rank) || f k == k

/-- The descriptor is valid (R181). -/
def Layout.valid (l : Layout) : Bool :=
  let okFmt := match fmtOf l.fmt with | some t => !t.isMx | none => false
  okFmt && decide (1 ≤ l.rank) && decide (l.rank ≤ 6) &&
    ((upto 6).all fun d => decide (1 ≤ l.t d) && decide (l.t d ≤ 32768) && decide (1 ≤ l.n d) && l.n d % l.t d == 0 &&
      (decide (d < l.rank) || (l.n d == 1 && l.t d == 1 && l.s d == 0))) &&
    isPerm l.pi l.rank && decide (l.tile ≤ 262144) && decide (l.extent ≤ 0xFFFFFFFF) &&
    bitsOf (l.word 0) 31 27 == 0 && bitsOf (l.word 0) 23 18 == 0 && bitsOf (l.word 5) 63 32 == 0 &&
    ((upto 6).all fun d => bitsOf (l.word (6 + d)) 63 48 == 0) && l.word 14 == 0 && l.word 15 == 0

/-- Byte offset of an element (R182). -/
def Layout.offset (l : Layout) (i : List Nat) : Nat :=
  let tile := (upto 6).foldl (fun a d => a + (i.getD d 0 / l.t d) * l.s d) 0
  let inner := (upto 6).reverse.foldl (fun a k => a * l.t (l.pi k) + i.getD (l.pi k) 0 % l.t (l.pi k)) 0
  tile + inner * l.esize

/-- Dimensions with more than one tile, by ascending stride; equal strides by dimension. -/
def Layout.outer (l : Layout) : List Nat :=
  ((upto 6).filter fun d => decide (1 < l.n d / l.t d)).foldr (fun d ds =>
    let lo := ds.takeWhile fun x => decide (l.s x < l.s d)
    lo ++ d :: ds.drop lo.length) []

/-- The layout is non-aliasing (R182). -/
def Layout.separate (l : Layout) : Bool :=
  (l.outer.foldl (fun (b : Bool × Nat) d => (b.1 && decide (b.2 ≤ l.s d), l.s d * (l.n d / l.t d))) (true, l.tile)).1

/-- Element of a non-aliasing layout that holds a byte offset, with the place of the byte in it; none for a byte to which no
element maps. -/
def Layout.elemAt (l : Layout) (off : Nat) : Option (List Nat × Nat) :=
  let (rest, tiles) := l.outer.reverse.foldl (fun (b : Nat × List (Nat × Nat)) d =>
    let q := min (b.1 / l.s d) (l.n d / l.t d - 1)
    (b.1 - q * l.s d, (d, q) :: b.2)) (off, [])
  if l.tile ≤ rest || l.esize == 0 then none
  else
    let (_, inner) := (upto 6).foldl (fun (b : Nat × List (Nat × Nat)) k =>
      (b.1 / l.t (l.pi k), (l.pi k, b.1 % l.t (l.pi k)) :: b.2)) (rest / l.esize, [])
    let at_ (x : List (Nat × Nat)) (d : Nat) : Nat := ((x.find? fun y => y.1 == d).map (·.2)).getD 0
    some ((upto 6).map fun d => at_ tiles d * l.t d + at_ inner d, rest % l.esize)

/-- The words of a RESHARD (Table 5.11). -/
def Waybill.srcLayout (w : Waybill) : Nat := bitsOf (w.op 0) 31 16
def Waybill.dstLayout (w : Waybill) : Nat := bitsOf (w.op 0) 15 0
def Waybill.ax (w : Waybill) (k : Nat) : Nat := if bitOf (w.op 1) 18 then bitsOf (w.op 1) (3 * k + 2) (3 * k) else k

/-- Index in the source of a destination element: destination dimension k is source dimension AXk. -/
def Waybill.srcIndex (w : Waybill) (i : List Nat) : List Nat :=
  (upto 6).map fun d => ((upto 6).foldl (fun (v : Nat) k => if w.ax k == d then i.getD k 0 else v) 0)

end Sys2Proof.Machine
end

