-- ==== Sys2Proof/Machine/PorterOps.lean ====
section
/-! DEFINITION. What a Porter cluster does with memory for a chunk: translation through its L1 TLB (R197), reads of local and
remote ranges with their poison (R21, R37, R123, R126), writes held for their commit (R81, R122), granule locks (R146),
marks of failed granules (R57) and the end of a chunk. -/

namespace Sys2Proof.Machine

open Sys2Proof

/-! ## Waybills and chunks -/

/-- The window that holds an address, in the directory as it was when the waybill was checked (R22). -/
def Waybill.windowAt (w : Waybill) (pva : Nat) : Option Window := (w.dir.rows.find? fun r => r.2.holds pva).map (·.2)

/-- A waybill by key. -/
def State.wb (s : State) (key : Nat) : Waybill := s.work.wbs.getD key {}

/-- A waybill changed. -/
def State.onWb (s : State) (key : Nat) (f : Waybill → Waybill) : State := { s with work := { s.work with wbs := s.work.wbs.upd key f } }

/-- A chunk of a waybill changed. -/
def State.onChunk (s : State) (key c : Nat) (f : Chunk → Chunk) : State := s.onWb key fun w => { w with chunks := w.chunks.upd c f }

/-- A cluster. -/
def State.cluster (s : State) (c : Nat) : Cluster := s.work.clusters.getD c {}

/-- A cluster changed. -/
def State.onCluster (s : State) (c : Nat) (f : Cluster → Cluster) : State :=
  { s with work := { s.work with clusters := s.work.clusters.put c (f (s.cluster c)) } }

/-- A chunk that can run: dispatched, its cluster Open and clear. -/
def State.runs (s : State) (key c : Nat) : Bool :=
  match (s.wb key).chunks.find c with
  | some k => k.st == 1 && !k.clearing && (s.cluster k.cluster).pw == 0 && !(s.cluster k.cluster).lost &&
      !s.power.paused.testBit (diePD (k.cluster / 8)) && (s.wb key).st == 1
  | none => false

/-! ## Ranges read -/

/-- What a read of a range gives: its bytes, which of them came from poisoned lines, or the cause it fails with. -/
structure Rd where
  bytes : Bytes := []
  pz : List Bool := []
  fail : Nat := 0
  failPva : Nat := 0
  waits : Bool := false
  /-- First non-resident page that it meets. -/
  hold : Option Hold := none
  degraded : Bool := false
deriving DecidableEq, Repr

/-- Two ranges one after the other; the first failure stands. -/
def Rd.join (a b : Rd) : Rd :=
  { bytes := a.bytes ++ b.bytes, pz := a.pz ++ b.pz, fail := if a.fail != 0 then a.fail else b.fail,
    failPva := if a.fail != 0 then a.failPva else b.failPva, waits := a.waits || b.waits, hold := a.hold <|> b.hold,
    degraded := a.degraded || b.degraded }

/-- Some byte came from a poisoned line. -/
def Rd.poisoned (r : Rd) : Bool := r.pz.any id

/-- The range read without touching memory. -/
def Rd.const (bs : Bytes) : Rd := { bytes := bs, pz := List.replicate bs.length false }

/-- Translation of a cluster: its L1 TLB of 64 entries, then the Ledger (R194, R197). -/
def State.porterXl (s : State) (cl gid pva : Nat) (write : Bool) : Xl × State :=
  match s.outPage gid pva with
  | some (l, p) => (.hold l p, s)
  | none =>
    let tlb := s.trans.tlbs.getD cl []
    let s := s.countCluster cl 0x4014 0
    match tlb.find? fun e => e.covers gid pva with
    | some e =>
      (s.entryOutcome e pva write, { s with trans := { s.trans with tlbs := s.trans.tlbs.put cl (e :: tlb.filter (· != e)) } })
    | none =>
      let s := (s.countCluster cl 0x4014 1).countLedger 0x5011 0
      let o := s.xlCached gid pva write
      let (o, s) := if o == .miss then s.xlWalk gid pva write else (o, s.countLedger 0x5011 1)
      match s.trans.cache.find? fun e => e.covers gid pva with
      | some e => (o, { s with trans := { s.trans with tlbs := s.trans.tlbs.put cl ((e :: tlb).take 64) } })
      | none => (o, s)

/-- What is held on a non-resident page: it keeps one hold, and the start of it, on the first such page it meets (R206, R207). -/
def State.rehold (s : State) (gid : Nat) (old : Option Hold) (h : Hold) (put : State → Hold → State) : State :=
  match old with
  | some o =>
    if o.page == h.page && o.level == h.level then s else
    let (h, s) := s.openHold gid { h with since := o.since } true
    let s := put s h
    (match o.fault with | some n => s.closeFault n | none => s)
  | none => let (h, s) := s.openHold gid { h with since := s.now } true; put s h

/-- The fault-table entry of a hold that has ended. -/
def State.endHold (s : State) (h : Hold) : State := match h.fault with | some n => s.closeFault n | none => s

/-- A granule held before is held no more. -/
def State.unhold (s : State) (key g : Nat) : State :=
  match (s.wb key).holds.find g with
  | none => s
  | some h => ((s.onWb key fun w => { w with holds := w.holds.del g }).leaveQ qidFault (holdItem key g)).endHold h

/-- A granule is held on a non-resident page. -/
def State.holdGranule (s : State) (key g : Nat) (h : Hold) : State :=
  let w := s.wb key
  let s := if w.holds.has g then s else s.enterQ qidFault (holdItem key g)
  s.rehold w.gid (w.holds.find g) h fun s h => s.onWb key fun w => { w with holds := w.holds.put g h }

/-- One line read for a waybill: from the LRC where its window allocates, else from the WCB and DRAM (R37, R64). -/
def State.porterLine (s : State) (gid pa : Nat) (lrc : Bool) : Seen × State :=
  let (hit, s) := if lrc then s.lrcLook pa gid else (none, s)
  match hit with
  | some d => ({ data := d }, s)
  | none =>
    let (x, s) := s.readLine pa gid
    (x, if lrc && !x.poison && !x.waits then s.lrcFill pa gid x.data else s)

/-- Bytes of a translated range, line by line. -/
def State.porterLines (s : State) (gid pa len : Nat) (lrc : Bool) : Rd × State :=
  (lineAddrs pa len).foldl (fun (b : Rd × State) a =>
    let (x, s) := b.2.porterLine gid a lrc
    let lo := max a pa
    let n := min (a + 64) (pa + len) - lo
    (b.1.join { bytes := sliceBytes x.data (lo - a) n, pz := List.replicate n x.poison, waits := x.waits, degraded := x.degraded }, s)) ({}, s)

/-- A line of weights: as its burst brought it, else the burst is queued for it, within MATRIX_READ_SHARE of the channel's read slots
while other reads wait (R178). DESIGN CHOICE (assumption 37): a channel's read slots are the 256 entries of its two read queues. -/
def State.weightLine (s : State) (key cl pa : Nat) : Seen × State :=
  let w := s.wb key
  match (w.scratch.getD cl {}).lines.find (pa / 64) with
  | some (d, p, g) => ({ data := d, poison := p, degraded := g }, s)
  | none =>
    let (ch, line) := s.wcbOf (s.place pa)
    let c := s.chan ch
    let whole := match c.wcb.find line with | some w => w.whole | none => false
    let (x, s1) := if whole || !c.serves then s.readLine pa w.gid else ({ waits := true }, s)
    if !x.waits then (x, s1)
    else
      let rs := (c.subs.map fun q => q.rq).flatten
      let mine := (rs.filter fun b => b.weight.isSome).length
      if mine < rs.length && w.readShare * 256 / 100 ≤ mine then ({ waits := true }, s1)
      else ({ waits := true }, s1.queueBurst pa { weight := some (key, cl) })

/-- Bytes of a translated range of weights. -/
def State.weightLines (s : State) (key cl pa len : Nat) : Rd × State :=
  (lineAddrs pa len).foldl (fun (b : Rd × State) a =>
    let (x, s) := b.2.weightLine key cl a
    let lo := max a pa
    let n := min (a + 64) (pa + len) - lo
    (b.1.join { bytes := sliceBytes x.data (lo - a) n, pz := List.replicate n x.poison, waits := x.waits, degraded := x.degraded }, s)) ({}, s)

/-- A burst of a weight stream has returned (R178): its line waits in the cluster's scratchpad. -/
def State.weightBack (s : State) (key cl pa e1 e2 : Nat) : State :=
  let (x, s) := s.readIssued (s.wcbOf (s.place pa)).1 pa (s.wb key).gid e1 e2
  if x.waits then s.queueBurst pa { weight := some (key, cl) }
  else s.onWb key fun w => { w with scratch := w.scratch.upd cl fun c => { c with lines := c.lines.put (pa / 64) (x.data, x.poison, x.degraded) } }

/-- First hearth line of a range that must be recalled before an uncached access (R226, R227). -/
def State.hearthBlock (s : State) (pa len : Nat) (write : Bool) (mine : Grant → Bool := fun _ => false) : Option Nat :=
  if s.inHearth pa then ((lineAddrs pa len).find? fun a => !s.uncachedOk (s.hline a) write mine).map fun a => s.hline a else none

/-- The entry is busy with an uncached access of this granule or element. -/
def Grant.ofGranule (key g : Nat) (x : Grant) : Bool := match x with | .porter k h _ _ => k == key && h == g | _ => false

/-- Parts of a range that lie in one 1 KiB block each (R278, R126). -/
def blocks1k (pva len : Nat) : List (Nat × Nat) :=
  if len == 0 then [] else
  (upto ((pva + len - 1) / 1024 + 1 - pva / 1024)).map fun i =>
    let a := max pva ((pva / 1024 + i) * 1024)
    (a, min (pva + len) ((pva / 1024 + i + 1) * 1024) - a)

/-- EPID of a member of the set. -/
def State.memberEpid (s : State) (dev : Nat) : Nat := (s.pool.members.getD dev {}).epid

/-- A part of a remote range: its bytes where they have come, else a READ goes out to the home device (R21, R126). -/
def State.readRemote (s : State) (key g home pva len : Nat) : Rd × State :=
  let k := pva * 2048 + len
  let w := s.wb key
  match w.remote.find k with
  | some (bs, poi, cause) =>
    if cause != 0 then ({ fail := cause, failPva := pva }, s) else ({ bytes := padBytes len bs, pz := List.replicate len poi }, s)
  | none =>
    let asked := s.fabric.own.any fun o => match o.kind with | .remoteRead b _ i => b == key && i == k | _ => false
    ({ waits := true }, if asked then s else
      s.request { dst := s.memberEpid home, pkey := (s.guest w.gid).pkey, tc := 0, opc := 0x01, addr := pva, xw := len } (.remoteRead key g k) len)

/-- How a range is read: the LRC may serve it, for an atomic, as a weight stream. -/
structure Mode where
  lrc : Bool := true
  atomic : Bool := false
  weight : Bool := false

/-- A part of a range inside one 64 KiB page. -/
def State.readPiece (s : State) (key cl g pva len : Nat) (m : Mode) : Rd × State :=
  let w := s.wb key
  match w.windowAt pva with
  | none => ({ fail := 0x05, failPva := pva }, s)
  | some win =>
    if !s.homed win then
      (blocks1k pva len).foldl (fun (b : Rd × State) x => let (r, s) := b.2.readRemote key g win.home x.1 x.2; (b.1.join r, s)) ({}, s)
    else
      let (o, s) := s.porterXl cl w.gid pva false
      match o with
      | .stop e => ({ fail := e, failPva := pva }, s)
      | .miss => ({ waits := true }, s)
      | .hold l p => ({ waits := true, hold := some { level := l, page := p, atomic := m.atomic } }, s)
      | .zero _ _ pa => if (s.filling pa).isSome then ({ waits := true }, s) else (Rd.const (zeroBytes len), s)
      | .ok pa =>
        if (s.filling pa).isSome then ({ waits := true }, s)
        else match s.hearthBlock pa len false with
          | some l => ({ waits := true }, s.uncachedStart l (.porter key g false m.atomic) false)
          | none => if m.weight then s.weightLines key cl pa len else s.porterLines w.gid pa len (m.lrc && win.lrcAlloc && !win.hearth)

/-- A range of a waybill's guest read for granule or element g by a cluster. -/
def State.readRange (s : State) (key cl g pva len : Nat) (m : Mode := {}) : Rd × State :=
  (pieces pva len).foldl (fun (b : Rd × State) x =>
    let (r, s) := b.2.readPiece key cl g x.1 x.2 m
    (b.1.join r, s)) ({}, s)

/-! ## Ranges written -/

/-- A range to write: address, bytes, and which bytes are poison. -/
structure WRange where
  pva : Nat := 0
  bytes : Bytes := []
  pz : List Bool := []
deriving DecidableEq, Repr

/-- A range made whole of the poison pattern (R122). -/
def WRange.pattern (pva len : Nat) : WRange := { pva := pva, bytes := poisonBytes pva len, pz := List.replicate len true }

/-- A range of sound bytes. -/
def WRange.sound (pva : Nat) (bs : Bytes) : WRange := { pva := pva, bytes := bs, pz := List.replicate bs.length false }

/-- Parts of the range at an offset. -/
def WRange.part (r : WRange) (off len : Nat) : WRange :=
  { pva := r.pva + off, bytes := sliceBytes r.bytes off len, pz := (r.pz.drop off).take len }

/-- Each line that holds a poison byte takes the pattern in all the bytes written to it (R122, R155). -/
def WRange.byLine (r : WRange) : List WRange :=
  (lineAddrs r.pva r.bytes.length).map fun a =>
    let lo := max a r.pva
    let p := r.part (lo - r.pva) (min (a + 64) (r.pva + r.bytes.length) - lo)
    if p.pz.any id then WRange.pattern p.pva p.bytes.length else p

/-- What a write of ranges needs: the parts to hold, the packets for other devices, or why it cannot be. -/
structure Wr where
  outs : List OutRange := []
  remote : List Packet := []
  fail : Nat := 0
  failPva : Nat := 0
  waits : Bool := false
  /-- First non-resident page that it meets. -/
  hold : Option Hold := none
  /-- A line of it is lost (R383). -/
  lost : Bool := false
deriving DecidableEq, Repr

/-- Two writes together. -/
def Wr.join (a b : Wr) : Wr :=
  { outs := a.outs ++ b.outs, remote := a.remote ++ b.remote, fail := if a.fail != 0 then a.fail else b.fail,
    failPva := if a.fail != 0 then a.failPva else b.failPva, waits := a.waits || b.waits, hold := a.hold <|> b.hold, lost := a.lost || b.lost }

/-- A range cut at lines where part of it is poison, so that a packet's POI poisons no sound line (R122, R185). -/
def WRange.packets (r : WRange) : List WRange :=
  ((blocks1k r.pva r.bytes.length).map fun x =>
    let p := r.part (x.1 - r.pva) x.2
    if p.pz.any id then (lineAddrs p.pva p.bytes.length).map fun a =>
        let lo := max a p.pva
        p.part (lo - p.pva) (min (a + 64) (p.pva + p.bytes.length) - lo)
      else [p]).flatten

/-- A part inside one 64 KiB page: translated for a write (R32, R126, R226). -/
def State.writePiece (s : State) (key cl g : Nat) (r : WRange) : Wr × State :=
  let w := s.wb key
  let len := r.bytes.length
  match w.windowAt r.pva with
  | none => ({ fail := 0x05, failPva := r.pva }, s)
  | some win =>
    if !s.homed win then
      let pk (p : WRange) : Packet :=
        let n := p.bytes.length
        { dst := s.memberEpid win.home, pkey := (s.guest w.gid).pkey, tc := 0, opc := 0x02, len := ceilDiv n 64, addr := p.pva, xw := n,
          poi := p.pz.any id, payload := padBytes (64 * ceilDiv n 64) p.bytes }
      ({ remote := r.packets.map pk }, s)
    else
      let (o, s) := s.porterXl cl w.gid r.pva true
      match o with
      | .stop e => ({ fail := e, failPva := r.pva }, s)
      | .miss => ({ waits := true }, s)
      | .hold l p => ({ waits := true, hold := some { level := l, page := p, write := true } }, s)
      | .zero l p pa => ({ waits := true }, s.startFill w.gid l p pa)
      | .ok pa =>
        if (s.filling pa).isSome then ({ waits := true }, s)
        else if (lineAddrs pa len).any fun a => s.lineLost a then ({ lost := true }, s)
        else match s.hearthBlock pa len true (Grant.ofGranule key g) with
          | some l => ({ waits := true }, s.uncachedStart l (.porter key g true false) true)
          | none =>
            let outs := (lineAddrs pa len).map fun a =>
              let lo := max a pa
              let p := r.part (lo - pa) (min (a + 64) (pa + len) - lo)
              ({ pa := lo, bytes := p.bytes, poison := p.pz.any id } : OutRange)
            ({ outs := outs }, s)

/-- Ranges of a granule translated for their write. -/
def State.writeRanges (s : State) (key cl g : Nat) (rs : List WRange) : Wr × State :=
  rs.foldl (fun (b : Wr × State) r =>
    (pieces r.pva r.bytes.length).foldl (fun (b : Wr × State) x =>
      let (o, s) := b.2.writePiece key cl g (r.part (x.1 - r.pva) x.2)
      (b.1.join o, s)) b) ({}, s)

/-! ## Locks on accumulator granules (R146) -/

/-- The cluster that runs a granule of a waybill. -/
def State.clusterOf (s : State) (x : Nat × Nat) : Option Nat :=
  ((s.wb x.1).chunks.rows.find? fun c => decide (c.2.first ≤ x.2) && decide (x.2 < c.2.first + c.2.count)).map fun c => c.2.cluster

/-- Locks that a cluster's chunks hold, and those that they wait for. -/
def State.locksOf (s : State) (cl : Nat) : List Nat :=
  (s.work.locks.filter fun l => match l.holder with | some x => s.clusterOf x == some cl | none => false).map (·.pa)
def State.locksAwaited (s : State) (cl : Nat) : List Nat :=
  (s.work.locks.filter fun l => l.waiters.any fun x => s.clusterOf x == some cl).map (·.pa)

/-- A cluster may take a lock: it holds fewer than 64, and takes them in ascending order, so that it holds none at a higher address. -/
def State.lockOk (s : State) (cl pa : Nat) : Bool := decide ((s.locksOf cl).length < 64) && (s.locksOf cl).all fun p => decide (p < pa)

/-- A granule of a waybill asks for the lock of an accumulator granule: true when it has it. While the cluster waits for a lock at a lower
address, or may not take this one, it asks again later (R146). -/
def State.lockGranule (s : State) (key cl g pa : Nat) : Bool × State :=
  let put (ls : List GLock) : State := { s with work := { s.work with locks := ls } }
  match s.work.locks.find? fun l => l.pa == pa with
  | some l =>
    if l.holder == some (key, g) then (true, s)
    else if l.waiters.contains (key, g) || !s.lockOk cl pa then (false, s)
    else (false, put (s.work.locks.map fun x => if x.pa == pa then { x with waiters := x.waiters ++ [(key, g)] } else x))
  | none =>
    if !s.lockOk cl pa || (s.locksAwaited cl).any (fun p => decide (p < pa)) then (false, s)
    else (true, put (s.work.locks ++ [({ pa := pa, holder := some (key, g) } : GLock)]))

/-- Locks that a granule holds free; one that others wait for stays, without a holder, until it is granted. -/
def State.unlockGranule (s : State) (key g : Nat) : State :=
  let free (l : GLock) : GLock := if l.holder == some (key, g) then { l with holder := none } else l
  let ls := (s.work.locks.map fun l => { free l with waiters := l.waiters.filter (· != (key, g)) }).filter fun l => l.holder.isSome || !l.waiters.isEmpty
  { s with work := { s.work with locks := ls } }

/-! ## Granules made, failed and ended -/

/-- What the kernel of an operation makes of a granule or element. -/
structure Calc where
  ranges : List WRange := []
  flags : Nat := 0
  poison : Bool := false
  degraded : Bool := false
  fail : Nat := 0
  failPva : Nat := 0
  waits : Bool := false
  /-- First non-resident page that it meets. -/
  hold : Option Hold := none
  /-- It is written, or delivered, although it failed (R57, R155). -/
  force : Bool := false
  /-- It goes to the staging of this context (R147). -/
  stage : Option Nat := none
  /-- Packets to an endpoint (R134). -/
  deliver : List Packet := []
deriving DecidableEq, Repr

/-- What stops a calculation made from some reads: the first failure, else the first non-resident page, else a wait. -/
def stopOf (rs : List Rd) : Option Calc :=
  match rs.find? fun r => r.fail != 0 with
  | some r => some { fail := r.fail, failPva := r.failPva }
  | none => if rs.any (·.waits) then some { waits := true, hold := rs.findSome? (·.hold) } else none

/-- A read gives what the kernel needs. -/
def Rd.ok (r : Rd) : Bool := r.fail == 0 && !r.waits

/-- The waybill's chunks are over: every chunk dispatched has ended, and none is left to dispatch or it was cancelled. -/
def Waybill.ended (w : Waybill) : Bool :=
  (w.chunks.rows.all fun c => c.2.st == 3) &&
    (w.cancelled || decide (ceilDiv w.total w.perChunk ≤ (w.chunks.rows.filter fun c => decide (c.1 < 65536)).length))

/-- A chunk ends when each of its granules is committed or marked, and the waybill with its last chunk. -/
def State.closeChunk (s : State) (key c : Nat) : State :=
  match s.work.wbs.find key with
  | none => s
  | some w =>
    match w.chunks.find c with
    | none => s
    | some k =>
      let done := (upto k.count).all fun i => k.bits.testBit i || w.marks.has (k.first + i)
      if !done || k.st == 3 then s else
      let s := (s.onChunk key c fun k => { k with st := 3, held := {} }).countCluster k.cluster 0x4011 (if w.cancelled then 3 else 1)
      let now := s.now
      let s := s.settleChunk key c k.cluster (if w.cancelled then 1 else 0)
      let s := (s.onCluster k.cluster fun x => { x with idle := now }).leaveQ qidChunk (key * 2 ^ 20 + c)
      if (s.wb key).ended then s.onWb key fun w => { w with st := 2 } else s

/-- A granule fails with a cause: it is marked, left as it was, and its locks free (R57). -/
def State.failGranule (s : State) (key c g cause : Nat) : State :=
  let cl := match (s.wb key).chunks.find c with | some k => k.cluster | none => 0
  let s := s.onWb key fun w => { w with marks := w.marks.put g cause, chunks := w.chunks.upd c fun k => { k with held := k.held.del g } }
  ((((s.unhold key g).unlockGranule key g).uncachedFree (Grant.ofGranule key g)).countCluster cl 0x4012 3).closeChunk key c

/-- A granule made is held for its commit; its packets to other devices and endpoints go out (R81, step 1; R126, R134). -/
def State.holdCalc (s : State) (key c g : Nat) (k : Calc) (o : Wr) : State :=
  let h : Held := { outs := o.outs, flags := k.flags, poison := k.poison || o.lost, degraded := k.degraded, fail := k.fail, failPva := k.failPva,
                    waiting := o.remote.length + k.deliver.length, epoch := s.trans.epoch }
  let s := (s.unhold key g).onChunk key c fun x => { x with held := x.held.put g h }
  let s := o.remote.foldl (fun (s : State) p => s.request p (.remoteWrite key c g p.addr) p.xw) s
  k.deliver.foldl (fun (s : State) p => s.request p (.deliver key c g) p.xw) s

/-- An element of group 0x1 fails outside its checks: it takes its record and pattern when it is made again; where that too has failed,
it is marked without them (R156). Other granules fail at once. -/
def State.failElem (s : State) (key c g cause pva : Nat) : State :=
  if (s.wb key).group == 1 && !(s.wb key).failed.has g then
    (s.unhold key g).onWb key fun w => { w with failed := w.failed.put g (cause, pva), chunks := w.chunks.upd c fun k => { k with held := k.held.del g } }
  else s.failGranule key c g cause

/-- A granule that its inputs hold fails at once where its output's page ends it (R195); else it is held, or waits. -/
def State.waitCalc (s : State) (key c cl g : Nat) (hold : Option Hold) : State :=
  match hold with
  | none => s.unhold key g
  | some h =>
    let w := s.wb key
    let (lo, _) := granulePart w.dst w.len g
    let local_ := match w.windowAt lo with | some x => s.homed x | none => false
    if w.group == 1 || w.group == 2 || w.opc == 0x04 || h.write || !local_ then s.holdGranule key g h
    else match s.porterXl cl w.gid lo true with
      | (.stop e, s) => s.failGranule key c g e
      | (_, s) => s.holdGranule key g h

/-- Parts of ranges that go to the staging of a context, one for each line (R147). -/
def stageOuts (x : RedCtx) (rs : List WRange) : List OutRange :=
  (rs.map fun r => (lineAddrs r.pva r.bytes.length).map fun a =>
    let lo := max a r.pva
    let p := r.part (lo - r.pva) (min (a + 64) (r.pva + r.bytes.length) - lo)
    ({ kind := 1, pa := lo - x.dst, bytes := p.bytes, poison := p.pz.any id } : OutRange)).flatten

/-- A granule's calculation placed: it waits, fails, or is held for its commit. -/
def State.placeCalc (s : State) (key c g : Nat) (k : Calc) : State :=
  let cl := match (s.wb key).chunks.find c with | some x => x.cluster | none => 0
  if k.waits then s.waitCalc key c cl g k.hold
  else if k.fail != 0 && !k.force then s.failGranule key c g k.fail
  else match k.stage with
    | some r => s.holdCalc key c g k { outs := stageOuts (s.work.ctxs.getD r {}) k.ranges }
    | none =>
      let (o, s) := s.writeRanges key cl g k.ranges
      if o.fail != 0 && !k.force then s.failElem key c g o.fail o.failPva
      else if o.waits then s.waitCalc key c cl g o.hold
      else if o.lost then s.holdCalc key c g k { lost := true }
      else s.holdCalc key c g k o

/-- Every granule of a chunk that is not committed, marked or held yet is made, in ascending order (R81, R82). -/
def State.runChunk (s : State) (key c : Nat) (kernel : State → Nat → Calc × State) : State :=
  if !s.runs key c then s else
  let k := ((s.wb key).chunks.getD c {})
  (upto k.count).foldl (fun (s : State) i =>
    let g := k.first + i
    let w := s.wb key
    let k := w.chunks.getD c {}
    if k.st != 1 || k.bits.testBit i || k.held.has g || w.marks.has g then s
    else (let (x, s) := kernel s g; s.placeCalc key c g x)) s

/-! ## Answers of other devices and endpoints (R126, R134) -/

/-- One awaited answer of a granule's packets has come. -/
def State.answered (s : State) (key c g : Nat) : State :=
  s.onChunk key c fun k => { k with held := k.held.upd g fun h => { h with waiting := h.waiting - 1 } }

/-- The granule still waits in its chunk. -/
def State.heldIn (s : State) (key c g : Nat) : Bool :=
  match (s.wb key).chunks.find c with | some k => k.held.has g | none => false

/-- An answer to a request of the Porter, or its absence past REMOTE_TIMEOUT (cause 0x0C): status, data and poison. -/
def State.porterAnswer (s : State) (k : OwnKind) (status : Nat) (data : Bytes) (poi : Bool) : State :=
  match k with
  | .remoteRead wb _ i =>
    let sound := status == 0 || status == 0x02
    s.onWb wb fun w => { w with remote := w.remote.put i (if sound then (data, poi || status == 0x02, 0) else ([], false, status)) }
  | .remoteWrite wb c g pva =>
    if !s.heldIn wb c g then s
    else if status == 0 then s.answered wb c g
    else if status == 0x02 then (s.answered wb c g).onChunk wb c fun k => { k with held := k.held.upd g fun h => { h with poison := true } }
    else s.failElem wb c g status pva
  | .deliver wb c g =>
    if !s.heldIn wb c g then s
    else if status == 0 then s.answered wb c g
    else s.failGranule wb c g (if status == 0x0C then 0x0C else 0x07)
  | _ => s

end Sys2Proof.Machine
end

