-- ==== Sys2Proof/Machine/Kernels.lean ====
section
/-! DEFINITION. What one output granule or element of groups 0x0 to 0x4 holds: move, convert, fill, element-wise work and
DELIVER (R128 to R134), gather and scatter (R152 to R156), atomics (R135 to R141, R557), reductions (R142 to R151) and
RESHARD (R185). -/

namespace Sys2Proof.Machine

open Sys2Proof

/-! ## Elements in byte strings -/

/-- Element i, counted from the first of a byte string, of a size. -/
def elemBits (bs : Bytes) (size i : Nat) : Nat := leNat (sliceBytes bs (i * size) size)

/-- Elements that overlap [off, off + n): first, and one past the last. -/
def elemSpan (off n size : Nat) : Nat × Nat := (off / size, ceilDiv (off + n) size)

/-- A list of result bits and flags as bytes and the OR of the flags. -/
def packElems (size : Nat) (xs : List (Nat × Nat)) : Bytes × Nat :=
  ((xs.map fun x => leBytes size x.1).flatten, xs.foldl (fun f x => f ||| x.2) 0)

/-! ## Group 0x0 -/

/-- What a kernel makes of a part of its output: bytes, and further ranges written with them. -/
structure Made where
  stop : Option Calc := none
  bytes : Bytes := []
  extra : List (Nat × Bytes) := []
  flags : Nat := 0
  poison : Bool := false
  degraded : Bool := false
deriving DecidableEq, Repr

/-- The part made from reads that went well. -/
def Made.of (rs : List Rd) (m : Made) : Made :=
  match stopOf rs with
  | some c => { m with stop := some c }
  | none => { m with poison := rs.any (·.poisoned), degraded := rs.any (·.degraded) }

/-- COPY, and conversions that change nothing (R128, R129). -/
def State.makeCopy (s : State) (w : Waybill) (cl g off n : Nat) : Made × State :=
  let (r, s) := s.readRange w.key cl g (w.src + off) n
  (Made.of [r] { bytes := r.bytes }, s)

/-- FILL (R131). -/
def makeFill (w : Waybill) (off n : Nat) : Made :=
  { bytes := (upto n).map fun j => (leBytes 8 (w.op 1)).getD ((off + j) % w.patw) 0 }

/-- ELTWISE (R132). -/
def State.makeElt (s : State) (w : Waybill) (cl g off n : Nat) : Made × State :=
  let t := fmtD w.dfmt
  let (e0, e1) := elemSpan off n t.size
  let (a, s) := s.readRange w.key cl g (w.src + e0 * t.size) ((e1 - e0) * t.size)
  let vec := w.bvec && !opUnary w.aop
  let (b, s) := if vec then s.readRange w.key cl g (w.pvaOp 2 + e0 * t.size) ((e1 - e0) * t.size) else (({} : Rd), s)
  let one (i : Nat) : Nat × Nat :=
    elemOp w.aop t w.actl (srBits w.seed 0 (e0 + i)) (elemBits a.bytes t.size i) (if vec then elemBits b.bytes t.size i else w.op 1)
  let (bs, fl) := packElems t.size ((upto (e1 - e0)).map one)
  (Made.of [a, b] { bytes := sliceBytes bs (off - e0 * t.size) n, flags := fl }, s)

/-- Source elements [e0, e1) of a conversion: each as raw bits with scale, and what reading them met. MX elements come with
their scale byte. -/
def State.convRead (s : State) (w : Waybill) (cl g e0 e1 : Nat) : List (Nat × Nat) × List Rd × State :=
  match fmtD w.sfmt with
  | .mx _ bits blk _ =>
    let b0 := e0 / 32
    let b1 := ceilDiv e1 32
    let (r, s) := s.readRange w.key cl g (w.src + b0 * blk) ((b1 - b0) * blk)
    let (c, s) := s.readRange w.key cl g (w.pvaOp 1 + b0) (b1 - b0)
    let one (i : Nat) : Nat × Nat :=
      let b := (e0 + i) / 32 - b0
      (mxElem bits (sliceBytes r.bytes (b * blk) blk) ((e0 + i) % 32), (c.bytes.getD b 0).toNat)
    ((upto (e1 - e0)).map one, [r, c], s)
  | t =>
    let (r, s) := s.readRange w.key cl g (w.src + e0 * t.size) ((e1 - e0) * t.size)
    ((upto (e1 - e0)).map fun i => (elemBits r.bytes t.size i, 0), [r], s)

/-- Value of a source element. -/
def srcVal (t : Fmt) (daz : Bool) (x : Nat × Nat) : FV × Nat :=
  match t with
  | .mx f bits _ _ => mxDecode f bits daz x.2 x.1
  | t => elemVal t daz x.1

/-- A block of an MX destination quantised from its 32 values (R96): scale byte, element bytes, flags. Values of a source block that is
NaN as a whole raise NAN_IN here (step 1). -/
def convBlock (w : Waybill) (f : Option FFmt) (bits emax b : Nat) (xs : List (Nat × Nat)) : Nat × Bytes × Nat :=
  let vs := xs.map (srcVal (fmtD w.sfmt) w.actl.daz)
  let (sc, es, fl) := mxBlock f emax w.actl w.seed (32 * b) (vs.map (·.1))
  (sc, mxPack bits es, vs.foldl (fun a v => a ||| v.2) fl ||| flagIf ((fmtD w.sfmt).isMx && xs.any fun x => x.2 == 255) fNAN)

/-- CONVERT, and DELIVER with conversion (R129, R130). -/
def State.makeConv (s : State) (w : Waybill) (cl g off n : Nat) : Made × State :=
  match fmtD w.dfmt with
  | .mx f bits blk emax =>
    let b0 := off / blk
    let b1 := ceilDiv (off + n) blk
    let mine := (upto (b1 - b0)).filter fun i => decide (off ≤ (b0 + i) * blk)
    let scales (sc : Nat → Nat) : List (Nat × Bytes) :=
      if mine.isEmpty then [] else [(w.pvaOp 2 + b0 + mine.headD 0, mine.map fun i => BitVec.ofNat 8 (sc i))]
    if w.sfmt == w.dfmt then
      let (r, s) := s.readRange w.key cl g (w.src + off) n
      let (c, s) := s.readRange w.key cl g (w.pvaOp 1 + b0) (b1 - b0)
      (Made.of [r, c] { bytes := r.bytes, extra := scales fun i => (c.bytes.getD i 0).toNat }, s)
    else
      let (xs, rs, s) := s.convRead w cl g (32 * b0) (32 * b1)
      let bl := (upto (b1 - b0)).map fun i => convBlock w f bits emax (b0 + i) ((xs.drop (32 * i)).take 32)
      (Made.of rs { bytes := sliceBytes (bl.map (·.2.1)).flatten (off - b0 * blk) n, flags := bl.foldl (fun a x => a ||| x.2.2) 0,
                    extra := scales fun i => ((bl.map (·.1)).getD i 0) }, s)
  | d =>
    let (e0, e1) := elemSpan off n d.size
    let (xs, rs, s) := s.convRead w cl g e0 e1
    let sf := fmtD w.sfmt
    let one (x : (Nat × Nat) × Nat) : Nat × Nat :=
      let r16 := srBits w.seed 0 (e0 + x.2)
      if sf.isMx then
        let (v, fl) := srcVal sf w.actl.daz x.1
        let (r, fr) := putVal d w.actl r16 v
        (r, fl ||| fr)
      else convElem sf d w.actl r16 x.1.1
    let (bs, fl) := packElems d.size (xs.zipIdx.map one)
    (Made.of rs { bytes := sliceBytes bs (off - e0 * d.size) n, flags := fl }, s)

/-- The part of granule g of a group 0x0 waybill. -/
def State.make0 (s : State) (w : Waybill) (cl g off n : Nat) : Made × State :=
  if w.opc == 0x02 then (makeFill w off n, s)
  else if w.opc == 0x03 then s.makeElt w cl g off n
  else if w.rawCopy then s.makeCopy w cl g off n
  else s.makeConv w cl g off n

/-- The packet of a DELIVER granule (R134); one whose reads failed, or were poisoned, carries poison and the pattern (R57, R122). -/
def State.deliverPkt (s : State) (w : Waybill) (lo : Nat) (bs : Bytes) (poi : Bool) : Packet :=
  { dst := w.depid, pkey := (s.guest w.gid).pkey, tc := w.dtc, opc := 0x02, len := ceilDiv bs.length 64, addr := lo, xw := bs.length,
    poi := poi, payload := padBytes (64 * ceilDiv bs.length 64) bs }

/-- A granule of group 0x0: its bytes, or the pattern where its input was poisoned (R122, R123, R134). -/
def kernel0 (key cl : Nat) (s : State) (g : Nat) : Calc × State :=
  let w := s.wb key
  let (lo, n) := granulePart w.dst w.len g
  let (m, s) := s.make0 w cl g (lo - w.dst) n
  match m.stop with
  | some c =>
    if w.opc == 0x04 && c.fail != 0 then ({ c with force := true, deliver := [s.deliverPkt w lo (poisonBytes lo n) true] }, s) else (c, s)
  | none =>
    let r := if m.poison then WRange.pattern lo n else WRange.sound lo m.bytes
    let ex := m.extra.map fun x => if m.poison then WRange.pattern x.1 x.2.length else WRange.sound x.1 x.2
    let c : Calc := { flags := m.flags, poison := m.poison, degraded := m.degraded }
    if w.opc == 0x04 then ({ c with deliver := [s.deliverPkt w lo r.bytes m.poison] }, s)
    else ({ c with ranges := r :: ex }, s)

/-! ## Group 0x1 (R153 to R156) -/

/-- The checks of an indexed range when its element runs, 1 to 3 of R154: cause and first byte that failed. -/
def Waybill.indexCheck (w : Waybill) (pva len : Nat) (need : Need) : Option (Nat × Nat) :=
  match w.windowAt pva with
  | none => some (0x05, pva)
  | some win =>
    let top := min ((win.base + win.size) * gib) (2 ^ 48)
    if top < pva + len then some (0x04, top) else if !win.grants need then some (0x07, pva) else none

/-- The record of an element (Table 4.7). -/
def elemRecord (w : Waybill) (i cause failPva : Nat) : List WRange :=
  if w.frec == 0 then [] else [WRange.sound (w.frec + 8 * i) (leBytes 8 (cause * 2 ^ 56 + 2 ^ 55 + (if cause == 0 then 0 else failPva % 2 ^ 48)))]

/-- An element of group 0x1 that failed: the pattern in a GATHER's slot, nothing at a SCATTER's destination, and its record. -/
def elemFailed (w : Waybill) (i cause failPva : Nat) : Calc :=
  { ranges := (if w.opc == 0x10 then [WRange.pattern (w.dst + i * w.len) w.len] else []) ++ elemRecord w i cause failPva,
    fail := cause, failPva := failPva, force := true }

/-- A byte lies both in the packed buffer and in an indexed range: what is stored there is open (R153). -/
def Waybill.mixed (w : Waybill) (p : Nat) : Bool :=
  let gather := w.opc == 0x10
  let packed := if gather then w.dst else w.src
  let base := if gather then w.src else w.dst
  decide (packed ≤ p) && decide (p < packed + w.gcount * w.len) &&
    (upto w.gcount).any fun i => decide (base + w.idx i * w.stride ≤ p) && decide (p < base + w.idx i * w.stride + w.len)

/-- An element's bytes at an address, those that R153 leaves open free. -/
def State.mixBytes (s : State) (w : Waybill) (pva : Nat) (bs : Bytes) : Bytes × State :=
  if (upto bs.length).any fun j => w.mixed (pva + j) then
    (bs.zipIdx.map fun x => if w.mixed (pva + x.2) then Config.freeByte (s.freeCount + x.2) else x.1, s.useFree bs.length)
  else (bs, s)

/-- An element of GATHER or SCATTER. -/
def kernel1 (key cl : Nat) (s : State) (i : Nat) : Calc × State :=
  let w := s.wb key
  let at_ := w.idx i * w.stride
  let gather := w.opc == 0x10
  let from_ := if gather then w.src + at_ else w.src + i * w.len
  let to_ := if gather then w.dst + i * w.len else w.dst + at_
  match w.failed.find i with
  | some (e, p) => (elemFailed w i e p, s)
  | none =>
  match w.indexCheck (if gather then from_ else to_) w.len (if gather then { read := true } else { write := true }) with
  | some (e, p) => (elemFailed w i e p, s)
  | none =>
    let (r, s) := s.readRange key cl i from_ w.len
    if r.fail != 0 then (elemFailed w i r.fail r.failPva, s)
    else if r.waits then ({ waits := true, hold := r.hold }, s)
    else
      let (bs, s) := s.mixBytes w to_ r.bytes
      let out := WRange.byLine { pva := to_, bytes := bs, pz := r.pz }
      let (o, s) := s.writeRanges key cl i out
      if o.fail != 0 then ({ ranges := elemRecord w i o.fail o.failPva, fail := o.fail, failPva := o.failPva, force := true }, s)
      else ({ waits := o.waits, hold := o.hold, ranges := out ++ elemRecord w i 0 0, poison := r.poisoned, degraded := r.degraded }, s)

/-! ## Group 0x2 (R135 to R141, R557) -/

/-- Element size of an atomic waybill. -/
def Waybill.atomSize (w : Waybill) : Nat := (fmtD w.dfmt).size

/-- New value and flags of an element. -/
def Waybill.atomNew (w : Waybill) (i old b : Nat) : Nat × Nat :=
  if w.opc == 0x21 then (if old == w.op 1 then w.op 4 else old, 0)
  else elemOp w.aop (fmtD w.dfmt) w.actl (srBits w.seed 0 i) old b

/-- The element's bit is set with what it raises: committed, or met by poison. -/
def State.commitElem (s : State) (key c i flags : Nat) (poison degraded : Bool) : State :=
  let cl := match (s.wb key).chunks.find c with | some k => k.cluster | none => 0
  let s := s.onWb key fun w =>
    { w with flags := w.flags ||| flags, committed := w.committed + 1, degraded := w.degraded || degraded,
             marks := if poison then w.marks.put i 0x02 else w.marks,
             chunks := w.chunks.upd c fun k => { k with bits := setBit k.bits (i - k.first) } }
  ((((s.unhold key i).uncachedFree (Grant.ofGranule key i)).countCluster cl 0x4012 0).settleGranule key c i cl 0).closeChunk key c

/-- The ranges of a write enter the WCBs. -/
def State.putOuts (s : State) (gid : Nat) (outs : List OutRange) : State :=
  outs.foldl (fun (s : State) o => s.wcbWrite o.pa gid o.bytes o.poison) s

/-- Every range of a write finds room in its WCB. -/
def State.outsRoom (s : State) (outs : List OutRange) : Bool := outs.all fun o => s.wcbRoom o.pa

/-- The atomic unit's work on an element at a pool address (R137): the old value goes to RES, the new one into the WCB. -/
def State.atomApply (s : State) (key c cl i pa : Nat) (b : Rd) : State :=
  let w := s.wb key
  let n := w.atomSize
  let (x, s) := s.porterLine w.gid (pa / 64 * 64) false
  if x.waits then s else
  let lost := s.lineLost pa
  let bad := x.poison || lost || b.poisoned
  let old := leNat (sliceBytes x.data (pa % 64) n)
  let res := w.pvaOp 3 + i * n
  let (o, s) := if w.fetchOld then s.writeRanges key cl i [if bad then WRange.pattern res n else WRange.sound res (leBytes n old)] else (({} : Wr), s)
  if o.fail != 0 then s.failGranule key c i o.fail
  else if o.waits then s.waitCalc key c cl i o.hold
  else if !s.outsRoom o.outs || !s.wcbRoom pa then s
  else if bad then (s.putOuts w.gid o.outs).commitElem key c i 0 true x.degraded
  else
    let (new, fl) := w.atomNew i old (if w.bvec then leNat b.bytes else w.op 1)
    let (ch, _) := s.wcbOf (s.place pa)
    (((s.wcbWrite pa w.gid (leBytes n new) false).putOuts w.gid o.outs).countChan ch 0x301B 0).commitElem key c i fl false x.degraded

/-- An element of ATOMIC or CAS goes to its atomic unit. -/
def State.atomElem (s : State) (key c cl i : Nat) : State :=
  let w := s.wb key
  let pva := w.dst + i * w.atomSize
  let (b, s) := if w.opc == 0x20 && w.bvec && !opUnary w.aop then s.readRange key cl i (w.pvaOp 2 + i * w.atomSize) w.atomSize else (({} : Rd), s)
  if b.fail != 0 then s.failGranule key c i b.fail
  else
    let (o, s) := s.porterXl cl w.gid pva true
    match o with
    | .stop e => s.failGranule key c i e
    | o => if b.waits then s.waitCalc key c cl i b.hold else
    match o with
    | .stop _ => s
    | .miss => s
    | .hold l p => s.holdGranule key i { level := l, page := p, write := true, atomic := true }
    | .zero l p pa => s.startFill w.gid l p pa
    | .ok pa =>
      if (s.filling pa).isSome then s
      else match s.hearthBlock pa w.atomSize true (Grant.ofGranule key i) with
        | some l => s.uncachedStart l (.porter key i true true) true
        | none => s.atomApply key c cl i pa b

/-- Every element of an atomic chunk that is not committed or marked is tried. -/
def State.runAtoms (s : State) (key c : Nat) : State :=
  if !s.runs key c then s else
  let k := ((s.wb key).chunks.getD c {})
  (upto k.count).foldl (fun (s : State) i =>
    let w := s.wb key
    let k := w.chunks.getD c {}
    if k.st != 1 || k.bits.testBit i || w.marks.has i then s else s.atomElem key c k.cluster i) s

/-! ## Group 0x3 (R111, R142 to R151) -/

/-- The identity of a reduction operation (R142). -/
def identityOf (rop af : Nat) : Nat :=
  match fmtD af with
  | .flt f => if rop == 0x00 then 0 else signBits f (rop == 0x07) + (2 ^ f.ebits - 1) * 2 ^ f.mbits
  | .int sg n => if rop == 0x00 then 0 else if rop == 0x06 then (if sg then 2 ^ (n - 1) - 1 else 2 ^ n - 1) else (if sg then 2 ^ (n - 1) else 0)
  | _ => 0

/-- One contribution applied to one accumulator element (R111): bits and flags. -/
def applyContrib (rop : Nat) (af cf : Fmt) (c : Actl) (r16 acc con : Nat) : Nat × Nat :=
  match af, cf with
  | .flt f, .flt h =>
    let (x, fx) := readFloat f c.daz acc
    let (y, fy) := readFloat h c.daz con
    let (v, fv) := if rop == 0x00 then fvAdd c.rnd x y else (fvMinMax (rop == 0x07) x y, 0)
    let (r, fr) := narrow f c r16 false v
    (r, fx ||| fy ||| fv ||| fr)
  | .int sg n, .int sc m => intOp rop sg n c acc (unsignedOf n (intVal sc m con))
  | _, _ => (acc, 0)

/-- Format, operation and staging of the accumulator a waybill works on: its own fields, or its context's. -/
def State.redTarget (s : State) (w : Waybill) : Nat × Nat × Option RedCtx :=
  if w.opc == 0x31 then (let x := s.work.ctxs.getD w.rctx {}; (x.afmt, x.rop, some x)) else (w.afmt, w.rop, none)

/-- Unit of a lock: 256 bytes of the pool, or a granule of a context's staging. -/
def lockUnit (staged : Bool) (ctx g pa : Nat) : Nat := if staged then 2 ^ 46 + ctx * 2 ^ 24 + g else pa / 256

/-- The lock of a granule's accumulator, where it lies in memory that translates (R146, R147). -/
def State.redLock (s : State) (key cl g lo : Nat) (staged : Bool) : Bool × State :=
  let w := s.wb key
  if staged then s.lockGranule key cl g (lockUnit true w.rctx g 0)
  else match s.porterXl cl w.gid lo true with
    | (.ok pa, s) => s.lockGranule key cl g (lockUnit false 0 0 pa)
    | (_, s) => (true, s)

/-- Contribution bytes: from staging where it was read ahead, else from SRC. -/
def State.contribRead (s : State) (w : Waybill) (cl g off n : Nat) : Rd × State :=
  if w.pre.isEmpty then s.readRange w.key cl g (w.src + off) n
  else ({ bytes := sliceBytes w.pre off n, pz := (w.prePz.drop off).take n }, s)

/-- A range of the staging copy, and which of its bytes lie in a line whose POISON bit is set (R147). -/
def RedCtx.stageRead (x : RedCtx) (pva len : Nat) : Rd :=
  { bytes := sliceBytes x.stage (pva - x.dst) len, pz := (upto len).map fun j => x.bad.contains ((pva + j) / 64) }

/-- A granule of RED_CONTRIB or REDUCE. -/
def kernel3 (key cl : Nat) (s : State) (g : Nat) : Calc × State :=
  let w := s.wb key
  let (lo, n) := granulePart w.dst w.len g
  let (af, rop, ctx) := s.redTarget w
  let staged := match ctx with | some x => x.staged | none => false
  let (got, s) := s.redLock key cl g lo staged
  if !got then ({ waits := true }, s) else
  let a := fmtD af
  let c := fmtD w.cfmt
  let (e0, e1) := elemSpan (lo - w.dst) n a.size
  let (acc, s) := match ctx with
    | some x => if staged then (x.stageRead (w.dst + e0 * a.size) ((e1 - e0) * a.size), s)
      else s.readRange key cl g (w.dst + e0 * a.size) ((e1 - e0) * a.size) { lrc := false }
    | none => s.readRange key cl g (w.dst + e0 * a.size) ((e1 - e0) * a.size) { lrc := false }
  let (con, s) := s.contribRead w cl g (e0 * c.size) ((e1 - e0) * c.size)
  let one (i : Nat) : Nat × Nat :=
    applyContrib rop a c w.actl (srBits w.seed 0 (e0 + i)) (elemBits acc.bytes a.size i) (elemBits con.bytes c.size i)
  let (bs, fl) := packElems a.size ((upto (e1 - e0)).map one)
  let m := Made.of [acc, con] { bytes := sliceBytes bs (lo - w.dst - e0 * a.size) n, flags := fl }
  match m.stop with
  | some k => (k, s)
  | none =>
    let r := if m.poison then WRange.pattern lo n else WRange.sound lo m.bytes
    ({ ranges := [r], flags := m.flags, poison := m.poison, degraded := m.degraded, stage := if staged then some w.rctx else none }, s)

/-- A granule of RED_OPEN: the start value in DST or in staging (R144). -/
def kernelOpen (key cl : Nat) (s : State) (g : Nat) : Calc × State :=
  let w := s.wb key
  let (lo, n) := granulePart w.dst w.len g
  let sz := (fmtD w.afmt).size
  let stage := if w.redStaged then some w.rctx else none
  if w.redInit then
    let id_ := leBytes sz (identityOf w.rop w.afmt)
    ({ ranges := [WRange.sound lo ((upto n).map fun j => id_.getD ((lo - w.dst + j) % sz) 0)], stage := stage }, s)
  else
    let (r, s) := s.readRange key cl g lo n { lrc := false }
    match stopOf [r] with
    | some c => (c, s)
    | none => ({ ranges := [{ pva := lo, bytes := r.bytes, pz := r.pz }], poison := r.poisoned, degraded := r.degraded, stage := stage }, s)

/-! ## RESHARD (R185) -/

/-- Destination elements of a granule: offset of the element in the destination and in the source. -/
def reshardElems (w : Waybill) (sl dl : Layout) (off n : Nat) : List (Nat × Nat) :=
  ((upto n).filterMap fun j => (dl.elemAt (off + j)).map fun x => (off + j - x.2, sl.offset (w.srcIndex x.1))).dedup

/-- Runs of elements that are adjacent both ways: destination offset, source offset, bytes. -/
def runsOf (size : Nat) (es : List (Nat × Nat)) : List (Nat × Nat × Nat) :=
  (es.foldl (fun (b : List (Nat × Nat × Nat)) e => match b with
    | (d, f, n) :: r => if e.1 == d + n && e.2 == f + n then (d, f, n + size) :: r else (e.1, e.2, size) :: b
    | [] => [(e.1, e.2, size)]) []).reverse

/-- Poison by element: an element with a poisoned byte is poisoned whole. -/
def poisonElems (size : Nat) (pz : List Bool) : List Bool :=
  (upto pz.length).map fun j => ((pz.drop (j / size * size)).take size).any id

/-- A run cut to the bytes of its granule, with the pattern in poisoned elements. -/
def reshardRange (w : Waybill) (size off n d : Nat) (r : Rd) : WRange :=
  let pz := poisonElems size r.pz
  let bs := r.bytes.zipIdx.map fun x => if pz.getD x.2 false then poisonByte (w.dst + d + x.2) else x.1
  let lo := max d off
  WRange.part { pva := w.dst + d, bytes := bs, pz := pz } (lo - d) (min (d + bs.length) (off + n) - lo)

/-- Ranges that follow one another without a gap are one. -/
def joinRanges (rs : List WRange) : List WRange :=
  (rs.foldl (fun (b : List WRange) r => match b with
    | p :: t => if p.pva + p.bytes.length == r.pva then { p with bytes := p.bytes ++ r.bytes, pz := p.pz ++ r.pz } :: t else r :: b
    | [] => [r]) []).reverse

/-- A granule of RESHARD. -/
def kernel4 (key cl : Nat) (s : State) (g : Nat) : Calc × State :=
  let w := s.wb key
  let sl := s.work.layouts.getD w.srcLayout {}
  let dl := s.work.layouts.getD w.dstLayout {}
  let (lo, n) := granulePart w.dst w.len g
  let off := lo - w.dst
  let (rs, s) := (runsOf dl.esize (reshardElems w sl dl off n)).foldl (fun (b : List (Nat × Rd) × State) x =>
    let (r, s) := b.2.readRange key cl g (w.src + x.2.1) x.2.2
    (b.1 ++ [(x.1, r)], s)) ([], s)
  let m := Made.of (rs.map (·.2)) {}
  match m.stop with
  | some c => (c, s)
  | none => ({ ranges := joinRanges (rs.map fun x => reshardRange w dl.esize off n x.1 x.2), poison := m.poison, degraded := m.degraded }, s)

end Sys2Proof.Machine
end

