-- ==== Sys2Proof/Machine/Checks.lean ====
section
/-! DEFINITION. The checks of a waybill before any data moves (R55), with the operand rules of chapters 04 and 05 (R120, R121,
R129 to R136, R142 to R145, R151 to R153, R160 to R164, R184) and the buffers of Tables 4.1 and 5.1. -/

namespace Sys2Proof.Machine

open Sys2Proof

/-! ## Check 1 and 2 -/

/-- Every reserved bit of the fixed words is 0, VER is 1, and ACTL of groups 0x0 to 0x5 is legal (R49, R98). -/
def Waybill.formOk (w : Waybill) : Bool :=
  w.ver == 1 && bitsOf (w.word 0) 51 40 == 0 && bitsOf (w.word 2) 63 48 == 0 && bitsOf (w.word 3) 63 48 == 0 &&
    bitsOf (w.word 4) 63 48 == 0 && bitsOf (w.word 5) 47 32 == 0 && (decide (6 ≤ w.group) || actlOk (bitsOf (w.op 9) 15 0))

/-- Opcodes defined (Tables 2.4, 4.1, 5.1). -/
def definedOpcs : List Nat :=
  [0x00, 0x01, 0x02, 0x03, 0x04, 0x10, 0x11, 0x20, 0x21, 0x30, 0x31, 0x32, 0x33, 0x40, 0x50, 0x51,
   0x60, 0x61, 0x62, 0x63, 0x64, 0x65, 0x70, 0x71]

/-- Check 2, with R98's test of stochastic rounding. -/
def State.opcOk (s : State) (w : Waybill) : Bool :=
  definedOpcs.contains w.opc && !(decide (w.group ≤ 5) && w.actl.rnd == 5 && !s.flag Obj.stochAllowed)

/-! ## Operand rules -/

/-- Operand words are 0. -/
def Waybill.zeroOps (w : Waybill) (is : List Nat) : Bool := is.all fun i => w.op i == 0

/-- Operand words have no bit from a number on. -/
def Waybill.below (w : Waybill) (i bits : Nat) : Bool := decide (w.op i < 2 ^ bits)

/-- A scalar fits an element size. -/
def scalarOk (v size : Nat) : Bool := decide (v < 2 ^ (8 * size))

/-- Two ranges share no byte, or begin at the same address with equal element sizes (R121). -/
def apartOr (a la b lb : Nat) (same : Bool) : Bool := !overlaps a la b lb || (same && a == b)

/-- A format code that is listed, and is not MX. -/
def plainCode (c : Nat) : Bool := match fmtOf c with | some t => !t.isMx | none => false

/-- FP32, FP16, BF16 or an integer. -/
def opFmt (c : Nat) : Bool := match fmtOf c with | some (.int _ _) => true | some (.flt f) => f == fp32 || f == fp16 || f == bf16 | _ => false

/-- An integer format. -/
def intFmt (c : Nat) : Bool := match fmtOf c with | some (.int _ _) => true | _ => false

/-- Bytes that an element counts for in R121: a block for an MX format. -/
def Fmt.unit (t : Fmt) : Nat := if t.isMx then t.blk else t.size

/-- Bits of OPW0 to OPW8 that Tables 4.2, 4.4 and 4.5 define for the operations of a group; R120 reserves the others, and no bit for
being another operation's. -/
def opMasks (group : Nat) : List Nat :=
  let m48 := 2 ^ 48 - 1
  let m64 := 2 ^ 64 - 1
  match group with
  | 0 => [0x1FFFF, m64, m48, 0x3000FFFFF]
  | 2 => [0x3FFFF, m64, m48, m48, m64]
  | 3 => [0xFF0FFFFFFF, 0x1FFFF, 0xFFFF, 0xFFFF]
  | _ => []

/-- No operand bit is set that is reserved. -/
def Waybill.masksOk (w : Waybill) : Bool := w.below 9 16 && (upto 9).all fun i => w.op i &&& (opMasks w.group).getD i 0 == w.op i

/-- Operand rules of group 0x0 that do not involve LEN. -/
def Waybill.rules0 (w : Waybill) : Bool :=
  w.masksOk &&
    (if w.opc == 0x01 then (fmtOf w.sfmt).isSome && (fmtOf w.dfmt).isSome
     else if w.opc == 0x02 then [1, 2, 4, 8].contains w.dfmt && scalarOk (w.op 1) w.dfmt
     else if w.opc == 0x03 then
       opFmt w.dfmt && w.aop != 0x18 && opFits w.aop (fmtD w.dfmt) && (w.bvec || opUnary w.aop || scalarOk (w.op 1) (fmtD w.dfmt).size)
     else if w.opc == 0x04 then decide (w.dtc ≤ 1) && (if w.bvec then w.sfmt == 0 && w.dfmt == 0 else (fmtOf w.sfmt).isSome && plainCode w.dfmt)
     else true)

/-- Operand rules of group 0x0 that involve LEN (R121, R129, R132). -/
def Waybill.lenRules0 (w : Waybill) : Bool :=
  if w.opc == 0x00 then apartOr w.src w.len w.dst w.len true
  else if w.opc == 0x01 then
    (match w.convCount with
     | none => false
     | some n =>
       let s := fmtD w.sfmt
       let d := fmtD w.dfmt
       let sn := if s.isMx then n / 32 else 0
       let dn := if d.isMx then n / 32 else 0
       apartOr w.src w.convSrc w.dst w.len (s.unit == d.unit && s.isMx == d.isMx) && apartOr (w.pvaOp 1) sn w.dst w.len false &&
         apartOr w.src w.convSrc (w.pvaOp 2) dn false && apartOr (w.pvaOp 1) sn (w.pvaOp 2) dn true)
  else if w.opc == 0x03 then
    w.len % (fmtD w.dfmt).size == 0 && apartOr w.src w.len w.dst w.len true && (!w.bvec || apartOr (w.pvaOp 2) w.len w.dst w.len true)
  else if w.opc == 0x04 then w.bvec || w.convCount.isSome
  else true

/-- Operand rules of group 0x1 (R152, R153). -/
def Waybill.rules1 (w : Waybill) : Bool :=
  w.below 8 53 && decide (1 ≤ w.gcount) && decide (w.gcount ≤ 16) && w.frec % 8 == 0 && w.stride % 4 == 0 &&
    (if w.opc == 0x10 then w.src else w.dst) % 4 == 0

/-- R153's rule of LEN. -/
def Waybill.lenRules1 (w : Waybill) : Bool := w.len % 4 == 0 && decide (4 ≤ w.len) && decide (w.len ≤ 65536)

/-- A buffer that a rule wants homed here: broken only when it begins in a window homed elsewhere (R120). -/
def State.homeRule (s : State) (w : Waybill) (pva : Nat) : Bool := match w.windowAt pva with | some x => s.homed x | none => true

/-- Operand rules of group 0x2 (R135, R136, R141). -/
def State.rules2 (s : State) (w : Waybill) : Bool :=
  let n := (fmtD w.dfmt).size
  w.masksOk &&
    (if w.opc == 0x20 then opFmt w.dfmt && opFits w.aop (fmtD w.dfmt) && (w.bvec || opUnary w.aop || scalarOk (w.op 1) n)
     else intFmt w.dfmt && w.aop == 0 && scalarOk (w.op 1) n && scalarOk (w.op 4) n) &&
    w.dst % n == 0 && (!w.fetchOld || w.pvaOp 3 % n == 0) && s.homeRule w w.dst && (!w.fetchOld || s.homeRule w (w.pvaOp 3))

/-- R136's rule of LEN. -/
def Waybill.lenRules2 (w : Waybill) : Bool :=
  let n := (fmtD w.dfmt).size
  w.len % n == 0 && decide (1 ≤ w.len / n) && decide (w.len / n ≤ 64)

/-- The context that a RED_CONTRIB or RED_CLOSE names, where it is open (R143, R150). -/
def State.openCtx (s : State) (r : Nat) : Option RedCtx :=
  match s.work.ctxs.find r with
  | some x => if x.open_ && x.closing.isNone then some x else none
  | none => none

/-- Operand rules of group 0x3 that do not involve LEN (R142 to R145, R151). A context of another guest is no breach here: it
gives PERMISSION at check 4. -/
def State.ruleRed (s : State) (w : Waybill) : Bool :=
  if w.opc == 0x30 then
    isRop w.rop && isAfmt w.afmt && decide (1 ≤ w.ncontrib) && decide (w.ncontrib ≤ 65536) && !s.work.ctxs.has w.rctx && s.homeRule w w.dst
  else if w.opc == 0x33 then
    isRop w.rop && isAfmt w.afmt && cfmtFits w.cfmt w.afmt && s.homeRule w w.dst && !w.ordered
  else match s.openCtx w.rctx with
    | none => false
    | some x => w.opc == 0x32 || x.gid != w.gid ||
      (cfmtFits w.cfmt x.afmt && decide (w.cidx < x.ncontrib) && !x.seen.contains w.cidx && w.ordered == x.ordered)

/-- Accumulator format of a group 0x3 waybill. -/
def State.accFmt (s : State) (w : Waybill) : Fmt := fmtD (s.redTarget w).1

/-- Extent of the contribution. -/
def State.contribLen (s : State) (w : Waybill) : Nat := (w.len / (s.accFmt w).size) * (fmtD w.cfmt).size

/-- Operand rules of group 0x3 that involve LEN. -/
def State.lenRules3 (s : State) (w : Waybill) : Bool :=
  let apart := apartOr w.src (s.contribLen w) w.dst w.len ((fmtD w.cfmt).size == (s.accFmt w).size)
  if w.opc == 0x30 then w.len % (fmtD w.afmt).size == 0 && (!w.redStaged || decide (w.len ≤ 67108864))
  else if w.opc == 0x33 then w.len % (fmtD w.afmt).size == 0 && apart
  else if w.opc == 0x31 then
    (match s.openCtx w.rctx with
     | some x => x.gid != w.gid || (x.dst == w.dst && x.len == w.len && apart)
     | none => false)
  else true

/-- Operand rules of RESHARD (R160, R184), whoever owns the layouts; ownership is tested with check 4. -/
def State.rules4 (s : State) (w : Waybill) : Bool :=
  w.below 0 32 && w.below 1 19 && w.zeroOps [2, 3, 4, 5, 6, 7, 8] && w.below 9 16 &&
    (match s.work.layouts.find w.srcLayout, s.work.layouts.find w.dstLayout with
     | some a, some b =>
       a.fmt == b.fmt && a.rank == b.rank && (!bitOf (w.op 1) 18 || isPerm w.ax a.rank) &&
         ((upto 6).all fun k => b.n k == a.n (w.ax k)) && b.separate
     | _, _ => false)

/-- R184's and R161's rules of LEN. -/
def State.lenRules4 (s : State) (w : Waybill) : Bool :=
  match s.work.layouts.find w.srcLayout, s.work.layouts.find w.dstLayout with
  | some a, some b => w.len == b.extent && !overlaps w.src a.extent w.dst w.len
  | _, _ => false

/-- Clusters that a matrix waybill asks for (R162, R169). -/
def State.matSplit (s : State) (w : Waybill) : Nat :=
  min (if w.split == 0 then w.splitDef else w.split) (s.reg Obj.chunkSpreadMax)

/-- Bytes of a weight matrix and of its scales. -/
def weightExt (wf r c : Nat) : Nat := r * (fmtD wf).extent c
def scaleExt (wf r c : Nat) : Nat := if isMxCode wf then r * (c / 32) else 0

/-- A count is from 32 to 65,536 and a multiple of 32. -/
def mult32 (n : Nat) : Bool := decide (32 ≤ n) && decide (n ≤ 65536) && n % 32 == 0

/-- Operand rules of group 0x5 that do not involve LEN (R162 to R164). -/
def Waybill.rules5 (w : Waybill) : Bool :=
  let mx := isMxCode w.wfmt
  let y := [0x00, 0x02, 0x03, 0x04].contains w.yfmt
  let common := bitsOf (w.op 0) 23 5 == 0 && bitsOf (w.op 1) 63 49 == 0 && bitsOf (w.op 1) 31 17 == 0 && w.below 9 16 && decide (w.split ≤ 16) &&
    decide (1 ≤ w.batch) && decide (w.batch ≤ 16) && (pairing w.wfmt w.xfmt).isSome && y && w.dst % 256 == 0 && w.below 2 48 && w.below 3 48 && w.below 4 48
  if w.opc == 0x50 then
    common && !bitOf (w.op 0) 29 && w.zeroOps [5, 6, 7, 8] && decide (1 ≤ w.rowsM) && decide (w.rowsM ≤ 65536) && mult32 w.colsK &&
      (mx || w.op 2 == 0) && (w.bfmt == 0x00 || w.bfmt == 0x02 || (w.bfmt == 0xFF && w.op 4 == 0))
  else
    common && bitsOf (w.op 0) 31 29 == 0 && w.below 5 48 && w.below 6 48 && w.below 7 48 && w.below 8 48 && mult32 w.rowsM && mult32 w.colsK &&
      (mx || (w.op 2 == 0 && w.op 5 == 0 && w.op 7 == 0)) && (w.bfmt == 0x02 || w.bfmt == 0x03) && (pairing w.wfmt w.bfmt).isSome &&
      w.op 8 % 4 == 0 && decide (w.rowsM * w.batch * (fmtD w.xfmt).size + w.colsK * w.batch * (fmtD w.bfmt).size ≤ 2097152)

/-! ## Buffers (Tables 4.1 and 5.1) -/

/-- A buffer that checks 6 to 8 test: first byte, extent, right. -/
structure Buf where
  pva : Nat
  len : Nat
  need : Need := {}
deriving DecidableEq, Repr

/-- Rights of Table 4.1. -/
def rd : Need := { read := true }
def wr : Need := { write := true }
def rw : Need := { read := true, write := true }
def atm : Need := { atomic := true }

/-- A buffer that is there on a condition. -/
def bufIf (b : Bool) (pva len : Nat) (need : Need) : List Buf := if b then [⟨pva, len, need⟩] else []

/-- Inputs of a matrix waybill. -/
def Waybill.matBufs (w : Waybill) : List Buf :=
  let mx := isMxCode w.wfmt
  let r := w.rowsM
  let c := w.colsK
  let xs := (fmtD w.xfmt).size
  if w.opc == 0x50 then
    [⟨w.src, weightExt w.wfmt r c, rd⟩] ++ bufIf mx (w.pvaOp 2) (scaleExt w.wfmt r c) rd ++ [⟨w.pvaOp 3, c * w.batch * xs, rd⟩] ++
      bufIf (w.bfmt != 0xFF) (w.pvaOp 4) (r * (fmtD w.bfmt).size) rd
  else
    [⟨w.src, weightExt w.wfmt c r, rd⟩, ⟨w.pvaOp 4, weightExt w.wfmt c r, rd⟩, ⟨w.pvaOp 6, weightExt w.wfmt r c, rd⟩] ++
      bufIf mx (w.pvaOp 2) (scaleExt w.wfmt c r) rd ++ bufIf mx (w.pvaOp 5) (scaleExt w.wfmt c r) rd ++ bufIf mx (w.pvaOp 7) (scaleExt w.wfmt r c) rd ++
      [⟨w.pvaOp 3, r * w.batch * xs, rd⟩] ++ bufIf (w.pvaOp 8 != 0) (w.pvaOp 8) (4 * w.batch) rd

/-- R164's and R161's rules of LEN. -/
def Waybill.lenRules5 (w : Waybill) : Bool :=
  w.len == w.rowsM * w.batch * (fmtD w.yfmt).size && w.matBufs.all fun b => !overlaps b.pva b.len w.dst w.len

/-- Every buffer of a waybill. -/
def State.buffers (s : State) (w : Waybill) : List Buf :=
  let sn := w.convCount.getD 0 / 32
  match w.opc with
  | 0x00 => [⟨w.src, w.len, rd⟩, ⟨w.dst, w.len, wr⟩]
  | 0x01 => [⟨w.src, w.convSrc, rd⟩, ⟨w.dst, w.len, wr⟩] ++ bufIf (isMxCode w.sfmt) (w.pvaOp 1) sn rd ++ bufIf (isMxCode w.dfmt) (w.pvaOp 2) sn wr
  | 0x02 => [⟨w.dst, w.len, wr⟩]
  | 0x03 => [⟨w.src, w.len, rd⟩] ++ bufIf w.bvec (w.pvaOp 2) w.len rd ++ [⟨w.dst, w.len, wr⟩]
  | 0x04 => [⟨w.src, w.convSrc, rd⟩] ++ bufIf (!w.bvec && isMxCode w.sfmt) (w.pvaOp 1) sn rd
  | 0x10 => [⟨w.dst, w.gcount * w.len, wr⟩] ++ bufIf (w.frec != 0) w.frec (8 * w.gcount) wr
  | 0x11 => [⟨w.src, w.gcount * w.len, rd⟩] ++ bufIf (w.frec != 0) w.frec (8 * w.gcount) wr
  | 0x20 => [⟨w.dst, w.len, atm⟩] ++ bufIf w.bvec (w.pvaOp 2) w.len rd ++ bufIf w.fetchOld (w.pvaOp 3) w.len wr
  | 0x21 => [⟨w.dst, w.len, atm⟩] ++ bufIf w.fetchOld (w.pvaOp 3) w.len wr
  | 0x30 => [⟨w.dst, w.len, rw⟩]
  | 0x31 => [⟨w.src, s.contribLen w, rd⟩, ⟨w.dst, w.len, rw⟩]
  | 0x33 => [⟨w.src, s.contribLen w, rd⟩, ⟨w.dst, w.len, rw⟩]
  | 0x40 => [⟨w.src, (s.work.layouts.getD w.srcLayout {}).extent, rd⟩, ⟨w.dst, w.len, wr⟩]
  | 0x50 => w.matBufs ++ [⟨w.dst, w.len, wr⟩]
  | 0x51 => w.matBufs ++ [⟨w.dst, w.len, wr⟩]
  | 0x60 => [⟨w.src, w.len, {}⟩]
  | _ => []

/-! ## The checks in order -/

/-- Operand rules that do not involve LEN. -/
def State.rulesOk (s : State) (w : Waybill) : Bool :=
  match w.group with
  | 0 => w.rules0
  | 1 => w.rules1
  | 2 => s.rules2 w
  | 3 => w.masksOk && s.ruleRed w
  | 4 => s.rules4 w
  | 5 => w.rules5
  | _ => true

/-- Operand rules that involve LEN. -/
def State.lenRulesOk (s : State) (w : Waybill) : Bool :=
  match w.group with
  | 0 => w.lenRules0
  | 1 => w.lenRules1
  | 2 => w.lenRules2
  | 3 => s.lenRules3 w
  | 4 => s.lenRules4 w
  | 5 => w.lenRules5
  | _ => true

/-- The waybill's group uses LEN (R55, check 5): groups 0x0 to 0x5, and PUBLISH, the only operation of 0x6 that has an extent. -/
def Waybill.usesLen (w : Waybill) : Bool := decide (w.group ≤ 5) || w.opc == 0x60

/-- The tally is allocated to the guest. -/
def State.tallyOf (s : State) (gid t : Nat) : Bool := match s.work.tallies.find t with | some x => x.gid == gid | none => false

/-- Check 4: tallies, and with it contexts and layouts, of the waybill's guest (R55, R143, R144, R160). -/
def State.ownsOk (s : State) (w : Waybill) : Bool :=
  (w.tally == 0xFFFF || s.tallyOf w.gid w.tally) && (!w.waitOn || s.tallyOf w.gid w.waitTally) &&
    (!(decide (0x61 ≤ w.opc) && decide (w.opc ≤ 0x64)) || s.tallyOf w.gid (bitsOf (w.op 0) 15 0)) &&
    (w.opc != 0x30 || w.doneTally == 0xFFFF || s.tallyOf w.gid w.doneTally) &&
    (!(w.opc == 0x31 || w.opc == 0x32) || (match s.work.ctxs.find w.rctx with | some x => x.gid == w.gid | none => true)) &&
    (w.opc != 0x40 || ((match s.work.layouts.find w.srcLayout with | some x => x.gid == w.gid | none => true) &&
      (match s.work.layouts.find w.dstLayout with | some x => x.gid == w.gid | none => true)))

/-- A buffer ends within the window of its first byte and below 2^48 (check 7). -/
def Waybill.boundOk (w : Waybill) (b : Buf) : Bool :=
  match w.windowAt b.pva with
  | some x => decide (b.pva + b.len ≤ (x.base + x.size) * gib) && decide (b.pva + b.len ≤ 2 ^ 48)
  | none => false

/-- The check of PUBLISH between 6 and 7 (R41): its first byte lies in a window homed here, and so does every window that the range runs on
into. -/
def State.publishOk (s : State) (w : Waybill) : Bool :=
  match w.windowAt w.src with
  | some x =>
    s.homed x && w.dir.rows.all fun y => !y.2.valid || s.homed y.2 || !overlaps (y.2.base * gib) (y.2.size * gib) w.src w.len
  | none => true

/-- Checks 6 to 8 of R55, with R41's. -/
def State.bufCheck (s : State) (w : Waybill) : Option Nat :=
  let bs := s.buffers w
  if bs.any fun b => (w.windowAt b.pva).isNone then some 0x05
  else if w.opc == 0x60 && !s.publishOk w then some 0x09
  else if !(bs.all fun b => w.boundOk b) then some 0x04
  else if !(bs.all fun b => match w.windowAt b.pva with | some x => x.grants b.need | none => false) then some 0x07
  else none

/-- Checks 1 to 5 of R55, with the operand rules after check 2. -/
def State.fieldCheck (s : State) (w : Waybill) : Option Nat :=
  if !w.formOk then some 0x09
  else if !s.opcOk w then some 0x0A
  else if !s.rulesOk w || !(w.len == 0 || s.lenRulesOk w) then some 0x09
  else if w.tallyAdd == 0 && w.tally != 0xFFFF then some 0x09
  else if !s.ownsOk w then some 0x07
  else if w.usesLen && w.len == 0 then some 0
  else none

/-- The checks of R55 in their order: a status that ends the waybill before any data moves, or none. Check 4 is named apart,
because it withholds the tally (R60). -/
def State.check55 (s : State) (w : Waybill) : Option Nat :=
  match s.fieldCheck w with
  | some e => some e
  | none => match s.bufCheck w with
    | some e => some e
    | none => s.keyCheck w.gid

/-- A PUBLISH that is MALFORMED for its range or BOUNDS moves no tally (R41). -/
def State.publishFails (s : State) (w : Waybill) : Bool :=
  w.opc == 0x60 && (s.fieldCheck w).isNone && (s.bufCheck w == some 0x09 || s.bufCheck w == some 0x04)

/-- The waybill fails at check 4. -/
def State.fails4 (s : State) (w : Waybill) : Bool :=
  w.formOk && s.opcOk w && s.rulesOk w && (w.len == 0 || s.lenRulesOk w) && !(w.tallyAdd == 0 && w.tally != 0xFFFF) && !s.ownsOk w

end Sys2Proof.Machine
end

