-- ==== Sys2Proof/Machine/Matrix.lean ====
section
/-! DEFINITION. Matrix work in place: MVB and MOEFFN (R165 to R175), over the MAC array of R108. -/

namespace Sys2Proof.Machine

open Sys2Proof

/-- Unscaled value of a weight element; its scale byte where the block has one. -/
def weightVal (t : Fmt) (daz : Bool) (scale bits : Nat) : FV × Nat :=
  match t with
  | .mx f w _ _ =>
    if scale == 255 then (.nan, fMXNAN)
    else match f with
      | none => (fvOf ((signedOf w bits : Rat) * two (-6)) false, 0)
      | some f => readFloat f daz bits
  | t => elemVal t daz bits

/-- A weight matrix: elements, scales and format; r rows of c columns (R165). -/
structure WMat where
  ebase : Nat
  sbase : Nat
  fmt : Nat
  cols : Nat
deriving DecidableEq, Repr

/-- Bytes of a row of a weight matrix. -/
def WMat.rowBytes (m : WMat) : Nat := (fmtD m.fmt).extent m.cols

/-- A row read: its element bytes and its scale bytes. -/
def State.readRow (s : State) (key cl g : Nat) (m : WMat) (q : Nat) : List Rd × State :=
  let (e, s) := s.readRange key cl g (m.ebase + q * m.rowBytes) m.rowBytes { weight := true }
  if (fmtD m.fmt).isMx then
    let (c, s) := s.readRange key cl g (m.sbase + q * (m.cols / 32)) (m.cols / 32) { weight := true }
    ([e, c], s)
  else ([e], s)

/-- Block b of a row as 32 weight values and the scale byte; 127 stands for scale 1. -/
def rowBlockVals (t : Fmt) (daz : Bool) (rs : List Rd) (b : Nat) : List (FV × Nat) × Nat :=
  let e := (rs.headD {}).bytes
  match t with
  | .mx _ w blk _ =>
    let sc := (((rs.drop 1).headD {}).bytes.getD b 0).toNat
    let bs := sliceBytes e (b * blk) blk
    ((upto 32).map fun i => weightVal t daz sc (mxElem w bs i), sc)
  | t => ((upto 32).map fun i => weightVal t daz 127 (elemBits e t.size (32 * b + i)), 127)

/-- Dot product of a row with vector j of an interleaved batch of B (R108, R165): accumulator and flags. DAZ acts on the weights, and on
the vectors where they are inputs and no intermediate (R103). -/
def dotRow (t xt : Fmt) (daz dazX : Bool) (rs : List Rd) (x : Bytes) (cols b j : Nat) : FV × Nat :=
  (upto (cols / 32)).foldl (fun (acc : FV × Nat) k =>
    let (ws, sc) := rowBlockVals t daz rs k
    let xs := (upto 32).map fun i => elemVal xt dazX (elemBits x xt.size ((32 * k + i) * b + j))
    let fl := (ws.foldl (fun f w => f ||| w.2) 0) ||| (xs.foldl (fun f w => f ||| w.2) 0)
    let (v, f) := macBlock acc ((ws.map (·.1)).zip (xs.map (·.1))) (two ((sc : Int) - 127))
    (v, f ||| fl)) (.zero false, 0)

/-- Elements of granule g of an output whose rows hold B elements of a size: first element, one past the last. -/
def outElems (w : Waybill) (size g : Nat) : Nat × Nat × Nat × Nat :=
  let (lo, n) := granulePart w.dst w.len g
  let (e0, e1) := elemSpan (lo - w.dst) n size
  (lo, n, e0, e1)

/-- Weights of MVB (Table 5.2), and of MOEFFN's three matrices (Table 5.3). -/
def Waybill.matW (w : Waybill) : WMat := ⟨w.src, w.pvaOp 2, w.wfmt, w.colsK⟩
def Waybill.matU (w : Waybill) : WMat := ⟨w.pvaOp 4, w.pvaOp 5, w.wfmt, w.rowsM⟩
def Waybill.matG (w : Waybill) : WMat := ⟨w.src, w.pvaOp 2, w.wfmt, w.rowsM⟩
def Waybill.matD (w : Waybill) : WMat := ⟨w.pvaOp 6, w.pvaOp 7, w.wfmt, w.colsK⟩

/-- Rows read one after the other. -/
def State.readRows (s : State) (key cl g : Nat) (m : WMat) (qs : List Nat) : List (Nat × List Rd) × State :=
  qs.foldl (fun (b : List (Nat × List Rd) × State) q =>
    let (r, s) := b.2.readRow key cl g m q
    (b.1 ++ [(q, r)], s)) ([], s)

/-- Row q among rows read. -/
def rowAt (rows : List (Nat × List Rd)) (q : Nat) : List Rd := ((rows.find? fun r => r.1 == q).map (·.2)).getD []

/-- Multiply-adds of a waybill counted on a cluster (Table 16.5). -/
def State.countMacs (s : State) (cl wf xf n : Nat) : State := s.countN (diePD (cl / 8)) (cl % 8) 0x4013 ((pairing wf xf).getD 0) n

/-- The granule made, or stopped, from reads and packed output elements. -/
def matCalc (m : Made) (lo n : Nat) (more : Nat) : Calc :=
  match m.stop with
  | some c => c
  | none =>
    { ranges := [if m.poison then WRange.pattern lo n else WRange.sound lo m.bytes], flags := m.flags ||| more, poison := m.poison, degraded := m.degraded }

/-! ## Inputs that every granule depends on (R169, R173) -/

/-- A fault of an input that every granule depends on: each granule that is not committed fails, those made and held too (Table 5.6). -/
def State.failAll (s : State) (key cause : Nat) : State :=
  let s := s.onWb key fun w => { w with hFail := if w.hFail != 0 then w.hFail else cause }
  let w := s.wb key
  let made := (w.chunks.rows.map fun c => (c.2.held.keys).map fun g => (c.1, g)).flatten
  made.foldl (fun (s : State) x => s.failGranule key x.1 x.2 cause) s

/-- Number under which a cluster's vector batch is held in the fault table. -/
def batchItem (cl : Nat) : Nat := 2 ^ 17 + cl

/-- Rows of the vector batch. -/
def Waybill.batchRows (w : Waybill) : Nat := if w.opc == 0x50 then w.colsK else w.rowsM

/-- A cluster's scratchpad takes the vector batch and, for MOEFFN, the router weights; it keeps them until the waybill completes (R169, Table
5.5). True once it has them, or the waybill has failed for them. -/
def State.loadBatch (s : State) (key cl : Nat) : Bool × State :=
  let w := s.wb key
  if w.hFail != 0 || w.scratch.has cl then (true, s) else
  let (x, s) := s.readRange key cl (batchItem cl) (w.pvaOp 3) (w.batchRows * w.batch * (fmtD w.xfmt).size)
  let (r, s) := if w.opc == 0x51 && w.pvaOp 8 != 0 then s.readRange key cl (batchItem cl) (w.pvaOp 8) (4 * w.batch) else (({} : Rd), s)
  match stopOf [x, r] with
  | some c =>
    if c.fail != 0 then (true, (s.unhold key (batchItem cl)).failAll key c.fail)
    else (false, match c.hold with | some h => s.holdGranule key (batchItem cl) h | none => s.unhold key (batchItem cl))
  | none =>
    (true, (s.unhold key (batchItem cl)).onWb key fun w =>
      { w with scratch := w.scratch.put cl { x := x.bytes, rsc := r.bytes }, hPoison := w.hPoison || x.poisoned || r.poisoned,
               degraded := w.degraded || x.degraded || r.degraded })

/-- What a cluster's scratchpad keeps of a waybill. -/
def Waybill.pad (w : Waybill) (cl : Nat) : Scratch := w.scratch.getD cl {}

/-- The weight lines read for a granule or slice leave the scratchpad. -/
def State.dropLines (s : State) (key cl : Nat) : State :=
  s.onWb key fun w => { w with scratch := w.scratch.upd cl fun c => { c with lines := {} } }

/-- A matrix granule, once its weights are all there or one of them stops it. -/
def State.finishMat (s : State) (key cl : Nat) (rds : List Rd) (macs wf xf : Nat) (c : Unit → Calc) : Calc × State :=
  match stopOf rds with
  | some c => (c, if c.waits then s else s.dropLines key cl)
  | none => (c (), (s.dropLines key cl).countMacs cl wf xf macs)

/-- A granule of MVB (R166). -/
def kernelMvb (key cl : Nat) (s : State) (g : Nat) : Calc × State :=
  let (have_, s) := s.loadBatch key cl
  let w := s.wb key
  if w.hFail != 0 then ({ fail := w.hFail }, s)
  else if !have_ then ({ waits := true }, s) else
  let y := fmtD w.yfmt
  let xt := fmtD w.xfmt
  let b := w.batch
  let (lo, n, e0, e1) := outElems w y.size g
  let qs := (upto (ceilDiv e1 b - e0 / b)).map fun i => e0 / b + i
  let (rows, s) := s.readRows key cl g w.matW qs
  let bsz := (fmtD w.bfmt).size
  let (bias, s) := if w.bfmt == 0xFF then (({} : Rd), s) else s.readRange key cl g (w.pvaOp 4 + (qs.headD 0) * bsz) (qs.length * bsz)
  let one (e : Nat) : Nat × Nat :=
    let q := e / b
    let (v, f) := dotRow (fmtD w.wfmt) xt w.actl.daz w.actl.daz (rowAt rows q) (w.pad cl).x w.colsK b (e % b)
    let (v, f) := if w.bfmt == 0xFF then (v, f) else
      (let (z, fz) := elemVal (fmtD w.bfmt) w.actl.daz (elemBits bias.bytes bsz (q - qs.headD 0))
       let (r, fr) := add32 v z
       (r, f ||| fz ||| fr))
    let (r, fr) := putVal y w.actl (srBits w.seed 0 e) (activate w.act v)
    (r, f ||| fr)
  let rds := bias :: (rows.map (·.2)).flatten
  s.finishMat key cl rds ((e1 - e0) * w.colsK) w.wfmt w.xfmt fun _ =>
    let (bs, fl) := packElems y.size ((upto (e1 - e0)).map fun i => one (e0 + i))
    let m := Made.of rds { bytes := sliceBytes bs (lo - w.dst - e0 * y.size) n, flags := fl }
    matCalc { m with poison := m.poison || w.hPoison } lo n 0

/-- Bytes put into a string at an offset, the string growing with zeros. -/
def putAt (bs : Bytes) (off : Nat) (new : Bytes) : Bytes := padBytes off bs ++ new ++ bs.drop (off + new.length)

/-- The result of a slice of phase 1 enters the waybill (R167, R172, Table 5.6). -/
def State.sliceDone (s : State) (key i off : Nat) (bs : Bytes) (flags : Nat) (poison degraded : Bool) : State :=
  s.onWb key fun w => { w with slices := setBit w.slices i, h := putAt w.h off bs,
                               hPoison := w.hPoison || poison, hFlags := w.hFlags ||| flags, degraded := w.degraded || degraded,
                               chunks := w.chunks.upd (65536 + i) fun k => { k with bits := 1 } }

/-- One element of the intermediate (R167, steps 1 to 3): bits in HFMT and flags. -/
def hElem (w : Waybill) (gr ur : List Rd) (x : Bytes) (i j : Nat) : Nat × Nat :=
  let t := fmtD w.wfmt
  let xt := fmtD w.xfmt
  let (g, fg) := dotRow t xt w.actl.daz w.actl.daz gr x w.rowsM w.batch j
  let (u, fu) := dotRow t xt w.actl.daz w.actl.daz ur x w.rowsM w.batch j
  let (p, fp) := mul32 (activate 2 g) u
  let (r, fr) := putVal (fmtD w.bfmt) w.actl (srBits w.seed 1 (i * w.batch + j)) p
  (r, fg ||| fu ||| fp ||| fr)

/-- A slice of MOEFFN that ends without a result because an input of every granule has failed. -/
def State.endSlice (s : State) (key c : Nat) : State :=
  ((s.unhold key c).onWb key fun w => { w with slices := setBit w.slices (c - 65536), chunks := w.chunks.upd c fun k => { k with bits := 1 } }).closeChunk key c

/-- The rows of a slice are read, and its part of h is made once every line has come (R172). -/
def State.makeSlice (s : State) (key c cl i : Nat) : State :=
  let w := s.wb key
  let sr := sliceRows w.colsK w.nparts w.batch
  let qs := (upto (min w.colsK ((i + 1) * sr) - i * sr)).map fun k => i * sr + k
  let (gr, s) := s.readRows key cl c w.matG qs
  let (ur, s) := s.readRows key cl c w.matU qs
  let rds := (gr.map (·.2)).flatten ++ (ur.map (·.2)).flatten
  match stopOf rds with
  | some k =>
    if k.fail != 0 then ((s.failAll key k.fail).dropLines key cl).endSlice key c
    else (match k.hold with | some h => s.holdGranule key c h | none => s.unhold key c)
  | none =>
    let s := (s.dropLines key cl).countMacs cl w.wfmt w.xfmt (2 * qs.length * w.rowsM * w.batch)
    let els := (qs.map fun q => (upto w.batch).map fun j => hElem w (rowAt gr q) (rowAt ur q) (w.pad cl).x q j).flatten
    let hs := (fmtD w.bfmt).size
    let (bs, fl) := packElems hs els
    ((s.unhold key c).sliceDone key i (i * sr * w.batch * hs) bs fl (rds.any (·.poisoned)) (rds.any (·.degraded))).closeChunk key c

/-- A slice of MOEFFN's phase 1 on a participant: rows [i0, i1) of g, u and h (R172). -/
def State.runSlice (s : State) (key c : Nat) : State :=
  if !s.runs key c then s else
  let i := c - 65536
  let cl := ((s.wb key).chunks.getD c {}).cluster
  if (s.wb key).slices.testBit i then s else
  let (have_, s) := s.loadBatch key cl
  if (s.wb key).hFail != 0 then s.endSlice key c
  else if !have_ then s else s.makeSlice key c cl i

/-- Every participant holds h once the exchange is done (R172). -/
def Waybill.exchange (w : Waybill) : Waybill :=
  { w with exchanged := true, scratch := w.parts.foldl (fun (t : Tab Scratch) c => t.put c { t.getD c {} with h := some w.h }) w.scratch }

/-- A cluster that runs a row block without h copies it from the lowest-numbered participant that holds it (R175). -/
def Waybill.copyH (w : Waybill) (cl : Nat) : Waybill :=
  if (w.pad cl).h.isSome then w
  else { w with scratch := w.scratch.upd cl fun c => { c with h := w.scratch.rows.findSome? (·.2.h) } }

/-- A granule of MOEFFN's phase 2 (R167, R168). -/
def kernelMoe (key cl : Nat) (s : State) (g : Nat) : Calc × State :=
  let (have_, s) := s.loadBatch key cl
  let s := s.onWb key fun w => w.copyH cl
  let w := s.wb key
  if w.hFail != 0 then ({ fail := w.hFail }, s)
  else match have_ && w.exchanged, (w.pad cl).h with
  | true, some h =>
    let y := fmtD w.yfmt
    let b := w.batch
    let (lo, n, e0, e1) := outElems w y.size g
    let qs := (upto (ceilDiv e1 b - e0 / b)).map fun i => e0 / b + i
    let (rows, s) := s.readRows key cl g w.matD qs
    let one (e : Nat) : Nat × Nat :=
      let (v, f) := dotRow (fmtD w.wfmt) (fmtD w.bfmt) w.actl.daz false (rowAt rows (e / b)) h w.colsK b (e % b)
      let (v, f) := if w.pvaOp 8 == 0 then (v, f) else
        (let (z, fz) := readFloat fp32 w.actl.daz (elemBits (w.pad cl).rsc 4 (e % b))
         let (r, fr) := mul32 v z
         (r, f ||| fz ||| fr))
      let (r, fr) := putVal y w.actl (srBits w.seed 0 e) v
      (r, f ||| fr)
    let rds := (rows.map (·.2)).flatten
    s.finishMat key cl rds ((e1 - e0) * w.colsK) w.wfmt w.bfmt fun _ =>
      let (bs, fl) := packElems y.size ((upto (e1 - e0)).map fun i => one (e0 + i))
      let m := Made.of rds { bytes := sliceBytes bs (lo - w.dst - e0 * y.size) n, flags := fl }
      matCalc { m with poison := m.poison || w.hPoison } lo n w.hFlags
  | _, _ => ({ waits := true }, s)

end Sys2Proof.Machine
end

