-- ==== Sys2Proof/Machine/WorkOps.lean ====
section
/-! DEFINITION. Operations of streams, tallies and waybills (chapter 02): readiness, the fetch of a slot, the start of a waybill,
placing chunks on clusters (R124, R125, R169 to R172), the completion record (R56 to R60), and losses of clusters (R82). -/

namespace Sys2Proof.Machine

open Sys2Proof

/-! ## Tallies (R76 to R80) -/

/-- The tally is ready. -/
def Tally.ready (x : Tally) : Bool := decide (x.target ≤ x.count)

/-- Waybills that wait on a tally become ready (R78). -/
def State.wakeWaiters (s : State) (t : Nat) : State :=
  { s with work := { s.work with wbs := s.work.wbs.map fun _ w => if w.waits.isSome && w.waitTally == t then { w with waits := none, ready := true } else w } }

/-- Waybills on a tally's wait list (WAITERS). -/
def State.waiters (s : State) (t : Nat) : Nat := s.work.wbs.count fun _ w => w.waits.isSome && w.waitTally == t

/-- A tally changes: its mirror falls due, its NOTIFY is sent when it becomes ready, and its waiters wake (R77, R78, R80, R88). -/
def State.changeTally (s : State) (t : Nat) (f : Tally → Tally) : State :=
  match s.work.tallies.find t with
  | none => s
  | some x =>
    let y := f x
    let y := { y with due := y.due || (y.mirror && y.count != x.count) }
    let s := { s with work := { s.work with tallies := s.work.tallies.put t y } }
    let s := if y.ready && !x.ready then s.countLedger 0x5015 1 else s
    let s := if y.notifyOn && y.ready && !x.ready then
        s.originate { dst := y.notify, pkey := (s.guest y.gid).pkey, tc := 1, opc := 0x06, len := 1, xw := 0x02,
                      payload := padBytes 64 (leBytes 8 t ++ leBytes 8 y.count) }
      else s
    if y.ready then s.wakeWaiters t else s

/-- An amount added to COUNT, modulo 2^64. -/
def State.addTally (s : State) (t n : Nat) : State := (s.countLedger 0x5015 0).changeTally t fun x => { x with count := wrapAdd 64 x.count n }

/-- A write of one line that is published at once: true once it is in DRAM and out of the LRC (R60, R80). A lost line takes no
write. -/
def State.publishWrite (s : State) (pa gid : Nat) (bs : Bytes) : Bool × State :=
  if s.lineLost pa then (true, s)
  else if !s.wcbRoom pa then (false, s)
  else match s.hearthBlock pa bs.length true with
    | some l => (false, s.uncachedStart l .flush true)
    | none =>
      let (ch, line) := s.wcbOf (s.place pa)
      let d := (s.wcbWrite pa gid bs false).drainLine ch line
      if (d.chan ch).wcb.has line then (false, s) else (true, d.lrcPublish (pa / 64 * 64) 64)

/-! ## Sequencers and fetches (R64 to R70) -/

/-- PVA of a slot of a ring. -/
def Stream.slot (t : Stream) (i : Nat) : Nat := t.ring + 128 * (i % 2 ^ t.k)

/-- A stream changed. -/
def State.onStream (s : State) (k : Nat) (f : Stream → Stream) : State := { s with work := { s.work with streams := s.work.streams.upd k f } }

/-- A read or write address of a stream's guest translated for a fetch: its pool address, a cause, or a wait. -/
inductive Fetched where
  | at_ (pa : Nat)
  | fail (cause : Nat)
  | wait
deriving DecidableEq, Repr

/-- The stream's fetch is held on a page (R69, R206). -/
def State.holdFetch (s : State) (k gid : Nat) (h : Hold) : State :=
  s.rehold gid (s.work.streams.getD k {}).held h fun s h => s.onStream k fun t => { t with held := some h }

/-- The fetch is held no more. -/
def State.unholdFetch (s : State) (k : Nat) : State :=
  match (s.work.streams.getD k {}).held with
  | none => s
  | some h => (s.onStream k fun t => { t with held := none }).endHold h

/-- The fetch of the slot at HEAD fails: its stream enters ERROR (R69). -/
def State.fetchFail (s : State) (k status : Nat) : State := (s.unholdFetch k).streamError k status

/-- An address of the stream's guest in a window homed here with a right, translated by its sequencer (R51, R61). -/
def State.fetchAt (s : State) (k pva len : Nat) (write : Bool) : Fetched × State :=
  let t := s.work.streams.getD k {}
  match (s.guest t.gid).windowAt pva with
  | none => (.fail 0x05, s)
  | some x =>
    if !s.homed x then (.fail 0x05, s)
    else if !x.holds (pva + len - 1) then (.fail 0x04, s)
    else if !(if write then x.write else x.read) then (.fail 0x07, s)
    else
      let (o, s) := s.porterXl t.seqr t.gid pva write
      match o with
      | .stop e => (.fail e, s)
      | .miss => (.wait, s)
      | .hold l p => (.wait, s.holdFetch k t.gid { level := l, page := p, write := write })
      | .zero l p pa => if write then (.wait, s.startFill t.gid l p pa) else (.at_ zeroMark, s)
      | .ok pa => if (s.filling pa).isSome then (.wait, s) else (.at_ pa, s)

/-- The 128 bytes of a slot from the owning WCB or DRAM, never the LRC: bytes, poison, or a wait (R64). -/
def State.slotBytes (s : State) (gid pa : Nat) : Rd × State :=
  if zeroMark ≤ pa then (Rd.const (zeroBytes 128), s) else s.porterLines gid pa 128 false

/-- A waybill of a stream that lost its sequencer's die is fetched again from its ring slot before it goes on (R82). While the slot cannot be
read it waits. -/
def State.refetchWb (s : State) (key : Nat) : State :=
  let w := s.wb key
  if !w.refetch then s else
  let t := s.work.streams.getD w.stream {}
  match s.porterXl t.seqr t.gid (t.slot w.slot) false with
  | (.ok pa, s) =>
    let (r, s) := s.slotBytes t.gid pa
    if r.waits || r.poisoned then s else s.onWb key fun w => { w with w := wordsOf r.bytes, refetch := false }
  | (_, s) => s

/-- What is done with a waybill whose words its sequencer has (R82). -/
def State.withWords (s : State) (key : Nat) (f : State → State) : State :=
  let s := s.refetchWb key
  if (s.wb key).refetch then s else f s

/-- Waybills running on a sequencer; ordered contributions that wait for their turn hold no slot (R68, R148). -/
def State.seqLoad (s : State) (q : Nat) : Nat :=
  s.work.wbs.count fun _ w => w.st == 1 && !w.turn && (s.work.streams.getD w.stream {}).seqr == q

/-- Waybill a was accepted before b, in one stream. -/
def Waybill.earlier (a b : Waybill) : Bool := a.stream == b.stream && a.seq != b.seq && decide (wrapSub 32 b.seq a.seq < 2 ^ 31)

/-- FENCE and WAIT let the waybill start (R54, R71, R78). DESIGN CHOICE (assumption 34): one of group 0x7 may start while an earlier FENCE
waybill has not completed, as R54 says, against R71. -/
def State.mayStart (s : State) (w : Waybill) : Bool :=
  w.st == 0 && w.waits.isNone &&
    (!w.fence || !(s.work.wbs.rows.any fun r => r.2.earlier w)) &&
    (w.group == 7 || !(s.work.wbs.rows.any fun r => r.2.fence && r.2.earlier w))

/-! ## Start (R55) -/

/-- Status decided early; the waybill waits for its record. -/
def State.endEarly (s : State) (key status : Nat) : State := s.onWb key fun w => { w with early := some status, st := 2, waits := none }

/-- KiB of staging that an accumulator takes (R144). -/
def stageKib (len : Nat) : Nat := roundUp len 65536 / 1024

/-- KiB of staging on the device. -/
def stageTotal : Nat := 131072

/-- Staging taken. -/
def State.takeStage (s : State) (kib : Nat) : State := { s with work := { s.work with stageUsed := s.work.stageUsed + kib } }

/-- Staging given back; it is overwritten with zeros (R400). -/
def State.freeStage (s : State) (kib : Nat) : State := { s with work := { s.work with stageUsed := s.work.stageUsed - kib } }

/-- A context changed. -/
def State.onCtx (s : State) (r : Nat) (f : RedCtx → RedCtx) : State := { s with work := { s.work with ctxs := s.work.ctxs.upd r f } }

/-- The write-back of a context is held no more on a page. -/
def State.unholdCtx (s : State) (r : Nat) : State :=
  match (s.work.ctxs.getD r {}).hold with
  | none => s
  | some h => (s.onCtx r fun x => { x with hold := none }).endHold h

/-- The write-back of a context goes on to the next granule (R149). -/
def State.nextBack (s : State) (r : Nat) : State := (s.unholdCtx r).onCtx r fun x => { x with wrote := x.wrote + 1 }

/-- RED_OPEN takes its staging, or waits for it (R144). -/
def State.stageOpen (s : State) (key : Nat) : State :=
  let w := s.wb key
  let kib := stageKib w.len
  if s.work.stageUsed + kib ≤ stageTotal then
    ((s.takeStage kib).onCtx w.rctx fun x => { x with kib := kib, stage := zeroBytes w.len }).onWb key fun w => { w with openWait := none }
  else
    let now := s.now
    s.onWb key fun w => { w with openWait := w.openWait <|> some now }

/-- The turn of an ordered contribution has come: every lower index has completed (R113, R148). -/
def RedCtx.turnOf (x : RedCtx) (i : Nat) : Bool := (upto i).all fun j => x.doneIdx.contains j

/-- Granules or elements in all, per chunk, and rows per chunk (R124, R171). -/
def State.division (s : State) (w : Waybill) : Nat × Nat × Nat :=
  match w.group with
  | 1 => (w.gcount, 16, 0)
  | 2 => (w.len / w.atomSize, 64, 0)
  | 5 =>
    let y := (fmtD w.yfmt).size
    let acc := if w.opc == 0x50 then 4194304 - 524288 - 4096 - w.colsK * w.batch * (fmtD w.xfmt).size else 1048576
    let per := if w.opc == 0x50 && w.bfmt != 0xFF then 4 * w.batch + 4 else 4 * w.batch
    let rb := rowBlock w.rowsM (s.matSplit w) w.batch y acc per
    (granules w.dst w.len, rb * w.batch * y / 256, rb)
  | 6 => (0, 4096, 0)
  | 7 => (0, 4096, 0)
  | _ => if w.opc == 0x32 then (1, 1, 0) else if w.opc == 0x30 && !w.redInit && !w.redStaged then (0, 4096, 0) else (granules w.dst w.len, 4096, 0)

/-- Granules or elements of a waybill that never starts (R57, R79); an operation that is not defined has none. -/
def State.granulesOf (s : State) (w : Waybill) : Nat := if definedOpcs.contains w.opc then (s.division w).1 else 0

/-- A waybill that ends for want of time before any granule was dispatched, with each of them marked (R13, R78, R144). -/
def State.endWhole (s : State) (key status : Nat) : State :=
  let n := s.granulesOf (s.wb key)
  (s.onWb key fun w => { w with whole := true, total := n }).endEarly key status

/-- A waybill that CANCEL marks: it never starts, or dispatches no further chunk and ends with its running ones (R79). -/
def Waybill.cancel (w : Waybill) : Waybill :=
  let w := { w with cancelled := true, waits := none, turn := false }
  if w.st == 0 || w.group == 6 || w.group == 7 || w.ended then { w with st := 2 } else w

/-- The waybill cancelled; one that never started has every granule marked (R79). -/
def State.cancelWb (s : State) (w : Waybill) : Waybill :=
  if w.st == 0 then { w.cancel with total := s.granulesOf w } else w.cancel

/-- RED_CLOSE starts (R150): contributions of its context that have not started to apply are cancelled. Where the context has completed
before, nothing is left to do. -/
def State.startClose (s : State) (key : Nat) : State :=
  let w := s.wb key
  let waiting (x : Waybill) : Bool := x.counts && x.rctx == w.rctx && (x.turn || x.st == 0)
  if w.closed then s
  else { s with work := { s.work with wbs := s.work.wbs.map fun _ x => if waiting x then s.cancelWb x else x } }

/-- A waybill that passed R55 runs. -/
def State.run (s : State) (key : Nat) : State :=
  let w := s.wb key
  let (total, per, rows) := s.division w
  let n := if w.group == 5 then s.matSplit w else 0
  let turn := w.opc == 0x31 && w.ordered && !(s.work.ctxs.getD w.rctx {}).turnOf w.cidx
  let s := s.onWb key fun w => { w with st := 1, total := total, perChunk := per, rows := rows, nparts := n, turn := turn }
  if w.opc == 0x30 && w.redStaged then s.stageOpen key else if w.opc == 0x32 then s.startClose key else s

/-- A contribution that passes the checks of R145: its context is open, of its guest, and takes it. -/
def State.contribOk (s : State) (w : Waybill) : Bool :=
  w.opc == 0x31 && w.formOk && s.opcOk w && s.rulesOk w && (w.len == 0 || s.lenRulesOk w) &&
    (match s.openCtx w.rctx with | some x => x.gid == w.gid | none => false)

/-- A RED_OPEN that passed R55 has its context, which opens when it completes; a RED_CLOSE bars its context to further contributions (R144,
R150). -/
def State.takeCtx (s : State) (key : Nat) : State :=
  let w := s.wb key
  if w.opc == 0x30 then
    let x : RedCtx := { gid := w.gid, dst := w.dst, len := w.len, afmt := w.afmt, rop := w.rop, ordered := w.ordered, staged := w.redStaged,
                        init := w.redInit, ncontrib := w.ncontrib, doneTally := w.doneTally, opener := key }
    { s with work := { s.work with ctxs := s.work.ctxs.put w.rctx x } }
  else if w.opc == 0x32 then s.onCtx w.rctx fun x => { x with closing := some key }
  else s

/-- The checks of R55 on an accepted waybill (R143 to R145, R386, R396). -/
def State.checkWb (s : State) (key : Nat) : State :=
  let w := s.wb key
  let fatal := (s.guest w.gid).fatal
  let e := if fatal == 2 then some 0x0D else if fatal != 0 then some 0x07 else s.check55 w
  let counts := s.contribOk w
  let noTally := s.fails4 w || s.publishFails w
  let s := s.onWb key fun w => { w with checked := true, counts := counts, noTally := noTally }
  let s := if counts then s.onCtx w.rctx fun x => { x with seen := x.seen ++ [w.cidx] } else s
  match e with
  | some e => s.endEarly key e
  | none => if s.keyUnwraps w.gid then s.takeCtx key else (s.keyFail w.gid).endEarly key 0x0D

/-- A PUBLISH that waited on FENCE or WAIT is accepted, and so checked, when it starts (R65). -/
def State.checkLate (s : State) (key : Nat) : State :=
  let w := s.wb key
  let d := (s.guest w.gid).dir
  let de := s.pool.dirEpoch
  if w.checked then s else (s.onWb key fun w => { w with dir := d, dirEpoch := de }).checkWb key

/-- A waybill whose FENCE and WAIT conditions hold starts, unless its guest has become fatal (R55, R386). -/
def State.startWb (s : State) (key : Nat) : State :=
  let s := s.checkLate key
  let w := s.wb key
  let fatal := (s.guest w.gid).fatal
  if w.st != 0 then s
  else if fatal != 0 then s.endEarly key (if fatal == 2 then 0x0D else 0x07)
  else s.run key

/-! ## Clusters (R124, R125, R169, R486, R487) -/

/-- Chunk slots of a cluster in use. -/
def State.slotsUsed (s : State) (cl : Nat) : Nat :=
  s.work.wbs.rows.foldl (fun n w => n + (w.2.chunks.count fun _ c => c.st == 1 && c.cluster == cl) * (if w.2.group == 5 then 4 else 1)) 0

/-- Guest whose chunks a cluster runs. -/
def State.clusterGuest (s : State) (cl : Nat) : Option Nat :=
  (s.work.wbs.rows.find? fun w => w.2.chunks.rows.any fun c => c.2.st == 1 && c.2.cluster == cl).map fun w => w.2.gid

/-- The cluster is there and answers. -/
def State.clusterUp (s : State) (cl : Nat) : Bool := s.hasDie (diePD (cl / 8)) && !(s.cluster cl).lost

/-- The cluster's die is too hot for its clusters to take or run chunks (R507). -/
def State.clusterHot (s : State) (cl : Nat) : Bool := s.power.paused.testBit (diePD (cl / 8))

/-- Idle Open clusters. -/
def State.idleOpen (s : State) (cl : Nat) : Bool := s.clusterUp cl && (s.cluster cl).pw == 0 && s.slotsUsed cl == 0

/-- The idle Open cluster with the fewest mesh hops, lowest number on a tie. -/
def State.nearest (s : State) (q : Nat) (ok : Nat → Bool) : Option Nat :=
  ((upto 128).filter fun c => s.idleOpen c && !s.clusterHot c && ok c).foldl (fun (b : Option Nat) c => match b with
    | some x => if Config.meshHops q c < Config.meshHops q x then some c else b
    | none => some c) none

/-- pick_cluster (R125) among the clusters that satisfy ok, for a chunk that takes a number of slots. -/
def State.pickCluster (s : State) (gid q need : Nat) (ok : Nat → Bool) : Option Nat :=
  let low (p : Nat → Bool) : Option Nat := (upto 128).find? fun c => ok c && s.clusterUp c && !s.clusterHot c && p c
  (low fun c => s.clusterGuest c == some gid && decide (s.slotsUsed c + need ≤ 4)) <|>
    (low fun c => s.idleOpen c && (s.cluster c).lastGid == some gid) <|>
    (low fun c => s.idleOpen c && c / 8 == q / 8) <|>
    (s.nearest q ok) <|>
    (low fun c => ((s.cluster c).pw == 1 || (s.cluster c).pw == 2) && s.slotsUsed c == 0)

/-- Clusters that run chunks of a waybill. -/
def Waybill.clusters (w : Waybill) : List Nat := ((w.chunks.rows.filter fun c => c.2.st == 1).map fun c => c.2.cluster).dedup

/-- The cluster for a waybill's next chunk: within its spread, and for a matrix waybill a free participant first (R124, R158, R169, R171). -/
def State.chooseCluster (s : State) (w : Waybill) : Option Nat :=
  let q := (s.work.streams.getD w.stream {}).seqr
  let spread := if w.group == 1 || w.group == 2 then 1 else s.reg Obj.chunkSpreadMax
  let used := w.clusters.length
  if w.group == 5 then
    if min w.nparts spread ≤ used then none
    else match w.parts.find? fun c => s.clusterUp c && !s.clusterHot c && s.slotsUsed c == 0 with
    | some c => some c
    | none => if w.parts.length < w.nparts then s.pickCluster w.gid q 4 fun c => !w.parts.contains c else none
  else s.pickCluster w.gid q 1 fun c => decide (used < spread) || (used == spread && w.clusters.contains c)

/-- The cluster for a chunk whose cluster was lost: by pick_cluster, within the spread, and for a matrix waybill among its participants while it
has them all (R82, R175). -/
def State.rechooseCluster (s : State) (w : Waybill) : Option Nat :=
  let q := (s.work.streams.getD w.stream {}).seqr
  if w.group == 5 then
    if min w.nparts (s.reg Obj.chunkSpreadMax) ≤ w.clusters.length then none
    else s.pickCluster w.gid q 4 fun c => w.parts.contains c || decide (w.parts.length < w.nparts)
  else s.chooseCluster w

/-- Slices of MOEFFN's phase 1. -/
def Waybill.sliceCount (w : Waybill) : Nat := ceilDiv w.colsK (sliceRows w.colsK w.nparts w.batch)

/-- Number of the chunk to dispatch next: slices before row blocks (R171, R172). -/
def Waybill.nextChunk (w : Waybill) : Option Nat :=
  let blocks := (w.chunks.rows.filter fun c => decide (c.1 < 65536)).length
  let slices := w.chunks.size - blocks
  if w.opc == 0x51 && !w.exchanged then (if slices < w.sliceCount then some (65536 + slices) else none)
  else if blocks * w.perChunk < w.total then some blocks else none

/-- A cluster that takes a chunk wakes if it sleeps, and is cleared first for a new guest (R125, R399, R400, R486). -/
def State.placeChunk (s : State) (key c cl : Nat) (k : Chunk) : State :=
  let gid := (s.wb key).gid
  let x := s.cluster cl
  let clear := x.lastGid != some gid
  let s := s.onWb key fun w => { w with chunks := w.chunks.put c { k with cluster := cl, st := 1, clearing := clear },
                                        parts := if w.group == 5 && !w.parts.contains cl then w.parts ++ [cl] else w.parts }
  let s := if x.pw == 1 || x.pw == 2 then s.countCluster cl 0x4016 (x.pw - 1) else s
  let s := if clear && !x.clearing then s.countCluster cl 0x4015 0 else s
  s.onCluster cl fun x => { x with pw := if x.pw == 1 then 3 else if x.pw == 2 then 4 else x.pw, clearing := x.clearing || clear }

/-- A waybill that may dispatch a chunk. -/
def Waybill.dispatches (w : Waybill) : Bool := w.st == 1 && !w.cancelled && !w.turn && w.openWait.isNone && w.early.isNone

/-- The next chunk of a waybill goes to a cluster (R124, R125, R85). -/
def State.dispatch (s : State) (key : Nat) : State :=
  let w := s.wb key
  if !w.dispatches then s else
  if !(s.guest w.gid).resident then s.swapWb w.gid key else
  match w.nextChunk, s.chooseCluster w with
  | some c, some cl =>
    if 8192 ≤ s.chunkEntries && (c ≤ 65536) then s else
    let k : Chunk := if 65536 ≤ c then { count := 1 } else { first := c * w.perChunk, count := min w.perChunk (w.total - c * w.perChunk) }
    (((s.touchGuest w.gid).placeChunk key c cl k).countCluster cl 0x4011 0).enterQ qidChunk (key * 2 ^ 20 + c)
  | _, _ => s

/-! ## Losses and re-dispatch (R82, R83, R146, R175) -/

/-- Requests of a chunk's granules to other devices are given up with its cluster. -/
def State.dropOwn (s : State) (key c : Nat) : State :=
  { s with fabric := { s.fabric with own := s.fabric.own.filter fun o => match o.kind with
      | .remoteWrite b d _ _ => !(b == key && d == c)
      | .deliver b d _ => !(b == key && d == c)
      | _ => true } }

/-- A chunk whose cluster is lost: writes whose test-and-set is in flight stay, the rest is gone. -/
def Chunk.lose (k : Chunk) : Chunk :=
  { k with st := 2, clearing := false, held := {}, old := k.old ++ ((k.held.rows.filter fun h => h.2.waiting == 0).map fun h => (k.cluster, h.1, h.2)) }

/-- A lost cluster is no participant any more. Where the whole of h, or before the exchange every slice done, went with the last that had it,
phase 1 is to run again (R175). -/
def Waybill.loseHolder (w : Waybill) (cl : Nat) : Waybill :=
  let w := { w with parts := w.parts.filter (· != cl), scratch := w.scratch.del cl }
  let gone := if w.exchanged then !(w.scratch.rows.any fun x => x.2.h.isSome) else w.parts.isEmpty && w.slices != 0
  if w.opc == 0x51 && w.st == 1 && gone then
    { w with exchanged := false, slices := 0, h := [],
             chunks := w.chunks.map fun c k => if 65536 ≤ c then { k with st := 2, bits := 0 } else k }
  else w

/-- Locks and holds of a lost cluster's granules free, but for the locks of those whose test-and-set is in flight (R146). -/
def State.dropLocks (s : State) (key : Nat) (k : Chunk) : State :=
  (upto k.count).foldl (fun (s : State) i =>
    let g := k.first + i
    if k.held.has g then s else ((s.unhold key g).unlockGranule key g).uncachedFree (Grant.ofGranule key g)) s

/-- One chunk of a lost cluster. -/
def State.loseChunk (s : State) (key c : Nat) (k : Chunk) : State :=
  let s := s.unhold key (batchItem k.cluster)
  let s := if 65536 ≤ c then s.unhold key c else s.dropLocks key k
  ((s.dropOwn key c).loseSlots key c).onChunk key c Chunk.lose

/-- The lowest-numbered clusters not lost are Open, as many as CLUSTER_OPEN_MIN says (R487). -/
def State.openMin (s : State) : State :=
  let cs := ((upto 128).filter fun c => s.clusterUp c).take (s.reg Obj.clusterOpenMin)
  cs.foldl (fun (s : State) c => s.onCluster c fun x => if x.pw == 1 || x.pw == 2 then { x with pw := 0, idle := s.now } else x) s

/-- A cluster is lost: its chunks wait for another (R82), and CLUSTER_OPEN_MIN others stay Open (R487). -/
def State.loseCluster (s : State) (cl : Nat) : State :=
  let hit := (s.work.wbs.rows.map fun w => (w.2.chunks.rows.filter fun c => c.2.st == 1 && c.2.cluster == cl).map fun c => (w.1, c.1, c.2)).flatten
  let s := if hit.isEmpty then s else s.recovery
  let s := hit.foldl (fun (s : State) x => s.loseChunk x.1 x.2.1 x.2.2) s
  let s := { s with work := { s.work with wbs := s.work.wbs.map fun _ w => w.loseHolder cl },
                    trans := { s.trans with tlbs := s.trans.tlbs.del cl } }
  ((s.onCluster cl fun x => { x with lost := true, lastGid := none, clearing := false, pw := 0 }).log 0x11 (diePD (cl / 8)) cl hit.length).openMin

/-- Bits set among the first n. -/
def bitCount (m n : Nat) : Nat := ((upto n).filter fun i => m.testBit i).length

/-- A lost chunk goes to another cluster, or past the limit its uncommitted granules fail (R82, R83, R175). -/
def State.redispatch (s : State) (key c : Nat) : State :=
  match (s.wb key).chunks.find c with
  | none => s
  | some k =>
    if k.st != 2 then s else
    let w := s.wb key
    let rest := ((upto k.count).filter fun i => !k.bits.testBit i && !w.marks.has (k.first + i)).map fun i => k.first + i
    if w.cancelled then
      let s := s.onChunk key c fun k => { k with st := 3 }
      if (s.wb key).ended then s.onWb key fun w => { w with st := 2 } else s
    else if s.reg Obj.redispatchLimit ≤ k.redispatched then
      (if 65536 ≤ c then (s.failAll key 0x01).endSlice key c else rest.foldl (fun (s : State) g => s.failGranule key c g 0x01) s)
    else if w.opc == 0x51 && !w.exchanged && decide (c < 65536) then s
    else if !(s.guest w.gid).resident then s.swapWb w.gid key
    else match s.rechooseCluster w with
      | none => s
      | some cl =>
        let s := s.onWb key fun w => { w with redispatch := satInc 8 w.redispatch }
        let s := s.placeChunk key c cl { k with redispatched := k.redispatched + 1 }
        (s.countCluster cl 0x4011 2).countN (diePD (cl / 8)) (cl % 8) 0x4012 2 (bitCount k.bits k.count)

/-! ## Commits (R81, R115) -/

/-- Staging written by a granule. A line that it writes whole is poisoned or sound as in DRAM; one written in part keeps its mark, but for the
start value, which brings its own (R122, R147). -/
def State.putStage (s : State) (r : Nat) (outs : List OutRange) : State :=
  outs.foldl (fun (s : State) o => if o.kind == 1 then
    s.onCtx r fun x =>
      let line := (x.dst + o.pa) / 64
      let bad := if o.poison && (o.bytes.length == 64 || !x.open_) then (line :: x.bad).dedup
        else if o.bytes.length == 64 then x.bad.filter (· != line) else x.bad
      { x with stage := putAt x.stage o.pa o.bytes, bad := bad }
    else s) s

/-- The first hearth line of a write that must be recalled again before it commits. -/
def State.outsBlocked (s : State) (key g : Nat) (outs : List OutRange) : Option Nat :=
  outs.findSome? fun o => if o.kind == 0 then s.hearthBlock o.pa o.bytes.length true (Grant.ofGranule key g) else none

/-! Bytes of an output that the manual leaves open (R110) -/

/-- Chunk that holds a granule or element. -/
def Waybill.chunkOf (w : Waybill) (g : Nat) : Option (Nat × Chunk) :=
  w.chunks.rows.find? fun c => decide (c.1 < 65536) && decide (c.2.first ≤ g) && decide (g < c.2.first + c.2.count)

/-- PVAs at which a guest's table maps a pool address. -/
def State.pvasOf (s : State) (gid pa : Nat) : List Nat :=
  s.trans.leaves.filterMap fun l =>
    if l.gid == gid && !l.nr && decide (l.pa ≤ pa) && decide (pa < l.pa + levelSpan l.level) then some (l.pva + (pa - l.pa)) else none

/-- Operations whose input and output extents must lie apart (R121, R161). -/
def apartOps : List Nat := [0x00, 0x01, 0x03, 0x31, 0x33, 0x40, 0x50, 0x51]

/-- A pool address that an input extent and an output extent of a waybill reach at two PVAs (R121, R161). -/
def State.aliased (s : State) (w : Waybill) (pa : Nat) : Bool :=
  let qs := s.pvasOf w.gid pa
  let bs := s.buffers w
  let holds (b : Buf) (q : Nat) : Bool := decide (b.pva ≤ q) && decide (q < b.pva + b.len)
  apartOps.contains w.opc && qs.any fun q => (bs.any fun b => b.need.read && holds b q) &&
    qs.any fun p => p != q && bs.any fun b => b.need.write && holds b p

/-- Pool address of a byte of an output range; a byte in staging goes where its page is mapped. -/
def State.outAt (s : State) (w : Waybill) (o : OutRange) (j : Nat) : Option Nat :=
  if o.kind == 0 then some (o.pa + j)
  else
    let pva := (s.work.ctxs.getD w.rctx {}).dst + o.pa + j
    (s.leafAt w.gid pva).map fun l => l.pa + (pva - l.pva)

/-- An output range, its bytes free where they alias an input (R121, R161). -/
def State.openBytes (s : State) (w : Waybill) (o : OutRange) : OutRange × State :=
  let isOpen (j : Nat) : Bool := match s.outAt w o j with | some a => s.aliased w a | none => false
  if !o.poison && (upto o.bytes.length).any isOpen then
    ({ o with bytes := o.bytes.zipIdx.map fun x => if isOpen x.2 then Config.freeByte (s.freeCount + x.2) else x.1 }, s.useFree o.bytes.length)
  else (o, s)

/-- A byte that another committed element of the waybill has written. -/
def Waybill.scattered (w : Waybill) (g p : Nat) : Bool :=
  (upto w.gcount).any fun i =>
    i != g && (match w.chunkOf i with | some (_, k) => k.bits.testBit (i - k.first) | none => false) &&
      (w.marks.getD i 0 == 0 || w.marks.getD i 0 == 2) &&
      decide (w.dst + w.idx i * w.stride ≤ p) && decide (p < w.dst + w.idx i * w.stride + w.len)

/-- A range of a SCATTER's element that begins at an address: of a byte that another element has written either value may stay (R153). -/
def State.scatterOut (s : State) (w : Waybill) (g pva : Nat) (o : OutRange) : List OutRange × State :=
  if (upto o.bytes.length).any fun j => w.scattered g (pva + j) then
    ((o.bytes.zipIdx.filter fun x => !(w.scattered g (pva + x.2) && Config.freeBool (s.freeCount + x.2))).map fun x =>
      { o with pa := o.pa + x.2, bytes := [x.1] }, s.useFree o.bytes.length)
  else ([o], s)

/-- Ranges with how many bytes come before each. -/
def withOffsets : List OutRange → Nat → List (Nat × OutRange)
  | [], _ => []
  | o :: os, n => (n, o) :: withOffsets os (n + o.bytes.length)

/-- The ranges of a SCATTER's element one after the other; past its LEN bytes comes its record. -/
def State.scatterOuts (s : State) (w : Waybill) (g : Nat) (outs : List OutRange) : List OutRange × State :=
  (withOffsets outs 0).foldl (fun (b : List OutRange × State) o =>
    if o.1 < w.len then
      let x := b.2.scatterOut w g (w.dst + w.idx g * w.stride + o.1) o.2
      (b.1 ++ x.1, x.2)
    else (b.1 ++ [o.2], b.2)) ([], s)

/-- What a granule or element stores, with the bytes that R110 excepts open. -/
def State.openOuts (s : State) (w : Waybill) (g : Nat) (h : Held) : List OutRange × State :=
  let r := h.outs.foldl (fun (b : List OutRange × State) o => let x := b.2.openBytes w o; (b.1 ++ [x.1], x.2)) ([], s)
  let here := match w.windowAt (w.dst + w.idx g * w.stride) with | some x => s.homed x | none => false
  if w.opc == 0x11 && h.fail == 0 && here then r.2.scatterOuts w g r.1 else r

/-- A granule's write is acknowledged: it goes on to DRAM, its flags count, and a failed or poisoned one is marked (R81 step 3). -/
def State.commitHeld (s : State) (key c g : Nat) (h : Held) : State :=
  let w := s.wb key
  let cl := (w.chunks.getD c {}).cluster
  let (outs, s) := s.openOuts w g h
  let s := (s.putOuts w.gid (outs.filter fun o => o.kind == 0)).putStage w.rctx outs
  let s := s.onWb key fun w =>
    { w with flags := w.flags ||| h.flags, degraded := w.degraded || h.degraded, committed := if h.fail == 0 then w.committed + 1 else w.committed,
             marks := if h.fail != 0 then w.marks.put g h.fail else if h.poison then w.marks.put g 0x02 else w.marks,
             chunks := w.chunks.upd c fun k => { k with bits := setBit k.bits (g - k.first), held := k.held.del g } }
  (((s.countCluster cl 0x4012 (if h.fail != 0 then 3 else 0)).unlockGranule key g).uncachedFree (Grant.ofGranule key g)).closeChunk key c

/-- A duplicate is withdrawn before it reaches DRAM (R81 step 4). -/
def State.withdraw (s : State) (key g cl : Nat) (h : Held) : State :=
  let s := s.countCluster cl 0x4012 1
  let s := match h.outs.find? fun o => o.kind == 0 with
    | some o => s.countChan (s.wcbOf (s.place o.pa)).1 0x3014 2
    | none => s
  (s.unlockGranule key g).uncachedFree (Grant.ofGranule key g)

/-- The Ledger's test-and-set of a granule's bit for the write of a cluster (R81). -/
def State.testAndSet (s : State) (key g cl : Nat) : State :=
  match (s.wb key).chunkOf g with
  | none => s
  | some (c, k) =>
    let late := k.old.find? fun x => x.1 == cl && x.2.1 == g
    let h := match late with | some x => some x.2.2 | none => if k.cluster == cl then k.held.find g else none
    match h with
    | none => s
    | some h =>
      if h.waiting != 0 then s else
      let settle (kind : Nat) (s : State) : State := if late.isSome then s else s.settleGranule key c g cl kind
      let drop (s : State) : State := s.onChunk key c fun k =>
        if late.isSome then { k with old := k.old.filter fun x => !(x.1 == cl && x.2.1 == g) } else { k with held := k.held.del g }
      if k.bits.testBit (g - k.first) then (settle 1 (drop s)).withdraw key g cl h
      else if !s.outsRoom (h.outs.filter fun o => o.kind == 0) then s
      else match s.outsBlocked key g h.outs with
        | some l => s.uncachedStart l (.porter key g true false) true
        | none => (settle 0 (drop s)).commitHeld key c g h

/-! ## Completion (R56 to R60, R84, R116, R117) -/

/-- Granules or elements neither committed nor marked. -/
def Waybill.uncommitted (w : Waybill) : List Nat :=
  (upto w.total).filter fun g => !w.marks.has g && !(match w.chunkOf g with | some (_, k) => k.bits.testBit (g - k.first) | none => false)

/-- Causes that R57 names in place of PARTIAL. -/
def namedCauses : List Nat := [0x04, 0x05, 0x06, 0x07, 0x0C, 0x0D]

/-- Status of a completed waybill (R56, R57, R116). -/
def Waybill.status (w : Waybill) (mask : Nat) : Nat :=
  match w.early with
  | some e => e
  | none =>
    let failed := w.marks.rows.filter fun m => m.2 != 0x02
    if w.cancelled then 0x03
    else if !failed.isEmpty then
      let c := (failed.headD (0, 0)).2
      if w.committed == 0 && failed.all (fun m => m.2 == c) && namedCauses.contains c then c else 0x01
    else if w.marks.rows.any (fun m => m.2 == 0x02) then 0x02
    else if w.degraded then 0x0B
    else if w.flags &&& mask != 0 then 0x08
    else 0

/-- Marked granules of the record. -/
def Waybill.marked (w : Waybill) : List Nat :=
  if w.early.isSome && !w.whole then [] else (upto w.total).filter fun g => w.marks.has g || ((w.cancelled || w.whole) && w.uncommitted.contains g)

/-- The 32-byte completion record (Table 2.6). DESIGN CHOICE (assumption 32): the marks of far atomics are element indices, reported with
MASK_KIND 0 and MASK_BASE the lowest. -/
def Waybill.record (w : Waybill) (amask : Nat) : Bytes :=
  let kind := w.group == 1
  let ms := w.marked
  let base := if kind then 0 else ms.headD 0
  let mask := if w.opc == 0x64 || w.opc == 0x71 then w.mask else (ms.filter fun g => decide (g < base + 64)).foldl (fun m g => setBit m (g - base)) 0
  let ovf := ms.any fun g => decide (base + 64 ≤ g)
  leBytes 8 (w.status amask * 2 ^ 56 + w.opc * 2 ^ 48 + (w.flags % 2 ^ 16) * 2 ^ 32 + w.wid) ++ leBytes 8 mask ++
    leBytes 8 ((base % 2 ^ 25) * 2 ^ 39 + (ms.length % 2 ^ 25) * 2 ^ 14 + b2n kind * 2 + b2n ovf) ++
    leBytes 8 (w.seq * 2 ^ 32 + min 255 w.redispatch * 2 ^ 24 + 1)

/-- What the completion of a reduction waybill does to its context: a contribution counts, a RED_OPEN opens it or gives it up, and a RED_CLOSE
that did not run bars it no more (R144, R145, R148, R150). -/
def State.leaveCtx (s : State) (w : Waybill) : State :=
  let x := s.work.ctxs.getD w.rctx {}
  if w.counts then
    State.freeStage (s.onCtx w.rctx fun x => { x with counted := x.counted + 1, doneIdx := x.doneIdx ++ [w.cidx], prefetched := x.prefetched - w.staged }) w.staged
  else if w.opc == 0x30 && s.work.ctxs.has w.rctx && x.opener == w.key && !x.open_ then
    if w.early.isNone && !w.cancelled then s.onCtx w.rctx fun x => { x with open_ := true }
    else State.freeStage { s with work := { s.work with ctxs := s.work.ctxs.del w.rctx } } x.kib
  else if w.opc == 0x32 && x.closing == some w.key then s.onCtx w.rctx fun x => { x with closing := none }
  else s

/-- The waybill is over and its record visible: tally, NOTIFY copy, flags seen (R60, R117). -/
def State.finishWb (s : State) (w : Waybill) (rcd : Bytes) : State :=
  let s := s.leaveCtx w
  let s := { s with work := { s.work with wbs := s.work.wbs.del w.key,
                                          locks := s.work.locks.filter fun l => !(match l.holder with | some (k, _) => k == w.key | none => false) } }
  let s := s.setReg Obj.arithFlagsSeen (s.reg Obj.arithFlagsSeen ||| (w.flags % 2 ^ 16))
  let s := if w.tally == 0xFFFF || w.noTally then s else s.addTally w.tally w.tallyAdd
  let t := s.work.streams.getD w.stream {}
  let s := if w.notify then
      s.originate { dst := t.notify, pkey := (s.guest w.gid).pkey, tc := 1, opc := 0x06, len := 1, xw := 0x01, payload := padBytes 64 rcd }
    else s
  s.countCluster t.seqr 0x4020 1

/-- The record is written as one write and published, then the rest of R60 follows; while the record's line cannot reach DRAM the
completion waits. -/
def State.completeWb (s : State) (key : Nat) : State :=
  match s.work.wbs.find key with
  | none => s
  | some w =>
    if w.st != 2 then s else
    let rcd := w.record (s.reg Obj.arithReportMask)
    let (done, s) := s.publishWrite w.cpl w.gid rcd
    if done then s.finishWb w rcd else s

end Sys2Proof.Machine
end

