-- ==== Sys2Proof/Machine/Clocks.lean ====
section
/-! DEFINITION. What the clocks count in one AON cycle of 40 ns: cycles of the domains (Table 15.6), the cycle events of Tables 16.3 to
16.7 whose condition State shows, and the issue slots of the Porter clusters (R523, R524). -/

namespace Sys2Proof.Machine

open Sys2Proof

/-! ## Issue slots (R523, R524) -/

/-- Chunks that a cluster holds: waybill key, chunk number, chunk. -/
def State.chunksOn (s : State) (cl : Nat) : List (Nat × Nat × Chunk) :=
  (s.work.wbs.rows.map fun w => (w.2.chunks.rows.filter fun c => c.2.st == 1 && c.2.cluster == cl).map fun c => (w.1, c.1, c.2)).flatten

/-- A granule of a chunk waits for a granule lock (R146). -/
def State.awaitsLock (s : State) (key g : Nat) : Bool := s.work.locks.any fun l => l.waiters.contains (key, g)

/-- A chunk has a granule to make that nothing blocks. -/
def State.canIssue (s : State) (key : Nat) (k : Chunk) : Bool :=
  let w := s.wb key
  (upto k.count).any fun i =>
    let g := k.first + i
    !(k.bits.testBit i || k.held.has g || w.marks.has g || w.holds.has g || s.awaitsLock key g)

/-- A chunk waits for read data, a translation or a fault hold. -/
def State.memoryWait (s : State) (key c : Nat) (k : Chunk) : Bool :=
  let w := s.wb key
  (w.holds.rows.any fun h => h.1 == c || h.1 == batchItem k.cluster || (decide (k.first ≤ h.1) && decide (h.1 < k.first + k.count))) ||
    s.fabric.own.any fun o => match o.kind with | .remoteRead wb d _ => wb == key && d == c | _ => false

/-- A chunk waits for WCB space, the way to another device, or a granule lock. -/
def State.creditWait (s : State) (key : Nat) (k : Chunk) : Bool :=
  !k.held.rows.isEmpty || (upto k.count).any fun i => s.awaitsLock key (k.first + i)

/-- A participant of a MOEFFN waits for the exchange of R172. -/
def State.exchangeWait (s : State) (cl : Nat) : Bool :=
  s.work.wbs.rows.any fun r => let w := r.2
    w.opc == 0x51 && w.st == 1 && !w.exchanged && w.parts.contains cl && (upto w.sliceCount).all (w.slices.testBit ·)

/-- Kind of the slots in which a cluster that holds chunks issued nothing: the first cause that applies (R523). DESIGN CHOICE (assumption 48):
where the state shows none, it waits for read data. -/
def State.starvedKind (s : State) (cl : Nat) (ks : List (Nat × Nat × Chunk)) : Nat :=
  if ks.any fun x => s.memoryWait x.1 x.2.1 x.2.2 then 3
  else if ks.any fun x => s.creditWait x.1 x.2.2 then 4
  else if s.exchangeWait cl then 5 else 3

/-- Issued slots of a cluster that are in no kind yet. -/
def State.unsettled (s : State) (ks : List (Nat × Nat × Chunk)) : Nat :=
  (ks.map fun x => s.obs.slots.getD (x.1 * 2 ^ 20 + x.2.1) 0).sum

/-- Issue slots that a cluster may fill in 64 ENGINE cycles: half of them while its die throttles (R507). -/
def State.slotCap (s : State) (cl : Nat) : Nat := if s.power.throttled.testBit (diePD (cl / 8)) then 128 else 256

/-- Slots of an Open cluster in 64 ENGINE cycles. A chunk that can issue takes a free number of those it may fill, at most 65,536 being unsettled; the
others are starved (R523, R524; assumption 48). -/
def State.clusterSlots (s : State) (cl : Nat) : State :=
  let ks := (s.chunksOn cl).filter fun x => s.runs x.1 x.2.1
  if ks.isEmpty then s.countSlots cl (if s.exchangeWait cl then 5 else 2) 256 else
  match ks.find? fun x => s.canIssue x.1 x.2.2 with
  | some x =>
    let n := min (Config.issueSlots cl s.now % (s.slotCap cl + 1)) (65536 - s.unsettled (s.chunksOn cl))
    let n := if s.frozen then 0 else n
    let k := x.1 * 2 ^ 20 + x.2.1
    State.countSlots { s with obs := { s.obs with slots := s.obs.slots.put k (s.obs.slots.getD k 0 + n) } } cl (s.starvedKind cl ks) (256 - n)
  | none => s.countSlots cl (s.starvedKind cl ks) 256

/-- One cluster for 64 ENGINE cycles: nothing while it is Shuttered, Dark, waking or lost; clearing counts as front-starved. -/
def State.clusterCycles (s : State) (cl : Nat) : State :=
  if !s.clusterUp cl || (s.cluster cl).pw != 0 then s else
  let s := (s.countOffset cl 0 64).countN (diePD (cl / 8)) (cl % 8) 0x4001 0 64
  let s := if (s.cluster cl).clearing then s.countN (diePD (cl / 8)) (cl % 8) 0x4015 1 64 else s
  let s := if 8192 ≤ s.chunkEntries then s.countN (diePD (cl / 8)) (cl % 8) 0x4022 0 64 else s
  s.clusterSlots cl

/-! ## Other domains -/

/-- Fixed counter IK_CYCLES and event 0x1001 of an Innkeeper die: 40 cycles of its domain, stopped in STANDBY and OFF. -/
def State.ikCycles (s : State) (n : Nat) : State :=
  let st := (s.ik.dies.getD n {}).st
  if st == 0 || st == 3 then s else (s.addFixed (dieIK n) 8 40).countN (dieIK n) 0 0x1001 0 40

/-- VCs of a link whose next packet waits for credits (R253). -/
def State.creditStalled (s : State) (l : Nat) : List Nat :=
  (((s.headsOf l).filter fun e => !(s.link l).tx.hasCredits e.p).map fun e => e.p.vc).dedup

/-- Cycle events of a link: 70 cycles of its domain, stopped in DISABLED and STANDBY. -/
def State.linkCycles (s : State) (l : Nat) : State :=
  let k := s.link l
  if k.st == 0 || k.st == 8 then s else
  let s := s.countLinkN l 0x2001 0 70
  let s := if k.tx.full then s.countLinkN l 0x2015 0 70 else s
  let s := if k.rx.pausing then s.countLinkN l 0x201A 0 70 else s
  let vs := s.creditStalled l
  if vs.isEmpty then s else vs.foldl (fun (s : State) v => s.countLinkN l 0x201B v 70) (s.countLinkN l 0x201B 0xFF 70)

/-- Cycle events of a channel: cycles of DRAM, stopped in self-refresh. -/
def State.chanCycles (s : State) (ch : Nat) : State :=
  let c := s.chan ch
  if c.st == 6 then s else
  let n := if s.cellar.mode == 2 then 64 else 88
  let add (s : State) (ev sel : Nat) : State := s.countN (dieCL (ch / 2)) (ch % 2) ev sel n
  let s := add s 0x3001 0
  let s := if c.subs.any fun b => decide (128 ≤ b.rq.length) then add s 0x3013 0 else s
  let s := if c.subs.any fun b => decide (64 ≤ b.wq.length) then add s 0x3013 1 else s
  let s := if 4096 ≤ c.wcb.size then add s 0x3013 2 else s
  let s := if c.subs.any fun b => decide (64 ≤ b.retry.length) then add s 0x3013 3 else s
  let s := if c.st == 5 then add s 0x3017 3 else s
  if c.throttle != 0 then add s 0x3018 2 else s

/-- Cycle events of the Ledger dies: 48 cycles of LEDGER. -/
def State.ledgerCycles (s : State) (n : Nat) : State :=
  let s := s.countN (dieLG n) 0 0x5001 0 48
  if s.poolFree 0 == 0 then s.countN (dieLG n) 0 0x5012 1 48 else s

/-- One AON cycle: every domain counts its cycles unless its clock is stopped, marks compare the depths, and TIMEBASE advances by 40 ns
(R498, R517, R523, R528). -/
def State.aonCycle (s : State) : State :=
  let s := s.markDepths
  let s := if s.power.clocksLost || s.power.st == 2 then s else
    let s := (upto 2).foldl (fun (s : State) n => s.ikCycles n) s
    let s := (upto 32).foldl (fun (s : State) l => s.linkCycles l) s
    let s := (upto 48).foldl (fun (s : State) ch => s.chanCycles ch) s
    let s := (upto 128).foldl (fun (s : State) cl => s.clusterCycles cl) s
    (upto 6).foldl (fun (s : State) n => s.ledgerCycles n) s
  { s with power := { s.power with timebase := s.power.timebase + 40 } }

end Sys2Proof.Machine
end

