-- ==== Sys2Proof/Machine/FlashOps.lean ====
section
/-! DEFINITION. The configuration log in flash (R476 to R478): appending a record, compaction and replay. -/

namespace Sys2Proof.Machine

open Sys2Proof

/-- Bytes that a record takes (R476). -/
def FlashRec.bytes (r : FlashRec) : Nat := 64 + 16 * ceilDiv r.value.length 16

/-- Bytes used in a copy. -/
def copyUsed (c : List FlashRec) : Nat := c.foldl (fun n r => n + r.bytes) 0

/-- The active copy has less than 128 KiB free (R477). -/
def copyFull (c : List FlashRec) : Bool := decide (1048576 < copyUsed c + 131072)

/-- Records of the active copy. -/
def Dict.active (d : Dict) : List FlashRec := if d.copy == 0 then d.copy0 else d.copy1

/-- The active copy replaced. -/
def Dict.setActive (d : Dict) (c : List FlashRec) : Dict := if d.copy == 0 then { d with copy0 := c } else { d with copy1 := c }

/-- A value is persisted: one record is appended, or it waits for a compaction (R477, R478). -/
def State.persist (s : State) (key : Nat) (v : Bytes) : State :=
  let d := s.dict
  if d.flashBad then s
  else if d.compacting then { s with dict := { d with waiting := d.waiting ++ [(key, v)] } }
  else
    let c := d.active ++ [({ key := key, value := v, recno := d.recno } : FlashRec)]
    { s with dict := { d.setActive c with recno := (d.recno + 1) % 2 ^ 64, appended := satInc 32 d.appended, compacting := copyFull c } }

/-- The latest value of each key of a copy, as records numbered from n. -/
def liveRecs (c : List FlashRec) (n : Nat) : List FlashRec :=
  let live := c.foldl (fun (t : Tab FlashRec) r => t.put r.key r) {}
  live.rows.zipIdx.map fun x => { x.1.2 with recno := n + x.2 }

/-- Records of a copy before the first whose HMAC fails (R477). -/
def replayed (c : List FlashRec) : List FlashRec := c.takeWhile (·.good)

end Sys2Proof.Machine
end

