-- ==== Sys2Proof/Machine/ProtectOps.lean ====
section
/-! DEFINITION. Operations of strongroom groups and failed channels (R372 to R384): spares, rebuilds, the ladder of Table 11.5,
stale stripes and parity. -/

namespace Sys2Proof.Machine

open Sys2Proof

/-- Requests that wait for memory go on. -/
def State.resumeMem (s : State) : State := s.resume fun r => r.stage == .dram || r.stage == .wcb

/-- TRAIN_CMD's RESULT follows a command's retrain of its channel. -/
def State.trainResult (s : State) (ch cause v : Nat) : State :=
  if (cause == 4 || cause == 5) && s.reg Obj.trainCmdChannel == ch then s.setReg Obj.trainCmdResult v else s

/-- A PPR that runs on a channel ends with a result. -/
def State.pprResult (s : State) (ch v : Nat) : State :=
  if s.reg Obj.eccCmdOp == 5 && s.reg Obj.eccCmdResult == 1 && s.reg Obj.eccCmdChannel == ch then s.setReg Obj.eccCmdResult v else s

/-- Group of which the channel is a member or its rebuilding spare. -/
def State.groupOf (s : State) (ch : Nat) : Option Nat :=
  match s.memberOf ch with
  | some (g, _) => some g
  | none => (upto 5).find? fun g => match (s.group g).rebuild with | some (_, sp, _) => sp == ch | none => false

/-! ## The group map (R380) -/

/-- Channel that the map names for a member: the spare from the start of its rebuild. -/
def Group.mapped (g : Group) (m : Nat) : Nat :=
  match g.rebuild with
  | some (m', sp, _) => if m' == m then sp else g.members.getD m 0xFF
  | none => g.members.getD m 0xFF

/-- GROUP_MAP (46 bytes). -/
def State.groupMap (s : State) : Bytes :=
  BitVec.ofNat 8 s.cellar.layout ::
    ((upto 5).map fun g => (upto 9).map fun m => BitVec.ofNat 8 (if g < groupCount s.cellar.layout then (s.group g).mapped m else 0xFF)).flatten

/-- The map persisted. -/
def State.saveMap (s : State) : State := (s.setBlob Obj.groupMap s.groupMap).persist Obj.groupMap s.groupMap

/-! ## The ladder (Table 11.5) -/

/-- Step of a group by its failed members and its rebuild. -/
def Group.step (g : Group) : Nat :=
  match g.failed with
  | [] => 0
  | [_] => if g.rebuild.isSome then 1 else 2
  | _ => 3

/-- Addresses of control data in the device table region, by granule (R17, R179, R193, R216). -/
def State.controlAddrs (s : State) : List Nat :=
  let b := s.cellar.tableBase
  ((s.pool.guests.rows.filter fun r => !r.2.resident).map fun r => (upto 16).map fun i => b + r.1 * 4096 + i * 256).flatten ++
    (s.work.streams.keys.map fun k => (upto 4).map fun i => b + 0x100000000 + k * 1024 + i * 256).flatten ++
    (s.trans.tables.map fun t => (upto (tableBlocks' t.level)).map fun i => t.at_ + i * 256).flatten ++
    s.work.layouts.keys.map s.layoutAt ++ s.hearth.rmap.keys.map fun k => b + 0x1FF800000 + k * 8
where
  /-- 256-byte blocks of a table of a level (Table 6.1). -/
  tableBlocks' (l : Nat) : Nat := if l == 3 then 1 else 16

/-- Guests whose control data is lost become fatal (R384, R386). -/
def State.fatalLost (s : State) (ch : Nat) : State :=
  (s.controlAddrs.filter fun a => s.lineLost a).foldl (fun s a => (s.controlOf (a / 64 * 64)).foldl (fun s g => s.guestFatal g (a / 64 * 64) ch) s) s

/-- The group's state follows its members; DEGRADED and BROKEN are reported on the member that moved it there (R383, R385). -/
def State.ladder (s : State) (g ch : Nat) : State :=
  let old := (s.group g).st
  let new := (s.group g).step
  if old == new then s else
  let s := s.onGroup g fun x => { x with st := new }
  if new == 2 || new == 3 then (((s.log 0x09 (chanDie ch) (g + old * 256 + new * 65536)).memIrq ch)).fatalLost ch else s

/-! ## Spares and rebuilds (R377, R378) -/

/-- A spare is eligible for a group and its failed member. -/
def State.eligible (s : State) (g m sp : Nat) : Bool :=
  (s.chan sp).serves &&
    !(((s.group g).members.zipIdx.filter fun x => x.2 != m).any fun x => x.1 / 2 == sp / 2)

/-- Lowest-numbered eligible spare. -/
def State.pickSpare (s : State) (g m : Nat) : Option Nat := s.cellar.spares.find? fun sp => s.eligible g m sp

/-- A rebuild starts for the group's first failed member that has an eligible spare. -/
def State.startRebuild (s : State) (g : Nat) : State :=
  let x := s.group g
  if x.rebuild.isSome then s else
  match x.failed.findSome? fun m => (s.pickSpare g m).map fun sp => (m, sp) with
  | none => s
  | some (m, sp) =>
    let bad := x.members.getD m 0
    let s := s.recovery.onGroup g fun x => { x with rebuild := some (m, sp, 0), poisoned := 0 }
    let s := if (s.chan sp).st == 6 then s.irqEdge 0x008 else s
    let s := s.onChan sp fun c => { c with st := 4, pd := false }
    let s : State := { s with cellar := { s.cellar with spares := s.cellar.spares.filter (· != sp) } }
    ((s.log 0x07 (chanDie bad) (g + m * 256 + bad * 65536 + sp * 2 ^ 24)).memIrq bad).saveMap

/-- Every group with a failed member and no rebuild looks for a spare, lowest group first. -/
def State.startRebuilds (s : State) : State := (upto (groupCount s.cellar.layout)).foldl (fun s g => (s.startRebuild g).ladder g ((s.group g).members.getD ((s.group g).failed.headD 0) 0)) s

/-- Lines left in the WCB of a spare that failed while it was rebuilt stand again in that of the member it was to replace (R5, R372). -/
def State.giveBack (s : State) (sp bad : Nat) : State :=
  let left := (s.chan sp).wcb.rows
  let s := s.onChan sp fun c => { c with wcb := {} }
  left.foldl (fun (s : State) r =>
    ((s.onChan bad fun c => { c with wcb := c.wcb.put r.1 r.2 }).discardQ (qidWcb sp) r.1).enterQ (qidWcb bad) r.1) s

/-- A channel enters FAILED (R372, R376, R379, R383, R384). A TRAIN_CMD or a PPR that ran on it ends; with which result a PPR ends is a
DESIGN CHOICE (assumption 65). -/
def State.failChannel (s : State) (ch cause : Nat) : State :=
  if (s.chan ch).st == 7 then s else
  let s := s.trainResult ch (s.chan ch).want 0x04
  let s := if (s.chan ch).repair.isSome then s.pprResult ch 0x02 else s
  let s := s.onChan ch fun c => { c with st := 7, filling := false, full := false, want := 0, repair := none, wantRepair := [], subs := [{}, {}], plines := {}, plog := [], pd := false }
  let s := ((s.log 0x06 (chanDie ch) (ch + cause * 256)).memIrq ch)
  let s : State := { s with cellar := { s.cellar with spares := s.cellar.spares.filter (· != ch) } }
  let s := match s.memberOf ch with
    | some (g, m) =>
      let s := s.onGroup g fun x => { x with failed := if x.failed.contains m then x.failed else x.failed ++ [m], evac := if cause == 5 then some m else x.evac }
      (((s.startRebuild g).ladder g ch).drainChan ch)
    | none =>
      (match (upto 5).find? fun g => match (s.group g).rebuild with | some (_, sp, _) => sp == ch | none => false with
      | some g =>
        let bad := match (s.group g).rebuild with | some (m, _, _) => (s.group g).members.getD m 0 | none => ch
        let s := ((s.drainChan ch).onGroup g fun x => { x with rebuild := none }).giveBack ch bad
        (s.startRebuild g).ladder g bad
      | none => (s.drainChan ch).fatalLost ch)
  s.resumeMem

/-! ## Parity (R371, R373, R374) -/

/-- XOR of two strings. -/
def xorBytes (a b : Bytes) : Bytes := a.zipWith (· ^^^ ·) b

/-- A Δ reaches the parity Cellar: it is merged into its parity line and acknowledged. -/
def State.mergeDelta (s : State) (p line : Nat) (d : Bytes) (dm : Nat) : State :=
  s.onChan p fun c =>
    let old := c.plines.getD line { delta := zeroBytes 64 }
    { c with plines := c.plines.put line { delta := xorBytes (padBytes 64 old.delta) d, dmeta := old.dmeta ^^^ dm } }

/-- The parity line of the data lines as stored; none while one of them cannot be read. -/
def State.dataXor (s : State) (g line source : Nat) : Option (Bytes × Nat) × State :=
  let (r, s) := s.reconstruct g 8 line source
  (if r.lost || r.waits then none else some (r.data, r.dmeta), s)

/-- A parity line drains: stored parity XOR what accumulated (R371, step 4); a stored parity that cannot be read is made
again from the data. -/
def State.drainParity (s : State) (p line : Nat) : State :=
  match (s.chan p).plines.find line, s.groupOf p with
  | some l, some g =>
    if (s.chan p).awayAt line then s else
    let clear (s : State) : State := s.onChan p fun c => { c with plines := c.plines.del line }
    let (r, s) := s.readStored p line 0 0 0
    (match r with
    | some r => ((clear s).putLine p line (xorBytes r.data (padBytes 64 l.delta)) (r.dmeta ^^^ l.dmeta)).countChan p 0x3014 1
    | none =>
      let (x, s) := s.dataXor g line 0
      match x with
      | some (d, dm) => ((clear s).putLine p line d dm).countChan p 0x3014 1
      | none => s)
  | _, _ => s

/-- A stale line of a stripe enters the table (R373): false while the table is full. -/
def State.enterStale (s : State) (g m line : Nat) : Bool × State :=
  let stripe := line / 4
  match s.staleOf g stripe with
  | some e =>
    let e' := { e with lines := setBit e.lines (line % 4), members := if m < 8 then setBit e.members m else e.members }
    (true, { s with cellar := { s.cellar with stale := s.cellar.stale.map fun x => if x == e then e' else x } })
  | none =>
    if 65536 ≤ s.cellar.stale.length then (false, s) else
    let e : Stale := { group := g, stripe := stripe, lines := setBit 0 (line % 4), members := if m < 8 then setBit 0 m else 0, time := s.nowUs }
    let p := (s.group g).members.getD 8 0
    (true, (State.countChan { s with cellar := { s.cellar with stale := s.cellar.stale ++ [e] } } p 0x3019 0).log 0x03 (chanDie p) g stripe)

/-- A stored line's metadata changed, its data kept. -/
def State.setMeta (s : State) (ch line : Nat) (f : Nat → Nat) : State :=
  let d := decodeLine (s.rawLine ch line) false
  if d.res == 2 then s else s.putLine ch line d.data (f d.dmeta)

/-- A delta of a member's line stays without an acknowledgement: the line is rewritten with PSTALE and the stripe becomes stale,
unless the table is full, when the delta waits on (R373). -/
def State.deltaStale (s : State) (p g m line : Nat) (d : Nat × Nat × Nat × Bytes × Nat) : State :=
  let (ok, s) := s.enterStale g m line
  if !ok then s else
  let s := s.onChan p fun c => { c with deltas := c.deltas.erase d }
  match s.memberChan g m (line / 4) with
  | some c => s.setMeta c line (· ||| 4)
  | none => s

/-- The stripes' lines of an index hold together again: nothing of it counts as written without its parity (R383). -/
def State.parityMade (s : State) (g line : Nat) : State := s.onGroup g fun x => { x with lost := x.lost.filter fun y => y.2 != line }

/-! ## The calibration set (R343, R480 to R482) -/

/-- CAL_SEED of a channel: as written, else as the factory left it. -/
def State.calSeedNow (s : State) (n : Nat) : Bytes := padBytes 640 (if s.blobs.has (Obj.calSeed n) then s.blob (Obj.calSeed n) else Config.calSeed n)

/-- CAL_TRIM of a channel. -/
def State.calTrimNow (s : State) (n : Nat) : Bytes := padBytes 64 (if s.blobs.has (Obj.calTrim n) then s.blob (Obj.calTrim n) else Config.calTrim n)

/-- The trained group is of the module that the SPD reports. -/
def trainedHere (t : Bytes) (maker serial : Nat) : Bool :=
  let m := leNat (sliceBytes t 656 2)
  let n := leNat (sliceBytes t 658 4)
  m != 0 && n != 0 && m == maker && n == serial

/-- Seeds and trims with which a training of a channel starts: the trained entries where they are of this module, else CAL_SEED; with no
valid set, whole sweeps and trims of 0. -/
def State.calStart (s : State) (ch maker serial : Nat) : Option Bytes × Bytes :=
  if s.dict.noCopy then (none, zeroBytes 64)
  else
    let t := padBytes 672 (s.blob (Obj.calTrained ch))
    (some (if trainedHere t maker serial then t.take 640 else s.calSeedNow ch), s.calTrimNow ch)

/-! ## Rows (R330, R382) -/

/-- Lines of the row that a key names. -/
def rowLines (ranks key : Nat) : List Nat :=
  let r := if ranks == 4 then 2 else if ranks == 2 then 1 else 0
  let sub := key % 2
  let ba := key / 2 % 4
  let bg := key / 8 % 8
  let rank := key / 64 % 4
  let row := key / 256
  let co0 := row * 2 ^ (19 + r) + rank * 2 ^ 19 + (ba ^^^ (row / 8 % 4)) * 2 ^ 12 + (bg ^^^ (row % 8)) * 2 ^ 9 + sub * 256
  (upto 128).map fun i => (co0 + i / 4 * 2 ^ 14 + i % 4 * 64) / 64

/-- Place of a line of a channel, parity lines as member 8. -/
def State.placeOf (s : State) (ch line : Nat) : Place :=
  match s.memberOf ch with
  | some (g, m) => .strong g m (line * 64)
  | none =>
    match (upto 5).findSome? fun g => match (s.group g).rebuild with | some (m, sp, _) => if sp == ch then some (g, m) else none | none => none with
    | some (g, m) => .strong g m (line * 64)
    | none => .plain ch (line * 64)

end Sys2Proof.Machine
end

