-- ==== Sys2Proof/Machine/Cellar.lean ====
section
/-! DEFINITION. Meanings of the DRAM channel commands (chapter 10 and R488): queues and column commands, reads, drains, refresh,
temperature, self-refresh and power-down, alerts, training and drift, and the sideband buses. -/

namespace Sys2Proof.Machine

open Sys2Proof

/-! ## Queues and column commands -/

/-- A subchannel changed. -/
def State.onSub (s : State) (ch k : Nat) (f : Sub → Sub) : State := s.onChan ch fun c => { c with subs := c.subs.modify k f }

/-- A subchannel. -/
def State.sub (s : State) (ch k : Nat) : Sub := (s.chan ch).subs.getD k {}

/-- Bank of a line as a number: rank * 32 + bank group * 4 + bank. -/
def RowAddr.bank (r : RowAddr) : Nat := r.rank * 32 + r.bg * 4 + r.ba

/-- Row address of a burst of a channel. -/
def State.burstRow (s : State) (ch : Nat) (b : Burst) : RowAddr := decodeCo (s.chan ch).ranks (b.line * 64)

/-- Age of a burst in DRAM clocks of 2.2 GHz, or of 1.6 GHz in RDIMM-6400 mode (R333, R334, Table 15.6). -/
def State.burstAge (s : State) (b : Burst) : Nat := (s.now - b.joined) * (if s.cellar.mode == 2 then 16 else 22) / 10

/-- The oldest of candidate slots; of equal ages, the lower slot (R333). -/
def oldestOf (bs : List (Nat × Burst)) : Option (Nat × Burst) :=
  bs.foldl (fun a b => match a with
    | none => some b
    | some x => if b.2.joined < x.2.joined then some b else a) none

/-- Direction a subchannel serves next (R333). -/
def State.subMode (s : State) (q : Sub) : Bool :=
  let m := if !q.writes && (decide (s.reg Obj.wqHigh ≤ q.wq.length) || q.rq.isEmpty) then true else q.writes
  if m && decide (q.wq.length ≤ s.reg Obj.wqLow) && !q.rq.isEmpty then false else m

/-- A command goes out on a subchannel and enters its retry buffer (R339). -/
def State.dramCmd (s : State) (ch k sel : Nat) (cmd : String) : State :=
  ((s.onSub ch k fun q => { q with retry := q.retry ++ [(cmd, s.now)] }).emit (.dram ch k cmd)).countChan ch 0x3010 (sel + 256 * (k + 1))

/-- Text of a DRAM command with its bank and its row or column. -/
def cmdText (name : String) (bank x : Nat) : String := name ++ " " ++ toString bank ++ " " ++ toString x

/-- The pick of a subchannel among the slots that the DRAM timing allows, with whether the age cap decided (R333). A rank whose
refresh is at its postponement limit gives no candidate (R336). -/
def State.pickSlot (s : State) (ch : Nat) (q : Sub) (queue : List Burst) (ready : List Nat) : Option (Nat × Burst) × Bool :=
  let pool := (queue.zipIdx.map fun x => (x.2, x.1)).filter fun x =>
    ready.contains x.1 && decide (q.refresh.getD (s.burstRow ch x.2).rank 0 < 4)
  let old := pool.filter fun x => decide (s.reg Obj.ageCap ≤ s.burstAge x.2)
  let hit (x : Nat × Burst) : Bool := match q.rows.find (s.burstRow ch x.2).bank with
    | some (r, _) => r == (s.burstRow ch x.2).row
    | none => false
  match oldestOf old with
  | some x => (some x, true)
  | none => match oldestOf (pool.filter hit) with
    | some x => (some x, false)
    | none => (oldestOf pool, false)

/-- A queued burst needs the open row of a bank. -/
def State.rowWanted (s : State) (ch k bank row : Nat) : Bool :=
  let q := s.sub ch k
  (q.rq ++ q.wq).any fun b => (s.burstRow ch b).bank == bank && (s.burstRow ch b).row == row

/-- A bank is precharged. -/
def State.closeRow (s : State) (ch k bank row : Nat) : State :=
  (s.onSub ch k fun q => { q with rows := q.rows.del bank }).dramCmd ch k 3 (cmdText "PRE" bank row)

/-- With a PAGE_IDLE_TIMER of 0 a bank is precharged after the last queued request to its row (R334). -/
def State.closeSpent (s : State) (ch k bank row : Nat) : State :=
  if s.reg Obj.pageIdleTimer == 0 && !s.rowWanted ch k bank row then s.closeRow ch k bank row else s

/-- The picked burst's next command: column command, activate, or precharge (R333, R334). A read that leaves a full queue lets those that wait
upstream try again (R332). -/
def State.issueFor (s : State) (ch k : Nat) (w : Bool) (x : Nat × Burst) : State :=
  let r := s.burstRow ch x.2
  let q := s.sub ch k
  match q.rows.find r.bank with
  | none => (s.onSub ch k fun q => { q with rows := q.rows.put r.bank (r.row, s.now) }).dramCmd ch k 2 (cmdText "ACT" r.bank r.row)
  | some (row, _) =>
    if row != r.row then s.closeRow ch k r.bank row
    else
      let s := s.onSub ch k fun q => { q with
        rows := q.rows.put r.bank (row, s.now),
        rq := if w then q.rq else q.rq.eraseIdx x.1,
        wq := if w then q.wq.eraseIdx x.1 else q.wq,
        inFlight := if w then q.inFlight else q.inFlight ++ [x.2] }
      let s := ((s.dramCmd ch k (b2n w) (cmdText (if w then "WR" else "RD") r.bank r.col)).countChan ch 0x3011 0).leaveQ
        (if w then qidWrite ch k else qidRead ch k) x.2.line
      let s := s.closeSpent ch k r.bank row
      if !w && 128 ≤ q.rq.length then s.resume fun r => r.stage == .dram else s

/-- COLUMN_COMMAND_ISSUE (R333, R339): a subchannel issues its next command. `ready` names the queue slots that the DRAM timing
allows now, and `retire` how many entries of the retry buffer have outlived the DIMM's alert latency. -/
def execColumnCommandIssue (ch : Fin 48) (sub : Fin 2) (ready : List Nat) (retire : Nat) (s : State) : Host.Outcome State Fault Refusal :=
  live s fun s =>
    let c := s.chan ch
    if c.st != 4 || c.alert || c.repairs sub then s else
    let s := s.onSub ch sub fun q => { q with retry := q.retry.drop retire }
    let q := s.sub ch sub
    if 64 ≤ q.retry.length then s else
    let w := s.subMode q
    let s := (s.onSub ch sub fun q => { q with writes := w }).onChan ch fun c => { c with pd := false }
    match s.pickSlot ch q (if w then q.wq else q.rq) ready with
    | (some x, capped) => (if capped then s.countChan ch 0x3012 0 else s).issueFor ch sub w x
    | (none, _) => s

/-- DRAM_READ_RETURN (R340, R362 to R366): a read that was issued returns. e1 and e2 are the bits in which it and its re-read differ
from what is stored. -/
def execDramReadReturn (ch : Fin 48) (line e1 e2 : Nat) (s : State) : Host.Outcome State Fault Refusal :=
  live s fun s =>
    let k := line / 4 % 2
    match (s.sub ch k).inFlight.find? fun b => b.line == line with
    | none => s
    | some b =>
      let s := s.onSub ch k fun q => { q with inFlight := q.inFlight.erase b }
      match b.weight, s.lineAddr ch line with
      | some w, some a => s.weightBack w.1 w.2 a e1 e2
      | some _, none => s
      | none, _ =>
      match b.trk with
      | none => s
      | some t =>
        match s.pool.reqs.find t with
        | none => s
        | some r =>
          match r.lines.find? fun a => s.wcbOf (s.place a) == (ch.val, line) with
          | none => s
          | some a =>
            let (x, s) := s.readIssued ch a r.gid e1 e2
            if x.waits then s.onSub ch k fun q => { q with rq := q.rq ++ [b] }
            else
              let s := s.onReq t fun r => { r with got := r.got.put (a / 64) (x.data, x.poison) }
              let s := if r.lrc && !x.poison && r.p.opc == 0x01 then s.lrcFill a r.gid x.data else s
              s.access t

/-- No request queued or under way on a channel. -/
def Chan.quiet (c : Chan) : Bool := c.subs.all fun q => q.rq.isEmpty && q.wq.isEmpty && q.inFlight.isEmpty

/-- A WCB line is due to drain (R331): written whole and not again for 200 ns, the oldest beyond WCB_HIGH, or on an idle channel that is
about to enter self-refresh. A parity line drains as its channel serves (R370). -/
def State.drainDue (s : State) (ch line : Nat) : Bool :=
  let c := s.chan ch
  c.plines.has line || (match c.wcb.find line with
    | none => false
    | some w => (w.whole && decide (w.written + 200 ≤ s.now)) ||
        (decide (s.reg Obj.wcbHigh < c.wcb.size) && c.wcb.rows.all fun r => decide (w.entered ≤ r.2.entered)) ||
        (c.quiet && s.reg Obj.chIdleSr != 0))

/-- WCB_DRAIN (R331, R371): one line of a channel's write-combining buffer that is due, or one parity line, drains. -/
def execWcbDrain (ch : Fin 48) (line : Nat) (s : State) : Host.Outcome State Fault Refusal :=
  live s fun s =>
    let k := line / 4 % 2
    if 64 ≤ (s.sub ch k).wq.length || !s.drainDue ch line then s else
    let had := (s.chan ch).wcb.has line || (s.chan ch).plines.has line
    let s := (s.drainLine ch line).drainParity ch line
    let left := (s.chan ch).wcb.has line || (s.chan ch).plines.has line
    let s := if had && !left && !(s.chan ch).gone then
        (s.onSub ch k fun q => { q with wq := q.wq ++ [({ write := true, line := line, joined := s.now } : Burst)] }).enterQ (qidWrite ch k) line
      else s
    s.resume fun r => r.stage == .wcb

/-- PAGE_IDLE_EXPIRY (R334): an idle bank is precharged; a queued request to its open row wins. -/
def execPageIdleExpiry (ch : Fin 48) (sub : Fin 2) (bank : Fin 128) (s : State) : Host.Outcome State Fault Refusal :=
  live s fun s => match (s.sub ch sub).rows.find bank with
    | some (row, _) =>
      if (s.chan ch).st != 4 || s.rowWanted ch sub bank row then s
      else s.closeRow ch sub bank row
    | none => s

/-! ## Refresh, temperature, self-refresh, power-down -/

/-- A refresh command of a rank: same-bank or all-bank. -/
def State.refresh (s : State) (ch k rank ba : Nat) (queued : Bool) : State :=
  let same := s.reg Obj.refreshMode == 1 && queued
  let s := s.onSub ch k fun q => { q with rows := q.rows.filter fun b _ => !(b / 32 == rank && (!same || b % 4 == ba)) }
  s.dramCmd ch k (if same then 5 else 4) (if same then cmdText "REFsb" rank ba else cmdText "REFab" rank 0)

/-- REFRESH (R336): a rank's refresh falls due, or (due false) a slot comes to catch up or to pull one in while idle. -/
def execRefresh (ch : Fin 48) (sub : Fin 2) (rank : Fin 4) (ba : Fin 4) (due : Bool) (s : State) : Host.Outcome State Fault Refusal :=
  live s fun s =>
    let c := s.chan ch
    if !(c.st == 4 || c.st == 5) || c.alert then s else
    let q := s.sub ch sub
    let queued := (q.rq ++ q.wq).any fun b => (s.burstRow ch b).rank == rank.val
    let n := q.refresh.getD rank 0
    let set (s : State) (v : Int) : State := s.onSub ch sub fun q => { q with refresh := q.refresh.put rank v }
    if due then
      if n < 0 then set s (n + 1)
      else if queued && decide (n < 4) then set s (n + 1)
      else s.refresh ch sub rank ba queued
    else if 0 < n || (!queued && decide (-4 < n)) then (set s (n - 1)).refresh ch sub rank ba queued
    else s

/-- Throttle level of a channel by its hottest sensor, left 3 °C below a threshold (R337). -/
def State.throttleLevel (s : State) (old : Nat) (t : Int) : Nat :=
  let hot : Int := s.reg Obj.dimmThrottleTemp * 4
  let crit : Int := s.reg Obj.dimmCritTemp * 4
  if crit < t || (old == 2 && decide (crit - 12 ≤ t)) then 2
  else if hot < t || (decide (1 ≤ old) && decide (hot - 12 ≤ t)) then 1 else 0

/-- A DIMM's hottest sensor read (R337). -/
def State.dimmTemp (s : State) (ch : Nat) (t : Int) : State :=
  let old := (s.chan ch).throttle
  let new := s.throttleLevel old t
  let s := s.onChan ch fun c => { c with temp := t, throttle := new }
  if new == 2 && old != 2 then s.irqEdge (0x090 + ch) else s

/-- A bus. -/
def State.bus (s : State) (b : Nat) : Bus := s.cellar.buses.getD b {}

/-- A bus changed. -/
def State.onBus (s : State) (b : Nat) (f : Bus → Bus) : State := { s with cellar := { s.cellar with buses := s.cellar.buses.put b (f (s.bus b)) } }

/-- The transfers of the device that waited for a bus are made, oldest first (R355). -/
def State.busFree (s : State) (b : Nat) : State :=
  let q := (s.bus b).queue
  q.foldl (fun s x => s.dimmTemp x.1 x.2) (s.onBus b fun x => { x with queue := [] })

/-- DIMM_TEMP_POLL (R337, R355): the sensors of a DIMM are read, in quarter degrees, or the read waits for its bus. -/
def execDimmTempPoll (ch : Fin 48) (t : Int) (s : State) : Host.Outcome State Fault Refusal :=
  live s fun s =>
    if (s.chan ch).st == 0 then s
    else if (s.bus (ch / 8)).busy then
      (if (s.bus (ch / 8)).queue.length < 32 then s.onBus (ch / 8) fun x => { x with queue := x.queue ++ [(ch.val, t)] } else s)
    else s.dimmTemp ch t

/-- I3C_IN_BAND_INTERRUPT (R353): in I3C mode a sensor's interrupt is accepted, and the sensor is read as by a poll (DEDUCED,
assumption 20). -/
def execI3cInBandInterrupt (ch : Fin 48) (t : Int) (s : State) : Host.Outcome State Fault Refusal :=
  live s fun s => if s.inForce (Obj.sbMode (ch / 8)) == 1 && (s.chan ch).st != 0 then s.dimmTemp ch t else s

/-- CH_IDLE_SR_EXPIRY (R338): an idle channel with an empty WCB enters self-refresh. -/
def execChIdleSrExpiry (ch : Fin 48) (s : State) : Host.Outcome State Fault Refusal :=
  live s fun s =>
    let c := s.chan ch
    if c.st == 4 && c.repair.isNone && c.quiet && c.wcb.size == 0 && c.plines.size == 0 && s.reg Obj.chIdleSr != 0 then
      (s.onChan ch fun c => { c with st := 6, pd := false, subs := c.subs.map fun q => { q with rows := {} } }).countChan ch 0x3018 0
    else s

/-- SELF_REFRESH_EXIT (R338): a request wakes the channel, which serves again. -/
def execSelfRefreshExit (ch : Fin 48) (s : State) : Host.Outcome State Fault Refusal :=
  live s fun s => if (s.chan ch).st == 6 then ((s.onChan ch fun c => { c with st := 4 }).irqEdge 0x008).resumeMem else s

/-- CH_IDLE_PD_EXPIRY (R488): an idle channel enters power-down. -/
def execChIdlePdExpiry (ch : Fin 48) (s : State) : Host.Outcome State Fault Refusal :=
  live s fun s =>
    let c := s.chan ch
    if c.st == 4 && c.repair.isNone && !c.pd && c.quiet && c.wcb.size == 0 && c.plines.size == 0 && s.reg Obj.chIdlePd != 0 then (s.onChan ch fun c => { c with pd := true }).countChan ch 0x3018 1 else s

/-! ## Alerts (R339) -/

/-- ALERT_N_ASSERT (R339): both subchannels stop; a third alert within 1 ms asks for a retrain. -/
def execAlertNAssert (ch : Fin 48) (s : State) : Host.Outcome State Fault Refusal :=
  live s fun s =>
    let c := s.chan ch
    if !(c.st == 4 || c.st == 5) then s else
    let alerts := (s.now :: c.alerts).filter fun t => decide (s.now < t + 1000000)
    s.onChan ch fun c => { c with alert := true, alerts := alerts, want := if 3 ≤ alerts.length && c.want == 0 then 3 else c.want }

/-- Every command of a retry buffer is issued again in its order. -/
def State.replayCmds (s : State) (ch k : Nat) : State := (s.sub ch k).retry.foldl (fun s x => s.emit (.dram ch k x.1)) s

/-- ALERT_RELEASE (R339): all banks are precharged and the retry buffers are replayed. -/
def execAlertRelease (ch : Fin 48) (s : State) : Host.Outcome State Fault Refusal :=
  live s fun s =>
    if !(s.chan ch).alert then s else
    let s := s.onChan ch fun c => { c with alert := false, subs := c.subs.map fun q => { q with rows := {} } }
    ((s.replayCmds ch 0).replayCmds ch 1).countChan ch 0x3016 0

/-! ## Training (R341 to R352) -/

/-- Every lane's widest window reaches TRAIN_MIN_EYE (R342). -/
def State.eyesOk (s : State) (eyes : List Nat) : Bool := (upto 20).all fun l => decide (s.inForce Obj.trainMinEye ≤ eyes.getD l 0)

/-- The widest window, the first among equals. -/
def widest (ws : List EyeWindow) : Option EyeWindow :=
  ws.foldl (fun b w => match b with | some v => if v.hi - v.lo < w.hi - w.lo then some w else b | none => some w) none

/-- Centre of a window. -/
def eyeCentre (w : EyeWindow) : Nat := (w.lo + w.hi) / 2

/-- Windows found within 32 steps of a delay (R343; assumption 47). -/
def near (c : Nat) (ws : List EyeWindow) : List EyeWindow := ws.filter fun w => decide (c ≤ eyeCentre w + 32) && decide (eyeCentre w ≤ c + 32)

/-- A sweep: about the delay of an entry first, then, for a lane whose eye is not found there, over the whole range where `whole` is set. -/
def sweep (about : Option Nat) (whole : Bool) (ws : List EyeWindow) : Option EyeWindow :=
  match about with
  | none => widest ws
  | some c => (widest (near c ws)).orElse fun _ => if whole then widest ws else none

/-- Width of a found window, 0 for none. -/
def eyeOf (w : Option EyeWindow) : Nat := (w.map fun w => w.hi - w.lo).getD 0

/-- A lane entry (Table 14.9) set to the centres found. -/
def laneEntry (rd wr : Option EyeWindow) : Nat :=
  let f (w : Option EyeWindow) : Nat := match w with | some w => w.vref * 2 ^ 16 + eyeCentre w | none => 0
  f wr * 2 ^ 32 + f rd

/-- The lane whose strobe serves a lane entry (R324). -/
def Chan.lane (c : Chan) (i : Nat) : Nat := if c.x8 then i / 2 * 2 else i

/-- A delay moved by a drift, within the 13 bits of Table 14.9. -/
def movedBy (x : Nat) (d : Int) : Nat := min 8191 ((x : Int) + d).toNat

/-- The lane entries as drift tracking left them (R347, R348, R350). -/
def Chan.present (c : Chan) : Bytes :=
  ((upto 80).map fun i =>
    let e := leNat (sliceBytes c.entries (8 * i) 8)
    leBytes 8 (bitsOf e 63 48 * 2 ^ 48 + movedBy (bitsOf e 47 32) (c.wrDrift.getD (i / 20) 0) * 2 ^ 32 +
      bitsOf e 31 16 * 2 ^ 16 + movedBy (bitsOf e 15 0) (c.rdDrift.getD (i % 20) 0))).flatten

/-- What the sweeps of a channel's lanes give: the windows found for reads and writes of each lane of each present rank. `from_` are
the lane entries about which they start. -/
def Chan.sweeps (c : Chan) (from_ : Option Bytes) (whole : Bool) (lanes : List LaneSweep) : List (Option EyeWindow × Option EyeWindow) :=
  ((upto 80).map c.lane).map fun i =>
    if c.ranks * 20 ≤ i then (none, none) else
    let e := from_.map fun b => leNat (sliceBytes b (8 * i) 8)
    let x := lanes.getD i {}
    (sweep (e.map fun e => bitsOf e 15 0) whole x.read, sweep (e.map fun e => bitsOf e 47 32) whole x.write)

/-- TRAIN_EYE: the widest window of each lane, of the worst rank and direction. -/
def Chan.eyesOf (c : Chan) (f : List (Option EyeWindow × Option EyeWindow)) : List Nat :=
  (upto 20).map fun l => (upto c.ranks).foldl (fun m r =>
    let x := f.getD (20 * r + l) (none, none)
    min m (min (eyeOf x.1) (eyeOf x.2))) 0xFFFF

/-- Lane entries of the windows found; 0 for ranks that are not present. -/
def entriesOf (f : List (Option EyeWindow × Option EyeWindow)) : Bytes := (f.map fun x => leBytes 8 (laneEntry x.1 x.2)).flatten

/-- DQS-oscillator baselines by rank * 2 + subchannel (R347, R480). -/
def baselines (osc : List Nat) : Tab Nat := ⟨(upto 8).map fun i => (i, osc.getD i 0)⟩

/-- CAL_TRAINED (R480): entries, baselines, and the module's ID and serial number. -/
def Chan.trainedGroup (c : Chan) (entries : Bytes) (osc : List Nat) : Bytes :=
  padBytes 672 (padBytes 640 entries ++ ((upto 8).map fun i => leBytes 2 (osc.getD i 0)).flatten ++ leBytes 2 c.maker ++ leBytes 4 c.serial)

/-- The results of sweeps are in use: lane centres, baselines, no drift (R342, R350). -/
def Chan.centred (c : Chan) (eyes : List Nat) (entries : Bytes) (osc : List Nat) : Chan :=
  { c with eyes := eyes, entries := entries, wrDrift := {}, rdDrift := {}, oscBase := baselines osc }

/-- Step 9: results and baselines are in use, and the trained group is written (R343, R482). -/
def State.trained (s : State) (ch : Nat) (eyes : List Nat) (entries : Bytes) (osc : List Nat) : State :=
  let t := (s.chan ch).trainedGroup entries osc
  let s := s.onChan ch fun c => c.centred eyes entries osc
  (s.setBlob (Obj.calTrained ch) t).persist (Obj.calTrained ch) t

/-- CHANNEL_TRAINING_DONE (R341 to R343, R481): the sweeps start about the seeds; the steps pass and the fill begins, or steps 3 to 9 run
once more, or the channel fails. -/
def execChannelTrainingDone (ch : Fin 48) (ok : Bool) (lanes : List LaneSweep) (osc : List Nat) (s : State) : Host.Outcome State Fault Refusal :=
  live s fun s =>
    let c := s.chan ch
    let f := c.sweeps c.seed true lanes
    let eyes := c.eyesOf f
    if c.st != 3 || c.filling then s
    else if ok && s.eyesOk eyes then (s.trained ch eyes (entriesOf f) osc).onChan ch fun c => { c with filling := true }
    else if c.reran then (s.onChan ch fun c => { c with eyes := eyes }).failChannel ch 1
    else s.onChan ch fun c => { c with reran := true, eyes := eyes }

/-- CHANNEL_FILL_DONE (R345): every line below C is zero with a valid code, and the channel serves. -/
def execChannelFillDone (ch : Fin 48) (s : State) : Host.Outcome State Fault Refusal :=
  live s fun s =>
    let c := s.chan ch
    if c.st != 3 || !c.filling then s else
    let s := { s with cellar := { s.cellar with dram := s.cellar.dram.filter fun x => x.1 / 2 ^ 40 != ch.val } }
    ((s.onChan ch fun c => { c with st := 4, filling := false, scrub := 0, lastReq := s.now }).startRebuilds).resumeMem

/-- A cause of retraining is recorded; two causes give one retrain (R349). -/
def State.wantRetrain (s : State) (ch cause : Nat) : State := s.onChan ch fun c => { c with want := if c.want == 0 then cause else c.want }

/-- DQS_OSC_MEASURE (R347): a rank's write delays follow the measured change, or a retrain is due. -/
def execDqsOscMeasure (ch : Fin 48) (rank : Fin 4) (change : Int) (s : State) : Host.Outcome State Fault Refusal :=
  live s fun s =>
    let c := s.chan ch
    if c.st != 4 then s else
    let v := c.wrDrift.getD rank 0 + change
    if (s.reg Obj.wrTrackRange : Int) < v.natAbs then s.wantRetrain ch 1
    else (s.onChan ch fun c => { c with wrDrift := c.wrDrift.put rank v }).countChan ch 0x3017 0

/-- READ_CENTRE_RECHECK (R348): a lane's read centre moves one step toward where its centre was found, when it is 2 or more steps
off; `off` is that distance. -/
def execReadCentreRecheck (ch : Fin 48) (lane : Fin 20) (off : Int) (s : State) : Host.Outcome State Fault Refusal :=
  live s fun s =>
    let c := s.chan ch
    if c.st != 4 || off.natAbs < 2 then s else
    let v := c.rdDrift.getD lane 0 + (if 0 < off then 1 else -1)
    if (s.reg Obj.rdTrackRange : Int) < v.natAbs then s.wantRetrain ch 1
    else (s.onChan ch fun c => { c with
      rdDrift := if c.x8 then (c.rdDrift.put (lane / 2 * 2) v).put (lane / 2 * 2 + 1) v else c.rdDrift.put lane v }).countChan ch 0x3017 1

/-- Another channel of the group is RETRAINING or under repair, or the group is rebuilding (R349, R381). -/
def State.groupHolds (s : State) (ch : Nat) : Bool :=
  match s.memberOf ch with
  | some (g, _) => (s.group g).rebuild.isSome || (s.group g).members.any fun c => c != ch && ((s.chan c).st == 5 || (s.chan c).repair.isSome)
  | none => false

/-- Retrains of the last 60 minutes. -/
def State.recentRetrains (s : State) (c : Chan) : List Nat := c.times.filter fun t => decide (s.nowMs < t + 3600000)

/-- RETRAIN_START (R349, R351, R352, R381): a channel due for a retrain enters RETRAINING, or fails in its place beyond the limit. -/
def execRetrainStart (ch : Fin 48) (s : State) : Host.Outcome State Fault Refusal :=
  live s fun s =>
    let c := s.chan ch
    if c.st != 4 || c.repair.isSome || c.want == 0 || s.groupHolds ch then s
    else if c.want == 5 then
      let cal := s.calStart ch c.maker c.serial
      (s.recovery.onChan ch fun c => { c with st := 5, full := true, seed := cal.1, trim := cal.2,
                                               subs := c.subs.map fun q => { q with rows := {} } }).trainResult ch 5 0x01
    else
      let recent := s.recentRetrains c
      if s.reg Obj.retrainLimit ≤ recent.length then (s.trainResult ch c.want 0x04).failChannel ch 2
      else
        let ce := if c.want == 2 then some s.nowMs else c.ceRetrain
        let ts := recent ++ [s.nowMs]
        ((s.recovery.onChan ch fun c => { c with st := 5, retrains := satInc 32 c.retrains, times := ts, ceRetrain := ce,
                                                 subs := c.subs.map fun q => { q with rows := {} } }).trainResult ch c.want 0x01).countChan ch 0x3017 2

/-- RETRAIN_DONE (R350, R352): a FULL sweeps about the seeds, a retrain about the present values; the channel is READY and serves what
waits, or is FAILED when a lane fell below TRAIN_MIN_EYE. -/
def execRetrainDone (ch : Fin 48) (lanes : List LaneSweep) (osc : List Nat) (s : State) : Host.Outcome State Fault Refusal :=
  live s fun s =>
    let c := s.chan ch
    let f := if c.full then c.sweeps c.seed true lanes else c.sweeps (some c.present) false lanes
    let eyes := c.eyesOf f
    if c.st != 5 then s
    else if s.eyesOk eyes then
      let s := if c.full then s.trained ch eyes (entriesOf f) osc else s.onChan ch fun c => c.centred eyes (entriesOf f) osc
      ((s.onChan ch fun c => { c with st := 4, full := false, want := 0, ceTimes := [] }).trainResult ch c.want 0).resumeMem
    else ((s.onChan ch fun c => { c with eyes := eyes }).trainResult ch c.want 0x04).failChannel ch 1

/-- A TRAIN_CMD asks for a retrain (4) or FULL (5) of its channel (R352, R358). -/
def State.trainCmd (s : State) (cause : Nat) : State :=
  let ch := s.reg Obj.trainCmdChannel
  let c := s.chan ch
  if c.st == 7 then s.setReg Obj.trainCmdResult 0x04
  else if !(c.st == 4 || c.st == 6) || 48 ≤ ch then s.setReg Obj.trainCmdResult 0x02
  else (s.onChan ch fun c => { c with want := cause }).setReg Obj.trainCmdResult (if s.groupHolds ch then 0x03 else 0x01)

/-- TRAIN_RETRAIN (R349): TRAIN_CMD RETRAIN. -/
def execTrainRetrain (s : State) : Host.Outcome State Fault Refusal := record s Obj.trainCmdOp Obj.trainCmdResult 0x01 fun s => s.trainCmd 4

/-- TRAIN_FULL (R352): TRAIN_CMD FULL. -/
def execTrainFull (s : State) : Host.Outcome State Fault Refusal := record s Obj.trainCmdOp Obj.trainCmdResult 0x02 fun s => s.trainCmd 5

/-! ## Sideband (R353 to R358) -/

/-- Event of a sideband bus, counted on CL(4k). -/
def State.countBus (s : State) (b sel : Nat) : State := s.count (dieCL (4 * b)) 0 0x301C sel

/-- Fields of SB_CMD that are valid; a PMIC write needs a DISABLED channel (R358). -/
def State.sbValid (s : State) (write : Bool) : Bool :=
  let ch := s.reg Obj.sbCmdChannel
  decide (ch < 48) && decide (s.reg Obj.sbCmdTarget < 4) && decide (1 ≤ s.reg Obj.sbCmdLen) && decide (s.reg Obj.sbCmdLen ≤ 64) &&
    !(write && s.reg Obj.sbCmdTarget == 1 && (s.chan ch).st != 1)

/-- The SB_CMD transfer goes over the bus and ends: answered with data, or not answered. -/
def State.sbTransfer (s : State) (write : Bool) (answer : Option Bytes) : State :=
  let ch := s.reg Obj.sbCmdChannel
  let b := ch / 8
  let len := s.reg Obj.sbCmdLen
  let s := s.onBus b fun x => { x with busy := false, losses := 0 }
  let s := s.emit (.sideband b ch (s.reg Obj.sbCmdTarget) (s.reg Obj.sbCmdReg) write (if write then sliceBytes (s.blob Obj.sbCmdData) 0 len else []))
  match answer with
  | none => (s.countBus b 2).setReg Obj.sbCmdResult 0x02
  | some d => (if write then s else s.setBlob Obj.sbCmdData (padBytes 64 (d.take len))).setReg Obj.sbCmdResult 0

/-- A transfer loses arbitration: it backs off, and after eight losses in a row it fails (R354). -/
def State.arbLost (s : State) (b : Nat) : State :=
  let n := (s.bus b).losses + 1
  let s := s.countBus b 0
  if n < 8 then s.onBus b fun x => { x with losses := n }
  else
    let cmd := (s.bus b).busy
    let s := (((s.onBus b fun x => { x with losses := 0, busy := false }).countBus b 2).irqEdge (0x0C0 + b)).busFree b
    if cmd then s.setReg Obj.sbCmdResult 0x03 else s

/-- An SB_CMD starts; on an I2C bus it may lose arbitration to the board controller. -/
def State.sbStart (s : State) (write lost : Bool) (answer : Option Bytes) : State :=
  if !s.sbValid write then s.setReg Obj.sbCmdResult 0x04 else
  let b := s.reg Obj.sbCmdChannel / 8
  if lost && s.inForce (Obj.sbMode b) == 0 then
    ((s.setReg Obj.sbCmdResult 0x01).onBus b fun x => { x with busy := true, losses := 1 }).countBus b 0
  else s.sbTransfer write answer

/-- SB_READ (R358): SB_CMD READ; `lost`, or what the target answers. -/
def execSbRead (lost : Bool) (answer : Option Bytes) (s : State) : Host.Outcome State Fault Refusal :=
  record s Obj.sbCmdOp Obj.sbCmdResult 0x01 fun s => s.sbStart false lost answer

/-- SB_WRITE (R358): SB_CMD WRITE; `lost`, or whether the target answers. -/
def execSbWrite (lost acked : Bool) (s : State) : Host.Outcome State Fault Refusal :=
  record s Obj.sbCmdOp Obj.sbCmdResult 0x02 fun s => s.sbStart true lost (if acked then some [] else none)

/-- SB_ARB_LOST (R354): a transfer of the device on an I2C bus loses arbitration. -/
def execSbArbLost (bus : Fin 6) (s : State) : Host.Outcome State Fault Refusal :=
  live s fun s => if s.inForce (Obj.sbMode bus) == 0 then s.arbLost bus else s

/-- SB_BACKOFF_EXPIRY (R354): the transfer that lost is made again and ends. -/
def execSbBackoffExpiry (bus : Fin 6) (answer : Option Bytes) (s : State) : Host.Outcome State Fault Refusal :=
  live s fun s =>
    if (s.bus bus).busy then (s.sbTransfer (s.reg Obj.sbCmdOp == 2) answer).busFree bus
    else s.onBus bus fun x => { x with losses := 0 }

/-- SB_BUS_RECOVERY (R355): SDA held low for over 25 ms is cleared with clock pulses and a STOP. -/
def execSbBusRecovery (bus : Fin 6) (s : State) : Host.Outcome State Fault Refusal :=
  live s fun s => ((s.onBus bus fun x => { x with recoveries := x.recoveries + 1 }).emit (.sbRecover bus)).countBus bus 1

end Sys2Proof.Machine
end

