-- ==== Sys2Proof/Machine/Observe.lean ====
section
/-! DEFINITION. Counters, snapshots, samplers, marks, phases and the error log as commands reach them (chapter 16). -/

namespace Sys2Proof.Machine

open Sys2Proof

/-! ## Event numbers (Tables 16.3 to 16.7) -/

/-- FILTER values that an event allows: none for an event the tables do not list. -/
def eventFilters (ev : Nat) : List Nat :=
  let n (k : Nat) : List Nat := upto k
  let all (k : Nat) : List Nat := upto k ++ [0xFF]
  match ev with
  | 0x1001 => n 1 | 0x1010 => n 4 | 0x1011 => n 2 | 0x1012 => n 3 | 0x1013 => n 2 | 0x1014 => n 2
  | 0x2001 => n 1 | 0x2010 => n 4 | 0x2011 => n 4 | 0x2012 => n 4 | 0x2013 => n 1 | 0x2014 => n 3 | 0x2015 => n 1 | 0x2016 => all 9
  | 0x2017 => n 3 | 0x2018 => n 1 | 0x2019 => n 4 | 0x201A => n 1 | 0x201B => all 8 | 0x2020 => all 4 | 0x2021 => all 4
  | 0x2022 => n 12 | 0x2023 => n 3 | 0x2024 => n 5 | 0x2025 => n 3 | 0x2026 => n 1 | 0x2027 => n 1 | 0x2028 => n 1
  | 0x3001 => n 1 | 0x3010 => n 6 ++ (n 6).map (· + 256) ++ (n 6).map (· + 512) | 0x3011 => n 1 | 0x3012 => n 1 | 0x3013 => n 4
  | 0x3014 => n 4 | 0x3015 => n 6 | 0x3016 => n 1 | 0x3017 => n 4 | 0x3018 => n 3 | 0x3019 => n 4 | 0x301A => n 3 | 0x301B => n 2
  | 0x301C => n 3
  | 0x4001 => n 1 | 0x4010 => n 6 | 0x4011 => n 4 | 0x4012 => n 4 | 0x4013 => all 5 | 0x4014 => n 2 | 0x4015 => n 2 | 0x4016 => n 2
  | 0x4020 => n 4 | 0x4021 => n 4 | 0x4022 => n 1
  | 0x5001 => n 1 | 0x5010 => n 5 | 0x5011 => n 6 | 0x5012 => n 3 | 0x5013 => n 4 | 0x5014 => n 7 | 0x5015 => n 3
  | _ => []

/-- Event class of a die (R515). -/
def dieClass (d : Nat) : Nat := if d < 2 then 1 else if d < 18 then 2 else if d < 42 then 3 else if d < 58 then 4 else 5

/-- A configuration word may be set on a die (R515). -/
def cfgOk (d cfg : Nat) : Bool :=
  let ev := bitsOf cfg 31 16
  ev == 0 || (ev / 4096 == dieClass d && (eventFilters ev).contains (bitsOf cfg 47 32) &&
    (!(dieClass d == 2 || dieClass d == 3) || decide (bitsOf cfg 15 8 ≤ 2)) && (ev != 0x301C || (d - 18) % 4 == 0))

/-! ## Counter commands (R514 to R518, R534) -/

/-- Row of a counter. -/
def ctrKey (d c : Nat) : Nat := d * 128 + c

/-- A counter's state. -/
def State.ctr (s : State) (d c : Nat) : Ctr := s.obs.ctrs.getD (ctrKey d c) {}

/-- A counter's state written. -/
def State.putCtr (s : State) (d c : Nat) (x : Ctr) : State := { s with obs := { s.obs with ctrs := s.obs.ctrs.put (ctrKey d c) x } }

/-- A counter's value word (R516). -/
def Ctr.word (c : Ctr) : Nat := b2n c.ovf * 2 ^ 63 + c.count

/-- RESULT of CTR_CMD. -/
def State.ctrResult (s : State) (v : Nat) : State := s.setReg Obj.ctrCmdResult v

/-- A CTR_CMD on a present die and a counter of it. -/
def ctrCmd (s : State) (code : Nat) (f : Nat → Nat → State → State) : Host.Outcome State Fault Refusal :=
  record s Obj.ctrCmdOp Obj.ctrCmdResult code fun s =>
    let d := s.reg Obj.ctrCmdDie
    let c := s.reg Obj.ctrCmdCounter
    if 64 ≤ d || !s.hasDie d then s.ctrResult 0x02 else if allCounters d ≤ c then s.ctrResult 0x03 else f d c s

/-- CTR_CONFIG (R515): the count stays; a fixed counter has no configuration word. -/
def execCtrConfig (s : State) : Host.Outcome State Fault Refusal :=
  ctrCmd s 0x01 fun d c s =>
    let w := s.reg Obj.ctrCmdConfig
    if progCounters d ≤ c || !cfgOk d w then s.ctrResult 0x04
    else (s.putCtr d c { s.ctr d c with cfg := w }).ctrResult 0x00

/-- CTR_READ (R534). -/
def execCtrRead (s : State) : Host.Outcome State Fault Refusal :=
  ctrCmd s 0x02 fun d c s => ((s.setReg Obj.ctrCmdConfig (s.ctr d c).cfg).setReg Obj.ctrCmdValue (s.ctr d c).word).ctrResult 0x00

/-- CTR_WRITE (R516): COUNT and OVF as written. -/
def execCtrWrite (s : State) : Host.Outcome State Fault Refusal :=
  ctrCmd s 0x03 fun d c s =>
    let v := s.reg Obj.ctrCmdValue
    (s.putCtr d c { s.ctr d c with count := v % 2 ^ 48, ovf := bitOf v 63 }).ctrResult 0x00

/-- SNAPSHOT (R518): the capture time is ten microseconds ahead. -/
def execSnapshot (s : State) : Host.Outcome State Fault Refusal :=
  record s Obj.ctrCmdOp Obj.ctrCmdResult 0x04 fun s =>
    let t := s.now + 10000
    (State.setReg { s with obs := { s.obs with snapDue := some (t, s.power.present % 2 ^ 64) } } Obj.ctrCmdSnapTime t).ctrResult 0x01

/-- Value words of a die, in counter order. -/
def State.dieWords (s : State) (d : Nat) : List Nat := (upto (allCounters d)).map fun c => (s.ctr d c).word

/-- SNAPSHOT_CAPTURE (R518): a die copies its value words; RESULT reads done with the last die. -/
def execSnapshotCapture (die : Fin 64) (s : State) : Host.Outcome State Fault Refusal :=
  live s fun s =>
    match s.obs.snapDue with
    | none => s
    | some (t, m0) =>
      let m := m0 &&& s.power.present
      if m == 0 then State.ctrResult { s with obs := { s.obs with snapDue := none } } 0x00
      else if !m.testBit die.val then s else
      let left := clearBit m die.val
      let s := { s with obs := { s.obs with snaps := s.obs.snaps.put die.val (s.dieWords die.val), snapDue := if left == 0 then none else some (t, left) } }
      if left == 0 then s.ctrResult 0x00 else s

/-- CLEAR_DIE (R534): counts and OVF bits of the die. -/
def execClearDie (s : State) : Host.Outcome State Fault Refusal :=
  record s Obj.ctrCmdOp Obj.ctrCmdResult 0x05 fun s =>
    let d := s.reg Obj.ctrCmdDie
    if 64 ≤ d || !s.hasDie d then s.ctrResult 0x02
    else State.ctrResult { s with obs := { s.obs with ctrs := s.obs.ctrs.map fun k c => if k / 128 == d then { c with count := 0, ovf := false } else c } } 0x00

/-- A write of CTR_FREEZE that acts ten microseconds later (R518). -/
def State.writeFreeze (s : State) (v : Bool) : State :=
  State.setReg { s with obs := { s.obs with frozen := s.frozen, freezeAt := some (s.now + 10000, v) } } Obj.ctrFreeze (b2n v)

/-- CTR_FREEZE_WRITE (R518). -/
def execCtrFreezeWrite (v : Bool) (s : State) : Host.Outcome State Fault Refusal := managed s fun s => s.writeFreeze v

/-- Dies with a counter that has overflowed (R517). -/
def State.ovfDies (s : State) : Nat := s.obs.ctrs.rows.foldl (fun n r => if r.2.ovf && s.hasDie (r.1 / 128) then setBit n (r.1 / 128) else n) 0

/-! ## Samplers and marks (R525 to R528) -/

/-- A sampler takes a depth and tags the next item to enter. -/
def Sample.take (r : Sample) (depth : Nat) : Sample :=
  { r with n := satInc 32 r.n, lastDepth := depth % 2 ^ 32, sumDepth := (r.sumDepth + depth) % 2 ^ 64, arm := true }

/-- SAMPLE_TICK (R527): at a boundary of SAMPLE_PERIOD in SERVICE. -/
def execSampleTick (s : State) : Host.Outcome State Fault Refusal :=
  live s fun s =>
    if s.phase != 0 then s else
    let f (k : Nat) (r : Sample) : Sample := match s.queueDepth (s.reg (Obj.sampleQueue k)) with | some d => r.take d | none => r
    { s with obs := { s.obs with samples := s.obs.samples.map f } }

/-- A queue ID that an object takes: 0, or one that names a queue (R526). -/
def State.qidOk (s : State) (v : Nat) : Bool := v == 0 || (s.queueDepth v).isSome

/-- SAMPLE_QUEUE of a sampler is written: its record is cleared (R527). -/
def State.writeSampleQueue (s : State) (k v : Nat) : State :=
  State.setReg { s with obs := { s.obs with samples := if v == 0 then s.obs.samples.del k else s.obs.samples.put k {} } } (Obj.sampleQueue k) v

/-- SAMPLE_PERIOD is written: every record is cleared (R527). -/
def State.writeSamplePeriod (s : State) (v : Nat) : State :=
  State.setReg { s with obs := { s.obs with samples := s.obs.samples.map fun _ _ => {} } } Obj.samplePeriod v

/-- SAMPLER_CONFIG_WRITE (R526, R527): SAMPLE_QUEUE of a sampler, or SAMPLE_PERIOD; a value out of range is refused. -/
def execSamplerConfigWrite (sampler : Option (Fin 64)) (v : Nat) (s : State) : Host.Outcome State Fault Refusal :=
  managed s fun s => match sampler with
    | some k => if s.qidOk v then s.writeSampleQueue k v else s
    | none => if 1 ≤ v && v ≤ 1000000 then s.writeSamplePeriod v else s

/-- HWM_QUEUE of a mark is written: its marks are cleared (R528). -/
def State.writeHwmQueue (s : State) (k v : Nat) : State :=
  State.setReg { s with obs := { s.obs with marks := if v == 0 then s.obs.marks.del k else s.obs.marks.put k {} } } (Obj.hwmQueue k) v

/-- HWM_QUEUE_WRITE (R526, R528). -/
def execHwmQueueWrite (k : Fin 64) (v : Nat) (s : State) : Host.Outcome State Fault Refusal :=
  managed s fun s => if s.qidOk v then s.writeHwmQueue k v else s

/-- RECOVERY_HOLD_EXPIRY (R525): after the last recovery event has ended. -/
def execRecoveryHoldExpiry (s : State) : Host.Outcome State Fault Refusal :=
  awake s fun s => if s.recovering then s else { s with obs := { s.obs with recoveryHold := false } }

/-- START_PHASE_EXPIRY (R525): 60 s have passed without SERVING. -/
def execStartPhaseExpiry (s : State) : Host.Outcome State Fault Refusal :=
  awake s fun s => { s with obs := { s.obs with startOver := true } }

/-- A sample record (Table 16.11). -/
def Sample.bytes (r : Sample) : Bytes :=
  leBytes 8 (r.n * 2 ^ 32 + r.lastDepth) ++ leBytes 8 r.sumDepth ++ leBytes 8 r.sumDelay ++ leBytes 8 (r.nd * 2 ^ 32 + r.maxDelay)

/-- 16 bytes of a mark (R528). -/
def Mark.bytes (m : Mark) : Bytes := leBytes 8 (m.maxDepth * 2 ^ 32 + m.maxDelay) ++ leBytes 8 (m.time % 2 ^ 48)

/-- A mark record: START, RECOVERY, TEST. -/
def Hwm.bytes (h : Hwm) : Bytes := h.start.bytes ++ h.recovery.bytes ++ h.test.bytes

/-! ## The error log (R529 to R532) -/

/-- A record's 64 bytes (Table 16.12). -/
def LogRec.bytes (r : LogRec) : Bytes :=
  leBytes 8 (r.type * 2 ^ 56 + r.sev * 2 ^ 54 + r.die * 2 ^ 48 + r.time % 2 ^ 48) ++ leBytes 8 (r.recno * 2 ^ 32 + r.count * 2 ^ 16) ++
    ([r.w2, r.w3, r.w4, r.w5, r.w6, r.w7].map fun w => leBytes 8 w).flatten

/-- Records from a RECNO on, in RECNO order. -/
def State.logFrom (s : State) (r n : Nat) : List LogRec :=
  ((upto n).filterMap fun i => s.obs.log.find? fun x => x.recno == (r + i) % 2 ^ 32)

/-- LOG_READ (R531). -/
def execLogRead (s : State) : Host.Outcome State Fault Refusal :=
  record s Obj.logCmdOp Obj.logCmdResult 0x01 fun s =>
    let r := s.reg Obj.logCmdRecno
    let n := s.reg Obj.logCmdCount
    let back := wrapSub 32 s.obs.logTail r
    if n == 0 || 15 < n then s.setReg Obj.logCmdResult 0x04
    else if back == 0 || 2 ^ 31 ≤ back then s.setReg Obj.logCmdResult 0x03
    else if !(s.obs.log.any fun x => x.recno == r) then s.setReg Obj.logCmdResult 0x02
    else
      let rs := s.logFrom r (min n back)
      ((s.setBlob Obj.logCmdData (rs.map LogRec.bytes).flatten).setReg Obj.logCmdCount rs.length).setReg Obj.logCmdResult 0x00

end Sys2Proof.Machine
end

