-- ==== Sys2Proof/Machine/MgmtOps.lean ====
section
/-! DEFINITION. What security, the Innkeeper pair and power share: the key purge (R413), the end of sessions (R474), the stop of links
and channels, and the contacts ALERT_N and STAT[3:0] (R445, R539). -/

namespace Sys2Proof.Machine

open Sys2Proof

/-- Every session ends, with its staging and snapshots (R474). -/
def State.endSessions (s : State) : State :=
  { s with dict := { s.dict with sessions := {}, snaps := s.dict.snaps.filter fun x => x.session == 0 } }

/-- Every link key is zeroed; a link that has one is left to the tag failures of R263. -/
def State.zeroLinkKeys (s : State) : State :=
  { s with fabric := { s.fabric with links := s.fabric.links.map fun _ k => if k.keys.isEmpty then k else { k with keys := zeroBytes 72 } } }

/-- Every cluster is cleared as under R399: it has no last guest and no translation. -/
def State.clearClusters (s : State) : State :=
  { s with work := { s.work with clusters := s.work.clusters.map fun _ c => { c with lastGid := none } }, trans := { s.trans with tlbs := {} } }

/-- A key purge (R413, R474). -/
def State.purgeKeys (s : State) : State :=
  let s := (((s.zeroLinkKeys.clearClusters).lrcDrop 0 s.cellar.bytes).endSessions)
  { s with sec := { s.sec with kwrap := none, ktable := none, caches := {}, fetches := [], drbgZeroed := true } }

/-- Every link stops and takes its reset state (R413, R552). -/
def State.stopLinks (s : State) : State :=
  let off (k : Link) : Link := { k with st := 0, narrow := false, keys := [], kx := {}, tx := {}, rx := { released := k.rx.released, held := k.rx.held } }
  { s with fabric := { s.fabric with links := s.fabric.links.map fun _ k => off k } }

/-- Every READY channel enters self-refresh (R413, R492, R501, R510). -/
def State.sleepChans (s : State) : State :=
  { s with cellar := { s.cellar with chans := s.cellar.chans.map fun _ c => if c.st == 4 then { c with st := 6, pd := false } else c } }

/-- TAMPER_HALT or TEST_HALT: keys purged, links stopped, DRAM in self-refresh, cause recorded (R410, R413, R552). -/
def State.halt (s : State) (st cause : Nat) : State :=
  let s := s.purgeKeys.stopLinks.sleepChans
  { s with sec := { s.sec with st := st, tamperCause := cause, noIdentity := s.sec.noIdentity || st == 2 } }

/-- A running Innkeeper's STAT[2:0] (Table 17.3): bit 0 SERVING, bit 1 something failed, bit 2 Night. -/
def State.statNow (s : State) : Nat :=
  let bad := (s.cellar.chans.rows.any fun r => r.2.st == 7) || (s.cellar.groups.rows.any fun r => r.2.st != 0) ||
    ((upto 32).any fun l => s.paired l && !s.linkUp l)
  b2n (s.pool.setState == 3) + 2 * b2n bad + 4 * b2n (s.power.st == 2)

/-- No firmware runs for good: R419 or R407. -/
def State.noFirmware (s : State) : Bool := s.ik.noFirmware || s.sec.st == 4

/-- ALERT_N as the device would drive it with no hold (R413, R435, R445, R501). -/
def State.alertNow (s : State) : Bool :=
  s.irq.alertStatus != 0 || s.ik.bothLost || s.noFirmware || s.sec.st == 2 || s.power.clocksLost

/-- ALERT_N is asserted: held in a management gap and in Night, released in reset, except after THERMTRIP (R428, R494, R552, Table 17.10). -/
def State.alertN (s : State) : Bool :=
  if !s.power.aon then false
  else if s.power.thermtrip then true
  else if s.power.inReset then false
  else if s.sec.st == 2 then true
  else match s.power.held with | some h => h.1 | none => s.alertNow

/-- STAT[3:0]: held in a management gap and in Night, low in reset, TAMPER_HALT and TEST_HALT (R539, R552). -/
def State.stat (s : State) : Nat :=
  if !s.up || s.halted then 0
  else match s.power.held with | some h => h.2 | none => s.statNow + 8 * b2n s.power.stat3

/-- The contacts hold their values from now on (R428, R494). -/
def State.holdOutputs (s : State) : State :=
  match s.power.held with
  | some _ => s
  | none => { s with power := { s.power with held := some (s.alertN, s.stat) } }

/-- The contacts are released from hold. -/
def State.releaseOutputs (s : State) : State := { s with power := { s.power with held := none } }

/-- FW_SVN_MIN: the fuses (R408). -/
def State.svnMin (s : State) : Nat := max Config.svnFused s.sec.svnBlown

end Sys2Proof.Machine
end

