-- ==== Sys2Proof/Machine/Streams.lean ====
section
/-! DEFINITION. Meanings of the commands of streams, waybills, tallies and clusters (chapter 02, R82, R125): stream records,
fetch, start, completion, tallies, dispatch, commits and losses. -/

namespace Sys2Proof.Machine

open Sys2Proof

/-! ## Stream records (R61, R69, R87) -/

/-- A guest that a CREATE or ALLOC may name: Defined, not fatal, not TEARING (R61, R88). -/
def State.guestSound (s : State) (gid : Nat) : Bool :=
  match s.pool.guests.find gid with
  | some g => !g.tearing && g.fatal == 0
  | none => false

/-- The ring of a CREATE is valid (R61). -/
def State.ringOk (s : State) (gid ring k : Nat) : Bool :=
  ring % 4096 == 0 && decide (k ≤ 20) && decide (ring < 2 ^ 48) &&
    (match (s.guest gid).windowAt ring with
     | some w => s.homed w && w.read && w.holds (ring + 128 * 2 ^ k - 1)
     | none => false)

/-- Stream number of STREAM_CMD. -/
def State.cmdStream (s : State) : Nat := s.reg Obj.streamCmdStream % 2 ^ 20

/-- First byte of a stream's entry in the DRAM stream table (R17, R66). -/
def State.streamAt (s : State) (k : Nat) : Nat := s.cellar.tableBase + 0x100000000 + k * 1024

/-- A stream's entry is written whole over its place in the DRAM stream table, which clears POISON there (R66, R386). -/
def State.writeStream (s : State) (k : Nat) : State :=
  let gid := (s.work.streams.getD k {}).gid
  (lineAddrs (s.streamAt k) 1024).foldl (fun (s : State) (l : Nat) => State.useFree (s.wcbPut l gid (s.freeBytes 64)) 64) s

/-- Lines of a stream's entry that are lost or poisoned. -/
def State.streamBad (s : State) (k : Nat) : List Nat := (lineAddrs (s.streamAt k) 1024).filter s.tableLineBad

/-- The entry of an arriving stream is read; a lost or poisoned line makes its guest fatal (R66, R386). -/
def State.readStream (s : State) (k : Nat) : State :=
  (s.streamBad k).foldl (fun (s : State) a => s.guestFatal (s.work.streams.getD k {}).gid a (s.wcbOf (s.place a)).1) s

/-- STREAM_CREATE (R61). DESIGN CHOICE (assumption 33): a new stream is spilled, and a stream that exists is told before an unsound
guest. -/
def execStreamCreate (s : State) : Host.Outcome State Fault Refusal :=
  record s Obj.streamCmdOp Obj.streamCmdResult 0x01 fun s =>
    let k := s.cmdStream
    let gid := s.reg Obj.streamCmdGid % 2 ^ 20
    let res (r : Nat) : State := s.setReg Obj.streamCmdResult r
    if s.work.streams.has k then res 0x02
    else if !s.guestSound gid then res 0x06
    else if !s.ringOk gid (s.reg Obj.streamCmdRingPva) (s.reg Obj.streamCmdLog2Size) then res 0x04
    else
      let t : Stream := { gid := gid, ring := s.reg Obj.streamCmdRingPva, k := s.reg Obj.streamCmdLog2Size,
                          notify := s.reg Obj.notifyEpid % 2 ^ 20, limit := s.reg Obj.waitTimeout }
      State.setReg (State.writeStream { s with work := { s.work with streams := s.work.streams.put k t } } k) Obj.streamCmdResult 0

/-- STREAM_DESTROY (R69, R87): its context is overwritten with zeros (R400). -/
def execStreamDestroy (s : State) : Host.Outcome State Fault Refusal :=
  record s Obj.streamCmdOp Obj.streamCmdResult 0x02 fun s =>
    let k := s.cmdStream
    if !s.work.streams.has k then s.setReg Obj.streamCmdResult 0x03
    else if s.streamBusy k then s.setReg Obj.streamCmdResult 0x05
    else
      let s := (s.unholdFetch k).zeroArea (s.streamAt k) 1024 (s.work.streams.getD k {}).gid
      let s := { s with work := { s.work with streams := s.work.streams.del k, bells := s.work.bells.filter fun b => b.stream != k } }
      (s.resume fun r => r.stage == .bell).setReg Obj.streamCmdResult 0

/-- STREAM_RESET (R69, R87). -/
def execStreamReset (s : State) : Host.Outcome State Fault Refusal :=
  record s Obj.streamCmdOp Obj.streamCmdResult 0x03 fun s =>
    let k := s.cmdStream
    match s.work.streams.find k with
    | none => s.setReg Obj.streamCmdResult 0x03
    | some t =>
      if s.streamBusy k then s.setReg Obj.streamCmdResult 0x05
      else
        let s := s.unholdFetch k
        let s := s.countN (diePD (t.seqr / 8)) (t.seqr % 8) 0x4021 2 t.ahead.length
        (s.onStream k fun t => { t with tail := t.head, err := none, held := none, ahead := [] }).setReg Obj.streamCmdResult 0

/-- STREAM_QUERY (R69, Table 2.9). -/
def execStreamQuery (s : State) : Host.Outcome State Fault Refusal :=
  record s Obj.streamCmdOp Obj.streamCmdResult 0x04 fun s =>
    match s.work.streams.find s.cmdStream with
    | none => (((s.setReg Obj.streamCmdState 0).setReg Obj.streamCmdHead 0).setReg Obj.streamCmdErr 0).setReg Obj.streamCmdResult 0
    | some t =>
      let st := if t.err.isSome then 0x03 else if t.resident then 0x02 else 0x01
      let e := match t.err with | some (q, c) => q * 256 + c | none => 0
      (((s.setReg Obj.streamCmdState st).setReg Obj.streamCmdHead t.head).setReg Obj.streamCmdErr e).setReg Obj.streamCmdResult 0

/-- Resident stream that is spilled: the least recently used without an accepted waybill still running and without a doorbell that
waits (R66). -/
def State.streamVictim (s : State) : Option Nat :=
  ((s.work.streams.rows.filter fun r => r.2.resident && !s.streamBusy r.1 && !(s.work.bells.any fun b => b.stream == r.1)).foldl
    (fun (b : Option (Nat × Stream)) r => match b with
      | some v => if r.2.used < v.2.used then some r else b
      | none => some r) none).map (·.1)

/-- A stream is spilled (R66). -/
def State.spillStream (s : State) (k : Nat) : State := (s.writeStream k).onStream k fun t => { t with resident := false }

/-- Doorbells that waited for a stream are applied, each where it still advances TAIL, and others take their places (R63, R67). -/
def State.ringBells (s : State) (k : Nat) : State :=
  let mine := s.work.bells.filter fun b => b.stream == k
  let s := { s with work := { s.work with bells := s.work.bells.filter fun b => b.stream != k } }
  let s := mine.foldl (fun (s : State) b =>
    let t := s.work.streams.getD k {}
    let s := s.leaveQ qidBell k
    if t.dist t.tail < t.dist b.tail then s.applyBell k b.tail else s) s
  s.resume fun r => r.stage == .bell

/-- STREAM_SWAP_DONE (R66, R67): a spilled stream becomes resident, another being spilled where none is free. -/
def execStreamSwapDone (stream : Fin 1048576) (s : State) : Host.Outcome State Fault Refusal :=
  live s fun s =>
    let k := stream.val
    match s.work.streams.find k with
    | none => { s with work := { s.work with bells := s.work.bells.filter fun b => b.stream != k } }
    | some t =>
      if t.resident then s.ringBells k
      else if s.residentStreams < 16384 then (((s.countLedger 0x5013 1).readStream k).residentStream k).ringBells k
      else match s.streamVictim with
        | some v => ((((s.countLedger 0x5013 1).spillStream v).readStream k).residentStream k).ringBells k
        | none => s

/-! ## Fetch and start (R51, R64 to R71, R78) -/

/-- Wait-list entries in use (R78). -/
def State.waitEntries (s : State) : Nat := s.work.wbs.count fun _ w => w.waits.isSome

/-- An accepted slot becomes a waybill: HEAD advances, SEQ counts, it joins its tally's wait list unless the tally is ready, and it is
checked, but for a PUBLISH that FENCE or WAIT holds back (R22, R55, R65, R78, R188). -/
def State.accept (s : State) (k : Nat) (w : Waybill) : State :=
  let t := s.work.streams.getD k {}
  let q := t.seqr
  let waits := w.waitOn && s.tallyOf w.gid w.waitTally && !(s.work.tallies.getD w.waitTally {}).ready
  if waits && 65536 ≤ s.waitEntries then s else
  let now := s.now
  let w := { w with seq := t.seq, slot := t.head, splitDef := s.reg Obj.matrixSplitDefault, readShare := s.reg Obj.matrixReadShare,
                    dir := (s.guest t.gid).dir, dirEpoch := s.pool.dirEpoch, epoch := s.trans.epoch, waits := if waits then some now else none }
  let s := (s.unholdFetch k).onStream k fun t =>
    { t with head := (t.head + 1) % 2 ^ 21, seq := (t.seq + 1) % 2 ^ 32, ahead := t.ahead.filter fun a => a.1 != t.head }
  let s := { s with work := { s.work with wbs := s.work.wbs.put w.key w } }
  let s := s.countCluster q 0x4020 0
  let s := if w.opc == 0x60 && !s.mayStart w then (let f := s.fails4 w; s.onWb w.key fun w => { w with noTally := f }) else s.checkWb w.key
  if (s.wb w.key).waits.isSome then s.countCluster q 0x4020 2 else s

/-- The slot's words are known: R51's checks of CPL_PVA, then acceptance. DESIGN CHOICE (assumption 31): STREAM_CMD_ERR shows MALFORMED for a
misaligned CPL_PVA, and otherwise the status that the check it fails would give. -/
def State.acceptWords (s : State) (k : Nat) (ws : List Nat) : State :=
  let t := s.work.streams.getD k {}
  let w : Waybill := { stream := k, gid := t.gid, w := ws }
  if w.cplPva % 32 != 0 then s.fetchFail k 0x09 else
  match s.fetchAt k w.cplPva 32 true with
  | (.fail e, s) => s.fetchFail k e
  | (.wait, s) => s
  | (.at_ pa, s) => s.accept k { w with cpl := pa }

/-- WAYBILL_ACCEPT (R51, R64, R65, R69, R78, R386, R402): the slot at HEAD is fetched from the WCB or DRAM. -/
def execWaybillAccept (stream : Fin 1048576) (s : State) : Host.Outcome State Fault Refusal :=
  live s fun s =>
    let k := stream.val
    match s.work.streams.find k with
    | none => s
    | some t =>
      if !t.resident || t.err.isSome || t.head == t.tail then s
      else if (s.guest t.gid).tearing || (s.guest t.gid).fatal == 1 then s.fetchFail k 0x07
      else if (s.guest t.gid).fatal == 2 then s.fetchFail k 0x0D
      else if !(s.guest t.gid).resident then s.swapFetch t.gid k
      else match s.fetchAt k (t.slot t.head) 128 false with
        | (.fail e, s) => s.fetchFail k e
        | (.wait, s) => s
        | (.at_ pa, s) =>
          let (r, s) := (s.countCluster t.seqr 0x4021 0).slotBytes t.gid pa
          if r.waits then s
          else if r.poisoned then s.fetchFail k 0x02
          else s.acceptWords k (wordsOf r.bytes)

/-- DESCRIPTOR_PREFETCH (R70): the next slot not yet fetched ahead; a fault leaves no trace but its count. -/
def execDescriptorPrefetch (stream : Fin 1048576) (s : State) : Host.Outcome State Fault Refusal :=
  live s fun s =>
    let k := stream.val
    match s.work.streams.find k with
    | none => s
    | some t =>
      let i := (t.head + t.ahead.length) % 2 ^ 21
      if !t.resident || t.err.isSome || !s.streamBusy k || s.reg Obj.prefetchDepth ≤ t.ahead.length || t.dist t.tail ≤ t.ahead.length then s
      else
        let o := s.xlCached t.gid (t.slot i) false
        let (o, s) := if o == .miss then s.xlQuiet t.gid (t.slot i) false else (o, s)
        let (r, s) := match o with
          | .ok pa => s.slotBytes t.gid pa
          | _ => (({ fail := 0x05 } : Rd), s)
        if r.ok && !r.poisoned then (s.onStream k fun t => { t with ahead := t.ahead ++ [(i, r.bytes)] }).countCluster t.seqr 0x4021 1
        else s.countCluster t.seqr 0x4021 3

/-- WAYBILL_START (R54, R68, R71, R78): a waybill that may start runs, within 16 on its sequencer. -/
def execWaybillStart (stream : Fin 1048576) (seq : Nat) (s : State) : Host.Outcome State Fault Refusal :=
  live s fun s =>
    match s.work.wbs.find (wbKey stream seq) with
    | none => s
    | some w =>
      if !s.mayStart w || 16 ≤ s.seqLoad (s.work.streams.getD w.stream {}).seqr then s
      else if !(s.guest w.gid).resident then s.swapWb w.gid (wbKey stream seq)
      else s.withWords (wbKey stream seq) fun s => s.startWb (wbKey stream seq)

/-- WAIT_TIMEOUT_EXPIRY (R78): a waybill still on its wait list completes TIMEOUT; a stream whose WAIT_TIMEOUT is 0 has no limit. -/
def execWaitTimeoutExpiry (stream : Fin 1048576) (seq : Nat) (s : State) : Host.Outcome State Fault Refusal :=
  live s fun s =>
    let w := s.wb (wbKey stream seq)
    if w.st == 0 && w.waits.isSome && (s.work.streams.getD w.stream {}).limit != 0 then (s.endWhole (wbKey stream seq) 0x0C).countCluster (s.work.streams.getD w.stream {}).seqr 0x4020 3 else s

/-- WAYBILL_COMPLETE (R56 to R60, R84, R116, R117). -/
def execWaybillComplete (stream : Fin 1048576) (seq : Nat) (s : State) : Host.Outcome State Fault Refusal :=
  live s fun s => s.withWords (wbKey stream seq) fun s => s.completeWb (wbKey stream seq)

/-! ## Groups 0x6 and 0x7 (R38 to R42, R53, R79) -/

/-- A running waybill of an opcode has its effect and ends. -/
def State.effect (s : State) (stream seq opc : Nat) (f : State → Waybill → State) : State :=
  s.withWords (wbKey stream seq) fun s => match s.work.wbs.find (wbKey stream seq) with
  | none => s
  | some w => if w.st == 1 && w.opc == opc then f s w else s

/-- The waybill is ready for its record. -/
def State.endWb (s : State) (key : Nat) : State := s.onWb key fun w => { w with st := 2 }

/-- TALLY_INC. -/
def execTallyInc (stream : Fin 1048576) (seq : Nat) (s : State) : Host.Outcome State Fault Refusal :=
  live s fun s => s.effect stream seq 0x61 fun s w => (s.addTally (bitsOf (w.op 0) 15 0) (w.op 1)).endWb w.key

/-- TALLY_SET. -/
def execTallySet (stream : Fin 1048576) (seq : Nat) (s : State) : Host.Outcome State Fault Refusal :=
  live s fun s => s.effect stream seq 0x62 fun s w => (s.changeTally (bitsOf (w.op 0) 15 0) fun x => { x with count := w.op 1 }).endWb w.key

/-- TALLY_ARM. -/
def execTallyArm (stream : Fin 1048576) (seq : Nat) (s : State) : Host.Outcome State Fault Refusal :=
  live s fun s => s.effect stream seq 0x63 fun s w => (s.changeTally (bitsOf (w.op 0) 15 0) fun x => { x with target := w.op 1 }).endWb w.key

/-- TALLY_READ. -/
def execTallyRead (stream : Fin 1048576) (seq : Nat) (s : State) : Host.Outcome State Fault Refusal :=
  live s fun s => s.effect stream seq 0x64 fun s w =>
    (s.onWb w.key fun x => { x with mask := (s.work.tallies.getD (bitsOf (w.op 0) 15 0) {}).count }).endWb w.key

/-- DRAIN: every waybill accepted earlier from its stream has completed. -/
def execDrain (stream : Fin 1048576) (seq : Nat) (s : State) : Host.Outcome State Fault Refusal :=
  live s fun s => s.effect stream seq 0x65 fun s w => if s.work.wbs.rows.any fun r => r.2.earlier w then s else s.endWb w.key

/-- NOP. -/
def execNop (stream : Fin 1048576) (seq : Nat) (s : State) : Host.Outcome State Fault Refusal :=
  live s fun s => s.effect stream seq 0x70 fun s w => s.endWb w.key

/-- CANCEL (R79): every waybill of its stream with the WID, accepted earlier and not completed. -/
def execCancel (stream : Fin 1048576) (seq : Nat) (s : State) : Host.Outcome State Fault Refusal :=
  live s fun s => s.effect stream seq 0x71 fun s w =>
    let hit (x : Waybill) : Bool := x.earlier w && x.wid == bitsOf (w.op 0) 31 0 && decide (x.st ≤ 1) && !x.cancelled
    let n := s.work.wbs.count fun _ x => hit x
    let s := { s with work := { s.work with wbs := s.work.wbs.map fun _ x => if hit x then s.cancelWb x else x } }
    (s.onWb w.key fun x => { x with mask := n }).endWb w.key

/-- Pool ranges of a PUBLISH: its pages that are mapped. DESIGN CHOICE (assumption 30): pages that are unmapped, not resident or zero-mapped
hold no write and are passed over. -/
def State.publishRanges (s : State) (w : Waybill) : List (Nat × Nat) × State :=
  let cl := (s.work.streams.getD w.stream {}).seqr
  (pieces w.src w.len).foldl (fun (b : List (Nat × Nat) × State) x =>
    match b.2.porterXl cl w.gid x.1 false with
    | (.ok pa, s) => (b.1 ++ [(pa, x.2)], s)
    | (_, s) => (b.1, s)) ([], s)

/-- PUBLISH (R38, R39): the writes of the range that the WCBs hold at this moment are to drain. -/
def execPublish (stream : Fin 1048576) (seq : Nat) (s : State) : Host.Outcome State Fault Refusal :=
  live s fun s => s.effect stream seq 0x60 fun s w =>
    if w.pubStep != 0 then s else
    let (rs, s) := s.publishRanges w
    let ls := (rs.map fun x => s.wcbLinesIn x.1 x.2).flatten
    s.onWb w.key fun x => { x with pubStep := 1, drains := ls.map fun l => l.1 * 2 ^ 40 + l.2 }

/-- The LRC lines of a PUBLISH's range go (R38 step 2, R40). -/
def State.publishDrop (s : State) (w : Waybill) : State :=
  let (rs, s) := s.publishRanges w
  rs.foldl (fun (s : State) x => s.lrcPublish x.1 x.2) s

/-- PUBLISH_DRAIN_DONE (R38, R42): once every such write is in DRAM, the LRC lines of the range go; a range above 1 MiB sweeps. -/
def execPublishDrainDone (stream : Fin 1048576) (seq : Nat) (s : State) : Host.Outcome State Fault Refusal :=
  live s fun s => s.effect stream seq 0x60 fun s w =>
    if w.pubStep != 1 then s else
    let s := w.drains.foldl (fun (s : State) d => s.drainLine (d / 2 ^ 40) (d % 2 ^ 40)) s
    if w.drains.any fun d => (s.chan (d / 2 ^ 40)).wcb.has (d % 2 ^ 40) then s
    else if w.len ≤ 1048576 then (s.publishDrop w).endWb w.key
    else ((s.countLedger 0x5010 4).publishDrop w).onWb w.key fun x => { x with pubStep := 2 }

/-- LRC_SWEEP_DONE (R42). -/
def execLrcSweepDone (stream : Fin 1048576) (seq : Nat) (s : State) : Host.Outcome State Fault Refusal :=
  live s fun s => s.effect stream seq 0x60 fun s w => if w.pubStep == 2 then (s.publishDrop w).endWb w.key else s

/-! ## Tallies (R76 to R80, R88, R89) -/

/-- Tally number of TALLY_CMD. -/
def State.cmdTally (s : State) : Nat := s.reg Obj.tallyCmdTally

/-- A TALLY_CMD operation on an allocated tally; on any other, result 0x03. -/
def State.onTally (s : State) (f : State → Tally → State) : State :=
  match s.work.tallies.find s.cmdTally with
  | some x => f s x
  | none => s.setReg Obj.tallyCmdResult 0x03

/-- TALLY_ALLOC (R88). -/
def execTallyAlloc (s : State) : Host.Outcome State Fault Refusal :=
  record s Obj.tallyCmdOp Obj.tallyCmdResult 0x01 fun s =>
    let gid := s.reg Obj.tallyCmdGid % 2 ^ 20
    if !s.guestSound gid then s.setReg Obj.tallyCmdResult 0x06
    else match s.work.tallies.lowestFree 16384 with
      | none => s.setReg Obj.tallyCmdResult 0x02
      | some t =>
        (State.setReg { s with work := { s.work with tallies := s.work.tallies.put t { gid := gid } } } Obj.tallyCmdTally t).setReg Obj.tallyCmdResult 0

/-- TALLY_FREE (R88). -/
def execTallyFree (s : State) : Host.Outcome State Fault Refusal :=
  record s Obj.tallyCmdOp Obj.tallyCmdResult 0x02 fun s => s.onTally fun s _ =>
    if s.waiters s.cmdTally != 0 then s.setReg Obj.tallyCmdResult 0x04
    else State.setReg { s with work := { s.work with tallies := s.work.tallies.del s.cmdTally } } Obj.tallyCmdResult 0

/-- TALLY_CMD_ARM (R89). -/
def execTallyCmdArm (s : State) : Host.Outcome State Fault Refusal :=
  record s Obj.tallyCmdOp Obj.tallyCmdResult 0x03 fun s => s.onTally fun s _ =>
    let v := s.reg Obj.tallyCmdValue
    (s.changeTally s.cmdTally fun x => { x with target := v }).setReg Obj.tallyCmdResult 0

/-- TALLY_CMD_SET (R89). -/
def execTallyCmdSet (s : State) : Host.Outcome State Fault Refusal :=
  record s Obj.tallyCmdOp Obj.tallyCmdResult 0x04 fun s => s.onTally fun s _ =>
    let v := s.reg Obj.tallyCmdValue
    (s.changeTally s.cmdTally fun x => { x with count := v }).setReg Obj.tallyCmdResult 0

/-- MIRROR_PVA may be set for a guest (R88). -/
def State.mirrorOk (s : State) (gid pva : Nat) : Bool :=
  pva % 8 == 0 && (match (s.guest gid).windowAt pva with | some w => s.homed w && w.write | none => false)

/-- TALLY_CONFIG (R88). -/
def execTallyConfig (s : State) : Host.Outcome State Fault Refusal :=
  record s Obj.tallyCmdOp Obj.tallyCmdResult 0x05 fun s => s.onTally fun s x =>
    let f := s.reg Obj.tallyCmdFlags
    let pva := s.reg Obj.tallyCmdMirrorPva
    if bitOf f 0 && !s.mirrorOk x.gid pva then s.setReg Obj.tallyCmdResult 0x05
    else
      let y := { x with mirror := bitOf f 0, notifyOn := bitOf f 1, mirrorPva := pva % 2 ^ 48, notify := s.reg Obj.tallyCmdNotifyEpid % 2 ^ 20, due := bitOf f 0 && x.due }
      State.setReg { s with work := { s.work with tallies := s.work.tallies.put s.cmdTally y } } Obj.tallyCmdResult 0

/-- The 64 bytes of a tally's entry (Table 2.8). -/
def Tally.bytes (x : Tally) (waiters : Nat) : Bytes :=
  leBytes 8 x.count ++ leBytes 8 x.target ++
    leBytes 8 (2 ^ 63 + b2n x.notifyOn * 2 ^ 62 + b2n x.mirror * 2 ^ 61 + x.gid * 2 ^ 32 + waiters) ++ leBytes 8 x.mirrorPva ++ leBytes 8 x.notify ++ zeroBytes 24

/-- TALLY_QUERY (Table 2.10). -/
def execTallyQuery (s : State) : Host.Outcome State Fault Refusal :=
  record s Obj.tallyCmdOp Obj.tallyCmdResult 0x06 fun s => s.onTally fun s x =>
    (s.setBlob Obj.tallyCmdEntry (x.bytes (s.waiters s.cmdTally))).setReg Obj.tallyCmdResult 0

/-- TALLY_MIRROR_WRITE (R10, R80): COUNT is written and published, or the write is dropped where its translation fails. A spilled owner
is made resident first. -/
def execTallyMirrorWrite (tally : Fin 16384) (s : State) : Host.Outcome State Fault Refusal :=
  live s fun s => match s.work.tallies.find tally with
    | none => s
    | some x =>
      if !x.due then s else
      let clear (s : State) : State := { s with work := { s.work with tallies := s.work.tallies.upd tally fun y => { y with due := false } } }
      let open_ := match (s.guest x.gid).windowAt x.mirrorPva with | some w => s.homed w && w.write | none => false
      if !open_ || (s.guestCheck x.gid).isSome || (s.keyCheck x.gid).isSome || !s.keyUnwraps x.gid then clear s
      else if !(s.guest x.gid).resident then s.startSwap x.gid else
      let o := s.xlCached x.gid x.mirrorPva true
      let (o, s) := if o == .miss then s.xlQuiet x.gid x.mirrorPva true else (o, s)
      match o with
      | .zero l p pa => s.startFill x.gid l p pa
      | .ok pa =>
        if (s.filling pa).isSome then s else
        let (done, s) := s.publishWrite pa x.gid (leBytes 8 x.count)
        if done then clear s else s
      | _ => clear s

/-- TRK_HIGH_WATER_WRITE (Table 2.9): 0 restarts the mark from TRK_IN_USE; any other value is refused (R556). -/
def execTrkHighWaterWrite (v : Nat) (s : State) : Host.Outcome State Fault Refusal :=
  managed s fun s => if v == 0 then s.setReg Obj.trkHighWater s.pool.reqs.size else s

/-- ARITH_FLAGS_SEEN_WRITE (R117). -/
def execArithFlagsSeenWrite (v : Nat) (s : State) : Host.Outcome State Fault Refusal :=
  managed s fun s => s.setReg Obj.arithFlagsSeen (clearMask (s.reg Obj.arithFlagsSeen) v)

/-! ## Chunks, commits and losses (R81 to R85, R125, R146, R399, R400) -/

/-- CHUNK_DISPATCH (R85, R124, R125, R169, R171, R172). -/
def execChunkDispatch (stream : Fin 1048576) (seq : Nat) (s : State) : Host.Outcome State Fault Refusal :=
  live s fun s => s.withWords (wbKey stream seq) fun s => s.dispatch (wbKey stream seq)

/-- CLUSTER_CLEAR_DONE (R399): the cluster's L1 TLB and scratchpad are clear, and the chunks that waited start. -/
def execClusterClearDone (cluster : Fin 128) (s : State) : Host.Outcome State Fault Refusal :=
  live s fun s =>
    let x := s.cluster cluster
    if !x.clearing || x.pw != 0 then s else
    let s := s.onCluster cluster fun c => { c with clearing := false, lastGid := s.clusterGuest cluster }
    let start (w : Waybill) : Waybill := { w with chunks := w.chunks.map fun _ c => if c.cluster == cluster.val && c.st == 1 then { c with clearing := false } else c }
    { s with work := { s.work with wbs := s.work.wbs.map fun _ w => start w }, trans := { s.trans with tlbs := s.trans.tlbs.del cluster } }

/-- GRANULE_COMMIT (R81, R115, R130, R154): the test-and-set for the write of a cluster. -/
def execGranuleCommit (stream : Fin 1048576) (seq g : Nat) (cluster : Fin 128) (s : State) : Host.Outcome State Fault Refusal :=
  live s fun s => s.testAndSet (wbKey stream seq) g cluster

/-- CLUSTER_LOST (R82, R487): a cluster that is Shuttered or Dark is not declared lost. -/
def execClusterLost (cluster : Fin 128) (s : State) : Host.Outcome State Fault Refusal :=
  live s fun s =>
    let x := s.cluster cluster
    if !s.clusterUp cluster || x.pw == 1 || x.pw == 2 then s else s.loseCluster cluster

/-- CHUNK_REDISPATCH (R82, R83, R174, R175). -/
def execChunkRedispatch (stream : Fin 1048576) (seq chunk : Nat) (s : State) : Host.Outcome State Fault Refusal :=
  live s fun s => s.withWords (wbKey stream seq) fun s => s.redispatch (wbKey stream seq) chunk

/-- A stream of a lost sequencer is bound to a surviving one, and its waybills are to be fetched again from their slots (R82). -/
def State.rebind (s : State) (k : Nat) : State :=
  let q := s.bestSeqr
  let s := s.onStream k fun t => { t with seqr := q, ahead := [] }
  { s with work := { s.work with wbs := s.work.wbs.map fun _ w => if w.stream == k then { w with refetch := true } else w } }

/-- PORTER_DIE_LOST (R82): the clusters are lost, and the streams of its sequencers are bound to surviving ones. -/
def execPorterDieLost (die : Fin 16) (s : State) : Host.Outcome State Fault Refusal :=
  live s fun s =>
    if !s.hasDie (diePD die) then s else
    let s := (upto 8).foldl (fun (s : State) i => if (s.cluster (die * 8 + i)).lost then s else s.loseCluster (die * 8 + i)) s
    let s := { s with power := { s.power with present := clearBit s.power.present (diePD die) } }
    let s := s.work.streams.keys.foldl (fun (s : State) k =>
      if (s.work.streams.getD k {}).seqr / 8 == die.val then s.rebind k else s) s
    s.log 0x12 (diePD die) (diePD die)

/-- CLUSTER_RETURNS_TO_SERVICE (R400): it has no last guest, so that it is cleared before any chunk. -/
def execClusterReturnsToService (cluster : Fin 128) (s : State) : Host.Outcome State Fault Refusal :=
  live s fun s => if (s.cluster cluster).lost then
    (let now := s.now; s.onCluster cluster fun x => { x with lost := false, lastGid := none, clearing := false, pw := 0, idle := now }) else s

end Sys2Proof.Machine
end

