-- ==== Sys2Proof/Machine/Pool.lean ====
section
/-! DEFINITION. Guest commands, residency swaps and set formation (chapter 01: R10 to R15, R22 to R30, R47, R48). -/

namespace Sys2Proof.Machine

open Sys2Proof

/-! ## Guest definitions -/

/-- A window directory entry's 128 bits (Table 1.4). -/
def windowBits (w : Window) : Nat :=
  w.base * 2 ^ 110 + w.size * 2 ^ 94 + w.home * 2 ^ 88 + b2n w.valid * 128 + b2n w.hearth * 64 + b2n w.lrcAlloc * 32 + b2n w.atomic * 16 +
    b2n w.write * 8 + b2n w.read * 4

/-- A guest's definition as DISTRIBUTE carries it. -/
def State.guestDef (s : State) (gid : Nat) : GuestDef :=
  { gid := gid, pkey := (s.guest gid).pkey, dir := (s.guest gid).dir.rows.map fun r => (r.1, windowBits r.2) }

/-- Resident slots free for a new guest (R10). -/
def State.slotFree (s : State) : Bool := decide (s.residents + (s.pool.swaps.filter (·.slot)).length < 16384)

/-- A guest becomes defined here: its key is made, it is resident if a slot is free, and a window directory that an earlier teardown left
stands (R10, R392, R401). -/
def State.defineGuest (s : State) (gid pkey : Nat) : State :=
  let free := s.slotFree
  let (k, s) := s.makeKey gid
  let g : Guest := { resident := free, pkey := pkey, key := k, dir := s.pool.oldDirs.getD gid {}, used := s.pool.stamp + 1 }
  let s := { s with pool := { s.pool with guests := s.pool.guests.put gid g, oldDirs := s.pool.oldDirs.del gid, stamp := s.pool.stamp + 1 } }
  if free then s else s.spill gid

/-- A definition of the manager's is applied here (R24, R27, R48). -/
def State.applyDef (s : State) (d : GuestDef) : State :=
  if s.sec.noDefine || (s.guest d.gid).tearing then s else
  let s := if s.pool.guests.has d.gid then s else s.defineGuest d.gid d.pkey
  let dir := d.dir.foldl (fun (t : Tab Window) e => t.put e.1 (windowOf e.2)) {}
  s.onGuest d.gid fun g => { g with pkey := d.pkey, dir := dir }

/-- Members other than this device, as (DEVID, EPID). -/
def State.others (s : State) : List (Nat × Nat) := (s.pool.members.rows.filter fun r => r.1 != s.pool.devid).map fun r => (r.1, r.2.epid)

/-- Every member, as (DEVID, EPID). -/
def State.memberList (s : State) : List (Nat × Nat) := s.pool.members.rows.map fun r => (r.1, r.2.epid)

/-- A DISTRIBUTE to every other member (R22, R24). -/
def State.distributeAll (s : State) (defs : List GuestDef) (erase : List Nat) : State :=
  s.others.foldl (fun (s : State) m => s.sendSet m.2 (.distribute s.memberList defs erase)) s

/-! ## Guest commands (R15, R19, R22, R47, R48) -/

/-- GID of the guest command. -/
def State.cmdGid (s : State) : Nat := s.reg Obj.guestCmdGid % 2 ^ 20

/-- RESULT of the guest command. -/
def State.guestResult (s : State) (v : Nat) : State := s.setReg Obj.guestCmdResult v

/-- A guest command is refused where the manual names no result code: 0x02 to 0x08 are free (assumption 4). -/
def State.refuseGuestCmd (s : State) : State := (s.guestResult (2 + Config.freeNat s.freeCount % 7)).useFree 1

/-- A guest command that only the manager takes, and only while it serves (R30, R47; assumption 35). -/
def mgrCmd (s : State) (code : Nat) (f : State → State) : Host.Outcome State Fault Refusal :=
  record s Obj.guestCmdOp Obj.guestCmdResult code fun s =>
    if !s.power.roleMgr then s.guestResult 0x05 else if s.pool.setState != 3 then s.refuseGuestCmd else f s

/-- The key may be a guest's device partition key (R48). -/
def pkeyOk (k : Nat) : Bool := decide (1 ≤ k) && decide (k ≤ 0xFFFE)

/-- A change applied on the manager goes to the members, and RESULT reads 0x01 (R22, R47). -/
def State.guestPending (s : State) (kind gid : Nat) : State :=
  let c : GuestCmd := { kind := kind, gid := gid, dirEpoch := s.pool.dirEpoch }
  let d := s.guestDef gid
  let s := State.distributeAll { s with pool := { s.pool with dirEpoch := s.pool.dirEpoch + 1, cmd := c } } [d] []
  s.guestResult 0x01

/-- DEFINE (R47, R48, R392, R411). -/
def execDefine (s : State) : Host.Outcome State Fault Refusal :=
  mgrCmd s 0x01 fun s =>
    if s.sec.noDefine then s.refuseGuestCmd
    else if s.pool.guests.has s.cmdGid then s.guestResult 0x02
    else if !pkeyOk (s.reg Obj.guestCmdPkey) then s.guestResult 0x07
    else (s.defineGuest s.cmdGid (s.reg Obj.guestCmdPkey)).guestPending 2 s.cmdGid

/-- SET_PKEY (R48). -/
def execSetPkey (s : State) : Host.Outcome State Fault Refusal :=
  mgrCmd s 0x07 fun s =>
    if !s.pool.guests.has s.cmdGid then s.guestResult 0x03
    else if !pkeyOk (s.reg Obj.guestCmdPkey) then s.guestResult 0x07
    else (s.onGuest s.cmdGid fun g => { g with pkey := s.reg Obj.guestCmdPkey }).guestPending 1 s.cmdGid

/-- The valid window keeps to R18 and R19 beside the guest's other windows. -/
def windowFits (dir : Tab Window) (i : Nat) (w : Window) : Bool :=
  decide (1 ≤ w.size) && decide (w.base + w.size ≤ 2 ^ 18) &&
    dir.rows.all fun r => r.1 == i || !r.2.valid || !overlaps w.base w.size r.2.base r.2.size

/-- Reserved bits of a directory entry are 0 (Table 1.4). -/
def windowRsvdOk (n : Nat) : Bool := bitsOf n 87 8 == 0 && bitsOf n 1 0 == 0

/-- WINDOW_SET (R18, R19, R22). DESIGN CHOICE (assumption 36): an undefined GID is told before an invalid window, and reserved bits
of the entry that are set make it invalid. -/
def execWindowSet (s : State) : Host.Outcome State Fault Refusal :=
  mgrCmd s 0x04 fun s =>
    let i := s.reg Obj.guestCmdWindow
    let n := leNat (s.blob Obj.guestCmdEntry)
    let w := windowOf n
    if !s.pool.guests.has s.cmdGid then s.guestResult 0x03
    else if 240 ≤ i || !windowRsvdOk n || (w.valid && !windowFits (s.guest s.cmdGid).dir i w) then s.guestResult 0x06
    else (s.onGuest s.cmdGid fun g => { g with dir := g.dir.put i w }).guestPending 1 s.cmdGid

/-- WINDOW_CLEAR (R22): the entry is no longer in use. -/
def execWindowClear (s : State) : Host.Outcome State Fault Refusal :=
  mgrCmd s 0x05 fun s =>
    let i := s.reg Obj.guestCmdWindow
    if !s.pool.guests.has s.cmdGid then s.guestResult 0x03
    else if 240 ≤ i then s.guestResult 0x06
    else (s.onGuest s.cmdGid fun g => { g with dir := g.dir.del i }).guestPending 1 s.cmdGid

/-- Requests and waybills of the guest accepted under the old entry are not over (R22). -/
def State.underOld (s : State) (gid epoch : Nat) : Bool :=
  (s.pool.reqs.rows.any fun r => r.2.gid == gid && r.2.stage != .mgmt && decide (r.2.dirEpoch ≤ epoch)) ||
    (s.work.wbs.rows.any fun w => w.2.gid == gid && w.2.checked && decide (w.2.dirEpoch ≤ epoch))

/-- GUEST_CMD_APPLIED (R22, R392): the other members have applied the change, and RESULT reads done once this device has
drained, and for a DEFINE holds the key. -/
def execGuestCmdApplied (s : State) : Host.Outcome State Fault Refusal :=
  managed s fun s =>
    let c := s.pool.cmd
    let ready := (c.kind == 1 && !s.underOld c.gid c.dirEpoch) || (c.kind == 2 && (s.guest c.gid).key.kstate == 1)
    if s.busy Obj.guestCmdResult && ready then State.guestResult { s with pool := { s.pool with cmd := {} } } 0x00 else s

/-- Guests pinned. -/
def State.pinnedCount (s : State) : Nat := s.pool.guests.count fun _ g => g.pinned

/-- The pin limit leaves room for another (R15). -/
def State.pinRoom (s : State) : Bool := decide (s.pinnedCount < s.reg Obj.guestPinnedLimit)

/-- PIN (R15, R47): a spilled guest is made resident first. DESIGN CHOICE (assumption 36): a PIN of a guest that is pinned already is
done at once, whatever the limit. -/
def execPin (s : State) : Host.Outcome State Fault Refusal :=
  record s Obj.guestCmdOp Obj.guestCmdResult 0x02 fun s =>
    let g := s.guest s.cmdGid
    if !s.pool.guests.has s.cmdGid then s.guestResult 0x03
    else if g.pinned then s.guestResult 0x00
    else if !s.pinRoom then s.guestResult 0x04
    else if g.resident then (s.onGuest s.cmdGid fun g => { g with pinned := true }).guestResult 0x00
    else
      let s := s.startSwap s.cmdGid
      State.guestResult { s with pool := { s.pool with cmd := { kind := 3, gid := s.cmdGid } } } 0x01

/-- UNPIN (R47). -/
def execUnpin (s : State) : Host.Outcome State Fault Refusal :=
  record s Obj.guestCmdOp Obj.guestCmdResult 0x03 fun s =>
    if !s.pool.guests.has s.cmdGid then s.guestResult 0x03
    else (s.onGuest s.cmdGid fun g => { g with pinned := false }).guestResult 0x00

/-- GUEST_CMD_STATE of a guest (Table 1.8). -/
def State.guestState (s : State) (gid : Nat) : Nat :=
  match s.pool.guests.find gid with
  | none => 0x00
  | some g => if g.tearing then 0x05 else if g.fatal != 0 then 0x04 else if g.pinned then 0x03 else if g.resident then 0x02 else 0x01

/-- QUERY of GUEST_CMD (R47). DESIGN CHOICE (assumption 36): for a GID that is not defined GUEST_CMD_PKEY reads 0. -/
def execGuestQuery (s : State) : Host.Outcome State Fault Refusal :=
  record s Obj.guestCmdOp Obj.guestCmdResult 0x06 fun s =>
    ((s.setReg Obj.guestCmdState (s.guestState s.cmdGid)).setReg Obj.guestCmdPkey (s.guest s.cmdGid).pkey).guestResult 0x00

/-! ## Swaps (R10 to R14) -/

/-- Swap that a guest waits for. -/
def State.swapOf (s : State) (gid : Nat) : Option Swap := s.pool.swaps.find? fun w => w.gid == gid

/-- The swap of a guest is over. -/
def State.endSwap (s : State) (gid : Nat) : State := { s with pool := { s.pool with swaps := s.pool.swaps.filter fun w => w.gid != gid } }

/-- The arriving entry is unwrapped: a bad header line or key record makes the guest fatal under R396, another lost line
under R386. -/
def State.checkEntry (s : State) (gid : Nat) : State :=
  let a := s.cellar.tableBase + gid * 4096
  let bad (i : Nat) : Bool := s.tableLineBad (a + 64 * i)
  if (upto 4).any bad then s.keyFail gid
  else match ((upto 64).drop 4).find? bad with
    | some i => s.guestFatal gid (a + 64 * i) (s.wcbOf (s.place (a + 64 * i))).1
    | none => s

/-- A PIN that waited for the guest ends. -/
def State.endPin (s : State) (gid : Nat) (done : Bool) : State :=
  let c := s.pool.cmd
  if c.kind == 3 && c.gid == gid then
    let s := { s with pool := { s.pool with cmd := {} } }
    if !done then s.guestResult 0x08
    else if s.pinRoom then (s.onGuest gid fun g => { g with pinned := true }).guestResult 0x00
    else s.guestResult 0x04
  else s

/-- GUEST_SWAP_DONE (R12): the entry is installed and what waited for it goes on. -/
def execGuestSwapDone (gid : Fin 1048576) (s : State) : Host.Outcome State Fault Refusal :=
  live s fun s =>
    match s.swapOf gid.val with
    | none => s
    | some w =>
      if !w.slot then s else
      let s := (s.endSwap gid.val).onGuest gid.val fun g => { g with resident := true }
      let s := if s.pool.guests.has gid.val then (s.touchGuest gid.val).checkEntry gid.val else s
      (s.endPin gid.val true).resume fun r => r.stage == .swap && r.gid == gid.val

/-- Every granule of a waybill that is not committed fails with a cause, and no chunk is left. -/
def Waybill.failRest (w : Waybill) (cause : Nat) : Waybill :=
  { w with marks := w.uncommitted.foldl (fun t g => t.put g cause) w.marks, chunks := w.chunks.map fun _ c => { c with st := 3 }, st := 2 }

/-- A waybill whose guest could not be made resident completes NOT_RESIDENT. -/
def State.noSwapWb (s : State) (key : Nat) : State :=
  if (s.wb key).st == 0 then s.endWhole key 0x06 else if (s.wb key).st == 1 then s.onWb key fun w => w.failRest 0x06 else s

/-- GUEST_SWAP_HOLD_EXPIRY (R13): a victim that is eligible in this cycle wins; without one, what waits for the guest ends
NOT_RESIDENT. -/
def execGuestSwapHoldExpiry (gid : Fin 1048576) (s : State) : Host.Outcome State Fault Refusal :=
  live s fun s =>
    match s.swapOf gid.val with
    | none => s
    | some w =>
      if w.slot then s
      else if s.slotFree || s.swapVictim.isSome then s.swapSlot w else
      let s := (s.endSwap gid.val).countLedger 0x5013 2
      let waiting := (s.pool.reqs.rows.filter fun r => r.2.stage == .swap && r.2.gid == gid.val).map (·.1)
      let s := waiting.foldl (fun (s : State) t => s.endReq t 0x06 [] false) s
      let s := w.wbs.foldl (fun (s : State) k => s.noSwapWb k) s
      let s := w.fetches.foldl (fun (s : State) k => s.streamError k 0x06) s
      s.endPin gid.val false

/-- SWAP_VICTIM_ELIGIBLE (R11, R13): swaps that look for a victim take one, oldest first. -/
def execSwapVictimEligible (s : State) : Host.Outcome State Fault Refusal :=
  live s fun s => s.pool.swaps.foldl (fun (s : State) w => match s.swapOf w.gid with | some w => s.swapSlot w | none => s) s

/-! ## Set formation (R23 to R30) -/

/-- SET_ID in force (R45). -/
def State.setIdNow (s : State) : Nat := s.inForce Obj.setId

/-- The device enters SERVING (Table 1.5, step 7; Table 16.9). -/
def State.enterServing (s : State) : State :=
  { s with pool := { s.pool with setState := 3 }, obs := { s.obs with startOver := true } }

/-- Definitions of every guest known here. -/
def State.allDefs (s : State) : List GuestDef := s.pool.guests.keys.map s.guestDef

/-- Steps 6 and 7: the manager distributes guests and directories, and serves. -/
def State.endForming (s : State) : State := (s.distributeAll s.allDefs []).enterServing

/-- Workers that have joined. -/
def State.workerCount (s : State) : Nat := s.pool.members.count fun k _ => k != 0

/-- The manager's expected workers have all joined. -/
def State.allJoined (s : State) : Bool := decide (s.inForce Obj.expectedWorkers ≤ s.workerCount)

/-- A 32-byte nonce of a new ANNOUNCE (R29). -/
def State.freshNonce (s : State) : State :=
  let (n, s) := s.draw 32
  { s with pool := { s.pool with nonce := n } }

/-- ANNOUNCE_SEND (R23, R24, R297): step 4 on the manager. With SET_ID 0 it forms a set of one. -/
def execAnnounceSend (s : State) : Host.Outcome State Fault Refusal :=
  managed s fun s =>
    if !s.power.roleMgr || s.pool.setState == 4 || s.pool.setState == 5 then s else
    let me : Member := { epid := s.epid, serial := Config.serialNumber }
    let s := { s with pool := { s.pool with devid := 0, managerEpid := s.epid, members := s.pool.members.put 0 me,
                                            setState := if s.pool.setState == 3 then 3 else 1 } }
    if s.setIdNow == 0 then s.enterServing
    else
      let s := s.freshNonce
      let m : SetMsg := .announce s.setIdNow s.pool.setState s.pool.nonce
      let s := (setPackets 0xFFFFF m).foldl (fun (s : State) p => s.broadcast p) s
      let peers := ((upto 63).map fun i => s.inForce (Obj.setPeerEpid i) % 2 ^ 20).filter (· != 0)
      let s := peers.foldl (fun (s : State) e => s.sendSet e m) s
      if s.pool.setState == 1 && s.allJoined then s.endForming else s

/-- What a JOIN's signature is made over: SHA-384 of SET_ID, DEVICE_ID_REQ and the nonce (R26). -/
def joinData (setId idReq : Nat) (nonce : Bytes) : Bytes := Config.sha384 (leBytes 4 setId ++ leBytes 1 idReq ++ nonce)

/-- A worker answers an ANNOUNCE with a JOIN to its sender (R24, R26, R297). -/
def State.sendJoin (s : State) (src state : Nat) (nonce : Bytes) : State :=
  let id := s.inForce Obj.deviceIdReq
  let sig := Config.ecdsaSign (joinData s.setIdNow id nonce)
  State.sendSet { s with pool := { s.pool with setState := 1, managerEpid := src, nonce := nonce, heard := state } } src
    (.join id ownChain sig)

/-- An EPID's SETMSGs are dropped from now on (R29). -/
def State.intrude (s : State) (src : Nat) : State :=
  State.irqEdge { s with pool := { s.pool with intruders := s.pool.intruders ++ [src] } } 0x009

/-- The device enters CONFLICT (R28, R29). -/
def State.conflict (s : State) : State := { s with pool := { s.pool with setState := 4 } }

/-- An ANNOUNCE of another device (R24, R28, R29). DESIGN CHOICE (assumption 29): a worker that follows a manager still forming and hears
one that is SERVING follows the latter, and one that follows a SERVING manager passes over one that is forming. -/
def State.onAnnounce (s : State) (src setId state : Nat) (nonce : Bytes) : State :=
  let st := s.pool.setState
  if setId != s.setIdNow || setId == 0 || (s.power.roleMgr && src == s.epid) then s
  else if s.power.roleMgr then
    if st == 3 then (s.intrude src).sendSet src (.refuse setId 3)
    else if st == 1 then s.conflict else s
  else if st == 2 || st == 3 then (if src != s.pool.managerEpid then s.intrude src else s)
  else if st == 0 || st == 1 then
    if s.pool.nonce.isEmpty then s.sendJoin src state nonce
    else if src == s.pool.managerEpid then (if nonce == s.pool.nonce then s else s.sendJoin src state nonce)
    else if state == 3 then s.sendJoin src state nonce
    else if s.pool.heard == 3 then s
    else s.conflict
  else s

/-- A JOIN refused, or admitted, raises source 0x009 (R26). -/
def State.refuseJoin (s : State) (src : Nat) : State := (s.sendSet src (.refuse s.setIdNow s.pool.setState)).irqEdge 0x009

/-- DEVID that a JOIN receives (R25, R26): that of the member whose serial number it carries, the one it asks for, or the
lowest free one. -/
def State.joinDevid (s : State) (idReq : Nat) (serial : Bytes) : Option Nat :=
  match s.pool.members.rows.find? fun r => r.1 != 0 && r.2.serial == serial with
  | some r => some r.1
  | none =>
    if idReq == 0xFF then firstFrom (fun n => !s.pool.members.has n) 63 1
    else if s.pool.members.has idReq then none else some idReq

/-- Serial number of a chain's leaf. -/
def leafSerial (chain : Bytes) : Bytes :=
  match Config.chainCerts chain with
  | c :: _ => Config.certSerial c
  | [] => []

/-- The three checks of R26. -/
def State.joinOk (s : State) (idReq : Nat) (chain sig : Bytes) : Bool :=
  s.chainOk chain (fun _ => true) && Config.ecdsaVerify (leafKey chain) (joinData s.setIdNow idReq s.pool.nonce) sig &&
    (idReq == 0xFF || (decide (1 ≤ idReq) && decide (idReq ≤ 63)))

/-- A JOIN at the manager (R25 to R27); a set of one takes none (R23). -/
def State.onJoin (s : State) (src idReq : Nat) (chain sig : Bytes) : State :=
  let st := s.pool.setState
  if !s.power.roleMgr || s.setIdNow == 0 || !(st == 1 || st == 3) then s
  else if !s.joinOk idReq chain sig then s.refuseJoin src
  else match s.joinDevid idReq (leafSerial chain) with
    | none => s.refuseJoin src
    | some d =>
      let s := { s with pool := { s.pool with members := s.pool.members.put d { epid := src, serial := leafSerial chain } } }
      let s := (s.sendSet src (.admission d)).irqEdge 0x009
      if st == 3 then s.sendSet src (.distribute s.memberList s.allDefs [])
      else if s.allJoined then s.endForming else s

/-- An ADMIT from the manager (R25). -/
def State.onAdmit (s : State) (src devid : Nat) : State :=
  if s.power.roleMgr || s.pool.setState != 1 || src != s.pool.managerEpid then s else
  let ms := (s.pool.members.put 0 { epid := src }).put devid { epid := s.epid, serial := Config.serialNumber }
  { s with pool := { s.pool with setState := 2, devid := devid, members := ms } }

/-- A REFUSE (R25, R29). -/
def State.onRefuse (s : State) (src setId state : Nat) : State :=
  if s.pool.setState != 1 || setId != s.setIdNow then s
  else if s.power.roleMgr then (if state == 3 then s.conflict else s)
  else if src == s.pool.managerEpid then { s with pool := { s.pool with setState := 5 } }
  else s

/-- Members learnt from the manager; their serial numbers stay with it. -/
def State.learnMembers (s : State) (ms : List (Nat × Nat)) : State :=
  { s with pool := { s.pool with members := ms.foldl (fun (t : Tab Member) m => t.put m.1 { t.getD m.1 {} with epid := m.2 }) s.pool.members } }

/-- TEARDOWN's step 1 on this member (R402): the guest is TEARING, its waiting and running waybills are cancelled, and its held
requests end with PERMISSION. -/
def State.startTeardown (s : State) (gid : Nat) : State :=
  let s := s.onGuest gid fun g => { g with tearing := true }
  let s := { s with sec := { s.sec with teardown := s.sec.teardown ++ [(gid, s.nowUs)] } }
  let s := { s with work := { s.work with wbs := s.work.wbs.map fun _ w => if w.gid == gid && w.st != 2 then s.cancelWb w else w } }
  let held := (s.pool.reqs.rows.filter fun r => r.2.gid == gid && (match r.2.stage with | .hold _ => true | .swap => true | .bell => true | _ => false)).map (·.1)
  held.foldl (fun (s : State) t => (s.leaveQ qidFault t).endReq t 0x07 [] false) s

/-- A DISTRIBUTE from the manager (R22, R27, R401): its definitions are applied and the member serves. -/
def State.onDistribute (s : State) (src : Nat) (ms : List (Nat × Nat)) (defs : List GuestDef) (erase : List Nat) : State :=
  if s.power.roleMgr || !(s.pool.setState == 2 || s.pool.setState == 3) || src != s.pool.managerEpid then s else
  let s := { s with pool := { s.pool with dirEpoch := s.pool.dirEpoch + 1 } }
  let s := defs.foldl (fun (s : State) d => s.applyDef d) (s.learnMembers ms)
  let s := erase.foldl (fun (s : State) g => if s.pool.guests.has g && !(s.guest g).tearing then s.startTeardown g else s) s
  s.enterServing

/-- A SETMSG acted on by firmware; those of an intruder are dropped (R29). -/
def State.onSetMsg (s : State) (src : Nat) (m : SetMsg) : State :=
  if s.pool.intruders.contains src then s else
  match m with
  | .announce i st n => s.onAnnounce src i st n
  | .join q c g => s.onJoin src q c g
  | .admission d => s.onAdmit src d
  | .refuse i st => s.onRefuse src i st
  | .distribute ms ds es => s.onDistribute src ms ds es

/-- FORM_TIMEOUT_EXPIRY (R24): the manager ends admission of step 5 and distributes. -/
def execFormTimeoutExpiry (s : State) : Host.Outcome State Fault Refusal :=
  managed s fun s => if s.power.roleMgr && s.pool.setState == 1 then s.endForming else s

end Sys2Proof.Machine
end

