-- ==== Sys2Proof/Machine/Translation.lean ====
section
/-! DEFINITION. Meanings of the translation commands (chapter 06): walks, commits, migrations, the fault hold and the fault
queue; zero fills and LRC fills (R32, R37, R40); and the loss of a Ledger die (R197, R236). -/

namespace Sys2Proof.Machine

open Sys2Proof

/-! ## Walks and holds -/

/-- TRANSLATION_WALK_DONE (R194, R201): the walk of a request returns; one begun before a commit point is walked again. -/
def execTranslationWalkDone (trk : Fin 16384) (s : State) : Host.Outcome State Fault Refusal :=
  live s fun s => match s.pool.reqs.find trk with
    | some r => (match r.stage with
      | .walk g => if g == (s.guest r.gid).gen then s.walked trk r else s.onReq trk fun r => { r with stage := .walk (s.guest r.gid).gen }
      | _ => s)
    | none => s

/-- The fault-table entry that a hold has is one whose holds expired (R207). -/
def State.markExpired (s : State) (h : Hold) : State :=
  let s := s.countLedger 0x5011 5
  match h.fault with
  | some n => { s with trans := { s.trans with faults := s.trans.faults.upd n fun e => { e with expired := true } } }
  | none => s

/-- First byte that a held element of group 0x1 wants of the page it is held on (Table 4.7). -/
def Waybill.heldByte (w : Waybill) (g : Nat) (h : Hold) : Nat :=
  let indexed := w.idx g * w.stride
  let packed := g * w.len
  max h.page (if h.write then w.dst + (if w.opc == 0x10 then packed else indexed) else w.src + (if w.opc == 0x10 then indexed else packed))

/-- A granule's hold expires: it fails, or with a matrix input every granule of the waybill (R57, R156, R173, R207). -/
def State.expireGranule (s : State) (key g : Nat) (h : Hold) : State :=
  let w := s.wb key
  if w.group == 5 && 2 ^ 17 ≤ g then (s.unhold key g).failAll key 0x06
  else if w.opc == 0x51 && 65536 ≤ g then (s.failAll key 0x06).endSlice key g
  else match w.chunkOf g with
    | some (c, _) => s.failElem key c g 0x06 (w.heldByte g h)
    | none => s.unhold key g

/-- FAULT_HOLD_EXPIRY (R206, R207, R69): a packet completes NOT_RESIDENT, a granule fails with it, a fetch puts its stream in ERROR, and the
write-back of a reduction passes its granule over (assumption 39). -/
def execFaultHoldExpiry (h : HoldOf) (s : State) : Host.Outcome State Fault Refusal :=
  live s fun s => match h with
    | .req t => (match s.pool.reqs.find t with
      | some r => (match r.stage with
        | .hold h => (((s.markExpired h).leaveQ qidFault t).endReq t 0x06 [] false).endHold h
        | _ => s)
      | none => s)
    | .granule k q g => (match (s.wb (wbKey k q)).holds.find g with
      | some h => (s.markExpired h).expireGranule (wbKey k q) g h
      | none => s)
    | .fetch k => (match (s.work.streams.getD k {}).held with
      | some h => (s.markExpired h).fetchFail k 0x06
      | none => s)
    | .ctx r => (match (s.work.ctxs.getD r {}).hold with
      | some h => (s.markExpired h).nextBack r
      | none => s)

/-! ## Records and the window table as a batch leaves it -/

/-- A leaf's 64 bits (Table 6.2). -/
def Leaf.bits (l : Leaf) : Nat :=
  2 ^ 63 + 2 ^ 62 + b2n l.nr * 2 ^ 61 + b2n l.zm * 2 ^ 60 + l.run * 2 ^ 58 + b2n l.wp * 2 ^ 57 + l.pa + l.sw

/-- The leaf that an ENTRY spells at a guest's PVA and level. -/
def leafOf (gid level pva e : Nat) : Leaf :=
  { gid := gid, level := level, pva := pva, nr := bitOf e 61, zm := bitOf e 60, run := bitsOf e 59 58, wp := bitOf e 57,
    pa := bitsOf e 44 16 * 65536, sw := bitsOf e 7 0 }

/-- An update record from its 32 bytes (Table 6.5). -/
def updOf (bs : Bytes) : UpdRec :=
  let w0 := leNat (sliceBytes bs 0 8)
  let w2 := leNat (sliceBytes bs 16 8)
  let w3 := leNat (sliceBytes bs 24 8)
  { op := bitsOf w0 63 56, level := bitsOf w0 55 54, forceZm := bitOf w0 53, pva := bitsOf w0 47 0, entry := leNat (sliceBytes bs 8 8),
    hostEpid := bitsOf w2 19 0, hostAddr := bitsOf w3 47 0,
    rsvd := bitsOf w0 52 48 != 0 || bitsOf w2 63 20 != 0 || bitsOf w3 63 48 != 0 }

/-- Leaves of a guest inside a span. -/
def leavesIn (ls : List Leaf) (gid pva span : Nat) : List Leaf :=
  ls.filter fun l => l.gid == gid && decide (pva ≤ l.pva) && decide (l.pva < pva + span)

/-- The table after a record: the leaves of its span go, and its leaf comes; R203 keeps ZM clear on a page already written. -/
def applyUpd (ls : List Leaf) (gid : Nat) (u : UpdRec) : List Leaf :=
  let span := levelSpan u.level
  let rest := ls.filter fun l => !(l.gid == gid && decide (u.pva ≤ l.pva) && decide (l.pva < u.pva + span))
  if u.entry == 0 then rest else
  let n := leafOf gid u.level u.pva u.entry
  let cur := ls.find? fun l => l.gid == gid && l.pva == u.pva && l.level == u.level
  let keep := match cur with | some c => n.zm && c.pa == n.pa && !c.zm && !c.nr && !u.forceZm | none => false
  (if keep then { n with zm := false } else n) :: rest

/-- An ENTRY is a valid leaf at a level (R192), in a window with this HEARTH bit. -/
def State.leafValid (s : State) (level e : Nat) (hearth : Bool) : Bool :=
  let n := leafOf 0 level 0 e
  let size := levelSpan level
  let lo := s.inForce Obj.hearthBase
  let hi := lo + s.inForce Obj.hearthSize
  bitOf e 63 && bitOf e 62 && decide (1 ≤ level) && bitsOf e 56 45 == 0 && bitsOf e 15 8 == 0 &&
    (if n.nr then !n.zm else n.pa % size == 0 && decide (n.pa + size ≤ s.cellar.tableBase)) &&
    (if hearth then !n.nr && !n.zm && s.cellar.hearthState == 1 && decide (lo ≤ n.pa) && decide (n.pa + size ≤ hi)
     else n.nr || s.cellar.hearthState != 1 || !overlaps n.pa size lo (hi - lo))

/-- A record is valid against the table as the earlier records leave it (R200, R210, R211). -/
def State.updValid (s : State) (gid : Nat) (ls : List Leaf) (migr : Bool) (u : UpdRec) : Bool :=
  let w := (s.guest gid).windowAt u.pva
  let hearth := match w with | some w => w.hearth | none => false
  let n := leafOf gid u.level u.pva u.entry
  let cur := ls.find? fun l => l.gid == gid && l.pva == u.pva && l.level == u.level
  let absent := (leavesIn ls gid u.pva (levelSpan u.level)).isEmpty
  (u.op == 1 || u.op == 2 || u.op == 3) && !(migr && u.op != 1) && decide (1 ≤ u.level) && u.pva % levelSpan u.level == 0 && !u.rsvd &&
    !(ls.any fun l => l.gid == gid && decide (l.level < u.level) && l.covers gid u.pva) &&
    (u.entry == 0 || s.leafValid u.level u.entry hearth) &&
    (if u.op == 1 then u.hostEpid == 0 && u.hostAddr == 0
     else u.hostAddr % 1024 == 0 && u.entry != 0 && !hearth &&
      (if u.op == 2 then !n.nr && !n.zm && (match cur with | some c => c.nr | none => absent)
       else n.nr && (match cur with | some c => !c.nr | none => false)))

/-- The record's span lies in a valid window of the guest homed here. -/
def State.updHome (s : State) (gid : Nat) (u : UpdRec) : Bool :=
  match (s.guest gid).windowAt u.pva with
  | some w => s.homed w
  | none => false

/-- Records checked in order: the index and result of the first that fails, or the leaves that the batch leaves. -/
def State.checkBatch (s : State) (gid : Nat) : List UpdRec → Nat → Bool → List Leaf → Option (Nat × Nat) × List Leaf
  | [], _, _, ls => (none, ls)
  | u :: us, i, migr, ls =>
    if !s.updValid gid ls migr u then (some (i, 0x04), ls)
    else if !s.updHome gid u then (some (i, 0x05), ls)
    else s.checkBatch gid us (i + 1) (migr || u.op != 1) (applyUpd ls gid u)

/-- Tables that leaves of a guest need: levels 1 to the leaf's, and the root (R190, R204). -/
def tablesFor (ls : List Leaf) (gid : Nat) : List (Nat × Nat) :=
  ((0, 0) :: ((ls.filter (·.gid == gid)).map fun l => (upto l.level).map fun k => (k + 1, l.pva / levelSpan k * levelSpan k)).flatten).dedup

/-- Heap blocks of a table of a level (Table 6.1). -/
def tableBlocks (level : Nat) : Nat := if level == 3 then 1 else 16

/-- Blocks of the tables of a list. -/
def blocksOf (ts : List (Nat × Nat)) : Nat := ts.foldl (fun n t => n + tableBlocks t.1) 0

/-- Tables of a guest that exist. -/
def State.tablesHave (s : State) (gid : Nat) : List (Nat × Nat) := (s.trans.tables.filter (·.gid == gid)).map fun t => (t.level, t.pva)

/-- Tables that leaves need and the guest does not have. -/
def State.tablesNew (s : State) (gid : Nat) (ls : List Leaf) : List (Nat × Nat) := (tablesFor ls gid).filter fun t => !(s.tablesHave gid).contains t

/-- Place in the 2 GiB heap of a new table beside others: the lowest that is free (R193; assumption 16). -/
def State.heapPlace (s : State) (ts : List WTable) (level : Nat) : Option Nat :=
  let base := s.cellar.tableBase + 0x140000000
  let size := tableBlocks level * 256
  let clear (k : Nat) : Bool := !(ts.any fun t => overlaps (base + k * size) size t.at_ (tableBlocks t.level * 256))
  (firstFrom clear (2 ^ 31 / size) 0).map fun k => base + k * size

/-- The tables of the device with new ones of a guest placed; none where the heap cannot hold them (R200, R204). -/
def State.placeTables (s : State) (gid : Nat) (new : List (Nat × Nat)) : Option (List WTable) :=
  new.foldl (fun o t => o.bind fun ts => (s.heapPlace ts t.1).map fun a => ts ++ [({ gid := gid, level := t.1, pva := t.2, at_ := a } : WTable)]) (some s.trans.tables)

/-- The 8-byte entry of a guest's table of a level for an address is written (R190). -/
def State.putEntry (s : State) (gid level pva v : Nat) : State :=
  match s.trans.tables.find? fun t => t.level == level && t.covers gid pva with
  | some t => s.putThrough (t.at_ + 8 * levelIndex level pva) gid (leBytes 8 v)
  | none => s

/-- The pointer to a table in the table above it, or its removal (R191). -/
def State.putPointer (s : State) (t : WTable) (v : Nat) : State := if t.level == 0 then s else s.putEntry t.gid (t.level - 1) t.pva v

/-- A table is zeroed: when it is new (R204), and when its blocks are freed (R400). -/
def State.zeroTable (s : State) (t : WTable) : State := s.zeroArea t.at_ (tableBlocks t.level * 256) t.gid

/-- The entries in the heap as a batch leaves them: leaves and tables that go are removed, and new ones come (R190, R191, R204). -/
def State.writeTables (s : State) (gid : Nat) (old new : List Leaf) (gone fresh : List WTable) : State :=
  let s := fresh.foldl (fun (s : State) t => s.zeroTable t) s
  let s := (old.filter fun l => l.gid == gid && !new.contains l).foldl (fun (s : State) l => s.putEntry gid l.level l.pva 0) s
  let s := gone.foldl (fun (s : State) t => s.putPointer t 0) s
  let s := fresh.foldl (fun (s : State) t => s.putPointer t (2 ^ 63 + t.at_)) s
  (new.filter fun l => l.gid == gid && !old.contains l).foldl (fun (s : State) l => s.putEntry gid l.level l.pva l.bits) s

/-! ## Migration transfers (R210 to R212) -/

/-- Migration record of a batch. -/
def Commit.migr (c : Commit) : Option UpdRec := c.recs.find? fun u => u.op != 1

/-- Bytes of the page that a batch migrates. -/
def Commit.size (c : Commit) : Nat := match c.migr with | some u => levelSpan u.level | none => 0

/-- Pool address of the page that a batch migrates: of its new leaf, or of the leaf it replaces. -/
def State.migrPa (s : State) (c : Commit) : Nat :=
  match c.migr with
  | some u => if u.op == 2 then (leafOf c.gid u.level u.pva u.entry).pa else ((s.leafAt c.gid u.pva).map (·.pa)).getD 0
  | none => 0

/-- A kilobyte of the page that leaves: zeros where it was never written, else its lines, with whether one is lost and whether one waits (R31,
R211). -/
def State.migrRead (s : State) (c : Commit) (u : UpdRec) : (Bytes × Bool × Bool) × State :=
  if (s.leafAt c.gid u.pva).any (·.zm) then ((zeroBytes 1024, false, false), s)
  else (lineAddrs (s.migrPa c + c.next) 1024).foldl (fun (b : (Bytes × Bool × Bool) × State) a =>
    let (x, s) := b.2.readLine a c.gid
    ((b.1.1 ++ x.data, b.1.2.1 || x.poison, b.1.2.2 || x.waits), s)) (([], false, false), s)

/-- One host transfer of a migration goes out: a read of 1 KiB, or a write of the page's kilobyte, with POI where a line of it is lost. Nothing
goes out while a line of it waits. -/
def State.migrSend1 (s : State) (c : Commit) (u : UpdRec) : State :=
  let put (s : State) : State := { s with trans := { s.trans with commit := some { c with next := c.next + 1024 } } }
  let base : Packet := { dst := u.hostEpid, pkey := (s.guest c.gid).pkey, tc := 0, addr := u.hostAddr + c.next, xw := 1024 }
  if u.op == 2 then (put s).request { base with opc := 0x01 } (.migrateIn 0 c.next) 1024
  else
    let (x, s) := s.migrRead c u
    if x.2.2 then s else (put s).request { base with opc := 0x02, len := 16, payload := x.1, poi := x.2.1 } (.migrateOut 0 c.next) 1024

/-- Transfers go out while fewer than 64 are outstanding. -/
def State.migrSend (s : State) : Nat → State
  | 0 => s
  | n + 1 =>
    match s.trans.commit with
    | some c => (match c.migr with
      | some u => if (c.phase == 2 || c.phase == 4) && c.next < c.size && c.next / 1024 < c.done + 64 then (s.migrSend1 c u).migrSend n else s
      | none => s)
    | none => s

/-- Requests, zero fills, granules and completion records in flight under entries of a commit count or before, in a pool range (R202). -/
def State.inFlight (s : State) (pa len epoch : Nat) : Bool :=
  let held (h : Held) : Bool := decide (h.epoch ≤ epoch) && h.outs.any fun o => o.kind == 0 && overlaps o.pa o.bytes.length pa len
  (s.pool.reqs.rows.any fun r => decide (r.2.epoch ≤ epoch) && r.2.pas.any fun x => overlaps x.1 x.2 pa len) ||
    (s.pool.fills.any fun f => decide (f.epoch ≤ epoch) && overlaps f.pa f.size pa len) ||
    (s.work.wbs.rows.any fun w => (decide (w.2.epoch ≤ epoch) && overlaps w.2.cpl 32 pa len) ||
      w.2.chunks.rows.any fun c => (c.2.held.rows.any fun h => held h.2) || c.2.old.any fun x => held x.2.2)

/-- A MIGRATE_OUT goes on: once the old entry's requests are over and their writes in DRAM, its host writes go out (R211). -/
def State.migrOn (s : State) : State :=
  match s.trans.commit with
  | some c =>
    if c.phase == 3 && !s.inFlight (s.migrPa c) c.size s.trans.epoch then
      let (clean, s) := s.drainRange (s.migrPa c) c.size
      if clean then State.migrSend { s with trans := { s.trans with commit := some { c with phase := 4 } } } 64 else s
    else s.migrSend 64
  | none => s

/-- What is held on non-resident pages of a guest in some spans is translated again (R201, R207, R212). A granule, fetch or write-back whose page
is still not resident keeps its hold; a request keeps the start of its own. -/
def State.retranslate (s : State) (gid : Nat) (spans : List (Nat × Nat)) : State :=
  let hit (h : Hold) : Bool := spans.any fun x => decide (x.1 ≤ h.page) && decide (h.page < x.1 + x.2)
  let free (s : State) (h : Hold) : Bool := hit h && !(s.leafAt gid h.page).any (·.nr)
  let rs := (s.pool.reqs.rows.filter fun r => r.2.gid == gid && (match r.2.stage with | .hold h => hit h | _ => false)).map (·.1)
  let s := rs.foldl (fun (s : State) t => s.rewalk t) s
  let gs := ((s.work.wbs.rows.filter fun w => w.2.gid == gid).map fun w => (w.2.holds.rows.filter fun h => free s h.2).map fun h => (w.1, h.1)).flatten
  let s := gs.foldl (fun (s : State) x => s.unhold x.1 x.2) s
  let fs := (s.work.streams.rows.filter fun t => t.2.gid == gid && t.2.held.any (free s)).map (·.1)
  let s := fs.foldl (fun (s : State) k => s.unholdFetch k) s
  let cs := (s.work.ctxs.rows.filter fun x => x.2.gid == gid && x.2.hold.any (free s)).map (·.1)
  cs.foldl (fun (s : State) r => s.unholdCtx r) s

/-- A migration fails: no record is applied, RESULT reads 0x07, and requests held by it resume on the old entry (R212). -/
def State.migrFail (s : State) : State :=
  match s.trans.commit with
  | none => s
  | some c =>
    let s := { s with trans := { s.trans with commit := none },
                      fabric := { s.fabric with own := s.fabric.own.filter fun o => match o.kind with | .migrateIn _ _ => false | .migrateOut _ _ => false | _ => true } }
    let s := s.setReg Obj.transCmdResult 0x07
    match c.migr with
    | some u => if u.op == 3 then (let s := s.retranslate c.gid [(u.pva, c.size)]; s.trans.faults.keys.foldl (fun (s : State) n => s.closeFault n) s) else s
    | none => s

/-- An answer to a host transfer (R210, R211, R212). DESIGN CHOICE (assumption 40): a kilobyte that comes for a lost line, which takes no write,
fails the migration. -/
def State.migrAnswer (s : State) (off : Nat) (p : Packet) : State :=
  match s.trans.commit with
  | none => s
  | some c =>
    let ls := if c.phase == 2 then lineAddrs (s.migrPa c + off) 1024 else []
    if (p.status != 0 && !(c.phase == 2 && p.status == 0x02)) || ls.any (fun a => s.lineLost a) then s.migrFail
    else
      let s := { s with trans := { s.trans with commit := some { c with done := c.done + 1 } } }
      let s := ls.zipIdx.foldl (fun (s : State) x => s.wcbPut x.1 c.gid (sliceBytes p.payload (64 * x.2) 64) p.poi) s
      s.migrSend 64

/-! ## COMMIT (R199 to R205) -/

/-- A commit refused: RESULT, GEN in force, and the index of the record that decided. -/
def State.refuseCommit (s : State) (gid res idx : Nat) : State :=
  ((s.setReg Obj.transCmdResult res).setReg Obj.transCmdGen (if s.pool.guests.has gid then (s.guest gid).gen else 0)).setReg Obj.transCmdFailIndex idx

/-- A batch accepted: it runs, with the migration's first steps (R210, R211). -/
def State.startCommit (s : State) (gid : Nat) (us : List UpdRec) : State :=
  let s := ((s.setReg Obj.transCmdResult 0x01).setReg Obj.transCmdGen (s.guest gid).gen).setReg Obj.transCmdFailIndex 0
  let m := us.find? fun u => u.op != 1
  let c : Commit := { gid := gid, recs := us, phase := match m with | some u => u.op | none => 1, epoch := s.trans.epoch }
  let s := { s with trans := { s.trans with commit := some c } }
  match m with
  | some u => if u.op == 2 then (s.lrcDrop (s.migrPa c) c.size).migrSend 64
    else State.migrOn { s with trans := { s.trans with cache := s.trans.cache.filter fun e => !(e.gid == gid && overlaps e.base e.span u.pva c.size) } }
  | none => s

/-- COMMIT (R199, R200, R214): the refusals in their order, else the batch runs. -/
def execCommit (s : State) : Host.Outcome State Fault Refusal :=
  record s Obj.transCmdOp Obj.transCmdResult 0x01 fun s =>
    let gid := s.reg Obj.transCmdGid % 2 ^ 20
    let n := s.reg Obj.transCmdCount
    let b := s.blob Obj.transCmdBatch
    if !s.pool.guests.has gid then s.refuseCommit gid 0x03 0
    else if n == 0 || 128 < n || b.length != 32 * n then s.refuseCommit gid 0x08 0
    else if s.reg Obj.transCmdExpectGen != (s.guest gid).gen then s.refuseCommit gid 0x02 0
    else
      let us := (upto n).map fun i => updOf (sliceBytes b (32 * i) 32)
      match s.checkBatch gid us 0 false s.trans.leaves with
      | (some (i, e), _) => s.refuseCommit gid e i
      | (none, ls) =>
        if (s.placeTables gid (s.tablesNew gid ls)).isNone then s.refuseCommit gid 0x06 0 else s.startCommit gid us

/-- Pool ranges that the spans of a batch mapped before it (R202). -/
def changedSpans (old : List Leaf) (gid : Nat) (us : List UpdRec) : List (Nat × Nat) :=
  (old.filter fun l => l.gid == gid && !l.nr && us.any fun u => overlaps l.pva (levelSpan l.level) u.pva (levelSpan u.level)).map fun l => (l.pa, levelSpan l.level)

/-- Those that it unmaps or remaps: pages mapped before whose pool address the new leaves do not keep (R202). -/
def droppedSpans (old new : List Leaf) (gid : Nat) : List (Nat × Nat) :=
  (old.filter fun l => l.gid == gid && !l.nr && !(new.any fun n => n.gid == gid && !n.nr && n.pva == l.pva && n.level == l.level && n.pa == l.pa)).map fun l => (l.pa, levelSpan l.level)

/-- An entry of the reverse map, in the device table region too (R216, Table 7.1). -/
def State.putRmap (s : State) (gid slot : Nat) (hi : Option Nat) : State :=
  let v := match hi with | some h => 2 ^ 63 + gid * 2 ^ 32 + h | none => 0
  let m := s.hearth.rmap
  State.putThrough { s with hearth := { s.hearth with rmap := match hi with | some h => m.put slot (gid, h) | none => m.del slot } }
    (s.cellar.tableBase + 0x1FF800000 + 8 * slot) gid (leBytes 8 v)

/-- Reverse map after a batch: entries of the guest's hearth leaves (R216). -/
def State.remap (s : State) (gid : Nat) (old new : List Leaf) : State :=
  let hearth (l : Leaf) : Bool := l.gid == gid && !l.nr && s.inHearth l.pa
  let slots (l : Leaf) : List (Nat × Nat) := (upto (levelSpan l.level / 65536)).map fun i => (s.hline l.pa / 1024 + i, l.pva / 65536 + i)
  let s := (((old.filter fun l => hearth l && !new.contains l).map slots).flatten).foldl (fun (s : State) x => s.putRmap gid x.1 none) s
  (((new.filter fun l => hearth l && !old.contains l).map slots).flatten).foldl (fun (s : State) x => s.putRmap gid x.1 (some x.2)) s

/-- After a MIGRATE_OUT the held faults that were kept quiet post their records (R211). -/
def State.loudFaults (s : State) : State :=
  let gen (g : Nat) : Nat := (s.guest g).gen
  s.trans.faults.rows.foldl (fun (s : State) (f : Nat × FaultEnt) =>
    if f.2.quiet && s.heldOn f.1 != 0 then
      let e : FaultEnt := { f.2 with quiet := false }
      let s : State := { s with trans := { s.trans with faults := s.trans.faults.put f.1 e } }
      s.fqAdd { ty := 1, wr := e.wr, at_ := e.at_, porter := e.porter, gid := e.gid, fault := f.1, level := e.level, pva := e.pva, gen := gen e.gid }
    else s) s

/-- Entries of the TLBs and of the translation cache that a batch makes stale: pages and runs that cover what it changes, and pointers to tables
that go (R201). -/
def Commit.stale (c : Commit) (gone : List WTable) (e : TlbEnt) : Bool :=
  e.gid == c.gid && (if e.ptr then gone.any fun (t : WTable) => (t.at_ : Int) == e.pa
    else c.recs.any fun u => overlaps e.base e.span u.pva (levelSpan u.level))

/-- A batch has taken its commit point: TRANS_CMD's GEN follows the guest's, what was held on the spans is translated again, a MIGRATE_OUT's
quiet faults post their records, and faults that hold nothing more close (R201, R207, R211). -/
def State.afterPoint (s : State) (c : Commit) : State :=
  let s := s.onGuest c.gid fun g => { g with gen := (g.gen + 1) % 2 ^ 32 }
  let s := s.setReg Obj.transCmdGen (s.guest c.gid).gen
  let s := s.retranslate c.gid (c.recs.map fun (u : UpdRec) => (u.pva, levelSpan u.level))
  let s : State := match c.migr with
    | some u => if u.op == 3 then s.loudFaults else s
    | none => s
  s.trans.faults.keys.foldl (fun s n => s.closeFault n) s

/-- The commit point (R201, R203, R204, R207, R211, R216). -/
def State.commitPoint (s : State) (c : Commit) : State :=
  let old := s.trans.leaves
  let new := c.recs.foldl (fun ls u => applyUpd ls c.gid u) old
  let need := tablesFor new c.gid
  let gone := s.trans.tables.filter fun t => t.gid == c.gid && !(need.contains (t.level, t.pva))
  let all := (s.placeTables c.gid (s.tablesNew c.gid new)).getD s.trans.tables
  let fresh := all.drop s.trans.tables.length
  let c : Commit := { c with phase := 5, epoch := s.trans.epoch, spans := changedSpans old c.gid c.recs, drops := droppedSpans old new c.gid,
                             gone := gone, freed := gone.foldl (fun n (t : WTable) => n + tableBlocks t.level) 0 }
  let s := { s with trans := { s.trans with
    leaves := new, tables := all.filter (fun t => !gone.contains t), commit := some c, epoch := s.trans.epoch + 1,
    heapFree := s.trans.heapFree - fresh.foldl (fun n (t : WTable) => n + tableBlocks t.level) 0,
    cache := s.trans.cache.filter (fun e => !c.stale gone e), tlbs := s.trans.tlbs.map fun _ t => t.filter fun e => !c.stale gone e } }
  ((s.writeTables c.gid old new gone fresh).remap c.gid old new).afterPoint c

/-- COMMIT_POINT (R201): the commit point of a batch without a migration record. -/
def execCommitPoint (s : State) : Host.Outcome State Fault Refusal :=
  live s fun s => match s.trans.commit with
    | some c => if c.phase == 1 then s.commitPoint c else s.migrOn
    | none => s

/-- MIGRATE_IN_DONE (R210): every host read has been written and acknowledged; the commit point falls. -/
def execMigrateInDone (s : State) : Host.Outcome State Fault Refusal :=
  live s fun s => match s.trans.commit with
    | some c => if c.phase == 2 && c.done * 1024 == c.size then s.commitPoint c else s.migrOn
    | none => s

/-- MIGRATE_OUT_DONE (R211): every host write has been answered; the commit point falls. -/
def execMigrateOutDone (s : State) : Host.Outcome State Fault Refusal :=
  live s fun s => match s.trans.commit with
    | some c => if c.phase == 4 && c.done * 1024 == c.size then s.commitPoint c else s.migrOn
    | none => s

/-- MIGRATE_TIMEOUT_EXPIRY (R212): a host transfer of the migration passes its limit. -/
def execMigrateTimeoutExpiry (s : State) : Host.Outcome State Fault Refusal :=
  live s fun s => match s.trans.commit with
    | some c => if (c.phase == 2 || c.phase == 4) && s.fabric.own.any (fun o => match o.kind with | .migrateIn _ _ => true | .migrateOut _ _ => true | _ => false) then s.migrFail else s
    | none => s

/-- COMMIT_DRAIN_DONE (R202, R204): requests under the old entries are over, their writes are in DRAM and the LRC holds nothing
of the old ranges; freed blocks are zeroed and return, and RESULT reads 0x00. -/
def execCommitDrainDone (s : State) : Host.Outcome State Fault Refusal :=
  live s fun s => match s.trans.commit with
    | some c =>
      if c.phase != 5 || c.spans.any (fun x => s.inFlight x.1 x.2 c.epoch) then s
      else
        let (clean, s) := c.spans.foldl (fun (b : Bool × State) x => let (k, s) := b.2.drainRange x.1 x.2; (b.1 && k, s)) (true, s)
        if !clean then s else
        let s := c.gone.foldl (fun (s : State) t => s.zeroTable t) (c.drops.foldl (fun s x => s.lrcDrop x.1 x.2) s)
        State.setReg { s with trans := { s.trans with commit := none, heapFree := s.trans.heapFree + c.freed } } Obj.transCmdResult 0
    | none => s

/-- TRANS_QUERY (R213): the leaf that translates QPVA, its level, and the GEN in force. -/
def execTransQuery (s : State) : Host.Outcome State Fault Refusal :=
  record s Obj.transCmdOp Obj.transCmdResult 0x02 fun s =>
    let gid := s.reg Obj.transCmdGid % 2 ^ 20
    if !s.pool.guests.has gid then ((((s.setReg Obj.transCmdResult 0x03).setReg Obj.transCmdGen 0).setReg Obj.transCmdQentry 0).setReg Obj.transCmdQlevel 0xFF).setReg Obj.transCmdFailIndex 0
    else
      let l := s.leafAt gid (s.reg Obj.transCmdQpva)
      ((((s.setReg Obj.transCmdResult 0).setReg Obj.transCmdGen (s.guest gid).gen).setReg Obj.transCmdQentry ((l.map (·.bits)).getD 0)).setReg
        Obj.transCmdQlevel ((l.map (·.level)).getD 0xFF)).setReg Obj.transCmdFailIndex 0

/-! ## Fault queue (R208, R214) -/

/-- The 32 bytes of record i (Table 6.6). -/
def State.fqBytes (s : State) (r : FqRec) (i k : Nat) : Bytes :=
  let held := if r.ty == 1 then s.heldOn r.fault else 0
  leBytes 8 (r.ty * 2 ^ 56 + b2n r.wr * 2 ^ 55 + b2n r.at_ * 2 ^ 54 + b2n r.porter * 2 ^ 53 + r.gid * 2 ^ 32 + r.fault) ++
    leBytes 8 (r.level * 2 ^ 48 + r.pva) ++ leBytes 8 (r.gen * 2 ^ 32 + held) ++ leBytes 8 (i * 2 ^ 32 + (if i / 2 ^ k % 2 == 0 then 1 else 0))

/-- FAULT_QUEUE_RECORD (R208): the oldest waiting record is written, while the queue has room. -/
def execFaultQueueRecord (s : State) : Host.Outcome State Fault Refusal :=
  live s fun s =>
    let k := s.reg Obj.fqLog2
    let i := s.trans.fqTail
    match s.trans.fq with
    | r :: rest =>
      if k != 0 && wrapSub 32 i (s.reg Obj.fqHead) < 2 ^ k then
        State.originate { s with trans := { s.trans with fq := rest, fqTail := (i + 1) % 2 ^ 32 } }
          { dst := s.reg Obj.fqEpid % 2 ^ 20, pkey := 0xFFFF, tc := 3, opc := 0x03, len := 1, addr := s.reg Obj.fqBase + 32 * (i % 2 ^ k),
            xw := 32, payload := padBytes 64 (s.fqBytes r i k) }
      else s
    | [] => s

/-- FQ_HEAD_WRITE (R208): the driver advances FQ_HEAD. -/
def execFqHeadWrite (v : Nat) (s : State) : Host.Outcome State Fault Refusal :=
  managed s fun s => s.setReg Obj.fqHead (v % 2 ^ 32)

/-- Object of a fault-queue configuration write: FQ_EPID, FQ_BASE, FQ_LOG2. -/
def fqObject (which : Fin 3) : Nat := if which == 0 then Obj.fqEpid else if which == 1 then Obj.fqBase else Obj.fqLog2

/-- A value that a fault-queue configuration object takes (R467). -/
def fqOk (which : Fin 3) (v : Nat) : Bool :=
  if which == 0 then decide (v < 2 ^ 20)
  else if which == 1 then v % 32 == 0 && decide (v < 2 ^ 48)
  else v == 0 || (decide (4 ≤ v) && decide (v ≤ 16))

/-- FQ_CONFIG_WRITE (R214): FQ_HEAD, FQ_TAIL and PHASE start again; waiting records go to the new queue, or are discarded where
FQ_LOG2 is 0. -/
def State.fqConfig (s : State) (obj v : Nat) : State :=
  let s := (s.setReg obj v).setReg Obj.fqHead 0
  let s := { s with trans := { s.trans with fqTail := 0 } }
  if s.reg Obj.fqLog2 == 0 then
    State.setReg { s with trans := { s.trans with fq := [] } } Obj.zmLost (min (2 ^ 32 - 1) (s.reg Obj.zmLost + (s.trans.fq.filter (·.ty == 2)).length))
  else s

/-- FQ_CONFIG_WRITE (R214). -/
def execFqConfigWrite (which : Fin 3) (v : Nat) (s : State) : Host.Outcome State Fault Refusal :=
  managed s fun s => if fqOk which v then s.fqConfig (fqObject which) v else s

/-! ## Zero fills and LRC fills -/

/-- ZM clears where the entry still maps the page that was filled, in the table too (R32, R203). -/
def State.clearZm (s : State) (f : ZFill) : State :=
  let is (l : Leaf) : Bool := l.gid == f.gid && l.pva == f.pva && l.level == f.level && l.pa == f.pa && l.zm
  match s.trans.leaves.find? is with
  | none => s
  | some l =>
    let n := { l with zm := false }
    let s := State.putEntry { s with trans := { s.trans with
      leaves := s.trans.leaves.map (fun x => if is x then n else x),
      cache := s.trans.cache.filter (fun e => !e.covers f.gid f.pva), tlbs := s.trans.tlbs.map fun _ t => t.filter fun e => !e.covers f.gid f.pva } }
      f.gid f.level f.pva n.bits
    s.fqAdd { ty := 2, gid := f.gid, level := f.level, pva := f.pva, gen := (s.guest f.gid).gen }

/-- ZERO_FILL_DONE (R32, R33, R203): the page is zero in DRAM, ZM clears where the entry still maps it, and waiting requests go on. -/
def execZeroFillDone (gid : Fin 1048576) (pva : Nat) (s : State) : Host.Outcome State Fault Refusal :=
  live s fun s => match s.pool.fills.find? fun f => f.gid == gid.val && f.pva == pva with
    | none => s
    | some f =>
      let s := (lineAddrs f.pa f.size).foldl (fun (s : State) a => s.putThrough a f.gid (zeroBytes 64)) s
      let s := { s with pool := { s.pool with fills := s.pool.fills.filter (· != f) } }
      (s.clearZm f).resume fun r => r.stage == .fill f.pa

/-- LRC_FILL (R37, R40): a fill installs its line, unless an invalidation fell on it in flight. -/
def execLrcFill (line : Nat) (s : State) : Host.Outcome State Fault Refusal :=
  live s fun s => match s.pool.lrcFills.find? fun f => f.1 == line with
    | none => s
    | some (l, g, d, dead) =>
      let s := { s with pool := { s.pool with lrcFills := s.pool.lrcFills.erase (l, g, d, dead) } }
      if dead then s.countLedger 0x5010 2 else { s with pool := { s.pool with lrc := s.pool.lrc.put l (g, d) } }

/-! ## Ledger die loss (R197, R236) -/

/-- Items that survive the loss of a die: which of them lay on it is a free value (assumption 41). -/
def survivors {α : Type} (base : Nat) (l : List α) : List α := (l.zipIdx.filter fun x => Config.freeBool (base + x.2)).map (·.1)

/-- LEDGER_DIE_LOST (R197, R236): its LRC lines and its part of the translation cache go; duplicated tables stay, and the snoops of its pair's
sets are sent again. -/
def execLedgerDieLost (die : Fin 6) (s : State) : Host.Outcome State Fault Refusal :=
  live s fun s =>
    let d := dieLG die
    if !s.hasDie d then s else
    let n := s.freeCount
    let used := s.pool.lrc.size + s.trans.cache.length
    let s := { s with power := { s.power with present := clearBit s.power.present d },
                      pool := { s.pool with lrc := ⟨survivors n s.pool.lrc.rows⟩ },
                      trans := { s.trans with cache := survivors (n + s.pool.lrc.size) s.trans.cache } }
    ((s.recovery.useFree used).resnoop (die / 2)).log 0x12 d d

end Sys2Proof.Machine
end

