-- ==== Sys2Proof/Machine/Security.lean ====
section
/-! DEFINITION. Keys, teardown, firmware update, attestation and debug (chapter 12). -/

namespace Sys2Proof.Machine

open Sys2Proof

/-! ## Entropy and keys (R391 to R397) -/

/-- ENTROPY_HEALTH_FAIL (R391). -/
def execEntropyHealthFail (s : State) : Host.Outcome State Fault Refusal :=
  awake s fun s => State.irqEdge { s with sec := { s.sec with entropyBad := true } } 0x002

/-- ENTROPY_RETEST (R391, R392): a pass resumes the DRBG and PENDING keys are made. -/
def execEntropyRetest (ok : Bool) (s : State) : Host.Outcome State Fault Refusal :=
  awake s fun s => if s.sec.entropyBad && ok then State.makePending { s with sec := { s.sec with entropyBad := false } } else s

/-- DRBG_RESEED (R391): each seeding makes a new DRBG state, one that a purge zeroed included. -/
def execDrbgReseed (s : State) : Host.Outcome State Fault Refusal :=
  awake s fun s =>
    if s.sec.entropyBad then s else
    let s := { s with sec := { s.sec with reseeds := satInc 32 s.sec.reseeds, drbgReqs := 0, drbgZeroed := false } }
    (s.countIk 0x1014 1).makePending

/-- KEY_CACHE_FILL (R396, R397): the record is unwrapped and installed, or the guest is fatal. -/
def execKeyCacheFill (die : Fin 24) (gid : Fin 1048576) (s : State) : Host.Outcome State Fault Refusal :=
  live s fun s =>
    let f := die.val * 2 ^ 20 + gid.val
    if !s.sec.fetches.contains f then s else
    let s := { s with sec := { s.sec with fetches := s.sec.fetches.filter (· != f) } }
    match unwrapKey s.sec.kwrap gid.val (s.guest gid.val).key with
    | none => s.keyFail gid.val
    | some k =>
      let c := (s.sec.caches.getD die.val []).filter fun e => e.1 != gid.val
      { s with sec := { s.sec with caches := s.sec.caches.put die.val (((gid.val, k) :: c).take 512) } }

/-! ## Teardown (R401 to R403, R416) -/

/-- RESULT of TEARDOWN_CMD. -/
def State.teardownResult (s : State) (v : Nat) : State := s.setReg Obj.teardownCmdResult v

/-- GID of TEARDOWN_CMD. -/
def State.teardownGid (s : State) : Nat := s.reg Obj.teardownCmdGid % 2 ^ 20

/-- TEARDOWN (R401, R402 step 1): accepted on the manager alone, it starts on every member. -/
def execTeardown (s : State) : Host.Outcome State Fault Refusal :=
  record s Obj.teardownCmdOp Obj.teardownCmdResult 0x01 fun s =>
    if !s.power.roleMgr then s.teardownResult 0x05
    else if !s.pool.guests.has s.teardownGid then s.teardownResult 0x03
    else if (s.guest s.teardownGid).tearing then s.teardownResult 0x01
    else ((s.startTeardown s.teardownGid).distributeAll [] [s.teardownGid]).teardownResult 0x01

/-- The guest holds no tracker, chunk, lock, swap or commit here (R402 step 2, R403). -/
def State.drained (s : State) (gid : Nat) : Bool :=
  !(s.pool.reqs.rows.any fun r => r.2.gid == gid && r.2.stage != .mgmt) && !(s.work.wbs.rows.any fun w => w.2.gid == gid) &&
    !(s.pool.swaps.any fun w => w.gid == gid) && (match s.trans.commit with | some c => c.gid != gid | none => true)

/-- Hearth lines of the guest that are cached (R402 step 3). -/
def State.hearthOf (s : State) (gid : Nat) : List (Nat × Dir) :=
  s.hearth.dir.rows.filter fun r => (s.hlineOwner r.1).1 == gid

/-- Their recall, as by FLUSH. -/
def State.recallGuest (s : State) (gid : Nat) : State :=
  (s.hearthOf gid).foldl (fun (s : State) r =>
    if r.2.busy then s else
    let s := (s.setDir r.1 { r.2 with st := 6, grant := .flush, owner := r.2.holder, snoops := [] }).recall r.1 r.2
    match s.dirOf r.1 with | some d => s.hfinish r.1 d | none => s) s

/-- WCB lines of the guest, as channel and line (R402 step 4). -/
def State.wcbOfGuest (s : State) (gid : Nat) : List (Nat × Nat) :=
  (s.cellar.chans.rows.map fun r => (r.2.wcb.rows.filter fun w => w.2.gid == gid).map fun w => (r.1, w.1)).flatten

/-- Every LRC line of the guest is invalidated (R402 step 5). -/
def State.sweepLrc (s : State) (gid : Nat) : State :=
  let fills := s.pool.lrcFills.map fun f => if f.2.1 == gid then (f.1, f.2.1, f.2.2.1, true) else f
  { s with pool := { s.pool with lrc := s.pool.lrc.filter fun _ v => v.1 != gid, lrcFills := fills } }

/-- The key record is overwritten with KSTATE 0, key caches purge the guest, and clusters that last ran it are cleared
(R402 step 6). -/
def State.destroyKey (s : State) (gid : Nat) : State :=
  let a := s.cellar.tableBase + gid * 4096 + 0x40
  let rcd := leBytes 8 (s.guest gid).key.epoch ++ leBytes 8 (gid * 2 ^ 32) ++ zeroBytes 80
  let s := (s.wcbWrite a gid (rcd.take 64) false).wcbWrite (a + 64) gid (rcd.drop 64) false
  let s := (s.onGuest gid fun g => { g with key := {} }).purgeKey gid
  let mine (c : Cluster) : Bool := c.lastGid == some gid
  let cleared := (s.work.clusters.rows.filter fun c => mine c.2).map (·.1)
  let tlbs := s.trans.tlbs.filter fun k _ => !cleared.contains k
  { s with work := { s.work with clusters := s.work.clusters.map fun _ c => if mine c then { c with lastGid := none } else c },
           trans := { s.trans with tlbs := tlbs } }

/-- Areas of the device table region that the guest's work and tables free are zeroed: stream entries, layouts, tables and reverse-map
entries (R400, R402 step 7). -/
def State.zeroFreed (s : State) (gid : Nat) : State :=
  let ks := (s.work.streams.rows.filter fun r => r.2.gid == gid).map (·.1)
  let ls := (s.work.layouts.rows.filter fun r => r.2.gid == gid).map (·.1)
  let ts := s.trans.tables.filter fun t => t.gid == gid
  let rs := (s.hearth.rmap.rows.filter fun r => r.2.1 == gid).map (·.1)
  let s := ks.foldl (fun (s : State) k => s.zeroArea (s.streamAt k) 1024 gid) s
  let s := ls.foldl (fun (s : State) i => s.zeroArea (s.layoutAt i) 128 gid) s
  let s := ts.foldl (fun (s : State) t => s.zeroTable t) s
  rs.foldl (fun (s : State) i => s.putThrough (s.cellar.tableBase + 0x1FF800000 + 8 * i) gid (zeroBytes 8)) s

/-- Streams, doorbells, tallies, layouts and reduction contexts of the guest are freed (R402 step 7). -/
def State.freeWork (s : State) (gid : Nat) : State :=
  let w := s.work
  let gone := w.ctxs.filter fun _ c => c.gid == gid
  let kib := gone.rows.foldl (fun n c => n + c.2.kib + c.2.prefetched) 0
  let bells := w.bells.filter fun b => match w.streams.find b.stream with | some t => t.gid != gid | none => true
  { s with work := { w with streams := w.streams.filter fun _ t => t.gid != gid, bells := bells,
                            tallies := w.tallies.filter fun _ t => t.gid != gid, layouts := w.layouts.filter fun _ l => l.gid != gid,
                            ctxs := w.ctxs.filter fun _ c => c.gid != gid, stageUsed := w.stageUsed - kib } }

/-- Fault-table entries, window table and heap blocks of the guest are freed (R402 step 7). -/
def State.freeTables (s : State) (gid : Nat) : State :=
  let t := s.trans
  let mine := t.tables.filter fun x => x.gid == gid
  let heap := t.heapFree + blocksOf (mine.map fun x => (x.level, x.pva))
  { s with trans := { t with leaves := t.leaves.filter fun x => x.gid != gid, tables := t.tables.filter fun x => x.gid != gid,
                             heapFree := heap, cache := t.cache.filter fun x => x.gid != gid,
                             tlbs := t.tlbs.map fun _ l => l.filter fun x => x.gid != gid,
                             faults := t.faults.filter fun _ f => f.gid != gid },
           hearth := { s.hearth with rmap := s.hearth.rmap.filter fun _ r => r.1 != gid } }

/-- The guest is Undefined, with a TEARDOWN_DONE record; on the manager RESULT reads done (R401, R402 step 7). -/
def State.endTeardown (s : State) (gid began : Nat) : State :=
  let s := { s with pool := { s.pool with guests := s.pool.guests.del gid, oldDirs := s.pool.oldDirs.put gid (s.guest gid).dir }, sec := { s.sec with teardown := s.sec.teardown.filter (·.1 != gid) } }
  let s := s.log 0x0C (dieIK 0) gid (s.nowUs - began)
  if s.power.roleMgr && s.busy Obj.teardownCmdResult then s.teardownResult 0x00 else s

/-- Steps 2 to 7 of a guest's teardown, as far as they can end now (R402). -/
def State.tearOne (s : State) (gid began : Nat) : State :=
  if !s.drained gid then s else
  let s := s.recallGuest gid
  if !(s.hearthOf gid).isEmpty then s else
  let s := (s.wcbOfGuest gid).foldl (fun (s : State) x => s.drainLine x.1 x.2) s
  if !(s.wcbOfGuest gid).isEmpty then s else
  ((((((s.sweepLrc gid).destroyKey gid).zeroFreed gid).freeWork gid).freeTables gid).endTeardown gid began)

/-- TEARDOWN_DRAIN_DONE (R402 steps 2 to 7): nothing of the guest is in flight, here and on the other members. Where recalls or
drains must still end, it comes again when they have. -/
def execTeardownDrainDone (s : State) : Host.Outcome State Fault Refusal :=
  live s fun s => s.sec.teardown.foldl (fun (s : State) t => s.tearOne t.1 t.2) s

/-- QUERY_KEY (R416, R417). -/
def execQueryKey (s : State) : Host.Outcome State Fault Refusal :=
  record s Obj.teardownCmdOp Obj.teardownCmdResult 0x02 fun s =>
    match s.pool.guests.find s.teardownGid with
    | none => s.teardownResult 0x03
    | some g => (s.setReg Obj.teardownCmdKstate g.key.kstate).teardownResult 0x00

/-! ## Firmware (R407 to R409, R541) -/

/-- Slot n. -/
def Sec.slotOf (c : Sec) (n : Nat) : FwSlot := if n == 0 then c.slotA else c.slotB

/-- Slot n replaced. -/
def Sec.setSlot (c : Sec) (n : Nat) (f : FwSlot) : Sec := if n == 0 then { c with slotA := f } else { c with slotB := f }

/-- The slot that does not run. -/
def State.otherSlot (s : State) : Nat := 1 - s.sec.slot

/-- RESULT of FW_CMD. -/
def State.fwResult (s : State) (v : Nat) : State := s.setReg Obj.fwCmdResult v

/-- RESULT of a COMMIT_SVN in BOOT_FAIL, when no image runs: refused, with a code the manual does not give (2 to 4). -/
def State.fwOpen (s : State) : State := (s.fwResult (2 + Config.freeNat s.freeCount % 3)).useFree 1

/-- An FW_CMD: served by firmware, and by the boot ROM in BOOT_FAIL (R407, R541). -/
def fwCmd (s : State) (code : Nat) (f : State → State) : Host.Outcome State Fault Refusal :=
  .next (if (s.served || (s.up && s.sec.st == 4)) && !s.busy Obj.fwCmdResult then f (s.setReg Obj.fwCmdOp code) else s)

/-- Bytes of a chunk with new ones from its start. -/
def FwSlot.putChunk (f : FwSlot) (i : Nat) (bs : Bytes) : FwSlot :=
  { f with valid := false, version := 0, svn := 0, hash := [], chunks := f.chunks.put i (bs ++ (f.chunks.getD i []).drop bs.length) }

/-- WRITE_CHUNK (R409). -/
def execWriteChunk (s : State) : Host.Outcome State Fault Refusal :=
  fwCmd s 0x01 fun s =>
    let off := s.reg Obj.fwCmdOffset
    let bs := s.blob Obj.fwCmdData
    if off % 1024 != 0 || decide (2 ^ 25 ≤ off) || decide (1024 < bs.length) then s.fwResult 0x03
    else
      let n := s.otherSlot
      State.fwResult { s with sec := { s.sec.setSlot n ((s.sec.slotOf n).putChunk (off / 1024) bs) with verified := none } } 0x00

/-- Version, SVN and SHA-384 of a slot that holds a valid image: the factory image as it was made, or what has been
written. -/
def State.slotImage (s : State) (n : Nat) : Option (Nat × Nat × Bytes) :=
  let f := s.sec.slotOf n
  if f.chunks.rows.isEmpty then (if f.valid then some (f.version, f.svn, Config.factoryHash n) else none) else Config.fwImage f.chunks.rows

/-- Version, SVN and SHA-384 of a slot whose image passes step 4 of Table 12.4. -/
def State.checkSlot (s : State) (n : Nat) : Option (Nat × Nat × Bytes) :=
  match s.slotImage n with
  | some (v, svn, h) => if s.svnMin ≤ svn then some (v, svn, h) else none
  | none => none

/-- A slot's record after its check. -/
def State.noteSlot (s : State) (n : Nat) (r : Option (Nat × Nat × Bytes)) : State :=
  let f := s.sec.slotOf n
  match r with
  | some (v, svn, h) => { s with sec := s.sec.setSlot n { f with valid := true, version := v, svn := svn, hash := h } }
  | none => s

/-- VERIFY (R409). -/
def execVerify (s : State) : Host.Outcome State Fault Refusal :=
  fwCmd s 0x02 fun s =>
    let n := s.otherSlot
    match s.checkSlot n with
    | some r =>
      let s := s.noteSlot n (some r)
      State.fwResult { s with sec := { s.sec with verified := some n } } 0x00
    | none => State.fwResult { s with sec := { s.sec with verified := none } } 0x02

/-- ACTIVATE (R409, R434, R541): a planned takeover by the standby from the verified slot, at the next checkpoint boundary. -/
def execActivate (s : State) : Host.Outcome State Fault Refusal :=
  fwCmd s 0x03 fun s =>
    if s.sec.st == 4 then s.fwResult 0x03
    else if s.sec.verified != some s.otherSlot then s.fwResult 0x02
    else
      let cmd := match s.ik.planned with | some t => t.byCmd | none => false
      let t : Takeover := { target := 1 - s.ik.active, cause := 0x07, planned := true, byCmd := cmd, byFw := true }
      State.fwResult { s with ik := { s.ik with planned := some t } } 0x01

/-- FW_CONFIRM (R409): the new image has held control for 60 s. -/
def execFwConfirm (s : State) : Host.Outcome State Fault Refusal :=
  managed s fun s =>
    match s.sec.confirm with
    | none => s
    | some _ => State.fwResult { s with sec := { s.sec with bootFlag := s.sec.slot, confirm := none } } 0x00

/-- COMMIT_SVN (R408). -/
def execCommitSvn (s : State) : Host.Outcome State Fault Refusal :=
  fwCmd s 0x04 fun s =>
    let run := (s.sec.slotOf s.sec.slot).svn
    let lower := match s.slotImage s.otherSlot with | some (_, svn, _) => decide (svn < run) | none => false
    if s.sec.st == 4 then s.fwOpen
    else if lower then s.fwResult 0x04
    else State.fwResult { s with sec := { s.sec with svnBlown := max s.sec.svnBlown (min run 64) } } 0x00

/-! ## Identity and attestation (R404, R406) -/

/-- SHA-384 of a slot's image. -/
def State.slotHash (s : State) (n : Nat) : Bytes :=
  let f := s.sec.slotOf n
  if f.chunks.rows.isEmpty then Config.factoryHash n else if f.hash.isEmpty then Config.sha384 (f.chunks.rows.map (·.2)).flatten else f.hash

/-- The first 160 bytes of a report (R406). -/
def State.reportBody (s : State) (nonce : Bytes) : Bytes :=
  padBytes 32 nonce ++ padBytes 16 Config.serialNumber ++ leBytes 1 (s.reg Obj.stepping) ++ leBytes 1 s.sec.st ++ leBytes 2 s.svnMin ++
    padBytes 48 (s.slotHash s.sec.slot) ++ padBytes 48 (s.slotHash s.otherSlot) ++ zeroBytes 12

/-- ATTEST (R406, R411): ATTEST_NONCE is written and the report made; without an identity key no report is. -/
def execAttest (nonce : Bytes) (s : State) : Host.Outcome State Fault Refusal :=
  managed s fun s =>
    if nonce.length != 32 then s else
    let s := s.setBlob Obj.attestNonce nonce
    if s.sec.noIdentity then s else
    s.setBlob Obj.attestReport (s.reportBody nonce ++ padBytes 96 (Config.ecdsaSign (Config.sha384 (s.reportBody nonce))))

/-! ## Debug and test (R410, R411) -/

/-- RESULT of DEBUG_CMD. -/
def State.debugResult (s : State) (v : Nat) : State := s.setReg Obj.debugCmdResult v

/-- CHALLENGE (R411). -/
def execChallenge (s : State) : Host.Outcome State Fault Refusal :=
  record s Obj.debugCmdOp Obj.debugCmdResult 0x01 fun s =>
    if 8 ≤ s.sec.failedUnlocks then s.debugResult 0x04
    else if !s.drbgOk then State.debugResult { s with sec := { s.sec with nonce := none } } 0x03
    else
      let (n, s) := s.draw 32
      State.debugResult (State.setBlob { s with sec := { s.sec with nonce := some n } } Obj.debugCmdNonce n) 0x00

/-- Anchors that may sign a level (R411). -/
def State.debugAnchors (s : State) (level : Nat) : List Nat :=
  if level == 2 then [1]
  else if level == 1 then (upto 8).filterMap fun i =>
    if i == 0 || ((s.reg Obj.debugAnchorMask).testBit i && s.anchor (i + 1) != zeroBytes 48) then some (i + 1) else none
  else []

/-- The level is granted: keys are purged, every guest becomes Undefined, and definitions are refused from now on (R411). -/
def State.unlockDebug (s : State) (level : Nat) : State :=
  let s := s.purgeKeys
  { s with pool := { s.pool with guests := {} },
           sec := { s.sec with st := 1, debugLevel := max s.sec.debugLevel level, noDefine := true, noIdentity := s.sec.noIdentity || level == 2 } }

/-- UNLOCK (R411). -/
def execUnlock (s : State) : Host.Outcome State Fault Refusal :=
  record s Obj.debugCmdOp Obj.debugCmdResult 0x02 fun s =>
    match s.sec.nonce with
    | none => s.debugResult 0x03
    | some n =>
      let level := s.reg Obj.debugCmdLevel
      let data := Config.sha384 (n ++ Config.serialNumber ++ leBytes 1 level)
      if (s.debugAnchors level).any fun a => Config.anchorVerify (s.anchor a) data (s.blob Obj.debugCmdSig) then
        (s.unlockDebug level).debugResult 0x00
      else State.debugResult { s with sec := { s.sec with failedUnlocks := s.sec.failedUnlocks + 1 } } 0x02

/-- DEBUG_NONCE_EXPIRY (R411). -/
def execDebugNonceExpiry (s : State) : Host.Outcome State Fault Refusal :=
  awake s fun s => { s with sec := { s.sec with nonce := none } }

/-- EXTEST, CLAMP or HIGHZ (R410): the first use purges keys and enters TEST_HALT; one on a halted device finds it so. -/
def execExtest (s : State) : Host.Outcome State Fault Refusal :=
  .next (if !s.power.aon then s else
    let s := { s with power := { s.power with tapReset := false } }
    if s.halted then s else s.halt 3 0x04)

/-- TAP_RESET (R509): the test access port returns to Test-Logic-Reset and nothing else changes. -/
def execTapReset (s : State) : Host.Outcome State Fault Refusal :=
  .next (if s.power.aon then { s with power := { s.power with tapReset := true } } else s)

/-- TAMPER (R413, R544): 0 a supply, which counts while its monitors are armed, 1 a clock, 2 a temperature. -/
def execTamper (cause : Fin 3) (s : State) : Host.Outcome State Fault Refusal :=
  .next (if !s.power.aon || s.halted || (cause.val == 0 && !s.power.supplyArmed) then s else s.halt 2 (cause.val + 1))

end Sys2Proof.Machine
end

