-- ==== Sys2Proof/Machine/Innkeeper.lean ====
section
/-! DEFINITION. The Innkeeper pair, its saved state and takeovers, the interrupt controller and pigeonholes (chapter 13). -/

namespace Sys2Proof.Machine

open Sys2Proof

/-! ## Dies -/

/-- An Innkeeper die. -/
def State.ikd (s : State) (d : Nat) : IkDie := s.ik.dies.getD d {}

/-- An Innkeeper die changed. -/
def State.onIkd (s : State) (d : Nat) (f : IkDie → IkDie) : State := { s with ik := { s.ik with dies := s.ik.dies.put d (f (s.ikd d)) } }

/-- The Innkeeper pair works: powered, booted, not halted, and not stopped by Night. -/
def State.ikRuns (s : State) : Bool := s.up && !s.halted && s.sec.booted && s.power.st != 2 && !s.power.clocksLost

/-- The active Innkeeper runs: the pair works, with no takeover under way and not both lost. -/
def State.ikServes (s : State) : Bool := s.ikRuns && s.ik.gap.isNone && !s.ik.bothLost && s.ik.active != 0xFF

/-- An event of the Innkeeper pair. -/
def ikEvent (s : State) (f : State → State) : Host.Outcome State Fault Refusal := .next (if s.ikRuns then f s else s)

/-! ## Failure and takeover (R425 to R437) -/

/-- A revert asked for and not started is withdrawn: IK0's passes start again, or IK1 is no longer active (R433). -/
def State.dropRevert (s : State) : State :=
  match s.ik.planned with
  | some t => if t.cause == 0x08 then { s with ik := { s.ik with planned := none } } else s
  | none => s

/-- A failing die is reset for its self-test; IK0 is held out at its third failure within 60 minutes (R432, R433). -/
def State.failDie (s : State) (d : Nat) : State :=
  let times := s.nowMs :: ((s.ikd d).failures.filter fun t => decide (s.nowMs < t + 3600000))
  s.dropRevert.onIkd d fun k => { k with st := if d == 0 && decide (3 ≤ times.length) then 6 else 1, passes := 0, failRuns := 0, failures := times }

/-- A die can take control now, or once it is STANDBY (R431). -/
def State.canTake (s : State) (d : Nat) : Bool := (s.ikd d).st == 1 || (s.ikd d).st == 2 || (s.ikd d).st == 3

/-- Requests received and not answered are lost, and a running checkpoint is not complete (R422, R430). -/
def State.dropUnanswered (s : State) : State :=
  let reqs := s.pool.reqs.filter fun _ r => !(r.stage == Stage.mgmt && r.msg.isNone)
  State.settleTrk { s with dict := { s.dict with queue := [] }, ik := { s.ik with ckptDue := none, ckptLate := false }, pool := { s.pool with reqs := reqs } }

/-- Both Innkeepers are lost: none is active, and the contacts follow AON (R435). -/
def State.loseBoth (s : State) : State := State.releaseOutputs { s with ik := { s.ik with gap := none, bothLost := true, active := 0xFF } }

/-- The active Innkeeper fails for a cause: a takeover starts, or both are lost (R425, R427, R431, R435). -/
def State.ikFail (s : State) (cause : Nat) : State :=
  if !s.ikServes then s else
  let a := s.ik.active
  let b := 1 - a
  let s := (s.holdOutputs.failDie a).dropUnanswered
  let s := { s with ik := { s.ik with lastCause := cause } }
  if s.canTake b then
    State.recovery { s with ik := { s.ik with gap := some { target := b, cause := cause, start := s.now } } }
  else s.loseBoth

/-- The target of a takeover fails: a planned one gives control back to the former active, another leaves both lost (R434,
R435). -/
def State.targetFail (s : State) (t : Takeover) (cause : Nat) : State :=
  let s := s.failDie t.target
  let s := { s with ik := { s.ik with lastCause := cause } }
  if t.planned then { s with ik := { s.ik with gap := some { t with target := 1 - t.target, planned := false } } }
  else s.loseBoth

/-- A request put into its place by the time it took its tracker. -/
def putSince (r : Nat × Req) : List (Nat × Req) → List (Nat × Req)
  | [] => [r]
  | x :: xs => if r.2.since < x.2.since then r :: x :: xs else x :: putSince r xs

/-- SETMSGs that waited for firmware are acted on, in the order in which they took their trackers (R25, R428). -/
def State.drainSet (s : State) : State :=
  let waiting := (s.pool.reqs.rows.filter fun r => r.2.stage == Stage.mgmt && r.2.msg.isSome).foldl (fun b r => putSince r b) []
  waiting.foldl (fun (s : State) r => match r.2.msg with | some m => (s.onSetMsg r.2.p.src m).freeTracker r.1 | none => s) s

/-- An image's trial: ACTIVATE starts the 60 s, and a fault within them returns to the old slot, whose RESULT the manual leaves
open (R409). -/
def State.trial (s : State) (t : Takeover) : State :=
  match t.byFw && t.planned, s.sec.verified with
  | true, some n => { s with sec := { s.sec with slot := n, confirm := some s.sec.slot, verified := none } }
  | _, _ =>
    if t.planned then s
    else match s.sec.confirm with
      | some old => (State.fwResult { s with sec := { s.sec with slot := old, confirm := none } } (2 + Config.freeNat s.freeCount % 3)).useFree 1
      | none => if t.byFw then (s.fwResult (2 + Config.freeNat s.freeCount % 3)).useFree 1 else s

/-- Interrupt state of a new active controller (R444). -/
def State.takeIrq (s : State) : State := { s with irq := { s.irq with pend := s.ik.ckpt.pend.join s.irq.standby, coreIe := [true, true, true, true] } }

/-- The gap's length, microseconds. -/
def State.gapUs (s : State) (t : Takeover) : Nat := (s.now - t.start) / 1000

/-- HEARTBEAT (R425). -/
def execHeartbeat (s : State) : Host.Outcome State Fault Refusal :=
  ikEvent s fun s => if s.ikServes then { s with ik := { s.ik with beat := s.now } } else s

/-- HEARTBEAT_TIMEOUT (R425, R426): a heartbeat within the 3 ms, in the cycle of their expiry too, wins. -/
def execHeartbeatTimeout (s : State) : Host.Outcome State Fault Refusal :=
  ikEvent s fun s => if s.ik.beat + 3000000 ≤ s.now then s.ikFail 0x01 else s

/-- WATCHDOG_EXPIRY (R425). -/
def execWatchdogExpiry (s : State) : Host.Outcome State Fault Refusal := ikEvent s fun s => s.ikFail 0x03

/-- Cause of an INNKEEPER_FAILURE: 0 SRAM, 1 firmware, 2 die lost or its supply (Table 13.3). -/
def ikCause (c : Fin 3) : Nat := if c == 0 then 0x02 else if c == 1 then 0x04 else 0x05

/-- INNKEEPER_FAILURE (R425, R427, R434, R438): of the active die, of a takeover's target, or of the standby. -/
def execInnkeeperFailure (die : Fin 2) (cause : Fin 3) (s : State) : Host.Outcome State Fault Refusal :=
  ikEvent s fun s =>
    match s.ik.gap with
    | some t => if t.target == die.val then s.targetFail t (ikCause cause) else s
    | none =>
      if s.ik.bothLost then s
      else if s.ik.active == die.val then s.ikFail (ikCause cause)
      else if (s.ikd die.val).st == 3 then (s.failDie die.val).irqEdge 0x000
      else s

/-- The new Innkeeper of a takeover is active, with a failover record (R427 step 8); a former active that resumes is as it was. -/
def State.countTakeover (s : State) (t : Takeover) (resumed : Bool) : State :=
  let gap := s.gapUs t
  let n := t.target
  let s := { s with ik := { s.ik with gap := none, active := n, lastGap := gap, beat := s.now } }
  if resumed then s else
  let s := { s with ik := { s.ik with failovers := satInc 32 s.ik.failovers, lastCause := t.cause } }
  s.log 0x0E (dieIK n) (n + t.cause * 256) gap

/-- A SWITCH ends. DESIGN CHOICE (assumption 67): where the target failed and the former active resumed, the manual names no result, and it
is free among 0x00, 0x02, 0x03 and 0x04. -/
def State.switchEnd (s : State) (resumed : Bool) : State :=
  if resumed then (s.setReg Obj.ikCmdResult ([0x00, 0x02, 0x03, 0x04].getD (Config.freeNat s.freeCount % 4) 0)).useFree 1
  else s.setReg Obj.ikCmdResult 0x00

/-- TAKEOVER_DONE (R427 to R431, R434, R444, R474): the target, once STANDBY, is ACTIVE. -/
def execTakeoverDone (s : State) : Host.Outcome State Fault Refusal :=
  ikEvent s fun s =>
    match s.ik.gap with
    | none => s
    | some t =>
      let n := t.target
      let resumed := (s.ikd n).st == 4
      if (s.ikd n).st != 3 && !resumed then s else
      let s := (s.onIkd n fun k => { k with st := 4 }).takeIrq
      let s := if t.planned then s.onIkd (1 - n) fun k => { k with st := 3, passes := 0, failRuns := 0 } else s
      let s := ((s.countTakeover t resumed).endSessions.releaseOutputs).trial t
      let s := if t.byCmd then s.switchEnd resumed else s
      ((s.irqEdge 0x000).makePending).drainSet

/-! ## Saved state (R422, R434) -/

/-- A checkpoint captured now. -/
def State.capture (s : State) : Ckpt := { seq := (s.ik.ckptSeq + 1) % 2 ^ 64, at_ := s.now, pend := s.irq.pend, journaled := s.ik.journal.length }

/-- A checkpoint is complete: the journal keeps what came after its capture (R422, R423, R444). -/
def State.completeCkpt (s : State) (c : Ckpt) : State :=
  let s := { s with ik := { s.ik with ckpt := c, ckptSeq := c.seq, ckptDue := none, ckptLate := false, journal := s.ik.journal.drop c.journaled },
                    irq := { s.irq with standby := s.irq.standbyNew } }
  s.countIk 0x1012 0

/-- A planned takeover starts at this checkpoint boundary: a final checkpoint with an empty journal, and the gap (R434). -/
def State.startPlanned (s : State) (t : Takeover) : State :=
  let s := { s with irq := { s.irq with standbyNew := {} } }
  let s := (s.completeCkpt s.capture).holdOutputs
  let t := { t with target := 1 - s.ik.active, start := s.now, planned := true }
  State.recovery { s with ik := { s.ik with gap := some t, planned := none } }

/-- A checkpoint starts: a capture; or the boundary at which a planned takeover starts, once its target is STANDBY and what the
dictionary has taken is answered (R422, R434). -/
def State.startCkpt (s : State) : State :=
  if !s.ikServes || s.ik.ckptDue.isSome then s else
  match s.ik.planned with
  | some t =>
    if (s.ikd (1 - s.ik.active)).st == 3 && s.dict.queue.isEmpty then s.startPlanned t
    else { s with ik := { s.ik with ckptDue := some s.capture }, irq := { s.irq with standbyNew := {} } }
  | none => { s with ik := { s.ik with ckptDue := some s.capture }, irq := { s.irq with standbyNew := {} } }

/-- CHECKPOINT (R422, R434). -/
def execCheckpoint (s : State) : Host.Outcome State Fault Refusal := ikEvent s fun s => s.startCkpt

/-- CHECKPOINT_COMPLETE (R422, R423): after a late one the next starts at once. -/
def execCheckpointComplete (s : State) : Host.Outcome State Fault Refusal :=
  ikEvent s fun s =>
    match s.ik.ckptDue with
    | some c => if !s.ikServes then s else if s.ik.ckptLate then (s.completeCkpt c).startCkpt else s.completeCkpt c
    | none => s

/-- CHECKPOINT_LATE (R422). -/
def execCheckpointLate (s : State) : Host.Outcome State Fault Refusal :=
  ikEvent s fun s =>
    if s.ik.ckptDue.isSome && !s.ik.ckptLate && s.ikServes then
      (State.irqEdge { s with ik := { s.ik with ckptLate := true } } 0x001).countIk 0x1012 1
    else s

/-! ## Self-tests (R432, R433, R437) -/

/-- A passing run of a die's self-test; a die in SELF_TEST becomes STANDBY. -/
def State.passRun (s : State) (d : Nat) : State :=
  let was := (s.ikd d).st
  let s := s.onIkd d fun k => { k with st := 3, passes := satInc 8 k.passes, failRuns := 0 }
  if was == 3 then s else s.irqEdge 0x000

/-- The die is the target of a takeover. -/
def State.takes (s : State) (d : Nat) : Bool := match s.ik.gap with | some t => t.target == d | none => false

/-- A failing run: the count restarts, and the third in a row leaves the die FAILED; a takeover that waits for it loses both
(R431, R435). -/
def State.failRun (s : State) (d : Nat) : State :=
  let n := (s.ikd d).failRuns + 1
  let s := State.dropRevert { s with ik := { s.ik with lastCause := 0x06 } }
  let new := if 3 ≤ n then 5 else 1
  let was := (s.ikd d).st
  let s := s.onIkd d fun k => { k with st := new, passes := 0, failRuns := n }
  let s := if was == new then s else s.irqEdge 0x000
  if 3 ≤ n && s.takes d then s.loseBoth else s

/-- IK_SELF_TEST_RUN (R432, R433): IK0's 60th pass in a row while IK1 is active asks for a revert. -/
def execIkSelfTestRun (die : Fin 2) (pass : Bool) (s : State) : Host.Outcome State Fault Refusal :=
  ikEvent s fun s =>
    let d := die.val
    if s.ik.bothLost || s.ik.active == d || !((s.ikd d).st == 1 || (s.ikd d).st == 3 && !s.takes d) then s
    else if !pass then s.failRun d
    else
      let s := s.passRun d
      let due := d == 0 && s.ik.active == 1 && s.inForce Obj.ikRevertEn != 0 && decide (60 ≤ (s.ikd 0).passes) && s.ik.planned.isNone
      if due then { s with ik := { s.ik with planned := some { target := 0, cause := 0x08, planned := true } } } else s

/-- Slots in the order that the straps and the boot flag give (R540); none in recovery (R541). -/
def State.bootOrder (s : State) : List Nat :=
  if s.power.boot == 3 then []
  else
    let p := if s.power.boot == 1 then 0 else if s.power.boot == 2 then 1 else s.sec.bootFlag
    [p, 1 - p]

/-- The slot that secure boot takes: the first whose checks pass (R407). -/
def State.bootSlot (s : State) : Option Nat := s.bootOrder.find? fun n => (s.checkSlot n).isSome

/-- IK_RECOVERY_TEST (R437): with both lost, a die that passes boots from flash and carries on. -/
def execIkRecoveryTest (die : Fin 2) (pass : Bool) (s : State) : Host.Outcome State Fault Refusal :=
  ikEvent s fun s =>
    if !s.ik.bothLost || (s.ikd die.val).st == 6 || !pass then s else
    match s.bootSlot with
    | none => s
    | some n =>
      let s := (s.onIkd die.val fun k => { k with st := 4, failRuns := 0 }).takeIrq
      let s := s.trial {}
      let s := { s with ik := { s.ik with bothLost := false, active := die.val, beat := s.now }, sec := { s.sec with slot := n } }
      (s.endSessions.makePending).drainSet

/-! ## IK_CMD (R452, R455) -/

/-- RESULT of IK_CMD. -/
def State.ikResult (s : State) (v : Nat) : State := s.setReg Obj.ikCmdResult v

/-- SWITCH (R434, R455): RESULT reads 0x01 until the planned takeover ends. -/
def execSwitch (s : State) : Host.Outcome State Fault Refusal :=
  record s Obj.ikCmdOp Obj.ikCmdResult 0x01 fun s =>
    if (s.ikd (1 - s.ik.active)).st != 3 then s.ikResult 0x02
    else
      let fw := match s.ik.planned with | some t => t.byFw | none => false
      State.ikResult { s with ik := { s.ik with planned := some { target := 1 - s.ik.active, cause := 0x07, planned := true, byCmd := true, byFw := fw } } } 0x01

/-- A command on a die that is not the active one. -/
def ikDieCmd (s : State) (code : Nat) (f : State → Nat → State) : Host.Outcome State Fault Refusal :=
  record s Obj.ikCmdOp Obj.ikCmdResult code fun s =>
    let d := s.reg Obj.ikCmdDie
    if 2 ≤ d then s.ikResult 0x04 else if d == s.ik.active then s.ikResult 0x03 else (f s d).ikResult 0x00

/-- RETEST (R432): a FAILED die is tested again. -/
def execRetest (s : State) : Host.Outcome State Fault Refusal :=
  ikDieCmd s 0x02 fun s d => if (s.ikd d).st == 5 then (s.onIkd d fun k => { k with st := 1, passes := 0, failRuns := 0 }).irqEdge 0x000 else s

/-- HOLD_OUT (R433, R455). -/
def execHoldOut (s : State) : Host.Outcome State Fault Refusal :=
  ikDieCmd s 0x03 fun s d =>
    let was := (s.ikd d).st
    let s := s.dropRevert.onIkd d fun k => { k with st := 6, passes := 0, failRuns := 0 }
    if was == 6 then s else s.irqEdge 0x000

/-- RELEASE (R433): the die is tested and can take control again. -/
def execRelease (s : State) : Host.Outcome State Fault Refusal :=
  ikDieCmd s 0x04 fun s d =>
    if (s.ikd d).st == 6 then (s.onIkd d fun k => { k with st := 1, passes := 0, failRuns := 0, failures := [] }).irqEdge 0x000 else s

/-! ## Interrupts (R439 to R445, R453) -/

/-- IRQ_EDGE (R439): a hardware source rises. -/
def execIrqEdge (src : Fin 512) (s : State) : Host.Outcome State Fault Refusal := awake s fun s => s.irqEdge src.val

/-- Vector and PRIO of a source. -/
def State.vector (s : State) (src : Nat) : Nat := (s.irq.vectors.find src).getD (Config.irqVector src)
def State.prio (s : State) (src : Nat) : Nat := (s.irq.prios.find src).getD (Config.irqPrio src) % 4

/-- MASK bitmap. -/
def State.irqMask (s : State) : Nat := leNat (s.blob Obj.irqMask)

/-- Winner of an arbitration: highest PRIO, lowest source number (R441). -/
def State.irqWinner (s : State) : Option Nat :=
  let ready := (upto 1024).filter fun n => s.irq.pend.bits.testBit n && !s.irqMask.testBit n && s.vector n != 0
  ready.foldl (fun (b : Option Nat) n => match b with | some m => if s.prio m < s.prio n then some n else b | none => some n) none

/-- Cores that are ready: enabled as targets, with their interrupt enable set, and not halted. -/
def State.coreReady (s : State) (c : Nat) : Bool :=
  (s.reg Obj.irqTargetEn).testBit c && s.irq.coreIe.getD c false && !(s.irq.halted.getD c false)

/-- First ready core after the one that last received a vector (R441). -/
def State.irqTarget (s : State) : Option Nat := ([1, 2, 3, 4].map fun i => (s.irq.lastCore + i) % 4).find? fun c => s.coreReady c

/-- IRQ_DELIVER (R441, R442): one arbitration cycle; bit c of reenabled says that core c has set its interrupt enable again. -/
def execIrqDeliver (reenabled : Fin 16) (s : State) : Host.Outcome State Fault Refusal :=
  managed s fun s =>
    let ie := s.irq.coreIe.zipIdx.map fun x => x.1 || reenabled.val.testBit x.2
    let s := { s with irq := { s.irq with coreIe := ie } }
    match s.irqWinner, s.irqTarget with
    | some src, some c =>
      let q := s.irq
      let p : Pend := { q.pend with bits := clearBit q.pend.bits src }
      State.countIk { s with irq := { q with pend := p, coreIe := q.coreIe.set c false, lastCore := c, presented := (c, src, s.vector src) :: q.presented } } 0x1011 0
    | _, _ => s

/-- An IRQ_CMD on its source. -/
def irqCmd (s : State) (code : Nat) (f : State → Nat → State) : Host.Outcome State Fault Refusal :=
  record s Obj.irqCmdOp Obj.irqCmdResult code fun s =>
    let n := s.reg Obj.irqCmdSource
    if 1024 ≤ n then s.setReg Obj.irqCmdResult 0x04 else (f s n).setReg Obj.irqCmdResult 0x00

/-- QUERY of IRQ_CMD (R453). -/
def execIrqQuery (s : State) : Host.Outcome State Fault Refusal :=
  irqCmd s 0x01 fun s n => (s.setReg Obj.irqCmdVector (s.vector n)).setReg Obj.irqCmdPrio (s.prio n)

/-- PENDING and counters of the active controller changed. -/
def State.onPend (s : State) (f : Pend → Pend) : State := { s with irq := { s.irq with pend := f s.irq.pend } }

/-- SET_PENDING (R440): the arrival counter does not change. -/
def execSetPending (s : State) : Host.Outcome State Fault Refusal :=
  irqCmd s 0x02 fun s n => s.onPend fun p => { p with bits := setBit p.bits n }

/-- CLEAR_PENDING (R439). -/
def execClearPending (s : State) : Host.Outcome State Fault Refusal :=
  irqCmd s 0x03 fun s n => s.onPend fun p => { p with bits := clearBit p.bits n }

/-- CLEAR_COUNT (R439). -/
def execClearCount (s : State) : Host.Outcome State Fault Refusal :=
  irqCmd s 0x04 fun s n => s.onPend fun p => { p with counts := p.counts.del n }

/-- IRQ_ALERT_STATUS_WRITE (R445): ones clear their bits. -/
def execIrqAlertStatusWrite (v : Nat) (s : State) : Host.Outcome State Fault Refusal :=
  managed s fun s => { s with irq := { s.irq with alertStatus := clearMask s.irq.alertStatus v } }

/-- IRQ_OVERRUN_WRITE (R443): ones clear their bits. -/
def execIrqOverrunWrite (v : Nat) (s : State) : Host.Outcome State Fault Refusal :=
  managed s fun s => { s with irq := { s.irq with overrun := clearMask s.irq.overrun v } }

/-- The controller's clock runs again: latched edges become PENDING, one arrival each (R443). -/
def State.irqStart (s : State) : State :=
  if !s.irq.stopped then s else
  let caught := (upto 1024).filter s.irq.latched.testBit
  let p := caught.foldl (fun (p : Pend) n => p.edge n) s.irq.pend
  let s := { s with irq := { s.irq with pend := p, latched := 0, stopped := false } }
  s.countN (dieIK s.ikDie) 0 0x1011 1 caught.length

/-! ## Pigeonholes (R446 to R451, R454) -/

/-- A pigeonhole. -/
def State.hole (s : State) (h : Nat) : Hole := s.holes.getD h {}

/-- A pigeonhole written. -/
def State.setHole (s : State) (h : Nat) (x : Hole) : State := { s with holes := s.holes.put h x }

/-- Bits [13:4] of a status word (Table 13.8), with the words that OUT_WORDS reports. -/
def Hole.flags (x : Hole) (out : Nat) : Nat := b2n x.inFull * 2 ^ 13 + b2n x.outFull * 2 ^ 12 + out * 256 + x.inWords.length * 16

/-- A PIGEON_CMD on its hole. -/
def pigeonCmd (s : State) (code : Nat) (f : State → Nat → State) : Host.Outcome State Fault Refusal :=
  record s Obj.pigeonCmdOp Obj.pigeonCmdResult code fun s =>
    let h := s.reg Obj.pigeonCmdHole
    if 64 ≤ h then s.setReg Obj.pigeonCmdResult 0x04 else f s h

/-- READ_IN (R446, R454). -/
def execReadIn (s : State) : Host.Outcome State Fault Refusal :=
  pigeonCmd s 0x01 fun s h =>
    let x := s.hole h
    if !x.inFull then (s.setReg Obj.pigeonCmdWords 0).setReg Obj.pigeonCmdResult 0x02
    else
      let bs := (x.inWords.map fun w => leBytes 8 w).flatten
      let s := (s.setHole h { x with inFull := false, inWords := [] }).setReg Obj.pigeonCmdWords x.inWords.length
      (s.setBlob Obj.pigeonCmdData (bs ++ (s.blob Obj.pigeonCmdData).drop bs.length)).setReg Obj.pigeonCmdResult 0x00

/-- WRITE_OUT (R446, R454). -/
def execWriteOut (s : State) : Host.Outcome State Fault Refusal :=
  pigeonCmd s 0x02 fun s h =>
    let x := s.hole h
    let n := s.reg Obj.pigeonCmdWords
    if n == 0 || decide (8 < n) then s.setReg Obj.pigeonCmdResult 0x04
    else if x.outFull then s.setReg Obj.pigeonCmdResult 0x03
    else
      let ws := (upto n).map fun i => leNat (sliceBytes (s.blob Obj.pigeonCmdData) (8 * i) 8)
      (s.setHole h { x with outFull := true, outWords := ws }).setReg Obj.pigeonCmdResult 0x00

/-- PIGEON_OWNER_WRITE (R449): both directions are emptied; bits [30:20] are reserved. -/
def execPigeonOwnerWrite (hole : Fin 64) (v : Nat) (s : State) : Host.Outcome State Fault Refusal :=
  managed s fun s => if bitsOf v 30 20 == 0 && decide (v < 2 ^ 32) then s.setHole hole.val { owner := v } else s

end Sys2Proof.Machine
end

