-- ==== Sys2Proof/Machine/PowerCmds.lean ====
section
/-! DEFINITION. Power, reset, start-up, Night, reference clocks, die temperature and cluster power (chapters 15 and 17, R407, R419). -/

namespace Sys2Proof.Machine

open Sys2Proof

/-! ## What a power change and a reset clear (Table 15.7) -/

/-- What outlives VDD_AON: the flash and the fuses. DRAM bits are left until the fill. -/
def State.offPower (s : State) (aon : Bool) : State :=
  let d := s.dict
  let c := s.sec
  { pending := s.pending, out := s.out, freeCount := s.freeCount,
    power := { aon := aon, wakeN := s.power.wakeN, refGood := s.power.refGood, history := s.power.history },
    dict := { copy0 := d.copy0, copy1 := d.copy1, copy := d.copy, recno := d.recno, flashBad := d.flashBad, calOver := d.calOver },
    sec := { slotA := c.slotA, slotB := c.slotB, bootFlag := c.bootFlag, svnBlown := c.svnBlown, drawn := c.drawn },
    cellar := { dram := s.cellar.dram } }

/-- POWER_ON (R393): VDD_AON rises on a device without power. -/
def execPowerOn (s : State) : Host.Outcome State Fault Refusal := .next (if s.power.aon then s else s.offPower true)

/-- POWER_OFF (R393, R510, R546): VDD_AON falls. -/
def execPowerOff (s : State) : Host.Outcome State Fault Refusal := .next (if s.power.aon then s.offPower false else s)

/-- Keys and debug state that a reset keeps; TAMPER_HALT, TEST_HALT and an unlock last until power-on (R411, R509). -/
def Sec.keep (c : Sec) : Sec :=
  { st := if c.st == 4 then 0 else c.st, drawn := c.drawn, reseeds := c.reseeds, kwrap := c.kwrap, ktable := c.ktable, epoch := c.epoch,
    slotA := c.slotA, slotB := c.slotB, bootFlag := c.bootFlag, svnBlown := c.svnBlown, nonce := c.nonce,
    failedUnlocks := c.failedUnlocks, debugLevel := c.debugLevel, noDefine := c.noDefine, noIdentity := c.noIdentity, tamperCause := c.tamperCause }

/-- Power state that a reset keeps. -/
def Power.keep (p : Power) : Power :=
  { aon := p.aon, resetN := p.resetN, pwrGood := p.pwrGood, powerOn := p.powerOn, keysDue := p.keysDue, resetCause := p.resetCause, history := p.history,
    nights := p.nights, wakeN := p.wakeN, refSel := p.refSel, refGood := p.refGood, refSwitches := p.refSwitches,
    thermtrip := p.thermtrip, supplyArmed := p.supplyArmed, tapReset := p.tapReset }

/-- The state in which a cold reset leaves the device: in reset, Ledger, guests and set cleared, links down, objects to be
replayed (R509, R532, Table 15.7). -/
def State.inColdReset (s : State) : State :=
  let d := s.dict
  { pending := s.pending, out := s.out, freeCount := s.freeCount, power := s.power.keep, sec := s.sec.keep,
    dict := { copy0 := d.copy0, copy1 := d.copy1, copy := d.copy, recno := d.recno, appended := d.appended, flashBad := d.flashBad,
              calOver := d.calOver, sessionFails := d.sessionFails },
    ik := { failovers := s.ik.failovers }, obs := { preserved := s.obs.preserved }, cellar := { dram := s.cellar.dram } }

/-- Buses in I3C mode broadcast a reset of dynamic addresses before the reset (R355). -/
def State.i3cResets (s : State) : State :=
  (upto 6).foldl (fun (s : State) b => if s.inForce (Obj.sbMode b) == 1 then s.emit (.sbReset b) else s) s

/-- Reset entry (R508): everything stops, the broadcasts are sent, and the cause is recorded. -/
def State.enterReset (s : State) (cause : Nat) : State :=
  let s := if s.up && !s.halted then s.i3cResets else s
  let s := s.inColdReset
  { s with power := { s.power with inReset := true, resetCause := cause, history := (cause :: s.power.history).take 8 } }

/-- RESET_N_FALL (R508). -/
def execResetNFall (s : State) : Host.Outcome State Fault Refusal :=
  .next (if !s.power.aon || !s.power.resetN then s else
    let s := { s with power := { s.power with resetN := false } }
    if s.power.inReset then s else s.enterReset 0x02)

/-- PWR_GOOD_FALL (R508, R544): the supply monitors are disarmed. -/
def execPwrGoodFall (s : State) : Host.Outcome State Fault Refusal :=
  .next (if !s.power.aon || !s.power.pwrGood then s else
    let s := { s with power := { s.power with pwrGood := false, supplyArmed := false } }
    if s.power.inReset then s else s.enterReset 0x03)

/-- COLD_RESET (R508, R513). -/
def execColdReset (s : State) : Host.Outcome State Fault Refusal :=
  record s Obj.powerCmdOp Obj.powerCmdResult 0x02 fun s =>
    State.setReg { s with power := { s.power with coldDelay := true } } Obj.powerCmdResult 0x01

/-- COLD_RESET_DELAY_EXPIRY (R508). -/
def execColdResetDelayExpiry (s : State) : Host.Outcome State Fault Refusal :=
  awake s fun s => if s.power.coldDelay then s.enterReset 0x04 else s

/-- RESET_RELEASE (R499, R508, R511, R540, R544): RESET_N and PWR_GOOD are high and a reference clock has been good for 1 ms. The straps
are ROLE_MGR in bit 0, BOOT in [2:1], NODE_ID in [10:3]; a strap whose two samples differ reads low. `present` are the dies that
pass their self-test. -/
def execResetRelease (early late : Fin 2048) (present : Nat) (s : State) : Host.Outcome State Fault Refusal :=
  .next (if !s.power.aon || !s.power.inReset || s.power.refGood == 0 then s else
    let p := s.power
    let w := early.val &&& late.val
    let cause := if p.powerOn then 0x01 else p.resetCause
    let history := if p.powerOn then (cause :: p.history).take 8 else p.history
    { s with power := { p with inReset := false, powerOn := false, resetN := true, pwrGood := true, roleMgr := bitOf w 0, boot := bitsOf w 2 1,
                               nodeId := bitsOf w 10 3, resetCause := cause, history := history, timebase := 0,
                               refSel := if p.refGood.testBit 0 then 0 else 1, present := present % 2 ^ 64, supplyArmed := true } })

/-! ## Start-up (R325 to R328, R380, R407, R419, R511) -/

/-- Package keys, at the first reset release after VDD_AON rises and at no other (R393). -/
def State.packageKeys (s : State) : State :=
  if !s.power.keysDue then s else
  let (w, s) := s.draw 32
  let (t, s) := s.draw 64
  { s with power := { s.power with keysDue := false }, sec := { s.sec with kwrap := some w, ktable := some t } }

/-- First record number of a configuration copy, if its first record is valid. -/
def copyFirst (c : List FlashRec) : Option Nat := match c with | r :: _ => if r.good then some r.recno else none | [] => none

/-- The copy to replay: that with the higher first record number (R477). -/
def Dict.bootCopy (d : Dict) : Option Nat :=
  match copyFirst d.copy0, copyFirst d.copy1 with
  | some a, some b => some (if b ≤ a then 0 else 1)
  | some _, none => some 0
  | none, some _ => some 1
  | none, none => none

/-- A record replayed into the objects. -/
def State.replayRec (s : State) (r : FlashRec) : State :=
  match keyRow r.key with
  | some row => if row.ty.isNum then s.setReg r.key (leNat r.value) else s.setBlob r.key r.value
  | none => s

/-- Values of RWP objects as last written come into force (R465). -/
def State.takeForce (s : State) : State :=
  let rwp (k : Nat) : Bool := match keyRow k with | some r => r.acc == .rwp | none => false
  { s with forced := s.regs.filter fun k _ => rwp k, irq := { s.irq with alertEn := leNat (s.blob Obj.irqAlertEn) } }

/-- The flash log is replayed and RWP values take effect (R477, Table 15.8 step 4). -/
def State.replay (s : State) : State :=
  match s.dict.bootCopy with
  | some n =>
    let s := { s with dict := { s.dict with copy := n, noCopy := false } }
    ((replayed s.dict.active).foldl (fun (s : State) r => s.replayRec r) s).takeForce
  | none => (State.log { s with dict := { s.dict with noCopy := true } } 0x0F (dieIK 0) 0).takeForce

/-- DIMM of a channel as its SPD gives it. -/
def dimmOf (dimms : List Dimm) (ch : Nat) : Dimm := dimms.getD ch {}

/-- The device's mode (R325). -/
def State.bootMode (s : State) (dimms : List Dimm) : Nat :=
  let sel := s.inForce Obj.channelModeSel
  if sel != 0 then sel
  else match (upto 48).find? fun ch => (dimmOf dimms ch).kind != 0 with
    | some ch => if (dimmOf dimms ch).kind == 1 then 1 else 2
    | none => 2

/-- A DIMM's rank count is one that the device supports (R330). -/
def ranksOk (d : Dimm) : Bool := d.ranks == 1 || d.ranks == 2 || d.ranks == 4

/-- The DIMM runs in the mode (Table 10.1). -/
def dimmFits (mode : Nat) (d : Dimm) : Bool :=
  ranksOk d && (if mode == 1 then d.kind == 1 && decide (2 ^ 35 ≤ d.bytes) && decide (d.bytes ≤ 2 ^ 39)
    else d.kind == 2 && decide (2 ^ 34 ≤ d.bytes) && decide (d.bytes ≤ 2 ^ 38))

/-- A channel's state as start-up begins (Table 10.2), with the seeds and trims of its training (R343, R481). -/
def State.bootChan (s : State) (mode : Nat) (dimms : List Dimm) (ch : Nat) : Chan :=
  let d := dimmOf dimms ch
  let st := if d.kind == 0 || !s.hasDie (chanDie ch) then 0 else if s.inForce (Obj.channelEnable ch) == 0 then 1 else if dimmFits mode d then 3 else 2
  let cal := s.calStart ch d.maker d.serial
  { st := st, dimm := if d.kind == 0 || ranksOk d then d.kind else 0xFF, size := d.bytes, ranks := d.ranks, x8 := d.x8, maker := d.maker, serial := d.serial,
    seed := cal.1, trim := cal.2 }

/-- Members of a group by Table 10.4. -/
def groupTable (g : Nat) : List Nat :=
  if g == 0 then [0, 2, 4, 6, 8, 10, 12, 14, 16] else if g == 1 then [18, 20, 22, 24, 26, 28, 30, 32, 34]
  else if g == 2 then [36, 38, 40, 42, 44, 46, 1, 3, 5] else if g == 3 then [7, 9, 11, 13, 15, 19, 21, 23, 25]
  else [27, 29, 31, 35, 37, 39, 41, 43, 45]

/-- Members of a group at reset: those of GROUP_MAP where it names this layout, else those of Table 10.4 (R380). -/
def State.bootMembers (s : State) (layout g : Nat) : List Nat :=
  let m := s.blob Obj.groupMap
  if m.length == 46 && (m.getD 0 0).toNat == layout then (sliceBytes m (1 + 9 * g) 9).map (·.toNat) else groupTable g

/-- A group as start-up begins: members that cannot train have failed (R327, R383). -/
def State.bootGroup (s : State) (layout : Nat) (chans : Tab Chan) (g : Nat) : Group :=
  let ms := s.bootMembers layout g
  let failed := (upto 9).filter fun m => (chans.getD (ms.getD m 48) {}).st != 3
  let x : Group := { members := ms, failed := failed }
  { x with st := x.step }

/-- HEARTH_STATE by the range in force (R215). -/
def State.bootHearth (s : State) (tableBase : Nat) : Nat :=
  let b := s.inForce Obj.hearthBase
  let n := s.inForce Obj.hearthSize
  if n == 0 then 0 else if n % 2 ^ 30 == 0 && decide (n ≤ 2 ^ 36) && b % 2 ^ 30 == 0 && decide (b + n ≤ tableBase) then 1 else 2

/-- Channels, capacity, regions, groups and spares from the SPDs (R16, R17, R325 to R328, R380). -/
def State.bootCellar (s : State) (dimms : List Dimm) : State :=
  let mode := s.bootMode dimms
  let chans : Tab Chan := ⟨(upto 48).map fun ch => (ch, s.bootChan mode dimms ch)⟩
  let good := (upto 48).filter fun ch => (chans.getD ch {}).st == 3
  let cap := (good.map fun ch => (chans.getD ch {}).size).foldl (fun (b : Nat) n => if b == 0 then n else min b n) 0
  let layout := s.inForce Obj.channelLayout
  let plain := if layout == 0 then good else if layout == 2 then plain2 else []
  let bytes := (8 * groupCount layout + plain.length) * cap
  let groups : Tab Group := ⟨(upto (groupCount layout)).map fun g => (g, s.bootGroup layout chans g)⟩
  let used := (groups.rows.map fun g => g.2.members).flatten
  let spares := if layout == 1 then good.filter fun ch => !used.contains ch else []
  let base := bytes - 2 ^ 33
  { s with cellar := { dram := s.cellar.dram, chans := chans, layout := layout, mode := mode, cap := cap, bytes := bytes, tableBase := base,
                       plain := plain, groups := groups, spares := spares, hearthState := s.bootHearth base } }

/-- GROUP_MAP as this start uses it; a map of another layout is discarded (R380). -/
def State.bootMap (s : State) : State :=
  let old := s.blob Obj.groupMap
  if old == s.groupMap then s
  else if old.length == 46 then s.saveMap
  else s.setBlob Obj.groupMap s.groupMap

/-- Every link with its Gatehouse enters DETECT; with a die absent its links stay as they are (R264, Table 15.8). -/
def State.bootLinks (s : State) : State :=
  let lost := (upto 16).foldl (fun n g => if s.hasDie (dieGH g) then n else setBit n g) 0
  let s := { s with fabric := { s.fabric with ghLost := lost } }
  (upto 32).foldl (fun (s : State) l => if s.hasDie (linkDie l) then s.toDetect l else s) s

/-- The Innkeeper that boots, by the self-tests: IK0 first (R419). -/
def State.bootDie (s : State) (ik0 ik1 : Bool) : Option Nat :=
  if ik0 && s.hasDie 0 then some 0 else if ik1 && s.hasDie 1 then some 1 else none

/-- Innkeeper dies after the boot of die a from a slot: the other is STANDBY if it passed, else in SELF_TEST (R419, R432). -/
def State.bootIk (s : State) (a slot : Nat) (otherOk : Bool) : State :=
  let s := s.onIkd a fun k => { k with st := 4 }
  let s := s.onIkd (1 - a) fun k => if otherOk then { k with st := 3, passes := 1 } else { k with st := 1, failRuns := 1 }
  { s with ik := { s.ik with active := a, beat := s.now }, sec := { s.sec with booted := true, slot := slot } }

/-- RESET_HISTORY is persisted (R478, R512). -/
def State.saveHistory (s : State) : State := s.persist Obj.resetHistory (padBytes 8 (s.power.history.map (BitVec.ofNat 8)))

/-- SECURE_BOOT (R325, R407, R419, R477, R487, R541, Tables 12.4 and 15.8): the active Innkeeper, package keys, the slot, and where one
boots the objects, links, channels and clusters. `dimms` are the DIMMs as the SPDs give them. -/
def execSecureBoot (ik0 ik1 : Bool) (dimms : List Dimm) (s : State) : Host.Outcome State Fault Refusal :=
  awake s fun s =>
    if s.halted || s.sec.booted || s.sec.st == 4 || s.ik.noFirmware then s else
    match s.bootDie ik0 ik1 with
    | none => { s with ik := { s.ik with noFirmware := true, active := 0xFF } }
    | some a =>
      let s := s.packageKeys
      match s.bootSlot with
      | none => { s with sec := { s.sec with st := 4 }, ik := { s.ik with active := a } }
      | some n =>
        let s := (s.bootIk a n (if a == 0 then ik1 && s.hasDie 1 else false)).noteSlot n (s.checkSlot n)
        ((((s.replay.saveHistory.bootCellar dimms).bootMap).bootLinks).openMin)

/-! ## Clusters (R486, R487) -/

/-- The cluster is one of those that stay Open. -/
def State.keptOpen (s : State) (c : Nat) : Bool := (((upto 128).filter fun c => s.clusterUp c).take (s.reg Obj.clusterOpenMin)).contains c

/-- CLUSTER_SHUTTER_EXPIRY (R487): a cluster that holds no chunk. -/
def execClusterShutterExpiry (cluster : Fin 128) (s : State) : Host.Outcome State Fault Refusal :=
  live s fun s =>
    if s.idleOpen cluster && !(s.cluster cluster).clearing && !s.keptOpen cluster then
      s.onCluster cluster fun x => { x with pw := 1, idle := s.now } else s

/-- CLUSTER_DARK_EXPIRY (R400, R487): all state is lost. -/
def execClusterDarkExpiry (cluster : Fin 128) (s : State) : Host.Outcome State Fault Refusal :=
  live s fun s =>
    if s.clusterUp cluster && (s.cluster cluster).pw == 1 && s.reg Obj.clusterDarkIdle != 0 then
      let s := s.onCluster cluster fun x => { x with pw := 2, lastGid := none, idle := s.now }
      { s with trans := { s.trans with tlbs := s.trans.tlbs.del cluster } }
    else s

/-- CLUSTER_WAKE_DONE (R486, R438): a cluster woken for a chunk is Open. -/
def execClusterWakeDone (cluster : Fin 128) (s : State) : Host.Outcome State Fault Refusal :=
  live s fun s =>
    let pw := (s.cluster cluster).pw
    if pw == 3 || pw == 4 then
      let s := s.onCluster cluster fun x => { x with pw := 0, idle := s.now }
      if pw == 4 then s.irqEdge 0x008 else s
    else s

/-! ## Night (R490 to R495) -/

/-- Command records whose running blocks Night (Table 15.2, bit 6). -/
def nightRecords : List Nat :=
  [Obj.transCmdResult, Obj.hearthCmdResult, Obj.routeCmdResult, Obj.gmapCmdResult, Obj.teardownCmdResult, Obj.linkCmdResult, Obj.trainCmdResult]

/-- POWER_CMD_BLOCKER (Table 15.2). -/
def State.nightBlockers (s : State) : Nat :=
  let chans := s.cellar.chans.rows
  let moving := (match s.trans.commit with | some c => c.recs.any fun u => u.op != 1 | none => false)
  b2n (s.pool.reqs.size != 0) +
  2 * b2n (s.work.wbs.size != 0 || (s.work.streams.rows.any fun t => t.2.resident && t.2.head != t.2.tail) || !s.work.bells.isEmpty) +
  4 * b2n (s.trans.faults.size != 0) + 8 * b2n (s.work.ctxs.size != 0) + 16 * b2n (s.hearth.dir.size != 0) +
  32 * b2n ((chans.any fun c => c.2.st == 5 || c.2.repair.isSome) || (s.cellar.groups.rows.any fun g => g.2.rebuild.isSome) || moving) +
  64 * b2n (nightRecords.any fun k => s.busy k) +
  128 * b2n (s.ik.active == 0xFF || (s.ikd (1 - s.ik.active)).st != 3) + 256 * b2n (s.pool.setState == 1)

/-- A level source fires now: WAKE_N low, or the timer's target reached (R491, R493). -/
def State.levelWake (s : State) : Option Nat :=
  let en := s.reg Obj.wakeEn
  if en.testBit 2 && s.power.wakeN then some 0x03
  else if en.testBit 3 && s.reg Obj.wakeTimer != 0 && decide (s.reg Obj.wakeTimer ≤ s.now) then some 0x04
  else none

/-- NIGHT (R490, R492, R493, R513). -/
def execNight (s : State) : Host.Outcome State Fault Refusal :=
  record s Obj.powerCmdOp Obj.powerCmdResult 0x01 fun s =>
    if s.nightBlockers != 0 then (s.setReg Obj.powerCmdBlocker s.nightBlockers).setReg Obj.powerCmdResult 0x02
    else if bitsOf (s.reg Obj.wakeEn) 3 0 == 0 then s.setReg Obj.powerCmdResult 0x03
    else if s.levelWake.isSome then s.setReg Obj.powerCmdResult 0x04
    else State.setReg { s with power := { s.power with st := 1, nightStep := 2 } } Obj.powerCmdResult 0x01

/-- Step 2: every WCB and parity log drains. -/
def State.drainAll (s : State) : State :=
  let chans := s.cellar.chans.keys
  let s := chans.foldl (fun (s : State) ch => s.drainChan ch) s
  let s := chans.foldl (fun (s : State) ch => (s.chan ch).deltas.foldl (fun (s : State) d => s.mergeDelta ch d.2.1 d.2.2.2.1 d.2.2.2.2) (s.onChan ch fun c => { c with deltas := [] })) s
  chans.foldl (fun (s : State) ch => (s.chan ch).plines.keys.foldl (fun (s : State) l => s.drainParity ch l) s) s

/-- Step 5 begins: every up link is asked for STANDBY. -/
def State.askAll (s : State) : State := (upto 32).foldl (fun (s : State) l => if s.linkUp l then s.askStandby l else s) s

/-- Step 5 ends: a link whose peer has not agreed stops, is deaf in this Night and starts from DETECT after it. -/
def State.stopRest (s : State) : State :=
  let deaf := (upto 32).foldl (fun n l => if (s.link l).established && (s.link l).st != 8 then setBit n l else n) s.power.deafLinks
  let s := { s with power := { s.power with deafLinks := deaf } }
  (upto 32).foldl (fun (s : State) l => if deaf.testBit l then s.onLink l fun k => { k with st := 8, standbyAsked := false } else s) s

/-- Step 7: logic is gated, clusters are Dark, interrupt edges go to the AON latches, and the contacts hold. -/
def State.enterNight (s : State) : State :=
  let clusters := s.work.clusters.map fun _ c => if c.lost then c else { c with pw := 2, lastGid := none, clearing := false }
  let s := { s with power := { s.power with st := 2, nightStep := 0, nightChans := 0, nights := satInc 32 s.power.nights },
                    work := { s.work with clusters := clusters }, trans := { s.trans with tlbs := {} }, irq := { s.irq with stopped := true } }
  let s := s.holdOutputs
  match s.levelWake with | some c => s.wake c | none => s

/-- NIGHT_ENTRY_STEP_DONE (Table 15.4): the step under way is done and the next begins. -/
def execNightEntryStepDone (s : State) : Host.Outcome State Fault Refusal :=
  live s fun s =>
    if s.power.st != 1 then s else
    let n := s.power.nightStep
    let s := if n == 2 then s.drainAll
      else if n == 3 then (let s := { s with irq := { s.irq with standbyNew := {} } }; s.completeCkpt s.capture)
      else if n == 4 then ({ s with pool := { s.pool with lrc := {}, lrcFills := [] }, trans := { s.trans with cache := [] } }).askAll
      else if n == 5 then s.stopRest
      else if n == 6 then
        let awake := s.cellar.chans.rows.foldl (fun m r => if r.2.st == 4 then setBit m r.1 else m) 0
        State.sleepChans { s with power := { s.power with nightChans := awake } }
      else s.enterNight
    if n == 7 then s else { s with power := { s.power with nightStep := n + 1 } }

/-- WAKE (R491, R493): 0 activity of a link, 1 a T1S frame, 2 WAKE_N, 3 the timer, 4 a packet that arrives during entry. -/
def execWake (source : Fin 5) (link : Fin 32) (s : State) : Host.Outcome State Fault Refusal :=
  awake s fun s =>
    if source.val == 0 then
      (if (s.reg Obj.wakeLinkMask).testBit link && !s.power.deafLinks.testBit link then s.wakeSource 0 (0x01 + link * 4) else s)
    else if source.val == 4 then (if s.power.st == 1 then s.wake 0x00 else s)
    else s.wakeSource source.val (source.val + 1)

/-- WAKE_N_LOW (R491): the contact is low; with `low` false it is high again. -/
def execWakeNLow (low : Bool) (s : State) : Host.Outcome State Fault Refusal :=
  .next (let s := { s with power := { s.power with wakeN := low } }
         if low && s.up then s.wakeSource 2 0x03 else s)

/-- WAKE_TIMER_EXPIRY (R491). -/
def execWakeTimerExpiry (s : State) : Host.Outcome State Fault Refusal :=
  awake s fun s => if s.reg Obj.wakeTimer != 0 && decide (s.reg Obj.wakeTimer ≤ s.now) then s.wakeSource 3 0x04 else s

/-- Channels leave self-refresh and retrain; those of the bitmap fail (R350, R495, R501). -/
def State.wakeChans (s : State) (bad : Nat) : State :=
  let asleep := (s.cellar.chans.rows.filter fun c => c.2.st == 6).map (·.1)
  asleep.foldl (fun (s : State) ch =>
    let want := (s.chan ch).want
    let s := s.onChan ch fun c =>
      let left := if c.want == 5 then 5 else 0
      { c with st := 4, retrains := satInc 32 c.retrains, wrDrift := {}, rdDrift := {}, want := left }
    let s := s.countChan ch 0x3017 2
    if bad.testBit ch then (s.trainResult ch want 0x04).failChannel ch 1 else if want == 4 then s.trainResult ch want 0 else s) s

/-- Links in STANDBY wake; deaf ones start from DETECT (Table 15.5, step 4). -/
def State.wakeLinks (s : State) : State :=
  let deaf := s.power.deafLinks
  let s := (upto 32).foldl (fun (s : State) l => if deaf.testBit l then s.toDetect l else s.wakeLink l) s
  { s with power := { s.power with deafLinks := 0, nightLinks := 0 } }

/-- NIGHT_EXIT_DONE (Table 15.5): links, channels, Ledger and Innkeeper are back. `bad` are the channels that fail their retrain. -/
def execNightExitDone (bad : Nat) (s : State) : Host.Outcome State Fault Refusal :=
  live s fun s =>
    if s.power.st != 3 then s else
    let s := (s.wakeLinks.wakeChans bad).recovery.irqStart
    let held := if s.ik.gap.isSome then s.power.held else none
    let s := { s with power := { s.power with st := 0, held := held }, ik := { s.ik with beat := s.now } }
    ((s.setReg Obj.powerCmdResult 0x00).irqEdge 0x008).resumeMem

/-! ## Reference clocks (R499 to R501) -/

/-- A switch of the clock in use (R500). -/
def State.refSwitch (s : State) (dest : Nat) : State :=
  let old := s.power.refSel
  let s := { s with power := { s.power with refSel := dest, refSwitches := satInc 32 s.power.refSwitches } }
  (s.irqEdge 0x006).log 0x13 (dieIK 0) (old + dest * 256)

/-- Both clocks are bad: the internal oscillator, channels in self-refresh, links and clusters stopped; requests keep their
trackers (R501). -/
def State.loseClocks (s : State) : State :=
  let s := s.sleepChans.stopLinks
  { s with power := { s.power with refSel := 2, clocksLost := true }, irq := { s.irq with stopped := true } }

/-- REFCLK_FAIL (R500, R501). -/
def execRefclkFail (which : Fin 2) (s : State) : Host.Outcome State Fault Refusal :=
  .next (if !s.power.aon then s else
    let s := { s with power := { s.power with refGood := clearBit s.power.refGood which.val } }
    if s.power.inReset || s.power.refSel != which.val then s
    else if s.power.refGood != 0 then s.refSwitch (1 - which.val)
    else s.loseClocks)

/-- REFCLK_GOOD (R500): a clock that was bad is good again. -/
def execRefclkGood (which : Fin 2) (s : State) : Host.Outcome State Fault Refusal :=
  .next (if s.power.aon then { s with power := { s.power with refGood := setBit s.power.refGood which.val } } else s)

/-- REFCLK_REVERT (R500): REFCLK_A has been good for 1 s. -/
def execRefclkRevert (s : State) : Host.Outcome State Fault Refusal :=
  awake s fun s => if s.inForce Obj.refclkRevert != 0 && s.power.refSel == 1 && s.power.refGood.testBit 0 then s.refSwitch 0 else s

/-- REFCLK_RECOVERY (R501): a clock has been good for 10 ms, and work resumes. `bad` are the channels that fail their retrain. -/
def execRefclkRecovery (which : Fin 2) (bad : Nat) (s : State) : Host.Outcome State Fault Refusal :=
  awake s fun s =>
    if !s.power.clocksLost then s else
    let s := { s with power := { s.power with clocksLost := false, refSel := which.val, refGood := setBit s.power.refGood which.val },
                      ik := { s.ik with beat := s.now } }
    (((s.wakeChans bad).bootLinks).irqStart).resumeMem

/-! ## Die temperature (R507, R510, R413) -/

/-- Membership of a die in a set of levels with 3 °C of hysteresis; t in quarter degrees, the threshold in degrees. -/
def tempBit (m die : Nat) (t : Int) (limit : Nat) : Nat :=
  if t > 4 * (limit : Int) then setBit m die else if t ≤ 4 * ((limit : Int) - 3) then clearBit m die else m

/-- A thermal trip (R510): clocks and link transmitters stop, and channels go to self-refresh. -/
def State.trip (s : State) : State :=
  let s := s.sleepChans.stopLinks
  { s with power := { s.power with thermtrip := true } }

/-- A die that newly joined a set of levels is logged. -/
def State.thermalLog (s : State) (die : Nat) (t : Int) (level : Nat) (was now : Nat) : State :=
  if now.testBit die && !was.testBit die then s.log 0x14 die (die + level * 256) (unsignedOf 16 t) else s

/-- DIE_TEMP_SAMPLE (R507, R510): t is in quarter degrees. -/
def execDieTempSample (die : Fin 64) (t : Int) (s : State) : Host.Outcome State Fault Refusal :=
  awake s fun s =>
    if s.halted || !s.hasDie die then s else
    let p := s.power
    let warned := tempBit p.warned die t (s.reg Obj.dieTempWarn)
    let throttled := tempBit p.throttled die t (s.reg Obj.dieTempThrottle)
    let paused := tempBit p.paused die t 110
    let s := { s with power := { p with temps := p.temps.put die t, warned := warned, throttled := throttled, paused := paused } }
    let s := if warned.testBit die && !p.warned.testBit die then s.irqEdge 0x007 else s
    let s := ((s.thermalLog die t 1 p.warned warned).thermalLog die t 2 p.throttled throttled).thermalLog die t 3 p.paused paused
    if 4 * 115 ≤ t then s.trip else s

/-! ## Crossings and contacts (R503, R539) -/

/-- CDC_OVERRUN_WRITE (R503): ones clear their bits. -/
def execCdcOverrunWrite (v : Nat) (s : State) : Host.Outcome State Fault Refusal :=
  managed s fun s => s.setReg Obj.cdcOverrun (clearMask (s.reg Obj.cdcOverrun) v)

/-- STAT3_TOGGLE (R539). -/
def execStat3Toggle (s : State) : Host.Outcome State Fault Refusal :=
  ikEvent s fun s => if s.ikServes then { s with power := { s.power with stat3 := !s.power.stat3 } } else s

end Sys2Proof.Machine
end

