-- ==== Sys2Proof/Machine/Protect.lean ====
section
/-! DEFINITION. Meanings of the stored-data protection commands (chapter 11): scrub, parity, stale stripes, failures, rebuilds, row
repair, ECC_CMD and the loss of a Cellar die. -/

namespace Sys2Proof.Machine

open Sys2Proof

/-! ## Scrub (R368) -/

/-- Lines of a channel below C. -/
def State.chanLines (s : State) : Nat := s.cellar.cap / 64

/-- A line of member m of a group is held by a WCB or a parity log. -/
def State.stripeHeld (s : State) (g line : Nat) : Bool :=
  (upto 9).any fun m => match s.memberChan g m (line / 4) with
    | some c => (s.chan c).wcb.has line || (s.chan c).plines.has line || (s.chan c).deltas.any (fun d => d.2.1 == line) || (s.chan c).plog.any (fun x => x.2 == line)
    | none => true

/-- The nine lines of a stripe's line index all decode clean. -/
def State.stripeClean (s : State) (g line : Nat) : Bool :=
  (upto 9).all fun m => match s.memberChan g m (line / 4) with
    | some c => !(s.chan c).awayAt line && !(s.chan c).gone && (decodeLine (s.rawLine c line) true).res == 0
    | none => false

/-- The check of a stripe by the parity channel's scrubber: a mismatch is logged and the parity line recomputed. -/
def State.checkStripe (s : State) (g p line : Nat) : State :=
  if s.stripeHeld g line || !s.stripeClean g line then s else
  let d := decodeLine (s.rawLine p line) true
  let (x, s) := s.dataXor g line 1
  match x with
  | some (v, m) =>
    let s := s.parityMade g line
    if v == d.data && m == d.dmeta then s
    else ((s.log 0x04 (chanDie p) g (line / 4)).memIrq p).putLine p line v m
  | none => s

/-- The line of a rebuilding spare has not been written yet. -/
def State.aboveRebuild (s : State) (ch line : Nat) : Bool :=
  (upto 5).any fun g => match (s.group g).rebuild with | some (_, sp, ptr) => sp == ch && decide (ptr ≤ line / 4) | none => false

/-- SCRUB_LINE (R368): a READY channel's scrubber reads its next line. -/
def execScrubLine (ch : Fin 48) (s : State) : Host.Outcome State Fault Refusal :=
  live s fun s =>
    let c := s.chan ch
    if !s.flag Obj.scrubEnable || c.st != 4 || c.repair.isSome || s.chanLines == 0 then s else
    let line := c.scrub
    let s := s.onChan ch fun c => { c with scrub := if line + 1 < s.chanLines then line + 1 else 0 }
    if c.wcb.has line || s.aboveRebuild ch line then s else
    let (r, s) := s.fetch (s.placeOf ch line) 1 0 0 none
    let s := match s.memberOf ch with
      | some (g, m) =>
        if m == 8 then s.checkStripe g ch line
        else if r.dmeta.testBit 2 && !r.lost && (s.staleOf g (line / 4)).isNone then (s.enterStale g m line).2 else s
      | none => s
    s.countChan ch 0x3019 3

/-! ## Parity (R371 to R374) -/

/-- The delta of a member's line that a parity channel awaits. -/
def Chan.deltaOf (c : Chan) (m line : Nat) : Option (Nat × Nat × Nat × Bytes × Nat) := c.deltas.find? fun d => d.1 == m && d.2.1 == line

/-- PARITY_DELTA (R371, step 4; R373): a delta reaches the parity Cellar, is merged and acknowledged; a FAILED parity channel
refuses it, and the stripe becomes stale. -/
def execParityDelta (ch : Fin 48) (m : Fin 8) (line : Nat) (s : State) : Host.Outcome State Fault Refusal :=
  live s fun s => match (s.chan ch).deltaOf m line, s.groupOf ch with
    | some d, some g =>
      if (s.chan ch).gone then s.deltaStale ch g m line d
      else (s.onChan ch fun c => { c with deltas := c.deltas.erase d }).mergeDelta ch line d.2.2.2.1 d.2.2.2.2
    | _, _ => s

/-- PARITY_ACK_TIMEOUT (R373): a delta is not acknowledged in time; the line is rewritten with PSTALE and the stripe becomes stale,
unless the table is full, when the delta waits on. -/
def execParityAckTimeout (ch : Fin 48) (m : Fin 8) (line : Nat) (s : State) : Host.Outcome State Fault Refusal :=
  live s fun s => match (s.chan ch).deltaOf m line, s.groupOf ch with
    | some d, some g => s.deltaStale ch g m line d
    | _, _ => s

/-- One stale line index of a stripe rebuilt: PSTALE cleared, and the parity written as the XOR of the data (R374). -/
def State.rebuildStale (s : State) (e : Stale) (p i : Nat) : State :=
  if !e.lines.testBit i then s else
  let line := e.stripe * 4 + i
  let s := (upto 8).foldl (fun s m => if e.members.testBit m then
    (match s.memberChan e.group m e.stripe with
      | some c => s.setMeta c line fun x => x &&& 3
      | none => s) else s) s
  let s := (upto 8).foldl (fun (s : State) m => (s.fetch (.strong e.group m (line * 64)) 0 0 0 none).2) s
  let (x, s) := s.dataXor e.group line 0
  match x with
  | some (d, dm) => ((s.onChan p fun c => { c with plines := c.plines.del line, deltas := c.deltas.filter fun x => x.2.1 != line }).putLine p line d dm).parityMade
    e.group line
  | none => s

/-- STALE_STRIPE_REBUILD (R374): with the parity channel READY and the eight data lines readable, a stale stripe is rebuilt. -/
def execStaleStripeRebuild (group : Fin 5) (stripe : Nat) (s : State) : Host.Outcome State Fault Refusal :=
  live s fun s => match s.staleOf group stripe, s.memberChan group 8 stripe with
    | some e, some p =>
      let readable := (upto 8).all fun m => match s.memberChan group m stripe with
        | some c => (s.chan c).serves
        | none => false
      if (s.chan p).st != 4 || !readable then s else
      let s := (upto 4).foldl (fun s i => s.rebuildStale e p i) s
      State.countChan { s with cellar := { s.cellar with stale := s.cellar.stale.filter (· != e) } } p 0x3019 1
    | _, _ => s

/-! ## Failures and rebuilds (R376 to R380) -/

/-- CHANNEL_FAILED (R376): a strongroom member whose lines on more than UE_FAIL_ROWS rows were uncorrectable within 24 hours fails. -/
def execChannelFailed (ch : Fin 48) (s : State) : Host.Outcome State Fault Refusal :=
  live s fun s =>
    let rows := (s.chan ch).ueRows.filter fun r => decide (s.nowMs < r.2 + 86400000)
    if (s.memberOf ch).isSome && decide (s.reg Obj.ueFailRows < rows.length) then s.failChannel ch 3 else s

/-- A line of a failed member as the rebuild finds it: after an EVACUATE the member's own where it decodes, else reconstructed. -/
def State.rebuildRead (s : State) (g m line : Nat) : Got × State :=
  let x := s.group g
  let bad := x.members.getD m 0
  let d := decodeLine (s.rawLine bad line) true
  if x.evac == some m && d.res != 2 then ({ data := d.data, dmeta := d.dmeta }, s) else s.reconstruct g m line 3

/-- A rebuilt line is written to the spare, poisoned where it could not be read. -/
def State.rebuildWrite (s : State) (g m bad sp line : Nat) (r : Got) : State :=
  if r.lost then
    let s := (s.putLine sp line (sliceBytes (s.rawLine sp line) 0 64) 1).onGroup g fun x => { x with
      poisoned := x.poisoned + 1, lost := if x.lost.contains (m, line) then x.lost else x.lost ++ [(m, line)] }
    if m < 8 then s.reportLost bad line (s.lineAddr bad line) none else s
  else
    let s := s.putLine sp line r.data r.dmeta
    if m == 8 then s.parityMade g line else s

/-- The rebuild has passed the last stripe: the spare becomes the member (R378). -/
def State.endRebuild (s : State) (g m sp : Nat) : State :=
  let x := s.group g
  let bad := x.members.getD m 0
  let s := s.onGroup g fun x =>
    let evac := if x.evac == some m then none else x.evac
    { x with members := x.members.set m sp, failed := x.failed.filter (· != m), rebuild := none, evac := evac, poisoned := 0 }
  let s := ((s.log 0x08 (chanDie bad) (g + m * 256 + bad * 65536 + sp * 2 ^ 24) x.poisoned).memIrq bad).saveMap
  (s.startRebuild g).ladder g ((s.group g).members.getD ((s.group g).failed.headD 0) 0)

/-- REBUILD_STRIPE (R378, R379): the next stripe is written onto the spare. -/
def execRebuildStripe (group : Fin 5) (s : State) : Host.Outcome State Fault Refusal :=
  live s fun s => match (s.group group).rebuild with
    | none => s
    | some (m, sp, ptr) =>
      let bad := (s.group group).members.getD m 0
      if !(s.chan sp).serves || ((s.group group).members.any fun c => c != bad && (s.chan c).awayAt (ptr * 4)) then s else
      let lines := (upto 4).map fun i => ptr * 4 + i
      let s := lines.foldl (fun s l => s.drainLine bad l) s
      let s := lines.foldl (fun s l =>
        let (r, s) := s.rebuildRead group m l
        s.rebuildWrite group m bad sp l r) s
      let s := if m == 8 then
          { s with cellar := { s.cellar with stale := s.cellar.stale.filter fun e => !(e.group == group.val && e.stripe == ptr) } }
        else s
      let s := (s.onGroup group fun x => { x with rebuild := some (m, sp, ptr + 1) }).countChan sp 0x3019 2
      if s.cellar.cap / 256 ≤ ptr + 1 then s.endRebuild group m sp else s

/-- CELLAR_DIE_LOST (R376): both channels of the die fail; its key cache goes. -/
def execCellarDieLost (die : Fin 24) (s : State) : Host.Outcome State Fault Refusal :=
  live s fun s =>
    let d := dieCL die
    if !s.hasDie d then s else
    let s := { s with power := { s.power with present := clearBit s.power.present d },
                      sec := { s.sec with caches := s.sec.caches.del die, fetches := s.sec.fetches.filter fun f => f / 2 ^ 20 != die.val } }
    ((s.log 0x12 d d).failChannel (2 * die) 4).failChannel (2 * die + 1) 4

/-! ## Row repair (R382) -/

/-- The row repair of a channel may run now (R381). -/
def State.repairFree (s : State) (ch : Nat) : Bool := (s.chan ch).st == 4 && (s.chan ch).repair.isNone && !s.groupHolds ch

/-- No other member of the channel's group is missing. -/
def State.groupWhole (s : State) (ch : Nat) : Bool :=
  match s.memberOf ch with
  | some (g, m) => ((s.group g).failed.filter (· != m)).isEmpty
  | none => false

/-- A row's repair starts: its lines are read, corrected or reconstructed, and it goes offline (R382, step 1). -/
def State.startRepair (s : State) (ch key : Nat) (hard : Bool) : State :=
  let s := (rowLines (s.chan ch).ranks key).foldl (fun (s : State) l => (s.fetch (s.placeOf ch l) 0 0 0 none).2) s
  s.onChan ch fun c => { c with repair := some (key, hard), wantRepair := c.wantRepair.filter (· != key) }

/-- A row's repair ends: its log entries go, and it is counted and logged (R382, step 3). -/
def State.endRepair (s : State) (ch key : Nat) (hard : Bool) : State :=
  let s := s.onChan ch fun c => { c with repair := none, pprUsed := satInc 16 c.pprUsed, ceLog := c.ceLog.filter fun e => s.rowKey ch e.line != key }
  let w2 := ch + key % 2 * 256 + key / 64 % 4 * 1024 + key / 8 % 8 * 4096 + key / 2 % 4 * 65536 + b2n hard * 2 ^ 18
  let s := (s.log 0x05 (chanDie ch) w2 (key / 256)).resumeMem
  s.pprResult ch 0

/-- ROW_REPAIR (R382): the row repair of a channel ends, or its next one starts; `left` says whether the DIMM reports a repair
resource for that bank group. -/
def execRowRepair (ch : Fin 48) (left : Bool) (s : State) : Host.Outcome State Fault Refusal :=
  live s fun s => match (s.chan ch).repair, (s.chan ch).wantRepair with
    | some (key, hard), _ => s.endRepair ch key hard
    | none, key :: rest =>
      if !s.repairFree ch then s
      else if left then s.startRepair ch key (s.inForce Obj.pprHardEn != 0 && s.groupWhole ch)
      else s.onChan ch fun c => { c with wantRepair := rest, ueRows := ueRow c.ueRows key s.nowMs, noRepair := if c.noRepair.contains (keyBankGroup key) then c.noRepair else c.noRepair ++ [keyBankGroup key] }
    | none, [] => s

/-! ## ECC_CMD (R367, R388) -/

/-- ECC_CMD's RESULT. -/
def State.eccResult (s : State) (v : Nat) : State := s.setReg Obj.eccCmdResult v

/-- An ECC_CMD with its refusals in the order of R388: 0x03, 0x05, 0x02. -/
def eccCmd (s : State) (code : Nat) (useCo raw ready : Bool) (f : State → Nat → Nat → State) : Host.Outcome State Fault Refusal :=
  record s Obj.eccCmdOp Obj.eccCmdResult code fun s =>
    let ch := s.reg Obj.eccCmdChannel
    let co := s.reg Obj.eccCmdCo
    let open_ := s.cellar.spares.contains ch || s.pool.setState == 0 || s.pool.setState == 4 || s.pool.setState == 5
    if 48 ≤ ch || (useCo && (co % 64 != 0 || decide (s.cellar.cap ≤ co))) then s.eccResult 0x03
    else if raw && !open_ then s.eccResult 0x05
    else if ready && (s.chan ch).st != 4 then s.eccResult 0x02
    else f s ch (co / 64)

/-- WRITE_RAW (R367): stores the line's bits as given. -/
def execWriteRaw (s : State) : Host.Outcome State Fault Refusal :=
  eccCmd s 0x01 true true true fun s ch line =>
    (s.putRaw ch line (padBytes 64 (s.blob Obj.eccCmdData) ++ padBytes 16 (s.blob Obj.eccCmdEcc))).eccResult 0

/-- READ_RAW (R367): returns the stored bits. -/
def execReadRaw (s : State) : Host.Outcome State Fault Refusal :=
  eccCmd s 0x02 true true true fun s ch line =>
    let raw := s.rawLine ch line
    ((s.setBlob Obj.eccCmdData (sliceBytes raw 0 64)).setBlob Obj.eccCmdEcc (sliceBytes raw 64 16)).eccResult 0

/-- READ_DECODED (R367): decodes the line once and counts what it finds. -/
def execReadDecoded (s : State) : Host.Outcome State Fault Refusal :=
  eccCmd s 0x03 true true true fun s ch line =>
    let d := decodeLine (s.rawLine ch line) (s.strongChan ch)
    let s := if d.res == 1 then s.corrected ch line 0 d.synds else if d.res == 2 then s.countChan ch 0x3015 1 else s
    ((s.setBlob Obj.eccCmdData d.data).setBlob Obj.eccCmdSyndrome (d.synds.map (BitVec.ofNat 8))).eccResult 0

/-- CE_LOG_CLEAR (R387): empties a channel's corrected-error log. -/
def execCeLogClear (s : State) : Host.Outcome State Fault Refusal :=
  eccCmd s 0x04 false false false fun s ch _ => (s.onChan ch fun c => { c with ceLog := [] }).eccResult 0

/-- PPR (R382, R388): hPPR of the row that holds the line; RESULT reads 0x01 until ROW_REPAIR ends it. -/
def execPpr (s : State) : Host.Outcome State Fault Refusal :=
  eccCmd s 0x05 true false true fun s ch line =>
    if (s.chan ch).repair.isSome then s.eccResult 0x02 else (s.startRepair ch (s.rowKey ch line) true).eccResult 0x01

/-- EVACUATE (R388): fails a member of a WHOLE group that has an eligible spare, and rebuilds it. -/
def execEvacuate (s : State) : Host.Outcome State Fault Refusal :=
  eccCmd s 0x06 false false true fun s ch _ =>
    match s.memberOf ch with
    | some (g, m) => if (s.group g).st == 0 && (s.pickSpare g m).isSome then (s.failChannel ch 5).eccResult 0 else s.eccResult 0x04
    | none => s.eccResult 0x04

end Sys2Proof.Machine
end

