-- ==== Sys2Proof/Machine/DictOps.lean ====
section
/-! DEFINITION. The dictionary's objects as they read (Tables of chapters 00 to 16): values that the device computes from its state,
and the rules that a written value must pass (R462 to R467, R483, R484). -/

namespace Sys2Proof.Machine

open Sys2Proof

/-! ## Computed values -/

/-- Node ID in force on the T1S segment (R458). -/
def State.t1sNode (s : State) : Nat := if s.inForce Obj.t1sNodeId == 0xFF then s.power.nodeId else s.inForce Obj.t1sNodeId

/-- SESSION_INFO of session n + 1 (Table 14.11). -/
def State.sessionInfo (s : State) (n : Nat) : Nat :=
  match s.dict.sessions.find (n + 1) with
  | none => 0
  | some x => x.st * 2 ^ 56 + (match x.via with | .t1s mac => mac | .inband epid _ => 2 ^ 48 + epid)

/-- PERSIST_STATE. -/
def State.persistState (s : State) : Nat := if s.dict.compacting then 2 else b2n s.dict.noCopy

/-- Identity, attachment, session and persistence objects, pool set and guests (Tables 0.9, 1.6, 1.7, 12.8, 14.11), of sub n + 1. -/
def State.readId (s : State) (idx n : Nat) : Option Nat :=
  if idx == 0x1005 then some (b2n s.power.roleMgr)
  else if idx == 0x1007 then some s.power.present
  else if idx == 0x1008 then some s.nowUs
  else if idx == 0x100B then some s.t1sNode
  else if idx == 0x1081 then some (s.sessionInfo n)
  else if idx == 0x1085 then some s.dict.sessionFails
  else if idx == 0x1090 then some s.persistState
  else if idx == 0x1091 then some s.dict.appended
  else if idx == 0x2001 then some s.pool.devid
  else if idx == 0x2003 then some s.pool.setState
  else if idx == 0x2004 then some (s.pool.members.keys.foldl setBit 0)
  else if idx == 0x2008 then some s.cellar.bytes
  else if idx == 0x2009 then some s.cellar.tableBase
  else if idx == 0x200A then some s.pool.managerEpid
  else if idx == 0x2100 then some s.pool.guests.size
  else if idx == 0x2101 then some s.residents
  else if idx == 0x2181 then some s.sec.epoch
  else if idx == 0x2182 then some (s.pool.guests.count fun _ g => g.key.kstate == 2)
  else none

/-- Link and routing objects (Tables 8.10 and 9.10). -/
def State.readFabric (s : State) (idx n : Nat) : Option Nat :=
  if idx == 0x3001 then some (s.link n).st
  else if idx == 0x300C then some s.fabric.dedup.size
  else if idx == 0x3012 then some (s.link n).cause
  else if idx == 0x3103 then some (b2n (s.pairIsOut n))
  else if idx == 0x3110 && n == 5 then some (262144 - s.fabric.gmapExact.size)
  else if idx == 0x3121 then some (s.queueCount n)
  else if idx == 0x3122 then some (b2n (s.wantWfq n))
  else none

/-- Role of a channel (Table 11.8). -/
def State.chanRole (s : State) (ch : Nat) : Nat :=
  if (s.chan ch).st == 7 then 5
  else if s.cellar.plain.contains ch then 0
  else match s.memberOf ch with
    | some (_, m) => if m == 8 then 2 else 1
    | none =>
      if s.cellar.spares.contains ch then 3
      else if (upto 5).any fun g => (s.group g).rebuild.any fun r => r.2.1 == ch then 4
      else 6

/-- Period of the DRAM command clock, in ps, as a fraction (Table 10.1). -/
def State.dramClock (s : State) : Nat × Nat := if s.cellar.mode == 2 then (10000, 32) else (10000, 44)

/-- A timing parameter in use: the override or the SPDs' value, rounded up to whole command clocks (R335). -/
def State.timing (s : State) (n : Nat) : Nat :=
  let over_ := s.inForce (Obj.timingOverride n)
  let ps := if over_ == 0 then Config.spdTiming n else over_
  let (num, den) := s.dramClock
  ceilDiv (ceilDiv (ps * den) num * num) den

/-- Channel and protection objects (Tables 10.10 and 11.8). -/
def State.readCellar (s : State) (idx n : Nat) : Option Nat :=
  let c := s.chan n
  if idx == 0x4003 then some c.st
  else if idx == 0x4004 then some c.dimm
  else if idx == 0x4005 then some s.cellar.cap
  else if idx == 0x4011 then some (s.timing n)
  else if idx == 0x4037 then some (unsignedOf 16 c.temp)
  else if idx == 0x4107 then some c.retrains
  else if idx == 0x4202 then some (c.scrub * 64 / 2 ^ 20)
  else if idx == 0x4203 then some c.ceCount
  else if idx == 0x4204 then some (c.ueRepaired * 2 ^ 32 + c.ueLost)
  else if idx == 0x4211 then some (if n < groupCount s.cellar.layout then (s.group n).st else 0xFF)
  else if idx == 0x4212 then some (match (s.group n).rebuild with | some (_, _, st) => st | none => 0)
  else if idx == 0x4213 then some (s.chanRole n)
  else if idx == 0x4215 then some s.cellar.stale.length
  else if idx == 0x4222 then some c.pprUsed
  else if idx == 0x4230 then some (s.pool.guests.count fun _ g => g.fatal == 1)
  else none

/-- Stream, tally, Porter, translation and hearth objects (Tables 2.9, 3.10, 4.14, 5.12, 6.8, 7.9). -/
def State.readWork (s : State) (idx : Nat) : Option Nat :=
  if idx == 0x5000 then some s.work.streams.size
  else if idx == 0x5001 then some s.residentStreams
  else if idx == 0x5010 then some s.pool.reqs.size
  else if idx == 0x5100 then some (16384 - s.work.tallies.size)
  else if idx == 0x5301 then some (1024 - s.work.ctxs.size)
  else if idx == 0x5302 then some (stageTotal - s.work.stageUsed)
  else if idx == 0x5381 then some (65536 - s.work.layouts.size)
  else if idx == 0x6006 then some s.trans.fqTail
  else if idx == 0x6007 then some s.trans.faults.size
  else if idx == 0x6009 then some s.trans.heapFree
  else if idx == 0x6102 then some s.cellar.hearthState
  else if idx == 0x6105 then some s.hearth.dir.size
  else if idx == 0x6108 then some (s.cellar.tableBase + 0x1FF800000)
  else none

/-- CAL_STATE of a channel (R482). -/
def State.calState (s : State) (n : Nat) : Nat := if s.dict.noCopy then 2 else b2n (s.dict.calOver.testBit n)

/-- Observation, security and calibration objects (Tables 12.8, 14.12, 16.13). -/
def State.readObs (s : State) (idx n : Nat) : Option Nat :=
  if idx == 0x7002 then some s.ovfDies
  else if idx == 0x7043 then some s.phase
  else if idx == 0x7100 then some s.obs.logTail
  else if idx == 0x8001 then some (s.calState n)
  else if idx == 0x9000 then some s.sec.st
  else if idx == 0x9001 then some s.sec.slot
  else if idx == 0x9002 then some (s.sec.slotOf n).version
  else if idx == 0x9003 then some s.svnMin
  else if idx == 0x900C then some (b2n s.sec.entropyBad)
  else if idx == 0x900D then some s.sec.reseeds
  else if idx == 0x9020 then some s.sec.tamperCause
  else none

/-- Power and clock objects (Table 15.9). -/
def State.readPower (s : State) (idx n : Nat) : Option Nat :=
  if idx == 0xA000 then some s.power.st
  else if idx == 0xA005 then some s.power.wakeCause
  else if idx == 0xA006 then some s.power.nights
  else if idx == 0xA020 then some s.now
  else if idx == 0xA021 then some (if s.power.clocksLost then 2 else s.power.refSel)
  else if idx == 0xA022 then some s.power.refGood
  else if idx == 0xA024 then some s.power.refSwitches
  else if idx == 0xA030 then some (unsignedOf 16 (s.power.temps.getD n 0))
  else if idx == 0xA033 then some s.power.throttled
  else if idx == 0xA040 then some s.power.resetCause
  else none

/-- Innkeeper and pigeonhole objects (Tables 13.9 to 13.11). -/
def State.readIk (s : State) (idx n : Nat) : Option Nat :=
  if idx == 0xB000 then some s.ik.active
  else if idx == 0xB001 then some (s.ikd n).st
  else if idx == 0xB003 then some s.ik.failovers
  else if idx == 0xB004 then some s.ik.lastCause
  else if idx == 0xB005 then some s.ik.lastGap
  else if idx == 0xB006 then some s.ik.ckptSeq
  else if idx == 0xB007 then some (s.ikd n).passes
  else if idx == 0xB201 then some (s.hole n).owner
  else if idx == 0xB202 then some ((s.hole n).flags (s.hole n).outWords.length)
  else none

/-- A numeric object's value where the device computes it. -/
def State.computedNum (s : State) (k : Nat) : Option Nat :=
  let idx := k / 256
  let n := k % 256 - 1
  if idx < 0x3000 then s.readId idx n
  else if idx < 0x4000 then s.readFabric idx n
  else if idx < 0x5000 then s.readCellar idx n
  else if idx < 0x7000 then s.readWork idx
  else if idx < 0xA000 then s.readObs idx n
  else if idx < 0xB000 then s.readPower idx n
  else s.readIk idx n

/-- A corrected-error log entry's 16 bytes (Table 11.3). -/
def CeEnt.bytes (e : CeEnt) : Bytes :=
  leBytes 8 (2 ^ 63 + e.source * 2 ^ 60 + e.word * 2 ^ 56 + e.synd * 2 ^ 48 + e.line % 2 ^ 33) ++ leBytes 8 (e.count * 2 ^ 48 + e.time % 2 ^ 48)

/-- Byte of CLUSTER_STATE of a cluster: a waking one reads as the state it leaves (Table 15.9). -/
def State.clusterByte (s : State) (c : Nat) : Byte :=
  let x := s.cluster c
  if x.lost then 3 else if x.pw == 3 then 1 else if x.pw == 4 then 2 else BitVec.ofNat 8 x.pw

/-- Byte-string objects that the device computes (identity, DRAM, counters, logs). -/
def State.computedLow (s : State) (idx n : Nat) : Option Bytes :=
  if idx == 0x1004 then some (padBytes 16 Config.serialNumber)
  else if idx == 0x1009 then some (beBytes 6 Config.macAddress)
  else if idx == 0x4106 then some ((s.chan n).eyes.map fun w => leBytes 2 w).flatten
  else if idx == 0x4205 then some (padBytes 512 ((s.chan n).ceLog.map CeEnt.bytes).flatten)
  else if idx == 0x4210 then some s.groupMap
  else if idx == 0x7010 then
    some (((s.obs.snaps.getD n (List.replicate (allCounters n) 0)).map fun w => leBytes 8 w).flatten)
  else if idx == 0x7042 then some (s.obs.samples.getD n {}).bytes
  else if idx == 0x7046 then some (s.obs.marks.getD n {}).bytes
  else if idx == 0x7102 then some (s.obs.preserved.reverse.map LogRec.bytes).flatten
  else none

/-- Byte-string objects that the device computes (calibration, security, power, interrupts). -/
def State.computedHigh (s : State) (idx n : Nat) : Option Bytes :=
  if idx == 0x8002 then some (s.calSeedNow n)
  else if idx == 0x8003 then some (s.calTrimNow n)
  else if idx == 0x9008 then some Config.deviceCert
  else if idx == 0x9009 then some Config.deviceCaCert
  else if idx == 0x900A && n == 0 then some (padBytes 48 Config.anchor1)
  else if idx == 0xA013 then some ((upto 128).map s.clusterByte)
  else if idx == 0xA041 then some (padBytes 8 (s.power.history.map fun c => BitVec.ofNat 8 c))
  else if idx == 0xB101 then some (leBytes 128 s.irq.pend.bits)
  else if idx == 0xB104 then some (leBytes 128 s.irq.alertStatus)
  else if idx == 0xB105 then some ((upto 1024).map fun n => BitVec.ofNat 8 (s.irq.pend.counts.getD n 0))
  else if idx == 0xB106 then some (leBytes 128 s.irq.overrun)
  else none

/-- A byte-string object's value where the device computes it. -/
def State.computedBytes (s : State) (k : Nat) : Option Bytes :=
  (s.computedLow (k / 256) (k % 256 - 1)).orElse fun _ => s.computedHigh (k / 256) (k % 256 - 1)

/-- The bytes of an object's value (R464): computed, or as last written. -/
def State.objBytes (s : State) (row : ObjRow) (k : Nat) : Bytes :=
  if row.ty.isNum then leBytes row.ty.size (if k % 256 == 0 && row.acc == .con then row.dflt else (s.computedNum k).getD (s.reg k))
  else (s.computedBytes k).getD (s.blob k)

/-! ## Which objects there are -/

/-- Objects that a device whose slots both failed serves: the identity objects, SECURITY_STATE and FW_CMD (R407, R541). -/
def bootFailServes (idx : Nat) : Bool := decide (idx ≤ 0x10FF) || idx == 0x9000 || idx == 0x9004

/-- A row with anchor 1 read-only (R405). -/
def fixedAnchor (row : ObjRow) (k : Nat) : ObjRow := if k == Obj.trustAnchor 0 then { row with acc := .ro, computed := true } else row

/-- The object index:sub: its row, or the error of check 4 or 5 of R468. Sub 0x00 of a record or range is its count of subs (R464). -/
def State.findObj (s : State) (idx sub : Nat) : Except Nat ObjRow :=
  if 0xF000 ≤ idx || !indexDefined idx || (s.sec.st == 4 && !bootFailServes idx) then .error 0x02
  else match objRow idx sub with
    | some row => .ok (fixedAnchor row (objKey idx sub))
    | none =>
      match sub, subCount idx with
      | 0, some n => .ok ⟨idx, 0, 0, .u8, .con, n, [], .any, false, false⟩
      | _, _ => .error 0x03

/-! ## Which values a write may hold (R467) -/

/-- A lane entry (Table 14.9). -/
def laneOk (e : Bytes) : Bool :=
  let w := leNat e
  decide (bitsOf w 63 48 ≤ 125) && decide (bitsOf w 47 32 ≤ 8191) && decide (bitsOf w 31 16 ≤ 125) && decide (bitsOf w 15 0 ≤ 8191)

/-- 80 lane entries. -/
def lanesOk (bs : Bytes) : Bool := (upto 80).all fun i => laneOk (sliceBytes bs (8 * i) 8)

/-- CAL_TRIM: offsets of −16 to +15, and reserved bytes 0 (R480). -/
def trimOk (bs : Bytes) : Bool :=
  (bs.take 48).all (fun b => decide (-16 ≤ signedOf 8 b.toNat) && decide (signedOf 8 b.toNat ≤ 15)) && (bs.drop 48).all (· == 0)

/-- lo ≤ v ≤ hi. -/
def within (lo hi v : Nat) : Bool := decide (lo ≤ v) && decide (v ≤ hi)

/-- A value against its object's range, set of codes or reserved bits, and against the limits held in other objects. -/
def State.rngOk (s : State) (r : Rng) (k : Nat) (bs : Bytes) : Bool :=
  let v := leNat bs
  let n := k % 256 - 1
  match r with
  | .any => true
  | .between lo hi => within lo hi v
  | .orVal x lo hi => v == x || within lo hi v
  | .zeroOnly => v == 0
  | .oneOf vs => vs.contains v
  | .mask m => v &&& m == v
  | .hearthSize => v % 2 ^ 30 == 0 && decide (v ≤ 2 ^ 36)
  | .wqHigh => within 8 64 v && decide (s.reg Obj.wqLow + 4 ≤ v)
  | .wqLow => decide (v + 4 ≤ s.reg Obj.wqHigh)
  | .dimmThrottle => within 70 110 v && decide (v < s.reg Obj.dimmCritTemp)
  | .dimmCrit => decide (s.reg Obj.dimmThrottleTemp < v) && decide (v ≤ 120)
  | .tempWarn => within 70 110 v && decide (v ≤ s.reg Obj.dieTempThrottle)
  | .tempThrottle => within (s.reg Obj.dieTempWarn) 110 v
  | .expPeriod => v == 0 || (within 1000 64000 v && decide (2 * s.reg (Obj.expWindow n) ≤ v))
  | .expWindow => decide (100 ≤ v) && decide (2 * v ≤ s.reg (Obj.expPeriod n))
  | .anchorMask => (upto 8).any fun i => v.testBit i && s.anchor (i + 1) != zeroBytes 48
  | .calSeed => lanesOk bs
  | .calTrim => trimOk bs
  | .calTrained => lanesOk bs && (bs.drop 662).all (· == 0)

/-- A value against its type (Table 14.3). -/
def tyOk (ty : ObjTy) (bs : Bytes) : Bool :=
  match ty with
  | .bool => decide (leNat bs ≤ 1)
  | .vstring _ => bs.all fun b => decide (0x20 ≤ b.toNat) && decide (b.toNat ≤ 0x7E)
  | _ => true

/-- Check 9 of R468. -/
def State.valueOk (s : State) (row : ObjRow) (k : Nat) (bs : Bytes) : Bool :=
  tyOk row.ty bs && s.rngOk row.rng k bs &&
    (if k / 256 == 0x7041 || k / 256 == 0x7045 then s.qidOk (leNat bs) else true)

/-- A size that a write of a type may have (check 8 of R468). -/
def sizeOk (ty : ObjTy) (total : Nat) : Bool :=
  match ty with
  | .octetsVar m | .vstring m => decide (total ≤ m)
  | t => total == t.size

end Sys2Proof.Machine
end

