-- ==== Sys2Proof/Machine/DictPdu.lean ====
section
/-! DEFINITION. Dictionary PDUs, the request queue, answers and session protection (R456 to R461, R468, R469, R473). -/

namespace Sys2Proof.Machine

open Sys2Proof

/-! ## PDUs (R460, Table 14.1) -/

/-- A PDU taken apart: its header fields, and what follows the header. -/
structure Pdu where
  ver : Nat := 1
  op : Nat := 0
  status : Nat := 0
  rsp : Bool := false
  sec : Bool := false
  last : Bool := false
  rsvd : Nat := 0
  session : Nat := 0
  reqId : Nat := 0
  seq : Nat := 0
  idx : Nat := 0
  sub : Nat := 0
  offset : Nat := 0
  length : Nat := 0
  total : Nat := 0
  /-- The 32 header bytes and the bytes after them. -/
  head : Bytes := []
  rest : Bytes := []
deriving DecidableEq, Repr

/-- The PDU at byte 0 of a payload. -/
def pduOf (bs : Bytes) : Pdu :=
  let w (i : Nat) : Nat := leNat (sliceBytes (padBytes 32 bs) (8 * i) 8)
  { ver := bitsOf (w 0) 63 56, op := bitsOf (w 0) 55 48, status := bitsOf (w 0) 47 40, rsp := bitOf (w 0) 39, sec := bitOf (w 0) 38,
    last := bitOf (w 0) 37, rsvd := bitsOf (w 0) 36 32 + bitsOf (w 2) 39 32 + bitsOf (w 3) 47 32, session := bitsOf (w 0) 31 16,
    reqId := bitsOf (w 0) 15 0, seq := w 1, idx := bitsOf (w 2) 63 48, sub := bitsOf (w 2) 47 40, offset := bitsOf (w 2) 31 0,
    length := bitsOf (w 3) 63 48, total := bitsOf (w 3) 31 0, head := padBytes 32 bs, rest := bs.drop 32 }

/-- Most data bytes of a PDU (R460). -/
def Pdu.limit (p : Pdu) : Nat := if p.sec then 976 else 992

/-- The data, as they came. -/
def Pdu.data (p : Pdu) : Bytes := p.rest.take p.length

/-- The PDU fits in its frame or payload. -/
def Pdu.fits (p : Pdu) : Bool := decide (p.length ≤ p.limit) && decide (p.length + (if p.sec then 16 else 0) ≤ p.rest.length)

/-- Operations of Table 14.2. -/
def opDefined (op : Nat) : Bool := ([0x01, 0x02, 0x03, 0x08, 0x10, 0x11, 0x12, 0x13] : List Nat).contains op

/-- LAST is set exactly when OFFSET + LENGTH = TOTAL. -/
def Pdu.lastOk (p : Pdu) : Bool := p.last == (p.offset + p.length == p.total)

/-- INDEX, SUB, OFFSET, TOTAL and LAST are 0. -/
def Pdu.bare (p : Pdu) : Bool := p.idx == 0 && p.sub == 0 && p.offset == 0 && p.total == 0 && !p.last

/-- Fields that Table 14.2 sets to a value for the operation have it; all PDUs of an opening carry SEC = 0, and a first one no
session number (R461, R471). -/
def Pdu.fieldsOk (p : Pdu) : Bool :=
  if p.op == 0x01 then p.length == 0 && !p.last
  else if p.op == 0x02 then p.lastOk
  else if p.op == 0x03 then p.offset == 0 && p.length == 0 && p.total == 0 && !p.last
  else if p.op == 0x08 then p.bare && p.length == 0
  else if p.op == 0x10 then p.bare && p.length == 129 && !p.sec && p.session == 0
  else if p.op == 0x11 then p.idx == 0 && p.sub == 0 && p.lastOk && !p.sec
  else if p.op == 0x12 then p.bare && p.length == 96 && !p.sec
  else p.bare && p.length == 0 && p.sec

/-- Check 2 of R468. -/
def Pdu.formed (p : Pdu) : Bool :=
  p.ver == 0x01 && opDefined p.op && p.status == 0 && p.rsvd == 0 && p.fits && p.fieldsOk && (p.sec || p.seq == 0) &&
    (p.sec || p.session == 0 || p.op == 0x11 || p.op == 0x12)

/-- What the dictionary answers. -/
structure Reply where
  status : Nat := 0
  last : Bool := false
  data : Bytes := []
  total : Nat := 0
deriving DecidableEq, Repr

/-- An answer's header for data of some length (R461); anything but OK carries no lengths. -/
def Pdu.answerHead (p : Pdu) (r : Reply) (sec : Bool) : Bytes :=
  leBytes 8 (p.ver * 2 ^ 56 + p.op * 2 ^ 48 + r.status * 2 ^ 40 + 2 ^ 39 + b2n sec * 2 ^ 38 + b2n r.last * 2 ^ 37 + p.session * 2 ^ 16 + p.reqId) ++
    leBytes 8 (if sec then p.seq else 0) ++ sliceBytes p.head 16 8 ++ leBytes 8 (r.data.length * 2 ^ 48 + r.total)

/-- IV of a protected PDU: the direction's nonce salt and SEQ, most significant byte first (R473). -/
def pduIv (salt : Bytes) (seq : Nat) : Bytes := salt ++ beBytes 8 seq

/-- The answer PDU, sealed under a session's keys where there are any (R473). -/
def Pdu.answer (p : Pdu) (r : Reply) (keys : Option Bytes) : Bytes :=
  match keys with
  | none => p.answerHead r false ++ r.data
  | some k =>
    let key := sliceBytes k 36 32
    let iv := pduIv (sliceBytes k 68 4) p.seq
    let h := p.answerHead r true
    let ct := gcmXor key iv r.data
    h ++ ct ++ beBytes 16 (Config.gcmTag key iv h ct).toNat

/-! ## The queue and the two attachments (R456, R459, R469) -/

/-- The peer address of a request, without its packet's TAG. -/
def Via.peer : Via → Via
  | .t1s mac => .t1s mac
  | .inband epid _ => .inband epid 0

/-- A PDU is sent back where a request came from: a frame of at least 46 payload bytes, or one MGMT packet (R456, R459). -/
def State.sendPdu (s : State) (via : Via) (trk : Option Nat) (pdu : Bytes) : State :=
  match via with
  | .t1s mac => s.emit (.frame mac (padBytes (max 46 pdu.length) pdu))
  | .inband epid tag =>
    let n := ceilDiv pdu.length 64
    let s := match trk with | some t => s.onReq t fun r => { r with stage := .answer } | none => s
    s.originate { dst := epid, pkey := 0xFFFF, tc := 3, opc := 0x30, len := n, tag := tag, payload := padBytes (64 * n) pdu } trk

/-- A frame or PDU is discarded without an answer (DICT_DROPPED, Table 16.7). -/
def State.dictDropped (s : State) : State :=
  (s.setReg Obj.dictDropped (satInc 32 (s.reg Obj.dictDropped))).countIk 0x1010 2

/-- A request is answered BUSY where it arrives: in a management gap, with both Innkeepers lost, and from Night entry to the end of
the exit (R428, R436, R492, R494). -/
def State.dictAway (s : State) : Bool := s.ik.gap.isSome || s.ik.bothLost || s.power.st != 0

/-- A PDU answered BUSY. -/
def State.sayBusy (s : State) (via : Via) (trk : Option Nat) (pdu : Bytes) : State :=
  (s.sendPdu via trk ((pduOf pdu).answer { status := 0x01 } none)).countIk 0x1010 1

/-- A request joins the queue of 64; while it is full, and away, it is answered BUSY. An answer is no request and is discarded. -/
def State.dictArrive (s : State) (via : Via) (trk : Option Nat) (pdu : Bytes) : State :=
  if (pduOf pdu).rsp then (s.dropTracker trk).dictDropped
  else if s.dictAway || decide (64 ≤ s.dict.queue.length) then s.sayBusy via trk pdu
  else
    let n := s.dict.arrived
    let r : DictReq := { via := via, pdu := pdu, joined := n, trk := trk }
    State.enterQ { s with dict := { s.dict with queue := s.dict.queue ++ [r], arrived := n + 1 } } qidDict n

/-- The broadcast MAC address. -/
def macAll : Nat := 2 ^ 48 - 1

/-- A frame that the attachment accepts (R456). -/
def frameOk (f : Frame) : Bool := f.fcsOk && f.ethertype == 0x88B5 && !f.vlan && !f.src.testBit 40

/-- A broadcast that is taken: READ or DESCRIBE of an identity or session object, unprotected (R457). -/
def bcastOk (p : Pdu) : Bool := (p.op == 0x01 || p.op == 0x03) && within 0x1000 0x10FF p.idx && !p.sec

/-! ## Serving (R468) -/

/-- The dictionary serves: firmware of an active Innkeeper runs, or the boot ROM after both slots failed (R407, R541). -/
def State.dictUp (s : State) : Bool :=
  s.up && s.power.st == 0 && !s.power.clocksLost && s.ik.gap.isNone && !s.ik.bothLost && !s.ik.noFirmware && (s.sec.booted || s.sec.st == 4)

/-- Who asks: the peer address, and the session that its PDU passed R473 under, 0 for none. -/
structure Asker where
  via : Via
  session : Nat := 0
deriving DecidableEq, Repr

/-- The session that a protected PDU names, where it is OPEN and its peer sent the PDU. -/
def State.openSession (s : State) (via : Via) (n : Nat) : Option Session :=
  match s.dict.sessions.find n with
  | some x => if x.st == 2 && x.via == via.peer then some x else none
  | none => none

/-- A protected PDU is taken (R473): its session, data as plaintext, and the session's highest SEQ raised. -/
def State.unsealPdu (s : State) (via : Via) (p : Pdu) : Option (Session × Bytes × State) :=
  match s.openSession via p.session with
  | none => none
  | some x =>
    let key := sliceBytes x.keys 0 32
    let iv := pduIv (sliceBytes x.keys 32 4) p.seq
    let tag := beBytes 16 (Config.gcmTag key iv p.head p.data).toNat
    if decide (x.seq < p.seq) && tag == sliceBytes p.rest p.length 16 then
      let d := { s.dict with sessions := s.dict.sessions.put p.session { x with seq := p.seq } }
      some (x, gcmXor key iv p.data, { s with dict := d })
    else none

/-- The outcome of serving one request: an answer, or none yet. -/
inductive Served where
  | done (r : Reply) (s : State)
  | wait

/-- An answer goes out and is counted. -/
def State.replyTo (s : State) (q : DictReq) (p : Pdu) (r : Reply) (keys : Option Bytes) : State :=
  (s.sendPdu q.via q.trk (p.answer r keys)).countIk 0x1010 (if r.status == 0x01 then 1 else 0)

/-- The request at the front is served where its operation is this one, or none that Table 14.2 defines (R468 checks 2 and 3, R469). -/
def State.serveFront (s : State) (op : Nat) (f : State → Asker → Pdu → Bytes → Served) : State :=
  match s.dict.queue with
  | [] => s
  | q :: rest =>
    let p := pduOf q.pdu
    if p.op != op && opDefined p.op then s else
    let t := State.leaveQ { s with dict := { s.dict with queue := rest } } qidDict q.joined
    if !p.formed then t.replyTo q p { status := 0x08 } none
    else if p.sec then
      match t.unsealPdu q.via p with
      | none => (t.dropTracker q.trk).dictDropped
      | some (x, d, t) => match f t ⟨q.via.peer, p.session⟩ p d with
        | .done r t => t.replyTo q p r (some x.keys)
        | .wait => s
    else match f t ⟨q.via.peer, 0⟩ p p.data with
      | .done r t => t.replyTo q p r none
      | .wait => s

/-- A dictionary command's outcome. -/
def dict (s : State) (f : State → State) : Host.Outcome State Fault Refusal := .next (if s.dictUp then f s else s)

end Sys2Proof.Machine
end

