-- ==== Sys2Proof/Machine/Hearth.lean ====
section
/-! DEFINITION. Meanings of the hearth's own commands (chapter 07): queued lines, recalls, back-invalidation, snoop limits and
fencing, and HEARTH_CMD. Coherence packets are taken with the other packets. -/

namespace Sys2Proof.Machine

open Sys2Proof

/-! ## Lines -/

/-- A request waits in the queue of a line, and in no other. -/
def State.waitsFor (s : State) (l t : Nat) : Bool :=
  (s.pool.reqs.find t).any (fun r => r.stage == .line) && !(s.hearth.queue.any fun x => x.2 == t && x.1 != l)

/-- The front of a line's queue has been served; with nobody left there, no way is kept for the line (R225, R232). -/
def State.dequeue (s : State) (l t : Nat) : State :=
  let q := s.hearth.queue.erase (l, t)
  let s := s.leaveQ qidHearth t
  { s with hearth := { s.hearth with queue := q, kept := if q.any (·.1 == l) then s.hearth.kept else s.hearth.kept.filter fun k => k.1 != l } }

/-- HEARTH_LINE_DEQUEUE (R225): with no transaction on the line, its oldest waiting request is served; one that must wait again keeps the front. -/
def execHearthLineDequeue (line : Nat) (s : State) : Host.Outcome State Fault Refusal :=
  live s fun s =>
    if s.hbusy line then s else
    match s.hearth.queue.find? fun x => x.1 == line with
    | none => s
    | some (l, t) =>
      let s := s.access t
      (if s.waitsFor l t then s else s.dequeue l t).flushOn

/-- BACK_INVALIDATION (R232, R233): a victim of the line's full set is recalled for a request that waits for a way. -/
def execBackInvalidation (line : Nat) (s : State) : Host.Outcome State Fault Refusal :=
  live s fun s =>
    if (s.hearth.queue.any fun x => x.1 == line) && (s.dirOf line).isNone && !s.hasWay line then s.backInvalidate line else s

/-- A granule or element is still to commit or fail. -/
def State.granuleLive (s : State) (key g : Nat) : Bool :=
  match (s.wb key).chunkOf g with
  | some (_, k) => k.st != 3 && !k.bits.testBit (g - k.first) && !(s.wb key).marks.has g
  | none => false

/-- HEARTH_RECALL_DONE (R224, R226, R227): every answer that a busy entry awaits is there; an uncached access proceeds, and a grant whose
line could not be read yet is tried again. -/
def execHearthRecallDone (line : Nat) (s : State) : Host.Outcome State Fault Refusal :=
  live s fun s => match s.dirOf line with
    | some d =>
      if !d.busy || d.st == 7 || !d.snoops.isEmpty then s else
      match d.grant with
      | .uncached t =>
        (match s.pool.reqs.find t with
        | some r => (s.uncachedEnd line (writes r.p.opc)).access t
        | none => (s.uncachedEnd line true).uncachedFree (Grant.ofReq t)).flushOn
      | .porter k g w _ =>
        let s := s.uncachedEnd line w
        (if s.granuleLive k g then s else s.uncachedFree (Grant.ofGranule k g)).flushOn
      | _ => (s.hfinish line d).flushOn
    | none => s

/-! ## Limits and fencing -/

/-- Status of an access whose recall timed out (R139). -/
def stTimeout : Nat := 0x0C

/-- An atomic whose recall passed its limit fails with TIMEOUT, its element unchanged; the line ends DI (R139, R230). -/
def State.atomicLate (s : State) (l : Nat) (g : Grant) : State :=
  let drop (s : State) : State := match s.dirOf l with
    | some d => s.setDir l { d with grant := .flush }
    | none => s
  match g with
  | .uncached t => (match s.pool.reqs.find t with
    | some r => if r.p.opc == 0x04 then (drop s).endReq t stTimeout [] false else s
    | none => s)
  | .porter wb g _ true =>
    (drop s).failGranule wb 0 g stTimeout
  | _ => s

/-- HEARTH_SNOOP_TIMEOUT (R229, R230): the endpoint that did not answer is fenced. -/
def execHearthSnoopTimeout (line : Nat) (ceid : Fin 4096) (s : State) : Host.Outcome State Fault Refusal :=
  live s fun s => match s.dirOf line with
    | some d =>
      if d.snoops.any (fun x => x.1 == ceid.val) then ((s.atomicLate line d.grant).fence ceid).flushOn else s
    | none => s

/-- FENCE_WALK_DONE (R230, step 4): the CEID leaves every pointer entry. -/
def execFenceWalkDone (ceid : Fin 4096) (s : State) : Host.Outcome State Fault Refusal :=
  live s fun s => match s.hearth.ces.find ceid with
    | some e =>
      if !e.walking then s else
      let clean (d : Dir) : Dir := { d with ptrs := d.ptrs.filter (· != ceid.val) }
      let s : State := { s with hearth := { s.hearth with dir := s.hearth.dir.map fun _ d => clean d, ces := s.hearth.ces.put ceid { e with walking := false } } }
      let empty := (s.hearth.dir.rows.filter fun r => !r.2.busy && !r.2.coarse && r.2.ptrs.isEmpty).map (·.1)
      (empty.foldl (fun (s : State) l => s.dropDir l) s).flushOn
    | none => s

/-! ## HEARTH_CMD (R238, R239) -/

/-- A HEARTH_CMD is served as R47 says. -/
def hearthCmd (s : State) (code : Nat) (f : State → State) : Host.Outcome State Fault Refusal :=
  record s Obj.hearthCmdOp Obj.hearthCmdResult code f

/-- RESULT of HEARTH_CMD. -/
def State.hearthResult (s : State) (v : Nat) : State := s.setReg Obj.hearthCmdResult v

/-- REGISTER_CE (R217): the lowest free CEID takes the EPID and partition key. -/
def execRegisterCe (s : State) : Host.Outcome State Fault Refusal :=
  hearthCmd s 0x01 fun s => match s.hearth.ces.lowestFree 4096 with
    | none => s.hearthResult 0x02
    | some c =>
      let e : Ce := { epid := s.reg Obj.hearthCmdEpid % 2 ^ 20, pkey := s.reg Obj.hearthCmdPkey }
      (({ s with hearth := { s.hearth with ces := s.hearth.ces.put c e } }).setReg Obj.hearthCmdCeid c).hearthResult 0

/-- REMOVE_CE (R239): every line that the endpoint may hold is recalled, and then its CEID frees. -/
def execRemoveCe (s : State) : Host.Outcome State Fault Refusal :=
  hearthCmd s 0x02 fun s =>
    let c := s.reg Obj.hearthCmdCeid
    if s.hearth.ces.has c then
      (({ s with hearth := { s.hearth with flush := some (0, 2 ^ 30, some c) } }).hearthResult 0x01).flushOn
    else s.hearthResult 0x03

/-- RESET_CE (R231): a FENCED endpoint whose walk has ended returns to service. -/
def execResetCe (s : State) : Host.Outcome State Fault Refusal :=
  hearthCmd s 0x03 fun s =>
    let c := s.reg Obj.hearthCmdCeid
    match s.hearth.ces.find c with
    | none => s.hearthResult 0x03
    | some e =>
      if e.walking then s.hearthResult 0x05
      else ({ s with hearth := { s.hearth with ces := s.hearth.ces.put c { e with fenced := false } } }).hearthResult 0

/-- QUERY_CE (R238): CE_STATE reads free, ACTIVE or FENCED. -/
def execQueryCe (s : State) : Host.Outcome State Fault Refusal :=
  hearthCmd s 0x04 fun s =>
    let v := match s.hearth.ces.find (s.reg Obj.hearthCmdCeid) with
      | none => 0
      | some e => if e.fenced then 2 else 1
    (s.setReg Obj.hearthCmdCeState v).hearthResult 0

/-- A byte range of lines inside the enabled hearth. -/
def State.hearthRange (s : State) (pa len : Nat) : Bool :=
  s.cellar.hearthState == 1 && pa % 64 == 0 && len % 64 == 0 && decide (s.inForce Obj.hearthBase ≤ pa) &&
    decide (pa + len ≤ s.inForce Obj.hearthBase + s.inForce Obj.hearthSize)

/-- FLUSH (R234): every cached line of the range is recalled, and the range is left DI. -/
def execFlush (s : State) : Host.Outcome State Fault Refusal :=
  hearthCmd s 0x05 fun s =>
    let pa := s.reg Obj.hearthCmdPa
    let len := s.reg Obj.hearthCmdLen
    if s.hearthRange pa len then
      (({ s with hearth := { s.hearth with flush := some (s.hline pa, s.hline pa + len / 64, none) } }).hearthResult 0x01).flushOn
    else s.hearthResult 0x04

/-- QUERY_LINE (R238): the directory entry of a line, zeros when DI. -/
def execQueryLine (s : State) : Host.Outcome State Fault Refusal :=
  hearthCmd s 0x06 fun s =>
    let pa := s.reg Obj.hearthCmdPa
    if s.hearthRange pa 64 then
      let l := s.hline pa
      let v := match s.dirOf l with | some d => dirBits l d | none => 0
      (s.setBlob Obj.hearthCmdEntry (leBytes 16 v)).hearthResult 0
    else s.hearthResult 0x04

end Sys2Proof.Machine
end

