-- ==== Sys2Proof/Machine/Porter.lean ====
section
/-! DEFINITION. Meanings of the Porter's data operations (chapters 04 and 05), each as the work of one dispatched chunk: the granules or
elements that are not committed are made and held for their commit; and of remote limits, reduction contexts, locks and
layouts. -/

namespace Sys2Proof.Machine

open Sys2Proof

/-- The chunk of a running waybill of an opcode does its work. -/
def State.work0 (s : State) (stream seq chunk opc : Nat) (kernel : Nat → Nat → State → Nat → Calc × State) : State :=
  let key := wbKey stream seq
  let w := s.wb key
  if w.opc != opc then s else s.runChunk key chunk (kernel key (w.chunks.getD chunk {}).cluster)

/-- COPY (R128). -/
def execCopy (stream : Fin 1048576) (seq chunk : Nat) (s : State) : Host.Outcome State Fault Refusal :=
  live s fun s => s.work0 stream seq chunk 0x00 kernel0

/-- CONVERT (R129, R130). -/
def execConvert (stream : Fin 1048576) (seq chunk : Nat) (s : State) : Host.Outcome State Fault Refusal :=
  live s fun s => s.work0 stream seq chunk 0x01 kernel0

/-- FILL (R131). -/
def execFill (stream : Fin 1048576) (seq chunk : Nat) (s : State) : Host.Outcome State Fault Refusal :=
  live s fun s => s.work0 stream seq chunk 0x02 kernel0

/-- ELTWISE (R132). -/
def execEltwise (stream : Fin 1048576) (seq chunk : Nat) (s : State) : Host.Outcome State Fault Refusal :=
  live s fun s => s.work0 stream seq chunk 0x03 kernel0

/-- DELIVER (R134). -/
def execDeliver (stream : Fin 1048576) (seq chunk : Nat) (s : State) : Host.Outcome State Fault Refusal :=
  live s fun s => s.work0 stream seq chunk 0x04 kernel0

/-- GATHER (R153 to R156). -/
def execGather (stream : Fin 1048576) (seq chunk : Nat) (s : State) : Host.Outcome State Fault Refusal :=
  live s fun s => s.work0 stream seq chunk 0x10 kernel1

/-- SCATTER (R153 to R156). -/
def execScatter (stream : Fin 1048576) (seq chunk : Nat) (s : State) : Host.Outcome State Fault Refusal :=
  live s fun s => s.work0 stream seq chunk 0x11 kernel1

/-- ATOMIC (R135 to R140, R557). -/
def execAtomic (stream : Fin 1048576) (seq chunk : Nat) (s : State) : Host.Outcome State Fault Refusal :=
  live s fun s => if (s.wb (wbKey stream seq)).opc == 0x20 then s.runAtoms (wbKey stream seq) chunk else s

/-- CAS (R141). -/
def execCas (stream : Fin 1048576) (seq chunk : Nat) (s : State) : Host.Outcome State Fault Refusal :=
  live s fun s => if (s.wb (wbKey stream seq)).opc == 0x21 then s.runAtoms (wbKey stream seq) chunk else s

/-- REDUCE (R151). -/
def execReduce (stream : Fin 1048576) (seq chunk : Nat) (s : State) : Host.Outcome State Fault Refusal :=
  live s fun s => s.work0 stream seq chunk 0x33 kernel3

/-- RED_CONTRIB (R145 to R148). -/
def execRedContrib (stream : Fin 1048576) (seq chunk : Nat) (s : State) : Host.Outcome State Fault Refusal :=
  live s fun s => s.work0 stream seq chunk 0x31 kernel3

/-- RED_OPEN (R144): the start value is put in place; in DRAM mode DST may stand as it is. -/
def execRedOpen (stream : Fin 1048576) (seq chunk : Nat) (s : State) : Host.Outcome State Fault Refusal :=
  live s fun s =>
    let w := s.wb (wbKey stream seq)
    if w.opc == 0x30 && w.st == 1 && w.total == 0 then s.onWb (wbKey stream seq) fun w => { w with st := 2 }
    else s.work0 stream seq chunk 0x30 kernelOpen

/-- RESHARD (R185). -/
def execReshard (stream : Fin 1048576) (seq chunk : Nat) (s : State) : Host.Outcome State Fault Refusal :=
  live s fun s => s.work0 stream seq chunk 0x40 kernel4

/-- MVB (R166). -/
def execMvb (stream : Fin 1048576) (seq chunk : Nat) (s : State) : Host.Outcome State Fault Refusal :=
  live s fun s => s.work0 stream seq chunk 0x50 kernelMvb

/-- MOEFFN (R167, R168, R172): a slice of phase 1, or a row block of phase 2. -/
def execMoeffn (stream : Fin 1048576) (seq chunk : Nat) (s : State) : Host.Outcome State Fault Refusal :=
  live s fun s =>
    if 65536 ≤ chunk then (if (s.wb (wbKey stream seq)).opc == 0x51 then s.runSlice (wbKey stream seq) chunk else s)
    else s.work0 stream seq chunk 0x51 kernelMoe

/-- MOEFFN_EXCHANGE_DONE (R172): every slice is done and every participant holds h. -/
def execMoeffnExchangeDone (stream : Fin 1048576) (seq : Nat) (s : State) : Host.Outcome State Fault Refusal :=
  live s fun s =>
    let key := wbKey stream seq
    let w := s.wb key
    if w.opc == 0x51 && w.st == 1 && !w.exchanged && (upto w.sliceCount).all (w.slices.testBit ·) then s.onWb key Waybill.exchange else s

/-- REMOTE_TIMEOUT_EXPIRY (R126, R134): a remote access of the Porter goes unanswered past REMOTE_TIMEOUT. -/
def execRemoteTimeoutExpiry (dst : Nat) (tc : Fin 4) (tag : Nat) (s : State) : Host.Outcome State Fault Refusal :=
  live s fun s =>
    let porter (k : OwnKind) : Bool := match k with | .remoteRead _ _ _ => true | .remoteWrite _ _ _ _ => true | .deliver _ _ _ => true | _ => false
    match s.fabric.own.find? fun o => o.dst == dst && o.tc == tc.val && o.tag == tag && porter o.kind with
    | none => s
    | some o => State.porterAnswer { s with fabric := { s.fabric with own := s.fabric.own.filter (· != o) } } o.kind 0x0C [] false

/-! ## Reduction contexts (R144, R146, R148 to R150) -/

/-- STAGING_ALLOC (R144): staging has freed, and a waiting RED_OPEN takes it. -/
def execStagingAlloc (stream : Fin 1048576) (seq : Nat) (s : State) : Host.Outcome State Fault Refusal :=
  live s fun s =>
    let key := wbKey stream seq
    if (s.wb key).openWait.isSome && (s.wb key).st == 1 && !(s.wb key).cancelled then s.stageOpen key else s

/-- RED_OPEN_TIMEOUT (R144): the RED_OPEN completes TIMEOUT and its context stays closed; a stream whose WAIT_TIMEOUT is 0 has no limit. -/
def execRedOpenTimeout (stream : Fin 1048576) (seq : Nat) (s : State) : Host.Outcome State Fault Refusal :=
  live s fun s =>
    let key := wbKey stream seq
    let w := s.wb key
    if w.openWait.isSome && w.st == 1 && (s.work.streams.getD w.stream {}).limit != 0 then s.endWhole key 0x0C else s

/-- CONTRIB_TURN (R148): the predecessors have completed, and the contribution starts applying once its sequencer has room. -/
def execContribTurn (stream : Fin 1048576) (seq : Nat) (s : State) : Host.Outcome State Fault Refusal :=
  live s fun s =>
    let key := wbKey stream seq
    let w := s.wb key
    if w.turn && (s.work.ctxs.getD w.rctx {}).turnOf w.cidx && s.seqLoad (s.work.streams.getD w.stream {}).seqr < 16 then
      s.onWb key fun w => { w with turn := false }
    else s

/-- STAGED_PREFETCH (R148): SRC of a waiting contribution is read into staging, within the budget. -/
def execStagedPrefetch (stream : Fin 1048576) (seq : Nat) (s : State) : Host.Outcome State Fault Refusal :=
  live s fun s =>
    let key := wbKey stream seq
    let w := s.wb key
    let x := s.work.ctxs.getD w.rctx {}
    let n := s.contribLen w
    let kib := ceilDiv n 1024
    if w.turn && w.staged == 0 && x.prefetched + kib ≤ s.reg Obj.stagePrefetchMax && s.work.stageUsed + kib ≤ stageTotal then
      let (r, s) := s.readRange key (s.work.streams.getD w.stream {}).seqr 0 w.src n
      if r.ok then
        ((s.takeStage kib).onCtx w.rctx fun x => { x with prefetched := x.prefetched + kib }).onWb key fun w =>
          { w with staged := kib, pre := r.bytes, prePz := r.pz, degraded := w.degraded || r.degraded }
      else s
    else s

/-- GRANULE_LOCK_GRANT (R146): a lock that has freed goes to the first that waits for it and whose cluster may take it. -/
def execGranuleLockGrant (unit : Nat) (s : State) : Host.Outcome State Fault Refusal :=
  live s fun s =>
    let may (x : Nat × Nat) : Bool := match s.clusterOf x with | some c => s.lockOk c unit | none => false
    let grant (l : GLock) : GLock :=
      if l.pa == unit && l.holder.isNone then
        (match l.waiters.find? may with
         | some x => { l with holder := some x, waiters := l.waiters.filter (· != x) }
         | none => l)
      else l
    { s with work := { s.work with locks := s.work.locks.map grant } }

/-- RED_CLOSE (R150): contributions that have not started to apply are cancelled; it ends once its context is over. -/
def execRedClose (stream : Fin 1048576) (seq : Nat) (s : State) : Host.Outcome State Fault Refusal :=
  live s fun s =>
    let key := wbKey stream seq
    let w := s.wb key
    if w.opc != 0x32 || !s.runs key 0 then s
    else if w.closed then (s.onChunk key 0 fun c => { c with bits := 1 }).closeChunk key 0
    else s.startClose key

/-- Contributions that count for a context and have not completed. -/
def State.contribsLeft (s : State) (r : Nat) : Bool := s.work.wbs.rows.any fun w => w.2.counts && w.2.rctx == r

/-- One granule of staging written back to DST: true once its write is acknowledged, or its page ends it at once. A line that is lost takes no
write (R149, step 1). -/
def State.backGranule (s : State) (r i : Nat) : Bool × State :=
  let x := s.work.ctxs.getD r {}
  let (lo, n) := granulePart x.dst x.len i
  let o := s.xlCached x.gid lo true
  let (o, s) := if o == .miss then s.xlWalk x.gid lo true else (o, s)
  match o with
  | .stop _ => (true, s)
  | .miss => (false, s)
  | .hold l p => (false, s.rehold x.gid x.hold { level := l, page := p, write := true } fun s h => s.onCtx r fun x => { x with hold := some h })
  | .zero l p pa => (false, s.startFill x.gid l p pa)
  | .ok pa =>
    if (s.filling pa).isSome then (false, s)
    else match s.hearthBlock pa n true with
      | some l => (false, s.uncachedStart l .flush true)
      | none =>
        let outs := (lineAddrs pa n).map fun a =>
          let at_ := max a pa
          let k := min (a + 64) (pa + n) - at_
          let bad := x.bad.contains ((lo + (at_ - pa)) / 64)
          ({ pa := at_, bytes := if bad then poisonBytes (lo + (at_ - pa)) k else sliceBytes x.stage (lo + (at_ - pa) - x.dst) k, poison := bad } : OutRange)
        let outs := outs.filter fun o => !s.lineLost o.pa
        if s.outsRoom outs then (true, s.putOuts x.gid outs) else (false, s)

/-- Staging written back to DST granule by granule, as far as it goes (R149, step 1): true once all of it is written. DESIGN CHOICE (assumption
39): a granule whose page takes no write is left as it was. -/
def State.writeBack (s : State) (r : Nat) : Bool × State :=
  let x := s.work.ctxs.getD r {}
  (upto (granules x.dst x.len - x.wrote)).foldl (fun (b : Bool × State) _ =>
    if !b.1 then b else
    let (ok, s) := b.2.backGranule r (b.2.work.ctxs.getD r {}).wrote
    (ok, if ok then s.nextBack r else s)) (true, s)

/-- DST's pool ranges, published (R149, step 2): true once nothing of them is left in a WCB. -/
def State.publishCtx (s : State) (x : RedCtx) : Bool × State :=
  let rs := (pieces x.dst x.len).filterMap fun p => match s.leafAt x.gid p.1 with
    | some l => if l.nr || l.zm then none else some (l.pa + (p.1 - l.pva), p.2)
    | none => none
  let (ok, s) := rs.foldl (fun (b : Bool × State) r => let (k, s) := b.2.drainRange r.1 r.2; (b.1 && k, s)) (true, s)
  if ok then (true, rs.foldl (fun (s : State) r => s.lrcPublish r.1 r.2) s) else (false, s)

/-- The context is over: DONE_TALLY, RCTX and staging free, and its RED_CLOSE may end (R149, R150). -/
def State.endCtx (s : State) (r : Nat) (x : RedCtx) : State :=
  let s := s.freeStage x.kib
  let s := { s with work := { s.work with ctxs := s.work.ctxs.del r } }
  let s := if x.doneTally == 0xFFFF then s else s.addTally x.doneTally 1
  match x.closing with
  | some k => (s.onWb k fun w => { w with closed := true, chunks := w.chunks.upd 0 fun c => { c with bits := 1 } }).closeChunk k 0
  | none => s

/-- RED_CONTEXT_COMPLETE (R149, R150): every contribution is counted, or RED_CLOSE ends the context. -/
def execRedContextComplete (rctx : Fin 1024) (s : State) : Host.Outcome State Fault Refusal :=
  live s fun s => match s.work.ctxs.find rctx with
    | none => s
    | some x =>
      let ending := match x.closing with | some k => (s.wb k).st == 1 | none => false
      if !x.open_ || s.contribsLeft rctx || !(decide (x.ncontrib ≤ x.counted) || ending) then s else
      let (ok, s) := if x.staged then s.writeBack rctx else (true, s)
      if !ok then s else
      let (done, s) := s.publishCtx x
      if done then s.endCtx rctx x else s

/-! ## Layouts (R179 to R181, R186, R188, R189) -/

/-- A layout's entry in the device table region takes these bytes (R179). -/
def State.writeLayout (s : State) (i gid : Nat) (bs : Bytes) : State :=
  (lineAddrs (s.layoutAt i) 128).foldl (fun (s : State) a => s.wcbPut a gid (sliceBytes (padBytes 128 bs) (a - s.layoutAt i) 64)) s

/-- LAYOUT_REGISTER (R179, R181). -/
def execLayoutRegister (s : State) : Host.Outcome State Fault Refusal :=
  record s Obj.layoutCmdOp Obj.layoutCmdResult 0x01 fun s =>
    let l : Layout := { gid := s.reg Obj.layoutCmdGid % 2 ^ 20, w := wordsOf (s.blob Obj.layoutCmdDesc) }
    if !l.valid then s.setReg Obj.layoutCmdResult 0x04
    else match s.work.layouts.lowestFree 65536 with
      | none => s.setReg Obj.layoutCmdResult 0x02
      | some i =>
        let s := State.writeLayout { s with work := { s.work with layouts := s.work.layouts.put i l } } i l.gid (s.blob Obj.layoutCmdDesc)
        (s.setReg Obj.layoutCmdId i).setReg Obj.layoutCmdResult 0

/-- A RESHARD that has been accepted and has not completed names the layout (R186). -/
def State.layoutUsed (s : State) (i : Nat) : Bool :=
  s.work.wbs.rows.any fun w => w.2.opc == 0x40 && (w.2.srcLayout == i || w.2.dstLayout == i)

/-- LAYOUT_REMOVE (R186); the entry is overwritten with zeros (R400). -/
def execLayoutRemove (s : State) : Host.Outcome State Fault Refusal :=
  record s Obj.layoutCmdOp Obj.layoutCmdResult 0x02 fun s =>
    let i := s.reg Obj.layoutCmdId
    if !s.work.layouts.has i then s.setReg Obj.layoutCmdResult 0x03
    else if s.layoutUsed i then s.setReg Obj.layoutCmdResult 0x05
    else
      let s := s.writeLayout i (s.work.layouts.getD i {}).gid (zeroBytes 128)
      State.setReg { s with work := { s.work with layouts := s.work.layouts.del i } } Obj.layoutCmdResult 0

/-- LAYOUT_QUERY (Table 5.12). -/
def execLayoutQuery (s : State) : Host.Outcome State Fault Refusal :=
  record s Obj.layoutCmdOp Obj.layoutCmdResult 0x03 fun s =>
    match s.work.layouts.find (s.reg Obj.layoutCmdId) with
    | none => s.setReg Obj.layoutCmdResult 0x03
    | some l => (s.setBlob Obj.layoutCmdDesc ((l.w.map fun v => leBytes 8 v).flatten)).setReg Obj.layoutCmdResult 0

end Sys2Proof.Machine
end

