-- ==== Sys2Proof/Machine/Dictionary.lean ====
section
/-! DEFINITION. The Evoust dictionary (chapter 14): the attachments, reads, writes, sessions, persistence and the calibration set. -/

namespace Sys2Proof.Machine

open Sys2Proof

/-! ## The T1S attachment (R456 to R458) -/

/-- T1S_FRAME (R456, R457, R469, R491, R493): filtered by address, a wake source, and where it passes queued or answered BUSY. -/
def execT1sFrame (f : Frame) (s : State) : Host.Outcome State Fault Refusal :=
  awake s fun s =>
    let mine := f.dst == Config.macAddress
    if !mine && f.dst != macAll then s else
    let p := pduOf f.payload
    let asleep := s.power.st == 1 || s.power.st == 2
    let s := if !frameOk f || (!mine && !bcastOk p) then s.dictDropped else s.dictArrive (.t1s f.src) none f.payload
    let asks := s.power.st == 1 && frameOk f && bcastOk p
    if f.fcsOk && ((mine && asleep) || asks) then s.wakeSource 1 2 else s

/-- This device is a follower under PLCA; node ID 0xFF turns PLCA off (R456, R458, R540). -/
def State.follower (s : State) : Bool := s.inForce Obj.plcaEn != 0 && s.t1sNode != 0 && s.t1sNode != 0xFF

/-- PLCA_BEACON_TIMEOUT (R458): 10 ms without a BEACON. -/
def execPlcaBeaconTimeout (s : State) : Host.Outcome State Fault Refusal :=
  awake s fun s =>
    if s.follower && !s.dict.csma then State.countIk { s with dict := { s.dict with csma := true } } 0x1010 3 else s

/-- PLCA_BEACON_HEARD (R458). -/
def execPlcaBeaconHeard (s : State) : Host.Outcome State Fault Refusal :=
  awake s fun s => { s with dict := { s.dict with csma := false } }

/-! ## READ and DESCRIBE (R462, R466) -/

/-- A read of this right is allowed (checks 6 and 7 of R468): its error, or none. -/
def readError (acc : Access) (session : Nat) : Option Nat :=
  match acc with
  | .wo => some 0x04
  | .rwa => if session == 0 then some 0x05 else none
  | _ => none

/-- The snapshot of a requester. -/
def State.snapOf (s : State) (a : Asker) : Option Snap := s.dict.snaps.find? fun x => x.session == a.session && x.via == a.via

/-- A requester's snapshot is dropped. -/
def State.dropSnap (s : State) (a : Asker) : State :=
  { s with dict := { s.dict with snaps := s.dict.snaps.filter fun x => !(x.session == a.session && x.via == a.via) } }

/-- A snapshot is taken; the oldest of 16 gives way (R462). -/
def State.takeSnap (s : State) (a : Asker) (p : Pdu) (v : Bytes) : State :=
  let l := s.dict.snaps ++ [({ session := a.session, via := a.via, idx := p.idx, sub := p.sub, data := v } : Snap)]
  { s with dict := { s.dict with snaps := l.drop (l.length - 16) } }

/-- The value that a READ sees: the present one, or at a later offset the requester's snapshot of the object. -/
def State.readValue (s : State) (a : Asker) (p : Pdu) (row : ObjRow) : Bytes :=
  match s.snapOf a with
  | some x => if p.offset != 0 && x.idx == p.idx && x.sub == p.sub then x.data else s.objBytes row (objKey p.idx p.sub)
  | none => s.objBytes row (objKey p.idx p.sub)

/-- OFFSET lies within a value; a scalar is read whole (check 8 of R468, R462). -/
def readSizeOk (row : ObjRow) (p : Pdu) (len : Nat) : Bool :=
  if row.ty.isNum then p.offset == 0 && (p.total == 0 || decide (len ≤ p.total)) else p.offset == 0 || decide (p.offset < len)

/-- A READ that has passed checks 4 to 7. -/
def State.serveRead (s : State) (a : Asker) (p : Pdu) (row : ObjRow) : Served :=
  let v := s.readValue a p row
  if !readSizeOk row p v.length then .done { status := 0x06 } s else
  let most := if p.total == 0 then p.limit else min p.total p.limit
  let d := sliceBytes v p.offset most
  let last := p.offset + d.length == v.length
  let s := if p.offset == 0 then (if last then s.dropSnap a else (s.dropSnap a).takeSnap a p v) else if last then s.dropSnap a else s
  .done { last := last, data := d, total := v.length } s

/-- DICT_READ (R462, R465, R468). -/
def execDictRead (s : State) : Host.Outcome State Fault Refusal :=
  dict s fun s => s.serveFront 0x01 fun s a p _ =>
    match s.findObj p.idx p.sub with
    | .error e => .done { status := e } s
    | .ok row => match readError row.acc a.session with
      | some e => .done { status := e } s
      | none => s.serveRead a p row

/-- DESCRIBE's answer data (Table 14.5). -/
def describeBytes (row : ObjRow) (p : Pdu) : Bytes :=
  let fits := decide (8 + row.ty.size ≤ p.limit)
  let flags := b2n row.computed + 2 * b2n row.persisted + 4 * b2n (!row.computed && !fits)
  let dflt := if row.ty.isNum then leBytes row.ty.size row.dflt else row.dbytes
  leBytes 4 (row.ty.code + row.acc.code * 2 ^ 8 + flags * 2 ^ 16) ++ leBytes 4 row.ty.size ++ (if !row.computed && fits then dflt else [])

/-- DESCRIBE (R466, Table 14.5). -/
def execDescribe (s : State) : Host.Outcome State Fault Refusal :=
  dict s fun s => s.serveFront 0x03 fun s _ p _ =>
    match s.findObj p.idx p.sub with
    | .error e => .done { status := e } s
    | .ok row =>
      let d := describeBytes row p
      .done { last := true, data := d, total := d.length } s

/-! ## What a write does -/

/-- CAL_CMD CLEAR_TRAINED (R484, R485): the trained group of a channel, or of every channel, becomes zeros. -/
def execClearTrained (s : State) : Host.Outcome State Fault Refusal :=
  record s Obj.calCmdOp Obj.calCmdResult 0x01 fun s =>
    let n := s.reg Obj.calCmdChannel
    if n != 0xFF && decide (48 ≤ n) then s.setReg Obj.calCmdResult 0x04
    else
      let chans := if n == 0xFF then upto 48 else [n]
      State.setReg (chans.foldl (fun (s : State) c => (s.setBlob (Obj.calTrained c) (zeroBytes 672)).persist (Obj.calTrained c) (zeroBytes 672)) s)
        Obj.calCmdResult 0x00

/-- A meaning that a write sets off. -/
abbrev Act := State → Host.Outcome State Fault Refusal

/-- Command records of guests, links, routing and DRAM: OP, RESULT and the meanings of codes 1 on. A sideband transfer takes what it
meets on the bus. -/
def recordsLow (lost : Bool) (answer : Option Bytes) : List (Nat × Nat × List Act) := [
  (Obj.guestCmdOp, Obj.guestCmdResult, [execDefine, execPin, execUnpin, execWindowSet, execWindowClear, execGuestQuery, execSetPkey]),
  (Obj.teardownCmdOp, Obj.teardownCmdResult, [execTeardown, execQueryKey]),
  (Obj.linkCmdOp, Obj.linkCmdResult, [execRetrain, execDisable, execEnable, execLinkQuery, execDedupClear]),
  (Obj.routeCmdOp, Obj.routeCmdResult, [execSetBlock, execSetExact, execClearExact, execPairOut, execPairIn, execRouteQuery]),
  (Obj.gmapCmdOp, Obj.gmapCmdResult, [execGmapSet, execGmapClear, execGmapQuery]),
  (Obj.pkeyCmdOp, Obj.pkeyCmdResult, [execPkeyAdd, execPkeyRemove, execPkeyQuery]),
  (Obj.queueCmdOp, Obj.queueCmdResult, [execQueueSet, execQueueRemove, execQueueQuery]),
  (Obj.sbCmdOp, Obj.sbCmdResult, [execSbRead lost answer, execSbWrite lost answer.isSome]),
  (Obj.trainCmdOp, Obj.trainCmdResult, [execTrainRetrain, execTrainFull]),
  (Obj.eccCmdOp, Obj.eccCmdResult, [execWriteRaw, execReadRaw, execReadDecoded, execCeLogClear, execPpr, execEvacuate])
]

/-- The other command records. -/
def recordsHigh : List (Nat × Nat × List Act) := [
  (Obj.streamCmdOp, Obj.streamCmdResult, [execStreamCreate, execStreamDestroy, execStreamReset, execStreamQuery]),
  (Obj.tallyCmdOp, Obj.tallyCmdResult, [execTallyAlloc, execTallyFree, execTallyCmdArm, execTallyCmdSet, execTallyConfig, execTallyQuery]),
  (Obj.layoutCmdOp, Obj.layoutCmdResult, [execLayoutRegister, execLayoutRemove, execLayoutQuery]),
  (Obj.transCmdOp, Obj.transCmdResult, [execCommit, execTransQuery]),
  (Obj.hearthCmdOp, Obj.hearthCmdResult, [execRegisterCe, execRemoveCe, execResetCe, execQueryCe, execFlush, execQueryLine]),
  (Obj.ctrCmdOp, Obj.ctrCmdResult, [execCtrConfig, execCtrRead, execCtrWrite, execSnapshot, execClearDie]),
  (Obj.logCmdOp, Obj.logCmdResult, [execLogRead]),
  (Obj.calCmdOp, Obj.calCmdResult, [execClearTrained]),
  (Obj.fwCmdOp, Obj.fwCmdResult, [execWriteChunk, execVerify, execActivate, execCommitSvn]),
  (Obj.debugCmdOp, Obj.debugCmdResult, [execChallenge, execUnlock]),
  (Obj.powerCmdOp, Obj.powerCmdResult, [execNight, execColdReset]),
  (Obj.ikCmdOp, Obj.ikCmdResult, [execSwitch, execRetest, execHoldOut, execRelease]),
  (Obj.irqCmdOp, Obj.irqCmdResult, [execIrqQuery, execSetPending, execClearPending, execClearCount]),
  (Obj.pigeonCmdOp, Obj.pigeonCmdResult, [execReadIn, execWriteOut])
]

/-- The command record whose OP this object is. -/
def recordOf (lost : Bool) (answer : Option Bytes) (k : Nat) : Option (Nat × Nat × List Act) :=
  (recordsLow lost answer ++ recordsHigh).find? fun r => r.1 == k

/-- CE_COUNT or UE_COUNT of a channel is cleared, where the object is one of them (R556). -/
def State.clearCounts (s : State) (k : Nat) : State :=
  if k / 256 == 0x4203 then s.onChan (k % 256 - 1) fun c => { c with ceCount := 0 }
  else if k / 256 == 0x4204 then s.onChan (k % 256 - 1) fun c => { c with ueRepaired := 0, ueLost := 0 }
  else s

/-- What a write of an object whose write does more than store does. -/
def actOf (k : Nat) (bs : Bytes) : Option Act :=
  let v := leNat bs
  let n := k % 256 - 1
  let idx := k / 256
  if k == Obj.ctrFreeze then some (execCtrFreezeWrite (v != 0))
  else if k == Obj.samplePeriod then some (execSamplerConfigWrite none v)
  else if idx == 0x7041 then some (execSamplerConfigWrite (some (Fin.ofNat 64 n)) v)
  else if idx == 0x7045 then some (execHwmQueueWrite (Fin.ofNat 64 n) v)
  else if idx == 0xB201 then some (execPigeonOwnerWrite (Fin.ofNat 64 n) v)
  else if k == Obj.irqAlertStatus then some (execIrqAlertStatusWrite v)
  else if k == Obj.irqOverrun then some (execIrqOverrunWrite v)
  else if k == Obj.cdcOverrun then some (execCdcOverrunWrite v)
  else if k == Obj.fqHead then some (execFqHeadWrite v)
  else if k == Obj.fqEpid then some (execFqConfigWrite 0 v)
  else if k == Obj.fqBase then some (execFqConfigWrite 1 v)
  else if k == Obj.fqLog2 then some (execFqConfigWrite 2 v)
  else if k == Obj.trkHighWater then some (execTrkHighWaterWrite v)
  else if k == Obj.arithFlagsSeen then some (execArithFlagsSeenWrite v)
  else if k == Obj.attestNonce then some (execAttest bs)
  else none

/-- The state after a meaning. -/
def after (f : Act) (s : State) : State := match f s with | .next t => t | _ => s

/-- A value stored, and persisted where its object is (R465, R477); a factory calibration group is then overwritten (R482), and CC_ENABLE = 0
puts every rate back to full (R311). -/
def State.storeObj (s : State) (row : ObjRow) (k : Nat) (bs : Bytes) : State :=
  let s := if row.ty.isNum then s.setReg k (leNat bs) else s.setBlob k bs
  let s := if k / 256 == 0x8002 || k / 256 == 0x8003 then { s with dict := { s.dict with calOver := setBit s.dict.calOver (k % 256 - 1) } } else s
  let s := if k == Obj.ccEnable && leNat bs == 0 then { s with fabric := { s.fabric with rates := {} } } else s
  let s := (if k == Obj.clusterOpenMin then s.openMin else s).clearCounts k
  if row.persisted then s.persist k bs else s

/-- A write enters the journal before it is answered (R423). -/
def State.journalled (s : State) (k : Nat) : State := { s with ik := { s.ik with journal := s.ik.journal ++ [k] } }

/-- REGISTER_WRITE (R465, R467, R477): an object that may be written, has no behaviour of its own and takes the value, stores it. -/
def execRegisterWrite (idx : Fin 65536) (sub : Fin 256) (v : Bytes) (s : State) : Host.Outcome State Fault Refusal :=
  managed s fun s =>
    let k := objKey idx sub
    match s.findObj idx sub with
    | .error _ => s
    | .ok row =>
      if row.acc == .ro || row.acc == .con || (recordOf false none k).isSome || (actOf k v).isSome then s
      else if !sizeOk row.ty v.length || !s.valueOk row k v || (row.persisted && s.dict.flashBad) then s
      else (s.storeObj row k v).journalled k

/-! ## WRITE (R463, R465, R467, R468) -/

/-- The error of a write of this right (checks 6 and 7 of R468), or none: segments need a session. -/
def State.writeError (s : State) (acc : Access) (session : Nat) (segmented : Bool) : Option Nat :=
  if acc == .ro || acc == .con then some 0x04
  else if session == 0 && (segmented || acc == .rwa || !s.flag Obj.openWrite) then some 0x05
  else none

/-- Check 8 of R468 for a WRITE: scalars whole at OFFSET 0, and TOTAL a size that the type and the staging buffer allow. -/
def writeSizeOk (row : ObjRow) (p : Pdu) : Bool :=
  sizeOk row.ty p.total && decide (p.total ≤ 65536) && decide (p.offset + p.length ≤ p.total) && (p.offset == 0 || decide (p.offset < p.total)) &&
    (!row.ty.isNum || (p.offset == 0 && p.length == p.total))

/-- A whole value is applied (checks 9 to 11 of R468). A persisted write waits while a compaction runs. A device that runs no
commands answers BUSY where the write would set one off. -/
def State.applyValue (s : State) (row : ObjRow) (k : Nat) (bs : Bytes) (lost : Bool) (answer : Option Bytes) : Served :=
  let ok := fun (s : State) => Served.done { total := bs.length } (s.journalled k)
  let refused (e : Nat) (s : State) : Served := .done { status := e } s
  if !s.valueOk row k bs then refused 0x07 s else
  match recordOf lost answer k with
  | some (_, result, acts) =>
    match if leNat bs == 0 then none else acts[leNat bs - 1]? with
    | none => refused 0x07 s
    | some f => if s.busy result || (!s.served && k != Obj.fwCmdOp) || s.halted then refused 0x01 s else ok (after f s)
  | none => match actOf k bs with
    | some f => if s.served then ok (after f s) else refused 0x01 s
    | none =>
      if row.persisted && s.dict.flashBad then refused 0x0A s
      else if row.persisted && s.dict.compacting then .wait
      else ok (s.storeObj row k bs)

/-- The staging of a session. -/
def State.staging (s : State) (n : Nat) : Option Staging := (s.dict.sessions.find n).bind (·.staging)

/-- The staging of a session set or discarded. -/
def State.setStaging (s : State) (n : Nat) (g : Option Staging) : State :=
  { s with dict := { s.dict with sessions := s.dict.sessions.upd n fun x => { x with staging := g } } }

/-- A segment joined to a session's staging (R463): the whole value where it is complete, nothing where more must come, or STAGING. -/
def State.stage (s : State) (n : Nat) (p : Pdu) (d : Bytes) : Except Nat (Option Bytes) × State :=
  if p.offset == 0 then
    if p.last then (.ok (some d), s.setStaging n none)
    else (.ok none, s.setStaging n (some { idx := p.idx, sub := p.sub, total := p.total, data := d }))
  else match s.staging n with
    | none => (.error 0x0B, s)
    | some g =>
      if g.idx == p.idx && g.sub == p.sub && g.total == p.total && g.data.length == p.offset then
        if p.last then (.ok (some (g.data ++ d)), s.setStaging n none) else (.ok none, s.setStaging n (some { g with data := g.data ++ d }))
      else (.error 0x0B, s.setStaging n none)

/-- DICT_WRITE (R462, R463, R465, R468). `lost` and `answer` are what an SB_CMD set off by the write meets on its bus. -/
def execDictWrite (lost : Bool) (answer : Option Bytes) (s : State) : Host.Outcome State Fault Refusal :=
  dict s fun s => s.serveFront 0x02 fun s a p d =>
    match s.findObj p.idx p.sub with
    | .error e => .done { status := e } s
    | .ok row => match s.writeError row.acc a.session (p.offset != 0 || !p.last) with
      | some e => .done { status := e } s
      | none =>
        if !writeSizeOk row p then .done { status := 0x06 } s else
        let (g, s) := s.stage a.session p d
        match g with
        | .error e => .done { status := e } s
        | .ok none => .done { total := p.total } s
        | .ok (some v) => s.applyValue row (objKey p.idx p.sub) v lost answer

/-- The RWP objects that DEFAULTS returns (R479). -/
def defaultKeys : List (ObjRow × Nat) :=
  ((objRows.filter fun r => r.acc == .rwp && !within 0x8000 0x80FF r.idx && !within 0x9000 0x90FF r.idx).map fun r =>
    (upto (r.hi + 1 - r.lo)).map fun i => (r, objKey r.idx (r.lo + i))).flatten

/-- An object returned to its default, with its record. -/
def State.toDefault (s : State) (x : ObjRow × Nat) : State :=
  let v := if x.1.ty.isNum then leBytes x.1.ty.size x.1.dflt else x.1.dbytes
  State.persist { s with regs := s.regs.del x.2, blobs := s.blobs.del x.2 } x.2 v

/-- DEFAULTS (R479). -/
def execDefaults (s : State) : Host.Outcome State Fault Refusal :=
  dict s fun s => s.serveFront 0x08 fun s a _ _ =>
    if a.session == 0 then .done { status := 0x05 } s
    else if s.dict.flashBad then .done { status := 0x0A } s
    else if s.dict.compacting then .wait
    else .done {} ((defaultKeys.foldl (fun (s : State) x => (s.toDefault x).journalled x.2) s))

/-! ## Sessions (R471 to R475) -/

/-- A session is freed, with its staging and snapshots (R474). -/
def State.freeSession (s : State) (n : Nat) : State :=
  { s with dict := { s.dict with sessions := s.dict.sessions.del n, snaps := s.dict.snaps.filter fun x => x.session != n } }

/-- What is held of a peer's open failures (R475). -/
def State.failsOf (s : State) (via : Via) : Fails := (s.dict.fails.find? fun x => x.via == via).getD { via := via }

/-- A peer seen: it stands first, and the least recently seen of more than 32 gives way. -/
def State.seePeer (s : State) (x : Fails) : State :=
  { s with dict := { s.dict with fails := (x :: s.dict.fails.filter fun y => y.via != x.via).take 32 } }

/-- An open attempt fails (R475): the eighth within 60 s locks the peer out. -/
def State.openFailed (s : State) (via : Via) : State :=
  let x := s.failsOf via
  let times := s.nowMs :: x.times.filter fun t => decide (s.nowMs < t + 60000)
  let s := { s with dict := { s.dict with sessionFails := satInc 32 s.dict.sessionFails } }
  s.seePeer (if 8 ≤ times.length then { x with times := [], locked := true } else { x with times := times })

/-- The device's part of step 2: the first 131 bytes, and the signature over them (Table 14.7). -/
def helloData (n eph : Nat) (nonce hello : Bytes) : Bytes :=
  let d := leBytes 2 n ++ padBytes 97 (Config.ephemeralPub eph) ++ padBytes 32 nonce
  d ++ padBytes 96 (Config.ecdsaSign (Config.sha384 (hello ++ d)))

/-- OPEN_HELLO (R471 steps 1 and 2, R475). A device that cannot draw or sign answers AUTH. -/
def execOpenHello (s : State) : Host.Outcome State Fault Refusal :=
  dict s fun s => s.serveFront 0x10 fun s a _ d =>
    let x := s.failsOf a.via
    let s := s.seePeer x
    if x.locked || s.sec.noIdentity || !s.drbgOk then .done { status := 0x05 } s else
    match (upto 8).find? fun i => !s.dict.sessions.has (i + 1) with
    | none => .done { status := 0x09 } s
    | some i =>
      let eph := s.sec.drawn
      let s := (s.draw 48).2
      let (nonce, s) := s.draw 32
      let r := helloData (i + 1) eph nonce d
      let y : Session := { via := a.via, transcript := d ++ r, peerPub := d.take 97, eph := eph }
      .done { last := true, data := r, total := r.length } { s with dict := { s.dict with sessions := s.dict.sessions.put (i + 1) y } }

/-- The opening session that a peer's PDU names. -/
def State.opening (s : State) (a : Asker) (p : Pdu) : Option Session :=
  match s.dict.sessions.find p.session with
  | some x => if x.st == 1 && x.via == a.via then some x else none
  | none => none

/-- OPEN_CERT (R463, R471 step 3). -/
def execOpenCert (s : State) : Host.Outcome State Fault Refusal :=
  dict s fun s => s.serveFront 0x11 fun s a p d =>
    match s.opening a p with
    | none => .done { status := 0x05 } s
    | some _ =>
      if 8192 < p.total || p.total < p.offset + p.length then .done { status := 0x06 } s else
      let (g, s) := s.stage p.session p d
      match g with
      | .error e => .done { status := e } s
      | .ok none => .done { total := p.total } s
      | .ok (some v) =>
        .done { total := p.total } { s with dict := { s.dict with sessions := s.dict.sessions.upd p.session fun x => { x with chain := v } } }

/-- The peer's chain and its signature over the transcript are accepted (R405, R471). -/
def State.proved (s : State) (x : Session) (sig : Bytes) : Bool :=
  s.chainOk x.chain (fun n => (s.reg Obj.sessionAnchorMask).testBit (n - 1)) &&
    Config.ecdsaVerify (leafKey x.chain) (Config.sha384 (x.transcript ++ x.chain)) sig

/-- Keys of a session (R472). -/
def Session.derive (x : Session) (sig : Bytes) : Bytes :=
  hkdf72 (Config.ecdhSecret x.eph x.peerPub) (Config.sha384 (x.transcript ++ x.chain ++ sig)) "TRH mgmt v1"

/-- OPEN_PROVE (R471 steps 4 and 5, R472). -/
def execOpenProve (s : State) : Host.Outcome State Fault Refusal :=
  dict s fun s => s.serveFront 0x12 fun s a p d =>
    match s.opening a p with
    | none => .done { status := 0x05 } s
    | some x =>
      if s.proved x d then
        .done {} { s with dict := { s.dict with sessions := s.dict.sessions.put p.session { x with st := 2, keys := x.derive d, staging := none } } }
      else .done { status := 0x05 } ((s.freeSession p.session).openFailed a.via)

/-- CLOSE (R474). -/
def execClose (s : State) : Host.Outcome State Fault Refusal :=
  dict s fun s => s.serveFront 0x13 fun s a _ _ => .done {} (s.freeSession a.session)

/-! ## Time limits -/

/-- SNAPSHOT_EXPIRY (R462): the oldest snapshot. -/
def execSnapshotExpiry (s : State) : Host.Outcome State Fault Refusal :=
  awake s fun s => { s with dict := { s.dict with snaps := s.dict.snaps.drop 1 } }

/-- A request from the session's peer that names it waits in the queue. -/
def State.sessionAsks (s : State) (n : Nat) : Bool :=
  match s.dict.sessions.find n with
  | some x => s.dict.queue.any fun q => q.via.peer == x.via && (pduOf q.pdu).session == n
  | none => false

/-- STAGING_EXPIRY (R463): a segment that has arrived wins. Sessions are numbered 1 to 8. -/
def execStagingExpiry (session : Fin 8) (s : State) : Host.Outcome State Fault Refusal :=
  awake s fun s => if s.sessionAsks (session.val + 1) then s else s.setStaging (session.val + 1) none

/-- SESSION_OPEN_TIMEOUT (R471, R475). -/
def execSessionOpenTimeout (session : Fin 8) (s : State) : Host.Outcome State Fault Refusal :=
  awake s fun s => match s.dict.sessions.find (session.val + 1) with
    | some x => if x.st == 1 then (s.freeSession (session.val + 1)).openFailed x.via else s
    | none => s

/-- SESSION_IDLE_EXPIRY (R474): a request that has arrived is taken and the session stays. -/
def execSessionIdleExpiry (session : Fin 8) (s : State) : Host.Outcome State Fault Refusal :=
  awake s fun s => match s.dict.sessions.find (session.val + 1) with
    | some x => if x.st == 2 && !s.sessionAsks (session.val + 1) then s.freeSession (session.val + 1) else s
    | none => s

/-- OPEN_LOCKOUT_EXPIRY (R475): of the peer at a MAC address, or an EPID. -/
def execOpenLockoutExpiry (inband : Bool) (addr : Nat) (s : State) : Host.Outcome State Fault Refusal :=
  awake s fun s =>
    let via : Via := if inband then .inband addr 0 else .t1s addr
    { s with dict := { s.dict with fails := s.dict.fails.map fun x => if x.via == via then { x with locked := false } else x } }

/-- FLASH_COMPACTION_DONE (R477): the live values stand in the other copy, which is active, and waiting writes are appended. -/
def execFlashCompactionDone (s : State) : Host.Outcome State Fault Refusal :=
  awake s fun s =>
    let d := s.dict
    if !d.compacting then s else
    let live := liveRecs d.active d.recno
    let d := { d with copy := 1 - d.copy, recno := (d.recno + live.length) % 2 ^ 64, compacting := false, waiting := [] }
    let waiting := s.dict.waiting
    waiting.foldl (fun (s : State) w => s.persist w.1 w.2) { s with dict := d.setActive live }

end Sys2Proof.Machine
end

