-- ==== Sys2Proof/Machine/Packets.lean ====
section
/-! DEFINITION. What a packet does at a port (R283, R284): it is dropped, forwarded, or delivered; deduplication (R270, R271), broadcasts
(R296, R297), trackers (R74, R75), and the packets of Table 9.2 that this device takes. -/

namespace Sys2Proof.Machine

open Sys2Proof

/-! ## Receive pool -/

/-- A packet's blocks leave the receive pool (R253). -/
def State.unpool (s : State) (l : Nat) (p : Packet) : State := (s.leavePool (some l) p.vc p.blocks).leaveQ (qidPool l) p.seq

/-- The blocks of a packet that is discarded leave the receive pool. -/
def State.discardPkt (s : State) (l : Nat) (p : Packet) : State := (s.leavePool (some l) p.vc p.blocks).discardQ (qidPool l) p.seq

/-- A packet is dropped at its port, counted by its check. -/
def State.rejectPkt (s : State) (l : Nat) (p : Packet) (sel : Nat) : State := (s.dropPkt l sel).discardPkt l p

/-- A released packet is taken from those that wait at the port. -/
def State.takeReleased (s : State) (l : Nat) (p : Packet) : State :=
  s.onLink l fun k => { k with rx := { k.rx with released := k.rx.released.erase p } }

/-! ## Deduplication (R270, R271, R279) -/

/-- What the dedup entry of a source and class says of a SEQ. -/
inductive Heard where
  | fresh (e : Dedup)
  | duplicate
  | stale
deriving DecidableEq, Repr

/-- R270's table. Bit n of an entry's map stands for the value H - n. -/
def Dedup.look (e : Dedup) (q : Nat) : Heard :=
  let up := wrapSub 32 q e.h
  let down := wrapSub 32 e.h q
  if 1 ≤ up && up ≤ 2 ^ 31 - 1 then .fresh { e with h := q, map := if up < 1024 then (e.map * 2 ^ up + 1) % 2 ^ 1024 else 1 }
  else if 1023 < down then .stale
  else if e.map.testBit down then .duplicate
  else .fresh { e with map := setBit e.map down }

/-- Row of the dedup entry of a source and class. -/
def dedupKey (p : Packet) : Nat := p.src * 4 + p.tc

/-- The least recently used entry. -/
def State.oldDedup (s : State) : Option Nat :=
  (s.fabric.dedup.rows.foldl (fun (b : Option (Nat × Nat)) r => match b with
    | some v => if r.2.used < v.2 then some (r.1, r.2.used) else b
    | none => some (r.1, r.2.used)) none).map (·.1)

/-- An entry written with a new use stamp; a new source evicts the least recently used one of 65,536 (R271). -/
def State.putDedup (s : State) (l k : Nat) (e : Dedup) : State :=
  let n := s.fabric.useStamp + 1
  let full := !s.fabric.dedup.has k && decide (65536 ≤ s.fabric.dedup.size)
  let t := match full, s.oldDedup with | true, some v => s.fabric.dedup.del v | _, _ => s.fabric.dedup
  let s := { s with fabric := { s.fabric with dedup := t.put k { e with used := n }, useStamp := n } }
  if full then s.countLink l 0x2023 2 else s

/-- A packet for the device is looked up: none when it is dropped as a copy or as stale (R270). -/
def State.dedup (s : State) (l : Nat) (p : Packet) : Bool × State :=
  let seen := match s.fabric.dedup.find (dedupKey p) with | some e => e.look p.seq | none => .fresh { h := p.seq, map := 1 }
  let drop (sel : Nat) : State := (s.countLink l 0x2023 sel).discardPkt l p
  match seen with
  | .fresh e => (true, s.putDedup l (dedupKey p) e)
  | .duplicate => (false, drop 0)
  | .stale => (false, drop 1)

/-! ## Pigeonholes (R446 to R451) -/

/-- Reserved fields of Table 13.7 are 0, and OP, WORDS and LEN agree. -/
def pigeonFormed (p : Packet) : Bool :=
  let op := bitsOf p.addr 1 0
  let n := bitsOf p.addr 9 6
  bitsOf p.addr 47 16 == 0 && bitsOf p.addr 5 2 == 0 && op != 0 &&
    (if op == 1 then decide (1 ≤ n) && decide (n ≤ 8) && p.len == 1 else n == 0 && p.len == 0)

/-- The status word of Table 13.8: words of OUT returned or waiting, and the hole after the operation. -/
def Hole.word (h : Hole) (accepted : Bool) (out : Nat) : Nat :=
  b2n accepted * 2 ^ 14 + b2n h.inFull * 2 ^ 13 + b2n h.outFull * 2 ^ 12 + out * 2 ^ 8 + h.inWords.length * 16

/-- Words of a WRITE_IN's payload. -/
def pigeonWords (p : Packet) : List Nat := (upto (bitsOf p.addr 9 6)).map fun i => leNat (sliceBytes p.payload (8 * i) 8)

/-- The operation of a PIGEON on its hole: the hole after it, the status word, and the words returned. -/
def Hole.pigeon (h : Hole) (p : Packet) : Hole × Nat × List Nat :=
  let op := bitsOf p.addr 1 0
  if op == 1 then
    if h.inFull then (h, h.word false h.outWords.length, [])
    else
      let h := { h with inFull := true, inWords := pigeonWords p }
      (h, h.word true h.outWords.length, [])
  else if op == 2 then
    let ws := h.outWords
    let h := { h with outFull := false, outWords := [] }
    (h, h.word false ws.length, ws)
  else (h, h.word false h.outWords.length, [])

/-- A PIGEON that holds a tracker is answered (R447, R448, R451). -/
def State.pigeon (s : State) (t : Nat) (p : Packet) : State :=
  let s := s.countIk 0x1013 0
  let n := bitsOf p.addr 15 10
  let h := s.hole n
  if s.ik.gap.isSome || s.ik.bothLost then (s.countIk 0x1013 1).endReq t 0x00 (leBytes 8 0x8000) false
  else if !bitOf h.owner 31 || p.src != bitsOf h.owner 19 0 then s.endReq t 0x07 (leBytes 8 0) false
  else if !pigeonFormed p then s.endReq t 0x09 (leBytes 8 0) false
  else
    let (h, w, ws) := h.pigeon p
    (s.setHole n h).endReq t 0x00 (leBytes 8 w ++ (ws.map fun x => leBytes 8 x).flatten) false

/-! ## Requests and trackers (R74, R75, R284, R305) -/

/-- A SETMSG that holds a tracker is acted on where firmware serves, and waits where not (R428). A packet that completes no
message is only taken (assumption 21). -/
def State.takeSet (s : State) (t : Nat) (c : Claim) : State :=
  match c.msg with
  | none => s.freeTracker t
  | some m => if s.served then (s.onSetMsg c.p.src m).freeTracker t else s

/-- What a request does once it holds a tracker. -/
def State.begin (s : State) (t : Nat) (c : Claim) : State :=
  if c.p.opc == 0x30 then s.dictArrive (.inband c.p.src c.p.tag) (some t) c.p.payload
  else if c.p.opc == 0x31 then s.takeSet t c
  else if c.p.opc == 0x32 then s.pigeon t c.p
  else s.access t

/-- A doorbell is withheld while the pending-doorbell queue is full (R67). -/
def State.bellWaits (s : State) (c : Claim) : Bool := c.p.opc == 0x05 && s.bellsFull

/-- Stands for no guest in a request that is mapped to none (R284). -/
def noGid : Nat := 2 ^ 20

/-- The request that a claim becomes. -/
def Claim.req (c : Claim) : Req :=
  { link := c.link, p := c.p, gid := c.gid, gmEpoch := c.gmEpoch, msg := c.msg, stage := if decide (0x30 ≤ c.p.opc) then .mgmt else .walk 0 }

/-- A claim may take a tracker now. -/
def State.mayGrant (s : State) (c : Claim) : Bool := !s.bellWaits c && (s.trackerPool c.p.tc).isSome

/-- A claim's blocks leave the pool, unless a copy of the packet keeps them. -/
def State.unclaim (s : State) (c : Claim) : State := if c.pooled then s.unpool c.link c.p else s

/-- A claim takes a tracker and goes on. -/
def State.grant (s : State) (c : Claim) : Option State := (s.takeTracker c.req).map fun x => (x.2.unclaim c).begin x.1 c

/-- Claims that are the oldest of their link and VC and may take a tracker. -/
def State.ready75 (s : State) : List Claim :=
  (s.pool.claims.foldl (fun (b : List Claim) c => if b.any fun x => x.link == c.link && x.p.vc == c.p.vc then b else b ++ [c]) []).filter s.mayGrant

/-- A request arrives: it takes a tracker, or waits in its receive buffer behind those of its link and VC (R75). For the last free
tracker of its pool, or beside claims that may take one, it waits for the pointer's choice. -/
def State.claim (s : State) (c : Claim) : State :=
  let wait := { s with pool := { s.pool with claims := s.pool.claims ++ [c] } }
  if !s.mayGrant c || s.lastTracker c.p.tc || !s.ready75.isEmpty || s.pool.claims.any (fun x => x.link == c.link && x.p.vc == c.p.vc) then wait
  else match s.grant c with | some t => t | none => wait

/-- The ready claim of the Gatehouse that the rotating pointer favours, the oldest of that Gatehouse. -/
def favoured75 (cs : List Claim) (ptr : Nat) : Option Claim :=
  ((upto 16).map fun i => (ptr + i) % 16).findSome? fun g => cs.find? fun c => linkGH c.link == g

/-- Gatehouses, other than the winner's, whose claim finds no tracker left. -/
def State.losers75 (s : State) (cs : List Claim) (w : Claim) : Nat :=
  ((upto 16).filter fun g => g != linkGH w.link && cs.any fun c => linkGH c.link == g && (s.trackerPool c.p.tc).isNone).length

/-- TRACKER_GRANT (R75): a tracker is free and a waiting request takes it; the pointer moves past a winner of the last one. -/
def execTrackerGrant (s : State) : Host.Outcome State Fault Refusal :=
  live s fun s =>
    let cs := s.ready75
    match favoured75 cs s.pool.trkPtr with
    | none => s
    | some c =>
      let s0 := { s with pool := { s.pool with claims := s.pool.claims.erase c } }
      match s0.takeTracker c.req with
      | none => s
      | some (t, s1) =>
        let n := s1.losers75 cs c
        let s2 := if n == 0 then s1 else s1.countN (dieLG ((upto 6).find? (fun k => s.hasDie (dieLG k)) |>.getD 0)) 0 0x5012 2 n
        let s2 := if n == 0 then s2 else { s2 with pool := { s2.pool with trkPtr := (linkGH c.link + 1) % 16 } }
        (s2.unclaim c).begin t c

/-- The opcode is mapped to a guest (R305). -/
def mapped (opc : Nat) : Bool := (decide (1 ≤ opc) && decide (opc ≤ 5)) || isCoh opc

/-- An answer that the device matches to its request (R279). -/
def State.takeRsp (s : State) (l : Nat) (p : Packet) : State :=
  match s.fabric.own.find? fun o => o.dst == p.src && o.tc == p.tc && o.tag == p.tag with
  | none => s.rejectPkt l p 8
  | some o =>
    let s := State.unpool { s with fabric := { s.fabric with own := s.fabric.own.erase o } } l p
    match o.kind with
    | .migrateIn _ off => s.migrAnswer off p
    | .migrateOut _ off => s.migrAnswer off p
    | k => s.porterAnswer k p.status (p.payload.take (bitsOf p.xw 10 0)) p.poi

/-- INBAND_EN in force (R459, R465). -/
def State.inbandOn (s : State) : Bool := s.inForce Obj.inbandEn != 0

/-- A packet for this device that is no copy (R281, R284, R305). -/
def State.deliver (s : State) (l : Nat) (p : Packet) (m : Option SetMsg) : State :=
  if mapped p.opc then
    match s.gmapLook p.src p.pkey with
    | none => s.rejectPkt l p 6
    | some g => s.claim { link := l, p := p, gid := g, gmEpoch := s.fabric.gmapEpoch }
  else if p.opc == 0x06 then s.rejectPkt l p 8
  else if p.opc == 0x07 then ((s.countLink l 0x2024 2).ccDecrease p.src p.tc).unpool l p
  else if p.opc == 0x08 then s.takeRsp l p
  else if p.opc == 0x30 then
    if s.inbandOn then s.claim { link := l, p := p, gid := noGid } else (s.dictDropped).discardPkt l p
  else if p.opc == 0x31 then s.claim { link := l, p := p, gid := noGid, msg := m }
  else if p.opc == 0x32 then s.claim { link := l, p := p, gid := noGid }
  else (s.snoopAnswer l p).unpool l p

/-! ## Transit (R283 checks 3 to 5, R289, R294) -/

/-- Check 3 of R283 fails. -/
def State.hopsOut (s : State) (p : Packet) : Bool := decide (s.reg Obj.hopLimit ≤ p.hops)

/-- A packet for another endpoint is routed and queued, or dropped. -/
def State.forward (s : State) (l : Nat) (p : Packet) : State :=
  if s.hopsOut p then s.rejectPkt l p 3
  else match s.route p (some l) with
    | none => s.rejectPkt l p 4
    | some (out, q) =>
      if s.keyOk out q then s.enqueue { link := out, p := { q with hops := p.hops + 1 }, inLink := some l, inVc := p.vc }
      else s.rejectPkt l p 5

/-! ## Broadcasts (R296, R297) -/

/-- Copies of a received broadcast that this device sends: those of step 2 for a broadcast not seen before, and that of step 3. -/
def State.copies (s : State) (l : Nat) (p : Packet) : List (Nat × Packet) :=
  let mine := p.src == s.epid
  let seen := s.bcastOf p
  let fresh := !mine && (match seen with | some b => !b.delivered | none => true)
  let done := match seen with | some b => if p.turned then b.fwdTurned else b.fwd | none => false
  let on := if done || (mine && !p.turned) then [] else s.onwardCopy p l
  on ++ (if fresh then s.freshCopies p (some l) else [])

/-- The broadcast is new here, and not this device's own. -/
def State.newBcast (s : State) (p : Packet) : Bool :=
  p.src != s.epid && (match s.bcastOf p with | some b => !b.delivered | none => true)

/-- The filter records what a received copy led to. -/
def State.noteBcast (s : State) (l : Nat) (p : Packet) : State :=
  let b := (s.bcastOf p).getD { src := p.src, seq := p.seq }
  let ring := s.ringPair (l % 16)
  s.setBcast { b with delivered := true, fwd := b.fwd || (ring && !p.turned), fwdTurned := b.fwdTurned || (ring && p.turned) }

/-- Copies leave, the first of them keeping the blocks that the packet holds where `held`. -/
def State.sendCopies (s : State) (l : Nat) (p : Packet) (held : Bool) : List (Nat × Packet) → State
  | [] => s
  | (out, q) :: r =>
    if s.keyOk out q then
      (s.enqueue { link := out, p := { q with hops := p.hops + 1 }, inLink := if held then some l else none, inVc := p.vc }).sendCopies l p false r
    else ((s.dropPkt l 5)).sendCopies l p held r

/-- A broadcast that passed the checks: its local copy and those that go on (R296). -/
def State.bcast (s : State) (l : Nat) (p : Packet) (m : Option SetMsg) : State :=
  let new := s.newBcast p
  let out := s.copies l p
  if !new && out.isEmpty then s.rejectPkt l p 11 else
  let hops := !out.isEmpty && s.hopsOut p
  let s := s.noteBcast l p
  let s := if hops then s.dropPkt l 3 else s
  let out := if hops then [] else out.filter fun x => s.keyOk x.1 x.2
  let s := s.sendCopies l p true out
  if new then s.claim { link := l, p := p, gid := noGid, msg := m, pooled := out.isEmpty }
  else if out.isEmpty then s.unpool l p else s

/-! ## A packet at a port -/

/-- A packet that has been taken from the released ones of its port: the checks of R283 in their order, and what follows. -/
def State.port (s : State) (l : Nat) (p : Packet) (m : Option SetMsg) : State :=
  if !s.formOk p then s.rejectPkt l p 1
  else if !s.keyOk l p then s.rejectPkt l p 2
  else if p.dst == 0xFFFFF then s.bcast l p m
  else if p.dst != s.epid then s.forward l p
  else
    let (fresh, s) := s.dedup l p
    if fresh then (s.takeMarks l p).deliver l p m else s

/-- A packet is present at a port: it was released there by its group, or its link carries packets and it arrives now. An Unused pair
carries none (R286). -/
def State.atPort (s : State) (l : Nat) (p : Packet) : Option State :=
  if s.pairMode (l % 16) == 0 then none
  else if (s.link l).rx.released.contains p then some s
  else if (s.link l).established then some (s.arrive l [p])
  else none

/-- The packet waits in its receive pool while a Night exit runs: only transit flows (R495 step 4). -/
def State.waits495 (s : State) (p : Packet) : Bool := s.power.st == 3 && (p.dst == s.epid || p.dst == 0xFFFFF)

/-- A packet whose header has arrived (R283). During Night entry its arrival is a wake, which a management request sees after it has
been answered BUSY (R492 step 1, R493). -/
def State.receive (s : State) (l : Nat) (p : Packet) (m : Option SetMsg) : State :=
  match s.atPort l p with
  | none => s
  | some s =>
    if s.waits495 p then s
    else if s.power.st == 1 then
      if p.opc == 0x30 && p.dst == s.epid then ((s.takeReleased l p).port l p m).wake 0x00
      else ((s.wake 0x00).takeReleased l p).port l p m
    else (s.takeReleased l p).port l p m

/-- A packet with an opcode, addressed to this device. -/
def State.mine (s : State) (p : Packet) (opc : Nat) : Packet := { p with dst := s.epid, opc := opc }

/-- READ (R280). -/
def execRead (link : Fin 32) (p : Packet) (s : State) : Host.Outcome State Fault Refusal := live s fun s => s.receive link.val (s.mine p 0x01) none

/-- WRITE (R280). -/
def execWrite (link : Fin 32) (p : Packet) (s : State) : Host.Outcome State Fault Refusal := live s fun s => s.receive link.val (s.mine p 0x02) none

/-- WRITE_P (R281). -/
def execWriteP (link : Fin 32) (p : Packet) (s : State) : Host.Outcome State Fault Refusal := live s fun s => s.receive link.val (s.mine p 0x03) none

/-- ATOMIC as a packet (R280). -/
def execAtomicPacket (link : Fin 32) (p : Packet) (s : State) : Host.Outcome State Fault Refusal :=
  live s fun s => s.receive link.val (s.mine p 0x04) none

/-- DOORBELL (R62, R63). -/
def execDoorbell (link : Fin 32) (p : Packet) (s : State) : Host.Outcome State Fault Refusal := live s fun s => s.receive link.val (s.mine p 0x05) none

/-- NOTIFY (R281). -/
def execNotifyReceived (link : Fin 32) (p : Packet) (s : State) : Host.Outcome State Fault Refusal :=
  live s fun s => s.receive link.val (s.mine p 0x06) none

/-- CNP (R310, R311). -/
def execCnp (link : Fin 32) (p : Packet) (s : State) : Host.Outcome State Fault Refusal := live s fun s => s.receive link.val (s.mine p 0x07) none

/-- RSP (R279, R281). -/
def execRsp (link : Fin 32) (p : Packet) (s : State) : Host.Outcome State Fault Refusal := live s fun s => s.receive link.val (s.mine p 0x08) none

/-- MGMT (R459). -/
def execMgmt (link : Fin 32) (p : Packet) (s : State) : Host.Outcome State Fault Refusal := live s fun s => s.receive link.val (s.mine p 0x30) none

/-- PACKET_HEADER (R283): any packet as it came. -/
def execPacketHeader (link : Fin 32) (p : Packet) (s : State) : Host.Outcome State Fault Refusal := live s fun s => s.receive link.val p none

/-- RD_S (R224). -/
def execRdS (link : Fin 32) (p : Packet) (s : State) : Host.Outcome State Fault Refusal := live s fun s => s.receive link.val (s.mine p 0x10) none

/-- RD_X (R224). -/
def execRdX (link : Fin 32) (p : Packet) (s : State) : Host.Outcome State Fault Refusal := live s fun s => s.receive link.val (s.mine p 0x11) none

/-- UPG (R224). -/
def execUpg (link : Fin 32) (p : Packet) (s : State) : Host.Outcome State Fault Refusal := live s fun s => s.receive link.val (s.mine p 0x12) none

/-- WB (R224). -/
def execWb (link : Fin 32) (p : Packet) (s : State) : Host.Outcome State Fault Refusal := live s fun s => s.receive link.val (s.mine p 0x13) none

/-- EVC (R224). -/
def execEvc (link : Fin 32) (p : Packet) (s : State) : Host.Outcome State Fault Refusal := live s fun s => s.receive link.val (s.mine p 0x14) none

/-- SNP_ACK (R217, R224). -/
def execSnpAck (link : Fin 32) (p : Packet) (s : State) : Host.Outcome State Fault Refusal := live s fun s => s.receive link.val (s.mine p 0x21) none

/-- SNP_DATA (R217, R224). -/
def execSnpData (link : Fin 32) (p : Packet) (s : State) : Host.Outcome State Fault Refusal := live s fun s => s.receive link.val (s.mine p 0x22) none

/-- SNP_WBP (R217, R224). -/
def execSnpWbp (link : Fin 32) (p : Packet) (s : State) : Host.Outcome State Fault Refusal := live s fun s => s.receive link.val (s.mine p 0x23) none

/-- COHERENCE_UNMATCHED (R217, R281): a coherence packet that only a caching endpoint awaits, or an answer with no snoop. -/
def execCoherenceUnmatched (link : Fin 32) (p : Packet) (s : State) : Host.Outcome State Fault Refusal :=
  live s fun s => if decide (0x15 ≤ p.opc) && decide (p.opc ≤ 0x23) then s.receive link.val (s.mine p p.opc) none else s

/-- A PIGEON packet for this device with an operation (Table 13.7). -/
def State.pigeonPkt (s : State) (p : Packet) (op : Nat) : Packet := { s.mine p 0x32 with addr := p.addr / 4 * 4 + op }

/-- WRITE_IN (R446, R447). -/
def execWriteIn (link : Fin 32) (p : Packet) (s : State) : Host.Outcome State Fault Refusal := live s fun s => s.receive link.val (s.pigeonPkt p 1) none

/-- READ_OUT (R446, R447). -/
def execReadOut (link : Fin 32) (p : Packet) (s : State) : Host.Outcome State Fault Refusal := live s fun s => s.receive link.val (s.pigeonPkt p 2) none

/-- POLL (R447). -/
def execPoll (link : Fin 32) (p : Packet) (s : State) : Host.Outcome State Fault Refusal := live s fun s => s.receive link.val (s.pigeonPkt p 3) none

/-- A SETMSG packet for this device, or broadcast, that completes a message. -/
def State.setPkt (s : State) (p : Packet) (m : SetMsg) : Packet :=
  { p with dst := if p.dst == 0xFFFFF then 0xFFFFF else s.epid, opc := 0x31, xw := setKind m }

/-- ANNOUNCE (R24, R28, R29). -/
def execAnnounce (link : Fin 32) (p : Packet) (setId state : Nat) (nonce : Bytes) (s : State) : Host.Outcome State Fault Refusal :=
  live s fun s =>
    let m : SetMsg := .announce setId state nonce
    s.receive link.val (s.setPkt p m) (some m)

/-- JOIN (R25 to R27). -/
def execJoin (link : Fin 32) (p : Packet) (idReq : Nat) (chain sig : Bytes) (s : State) : Host.Outcome State Fault Refusal :=
  live s fun s =>
    let m : SetMsg := .join idReq chain sig
    s.receive link.val (s.setPkt p m) (some m)

/-- ADMIT (R25). -/
def execAdmitMsg (link : Fin 32) (p : Packet) (devid : Nat) (s : State) : Host.Outcome State Fault Refusal :=
  live s fun s =>
    let m : SetMsg := .admission devid
    s.receive link.val (s.setPkt p m) (some m)

/-- REFUSE (R25, R29). -/
def execRefuse (link : Fin 32) (p : Packet) (setId state : Nat) (s : State) : Host.Outcome State Fault Refusal :=
  live s fun s =>
    let m : SetMsg := .refuse setId state
    s.receive link.val (s.setPkt p m) (some m)

/-- DISTRIBUTE (R22, R24, R27, R401). -/
def execDistribute (link : Fin 32) (p : Packet) (members : List (Nat × Nat)) (guests : List GuestDef) (erase : List Nat) (s : State) :
    Host.Outcome State Fault Refusal :=
  live s fun s =>
    let m : SetMsg := .distribute members guests erase
    s.receive link.val (s.setPkt p m) (some m)

end Sys2Proof.Machine
end

