-- ==== Sys2Proof/Machine/Dispatch.lean ====
section
/-! DEFINITION. The effect of each command on everything but the queue: one arm per row of spec/opcode_table.json. -/

namespace Sys2Proof.Machine

open Sys2Proof

/-- The command's effect on the state, the queue apart. -/
def exec (i : Instr) (s : State) : Host.Outcome State Fault Refusal :=
  match i with
  | .powerOn => Sys2Proof.Machine.execPowerOn s
  | .resetNFall => Sys2Proof.Machine.execResetNFall s
  | .pwrGoodFall => Sys2Proof.Machine.execPwrGoodFall s
  | .resetRelease early late present => Sys2Proof.Machine.execResetRelease early late present s
  | .secureBoot ik0 ik1 dimms => Sys2Proof.Machine.execSecureBoot ik0 ik1 dimms s
  | .coldReset => Sys2Proof.Machine.execColdReset s
  | .coldResetDelayExpiry => Sys2Proof.Machine.execColdResetDelayExpiry s
  | .tamper cause => Sys2Proof.Machine.execTamper cause s
  | .define => Sys2Proof.Machine.execDefine s
  | .pin => Sys2Proof.Machine.execPin s
  | .unpin => Sys2Proof.Machine.execUnpin s
  | .windowSet => Sys2Proof.Machine.execWindowSet s
  | .windowClear => Sys2Proof.Machine.execWindowClear s
  | .guestQuery => Sys2Proof.Machine.execGuestQuery s
  | .setPkey => Sys2Proof.Machine.execSetPkey s
  | .guestCmdApplied => Sys2Proof.Machine.execGuestCmdApplied s
  | .guestSwapDone gid => Sys2Proof.Machine.execGuestSwapDone gid s
  | .guestSwapHoldExpiry gid => Sys2Proof.Machine.execGuestSwapHoldExpiry gid s
  | .swapVictimEligible => Sys2Proof.Machine.execSwapVictimEligible s
  | .announce link p setId state nonce => Sys2Proof.Machine.execAnnounce link p setId state nonce s
  | .announceSend => Sys2Proof.Machine.execAnnounceSend s
  | .join link p idReq chain sig => Sys2Proof.Machine.execJoin link p idReq chain sig s
  | .admitMsg link p devid => Sys2Proof.Machine.execAdmitMsg link p devid s
  | .refuse link p setId state => Sys2Proof.Machine.execRefuse link p setId state s
  | .distribute link p members guests erase => Sys2Proof.Machine.execDistribute link p members guests erase s
  | .formTimeoutExpiry => Sys2Proof.Machine.execFormTimeoutExpiry s
  | .read link p => Sys2Proof.Machine.execRead link p s
  | .write link p => Sys2Proof.Machine.execWrite link p s
  | .writeP link p => Sys2Proof.Machine.execWriteP link p s
  | .atomicPacket link p => Sys2Proof.Machine.execAtomicPacket link p s
  | .doorbell link p => Sys2Proof.Machine.execDoorbell link p s
  | .notifyReceived link p => Sys2Proof.Machine.execNotifyReceived link p s
  | .cnp link p => Sys2Proof.Machine.execCnp link p s
  | .rsp link p => Sys2Proof.Machine.execRsp link p s
  | .mgmt link p => Sys2Proof.Machine.execMgmt link p s
  | .packetHeader link p => Sys2Proof.Machine.execPacketHeader link p s
  | .broadcastFilterExpiry src seq => Sys2Proof.Machine.execBroadcastFilterExpiry src seq s
  | .zeroFillDone gid pva => Sys2Proof.Machine.execZeroFillDone gid pva s
  | .lrcFill line => Sys2Proof.Machine.execLrcFill line s
  | .publish stream seq => Sys2Proof.Machine.execPublish stream seq s
  | .publishDrainDone stream seq => Sys2Proof.Machine.execPublishDrainDone stream seq s
  | .lrcSweepDone stream seq => Sys2Proof.Machine.execLrcSweepDone stream seq s
  | .streamCreate => Sys2Proof.Machine.execStreamCreate s
  | .streamDestroy => Sys2Proof.Machine.execStreamDestroy s
  | .streamReset => Sys2Proof.Machine.execStreamReset s
  | .streamQuery => Sys2Proof.Machine.execStreamQuery s
  | .streamSwapDone stream => Sys2Proof.Machine.execStreamSwapDone stream s
  | .waybillAccept stream => Sys2Proof.Machine.execWaybillAccept stream s
  | .descriptorPrefetch stream => Sys2Proof.Machine.execDescriptorPrefetch stream s
  | .waybillStart stream seq => Sys2Proof.Machine.execWaybillStart stream seq s
  | .waitTimeoutExpiry stream seq => Sys2Proof.Machine.execWaitTimeoutExpiry stream seq s
  | .tallyInc stream seq => Sys2Proof.Machine.execTallyInc stream seq s
  | .tallySet stream seq => Sys2Proof.Machine.execTallySet stream seq s
  | .tallyArm stream seq => Sys2Proof.Machine.execTallyArm stream seq s
  | .tallyRead stream seq => Sys2Proof.Machine.execTallyRead stream seq s
  | .drain stream seq => Sys2Proof.Machine.execDrain stream seq s
  | .nop stream seq => Sys2Proof.Machine.execNop stream seq s
  | .cancel stream seq => Sys2Proof.Machine.execCancel stream seq s
  | .tallyMirrorWrite tally => Sys2Proof.Machine.execTallyMirrorWrite tally s
  | .chunkDispatch stream seq => Sys2Proof.Machine.execChunkDispatch stream seq s
  | .clusterClearDone cluster => Sys2Proof.Machine.execClusterClearDone cluster s
  | .granuleCommit stream seq g cluster => Sys2Proof.Machine.execGranuleCommit stream seq g cluster s
  | .clusterLost cluster => Sys2Proof.Machine.execClusterLost cluster s
  | .chunkRedispatch stream seq chunk => Sys2Proof.Machine.execChunkRedispatch stream seq chunk s
  | .porterDieLost die => Sys2Proof.Machine.execPorterDieLost die s
  | .waybillComplete stream seq => Sys2Proof.Machine.execWaybillComplete stream seq s
  | .trackerGrant => Sys2Proof.Machine.execTrackerGrant s
  | .tallyAlloc => Sys2Proof.Machine.execTallyAlloc s
  | .tallyFree => Sys2Proof.Machine.execTallyFree s
  | .tallyCmdArm => Sys2Proof.Machine.execTallyCmdArm s
  | .tallyCmdSet => Sys2Proof.Machine.execTallyCmdSet s
  | .tallyConfig => Sys2Proof.Machine.execTallyConfig s
  | .tallyQuery => Sys2Proof.Machine.execTallyQuery s
  | .trkHighWaterWrite v => Sys2Proof.Machine.execTrkHighWaterWrite v s
  | .arithFlagsSeenWrite v => Sys2Proof.Machine.execArithFlagsSeenWrite v s
  | .copy stream seq chunk => Sys2Proof.Machine.execCopy stream seq chunk s
  | .convert stream seq chunk => Sys2Proof.Machine.execConvert stream seq chunk s
  | .fill stream seq chunk => Sys2Proof.Machine.execFill stream seq chunk s
  | .eltwise stream seq chunk => Sys2Proof.Machine.execEltwise stream seq chunk s
  | .deliver stream seq chunk => Sys2Proof.Machine.execDeliver stream seq chunk s
  | .gather stream seq chunk => Sys2Proof.Machine.execGather stream seq chunk s
  | .scatter stream seq chunk => Sys2Proof.Machine.execScatter stream seq chunk s
  | .atomic stream seq chunk => Sys2Proof.Machine.execAtomic stream seq chunk s
  | .cas stream seq chunk => Sys2Proof.Machine.execCas stream seq chunk s
  | .remoteTimeoutExpiry dst tc tag => Sys2Proof.Machine.execRemoteTimeoutExpiry dst tc tag s
  | .redOpen stream seq chunk => Sys2Proof.Machine.execRedOpen stream seq chunk s
  | .stagingAlloc stream seq => Sys2Proof.Machine.execStagingAlloc stream seq s
  | .redOpenTimeout stream seq => Sys2Proof.Machine.execRedOpenTimeout stream seq s
  | .redContrib stream seq chunk => Sys2Proof.Machine.execRedContrib stream seq chunk s
  | .contribTurn stream seq => Sys2Proof.Machine.execContribTurn stream seq s
  | .stagedPrefetch stream seq => Sys2Proof.Machine.execStagedPrefetch stream seq s
  | .granuleLockGrant unit => Sys2Proof.Machine.execGranuleLockGrant unit s
  | .redClose stream seq => Sys2Proof.Machine.execRedClose stream seq s
  | .redContextComplete rctx => Sys2Proof.Machine.execRedContextComplete rctx s
  | .reduce stream seq chunk => Sys2Proof.Machine.execReduce stream seq chunk s
  | .reshard stream seq chunk => Sys2Proof.Machine.execReshard stream seq chunk s
  | .mvb stream seq chunk => Sys2Proof.Machine.execMvb stream seq chunk s
  | .moeffn stream seq chunk => Sys2Proof.Machine.execMoeffn stream seq chunk s
  | .moeffnExchangeDone stream seq => Sys2Proof.Machine.execMoeffnExchangeDone stream seq s
  | .layoutRegister => Sys2Proof.Machine.execLayoutRegister s
  | .layoutRemove => Sys2Proof.Machine.execLayoutRemove s
  | .layoutQuery => Sys2Proof.Machine.execLayoutQuery s
  | .commit => Sys2Proof.Machine.execCommit s
  | .commitPoint => Sys2Proof.Machine.execCommitPoint s
  | .commitDrainDone => Sys2Proof.Machine.execCommitDrainDone s
  | .transQuery => Sys2Proof.Machine.execTransQuery s
  | .translationWalkDone trk => Sys2Proof.Machine.execTranslationWalkDone trk s
  | .faultHoldExpiry h => Sys2Proof.Machine.execFaultHoldExpiry h s
  | .faultQueueRecord => Sys2Proof.Machine.execFaultQueueRecord s
  | .fqHeadWrite v => Sys2Proof.Machine.execFqHeadWrite v s
  | .fqConfigWrite which v => Sys2Proof.Machine.execFqConfigWrite which v s
  | .migrateInDone => Sys2Proof.Machine.execMigrateInDone s
  | .migrateOutDone => Sys2Proof.Machine.execMigrateOutDone s
  | .migrateTimeoutExpiry => Sys2Proof.Machine.execMigrateTimeoutExpiry s
  | .ledgerDieLost die => Sys2Proof.Machine.execLedgerDieLost die s
  | .rdS link p => Sys2Proof.Machine.execRdS link p s
  | .rdX link p => Sys2Proof.Machine.execRdX link p s
  | .upg link p => Sys2Proof.Machine.execUpg link p s
  | .wb link p => Sys2Proof.Machine.execWb link p s
  | .evc link p => Sys2Proof.Machine.execEvc link p s
  | .snpAck link p => Sys2Proof.Machine.execSnpAck link p s
  | .snpData link p => Sys2Proof.Machine.execSnpData link p s
  | .snpWbp link p => Sys2Proof.Machine.execSnpWbp link p s
  | .coherenceUnmatched link p => Sys2Proof.Machine.execCoherenceUnmatched link p s
  | .hearthLineDequeue line => Sys2Proof.Machine.execHearthLineDequeue line s
  | .backInvalidation line => Sys2Proof.Machine.execBackInvalidation line s
  | .hearthSnoopTimeout line ceid => Sys2Proof.Machine.execHearthSnoopTimeout line ceid s
  | .fenceWalkDone ceid => Sys2Proof.Machine.execFenceWalkDone ceid s
  | .registerCe => Sys2Proof.Machine.execRegisterCe s
  | .removeCe => Sys2Proof.Machine.execRemoveCe s
  | .resetCe => Sys2Proof.Machine.execResetCe s
  | .queryCe => Sys2Proof.Machine.execQueryCe s
  | .flush => Sys2Proof.Machine.execFlush s
  | .queryLine => Sys2Proof.Machine.execQueryLine s
  | .hearthRecallDone line => Sys2Proof.Machine.execHearthRecallDone line s
  | .flitReceive link f word ends next => Sys2Proof.Machine.execFlitReceive link f word ends next s
  | .retryReq link h fseq => Sys2Proof.Machine.execRetryReq link h fseq s
  | .null link h => Sys2Proof.Machine.execNull link h s
  | .replayTimeout link => Sys2Proof.Machine.execReplayTimeout link s
  | .laneFailing link lane => Sys2Proof.Machine.execLaneFailing link lane s
  | .spareUnusable link => Sys2Proof.Machine.execSpareUnusable link s
  | .laneMap link h lane map => Sys2Proof.Machine.execLaneMap link h lane map s
  | .laneMapAck link h lane map => Sys2Proof.Machine.execLaneMapAck link h lane map s
  | .laneMapResend link => Sys2Proof.Machine.execLaneMapResend link s
  | .laneSparingDone link => Sys2Proof.Machine.execLaneSparingDone link s
  | .creditQuietExpiry link vc => Sys2Proof.Machine.execCreditQuietExpiry link vc s
  | .creditSyncRequest link => Sys2Proof.Machine.execCreditSyncRequest link s
  | .creditSyncReq link h => Sys2Proof.Machine.execCreditSyncReq link h s
  | .creditSyncRsp link h blocks => Sys2Proof.Machine.execCreditSyncRsp link h blocks s
  | .creditSyncTimeout link => Sys2Proof.Machine.execCreditSyncTimeout link s
  | .linkDown link h cause => Sys2Proof.Machine.execLinkDown link h cause s
  | .standbyReq link h => Sys2Proof.Machine.execStandbyReq link h s
  | .standbyAck link h => Sys2Proof.Machine.execStandbyAck link h s
  | .standbyAckTimeout link => Sys2Proof.Machine.execStandbyAckTimeout link s
  | .linkStandbyIdleExpiry link => Sys2Proof.Machine.execLinkStandbyIdleExpiry link s
  | .linkWake link => Sys2Proof.Machine.execLinkWake link s
  | .hello link version audit narrow => Sys2Proof.Machine.execHello link version audit narrow s
  | .cert link chain => Sys2Proof.Machine.execCert link chain s
  | .share link pub sig => Sys2Proof.Machine.execShare link pub sig s
  | .finished link mac => Sys2Proof.Machine.execFinished link mac s
  | .keyxRetransmit link => Sys2Proof.Machine.execKeyxRetransmit link s
  | .keyxTimeout link => Sys2Proof.Machine.execKeyxTimeout link s
  | .peerDetected link => Sys2Proof.Machine.execPeerDetected link s
  | .trainingDone link => Sys2Proof.Machine.execTrainingDone link s
  | .trainingFailed link => Sys2Proof.Machine.execTrainingFailed link s
  | .linkDeadTimeout link => Sys2Proof.Machine.execLinkDeadTimeout link s
  | .linkRetry link => Sys2Proof.Machine.execLinkRetry link s
  | .gatehouseDieLost gh => Sys2Proof.Machine.execGatehouseDieLost gh s
  | .dedupExpiry epid tc => Sys2Proof.Machine.execDedupExpiry epid tc s
  | .retrain => Sys2Proof.Machine.execRetrain s
  | .disable => Sys2Proof.Machine.execDisable s
  | .enable => Sys2Proof.Machine.execEnable s
  | .linkQuery => Sys2Proof.Machine.execLinkQuery s
  | .dedupClear => Sys2Proof.Machine.execDedupClear s
  | .cnpSend src tc => Sys2Proof.Machine.execCnpSend src tc s
  | .ccRateIncrease epid tc => Sys2Proof.Machine.execCcRateIncrease epid tc s
  | .egressSelect link => Sys2Proof.Machine.execEgressSelect link s
  | .expressWindowOpen link => Sys2Proof.Machine.execExpressWindowOpen link s
  | .expressWindowClose link => Sys2Proof.Machine.execExpressWindowClose link s
  | .setBlock => Sys2Proof.Machine.execSetBlock s
  | .setExact => Sys2Proof.Machine.execSetExact s
  | .clearExact => Sys2Proof.Machine.execClearExact s
  | .pairOut => Sys2Proof.Machine.execPairOut s
  | .pairIn => Sys2Proof.Machine.execPairIn s
  | .routeQuery => Sys2Proof.Machine.execRouteQuery s
  | .epochDrainDone route => Sys2Proof.Machine.execEpochDrainDone route s
  | .gmapSet => Sys2Proof.Machine.execGmapSet s
  | .gmapClear => Sys2Proof.Machine.execGmapClear s
  | .gmapQuery => Sys2Proof.Machine.execGmapQuery s
  | .pkeyAdd => Sys2Proof.Machine.execPkeyAdd s
  | .pkeyRemove => Sys2Proof.Machine.execPkeyRemove s
  | .pkeyQuery => Sys2Proof.Machine.execPkeyQuery s
  | .queueSet => Sys2Proof.Machine.execQueueSet s
  | .queueRemove => Sys2Proof.Machine.execQueueRemove s
  | .queueQuery => Sys2Proof.Machine.execQueueQuery s
  | .columnCommandIssue ch sub ready retire => Sys2Proof.Machine.execColumnCommandIssue ch sub ready retire s
  | .dramReadReturn ch line e1 e2 => Sys2Proof.Machine.execDramReadReturn ch line e1 e2 s
  | .wcbDrain ch line => Sys2Proof.Machine.execWcbDrain ch line s
  | .pageIdleExpiry ch sub bank => Sys2Proof.Machine.execPageIdleExpiry ch sub bank s
  | .refresh ch sub rank ba due => Sys2Proof.Machine.execRefresh ch sub rank ba due s
  | .dimmTempPoll ch t => Sys2Proof.Machine.execDimmTempPoll ch t s
  | .chIdleSrExpiry ch => Sys2Proof.Machine.execChIdleSrExpiry ch s
  | .selfRefreshExit ch => Sys2Proof.Machine.execSelfRefreshExit ch s
  | .chIdlePdExpiry ch => Sys2Proof.Machine.execChIdlePdExpiry ch s
  | .alertNAssert ch => Sys2Proof.Machine.execAlertNAssert ch s
  | .alertRelease ch => Sys2Proof.Machine.execAlertRelease ch s
  | .channelTrainingDone ch ok lanes osc => Sys2Proof.Machine.execChannelTrainingDone ch ok lanes osc s
  | .channelFillDone ch => Sys2Proof.Machine.execChannelFillDone ch s
  | .dqsOscMeasure ch rank change => Sys2Proof.Machine.execDqsOscMeasure ch rank change s
  | .readCentreRecheck ch lane off => Sys2Proof.Machine.execReadCentreRecheck ch lane off s
  | .retrainStart ch => Sys2Proof.Machine.execRetrainStart ch s
  | .retrainDone ch lanes osc => Sys2Proof.Machine.execRetrainDone ch lanes osc s
  | .trainRetrain => Sys2Proof.Machine.execTrainRetrain s
  | .trainFull => Sys2Proof.Machine.execTrainFull s
  | .sbArbLost bus => Sys2Proof.Machine.execSbArbLost bus s
  | .sbBackoffExpiry bus answer => Sys2Proof.Machine.execSbBackoffExpiry bus answer s
  | .sbBusRecovery bus => Sys2Proof.Machine.execSbBusRecovery bus s
  | .sbRead lost answer => Sys2Proof.Machine.execSbRead lost answer s
  | .sbWrite lost acked => Sys2Proof.Machine.execSbWrite lost acked s
  | .scrubLine ch => Sys2Proof.Machine.execScrubLine ch s
  | .parityDelta ch m line => Sys2Proof.Machine.execParityDelta ch m line s
  | .parityAckTimeout ch m line => Sys2Proof.Machine.execParityAckTimeout ch m line s
  | .staleStripeRebuild group stripe => Sys2Proof.Machine.execStaleStripeRebuild group stripe s
  | .channelFailed ch => Sys2Proof.Machine.execChannelFailed ch s
  | .rebuildStripe group => Sys2Proof.Machine.execRebuildStripe group s
  | .rowRepair ch left => Sys2Proof.Machine.execRowRepair ch left s
  | .writeRaw => Sys2Proof.Machine.execWriteRaw s
  | .readRaw => Sys2Proof.Machine.execReadRaw s
  | .readDecoded => Sys2Proof.Machine.execReadDecoded s
  | .ceLogClear => Sys2Proof.Machine.execCeLogClear s
  | .ppr => Sys2Proof.Machine.execPpr s
  | .evacuate => Sys2Proof.Machine.execEvacuate s
  | .entropyHealthFail => Sys2Proof.Machine.execEntropyHealthFail s
  | .entropyRetest ok => Sys2Proof.Machine.execEntropyRetest ok s
  | .drbgReseed => Sys2Proof.Machine.execDrbgReseed s
  | .keyCacheFill die gid => Sys2Proof.Machine.execKeyCacheFill die gid s
  | .teardown => Sys2Proof.Machine.execTeardown s
  | .teardownDrainDone => Sys2Proof.Machine.execTeardownDrainDone s
  | .queryKey => Sys2Proof.Machine.execQueryKey s
  | .writeChunk => Sys2Proof.Machine.execWriteChunk s
  | .verify => Sys2Proof.Machine.execVerify s
  | .activate => Sys2Proof.Machine.execActivate s
  | .fwConfirm => Sys2Proof.Machine.execFwConfirm s
  | .commitSvn => Sys2Proof.Machine.execCommitSvn s
  | .attest nonce => Sys2Proof.Machine.execAttest nonce s
  | .challenge => Sys2Proof.Machine.execChallenge s
  | .unlock => Sys2Proof.Machine.execUnlock s
  | .debugNonceExpiry => Sys2Proof.Machine.execDebugNonceExpiry s
  | .extest => Sys2Proof.Machine.execExtest s
  | .tapReset => Sys2Proof.Machine.execTapReset s
  | .heartbeat => Sys2Proof.Machine.execHeartbeat s
  | .heartbeatTimeout => Sys2Proof.Machine.execHeartbeatTimeout s
  | .watchdogExpiry => Sys2Proof.Machine.execWatchdogExpiry s
  | .innkeeperFailure die cause => Sys2Proof.Machine.execInnkeeperFailure die cause s
  | .takeoverDone => Sys2Proof.Machine.execTakeoverDone s
  | .checkpoint => Sys2Proof.Machine.execCheckpoint s
  | .checkpointComplete => Sys2Proof.Machine.execCheckpointComplete s
  | .checkpointLate => Sys2Proof.Machine.execCheckpointLate s
  | .ikSelfTestRun die pass => Sys2Proof.Machine.execIkSelfTestRun die pass s
  | .ikRecoveryTest die pass => Sys2Proof.Machine.execIkRecoveryTest die pass s
  | .switch => Sys2Proof.Machine.execSwitch s
  | .retest => Sys2Proof.Machine.execRetest s
  | .holdOut => Sys2Proof.Machine.execHoldOut s
  | .release => Sys2Proof.Machine.execRelease s
  | .irqEdge src => Sys2Proof.Machine.execIrqEdge src s
  | .irqDeliver reenabled => Sys2Proof.Machine.execIrqDeliver reenabled s
  | .irqQuery => Sys2Proof.Machine.execIrqQuery s
  | .setPending => Sys2Proof.Machine.execSetPending s
  | .clearPending => Sys2Proof.Machine.execClearPending s
  | .clearCount => Sys2Proof.Machine.execClearCount s
  | .irqAlertStatusWrite v => Sys2Proof.Machine.execIrqAlertStatusWrite v s
  | .irqOverrunWrite v => Sys2Proof.Machine.execIrqOverrunWrite v s
  | .writeIn link p => Sys2Proof.Machine.execWriteIn link p s
  | .readOut link p => Sys2Proof.Machine.execReadOut link p s
  | .poll link p => Sys2Proof.Machine.execPoll link p s
  | .readIn => Sys2Proof.Machine.execReadIn s
  | .writeOut => Sys2Proof.Machine.execWriteOut s
  | .pigeonOwnerWrite hole v => Sys2Proof.Machine.execPigeonOwnerWrite hole v s
  | .t1sFrame f => Sys2Proof.Machine.execT1sFrame f s
  | .plcaBeaconTimeout => Sys2Proof.Machine.execPlcaBeaconTimeout s
  | .dictRead => Sys2Proof.Machine.execDictRead s
  | .dictWrite lost answer => Sys2Proof.Machine.execDictWrite lost answer s
  | .describe => Sys2Proof.Machine.execDescribe s
  | .defaults => Sys2Proof.Machine.execDefaults s
  | .openHello => Sys2Proof.Machine.execOpenHello s
  | .openCert => Sys2Proof.Machine.execOpenCert s
  | .openProve => Sys2Proof.Machine.execOpenProve s
  | .close => Sys2Proof.Machine.execClose s
  | .snapshotExpiry => Sys2Proof.Machine.execSnapshotExpiry s
  | .stagingExpiry session => Sys2Proof.Machine.execStagingExpiry session s
  | .sessionOpenTimeout session => Sys2Proof.Machine.execSessionOpenTimeout session s
  | .sessionIdleExpiry session => Sys2Proof.Machine.execSessionIdleExpiry session s
  | .openLockoutExpiry inband addr => Sys2Proof.Machine.execOpenLockoutExpiry inband addr s
  | .flashCompactionDone => Sys2Proof.Machine.execFlashCompactionDone s
  | .clearTrained => Sys2Proof.Machine.execClearTrained s
  | .registerWrite idx sub v => Sys2Proof.Machine.execRegisterWrite idx sub v s
  | .clusterShutterExpiry cluster => Sys2Proof.Machine.execClusterShutterExpiry cluster s
  | .clusterDarkExpiry cluster => Sys2Proof.Machine.execClusterDarkExpiry cluster s
  | .clusterWakeDone cluster => Sys2Proof.Machine.execClusterWakeDone cluster s
  | .night => Sys2Proof.Machine.execNight s
  | .nightEntryStepDone => Sys2Proof.Machine.execNightEntryStepDone s
  | .wake source link => Sys2Proof.Machine.execWake source link s
  | .wakeNLow low => Sys2Proof.Machine.execWakeNLow low s
  | .wakeTimerExpiry => Sys2Proof.Machine.execWakeTimerExpiry s
  | .nightExitDone bad => Sys2Proof.Machine.execNightExitDone bad s
  | .refclkFail which => Sys2Proof.Machine.execRefclkFail which s
  | .refclkRevert => Sys2Proof.Machine.execRefclkRevert s
  | .refclkRecovery which bad => Sys2Proof.Machine.execRefclkRecovery which bad s
  | .dieTempSample die t => Sys2Proof.Machine.execDieTempSample die t s
  | .cdcOverrunWrite v => Sys2Proof.Machine.execCdcOverrunWrite v s
  | .ctrConfig => Sys2Proof.Machine.execCtrConfig s
  | .ctrRead => Sys2Proof.Machine.execCtrRead s
  | .ctrWrite => Sys2Proof.Machine.execCtrWrite s
  | .snapshot => Sys2Proof.Machine.execSnapshot s
  | .snapshotCapture die => Sys2Proof.Machine.execSnapshotCapture die s
  | .clearDie => Sys2Proof.Machine.execClearDie s
  | .ctrFreezeWrite v => Sys2Proof.Machine.execCtrFreezeWrite v s
  | .sampleTick => Sys2Proof.Machine.execSampleTick s
  | .samplerConfigWrite sampler v => Sys2Proof.Machine.execSamplerConfigWrite sampler v s
  | .hwmQueueWrite k v => Sys2Proof.Machine.execHwmQueueWrite k v s
  | .recoveryHoldExpiry => Sys2Proof.Machine.execRecoveryHoldExpiry s
  | .startPhaseExpiry => Sys2Proof.Machine.execStartPhaseExpiry s
  | .logRead => Sys2Proof.Machine.execLogRead s
  | .stat3Toggle => Sys2Proof.Machine.execStat3Toggle s
  | .powerOff => Sys2Proof.Machine.execPowerOff s
  | .detectWithoutPeer link => Sys2Proof.Machine.execDetectWithoutPeer link s
  | .i3cInBandInterrupt ch t => Sys2Proof.Machine.execI3cInBandInterrupt ch t s
  | .plcaBeaconHeard => Sys2Proof.Machine.execPlcaBeaconHeard s
  | .clusterReturnsToService cluster => Sys2Proof.Machine.execClusterReturnsToService cluster s
  | .cellarDieLost die => Sys2Proof.Machine.execCellarDieLost die s
  | .refclkGood which => Sys2Proof.Machine.execRefclkGood which s

end Sys2Proof.Machine
end

