-- ==== Sys2Proof/Machine/Step.lean ====
section
/-! DEFINITION. One step: the command at the front of the queue, or with an empty queue one AON clock cycle (R498). -/

namespace Sys2Proof.Machine

open Sys2Proof

/-- What passes with no command: one 40 ns AON cycle while the device is powered and out of reset. TIMEBASE advances and cycles are counted
(R498, R523; assumption 5). Everything else that a clock drives arrives as a command of its own. -/
def State.tick (s : State) : State := if s.up then s.aonCycle else s

/-- One step: the command at the front is taken from the queue and run with the queue's rest; an empty queue is a tick. -/
def step (s : State) : Host.Outcome State Fault Refusal :=
  match s.pending with
  | [] => .next s.tick
  | c :: rest => exec c { s with pending := rest }

/-- The state with the command that a word spells at the front of its queue; unchanged where it spells none. -/
def State.withFetchWord (s : State) (nbits w : Nat) : State :=
  match decodeTableWord nbits w with
  | some c => { s with pending := c :: s.pending }
  | none => s

end Sys2Proof.Machine
end

