-- ==== Sys2Proof/Safety.lean ====
section
/-! DEFINITION. What statements are made of: a command that completes, the parts of the state, the frame of each command, and
the properties that every step keeps. -/

namespace Sys2Proof.Machine

open Sys2Proof

/-- The command has its effect: `exec` answers a next state, and the state has the property. -/
def Completes (c : Instr) (s : State) (post : State → Prop) : Prop := ∃ t, exec c s = .next t ∧ post t

/-- Every numeric object outside a list reads as before. -/
def State.regsBut (s : State) (ks : List Nat) (t : State) : Prop := ∀ k, k ∉ ks → t.reg k = s.reg k

/-- Firmware serves, and the command record whose RESULT this is has no command in progress (R47). -/
def State.accepts (s : State) (result : Nat) : Prop := s.served = true ∧ s.busy result = false

/-- A part of the state, as the frame of a command names it. -/
inductive Part where
  /-- Numeric objects of the dictionary. -/
  | regs
  /-- Byte-string objects of the dictionary. -/
  | blobs
  /-- Values in force since the last reset (R465). -/
  | forced
  /-- TIMEBASE (R498). -/
  | timebase
  /-- Supplies, reset, straps and the test port (R508, R509, R540). -/
  | reset
  /-- POWER_STATE and what Night keeps (R492 to R495). -/
  | night
  /-- Reference clocks (R500, R501). -/
  | clocks
  /-- DIE_PRESENT. -/
  | present
  /-- Die temperatures and what they throttle or trip (R507, R510). -/
  | thermal
  /-- WAKE_N, STAT3 and held contacts (R428, R491, R539). -/
  | contacts
  /-- The thirty-two links (chapter 8). -/
  | links
  /-- Egress queues, packets in service and sequence numbers (chapter 9). -/
  | egress
  /-- Routes, gate maps, key sets, queue maps and pairs (chapters 8 and 9). -/
  | routes
  /-- Deduplication, the broadcast filter, own answers and congestion rates (chapter 9). -/
  | peers
  /-- Lost Gatehouses, egress maps and carried links (R297). -/
  | gatehouses
  /-- Programmable and fixed counters, and issue slots in no kind yet (R514 to R516, R524). -/
  | counters
  /-- Freeze and snapshot (R518). -/
  | captures
  /-- Samplers and high-water marks (R527, R528). -/
  | samples
  /-- The error log (R529 to R531). -/
  | log
  /-- START and RECOVERY_HOLD (R525). -/
  | phase
  /-- The Innkeeper pair (chapter 13). -/
  | ik
  /-- Pending interrupts, alert status and overrun (R439 to R445). -/
  | irqPending
  /-- Vectors, priorities, alert enables and cores (R441, R445). -/
  | irqCores
  /-- Pigeonholes (R446). -/
  | holes
  /-- Waiting dictionary requests (R456, R459). -/
  | dictQueue
  /-- Sessions, staging and snapshots (R462, R463, R471). -/
  | sessions
  /-- The configuration log in flash (R476 to R478). -/
  | flash
  /-- Trained calibration overrides (R484). -/
  | calOver
  /-- PLCA fallback (R458). -/
  | t1s
  /-- Device state, boot and tamper cause (R407, R413). -/
  | lifecycle
  /-- Entropy source and DRBG (R391). -/
  | entropy
  /-- Package keys (R393). -/
  | keys
  /-- Key caches, fetches and key epochs (R397, R398). -/
  | keyCaches
  /-- Firmware slots, verification and the boot flag (R407 to R409). -/
  | firmware
  /-- Fuses blown by COMMIT_SVN (R408). -/
  | fuses
  /-- Debug unlock (R411). -/
  | debug
  /-- Guests being torn down (R402). -/
  | teardown
  /-- The guest table and its residents (chapter 1). -/
  | guests
  /-- The guest command in progress and directory epochs (R22). -/
  | guestCmd
  /-- Tracked requests (R75, R279). -/
  | requests
  /-- The set and its forming (R24 to R29). -/
  | set
  /-- Zero fills and the LRC (R32, R40). -/
  | lrc
  /-- Page tables and heap (chapter 6). -/
  | tables
  /-- Translation caches (chapter 6). -/
  | tlbs
  /-- The commit in progress (R199 to R212). -/
  | commit
  /-- Faults and fault queues (chapter 6). -/
  | faults
  /-- The coherence directory (chapter 7). -/
  | coherence
  /-- Coherent endpoints (chapter 7). -/
  | rmap
  /-- Streams and doorbells (chapter 2). -/
  | streams
  /-- Waybills, clusters and granule locks (chapters 2 and 4). -/
  | waybills
  /-- Tallies (R88). -/
  | tallies
  /-- Reduction contexts and staging (R144). -/
  | contexts
  /-- Tensor layouts (R181). -/
  | layouts
  /-- The forty-eight DRAM channels (chapter 10). -/
  | chans
  /-- Stored bytes of DRAM. -/
  | dram
  /-- DRAM layout, capacity and region bases (R322 to R332). -/
  | map
  /-- Strongroom groups, spares and stale stripes (chapter 11). -/
  | groups
  /-- DIMM sidebands (R352 to R358). -/
  | buses
  /-- What has left the package. -/
  | out
  /-- The model's count of free values. -/
  | free
deriving DecidableEq, Repr

/-- Two states agree on a part. -/
def Part.same (s t : State) : Part → Prop
  | .regs => t.regs = s.regs
  | .blobs => t.blobs = s.blobs
  | .forced => t.forced = s.forced
  | .timebase => t.power.timebase = s.power.timebase
  | .reset => t.power.aon = s.power.aon ∧ t.power.resetN = s.power.resetN ∧ t.power.pwrGood = s.power.pwrGood ∧
      t.power.inReset = s.power.inReset ∧ t.power.powerOn = s.power.powerOn ∧ t.power.keysDue = s.power.keysDue ∧
      t.power.roleMgr = s.power.roleMgr ∧ t.power.boot = s.power.boot ∧ t.power.nodeId = s.power.nodeId ∧
      t.power.resetCause = s.power.resetCause ∧ t.power.history = s.power.history ∧ t.power.coldDelay = s.power.coldDelay ∧
      t.power.supplyArmed = s.power.supplyArmed ∧ t.power.tapReset = s.power.tapReset
  | .night => t.power.st = s.power.st ∧ t.power.nightStep = s.power.nightStep ∧
      t.power.wakeCause = s.power.wakeCause ∧ t.power.nights = s.power.nights ∧ t.power.deafLinks = s.power.deafLinks ∧
      t.power.nightLinks = s.power.nightLinks ∧ t.power.nightChans = s.power.nightChans
  | .clocks => t.power.refSel = s.power.refSel ∧ t.power.refGood = s.power.refGood ∧
      t.power.refSwitches = s.power.refSwitches ∧ t.power.clocksLost = s.power.clocksLost
  | .present => t.power.present = s.power.present
  | .thermal => t.power.temps = s.power.temps ∧ t.power.warned = s.power.warned ∧
      t.power.throttled = s.power.throttled ∧ t.power.paused = s.power.paused ∧ t.power.thermtrip = s.power.thermtrip
  | .contacts => t.power.wakeN = s.power.wakeN ∧ t.power.stat3 = s.power.stat3 ∧ t.power.held = s.power.held
  | .links => t.fabric.links = s.fabric.links
  | .egress => t.fabric.egress = s.fabric.egress ∧ t.fabric.queueRun = s.fabric.queueRun ∧
      t.fabric.retained = s.fabric.retained ∧ t.fabric.stalled = s.fabric.stalled ∧ t.fabric.nextSeq = s.fabric.nextSeq ∧ t.fabric.echoes = s.fabric.echoes
  | .routes => t.fabric.blockRoutes = s.fabric.blockRoutes ∧ t.fabric.exactRoutes = s.fabric.exactRoutes ∧
      t.fabric.routeEpoch = s.fabric.routeEpoch ∧ t.fabric.gmapExact = s.fabric.gmapExact ∧
      t.fabric.gmapWild = s.fabric.gmapWild ∧ t.fabric.gmapEpoch = s.fabric.gmapEpoch ∧
      t.fabric.routeWait = s.fabric.routeWait ∧ t.fabric.gmapWait = s.fabric.gmapWait ∧
      t.fabric.pairOut = s.fabric.pairOut ∧ t.fabric.keySets = s.fabric.keySets ∧ t.fabric.queues = s.fabric.queues
  | .peers => t.fabric.dedup = s.fabric.dedup ∧ t.fabric.useStamp = s.fabric.useStamp ∧
      t.fabric.bcast = s.fabric.bcast ∧ t.fabric.own = s.fabric.own ∧ t.fabric.rates = s.fabric.rates ∧
      t.fabric.lastCnp = s.fabric.lastCnp
  | .gatehouses => t.fabric.ghLost = s.fabric.ghLost ∧ t.fabric.egLinks = s.fabric.egLinks ∧
      t.fabric.carried = s.fabric.carried
  | .counters => t.obs.ctrs = s.obs.ctrs ∧ t.obs.slots = s.obs.slots
  | .captures => t.obs.frozen = s.obs.frozen ∧ t.obs.freezeAt = s.obs.freezeAt ∧ t.obs.snaps = s.obs.snaps ∧
      t.obs.snapDue = s.obs.snapDue
  | .samples => t.obs.samples = s.obs.samples ∧ t.obs.marks = s.obs.marks
  | .log => t.obs.log = s.obs.log ∧ t.obs.logTail = s.obs.logTail ∧ t.obs.preserved = s.obs.preserved
  | .phase => t.obs.startOver = s.obs.startOver ∧ t.obs.recoveryHold = s.obs.recoveryHold
  | .ik => t.ik.active = s.ik.active ∧ t.ik.dies = s.ik.dies ∧ t.ik.failovers = s.ik.failovers ∧
      t.ik.lastCause = s.ik.lastCause ∧ t.ik.lastGap = s.ik.lastGap ∧ t.ik.ckptSeq = s.ik.ckptSeq ∧ t.ik.ckpt = s.ik.ckpt ∧
      t.ik.ckptDue = s.ik.ckptDue ∧ t.ik.ckptLate = s.ik.ckptLate ∧ t.ik.journal = s.ik.journal ∧ t.ik.gap = s.ik.gap ∧
      t.ik.planned = s.ik.planned ∧ t.ik.bothLost = s.ik.bothLost ∧ t.ik.beat = s.ik.beat ∧
      t.ik.noFirmware = s.ik.noFirmware
  | .irqPending => t.irq.pend = s.irq.pend ∧ t.irq.alertStatus = s.irq.alertStatus ∧ t.irq.overrun = s.irq.overrun ∧
      t.irq.latched = s.irq.latched ∧ t.irq.standby = s.irq.standby ∧ t.irq.standbyNew = s.irq.standbyNew
  | .irqCores => t.irq.vectors = s.irq.vectors ∧ t.irq.prios = s.irq.prios ∧ t.irq.alertEn = s.irq.alertEn ∧
      t.irq.lastCore = s.irq.lastCore ∧ t.irq.coreIe = s.irq.coreIe ∧ t.irq.halted = s.irq.halted ∧
      t.irq.presented = s.irq.presented ∧ t.irq.stopped = s.irq.stopped
  | .holes => t.holes = s.holes
  | .dictQueue => t.dict.queue = s.dict.queue ∧ t.dict.arrived = s.dict.arrived
  | .sessions => t.dict.sessions = s.dict.sessions ∧ t.dict.snaps = s.dict.snaps ∧ t.dict.fails = s.dict.fails ∧
      t.dict.sessionFails = s.dict.sessionFails
  | .flash => t.dict.copy0 = s.dict.copy0 ∧ t.dict.copy1 = s.dict.copy1 ∧ t.dict.copy = s.dict.copy ∧
      t.dict.recno = s.dict.recno ∧ t.dict.appended = s.dict.appended ∧ t.dict.noCopy = s.dict.noCopy ∧
      t.dict.compacting = s.dict.compacting ∧ t.dict.waiting = s.dict.waiting ∧ t.dict.flashBad = s.dict.flashBad
  | .calOver => t.dict.calOver = s.dict.calOver
  | .t1s => t.dict.csma = s.dict.csma
  | .lifecycle => t.sec.st = s.sec.st ∧ t.sec.booted = s.sec.booted ∧ t.sec.noIdentity = s.sec.noIdentity ∧
      t.sec.tamperCause = s.sec.tamperCause
  | .entropy => t.sec.entropyBad = s.sec.entropyBad ∧ t.sec.drawn = s.sec.drawn ∧ t.sec.drbgReqs = s.sec.drbgReqs ∧
      t.sec.reseeds = s.sec.reseeds ∧ t.sec.drbgZeroed = s.sec.drbgZeroed
  | .keys => t.sec.kwrap = s.sec.kwrap ∧ t.sec.ktable = s.sec.ktable
  | .keyCaches => t.sec.caches = s.sec.caches ∧ t.sec.fetches = s.sec.fetches ∧ t.sec.epoch = s.sec.epoch
  | .firmware => t.sec.slotA = s.sec.slotA ∧ t.sec.slotB = s.sec.slotB ∧ t.sec.slot = s.sec.slot ∧
      t.sec.bootFlag = s.sec.bootFlag ∧ t.sec.verified = s.sec.verified ∧ t.sec.confirm = s.sec.confirm
  | .fuses => t.sec.svnBlown = s.sec.svnBlown
  | .debug => t.sec.nonce = s.sec.nonce ∧ t.sec.failedUnlocks = s.sec.failedUnlocks ∧
      t.sec.debugLevel = s.sec.debugLevel ∧ t.sec.noDefine = s.sec.noDefine
  | .teardown => t.sec.teardown = s.sec.teardown
  | .guests => t.pool.guests = s.pool.guests ∧ t.pool.oldDirs = s.pool.oldDirs ∧ t.pool.stamp = s.pool.stamp ∧ t.pool.swaps = s.pool.swaps
  | .guestCmd => t.pool.cmd = s.pool.cmd ∧ t.pool.dirEpoch = s.pool.dirEpoch
  | .requests => t.pool.reqs = s.pool.reqs ∧ t.pool.claims = s.pool.claims ∧ t.pool.trkPtr = s.pool.trkPtr ∧
      t.pool.trk2 = s.pool.trk2 ∧ t.pool.trk3 = s.pool.trk3
  | .set => t.pool.setState = s.pool.setState ∧ t.pool.devid = s.pool.devid ∧ t.pool.members = s.pool.members ∧
      t.pool.managerEpid = s.pool.managerEpid ∧ t.pool.nonce = s.pool.nonce ∧ t.pool.heard = s.pool.heard ∧
      t.pool.intruders = s.pool.intruders
  | .lrc => t.pool.fills = s.pool.fills ∧ t.pool.lrc = s.pool.lrc ∧ t.pool.lrcFills = s.pool.lrcFills
  | .tables => t.trans.leaves = s.trans.leaves ∧ t.trans.tables = s.trans.tables ∧
      t.trans.heapFree = s.trans.heapFree ∧ t.trans.epoch = s.trans.epoch
  | .tlbs => t.trans.cache = s.trans.cache ∧ t.trans.tlbs = s.trans.tlbs
  | .commit => t.trans.commit = s.trans.commit
  | .faults => t.trans.faults = s.trans.faults ∧ t.trans.nextFault = s.trans.nextFault ∧ t.trans.fq = s.trans.fq ∧
      t.trans.fqTail = s.trans.fqTail
  | .coherence => t.hearth.ces = s.hearth.ces ∧ t.hearth.dir = s.hearth.dir ∧ t.hearth.queue = s.hearth.queue ∧
      t.hearth.late = s.hearth.late ∧ t.hearth.flush = s.hearth.flush ∧ t.hearth.swept = s.hearth.swept ∧ t.hearth.kept = s.hearth.kept
  | .rmap => t.hearth.rmap = s.hearth.rmap
  | .streams => t.work.streams = s.work.streams ∧ t.work.stamp = s.work.stamp ∧ t.work.bells = s.work.bells ∧
      t.work.discarded = s.work.discarded
  | .waybills => t.work.wbs = s.work.wbs ∧ t.work.clusters = s.work.clusters ∧ t.work.locks = s.work.locks
  | .tallies => t.work.tallies = s.work.tallies
  | .contexts => t.work.ctxs = s.work.ctxs ∧ t.work.stageUsed = s.work.stageUsed
  | .layouts => t.work.layouts = s.work.layouts
  | .chans => t.cellar.chans = s.cellar.chans
  | .dram => t.cellar.dram = s.cellar.dram
  | .map => t.cellar.layout = s.cellar.layout ∧ t.cellar.mode = s.cellar.mode ∧ t.cellar.cap = s.cellar.cap ∧
      t.cellar.bytes = s.cellar.bytes ∧ t.cellar.tableBase = s.cellar.tableBase ∧ t.cellar.plain = s.cellar.plain ∧
      t.cellar.hearthState = s.cellar.hearthState
  | .groups => t.cellar.groups = s.cellar.groups ∧ t.cellar.spares = s.cellar.spares ∧
      t.cellar.stale = s.cellar.stale
  | .buses => t.cellar.buses = s.cellar.buses
  | .out => t.out = s.out
  | .free => t.freeCount = s.freeCount

/-- The state after agrees with the state before on the waiting commands and on every part outside a list. -/
def Frame (ps : List Part) (s t : State) : Prop := t.pending = s.pending ∧ ∀ p, p ∉ ps → Part.same s t p

/-- What a packet at a port may change: it may be carried on, or served here by whatever answers it. -/
def portParts : List Part :=
  [.regs, .night, .links, .egress, .peers, .counters, .samples, .log, .phase, .irqPending, .holes, .dictQueue,
  .entropy, .keyCaches, .teardown, .guests, .guestCmd, .requests, .set, .lrc, .tlbs, .commit, .faults, .coherence,
  .streams, .waybills, .contexts, .chans, .dram, .out, .free]

/-- What a chunk of a Porter's waybill may change. -/
def chunkParts : List Part :=
  [.regs, .egress, .peers, .counters, .samples, .log, .irqPending, .keyCaches, .guests, .requests, .lrc, .tlbs,
  .faults, .coherence, .streams, .waybills, .contexts, .chans, .dram, .out, .free]

/-- What a flit, or the loss of a link, may change. -/
def linkLossParts : List Part :=
  [.links, .egress, .gatehouses, .counters, .samples, .log, .phase, .irqPending, .requests, .out]

/-- What a memory access that goes on may change. -/
def memoryParts : List Part :=
  [.regs, .egress, .counters, .samples, .log, .irqPending, .keyCaches, .guests, .requests, .lrc, .faults,
  .coherence, .streams, .chans, .dram, .out, .free]

/-- What a link command, or a key exchange that may lose the link, may change. -/
def linkCmdParts : List Part :=
  [.regs, .links, .egress, .gatehouses, .counters, .samples, .log, .phase, .irqPending, .requests, .out]

/-- What a channel's failure, training or return may change. -/
def channelParts : List Part :=
  [.regs, .blobs, .egress, .counters, .samples, .log, .phase, .irqPending, .flash, .keyCaches, .guests, .requests,
  .lrc, .faults, .coherence, .streams, .chans, .dram, .groups, .out, .free]

/-- What an answered dictionary request may change. -/
def dictParts : List Part :=
  [.regs, .egress, .counters, .samples, .irqPending, .dictQueue, .sessions, .requests, .out]

/-- What reset entry changes: all but the keys, fuses, calibration overrides, DRAM bytes and what has left the package. -/
def resetParts : List Part :=
  [.regs, .blobs, .forced, .timebase, .reset, .night, .clocks, .present, .thermal, .contacts, .links, .egress,
  .routes, .peers, .gatehouses, .counters, .captures, .samples, .log, .phase, .ik, .irqPending, .irqCores, .holes,
  .dictQueue, .sessions, .flash, .t1s, .lifecycle, .entropy, .keyCaches, .firmware, .teardown, .guests, .guestCmd,
  .requests, .set, .lrc, .tables, .tlbs, .commit, .faults, .coherence, .rmap, .streams, .waybills, .tallies,
  .contexts, .layouts, .chans, .map, .groups, .buses, .out]

/-- What a change of a guest's definition may change. -/
def guestCmdParts : List Part :=
  [.regs, .egress, .counters, .samples, .irqPending, .guests, .guestCmd, .requests, .free]

/-- What a commit of translations may change. -/
def commitParts : List Part :=
  [.regs, .egress, .peers, .counters, .samples, .log, .irqPending, .keyCaches, .guests, .requests, .lrc, .tables,
  .tlbs, .commit, .faults, .coherence, .rmap, .streams, .waybills, .contexts, .chans, .dram, .out, .free]

/-- What a hearth command that recalls lines may change. -/
def flushParts : List Part :=
  [.regs, .egress, .counters, .samples, .log, .irqPending, .keyCaches, .guests, .requests, .coherence, .streams,
  .chans, .dram, .out, .free]

/-- The parts that a command may change; every other part of the state stays as it is. -/
def touches : Instr → List Part
  | .powerOn =>
      [.regs, .blobs, .forced, .timebase, .reset, .night, .clocks, .present, .thermal, .contacts, .links,
      .egress, .routes, .peers, .gatehouses, .counters, .captures, .samples, .log, .phase, .ik, .irqPending,
      .irqCores, .holes, .dictQueue, .sessions, .flash, .t1s, .lifecycle, .entropy, .keys, .keyCaches,
      .firmware, .debug, .teardown, .guests, .guestCmd, .requests, .set, .lrc, .tables, .tlbs, .commit, .faults,
      .coherence, .rmap, .streams, .waybills, .tallies, .contexts, .layouts, .chans, .map, .groups, .buses]
  | .resetNFall => resetParts
  | .pwrGoodFall => resetParts
  | .resetRelease .. => [.timebase, .reset, .clocks, .present]
  | .secureBoot .. =>
      [.regs, .blobs, .forced, .reset, .links, .egress, .gatehouses, .samples, .log, .ik, .irqCores, .flash,
      .lifecycle, .entropy, .keys, .firmware, .requests, .waybills, .chans, .map, .groups, .buses, .out]
  | .coldReset => [.regs, .reset]
  | .coldResetDelayExpiry => resetParts
  | .tamper .. => [.links, .sessions, .lifecycle, .entropy, .keys, .keyCaches, .lrc, .tlbs, .waybills, .chans]
  | .define =>
      [.regs, .egress, .counters, .samples, .log, .irqPending, .entropy, .keyCaches, .guests, .guestCmd,
      .requests, .streams, .chans, .dram, .out, .free]
  | .pin =>
      [.regs, .egress, .counters, .samples, .log, .irqPending, .keyCaches, .guests, .guestCmd, .requests,
      .streams, .chans, .dram, .out, .free]
  | .unpin => [.regs, .guests]
  | .windowSet => guestCmdParts
  | .windowClear => guestCmdParts
  | .guestQuery => [.regs]
  | .setPkey => guestCmdParts
  | .guestCmdApplied => [.regs, .guestCmd]
  | .guestSwapDone .. =>
      [.regs, .egress, .counters, .samples, .log, .irqPending, .keyCaches, .guests, .guestCmd, .requests, .lrc,
      .faults, .coherence, .streams, .chans, .dram, .out, .free]
  | .guestSwapHoldExpiry .. =>
      [.regs, .egress, .counters, .samples, .log, .irqPending, .keyCaches, .guests, .guestCmd, .requests,
      .streams, .waybills, .chans, .dram, .out, .free]
  | .swapVictimEligible =>
      [.egress, .counters, .samples, .log, .irqPending, .keyCaches, .guests, .requests, .streams, .chans, .dram,
      .out, .free]
  | .announce .. => portParts
  | .announceSend => [.egress, .peers, .counters, .samples, .phase, .irqPending, .entropy, .requests, .set]
  | .join .. => portParts
  | .admitMsg .. => portParts
  | .refuse .. => portParts
  | .distribute .. => portParts
  | .formTimeoutExpiry => [.egress, .counters, .samples, .phase, .irqPending, .requests, .set]
  | .read .. => portParts
  | .write .. => portParts
  | .writeP .. => portParts
  | .atomicPacket .. => portParts
  | .doorbell .. => portParts
  | .notifyReceived .. => portParts
  | .cnp .. => portParts
  | .rsp .. => portParts
  | .mgmt .. => portParts
  | .packetHeader .. => portParts
  | .broadcastFilterExpiry .. => [.peers]
  | .zeroFillDone .. =>
      [.regs, .egress, .counters, .samples, .log, .irqPending, .keyCaches, .guests, .requests, .lrc, .tables,
      .tlbs, .faults, .coherence, .streams, .chans, .dram, .out, .free]
  | .lrcFill .. => [.counters, .irqPending, .lrc]
  | .publish .. =>
      [.regs, .egress, .counters, .samples, .log, .irqPending, .keyCaches, .guests, .requests, .lrc, .tlbs,
      .faults, .streams, .waybills, .chans, .dram, .out, .free]
  | .publishDrainDone .. =>
      [.regs, .egress, .counters, .samples, .log, .irqPending, .keyCaches, .guests, .requests, .lrc, .tlbs,
      .faults, .streams, .waybills, .chans, .dram, .out, .free]
  | .lrcSweepDone .. =>
      [.regs, .egress, .counters, .samples, .log, .irqPending, .keyCaches, .guests, .requests, .lrc, .tlbs,
      .faults, .streams, .waybills, .chans, .dram, .out, .free]
  | .streamCreate =>
      [.regs, .egress, .counters, .samples, .log, .irqPending, .keyCaches, .guests, .requests, .streams, .chans,
      .dram, .out, .free]
  | .streamDestroy =>
      [.regs, .egress, .counters, .samples, .log, .irqPending, .keyCaches, .guests, .requests, .lrc, .faults,
      .coherence, .streams, .waybills, .contexts, .chans, .dram, .out, .free]
  | .streamReset => [.regs, .counters, .irqPending, .requests, .faults, .streams, .waybills, .contexts]
  | .streamQuery => [.regs]
  | .streamSwapDone .. => memoryParts
  | .waybillAccept .. =>
      [.regs, .egress, .counters, .samples, .log, .irqPending, .keyCaches, .guests, .requests, .lrc, .tlbs,
      .faults, .streams, .waybills, .contexts, .chans, .dram, .out, .free]
  | .descriptorPrefetch .. =>
      [.regs, .egress, .counters, .samples, .log, .irqPending, .keyCaches, .guests, .requests, .lrc, .tlbs,
      .faults, .streams, .chans, .dram, .out, .free]
  | .waybillStart .. =>
      [.regs, .egress, .counters, .samples, .log, .irqPending, .keyCaches, .guests, .requests, .lrc, .tlbs,
      .faults, .streams, .waybills, .contexts, .chans, .dram, .out, .free]
  | .waitTimeoutExpiry .. => [.counters, .irqPending, .waybills]
  | .tallyInc .. =>
      [.regs, .egress, .counters, .samples, .log, .irqPending, .keyCaches, .guests, .requests, .lrc, .tlbs,
      .faults, .streams, .waybills, .tallies, .chans, .dram, .out, .free]
  | .tallySet .. =>
      [.regs, .egress, .counters, .samples, .log, .irqPending, .keyCaches, .guests, .requests, .lrc, .tlbs,
      .faults, .streams, .waybills, .tallies, .chans, .dram, .out, .free]
  | .tallyArm .. =>
      [.regs, .egress, .counters, .samples, .log, .irqPending, .keyCaches, .guests, .requests, .lrc, .tlbs,
      .faults, .streams, .waybills, .tallies, .chans, .dram, .out, .free]
  | .tallyRead .. =>
      [.regs, .egress, .counters, .samples, .log, .irqPending, .keyCaches, .guests, .requests, .lrc, .tlbs,
      .faults, .streams, .waybills, .chans, .dram, .out, .free]
  | .drain .. =>
      [.regs, .egress, .counters, .samples, .log, .irqPending, .keyCaches, .guests, .requests, .lrc, .tlbs,
      .faults, .streams, .waybills, .chans, .dram, .out, .free]
  | .nop .. =>
      [.regs, .egress, .counters, .samples, .log, .irqPending, .keyCaches, .guests, .requests, .lrc, .tlbs,
      .faults, .streams, .waybills, .chans, .dram, .out, .free]
  | .cancel .. =>
      [.regs, .egress, .counters, .samples, .log, .irqPending, .keyCaches, .guests, .requests, .lrc, .tlbs,
      .faults, .streams, .waybills, .chans, .dram, .out, .free]
  | .tallyMirrorWrite .. =>
      [.regs, .egress, .counters, .samples, .log, .irqPending, .keyCaches, .guests, .requests, .lrc, .tlbs,
      .faults, .coherence, .streams, .tallies, .chans, .dram, .out, .free]
  | .chunkDispatch .. =>
      [.regs, .egress, .counters, .samples, .log, .irqPending, .keyCaches, .guests, .requests, .lrc, .tlbs,
      .faults, .streams, .waybills, .chans, .dram, .out, .free]
  | .clusterClearDone .. => [.tlbs, .waybills]
  | .granuleCommit .. =>
      [.regs, .egress, .counters, .samples, .log, .irqPending, .keyCaches, .guests, .requests, .coherence,
      .streams, .waybills, .contexts, .chans, .dram, .out, .free]
  | .clusterLost .. =>
      [.regs, .egress, .peers, .counters, .samples, .log, .phase, .irqPending, .keyCaches, .guests, .requests,
      .tlbs, .faults, .coherence, .streams, .waybills, .contexts, .chans, .dram, .out, .free]
  | .chunkRedispatch .. =>
      [.regs, .egress, .counters, .samples, .log, .irqPending, .keyCaches, .guests, .requests, .lrc, .tlbs,
      .faults, .coherence, .streams, .waybills, .contexts, .chans, .dram, .out, .free]
  | .porterDieLost .. =>
      [.regs, .present, .egress, .peers, .counters, .samples, .log, .phase, .irqPending, .keyCaches, .guests,
      .requests, .tlbs, .faults, .coherence, .streams, .waybills, .contexts, .chans, .dram, .out, .free]
  | .waybillComplete .. =>
      [.regs, .egress, .counters, .samples, .log, .irqPending, .keyCaches, .guests, .requests, .lrc, .tlbs,
      .faults, .coherence, .streams, .waybills, .tallies, .contexts, .chans, .dram, .out, .free]
  | .trackerGrant =>
      [.regs, .links, .egress, .counters, .samples, .log, .phase, .irqPending, .holes, .dictQueue, .entropy,
      .keyCaches, .teardown, .guests, .guestCmd, .requests, .set, .lrc, .faults, .coherence, .streams,
      .waybills, .chans, .dram, .out, .free]
  | .tallyAlloc => [.regs, .tallies]
  | .tallyFree => [.regs, .tallies]
  | .tallyCmdArm => [.regs, .egress, .counters, .samples, .irqPending, .requests, .waybills, .tallies]
  | .tallyCmdSet => [.regs, .egress, .counters, .samples, .irqPending, .requests, .waybills, .tallies]
  | .tallyConfig => [.regs, .tallies]
  | .tallyQuery => [.regs, .blobs]
  | .trkHighWaterWrite .. => [.regs]
  | .arithFlagsSeenWrite .. => [.regs]
  | .copy .. => chunkParts
  | .convert .. => chunkParts
  | .fill .. => chunkParts
  | .eltwise .. => chunkParts
  | .deliver .. => chunkParts
  | .gather .. => chunkParts
  | .scatter .. => chunkParts
  | .atomic .. => chunkParts
  | .cas .. => chunkParts
  | .remoteTimeoutExpiry .. =>
      [.regs, .egress, .peers, .counters, .samples, .log, .irqPending, .keyCaches, .guests, .requests, .faults,
      .coherence, .streams, .waybills, .contexts, .chans, .dram, .out, .free]
  | .redOpen .. => chunkParts
  | .stagingAlloc .. => [.waybills, .contexts]
  | .redOpenTimeout .. => [.waybills]
  | .redContrib .. => chunkParts
  | .contribTurn .. => [.waybills]
  | .stagedPrefetch .. => chunkParts
  | .granuleLockGrant .. => [.waybills]
  | .redClose .. => [.counters, .samples, .irqPending, .waybills]
  | .redContextComplete .. =>
      [.regs, .egress, .counters, .samples, .log, .irqPending, .keyCaches, .guests, .requests, .lrc, .tlbs,
      .faults, .coherence, .streams, .waybills, .tallies, .contexts, .chans, .dram, .out, .free]
  | .reduce .. => chunkParts
  | .reshard .. => chunkParts
  | .mvb .. => chunkParts
  | .moeffn .. => chunkParts
  | .moeffnExchangeDone .. => [.waybills]
  | .layoutRegister =>
      [.regs, .egress, .counters, .samples, .log, .irqPending, .keyCaches, .guests, .requests, .streams,
      .layouts, .chans, .dram, .out, .free]
  | .layoutRemove =>
      [.regs, .egress, .counters, .samples, .log, .irqPending, .keyCaches, .guests, .requests, .streams,
      .layouts, .chans, .dram, .out, .free]
  | .layoutQuery => [.regs, .blobs]
  | .commit =>
      [.regs, .egress, .peers, .counters, .samples, .log, .irqPending, .keyCaches, .guests, .requests, .lrc,
      .tlbs, .commit, .streams, .chans, .dram, .out, .free]
  | .commitPoint => commitParts
  | .commitDrainDone =>
      [.regs, .egress, .counters, .samples, .log, .irqPending, .keyCaches, .guests, .requests, .lrc, .tables,
      .commit, .streams, .chans, .dram, .out, .free]
  | .transQuery => [.regs]
  | .translationWalkDone .. =>
      [.regs, .egress, .counters, .samples, .log, .irqPending, .keyCaches, .guests, .requests, .lrc, .tlbs,
      .faults, .coherence, .streams, .chans, .dram, .out, .free]
  | .faultHoldExpiry .. =>
      [.regs, .egress, .counters, .samples, .log, .irqPending, .keyCaches, .guests, .requests, .faults,
      .coherence, .streams, .waybills, .contexts, .chans, .dram, .out, .free]
  | .faultQueueRecord => [.egress, .counters, .samples, .irqPending, .requests, .faults]
  | .fqHeadWrite .. => [.regs]
  | .fqConfigWrite .. => [.regs, .faults]
  | .migrateInDone => commitParts
  | .migrateOutDone => commitParts
  | .migrateTimeoutExpiry =>
      [.regs, .egress, .peers, .counters, .samples, .log, .irqPending, .keyCaches, .guests, .requests, .lrc,
      .tlbs, .commit, .faults, .coherence, .streams, .waybills, .contexts, .chans, .dram, .out, .free]
  | .ledgerDieLost .. =>
      [.present, .egress, .counters, .samples, .log, .phase, .irqPending, .requests, .lrc, .tlbs, .coherence,
      .chans, .dram, .out, .free]
  | .rdS .. => portParts
  | .rdX .. => portParts
  | .upg .. => portParts
  | .wb .. => portParts
  | .evc .. => portParts
  | .snpAck .. => portParts
  | .snpData .. => portParts
  | .snpWbp .. => portParts
  | .coherenceUnmatched .. => portParts
  | .hearthLineDequeue .. => memoryParts
  | .backInvalidation .. =>
      [.egress, .counters, .samples, .log, .irqPending, .keyCaches, .guests, .requests, .coherence, .streams,
      .chans, .dram, .out, .free]
  | .hearthSnoopTimeout .. =>
      [.regs, .egress, .counters, .samples, .log, .irqPending, .keyCaches, .guests, .requests, .faults,
      .coherence, .streams, .waybills, .contexts, .chans, .dram, .out, .free]
  | .fenceWalkDone .. => flushParts
  | .registerCe => [.regs, .coherence]
  | .removeCe => flushParts
  | .resetCe => [.regs, .coherence]
  | .queryCe => [.regs]
  | .flush => flushParts
  | .queryLine => [.regs, .blobs]
  | .hearthRecallDone .. => memoryParts
  | .flitReceive .. =>
      [.night, .links, .egress, .gatehouses, .counters, .samples, .log, .phase, .irqPending, .requests, .out]
  | .retryReq .. => linkLossParts
  | .null .. => [.links, .egress, .counters, .samples, .irqPending]
  | .replayTimeout .. => linkLossParts
  | .laneFailing .. => linkLossParts
  | .spareUnusable .. => [.links, .counters, .irqPending]
  | .laneMap .. => [.links, .egress, .counters, .samples, .irqPending, .out]
  | .laneMapAck .. => [.links, .egress, .counters, .samples, .irqPending]
  | .laneMapResend .. => [.links, .counters, .irqPending, .out]
  | .laneSparingDone .. => [.links, .counters, .irqPending, .out]
  | .creditQuietExpiry .. => [.links, .counters, .irqPending]
  | .creditSyncRequest .. => [.links, .counters, .irqPending, .out]
  | .creditSyncReq .. => [.links, .egress, .counters, .samples, .irqPending, .out]
  | .creditSyncRsp .. => [.links, .egress, .counters, .samples, .irqPending]
  | .creditSyncTimeout .. => linkLossParts
  | .linkDown .. => linkLossParts
  | .standbyReq .. => [.links, .egress, .counters, .samples, .irqPending, .out]
  | .standbyAck .. => [.night, .links, .egress, .counters, .samples, .irqPending]
  | .standbyAckTimeout .. => [.night, .links]
  | .linkStandbyIdleExpiry .. => [.links, .counters, .irqPending, .out]
  | .linkWake .. => [.regs, .night, .links, .egress, .samples, .irqPending, .requests, .chans]
  | .hello .. => [.links, .counters, .irqPending, .out]
  | .cert .. =>
      [.regs, .links, .egress, .gatehouses, .counters, .samples, .log, .phase, .irqPending, .entropy, .requests,
      .out]
  | .share .. => linkCmdParts
  | .finished .. => linkCmdParts
  | .keyxRetransmit .. => [.links, .counters, .irqPending, .out]
  | .keyxTimeout .. => linkCmdParts
  | .peerDetected .. => [.links]
  | .trainingDone .. => [.links, .counters, .irqPending, .out]
  | .trainingFailed .. => linkCmdParts
  | .linkDeadTimeout .. => linkLossParts
  | .linkRetry .. => [.links, .egress, .samples, .requests]
  | .gatehouseDieLost .. =>
      [.present, .links, .egress, .peers, .gatehouses, .counters, .samples, .log, .phase, .irqPending,
      .requests, .out]
  | .dedupExpiry .. => [.peers]
  | .retrain => linkCmdParts
  | .disable => linkCmdParts
  | .enable => [.regs, .links, .egress, .samples, .requests]
  | .linkQuery => [.regs, .blobs]
  | .dedupClear => [.regs, .peers]
  | .cnpSend .. => [.egress, .peers, .counters, .samples, .irqPending, .requests]
  | .ccRateIncrease .. => [.peers]
  | .egressSelect .. => [.links, .egress, .peers, .gatehouses, .counters, .samples, .irqPending, .requests, .out]
  | .expressWindowOpen .. => [.gatehouses, .counters, .irqPending]
  | .expressWindowClose .. => [.gatehouses]
  | .setBlock => [.regs, .routes]
  | .setExact => [.regs, .routes]
  | .clearExact => [.regs, .routes]
  | .pairOut => [.regs, .routes]
  | .pairIn => [.regs, .routes]
  | .routeQuery => [.regs]
  | .epochDrainDone .. => [.regs, .routes]
  | .gmapSet => [.regs, .routes]
  | .gmapClear => [.regs, .routes]
  | .gmapQuery => [.regs]
  | .pkeyAdd => [.regs, .routes]
  | .pkeyRemove => [.regs, .routes]
  | .pkeyQuery => [.regs, .blobs]
  | .queueSet => [.regs, .egress, .routes, .samples]
  | .queueRemove => [.regs, .egress, .routes, .samples]
  | .queueQuery => [.regs]
  | .columnCommandIssue .. => memoryParts
  | .dramReadReturn .. =>
      [.regs, .egress, .counters, .samples, .log, .irqPending, .keyCaches, .guests, .requests, .lrc, .faults,
      .coherence, .streams, .waybills, .chans, .dram, .out, .free]
  | .wcbDrain .. => memoryParts
  | .pageIdleExpiry .. => [.counters, .irqPending, .chans, .out]
  | .refresh .. => [.counters, .irqPending, .chans, .out]
  | .dimmTempPoll .. => [.irqPending, .chans, .buses]
  | .chIdleSrExpiry .. => [.counters, .irqPending, .chans]
  | .selfRefreshExit .. => memoryParts
  | .chIdlePdExpiry .. => [.counters, .irqPending, .chans]
  | .alertNAssert .. => [.chans]
  | .alertRelease .. => [.counters, .irqPending, .chans, .out]
  | .channelTrainingDone .. => channelParts
  | .channelFillDone .. => channelParts
  | .dqsOscMeasure .. => [.counters, .irqPending, .chans]
  | .readCentreRecheck .. => [.counters, .irqPending, .chans]
  | .retrainStart .. => channelParts
  | .retrainDone .. => channelParts
  | .trainRetrain => [.regs, .chans]
  | .trainFull => [.regs, .chans]
  | .sbArbLost .. => [.regs, .counters, .irqPending, .chans, .buses]
  | .sbBackoffExpiry .. => [.regs, .blobs, .counters, .irqPending, .chans, .buses, .out]
  | .sbBusRecovery .. => [.counters, .irqPending, .buses, .out]
  | .sbRead .. => [.regs, .blobs, .counters, .irqPending, .buses, .out]
  | .sbWrite .. => [.regs, .blobs, .counters, .irqPending, .buses, .out]
  | .scrubLine .. =>
      [.egress, .counters, .samples, .log, .irqPending, .guests, .requests, .streams, .chans, .dram, .groups,
      .out, .free]
  | .parityDelta .. => [.counters, .log, .irqPending, .chans, .dram, .groups, .out]
  | .parityAckTimeout .. => [.counters, .log, .irqPending, .chans, .dram, .groups, .out]
  | .staleStripeRebuild .. =>
      [.egress, .counters, .samples, .log, .irqPending, .guests, .requests, .streams, .chans, .dram, .groups,
      .out, .free]
  | .channelFailed .. => channelParts
  | .rebuildStripe .. =>
      [.blobs, .egress, .counters, .samples, .log, .phase, .irqPending, .flash, .keyCaches, .guests, .requests,
      .streams, .chans, .dram, .groups, .out, .free]
  | .rowRepair .. => memoryParts
  | .writeRaw => [.regs, .dram]
  | .readRaw => [.regs, .blobs]
  | .readDecoded => [.regs, .blobs, .counters, .irqPending, .chans]
  | .ceLogClear => [.regs, .chans]
  | .ppr =>
      [.regs, .egress, .counters, .samples, .log, .irqPending, .guests, .requests, .streams, .chans, .dram,
      .out, .free]
  | .evacuate => channelParts
  | .entropyHealthFail => [.irqPending, .entropy]
  | .entropyRetest .. => [.counters, .irqPending, .entropy, .keyCaches, .guests]
  | .drbgReseed => [.counters, .irqPending, .entropy, .keyCaches, .guests]
  | .keyCacheFill .. =>
      [.egress, .counters, .samples, .log, .irqPending, .keyCaches, .guests, .requests, .streams, .out]
  | .teardown => [.regs, .egress, .counters, .samples, .irqPending, .teardown, .guests, .requests, .waybills]
  | .teardownDrainDone =>
      [.regs, .egress, .counters, .samples, .log, .irqPending, .keyCaches, .teardown, .guests, .requests, .lrc,
      .tables, .tlbs, .faults, .coherence, .rmap, .streams, .waybills, .tallies, .contexts, .layouts, .chans,
      .dram, .out, .free]
  | .queryKey => [.regs]
  | .writeChunk => [.regs, .firmware]
  | .verify => [.regs, .firmware]
  | .activate => [.regs, .ik]
  | .fwConfirm => [.regs, .firmware]
  | .commitSvn => [.regs, .fuses, .free]
  | .attest .. => [.blobs]
  | .challenge => [.regs, .blobs, .entropy, .debug]
  | .unlock =>
      [.regs, .links, .sessions, .lifecycle, .entropy, .keys, .keyCaches, .debug, .guests, .lrc, .tlbs,
      .waybills]
  | .debugNonceExpiry => [.debug]
  | .extest => [.reset, .links, .sessions, .lifecycle, .entropy, .keys, .keyCaches, .lrc, .tlbs, .waybills, .chans]
  | .tapReset => [.reset]
  | .heartbeat => [.ik]
  | .heartbeatTimeout => [.contacts, .phase, .ik, .dictQueue, .requests]
  | .watchdogExpiry => [.contacts, .phase, .ik, .dictQueue, .requests]
  | .innkeeperFailure .. => [.contacts, .phase, .ik, .irqPending, .dictQueue, .requests]
  | .takeoverDone =>
      [.regs, .contacts, .egress, .counters, .samples, .log, .phase, .ik, .irqPending, .irqCores, .sessions,
      .entropy, .keyCaches, .firmware, .teardown, .guests, .guestCmd, .requests, .set, .streams, .waybills,
      .chans, .dram, .out, .free]
  | .checkpoint => [.contacts, .counters, .phase, .ik, .irqPending]
  | .checkpointComplete => [.contacts, .counters, .phase, .ik, .irqPending]
  | .checkpointLate => [.counters, .ik, .irqPending]
  | .ikSelfTestRun .. => [.contacts, .ik, .irqPending]
  | .ikRecoveryTest .. =>
      [.regs, .egress, .counters, .samples, .log, .phase, .ik, .irqPending, .irqCores, .sessions, .entropy,
      .keyCaches, .firmware, .teardown, .guests, .guestCmd, .requests, .set, .streams, .waybills, .chans, .dram,
      .out, .free]
  | .switch => [.regs, .ik]
  | .retest => [.regs, .ik, .irqPending]
  | .holdOut => [.regs, .ik, .irqPending]
  | .release => [.regs, .ik, .irqPending]
  | .irqEdge .. => [.irqPending]
  | .irqDeliver .. => [.counters, .irqPending, .irqCores]
  | .irqQuery => [.regs]
  | .setPending => [.regs, .irqPending]
  | .clearPending => [.regs, .irqPending]
  | .clearCount => [.regs, .irqPending]
  | .irqAlertStatusWrite .. => [.irqPending]
  | .irqOverrunWrite .. => [.irqPending]
  | .writeIn .. => portParts
  | .readOut .. => portParts
  | .poll .. => portParts
  | .readIn => [.regs, .blobs, .holes]
  | .writeOut => [.regs, .holes]
  | .pigeonOwnerWrite .. => [.holes]
  | .t1sFrame .. =>
      [.regs, .night, .links, .egress, .counters, .samples, .irqPending, .dictQueue, .requests, .chans, .out]
  | .plcaBeaconTimeout => [.counters, .irqPending, .t1s]
  | .dictRead => dictParts
  | .dictWrite .. =>
      [.regs, .blobs, .reset, .night, .links, .egress, .routes, .peers, .gatehouses, .counters, .captures,
      .samples, .log, .phase, .ik, .irqPending, .holes, .dictQueue, .sessions, .flash, .calOver, .lifecycle,
      .entropy, .keys, .keyCaches, .firmware, .fuses, .debug, .teardown, .guests, .guestCmd, .requests, .lrc,
      .tlbs, .commit, .faults, .coherence, .streams, .waybills, .tallies, .contexts, .layouts, .chans, .dram,
      .groups, .buses, .out, .free]
  | .describe => dictParts
  | .defaults =>
      [.regs, .blobs, .egress, .counters, .samples, .ik, .irqPending, .dictQueue, .sessions, .flash, .requests,
      .out]
  | .openHello => [.regs, .egress, .counters, .samples, .irqPending, .dictQueue, .sessions, .entropy, .requests, .out]
  | .openCert => dictParts
  | .openProve => dictParts
  | .close => dictParts
  | .snapshotExpiry => [.sessions]
  | .stagingExpiry .. => [.sessions]
  | .sessionOpenTimeout .. => [.sessions]
  | .sessionIdleExpiry .. => [.sessions]
  | .openLockoutExpiry .. => [.sessions]
  | .flashCompactionDone => [.flash]
  | .clearTrained => [.regs, .blobs, .flash]
  | .registerWrite .. => [.regs, .blobs, .peers, .ik, .flash, .calOver, .waybills, .chans]
  | .clusterShutterExpiry .. => [.waybills]
  | .clusterDarkExpiry .. => [.tlbs, .waybills]
  | .clusterWakeDone .. => [.irqPending, .waybills]
  | .night => [.regs, .night]
  | .nightEntryStepDone =>
      [.regs, .night, .contacts, .links, .egress, .counters, .samples, .log, .ik, .irqPending, .irqCores,
      .keyCaches, .guests, .requests, .lrc, .tlbs, .streams, .waybills, .chans, .dram, .out, .free]
  | .wake .. => [.regs, .night, .links, .egress, .samples, .irqPending, .requests, .chans]
  | .wakeNLow .. => [.regs, .night, .contacts, .links, .egress, .samples, .irqPending, .requests, .chans]
  | .wakeTimerExpiry => [.regs, .night, .links, .egress, .samples, .irqPending, .requests, .chans]
  | .nightExitDone .. =>
      [.regs, .blobs, .night, .contacts, .links, .egress, .counters, .samples, .log, .phase, .ik, .irqPending,
      .irqCores, .flash, .keyCaches, .guests, .requests, .lrc, .faults, .coherence, .streams, .chans, .dram,
      .groups, .out, .free]
  | .refclkFail .. => [.clocks, .links, .log, .irqPending, .irqCores, .chans, .out]
  | .refclkRevert => [.clocks, .log, .irqPending, .out]
  | .refclkRecovery .. =>
      [.regs, .blobs, .clocks, .links, .egress, .gatehouses, .counters, .samples, .log, .phase, .ik,
      .irqPending, .irqCores, .flash, .keyCaches, .guests, .requests, .lrc, .faults, .coherence, .streams,
      .chans, .dram, .groups, .out, .free]
  | .dieTempSample .. => [.thermal, .links, .log, .irqPending, .chans, .out]
  | .cdcOverrunWrite .. => [.regs]
  | .ctrConfig => [.regs, .counters]
  | .ctrRead => [.regs]
  | .ctrWrite => [.regs, .counters]
  | .snapshot => [.regs, .captures]
  | .snapshotCapture .. => [.regs, .captures]
  | .clearDie => [.regs, .counters]
  | .ctrFreezeWrite .. => [.regs, .captures]
  | .sampleTick => [.samples]
  | .samplerConfigWrite .. => [.regs, .samples]
  | .hwmQueueWrite .. => [.regs, .samples]
  | .recoveryHoldExpiry => [.phase]
  | .startPhaseExpiry => [.phase]
  | .logRead => [.regs, .blobs]
  | .stat3Toggle => [.contacts]
  | .powerOff =>
      [.regs, .blobs, .forced, .timebase, .reset, .night, .clocks, .present, .thermal, .contacts, .links,
      .egress, .routes, .peers, .gatehouses, .counters, .captures, .samples, .log, .phase, .ik, .irqPending,
      .irqCores, .holes, .dictQueue, .sessions, .flash, .t1s, .lifecycle, .entropy, .keys, .keyCaches,
      .firmware, .debug, .teardown, .guests, .guestCmd, .requests, .set, .lrc, .tables, .tlbs, .commit, .faults,
      .coherence, .rmap, .streams, .waybills, .tallies, .contexts, .layouts, .chans, .map, .groups, .buses]
  | .detectWithoutPeer .. => [.regs, .links]
  | .i3cInBandInterrupt .. => [.irqPending, .chans]
  | .plcaBeaconHeard => [.t1s]
  | .clusterReturnsToService .. => [.waybills]
  | .cellarDieLost .. =>
      [.regs, .blobs, .present, .egress, .counters, .samples, .log, .phase, .irqPending, .flash, .keyCaches,
      .guests, .requests, .lrc, .faults, .coherence, .streams, .chans, .dram, .groups, .out, .free]
  | .refclkGood .. => [.clocks]

/-- The bounds of the error log and the counters: at most 65,536 records, 64 of them preserved, RECNO below 2^32 (R529, R530), and
every COUNT below 2^48 (R516). -/
def Obs.Sound (o : Obs) : Prop :=
  o.log.length ≤ 65536 ∧ o.preserved.length ≤ 64 ∧ o.logTail < 2 ^ 32 ∧ ∀ r ∈ o.ctrs.rows, r.2.count < 2 ^ 48

/-- The memory is in its canonical form, and the log and the counters keep their bounds. -/
def State.Sound (s : State) : Prop := Memory.wf s.cellar.dram = true ∧ s.obs.Sound

/-- A line's WCB entry, where it has one, is not tagged with another guest (R389, R394). -/
def State.ownLine (s : State) (pa gid : Nat) : Prop :=
  ∀ w, ((s.chan (s.wcbOf (s.place (pa / 64 * 64))).1).wcb.find (s.wcbOf (s.place (pa / 64 * 64))).2) = some w →
    w.gid = gid ∨ s.inTables (pa / 64 * 64) = true

/-- What reset entry leaves (R508, R509, Table 15.7): the device held in reset with the cause recorded; package keys, key epoch and
DRAM kept; the Ledger, guests, set, links and objects cleared, and TIMEBASE 0. -/
def ResetBy (cause : Nat) (s t : State) : Prop :=
  t.power.inReset = true ∧ t.power.resetCause = cause ∧ t.power.history = (cause :: s.power.history).take 8 ∧ t.power.timebase = 0 ∧
    t.sec.kwrap = s.sec.kwrap ∧ t.sec.ktable = s.sec.ktable ∧ t.sec.epoch = s.sec.epoch ∧ t.cellar.dram = s.cellar.dram ∧
    t.pool = {} ∧ t.work = {} ∧ t.trans = {} ∧ t.hearth = {} ∧ t.fabric = {} ∧ t.regs = {} ∧ t.blobs = {}


/-- A packet for this device passes its port (R270, R283): it is present, well formed, keyed and no copy, and the device is neither
asleep nor on its way. -/
def State.passes (s : State) (l : Nat) (p : Packet) : Prop :=
  s.running = true ∧ s.power.st = 0 ∧ (s.atPort l p).isSome = true ∧ s.formOk p = true ∧ s.keyOk l p = true ∧
    p.dst = s.epid ∧ p.dst ≠ 0xFFFFF ∧ (s.dedup l p).1 = true

/-- A broadcast passes its port and is new here (R283, R296). -/
def State.hears (s : State) (l : Nat) (p : Packet) : Prop :=
  s.running = true ∧ s.power.st = 0 ∧ (s.atPort l p).isSome = true ∧ s.formOk p = true ∧ s.keyOk l p = true ∧
    p.dst = 0xFFFFF ∧ s.newBcast p = true

/-- A request on a link and VC finds a tracker at once (R67, R74, R75): its pool has more than one free, and no claim that could take one
waits, nor any of its link and VC. -/
def State.tracks (s : State) (l : Nat) (p : Packet) : Prop :=
  (p.opc = 0x05 → s.bellsFull = false) ∧ (s.trackerPool p.tc).isSome = true ∧ s.lastTracker p.tc = false ∧
    (s.pool.reqs.lowestFree trackerCount).isSome = true ∧ s.ready75 = [] ∧
    s.pool.claims.any (fun x => x.link == l && x.p.vc == p.vc) = false

/-- A request passes its port, finds a tracker, is mapped to a resident guest, and passes every check of R20 with its window. -/
def State.admits (s : State) (l : Nat) (p : Packet) (g : Nat) (w : Window) : Prop :=
  s.passes l p ∧ s.tracks l p ∧ s.gmapLook p.src p.pkey = some g ∧ s.guestCheck g = none ∧ (s.guest g).resident = true ∧
    s.checks { link := l, p := p, gid := g, dir := (s.guest g).dir } = (none, some w) ∧ s.keyUnwraps g = true

/-- An entry of the translation cache maps every page that a request touches, and no zero fill runs on one (R33, R194). -/
def State.cached (s : State) (g : Nat) (p : Packet) : Prop :=
  ∀ x ∈ pieces p.addr (reqLen p), ∃ a, s.xlCached g x.1 (writes p.opc) = .ok a ∧ s.filling a = none

/-- Pool-address ranges of a request. -/
def State.ranges (s : State) (g : Nat) (p : Packet) : List (Nat × Nat) :=
  (pieces p.addr (reqLen p)).map fun x => (match s.xlCached g x.1 (writes p.opc) with | .ok a => a | _ => 0, x.2)

/-- A packet's arrival at its port, up to what its opcode does. -/
def portOnly : List Part := [.links, .egress, .peers, .counters, .samples, .irqPending]

/-- What a request's arrival may change before its access. -/
def arrivalParts : List Part := [.regs, .links, .egress, .peers, .counters, .samples, .irqPending, .guests, .requests]

/-- A SETMSG arrives, by unicast or as a broadcast that is new here, where firmware serves, and its source is no intruder (R29). -/
def State.gets (s : State) (l : Nat) (p : Packet) (m : SetMsg) : Prop :=
  (s.passes l (s.setPkt p m) ∨ s.hears l (s.setPkt p m)) ∧ s.tracks l (s.setPkt p m) ∧ s.served = true ∧
    s.pool.intruders.contains p.src = false

/-- A SETMSG has been acted on: its arrival has changed nothing outside a few parts, and its tracker is free again. -/
def State.acts (s : State) (f : State → State) (t : State) : Prop :=
  ∃ (m : State) (k : Nat), Frame arrivalParts s m ∧ t = (f m).freeTracker k

/-- The request holds a tracker, is translated, and makes its access; its arrival has changed nothing outside a few parts. -/
def State.reaches (s : State) (l : Nat) (p : Packet) (g : Nat) (w : Window) (t : State) : Prop :=
  ∃ (m : State) (k : Nat) (r : Req), Frame arrivalParts s m ∧ m.pool.reqs.find k = some r ∧ r.p = p ∧ r.link = l ∧ r.gid = g ∧
    r.win = some w ∧ r.pas = s.ranges g p ∧ t = m.perform k r

/-- The active Innkeeper has failed for a cause (R425, R427, R433, R435): it is under self-test or held out; the other takes over from
now, or none is active; and requests that were not answered are lost. -/
def State.failsOver (s : State) (cause : Nat) (t : State) : Prop :=
  t.ik.lastCause = cause ∧ t.dict.queue = [] ∧ t.ik.ckptDue = none ∧ ((t.ikd s.ik.active).st = 1 ∨ (t.ikd s.ik.active).st = 6) ∧
    (s.canTake (1 - s.ik.active) = true →
      t.ik.gap = some { target := 1 - s.ik.active, cause := cause, start := s.now } ∧ t.obs.recoveryHold = true) ∧
    (s.canTake (1 - s.ik.active) = false → t.ik.gap = none ∧ t.ik.bothLost = true ∧ t.ik.active = 0xFF)

/-- A chunk of a running waybill of an opcode runs, and has one granule or element, not yet committed, held or marked. -/
def State.oneLeft (s : State) (key c opc : Nat) (k : Chunk) : Prop :=
  ∃ w : Waybill, s.work.wbs.find key = some w ∧ w.opc = opc ∧ s.runs key c = true ∧ w.chunks.find c = some k ∧ k.count = 1 ∧
    k.bits.testBit 0 = false ∧ k.held.has k.first = false ∧ w.marks.has k.first = false

/-- What a kernel makes of a granule is placed: it is held for its commit, fails, or waits. -/
def State.places (t : State) (key c g : Nat) (r : Calc × State) : Prop := t = r.2.placeCalc key c g r.1

/-- What a kernel makes of a chunk's one granule is whole: nothing stops it, and its destination, in memory or in the staging of a context, is
all there for the write o, in the state m. -/
def makesWhole (key c : Nat) (k : Chunk) (r : Calc × State) (o : Wr) (m : State) : Prop :=
  r.1.waits = false ∧ r.1.fail = 0 ∧
    ((r.1.stage = none ∧ r.2.writeRanges key k.cluster k.first r.1.ranges = (o, m) ∧ o.fail = 0 ∧ o.waits = false ∧ o.lost = false) ∨
      ∃ x : Nat, r.1.stage = some x ∧ o = { outs := stageOuts (r.2.work.ctxs.getD x {}) r.1.ranges } ∧ m = r.2) ∧
    ∃ w : Waybill, r.2.work.wbs.find key = some w ∧ w.chunks.find c = some k

/-- The granule is held for its commit, with what its write stores, the flags it raises, its poison, and the answers its packets await; memory is
as the state m has it. -/
def State.holdsMade (t : State) (key c g : Nat) (r : Calc) (o : Wr) (m : State) : Prop :=
  ∃ (w : Waybill) (k : Chunk) (h : Held), t.work.wbs.find key = some w ∧ w.chunks.find c = some k ∧ k.held.find g = some h ∧ h.outs = o.outs ∧
    h.flags = r.flags ∧ h.poison = r.poison ∧ h.waiting = o.remote.length + r.deliver.length ∧ t.cellar = m.cellar

/-- A chunk's command, where the chunk runs and has one granule left: what the kernel makes of it is placed, and held for its commit where it
is whole. -/
def State.chunkMakes (s : State) (i : Instr) (key c opc : Nat) (k : Chunk) (r : Calc × State) : Prop :=
  s.oneLeft key c opc k → (Completes i s fun t => t.places key c k.first r) ∧
    ∀ (o : Wr) (m : State), makesWhole key c k r o m → Completes i s fun t => t.holdsMade key c k.first r.1 o m

/-- An element of ATOMIC or CAS has all it needs (R137): its operand b, its pool address pa, in a page that translates and takes writes, its line
x, neither lost nor poisoned, and room for its writes; o is what RES takes, and m the state in which they are there. -/
def State.atomReady (s : State) (key cl i : Nat) (b : Rd) (pa : Nat) (x : Seen) (o : Wr) (m : State) : Prop :=
  ∃ u v q : State,
    (if (s.wb key).opc == 0x20 && (s.wb key).bvec && !opUnary (s.wb key).aop
      then s.readRange key cl i ((s.wb key).pvaOp 2 + i * (s.wb key).atomSize) (s.wb key).atomSize else (({} : Rd), s)) = (b, u) ∧
    b.fail = 0 ∧ b.waits = false ∧ b.poisoned = false ∧
    u.porterXl cl (s.wb key).gid ((s.wb key).dst + i * (s.wb key).atomSize) true = (.ok pa, v) ∧ v.filling pa = none ∧
    v.hearthBlock pa (s.wb key).atomSize true (Grant.ofGranule key i) = none ∧
    v.porterLine (s.wb key).gid (pa / 64 * 64) false = (x, q) ∧ x.waits = false ∧ x.poison = false ∧ q.lineLost pa = false ∧
    (if (s.wb key).fetchOld then q.writeRanges key cl i [WRange.sound ((s.wb key).pvaOp 3 + i * (s.wb key).atomSize)
      (leBytes (s.wb key).atomSize (leNat (sliceBytes x.data (pa % 64) (s.wb key).atomSize)))] else (({} : Wr), q)) = (o, m) ∧
    o.fail = 0 ∧ o.waits = false ∧ m.outsRoom o.outs = true ∧ m.wcbRoom pa = true

/-- The element's new value is in the WCB, its old one in RES, and its bit is set. -/
def State.atomDone (m : State) (w : Waybill) (key c i : Nat) (b : Rd) (pa : Nat) (x : Seen) (o : Wr) : State :=
  let new := w.atomNew i (leNat (sliceBytes x.data (pa % 64) w.atomSize)) (if w.bvec then leNat b.bytes else w.op 1)
  (((m.wcbWrite pa w.gid (leBytes w.atomSize new.1) false).putOuts w.gid o.outs).countChan (m.wcbOf (m.place pa)).1 0x301B 0).commitElem key c i
    new.2 false x.degraded

/-- Rows of a slice of MOEFFN's phase 1 (R172). -/
def Waybill.sliceQs (w : Waybill) (i : Nat) : List Nat :=
  let sr := sliceRows w.colsK w.nparts w.batch
  (upto (min w.colsK ((i + 1) * sr) - i * sr)).map fun j => i * sr + j

/-- A waybill's sequencer has its words: u is the state in which they are there, fetched again from the ring slot where they are to be (R82). -/
def State.hasWords (s : State) (key : Nat) (u : State) : Prop := u = s.refetchWb key ∧ (u.wb key).refetch = false

/-- A hearth line is kept busy for the write of this granule (R226). -/
def State.keepsOpen (s : State) (key g : Nat) : Bool := s.hearth.dir.rows.any fun r => r.2.open_ && Grant.ofGranule key g r.2.grant

/-- What work that waited and goes on may change. -/
def resumeParts : List Part :=
  [.regs, .egress, .counters, .samples, .log, .irqPending, .keyCaches, .guests, .requests, .lrc, .faults, .coherence, .streams, .waybills, .chans,
  .dram, .out, .free]

/-- What accesses that are held on pages and go on, or end, may change. -/
def releaseParts : List Part :=
  [.regs, .egress, .counters, .samples, .log, .irqPending, .keyCaches, .guests, .requests, .lrc, .tlbs, .faults, .coherence, .streams, .waybills,
  .contexts, .chans, .dram, .out, .free]

/-- What the tables of a batch, written to memory, may change. -/
def tableParts : List Part :=
  [.egress, .counters, .samples, .log, .irqPending, .keyCaches, .guests, .requests, .tables, .tlbs, .commit, .rmap, .streams,
  .chans, .dram, .out, .free]

/-- A batch has passed its commit point (R201 to R204): its records are in the window table; in a state u caches hold nothing of its spans
and nothing but its tables is written; and from there the guest's GEN is one more and what waited on its pages goes on. -/
def State.pastPoint (s : State) (c : Commit) (t : State) : Prop :=
  t.trans.leaves = c.recs.foldl (fun ls u => applyUpd ls c.gid u) s.trans.leaves ∧ t.trans.epoch = s.trans.epoch + 1 ∧
    (∃ c' : Commit, t.trans.commit = some c' ∧ c'.phase = 5 ∧ c'.recs = c.recs ∧ c'.gid = c.gid) ∧
    ∃ u : State, Frame tableParts s u ∧ t = u.afterPoint c ∧
      ∀ e ∈ u.trans.cache, e.ptr = false → e.gid = c.gid → ∀ r ∈ c.recs, overlaps e.base e.span r.pva (levelSpan r.level) = false

/-- The device sends one CTRL message on a link, in the flits that spell it, and nothing else. -/
def State.says (s : State) (l : Nat) (m : CtrlMsg) (t : State) : Prop := ∃ h, t.out = .ctrl l h m (ctrlFlits h m) :: s.out

/-- A link once the header fields of a flit that is not bad are applied at a time (R249). -/
def Link.heard (k : Link) (h : CtrlHdr) (now : Nat) : Link :=
  { k with tx := { ((k.tx.ackUpTo h.ack).stamped k.tx now).credit (2 * h.cretTc + h.cretDl) h.cretN with paused := h.pause } }

/-- A replay of a link has started from a flit at a time (R250). -/
def Link.replays (k : Link) (n now : Nat) : Link :=
  { k with tx := { k.tx with replay := some n, replayFrom := n, consec := k.tx.consec + 1, replayAt := some now } }

/-- A link is out of service (R260, R266 to R268): state and cause are set, its keys are destroyed, its counters and buffers discarded,
nothing waits to be sent on it, and no other link has changed its state. -/
def State.linkLost (s : State) (l st cause : Nat) (t : State) : Prop :=
  (t.link l).st = st ∧ (t.link l).cause = cause ∧ (t.link l).keys = [] ∧ (t.link l).tx = {} ∧ (t.link l).kx = {} ∧ (t.link l).rx.grp = [] ∧
    ((s.link l).established = true → ∀ e ∈ t.fabric.egress, e.link ≠ l) ∧ ∀ x, x ≠ l → (t.link x).st = (s.link x).st

/-- A request of an operation stands at the front of the dictionary's queue and reaches it (R468, R473): it is well formed, and it is
unprotected and asks as no session, or protected and taken under its session's keys. What is left, the request taken, is m. -/
def State.asks (s : State) (op : Nat) (q : DictReq) (p : Pdu) (a : Asker) (d : Bytes) (keys : Option Bytes) (m : State) : Prop :=
  s.dictUp = true ∧ p = pduOf q.pdu ∧ p.op = op ∧ p.formed = true ∧ ∃ (rest : List DictReq) (u : State), s.dict.queue = q :: rest ∧
    u = State.leaveQ { s with dict := { s.dict with queue := rest } } qidDict q.joined ∧
    ((p.sec = false ∧ a = { via := q.via.peer } ∧ d = p.data ∧ keys = none ∧ m = u) ∨
     (p.sec = true ∧ ∃ x : Session, u.unsealPdu q.via p = some (x, d, m) ∧ a = { via := q.via.peer, session := p.session } ∧ keys = some x.keys))

/-- A whole value is stored in an object and in nothing else that software writes; where the object is persisted and the flash takes it, one
record of it is appended to the active copy; and the write is in the journal (R423, R465, R477). -/
def State.stored (s : State) (row : ObjRow) (k : Nat) (v : Bytes) (t : State) : Prop :=
  (row.ty.isNum = true → t.reg k = leNat v) ∧ (row.ty.isNum = false → t.blob k = v) ∧ (∀ j, j ≠ k → t.reg j = s.reg j ∧ t.blob j = s.blob j) ∧
    (row.persisted = true → s.dict.flashBad = false → s.dict.compacting = false → ∃ r : FlashRec,
      t.dict.active = s.dict.active ++ [r] ∧ r.key = k ∧ r.value = v ∧ r.good = true) ∧ t.ik.journal = s.ik.journal ++ [k]

/-- A session has ended, with its staging and snapshots, and no other has changed (R474). -/
def State.sessionEnds (s : State) (n : Nat) (t : State) : Prop :=
  t.dict.sessions = s.dict.sessions.del n ∧ t.dict.snaps = s.dict.snaps.filter fun x => x.session != n

/-- A die's bit in a set of temperature levels after a sample of q quarter degrees (R507): in it above the limit, out of it at 3 degrees
below or less, and as it was between. -/
def levelSet (m m' die : Nat) (q : Int) (limit : Nat) : Prop :=
  (4 * (limit : Int) < q → m'.testBit die = true) ∧ (q ≤ 4 * ((limit : Int) - 3) → m'.testBit die = false) ∧
    (4 * ((limit : Int) - 3) < q → q ≤ 4 * (limit : Int) → m' = m)


end Sys2Proof.Machine
end

