-- ==== Sys2Proof/Certificates/Slice0/Obligations.lean ====
section
/-! DEFINITION. The statements for the provers. A statement about every state must also hold in states that no run reaches; the words it is
said in are those of `Sys2Proof/Safety.lean`. -/

open Sys2Proof Sys2Proof.Machine

/-- Power, reset and start-up (R393, R407, R508, R509, R413): each command has its effect where its event can happen. -/
def Obligations.PowerAndResetComplete : Prop :=
  (∀ s : State, s.power.aon = false → Completes .powerOn s fun t =>
    t.power.aon = true ∧ t.power.inReset = true ∧ t.power.keysDue = true ∧ t.sec.st = 0 ∧ t.sec.kwrap = none ∧ t.sec.ktable = none ∧
      t.pool = {} ∧ t.sec.svnBlown = s.sec.svnBlown ∧ t.dict.copy0 = s.dict.copy0 ∧ t.dict.copy1 = s.dict.copy1) ∧
  (∀ s : State, s.power.aon = true → Completes .powerOff s fun t =>
    t.power.aon = false ∧ t.sec.st = 0 ∧ t.sec.kwrap = none ∧ t.sec.ktable = none ∧ t.power.thermtrip = false ∧ t.pool = {} ∧
      t.sec.svnBlown = s.sec.svnBlown ∧ t.dict.copy0 = s.dict.copy0 ∧ t.dict.copy1 = s.dict.copy1) ∧
  (∀ s : State, s.power.aon = true → s.power.resetN = true → s.power.inReset = false → Completes .resetNFall s fun t =>
    t.power.resetN = false ∧ ResetBy 0x02 s t) ∧
  (∀ s : State, s.power.aon = true → s.power.pwrGood = true → s.power.inReset = false → Completes .pwrGoodFall s fun t =>
    t.power.pwrGood = false ∧ t.power.supplyArmed = false ∧ ResetBy 0x03 s t) ∧
  (∀ (s : State) (early late : Fin 2048) (present : Nat), s.power.aon = true → s.power.inReset = true → s.power.refGood ≠ 0 →
    Completes (.resetRelease early late present) s fun t =>
      t.power.inReset = false ∧ t.power.timebase = 0 ∧ t.power.supplyArmed = true ∧
        t.power.roleMgr = (early.val.testBit 0 && late.val.testBit 0) ∧
        t.power.resetCause = (if s.power.powerOn then 0x01 else s.power.resetCause) ∧
        t.power.refSel = (if s.power.refGood.testBit 0 then 0 else 1)) ∧
  (∀ (s : State) (ik1 : Bool) (dimms : List Dimm) (n : Nat), s.up = true → s.halted = false → s.sec.booted = false →
    s.sec.st ≠ 4 → s.ik.noFirmware = false → s.hasDie 0 = true → s.packageKeys.bootSlot = some n →
    Completes (.secureBoot true ik1 dimms) s fun t =>
      t.sec.booted = true ∧ t.sec.slot = n ∧ t.ik.active = 0 ∧ t.power.keysDue = false ∧
        (s.power.keysDue = false → t.sec.kwrap = s.sec.kwrap ∧ t.sec.ktable = s.sec.ktable)) ∧
  (∀ s : State, s.accepts Obj.powerCmdResult → Completes .coldReset s fun t =>
    t.power.coldDelay = true ∧ t.reg Obj.powerCmdResult = 0x01 ∧ s.regsBut [Obj.powerCmdOp, Obj.powerCmdResult] t) ∧
  (∀ s : State, s.up = true → s.power.coldDelay = true → Completes .coldResetDelayExpiry s fun t => ResetBy 0x04 s t) ∧
  (∀ (s : State) (cause : Fin 3), s.power.aon = true → s.halted = false → (cause.val = 0 → s.power.supplyArmed = true) →
    Completes (.tamper cause) s fun t =>
      t.sec.st = 2 ∧ t.sec.tamperCause = cause.val + 1 ∧ t.sec.kwrap = none ∧ t.sec.ktable = none ∧ t.sec.caches = {} ∧
        t.sec.drbgZeroed = true ∧ t.alertN = (t.power.thermtrip || !t.power.inReset))

/-- Guest commands (R15, R18, R19, R22, R30, R47, R48, R392): where the serving manager or the device accepts one, it has its effect. -/
def Obligations.GuestCommandsComplete : Prop :=
  (∀ s : State, s.accepts Obj.guestCmdResult → s.power.roleMgr = true → s.pool.setState = 3 → s.sec.noDefine = false → s.pool.guests.has s.cmdGid = false →
    pkeyOk (s.reg Obj.guestCmdPkey) = true → Completes .define s fun t =>
      t.pool.guests.has s.cmdGid = true ∧ (t.guest s.cmdGid).pkey = s.reg Obj.guestCmdPkey ∧ (t.guest s.cmdGid).resident = s.slotFree ∧
        (t.guest s.cmdGid).pinned = false ∧ (t.guest s.cmdGid).dir = s.pool.oldDirs.getD s.cmdGid {} ∧
        ((t.guest s.cmdGid).key.kstate = if s.drbgOk && s.sec.kwrap.isSome then 1 else 2) ∧
        t.reg Obj.guestCmdResult = 0x01 ∧ s.regsBut [Obj.guestCmdOp, Obj.guestCmdResult] t) ∧
  (∀ s : State, s.accepts Obj.guestCmdResult → s.power.roleMgr = true → s.pool.setState = 3 → s.pool.guests.has s.cmdGid = true →
    s.reg Obj.guestCmdWindow < 240 → windowRsvdOk (leNat (s.blob Obj.guestCmdEntry)) = true →
    ((windowOf (leNat (s.blob Obj.guestCmdEntry))).valid = true →
      windowFits (s.guest s.cmdGid).dir (s.reg Obj.guestCmdWindow) (windowOf (leNat (s.blob Obj.guestCmdEntry))) = true) →
    Completes .windowSet s fun t =>
      t.pool.guests = s.pool.guests.upd s.cmdGid (fun g =>
        { g with dir := g.dir.put (s.reg Obj.guestCmdWindow) (windowOf (leNat (s.blob Obj.guestCmdEntry))) }) ∧
        t.pool.dirEpoch = s.pool.dirEpoch + 1 ∧ t.reg Obj.guestCmdResult = 0x01 ∧ s.regsBut [Obj.guestCmdOp, Obj.guestCmdResult] t) ∧
  (∀ s : State, s.accepts Obj.guestCmdResult → s.power.roleMgr = true → s.pool.setState = 3 → s.pool.guests.has s.cmdGid = true →
    s.reg Obj.guestCmdWindow < 240 → Completes .windowClear s fun t =>
      t.pool.guests = s.pool.guests.upd s.cmdGid (fun g => { g with dir := g.dir.del (s.reg Obj.guestCmdWindow) }) ∧
        t.pool.dirEpoch = s.pool.dirEpoch + 1 ∧ t.reg Obj.guestCmdResult = 0x01 ∧ s.regsBut [Obj.guestCmdOp, Obj.guestCmdResult] t) ∧
  (∀ s : State, s.accepts Obj.guestCmdResult → s.power.roleMgr = true → s.pool.setState = 3 → s.pool.guests.has s.cmdGid = true →
    pkeyOk (s.reg Obj.guestCmdPkey) = true → Completes .setPkey s fun t =>
      t.pool.guests = s.pool.guests.upd s.cmdGid (fun g => { g with pkey := s.reg Obj.guestCmdPkey }) ∧
        t.reg Obj.guestCmdResult = 0x01 ∧ s.regsBut [Obj.guestCmdOp, Obj.guestCmdResult] t) ∧
  (∀ s : State, s.accepts Obj.guestCmdResult → s.pool.guests.has s.cmdGid = true → (s.guest s.cmdGid).pinned = false → s.pinRoom = true →
    (s.guest s.cmdGid).resident = true → Completes .pin s fun t =>
      t.pool.guests = s.pool.guests.upd s.cmdGid (fun g => { g with pinned := true }) ∧
        t.reg Obj.guestCmdResult = 0x00 ∧ s.regsBut [Obj.guestCmdOp, Obj.guestCmdResult] t) ∧
  (∀ s : State, s.accepts Obj.guestCmdResult → s.pool.guests.has s.cmdGid = true → (s.guest s.cmdGid).pinned = false → s.pinRoom = true →
    (s.guest s.cmdGid).resident = false → Completes .pin s fun t =>
      t.pool.cmd.kind = 3 ∧ t.pool.cmd.gid = s.cmdGid ∧ t.pool.swaps.any (fun w => w.gid == s.cmdGid) = true ∧
        t.reg Obj.guestCmdResult = 0x01 ∧ s.regsBut [Obj.guestCmdOp, Obj.guestCmdResult] t) ∧
  (∀ s : State, s.accepts Obj.guestCmdResult → s.pool.guests.has s.cmdGid = true → Completes .unpin s fun t =>
    t.pool.guests = s.pool.guests.upd s.cmdGid (fun g => { g with pinned := false }) ∧
      t.reg Obj.guestCmdResult = 0x00 ∧ s.regsBut [Obj.guestCmdOp, Obj.guestCmdResult] t) ∧
  (∀ s : State, s.accepts Obj.guestCmdResult → Completes .guestQuery s fun t =>
    t.reg Obj.guestCmdState = s.guestState s.cmdGid ∧ t.reg Obj.guestCmdPkey = (s.guest s.cmdGid).pkey ∧
      t.reg Obj.guestCmdResult = 0x00 ∧
      s.regsBut [Obj.guestCmdOp, Obj.guestCmdState, Obj.guestCmdPkey, Obj.guestCmdResult] t) ∧
  (∀ s : State, s.served = true → s.busy Obj.guestCmdResult = true →
    ((s.pool.cmd.kind = 1 ∧ s.underOld s.pool.cmd.gid s.pool.cmd.dirEpoch = false) ∨
      (s.pool.cmd.kind = 2 ∧ (s.guest s.pool.cmd.gid).key.kstate = 1)) →
    Completes .guestCmdApplied s fun t =>
      t.reg Obj.guestCmdResult = 0x00 ∧ t.pool.cmd.kind = 0 ∧ s.regsBut [Obj.guestCmdResult] t)

/-- Swaps (R10 to R13): a swap that is done makes its guest resident and lets the requests that waited go on; one that is given up ends
the requests, waybills and fetches that waited NOT_RESIDENT, unless a slot or a victim is there in that cycle; a swap that looks for a
victim takes a slot when there is one. -/
def Obligations.GuestSwapsComplete : Prop :=
  (∀ (s : State) (gid : Fin 1048576) (w : Swap), s.running = true → s.swapOf gid.val = some w → w.slot = true →
    s.pool.guests.has gid.val = true → Completes (.guestSwapDone gid) s fun t => ∃ m : State,
      m.pool.swaps = s.pool.swaps.filter (fun x => x.gid != gid.val) ∧ (m.guest gid.val).resident = true ∧
        (s.pool.cmd.kind = 3 ∧ s.pool.cmd.gid = gid.val → m.pool.cmd.kind = 0 ∧
          ((m.reg Obj.guestCmdResult = 0x00 ∧ (m.guest gid.val).pinned = true) ∨ m.reg Obj.guestCmdResult = 0x04)) ∧
        t = m.resume fun r => r.stage == .swap && r.gid == gid.val) ∧
  (∀ (s : State) (gid : Fin 1048576) (w : Swap), s.running = true → s.swapOf gid.val = some w → w.slot = false →
    s.slotFree = false → s.swapVictim = none → Completes (.guestSwapHoldExpiry gid) s fun t =>
      t.pool.swaps = s.pool.swaps.filter (fun x => x.gid != gid.val) ∧
        (∀ (k : Nat) (r : Req), s.pool.reqs.find k = some r → r.stage = .swap → r.gid = gid.val →
          ∀ r' : Req, t.pool.reqs.find k = some r' → r'.stage = .answer) ∧
        (∀ k ∈ w.wbs, ∀ x : Waybill, s.work.wbs.find k = some x → x.st = 0 →
          ∃ y : Waybill, t.work.wbs.find k = some y ∧ y.st = 2 ∧ y.early = some 0x06) ∧
        (∀ k ∈ w.wbs, ∀ x : Waybill, s.work.wbs.find k = some x → x.st = 1 →
          ∃ y : Waybill, t.work.wbs.find k = some y ∧ y.st = 2 ∧ ∀ c ∈ y.chunks.rows, c.2.st = 3) ∧
        (∀ k ∈ w.fetches, ∀ x : Stream, s.work.streams.find k = some x → x.err = none →
          ∃ y : Stream, t.work.streams.find k = some y ∧ y.err = some (x.seq, 0x06)) ∧
        (s.pool.cmd.kind = 3 ∧ s.pool.cmd.gid = gid.val → t.pool.cmd.kind = 0 ∧ t.reg Obj.guestCmdResult = 0x08)) ∧
  (∀ (s : State) (gid : Fin 1048576) (w : Swap), s.running = true → s.swapOf gid.val = some w → w.slot = false →
    (s.slotFree = true ∨ s.swapVictim.isSome = true) → Completes (.guestSwapHoldExpiry gid) s fun t =>
      t.pool.swaps.map (·.gid) = s.pool.swaps.map (·.gid) ∧ ∃ x ∈ t.pool.swaps, x.gid = gid.val ∧ x.slot = true) ∧
  (∀ (s : State) (w : Swap) (ws : List Swap), s.running = true → s.pool.swaps = w :: ws → w.slot = false →
    (s.slotFree = true ∨ s.swapVictim.isSome = true) → Completes .swapVictimEligible s fun t =>
      t.pool.swaps.map (·.gid) = s.pool.swaps.map (·.gid) ∧ ∃ x ∈ t.pool.swaps, x.gid = w.gid ∧ x.slot = true)

/-- Set formation (R23 to R30), where a message finds a tracker: a worker answers an ANNOUNCE with a JOIN; a device that serves, or has
joined, drops another manager from then on, and one that forms is in CONFLICT; with each announcement the manager is member 0 of the set,
which serves once all have joined; it admits what passes R26 and refuses what does not; a worker takes its DEVID by ADMIT, is REFUSED by REFUSE, and serves after DISTRIBUTE; forming ends by its timer. -/
def Obligations.SetFormationCompletes : Prop :=
  (∀ (s : State) (link : Fin 32) (p : Packet) (setId state : Nat) (nonce : Bytes),
    s.gets link.val p (.announce setId state nonce) → setId = s.setIdNow → setId ≠ 0 →
    (s.power.roleMgr = false → s.pool.setState = 0 ∨ s.pool.setState = 1 → s.pool.nonce = [] →
      Completes (.announce link p setId state nonce) s fun t =>
        t.pool.setState = 1 ∧ t.pool.managerEpid = p.src ∧ t.pool.nonce = nonce ∧ t.pool.heard = state ∧
          s.acts (fun m => m.sendJoin p.src state nonce) t) ∧
    (s.power.roleMgr = true → s.pool.setState = 3 → p.src ≠ s.epid →
      Completes (.announce link p setId state nonce) s fun t =>
        t.pool.intruders = s.pool.intruders ++ [p.src] ∧ t.pool.setState = 3 ∧
          s.acts (fun m => (m.intrude p.src).sendSet p.src (.refuse setId 3)) t) ∧
    (s.power.roleMgr = false → s.pool.setState = 2 ∨ s.pool.setState = 3 → p.src ≠ s.pool.managerEpid →
      Completes (.announce link p setId state nonce) s fun t =>
        t.pool.intruders = s.pool.intruders ++ [p.src] ∧ t.pool.setState = s.pool.setState ∧ s.acts (fun m => m.intrude p.src) t) ∧
    (s.power.roleMgr = true → s.pool.setState = 1 → p.src ≠ s.epid →
      Completes (.announce link p setId state nonce) s fun t => t.pool.setState = 4 ∧ s.acts (fun m => m.conflict) t)) ∧
  (∀ s : State, s.served = true → s.power.roleMgr = true → s.pool.setState ≠ 4 → s.pool.setState ≠ 5 →
    Completes .announceSend s fun t =>
      t.pool.devid = 0 ∧ t.pool.managerEpid = s.epid ∧
        t.pool.members = s.pool.members.put 0 { epid := s.epid, serial := Config.serialNumber } ∧
        (s.setIdNow = 0 → t.pool.setState = 3) ∧
        (s.setIdNow ≠ 0 → t.pool.setState = if s.pool.setState = 3 ∨ s.inForce Obj.expectedWorkers ≤ s.workerCount then 3 else 1)) ∧
  (∀ (s : State) (link : Fin 32) (p : Packet) (idReq : Nat) (chain sig : Bytes), s.gets link.val p (.join idReq chain sig) →
    s.power.roleMgr = true → s.setIdNow ≠ 0 → s.pool.setState = 1 ∨ s.pool.setState = 3 →
    (∀ d : Nat, s.joinOk idReq chain sig = true → s.joinDevid idReq (leafSerial chain) = some d →
      Completes (.join link p idReq chain sig) s fun t =>
        t.pool.members = s.pool.members.put d { epid := p.src, serial := leafSerial chain }) ∧
    (s.joinOk idReq chain sig = false ∨ s.joinDevid idReq (leafSerial chain) = none →
      Completes (.join link p idReq chain sig) s fun t =>
        t.pool.members = s.pool.members ∧ t.pool.setState = s.pool.setState ∧ s.acts (fun m => m.refuseJoin p.src) t)) ∧
  (∀ (s : State) (link : Fin 32) (p : Packet) (devid : Nat), s.gets link.val p (.admission devid) →
    s.power.roleMgr = false → s.pool.setState = 1 → p.src = s.pool.managerEpid →
    Completes (.admitMsg link p devid) s fun t =>
      t.pool.setState = 2 ∧ t.pool.devid = devid ∧
        t.pool.members = (s.pool.members.put 0 { epid := p.src }).put devid { epid := s.epid, serial := Config.serialNumber }) ∧
  (∀ (s : State) (link : Fin 32) (p : Packet) (setId state : Nat), s.gets link.val p (.refuse setId state) →
    s.pool.setState = 1 → setId = s.setIdNow →
    (s.power.roleMgr = false → p.src = s.pool.managerEpid → Completes (.refuse link p setId state) s fun t => t.pool.setState = 5) ∧
    (s.power.roleMgr = true → state = 3 → Completes (.refuse link p setId state) s fun t => t.pool.setState = 4)) ∧
  (∀ (s : State) (link : Fin 32) (p : Packet) (ms : List (Nat × Nat)) (defs : List GuestDef) (erase : List Nat),
    s.gets link.val p (.distribute ms defs erase) →
    s.power.roleMgr = false → s.pool.setState = 2 ∨ s.pool.setState = 3 → p.src = s.pool.managerEpid →
    Completes (.distribute link p ms defs erase) s fun t =>
      t.pool.setState = 3 ∧ t.pool.dirEpoch = s.pool.dirEpoch + 1 ∧ t.obs.startOver = true ∧
        (s.sec.noDefine = false → ∀ d : GuestDef, defs = [d] → erase = [] → (s.guest d.gid).tearing = false →
          t.pool.guests.has d.gid = true ∧ (t.guest d.gid).pkey = d.pkey ∧
            (t.guest d.gid).dir = d.dir.foldl (fun (b : Tab Window) e => b.put e.1 (windowOf e.2)) {})) ∧
  (∀ s : State, s.served = true → s.power.roleMgr = true → s.pool.setState = 1 → Completes .formTimeoutExpiry s fun t =>
    t.pool.setState = 3 ∧ t.obs.startOver = true)

/-- Memory requests that arrive (R20, R74, R194, R280): one that passes its checks, with its pages in the translation cache, holds a
tracker and makes its access; a doorbell that R63 allows moves TAIL, and one that it does not is discarded and counted. -/
def Obligations.MemoryRequestsComplete : Prop :=
  (∀ (s : State) (link : Fin 32) (p : Packet) (g : Nat) (w : Window), s.admits link.val (s.mine p 0x01) g w → s.cached g (s.mine p 0x01) →
    Completes (.read link p) s fun t => s.reaches link.val (s.mine p 0x01) g w t) ∧
  (∀ (s : State) (link : Fin 32) (p : Packet) (g : Nat) (w : Window), s.admits link.val (s.mine p 0x02) g w → s.cached g (s.mine p 0x02) →
    Completes (.write link p) s fun t => s.reaches link.val (s.mine p 0x02) g w t) ∧
  (∀ (s : State) (link : Fin 32) (p : Packet) (g : Nat) (w : Window), s.admits link.val (s.mine p 0x03) g w → s.cached g (s.mine p 0x03) →
    Completes (.writeP link p) s fun t => s.reaches link.val (s.mine p 0x03) g w t) ∧
  (∀ (s : State) (link : Fin 32) (p : Packet) (g : Nat) (w : Window), s.admits link.val (s.mine p 0x04) g w → s.cached g (s.mine p 0x04) →
    Completes (.atomicPacket link p) s fun t => s.reaches link.val (s.mine p 0x04) g w t) ∧
  (∀ (s : State) (link : Fin 32) (p : Packet) (g : Nat) (x : Stream), s.passes link.val (s.mine p 0x05) → s.tracks link.val (s.mine p 0x05) →
    s.gmapLook p.src p.pkey = some g → s.guestCheck g = none → (s.guest g).resident = true →
    s.work.streams.find (bitsOf p.addr 47 28) = some x → x.resident = true →
    (s.bellOk g p.addr = true → Completes (.doorbell link p) s fun t =>
      t.work.streams = s.work.streams.upd (bitsOf p.addr 47 28) (fun y => { y with tail := bitsOf p.addr 20 0, used := s.work.stamp + 1 }) ∧
        t.work.discarded = s.work.discarded) ∧
    (s.bellOk g p.addr = false → Completes (.doorbell link p) s fun t =>
      t.work.streams = s.work.streams ∧ t.work.discarded = s.work.discarded + 1))

/-- The accesses of requests that hold a tracker, outside the hearth (R35, R280, R366, R370, R383): a load whose lines are read answers with
their bytes, OK or POISON; a store enters the WCBs and answers OK, or answers POISON when a line is lost; an ATOMIC returns the old
element and writes the new one. -/
def Obligations.AccessesAnswer : Prop :=
  ∀ (s : State) (k : Nat) (r : Req), s.pool.reqs.find k = some r → r.hearth = false →
    (r.p.opc = 0x01 → r.ready = true →
      s.perform k r = s.endReq k (if r.poisoned then 0x02 else 0) (r.pas.map r.rangeBytes).flatten r.poisoned) ∧
    (r.p.opc = 0x02 ∨ r.p.opc = 0x03 →
      ((∃ x ∈ storeLines r.pas r.p.payload, s.lineLost x.1 = true) → s.perform k r = s.ackReq k 0x02 [] false) ∧
      ((∀ x ∈ storeLines r.pas r.p.payload, s.lineLost x.1 = false ∧ s.wcbRoom x.1 = true) →
        s.perform k r = ((storeLines r.pas r.p.payload).foldl (fun u x => u.wcbWrite x.1 r.gid x.2 r.p.poi) s).ackReq k 0 [] false)) ∧
    (r.p.opc = 0x04 → r.ready = true → ∀ (x : Nat × Nat) (xs : List (Nat × Nat)), r.pas = x :: xs →
      (r.poisoned = true ∨ r.p.poi = true →
        s.perform k r = s.ackReq k 0x02 (padBytes 8 (poisonBytes (x.1 % 64) (atomicSize r.p))) true) ∧
      (r.poisoned = false → r.p.poi = false → s.wcbRoom x.1 = true → ∃ new : Bytes,
        s.perform k r = ((s.wcbWrite x.1 r.gid new false).countChan (s.wcbOf (s.place x.1)).1 0x301B 0).ackReq k 0
          (padBytes 8 (r.rangeBytes x)) false ∧
        (bitOf r.p.xw 16 = true → new = if r.rangeBytes x = sliceBytes r.p.payload 0 (atomicSize r.p)
          then sliceBytes r.p.payload 8 (atomicSize r.p) else r.rangeBytes x)))

/-- Packets that take no guest's memory (R279 to R283, R289, R296, R310, R311, R459): NOTIFY is dropped and counted; CNP lowers a rate; RSP
reaches the request it matches, and one that matches none is dropped; MGMT joins the dictionary queue; a packet for another endpoint
is routed and queued; a broadcast-filter entry expires. -/
def Obligations.OtherPacketsComplete : Prop :=
  (∀ (s : State) (link : Fin 32) (p : Packet), s.passes link.val (s.mine p 0x06) → Completes (.notifyReceived link p) s fun t =>
    Frame portOnly s t ∧ ∃ m : State, Frame portOnly s m ∧ t = (m.countLink link.val 0x2022 8).discardPkt link.val (s.mine p 0x06)) ∧
  (∀ (s : State) (link : Fin 32) (p : Packet) (r : RateEntry), s.passes link.val (s.mine p 0x07) → p.ece = false → p.tc ≤ 1 →
    s.flag Obj.ccEnable = true → s.fabric.rates.find (rateKey p.src p.tc) = some r → r.decreased + s.reg Obj.ccHold * 1000 ≤ s.now →
    Completes (.cnp link p) s fun t =>
      t.fabric.rates = s.fabric.rates.put (rateKey p.src p.tc)
        { s.rateNow r with
          rate := max (s.reg Obj.ccMinRate)
            ((match r.raised with | some (x, b) => if x = s.now then b else r.rate | none => r.rate) * (256 - s.reg Obj.ccMd) / 256),
          decreased := s.now }) ∧
  (∀ (s : State) (link : Fin 32) (p : Packet), s.passes link.val (s.mine p 0x08) →
    (∀ o : OwnReq, s.fabric.own.find? (fun o => o.dst == p.src && o.tc == p.tc && o.tag == p.tag) = some o →
      Completes (.rsp link p) s fun t => ∃ m : State, Frame portOnly s m ∧ m.fabric.own = s.fabric.own.erase o ∧
        t = match o.kind with
          | .migrateIn _ off => m.migrAnswer off (s.mine p 0x08)
          | .migrateOut _ off => m.migrAnswer off (s.mine p 0x08)
          | k => m.porterAnswer k p.status (p.payload.take (bitsOf p.xw 10 0)) p.poi) ∧
    (s.fabric.own.find? (fun o => o.dst == p.src && o.tc == p.tc && o.tag == p.tag) = none →
      Completes (.rsp link p) s fun t => Frame portOnly s t ∧ t.fabric.own = s.fabric.own)) ∧
  (∀ (s : State) (link : Fin 32) (p : Packet), s.passes link.val (s.mine p 0x30) → s.tracks link.val (s.mine p 0x30) → s.inbandOn = true →
    (pduOf p.payload).rsp = false → s.dictAway = false → s.dict.queue.length < 64 → Completes (.mgmt link p) s fun t =>
      ∃ k : Nat, t.pool.reqs.has k = true ∧ t.dict.queue = s.dict.queue ++
        [{ via := .inband p.src p.tag, pdu := p.payload, joined := s.dict.arrived, trk := some k }]) ∧
  (∀ (s : State) (link : Fin 32) (p : Packet) (l : Nat) (q : Packet), s.running = true → s.power.st = 0 →
    (s.atPort link.val p).isSome = true → s.formOk p = true → s.keyOk link.val p = true → p.dst ≠ s.epid → p.dst ≠ 0xFFFFF →
    s.hopsOut p = false → s.route p (some link.val) = some (l, q) → s.keyOk l q = true →
    Completes (.packetHeader link p) s fun t => ∃ e : EPkt, t.fabric.egress = s.fabric.egress ++ [e] ∧ e.link = l ∧
      e.p = { q with hops := p.hops + 1 } ∧ e.inLink = some link.val) ∧
  (∀ (s : State) (src seq : Nat), s.running = true → Completes (.broadcastFilterExpiry src seq) s fun t =>
    t.fabric.bcast = s.fabric.bcast.filter fun b => !(b.src == src && b.seq == seq))

/-- Coherence packets that arrive (R217, R219, R224, R225, R281): a request that passes its checks makes its access; an answer to a snoop is
taken off its line, with the data it brings, and the line's transaction goes on; one that nothing awaits is dropped and counted. -/
def Obligations.CoherencePacketsComplete : Prop :=
  (∀ (s : State) (link : Fin 32) (p : Packet) (g : Nat) (w : Window), s.admits link.val (s.mine p 0x10) g w → s.cached g (s.mine p 0x10) →
    Completes (.rdS link p) s fun t => s.reaches link.val (s.mine p 0x10) g w t) ∧
  (∀ (s : State) (link : Fin 32) (p : Packet) (g : Nat) (w : Window), s.admits link.val (s.mine p 0x11) g w → s.cached g (s.mine p 0x11) →
    Completes (.rdX link p) s fun t => s.reaches link.val (s.mine p 0x11) g w t) ∧
  (∀ (s : State) (link : Fin 32) (p : Packet) (g : Nat) (w : Window), s.admits link.val (s.mine p 0x12) g w → s.cached g (s.mine p 0x12) →
    Completes (.upg link p) s fun t => s.reaches link.val (s.mine p 0x12) g w t) ∧
  (∀ (s : State) (link : Fin 32) (p : Packet) (g : Nat) (w : Window), s.admits link.val (s.mine p 0x13) g w → s.cached g (s.mine p 0x13) →
    Completes (.wb link p) s fun t => s.reaches link.val (s.mine p 0x13) g w t) ∧
  (∀ (s : State) (link : Fin 32) (p : Packet) (g : Nat) (w : Window), s.admits link.val (s.mine p 0x14) g w → s.cached g (s.mine p 0x14) →
    Completes (.evc link p) s fun t => s.reaches link.val (s.mine p 0x14) g w t) ∧
  (∀ (s : State) (link : Fin 32) (p : Packet) (c l : Nat) (e : Ce) (d : Dir), s.ceOf p.src = some (c, e) → e.fenced = false →
    s.snoopedLine c p.tag = some (l, d) →
    (s.passes link.val (s.mine p 0x21) → (d.wbGot = false ∨ d.owner ≠ c) → Completes (.snpAck link p) s fun t => ∃ m : State,
      Frame portOnly s m ∧
        t = (((m.setDir l (d.answered c p.tag)).hfinish l (d.answered c p.tag)).flushOn).unpool link.val (s.mine p 0x21)) ∧
    (s.passes link.val (s.mine p 0x22) → (d.wbGot = false ∨ d.owner ≠ c) → Completes (.snpData link p) s fun t => ∃ m : State,
      Frame portOnly s m ∧
        t = ((((m.setDir l (d.answered c p.tag)).hwrite l p.payload p.poi).hfinish l (d.answered c p.tag)).flushOn).unpool link.val
          (s.mine p 0x22)) ∧
    (s.passes link.val (s.mine p 0x23) → d.owner = c → d.wbGot = false → Completes (.snpWbp link p) s fun t => ∃ m : State,
      Frame portOnly s m ∧
        t = ((m.setDir l { (d.answered c p.tag) with wbp := true, st := 7 }).flushOn).unpool link.val (s.mine p 0x23))) ∧
  (∀ (s : State) (link : Fin 32) (p : Packet), 0x15 ≤ p.opc → p.opc ≤ 0x23 → s.passes link.val (s.mine p p.opc) →
    s.ceOf p.src = none → Completes (.coherenceUnmatched link p) s fun t =>
      Frame portOnly s t ∧ ∃ m : State, Frame portOnly s m ∧ t = (m.countLink link.val 0x2022 8).unpool link.val (s.mine p p.opc))

/-- A coherent request at its line (Table 7.5, R217, R219, R224, R225): an endpoint that is not registered, or is FENCED, has no right; a busy
line queues it; from DI it is granted, E or M as R219 says; from DS a read adds a sharer; from DX another endpoint's request has the owner snooped; and the
owner's WB leaves the line DI. A request whose turn has not come (R225) waits before any of these. -/
def Obligations.CoherentRequestsAreServed : Prop :=
  ∀ (s : State) (k c : Nat) (r : Req) (e : Ce) (x : Nat × Nat) (xs : List (Nat × Nat)), s.pool.reqs.find k = some r →
    isCoh r.p.opc = true → r.pas = x :: xs →
    (s.ceOf r.p.src = none → s.perform k r = s.endReq k 0x07 [] false) ∧
    (s.ceOf r.p.src = some (c, e) → e.fenced = true → s.perform k r = s.endReq k 0x07 [] false) ∧
    (s.ceOf r.p.src = some (c, e) → e.fenced = false →
      (r.p.opc ≠ 0x13 → r.p.opc ≠ 0x14 → s.hbusy (s.hline x.1) = true → s.perform k r = s.hqueue (s.hline x.1) k) ∧
      (r.p.opc ≠ 0x13 → r.p.opc ≠ 0x14 → s.hwaits k (s.hline x.1) = false → s.dirOf (s.hline x.1) = none → s.hasWay (s.hline x.1) = true →
        (s.hread (s.hline x.1)).1.waits = false → ∃ d : Dir, (s.perform k r).dirOf (s.hline x.1) = some d ∧ d.ptrs = [c] ∧
          d.st = if r.p.opc ≠ 0x10 ∨ (s.hread (s.hline x.1)).2.mayGrantE r (s.hline x.1) = true then 2 else 1) ∧
      (r.p.opc = 0x10 → s.hwaits k (s.hline x.1) = false → ∀ d : Dir, s.dirOf (s.hline x.1) = some d → d.st = 1 → (s.hread (s.hline x.1)).1.waits = false →
        (s.perform k r).dirOf (s.hline x.1) = some { d.share c with rpl := 0 }) ∧
      (r.p.opc ≠ 0x13 → r.p.opc ≠ 0x14 → s.hwaits k (s.hline x.1) = false → ∀ (d : Dir) (o : Nat) (os : List Nat) (f : Ce),
        s.dirOf (s.hline x.1) = some d → d.st = 2 → d.ptrs = o :: os → o ≠ c → s.hearth.ces.find o = some f → f.fenced = false →
        ∃ d' : Dir, (s.perform k r).dirOf (s.hline x.1) = some d' ∧ d'.st = (if r.p.opc = 0x10 then 4 else 5) ∧ d'.owner = o ∧
          d'.grant = (if r.p.opc = 0x10 then .read k else .own k false) ∧
          d'.snoops.map (fun y => (y.1, y.2.1)) = [(o, if r.p.opc = 0x10 then 0x19 else 0x1A)]) ∧
      (r.p.opc = 0x13 → ∀ d : Dir, s.dirOf (s.hline x.1) = some d → d.st = 2 → d.holder = c → s.hearth.flush = none →
        (s.perform k r).dirOf (s.hline x.1) = none))

/-- HEARTH_CMD (R217, R231, R234, R238, R239): each command, where the record accepts it, has its effect. -/
def Obligations.HearthCommandsComplete : Prop :=
  (∀ (s : State) (c : Nat), s.accepts Obj.hearthCmdResult → s.hearth.ces.lowestFree 4096 = some c → Completes .registerCe s fun t =>
    t.hearth.ces = s.hearth.ces.put c { epid := s.reg Obj.hearthCmdEpid % 2 ^ 20, pkey := s.reg Obj.hearthCmdPkey } ∧
      t.reg Obj.hearthCmdCeid = c ∧ t.reg Obj.hearthCmdResult = 0x00 ∧
      s.regsBut [Obj.hearthCmdOp, Obj.hearthCmdCeid, Obj.hearthCmdResult] t) ∧
  (∀ s : State, s.accepts Obj.hearthCmdResult → s.hearth.ces.has (s.reg Obj.hearthCmdCeid) = true →
    s.hearth.dir.rows.any (fun r => decide (r.1 < 2 ^ 30) && s.mayHold r.1 (s.reg Obj.hearthCmdCeid) r.2) = false →
    Completes .removeCe s fun t =>
      t.hearth.ces = s.hearth.ces.del (s.reg Obj.hearthCmdCeid) ∧ t.hearth.flush = none ∧ t.hearth.dir = s.hearth.dir ∧
        t.reg Obj.hearthCmdResult = 0x00 ∧ s.regsBut [Obj.hearthCmdOp, Obj.hearthCmdResult] t) ∧
  (∀ (s : State) (e : Ce), s.accepts Obj.hearthCmdResult → s.hearth.ces.find (s.reg Obj.hearthCmdCeid) = some e → e.walking = false →
    Completes .resetCe s fun t =>
      t.hearth.ces = s.hearth.ces.put (s.reg Obj.hearthCmdCeid) { e with fenced := false } ∧
        t.reg Obj.hearthCmdResult = 0x00 ∧ s.regsBut [Obj.hearthCmdOp, Obj.hearthCmdResult] t) ∧
  (∀ s : State, s.accepts Obj.hearthCmdResult → Completes .queryCe s fun t =>
    (t.reg Obj.hearthCmdCeState = match s.hearth.ces.find (s.reg Obj.hearthCmdCeid) with
      | none => 0 | some e => if e.fenced then 2 else 1) ∧
      t.reg Obj.hearthCmdResult = 0x00 ∧ s.regsBut [Obj.hearthCmdOp, Obj.hearthCmdCeState, Obj.hearthCmdResult] t) ∧
  (∀ s : State, s.accepts Obj.hearthCmdResult → s.hearthRange (s.reg Obj.hearthCmdPa) (s.reg Obj.hearthCmdLen) = true →
    s.hearth.dir.rows.any (fun r => decide (s.hline (s.reg Obj.hearthCmdPa) ≤ r.1) &&
      decide (r.1 < s.hline (s.reg Obj.hearthCmdPa) + s.reg Obj.hearthCmdLen / 64)) = false →
    Completes .flush s fun t =>
      t.hearth.flush = none ∧ t.hearth.dir = s.hearth.dir ∧ t.hearth.ces = s.hearth.ces ∧ t.reg Obj.hearthCmdResult = 0x00 ∧
        s.regsBut [Obj.hearthCmdOp, Obj.hearthCmdResult] t) ∧
  (∀ s : State, s.accepts Obj.hearthCmdResult → s.hearthRange (s.reg Obj.hearthCmdPa) 64 = true → Completes .queryLine s fun t =>
    (t.blob Obj.hearthCmdEntry = leBytes 16 (match s.dirOf (s.hline (s.reg Obj.hearthCmdPa)) with
      | some d => dirBits (s.hline (s.reg Obj.hearthCmdPa)) d | none => 0)) ∧
      t.reg Obj.hearthCmdResult = 0x00 ∧ s.regsBut [Obj.hearthCmdOp, Obj.hearthCmdResult] t)

/-- What the hearth does on its own (R225 to R227, R229, R230, R232, R233): a waiting request is served, a victim is recalled, a recall
that is over lets its access go on, an endpoint that does not answer is fenced, and the walk that follows clears its pointers. -/
def Obligations.HearthEventsComplete : Prop :=
  (∀ (s : State) (line l k : Nat), s.running = true → s.hbusy line = false → s.hearth.queue.find? (fun x => x.1 == line) = some (l, k) →
    Completes (.hearthLineDequeue line) s fun t =>
      ((s.access k).waitsFor l k = true → t = (s.access k).flushOn) ∧
        ((s.access k).waitsFor l k = false → ∃ m : State, m.hearth.queue = (s.access k).hearth.queue.erase (l, k) ∧
          Frame [.coherence, .samples] (s.access k) m ∧ t = m.flushOn)) ∧
  (∀ (s : State) (line v : Nat) (d : Dir), s.running = true → s.hearth.queue.any (fun x => x.1 == line) = true → s.dirOf line = none →
    s.hasWay line = false → s.hasVictim line = false → s.hearth.dir.count (fun _ d => d.isVictim) < s.reg Obj.hearthBiMax →
    s.hvictim line = some (v, d) → Completes (.backInvalidation line) s fun t => ∃ m : State,
      m = ((s.setDir v { d with st := 6, grant := .victim line, owner := d.holder, snoops := [] }).recall v d).countLedger 0x5014 1 ∧
        t = match m.dirOf v with | some e => m.hfinish v e | none => m) ∧
  (∀ (s : State) (line k : Nat) (d : Dir) (r : Req), s.running = true → s.dirOf line = some d → d.st = 6 → d.snoops = [] →
    d.grant = .uncached k → s.pool.reqs.find k = some r → Completes (.hearthRecallDone line) s fun t => ∃ m : State,
      (m.dirOf line = if writes r.p.opc then some { d with open_ := true, dirty := none }
        else if d.ptrs.isEmpty then none else some { d with st := 1, grant := .none, dirty := none, snoops := [] }) ∧
      m.pool.reqs = s.pool.reqs ∧ t = (m.access k).flushOn) ∧
  (∀ (s : State) (line : Nat) (ceid : Fin 4096) (d : Dir) (e : Ce), s.running = true → s.dirOf line = some d →
    d.snoops.any (fun x => x.1 == ceid.val) = true → s.hearth.ces.find ceid.val = some e → s.hearth.flush = none →
    Completes (.hearthSnoopTimeout line ceid) s fun t =>
      t.hearth.ces = s.hearth.ces.put ceid.val { e with fenced := true, walking := true }) ∧
  (∀ (s : State) (ceid : Fin 4096) (e : Ce), s.running = true → s.hearth.ces.find ceid.val = some e → e.walking = true →
    s.hearth.flush = none → Completes (.fenceWalkDone ceid) s fun t =>
      t.hearth.ces = s.hearth.ces.put ceid.val { e with walking := false } ∧ ∀ r ∈ t.hearth.dir.rows, ceid.val ∉ r.2.ptrs)

/-- Failure and takeover (R422, R425 to R437, R444, R474): what each event of the Innkeeper pair does where it can happen. -/
def Obligations.InnkeeperEventsComplete : Prop :=
  (∀ s : State, s.ikServes = true → Completes .heartbeat s fun t => t.ik.beat = s.now) ∧
  (∀ s : State, s.ikServes = true → s.ik.active < 2 → s.ik.beat + 3000000 ≤ s.now →
    Completes .heartbeatTimeout s fun t => s.failsOver 0x01 t) ∧
  (∀ s : State, s.ikServes = true → s.ik.active < 2 → Completes .watchdogExpiry s fun t => s.failsOver 0x03 t) ∧
  (∀ (s : State) (die : Fin 2) (cause : Fin 3), s.ikServes = true → s.ik.active = die.val →
    Completes (.innkeeperFailure die cause) s fun t => s.failsOver (ikCause cause) t) ∧
  (∀ (s : State) (die : Fin 2) (cause : Fin 3) (x : Takeover), s.ikRuns = true → s.ik.gap = some x → x.target = die.val →
    x.planned = false → Completes (.innkeeperFailure die cause) s fun t =>
      t.ik.lastCause = ikCause cause ∧ t.ik.gap = none ∧ t.ik.bothLost = true ∧ t.ik.active = 0xFF) ∧
  (∀ (s : State) (x : Takeover), s.ikRuns = true → s.ik.gap = some x → (s.ikd x.target).st = 3 →
    Completes .takeoverDone s fun t =>
      t.ik.gap = none ∧ t.ik.active = x.target ∧ (t.ikd x.target).st = 4 ∧ t.ik.failovers = satInc 32 s.ik.failovers ∧
        t.ik.lastCause = x.cause ∧ t.ik.lastGap = (s.now - x.start) / 1000 ∧ t.ik.beat = s.now ∧ t.dict.sessions = {} ∧
        t.power.held = none) ∧
  (∀ s : State, s.ikServes = true → s.ik.ckptDue = none → s.ik.planned = none → Completes .checkpoint s fun t =>
    t.ik.ckptDue = some { seq := (s.ik.ckptSeq + 1) % 2 ^ 64, at_ := s.now, pend := s.irq.pend, journaled := s.ik.journal.length }) ∧
  (∀ (s : State) (x : Takeover), s.ikServes = true → s.ik.ckptDue = none → s.ik.planned = some x → (s.ikd (1 - s.ik.active)).st = 3 →
    s.dict.queue = [] → Completes .checkpoint s fun t =>
      t.ik.gap = some { x with target := 1 - s.ik.active, start := s.now, planned := true } ∧ t.ik.planned = none ∧
        t.ik.journal = [] ∧ t.ik.ckptSeq = (s.ik.ckptSeq + 1) % 2 ^ 64) ∧
  (∀ (s : State) (c : Ckpt), s.ikServes = true → s.ik.ckptDue = some c → Completes .checkpointComplete s fun t => ∃ u : State,
    u.ik.ckpt = c ∧ u.ik.ckptSeq = c.seq ∧ u.ik.ckptDue = none ∧ u.ik.journal = s.ik.journal.drop c.journaled ∧
      t = if s.ik.ckptLate then u.startCkpt else u) ∧
  (∀ s : State, s.ikServes = true → s.ik.ckptDue.isSome = true → s.ik.ckptLate = false → Completes .checkpointLate s fun t =>
    t.ik.ckptLate = true ∧ t.ik.ckptDue = s.ik.ckptDue) ∧
  (∀ (s : State) (die : Fin 2), s.ikRuns = true → s.ik.bothLost = false → s.ik.active ≠ die.val →
    (s.ikd die.val).st = 1 ∨ (s.ikd die.val).st = 3 ∧ s.takes die.val = false →
    (Completes (.ikSelfTestRun die true) s fun t =>
      (t.ikd die.val).st = 3 ∧ (t.ikd die.val).passes = satInc 8 (s.ikd die.val).passes ∧ (t.ikd die.val).failRuns = 0) ∧
    (Completes (.ikSelfTestRun die false) s fun t =>
      (t.ikd die.val).st = (if 3 ≤ (s.ikd die.val).failRuns + 1 then 5 else 1) ∧ (t.ikd die.val).passes = 0 ∧
        (t.ikd die.val).failRuns = (s.ikd die.val).failRuns + 1 ∧ t.ik.lastCause = 0x06)) ∧
  (∀ (s : State) (die : Fin 2) (n : Nat), s.ikRuns = true → s.ik.bothLost = true → (s.ikd die.val).st ≠ 6 → s.bootSlot = some n →
    Completes (.ikRecoveryTest die true) s fun t =>
      t.ik.bothLost = false ∧ t.ik.active = die.val ∧ (t.ikd die.val).st = 4 ∧ t.sec.slot = n ∧ t.dict.sessions = {})

/-- IK_CMD (R432 to R434, R452, R455). -/
def Obligations.InnkeeperCommandsComplete : Prop :=
  (∀ s : State, s.accepts Obj.ikCmdResult → (s.ikd (1 - s.ik.active)).st = 3 → Completes .switch s fun t =>
    (∃ x : Takeover, t.ik.planned = some x ∧ x.target = 1 - s.ik.active ∧ x.cause = 0x07 ∧ x.byCmd = true) ∧
      t.reg Obj.ikCmdResult = 0x01 ∧ s.regsBut [Obj.ikCmdOp, Obj.ikCmdResult] t) ∧
  (∀ s : State, s.accepts Obj.ikCmdResult → s.reg Obj.ikCmdDie < 2 → s.reg Obj.ikCmdDie ≠ s.ik.active → (s.ikd (s.reg Obj.ikCmdDie)).st = 5 →
    Completes .retest s fun t =>
      (t.ikd (s.reg Obj.ikCmdDie)).st = 1 ∧ t.reg Obj.ikCmdResult = 0x00 ∧ s.regsBut [Obj.ikCmdOp, Obj.ikCmdResult] t) ∧
  (∀ s : State, s.accepts Obj.ikCmdResult → s.reg Obj.ikCmdDie < 2 → s.reg Obj.ikCmdDie ≠ s.ik.active → Completes .holdOut s fun t =>
    (t.ikd (s.reg Obj.ikCmdDie)).st = 6 ∧ t.reg Obj.ikCmdResult = 0x00 ∧ s.regsBut [Obj.ikCmdOp, Obj.ikCmdResult] t) ∧
  (∀ s : State, s.accepts Obj.ikCmdResult → s.reg Obj.ikCmdDie < 2 → s.reg Obj.ikCmdDie ≠ s.ik.active → (s.ikd (s.reg Obj.ikCmdDie)).st = 6 →
    Completes .release s fun t =>
      (t.ikd (s.reg Obj.ikCmdDie)).st = 1 ∧ t.reg Obj.ikCmdResult = 0x00 ∧ s.regsBut [Obj.ikCmdOp, Obj.ikCmdResult] t)

/-- The interrupt controller (R439 to R445, R453). -/
def Obligations.InterruptsComplete : Prop :=
  (∀ (s : State) (src : Fin 512), s.up = true → s.irq.stopped = false → s.ik.gap = none → s.ik.bothLost = false →
    Completes (.irqEdge src) s fun t =>
      t.irq.pend.bits = setBit s.irq.pend.bits src.val ∧
        t.irq.pend.counts = s.irq.pend.counts.put src.val (satInc 8 (s.irq.pend.counts.getD src.val 0)) ∧
        t.irq.alertStatus = if s.irq.alertEn.testBit src.val then setBit s.irq.alertStatus src.val else s.irq.alertStatus) ∧
  (∀ (s : State) (src : Fin 512), s.up = true → s.irq.stopped = true → Completes (.irqEdge src) s fun t =>
    t.irq.pend = s.irq.pend ∧
      (s.irq.latched.testBit src.val = false → t.irq.latched = setBit s.irq.latched src.val ∧ t.irq.overrun = s.irq.overrun) ∧
      (s.irq.latched.testBit src.val = true → t.irq.latched = s.irq.latched ∧ t.irq.overrun = setBit s.irq.overrun src.val)) ∧
  (∀ (s : State) (re : Fin 16) (src c : Nat), s.served = true → s.irqWinner = some src →
    State.irqTarget { s with irq := { s.irq with coreIe := s.irq.coreIe.zipIdx.map fun x => x.1 || re.val.testBit x.2 } } = some c →
    Completes (.irqDeliver re) s fun t =>
    (∃ m : State, Frame [.irqPending, .irqCores] s m ∧ m.irq.pend = { s.irq.pend with bits := clearBit s.irq.pend.bits src } ∧
        t = m.countIk 0x1011 0) ∧
      t.irq.lastCore = c ∧ t.irq.presented = (c, src, s.vector src) :: s.irq.presented ∧ t.irq.coreIe.getD c false = false) ∧
  (∀ s : State, s.accepts Obj.irqCmdResult → s.reg Obj.irqCmdSource < 1024 →
    (Completes .irqQuery s fun t =>
      t.reg Obj.irqCmdVector = s.vector (s.reg Obj.irqCmdSource) ∧ t.reg Obj.irqCmdPrio = s.prio (s.reg Obj.irqCmdSource) ∧
        t.reg Obj.irqCmdResult = 0x00 ∧ s.regsBut [Obj.irqCmdOp, Obj.irqCmdVector, Obj.irqCmdPrio, Obj.irqCmdResult] t) ∧
    (Completes .setPending s fun t =>
      t.irq = { s.irq with pend := { s.irq.pend with bits := setBit s.irq.pend.bits (s.reg Obj.irqCmdSource) } } ∧
        t.reg Obj.irqCmdResult = 0x00 ∧ s.regsBut [Obj.irqCmdOp, Obj.irqCmdResult] t) ∧
    (Completes .clearPending s fun t =>
      t.irq = { s.irq with pend := { s.irq.pend with bits := clearBit s.irq.pend.bits (s.reg Obj.irqCmdSource) } } ∧
        t.reg Obj.irqCmdResult = 0x00 ∧ s.regsBut [Obj.irqCmdOp, Obj.irqCmdResult] t) ∧
    (Completes .clearCount s fun t =>
      t.irq = { s.irq with pend := { s.irq.pend with counts := s.irq.pend.counts.del (s.reg Obj.irqCmdSource) } } ∧
        t.reg Obj.irqCmdResult = 0x00 ∧ s.regsBut [Obj.irqCmdOp, Obj.irqCmdResult] t)) ∧
  (∀ (s : State) (v : Nat), s.served = true → Completes (.irqAlertStatusWrite v) s fun t =>
    t.irq = { s.irq with alertStatus := clearMask s.irq.alertStatus v }) ∧
  (∀ (s : State) (v : Nat), s.served = true → Completes (.irqOverrunWrite v) s fun t =>
    t.irq = { s.irq with overrun := clearMask s.irq.overrun v })

/-- Pigeonholes (R446 to R451, R454): a PIGEON of the hole's owner fills IN, empties OUT, or changes nothing; and the commands and the
owner's write do the other sides. -/
def Obligations.PigeonholesComplete : Prop :=
  (∀ (s : State) (link : Fin 32) (p : Packet), s.ik.gap = none → s.ik.bothLost = false →
    (s.hole (bitsOf p.addr 15 10)).owner.testBit 31 = true → p.src = bitsOf (s.hole (bitsOf p.addr 15 10)).owner 19 0 →
    (s.passes link.val (s.pigeonPkt p 1) → s.tracks link.val (s.pigeonPkt p 1) → pigeonFormed (s.pigeonPkt p 1) = true →
      (s.hole (bitsOf p.addr 15 10)).inFull = false → Completes (.writeIn link p) s fun t =>
        t.holes = s.holes.put (bitsOf p.addr 15 10)
          { s.hole (bitsOf p.addr 15 10) with inFull := true, inWords := pigeonWords (s.pigeonPkt p 1) }) ∧
    (s.passes link.val (s.pigeonPkt p 2) → s.tracks link.val (s.pigeonPkt p 2) → pigeonFormed (s.pigeonPkt p 2) = true →
      Completes (.readOut link p) s fun t =>
        t.holes = s.holes.put (bitsOf p.addr 15 10) { s.hole (bitsOf p.addr 15 10) with outFull := false, outWords := [] }) ∧
    (s.passes link.val (s.pigeonPkt p 3) → s.tracks link.val (s.pigeonPkt p 3) → pigeonFormed (s.pigeonPkt p 3) = true →
      Completes (.poll link p) s fun t => t.holes = s.holes.put (bitsOf p.addr 15 10) (s.hole (bitsOf p.addr 15 10)))) ∧
  (∀ s : State, s.accepts Obj.pigeonCmdResult → s.reg Obj.pigeonCmdHole < 64 → (s.hole (s.reg Obj.pigeonCmdHole)).inFull = true →
    Completes .readIn s fun t =>
      t.holes = s.holes.put (s.reg Obj.pigeonCmdHole) { s.hole (s.reg Obj.pigeonCmdHole) with inFull := false, inWords := [] } ∧
        t.reg Obj.pigeonCmdWords = (s.hole (s.reg Obj.pigeonCmdHole)).inWords.length ∧ t.reg Obj.pigeonCmdResult = 0x00 ∧
        s.regsBut [Obj.pigeonCmdOp, Obj.pigeonCmdWords, Obj.pigeonCmdResult] t) ∧
  (∀ s : State, s.accepts Obj.pigeonCmdResult → s.reg Obj.pigeonCmdHole < 64 → 1 ≤ s.reg Obj.pigeonCmdWords →
    s.reg Obj.pigeonCmdWords ≤ 8 → (s.hole (s.reg Obj.pigeonCmdHole)).outFull = false → Completes .writeOut s fun t =>
      t.holes = s.holes.put (s.reg Obj.pigeonCmdHole) { s.hole (s.reg Obj.pigeonCmdHole) with
        outFull := true, outWords := (upto (s.reg Obj.pigeonCmdWords)).map fun i => leNat (sliceBytes (s.blob Obj.pigeonCmdData) (8 * i) 8) } ∧
        t.reg Obj.pigeonCmdResult = 0x00 ∧ s.regsBut [Obj.pigeonCmdOp, Obj.pigeonCmdResult] t) ∧
  (∀ (s : State) (hole : Fin 64) (v : Nat), s.served = true → bitsOf v 30 20 = 0 → v < 2 ^ 32 → Completes (.pigeonOwnerWrite hole v) s fun t =>
    t.holes = s.holes.put hole.val { owner := v })

/-- STREAM_CMD (R61, R69, R87, Table 2.9): each command, where the record accepts it, has its effect. -/
def Obligations.StreamCommandsComplete : Prop :=
  (∀ s : State, s.accepts Obj.streamCmdResult → s.work.streams.has s.cmdStream = false →
    s.guestSound (s.reg Obj.streamCmdGid % 2 ^ 20) = true →
    s.ringOk (s.reg Obj.streamCmdGid % 2 ^ 20) (s.reg Obj.streamCmdRingPva) (s.reg Obj.streamCmdLog2Size) = true →
    Completes .streamCreate s fun t =>
      (∃ x : Stream, t.work.streams.find s.cmdStream = some x ∧ x.gid = s.reg Obj.streamCmdGid % 2 ^ 20 ∧
        x.ring = s.reg Obj.streamCmdRingPva ∧ x.k = s.reg Obj.streamCmdLog2Size ∧ x.notify = s.reg Obj.notifyEpid % 2 ^ 20 ∧
        x.limit = s.reg Obj.waitTimeout ∧ x.head = 0 ∧ x.tail = 0 ∧ x.seq = 0) ∧
      t.reg Obj.streamCmdResult = 0x00 ∧ s.regsBut [Obj.streamCmdOp, Obj.streamCmdResult] t) ∧
  (∀ (s : State) (k : Stream), s.accepts Obj.streamCmdResult → s.work.streams.find s.cmdStream = some k → k.held = none →
    s.streamBusy s.cmdStream = false →
    (Completes .streamDestroy s fun t => ∃ m : State,
      m.work.streams = s.work.streams.del s.cmdStream ∧ m.work.bells = s.work.bells.filter (fun b => b.stream != s.cmdStream) ∧
        s.regsBut [Obj.streamCmdOp] m ∧ t = (m.resume fun r => r.stage == .bell).setReg Obj.streamCmdResult 0) ∧
    (Completes .streamReset s fun t =>
      t.work.streams.find s.cmdStream = some { k with tail := k.head, err := none, held := none, ahead := [] } ∧
        t.reg Obj.streamCmdResult = 0x00 ∧ s.regsBut [Obj.streamCmdOp, Obj.streamCmdResult] t)) ∧
  (∀ (s : State) (k : Stream), s.accepts Obj.streamCmdResult → s.work.streams.find s.cmdStream = some k → Completes .streamQuery s fun t =>
    t.reg Obj.streamCmdState = (if k.err.isSome then 0x03 else if k.resident then 0x02 else 0x01) ∧
      t.reg Obj.streamCmdHead = k.head ∧ t.reg Obj.streamCmdErr = (match k.err with | some (q, c) => q * 256 + c | none => 0) ∧
      t.reg Obj.streamCmdResult = 0x00 ∧
      s.regsBut [Obj.streamCmdOp, Obj.streamCmdState, Obj.streamCmdHead, Obj.streamCmdErr, Obj.streamCmdResult] t)

/-- TALLY_CMD (R88, R89, Table 2.10): each command, where the record accepts it, has its effect. -/
def Obligations.TallyCommandsComplete : Prop :=
  (∀ (s : State) (n : Nat), s.accepts Obj.tallyCmdResult → s.guestSound (s.reg Obj.tallyCmdGid % 2 ^ 20) = true →
    s.work.tallies.lowestFree 16384 = some n → Completes .tallyAlloc s fun t =>
      t.work.tallies = s.work.tallies.put n { gid := s.reg Obj.tallyCmdGid % 2 ^ 20 } ∧ t.reg Obj.tallyCmdTally = n ∧
        t.reg Obj.tallyCmdResult = 0x00 ∧ s.regsBut [Obj.tallyCmdOp, Obj.tallyCmdTally, Obj.tallyCmdResult] t) ∧
  (∀ (s : State) (x : Tally), s.accepts Obj.tallyCmdResult → s.work.tallies.find s.cmdTally = some x →
    (s.waiters s.cmdTally = 0 → Completes .tallyFree s fun t =>
      t.work.tallies = s.work.tallies.del s.cmdTally ∧ t.reg Obj.tallyCmdResult = 0x00 ∧
        s.regsBut [Obj.tallyCmdOp, Obj.tallyCmdResult] t) ∧
    (Completes .tallyCmdArm s fun t => ∃ y : Tally, t.work.tallies = s.work.tallies.put s.cmdTally y ∧
      y.target = s.reg Obj.tallyCmdValue ∧ y.count = x.count ∧ y.due = x.due ∧ t.reg Obj.tallyCmdResult = 0x00 ∧
        s.regsBut [Obj.tallyCmdOp, Obj.tallyCmdResult] t) ∧
    (Completes .tallyCmdSet s fun t => ∃ y : Tally, t.work.tallies = s.work.tallies.put s.cmdTally y ∧
      y.count = s.reg Obj.tallyCmdValue ∧ y.target = x.target ∧
      y.due = (x.due || (x.mirror && s.reg Obj.tallyCmdValue != x.count)) ∧ t.reg Obj.tallyCmdResult = 0x00 ∧
        s.regsBut [Obj.tallyCmdOp, Obj.tallyCmdResult] t) ∧
    (bitOf (s.reg Obj.tallyCmdFlags) 0 = false ∨ s.mirrorOk x.gid (s.reg Obj.tallyCmdMirrorPva) = true → Completes .tallyConfig s fun t =>
      ∃ y : Tally, t.work.tallies = s.work.tallies.put s.cmdTally y ∧ y.mirror = bitOf (s.reg Obj.tallyCmdFlags) 0 ∧
        y.notifyOn = bitOf (s.reg Obj.tallyCmdFlags) 1 ∧ y.mirrorPva = s.reg Obj.tallyCmdMirrorPva % 2 ^ 48 ∧
        y.notify = s.reg Obj.tallyCmdNotifyEpid % 2 ^ 20 ∧ y.count = x.count ∧ y.target = x.target ∧ y.gid = x.gid ∧
        t.reg Obj.tallyCmdResult = 0x00 ∧ s.regsBut [Obj.tallyCmdOp, Obj.tallyCmdResult] t) ∧
    (Completes .tallyQuery s fun t =>
      t.blob Obj.tallyCmdEntry = leBytes 8 x.count ++ leBytes 8 x.target ++
        leBytes 8 (2 ^ 63 + b2n x.notifyOn * 2 ^ 62 + b2n x.mirror * 2 ^ 61 + x.gid * 2 ^ 32 + s.waiters s.cmdTally) ++
        leBytes 8 x.mirrorPva ++ leBytes 8 x.notify ++ zeroBytes 24 ∧
      t.work.tallies = s.work.tallies ∧ t.reg Obj.tallyCmdResult = 0x00 ∧ s.regsBut [Obj.tallyCmdOp, Obj.tallyCmdResult] t)) ∧
  (∀ (s : State) (tally : Fin 16384) (x : Tally) (w : Window) (pa : Nat), s.running = true → s.work.tallies.find tally.val = some x →
    x.due = true → (s.guest x.gid).windowAt x.mirrorPva = some w → s.homed w = true → w.write = true → s.keyCheck x.gid = none →
    s.keyUnwraps x.gid = true → s.guestCheck x.gid = none →
    ((s.guest x.gid).resident = false → Completes (.tallyMirrorWrite tally) s fun t => t = s.startSwap x.gid) ∧
    ((s.guest x.gid).resident = true → s.xlCached x.gid x.mirrorPva true = .ok pa → s.filling pa = none →
      (s.publishWrite pa x.gid (leBytes 8 x.count)).1 = true → Completes (.tallyMirrorWrite tally) s fun t =>
        ∃ m : State, m = (s.publishWrite pa x.gid (leBytes 8 x.count)).2 ∧ t.cellar = m.cellar ∧ t.pool = m.pool ∧
          t.work.tallies = s.work.tallies.upd tally.val fun y => { y with due := false })) ∧
  (∀ s : State, s.served = true → Completes (.trkHighWaterWrite 0) s fun t =>
    t.reg Obj.trkHighWater = s.pool.reqs.size ∧ s.regsBut [Obj.trkHighWater] t) ∧
  (∀ (s : State) (v : Nat), s.served = true → Completes (.arithFlagsSeenWrite v) s fun t =>
    t.reg Obj.arithFlagsSeen = clearMask (s.reg Obj.arithFlagsSeen) v ∧ s.regsBut [Obj.arithFlagsSeen] t)

/-- The operations of tallies and control as waybills (R38 to R42, R53, R77 to R79): a running waybill of the opcode has its effect on its
tally, its range or its stream's waybills, and is ready for its record. One that is to be fetched again is, first (R82). -/
def Obligations.TallyAndControlWaybillsComplete : Prop :=
  ∀ (s u : State) (stream : Fin 1048576) (seq : Nat) (w : Waybill), s.running = true → s.hasWords (wbKey stream.val seq) u →
    u.work.wbs.find (wbKey stream.val seq) = some w → w.key = wbKey stream.val seq → w.st = 1 →
    (∀ x : Tally, u.work.tallies.find (bitsOf (w.op 0) 15 0) = some x →
      (w.opc = 0x61 → Completes (.tallyInc stream seq) s fun t => (t.wb (wbKey stream.val seq)).st = 2 ∧ ∃ y : Tally,
        t.work.tallies = u.work.tallies.put (bitsOf (w.op 0) 15 0) y ∧ y.count = wrapAdd 64 x.count (w.op 1) ∧ y.target = x.target) ∧
      (w.opc = 0x62 → Completes (.tallySet stream seq) s fun t => (t.wb (wbKey stream.val seq)).st = 2 ∧ ∃ y : Tally,
        t.work.tallies = u.work.tallies.put (bitsOf (w.op 0) 15 0) y ∧ y.count = w.op 1 ∧ y.target = x.target) ∧
      (w.opc = 0x63 → Completes (.tallyArm stream seq) s fun t => (t.wb (wbKey stream.val seq)).st = 2 ∧ ∃ y : Tally,
        t.work.tallies = u.work.tallies.put (bitsOf (w.op 0) 15 0) y ∧ y.target = w.op 1 ∧ y.count = x.count) ∧
      (w.opc = 0x64 → Completes (.tallyRead stream seq) s fun t =>
        t.work.wbs.find (wbKey stream.val seq) = some { w with mask := x.count, st := 2 } ∧ t.work.tallies = u.work.tallies)) ∧
    (w.opc = 0x65 → u.work.wbs.rows.any (fun r => r.2.earlier w) = false → Completes (.drain stream seq) s fun t =>
      t.work.wbs.find (wbKey stream.val seq) = some { w with st := 2 }) ∧
    (w.opc = 0x70 → Completes (.nop stream seq) s fun t =>
      t.work.wbs = u.work.wbs.upd (wbKey stream.val seq) (fun x => { x with st := 2 }) ∧ t.work.tallies = u.work.tallies ∧
        t.cellar = u.cellar) ∧
    (w.opc = 0x71 → Completes (.cancel stream seq) s fun t =>
      (t.wb (wbKey stream.val seq)).st = 2 ∧
      (t.wb (wbKey stream.val seq)).mask = u.work.wbs.count (fun _ x => x.earlier w && x.wid == bitsOf (w.op 0) 31 0 && decide (x.st ≤ 1) && !x.cancelled) ∧
      ∀ (n : Nat) (x : Waybill), n ≠ wbKey stream.val seq → u.work.wbs.find n = some x →
        t.work.wbs.find n = some (if x.earlier w && x.wid == bitsOf (w.op 0) 31 0 && decide (x.st ≤ 1) && !x.cancelled
          then u.cancelWb x else x)) ∧
    (w.opc = 0x60 → w.pubStep = 0 → Completes (.publish stream seq) s fun t =>
      (t.wb (wbKey stream.val seq)).pubStep = 1 ∧ (t.wb (wbKey stream.val seq)).st = 1 ∧ t.cellar = u.cellar ∧
      (t.wb (wbKey stream.val seq)).drains =
        (((u.publishRanges w).1.map fun x => u.wcbLinesIn x.1 x.2).flatten).map fun l => l.1 * 2 ^ 40 + l.2) ∧
    (w.opc = 0x60 → w.pubStep = 1 → ∀ m : State, m = w.drains.foldl (fun (s : State) d => s.drainLine (d / 2 ^ 40) (d % 2 ^ 40)) u →
      w.drains.any (fun d => (m.chan (d / 2 ^ 40)).wcb.has (d % 2 ^ 40)) = false →
      Completes (.publishDrainDone stream seq) s fun t =>
        t.cellar = m.cellar ∧
        (w.len ≤ 1048576 → (t.wb (wbKey stream.val seq)).st = 2 ∧ t.pool.lrc = (m.publishDrop w).pool.lrc) ∧
        (1048576 < w.len → (t.wb (wbKey stream.val seq)).st = 1 ∧ (t.wb (wbKey stream.val seq)).pubStep = 2 ∧
          t.pool.lrc = ((m.countLedger 0x5010 4).publishDrop w).pool.lrc)) ∧
    (w.opc = 0x60 → w.pubStep = 2 → Completes (.lrcSweepDone stream seq) s fun t =>
      (t.wb (wbKey stream.val seq)).st = 2 ∧ t.pool.lrc = (u.publishDrop w).pool.lrc)

/-- The life of a stream's waybills (R51, R54, R55, R57, R60, R64 to R68, R70, R78): a spilled stream becomes resident; the slot at HEAD is
accepted; the next slot is fetched ahead; a waybill that may start and passes its checks runs; one whose wait expires ends TIMEOUT; and one
that has ended completes once its record is published. One that is to be fetched again is, before it goes on (R82). -/
def Obligations.WaybillLifeCompletes : Prop :=
  (∀ (s : State) (stream : Fin 1048576) (k : Stream), s.running = true → s.work.streams.find stream.val = some k → k.resident = false →
    (s.residentStreams < 16384 ∨ s.streamVictim.isSome = true) → Completes (.streamSwapDone stream) s fun t => ∃ m : State,
      (∃ k' : Stream, m.work.streams.find stream.val = some k' ∧ k'.resident = true ∧ k'.head = k.head ∧
        (s.residentStreams < 16384 → s.streamBad stream.val = [] → k'.err = k.err)) ∧
        m.work.bells = s.work.bells.filter (fun b => b.stream != stream.val) ∧ t = m.resume fun r => r.stage == .bell) ∧
  (∀ (s : State) (stream : Fin 1048576) (k : Stream) (pa cpl : Nat) (r : Rd) (m m' : State), s.running = true →
    s.work.streams.find stream.val = some k → k.resident = true → k.err = none → k.head ≠ k.tail →
    (s.guest k.gid).tearing = false → (s.guest k.gid).fatal = 0 → (s.guest k.gid).resident = true →
    s.fetchAt stream.val (k.slot k.head) 128 false = (.at_ pa, m) → (m.countCluster k.seqr 0x4021 0).slotBytes k.gid pa = (r, m') →
    r.waits = false → r.poisoned = false → m'.work.streams = s.work.streams → ∀ w : Waybill,
    w = { stream := stream.val, gid := k.gid, w := wordsOf r.bytes } → w.cplPva % 32 = 0 → w.waitOn = false →
    (m'.fetchAt stream.val w.cplPva 32 true).1 = .at_ cpl → Completes (.waybillAccept stream) s fun t =>
      (t.work.wbs.find (wbKey stream.val k.seq)).isSome = true ∧
      (t.wb (wbKey stream.val k.seq)).w = w.w ∧ (t.wb (wbKey stream.val k.seq)).cpl = cpl ∧ (t.wb (wbKey stream.val k.seq)).slot = k.head ∧
      (w.opc ≠ 0x60 → (t.wb (wbKey stream.val k.seq)).checked = true) ∧
      ∃ k' : Stream, t.work.streams.find stream.val = some k' ∧ k'.head = (k.head + 1) % 2 ^ 21 ∧ k'.seq = (k.seq + 1) % 2 ^ 32 ∧
        k'.tail = k.tail) ∧
  (∀ (s : State) (stream : Fin 1048576) (k : Stream) (pa : Nat) (r : Rd) (m : State), s.running = true →
    s.work.streams.find stream.val = some k → k.resident = true → k.err = none → s.streamBusy stream.val = true →
    k.ahead.length < s.reg Obj.prefetchDepth → k.ahead.length < k.dist k.tail →
    s.xlCached k.gid (k.slot ((k.head + k.ahead.length) % 2 ^ 21)) false = .ok pa → s.slotBytes k.gid pa = (r, m) → r.ok = true →
    r.poisoned = false → Completes (.descriptorPrefetch stream) s fun t =>
      t.work.streams = m.work.streams.upd stream.val
        fun x => { x with ahead := x.ahead ++ [((k.head + k.ahead.length) % 2 ^ 21, r.bytes)] }) ∧
  (∀ (s u : State) (stream : Fin 1048576) (seq : Nat) (x w : Waybill), s.running = true → s.work.wbs.find (wbKey stream.val seq) = some x →
    s.mayStart x = true → s.seqLoad (s.work.streams.getD x.stream {}).seqr < 16 → (s.guest x.gid).resident = true →
    s.hasWords (wbKey stream.val seq) u → u.work.wbs.find (wbKey stream.val seq) = some w → (u.guest w.gid).fatal = 0 →
    (w.checked = true → Completes (.waybillStart stream seq) s fun t =>
      (t.wb (wbKey stream.val seq)).st = 1 ∧ (t.wb (wbKey stream.val seq)).total = (u.division w).1 ∧ t.cellar = u.cellar) ∧
    (w.checked = false → ∀ m : State,
      m = u.onWb (wbKey stream.val seq) (fun x => { x with dir := (u.guest w.gid).dir, dirEpoch := u.pool.dirEpoch }) →
      m.check55 (m.wb (wbKey stream.val seq)) = none → m.keyUnwraps w.gid = true → Completes (.waybillStart stream seq) s fun t =>
        (t.wb (wbKey stream.val seq)).st = 1 ∧ (t.wb (wbKey stream.val seq)).checked = true ∧
          (t.wb (wbKey stream.val seq)).dir = (u.guest w.gid).dir ∧ t.cellar = u.cellar)) ∧
  (∀ (s : State) (stream : Fin 1048576) (seq : Nat) (w : Waybill), s.running = true → s.work.wbs.find (wbKey stream.val seq) = some w →
    w.st = 0 → w.waits.isSome = true →
    ((s.work.streams.getD w.stream {}).limit ≠ 0 → Completes (.waitTimeoutExpiry stream seq) s fun t =>
      t.work.wbs.find (wbKey stream.val seq) =
        some { w with whole := true, total := s.granulesOf w, early := some 0x0C, st := 2, waits := none }) ∧
    ((s.work.streams.getD w.stream {}).limit = 0 → exec (.waitTimeoutExpiry stream seq) s = .next s)) ∧
  (∀ (s u : State) (stream : Fin 1048576) (seq : Nat) (w : Waybill) (m : State), s.running = true → s.hasWords (wbKey stream.val seq) u →
    u.work.wbs.find (wbKey stream.val seq) = some w → w.key = wbKey stream.val seq → w.st = 2 →
    u.publishWrite w.cpl w.gid (w.record (u.reg Obj.arithReportMask)) = (true, m) → Completes (.waybillComplete stream seq) s fun t =>
      t.work.wbs.find (wbKey stream.val seq) = none ∧ t.cellar = m.cellar ∧
        t.reg Obj.arithFlagsSeen = u.reg Obj.arithFlagsSeen ||| (w.flags % 2 ^ 16) ∧
        (∀ x : Tally, w.noTally = false → w.tally ≠ 0xFFFF → u.work.tallies.find w.tally = some x → ∃ y : Tally,
          t.work.tallies = u.work.tallies.put w.tally y ∧ y.count = wrapAdd 64 x.count w.tallyAdd))

/-- Work that waited goes on (R32, R37, R75): a request takes a free tracker, a zero fill is over, and an LRC fill installs its line. -/
def Obligations.WaitingWorkGoesOn : Prop :=
  (∀ (s : State) (c : Claim), s.running = true → favoured75 s.ready75 s.pool.trkPtr = some c →
    (s.trackerPool c.p.tc).isSome = true → (s.pool.reqs.lowestFree trackerCount).isSome = true → Completes .trackerGrant s fun t =>
      ∃ (m : State) (k : Nat) (r : Req), s.pool.reqs.has k = false ∧ m.pool.reqs = s.pool.reqs.put k r ∧ r.p = c.p ∧
        m.pool.claims = s.pool.claims.erase c ∧ t = m.begin k c) ∧
  (∀ (s : State) (gid : Fin 1048576) (pva : Nat) (f : ZFill), s.running = true →
    s.pool.fills.find? (fun f => f.gid == gid.val && f.pva == pva) = some f → Completes (.zeroFillDone gid pva) s fun t =>
      ∃ m : State, m.pool.fills = s.pool.fills.filter (fun x => x != f) ∧
        (∀ l ∈ m.trans.leaves, l.gid = f.gid → l.pva = f.pva → l.level = f.level → l.pa = f.pa → l.zm = false) ∧
        t = m.resume fun r => r.stage == .fill f.pa) ∧
  (∀ (s : State) (line l g : Nat) (d : Bytes) (dead : Bool), s.running = true →
    s.pool.lrcFills.find? (fun f => f.1 == line) = some (l, g, d, dead) → Completes (.lrcFill line) s fun t =>
      t.pool.lrcFills = s.pool.lrcFills.erase (l, g, d, dead) ∧ t.pool.lrc = if dead then s.pool.lrc else s.pool.lrc.put l (g, d))

/-- Chunks and commits (R81 to R83, R85, R125, R399): a chunk goes to the chosen cluster, cleared first where the guest changes; a granule
commits once; a chunk of a lost cluster goes to another. -/
def Obligations.ChunksComplete : Prop :=
  (∀ (s u : State) (stream : Fin 1048576) (seq c cl : Nat) (w : Waybill), s.running = true → s.hasWords (wbKey stream.val seq) u →
    u.work.wbs.find (wbKey stream.val seq) = some w → w.dispatches = true → (u.chunkEntries < 8192 ∨ 65536 < c) →
    (u.guest w.gid).resident = true → w.nextChunk = some c → u.chooseCluster w = some cl → Completes (.chunkDispatch stream seq) s fun t =>
      ∃ k : Chunk, (t.wb (wbKey stream.val seq)).chunks = w.chunks.put c k ∧ k.cluster = cl ∧ k.st = 1 ∧
        k.clearing = ((u.cluster cl).lastGid != some w.gid) ∧ (c < 65536 → k.first = c * w.perChunk) ∧
        ((u.cluster cl).pw = 1 → (t.cluster cl).pw = 3) ∧ ((u.cluster cl).pw = 2 → (t.cluster cl).pw = 4)) ∧
  (∀ (s : State) (stream : Fin 1048576) (seq g c : Nat) (cl : Fin 128) (w : Waybill) (k : Chunk) (h : Held), s.running = true →
    s.work.wbs.find (wbKey stream.val seq) = some w → w.chunkOf g = some (c, k) → w.chunks.find c = some k → k.cluster = cl.val →
    k.old.find? (fun x => x.1 == cl.val && x.2.1 == g) = none → k.held.find g = some h → h.waiting = 0 →
    (k.bits.testBit (g - k.first) = false → s.outsRoom (h.outs.filter fun o => o.kind == 0) = true →
      s.outsBlocked (wbKey stream.val seq) g h.outs = none → Completes (.granuleCommit stream seq g cl) s fun t =>
        (∃ k' : Chunk, (t.wb (wbKey stream.val seq)).chunks.find c = some k' ∧ k'.bits = setBit k.bits (g - k.first)) ∧
        (t.wb (wbKey stream.val seq)).flags = w.flags ||| h.flags ∧
        (t.wb (wbKey stream.val seq)).committed = (if h.fail = 0 then w.committed + 1 else w.committed) ∧
        (t.wb (wbKey stream.val seq)).marks = (if h.fail ≠ 0 then w.marks.put g h.fail else if h.poison then w.marks.put g 0x02 else w.marks) ∧
        ∃ m : State, Frame [.counters, .irqPending] (s.onChunk (wbKey stream.val seq) c fun k => { k with held := k.held.del g }) m ∧
          (s.keepsOpen (wbKey stream.val seq) g = false → ∀ (outs : List OutRange) (n : State),
            m.openOuts (m.wb (wbKey stream.val seq)) g h = (outs, n) →
            t.cellar = (n.putOuts w.gid (outs.filter fun o => o.kind == 0)).cellar)) ∧
    (k.bits.testBit (g - k.first) = true → Completes (.granuleCommit stream seq g cl) s fun t =>
      t.work.wbs.find (wbKey stream.val seq) = some { w with chunks := w.chunks.upd c fun k => { k with held := k.held.del g } } ∧
        (s.keepsOpen (wbKey stream.val seq) g = false → t.cellar = s.cellar))) ∧
  (∀ (s u : State) (stream : Fin 1048576) (seq c cl : Nat) (w : Waybill) (k : Chunk), s.running = true →
    s.hasWords (wbKey stream.val seq) u → u.work.wbs.find (wbKey stream.val seq) = some w → w.chunks.find c = some k → k.st = 2 →
    w.cancelled = false → k.redispatched < u.reg Obj.redispatchLimit → (w.opc = 0x51 → w.exchanged = true ∨ 65536 ≤ c) →
    (u.guest w.gid).resident = true → u.rechooseCluster w = some cl → Completes (.chunkRedispatch stream seq c) s fun t =>
      (t.wb (wbKey stream.val seq)).redispatch = satInc 8 w.redispatch ∧
      ∃ k' : Chunk, (t.wb (wbKey stream.val seq)).chunks = w.chunks.put c k' ∧ k'.cluster = cl ∧ k'.st = 1 ∧ k'.bits = k.bits ∧
        k'.redispatched = k.redispatched + 1)

/-- Clusters (R82, R399, R400, R486, R487): cleared, lost, asleep, awake, and back in service. -/
def Obligations.ClustersComplete : Prop :=
  (∀ (s : State) (cl : Fin 128), s.running = true → (s.cluster cl.val).clearing = true → (s.cluster cl.val).pw = 0 →
    Completes (.clusterClearDone cl) s fun t =>
      (t.cluster cl.val).clearing = false ∧ (t.cluster cl.val).lastGid = s.clusterGuest cl.val ∧ t.trans.tlbs = s.trans.tlbs.del cl.val ∧
        ∀ (n c : Nat) (w : Waybill) (k : Chunk), t.work.wbs.find n = some w → w.chunks.find c = some k → k.cluster = cl.val → k.st = 1 →
          k.clearing = false) ∧
  (∀ (s : State) (cl : Fin 128), s.running = true → s.clusterUp cl.val = true → (s.cluster cl.val).pw ≠ 1 → (s.cluster cl.val).pw ≠ 2 →
    Completes (.clusterLost cl) s fun t =>
      (t.cluster cl.val).lost = true ∧ (t.cluster cl.val).lastGid = none ∧ t.trans.tlbs = s.trans.tlbs.del cl.val ∧
        (s.hearth.dir.rows.any (fun r => r.2.open_) = false → t.cellar = s.cellar)) ∧
  (∀ (s : State) (die : Fin 16), s.running = true → s.hasDie (diePD die.val) = true → Completes (.porterDieLost die) s fun t =>
    t.power.present = clearBit s.power.present (diePD die.val) ∧ (∀ i : Nat, i < 8 → (t.cluster (die.val * 8 + i)).lost = true) ∧
      (s.hearth.dir.rows.any (fun r => r.2.open_) = false → t.cellar = s.cellar)) ∧
  (∀ (s : State) (cl : Fin 128), s.running = true → (s.cluster cl.val).lost = true → Completes (.clusterReturnsToService cl) s fun t =>
    (t.cluster cl.val).lost = false ∧ (t.cluster cl.val).lastGid = none ∧ (t.cluster cl.val).pw = 0) ∧
  (∀ (s : State) (cl : Fin 128), s.running = true → s.idleOpen cl.val = true → (s.cluster cl.val).clearing = false →
    s.keptOpen cl.val = false → Completes (.clusterShutterExpiry cl) s fun t =>
      t.work.clusters = s.work.clusters.put cl.val { (s.cluster cl.val) with pw := 1, idle := s.now } ∧ t.trans.tlbs = s.trans.tlbs) ∧
  (∀ (s : State) (cl : Fin 128), s.running = true → s.clusterUp cl.val = true → (s.cluster cl.val).pw = 1 →
    s.reg Obj.clusterDarkIdle ≠ 0 → Completes (.clusterDarkExpiry cl) s fun t =>
      t.work.clusters = s.work.clusters.put cl.val { (s.cluster cl.val) with pw := 2, lastGid := none, idle := s.now } ∧
        t.trans.tlbs = s.trans.tlbs.del cl.val) ∧
  (∀ (s : State) (cl : Fin 128), s.running = true → (s.cluster cl.val).pw = 3 ∨ (s.cluster cl.val).pw = 4 →
    Completes (.clusterWakeDone cl) s fun t =>
      t.work.clusters = s.work.clusters.put cl.val { (s.cluster cl.val) with pw := 0, idle := s.now })

/-- The data operations as chunks (R128 to R156, R166 to R172, R185): where a chunk runs and has a granule or element left, what the
operation's kernel makes of it is placed, and is held for its commit once its inputs and its destination are all there; an element of ATOMIC
or CAS takes its new value; and a slice of MOEFFN's phase 1 makes its rows of h. -/
def Obligations.DataOperationsComplete : Prop :=
  ∀ (s : State) (stream : Fin 1048576) (seq chunk key : Nat) (k : Chunk), s.running = true → key = wbKey stream.val seq →
    s.chunkMakes (.copy stream seq chunk) key chunk 0x00 k (kernel0 key k.cluster s k.first) ∧
    s.chunkMakes (.convert stream seq chunk) key chunk 0x01 k (kernel0 key k.cluster s k.first) ∧
    s.chunkMakes (.fill stream seq chunk) key chunk 0x02 k (kernel0 key k.cluster s k.first) ∧
    s.chunkMakes (.eltwise stream seq chunk) key chunk 0x03 k (kernel0 key k.cluster s k.first) ∧
    s.chunkMakes (.deliver stream seq chunk) key chunk 0x04 k (kernel0 key k.cluster s k.first) ∧
    s.chunkMakes (.gather stream seq chunk) key chunk 0x10 k (kernel1 key k.cluster s k.first) ∧
    s.chunkMakes (.scatter stream seq chunk) key chunk 0x11 k (kernel1 key k.cluster s k.first) ∧
    s.chunkMakes (.redContrib stream seq chunk) key chunk 0x31 k (kernel3 key k.cluster s k.first) ∧
    s.chunkMakes (.reduce stream seq chunk) key chunk 0x33 k (kernel3 key k.cluster s k.first) ∧
    s.chunkMakes (.reshard stream seq chunk) key chunk 0x40 k (kernel4 key k.cluster s k.first) ∧
    s.chunkMakes (.mvb stream seq chunk) key chunk 0x50 k (kernelMvb key k.cluster s k.first) ∧
    ((s.wb key).total ≠ 0 → s.chunkMakes (.redOpen stream seq chunk) key chunk 0x30 k (kernelOpen key k.cluster s k.first)) ∧
    (chunk < 65536 → s.chunkMakes (.moeffn stream seq chunk) key chunk 0x51 k (kernelMoe key k.cluster s k.first)) ∧
    (∀ (b : Rd) (pa : Nat) (x : Seen) (o : Wr) (m : State), k.first = 0 → s.atomReady key k.cluster 0 b pa x o m →
      (s.oneLeft key chunk 0x20 k → Completes (.atomic stream seq chunk) s fun t => t = m.atomDone (s.wb key) key chunk 0 b pa x o) ∧
      (s.oneLeft key chunk 0x21 k → Completes (.cas stream seq chunk) s fun t => t = m.atomDone (s.wb key) key chunk 0 b pa x o)) ∧
    (∀ (w : Waybill) (qs : List Nat) (gr ur : List (Nat × List Rd)) (u v : State), 65536 ≤ chunk → s.work.wbs.find key = some w → w.opc = 0x51 →
      s.runs key chunk = true → w.chunks.find chunk = some k → w.slices.testBit (chunk - 65536) = false → w.hFail = 0 →
      w.scratch.has k.cluster = true → qs = w.sliceQs (chunk - 65536) → s.readRows key k.cluster chunk w.matG qs = (gr, u) →
      u.readRows key k.cluster chunk w.matU qs = (ur, v) → stopOf ((gr.map (·.2)).flatten ++ (ur.map (·.2)).flatten) = none →
      Completes (.moeffn stream seq chunk) s fun t =>
        (t.wb key).slices = setBit w.slices (chunk - 65536) ∧
          (t.wb key).h = putAt w.h ((chunk - 65536) * sliceRows w.colsK w.nparts w.batch * w.batch * (fmtD w.bfmt).size)
            (packElems (fmtD w.bfmt).size ((qs.map fun q => (upto w.batch).map fun j =>
              hElem w (rowAt gr q) (rowAt ur q) (w.pad k.cluster).x q j).flatten)).1)

/-- A granule made is placed (R57, R81 step 1, R126): it waits and nothing changes; it fails and is marked, its destination left as it was;
or it is held for its commit with the ranges its write needs, and memory is still as it was. -/
def Obligations.MadeGranulesArePlaced : Prop :=
  ∀ (s : State) (key c g : Nat) (x : Calc) (w : Waybill) (k : Chunk), s.work.wbs.find key = some w → w.chunks.find c = some k →
    (x.waits = true → x.hold = none → w.holds.find g = none → s.placeCalc key c g x = s) ∧
    (x.waits = false → x.fail ≠ 0 → x.force = false →
      (∃ w' : Waybill, (s.placeCalc key c g x).work.wbs.find key = some w' ∧ w'.marks.find g = some x.fail ∧ w'.committed = w.committed) ∧
      (s.keepsOpen key g = false → (s.placeCalc key c g x).cellar = s.cellar)) ∧
    (x.waits = false → x.fail = 0 ∨ x.force = true → ∀ (o : Wr) (m : State), x.stage = none → s.writeRanges key k.cluster g x.ranges = (o, m) →
      o.fail = 0 → o.waits = false → o.lost = false → m.work.wbs = s.work.wbs →
      (∃ (w' : Waybill) (k' : Chunk) (h : Held), (s.placeCalc key c g x).work.wbs.find key = some w' ∧ w'.chunks.find c = some k' ∧
        k'.held.find g = some h ∧ h.outs = o.outs ∧ h.flags = x.flags ∧ h.poison = x.poison ∧
        h.waiting = o.remote.length + x.deliver.length ∧ k'.bits = k.bits) ∧
      (s.placeCalc key c g x).cellar = m.cellar)

/-- A remote access of the Porter that stays unanswered ends with 0x0C (R126, R134, R156). -/
def Obligations.RemoteTimeoutsComplete : Prop :=
  ∀ (s : State) (dst tag : Nat) (tc : Fin 4) (o : OwnReq), s.running = true →
    s.fabric.own.find? (fun o => o.dst == dst && o.tc == tc.val && o.tag == tag &&
      (match o.kind with | .remoteRead _ _ _ => true | .remoteWrite _ _ _ _ => true | .deliver _ _ _ => true | _ => false)) = some o →
    Completes (.remoteTimeoutExpiry dst tc tag) s fun t =>
      t.fabric.own = s.fabric.own.filter (fun x => x != o) ∧
      (∀ (b g i : Nat) (w : Waybill), o.kind = .remoteRead b g i → s.work.wbs.find b = some w →
        t.work.wbs.find b = some { w with remote := w.remote.put i ([], false, 0x0C) }) ∧
      (∀ (b c g : Nat), o.kind = .deliver b c g → s.heldIn b c g = true → (t.wb b).marks.find g = some 0x0C) ∧
      (∀ (b c g p : Nat), o.kind = .remoteWrite b c g p → s.heldIn b c g = true →
        if (s.wb b).group = 1 ∧ (s.wb b).failed.has g = false then (t.wb b).failed.find g = some (0x0C, p) else (t.wb b).marks.find g = some 0x0C)

/-- Reductions and the exchange of a matrix waybill (R113, R144 to R150, R172): what each event does where it can happen. -/
def Obligations.ReductionEventsComplete : Prop :=
  (∀ (s : State) (stream : Fin 1048576) (seq key chunk : Nat) (w : Waybill), s.running = true → key = wbKey stream.val seq →
    s.work.wbs.find key = some w → w.st = 1 →
    (w.opc = 0x30 → w.total = 0 → Completes (.redOpen stream seq chunk) s fun t => t.work.wbs.find key = some { w with st := 2 }) ∧
    (w.openWait.isSome = true → w.cancelled = false → s.work.stageUsed + stageKib w.len ≤ stageTotal →
      Completes (.stagingAlloc stream seq) s fun t =>
        t.work.stageUsed = s.work.stageUsed + stageKib w.len ∧ t.work.wbs.find key = some { w with openWait := none } ∧
          t.work.ctxs = s.work.ctxs.upd w.rctx fun x => { x with kib := stageKib w.len, stage := zeroBytes w.len }) ∧
    (w.openWait.isSome = true → (s.work.streams.getD w.stream {}).limit ≠ 0 → Completes (.redOpenTimeout stream seq) s fun t =>
      t.work.ctxs = s.work.ctxs ∧ (t.wb key).early = some 0x0C ∧ (t.wb key).st = 2 ∧ (t.wb key).whole = true) ∧
    (w.turn = true → (s.work.ctxs.getD w.rctx {}).turnOf w.cidx = true → s.seqLoad (s.work.streams.getD w.stream {}).seqr < 16 →
      Completes (.contribTurn stream seq) s fun t => t.work.wbs.find key = some { w with turn := false }) ∧
    (∀ (r : Rd) (m : State), w.turn = true → w.staged = 0 →
      (s.work.ctxs.getD w.rctx {}).prefetched + ceilDiv (s.contribLen w) 1024 ≤ s.reg Obj.stagePrefetchMax →
      s.work.stageUsed + ceilDiv (s.contribLen w) 1024 ≤ stageTotal →
      s.readRange key (s.work.streams.getD w.stream {}).seqr 0 w.src (s.contribLen w) = (r, m) → r.ok = true →
      Completes (.stagedPrefetch stream seq) s fun t =>
        t.work.stageUsed = m.work.stageUsed + ceilDiv (s.contribLen w) 1024 ∧
        t.work.wbs = m.work.wbs.upd key fun x => { x with staged := ceilDiv (s.contribLen w) 1024, pre := r.bytes, prePz := r.pz, degraded := x.degraded || r.degraded }) ∧
    (w.opc = 0x32 → s.runs key 0 = true → w.closed = false → Completes (.redClose stream seq) s fun t =>
      t.work.ctxs = s.work.ctxs ∧
      ∀ (n : Nat) (c : Waybill), s.work.wbs.find n = some c → t.work.wbs.find n =
        some (if c.counts = true ∧ c.rctx = w.rctx ∧ (c.turn = true ∨ c.st = 0) then s.cancelWb c else c)) ∧
    (∀ k : Chunk, w.opc = 0x32 → s.runs key 0 = true → w.closed = true → w.chunks.find 0 = some k → k.count = 1 →
      Completes (.redClose stream seq) s fun t => ∃ k' : Chunk, (t.wb key).chunks.find 0 = some k' ∧ k'.st = 3) ∧
    (w.opc = 0x51 → w.exchanged = false → (upto w.sliceCount).all (w.slices.testBit ·) = true →
      Completes (.moeffnExchangeDone stream seq) s fun t => t.work.wbs.find key = some w.exchange)) ∧
  (∀ (s : State) (unit : Nat), s.running = true → Completes (.granuleLockGrant unit) s fun t =>
    t.work.locks.length = s.work.locks.length ∧
    ∀ (i : Nat) (l : GLock), s.work.locks[i]? = some l →
      t.work.locks[i]? = some (if l.pa = unit ∧ l.holder = none then
        match l.waiters.find? (fun x => match s.clusterOf x with | some c => s.lockOk c unit | none => false) with
        | some x => { l with holder := some x, waiters := l.waiters.filter (· != x) }
        | none => l
      else l)) ∧
  (∀ (s : State) (rctx : Fin 1024) (x : RedCtx) (m m' : State), s.running = true → s.work.ctxs.find rctx.val = some x → x.open_ = true →
    s.contribsLeft rctx.val = false → (x.ncontrib ≤ x.counted ∨ ∃ k : Nat, x.closing = some k ∧ (s.wb k).st = 1) →
    (if x.staged then s.writeBack rctx.val else (true, s)) = (true, m) → m.publishCtx x = (true, m') →
    Completes (.redContextComplete rctx) s fun t =>
      t.work.ctxs.find rctx.val = none ∧ t.work.stageUsed = m'.work.stageUsed - x.kib ∧ t.cellar = m'.cellar ∧
      (∀ y : Tally, x.doneTally ≠ 0xFFFF → m'.work.tallies.find x.doneTally = some y → ∃ z : Tally,
        t.work.tallies = m'.work.tallies.put x.doneTally z ∧ z.count = wrapAdd 64 y.count 1))

/-- LAYOUT_CMD (R179, R181, R186, Table 5.12): each command, where the record accepts it, has its effect. -/
def Obligations.LayoutCommandsComplete : Prop :=
  (∀ (s : State) (i : Nat) (l : Layout), s.accepts Obj.layoutCmdResult →
    l = { gid := s.reg Obj.layoutCmdGid % 2 ^ 20, w := wordsOf (s.blob Obj.layoutCmdDesc) } → l.valid = true →
    s.work.layouts.lowestFree 65536 = some i → Completes .layoutRegister s fun t =>
      t.work.layouts = s.work.layouts.put i l ∧ t.reg Obj.layoutCmdId = i ∧ t.reg Obj.layoutCmdResult = 0x00 ∧
        s.regsBut [Obj.layoutCmdOp, Obj.layoutCmdId, Obj.layoutCmdResult] t) ∧
  (∀ s : State, s.accepts Obj.layoutCmdResult → s.work.layouts.has (s.reg Obj.layoutCmdId) = true →
    s.layoutUsed (s.reg Obj.layoutCmdId) = false → Completes .layoutRemove s fun t =>
      t.work.layouts = s.work.layouts.del (s.reg Obj.layoutCmdId) ∧ t.reg Obj.layoutCmdResult = 0x00 ∧
        s.regsBut [Obj.layoutCmdOp, Obj.layoutCmdResult] t) ∧
  (∀ (s : State) (l : Layout), s.accepts Obj.layoutCmdResult → s.work.layouts.find (s.reg Obj.layoutCmdId) = some l →
    Completes .layoutQuery s fun t =>
      t.blob Obj.layoutCmdDesc = (l.w.map fun v => leBytes 8 v).flatten ∧ t.work.layouts = s.work.layouts ∧
        t.reg Obj.layoutCmdResult = 0x00 ∧ s.regsBut [Obj.layoutCmdOp, Obj.layoutCmdResult] t)

/-- TRANS_CMD (R199 to R204, R210, R211, R213): a batch that passes every check runs, the window table as it was; a query reports the leaf and
the GEN in force. -/
def Obligations.TranslationCommandsComplete : Prop :=
  (∀ (s : State) (gid : Nat) (us : List UpdRec) (ls : List Leaf), s.accepts Obj.transCmdResult → gid = s.reg Obj.transCmdGid % 2 ^ 20 →
    s.pool.guests.has gid = true → 1 ≤ s.reg Obj.transCmdCount → s.reg Obj.transCmdCount ≤ 128 →
    (s.blob Obj.transCmdBatch).length = 32 * s.reg Obj.transCmdCount → s.reg Obj.transCmdExpectGen = (s.guest gid).gen →
    us = (upto (s.reg Obj.transCmdCount)).map (fun i => updOf (sliceBytes (s.blob Obj.transCmdBatch) (32 * i) 32)) →
    s.checkBatch gid us 0 false s.trans.leaves = (none, ls) → (s.placeTables gid (s.tablesNew gid ls)).isSome = true →
    Completes .commit s fun t =>
      t.reg Obj.transCmdResult = 0x01 ∧ t.reg Obj.transCmdGen = (s.guest gid).gen ∧ t.reg Obj.transCmdFailIndex = 0 ∧
      s.regsBut [Obj.transCmdOp, Obj.transCmdResult, Obj.transCmdGen, Obj.transCmdFailIndex] t ∧ t.trans.leaves = s.trans.leaves ∧
      ∃ c : Commit, t.trans.commit = some c ∧ c.recs = us ∧ c.gid = gid ∧
        match us.find? (fun u => u.op != 1) with
        | none => c.phase = 1
        | some u => if u.op = 2 then c.phase = 2 else c.phase = 4 ∨ c.phase = u.op) ∧
  (∀ (s : State) (gid : Nat), s.accepts Obj.transCmdResult → gid = s.reg Obj.transCmdGid % 2 ^ 20 → s.pool.guests.has gid = true →
    Completes .transQuery s fun t =>
      t.reg Obj.transCmdResult = 0x00 ∧ t.reg Obj.transCmdGen = (s.guest gid).gen ∧ t.reg Obj.transCmdFailIndex = 0 ∧
      t.reg Obj.transCmdQentry = ((s.leafAt gid (s.reg Obj.transCmdQpva)).map (·.bits)).getD 0 ∧
      t.reg Obj.transCmdQlevel = ((s.leafAt gid (s.reg Obj.transCmdQpva)).map (·.level)).getD 0xFF ∧
      s.regsBut [Obj.transCmdOp, Obj.transCmdResult, Obj.transCmdGen, Obj.transCmdFailIndex, Obj.transCmdQentry, Obj.transCmdQlevel] t)

/-- What a commit does on its own (R201, R202, R204, R210 to R212): its commit point falls where its transfers are over, it ends when the old
ranges are clean, and a transfer that passes its limit ends the migration. -/
def Obligations.CommitEventsComplete : Prop :=
  ∀ (s : State) (c : Commit), s.running = true → s.trans.commit = some c →
    (s.pool.guests.has c.gid = true → c.phase = 1 → Completes .commitPoint s fun t => s.pastPoint c t) ∧
    (s.pool.guests.has c.gid = true → c.phase = 2 → c.done * 1024 = c.size → Completes .migrateInDone s fun t => s.pastPoint c t) ∧
    (s.pool.guests.has c.gid = true → c.phase = 4 → c.done * 1024 = c.size → Completes .migrateOutDone s fun t => s.pastPoint c t) ∧
    (∀ m : State, c.phase = 5 → c.spans.any (fun x => s.inFlight x.1 x.2 c.epoch) = false →
      c.spans.foldl (fun (b : Bool × State) x => let (k, s) := b.2.drainRange x.1 x.2; (b.1 && k, s)) (true, s) = (true, m) →
      Completes .commitDrainDone s fun t =>
        t.reg Obj.transCmdResult = 0x00 ∧ t.trans.commit = none ∧ t.trans.heapFree = s.trans.heapFree + c.freed ∧
          t.trans.leaves = s.trans.leaves ∧ s.regsBut [Obj.transCmdResult] t ∧ (c.gone = [] → t.cellar = m.cellar)) ∧
    ((c.phase = 2 ∨ c.phase = 4) →
      s.fabric.own.any (fun o => match o.kind with | .migrateIn _ _ => true | .migrateOut _ _ => true | _ => false) = true →
      Completes .migrateTimeoutExpiry s fun t =>
        t.trans.commit = none ∧ t.trans.leaves = s.trans.leaves ∧
        (∀ o ∈ t.fabric.own, (match o.kind with | .migrateIn _ _ => true | .migrateOut _ _ => true | _ => false) = false) ∧
        ∃ m : State, m.reg Obj.transCmdResult = 0x07 ∧ Frame releaseParts m t)

/-- Walks, held accesses and the fault queue (R194, R197, R201, R206 to R208, R214, R236). -/
def Obligations.FaultsComplete : Prop :=
  (∀ (s : State) (trk : Fin 16384) (r : Req) (g : Nat), s.running = true → s.pool.reqs.find trk.val = some r → r.stage = .walk g →
    (g = (s.guest r.gid).gen → Completes (.translationWalkDone trk) s fun t => t = s.walked trk.val r) ∧
    (g ≠ (s.guest r.gid).gen → Completes (.translationWalkDone trk) s fun t =>
      t.pool.reqs = s.pool.reqs.upd trk.val fun r => { r with stage := .walk (s.guest r.gid).gen })) ∧
  (∀ (s : State) (k : Nat) (r : Req) (h : Hold), s.running = true → s.pool.reqs.find k = some r → r.stage = .hold h →
    Completes (.faultHoldExpiry (.req k)) s fun t => t = (((s.markExpired h).leaveQ qidFault k).endReq k 0x06 [] false).endHold h) ∧
  (∀ (s : State) (k q g : Nat) (h : Hold), s.running = true → (s.wb (wbKey k q)).holds.find g = some h →
    Completes (.faultHoldExpiry (.granule k q g)) s (fun t => t = (s.markExpired h).expireGranule (wbKey k q) g h) ∧
    ∀ (c : Nat) (x : Chunk), (s.wb (wbKey k q)).chunkOf g = some (c, x) → (s.wb (wbKey k q)).group ≠ 1 → (s.wb (wbKey k q)).group ≠ 5 →
      Completes (.faultHoldExpiry (.granule k q g)) s fun t => t = (s.markExpired h).failGranule (wbKey k q) c g 0x06) ∧
  (∀ (s : State) (k : Nat) (h : Hold) (x : Stream), s.running = true → s.work.streams.find k = some x → x.held = some h →
    x.err = none → Completes (.faultHoldExpiry (.fetch k)) s fun t => t = (s.markExpired h).fetchFail k 0x06 ∧
      ∃ y : Stream, t.work.streams.find k = some y ∧ y.err = some (x.seq, 0x06) ∧ y.held = none) ∧
  (∀ (s : State) (r : Nat) (h : Hold), s.running = true → (s.work.ctxs.getD r {}).hold = some h →
    Completes (.faultHoldExpiry (.ctx r)) s fun t => t = (s.markExpired h).nextBack r) ∧
  (∀ (s : State) (r : FqRec) (rest : List FqRec), s.running = true → s.trans.fq = r :: rest → s.reg Obj.fqLog2 ≠ 0 →
    wrapSub 32 s.trans.fqTail (s.reg Obj.fqHead) < 2 ^ s.reg Obj.fqLog2 → Completes .faultQueueRecord s fun t =>
      t.trans.fq = rest ∧ t.trans.fqTail = (s.trans.fqTail + 1) % 2 ^ 32 ∧ ∃ m : State, Frame [.faults] s m ∧ t = m.originate
        { dst := s.reg Obj.fqEpid % 2 ^ 20, pkey := 0xFFFF, tc := 3, opc := 0x03, len := 1,
          addr := s.reg Obj.fqBase + 32 * (s.trans.fqTail % 2 ^ s.reg Obj.fqLog2), xw := 32,
          payload := padBytes 64 (s.fqBytes r s.trans.fqTail (s.reg Obj.fqLog2)) }) ∧
  (∀ (s : State) (v : Nat), s.served = true → Completes (.fqHeadWrite v) s fun t =>
    t.reg Obj.fqHead = v % 2 ^ 32 ∧ s.regsBut [Obj.fqHead] t) ∧
  (∀ (s : State) (which : Fin 3) (v : Nat), s.served = true → fqOk which v = true → Completes (.fqConfigWrite which v) s fun t =>
    t.reg (fqObject which) = v ∧ t.reg Obj.fqHead = 0 ∧ t.trans.fqTail = 0 ∧
    t.trans.fq = (if t.reg Obj.fqLog2 = 0 then [] else s.trans.fq) ∧ s.regsBut [fqObject which, Obj.fqHead, Obj.zmLost] t) ∧
  (∀ (s : State) (die : Fin 6), s.running = true → s.hasDie (dieLG die.val) = true → Completes (.ledgerDieLost die) s fun t =>
    t.power.present = clearBit s.power.present (dieLG die.val) ∧ (∀ e ∈ t.trans.cache, e ∈ s.trans.cache) ∧
      (∀ r ∈ t.pool.lrc.rows, r ∈ s.pool.lrc.rows) ∧ t.trans.leaves = s.trans.leaves ∧ t.trans.tlbs = s.trans.tlbs ∧
      t.pool.guests = s.pool.guests ∧ t.obs.recoveryHold = true ∧ ∃ m : State, Frame [.present, .lrc, .tlbs, .phase, .free] s m ∧
        Frame [.log, .out] (m.resnoop (die.val / 2)) t)

/-- What arrives on a link in service (R243, R244, R247, R249, R250, R255, R258, R266, R489): header fields are applied, and each message has
its effect; the next flit of the sequence is taken and a bad one asks for a replay. -/
def Obligations.LinkTrafficCompletes : Prop :=
  ∀ (s : State) (link : Fin 32) (h : CtrlHdr) (k : Link), s.running = true → k = s.link link.val → k.established = true →
    Completes (.null link h) s (fun t => t.link link.val = k.heard h s.now) ∧
    (∀ fseq n : Nat, (k.heard h s.now).tx.unacked fseq = some n → (k.heard h s.now).tx.replay = none →
      ((k.heard h s.now).tx.consec < s.reg Obj.replayMax → Completes (.retryReq link h fseq) s fun t =>
        t.link link.val = (k.heard h s.now).moved.replays n s.now) ∧
      (s.reg Obj.replayMax ≤ (k.heard h s.now).tx.consec → Completes (.retryReq link h fseq) s fun t => s.linkLost link.val 9 0x02 t)) ∧
    (∀ lane map : Nat,
      (remapTx k.txLanes lane map ≠ k.txLanes → Completes (.laneMap link h lane map) s fun t =>
        s.says link.val (.laneMapAck lane map) t ∧ (t.link link.val).txLanes = remapTx k.txLanes lane map ∧
          (t.link link.val).tx.moving = true ∧ (t.link link.val).narrow = (k.narrow || decide (laneCount map < 8)) ∧
          (t.link link.val).st = if k.st = 8 then 8 else 6) ∧
      (remapTx k.txLanes lane map = k.txLanes → Completes (.laneMap link h lane map) s fun t =>
        s.says link.val (.laneMapAck lane map) t ∧ (t.link link.val).tx = (k.heard h s.now).tx ∧ (t.link link.val).st = k.st)) ∧
    (∀ lane m : Nat, k.mapSent = some (lane, m) → Completes (.laneMapAck link h lane (laneByte m k.spareFor)) s fun t =>
      t.link link.val = { k.heard h s.now with mapSent := none, lanes := m }) ∧
    Completes (.creditSyncReq link h) s (fun t =>
      s.says link.val (.creditSyncRsp k.rx.held) t ∧
        (t.link link.val).rx = LinkRx.drained { k.rx with due := List.replicate 8 0, attached := List.replicate 8 0 } link.val) ∧
    (∀ blocks : List Nat, k.st = 6 ∨ k.st = 7 → k.tx.sync = 2 → Completes (.creditSyncRsp link h blocks) s fun t =>
      (t.link link.val).st = (if k.st = 6 then 6 else k.upState) ∧ (t.link link.val).tx.used = (upto 8).map (fun v => blocks.getD v 0) ∧
        (t.link link.val).tx.sync = 0 ∧ (t.link link.val).rx = k.rx) ∧
    (s.fabric.stalled = [] → (k.st = 4 ∨ k.st = 5) → s.linkBusy link.val = false → Completes (.standbyReq link h) s fun t =>
      (t.link link.val).st = 8 ∧ ∃ g, t.out.head? = some (.ctrl link.val g .standbyAck (ctrlFlits g .standbyAck))) ∧
    (s.fabric.stalled = [] → k.standbyAsked = true → s.linkBusy link.val = false → Completes (.standbyAck link h) s fun t =>
      t.link link.val = { k.heard h s.now with st := 8, standbyAsked := false } ∧
        t.power.nightLinks = if s.power.st = 1 then setBit s.power.nightLinks link.val else s.power.nightLinks) ∧
    (∀ cause : Nat, Completes (.linkDown link h cause) s fun t => s.linkLost link.val 9 0x06 t) ∧
    (∀ (f : Flit) (word : List (Fin 544)) (ends : Bool) (next : List (Fin 544)), k.receives f = true → flitBad f word next (k.rx.drained link.val).fifo = none →
      (f.ftype < 2 → f.fseq = k.rx.taken % 4096 → Completes (.flitReceive link f word ends next) s fun t =>
        ∃ m : State, Frame [.links, .egress, .counters, .samples, .irqPending] s m ∧ t = (m.verifyGroup link.val).serCheck link.val ∧
          (m.link link.val).rx.taken = k.rx.taken + 1 ∧ (m.link link.val).rx.grp = k.rx.grp ++
            [{ hdr := hdr14 f.ftype f.sop f.pad f.abt f.abtVc, ftype := f.ftype, sop := f.sop, pad := f.pad, abt := f.abt,
               abtVc := f.abtVc, cipher := padBytes 240 f.payload }]) ∧
      (∀ c : CtrlMsg, f.ftype = 2 → ctrlOf f.payload = some c → Completes (.flitReceive link f word ends next) s fun t =>
        ∃ m : State, Frame [.links, .egress, .counters, .samples, .irqPending] s m ∧ t = (m.takeCtrl link.val c).serCheck link.val ∧
          (m.link link.val).tx = (k.heard (Flit.ctrlHdr f) s.now).tx ∧ (m.link link.val).rx.taken = k.rx.taken ∧
          (m.link link.val).rx.grp = k.rx.grp)) ∧
    (∀ (f : Flit) (word : List (Fin 544)) (ends : Bool) (next : List (Fin 544)) (sel : Nat), k.receives f = true →
      flitBad f word next (k.rx.drained link.val).fifo = some sel → Completes (.flitReceive link f word ends next) s fun t =>
        ∃ m : State, Frame [.links, .counters, .irqPending, .out] s m ∧ t = m.serCheck link.val ∧
          (m.link link.val).rx.taken = k.rx.taken ∧ (m.link link.val).rx.grp = k.rx.grp ∧ (m.link link.val).rx.asked = true ∧
          (k.rx.asked = false → s.says link.val (.retryReq (k.rx.taken % 4096)) m) ∧ (m.link link.val).tx = k.tx)

/-- What a link does on its own (R243, R244, R250, R257, R258, R264, R266, R271, R272, R274, R301, R489, R491, R492): lanes are spared, credits are
synchronised, standby is asked for and left, a silent link goes down and tries again. -/
def Obligations.LinkEventsComplete : Prop :=
  (∀ (s : State) (link : Fin 32) (k : Link), s.running = true → k = s.link link.val →
    (k.established = true → k.tx.acked < k.tx.formed → k.tx.ackAt ≠ some s.now →
      (k.tx.replayAt ≠ some s.now → k.tx.consec < s.reg Obj.replayMax → Completes (.replayTimeout link) s fun t =>
        t.link link.val = k.replays k.tx.acked s.now) ∧
      (k.tx.replayAt ≠ some s.now → s.reg Obj.replayMax ≤ k.tx.consec → Completes (.replayTimeout link) s fun t =>
        s.linkLost link.val 9 0x02 t) ∧
      (k.tx.replayAt = some s.now → Completes (.replayTimeout link) s fun t =>
        t.link link.val = { k with tx := { k.tx with replay := some k.tx.acked, replayFrom := k.tx.acked } })) ∧
    (∀ lane : Fin 9, 4 ≤ k.st → k.st ≤ 7 → k.lanesNext.testBit lane.val = true →
      (k.rxNarrow = false → k.spareFree = true → Completes (.laneFailing link lane) s fun t =>
        (t.link link.val).st = 6 ∧ (t.link link.val).rxNarrow = false ∧ (t.link link.val).rx.closed = true ∧
          (t.link link.val).mapSent = some (lane.val, setBit (clearBit k.lanesNext lane.val) 8) ∧ (t.link link.val).spareFor = some lane.val ∧
          s.says link.val (.laneMap lane.val (laneByte (setBit (clearBit k.lanesNext lane.val) 8) (some lane.val))) t) ∧
      (k.rxNarrow = false → k.spareFree = false → k.narrowOk = true → Completes (.laneFailing link lane) s fun t =>
        (t.link link.val).st = 6 ∧ (t.link link.val).narrow = true ∧ (t.link link.val).rxNarrow = true ∧ (t.link link.val).rx.closed = true ∧
          (t.link link.val).mapSent = some (lane.val, clearBit k.lanesNext lane.val) ∧
          s.says link.val (.laneMap lane.val (laneByte (clearBit k.lanesNext lane.val) (if lane.val = 8 then none else k.spareFor))) t) ∧
      (k.rxNarrow = true ∨ (k.spareFree = false ∧ k.narrowOk = false) → Completes (.laneFailing link lane) s fun t =>
        s.linkLost link.val 9 0x03 t)) ∧
    (k.established = true → k.lanes.testBit 8 = false → Completes (.spareUnusable link) s fun t =>
      t.link link.val = { k with spareBad := true }) ∧
    (∀ lane m : Nat, k.mapSent = some (lane, m) → Completes (.laneMapResend link) s fun t =>
      s.says link.val (.laneMap lane (laneByte m k.spareFor)) t) ∧
    (k.st = 6 → k.rx.closed = true → k.mapSent = none → Completes (.laneSparingDone link) s fun t =>
      (t.link link.val).st = (if k.tx.moving = true then 6 else k.resumeState) ∧ (t.link link.val).rx.closed = false ∧
        s.says link.val (.retryReq (k.rx.taken % 4096)) t) ∧
    (k.rx.closed = false → Completes (.laneSparingDone link) s fun t => t.link link.val = k.moved) ∧
    (∀ vc : Fin 8, k.established = true → k.audit = true → Completes (.creditQuietExpiry link vc) s fun t =>
      t.link link.val = { k with tx := { k.tx with quiet := k.tx.quiet.set vc.val true } }) ∧
    (∀ vc : Fin 8, k.st = 4 ∨ k.st = 5 → k.audit = false → k.tx.sync = 0 →
      LinkTx.window { k.tx with quiet := k.tx.quiet.set vc.val true } < s.reg Obj.creditRetrainFloor →
      Completes (.creditQuietExpiry link vc) s fun t => (t.link link.val).st = 7 ∧ (t.link link.val).tx.sync = 1) ∧
    (k.st = 6 ∨ k.st = 7 → k.tx.sync = 1 → k.tx.settled = true → Completes (.creditSyncRequest link) s fun t =>
      (t.link link.val).tx = { k.tx with sync := 2 } ∧ s.says link.val .creditSyncReq t) ∧
    (k.st = 6 ∨ k.st = 7 → k.tx.sync = 2 →
      (k.tx.syncTries < 2 → Completes (.creditSyncTimeout link) s fun t =>
        (t.link link.val).tx = { k.tx with syncTries := k.tx.syncTries + 1 } ∧ s.says link.val .creditSyncReq t) ∧
      (2 ≤ k.tx.syncTries → Completes (.creditSyncTimeout link) s fun t => s.linkLost link.val 9 0x04 t)) ∧
    (k.established = true → k.st ≠ 8 → Completes (.linkDeadTimeout link) s fun t => s.linkLost link.val 9 0x01 t) ∧
    (k.standbyAsked = true → Completes (.standbyAckTimeout link) s fun t =>
      t.link link.val = { k with standbyAsked := false } ∧
        t.power.deafLinks = if s.power.st = 1 then setBit s.power.deafLinks link.val else s.power.deafLinks) ∧
    (s.reg Obj.linkStandbyIdle ≠ 0 → k.st = 4 ∨ k.st = 5 → s.linkBusy link.val = false →
      Completes (.linkStandbyIdleExpiry link) s fun t =>
        (t.link link.val).standbyAsked = true ∧ (t.link link.val).st = k.st ∧
          ∃ g, t.out.head? = some (.ctrl link.val g .standbyReq (ctrlFlits g .standbyReq))) ∧
    (k.st = 9 ∨ k.st = 10 → Completes (.linkRetry link) s fun t =>
      (t.link link.val).st = (if s.flag (Obj.linkEnable link.val) then 1 else 0) ∧ (t.link link.val).keys = [] ∧
        (t.link link.val).lanes = 0x0FF ∧ (t.link link.val).tx = {} ∧ (t.link link.val).rx = {}) ∧
    (k.st = 1 → Completes (.peerDetected link) s fun t => t.link link.val = { k with st := 2 }) ∧
    (k.st = 1 → k.retrainCmd = true → Completes (.detectWithoutPeer link) s fun t =>
      t.link link.val = { k with retrainCmd := false } ∧ t.reg Obj.linkCmdResult = 0x00 ∧ s.regsBut [Obj.linkCmdResult] t) ∧
    (∀ gh : Fin 16, s.hasDie (dieGH gh.val) = true → Completes (.gatehouseDieLost gh) s fun t =>
      t.power.present = clearBit s.power.present (dieGH gh.val) ∧ t.fabric.ghLost = setBit s.fabric.ghLost gh.val ∧
        ∀ l, l = gh.val ∨ l = secondLink gh.val →
          (t.link l).st = 9 ∧ (t.link l).cause = 0x07 ∧ (t.link l).keys = [] ∧ ∀ e ∈ t.fabric.egress, e.link ≠ l) ∧
    (∀ (epid : Nat) (tc : Fin 4), Completes (.dedupExpiry epid tc) s fun t =>
      t.fabric.dedup = s.fabric.dedup.del (epid * 4 + tc.val))) ∧
  (∀ (s : State) (link : Fin 32) (k : Link), s.up = true → k = s.link link.val → k.st = 8 →
    (s.power.st ≠ 2 → Completes (.linkWake link) s fun t =>
      t.link link.val = { k with st := k.upState, standbyAsked := false }) ∧
    (s.power.st = 2 → (s.reg Obj.wakeLinkMask).testBit link.val = true → s.power.deafLinks.testBit link.val = false →
      (s.reg Obj.wakeEn).testBit 0 = true → Completes (.linkWake link) s fun t =>
        t.power.st = 3 ∧ t.power.wakeCause = 0x01 + link.val * 4))

/-- The key exchange (R259, R260, R264 to R266): each message is checked and answered by the next; the last makes the link ACTIVE. -/
def Obligations.KeyExchangeCompletes : Prop :=
  ∀ (s : State) (link : Fin 32) (k : Link), s.running = true → k = s.link link.val →
    (k.st = 2 →
      Completes (.trainingDone link) s (fun t =>
        (t.link link.val).st = 3 ∧ (t.link link.val).kx.step = 1 ∧ s.says link.val (.hello 1 k.auditEn k.narrowOk) t) ∧
      Completes (.trainingFailed link) s (fun t => s.linkLost link.val 10 0x09 t)) ∧
    (k.st = 3 →
      Completes (.keyxTimeout link) s (fun t => s.linkLost link.val 10 0x05 t) ∧
      (∀ m : CtrlMsg, k.kx.tries < 3 → k.kx.latest = some m → Completes (.keyxRetransmit link) s fun t =>
        (t.link link.val).kx.tries = k.kx.tries + 1 ∧ s.says link.val m t) ∧
      (∀ (version : Nat) (audit narrow : Bool), k.kx.step = 1 → Completes (.hello link version audit narrow) s fun t =>
        (t.link link.val).kx.step = 2 ∧ (t.link link.val).kx.peerAudit = audit ∧
          (t.link link.val).kx.peer = k.kx.peer ++ [keyxBytes (.hello version audit narrow)] ∧
          (t.link link.val).kx.mine = k.kx.mine ++ [keyxBytes (.cert ownChain)] ∧
          s.says link.val (.cert ownChain) t) ∧
      (∀ (chain sig : Bytes), k.kx.step = 2 → s.served = true → s.sec.noIdentity = false →
        sig = Config.ecdsaSign (Config.sha384 (transcript (lowerCert (leafOfChain chain)) k.kx.mine (k.kx.peer ++ [keyxBytes (.cert chain)]))) →
        ((s.withTrust k.kx.anchors k.kx.deny).chainOk chain (fun _ => true) = true → Completes (.cert link chain) s fun t =>
          (t.link link.val).kx.step = 3 ∧ (t.link link.val).kx.peerChain = chain ∧ (t.link link.val).kx.eph = s.sec.drawn ∧
            (t.link link.val).sideA = decide (beNat (Config.sha384 Config.deviceCert) < beNat (Config.sha384 (leafOfChain chain))) ∧
            t.sec.drawn = s.sec.drawn + 48 ∧ s.says link.val (.share (Config.ephemeralPub s.sec.drawn) sig) t) ∧
        ((s.withTrust k.kx.anchors k.kx.deny).chainOk chain (fun _ => true) = false → Completes (.cert link chain) s fun t => s.linkLost link.val 10 0x05 t)) ∧
      (∀ (pub sig th keys : Bytes), k.kx.step = 3 → th = transcript k.sideA k.kx.mine (k.kx.peer ++ [keyxBytes (.share pub sig)]) →
        keys = hkdf72 (Config.ecdhSecret k.kx.eph pub) (Config.sha384 th) "TRH link v1" →
        (Config.ecdsaVerify (leafKey k.kx.peerChain) (Config.sha384 k.transcript) sig = true → Completes (.share link pub sig) s fun t =>
          (t.link link.val).kx.step = 4 ∧ (t.link link.val).keys = keys ∧
            (t.link link.val).peerHash = Config.sha384 (leafOfChain k.kx.peerChain) ∧ (t.link link.val).sideA = k.sideA ∧
            s.says link.val (.finished (Config.hmac384 keys th)) t) ∧
        (Config.ecdsaVerify (leafKey k.kx.peerChain) (Config.sha384 k.transcript) sig = false →
          Completes (.share link pub sig) s fun t => s.linkLost link.val 10 0x05 t)) ∧
      (∀ mac : Bytes, k.kx.step = 4 →
        (mac = Config.hmac384 k.keys k.transcript → Completes (.finished link mac) s fun t =>
          (t.link link.val).st = 4 ∧ (t.link link.val).narrow = false ∧ (t.link link.val).audit = (k.auditEn && k.kx.peerAudit) ∧
            (t.link link.val).tx = {} ∧ (t.link link.val).rx = {} ∧
            (t.link link.val).keys = k.keys ∧ t.fabric.carried = clearBit s.fabric.carried link.val) ∧
        (mac ≠ Config.hmac384 k.keys k.transcript → Completes (.finished link mac) s fun t =>
          s.linkLost link.val 10 0x05 t)))

/-- LINK_CMD (R264, R273, R274): each command, where the record accepts it, has its effect. -/
def Obligations.LinkCommandsComplete : Prop :=
  ∀ (s : State) (l : Nat), s.accepts Obj.linkCmdResult →
    (l = s.reg Obj.linkCmdLink → l < 32 →
      ((s.link l).st ≠ 0 → s.needsPartner l = false → s.flag (Obj.linkEnable l) = true → Completes .retrain s fun t =>
        (t.link l).st = 1 ∧ (t.link l).keys = [] ∧ (t.link l).retrainCmd = true ∧
          ((s.link l).st ≠ 9 → (s.link l).st ≠ 10 → (t.link l).cause = 0x08) ∧ t.reg Obj.linkCmdResult = 0x01 ∧
          s.regsBut [Obj.linkCmdOp, Obj.linkCmdResult] t) ∧
      ((s.link l).st ≠ 0 → s.needsPartner l = false → s.flag (Obj.linkEnable l) = false → Completes .retrain s fun t =>
        (t.link l).st = 0 ∧ (t.link l).keys = [] ∧ t.reg Obj.linkCmdResult = 0x00 ∧ s.regsBut [Obj.linkCmdOp, Obj.linkCmdResult] t) ∧
      (s.needsPartner l = false → Completes .disable s fun t =>
        (t.link l).st = 0 ∧ ((s.link l).st ≠ 0 → s.linkLost l 0 0x08 t) ∧ t.reg Obj.linkCmdResult = 0x00 ∧
          s.regsBut [Obj.linkCmdOp, Obj.linkCmdResult] t) ∧
      ((s.link l).st = 0 → Completes .enable s fun t =>
        (t.link l).st = (if s.flag (Obj.linkEnable l) then 1 else 0) ∧ t.reg Obj.linkCmdResult = 0x00 ∧
          s.regsBut [Obj.linkCmdOp, Obj.linkCmdResult] t) ∧
      Completes .linkQuery s (fun t =>
        t.reg Obj.linkCmdLanes = (s.link l).lanes + (if (s.link l).spareBad then 0x8000 else 0) ∧
          t.blob Obj.linkCmdPeer = padBytes 16 ((s.link l).peerHash.take 16) ∧ t.reg Obj.linkCmdResult = 0x00 ∧
          t.fabric = s.fabric ∧ s.regsBut [Obj.linkCmdOp, Obj.linkCmdLanes, Obj.linkCmdResult] t)) ∧
    Completes .dedupClear s (fun t =>
      t.fabric.dedup = s.fabric.dedup.filter (fun k _ => k / 4 != s.reg Obj.linkCmdEpid % 2 ^ 20) ∧ t.reg Obj.linkCmdResult = 0x00 ∧
        s.regsBut [Obj.linkCmdOp, Obj.linkCmdResult] t)

/-- ROUTE_CMD, GMAP_CMD, PKEY_CMD and QUEUE_CMD (R288, R293, R303 to R307, R314, R321, R322): each command, where its record accepts it, has its
effect. -/
def Obligations.FabricCommandsComplete : Prop :=
  (∀ (s : State) (d e : Nat), s.accepts Obj.routeCmdResult → d = s.reg Obj.routeCmdEpid % 2 ^ 20 → e = s.reg Obj.routeCmdEntry →
    (s.entryOk e = true → Completes .setBlock s fun t =>
      t.fabric = { s.fabric with blockRoutes := s.fabric.blockRoutes.put (d / 256) e, routeEpoch := s.fabric.routeEpoch + 1,
                                 routeWait := some (0, d / 256) } ∧
        t.reg Obj.routeCmdResult = 0x01 ∧ s.regsBut [Obj.routeCmdOp, Obj.routeCmdResult] t) ∧
    (s.entryOk e = true → s.fabric.exactRoutes.has d = true ∨ s.fabric.exactRoutes.size < 4096 → Completes .setExact s fun t =>
      t.fabric = { s.fabric with exactRoutes := s.fabric.exactRoutes.put d e, routeEpoch := s.fabric.routeEpoch + 1,
                                 routeWait := some (1, d) } ∧
        t.reg Obj.routeCmdResult = 0x01 ∧ s.regsBut [Obj.routeCmdOp, Obj.routeCmdResult] t) ∧
    (s.fabric.exactRoutes.has d = true → Completes .clearExact s fun t =>
      t.fabric = { s.fabric with exactRoutes := s.fabric.exactRoutes.del d, routeEpoch := s.fabric.routeEpoch + 1,
                                 routeWait := some (1, d) } ∧
        t.reg Obj.routeCmdResult = 0x01 ∧ s.regsBut [Obj.routeCmdOp, Obj.routeCmdResult] t) ∧
    (s.reg Obj.routeCmdPair < 16 → s.pairMode (s.reg Obj.routeCmdPair) ≠ 0 →
      Completes .pairOut s (fun t =>
        t.fabric = { s.fabric with pairOut := setBit s.fabric.pairOut (s.reg Obj.routeCmdPair),
                                   routeEpoch := s.fabric.routeEpoch + 1, routeWait := some (2, s.reg Obj.routeCmdPair) } ∧
          t.reg Obj.routeCmdResult = 0x01 ∧ s.regsBut [Obj.routeCmdOp, Obj.routeCmdResult] t) ∧
      Completes .pairIn s (fun t =>
        t.fabric = { s.fabric with pairOut := clearBit s.fabric.pairOut (s.reg Obj.routeCmdPair),
                                   routeEpoch := s.fabric.routeEpoch + 1, routeWait := some (2, s.reg Obj.routeCmdPair) } ∧
          t.reg Obj.routeCmdResult = 0x01 ∧ s.regsBut [Obj.routeCmdOp, Obj.routeCmdResult] t)) ∧
    Completes .routeQuery s (fun t =>
      t.reg Obj.routeCmdEntry = s.routeEntry d ∧ t.reg Obj.routeCmdResult = 0x00 ∧ t.fabric = s.fabric ∧
        s.regsBut [Obj.routeCmdOp, Obj.routeCmdEntry, Obj.routeCmdResult] t)) ∧
  (∀ (s : State) (k src g : Nat) (wild : Bool), s.accepts Obj.gmapCmdResult → k = s.reg Obj.gmapCmdPkey →
    src = s.reg Obj.gmapCmdEpid % 2 ^ 20 → wild = bitOf (s.reg Obj.gmapCmdEpid) 31 → 1 ≤ k → k ≤ 0xFFFE →
    (g = s.reg Obj.gmapCmdGid % 2 ^ 20 → s.pool.guests.has g = true → s.gmapEntry.isSome = true ∨ s.gmapFull = false →
      Completes .gmapSet s fun t =>
        t.fabric.gmapExact = (if wild then s.fabric.gmapExact else s.fabric.gmapExact.put (gmapKey src k) g) ∧
          t.fabric.gmapWild = (if wild then s.fabric.gmapWild.put k g else s.fabric.gmapWild) ∧
          t.fabric.gmapEpoch = s.fabric.gmapEpoch + 1 ∧ t.fabric.gmapWait = some (k, if wild then none else some src) ∧
          t.reg Obj.gmapCmdResult = 0x01 ∧ s.regsBut [Obj.gmapCmdOp, Obj.gmapCmdResult] t) ∧
    (s.gmapEntry.isSome = true → Completes .gmapClear s fun t =>
      t.fabric.gmapExact = (if wild then s.fabric.gmapExact else s.fabric.gmapExact.del (gmapKey src k)) ∧
        t.fabric.gmapWild = (if wild then s.fabric.gmapWild.del k else s.fabric.gmapWild) ∧
        t.fabric.gmapEpoch = s.fabric.gmapEpoch + 1 ∧ t.fabric.gmapWait = some (k, if wild then none else some src) ∧
        t.reg Obj.gmapCmdResult = 0x01 ∧ s.regsBut [Obj.gmapCmdOp, Obj.gmapCmdResult] t) ∧
    (s.gmapEntry = some g → Completes .gmapQuery s fun t =>
      t.reg Obj.gmapCmdGid = g ∧ t.reg Obj.gmapCmdResult = 0x00 ∧ t.fabric = s.fabric ∧
        s.regsBut [Obj.gmapCmdOp, Obj.gmapCmdGid, Obj.gmapCmdResult] t)) ∧
  (∀ (s : State) (l k : Nat), s.accepts Obj.pkeyCmdResult → l = s.reg Obj.pkeyCmdLink → k = s.reg Obj.pkeyCmdPkey →
    (1 ≤ k → k ≤ 0xFFFE → (s.keySet l).length < 64 → Completes .pkeyAdd s fun t =>
      t.keySet l = (if (s.keySet l).contains k then s.keySet l else s.keySet l ++ [k]) ∧ (∀ x, x ≠ l → t.keySet x = s.keySet x) ∧
        t.reg Obj.pkeyCmdResult = 0x00 ∧ s.regsBut [Obj.pkeyCmdOp, Obj.pkeyCmdResult] t) ∧
    (1 ≤ k → k ≤ 0xFFFE → (s.keySet l).contains k = true → Completes .pkeyRemove s fun t =>
      t.keySet l = (s.keySet l).filter (fun x => x != k) ∧ (∀ x, x ≠ l → t.keySet x = s.keySet x) ∧
        t.reg Obj.pkeyCmdResult = 0x00 ∧ s.regsBut [Obj.pkeyCmdOp, Obj.pkeyCmdResult] t) ∧
    Completes .pkeyQuery s (fun t =>
      t.blob Obj.pkeyCmdSet = padBytes 128 ((s.keySet l).map fun x => leBytes 2 x).flatten ∧ t.reg Obj.pkeyCmdResult = 0x00 ∧
        t.fabric = s.fabric ∧ s.regsBut [Obj.pkeyCmdOp, Obj.pkeyCmdResult] t)) ∧
  (∀ (s : State) (gh q : Nat), s.accepts Obj.queueCmdResult → gh = s.reg Obj.queueCmdGh → q = s.reg Obj.queueCmdQueue → gh < 16 → q < 1024 →
    s.cmdQueue.shapeOk = true →
    (q < 4 → Completes .queueSet s fun t =>
      t.fabric.queues = s.fabric.queues.put (gh * 1024 + q) { s.queueCfg gh q with weight := s.cmdQueue.weight, quantum := s.cmdQueue.quantum,
                                                                                   rate := s.cmdQueue.rate, burst := s.cmdQueue.burst } ∧
        t.reg Obj.queueCmdResult = 0x00 ∧ t.fabric.egress = s.fabric.egress ∧ s.regsBut [Obj.queueCmdOp, Obj.queueCmdResult] t) ∧
    (4 ≤ q → s.cmdQueue.matchOk gh = true →
      s.fabric.queues.rows.any (fun r => r.1 / 1024 == gh && decide (4 ≤ r.1 % 1024) && r.1 % 1024 != q && r.2.same s.cmdQueue) = false →
      Completes .queueSet s fun t =>
        t.fabric.queues = s.fabric.queues.put (gh * 1024 + q) s.cmdQueue ∧ t.reg Obj.queueCmdResult = 0x00 ∧
          s.regsBut [Obj.queueCmdOp, Obj.queueCmdResult] t) ∧
    (4 ≤ q → s.fabric.queues.has (gh * 1024 + q) = true → Completes .queueRemove s fun t =>
      t.fabric.queues = s.fabric.queues.del (gh * 1024 + q) ∧ t.fabric.queueRun.has (gh * 1024 + q) = false ∧
        (∀ e ∈ t.fabric.egress, e.gh = gh → e.queue ≠ q ∨ defaultQueue e.link e.p.tc = q) ∧
        t.reg Obj.queueCmdResult = 0x00 ∧ s.regsBut [Obj.queueCmdOp, Obj.queueCmdResult] t) ∧
    (q < 4 ∨ s.fabric.queues.has (gh * 1024 + q) = true → Completes .queueQuery s fun t =>
      t.reg Obj.queueCmdWeight = (s.queueCfg gh q).weight ∧ t.reg Obj.queueCmdQuantum = (s.queueCfg gh q).quantum ∧
        t.reg Obj.queueCmdRate = (s.queueCfg gh q).rate ∧ t.reg Obj.queueCmdBurst = (s.queueCfg gh q).burst ∧
        t.reg Obj.queueCmdLink = (if q < 4 then defaultLink gh q else (s.queueCfg gh q).link) ∧
        t.reg Obj.queueCmdTc = (if q < 4 then q % 2 else (s.queueCfg gh q).tc) ∧ t.reg Obj.queueCmdPkey = (s.queueCfg gh q).pkey ∧
        t.reg Obj.queueCmdResult = 0x00 ∧ t.fabric = s.fabric))

/-- Congestion, express windows and egress (R306, R309 to R318, R322): an unanswered mark brings a CNP, a rate rises again, an
update drains, a window opens and closes, a replay resends, a stalled sender sends NULL and a paused or empty one IDLE flits, and the picked
packet starts. -/
def Obligations.FabricEventsComplete : Prop :=
  (∀ (s : State) (src : Nat) (tc : Fin 4) (d : EchoDue), s.running = true →
    s.fabric.echoes.find? (fun e => e.src == src && e.tc == tc.val) = some d →
    ((∀ x, s.fabric.lastCnp.find (rateKey src tc.val) = some x → x + s.reg Obj.cnpGap * 1000 ≤ s.now) → Completes (.cnpSend src tc) s fun t =>
      (∀ e ∈ t.fabric.echoes, e.src = src → e.tc = tc.val → d.at_ < e.at_) ∧
        t.fabric.lastCnp = s.fabric.lastCnp.put (rateKey src tc.val) s.now ∧
        t.fabric.nextSeq = s.fabric.nextSeq.put (src * 4 + tc.val) ((s.fabric.nextSeq.getD (src * 4 + tc.val) 0 + 1) % 2 ^ 32)) ∧
    (∀ x, s.fabric.lastCnp.find (rateKey src tc.val) = some x → s.now < x + s.reg Obj.cnpGap * 1000 → Completes (.cnpSend src tc) s fun t =>
      t = s)) ∧
  (∀ (s : State) (epid : Nat) (tc : Fin 4) (r : RateEntry), s.running = true → s.fabric.rates.find (rateKey epid tc.val) = some r →
    (r.decreased = s.now → Completes (.ccRateIncrease epid tc) s fun t => t = s) ∧
    (r.decreased ≠ s.now → Completes (.ccRateIncrease epid tc) s fun t =>
      t.fabric.rates = if 99210 ≤ r.rate + s.reg Obj.ccAi then s.fabric.rates.del (rateKey epid tc.val)
        else s.fabric.rates.put (rateKey epid tc.val)
          { s.rateNow r with rate := r.rate + s.reg Obj.ccAi, raised := some (s.now, r.rate) })) ∧
  (∀ (s : State) (w : Nat × Nat), s.running = true → s.fabric.routeWait = some w → s.fabric.egress.any (s.routedOld w) = false →
    Completes (.epochDrainDone true) s fun t =>
      t.fabric = { s.fabric with routeWait := none } ∧ t.reg Obj.routeCmdResult = 0x00 ∧ s.regsBut [Obj.routeCmdResult] t) ∧
  (∀ (s : State) (w : Nat × Option Nat), s.running = true → s.fabric.gmapWait = some w → s.gmapInFlight w = false →
    Completes (.epochDrainDone false) s fun t =>
      t.fabric = { s.fabric with gmapWait := none } ∧ t.reg Obj.gmapCmdResult = 0x00 ∧ s.regsBut [Obj.gmapCmdResult] t) ∧
  (∀ (s : State) (link : Fin 32), s.running = true →
    Completes (.expressWindowOpen link) s (fun t =>
      t.fabric.egLinks = s.fabric.egLinks.put link.val { s.eg link.val with
        period := s.reg (Obj.expPeriod link.val), width := s.reg (Obj.expWindow link.val), window := s.reg (Obj.expPeriod link.val) != 0 }) ∧
    Completes (.expressWindowClose link) s (fun t =>
      t.fabric.egLinks = s.fabric.egLinks.put link.val { s.eg link.val with window := false })) ∧
  (∀ (s : State) (link : Fin 32) (k : Link), s.running = true → k = s.link link.val → k.sends = true →
    (∀ (n : Nat) (x : TxFlit), k.tx.replay = some n → k.tx.buf[n - k.tx.acked]? = some x → Completes (.egressSelect link) s fun t =>
      (∃ f : Flit, t.out = .flit link.val f :: s.out ∧ f.fseq = n % 4096 ∧ f.ftype = x.ftype ∧ f.sop = x.sop ∧ f.pad = x.pad ∧
        f.payload = x.cipher) ∧
      (t.link link.val).tx = { k.tx with replay := if n + 1 < k.tx.formed then some (n + 1) else none }) ∧
    (k.tx.replay = none → k.tx.full = true → Completes (.egressSelect link) s fun t => s.says link.val .null t) ∧
    (k.tx.replay = none → k.tx.full = false →
      (k.tx.paused = true ∨ (s.maySend link.val = false ∧ k.tx.line = []) → Completes (.egressSelect link) s fun t =>
        (∃ f : Flit, t.out = .flit link.val f :: s.out ∧ f.fseq = k.tx.formed % 4096 ∧ f.ftype = 0) ∧
          (t.link link.val).tx.formed = k.tx.formed + 1 ∧ (t.link link.val).tx.line = k.tx.line) ∧
      (k.tx.paused = false → s.maySend link.val = false → k.tx.line ≠ [] → Completes (.egressSelect link) s fun t =>
        (∃ f : Flit, t.out = .flit link.val f :: s.out ∧ f.fseq = k.tx.formed % 4096 ∧ f.ftype = 1 ∧
          f.pad = (if k.tx.line.length < 240 then k.tx.line.length / 16 else 0xF)) ∧
          (t.link link.val).tx.formed = k.tx.formed + 1 ∧ (t.link link.val).tx.line = k.tx.line.drop (min 240 k.tx.line.length)))) ∧
  (∀ (s u m : State) (link : Fin 32) (e : EPkt), s.running = true → s.maySend link.val = true →
    u = (if (s.eg link.val).wfq != s.wantWfq link.val then s.changeMode link.val else s) → u.pickPacket link.val = (some e, m) →
    Completes (.egressSelect link) s fun t => ∃ p : Packet,
      (p = if e.p.ect && decide (m.reg Obj.ecnThreshold * 1024 < m.vcBytes link.val e.p.vc) then { e.p with ce := true } else e.p) ∧
      .pkt link.val p ∈ t.out ∧ t.fabric.egress = m.fabric.egress.erase e ∧
      (t.link link.val).tx.used = (m.link link.val).tx.used.set p.vc ((m.link link.val).tx.used.getD p.vc 0 + p.blocks) ∧
      ∃ x : EPkt, x.p = p ∧ (x ∈ (t.link link.val).tx.sent.map (·.2) ∨ x ∈ (t.link link.val).tx.ends.map (·.2)))

/-- Channel traffic (R331, R333, R334, R336 to R340, R353, R371, R394, R488): a subchannel issues the picked burst's next command; a read returns to its
request; a line of the write-combining buffer drains with its code; banks close, refreshes run or wait, sensors are read, idle channels
sleep and wake, and alerts stop and replay. That a sensor's in-band interrupt is served as a poll, and that a stored byte no one has
written reads 0, are the model's choices (assumptions 20 and 13). -/
def Obligations.ChannelTrafficCompletes : Prop :=
  ∀ (s : State) (ch : Fin 48) (c : Chan), s.running = true → c = s.chan ch.val →
    (∀ (sub : Fin 2) (ready : List Nat) (retire : Nat) (q0 q : Sub) (x : Nat × Burst) (capped : Bool) (r : RowAddr), c.st = 4 →
      c.alert = false → c.repair = none → c.subs[sub.val]? = some q0 → q = { q0 with retry := q0.retry.drop retire } → q.retry.length < 64 →
      s.pickSlot ch.val q (if s.subMode q then q.wq else q.rq) ready = (some x, capped) → r = s.burstRow ch.val x.2 →
      (q.rows.find r.bank = none → Completes (.columnCommandIssue ch sub ready retire) s fun t =>
        t.out = .dram ch.val sub.val (cmdText "ACT" r.bank r.row) :: s.out ∧
          (t.sub ch.val sub.val).rows = q.rows.put r.bank (r.row, s.now) ∧ (t.sub ch.val sub.val).rq = q.rq ∧ (t.sub ch.val sub.val).wq = q.wq) ∧
      (∀ row at_ : Nat, q.rows.find r.bank = some (row, at_) → row ≠ r.row → Completes (.columnCommandIssue ch sub ready retire) s fun t =>
        t.out = .dram ch.val sub.val (cmdText "PRE" r.bank row) :: s.out ∧ (t.sub ch.val sub.val).rows = q.rows.del r.bank ∧
          (t.sub ch.val sub.val).rq = q.rq ∧ (t.sub ch.val sub.val).wq = q.wq) ∧
      (∀ at_ : Nat, q.rows.find r.bank = some (r.row, at_) → Completes (.columnCommandIssue ch sub ready retire) s fun t => ∃ u m : State,
        u.out = .dram ch.val sub.val (cmdText (if s.subMode q then "WR" else "RD") r.bank r.col) :: s.out ∧
          (u.sub ch.val sub.val).rq = (if s.subMode q then q.rq else q.rq.eraseIdx x.1) ∧
          (u.sub ch.val sub.val).wq = (if s.subMode q then q.wq.eraseIdx x.1 else q.wq) ∧
          (u.sub ch.val sub.val).inFlight = (if s.subMode q then q.inFlight else q.inFlight ++ [x.2]) ∧
          m = u.closeSpent ch.val sub.val r.bank r.row ∧
          t = if s.subMode q = false ∧ 128 ≤ q.rq.length then m.resume (fun r => r.stage == .dram) else m)) ∧
    (∀ (line e1 e2 k a : Nat) (b : Burst) (r : Req) (x : Seen) (m : State), (s.sub ch.val (line / 4 % 2)).inFlight.find? (fun b => b.line == line) = some b →
      b.weight = none → b.trk = some k → s.pool.reqs.find k = some r → r.lines.find? (fun a => s.wcbOf (s.place a) == (ch.val, line)) = some a →
      (s.onSub ch.val (line / 4 % 2) fun q => { q with inFlight := q.inFlight.erase b }).readIssued ch.val a r.gid e1 e2 = (x, m) →
      (x.waits = false → Completes (.dramReadReturn ch line e1 e2) s fun t => ∃ u : State,
        u.pool.reqs = m.pool.reqs.upd k (fun r => { r with got := r.got.put (a / 64) (x.data, x.poison) }) ∧ t = u.access k) ∧
      (x.waits = true → Completes (.dramReadReturn ch line e1 e2) s fun t =>
        t = m.onSub ch.val (line / 4 % 2) fun q => { q with rq := q.rq ++ [b] })) ∧
    (∀ (line e1 e2 a : Nat) (b : Burst) (w : Nat × Nat), (s.sub ch.val (line / 4 % 2)).inFlight.find? (fun b => b.line == line) = some b →
      b.weight = some w → s.lineAddr ch.val line = some a → Completes (.dramReadReturn ch line e1 e2) s fun t =>
        t = (s.onSub ch.val (line / 4 % 2) fun q => { q with inFlight := q.inFlight.erase b }).weightBack w.1 w.2 a e1 e2) ∧
    (∀ (line : Nat) (w : WLine), s.strongChan ch.val = false → c.serves = true → (s.sub ch.val (line / 4 % 2)).wq.length < 64 →
      c.wcb.find line = some w → w.whole = true → s.drainDue ch.val line = true → Completes (.wcbDrain ch line) s fun t => ∃ (m : State) (bs : Bytes),
        bs = s.seal ((s.lineAddr ch.val line).getD 0) w.gid w.data ∧ (m.chan ch.val).wcb = c.wcb.del line ∧
        m.cellar.dram = cellsPut (dramKey ch.val line 0)
          (padBytes 80 (padBytes 64 bs ++ eccBytes (padBytes 64 bs) (lineMeta w.poison w.hsh))) s.cellar.dram ∧
        t = m.resume fun r => r.stage == .wcb) ∧
    (∀ line : Nat, s.drainDue ch.val line = false → Completes (.wcbDrain ch line) s fun t => t = s) ∧
    (∀ (sub : Fin 2) (bank : Fin 128) (row at_ : Nat) (q : Sub), c.subs[sub.val]? = some q → q.rows.find bank.val = some (row, at_) → c.st = 4 →
      s.rowWanted ch.val sub.val bank.val row = false → Completes (.pageIdleExpiry ch sub bank) s fun t =>
        t.out = .dram ch.val sub.val (cmdText "PRE" bank.val row) :: s.out ∧ (t.sub ch.val sub.val).rows = q.rows.del bank.val) ∧
    (∀ (sub : Fin 2) (rank ba : Fin 4) (q : Sub), c.st = 4 ∨ c.st = 5 → c.alert = false → c.subs[sub.val]? = some q →
      0 ≤ q.refresh.getD rank.val 0 →
      ((q.rq ++ q.wq).any (fun b => (s.burstRow ch.val b).rank == rank.val) = true → q.refresh.getD rank.val 0 < 4 →
        Completes (.refresh ch sub rank ba true) s fun t =>
          (t.sub ch.val sub.val).refresh = q.refresh.put rank.val (q.refresh.getD rank.val 0 + 1) ∧ t.out = s.out) ∧
      ((q.rq ++ q.wq).any (fun b => (s.burstRow ch.val b).rank == rank.val) = false → Completes (.refresh ch sub rank ba true) s fun t =>
        (t.sub ch.val sub.val).refresh = q.refresh ∧ (t.sub ch.val sub.val).rows = q.rows.filter (fun b _ => !(b / 32 == rank.val)) ∧
          t.out = .dram ch.val sub.val (cmdText "REFab" rank.val 0) :: s.out)) ∧
    (∀ temp : Int, c.st ≠ 0 →
      ((s.bus (ch.val / 8)).busy = false → Completes (.dimmTempPoll ch temp) s fun t =>
        t.chan ch.val = { c with temp := temp, throttle := s.throttleLevel c.throttle temp }) ∧
      ((s.bus (ch.val / 8)).busy = true → (s.bus (ch.val / 8)).queue.length < 32 → Completes (.dimmTempPoll ch temp) s fun t =>
        t.bus (ch.val / 8) = { (s.bus (ch.val / 8)) with queue := (s.bus (ch.val / 8)).queue ++ [(ch.val, temp)] } ∧ t.chan ch.val = c) ∧
      (s.inForce (Obj.sbMode (ch.val / 8)) = 1 → Completes (.i3cInBandInterrupt ch temp) s fun t =>
        t.chan ch.val = { c with temp := temp, throttle := s.throttleLevel c.throttle temp })) ∧
    (c.st = 4 → c.repair = none → c.quiet = true →
      (c.wcb.size = 0 → c.plines.size = 0 → s.reg Obj.chIdleSr ≠ 0 → Completes (.chIdleSrExpiry ch) s fun t =>
        (t.chan ch.val).st = 6 ∧ (t.chan ch.val).pd = false ∧ ∀ q ∈ (t.chan ch.val).subs, q.rows = {}) ∧
      (c.wcb.size = 0 → c.plines.size = 0 → c.pd = false → s.reg Obj.chIdlePd ≠ 0 → Completes (.chIdlePdExpiry ch) s fun t => t.chan ch.val = { c with pd := true })) ∧
    (c.st = 6 → Completes (.selfRefreshExit ch) s fun t => ∃ m : State, m.chan ch.val = { c with st := 4 } ∧ t = m.resumeMem) ∧
    (c.st = 4 ∨ c.st = 5 → Completes (.alertNAssert ch) s fun t =>
      (t.chan ch.val).alert = true ∧ (t.chan ch.val).st = c.st ∧
        (t.chan ch.val).alerts = (s.now :: c.alerts).filter (fun x => decide (s.now < x + 1000000)) ∧
        (c.want = 0 → (t.chan ch.val).want = if 3 ≤ (t.chan ch.val).alerts.length then 3 else 0) ∧
        (c.want ≠ 0 → (t.chan ch.val).want = c.want)) ∧
    (c.alert = true → Completes (.alertRelease ch) s fun t =>
      t.chan ch.val = { c with alert := false, subs := c.subs.map fun q => { q with rows := {} } } ∧
        t.out = ((s.sub ch.val 0).retry.map (fun x => Out.dram ch.val 0 x.1) ++ (s.sub ch.val 1).retry.map fun x => Out.dram ch.val 1 x.1).reverse ++ s.out)

/-- Training, drift and retraining of a channel (R341 to R352) and the sidebands (R353 to R355, R358). -/
def Obligations.TrainingAndSidebandComplete : Prop :=
  (∀ (s : State) (ch : Fin 48) (c : Chan), s.running = true → c = s.chan ch.val →
    (∀ (ok : Bool) (lanes : List LaneSweep) (osc eyes : List Nat) (entries : Bytes), c.st = 3 → c.filling = false →
      eyes = c.eyesOf (c.sweeps c.seed true lanes) → entries = entriesOf (c.sweeps c.seed true lanes) →
      ((ok && s.eyesOk eyes) = true → Completes (.channelTrainingDone ch ok lanes osc) s fun t =>
        t.chan ch.val = { c with filling := true, eyes := eyes, entries := entries, wrDrift := {}, rdDrift := {}, oscBase := baselines osc } ∧
          t.blob (Obj.calTrained ch.val) = c.trainedGroup entries osc) ∧
      ((ok && s.eyesOk eyes) = false → c.reran = false → Completes (.channelTrainingDone ch ok lanes osc) s fun t =>
        t.chan ch.val = { c with reran := true, eyes := eyes }) ∧
      ((ok && s.eyesOk eyes) = false → c.reran = true → Completes (.channelTrainingDone ch ok lanes osc) s fun t =>
        t = (s.onChan ch.val fun c => { c with eyes := eyes }).failChannel ch.val 1)) ∧
    (c.st = 3 → c.filling = true → Completes (.channelFillDone ch) s fun t => ∃ m : State,
      m.chan ch.val = { c with st := 4, filling := false, scrub := 0, lastReq := s.now } ∧
        m.cellar.dram = s.cellar.dram.filter (fun x => x.1 / 2 ^ 40 != ch.val) ∧ t = m.startRebuilds.resumeMem) ∧
    (c.st = 4 →
      (∀ (rank : Fin 4) (change v : Int), v = c.wrDrift.getD rank.val 0 + change →
        (v.natAbs ≤ s.reg Obj.wrTrackRange → Completes (.dqsOscMeasure ch rank change) s fun t =>
          t.chan ch.val = { c with wrDrift := c.wrDrift.put rank.val v }) ∧
        (s.reg Obj.wrTrackRange < v.natAbs → Completes (.dqsOscMeasure ch rank change) s fun t =>
          t.chan ch.val = { c with want := if c.want = 0 then 1 else c.want })) ∧
      (∀ (lane : Fin 20) (off v : Int), 2 ≤ off.natAbs → v = c.rdDrift.getD lane.val 0 + (if 0 < off then 1 else -1) →
        (v.natAbs ≤ s.reg Obj.rdTrackRange → Completes (.readCentreRecheck ch lane off) s fun t =>
          t.chan ch.val = { c with
            rdDrift := if c.x8 then (c.rdDrift.put (lane.val / 2 * 2) v).put (lane.val / 2 * 2 + 1) v else c.rdDrift.put lane.val v }) ∧
        (s.reg Obj.rdTrackRange < v.natAbs → Completes (.readCentreRecheck ch lane off) s fun t =>
          t.chan ch.val = { c with want := if c.want = 0 then 1 else c.want }))) ∧
    (c.st = 4 → c.repair = none → c.want ≠ 0 → s.groupHolds ch.val = false →
      (c.want = 5 → Completes (.retrainStart ch) s fun t =>
        t.chan ch.val = { c with st := 5, full := true, seed := (s.calStart ch.val c.maker c.serial).1,
                                 trim := (s.calStart ch.val c.maker c.serial).2, subs := c.subs.map fun q => { q with rows := {} } } ∧
          t.reg Obj.trainCmdResult = (if s.reg Obj.trainCmdChannel = ch.val then 0x01 else s.reg Obj.trainCmdResult) ∧
          s.regsBut [Obj.trainCmdResult] t) ∧
      (c.want ≠ 5 → (s.recentRetrains c).length < s.reg Obj.retrainLimit → Completes (.retrainStart ch) s fun t =>
        (t.chan ch.val).st = 5 ∧ (t.chan ch.val).retrains = satInc 32 c.retrains ∧ (t.chan ch.val).times = s.recentRetrains c ++ [s.nowMs] ∧
          (t.chan ch.val).want = c.want ∧ t.reg Obj.trainCmdResult =
            if c.want = 4 ∧ s.reg Obj.trainCmdChannel = ch.val then 0x01 else s.reg Obj.trainCmdResult) ∧
      (c.want ≠ 5 → s.reg Obj.retrainLimit ≤ (s.recentRetrains c).length → Completes (.retrainStart ch) s fun t =>
        t = (s.trainResult ch.val c.want 0x04).failChannel ch.val 2)) ∧
    (∀ (lanes : List LaneSweep) (osc eyes : List Nat) (f : List (Option EyeWindow × Option EyeWindow)), c.st = 5 →
      f = (if c.full then c.sweeps c.seed true lanes else c.sweeps (some c.present) false lanes) → eyes = c.eyesOf f →
      (s.eyesOk eyes = true → Completes (.retrainDone ch lanes osc) s fun t => ∃ m : State,
        (m.chan ch.val).st = 4 ∧ (m.chan ch.val).want = 0 ∧ (m.chan ch.val).full = false ∧ (m.chan ch.val).eyes = eyes ∧
          (m.chan ch.val).entries = entriesOf f ∧ (m.chan ch.val).wrDrift = {} ∧ (m.chan ch.val).rdDrift = {} ∧
          (c.full = true → m.blob (Obj.calTrained ch.val) = c.trainedGroup (entriesOf f) osc) ∧
          m.reg Obj.trainCmdResult =
            (if (c.want = 4 ∨ c.want = 5) ∧ s.reg Obj.trainCmdChannel = ch.val then 0x00 else s.reg Obj.trainCmdResult) ∧ t = m.resumeMem) ∧
      (s.eyesOk eyes = false → Completes (.retrainDone ch lanes osc) s fun t =>
        t = ((s.onChan ch.val fun c => { c with eyes := eyes }).trainResult ch.val c.want 0x04).failChannel ch.val 1))) ∧
  (∀ (s : State) (ch : Nat), s.accepts Obj.trainCmdResult → ch = s.reg Obj.trainCmdChannel → ch < 48 →
    (s.chan ch).st = 4 ∨ (s.chan ch).st = 6 →
    Completes .trainRetrain s (fun t =>
      t.chan ch = { (s.chan ch) with want := 4 } ∧ t.reg Obj.trainCmdResult = (if s.groupHolds ch then 0x03 else 0x01) ∧
        s.regsBut [Obj.trainCmdOp, Obj.trainCmdResult] t) ∧
    Completes .trainFull s (fun t =>
      t.chan ch = { (s.chan ch) with want := 5 } ∧ t.reg Obj.trainCmdResult = (if s.groupHolds ch then 0x03 else 0x01) ∧
        s.regsBut [Obj.trainCmdOp, Obj.trainCmdResult] t)) ∧
  (∀ (s : State) (ch n k r : Nat), s.accepts Obj.sbCmdResult → ch = s.reg Obj.sbCmdChannel → n = s.reg Obj.sbCmdLen → k = s.reg Obj.sbCmdTarget →
    r = s.reg Obj.sbCmdReg →
    (∀ d : Bytes, s.sbValid false = true → Completes (.sbRead false (some d)) s fun t =>
      t.blob Obj.sbCmdData = padBytes 64 (d.take n) ∧ t.reg Obj.sbCmdResult = 0x00 ∧
        t.out = .sideband (ch / 8) ch k r false [] :: s.out ∧ s.regsBut [Obj.sbCmdOp, Obj.sbCmdResult] t) ∧
    (∀ acked : Bool, s.sbValid true = true → Completes (.sbWrite false acked) s fun t =>
      t.reg Obj.sbCmdResult = (if acked then 0x00 else 0x02) ∧
        t.out = .sideband (ch / 8) ch k r true (sliceBytes (s.blob Obj.sbCmdData) 0 n) :: s.out ∧
        s.regsBut [Obj.sbCmdOp, Obj.sbCmdResult] t)) ∧
  (∀ (s : State) (bus : Fin 6), s.running = true →
    (s.inForce (Obj.sbMode bus.val) = 0 →
      ((s.bus bus.val).losses < 7 → Completes (.sbArbLost bus) s fun t =>
        t.bus bus.val = { (s.bus bus.val) with losses := (s.bus bus.val).losses + 1 }) ∧
      (7 ≤ (s.bus bus.val).losses → Completes (.sbArbLost bus) s fun t =>
        t.bus bus.val = { (s.bus bus.val) with losses := 0, busy := false, queue := [] } ∧
          t.reg Obj.sbCmdResult = if (s.bus bus.val).busy then 0x03 else s.reg Obj.sbCmdResult)) ∧
    (∀ answer : Option Bytes, (s.bus bus.val).busy = true → s.reg Obj.sbCmdChannel / 8 = bus.val → Completes (.sbBackoffExpiry bus answer) s fun t =>
      t.bus bus.val = { (s.bus bus.val) with busy := false, losses := 0, queue := [] } ∧
        t.reg Obj.sbCmdResult = match answer with | some _ => 0x00 | none => 0x02) ∧
    Completes (.sbBusRecovery bus) s (fun t =>
      t.bus bus.val = { (s.bus bus.val) with recoveries := (s.bus bus.val).recoveries + 1 } ∧ t.out = .sbRecover bus.val :: s.out))

/-- What protects stored data on its own (R363, R364, R368, R371 to R374, R376 to R380, R382): scrubbing, parity, stale stripes, failures, rebuilds and
row repair. -/
def Obligations.ProtectionEventsComplete : Prop :=
  (∀ (s : State) (ch : Fin 48) (c : Chan) (d : Decoded), s.running = true → c = s.chan ch.val → c.st = 4 → c.repair = none →
    s.flag Obj.scrubEnable = true → s.chanLines ≠ 0 → c.wcb.has c.scrub = false → s.strongChan ch.val = false →
    d = decodeLine (s.rawLine ch.val c.scrub) false →
    (d.res = 0 → Completes (.scrubLine ch) s fun t =>
      t.chan ch.val = { c with scrub := if c.scrub + 1 < s.chanLines then c.scrub + 1 else 0 } ∧ t.cellar.dram = s.cellar.dram) ∧
    (d.res = 1 → Completes (.scrubLine ch) s fun t =>
      (t.chan ch.val).scrub = (if c.scrub + 1 < s.chanLines then c.scrub + 1 else 0) ∧ (t.chan ch.val).ceCount = satInc 32 c.ceCount ∧
        t.cellar.dram = cellsPut (dramKey ch.val c.scrub 0)
          (padBytes 80 (padBytes 64 d.data ++ eccBytes (padBytes 64 d.data) d.dmeta)) s.cellar.dram)) ∧
  (∀ (s : State) (ch : Fin 48) (m : Fin 8) (line g : Nat) (d : Nat × Nat × Nat × Bytes × Nat), s.running = true →
    (s.chan ch.val).deltaOf m.val line = some d → s.groupOf ch.val = some g →
    ((s.chan ch.val).gone = false → Completes (.parityDelta ch m line) s fun t => t.chan ch.val = { (s.chan ch.val) with
      deltas := (s.chan ch.val).deltas.erase d,
      plines := (s.chan ch.val).plines.put line
        { delta := xorBytes (padBytes 64 ((s.chan ch.val).plines.getD line { delta := zeroBytes 64 }).delta) d.2.2.2.1,
          dmeta := ((s.chan ch.val).plines.getD line { delta := zeroBytes 64 }).dmeta ^^^ d.2.2.2.2 } }) ∧
    (s.staleOf g (line / 4) = none → s.cellar.stale.length < 65536 →
      Completes (.parityAckTimeout ch m line) s fun t =>
        t.cellar.stale = s.cellar.stale ++
          [{ group := g, stripe := line / 4, lines := setBit 0 (line % 4), members := setBit 0 m.val, time := s.nowUs }] ∧
        (t.chan ch.val).deltas = (s.chan ch.val).deltas.erase d)) ∧
  (∀ (s : State) (group : Fin 5) (stripe p : Nat) (e : Stale), s.running = true → s.staleOf group.val stripe = some e →
    s.memberChan group.val 8 stripe = some p → (s.chan p).st = 4 →
    (∀ m, m < 8 → ∃ c, s.memberChan group.val m stripe = some c ∧ (s.chan c).serves = true) →
    Completes (.staleStripeRebuild group stripe) s fun t => t.cellar.stale = s.cellar.stale.filter fun x => x != e) ∧
  (∀ (s : State) (ch : Fin 48), s.running = true → (s.memberOf ch.val).isSome = true →
    s.reg Obj.ueFailRows < ((s.chan ch.val).ueRows.filter fun r => decide (s.nowMs < r.2 + 86400000)).length →
    Completes (.channelFailed ch) s fun t => t = s.failChannel ch.val 3) ∧
  (∀ (s : State) (group : Fin 5) (m sp ptr : Nat), s.running = true → (s.group group.val).rebuild = some (m, sp, ptr) → (s.chan sp).serves = true →
    (∀ c ∈ (s.group group.val).members, c ≠ (s.group group.val).members.getD m 0 → (s.chan c).awayAt (ptr * 4) = false) →
    (ptr + 1 < s.cellar.cap / 256 → Completes (.rebuildStripe group) s fun t => (t.group group.val).rebuild = some (m, sp, ptr + 1)) ∧
    (s.cellar.cap / 256 ≤ ptr + 1 → Completes (.rebuildStripe group) s fun t => ∃ u : State,
      (u.group group.val).rebuild = some (m, sp, ptr + 1) ∧ t = u.endRebuild group.val m sp)) ∧
  (∀ (s : State) (ch : Fin 48) (c : Chan), s.running = true → c = s.chan ch.val →
    (∀ (key : Nat) (hard left : Bool), c.repair = some (key, hard) → Completes (.rowRepair ch left) s fun t => ∃ m : State,
      m.chan ch.val = { c with repair := none, pprUsed := satInc 16 c.pprUsed, ceLog := c.ceLog.filter fun e => s.rowKey ch.val e.line != key } ∧
        (t = m.resumeMem ∨ t = m.resumeMem.setReg Obj.eccCmdResult 0x00)) ∧
    (∀ (key : Nat) (rest : List Nat), c.repair = none → c.wantRepair = key :: rest → s.repairFree ch.val = true →
      Completes (.rowRepair ch true) s (fun t =>
        (t.chan ch.val).repair = some (key, s.inForce Obj.pprHardEn != 0 && s.groupWhole ch.val) ∧ key ∉ (t.chan ch.val).wantRepair) ∧
      Completes (.rowRepair ch false) s (fun t =>
        t.chan ch.val = { c with wantRepair := rest, ueRows := ueRow c.ueRows key s.nowMs,
                                 noRepair := if c.noRepair.contains (keyBankGroup key) then c.noRepair else c.noRepair ++ [keyBankGroup key] }))) ∧
  (∀ (s : State) (die : Fin 24), s.running = true → s.hasDie (dieCL die.val) = true → Completes (.cellarDieLost die) s fun t =>
    t.power.present = clearBit s.power.present (dieCL die.val) ∧ ∃ m : State, m.sec.caches = s.sec.caches.del die.val ∧
      m.cellar = s.cellar ∧ t = (m.failChannel (2 * die.val) 4).failChannel (2 * die.val + 1) 4)

/-- ECC_CMD (R367, R382, R387, R388): each command, where the record accepts it and the set is not formed or the channel is a spare, has its effect. -/
def Obligations.EccCommandsComplete : Prop :=
  ∀ (s : State) (ch co : Nat), s.accepts Obj.eccCmdResult → ch = s.reg Obj.eccCmdChannel → co = s.reg Obj.eccCmdCo → ch < 48 →
    (co % 64 = 0 → co < s.cellar.cap → (s.chan ch).st = 4 →
      s.cellar.spares.contains ch = true ∨ s.pool.setState = 0 ∨ s.pool.setState = 4 ∨ s.pool.setState = 5 →
      Completes .writeRaw s (fun t =>
        t.cellar.dram = cellsPut (dramKey ch (co / 64) 0)
          (padBytes 80 (padBytes 64 (s.blob Obj.eccCmdData) ++ padBytes 16 (s.blob Obj.eccCmdEcc))) s.cellar.dram ∧
        t.cellar.chans = s.cellar.chans ∧ t.reg Obj.eccCmdResult = 0x00 ∧ s.regsBut [Obj.eccCmdOp, Obj.eccCmdResult] t) ∧
      Completes .readRaw s (fun t =>
        t.blob Obj.eccCmdData = sliceBytes (s.rawLine ch (co / 64)) 0 64 ∧ t.blob Obj.eccCmdEcc = sliceBytes (s.rawLine ch (co / 64)) 64 16 ∧
        t.cellar = s.cellar ∧ t.reg Obj.eccCmdResult = 0x00 ∧ s.regsBut [Obj.eccCmdOp, Obj.eccCmdResult] t) ∧
      (∀ d : Decoded, d = decodeLine (s.rawLine ch (co / 64)) (s.strongChan ch) → Completes .readDecoded s fun t =>
        t.blob Obj.eccCmdData = d.data ∧ t.blob Obj.eccCmdSyndrome = d.synds.map (BitVec.ofNat 8) ∧ t.reg Obj.eccCmdResult = 0x00 ∧
        t.cellar.dram = s.cellar.dram ∧ (t.chan ch).ceCount = (if d.res = 1 then satInc 32 (s.chan ch).ceCount else (s.chan ch).ceCount) ∧
        (d.res = 0 → t.cellar = s.cellar) ∧ s.regsBut [Obj.eccCmdOp, Obj.eccCmdResult] t)) ∧
    Completes .ceLogClear s (fun t =>
      t.chan ch = { (s.chan ch) with ceLog := [] } ∧ t.reg Obj.eccCmdResult = 0x00 ∧ s.regsBut [Obj.eccCmdOp, Obj.eccCmdResult] t) ∧
    (co % 64 = 0 → co < s.cellar.cap → (s.chan ch).st = 4 → (s.chan ch).repair = none → Completes .ppr s fun t =>
      (t.chan ch).repair = some (s.rowKey ch (co / 64), true) ∧ t.reg Obj.eccCmdResult = 0x01) ∧
    (∀ g m : Nat, (s.chan ch).st = 4 → s.memberOf ch = some (g, m) → (s.group g).st = 0 → (s.pickSpare g m).isSome = true →
      Completes .evacuate s fun t => t = ((s.setReg Obj.eccCmdOp 0x06).failChannel ch 5).setReg Obj.eccCmdResult 0x00)

/-- Keys and teardown (R391, R392, R396, R397, R401 to R403, R416, R417): each event and command has its effect. -/
def Obligations.KeysAndTeardownComplete : Prop :=
  (∀ s : State, s.up = true → Completes .entropyHealthFail s fun t => t.sec = { s.sec with entropyBad := true }) ∧
  (∀ s : State, s.up = true → s.sec.entropyBad = true →
    Completes (.entropyRetest false) s (fun t => t = s) ∧
    Completes (.entropyRetest true) s fun t => t.sec.entropyBad = false ∧
      (s.served = true → s.sec.drbgZeroed = false → s.sec.kwrap.isSome = true → ∀ g, (t.guest g).key.kstate ≠ 2)) ∧
  (∀ s : State, s.up = true → s.sec.entropyBad = false → Completes .drbgReseed s fun t =>
    t.sec.reseeds = satInc 32 s.sec.reseeds ∧ t.sec.drbgZeroed = false ∧ t.drbgOk = true ∧
      (s.served = true → s.sec.kwrap.isSome = true → ∀ g, (t.guest g).key.kstate ≠ 2)) ∧
  (∀ (s : State) (die : Fin 24) (gid : Fin 1048576) (f : Nat), s.running = true → f = die.val * 2 ^ 20 + gid.val → s.sec.fetches.contains f = true →
    (∀ k : Bytes, unwrapKey s.sec.kwrap gid.val (s.guest gid.val).key = some k → Completes (.keyCacheFill die gid) s fun t =>
      t.sec.caches.getD die.val [] = ((gid.val, k) :: (s.sec.caches.getD die.val []).filter fun e => e.1 != gid.val).take 512 ∧
        f ∉ t.sec.fetches) ∧
    (s.keyUnwraps gid.val = false → s.pool.guests.has gid.val = true → (s.guest gid.val).fatal = 0 →
      Completes (.keyCacheFill die gid) s fun t => (t.guest gid.val).fatal = 2 ∧ t.sec.caches = s.sec.caches ∧ f ∉ t.sec.fetches)) ∧
  (∀ s : State, s.accepts Obj.teardownCmdResult → s.power.roleMgr = true → s.pool.guests.has s.teardownGid = true →
    (s.guest s.teardownGid).tearing = false → Completes .teardown s fun t =>
      (t.guest s.teardownGid).tearing = true ∧ t.sec.teardown = s.sec.teardown ++ [(s.teardownGid, s.nowUs)] ∧
        t.reg Obj.teardownCmdResult = 0x01) ∧
  (∀ (s : State) (gid began : Nat), s.running = true → s.sec.teardown = [(gid, began)] → s.drained gid = true →
    s.hearthOf gid = [] → s.wcbOfGuest gid = [] → Completes .teardownDrainDone s fun t =>
      t.pool.guests.has gid = false ∧ t.pool.oldDirs.getD gid {} = (s.guest gid).dir ∧ t.sec.teardown = [] ∧ t.pool.lrc = s.pool.lrc.filter (fun _ v => v.1 != gid) ∧
        (∀ d, ∀ e ∈ t.sec.caches.getD d [], e.1 ≠ gid) ∧ (∀ k x, t.work.streams.find k = some x → x.gid ≠ gid) ∧
        (∀ k x, t.work.tallies.find k = some x → x.gid ≠ gid) ∧ (∀ x ∈ t.trans.leaves, x.gid ≠ gid) ∧
        (s.power.roleMgr = true → s.busy Obj.teardownCmdResult = true → t.reg Obj.teardownCmdResult = 0x00)) ∧
  (∀ (s : State) (g : Guest), s.accepts Obj.teardownCmdResult → s.pool.guests.find s.teardownGid = some g → Completes .queryKey s fun t =>
    t.reg Obj.teardownCmdKstate = g.key.kstate ∧ t.reg Obj.teardownCmdResult = 0x00 ∧ t.pool = s.pool ∧ t.sec = s.sec ∧
      s.regsBut [Obj.teardownCmdOp, Obj.teardownCmdKstate, Obj.teardownCmdResult] t)

/-- Firmware, identity, debug and test (R406 to R411, R509, R541, R552): each event and command has its effect. -/
def Obligations.FirmwareAndDebugComplete : Prop :=
  (∀ (s : State) (n : Nat), s.accepts Obj.fwCmdResult → n = s.otherSlot →
    (∀ (off : Nat) (bs : Bytes), off = s.reg Obj.fwCmdOffset → bs = s.blob Obj.fwCmdData → off % 1024 = 0 → off < 2 ^ 25 → bs.length ≤ 1024 →
      Completes .writeChunk s fun t =>
        (t.sec.slotOf n).chunks = (s.sec.slotOf n).chunks.put (off / 1024) (bs ++ ((s.sec.slotOf n).chunks.getD (off / 1024) []).drop bs.length) ∧
        (s.sec.slot < 2 → t.sec.slotOf s.sec.slot = s.sec.slotOf s.sec.slot) ∧ t.sec.slot = s.sec.slot ∧ t.sec.verified = none ∧
        t.reg Obj.fwCmdResult = 0x00 ∧ s.regsBut [Obj.fwCmdOp, Obj.fwCmdResult] t) ∧
    (∀ v svn h, s.slotImage n = some (v, svn, h) → s.svnMin ≤ svn → Completes .verify s fun t =>
      t.sec.verified = some n ∧ (t.sec.slotOf n).valid = true ∧ (t.sec.slotOf n).version = v ∧ (t.sec.slotOf n).svn = svn ∧
        (t.sec.slotOf n).hash = h ∧ t.reg Obj.fwCmdResult = 0x00 ∧ s.regsBut [Obj.fwCmdOp, Obj.fwCmdResult] t) ∧
    ((∀ v svn h, s.slotImage n = some (v, svn, h) → svn < s.svnMin) → Completes .verify s fun t =>
      t.sec = { s.sec with verified := none } ∧ t.reg Obj.fwCmdResult = 0x02 ∧ s.regsBut [Obj.fwCmdOp, Obj.fwCmdResult] t) ∧
    (s.sec.st ≠ 4 → s.sec.verified = some n → Completes .activate s fun t => ∃ k : Takeover, t.ik.planned = some k ∧
      k.target = 1 - s.ik.active ∧ k.planned = true ∧ k.byFw = true ∧ t.sec = s.sec ∧ t.reg Obj.fwCmdResult = 0x01 ∧
        s.regsBut [Obj.fwCmdOp, Obj.fwCmdResult] t) ∧
    (∀ run : Nat, run = (s.sec.slotOf s.sec.slot).svn → s.sec.st ≠ 4 → (∀ v svn h, s.slotImage n = some (v, svn, h) → run ≤ svn) →
      Completes .commitSvn s fun t => t.sec = { s.sec with svnBlown := max s.sec.svnBlown (min run 64) } ∧ t.reg Obj.fwCmdResult = 0x00 ∧
        s.regsBut [Obj.fwCmdOp, Obj.fwCmdResult] t)) ∧
  (∀ (s : State) (old : Nat), s.served = true → s.sec.confirm = some old → Completes .fwConfirm s fun t =>
    t.sec = { s.sec with bootFlag := s.sec.slot, confirm := none } ∧ t.reg Obj.fwCmdResult = 0x00 ∧ s.regsBut [Obj.fwCmdResult] t) ∧
  (∀ (s : State) (nonce : Bytes), s.served = true → nonce.length = 32 → s.sec.noIdentity = false → Completes (.attest nonce) s fun t =>
    t.blob Obj.attestNonce = nonce ∧ (t.blob Obj.attestReport).take 32 = nonce ∧
      t.blob Obj.attestReport = s.reportBody nonce ++ padBytes 96 (Config.ecdsaSign (Config.sha384 (s.reportBody nonce))) ∧ t.sec = s.sec) ∧
  (∀ s : State, s.accepts Obj.debugCmdResult → s.sec.failedUnlocks < 8 → s.drbgOk = true → Completes .challenge s fun t =>
    ∃ n : Bytes, n.length = 32 ∧ t.sec.nonce = some n ∧ t.blob Obj.debugCmdNonce = n ∧ t.sec.drawn = s.sec.drawn + 32 ∧
      t.reg Obj.debugCmdResult = 0x00 ∧ s.regsBut [Obj.debugCmdOp, Obj.debugCmdResult] t) ∧
  (∀ (s : State) (n : Bytes) (level : Nat), s.accepts Obj.debugCmdResult → s.sec.nonce = some n → level = s.reg Obj.debugCmdLevel →
    ((∃ a ∈ s.debugAnchors level, Config.anchorVerify (s.anchor a) (Config.sha384 (n ++ Config.serialNumber ++ leBytes 1 level)) (s.blob Obj.debugCmdSig) = true) →
      Completes .unlock s fun t => t.sec.st = 1 ∧ t.sec.debugLevel = max s.sec.debugLevel level ∧ t.sec.noDefine = true ∧ t.sec.kwrap = none ∧
        t.sec.ktable = none ∧ t.sec.caches = {} ∧ t.pool.guests = {} ∧ t.dict.sessions = {} ∧ (level = 2 → t.sec.noIdentity = true) ∧
        t.reg Obj.debugCmdResult = 0x00) ∧
    ((∀ a ∈ s.debugAnchors level, Config.anchorVerify (s.anchor a) (Config.sha384 (n ++ Config.serialNumber ++ leBytes 1 level)) (s.blob Obj.debugCmdSig) = false) →
      Completes .unlock s fun t => t.sec = { s.sec with failedUnlocks := s.sec.failedUnlocks + 1 } ∧ t.reg Obj.debugCmdResult = 0x02 ∧
        s.regsBut [Obj.debugCmdOp, Obj.debugCmdResult] t)) ∧
  (∀ s : State, s.up = true → Completes .debugNonceExpiry s fun t => t.sec = { s.sec with nonce := none }) ∧
  (∀ s : State, s.power.aon = true → s.halted = false → Completes .extest s fun t =>
    t.sec.st = 3 ∧ t.sec.kwrap = none ∧ t.sec.ktable = none ∧ t.sec.caches = {} ∧ t.sec.drbgZeroed = true ∧ t.stat = 0 ∧
      t.power.tapReset = false) ∧
  (∀ s : State, s.power.aon = true → Completes .tapReset s fun t => t.power.tapReset = true ∧ t.sec = s.sec ∧ t.regs = s.regs)

/-- Reads and writes of the dictionary (R423, R462, R463, R465 to R468, R477, R479, R485): a request that reaches its operation is done and
answered, and a value written outside the dictionary's queue is stored. -/
def Obligations.DictionaryRequestsComplete : Prop :=
  (∀ (s m : State) (q : DictReq) (p : Pdu) (a : Asker) (d v : Bytes) (keys : Option Bytes) (row : ObjRow), s.asks 0x01 q p a d keys m →
    m.findObj p.idx p.sub = .ok row → readError row.acc a.session = none → v = m.readValue a p row → readSizeOk row p v.length = true →
    Completes .dictRead s fun t => ∃ (u : State) (r : Reply), Frame [.sessions] m u ∧ t = u.replyTo q p r keys ∧ r.status = 0x00 ∧
      r.data = sliceBytes v p.offset (if p.total = 0 then p.limit else min p.total p.limit) ∧ r.total = v.length ∧
      r.last = decide (p.offset + r.data.length = v.length)) ∧
  (∀ (s m : State) (q : DictReq) (p : Pdu) (a : Asker) (d : Bytes) (keys : Option Bytes) (row : ObjRow) (k : Nat) (lost : Bool) (ans : Option Bytes),
    s.asks 0x02 q p a d keys m → m.findObj p.idx p.sub = .ok row → m.writeError row.acc a.session (p.offset != 0 || !p.last) = none →
    writeSizeOk row p = true → p.offset = 0 → k = objKey p.idx p.sub →
    (p.last = false → Completes (.dictWrite lost ans) s fun t => ∃ u : State, Frame [.sessions] m u ∧
      u.staging a.session = some { idx := p.idx, sub := p.sub, total := p.total, data := d } ∧ t = u.replyTo q p { total := p.total } keys) ∧
    (p.last = true → m.valueOk row k d = true → recordOf lost ans k = none → actOf k d = none →
      (row.persisted = true → m.dict.flashBad = false ∧ m.dict.compacting = false) →
      Completes (.dictWrite lost ans) s fun t => ∃ u : State, m.stored row k d u ∧ t = u.replyTo q p { total := d.length } keys) ∧
    (∀ (op result : Nat) (acts : List Act) (f : Act), p.last = true → m.valueOk row k d = true → recordOf lost ans k = some (op, result, acts) →
      leNat d ≠ 0 → acts[leNat d - 1]? = some f → m.busy result = false → m.served = true →
      Completes (.dictWrite lost ans) s fun t => ∃ u : State, Frame [.sessions] m u ∧
        t = ((after f u).journalled k).replyTo q p { total := d.length } keys)) ∧
  (∀ (s m : State) (q : DictReq) (p : Pdu) (a : Asker) (d : Bytes) (keys : Option Bytes) (row : ObjRow), s.asks 0x03 q p a d keys m →
    m.findObj p.idx p.sub = .ok row → Completes .describe s fun t => ∃ r : Reply, t = m.replyTo q p r keys ∧ r.status = 0x00 ∧ r.last = true ∧
      r.total = r.data.length ∧ r.data = describeBytes row p ∧ leNat (sliceBytes r.data 0 1) = row.ty.code % 256) ∧
  (∀ (s m : State) (q : DictReq) (p : Pdu) (a : Asker) (d : Bytes) (keys : Option Bytes), s.asks 0x08 q p a d keys m → a.session ≠ 0 →
    m.dict.flashBad = false → m.dict.compacting = false → Completes .defaults s fun t => ∃ u : State, t = u.replyTo q p {} keys ∧
      (∀ x ∈ defaultKeys, u.regs.has x.2 = false ∧ u.blobs.has x.2 = false) ∧
      (∀ j, (∀ x ∈ defaultKeys, x.2 ≠ j) → u.reg j = m.reg j ∧ u.blob j = m.blob j)) ∧
  (∀ (s : State) (idx : Fin 65536) (sub : Fin 256) (v : Bytes) (row : ObjRow) (k : Nat), s.served = true → k = objKey idx sub →
    s.findObj idx sub = .ok row → row.acc ≠ .ro → row.acc ≠ .con → recordOf false none k = none → actOf k v = none →
    sizeOk row.ty v.length = true → s.valueOk row k v = true → (row.persisted = true → s.dict.flashBad = false) →
    Completes (.registerWrite idx sub v) s fun t => s.stored row k v t) ∧
  (∀ (s : State) (n : Nat), s.accepts Obj.calCmdResult → n = s.reg Obj.calCmdChannel → n < 48 → Completes .clearTrained s fun t =>
    t.blob (Obj.calTrained n) = zeroBytes 672 ∧ (∀ j, j ≠ Obj.calTrained n → t.blob j = s.blob j) ∧ t.reg Obj.calCmdResult = 0x00 ∧
      s.regsBut [Obj.calCmdOp, Obj.calCmdResult] t)

/-- Sessions, the T1S attachment and the dictionary's time limits (R456 to R458, R462, R463, R471 to R475, R477). -/
def Obligations.SessionsAndAttachmentsComplete : Prop :=
  (∀ (s : State) (f : Frame), s.up = true → f.dst = Config.macAddress → frameOk f = true → (pduOf f.payload).rsp = false → s.dictAway = false →
    s.dict.queue.length < 64 → Completes (.t1sFrame f) s fun t =>
      t.dict.queue = s.dict.queue ++ [{ via := .t1s f.src, pdu := f.payload, joined := s.dict.arrived }] ∧ t.dict.arrived = s.dict.arrived + 1 ∧
        t.out = s.out) ∧
  (∀ s : State, s.up = true → s.follower = true → s.dict.csma = false → Completes .plcaBeaconTimeout s fun t => t.dict = { s.dict with csma := true }) ∧
  (∀ s : State, s.up = true → Completes .plcaBeaconHeard s fun t => t.dict = { s.dict with csma := false }) ∧
  (∀ (s m : State) (q : DictReq) (p : Pdu) (a : Asker) (d : Bytes) (keys : Option Bytes) (i : Nat), s.asks 0x10 q p a d keys m →
    (m.failsOf a.via).locked = false → m.sec.noIdentity = false → m.drbgOk = true → i < 8 → m.dict.sessions.has (i + 1) = false →
    (∀ j, j < i → m.dict.sessions.has (j + 1) = true) → Completes .openHello s fun t => ∃ (u : State) (y : Session) (r : Reply),
      u.dict.sessions = m.dict.sessions.put (i + 1) y ∧ y.st = 1 ∧ y.via = a.via ∧ y.keys = [] ∧ y.seq = 0 ∧ y.transcript = d ++ r.data ∧
        u.sec.drawn = m.sec.drawn + 80 ∧ r.status = 0x00 ∧ leNat (sliceBytes r.data 0 2) = i + 1 ∧
        r.data.drop 131 = padBytes 96 (Config.ecdsaSign (Config.sha384 (d ++ r.data.take 131))) ∧ t = u.replyTo q p r keys) ∧
  (∀ (s m : State) (q : DictReq) (p : Pdu) (a : Asker) (d : Bytes) (keys : Option Bytes) (x : Session), s.asks 0x11 q p a d keys m →
    m.opening a p = some x → p.total ≤ 8192 → p.offset + p.length ≤ p.total → p.offset = 0 → p.last = true →
    Completes .openCert s fun t => ∃ u : State, u.dict.sessions.find p.session = some { x with chain := d, staging := none } ∧
      Frame [.sessions] m u ∧ t = u.replyTo q p { total := p.total } keys) ∧
  (∀ (s m : State) (q : DictReq) (p : Pdu) (a : Asker) (d : Bytes) (keys : Option Bytes) (x : Session), s.asks 0x12 q p a d keys m →
    m.opening a p = some x →
    (m.proved x d = true → Completes .openProve s fun t => ∃ (u : State) (y : Session), y = { x with st := 2, keys := y.keys, staging := none } ∧
      y.keys.length = 72 ∧ u.dict.sessions = m.dict.sessions.put p.session y ∧ Frame [.sessions] m u ∧ t = u.replyTo q p {} keys) ∧
    (m.proved x d = false → Completes .openProve s fun t => ∃ u : State, m.sessionEnds p.session u ∧
      u.dict.sessionFails = satInc 32 m.dict.sessionFails ∧ Frame [.sessions] m u ∧ t = u.replyTo q p { status := 0x05 } keys)) ∧
  (∀ (s m : State) (q : DictReq) (p : Pdu) (a : Asker) (d : Bytes) (keys : Option Bytes), s.asks 0x13 q p a d keys m →
    Completes .close s fun t => ∃ u : State, m.sessionEnds p.session u ∧ Frame [.sessions] m u ∧ t = u.replyTo q p {} keys) ∧
  (∀ s : State, s.up = true → Completes .snapshotExpiry s fun t => t.dict = { s.dict with snaps := s.dict.snaps.drop 1 }) ∧
  (∀ (s : State) (session : Fin 8) (x : Session), s.up = true → s.dict.sessions.find (session.val + 1) = some x →
    (s.sessionAsks (session.val + 1) = false → Completes (.stagingExpiry session) s fun t =>
      t.dict.sessions.find (session.val + 1) = some { x with staging := none } ∧ Frame [.sessions] s t) ∧
    (x.st = 1 → Completes (.sessionOpenTimeout session) s fun t => s.sessionEnds (session.val + 1) t ∧
      t.dict.sessionFails = satInc 32 s.dict.sessionFails ∧ Frame [.sessions] s t) ∧
    (x.st = 2 → s.sessionAsks (session.val + 1) = false → Completes (.sessionIdleExpiry session) s fun t =>
      s.sessionEnds (session.val + 1) t ∧ Frame [.sessions] s t)) ∧
  (∀ (s : State) (inband : Bool) (addr : Nat) (via : Via), s.up = true → via = (if inband then .inband addr 0 else .t1s addr) →
    Completes (.openLockoutExpiry inband addr) s fun t => (∀ x ∈ t.dict.fails, x.via = via → x.locked = false) ∧
      t.dict.fails.length = s.dict.fails.length ∧ Frame [.sessions] s t) ∧
  (∀ s : State, s.up = true → s.dict.compacting = true → s.dict.flashBad = false → s.dict.copy < 2 → s.dict.waiting = [] →
    Completes .flashCompactionDone s fun t => t.dict.copy = 1 - s.dict.copy ∧ t.dict.compacting = false ∧
      t.dict.active = liveRecs s.dict.active s.dict.recno ∧
      (∀ r ∈ s.dict.active, ∃ x ∈ t.dict.active, x.key = r.key) ∧ Frame [.flash] s t)

/-- Night (R490 to R495, Tables 15.4 and 15.5): entry step by step, the sources that wake the device, and the exit. -/
def Obligations.NightCompletes : Prop :=
  (∀ s : State, s.accepts Obj.powerCmdResult →
    (s.nightBlockers = 0 → bitsOf (s.reg Obj.wakeEn) 3 0 ≠ 0 → s.levelWake = none → Completes .night s fun t =>
      t.power = { s.power with st := 1, nightStep := 2 } ∧ t.reg Obj.powerCmdResult = 0x01 ∧ s.regsBut [Obj.powerCmdOp, Obj.powerCmdResult] t) ∧
    (s.nightBlockers ≠ 0 → Completes .night s fun t => t.power = s.power ∧ t.reg Obj.powerCmdBlocker = s.nightBlockers ∧
      t.reg Obj.powerCmdResult = 0x02 ∧ s.regsBut [Obj.powerCmdOp, Obj.powerCmdBlocker, Obj.powerCmdResult] t)) ∧
  (∀ (s : State) (n : Nat), s.running = true → s.power.st = 1 → n = s.power.nightStep →
    (n = 2 → Completes .nightEntryStepDone s fun t => t.cellar = s.drainAll.cellar ∧ t.power = { s.power with nightStep := 3 }) ∧
    (n = 3 → Completes .nightEntryStepDone s fun t => t.ik.ckptSeq = (s.ik.ckptSeq + 1) % 2 ^ 64 ∧ t.ik.ckpt.pend = s.irq.pend ∧
      t.ik.journal = [] ∧ t.power = { s.power with nightStep := 4 }) ∧
    (n = 4 → Completes .nightEntryStepDone s fun t => t.pool.lrc = {} ∧ t.trans.cache = [] ∧ t.power.nightStep = 5 ∧ t.power.st = 1) ∧
    (n = 5 → Completes .nightEntryStepDone s fun t => (∀ l, l < 32 → (s.link l).established = true → (t.link l).st = 8) ∧
      t.power.nightStep = 6 ∧ t.power.st = 1) ∧
    (n = 6 → Completes .nightEntryStepDone s fun t => (∀ ch, (s.chan ch).st = 4 → (t.chan ch).st = 6) ∧
      t.power = { s.power with nightStep := 7,
                               nightChans := s.cellar.chans.rows.foldl (fun m r => if r.2.st == 4 then setBit m r.1 else m) 0 } ∧
      t.cellar.dram = s.cellar.dram) ∧
    (n = 7 → Completes .nightEntryStepDone s fun t => t.power.nights = satInc 32 s.power.nights ∧ t.power.held.isSome = true ∧
      t.irq.stopped = true ∧ (∀ c x, s.work.clusters.find c = some x → x.lost = false → (t.cluster c).pw = 2) ∧
      t.power.st = (if s.levelWake.isSome then 3 else 2) ∧ (∀ c, s.levelWake = some c → t.power.wakeCause = c))) ∧
  (∀ (s : State) (source : Fin 5) (link : Fin 32), s.up = true →
    (s.power.st = 2 → source.val = 0 → (s.reg Obj.wakeEn).testBit 0 = true → (s.reg Obj.wakeLinkMask).testBit link = true →
      s.power.deafLinks.testBit link = false → Completes (.wake source link) s fun t =>
        t.power = { s.power with st := 3, wakeCause := 0x01 + link * 4 }) ∧
    (s.power.st = 2 → 1 ≤ source.val → source.val ≤ 3 → (s.reg Obj.wakeEn).testBit source = true → Completes (.wake source link) s fun t =>
      t.power = { s.power with st := 3, wakeCause := source + 1 }) ∧
    (s.power.st = 1 → source.val = 4 → Completes (.wake source link) s fun t =>
      t.power = { s.power with st := 0, nightStep := 0, deafLinks := 0, nightLinks := 0, nightChans := 0 } ∧ t.reg Obj.powerCmdResult = 0x04 ∧
      (∀ l, l < 32 → s.power.nightLinks.testBit l = true → s.power.deafLinks.testBit l = false → (s.link l).st = 8 →
        t.link l = { s.link l with st := (s.link l).upState, standbyAsked := false }) ∧ s.regsBut [Obj.powerCmdResult] t)) ∧
  (∀ s : State, Completes (.wakeNLow false) s (fun t => t.power = { s.power with wakeN := false }) ∧
    (s.up = true → s.power.st = 2 → (s.reg Obj.wakeEn).testBit 2 = true →
      Completes (.wakeNLow true) s fun t => t.power = { s.power with wakeN := true, st := 3, wakeCause := 0x03 })) ∧
  (∀ s : State, s.up = true → s.power.st = 2 → (s.reg Obj.wakeEn).testBit 3 = true → s.reg Obj.wakeTimer ≠ 0 → s.reg Obj.wakeTimer ≤ s.now →
    Completes .wakeTimerExpiry s fun t => t.power = { s.power with st := 3, wakeCause := 0x04 }) ∧
  (∀ (s : State) (bad : Nat), s.running = true → s.power.st = 3 → Completes (.nightExitDone bad) s fun t => ∃ u : State,
    u.power.st = 0 ∧ u.power.deafLinks = 0 ∧ u.reg Obj.powerCmdResult = 0x00 ∧ u.irq.stopped = false ∧
      (∀ l, l < 32 → s.power.deafLinks.testBit l = false → (s.link l).st = 8 →
        (u.link l).st = (s.link l).upState ∧ (u.link l).keys = (s.link l).keys ∧ (u.link l).tx = (s.link l).tx) ∧
      (bad = 0 → ∀ ch, (s.chan ch).st = 6 → (u.chan ch).st = 4) ∧ t = u.resumeMem)

/-- Reference clocks, die temperature and contacts (R499 to R503, R507, R510, R539). -/
def Obligations.ClocksAndTemperatureComplete : Prop :=
  (∀ (s : State) (which : Fin 2), s.power.aon = true →
    (s.power.inReset = true ∨ s.power.refSel ≠ which.val → Completes (.refclkFail which) s fun t =>
      t = { s with power := { s.power with refGood := clearBit s.power.refGood which.val } }) ∧
    (s.power.inReset = false → s.power.refSel = which.val → clearBit s.power.refGood which.val ≠ 0 → Completes (.refclkFail which) s fun t =>
      t.power = { s.power with refGood := clearBit s.power.refGood which.val, refSel := 1 - which.val, refSwitches := satInc 32 s.power.refSwitches }) ∧
    (s.power.inReset = false → s.power.refSel = which.val → clearBit s.power.refGood which.val = 0 → Completes (.refclkFail which) s fun t =>
      t.power = { s.power with refGood := 0, refSel := 2, clocksLost := true } ∧ t.irq.stopped = true ∧ (∀ l, (t.link l).st = 0) ∧
        (∀ ch, (s.chan ch).st = 4 → (t.chan ch).st = 6) ∧ t.pool = s.pool ∧ t.cellar.dram = s.cellar.dram ∧
        (s.power.held = none → t.alertN = true)) ∧
    Completes (.refclkGood which) s (fun t => t = { s with power := { s.power with refGood := setBit s.power.refGood which.val } })) ∧
  (∀ s : State, s.up = true → s.inForce Obj.refclkRevert ≠ 0 → s.power.refSel = 1 → s.power.refGood.testBit 0 = true →
    Completes .refclkRevert s fun t => t.power = { s.power with refSel := 0, refSwitches := satInc 32 s.power.refSwitches }) ∧
  (∀ (s : State) (which : Fin 2) (bad : Nat), s.up = true → s.power.clocksLost = true → Completes (.refclkRecovery which bad) s fun t =>
    ∃ u : State, u.power = { s.power with clocksLost := false, refSel := which.val, refGood := setBit s.power.refGood which.val } ∧
      u.irq.stopped = false ∧ u.ik.beat = s.now ∧
      (bad = 0 → u.pool.reqs = s.pool.reqs ∧ ∀ ch, (s.chan ch).st = 6 → (u.chan ch).st = 4) ∧ t = u.resumeMem) ∧
  (∀ (s : State) (die : Fin 64) (q : Int), s.up = true → s.halted = false → s.hasDie die = true → Completes (.dieTempSample die q) s fun t =>
    t.power.temps = s.power.temps.put die q ∧ levelSet s.power.warned t.power.warned die q (s.reg Obj.dieTempWarn) ∧
      levelSet s.power.throttled t.power.throttled die q (s.reg Obj.dieTempThrottle) ∧ levelSet s.power.paused t.power.paused die q 110 ∧
      t.power.thermtrip = (s.power.thermtrip || decide (460 ≤ q)) ∧
      (460 ≤ q → (∀ l, (t.link l).st = 0) ∧ ∀ ch, (s.chan ch).st = 4 → (t.chan ch).st = 6)) ∧
  (∀ (s : State) (v : Nat), s.served = true → Completes (.cdcOverrunWrite v) s fun t =>
    t.reg Obj.cdcOverrun = clearMask (s.reg Obj.cdcOverrun) v ∧ s.regsBut [Obj.cdcOverrun] t) ∧
  (∀ s : State, s.ikRuns = true → s.ikServes = true → Completes .stat3Toggle s fun t => t.power = { s.power with stat3 := !s.power.stat3 })

/-- Counters, snapshots, samplers, marks, phases and the error log (R514 to R518, R525 to R528, R531, R534): each command and event has its
effect. -/
def Obligations.ObservationComplete : Prop :=
  (∀ (s : State) (d c : Nat), s.accepts Obj.ctrCmdResult → d = s.reg Obj.ctrCmdDie → c = s.reg Obj.ctrCmdCounter → d < 64 → s.hasDie d = true →
    c < allCounters d →
    (c < progCounters d → cfgOk d (s.reg Obj.ctrCmdConfig) = true → Completes .ctrConfig s fun t =>
      t.ctr d c = { s.ctr d c with cfg := s.reg Obj.ctrCmdConfig } ∧ (∀ k, k ≠ ctrKey d c → t.obs.ctrs.find k = s.obs.ctrs.find k) ∧
        t.reg Obj.ctrCmdResult = 0x00 ∧ s.regsBut [Obj.ctrCmdOp, Obj.ctrCmdResult] t) ∧
    Completes .ctrRead s (fun t => t.reg Obj.ctrCmdConfig = (s.ctr d c).cfg ∧
      t.reg Obj.ctrCmdValue = b2n (s.ctr d c).ovf * 2 ^ 63 + (s.ctr d c).count ∧ t.obs = s.obs ∧ t.reg Obj.ctrCmdResult = 0x00 ∧
        s.regsBut [Obj.ctrCmdOp, Obj.ctrCmdConfig, Obj.ctrCmdValue, Obj.ctrCmdResult] t) ∧
    Completes .ctrWrite s (fun t =>
      t.ctr d c = { s.ctr d c with count := s.reg Obj.ctrCmdValue % 2 ^ 48, ovf := bitOf (s.reg Obj.ctrCmdValue) 63 } ∧
        (∀ k, k ≠ ctrKey d c → t.obs.ctrs.find k = s.obs.ctrs.find k) ∧ t.reg Obj.ctrCmdResult = 0x00 ∧
        s.regsBut [Obj.ctrCmdOp, Obj.ctrCmdResult] t) ∧
    Completes .clearDie s (fun t => (∀ k, k < 128 → (t.ctr d k).count = 0 ∧ (t.ctr d k).ovf = false ∧ (t.ctr d k).cfg = (s.ctr d k).cfg) ∧
      (∀ k, k / 128 ≠ d → t.obs.ctrs.find k = s.obs.ctrs.find k) ∧ t.reg Obj.ctrCmdResult = 0x00 ∧
        s.regsBut [Obj.ctrCmdOp, Obj.ctrCmdResult] t)) ∧
  (∀ s : State, s.accepts Obj.ctrCmdResult → Completes .snapshot s fun t =>
    t.obs = { s.obs with snapDue := some (s.now + 10000, s.power.present % 2 ^ 64) } ∧ t.reg Obj.ctrCmdSnapTime = s.now + 10000 ∧
      t.reg Obj.ctrCmdResult = 0x01 ∧ s.regsBut [Obj.ctrCmdOp, Obj.ctrCmdSnapTime, Obj.ctrCmdResult] t) ∧
  (∀ (s : State) (die : Fin 64) (at_ m : Nat), s.running = true → s.obs.snapDue = some (at_, m) → m &&& s.power.present = 0 →
    Completes (.snapshotCapture die) s fun t =>
      t.obs = { s.obs with snapDue := none } ∧ t.reg Obj.ctrCmdResult = 0x00 ∧ s.regsBut [Obj.ctrCmdResult] t) ∧
  (∀ (s : State) (die : Fin 64) (at_ m : Nat), s.running = true → s.obs.snapDue = some (at_, m) → m.testBit die = true → s.hasDie die = true →
    Completes (.snapshotCapture die) s fun t =>
      t.obs.snaps.find die = some ((upto (allCounters die)).map fun c => (s.ctr die c).word) ∧ t.obs.ctrs = s.obs.ctrs ∧
        (clearBit (m &&& s.power.present) die = 0 → t.obs.snapDue = none ∧ t.reg Obj.ctrCmdResult = 0x00) ∧
        (clearBit (m &&& s.power.present) die ≠ 0 → t.obs.snapDue = some (at_, clearBit (m &&& s.power.present) die) ∧ t.regs = s.regs)) ∧
  (∀ (s : State) (v : Bool), s.served = true → Completes (.ctrFreezeWrite v) s fun t =>
    t.obs.freezeAt = some (s.now + 10000, v) ∧ t.frozen = s.frozen ∧ t.obs.ctrs = s.obs.ctrs ∧ t.reg Obj.ctrFreeze = b2n v ∧ s.regsBut [Obj.ctrFreeze] t) ∧
  (∀ s : State, s.running = true → s.phase = 0 → Completes .sampleTick s fun t => ∀ k r, s.obs.samples.find k = some r →
    t.obs.samples.find k = some (match s.queueDepth (s.reg (Obj.sampleQueue k)) with
      | some d => { r with n := satInc 32 r.n, lastDepth := d % 2 ^ 32, sumDepth := (r.sumDepth + d) % 2 ^ 64, arm := true }
      | none => r)) ∧
  (∀ (s : State) (k : Fin 64) (v : Nat), s.served = true → s.qidOk v = true →
    Completes (.samplerConfigWrite (some k) v) s (fun t => t.reg (Obj.sampleQueue k) = v ∧ t.obs.samples.getD k {} = {} ∧
      (∀ j, j ≠ k.val → t.obs.samples.find j = s.obs.samples.find j) ∧ s.regsBut [Obj.sampleQueue k] t) ∧
    Completes (.hwmQueueWrite k v) s (fun t => t.reg (Obj.hwmQueue k) = v ∧ t.obs.marks.getD k {} = {} ∧
      (∀ j, j ≠ k.val → t.obs.marks.find j = s.obs.marks.find j) ∧ s.regsBut [Obj.hwmQueue k] t)) ∧
  (∀ (s : State) (v : Nat), s.served = true → 1 ≤ v → v ≤ 1000000 → Completes (.samplerConfigWrite none v) s fun t =>
    t.reg Obj.samplePeriod = v ∧ (∀ j, t.obs.samples.getD j {} = {}) ∧ s.regsBut [Obj.samplePeriod] t) ∧
  (∀ s : State, s.up = true → s.recovering = false → Completes .recoveryHoldExpiry s fun t => t.obs = { s.obs with recoveryHold := false }) ∧
  (∀ s : State, s.up = true → Completes .startPhaseExpiry s fun t => t.obs = { s.obs with startOver := true } ∧
    (s.sec.st = 0 → s.pool.setState = 3 → s.recovering = false → s.obs.recoveryHold = false → t.phase = 0)) ∧
  (∀ (s : State) (r n : Nat) (x : LogRec), s.accepts Obj.logCmdResult → r = s.reg Obj.logCmdRecno → n = s.reg Obj.logCmdCount → 1 ≤ n → n ≤ 15 →
    1 ≤ wrapSub 32 s.obs.logTail r → wrapSub 32 s.obs.logTail r < 2 ^ 31 → r < 2 ^ 32 → s.obs.log.find? (fun y => y.recno == r) = some x →
    Completes .logRead s fun t => (t.blob Obj.logCmdData).take 64 = x.bytes ∧
      (t.blob Obj.logCmdData).length = 64 * t.reg Obj.logCmdCount ∧ 1 ≤ t.reg Obj.logCmdCount ∧ t.reg Obj.logCmdCount ≤ n ∧
      t.reg Obj.logCmdResult = 0x00 ∧ t.obs = s.obs ∧ s.regsBut [Obj.logCmdOp, Obj.logCmdCount, Obj.logCmdResult] t)

/-- A step takes the command at the front of the queue and runs it with the queue's rest. -/
def Obligations.StepRunsTheFrontCommand : Prop :=
  ∀ (s : State) (c : Instr) (rest : List Instr), step { s with pending := c :: rest } = exec c { s with pending := rest }

/-- With no command waiting, a step is one 40 ns cycle of the AON clock: TIMEBASE moves while the device is powered and out of reset, counters
count its cycles, with the interrupt of one that overflows, and nothing else moves; while CTR_FREEZE is in force nothing is counted. The choice
to let time pass there is the model's (assumption 5). -/
def Obligations.IdleStepIsATick : Prop :=
  ∀ s : State, s.pending = [] → ∃ t, step s = .next t ∧ Frame [.timebase, .counters, .irqPending] s t ∧
    t.power.timebase = s.power.timebase + (if s.up then 40 else 0) ∧ t.pending = [] ∧ (s.up = false → t = s) ∧
    (s.frozen = true → t.obs.ctrs = s.obs.ctrs) ∧ (s.power.clocksLost = true ∨ s.power.st = 2 → t.obs = s.obs)

/-- A command changes only the parts of the state that `touches` gives it, and never the commands that wait; what has left the package
stays out, and a free value once drawn is not drawn again. -/
def Obligations.CommandsTouchOnlyTheirParts : Prop :=
  ∀ (c : Instr) (s t : State), exec c s = .next t → Frame (touches c) s t ∧ s.out <:+ t.out ∧ s.freeCount ≤ t.freeCount

/-- Every step keeps the canonical form of the memory, the bounds of the error log and its RECNO, and every COUNT below 2^48. -/
def Obligations.EveryStepKeepsSound : Prop := ∀ s t : State, s.Sound → step s = .next t → t.Sound

/-- The state at reset has these properties, and is the device right after power-on, held in reset: nothing waits, nothing has been sent, no
package key exists, DRAM lists nothing, and TIMEBASE is 0. The empty queue, the empty DRAM and TIMEBASE before the first release are the
model's choices (assumptions 7, 9 and 13). -/
def Obligations.ResetIsSound : Prop :=
  State.reset.Sound ∧ State.reset.pending = [] ∧ State.reset.out = [] ∧ State.reset.sec.kwrap = none ∧ State.reset.sec.ktable = none ∧
    State.reset.cellar.dram = [] ∧ State.reset.power.timebase = 0 ∧ State.reset.up = false

/-- The place of a pool address (R329), as its numbered steps give it; consecutive granules go to consecutive channels of the list; in a
strongroom region 2 KiB of consecutive pool addresses are one stripe, on the eight data channels of one group, and the next 2 KiB
are on the next group; and no two pool addresses share a place. -/
def Obligations.PlacementFollowsItsRule : Prop :=
  (∀ pa base n : Nat, base ≤ pa → placeIn pa base n = (((pa - base) >>> 8) % n, (((pa - base) >>> 8) / n) <<< 8 ||| pa % 256)) ∧
  (∀ pa base n : Nat, base ≤ pa → 0 < n → (placeIn (pa + 256) base n).1 = ((placeIn pa base n).1 + 1) % n) ∧
  (∀ (s : State) (pa : Nat), pa < s.cellar.bytes → s.cellar.layout = 0 →
    s.place pa = .plain (s.cellar.plain.getD (placeIn pa 0 s.cellar.plain.length).1 0) (placeIn pa 0 s.cellar.plain.length).2) ∧
  (∀ (s : State) (pa : Nat), pa < s.cellar.bytes → s.cellar.layout ≠ 0 → 8 * groupCount s.cellar.layout * s.cellar.cap ≤ pa →
    s.place pa = .plain (plain2.getD (placeIn pa (8 * groupCount s.cellar.layout * s.cellar.cap) 12).1 0)
      (placeIn pa (8 * groupCount s.cellar.layout * s.cellar.cap) 12).2) ∧
  (∀ (s : State) (k : Nat), s.cellar.layout ≠ 0 → 2048 * (k + 1) ≤ s.cellar.bytes →
    2048 * (k + 1) ≤ 8 * groupCount s.cellar.layout * s.cellar.cap → ∀ m b : Nat, m < 8 → b < 256 →
    s.place (2048 * k + 256 * m + b) = .strong (k % groupCount s.cellar.layout) m (k / groupCount s.cellar.layout * 256 + b)) ∧
  (∀ (s : State) (pa pb : Nat), s.cellar.layout = 0 → s.cellar.plain.Nodup → s.cellar.plain ≠ [] → pa < s.cellar.bytes →
    pb < s.cellar.bytes → s.place pa = s.place pb → pa = pb) ∧
  (∀ (s : State) (pa pb : Nat), s.cellar.layout ≠ 0 → pa < s.cellar.bytes → pb < s.cellar.bytes → s.place pa = s.place pb → pa = pb)

/-- A heartbeat in the very cycle in which the 3 ms limit expires wins: the timeout that follows it finds it, no failure is declared, and
the pair stays as it was but for the time of the heartbeat (R426). -/
def Obligations.HeartbeatWinsItsCycle : Prop :=
  ∀ s : State, s.ikServes = true → ∃ t, exec .heartbeat s = .next t ∧ t.ik = { s.ik with beat := s.now } ∧
    exec .heartbeatTimeout t = .next t

/-- SET_PENDING sets the PENDING bit as the source's edge would and leaves the arrival counters; an edge and a software set of one source
in the same cycle, in either order, set PENDING once and count the edge (R440). -/
def Obligations.SoftwareSetIsNotCounted : Prop :=
  ∀ s : State, s.accepts Obj.irqCmdResult → s.reg Obj.irqCmdSource < 1024 → s.irq.stopped = false → s.ik.gap = none → s.ik.bothLost = false →
    (Completes .setPending s fun t => t.irq.pend.counts = s.irq.pend.counts ∧ t.irq.pend.bits.testBit (s.reg Obj.irqCmdSource) = true ∧
      ∀ n, n ≠ s.reg Obj.irqCmdSource → t.irq.pend.bits.testBit n = s.irq.pend.bits.testBit n) ∧
    ∀ src : Fin 512, s.reg Obj.irqCmdSource = src.val → ∃ t u v w,
      exec .setPending s = .next t ∧ exec (.irqEdge src) t = .next u ∧ exec (.irqEdge src) s = .next v ∧ exec .setPending v = .next w ∧
        u.irq.pend.bits = w.irq.pend.bits ∧ u.irq.pend.counts = w.irq.pend.counts ∧ u.irq.pend.bits = setBit s.irq.pend.bits src.val ∧
        u.irq.pend.counts.getD src.val 0 = satInc 8 (s.irq.pend.counts.getD src.val 0) ∧
        ∀ n, n ≠ src.val → u.irq.pend.counts.find n = s.irq.pend.counts.find n

/-- A write of PIGEON_OWNER leaves its hole empty in both directions with its flags clear, and the others as they were; a PIGEON that has
passed its port claims its tracker with no guest looked up for it (R449). -/
def Obligations.OwnerWriteEmptiesItsHole : Prop :=
  (∀ (s : State) (hole : Fin 64) (v : Nat), s.served = true → bitsOf v 30 20 = 0 → v < 2 ^ 32 → Completes (.pigeonOwnerWrite hole v) s fun t =>
    t.holes.find hole.val = some { owner := v, inFull := false, inWords := [], outFull := false, outWords := [] } ∧
      (∀ h, h ≠ hole.val → t.holes.find h = s.holes.find h) ∧ Frame [.holes] s t) ∧
  (∀ (s : State) (l : Nat) (p : Packet) (m : Option SetMsg), p.opc = 0x32 →
    s.deliver l p m = s.claim { link := l, p := p, gid := noGid } ∧ ∀ g : Fin 1048576, g.val ≠ noGid)

/-- At a port a well-formed packet with PKEY 0x0000 is dropped and counted, and so are a TC3 packet without the management key 0xFFFF and
a packet on TC0 to TC2 with it (R302); a TC3 packet with it passes this check. -/
def Obligations.PortChecksManagementKey : Prop :=
  ∀ (s : State) (l : Nat) (p : Packet) (m : Option SetMsg), s.formOk p = true →
    (p.pkey = 0 ∨ (p.tc = 3 ∧ p.pkey ≠ 0xFFFF) ∨ (p.tc ≠ 3 ∧ p.pkey = 0xFFFF) → s.port l p m = s.rejectPkt l p 2) ∧
    (p.tc = 3 → p.pkey = 0xFFFF → s.keyOk l p = true)

/-- What software and events cannot undo: TAMPER_HALT, TEST_HALT and the thermal trip end with power alone (R413, R508, R509); fuses are
never cleared (R408); and package keys change only by being drawn, once after VDD_AON rises, and by being destroyed (R393). -/
def Obligations.OnlyPowerUndoesThem : Prop :=
  ∀ (c : Instr) (s t : State), exec c s = .next t →
    (c ≠ .powerOn → c ≠ .powerOff → (s.sec.st = 2 → t.sec.st = 2) ∧ (s.sec.st = 3 → t.sec.st = 3) ∧
      (s.power.thermtrip = true → t.power.thermtrip = true)) ∧
    s.sec.svnBlown ≤ t.sec.svnBlown ∧
    ((t.sec.kwrap = s.sec.kwrap ∧ t.sec.ktable = s.sec.ktable) ∨ (t.sec.kwrap = none ∧ t.sec.ktable = none) ∨
      (s.power.keysDue = true ∧ t.power.keysDue = false ∧ t.sec.kwrap.isSome = true ∧ t.sec.ktable.isSome = true))

/-- Stores reach only their bytes (R331, R35): a write of some bytes of a line merges them into that line's WCB entry and leaves every other
byte of it, every other WCB line and the DRAM, where the entry is not another guest's; such an entry goes first, which is the model's choice
(assumption 66); a line put into DRAM changes its own 80 stored bytes and no other line's; and a store request that is performed changes no
WCB line but those that its ranges name, where none of them is another guest's. -/
def Obligations.StoresReachOnlyTheirBytes : Prop :=
  (∀ (s : State) (pa gid ch line : Nat) (bs : Bytes) (poison : Bool) (old : WLine), pa % 64 + bs.length ≤ 64 →
    s.wcbOf (s.place (pa / 64 * 64)) = (ch, line) → s.ownLine pa gid → old = ((s.chan ch).wcb.find line).getD { data := zeroBytes 64 } →
    (s.wcbWrite pa gid bs poison).cellar.dram = s.cellar.dram ∧
    (∀ c l, (c, l) ≠ (ch, line) → ((s.wcbWrite pa gid bs poison).chan c).wcb.find l = (s.chan c).wcb.find l) ∧
    ∃ w : WLine, ((s.wcbWrite pa gid bs poison).chan ch).wcb.find line = some w ∧ w.gid = gid ∧ ∀ b, b < 64 →
      (pa % 64 ≤ b → b < pa % 64 + bs.length → w.mask.testBit b = true ∧ w.data.getD b 0 = bs.getD (b - pa % 64) 0) ∧
      (b < pa % 64 ∨ pa % 64 + bs.length ≤ b → w.mask.testBit b = old.mask.testBit b ∧ w.data.getD b 0 = old.data.getD b 0)) ∧
  (∀ (s : State) (pa gid ch line : Nat) (bs : Bytes) (poison : Bool), s.wcbOf (s.place (pa / 64 * 64)) = (ch, line) → ¬ s.ownLine pa gid →
    ((s.clearForeign pa gid).chan ch).wcb.find line = none) ∧
  (∀ (s : State) (ch line m : Nat) (bs : Bytes), s.Sound → line < 2 ^ 33 →
    (s.putLine ch line bs m).rawLine ch line = padBytes 64 bs ++ eccBytes (padBytes 64 bs) m ∧
    ∀ c l, l < 2 ^ 33 → (c, l) ≠ (ch, line) → (s.putLine ch line bs m).rawLine c l = s.rawLine c l) ∧
  (∀ (s : State) (k : Nat) (r : Req), r.hearth = false → r.p.opc = 0x02 ∨ r.p.opc = 0x03 →
    s.hearth.dir.rows.any (fun x => x.2.open_ && Grant.ofReq k x.2.grant) = false →
    (∀ x ∈ storeLines r.pas r.p.payload, s.ownLine x.1 r.gid) →
    (s.perform k r).cellar.dram = s.cellar.dram ∧
    ∀ c l, (∀ x ∈ storeLines r.pas r.p.payload, s.wcbOf (s.place (x.1 / 64 * 64)) ≠ (c, l)) →
      ((s.perform k r).chan c).wcb.find l = (s.chan c).wcb.find l)
end

