-- ==== Sys2Proof/Laws/Memory.lean ====
section
/-! SUPPORT. The DRAM's bytes: what a byte reads as after a write, and that every memory operation keeps the canonical form. -/

namespace Sys2Proof.Machine

open Sys2Proof

theorem cellsWf_mono {a b : Nat} (h : a ≤ b) {m : List Host.Cell} (k : cellsWf b m = true) : cellsWf a m = true := by
  cases m with
  | nil => rfl
  | cons x m =>
    obtain ⟨c, v⟩ := x
    simp only [cellsWf, Bool.and_eq_true, decide_eq_true_eq] at k ⊢
    exact ⟨⟨by omega, k.1.2⟩, k.2⟩

theorem cellsWf_put {b a : Nat} (v : Byte) (h : b ≤ a) {m : List Host.Cell} (k : cellsWf b m = true) : cellsWf b (cellPut a v m) = true := by
  induction m generalizing b with
  | nil => simp only [cellPut]; split <;> simp_all [cellsWf]
  | cons x m ih =>
    obtain ⟨c, w⟩ := x
    simp only [cellsWf, Bool.and_eq_true, decide_eq_true_eq] at k
    simp only [cellPut]
    split
    · split
      · simp only [cellsWf, Bool.and_eq_true, decide_eq_true_eq]; exact k
      · simp only [cellsWf, Bool.and_eq_true, decide_eq_true_eq]
        exact ⟨⟨h, by simpa using ‹¬v = 0›⟩, ⟨by omega, k.1.2⟩, k.2⟩
    · split
      · split
        · exact cellsWf_mono (by omega) k.2
        · simp only [cellsWf, Bool.and_eq_true, decide_eq_true_eq]
          subst_vars
          exact ⟨⟨h, by simpa using ‹¬v = 0›⟩, k.2⟩
      · simp only [cellsWf, Bool.and_eq_true, decide_eq_true_eq]
        exact ⟨k.1, ih (by omega) k.2⟩

/-- A byte stored keeps the canonical form. -/
theorem Memory.wf_cellPut (a : Nat) (v : Byte) (m : List Host.Cell) (h : Memory.wf m = true) : Memory.wf (cellPut a v m) = true :=
  cellsWf_put v (Nat.zero_le a) h

/-- A string of bytes stored keeps the canonical form. -/
theorem Memory.wf_cellsPut (a : Nat) (bs : Bytes) (m : List Host.Cell) (h : Memory.wf m = true) : Memory.wf (cellsPut a bs m) = true := by
  induction bs generalizing a m with
  | nil => exact h
  | cons b bs ih => exact ih _ _ (Memory.wf_cellPut a b m h)

theorem cellsWf_filter {b : Nat} (p : Host.Cell → Bool) {m : List Host.Cell} (k : cellsWf b m = true) : cellsWf b (m.filter p) = true := by
  induction m generalizing b with
  | nil => rfl
  | cons x m ih =>
    obtain ⟨c, w⟩ := x
    simp only [cellsWf, Bool.and_eq_true, decide_eq_true_eq] at k
    simp only [List.filter_cons]
    split
    · simp only [cellsWf, Bool.and_eq_true, decide_eq_true_eq]; exact ⟨k.1, ih k.2⟩
    · exact cellsWf_mono (by omega) (ih k.2)

/-- Rows taken out keep the canonical form. -/
theorem Memory.wf_filter (p : Host.Cell → Bool) (m : List Host.Cell) (h : Memory.wf m = true) : Memory.wf (m.filter p) = true :=
  cellsWf_filter p h

theorem cellGet_of_wf {a b : Nat} (h : a < b) {m : List Host.Cell} (k : cellsWf b m = true) : cellGet a m = 0 := by
  induction m generalizing b with
  | nil => rfl
  | cons x m ih =>
    obtain ⟨c, w⟩ := x
    simp only [cellsWf, Bool.and_eq_true, decide_eq_true_eq] at k
    simp only [cellGet]
    split
    · omega
    · exact ih (b := c + 1) (by omega) k.2

/-- A byte reads as stored, every other byte as before. -/
theorem cellGet_cellPut {b : Nat} (a a' : Nat) (v : Byte) {m : List Host.Cell} (k : cellsWf b m = true) :
    cellGet a' (cellPut a v m) = if a' = a then v else cellGet a' m := by
  induction m generalizing b with
  | nil => simp only [cellPut]; split <;> simp_all [cellGet]
  | cons x m ih =>
    obtain ⟨c, w⟩ := x
    have k2 := k
    simp only [cellsWf, Bool.and_eq_true, decide_eq_true_eq] at k
    simp only [cellPut]
    by_cases h1 : a < c
    · simp only [h1, if_true]
      have h2 : a' = a → cellGet a' ((c, w) :: m) = 0 := fun e => by
        simp only [cellGet]
        rw [if_neg (by omega)]
        exact cellGet_of_wf (b := c + 1) (by omega) k.2
      split <;> by_cases h3 : a' = a <;> simp_all [cellGet]
    · simp only [h1, if_false]
      by_cases h2 : a = c
      · subst h2
        simp only [if_true]
        have h3 : cellGet a m = 0 := cellGet_of_wf (b := a + 1) (by omega) k.2
        by_cases hv : v = 0 <;> by_cases h4 : a' = a <;> simp_all [cellGet]
      · simp only [h2, if_false, cellGet, ih k.2]
        by_cases h3 : a' = c <;> by_cases h4 : a' = a <;> simp_all

/-- A string of bytes reads as stored, every byte outside it as before. -/
theorem cellGet_cellsPut (a a' : Nat) (bs : Bytes) {m : List Host.Cell} (k : Memory.wf m = true) :
    cellGet a' (cellsPut a bs m) = if a ≤ a' ∧ a' < a + bs.length then bs.getD (a' - a) 0 else cellGet a' m := by
  induction bs generalizing a m with
  | nil =>
    simp only [cellsPut, List.length_nil, Nat.add_zero]
    rw [if_neg (by omega)]
  | cons b bs ih =>
    rw [cellsPut, ih (a + 1) (Memory.wf_cellPut a b m k), cellGet_cellPut a a' b k, List.length_cons]
    by_cases h1 : a' = a
    · subst h1
      rw [if_neg (by omega), if_pos rfl, if_pos (by omega), Nat.sub_self, List.getD_cons_zero]
    · by_cases h2 : a + 1 ≤ a' ∧ a' < a + 1 + bs.length
      · rw [if_pos h2, if_pos (by omega), show a' - a = (a' - (a + 1)) + 1 by omega, List.getD_cons_succ]
      · rw [if_neg h2, if_neg h1, if_neg (by omega)]

end Sys2Proof.Machine
end

