-- ==== Sys2Proof/Laws/Moves.lean ====
section
/-! SUPPORT. How a state moves under an operation: the parts it may change, and what it keeps. One rule for each way an operation is
written; Laws/Moves1 to Moves8 give one lemma for each operation. -/

namespace Sys2Proof.Machine

open Sys2Proof

/-- The set of parts of a list, a bit for each. -/
def Part.mask : List Part → Nat
  | [] => 0
  | p :: ps => 1 <<< p.ctorIdx ||| Part.mask ps

/-- Every part of one list is in another. -/
def Part.within (qs ps : List Part) : Bool := Nat.beq (Part.mask qs ||| Part.mask ps) (Part.mask ps)

theorem Part.ctorIdx_inj {p q : Part} (h : p.ctorIdx = q.ctorIdx) : p = q := by
  rw [← Part.ofNat_ctorIdx p, h, Part.ofNat_ctorIdx q]

theorem Part.mask_testBit (ps : List Part) (p : Part) : (Part.mask ps).testBit p.ctorIdx = true ↔ p ∈ ps := by
  induction ps with
  | nil => simp [Part.mask]
  | cons q ps ih =>
    simp only [Part.mask, Nat.testBit_or, Bool.or_eq_true, ih, List.mem_cons]
    have : (1 <<< q.ctorIdx).testBit p.ctorIdx = true ↔ p = q := by
      rw [Nat.one_shiftLeft, Nat.testBit_two_pow]
      constructor
      · intro h; exact Part.ctorIdx_inj (by have := of_decide_eq_true h; omega)
      · rintro rfl; simp
    rw [this]

theorem Part.mem_of_within {qs ps : List Part} {p : Part} (k : Part.within qs ps = true) (h : p ∈ qs) : p ∈ ps := by
  rw [← Part.mask_testBit] at h ⊢
  have := Nat.eq_of_beq_eq_true k
  rw [← this, Nat.testBit_or, h]; rfl

theorem Part.within_trans {ps qs rs : List Part} (h : Part.within ps qs = true) (k : Part.within qs rs = true) :
    Part.within ps rs = true := by
  have h1 := Nat.eq_of_beq_eq_true h
  have k1 := Nat.eq_of_beq_eq_true k
  have : Part.mask ps ||| Part.mask rs = Part.mask rs := by
    rw [← k1, ← Nat.or_assoc, h1]
  unfold Part.within; rw [this]; exact Nat.beq_refl _

theorem Part.mem_of {ps : List Part} {p : Part} (k : (Part.mask ps).testBit p.ctorIdx = true) : p ∈ ps :=
  (Part.mask_testBit ps p).mp k

/-- What every operation does beside its frame: what has left the package stays out, free values are used up and not given back,
and the properties that every step keeps are kept. -/
structure Moves (ps : List Part) (s t : State) : Prop where
  frame : Frame ps s t
  out : s.out <:+ t.out
  free : s.freeCount ≤ t.freeCount
  sound : s.Sound → t.Sound

theorem Part.same_refl (s : State) (p : Part) : Part.same s s p := by
  cases p <;> simp [Part.same]

theorem Part.same_trans {s t u : State} {p : Part} (h : Part.same s t p) (k : Part.same t u p) : Part.same s u p := by
  cases p <;> simp only [Part.same] at h k ⊢ <;> simp only [k, h, and_self]

theorem Frame.refl (ps : List Part) (s : State) : Frame ps s s := ⟨rfl, fun p _ => Part.same_refl s p⟩

theorem Frame.trans {ps : List Part} {s t u : State} (h : Frame ps s t) (k : Frame ps t u) : Frame ps s u :=
  ⟨k.1.trans h.1, fun p hp => Part.same_trans (h.2 p hp) (k.2 p hp)⟩

theorem Frame.mono {ps qs : List Part} {s t : State} (h : Frame qs s t) (k : Part.within qs ps = true) : Frame ps s t :=
  ⟨h.1, fun p hp => h.2 p fun hq => hp (Part.mem_of_within k hq)⟩

theorem Moves.refl (ps : List Part) (s : State) : Moves ps s s := ⟨Frame.refl ps s, List.suffix_refl _, Nat.le_refl _, fun h => h⟩

theorem Moves.mono {ps qs : List Part} {s t : State} (h : Moves qs s t) (k : Part.within qs ps = true) : Moves ps s t :=
  ⟨h.frame.mono k, h.out, h.free, h.sound⟩

theorem Moves.trans {ps : List Part} {s t u : State} (h : Moves ps s t) (k : Moves ps t u) : Moves ps s u :=
  ⟨h.frame.trans k.frame, h.out.trans k.out, Nat.le_trans h.free k.free, fun x => k.sound (h.sound x)⟩

theorem Obs.Sound.same {a b : Obs} (h : a.Sound) (h1 : b.log = a.log) (h2 : b.preserved = a.preserved) (h3 : b.logTail = a.logTail)
    (h4 : b.ctrs = a.ctrs) : b.Sound := by
  unfold Obs.Sound at *
  rw [h1, h2, h3, h4]; exact h

/-- The parts held in `State.power` outside a list are the same in two values of it. -/
def Power.Fr (ps : List Part) (a b : Power) : Prop :=
  (.timebase ∈ ps ∨ (b.timebase = a.timebase)) ∧
  (.reset ∈ ps ∨ (b.aon = a.aon ∧ b.resetN = a.resetN ∧ b.pwrGood = a.pwrGood ∧ b.inReset = a.inReset ∧ b.powerOn = a.powerOn ∧ b.keysDue = a.keysDue ∧ b.roleMgr = a.roleMgr ∧ b.boot = a.boot ∧ b.nodeId = a.nodeId ∧ b.resetCause = a.resetCause ∧ b.history = a.history ∧ b.coldDelay = a.coldDelay ∧ b.supplyArmed = a.supplyArmed ∧ b.tapReset = a.tapReset)) ∧
  (.night ∈ ps ∨ (b.st = a.st ∧ b.nightStep = a.nightStep ∧ b.wakeCause = a.wakeCause ∧ b.nights = a.nights ∧ b.deafLinks = a.deafLinks ∧ b.nightLinks = a.nightLinks ∧ b.nightChans = a.nightChans)) ∧
  (.clocks ∈ ps ∨ (b.refSel = a.refSel ∧ b.refGood = a.refGood ∧ b.refSwitches = a.refSwitches ∧ b.clocksLost = a.clocksLost)) ∧
  (.present ∈ ps ∨ (b.present = a.present)) ∧
  (.thermal ∈ ps ∨ (b.temps = a.temps ∧ b.warned = a.warned ∧ b.throttled = a.throttled ∧ b.paused = a.paused ∧ b.thermtrip = a.thermtrip)) ∧
  (.contacts ∈ ps ∨ (b.wakeN = a.wakeN ∧ b.stat3 = a.stat3 ∧ b.held = a.held))

theorem Power.Fr.refl (ps : List Part) (a : Power) : Power.Fr ps a a := by
  simp [Power.Fr]


/-- The parts held in `State.fabric` outside a list are the same in two values of it. -/
def Fabric.Fr (ps : List Part) (a b : Fabric) : Prop :=
  (.links ∈ ps ∨ (b.links = a.links)) ∧
  (.egress ∈ ps ∨ (b.egress = a.egress ∧ b.queueRun = a.queueRun ∧ b.retained = a.retained ∧ b.stalled = a.stalled ∧ b.nextSeq = a.nextSeq ∧ b.echoes = a.echoes)) ∧
  (.routes ∈ ps ∨ (b.blockRoutes = a.blockRoutes ∧ b.exactRoutes = a.exactRoutes ∧ b.routeEpoch = a.routeEpoch ∧ b.gmapExact = a.gmapExact ∧ b.gmapWild = a.gmapWild ∧ b.gmapEpoch = a.gmapEpoch ∧ b.routeWait = a.routeWait ∧ b.gmapWait = a.gmapWait ∧ b.pairOut = a.pairOut ∧ b.keySets = a.keySets ∧ b.queues = a.queues)) ∧
  (.peers ∈ ps ∨ (b.dedup = a.dedup ∧ b.useStamp = a.useStamp ∧ b.bcast = a.bcast ∧ b.own = a.own ∧ b.rates = a.rates ∧ b.lastCnp = a.lastCnp)) ∧
  (.gatehouses ∈ ps ∨ (b.ghLost = a.ghLost ∧ b.egLinks = a.egLinks ∧ b.carried = a.carried))

theorem Fabric.Fr.refl (ps : List Part) (a : Fabric) : Fabric.Fr ps a a := by
  simp [Fabric.Fr]


/-- The parts held in `State.obs` outside a list are the same in two values of it. -/
def Obs.Fr (ps : List Part) (a b : Obs) : Prop :=
  (.counters ∈ ps ∨ (b.ctrs = a.ctrs ∧ b.slots = a.slots)) ∧
  (.captures ∈ ps ∨ (b.frozen = a.frozen ∧ b.freezeAt = a.freezeAt ∧ b.snaps = a.snaps ∧ b.snapDue = a.snapDue)) ∧
  (.samples ∈ ps ∨ (b.samples = a.samples ∧ b.marks = a.marks)) ∧
  (.log ∈ ps ∨ (b.log = a.log ∧ b.logTail = a.logTail ∧ b.preserved = a.preserved)) ∧
  (.phase ∈ ps ∨ (b.startOver = a.startOver ∧ b.recoveryHold = a.recoveryHold))

theorem Obs.Fr.refl (ps : List Part) (a : Obs) : Obs.Fr ps a a := by
  simp [Obs.Fr]


/-- The parts held in `State.ik` outside a list are the same in two values of it. -/
def Ik.Fr (ps : List Part) (a b : Ik) : Prop :=
  (.ik ∈ ps ∨ (b.active = a.active ∧ b.dies = a.dies ∧ b.failovers = a.failovers ∧ b.lastCause = a.lastCause ∧ b.lastGap = a.lastGap ∧ b.ckptSeq = a.ckptSeq ∧ b.ckpt = a.ckpt ∧ b.ckptDue = a.ckptDue ∧ b.ckptLate = a.ckptLate ∧ b.journal = a.journal ∧ b.gap = a.gap ∧ b.planned = a.planned ∧ b.bothLost = a.bothLost ∧ b.beat = a.beat ∧ b.noFirmware = a.noFirmware))

theorem Ik.Fr.refl (ps : List Part) (a : Ik) : Ik.Fr ps a a := by
  simp [Ik.Fr]


/-- The parts held in `State.irq` outside a list are the same in two values of it. -/
def Irq.Fr (ps : List Part) (a b : Irq) : Prop :=
  (.irqPending ∈ ps ∨ (b.pend = a.pend ∧ b.alertStatus = a.alertStatus ∧ b.overrun = a.overrun ∧ b.latched = a.latched ∧ b.standby = a.standby ∧ b.standbyNew = a.standbyNew)) ∧
  (.irqCores ∈ ps ∨ (b.vectors = a.vectors ∧ b.prios = a.prios ∧ b.alertEn = a.alertEn ∧ b.lastCore = a.lastCore ∧ b.coreIe = a.coreIe ∧ b.halted = a.halted ∧ b.presented = a.presented ∧ b.stopped = a.stopped))

theorem Irq.Fr.refl (ps : List Part) (a : Irq) : Irq.Fr ps a a := by
  simp [Irq.Fr]


/-- The parts held in `State.dict` outside a list are the same in two values of it. -/
def Dict.Fr (ps : List Part) (a b : Dict) : Prop :=
  (.dictQueue ∈ ps ∨ (b.queue = a.queue ∧ b.arrived = a.arrived)) ∧
  (.sessions ∈ ps ∨ (b.sessions = a.sessions ∧ b.snaps = a.snaps ∧ b.fails = a.fails ∧ b.sessionFails = a.sessionFails)) ∧
  (.flash ∈ ps ∨ (b.copy0 = a.copy0 ∧ b.copy1 = a.copy1 ∧ b.copy = a.copy ∧ b.recno = a.recno ∧ b.appended = a.appended ∧ b.noCopy = a.noCopy ∧ b.compacting = a.compacting ∧ b.waiting = a.waiting ∧ b.flashBad = a.flashBad)) ∧
  (.calOver ∈ ps ∨ (b.calOver = a.calOver)) ∧
  (.t1s ∈ ps ∨ (b.csma = a.csma))

theorem Dict.Fr.refl (ps : List Part) (a : Dict) : Dict.Fr ps a a := by
  simp [Dict.Fr]


/-- The parts held in `State.sec` outside a list are the same in two values of it. -/
def Sec.Fr (ps : List Part) (a b : Sec) : Prop :=
  (.lifecycle ∈ ps ∨ (b.st = a.st ∧ b.booted = a.booted ∧ b.noIdentity = a.noIdentity ∧ b.tamperCause = a.tamperCause)) ∧
  (.entropy ∈ ps ∨ (b.entropyBad = a.entropyBad ∧ b.drawn = a.drawn ∧ b.drbgReqs = a.drbgReqs ∧ b.reseeds = a.reseeds ∧ b.drbgZeroed = a.drbgZeroed)) ∧
  (.keys ∈ ps ∨ (b.kwrap = a.kwrap ∧ b.ktable = a.ktable)) ∧
  (.keyCaches ∈ ps ∨ (b.caches = a.caches ∧ b.fetches = a.fetches ∧ b.epoch = a.epoch)) ∧
  (.firmware ∈ ps ∨ (b.slotA = a.slotA ∧ b.slotB = a.slotB ∧ b.slot = a.slot ∧ b.bootFlag = a.bootFlag ∧ b.verified = a.verified ∧ b.confirm = a.confirm)) ∧
  (.fuses ∈ ps ∨ (b.svnBlown = a.svnBlown)) ∧
  (.debug ∈ ps ∨ (b.nonce = a.nonce ∧ b.failedUnlocks = a.failedUnlocks ∧ b.debugLevel = a.debugLevel ∧ b.noDefine = a.noDefine)) ∧
  (.teardown ∈ ps ∨ (b.teardown = a.teardown))

theorem Sec.Fr.refl (ps : List Part) (a : Sec) : Sec.Fr ps a a := by
  simp [Sec.Fr]


/-- The parts held in `State.pool` outside a list are the same in two values of it. -/
def Pool.Fr (ps : List Part) (a b : Pool) : Prop :=
  (.guests ∈ ps ∨ (b.guests = a.guests ∧ b.oldDirs = a.oldDirs ∧ b.stamp = a.stamp ∧ b.swaps = a.swaps)) ∧
  (.guestCmd ∈ ps ∨ (b.cmd = a.cmd ∧ b.dirEpoch = a.dirEpoch)) ∧
  (.requests ∈ ps ∨ (b.reqs = a.reqs ∧ b.claims = a.claims ∧ b.trkPtr = a.trkPtr ∧ b.trk2 = a.trk2 ∧ b.trk3 = a.trk3)) ∧
  (.set ∈ ps ∨ (b.setState = a.setState ∧ b.devid = a.devid ∧ b.members = a.members ∧ b.managerEpid = a.managerEpid ∧ b.nonce = a.nonce ∧ b.heard = a.heard ∧ b.intruders = a.intruders)) ∧
  (.lrc ∈ ps ∨ (b.fills = a.fills ∧ b.lrc = a.lrc ∧ b.lrcFills = a.lrcFills))

theorem Pool.Fr.refl (ps : List Part) (a : Pool) : Pool.Fr ps a a := by
  simp [Pool.Fr]


/-- The parts held in `State.trans` outside a list are the same in two values of it. -/
def Trans.Fr (ps : List Part) (a b : Trans) : Prop :=
  (.tables ∈ ps ∨ (b.leaves = a.leaves ∧ b.tables = a.tables ∧ b.heapFree = a.heapFree ∧ b.epoch = a.epoch)) ∧
  (.tlbs ∈ ps ∨ (b.cache = a.cache ∧ b.tlbs = a.tlbs)) ∧
  (.commit ∈ ps ∨ (b.commit = a.commit)) ∧
  (.faults ∈ ps ∨ (b.faults = a.faults ∧ b.nextFault = a.nextFault ∧ b.fq = a.fq ∧ b.fqTail = a.fqTail))

theorem Trans.Fr.refl (ps : List Part) (a : Trans) : Trans.Fr ps a a := by
  simp [Trans.Fr]


/-- The parts held in `State.hearth` outside a list are the same in two values of it. -/
def Hearth.Fr (ps : List Part) (a b : Hearth) : Prop :=
  (.coherence ∈ ps ∨ (b.ces = a.ces ∧ b.dir = a.dir ∧ b.queue = a.queue ∧ b.late = a.late ∧ b.flush = a.flush ∧ b.swept = a.swept ∧ b.kept = a.kept)) ∧
  (.rmap ∈ ps ∨ (b.rmap = a.rmap))

theorem Hearth.Fr.refl (ps : List Part) (a : Hearth) : Hearth.Fr ps a a := by
  simp [Hearth.Fr]


/-- The parts held in `State.work` outside a list are the same in two values of it. -/
def Work.Fr (ps : List Part) (a b : Work) : Prop :=
  (.streams ∈ ps ∨ (b.streams = a.streams ∧ b.stamp = a.stamp ∧ b.bells = a.bells ∧ b.discarded = a.discarded)) ∧
  (.waybills ∈ ps ∨ (b.wbs = a.wbs ∧ b.clusters = a.clusters ∧ b.locks = a.locks)) ∧
  (.tallies ∈ ps ∨ (b.tallies = a.tallies)) ∧
  (.contexts ∈ ps ∨ (b.ctxs = a.ctxs ∧ b.stageUsed = a.stageUsed)) ∧
  (.layouts ∈ ps ∨ (b.layouts = a.layouts))

theorem Work.Fr.refl (ps : List Part) (a : Work) : Work.Fr ps a a := by
  simp [Work.Fr]


/-- The parts held in `State.cellar` outside a list are the same in two values of it. -/
def Cellar.Fr (ps : List Part) (a b : Cellar) : Prop :=
  (.chans ∈ ps ∨ (b.chans = a.chans)) ∧
  (.dram ∈ ps ∨ (b.dram = a.dram)) ∧
  (.map ∈ ps ∨ (b.layout = a.layout ∧ b.mode = a.mode ∧ b.cap = a.cap ∧ b.bytes = a.bytes ∧ b.tableBase = a.tableBase ∧ b.plain = a.plain ∧ b.hearthState = a.hearthState)) ∧
  (.groups ∈ ps ∨ (b.groups = a.groups ∧ b.spares = a.spares ∧ b.stale = a.stale)) ∧
  (.buses ∈ ps ∨ (b.buses = a.buses))

theorem Cellar.Fr.refl (ps : List Part) (a : Cellar) : Cellar.Fr ps a a := by
  simp [Cellar.Fr]


/-- `Moves` on a state written as a record, so that the rules for records meet records only. -/
def MovesMk (ps : List Part) (s : State) (x_pending : List Instr) (x_regs : Tab Nat) (x_blobs : Tab Bytes) (x_forced : Tab Nat) (x_power : Power) (x_fabric : Fabric) (x_obs : Obs) (x_ik : Ik) (x_irq : Irq) (x_holes : Tab Hole) (x_dict : Dict) (x_sec : Sec) (x_pool : Pool) (x_trans : Trans) (x_hearth : Hearth) (x_work : Work) (x_cellar : Cellar) (x_out : List Out) (x_freeCount : Nat) : Prop :=
  Moves ps s (State.mk x_pending x_regs x_blobs x_forced x_power x_fabric x_obs x_ik x_irq x_holes x_dict x_sec x_pool x_trans x_hearth x_work x_cellar x_out x_freeCount)

theorem moves_mk {ps : List Part} {s : State} {x_pending : List Instr} {x_regs : Tab Nat} {x_blobs : Tab Bytes} {x_forced : Tab Nat} {x_power : Power} {x_fabric : Fabric} {x_obs : Obs} {x_ik : Ik} {x_irq : Irq} {x_holes : Tab Hole} {x_dict : Dict} {x_sec : Sec} {x_pool : Pool} {x_trans : Trans} {x_hearth : Hearth} {x_work : Work} {x_cellar : Cellar} {x_out : List Out} {x_freeCount : Nat} : Moves ps s (State.mk x_pending x_regs x_blobs x_forced x_power x_fabric x_obs x_ik x_irq x_holes x_dict x_sec x_pool x_trans x_hearth x_work x_cellar x_out x_freeCount) ↔ MovesMk ps s x_pending x_regs x_blobs x_forced x_power x_fabric x_obs x_ik x_irq x_holes x_dict x_sec x_pool x_trans x_hearth x_work x_cellar x_out x_freeCount := Iff.rfl

/-- A record update changes only the parts it writes. -/
theorem Moves.record {ps : List Part} {s u : State} {x_regs} {x_blobs} {x_forced} {x_power} {x_fabric} {x_obs} {x_ik} {x_irq} {x_holes} {x_dict} {x_sec} {x_pool} {x_trans} {x_hearth} {x_work} {x_cellar} {x_out} {x_freeCount} (h : Moves ps s u)

    (h_regs : .regs ∈ ps ∨ x_regs = u.regs := by first | with_reducible exact .inr rfl | exact .inl (Part.mem_of rfl))
    (h_blobs : .blobs ∈ ps ∨ x_blobs = u.blobs := by first | with_reducible exact .inr rfl | exact .inl (Part.mem_of rfl))
    (h_forced : .forced ∈ ps ∨ x_forced = u.forced := by first | with_reducible exact .inr rfl | exact .inl (Part.mem_of rfl))
    (h_power : Power.Fr ps u.power x_power := by first | with_reducible exact Power.Fr.refl _ _ | (simp only [Power.Fr, Power.keep]; (repeat' split) <;> refine ⟨?_, ?_, ?_, ?_, ?_, ?_, ?_⟩ <;> first | exact .inl (Part.mem_of rfl) | with_reducible exact .inr (by simp only [and_self])))
    (h_fabric : Fabric.Fr ps u.fabric x_fabric := by first | with_reducible exact Fabric.Fr.refl _ _ | (simp only [Fabric.Fr]; (repeat' split) <;> refine ⟨?_, ?_, ?_, ?_, ?_⟩ <;> first | exact .inl (Part.mem_of rfl) | with_reducible exact .inr (by simp only [and_self])))
    (h_obs : Obs.Fr ps u.obs x_obs := by first | with_reducible exact Obs.Fr.refl _ _ | (simp only [Obs.Fr]; (repeat' split) <;> refine ⟨?_, ?_, ?_, ?_, ?_⟩ <;> first | exact .inl (Part.mem_of rfl) | with_reducible exact .inr (by simp only [and_self])))
    (h_ik : Ik.Fr ps u.ik x_ik := by first | with_reducible exact Ik.Fr.refl _ _ | exact .inl (Part.mem_of rfl))
    (h_irq : Irq.Fr ps u.irq x_irq := by first | with_reducible exact Irq.Fr.refl _ _ | (simp only [Irq.Fr]; (repeat' split) <;> refine ⟨?_, ?_⟩ <;> first | exact .inl (Part.mem_of rfl) | with_reducible exact .inr (by simp only [and_self])))
    (h_holes : .holes ∈ ps ∨ x_holes = u.holes := by first | with_reducible exact .inr rfl | exact .inl (Part.mem_of rfl))
    (h_dict : Dict.Fr ps u.dict x_dict := by first | with_reducible exact Dict.Fr.refl _ _ | (simp only [Dict.Fr, Dict.setActive]; (repeat' split) <;> refine ⟨?_, ?_, ?_, ?_, ?_⟩ <;> first | exact .inl (Part.mem_of rfl) | with_reducible exact .inr (by simp only [and_self])))
    (h_sec : Sec.Fr ps u.sec x_sec := by first | with_reducible exact Sec.Fr.refl _ _ | (simp only [Sec.Fr, Sec.setSlot, Sec.keep]; (repeat' split) <;> refine ⟨?_, ?_, ?_, ?_, ?_, ?_, ?_, ?_⟩ <;> first | exact .inl (Part.mem_of rfl) | with_reducible exact .inr (by simp only [and_self])))
    (h_pool : Pool.Fr ps u.pool x_pool := by first | with_reducible exact Pool.Fr.refl _ _ | (simp only [Pool.Fr]; (repeat' split) <;> refine ⟨?_, ?_, ?_, ?_, ?_⟩ <;> first | exact .inl (Part.mem_of rfl) | with_reducible exact .inr (by simp only [and_self])))
    (h_trans : Trans.Fr ps u.trans x_trans := by first | with_reducible exact Trans.Fr.refl _ _ | (simp only [Trans.Fr]; (repeat' split) <;> refine ⟨?_, ?_, ?_, ?_⟩ <;> first | exact .inl (Part.mem_of rfl) | with_reducible exact .inr (by simp only [and_self])))
    (h_hearth : Hearth.Fr ps u.hearth x_hearth := by first | with_reducible exact Hearth.Fr.refl _ _ | (simp only [Hearth.Fr]; (repeat' split) <;> refine ⟨?_, ?_⟩ <;> first | exact .inl (Part.mem_of rfl) | with_reducible exact .inr (by simp only [and_self])))
    (h_work : Work.Fr ps u.work x_work := by first | with_reducible exact Work.Fr.refl _ _ | (simp only [Work.Fr]; (repeat' split) <;> refine ⟨?_, ?_, ?_, ?_, ?_⟩ <;> first | exact .inl (Part.mem_of rfl) | with_reducible exact .inr (by simp only [and_self])))
    (h_cellar : Cellar.Fr ps u.cellar x_cellar := by first | with_reducible exact Cellar.Fr.refl _ _ | (simp only [Cellar.Fr]; (repeat' split) <;> refine ⟨?_, ?_, ?_, ?_, ?_⟩ <;> first | exact .inl (Part.mem_of rfl) | with_reducible exact .inr (by simp only [and_self])))
    (h_out : .out ∈ ps ∨ x_out = u.out := by first | with_reducible exact .inr rfl | exact .inl (Part.mem_of rfl))
    (h_freeCount : .free ∈ ps ∨ x_freeCount = u.freeCount := by first | with_reducible exact .inr rfl | exact .inl (Part.mem_of rfl))
    (k_out : u.out <:+ x_out := by first | with_reducible exact List.suffix_refl _ | exact List.suffix_cons _ _)
    (k_free : u.freeCount ≤ x_freeCount := by first | with_reducible exact Nat.le_refl _ | exact Nat.le_add_right _ _)
    (k_dram : Memory.wf u.cellar.dram = true → Memory.wf x_cellar.dram = true := by first | with_reducible exact fun h => h | (dsimp only; with_reducible exact fun h => h) | exact fun h => h | ((repeat' split) <;> exact fun h => h))
    (k_obs : u.obs.Sound → x_obs.Sound := by first | with_reducible exact fun h => h | (dsimp only; with_reducible exact fun h => h) | exact fun h => h | exact fun h => Obs.Sound.same h rfl rfl rfl rfl | (intro h; (repeat' split) <;> first | exact h | exact Obs.Sound.same h rfl rfl rfl rfl)) :
    MovesMk ps s u.pending x_regs x_blobs x_forced x_power x_fabric x_obs x_ik x_irq x_holes x_dict x_sec x_pool x_trans x_hearth x_work x_cellar x_out x_freeCount := by

  refine ⟨h.frame.trans ⟨rfl, fun p hp => ?_⟩, h.out.trans k_out, Nat.le_trans h.free k_free, fun hs => ?_⟩
  · cases p with
    | regs => exact h_regs.resolve_left hp
    | blobs => exact h_blobs.resolve_left hp
    | forced => exact h_forced.resolve_left hp
    | timebase => exact h_power.1.resolve_left hp
    | reset => exact h_power.2.1.resolve_left hp
    | night => exact h_power.2.2.1.resolve_left hp
    | clocks => exact h_power.2.2.2.1.resolve_left hp
    | present => exact h_power.2.2.2.2.1.resolve_left hp
    | thermal => exact h_power.2.2.2.2.2.1.resolve_left hp
    | contacts => exact h_power.2.2.2.2.2.2.resolve_left hp
    | links => exact h_fabric.1.resolve_left hp
    | egress => exact h_fabric.2.1.resolve_left hp
    | routes => exact h_fabric.2.2.1.resolve_left hp
    | peers => exact h_fabric.2.2.2.1.resolve_left hp
    | gatehouses => exact h_fabric.2.2.2.2.resolve_left hp
    | counters => exact h_obs.1.resolve_left hp
    | captures => exact h_obs.2.1.resolve_left hp
    | samples => exact h_obs.2.2.1.resolve_left hp
    | log => exact h_obs.2.2.2.1.resolve_left hp
    | phase => exact h_obs.2.2.2.2.resolve_left hp
    | ik => exact h_ik.resolve_left hp
    | irqPending => exact h_irq.1.resolve_left hp
    | irqCores => exact h_irq.2.resolve_left hp
    | holes => exact h_holes.resolve_left hp
    | dictQueue => exact h_dict.1.resolve_left hp
    | sessions => exact h_dict.2.1.resolve_left hp
    | flash => exact h_dict.2.2.1.resolve_left hp
    | calOver => exact h_dict.2.2.2.1.resolve_left hp
    | t1s => exact h_dict.2.2.2.2.resolve_left hp
    | lifecycle => exact h_sec.1.resolve_left hp
    | entropy => exact h_sec.2.1.resolve_left hp
    | keys => exact h_sec.2.2.1.resolve_left hp
    | keyCaches => exact h_sec.2.2.2.1.resolve_left hp
    | firmware => exact h_sec.2.2.2.2.1.resolve_left hp
    | fuses => exact h_sec.2.2.2.2.2.1.resolve_left hp
    | debug => exact h_sec.2.2.2.2.2.2.1.resolve_left hp
    | teardown => exact h_sec.2.2.2.2.2.2.2.resolve_left hp
    | guests => exact h_pool.1.resolve_left hp
    | guestCmd => exact h_pool.2.1.resolve_left hp
    | requests => exact h_pool.2.2.1.resolve_left hp
    | set => exact h_pool.2.2.2.1.resolve_left hp
    | lrc => exact h_pool.2.2.2.2.resolve_left hp
    | tables => exact h_trans.1.resolve_left hp
    | tlbs => exact h_trans.2.1.resolve_left hp
    | commit => exact h_trans.2.2.1.resolve_left hp
    | faults => exact h_trans.2.2.2.resolve_left hp
    | coherence => exact h_hearth.1.resolve_left hp
    | rmap => exact h_hearth.2.resolve_left hp
    | streams => exact h_work.1.resolve_left hp
    | waybills => exact h_work.2.1.resolve_left hp
    | tallies => exact h_work.2.2.1.resolve_left hp
    | contexts => exact h_work.2.2.2.1.resolve_left hp
    | layouts => exact h_work.2.2.2.2.resolve_left hp
    | chans => exact h_cellar.1.resolve_left hp
    | dram => exact h_cellar.2.1.resolve_left hp
    | map => exact h_cellar.2.2.1.resolve_left hp
    | groups => exact h_cellar.2.2.2.1.resolve_left hp
    | buses => exact h_cellar.2.2.2.2.resolve_left hp
    | out => exact h_out.resolve_left hp
    | free => exact h_freeCount.resolve_left hp
  · have h3 := h.sound hs
    exact ⟨k_dram h3.1, k_obs h3.2⟩

theorem Moves.call {ps qs : List Part} {s u t : State} (h : Moves qs u t)
    (k : Part.within qs ps = true) (b : Moves ps s u) : Moves ps s t := b.trans (h.mono k)

theorem Moves.ite {ps : List Part} {c : Prop} [Decidable c] {s a b : State} (h : Moves ps s a) (k : Moves ps s b) :
    Moves ps s (if c then a else b) := by
  split <;> assumption

theorem Moves.foldl {ps : List Part} {α : Type} {f : State → α → State} {s u : State} {l : List α}
    (h : ∀ v x, Moves ps v (f v x)) (b : Moves ps s u) : Moves ps s (l.foldl f u) := by
  induction l generalizing u with
  | nil => exact b
  | cons x l ih => exact ih (b.trans (h u x))

/-- What a served request leaves is the same outside a list of parts. -/
def Served.Fr (ps : List Part) (s : State) : Served → Prop
  | .done _ t => Moves ps s t
  | .wait => True

theorem Served.Fr.done {ps : List Part} {s t : State} {r : Reply} (h : Moves ps s t) : Served.Fr ps s (.done r t) := h

theorem Served.Fr.wait {ps : List Part} {s : State} : Served.Fr ps s .wait := trivial

theorem Served.Fr.of_eq {ps : List Part} {s t : State} {x : Served} {r : Reply} (h : x = .done r t) (k : Served.Fr ps s x) :
    Moves ps s t := by
  rw [h] at k; exact k

theorem Served.Fr.after {ps : List Part} {s t : State} {x : Served} (b : Moves ps s t) (k : Served.Fr ps t x) : Served.Fr ps s x := by
  cases x with
  | done r u => exact b.trans k
  | wait => trivial

theorem Moves.id {ps : List Part} {s u : State} (h : Moves ps s u) : Moves ps s (id u) := h

theorem Served.Fr.ite {ps : List Part} {c : Prop} [Decidable c] {s : State} {a b : Served} (h : Served.Fr ps s a)
    (k : Served.Fr ps s b) : Served.Fr ps s (if c then a else b) := by
  split <;> assumption

theorem Moves.foldl_snd {ps : List Part} {α β : Type} {f : β × State → α → β × State} {s : State} {u : β × State} {l : List α}
    (h : ∀ v x, Moves ps v.2 (f v x).2) (b : Moves ps s u.2) : Moves ps s (l.foldl f u).2 := by
  induction l generalizing u with
  | nil => exact b
  | cons x l ih => exact ih (b.trans (h u x))

theorem Moves.ite_snd {ps : List Part} {β : Type} {c : Prop} [Decidable c] {s : State} {a b : β × State} (h : Moves ps s a.2)
    (k : Moves ps s b.2) : Moves ps s (if c then a else b).2 := by
  split <;> assumption

theorem Moves.snd {ps : List Part} {α : Type} {p : α × State} {a : α} {s b : State} (h : p = (a, b))
    (k : Moves ps s p.2) : Moves ps s b := by
  rw [h] at k; exact k

end Sys2Proof.Machine
end

