-- ==== Sys2Proof/Laws/Tab.lean ====
section
/-! SUPPORT. What a table of rows by number reads after each of its operations, and that each keeps the canonical form. -/

namespace Sys2Proof

variable {α : Type}

theorem findRow_putRow (k k' : Nat) (v : α) (r : List (Nat × α)) :
    findRow k' (putRow k v r) = if k' = k then some v else findRow k' r := by
  induction r with
  | nil => simp [putRow, findRow]
  | cons x r ih =>
    obtain ⟨a, b⟩ := x
    simp only [putRow]
    split
    · simp [findRow]
    · split
      · subst_vars; simp only [findRow]; split <;> simp_all
      · simp only [findRow, ih]
        by_cases h1 : k' = a
        · subst h1
          have : ¬ k' = k := fun h => by omega
          simp [this]
        · simp [h1]

@[simp] theorem Tab.find_put (t : Tab α) (k k' : Nat) (v : α) :
    (t.put k v).find k' = if k' = k then some v else t.find k' := findRow_putRow k k' v t.rows

theorem Tab.find_put_self (t : Tab α) (k : Nat) (v : α) : (t.put k v).find k = some v := by simp

theorem Tab.find_put_ne (t : Tab α) {k k' : Nat} (v : α) (h : k' ≠ k) : (t.put k v).find k' = t.find k' := by simp [h]

@[simp] theorem Tab.getD_put (t : Tab α) (k k' : Nat) (v d : α) :
    (t.put k v).getD k' d = if k' = k then v else t.getD k' d := by
  simp only [Tab.getD, Tab.find_put]; split <;> rfl

@[simp] theorem Tab.has_put (t : Tab α) (k k' : Nat) (v : α) :
    (t.put k v).has k' = (decide (k' = k) || t.has k') := by
  simp only [Tab.has, Tab.find_put]; split <;> simp_all

theorem findRow_filter_ne (k k' : Nat) (r : List (Nat × α)) :
    findRow k' (r.filter fun x => x.1 != k) = if k' = k then none else findRow k' r := by
  induction r with
  | nil => simp [findRow]
  | cons x r ih =>
    obtain ⟨a, b⟩ := x
    by_cases h : a = k
    · subst h
      simp only [List.filter_cons, bne_self_eq_false, Bool.false_eq_true, if_false, ih, findRow]
      split <;> simp_all
    · have h2 : (a != k) = true := by simpa using h
      simp only [List.filter_cons, h2, if_true, findRow, ih]
      by_cases h3 : k' = a <;> by_cases h4 : k' = k <;> simp_all

@[simp] theorem Tab.find_del (t : Tab α) (k k' : Nat) :
    (t.del k).find k' = if k' = k then none else t.find k' := findRow_filter_ne k k' t.rows

@[simp] theorem Tab.getD_del (t : Tab α) (k k' : Nat) (d : α) :
    (t.del k).getD k' d = if k' = k then d else t.getD k' d := by
  simp only [Tab.getD, Tab.find_del]; split <;> rfl

@[simp] theorem Tab.has_del (t : Tab α) (k k' : Nat) : (t.del k).has k' = (!decide (k' = k) && t.has k') := by
  simp only [Tab.has, Tab.find_del]; split <;> simp_all

@[simp] theorem Tab.find_upd (t : Tab α) (k k' : Nat) (f : α → α) :
    (t.upd k f).find k' = if k' = k then (t.find k).map f else t.find k' := by
  unfold Tab.upd
  split
  · rename_i h; split <;> simp_all
  · rename_i v h; simp only [Tab.find_put]; split <;> simp_all

@[simp] theorem Tab.has_upd (t : Tab α) (k k' : Nat) (f : α → α) : (t.upd k f).has k' = t.has k' := by
  simp only [Tab.has, Tab.find_upd]; split <;> simp_all

theorem Tab.getD_upd_of_find (t : Tab α) {k : Nat} {v : α} (k' : Nat) (f : α → α) (d : α) (h : t.find k = some v) :
    (t.upd k f).getD k' d = if k' = k then f v else t.getD k' d := by
  simp only [Tab.getD, Tab.find_upd]; split <;> simp_all

theorem findRow_map (k : Nat) (f : Nat → α → α) (r : List (Nat × α)) :
    findRow k (r.map fun x => (x.1, f x.1 x.2)) = (findRow k r).map (f k) := by
  induction r with
  | nil => rfl
  | cons x r ih =>
    simp only [List.map_cons, findRow]
    split <;> simp_all

@[simp] theorem Tab.find_map (t : Tab α) (k : Nat) (f : Nat → α → α) : (t.map f).find k = (t.find k).map (f k) :=
  findRow_map k f t.rows

@[simp] theorem Tab.has_map (t : Tab α) (k : Nat) (f : Nat → α → α) : (t.map f).has k = t.has k := by simp [Tab.has]

@[simp] theorem Tab.find_empty (k : Nat) : ({} : Tab α).find k = none := rfl

@[simp] theorem Tab.getD_empty (k : Nat) (d : α) : ({} : Tab α).getD k d = d := rfl

@[simp] theorem Tab.has_empty (k : Nat) : ({} : Tab α).has k = false := rfl

theorem Tab.has_of_find {t : Tab α} {k : Nat} {v : α} (h : t.find k = some v) : t.has k = true := by simp [Tab.has, h]

theorem Tab.getD_of_find {t : Tab α} {k : Nat} {v : α} (d : α) (h : t.find k = some v) : t.getD k d = v := by simp [Tab.getD, h]

theorem Tab.find_of_has {t : Tab α} {k : Nat} (d : α) (h : t.has k = true) : t.find k = some (t.getD k d) := by
  simp only [Tab.has, Option.isSome_iff_exists] at h
  obtain ⟨v, h⟩ := h
  simp [Tab.getD, h]

theorem mem_putRow {k : Nat} {v : α} {x : Nat × α} {r : List (Nat × α)} (h : x ∈ putRow k v r) : x = (k, v) ∨ x ∈ r := by
  induction r with
  | nil => simpa [putRow] using h
  | cons y r ih =>
    obtain ⟨a, b⟩ := y
    simp only [putRow] at h
    split at h
    · simpa using h
    · split at h
      · simp only [List.mem_cons] at h ⊢; rcases h with h | h <;> simp [h]
      · simp only [List.mem_cons] at h ⊢
        rcases h with h | h
        · simp [h]
        · rcases ih h with h | h <;> simp [h]

/-! ## Canonical form -/

theorem risingFrom_mono {a b : Nat} (h : a ≤ b) {r : List (Nat × α)} (k : risingFrom b r = true) : risingFrom a r = true := by
  cases r with
  | nil => rfl
  | cons x r =>
    obtain ⟨c, v⟩ := x
    simp only [risingFrom, Bool.and_eq_true, decide_eq_true_eq] at k ⊢
    exact ⟨by omega, k.2⟩

theorem risingFrom_putRow {b k : Nat} (v : α) (h : b ≤ k) {r : List (Nat × α)} (hr : risingFrom b r = true) :
    risingFrom b (putRow k v r) = true := by
  induction r generalizing b with
  | nil => simp [putRow, risingFrom, h]
  | cons x r ih =>
    obtain ⟨a, w⟩ := x
    simp only [risingFrom, Bool.and_eq_true, decide_eq_true_eq] at hr
    simp only [putRow]
    split
    · simp only [risingFrom, Bool.and_eq_true, decide_eq_true_eq]; exact ⟨h, by omega, hr.2⟩
    · split
      · subst_vars; simp only [risingFrom, Bool.and_eq_true, decide_eq_true_eq]; exact hr
      · simp only [risingFrom, Bool.and_eq_true, decide_eq_true_eq]; exact ⟨hr.1, ih (by omega) hr.2⟩

theorem risingFrom_filter {b : Nat} (p : Nat × α → Bool) {r : List (Nat × α)} (hr : risingFrom b r = true) :
    risingFrom b (r.filter p) = true := by
  induction r generalizing b with
  | nil => rfl
  | cons x r ih =>
    obtain ⟨a, w⟩ := x
    simp only [risingFrom, Bool.and_eq_true, decide_eq_true_eq] at hr
    simp only [List.filter_cons]
    split
    · simp only [risingFrom, Bool.and_eq_true, decide_eq_true_eq]; exact ⟨hr.1, ih hr.2⟩
    · exact risingFrom_mono (by omega) (ih hr.2)

theorem Tab.wf_put (t : Tab α) (k : Nat) (v : α) (h : t.wf = true) : (t.put k v).wf = true := risingFrom_putRow v (by omega) h

theorem Tab.wf_del (t : Tab α) (k : Nat) (h : t.wf = true) : (t.del k).wf = true := risingFrom_filter _ h

theorem Tab.wf_filter (t : Tab α) (p : Nat → α → Bool) (h : t.wf = true) : (t.filter p).wf = true := risingFrom_filter _ h

theorem Tab.wf_upd (t : Tab α) (k : Nat) (f : α → α) (h : t.wf = true) : (t.upd k f).wf = true := by
  unfold Tab.upd
  split
  · exact h
  · exact Tab.wf_put _ _ _ h

end Sys2Proof
end

