-- ==== Sys2Proof/Laws/Moves1.lean ====
section
/-! SUPPORT. One lemma for each operation: the parts of the state it may change, and that it keeps what every operation keeps
(Laws/Moves). Part 1 of 8, in the order in which the operations call one another. -/

namespace Sys2Proof.Machine

open Sys2Proof

set_option linter.all false

-- One proof after the other: in parallel, each waits in a thread of its own for the same lemma of `simp only`.
set_option Elab.async false

theorem State.takeSeq_moves (s dst tc) : Moves [.egress] s (State.takeSeq s dst tc).2 := by
  unfold State.takeSeq
  try dsimp only
  repeat' first
    | with_reducible apply Moves.refl
    | with_reducible apply Moves.ite
    | (simp only [moves_mk]; refine Moves.record ?_)
    | with_reducible apply Moves.foldl
    | with_reducible apply Moves.foldl_snd
    | with_reducible apply Moves.ite_snd
    | with_reducible refine Moves.snd (by assumption) ?_
    | with_reducible intro _
    | dsimp only
    | split

theorem State.takeEcho_moves (s dst tc) : Moves [.egress] s (State.takeEcho s dst tc).2 := by
  unfold State.takeEcho
  try dsimp only
  repeat' first
    | with_reducible apply Moves.refl
    | with_reducible apply Moves.ite
    | (simp only [moves_mk]; refine Moves.record ?_)
    | with_reducible apply Moves.foldl
    | with_reducible apply Moves.foldl_snd
    | with_reducible apply Moves.ite_snd
    | with_reducible refine Moves.snd (by assumption) ?_
    | with_reducible intro _
    | dsimp only
    | split

theorem State.irqEdge_moves (s src) : Moves [.irqPending] s (State.irqEdge s src) := by
  unfold State.irqEdge
  try dsimp only
  repeat' first
    | with_reducible apply Moves.refl
    | with_reducible apply Moves.ite
    | (simp only [moves_mk]; refine Moves.record ?_)
    | with_reducible apply Moves.foldl
    | with_reducible apply Moves.foldl_snd
    | with_reducible apply Moves.ite_snd
    | with_reducible refine Moves.snd (by assumption) ?_
    | with_reducible intro _
    | dsimp only
    | split

theorem State.countN_moves (s d inst ev sel n) : Moves [.counters, .irqPending] s (State.countN s d inst ev sel n) := by
  have bound : ∀ hit : Nat → Ctr → Bool, s.obs.Sound →
      ∀ r ∈ (s.obs.ctrs.map fun k c => if hit k c then c.add n else c).rows, r.2.count < 2 ^ 48 := by
    intro hit h r hr
    simp only [Tab.map, List.mem_map] at hr
    obtain ⟨x, hx, rfl⟩ := hr
    dsimp only
    split
    · exact Nat.mod_lt _ (by decide)
    · exact h.2.2.2 x hx
  unfold State.countN
  dsimp only
  split
  · exact Moves.refl _ _
  · have step : ∀ hit : Nat → Ctr → Bool, Moves [.counters, .irqPending] s
        { s with obs := { s.obs with ctrs := s.obs.ctrs.map fun k c => if hit k c then c.add n else c } } := by
      intro hit
      simp only [moves_mk]
      exact Moves.record (Moves.refl _ _) (k_obs := fun h => ⟨h.1, h.2.1, h.2.2.1, bound hit h⟩)
    split
    · exact Moves.call (State.irqEdge_moves _ _) (by rfl) (step _)
    · exact step _

theorem State.count_moves (s d inst ev sel) : Moves [.counters, .irqPending] s (State.count s d inst ev sel) := by
  unfold State.count
  try dsimp only
  repeat' first
    | with_reducible apply Moves.refl
    | with_reducible apply Moves.ite
    | ((with_reducible apply Moves.call (State.countN_moves _ _ _ _ _ _)); rfl)
    | (simp only [moves_mk]; refine Moves.record ?_)
    | with_reducible apply Moves.foldl
    | with_reducible apply Moves.foldl_snd
    | with_reducible apply Moves.ite_snd
    | with_reducible refine Moves.snd (by assumption) ?_
    | with_reducible intro _
    | dsimp only
    | split

theorem State.countLink_moves (s l ev sel) : Moves [.counters, .irqPending] s (State.countLink s l ev sel) := by
  unfold State.countLink
  try dsimp only
  repeat' first
    | with_reducible apply Moves.refl
    | with_reducible apply Moves.ite
    | ((with_reducible apply Moves.call (State.count_moves _ _ _ _ _)); rfl)
    | (simp only [moves_mk]; refine Moves.record ?_)
    | with_reducible apply Moves.foldl
    | with_reducible apply Moves.foldl_snd
    | with_reducible apply Moves.ite_snd
    | with_reducible refine Moves.snd (by assumption) ?_
    | with_reducible intro _
    | dsimp only
    | split

theorem State.settleTrk_moves (s) : Moves [.requests] s (State.settleTrk s) := by
  unfold State.settleTrk
  try dsimp only
  repeat' first
    | with_reducible apply Moves.refl
    | with_reducible apply Moves.ite
    | (simp only [moves_mk]; refine Moves.record ?_)
    | with_reducible apply Moves.foldl
    | with_reducible apply Moves.foldl_snd
    | with_reducible apply Moves.ite_snd
    | with_reducible refine Moves.snd (by assumption) ?_
    | with_reducible intro _
    | dsimp only
    | split

theorem State.dropTracker_moves (s t) : Moves [.requests] s (State.dropTracker s t) := by
  unfold State.dropTracker
  try dsimp only
  repeat' first
    | with_reducible apply Moves.refl
    | with_reducible apply Moves.ite
    | ((with_reducible apply Moves.call (State.settleTrk_moves _)); rfl)
    | (simp only [moves_mk]; refine Moves.record ?_)
    | with_reducible apply Moves.foldl
    | with_reducible apply Moves.foldl_snd
    | with_reducible apply Moves.ite_snd
    | with_reducible refine Moves.snd (by assumption) ?_
    | with_reducible intro _
    | dsimp only
    | split

theorem State.enterQ_moves (s qid item) : Moves [.samples] s (State.enterQ s qid item) := by
  unfold State.enterQ
  try dsimp only
  repeat' first
    | with_reducible apply Moves.refl
    | with_reducible apply Moves.ite
    | (simp only [moves_mk]; refine Moves.record ?_)
    | with_reducible apply Moves.foldl
    | with_reducible apply Moves.foldl_snd
    | with_reducible apply Moves.ite_snd
    | with_reducible refine Moves.snd (by assumption) ?_
    | with_reducible intro _
    | dsimp only
    | split

theorem State.joinQueue_moves (s e q) : Moves [.egress] s (State.joinQueue s e q) := by
  unfold State.joinQueue
  try dsimp only
  repeat' first
    | with_reducible apply Moves.refl
    | with_reducible apply Moves.ite
    | (simp only [moves_mk]; refine Moves.record ?_)
    | with_reducible apply Moves.foldl
    | with_reducible apply Moves.foldl_snd
    | with_reducible apply Moves.ite_snd
    | with_reducible refine Moves.snd (by assumption) ?_
    | with_reducible intro _
    | dsimp only
    | split

theorem State.enqueue_moves (s e) : Moves [.egress, .samples] s (State.enqueue s e) := by
  unfold State.enqueue
  try dsimp only
  repeat' first
    | with_reducible apply Moves.refl
    | with_reducible apply Moves.ite
    | ((with_reducible apply Moves.call (State.enterQ_moves _ _ _)); rfl)
    | ((with_reducible apply Moves.call (State.joinQueue_moves _ _ _)); rfl)
    | (simp only [moves_mk]; refine Moves.record ?_)
    | with_reducible apply Moves.foldl
    | with_reducible apply Moves.foldl_snd
    | with_reducible apply Moves.ite_snd
    | with_reducible refine Moves.snd (by assumption) ?_
    | with_reducible intro _
    | dsimp only
    | split

theorem State.queueOwn_moves (s e) : Moves [.egress, .samples] s (State.queueOwn s e) := by
  unfold State.queueOwn
  try dsimp only
  repeat' first
    | with_reducible apply Moves.refl
    | with_reducible apply Moves.ite
    | ((with_reducible apply Moves.call (State.enqueue_moves _ _)); rfl)
    | (simp only [moves_mk]; refine Moves.record ?_)
    | with_reducible apply Moves.foldl
    | with_reducible apply Moves.foldl_snd
    | with_reducible apply Moves.ite_snd
    | with_reducible refine Moves.snd (by assumption) ?_
    | with_reducible intro _
    | dsimp only
    | split

theorem State.originate_moves (s p tracker) : Moves [.egress, .counters, .samples, .irqPending, .requests] s (State.originate s p tracker) := by
  unfold State.originate
  try dsimp only
  repeat' first
    | with_reducible apply Moves.refl
    | with_reducible apply Moves.ite
    | ((with_reducible apply Moves.call (State.takeSeq_moves _ _ _)); rfl)
    | ((with_reducible apply Moves.call (State.takeEcho_moves _ _ _)); rfl)
    | ((with_reducible apply Moves.call (State.countLink_moves _ _ _ _)); rfl)
    | ((with_reducible apply Moves.call (State.dropTracker_moves _ _)); rfl)
    | ((with_reducible apply Moves.call (State.queueOwn_moves _ _)); rfl)
    | (simp only [moves_mk]; refine Moves.record ?_)
    | with_reducible apply Moves.foldl
    | with_reducible apply Moves.foldl_snd
    | with_reducible apply Moves.ite_snd
    | with_reducible refine Moves.snd (by assumption) ?_
    | with_reducible intro _
    | dsimp only
    | split

theorem State.sendSet_moves (s dst m) : Moves [.egress, .counters, .samples, .irqPending, .requests] s (State.sendSet s dst m) := by
  unfold State.sendSet
  try dsimp only
  repeat' first
    | with_reducible apply Moves.refl
    | with_reducible apply Moves.ite
    | ((with_reducible apply Moves.call (State.originate_moves _ _ _)); rfl)
    | (simp only [moves_mk]; refine Moves.record ?_)
    | with_reducible apply Moves.foldl
    | with_reducible apply Moves.foldl_snd
    | with_reducible apply Moves.ite_snd
    | with_reducible refine Moves.snd (by assumption) ?_
    | with_reducible intro _
    | dsimp only
    | split

theorem State.distributeAll_moves (s defs erase) : Moves [.egress, .counters, .samples, .irqPending, .requests] s (State.distributeAll s defs erase) := by
  unfold State.distributeAll
  try dsimp only
  repeat' first
    | with_reducible apply Moves.refl
    | with_reducible apply Moves.ite
    | ((with_reducible apply Moves.call (State.sendSet_moves _ _ _)); rfl)
    | (simp only [moves_mk]; refine Moves.record ?_)
    | with_reducible apply Moves.foldl
    | with_reducible apply Moves.foldl_snd
    | with_reducible apply Moves.ite_snd
    | with_reducible refine Moves.snd (by assumption) ?_
    | with_reducible intro _
    | dsimp only
    | split

theorem State.emit_moves (s o) : Moves [.out] s (State.emit s o) := by
  unfold State.emit
  try dsimp only
  repeat' first
    | with_reducible apply Moves.refl
    | with_reducible apply Moves.ite
    | (simp only [moves_mk]; refine Moves.record ?_)
    | with_reducible apply Moves.foldl
    | with_reducible apply Moves.foldl_snd
    | with_reducible apply Moves.ite_snd
    | with_reducible refine Moves.snd (by assumption) ?_
    | with_reducible intro _
    | dsimp only
    | split

theorem State.setLink_moves (s l k) : Moves [.links] s (State.setLink s l k) := by
  unfold State.setLink
  try dsimp only
  repeat' first
    | with_reducible apply Moves.refl
    | with_reducible apply Moves.ite
    | (simp only [moves_mk]; refine Moves.record ?_)
    | with_reducible apply Moves.foldl
    | with_reducible apply Moves.foldl_snd
    | with_reducible apply Moves.ite_snd
    | with_reducible refine Moves.snd (by assumption) ?_
    | with_reducible intro _
    | dsimp only
    | split

theorem State.transmit_moves (s l n x) : Moves [.links, .counters, .irqPending, .out] s (State.transmit s l n x) := by
  unfold State.transmit
  try dsimp only
  repeat' first
    | with_reducible apply Moves.refl
    | with_reducible apply Moves.ite
    | ((with_reducible apply Moves.call (State.countLink_moves _ _ _ _)); rfl)
    | ((with_reducible apply Moves.call (State.emit_moves _ _)); rfl)
    | ((with_reducible apply Moves.call (State.setLink_moves _ _ _)); rfl)
    | (simp only [moves_mk]; refine Moves.record ?_)
    | with_reducible apply Moves.foldl
    | with_reducible apply Moves.foldl_snd
    | with_reducible apply Moves.ite_snd
    | with_reducible refine Moves.snd (by assumption) ?_
    | with_reducible intro _
    | dsimp only
    | split

theorem State.onLink_moves (s l f) : Moves [.links] s (State.onLink s l f) := by
  unfold State.onLink
  try dsimp only
  repeat' first
    | with_reducible apply Moves.refl
    | with_reducible apply Moves.ite
    | ((with_reducible apply Moves.call (State.setLink_moves _ _ _)); rfl)
    | (simp only [moves_mk]; refine Moves.record ?_)
    | with_reducible apply Moves.foldl
    | with_reducible apply Moves.foldl_snd
    | with_reducible apply Moves.ite_snd
    | with_reducible refine Moves.snd (by assumption) ?_
    | with_reducible intro _
    | dsimp only
    | split

theorem State.formFlit_moves (s l ftype sop pad plain) : Moves [.links, .counters, .irqPending, .out] s (State.formFlit s l ftype sop pad plain) := by
  unfold State.formFlit
  try dsimp only
  repeat' first
    | with_reducible apply Moves.refl
    | with_reducible apply Moves.ite
    | ((with_reducible apply Moves.call (State.transmit_moves _ _ _ _)); rfl)
    | ((with_reducible apply Moves.call (State.setLink_moves _ _ _)); rfl)
    | ((with_reducible apply Moves.call (State.onLink_moves _ _ _)); rfl)
    | (simp only [moves_mk]; refine Moves.record ?_)
    | with_reducible apply Moves.foldl
    | with_reducible apply Moves.foldl_snd
    | with_reducible apply Moves.ite_snd
    | with_reducible refine Moves.snd (by assumption) ?_
    | with_reducible intro _
    | dsimp only
    | split

theorem State.formIdle_moves (s l n) : Moves [.links, .counters, .irqPending, .out] s (State.formIdle s l n) := by
  induction n generalizing s with
  | zero => exact Moves.refl _ _
  | succ n ih => exact (Moves.mono (State.formFlit_moves _ _ _ _ _ _) rfl).trans (ih _)

theorem State.closeGroup_moves (s l) : Moves [.links, .counters, .irqPending, .out] s (State.closeGroup s l) := by
  unfold State.closeGroup
  try dsimp only
  repeat' first
    | with_reducible apply Moves.refl
    | with_reducible apply Moves.ite
    | ((with_reducible apply Moves.call (State.formIdle_moves _ _ _)); rfl)
    | (simp only [moves_mk]; refine Moves.record ?_)
    | with_reducible apply Moves.foldl
    | with_reducible apply Moves.foldl_snd
    | with_reducible apply Moves.ite_snd
    | with_reducible refine Moves.snd (by assumption) ?_
    | with_reducible intro _
    | dsimp only
    | split

theorem State.leaveQ_moves (s qid item) : Moves [.samples] s (State.leaveQ s qid item) := by
  unfold State.leaveQ
  try dsimp only
  repeat' first
    | with_reducible apply Moves.refl
    | with_reducible apply Moves.ite
    | (simp only [moves_mk]; refine Moves.record ?_)
    | with_reducible apply Moves.foldl
    | with_reducible apply Moves.foldl_snd
    | with_reducible apply Moves.ite_snd
    | with_reducible refine Moves.snd (by assumption) ?_
    | with_reducible intro _
    | dsimp only
    | split

theorem State.onReq_moves (s t f) : Moves [.requests] s (State.onReq s t f) := by
  unfold State.onReq
  try dsimp only
  repeat' first
    | with_reducible apply Moves.refl
    | with_reducible apply Moves.ite
    | (simp only [moves_mk]; refine Moves.record ?_)
    | with_reducible apply Moves.foldl
    | with_reducible apply Moves.foldl_snd
    | with_reducible apply Moves.ite_snd
    | with_reducible refine Moves.snd (by assumption) ?_
    | with_reducible intro _
    | dsimp only
    | split

theorem State.hqueue_moves (s l t) : Moves [.samples, .requests, .coherence] s (State.hqueue s l t) := by
  unfold State.hqueue
  try dsimp only
  repeat' first
    | with_reducible apply Moves.refl
    | with_reducible apply Moves.ite
    | ((with_reducible apply Moves.call (State.enterQ_moves _ _ _)); rfl)
    | ((with_reducible apply Moves.call (State.onReq_moves _ _ _)); rfl)
    | (simp only [moves_mk]; refine Moves.record ?_)
    | with_reducible apply Moves.foldl
    | with_reducible apply Moves.foldl_snd
    | with_reducible apply Moves.ite_snd
    | with_reducible refine Moves.snd (by assumption) ?_
    | with_reducible intro _
    | dsimp only
    | split

theorem State.onChan_moves (s ch f) : Moves [.chans] s (State.onChan s ch f) := by
  unfold State.onChan
  try dsimp only
  repeat' first
    | with_reducible apply Moves.refl
    | with_reducible apply Moves.ite
    | (simp only [moves_mk]; refine Moves.record ?_)
    | with_reducible apply Moves.foldl
    | with_reducible apply Moves.foldl_snd
    | with_reducible apply Moves.ite_snd
    | with_reducible refine Moves.snd (by assumption) ?_
    | with_reducible intro _
    | dsimp only
    | split

theorem State.putRaw_moves (s ch line raw) : Moves [.dram] s (State.putRaw s ch line raw) := by
  unfold State.putRaw
  simp only [moves_mk]
  exact Moves.record (Moves.refl _ _) (k_dram := Memory.wf_cellsPut _ _ _)

theorem State.putLine_moves (s ch line bs m) : Moves [.dram] s (State.putLine s ch line bs m) := by
  unfold State.putLine
  try dsimp only
  repeat' first
    | with_reducible apply Moves.refl
    | with_reducible apply Moves.ite
    | ((with_reducible apply Moves.call (State.putRaw_moves _ _ _ _)); rfl)
    | (simp only [moves_mk]; refine Moves.record ?_)
    | with_reducible apply Moves.foldl
    | with_reducible apply Moves.foldl_snd
    | with_reducible apply Moves.ite_snd
    | with_reducible refine Moves.snd (by assumption) ?_
    | with_reducible intro _
    | dsimp only
    | split

theorem State.sendDelta_moves (s g m line d dm) : Moves [.chans] s (State.sendDelta s g m line d dm) := by
  unfold State.sendDelta
  try dsimp only
  repeat' first
    | with_reducible apply Moves.refl
    | with_reducible apply Moves.ite
    | ((with_reducible apply Moves.call (State.onChan_moves _ _ _)); rfl)
    | (simp only [moves_mk]; refine Moves.record ?_)
    | with_reducible apply Moves.foldl
    | with_reducible apply Moves.foldl_snd
    | with_reducible apply Moves.ite_snd
    | with_reducible refine Moves.snd (by assumption) ?_
    | with_reducible intro _
    | dsimp only
    | split

theorem State.putMeta_moves (s pl f) : Moves [.chans, .dram] s (State.putMeta s pl f) := by
  unfold State.putMeta
  try dsimp only
  repeat' first
    | with_reducible apply Moves.refl
    | with_reducible apply Moves.ite
    | ((with_reducible apply Moves.call (State.putLine_moves _ _ _ _ _)); rfl)
    | ((with_reducible apply Moves.call (State.sendDelta_moves _ _ _ _ _ _)); rfl)
    | (simp only [moves_mk]; refine Moves.record ?_)
    | with_reducible apply Moves.foldl
    | with_reducible apply Moves.foldl_snd
    | with_reducible apply Moves.ite_snd
    | with_reducible refine Moves.snd (by assumption) ?_
    | with_reducible intro _
    | dsimp only
    | split

theorem State.hint_moves (s l on) : Moves [.chans, .dram] s (State.hint s l on) := by
  unfold State.hint
  try dsimp only
  repeat' first
    | with_reducible apply Moves.refl
    | with_reducible apply Moves.ite
    | ((with_reducible apply Moves.call (State.onChan_moves _ _ _)); rfl)
    | ((with_reducible apply Moves.call (State.putMeta_moves _ _ _)); rfl)
    | (simp only [moves_mk]; refine Moves.record ?_)
    | with_reducible apply Moves.foldl
    | with_reducible apply Moves.foldl_snd
    | with_reducible apply Moves.ite_snd
    | with_reducible refine Moves.snd (by assumption) ?_
    | with_reducible intro _
    | dsimp only
    | split

theorem State.setDir_moves (s l d) : Moves [.coherence, .chans, .dram] s (State.setDir s l d) := by
  unfold State.setDir
  try dsimp only
  repeat' first
    | with_reducible apply Moves.refl
    | with_reducible apply Moves.ite
    | ((with_reducible apply Moves.call (State.hint_moves _ _ _)); rfl)
    | (simp only [moves_mk]; refine Moves.record ?_)
    | with_reducible apply Moves.foldl
    | with_reducible apply Moves.foldl_snd
    | with_reducible apply Moves.ite_snd
    | with_reducible refine Moves.snd (by assumption) ?_
    | with_reducible intro _
    | dsimp only
    | split

theorem State.sendSnoop_moves (s l e opc tag fwd) : Moves [.egress, .counters, .samples, .irqPending, .requests] s (State.sendSnoop s l e opc tag fwd) := by
  unfold State.sendSnoop
  try dsimp only
  repeat' first
    | with_reducible apply Moves.refl
    | with_reducible apply Moves.ite
    | ((with_reducible apply Moves.call (State.originate_moves _ _ _)); rfl)
    | (simp only [moves_mk]; refine Moves.record ?_)
    | with_reducible apply Moves.foldl
    | with_reducible apply Moves.foldl_snd
    | with_reducible apply Moves.ite_snd
    | with_reducible refine Moves.snd (by assumption) ?_
    | with_reducible intro _
    | dsimp only
    | split

theorem State.snoop_moves (s l c opc reqEpid reqTag) : Moves [.egress, .counters, .samples, .irqPending, .requests, .coherence, .chans, .dram] s (State.snoop s l c opc reqEpid reqTag) := by
  unfold State.snoop
  try dsimp only
  repeat' first
    | with_reducible apply Moves.refl
    | with_reducible apply Moves.ite
    | ((with_reducible apply Moves.call (State.setDir_moves _ _ _)); rfl)
    | ((with_reducible apply Moves.call (State.sendSnoop_moves _ _ _ _ _ _)); rfl)
    | (simp only [moves_mk]; refine Moves.record ?_)
    | with_reducible apply Moves.foldl
    | with_reducible apply Moves.foldl_snd
    | with_reducible apply Moves.ite_snd
    | with_reducible refine Moves.snd (by assumption) ?_
    | with_reducible intro _
    | dsimp only
    | split

theorem State.snoopAll_moves (s l opc cs) : Moves [.egress, .counters, .samples, .irqPending, .requests, .coherence, .chans, .dram] s (State.snoopAll s l opc cs) := by
  unfold State.snoopAll
  try dsimp only
  repeat' first
    | with_reducible apply Moves.refl
    | with_reducible apply Moves.ite
    | ((with_reducible apply Moves.call (State.snoop_moves _ _ _ _ _ _)); rfl)
    | (simp only [moves_mk]; refine Moves.record ?_)
    | with_reducible apply Moves.foldl
    | with_reducible apply Moves.foldl_snd
    | with_reducible apply Moves.ite_snd
    | with_reducible refine Moves.snd (by assumption) ?_
    | with_reducible intro _
    | dsimp only
    | split

theorem State.recall_moves (s l d) : Moves [.egress, .counters, .samples, .irqPending, .requests, .coherence, .chans, .dram] s (State.recall s l d) := by
  unfold State.recall
  try dsimp only
  repeat' first
    | with_reducible apply Moves.refl
    | with_reducible apply Moves.ite
    | ((with_reducible apply Moves.call (State.countN_moves _ _ _ _ _ _)); rfl)
    | ((with_reducible apply Moves.call (State.snoopAll_moves _ _ _ _)); rfl)
    | (simp only [moves_mk]; refine Moves.record ?_)
    | with_reducible apply Moves.foldl
    | with_reducible apply Moves.foldl_snd
    | with_reducible apply Moves.ite_snd
    | with_reducible refine Moves.snd (by assumption) ?_
    | with_reducible intro _
    | dsimp only
    | split

theorem State.uncachedStart_moves (s l g write) : Moves [.egress, .counters, .samples, .irqPending, .requests, .coherence, .chans, .dram] s (State.uncachedStart s l g write) := by
  unfold State.uncachedStart
  try dsimp only
  repeat' first
    | with_reducible apply Moves.refl
    | with_reducible apply Moves.ite
    | ((with_reducible apply Moves.call (State.setDir_moves _ _ _)); rfl)
    | ((with_reducible apply Moves.call (State.snoopAll_moves _ _ _ _)); rfl)
    | ((with_reducible apply Moves.call (State.recall_moves _ _ _)); rfl)
    | (simp only [moves_mk]; refine Moves.record ?_)
    | with_reducible apply Moves.foldl
    | with_reducible apply Moves.foldl_snd
    | with_reducible apply Moves.ite_snd
    | with_reducible refine Moves.snd (by assumption) ?_
    | with_reducible intro _
    | dsimp only
    | split

theorem State.hearthWait_moves (s t l write) : Moves [.egress, .counters, .samples, .irqPending, .requests, .coherence, .chans, .dram] s (State.hearthWait s t l write) := by
  unfold State.hearthWait
  try dsimp only
  repeat' first
    | with_reducible apply Moves.refl
    | with_reducible apply Moves.ite
    | ((with_reducible apply Moves.call (State.onReq_moves _ _ _)); rfl)
    | ((with_reducible apply Moves.call (State.hqueue_moves _ _ _)); rfl)
    | ((with_reducible apply Moves.call (State.uncachedStart_moves _ _ _ _)); rfl)
    | (simp only [moves_mk]; refine Moves.record ?_)
    | with_reducible apply Moves.foldl
    | with_reducible apply Moves.foldl_snd
    | with_reducible apply Moves.ite_snd
    | with_reducible refine Moves.snd (by assumption) ?_
    | with_reducible intro _
    | dsimp only
    | split

theorem State.countLedger_moves (s ev sel) : Moves [.counters, .irqPending] s (State.countLedger s ev sel) := by
  unfold State.countLedger
  try dsimp only
  repeat' first
    | with_reducible apply Moves.refl
    | with_reducible apply Moves.ite
    | ((with_reducible apply Moves.call (State.count_moves _ _ _ _ _)); rfl)
    | (simp only [moves_mk]; refine Moves.record ?_)
    | with_reducible apply Moves.foldl
    | with_reducible apply Moves.foldl_snd
    | with_reducible apply Moves.ite_snd
    | with_reducible refine Moves.snd (by assumption) ?_
    | with_reducible intro _
    | dsimp only
    | split

theorem State.useFree_moves (s n) : Moves [.free] s (State.useFree s n) := by
  unfold State.useFree
  try dsimp only
  repeat' first
    | with_reducible apply Moves.refl
    | with_reducible apply Moves.ite
    | (simp only [moves_mk]; refine Moves.record ?_)
    | with_reducible apply Moves.foldl
    | with_reducible apply Moves.foldl_snd
    | with_reducible apply Moves.ite_snd
    | with_reducible refine Moves.snd (by assumption) ?_
    | with_reducible intro _
    | dsimp only
    | split

theorem State.lrcLook_moves (s pa gid) : Moves [.counters, .irqPending, .lrc, .free] s (State.lrcLook s pa gid).2 := by
  unfold State.lrcLook
  try dsimp only
  repeat' first
    | with_reducible apply Moves.refl
    | with_reducible apply Moves.ite
    | ((with_reducible apply Moves.call (State.countLedger_moves _ _ _)); rfl)
    | ((with_reducible apply Moves.call (State.useFree_moves _ _)); rfl)
    | (simp only [moves_mk]; refine Moves.record ?_)
    | with_reducible apply Moves.foldl
    | with_reducible apply Moves.foldl_snd
    | with_reducible apply Moves.ite_snd
    | with_reducible refine Moves.snd (by assumption) ?_
    | with_reducible intro _
    | dsimp only
    | split

theorem State.countChan_moves (s ch ev sel) : Moves [.counters, .irqPending] s (State.countChan s ch ev sel) := by
  unfold State.countChan
  try dsimp only
  repeat' first
    | with_reducible apply Moves.refl
    | with_reducible apply Moves.ite
    | ((with_reducible apply Moves.call (State.count_moves _ _ _ _ _)); rfl)
    | (simp only [moves_mk]; refine Moves.record ?_)
    | with_reducible apply Moves.foldl
    | with_reducible apply Moves.foldl_snd
    | with_reducible apply Moves.ite_snd
    | with_reducible refine Moves.snd (by assumption) ?_
    | with_reducible intro _
    | dsimp only
    | split

theorem State.corrected_moves (s ch line source synds) : Moves [.counters, .irqPending, .chans] s (State.corrected s ch line source synds) := by
  unfold State.corrected
  try dsimp only
  repeat' first
    | with_reducible apply Moves.refl
    | with_reducible apply Moves.ite
    | ((with_reducible apply Moves.call (State.onChan_moves _ _ _)); rfl)
    | ((with_reducible apply Moves.call (State.countChan_moves _ _ _ _)); rfl)
    | (simp only [moves_mk]; refine Moves.record ?_)
    | with_reducible apply Moves.foldl
    | with_reducible apply Moves.foldl_snd
    | with_reducible apply Moves.ite_snd
    | with_reducible refine Moves.snd (by assumption) ?_
    | with_reducible intro _
    | dsimp only
    | split

theorem State.readStored_moves (s ch line source e1 e2) : Moves [.counters, .irqPending, .chans, .dram] s (State.readStored s ch line source e1 e2).2 := by
  unfold State.readStored
  try dsimp only
  repeat' first
    | with_reducible apply Moves.refl
    | with_reducible apply Moves.ite
    | ((with_reducible apply Moves.call (State.corrected_moves _ _ _ _ _)); rfl)
    | ((with_reducible apply Moves.call (State.countChan_moves _ _ _ _)); rfl)
    | ((with_reducible apply Moves.call (State.putLine_moves _ _ _ _ _)); rfl)
    | ((with_reducible apply Moves.call (State.onChan_moves _ _ _)); rfl)
    | (simp only [moves_mk]; refine Moves.record ?_)
    | with_reducible apply Moves.foldl
    | with_reducible apply Moves.foldl_snd
    | with_reducible apply Moves.ite_snd
    | with_reducible refine Moves.snd (by assumption) ?_
    | with_reducible intro _
    | dsimp only
    | split

theorem State.log.appendLog_moves (s e) : Moves [.log, .out] s (State.log.appendLog s e) := by
  have step : ∀ l p : List LogRec, l.length ≤ 65536 → (s.obs.preserved.length ≤ 64 → p.length ≤ 64) → Moves [.log, .out] s
      { s with obs := { s.obs with log := l, logTail := (s.obs.logTail + 1) % 2 ^ 32, preserved := p } } := by
    intro l p hl hp
    simp only [moves_mk]
    exact Moves.record (Moves.refl _ _) (k_obs := fun h => ⟨hl, hp h.2.1, Nat.mod_lt _ (by decide), h.2.2.2⟩)
  have kept : ∀ p : List LogRec, p.length ≤ 64 → (if 2 ≤ e.sev then (e :: p).take 64 else p).length ≤ 64 := by
    intro p hp
    split
    · exact List.length_take_le _ _
    · exact hp
  unfold State.log.appendLog
  dsimp only
  have h := step _ _ (List.length_take_le 65536 (e :: s.obs.log)) (kept s.obs.preserved)
  generalize List.take 65536 (e :: s.obs.log) = log at h ⊢
  split
  · exact Moves.call (State.emit_moves _ _) (by rfl) h
  · exact h

theorem State.log_moves (s ty die w2 w3 w4 w5) : Moves [.log, .out] s (State.log s ty die w2 w3 w4 w5) := by
  unfold State.log
  dsimp only
  split
  · split
    · simp only [moves_mk]
      exact Moves.record (Moves.refl _ _) (k_obs := fun h => ⟨by simpa [raiseCount] using h.1, by simpa [raiseCount] using h.2.1, h.2.2.1, h.2.2.2⟩)
    · exact Moves.mono (State.log.appendLog_moves _ _) rfl
  · exact Moves.mono (State.log.appendLog_moves _ _) rfl

theorem State.memIrq_moves (s ch) : Moves [.irqPending] s (State.memIrq s ch) := by
  unfold State.memIrq
  try dsimp only
  repeat' first
    | with_reducible apply Moves.refl
    | with_reducible apply Moves.ite
    | ((with_reducible apply Moves.call (State.irqEdge_moves _ _)); rfl)
    | (simp only [moves_mk]; refine Moves.record ?_)
    | with_reducible apply Moves.foldl
    | with_reducible apply Moves.foldl_snd
    | with_reducible apply Moves.ite_snd
    | with_reducible refine Moves.snd (by assumption) ?_
    | with_reducible intro _
    | dsimp only
    | split

theorem State.onGuest_moves (s gid f) : Moves [.guests] s (State.onGuest s gid f) := by
  unfold State.onGuest
  try dsimp only
  repeat' first
    | with_reducible apply Moves.refl
    | with_reducible apply Moves.ite
    | (simp only [moves_mk]; refine Moves.record ?_)
    | with_reducible apply Moves.foldl
    | with_reducible apply Moves.foldl_snd
    | with_reducible apply Moves.ite_snd
    | with_reducible refine Moves.snd (by assumption) ?_
    | with_reducible intro _
    | dsimp only
    | split

theorem State.streamError_moves (s k status) : Moves [.egress, .counters, .samples, .irqPending, .requests, .streams] s (State.streamError s k status) := by
  unfold State.streamError
  try dsimp only
  repeat' first
    | with_reducible apply Moves.refl
    | with_reducible apply Moves.ite
    | ((with_reducible apply Moves.call (State.originate_moves _ _ _)); rfl)
    | ((with_reducible apply Moves.call (State.irqEdge_moves _ _)); rfl)
    | (simp only [moves_mk]; refine Moves.record ?_)
    | with_reducible apply Moves.foldl
    | with_reducible apply Moves.foldl_snd
    | with_reducible apply Moves.ite_snd
    | with_reducible refine Moves.snd (by assumption) ?_
    | with_reducible intro _
    | dsimp only
    | split

theorem State.guestStreamsError_moves (s gid status) : Moves [.egress, .counters, .samples, .irqPending, .requests, .streams] s (State.guestStreamsError s gid status) := by
  unfold State.guestStreamsError
  try dsimp only
  repeat' first
    | with_reducible apply Moves.refl
    | with_reducible apply Moves.ite
    | ((with_reducible apply Moves.call (State.streamError_moves _ _ _)); rfl)
    | (simp only [moves_mk]; refine Moves.record ?_)
    | with_reducible apply Moves.foldl
    | with_reducible apply Moves.foldl_snd
    | with_reducible apply Moves.ite_snd
    | with_reducible refine Moves.snd (by assumption) ?_
    | with_reducible intro _
    | dsimp only
    | split

theorem State.guestFatal_moves (s gid pa ch) : Moves [.egress, .counters, .samples, .log, .irqPending, .guests, .requests, .streams, .out] s (State.guestFatal s gid pa ch) := by
  unfold State.guestFatal
  try dsimp only
  repeat' first
    | with_reducible apply Moves.refl
    | with_reducible apply Moves.ite
    | ((with_reducible apply Moves.call (State.onGuest_moves _ _ _)); rfl)
    | ((with_reducible apply Moves.call (State.guestStreamsError_moves _ _ _)); rfl)
    | ((with_reducible apply Moves.call (State.memIrq_moves _ _)); rfl)
    | ((with_reducible apply Moves.call (State.log_moves _ _ _ _ _ _ _)); rfl)
    | (simp only [moves_mk]; refine Moves.record ?_)
    | with_reducible apply Moves.foldl
    | with_reducible apply Moves.foldl_snd
    | with_reducible apply Moves.ite_snd
    | with_reducible refine Moves.snd (by assumption) ?_
    | with_reducible intro _
    | dsimp only
    | split

theorem State.reportLost_moves (s ch line pa reader) : Moves [.egress, .counters, .samples, .log, .irqPending, .guests, .requests, .streams, .chans, .out] s (State.reportLost s ch line pa reader) := by
  unfold State.reportLost
  try dsimp only
  repeat' first
    | with_reducible apply Moves.refl
    | with_reducible apply Moves.ite
    | ((with_reducible apply Moves.call (State.onChan_moves _ _ _)); rfl)
    | ((with_reducible apply Moves.call (State.log_moves _ _ _ _ _ _ _)); rfl)
    | ((with_reducible apply Moves.call (State.countChan_moves _ _ _ _)); rfl)
    | ((with_reducible apply Moves.call (State.memIrq_moves _ _)); rfl)
    | ((with_reducible apply Moves.call (State.guestFatal_moves _ _ _ _)); rfl)
    | (simp only [moves_mk]; refine Moves.record ?_)
    | with_reducible apply Moves.foldl
    | with_reducible apply Moves.foldl_snd
    | with_reducible apply Moves.ite_snd
    | with_reducible refine Moves.snd (by assumption) ?_
    | with_reducible intro _
    | dsimp only
    | split

theorem State.poisonLine_moves (s ch line reader) : Moves [.egress, .counters, .samples, .log, .irqPending, .guests, .requests, .streams, .chans, .dram, .out, .free] s (State.poisonLine s ch line reader) := by
  unfold State.poisonLine
  try dsimp only
  repeat' first
    | with_reducible apply Moves.refl
    | with_reducible apply Moves.ite
    | ((with_reducible apply Moves.call (State.reportLost_moves _ _ _ _ _)); rfl)
    | ((with_reducible apply Moves.call (State.useFree_moves _ _)); rfl)
    | ((with_reducible apply Moves.call (State.putLine_moves _ _ _ _ _)); rfl)
    | (simp only [moves_mk]; refine Moves.record ?_)
    | with_reducible apply Moves.foldl
    | with_reducible apply Moves.foldl_snd
    | with_reducible apply Moves.ite_snd
    | with_reducible refine Moves.snd (by assumption) ?_
    | with_reducible intro _
    | dsimp only
    | split

theorem State.reconstruct_moves (s g m line source) : Moves [.counters, .irqPending, .chans, .dram] s (State.reconstruct s g m line source).2 := by
  unfold State.reconstruct
  try dsimp only
  repeat' first
    | with_reducible apply Moves.refl
    | with_reducible apply Moves.ite
    | ((with_reducible apply Moves.call (State.readStored_moves _ _ _ _ _ _)); rfl)
    | (simp only [moves_mk]; refine Moves.record ?_)
    | with_reducible apply Moves.foldl
    | with_reducible apply Moves.foldl_snd
    | with_reducible apply Moves.ite_snd
    | with_reducible refine Moves.snd (by assumption) ?_
    | with_reducible intro _
    | dsimp only
    | split

theorem State.countBuilt_moves (s r ch line m reader) : Moves [.egress, .counters, .samples, .log, .irqPending, .guests, .requests, .streams, .chans, .out] s (State.countBuilt s r ch line m reader) := by
  unfold State.countBuilt
  try dsimp only
  repeat' first
    | with_reducible apply Moves.refl
    | with_reducible apply Moves.ite
    | ((with_reducible apply Moves.call (State.reportLost_moves _ _ _ _ _)); rfl)
    | ((with_reducible apply Moves.call (State.countChan_moves _ _ _ _)); rfl)
    | (simp only [moves_mk]; refine Moves.record ?_)
    | with_reducible apply Moves.foldl
    | with_reducible apply Moves.foldl_snd
    | with_reducible apply Moves.ite_snd
    | with_reducible refine Moves.snd (by assumption) ?_
    | with_reducible intro _
    | dsimp only
    | split

theorem State.fetch_moves (s pl source e1 e2 reader) : Moves [.egress, .counters, .samples, .log, .irqPending, .guests, .requests, .streams, .chans, .dram, .out, .free] s (State.fetch s pl source e1 e2 reader).2 := by
  unfold State.fetch
  try dsimp only
  repeat' first
    | with_reducible apply Moves.refl
    | with_reducible apply Moves.ite
    | ((with_reducible apply Moves.call (State.readStored_moves _ _ _ _ _ _)); rfl)
    | ((with_reducible apply Moves.call (State.poisonLine_moves _ _ _ _)); rfl)
    | ((with_reducible apply Moves.call (State.reconstruct_moves _ _ _ _ _)); rfl)
    | ((with_reducible apply Moves.call (State.countBuilt_moves _ _ _ _ _ _)); rfl)
    | ((with_reducible apply Moves.call (State.countChan_moves _ _ _ _)); rfl)
    | ((with_reducible apply Moves.call (State.putLine_moves _ _ _ _ _)); rfl)
    | ((with_reducible apply Moves.call (State.onChan_moves _ _ _)); rfl)
    | ((with_reducible apply Moves.call (State.log_moves _ _ _ _ _ _ _)); rfl)
    | (simp only [moves_mk]; refine Moves.record ?_)
    | with_reducible apply Moves.foldl
    | with_reducible apply Moves.foldl_snd
    | with_reducible apply Moves.ite_snd
    | with_reducible refine Moves.snd (by assumption) ?_
    | with_reducible intro _
    | dsimp only
    | split

theorem State.keyLook_moves (s ch pa gid) : Moves [.counters, .irqPending, .keyCaches] s (State.keyLook s ch pa gid) := by
  unfold State.keyLook
  try dsimp only
  repeat' first
    | with_reducible apply Moves.refl
    | with_reducible apply Moves.ite
    | ((with_reducible apply Moves.call (State.countChan_moves _ _ _ _)); rfl)
    | (simp only [moves_mk]; refine Moves.record ?_)
    | with_reducible apply Moves.foldl
    | with_reducible apply Moves.foldl_snd
    | with_reducible apply Moves.ite_snd
    | with_reducible refine Moves.snd (by assumption) ?_
    | with_reducible intro _
    | dsimp only
    | split

theorem State.readLine_moves (s pa gid e1 e2) : Moves [.egress, .counters, .samples, .log, .irqPending, .keyCaches, .guests, .requests, .streams, .chans, .dram, .out, .free] s (State.readLine s pa gid e1 e2).2 := by
  unfold State.readLine
  try dsimp only
  repeat' first
    | with_reducible apply Moves.refl
    | with_reducible apply Moves.ite
    | ((with_reducible apply Moves.call (State.fetch_moves _ _ _ _ _ _)); rfl)
    | ((with_reducible apply Moves.call (State.keyLook_moves _ _ _ _)); rfl)
    | (simp only [moves_mk]; refine Moves.record ?_)
    | with_reducible apply Moves.foldl
    | with_reducible apply Moves.foldl_snd
    | with_reducible apply Moves.ite_snd
    | with_reducible refine Moves.snd (by assumption) ?_
    | with_reducible intro _
    | dsimp only
    | split

theorem State.queueBurst_moves (s pa b) : Moves [.samples, .chans] s (State.queueBurst s pa b) := by
  unfold State.queueBurst
  try dsimp only
  repeat' first
    | with_reducible apply Moves.refl
    | with_reducible apply Moves.ite
    | ((with_reducible apply Moves.call (State.enterQ_moves _ _ _)); rfl)
    | ((with_reducible apply Moves.call (State.onChan_moves _ _ _)); rfl)
    | (simp only [moves_mk]; refine Moves.record ?_)
    | with_reducible apply Moves.foldl
    | with_reducible apply Moves.foldl_snd
    | with_reducible apply Moves.ite_snd
    | with_reducible refine Moves.snd (by assumption) ?_
    | with_reducible intro _
    | dsimp only
    | split

theorem State.queueRead_moves (s pa t) : Moves [.samples, .chans] s (State.queueRead s pa t) := by
  unfold State.queueRead
  try dsimp only
  repeat' first
    | with_reducible apply Moves.refl
    | with_reducible apply Moves.ite
    | ((with_reducible apply Moves.call (State.queueBurst_moves _ _ _)); rfl)
    | (simp only [moves_mk]; refine Moves.record ?_)
    | with_reducible apply Moves.foldl
    | with_reducible apply Moves.foldl_snd
    | with_reducible apply Moves.ite_snd
    | with_reducible refine Moves.snd (by assumption) ?_
    | with_reducible intro _
    | dsimp only
    | split

theorem State.lrcFill_moves (s pa gid d) : Moves [.lrc] s (State.lrcFill s pa gid d) := by
  unfold State.lrcFill
  try dsimp only
  repeat' first
    | with_reducible apply Moves.refl
    | with_reducible apply Moves.ite
    | (simp only [moves_mk]; refine Moves.record ?_)
    | with_reducible apply Moves.foldl
    | with_reducible apply Moves.foldl_snd
    | with_reducible apply Moves.ite_snd
    | with_reducible refine Moves.snd (by assumption) ?_
    | with_reducible intro _
    | dsimp only
    | split

theorem State.needLine_moves (s t r pa lrc) : Moves [.egress, .counters, .samples, .log, .irqPending, .keyCaches, .guests, .requests, .lrc, .streams, .chans, .dram, .out, .free] s (State.needLine s t r pa lrc) := by
  unfold State.needLine
  try dsimp only
  repeat' first
    | with_reducible apply Moves.refl
    | with_reducible apply Moves.ite
    | ((with_reducible apply Moves.call (State.onReq_moves _ _ _)); rfl)
    | ((with_reducible apply Moves.call (State.lrcLook_moves _ _ _)); rfl)
    | ((with_reducible apply Moves.call (State.readLine_moves _ _ _ _ _)); rfl)
    | ((with_reducible apply Moves.call (State.queueRead_moves _ _ _)); rfl)
    | ((with_reducible apply Moves.call (State.lrcFill_moves _ _ _ _)); rfl)
    | (simp only [moves_mk]; refine Moves.record ?_)
    | with_reducible apply Moves.foldl
    | with_reducible apply Moves.foldl_snd
    | with_reducible apply Moves.ite_snd
    | with_reducible refine Moves.snd (by assumption) ?_
    | with_reducible intro _
    | dsimp only
    | split

theorem State.freeTracker_moves (s t) : Moves [.requests] s (State.freeTracker s t) := by
  unfold State.freeTracker
  try dsimp only
  repeat' first
    | with_reducible apply Moves.refl
    | with_reducible apply Moves.ite
    | ((with_reducible apply Moves.call (State.settleTrk_moves _)); rfl)
    | (simp only [moves_mk]; refine Moves.record ?_)
    | with_reducible apply Moves.foldl
    | with_reducible apply Moves.foldl_snd
    | with_reducible apply Moves.ite_snd
    | with_reducible refine Moves.snd (by assumption) ?_
    | with_reducible intro _
    | dsimp only
    | split

theorem State.dropPkt_moves (s l sel) : Moves [.counters, .irqPending] s (State.dropPkt s l sel) := by
  unfold State.dropPkt
  try dsimp only
  repeat' first
    | with_reducible apply Moves.refl
    | with_reducible apply Moves.ite
    | ((with_reducible apply Moves.call (State.countLink_moves _ _ _ _)); rfl)
    | (simp only [moves_mk]; refine Moves.record ?_)
    | with_reducible apply Moves.foldl
    | with_reducible apply Moves.foldl_snd
    | with_reducible apply Moves.ite_snd
    | with_reducible refine Moves.snd (by assumption) ?_
    | with_reducible intro _
    | dsimp only
    | split

theorem State.endReq_moves (s t status data poi) : Moves [.egress, .counters, .samples, .irqPending, .requests] s (State.endReq s t status data poi) := by
  unfold State.endReq
  try dsimp only
  repeat' first
    | with_reducible apply Moves.refl
    | with_reducible apply Moves.ite
    | ((with_reducible apply Moves.call (State.freeTracker_moves _ _)); rfl)
    | ((with_reducible apply Moves.call (State.onReq_moves _ _ _)); rfl)
    | ((with_reducible apply Moves.call (State.dropPkt_moves _ _ _)); rfl)
    | ((with_reducible apply Moves.call (State.originate_moves _ _ _)); rfl)
    | (simp only [moves_mk]; refine Moves.record ?_)
    | with_reducible apply Moves.foldl
    | with_reducible apply Moves.foldl_snd
    | with_reducible apply Moves.ite_snd
    | with_reducible refine Moves.snd (by assumption) ?_
    | with_reducible intro _
    | dsimp only
    | split

theorem State.load_moves (s t r) : Moves [.egress, .counters, .samples, .log, .irqPending, .keyCaches, .guests, .requests, .lrc, .coherence, .streams, .chans, .dram, .out, .free] s (State.load s t r) := by
  unfold State.load
  try dsimp only
  repeat' first
    | with_reducible apply Moves.refl
    | with_reducible apply Moves.ite
    | ((with_reducible apply Moves.call (State.hearthWait_moves _ _ _ _)); rfl)
    | ((with_reducible apply Moves.call (State.needLine_moves _ _ _ _ _)); rfl)
    | ((with_reducible apply Moves.call (State.endReq_moves _ _ _ _ _)); rfl)
    | ((with_reducible apply Moves.call (State.onReq_moves _ _ _)); rfl)
    | (simp only [moves_mk]; refine Moves.record ?_)
    | with_reducible apply Moves.foldl
    | with_reducible apply Moves.foldl_snd
    | with_reducible apply Moves.ite_snd
    | with_reducible refine Moves.snd (by assumption) ?_
    | with_reducible intro _
    | dsimp only
    | split

theorem State.drainLine_moves (s ch line) : Moves [.egress, .counters, .samples, .log, .irqPending, .keyCaches, .guests, .requests, .streams, .chans, .dram, .out, .free] s (State.drainLine s ch line) := by
  unfold State.drainLine
  try dsimp only
  repeat' first
    | with_reducible apply Moves.refl
    | with_reducible apply Moves.ite
    | ((with_reducible apply Moves.call (State.onChan_moves _ _ _)); rfl)
    | ((with_reducible apply Moves.call (State.fetch_moves _ _ _ _ _ _)); rfl)
    | ((with_reducible apply Moves.call (State.keyLook_moves _ _ _ _)); rfl)
    | ((with_reducible apply Moves.call (State.countChan_moves _ _ _ _)); rfl)
    | ((with_reducible apply Moves.call (State.putLine_moves _ _ _ _ _)); rfl)
    | ((with_reducible apply Moves.call (State.sendDelta_moves _ _ _ _ _ _)); rfl)
    | ((with_reducible apply Moves.call (State.leaveQ_moves _ _ _)); rfl)
    | (simp only [moves_mk]; refine Moves.record ?_)
    | with_reducible apply Moves.foldl
    | with_reducible apply Moves.foldl_snd
    | with_reducible apply Moves.ite_snd
    | with_reducible refine Moves.snd (by assumption) ?_
    | with_reducible intro _
    | dsimp only
    | split

theorem State.discardQ_moves (s qid item) : Moves [.samples] s (State.discardQ s qid item) := by
  unfold State.discardQ
  try dsimp only
  repeat' first
    | with_reducible apply Moves.refl
    | with_reducible apply Moves.ite
    | (simp only [moves_mk]; refine Moves.record ?_)
    | with_reducible apply Moves.foldl
    | with_reducible apply Moves.foldl_snd
    | with_reducible apply Moves.ite_snd
    | with_reducible refine Moves.snd (by assumption) ?_
    | with_reducible intro _
    | dsimp only
    | split

theorem State.clearForeign_moves (s pa gid) : Moves [.egress, .counters, .samples, .log, .irqPending, .keyCaches, .guests, .requests, .streams, .chans, .dram, .out, .free] s (State.clearForeign s pa gid) := by
  unfold State.clearForeign
  try dsimp only
  repeat' first
    | with_reducible apply Moves.refl
    | with_reducible apply Moves.ite
    | ((with_reducible apply Moves.call (State.drainLine_moves _ _ _)); rfl)
    | ((with_reducible apply Moves.call (State.discardQ_moves _ _ _)); rfl)
    | ((with_reducible apply Moves.call (State.onChan_moves _ _ _)); rfl)
    | (simp only [moves_mk]; refine Moves.record ?_)
    | with_reducible apply Moves.foldl
    | with_reducible apply Moves.foldl_snd
    | with_reducible apply Moves.ite_snd
    | with_reducible refine Moves.snd (by assumption) ?_
    | with_reducible intro _
    | dsimp only
    | split

theorem State.wcbWrite_moves (s pa gid bs poison) : Moves [.egress, .counters, .samples, .log, .irqPending, .keyCaches, .guests, .requests, .streams, .chans, .dram, .out, .free] s (State.wcbWrite s pa gid bs poison) := by
  unfold State.wcbWrite
  try dsimp only
  repeat' first
    | with_reducible apply Moves.refl
    | with_reducible apply Moves.ite
    | ((with_reducible apply Moves.call (State.clearForeign_moves _ _ _)); rfl)
    | ((with_reducible apply Moves.call (State.onChan_moves _ _ _)); rfl)
    | ((with_reducible apply Moves.call (State.enterQ_moves _ _ _)); rfl)
    | ((with_reducible apply Moves.call (State.countChan_moves _ _ _ _)); rfl)
    | (simp only [moves_mk]; refine Moves.record ?_)
    | with_reducible apply Moves.foldl
    | with_reducible apply Moves.foldl_snd
    | with_reducible apply Moves.ite_snd
    | with_reducible refine Moves.snd (by assumption) ?_
    | with_reducible intro _
    | dsimp only
    | split

theorem State.wcbPut_moves (s pa gid bs poison) : Moves [.egress, .counters, .samples, .log, .irqPending, .keyCaches, .guests, .requests, .streams, .chans, .dram, .out, .free] s (State.wcbPut s pa gid bs poison) := by
  unfold State.wcbPut
  try dsimp only
  repeat' first
    | with_reducible apply Moves.refl
    | with_reducible apply Moves.ite
    | ((with_reducible apply Moves.call (State.wcbWrite_moves _ _ _ _ _)); rfl)
    | ((with_reducible apply Moves.call (State.drainLine_moves _ _ _)); rfl)
    | (simp only [moves_mk]; refine Moves.record ?_)
    | with_reducible apply Moves.foldl
    | with_reducible apply Moves.foldl_snd
    | with_reducible apply Moves.ite_snd
    | with_reducible refine Moves.snd (by assumption) ?_
    | with_reducible intro _
    | dsimp only
    | split

theorem State.hwrite_moves (s l d poi) : Moves [.egress, .counters, .samples, .log, .irqPending, .keyCaches, .guests, .requests, .streams, .chans, .dram, .out, .free] s (State.hwrite s l d poi) := by
  unfold State.hwrite
  try dsimp only
  repeat' first
    | with_reducible apply Moves.refl
    | with_reducible apply Moves.ite
    | ((with_reducible apply Moves.call (State.wcbPut_moves _ _ _ _ _)); rfl)
    | (simp only [moves_mk]; refine Moves.record ?_)
    | with_reducible apply Moves.foldl
    | with_reducible apply Moves.foldl_snd
    | with_reducible apply Moves.ite_snd
    | with_reducible refine Moves.snd (by assumption) ?_
    | with_reducible intro _
    | dsimp only
    | split

theorem State.hdone_moves (s t) : Moves [.counters, .irqPending, .requests] s (State.hdone s t) := by
  unfold State.hdone
  try dsimp only
  repeat' first
    | with_reducible apply Moves.refl
    | with_reducible apply Moves.ite
    | ((with_reducible apply Moves.call (State.countLedger_moves _ _ _)); rfl)
    | ((with_reducible apply Moves.call (State.freeTracker_moves _ _)); rfl)
    | (simp only [moves_mk]; refine Moves.record ?_)
    | with_reducible apply Moves.foldl
    | with_reducible apply Moves.foldl_snd
    | with_reducible apply Moves.ite_snd
    | with_reducible refine Moves.snd (by assumption) ?_
    | with_reducible intro _
    | dsimp only
    | split

theorem State.grantMsg_moves (s t r opc data poi) : Moves [.egress, .counters, .samples, .irqPending, .requests] s (State.grantMsg s t r opc data poi) := by
  unfold State.grantMsg
  try dsimp only
  repeat' first
    | with_reducible apply Moves.refl
    | with_reducible apply Moves.ite
    | ((with_reducible apply Moves.call (State.originate_moves _ _ _)); rfl)
    | ((with_reducible apply Moves.call (State.onReq_moves _ _ _)); rfl)
    | (simp only [moves_mk]; refine Moves.record ?_)
    | with_reducible apply Moves.foldl
    | with_reducible apply Moves.foldl_snd
    | with_reducible apply Moves.ite_snd
    | with_reducible refine Moves.snd (by assumption) ?_
    | with_reducible intro _
    | dsimp only
    | split

theorem State.hread_moves (s l) : Moves [.egress, .counters, .samples, .log, .irqPending, .keyCaches, .guests, .requests, .streams, .chans, .dram, .out, .free] s (State.hread s l).2 := by
  unfold State.hread
  try dsimp only
  repeat' first
    | with_reducible apply Moves.refl
    | with_reducible apply Moves.ite
    | ((with_reducible apply Moves.call (State.readLine_moves _ _ _ _ _)); rfl)
    | (simp only [moves_mk]; refine Moves.record ?_)
    | with_reducible apply Moves.foldl
    | with_reducible apply Moves.foldl_snd
    | with_reducible apply Moves.ite_snd
    | with_reducible refine Moves.snd (by assumption) ?_
    | with_reducible intro _
    | dsimp only
    | split

theorem State.dropDir_moves (s l) : Moves [.coherence, .chans, .dram] s (State.dropDir s l) := by
  unfold State.dropDir
  try dsimp only
  repeat' first
    | with_reducible apply Moves.refl
    | with_reducible apply Moves.ite
    | ((with_reducible apply Moves.call (State.hint_moves _ _ _)); rfl)
    | (simp only [moves_mk]; refine Moves.record ?_)
    | with_reducible apply Moves.foldl
    | with_reducible apply Moves.foldl_snd
    | with_reducible apply Moves.ite_snd
    | with_reducible refine Moves.snd (by assumption) ?_
    | with_reducible intro _
    | dsimp only
    | split

theorem State.hfinish_moves (s l d) : Moves [.egress, .counters, .samples, .log, .irqPending, .keyCaches, .guests, .requests, .coherence, .streams, .chans, .dram, .out, .free] s (State.hfinish s l d) := by
  unfold State.hfinish
  try dsimp only
  repeat' first
    | with_reducible apply Moves.refl
    | with_reducible apply Moves.ite
    | ((with_reducible apply Moves.call (State.hwrite_moves _ _ _ _)); rfl)
    | ((with_reducible apply Moves.call (State.setDir_moves _ _ _)); rfl)
    | ((with_reducible apply Moves.call (State.hdone_moves _ _)); rfl)
    | ((with_reducible apply Moves.call (State.grantMsg_moves _ _ _ _ _ _)); rfl)
    | ((with_reducible apply Moves.call (State.hread_moves _ _)); rfl)
    | ((with_reducible apply Moves.call (State.dropDir_moves _ _)); rfl)
    | (simp only [moves_mk]; refine Moves.record ?_)
    | with_reducible apply Moves.foldl
    | with_reducible apply Moves.foldl_snd
    | with_reducible apply Moves.ite_snd
    | with_reducible refine Moves.snd (by assumption) ?_
    | with_reducible intro _
    | dsimp only
    | split

end Sys2Proof.Machine
end

