-- ==== Sys2Proof/Laws/Moves2.lean ====
section
/-! SUPPORT. One lemma for each operation: the parts of the state it may change, and that it keeps what every operation keeps
(Laws/Moves). Part 2 of 8, in the order in which the operations call one another. -/

namespace Sys2Proof.Machine

open Sys2Proof

set_option linter.all false

-- One proof after the other: in parallel, each waits in a thread of its own for the same lemma of `simp only`.
set_option Elab.async false

theorem State.flushLine_moves (s l d ce) : Moves [.egress, .counters, .samples, .log, .irqPending, .keyCaches, .guests, .requests, .coherence, .streams, .chans, .dram, .out, .free] s (State.flushLine s l d ce) := by
  unfold State.flushLine
  try dsimp only
  repeat' first
    | with_reducible apply Moves.refl
    | with_reducible apply Moves.ite
    | ((with_reducible apply Moves.call (State.setDir_moves _ _ _)); rfl)
    | ((with_reducible apply Moves.call (State.recall_moves _ _ _)); rfl)
    | ((with_reducible apply Moves.call (State.snoopAll_moves _ _ _ _)); rfl)
    | ((with_reducible apply Moves.call (State.hfinish_moves _ _ _)); rfl)
    | (simp only [moves_mk]; refine Moves.record ?_)
    | with_reducible apply Moves.foldl
    | with_reducible apply Moves.foldl_snd
    | with_reducible apply Moves.ite_snd
    | with_reducible refine Moves.snd (by assumption) ?_
    | with_reducible intro _
    | dsimp only
    | split

theorem State.setReg_moves (s k v) : Moves [.regs] s (State.setReg s k v) := by
  unfold State.setReg
  try dsimp only
  repeat' first
    | with_reducible apply Moves.refl
    | with_reducible apply Moves.ite
    | (simp only [moves_mk]; refine Moves.record ?_)
    | with_reducible apply Moves.foldl
    | with_reducible apply Moves.foldl_snd
    | with_reducible apply Moves.ite_snd
    | with_reducible refine Moves.snd (by assumption) ?_
    | with_reducible intro _
    | dsimp only
    | split

theorem State.flushOn_moves (s) : Moves [.regs, .egress, .counters, .samples, .log, .irqPending, .keyCaches, .guests, .requests, .coherence, .streams, .chans, .dram, .out, .free] s (State.flushOn s) := by
  unfold State.flushOn
  try dsimp only
  repeat' first
    | with_reducible apply Moves.refl
    | with_reducible apply Moves.ite
    | ((with_reducible apply Moves.call (State.flushLine_moves _ _ _ _)); rfl)
    | ((with_reducible apply Moves.call (State.setReg_moves _ _ _)); rfl)
    | (simp only [moves_mk]; refine Moves.record ?_)
    | with_reducible apply Moves.foldl
    | with_reducible apply Moves.foldl_snd
    | with_reducible apply Moves.ite_snd
    | with_reducible refine Moves.snd (by assumption) ?_
    | with_reducible intro _
    | dsimp only
    | split

theorem State.uncachedFree_moves (s mine) : Moves [.regs, .egress, .counters, .samples, .log, .irqPending, .keyCaches, .guests, .requests, .coherence, .streams, .chans, .dram, .out, .free] s (State.uncachedFree s mine) := by
  unfold State.uncachedFree
  try dsimp only
  repeat' first
    | with_reducible apply Moves.refl
    | with_reducible apply Moves.ite
    | ((with_reducible apply Moves.call (State.flushOn_moves _)); rfl)
    | ((with_reducible apply Moves.call (State.dropDir_moves _ _)); rfl)
    | (simp only [moves_mk]; refine Moves.record ?_)
    | with_reducible apply Moves.foldl
    | with_reducible apply Moves.foldl_snd
    | with_reducible apply Moves.ite_snd
    | with_reducible refine Moves.snd (by assumption) ?_
    | with_reducible intro _
    | dsimp only
    | split

theorem State.ackReq_moves (s t status data poi) : Moves [.regs, .egress, .counters, .samples, .log, .irqPending, .keyCaches, .guests, .requests, .coherence, .streams, .chans, .dram, .out, .free] s (State.ackReq s t status data poi) := by
  unfold State.ackReq
  try dsimp only
  repeat' first
    | with_reducible apply Moves.refl
    | with_reducible apply Moves.ite
    | ((with_reducible apply Moves.call (State.uncachedFree_moves _ _)); rfl)
    | ((with_reducible apply Moves.call (State.endReq_moves _ _ _ _ _)); rfl)
    | (simp only [moves_mk]; refine Moves.record ?_)
    | with_reducible apply Moves.foldl
    | with_reducible apply Moves.foldl_snd
    | with_reducible apply Moves.ite_snd
    | with_reducible refine Moves.snd (by assumption) ?_
    | with_reducible intro _
    | dsimp only
    | split

theorem State.store_moves (s t r) : Moves [.regs, .egress, .counters, .samples, .log, .irqPending, .keyCaches, .guests, .requests, .coherence, .streams, .chans, .dram, .out, .free] s (State.store s t r) := by
  unfold State.store
  try dsimp only
  repeat' first
    | with_reducible apply Moves.refl
    | with_reducible apply Moves.ite
    | ((with_reducible apply Moves.call (State.hearthWait_moves _ _ _ _)); rfl)
    | ((with_reducible apply Moves.call (State.ackReq_moves _ _ _ _ _)); rfl)
    | ((with_reducible apply Moves.call (State.wcbWrite_moves _ _ _ _ _)); rfl)
    | ((with_reducible apply Moves.call (State.onReq_moves _ _ _)); rfl)
    | (simp only [moves_mk]; refine Moves.record ?_)
    | with_reducible apply Moves.foldl
    | with_reducible apply Moves.foldl_snd
    | with_reducible apply Moves.ite_snd
    | with_reducible refine Moves.snd (by assumption) ?_
    | with_reducible intro _
    | dsimp only
    | split

theorem State.atomic_moves (s t r) : Moves [.regs, .egress, .counters, .samples, .log, .irqPending, .keyCaches, .guests, .requests, .lrc, .coherence, .streams, .chans, .dram, .out, .free] s (State.atomic s t r) := by
  unfold State.atomic
  try dsimp only
  repeat' first
    | with_reducible apply Moves.refl
    | with_reducible apply Moves.ite
    | ((with_reducible apply Moves.call (State.hearthWait_moves _ _ _ _)); rfl)
    | ((with_reducible apply Moves.call (State.needLine_moves _ _ _ _ _)); rfl)
    | ((with_reducible apply Moves.call (State.onReq_moves _ _ _)); rfl)
    | ((with_reducible apply Moves.call (State.ackReq_moves _ _ _ _ _)); rfl)
    | ((with_reducible apply Moves.call (State.countChan_moves _ _ _ _)); rfl)
    | ((with_reducible apply Moves.call (State.wcbWrite_moves _ _ _ _ _)); rfl)
    | (simp only [moves_mk]; refine Moves.record ?_)
    | with_reducible apply Moves.foldl
    | with_reducible apply Moves.foldl_snd
    | with_reducible apply Moves.ite_snd
    | with_reducible refine Moves.snd (by assumption) ?_
    | with_reducible intro _
    | dsimp only
    | split

theorem State.backInvalidate_moves (s l) : Moves [.egress, .counters, .samples, .log, .irqPending, .keyCaches, .guests, .requests, .coherence, .streams, .chans, .dram, .out, .free] s (State.backInvalidate s l) := by
  unfold State.backInvalidate
  try dsimp only
  repeat' first
    | with_reducible apply Moves.refl
    | with_reducible apply Moves.ite
    | ((with_reducible apply Moves.call (State.countLedger_moves _ _ _)); rfl)
    | ((with_reducible apply Moves.call (State.recall_moves _ _ _)); rfl)
    | ((with_reducible apply Moves.call (State.setDir_moves _ _ _)); rfl)
    | ((with_reducible apply Moves.call (State.hfinish_moves _ _ _)); rfl)
    | (simp only [moves_mk]; refine Moves.record ?_)
    | with_reducible apply Moves.foldl
    | with_reducible apply Moves.foldl_snd
    | with_reducible apply Moves.ite_snd
    | with_reducible refine Moves.snd (by assumption) ?_
    | with_reducible intro _
    | dsimp only
    | split

theorem State.hnew_moves (s l d) : Moves [.coherence, .chans, .dram] s (State.hnew s l d) := by
  unfold State.hnew
  try dsimp only
  repeat' first
    | with_reducible apply Moves.refl
    | with_reducible apply Moves.ite
    | ((with_reducible apply Moves.call (State.setDir_moves _ _ _)); rfl)
    | (simp only [moves_mk]; refine Moves.record ?_)
    | with_reducible apply Moves.foldl
    | with_reducible apply Moves.foldl_snd
    | with_reducible apply Moves.ite_snd
    | with_reducible refine Moves.snd (by assumption) ?_
    | with_reducible intro _
    | dsimp only
    | split

theorem State.serveDI_moves (s t r l c) : Moves [.egress, .counters, .samples, .log, .irqPending, .keyCaches, .guests, .requests, .coherence, .streams, .chans, .dram, .out, .free] s (State.serveDI s t r l c) := by
  unfold State.serveDI
  try dsimp only
  repeat' first
    | with_reducible apply Moves.refl
    | with_reducible apply Moves.ite
    | ((with_reducible apply Moves.call (State.hqueue_moves _ _ _)); rfl)
    | ((with_reducible apply Moves.call (State.backInvalidate_moves _ _)); rfl)
    | ((with_reducible apply Moves.call (State.hread_moves _ _)); rfl)
    | ((with_reducible apply Moves.call (State.hnew_moves _ _ _)); rfl)
    | ((with_reducible apply Moves.call (State.hdone_moves _ _)); rfl)
    | ((with_reducible apply Moves.call (State.grantMsg_moves _ _ _ _ _ _)); rfl)
    | (simp only [moves_mk]; refine Moves.record ?_)
    | with_reducible apply Moves.foldl
    | with_reducible apply Moves.foldl_snd
    | with_reducible apply Moves.ite_snd
    | with_reducible refine Moves.snd (by assumption) ?_
    | with_reducible intro _
    | dsimp only
    | split

theorem State.afterWb_moves (s l d) : Moves [.egress, .counters, .samples, .log, .irqPending, .keyCaches, .guests, .requests, .coherence, .streams, .chans, .dram, .out, .free] s (State.afterWb s l d) := by
  unfold State.afterWb
  try dsimp only
  repeat' first
    | with_reducible apply Moves.refl
    | with_reducible apply Moves.ite
    | ((with_reducible apply Moves.call (State.hwrite_moves _ _ _ _)); rfl)
    | ((with_reducible apply Moves.call (State.dropDir_moves _ _)); rfl)
    | ((with_reducible apply Moves.call (State.serveDI_moves _ _ _ _ _)); rfl)
    | ((with_reducible apply Moves.call (State.hfinish_moves _ _ _)); rfl)
    | ((with_reducible apply Moves.call (State.setDir_moves _ _ _)); rfl)
    | (simp only [moves_mk]; refine Moves.record ?_)
    | with_reducible apply Moves.foldl
    | with_reducible apply Moves.foldl_snd
    | with_reducible apply Moves.ite_snd
    | with_reducible refine Moves.snd (by assumption) ?_
    | with_reducible intro _
    | dsimp only
    | split

theorem State.takeWb_moves (s t r l c) : Moves [.regs, .egress, .counters, .samples, .log, .irqPending, .keyCaches, .guests, .requests, .coherence, .streams, .chans, .dram, .out, .free] s (State.takeWb s t r l c) := by
  unfold State.takeWb
  try dsimp only
  repeat' first
    | with_reducible apply Moves.refl
    | with_reducible apply Moves.ite
    | ((with_reducible apply Moves.call (State.hdone_moves _ _)); rfl)
    | ((with_reducible apply Moves.call (State.grantMsg_moves _ _ _ _ _ _)); rfl)
    | ((with_reducible apply Moves.call (State.countLedger_moves _ _ _)); rfl)
    | ((with_reducible apply Moves.call (State.hwrite_moves _ _ _ _)); rfl)
    | ((with_reducible apply Moves.call (State.flushOn_moves _)); rfl)
    | ((with_reducible apply Moves.call (State.dropDir_moves _ _)); rfl)
    | ((with_reducible apply Moves.call (State.afterWb_moves _ _ _)); rfl)
    | ((with_reducible apply Moves.call (State.setDir_moves _ _ _)); rfl)
    | (simp only [moves_mk]; refine Moves.record ?_)
    | with_reducible apply Moves.foldl
    | with_reducible apply Moves.foldl_snd
    | with_reducible apply Moves.ite_snd
    | with_reducible refine Moves.snd (by assumption) ?_
    | with_reducible intro _
    | dsimp only
    | split

theorem State.serveDX_moves (s t r l c d) : Moves [.egress, .counters, .samples, .irqPending, .requests, .coherence, .chans, .dram] s (State.serveDX s t r l c d) := by
  unfold State.serveDX
  try dsimp only
  repeat' first
    | with_reducible apply Moves.refl
    | with_reducible apply Moves.ite
    | ((with_reducible apply Moves.call (State.onReq_moves _ _ _)); rfl)
    | ((with_reducible apply Moves.call (State.setDir_moves _ _ _)); rfl)
    | ((with_reducible apply Moves.call (State.snoop_moves _ _ _ _ _ _)); rfl)
    | (simp only [moves_mk]; refine Moves.record ?_)
    | with_reducible apply Moves.foldl
    | with_reducible apply Moves.foldl_snd
    | with_reducible apply Moves.ite_snd
    | with_reducible refine Moves.snd (by assumption) ?_
    | with_reducible intro _
    | dsimp only
    | split

theorem State.serveDS_moves (s t r l c d) : Moves [.egress, .counters, .samples, .log, .irqPending, .keyCaches, .guests, .requests, .coherence, .streams, .chans, .dram, .out, .free] s (State.serveDS s t r l c d) := by
  unfold State.serveDS
  try dsimp only
  repeat' first
    | with_reducible apply Moves.refl
    | with_reducible apply Moves.ite
    | ((with_reducible apply Moves.call (State.hread_moves _ _)); rfl)
    | ((with_reducible apply Moves.call (State.hqueue_moves _ _ _)); rfl)
    | ((with_reducible apply Moves.call (State.hdone_moves _ _)); rfl)
    | ((with_reducible apply Moves.call (State.grantMsg_moves _ _ _ _ _ _)); rfl)
    | ((with_reducible apply Moves.call (State.setDir_moves _ _ _)); rfl)
    | ((with_reducible apply Moves.call (State.countN_moves _ _ _ _ _ _)); rfl)
    | ((with_reducible apply Moves.call (State.onReq_moves _ _ _)); rfl)
    | ((with_reducible apply Moves.call (State.snoopAll_moves _ _ _ _)); rfl)
    | (simp only [moves_mk]; refine Moves.record ?_)
    | with_reducible apply Moves.foldl
    | with_reducible apply Moves.foldl_snd
    | with_reducible apply Moves.ite_snd
    | with_reducible refine Moves.snd (by assumption) ?_
    | with_reducible intro _
    | dsimp only
    | split

theorem State.coherent_moves (s t r) : Moves [.regs, .egress, .counters, .samples, .log, .irqPending, .keyCaches, .guests, .requests, .coherence, .streams, .chans, .dram, .out, .free] s (State.coherent s t r) := by
  unfold State.coherent
  try dsimp only
  repeat' first
    | with_reducible apply Moves.refl
    | with_reducible apply Moves.ite
    | ((with_reducible apply Moves.call (State.endReq_moves _ _ _ _ _)); rfl)
    | ((with_reducible apply Moves.call (State.takeWb_moves _ _ _ _ _)); rfl)
    | ((with_reducible apply Moves.call (State.hqueue_moves _ _ _)); rfl)
    | ((with_reducible apply Moves.call (State.serveDI_moves _ _ _ _ _)); rfl)
    | ((with_reducible apply Moves.call (State.serveDX_moves _ _ _ _ _ _)); rfl)
    | ((with_reducible apply Moves.call (State.serveDS_moves _ _ _ _ _ _)); rfl)
    | ((with_reducible apply Moves.call (State.hfinish_moves _ _ _)); rfl)
    | (simp only [moves_mk]; refine Moves.record ?_)
    | with_reducible apply Moves.foldl
    | with_reducible apply Moves.foldl_snd
    | with_reducible apply Moves.ite_snd
    | with_reducible refine Moves.snd (by assumption) ?_
    | with_reducible intro _
    | dsimp only
    | split

theorem State.perform_moves (s t r) : Moves [.regs, .egress, .counters, .samples, .log, .irqPending, .keyCaches, .guests, .requests, .lrc, .coherence, .streams, .chans, .dram, .out, .free] s (State.perform s t r) := by
  unfold State.perform
  try dsimp only
  repeat' first
    | with_reducible apply Moves.refl
    | with_reducible apply Moves.ite
    | ((with_reducible apply Moves.call (State.load_moves _ _ _)); rfl)
    | ((with_reducible apply Moves.call (State.store_moves _ _ _)); rfl)
    | ((with_reducible apply Moves.call (State.atomic_moves _ _ _)); rfl)
    | ((with_reducible apply Moves.call (State.coherent_moves _ _ _)); rfl)
    | (simp only [moves_mk]; refine Moves.record ?_)
    | with_reducible apply Moves.foldl
    | with_reducible apply Moves.foldl_snd
    | with_reducible apply Moves.ite_snd
    | with_reducible refine Moves.snd (by assumption) ?_
    | with_reducible intro _
    | dsimp only
    | split

theorem State.settled_moves (s t r) : Moves [.regs, .egress, .counters, .samples, .log, .irqPending, .keyCaches, .guests, .requests, .lrc, .coherence, .streams, .chans, .dram, .out, .free] s (State.settled s t r) := by
  unfold State.settled
  try dsimp only
  repeat' first
    | with_reducible apply Moves.refl
    | with_reducible apply Moves.ite
    | ((with_reducible apply Moves.call (State.onReq_moves _ _ _)); rfl)
    | ((with_reducible apply Moves.call (State.perform_moves _ _ _)); rfl)
    | (simp only [moves_mk]; refine Moves.record ?_)
    | with_reducible apply Moves.foldl
    | with_reducible apply Moves.foldl_snd
    | with_reducible apply Moves.ite_snd
    | with_reducible refine Moves.snd (by assumption) ?_
    | with_reducible intro _
    | dsimp only
    | split

theorem State.spill_moves (s gid) : Moves [.egress, .counters, .samples, .log, .irqPending, .keyCaches, .guests, .requests, .streams, .chans, .dram, .out, .free] s (State.spill s gid) := by
  unfold State.spill
  try dsimp only
  repeat' first
    | with_reducible apply Moves.refl
    | with_reducible apply Moves.ite
    | ((with_reducible apply Moves.call (State.useFree_moves _ _)); rfl)
    | ((with_reducible apply Moves.call (State.wcbPut_moves _ _ _ _ _)); rfl)
    | ((with_reducible apply Moves.call (State.onGuest_moves _ _ _)); rfl)
    | (simp only [moves_mk]; refine Moves.record ?_)
    | with_reducible apply Moves.foldl
    | with_reducible apply Moves.foldl_snd
    | with_reducible apply Moves.ite_snd
    | with_reducible refine Moves.snd (by assumption) ?_
    | with_reducible intro _
    | dsimp only
    | split

theorem State.swapSlot_moves (s w) : Moves [.egress, .counters, .samples, .log, .irqPending, .keyCaches, .guests, .requests, .streams, .chans, .dram, .out, .free] s (State.swapSlot s w) := by
  unfold State.swapSlot
  try dsimp only
  repeat' first
    | with_reducible apply Moves.refl
    | with_reducible apply Moves.ite
    | ((with_reducible apply Moves.call (State.spill_moves _ _)); rfl)
    | (simp only [moves_mk]; refine Moves.record ?_)
    | with_reducible apply Moves.foldl
    | with_reducible apply Moves.foldl_snd
    | with_reducible apply Moves.ite_snd
    | with_reducible refine Moves.snd (by assumption) ?_
    | with_reducible intro _
    | dsimp only
    | split

theorem State.startSwap_moves (s gid) : Moves [.egress, .counters, .samples, .log, .irqPending, .keyCaches, .guests, .requests, .streams, .chans, .dram, .out, .free] s (State.startSwap s gid) := by
  unfold State.startSwap
  try dsimp only
  repeat' first
    | with_reducible apply Moves.refl
    | with_reducible apply Moves.ite
    | ((with_reducible apply Moves.call (State.countLedger_moves _ _ _)); rfl)
    | ((with_reducible apply Moves.call (State.swapSlot_moves _ _)); rfl)
    | (simp only [moves_mk]; refine Moves.record ?_)
    | with_reducible apply Moves.foldl
    | with_reducible apply Moves.foldl_snd
    | with_reducible apply Moves.ite_snd
    | with_reducible refine Moves.snd (by assumption) ?_
    | with_reducible intro _
    | dsimp only
    | split

theorem State.touchGuest_moves (s gid) : Moves [.guests] s (State.touchGuest s gid) := by
  unfold State.touchGuest
  try dsimp only
  repeat' first
    | with_reducible apply Moves.refl
    | with_reducible apply Moves.ite
    | ((with_reducible apply Moves.call (State.onGuest_moves _ _ _)); rfl)
    | (simp only [moves_mk]; refine Moves.record ?_)
    | with_reducible apply Moves.foldl
    | with_reducible apply Moves.foldl_snd
    | with_reducible apply Moves.ite_snd
    | with_reducible refine Moves.snd (by assumption) ?_
    | with_reducible intro _
    | dsimp only
    | split

theorem State.applyBell_moves (s k tail) : Moves [.streams] s (State.applyBell s k tail) := by
  unfold State.applyBell
  try dsimp only
  repeat' first
    | with_reducible apply Moves.refl
    | with_reducible apply Moves.ite
    | (simp only [moves_mk]; refine Moves.record ?_)
    | with_reducible apply Moves.foldl
    | with_reducible apply Moves.foldl_snd
    | with_reducible apply Moves.ite_snd
    | with_reducible refine Moves.snd (by assumption) ?_
    | with_reducible intro _
    | dsimp only
    | split

theorem State.doorbell_moves (s r) : Moves [.counters, .samples, .irqPending, .streams] s (State.doorbell s r) := by
  unfold State.doorbell
  try dsimp only
  repeat' first
    | with_reducible apply Moves.refl
    | with_reducible apply Moves.ite
    | ((with_reducible apply Moves.call (State.dropPkt_moves _ _ _)); rfl)
    | ((with_reducible apply Moves.call (State.applyBell_moves _ _ _)); rfl)
    | ((with_reducible apply Moves.call (State.enterQ_moves _ _ _)); rfl)
    | (simp only [moves_mk]; refine Moves.record ?_)
    | with_reducible apply Moves.foldl
    | with_reducible apply Moves.foldl_snd
    | with_reducible apply Moves.ite_snd
    | with_reducible refine Moves.snd (by assumption) ?_
    | with_reducible intro _
    | dsimp only
    | split

theorem State.fqAdd_moves (s r) : Moves [.regs, .faults] s (State.fqAdd s r) := by
  unfold State.fqAdd
  try dsimp only
  repeat' first
    | with_reducible apply Moves.refl
    | with_reducible apply Moves.ite
    | ((with_reducible apply Moves.call (State.setReg_moves _ _ _)); rfl)
    | (simp only [moves_mk]; refine Moves.record ?_)
    | with_reducible apply Moves.foldl
    | with_reducible apply Moves.foldl_snd
    | with_reducible apply Moves.ite_snd
    | with_reducible refine Moves.snd (by assumption) ?_
    | with_reducible intro _
    | dsimp only
    | split

theorem State.openFault_moves (s gid level pva write atomic porter) : Moves [.regs, .counters, .irqPending, .faults] s (State.openFault s gid level pva write atomic porter).2 := by
  unfold State.openFault
  try dsimp only
  repeat' first
    | with_reducible apply Moves.refl
    | with_reducible apply Moves.ite
    | ((with_reducible apply Moves.call (State.countLedger_moves _ _ _)); rfl)
    | ((with_reducible apply Moves.call (State.fqAdd_moves _ _)); rfl)
    | (simp only [moves_mk]; refine Moves.record ?_)
    | with_reducible apply Moves.foldl
    | with_reducible apply Moves.foldl_snd
    | with_reducible apply Moves.ite_snd
    | with_reducible refine Moves.snd (by assumption) ?_
    | with_reducible intro _
    | dsimp only
    | split

theorem State.openHold_moves (s gid h porter) : Moves [.regs, .counters, .irqPending, .faults] s (State.openHold s gid h porter).2 := by
  unfold State.openHold
  try dsimp only
  repeat' first
    | with_reducible apply Moves.refl
    | with_reducible apply Moves.ite
    | ((with_reducible apply Moves.call (State.openFault_moves _ _ _ _ _ _ _)); rfl)
    | (simp only [moves_mk]; refine Moves.record ?_)
    | with_reducible apply Moves.foldl
    | with_reducible apply Moves.foldl_snd
    | with_reducible apply Moves.ite_snd
    | with_reducible refine Moves.snd (by assumption) ?_
    | with_reducible intro _
    | dsimp only
    | split

theorem State.holdReq_moves (s t r level pva) : Moves [.regs, .counters, .samples, .irqPending, .requests, .faults] s (State.holdReq s t r level pva) := by
  unfold State.holdReq
  try dsimp only
  repeat' first
    | with_reducible apply Moves.refl
    | with_reducible apply Moves.ite
    | ((with_reducible apply Moves.call (State.openHold_moves _ _ _ _)); rfl)
    | ((with_reducible apply Moves.call (State.enterQ_moves _ _ _)); rfl)
    | ((with_reducible apply Moves.call (State.onReq_moves _ _ _)); rfl)
    | (simp only [moves_mk]; refine Moves.record ?_)
    | with_reducible apply Moves.foldl
    | with_reducible apply Moves.foldl_snd
    | with_reducible apply Moves.ite_snd
    | with_reducible refine Moves.snd (by assumption) ?_
    | with_reducible intro _
    | dsimp only
    | split

theorem State.startFill_moves (s gid level pva pa) : Moves [.lrc] s (State.startFill s gid level pva pa) := by
  unfold State.startFill
  try dsimp only
  repeat' first
    | with_reducible apply Moves.refl
    | with_reducible apply Moves.ite
    | (simp only [moves_mk]; refine Moves.record ?_)
    | with_reducible apply Moves.foldl
    | with_reducible apply Moves.foldl_snd
    | with_reducible apply Moves.ite_snd
    | with_reducible refine Moves.snd (by assumption) ?_
    | with_reducible intro _
    | dsimp only
    | split

theorem State.onPages_moves (s t r outs) : Moves [.regs, .egress, .counters, .samples, .log, .irqPending, .keyCaches, .guests, .requests, .lrc, .faults, .coherence, .streams, .chans, .dram, .out, .free] s (State.onPages s t r outs) := by
  unfold State.onPages
  try dsimp only
  repeat' first
    | with_reducible apply Moves.refl
    | with_reducible apply Moves.ite
    | ((with_reducible apply Moves.call (State.endReq_moves _ _ _ _ _)); rfl)
    | ((with_reducible apply Moves.call (State.holdReq_moves _ _ _ _ _)); rfl)
    | ((with_reducible apply Moves.call (State.startFill_moves _ _ _ _ _)); rfl)
    | ((with_reducible apply Moves.call (State.settled_moves _ _ _)); rfl)
    | ((with_reducible apply Moves.call (State.onReq_moves _ _ _)); rfl)
    | (simp only [moves_mk]; refine Moves.record ?_)
    | with_reducible apply Moves.foldl
    | with_reducible apply Moves.foldl_snd
    | with_reducible apply Moves.ite_snd
    | with_reducible refine Moves.snd (by assumption) ?_
    | with_reducible intro _
    | dsimp only
    | split

theorem State.translate_moves (s t r) : Moves [.regs, .egress, .counters, .samples, .log, .irqPending, .keyCaches, .guests, .requests, .lrc, .faults, .coherence, .streams, .chans, .dram, .out, .free] s (State.translate s t r) := by
  unfold State.translate
  try dsimp only
  repeat' first
    | with_reducible apply Moves.refl
    | with_reducible apply Moves.ite
    | ((with_reducible apply Moves.call (State.countLedger_moves _ _ _)); rfl)
    | ((with_reducible apply Moves.call (State.onReq_moves _ _ _)); rfl)
    | ((with_reducible apply Moves.call (State.onPages_moves _ _ _ _)); rfl)
    | (simp only [moves_mk]; refine Moves.record ?_)
    | with_reducible apply Moves.foldl
    | with_reducible apply Moves.foldl_snd
    | with_reducible apply Moves.ite_snd
    | with_reducible refine Moves.snd (by assumption) ?_
    | with_reducible intro _
    | dsimp only
    | split

theorem State.keyFail_moves (s gid) : Moves [.egress, .counters, .samples, .log, .irqPending, .guests, .requests, .streams, .out] s (State.keyFail s gid) := by
  unfold State.keyFail
  try dsimp only
  repeat' first
    | with_reducible apply Moves.refl
    | with_reducible apply Moves.ite
    | ((with_reducible apply Moves.call (State.onGuest_moves _ _ _)); rfl)
    | ((with_reducible apply Moves.call (State.guestStreamsError_moves _ _ _)); rfl)
    | ((with_reducible apply Moves.call (State.irqEdge_moves _ _)); rfl)
    | ((with_reducible apply Moves.call (State.log_moves _ _ _ _ _ _ _)); rfl)
    | (simp only [moves_mk]; refine Moves.record ?_)
    | with_reducible apply Moves.foldl
    | with_reducible apply Moves.foldl_snd
    | with_reducible apply Moves.ite_snd
    | with_reducible refine Moves.snd (by assumption) ?_
    | with_reducible intro _
    | dsimp only
    | split

theorem State.access_moves (s t) : Moves [.regs, .egress, .counters, .samples, .log, .irqPending, .keyCaches, .guests, .requests, .lrc, .faults, .coherence, .streams, .chans, .dram, .out, .free] s (State.access s t) := by
  unfold State.access
  try dsimp only
  repeat' first
    | with_reducible apply Moves.refl
    | with_reducible apply Moves.ite
    | ((with_reducible apply Moves.call (State.leaveQ_moves _ _ _)); rfl)
    | ((with_reducible apply Moves.call (State.settled_moves _ _ _)); rfl)
    | ((with_reducible apply Moves.call (State.perform_moves _ _ _)); rfl)
    | ((with_reducible apply Moves.call (State.endReq_moves _ _ _ _ _)); rfl)
    | ((with_reducible apply Moves.call (State.onReq_moves _ _ _)); rfl)
    | ((with_reducible apply Moves.call (State.startSwap_moves _ _)); rfl)
    | ((with_reducible apply Moves.call (State.touchGuest_moves _ _)); rfl)
    | ((with_reducible apply Moves.call (State.doorbell_moves _ _)); rfl)
    | ((with_reducible apply Moves.call (State.freeTracker_moves _ _)); rfl)
    | ((with_reducible apply Moves.call (State.translate_moves _ _ _)); rfl)
    | ((with_reducible apply Moves.call (State.keyFail_moves _ _)); rfl)
    | (simp only [moves_mk]; refine Moves.record ?_)
    | with_reducible apply Moves.foldl
    | with_reducible apply Moves.foldl_snd
    | with_reducible apply Moves.ite_snd
    | with_reducible refine Moves.snd (by assumption) ?_
    | with_reducible intro _
    | dsimp only
    | split

theorem State.resume_moves (s f) : Moves [.regs, .egress, .counters, .samples, .log, .irqPending, .keyCaches, .guests, .requests, .lrc, .faults, .coherence, .streams, .chans, .dram, .out, .free] s (State.resume s f) := by
  unfold State.resume
  try dsimp only
  repeat' first
    | with_reducible apply Moves.refl
    | with_reducible apply Moves.ite
    | ((with_reducible apply Moves.call (State.access_moves _ _)); rfl)
    | (simp only [moves_mk]; refine Moves.record ?_)
    | with_reducible apply Moves.foldl
    | with_reducible apply Moves.foldl_snd
    | with_reducible apply Moves.ite_snd
    | with_reducible refine Moves.snd (by assumption) ?_
    | with_reducible intro _
    | dsimp only
    | split

theorem State.resumeMem_moves (s) : Moves [.regs, .egress, .counters, .samples, .log, .irqPending, .keyCaches, .guests, .requests, .lrc, .faults, .coherence, .streams, .chans, .dram, .out, .free] s (State.resumeMem s) := by
  unfold State.resumeMem
  try dsimp only
  repeat' first
    | with_reducible apply Moves.refl
    | with_reducible apply Moves.ite
    | ((with_reducible apply Moves.call (State.resume_moves _ _)); rfl)
    | (simp only [moves_mk]; refine Moves.record ?_)
    | with_reducible apply Moves.foldl
    | with_reducible apply Moves.foldl_snd
    | with_reducible apply Moves.ite_snd
    | with_reducible refine Moves.snd (by assumption) ?_
    | with_reducible intro _
    | dsimp only
    | split

theorem State.wakeWaiters_moves (s t) : Moves [.waybills] s (State.wakeWaiters s t) := by
  unfold State.wakeWaiters
  try dsimp only
  repeat' first
    | with_reducible apply Moves.refl
    | with_reducible apply Moves.ite
    | (simp only [moves_mk]; refine Moves.record ?_)
    | with_reducible apply Moves.foldl
    | with_reducible apply Moves.foldl_snd
    | with_reducible apply Moves.ite_snd
    | with_reducible refine Moves.snd (by assumption) ?_
    | with_reducible intro _
    | dsimp only
    | split

theorem State.seePeer_moves (s x) : Moves [.sessions] s (State.seePeer s x) := by
  unfold State.seePeer
  try dsimp only
  repeat' first
    | with_reducible apply Moves.refl
    | with_reducible apply Moves.ite
    | (simp only [moves_mk]; refine Moves.record ?_)
    | with_reducible apply Moves.foldl
    | with_reducible apply Moves.foldl_snd
    | with_reducible apply Moves.ite_snd
    | with_reducible refine Moves.snd (by assumption) ?_
    | with_reducible intro _
    | dsimp only
    | split

theorem State.openFailed_moves (s via) : Moves [.sessions] s (State.openFailed s via) := by
  unfold State.openFailed
  try dsimp only
  repeat' first
    | with_reducible apply Moves.refl
    | with_reducible apply Moves.ite
    | ((with_reducible apply Moves.call (State.seePeer_moves _ _)); rfl)
    | (simp only [moves_mk]; refine Moves.record ?_)
    | with_reducible apply Moves.foldl
    | with_reducible apply Moves.foldl_snd
    | with_reducible apply Moves.ite_snd
    | with_reducible refine Moves.snd (by assumption) ?_
    | with_reducible intro _
    | dsimp only
    | split

theorem State.mergeDelta_moves (s p line d dm) : Moves [.chans] s (State.mergeDelta s p line d dm) := by
  unfold State.mergeDelta
  try dsimp only
  repeat' first
    | with_reducible apply Moves.refl
    | with_reducible apply Moves.ite
    | ((with_reducible apply Moves.call (State.onChan_moves _ _ _)); rfl)
    | (simp only [moves_mk]; refine Moves.record ?_)
    | with_reducible apply Moves.foldl
    | with_reducible apply Moves.foldl_snd
    | with_reducible apply Moves.ite_snd
    | with_reducible refine Moves.snd (by assumption) ?_
    | with_reducible intro _
    | dsimp only
    | split

theorem State.request_moves (s p kind bytes) : Moves [.egress, .peers, .counters, .samples, .irqPending, .requests] s (State.request s p kind bytes) := by
  unfold State.request
  try dsimp only
  repeat' first
    | with_reducible apply Moves.refl
    | with_reducible apply Moves.ite
    | ((with_reducible apply Moves.call (State.originate_moves _ _ _)); rfl)
    | (simp only [moves_mk]; refine Moves.record ?_)
    | with_reducible apply Moves.foldl
    | with_reducible apply Moves.foldl_snd
    | with_reducible apply Moves.ite_snd
    | with_reducible refine Moves.snd (by assumption) ?_
    | with_reducible intro _
    | dsimp only
    | split

theorem State.readRemote_moves (s key g home pva len) : Moves [.egress, .peers, .counters, .samples, .irqPending, .requests] s (State.readRemote s key g home pva len).2 := by
  unfold State.readRemote
  try dsimp only
  repeat' first
    | with_reducible apply Moves.refl
    | with_reducible apply Moves.ite
    | ((with_reducible apply Moves.call (State.request_moves _ _ _ _)); rfl)
    | (simp only [moves_mk]; refine Moves.record ?_)
    | with_reducible apply Moves.foldl
    | with_reducible apply Moves.foldl_snd
    | with_reducible apply Moves.ite_snd
    | with_reducible refine Moves.snd (by assumption) ?_
    | with_reducible intro _
    | dsimp only
    | split

theorem State.countCluster_moves (s pc ev sel) : Moves [.counters, .irqPending] s (State.countCluster s pc ev sel) := by
  unfold State.countCluster
  try dsimp only
  repeat' first
    | with_reducible apply Moves.refl
    | with_reducible apply Moves.ite
    | ((with_reducible apply Moves.call (State.count_moves _ _ _ _ _)); rfl)
    | (simp only [moves_mk]; refine Moves.record ?_)
    | with_reducible apply Moves.foldl
    | with_reducible apply Moves.foldl_snd
    | with_reducible apply Moves.ite_snd
    | with_reducible refine Moves.snd (by assumption) ?_
    | with_reducible intro _
    | dsimp only
    | split

theorem State.cacheAdd_moves (s es) : Moves [.tlbs] s (State.cacheAdd s es) := by
  unfold State.cacheAdd
  try dsimp only
  repeat' first
    | with_reducible apply Moves.refl
    | with_reducible apply Moves.ite
    | (simp only [moves_mk]; refine Moves.record ?_)
    | with_reducible apply Moves.foldl
    | with_reducible apply Moves.foldl_snd
    | with_reducible apply Moves.ite_snd
    | with_reducible refine Moves.snd (by assumption) ?_
    | with_reducible intro _
    | dsimp only
    | split

theorem State.xlWalk_moves (s gid pva write) : Moves [.regs, .counters, .irqPending, .tlbs, .faults] s (State.xlWalk s gid pva write).2 := by
  unfold State.xlWalk
  try dsimp only
  repeat' first
    | with_reducible apply Moves.refl
    | with_reducible apply Moves.ite
    | ((with_reducible apply Moves.call (State.countLedger_moves _ _ _)); rfl)
    | ((with_reducible apply Moves.call (State.fqAdd_moves _ _)); rfl)
    | ((with_reducible apply Moves.call (State.cacheAdd_moves _ _)); rfl)
    | (simp only [moves_mk]; refine Moves.record ?_)
    | with_reducible apply Moves.foldl
    | with_reducible apply Moves.foldl_snd
    | with_reducible apply Moves.ite_snd
    | with_reducible refine Moves.snd (by assumption) ?_
    | with_reducible intro _
    | dsimp only
    | split

theorem State.porterXl_moves (s cl gid pva write) : Moves [.regs, .counters, .irqPending, .tlbs, .faults] s (State.porterXl s cl gid pva write).2 := by
  unfold State.porterXl
  try dsimp only
  repeat' first
    | with_reducible apply Moves.refl
    | with_reducible apply Moves.ite
    | ((with_reducible apply Moves.call (State.countCluster_moves _ _ _ _)); rfl)
    | ((with_reducible apply Moves.call (State.countLedger_moves _ _ _)); rfl)
    | ((with_reducible apply Moves.call (State.xlWalk_moves _ _ _ _)); rfl)
    | (simp only [moves_mk]; refine Moves.record ?_)
    | with_reducible apply Moves.foldl
    | with_reducible apply Moves.foldl_snd
    | with_reducible apply Moves.ite_snd
    | with_reducible refine Moves.snd (by assumption) ?_
    | with_reducible intro _
    | dsimp only
    | split

theorem State.weightLine_moves (s key cl pa) : Moves [.egress, .counters, .samples, .log, .irqPending, .keyCaches, .guests, .requests, .streams, .chans, .dram, .out, .free] s (State.weightLine s key cl pa).2 := by
  unfold State.weightLine
  try dsimp only
  repeat' first
    | with_reducible apply Moves.refl
    | with_reducible apply Moves.ite
    | ((with_reducible apply Moves.call (State.readLine_moves _ _ _ _ _)); rfl)
    | ((with_reducible apply Moves.call (State.queueBurst_moves _ _ _)); rfl)
    | (simp only [moves_mk]; refine Moves.record ?_)
    | with_reducible apply Moves.foldl
    | with_reducible apply Moves.foldl_snd
    | with_reducible apply Moves.ite_snd
    | with_reducible refine Moves.snd (by assumption) ?_
    | with_reducible intro _
    | dsimp only
    | split

theorem State.weightLines_moves (s key cl pa len) : Moves [.egress, .counters, .samples, .log, .irqPending, .keyCaches, .guests, .requests, .streams, .chans, .dram, .out, .free] s (State.weightLines s key cl pa len).2 := by
  unfold State.weightLines
  try dsimp only
  repeat' first
    | with_reducible apply Moves.refl
    | with_reducible apply Moves.ite
    | ((with_reducible apply Moves.call (State.weightLine_moves _ _ _ _)); rfl)
    | (simp only [moves_mk]; refine Moves.record ?_)
    | with_reducible apply Moves.foldl
    | with_reducible apply Moves.foldl_snd
    | with_reducible apply Moves.ite_snd
    | with_reducible refine Moves.snd (by assumption) ?_
    | with_reducible intro _
    | dsimp only
    | split

theorem State.porterLine_moves (s gid pa lrc) : Moves [.egress, .counters, .samples, .log, .irqPending, .keyCaches, .guests, .requests, .lrc, .streams, .chans, .dram, .out, .free] s (State.porterLine s gid pa lrc).2 := by
  unfold State.porterLine
  try dsimp only
  repeat' first
    | with_reducible apply Moves.refl
    | with_reducible apply Moves.ite
    | ((with_reducible apply Moves.call (State.lrcLook_moves _ _ _)); rfl)
    | ((with_reducible apply Moves.call (State.readLine_moves _ _ _ _ _)); rfl)
    | ((with_reducible apply Moves.call (State.lrcFill_moves _ _ _ _)); rfl)
    | (simp only [moves_mk]; refine Moves.record ?_)
    | with_reducible apply Moves.foldl
    | with_reducible apply Moves.foldl_snd
    | with_reducible apply Moves.ite_snd
    | with_reducible refine Moves.snd (by assumption) ?_
    | with_reducible intro _
    | dsimp only
    | split

theorem State.porterLines_moves (s gid pa len lrc) : Moves [.egress, .counters, .samples, .log, .irqPending, .keyCaches, .guests, .requests, .lrc, .streams, .chans, .dram, .out, .free] s (State.porterLines s gid pa len lrc).2 := by
  unfold State.porterLines
  try dsimp only
  repeat' first
    | with_reducible apply Moves.refl
    | with_reducible apply Moves.ite
    | ((with_reducible apply Moves.call (State.porterLine_moves _ _ _ _)); rfl)
    | (simp only [moves_mk]; refine Moves.record ?_)
    | with_reducible apply Moves.foldl
    | with_reducible apply Moves.foldl_snd
    | with_reducible apply Moves.ite_snd
    | with_reducible refine Moves.snd (by assumption) ?_
    | with_reducible intro _
    | dsimp only
    | split

theorem State.readPiece_moves (s key cl g pva len m) : Moves [.regs, .egress, .peers, .counters, .samples, .log, .irqPending, .keyCaches, .guests, .requests, .lrc, .tlbs, .faults, .coherence, .streams, .chans, .dram, .out, .free] s (State.readPiece s key cl g pva len m).2 := by
  unfold State.readPiece
  try dsimp only
  repeat' first
    | with_reducible apply Moves.refl
    | with_reducible apply Moves.ite
    | ((with_reducible apply Moves.call (State.readRemote_moves _ _ _ _ _ _)); rfl)
    | ((with_reducible apply Moves.call (State.porterXl_moves _ _ _ _ _)); rfl)
    | ((with_reducible apply Moves.call (State.uncachedStart_moves _ _ _ _)); rfl)
    | ((with_reducible apply Moves.call (State.weightLines_moves _ _ _ _ _)); rfl)
    | ((with_reducible apply Moves.call (State.porterLines_moves _ _ _ _ _)); rfl)
    | (simp only [moves_mk]; refine Moves.record ?_)
    | with_reducible apply Moves.foldl
    | with_reducible apply Moves.foldl_snd
    | with_reducible apply Moves.ite_snd
    | with_reducible refine Moves.snd (by assumption) ?_
    | with_reducible intro _
    | dsimp only
    | split

theorem State.readRange_moves (s key cl g pva len m) : Moves [.regs, .egress, .peers, .counters, .samples, .log, .irqPending, .keyCaches, .guests, .requests, .lrc, .tlbs, .faults, .coherence, .streams, .chans, .dram, .out, .free] s (State.readRange s key cl g pva len m).2 := by
  unfold State.readRange
  try dsimp only
  repeat' first
    | with_reducible apply Moves.refl
    | with_reducible apply Moves.ite
    | ((with_reducible apply Moves.call (State.readPiece_moves _ _ _ _ _ _ _)); rfl)
    | (simp only [moves_mk]; refine Moves.record ?_)
    | with_reducible apply Moves.foldl
    | with_reducible apply Moves.foldl_snd
    | with_reducible apply Moves.ite_snd
    | with_reducible refine Moves.snd (by assumption) ?_
    | with_reducible intro _
    | dsimp only
    | split

theorem State.readRow_moves (s key cl g m q) : Moves [.regs, .egress, .peers, .counters, .samples, .log, .irqPending, .keyCaches, .guests, .requests, .lrc, .tlbs, .faults, .coherence, .streams, .chans, .dram, .out, .free] s (State.readRow s key cl g m q).2 := by
  unfold State.readRow
  try dsimp only
  repeat' first
    | with_reducible apply Moves.refl
    | with_reducible apply Moves.ite
    | ((with_reducible apply Moves.call (State.readRange_moves _ _ _ _ _ _ _)); rfl)
    | (simp only [moves_mk]; refine Moves.record ?_)
    | with_reducible apply Moves.foldl
    | with_reducible apply Moves.foldl_snd
    | with_reducible apply Moves.ite_snd
    | with_reducible refine Moves.snd (by assumption) ?_
    | with_reducible intro _
    | dsimp only
    | split

theorem State.readRows_moves (s key cl g m qs) : Moves [.regs, .egress, .peers, .counters, .samples, .log, .irqPending, .keyCaches, .guests, .requests, .lrc, .tlbs, .faults, .coherence, .streams, .chans, .dram, .out, .free] s (State.readRows s key cl g m qs).2 := by
  unfold State.readRows
  try dsimp only
  repeat' first
    | with_reducible apply Moves.refl
    | with_reducible apply Moves.ite
    | ((with_reducible apply Moves.call (State.readRow_moves _ _ _ _ _ _)); rfl)
    | (simp only [moves_mk]; refine Moves.record ?_)
    | with_reducible apply Moves.foldl
    | with_reducible apply Moves.foldl_snd
    | with_reducible apply Moves.ite_snd
    | with_reducible refine Moves.snd (by assumption) ?_
    | with_reducible intro _
    | dsimp only
    | split

theorem State.onWb_moves (s key f) : Moves [.waybills] s (State.onWb s key f) := by
  unfold State.onWb
  try dsimp only
  repeat' first
    | with_reducible apply Moves.refl
    | with_reducible apply Moves.ite
    | (simp only [moves_mk]; refine Moves.record ?_)
    | with_reducible apply Moves.foldl
    | with_reducible apply Moves.foldl_snd
    | with_reducible apply Moves.ite_snd
    | with_reducible refine Moves.snd (by assumption) ?_
    | with_reducible intro _
    | dsimp only
    | split

theorem State.onChunk_moves (s key c f) : Moves [.waybills] s (State.onChunk s key c f) := by
  unfold State.onChunk
  try dsimp only
  repeat' first
    | with_reducible apply Moves.refl
    | with_reducible apply Moves.ite
    | ((with_reducible apply Moves.call (State.onWb_moves _ _ _)); rfl)
    | (simp only [moves_mk]; refine Moves.record ?_)
    | with_reducible apply Moves.foldl
    | with_reducible apply Moves.foldl_snd
    | with_reducible apply Moves.ite_snd
    | with_reducible refine Moves.snd (by assumption) ?_
    | with_reducible intro _
    | dsimp only
    | split

theorem State.addFixed_moves (s d c n) : Moves [.counters] s (State.addFixed s d c n) := by
  unfold State.addFixed
  split
  · exact Moves.refl _ _
  · simp only [moves_mk]
    refine Moves.record (Moves.refl _ _) (k_obs := fun h => ⟨h.1, h.2.1, h.2.2.1, ?_⟩)
    intro r hr
    rcases mem_putRow hr with rfl | hr
    · exact Nat.mod_lt _ (by decide)
    · exact h.2.2.2 r hr

theorem State.countOffset_moves (s pc off n) : Moves [.counters] s (State.countOffset s pc off n) := by
  unfold State.countOffset
  try dsimp only
  repeat' first
    | with_reducible apply Moves.refl
    | with_reducible apply Moves.ite
    | ((with_reducible apply Moves.call (State.addFixed_moves _ _ _ _)); rfl)
    | (simp only [moves_mk]; refine Moves.record ?_)
    | with_reducible apply Moves.foldl
    | with_reducible apply Moves.foldl_snd
    | with_reducible apply Moves.ite_snd
    | with_reducible refine Moves.snd (by assumption) ?_
    | with_reducible intro _
    | dsimp only
    | split

theorem State.countSlots_moves (s pc kind n) : Moves [.counters, .irqPending] s (State.countSlots s pc kind n) := by
  unfold State.countSlots
  try dsimp only
  repeat' first
    | with_reducible apply Moves.refl
    | with_reducible apply Moves.ite
    | ((with_reducible apply Moves.call (State.countOffset_moves _ _ _ _)); rfl)
    | ((with_reducible apply Moves.call (State.countN_moves _ _ _ _ _ _)); rfl)
    | (simp only [moves_mk]; refine Moves.record ?_)
    | with_reducible apply Moves.foldl
    | with_reducible apply Moves.foldl_snd
    | with_reducible apply Moves.ite_snd
    | with_reducible refine Moves.snd (by assumption) ?_
    | with_reducible intro _
    | dsimp only
    | split

theorem State.settleSlots_moves (s key c cl kind n) : Moves [.counters, .irqPending] s (State.settleSlots s key c cl kind n) := by
  unfold State.settleSlots
  try dsimp only
  repeat' first
    | with_reducible apply Moves.refl
    | with_reducible apply Moves.ite
    | ((with_reducible apply Moves.call (State.countSlots_moves _ _ _ _)); rfl)
    | (simp only [moves_mk]; refine Moves.record ?_)
    | with_reducible apply Moves.foldl
    | with_reducible apply Moves.foldl_snd
    | with_reducible apply Moves.ite_snd
    | with_reducible refine Moves.snd (by assumption) ?_
    | with_reducible intro _
    | dsimp only
    | split

theorem State.settleChunk_moves (s key c cl kind) : Moves [.counters, .irqPending] s (State.settleChunk s key c cl kind) := by
  unfold State.settleChunk
  try dsimp only
  repeat' first
    | with_reducible apply Moves.refl
    | with_reducible apply Moves.ite
    | ((with_reducible apply Moves.call (State.settleSlots_moves _ _ _ _ _ _)); rfl)
    | (simp only [moves_mk]; refine Moves.record ?_)
    | with_reducible apply Moves.foldl
    | with_reducible apply Moves.foldl_snd
    | with_reducible apply Moves.ite_snd
    | with_reducible refine Moves.snd (by assumption) ?_
    | with_reducible intro _
    | dsimp only
    | split

theorem State.onCluster_moves (s c f) : Moves [.waybills] s (State.onCluster s c f) := by
  unfold State.onCluster
  try dsimp only
  repeat' first
    | with_reducible apply Moves.refl
    | with_reducible apply Moves.ite
    | (simp only [moves_mk]; refine Moves.record ?_)
    | with_reducible apply Moves.foldl
    | with_reducible apply Moves.foldl_snd
    | with_reducible apply Moves.ite_snd
    | with_reducible refine Moves.snd (by assumption) ?_
    | with_reducible intro _
    | dsimp only
    | split

theorem State.closeChunk_moves (s key c) : Moves [.counters, .samples, .irqPending, .waybills] s (State.closeChunk s key c) := by
  unfold State.closeChunk
  try dsimp only
  repeat' first
    | with_reducible apply Moves.refl
    | with_reducible apply Moves.ite
    | ((with_reducible apply Moves.call (State.countCluster_moves _ _ _ _)); rfl)
    | ((with_reducible apply Moves.call (State.onChunk_moves _ _ _ _)); rfl)
    | ((with_reducible apply Moves.call (State.settleChunk_moves _ _ _ _ _)); rfl)
    | ((with_reducible apply Moves.call (State.leaveQ_moves _ _ _)); rfl)
    | ((with_reducible apply Moves.call (State.onCluster_moves _ _ _)); rfl)
    | ((with_reducible apply Moves.call (State.onWb_moves _ _ _)); rfl)
    | (simp only [moves_mk]; refine Moves.record ?_)
    | with_reducible apply Moves.foldl
    | with_reducible apply Moves.foldl_snd
    | with_reducible apply Moves.ite_snd
    | with_reducible refine Moves.snd (by assumption) ?_
    | with_reducible intro _
    | dsimp only
    | split

theorem State.setHold_moves (s k h) : Moves [.requests, .streams, .waybills, .contexts] s (State.setHold s k h) := by
  unfold State.setHold
  try dsimp only
  repeat' first
    | with_reducible apply Moves.refl
    | with_reducible apply Moves.ite
    | ((with_reducible apply Moves.call (State.onReq_moves _ _ _)); rfl)
    | (simp only [moves_mk]; refine Moves.record ?_)
    | with_reducible apply Moves.foldl
    | with_reducible apply Moves.foldl_snd
    | with_reducible apply Moves.ite_snd
    | with_reducible refine Moves.snd (by assumption) ?_
    | with_reducible intro _
    | dsimp only
    | split

theorem State.refile_moves (s) : Moves [.regs, .counters, .irqPending, .requests, .faults, .streams, .waybills, .contexts] s (State.refile s) := by
  unfold State.refile
  try dsimp only
  repeat' first
    | with_reducible apply Moves.refl
    | with_reducible apply Moves.ite
    | ((with_reducible apply Moves.call (State.openHold_moves _ _ _ _)); rfl)
    | ((with_reducible apply Moves.call (State.setHold_moves _ _ _)); rfl)
    | (simp only [moves_mk]; refine Moves.record ?_)
    | with_reducible apply Moves.foldl
    | with_reducible apply Moves.foldl_snd
    | with_reducible apply Moves.ite_snd
    | with_reducible refine Moves.snd (by assumption) ?_
    | with_reducible intro _
    | dsimp only
    | split

theorem State.closeFault_moves (s n) : Moves [.regs, .counters, .irqPending, .requests, .faults, .streams, .waybills, .contexts] s (State.closeFault s n) := by
  unfold State.closeFault
  try dsimp only
  repeat' first
    | with_reducible apply Moves.refl
    | with_reducible apply Moves.ite
    | ((with_reducible apply Moves.call (State.fqAdd_moves _ _)); rfl)
    | ((with_reducible apply Moves.call (State.refile_moves _)); rfl)
    | (simp only [moves_mk]; refine Moves.record ?_)
    | with_reducible apply Moves.foldl
    | with_reducible apply Moves.foldl_snd
    | with_reducible apply Moves.ite_snd
    | with_reducible refine Moves.snd (by assumption) ?_
    | with_reducible intro _
    | dsimp only
    | split

theorem State.endHold_moves (s h) : Moves [.regs, .counters, .irqPending, .requests, .faults, .streams, .waybills, .contexts] s (State.endHold s h) := by
  unfold State.endHold
  try dsimp only
  repeat' first
    | with_reducible apply Moves.refl
    | with_reducible apply Moves.ite
    | ((with_reducible apply Moves.call (State.closeFault_moves _ _)); rfl)
    | (simp only [moves_mk]; refine Moves.record ?_)
    | with_reducible apply Moves.foldl
    | with_reducible apply Moves.foldl_snd
    | with_reducible apply Moves.ite_snd
    | with_reducible refine Moves.snd (by assumption) ?_
    | with_reducible intro _
    | dsimp only
    | split

theorem State.unhold_moves (s key g) : Moves [.regs, .counters, .samples, .irqPending, .requests, .faults, .streams, .waybills, .contexts] s (State.unhold s key g) := by
  unfold State.unhold
  try dsimp only
  repeat' first
    | with_reducible apply Moves.refl
    | with_reducible apply Moves.ite
    | ((with_reducible apply Moves.call (State.endHold_moves _ _)); rfl)
    | ((with_reducible apply Moves.call (State.leaveQ_moves _ _ _)); rfl)
    | ((with_reducible apply Moves.call (State.onWb_moves _ _ _)); rfl)
    | (simp only [moves_mk]; refine Moves.record ?_)
    | with_reducible apply Moves.foldl
    | with_reducible apply Moves.foldl_snd
    | with_reducible apply Moves.ite_snd
    | with_reducible refine Moves.snd (by assumption) ?_
    | with_reducible intro _
    | dsimp only
    | split

theorem State.endSlice_moves (s key c) : Moves [.regs, .counters, .samples, .irqPending, .requests, .faults, .streams, .waybills, .contexts] s (State.endSlice s key c) := by
  unfold State.endSlice
  try dsimp only
  repeat' first
    | with_reducible apply Moves.refl
    | with_reducible apply Moves.ite
    | ((with_reducible apply Moves.call (State.closeChunk_moves _ _ _)); rfl)
    | ((with_reducible apply Moves.call (State.onWb_moves _ _ _)); rfl)
    | ((with_reducible apply Moves.call (State.unhold_moves _ _ _)); rfl)
    | (simp only [moves_mk]; refine Moves.record ?_)
    | with_reducible apply Moves.foldl
    | with_reducible apply Moves.foldl_snd
    | with_reducible apply Moves.ite_snd
    | with_reducible refine Moves.snd (by assumption) ?_
    | with_reducible intro _
    | dsimp only
    | split

theorem State.dropLines_moves (s key cl) : Moves [.waybills] s (State.dropLines s key cl) := by
  unfold State.dropLines
  try dsimp only
  repeat' first
    | with_reducible apply Moves.refl
    | with_reducible apply Moves.ite
    | ((with_reducible apply Moves.call (State.onWb_moves _ _ _)); rfl)
    | (simp only [moves_mk]; refine Moves.record ?_)
    | with_reducible apply Moves.foldl
    | with_reducible apply Moves.foldl_snd
    | with_reducible apply Moves.ite_snd
    | with_reducible refine Moves.snd (by assumption) ?_
    | with_reducible intro _
    | dsimp only
    | split

end Sys2Proof.Machine
end

