-- ==== Sys2Proof/Laws/Moves3.lean ====
section
/-! SUPPORT. One lemma for each operation: the parts of the state it may change, and that it keeps what every operation keeps
(Laws/Moves). Part 3 of 8, in the order in which the operations call one another. -/

namespace Sys2Proof.Machine

open Sys2Proof

set_option linter.all false

-- One proof after the other: in parallel, each waits in a thread of its own for the same lemma of `simp only`.
set_option Elab.async false

theorem State.unlockGranule_moves (s key g) : Moves [.waybills] s (State.unlockGranule s key g) := by
  unfold State.unlockGranule
  try dsimp only
  repeat' first
    | with_reducible apply Moves.refl
    | with_reducible apply Moves.ite
    | (simp only [moves_mk]; refine Moves.record ?_)
    | with_reducible apply Moves.foldl
    | with_reducible apply Moves.foldl_snd
    | with_reducible apply Moves.ite_snd
    | with_reducible refine Moves.snd (by assumption) ?_
    | with_reducible intro _
    | dsimp only
    | split

theorem State.failGranule_moves (s key c g cause) : Moves [.regs, .egress, .counters, .samples, .log, .irqPending, .keyCaches, .guests, .requests, .faults, .coherence, .streams, .waybills, .contexts, .chans, .dram, .out, .free] s (State.failGranule s key c g cause) := by
  unfold State.failGranule
  try dsimp only
  repeat' first
    | with_reducible apply Moves.refl
    | with_reducible apply Moves.ite
    | ((with_reducible apply Moves.call (State.onWb_moves _ _ _)); rfl)
    | ((with_reducible apply Moves.call (State.closeChunk_moves _ _ _)); rfl)
    | ((with_reducible apply Moves.call (State.countCluster_moves _ _ _ _)); rfl)
    | ((with_reducible apply Moves.call (State.uncachedFree_moves _ _)); rfl)
    | ((with_reducible apply Moves.call (State.unlockGranule_moves _ _ _)); rfl)
    | ((with_reducible apply Moves.call (State.unhold_moves _ _ _)); rfl)
    | (simp only [moves_mk]; refine Moves.record ?_)
    | with_reducible apply Moves.foldl
    | with_reducible apply Moves.foldl_snd
    | with_reducible apply Moves.ite_snd
    | with_reducible refine Moves.snd (by assumption) ?_
    | with_reducible intro _
    | dsimp only
    | split

theorem State.failAll_moves (s key cause) : Moves [.regs, .egress, .counters, .samples, .log, .irqPending, .keyCaches, .guests, .requests, .faults, .coherence, .streams, .waybills, .contexts, .chans, .dram, .out, .free] s (State.failAll s key cause) := by
  unfold State.failAll
  try dsimp only
  repeat' first
    | with_reducible apply Moves.refl
    | with_reducible apply Moves.ite
    | ((with_reducible apply Moves.call (State.onWb_moves _ _ _)); rfl)
    | ((with_reducible apply Moves.call (State.failGranule_moves _ _ _ _ _)); rfl)
    | (simp only [moves_mk]; refine Moves.record ?_)
    | with_reducible apply Moves.foldl
    | with_reducible apply Moves.foldl_snd
    | with_reducible apply Moves.ite_snd
    | with_reducible refine Moves.snd (by assumption) ?_
    | with_reducible intro _
    | dsimp only
    | split

theorem State.rehold_moves {ps} {s0 s : State} {gid old h put} (k : Part.within [.regs, .counters, .irqPending, .requests, .faults, .streams, .waybills, .contexts] ps = true) (b : Moves ps s0 s)
    (hf : ∀ u h, Moves ps u (put u h)) : Moves ps s0 (State.rehold s gid old h put) := by
  unfold State.rehold
  split
  · split
    · exact b
    · dsimp only
      split
      · exact Moves.call (State.closeFault_moves _ _) (Part.within_trans rfl k)
          ((Moves.call (State.openHold_moves _ _ _ _) (Part.within_trans rfl k) b).trans (hf _ _))
      · exact (Moves.call (State.openHold_moves _ _ _ _) (Part.within_trans rfl k) b).trans (hf _ _)
  · exact (Moves.call (State.openHold_moves _ _ _ _) (Part.within_trans rfl k) b).trans (hf _ _)

theorem State.holdGranule_moves (s key g h) : Moves [.regs, .counters, .samples, .irqPending, .requests, .faults, .streams, .waybills, .contexts] s (State.holdGranule s key g h) := by
  unfold State.holdGranule
  try dsimp only
  repeat' first
    | with_reducible apply Moves.refl
    | with_reducible apply Moves.ite
    | ((with_reducible apply Moves.call (State.enterQ_moves _ _ _)); rfl)
    | with_reducible refine State.rehold_moves rfl ?_ ?_
    | ((with_reducible apply Moves.call (State.onWb_moves _ _ _)); rfl)
    | (simp only [moves_mk]; refine Moves.record ?_)
    | with_reducible apply Moves.foldl
    | with_reducible apply Moves.foldl_snd
    | with_reducible apply Moves.ite_snd
    | with_reducible refine Moves.snd (by assumption) ?_
    | with_reducible intro _
    | dsimp only
    | split

theorem State.countMacs_moves (s cl wf xf n) : Moves [.counters, .irqPending] s (State.countMacs s cl wf xf n) := by
  unfold State.countMacs
  try dsimp only
  repeat' first
    | with_reducible apply Moves.refl
    | with_reducible apply Moves.ite
    | ((with_reducible apply Moves.call (State.countN_moves _ _ _ _ _ _)); rfl)
    | (simp only [moves_mk]; refine Moves.record ?_)
    | with_reducible apply Moves.foldl
    | with_reducible apply Moves.foldl_snd
    | with_reducible apply Moves.ite_snd
    | with_reducible refine Moves.snd (by assumption) ?_
    | with_reducible intro _
    | dsimp only
    | split

theorem State.sliceDone_moves (s key i off bs flags poison degraded) : Moves [.waybills] s (State.sliceDone s key i off bs flags poison degraded) := by
  unfold State.sliceDone
  try dsimp only
  repeat' first
    | with_reducible apply Moves.refl
    | with_reducible apply Moves.ite
    | ((with_reducible apply Moves.call (State.onWb_moves _ _ _)); rfl)
    | (simp only [moves_mk]; refine Moves.record ?_)
    | with_reducible apply Moves.foldl
    | with_reducible apply Moves.foldl_snd
    | with_reducible apply Moves.ite_snd
    | with_reducible refine Moves.snd (by assumption) ?_
    | with_reducible intro _
    | dsimp only
    | split

theorem State.makeSlice_moves (s key c cl i) : Moves [.regs, .egress, .peers, .counters, .samples, .log, .irqPending, .keyCaches, .guests, .requests, .lrc, .tlbs, .faults, .coherence, .streams, .waybills, .contexts, .chans, .dram, .out, .free] s (State.makeSlice s key c cl i) := by
  unfold State.makeSlice
  try dsimp only
  repeat' first
    | with_reducible apply Moves.refl
    | with_reducible apply Moves.ite
    | ((with_reducible apply Moves.call (State.readRows_moves _ _ _ _ _ _)); rfl)
    | ((with_reducible apply Moves.call (State.endSlice_moves _ _ _)); rfl)
    | ((with_reducible apply Moves.call (State.dropLines_moves _ _ _)); rfl)
    | ((with_reducible apply Moves.call (State.failAll_moves _ _ _)); rfl)
    | ((with_reducible apply Moves.call (State.holdGranule_moves _ _ _ _)); rfl)
    | ((with_reducible apply Moves.call (State.unhold_moves _ _ _)); rfl)
    | ((with_reducible apply Moves.call (State.countMacs_moves _ _ _ _ _)); rfl)
    | ((with_reducible apply Moves.call (State.closeChunk_moves _ _ _)); rfl)
    | ((with_reducible apply Moves.call (State.sliceDone_moves _ _ _ _ _ _ _ _)); rfl)
    | (simp only [moves_mk]; refine Moves.record ?_)
    | with_reducible apply Moves.foldl
    | with_reducible apply Moves.foldl_snd
    | with_reducible apply Moves.ite_snd
    | with_reducible refine Moves.snd (by assumption) ?_
    | with_reducible intro _
    | dsimp only
    | split

theorem State.draw_moves (s n) : Moves [.entropy] s (State.draw s n).2 := by
  unfold State.draw
  try dsimp only
  repeat' first
    | with_reducible apply Moves.refl
    | with_reducible apply Moves.ite
    | (simp only [moves_mk]; refine Moves.record ?_)
    | with_reducible apply Moves.foldl
    | with_reducible apply Moves.foldl_snd
    | with_reducible apply Moves.ite_snd
    | with_reducible refine Moves.snd (by assumption) ?_
    | with_reducible intro _
    | dsimp only
    | split

theorem State.freshNonce_moves (s) : Moves [.entropy, .set] s (State.freshNonce s) := by
  unfold State.freshNonce
  try dsimp only
  repeat' first
    | with_reducible apply Moves.refl
    | with_reducible apply Moves.ite
    | ((with_reducible apply Moves.call (State.draw_moves _ _)); rfl)
    | (simp only [moves_mk]; refine Moves.record ?_)
    | with_reducible apply Moves.foldl
    | with_reducible apply Moves.foldl_snd
    | with_reducible apply Moves.ite_snd
    | with_reducible refine Moves.snd (by assumption) ?_
    | with_reducible intro _
    | dsimp only
    | split

theorem State.countLinkN_moves (s l ev sel n) : Moves [.counters, .irqPending] s (State.countLinkN s l ev sel n) := by
  unfold State.countLinkN
  try dsimp only
  repeat' first
    | with_reducible apply Moves.refl
    | with_reducible apply Moves.ite
    | ((with_reducible apply Moves.call (State.countN_moves _ _ _ _ _ _)); rfl)
    | (simp only [moves_mk]; refine Moves.record ?_)
    | with_reducible apply Moves.foldl
    | with_reducible apply Moves.foldl_snd
    | with_reducible apply Moves.ite_snd
    | with_reducible refine Moves.snd (by assumption) ?_
    | with_reducible intro _
    | dsimp only
    | split

theorem State.sendCtrl_moves (s l m) : Moves [.links, .counters, .irqPending, .out] s (State.sendCtrl s l m) := by
  unfold State.sendCtrl
  try dsimp only
  repeat' first
    | with_reducible apply Moves.refl
    | with_reducible apply Moves.ite
    | ((with_reducible apply Moves.call (State.countLinkN_moves _ _ _ _ _)); rfl)
    | ((with_reducible apply Moves.call (State.emit_moves _ _)); rfl)
    | ((with_reducible apply Moves.call (State.setLink_moves _ _ _)); rfl)
    | (simp only [moves_mk]; refine Moves.record ?_)
    | with_reducible apply Moves.foldl
    | with_reducible apply Moves.foldl_snd
    | with_reducible apply Moves.ite_snd
    | with_reducible refine Moves.snd (by assumption) ?_
    | with_reducible intro _
    | dsimp only
    | split

theorem State.keyxSend_moves (s l step m) : Moves [.links, .counters, .irqPending, .out] s (State.keyxSend s l step m) := by
  unfold State.keyxSend
  try dsimp only
  repeat' first
    | with_reducible apply Moves.refl
    | with_reducible apply Moves.ite
    | ((with_reducible apply Moves.call (State.sendCtrl_moves _ _ _)); rfl)
    | ((with_reducible apply Moves.call (State.onLink_moves _ _ _)); rfl)
    | (simp only [moves_mk]; refine Moves.record ?_)
    | with_reducible apply Moves.foldl
    | with_reducible apply Moves.foldl_snd
    | with_reducible apply Moves.ite_snd
    | with_reducible refine Moves.snd (by assumption) ?_
    | with_reducible intro _
    | dsimp only
    | split

theorem State.stopLinks_moves (s) : Moves [.links] s (State.stopLinks s) := by
  unfold State.stopLinks
  try dsimp only
  repeat' first
    | with_reducible apply Moves.refl
    | with_reducible apply Moves.ite
    | (simp only [moves_mk]; refine Moves.record ?_)
    | with_reducible apply Moves.foldl
    | with_reducible apply Moves.foldl_snd
    | with_reducible apply Moves.ite_snd
    | with_reducible refine Moves.snd (by assumption) ?_
    | with_reducible intro _
    | dsimp only
    | split

theorem State.sleepChans_moves (s) : Moves [.chans] s (State.sleepChans s) := by
  unfold State.sleepChans
  try dsimp only
  repeat' first
    | with_reducible apply Moves.refl
    | with_reducible apply Moves.ite
    | (simp only [moves_mk]; refine Moves.record ?_)
    | with_reducible apply Moves.foldl
    | with_reducible apply Moves.foldl_snd
    | with_reducible apply Moves.ite_snd
    | with_reducible refine Moves.snd (by assumption) ?_
    | with_reducible intro _
    | dsimp only
    | split

theorem State.trip_moves (s) : Moves [.thermal, .links, .chans] s (State.trip s) := by
  unfold State.trip
  try dsimp only
  repeat' first
    | with_reducible apply Moves.refl
    | with_reducible apply Moves.ite
    | ((with_reducible apply Moves.call (State.stopLinks_moves _)); rfl)
    | ((with_reducible apply Moves.call (State.sleepChans_moves _)); rfl)
    | (simp only [moves_mk]; refine Moves.record ?_)
    | with_reducible apply Moves.foldl
    | with_reducible apply Moves.foldl_snd
    | with_reducible apply Moves.ite_snd
    | with_reducible refine Moves.snd (by assumption) ?_
    | with_reducible intro _
    | dsimp only
    | split

theorem State.freeStage_moves (s kib) : Moves [.contexts] s (State.freeStage s kib) := by
  unfold State.freeStage
  try dsimp only
  repeat' first
    | with_reducible apply Moves.refl
    | with_reducible apply Moves.ite
    | (simp only [moves_mk]; refine Moves.record ?_)
    | with_reducible apply Moves.foldl
    | with_reducible apply Moves.foldl_snd
    | with_reducible apply Moves.ite_snd
    | with_reducible refine Moves.snd (by assumption) ?_
    | with_reducible intro _
    | dsimp only
    | split

theorem State.onCtx_moves (s r f) : Moves [.contexts] s (State.onCtx s r f) := by
  unfold State.onCtx
  try dsimp only
  repeat' first
    | with_reducible apply Moves.refl
    | with_reducible apply Moves.ite
    | (simp only [moves_mk]; refine Moves.record ?_)
    | with_reducible apply Moves.foldl
    | with_reducible apply Moves.foldl_snd
    | with_reducible apply Moves.ite_snd
    | with_reducible refine Moves.snd (by assumption) ?_
    | with_reducible intro _
    | dsimp only
    | split

theorem State.leaveCtx_moves (s w) : Moves [.contexts] s (State.leaveCtx s w) := by
  unfold State.leaveCtx
  try dsimp only
  repeat' first
    | with_reducible apply Moves.refl
    | with_reducible apply Moves.ite
    | ((with_reducible apply Moves.call (State.freeStage_moves _ _)); rfl)
    | ((with_reducible apply Moves.call (State.onCtx_moves _ _ _)); rfl)
    | (simp only [moves_mk]; refine Moves.record ?_)
    | with_reducible apply Moves.foldl
    | with_reducible apply Moves.foldl_snd
    | with_reducible apply Moves.ite_snd
    | with_reducible refine Moves.snd (by assumption) ?_
    | with_reducible intro _
    | dsimp only
    | split

theorem State.changeTally_moves (s t f) : Moves [.egress, .counters, .samples, .irqPending, .requests, .waybills, .tallies] s (State.changeTally s t f) := by
  unfold State.changeTally
  try dsimp only
  repeat' first
    | with_reducible apply Moves.refl
    | with_reducible apply Moves.ite
    | ((with_reducible apply Moves.call (State.countLedger_moves _ _ _)); rfl)
    | ((with_reducible apply Moves.call (State.originate_moves _ _ _)); rfl)
    | ((with_reducible apply Moves.call (State.wakeWaiters_moves _ _)); rfl)
    | (simp only [moves_mk]; refine Moves.record ?_)
    | with_reducible apply Moves.foldl
    | with_reducible apply Moves.foldl_snd
    | with_reducible apply Moves.ite_snd
    | with_reducible refine Moves.snd (by assumption) ?_
    | with_reducible intro _
    | dsimp only
    | split

theorem State.addTally_moves (s t n) : Moves [.egress, .counters, .samples, .irqPending, .requests, .waybills, .tallies] s (State.addTally s t n) := by
  unfold State.addTally
  try dsimp only
  repeat' first
    | with_reducible apply Moves.refl
    | with_reducible apply Moves.ite
    | ((with_reducible apply Moves.call (State.changeTally_moves _ _ _)); rfl)
    | ((with_reducible apply Moves.call (State.countLedger_moves _ _ _)); rfl)
    | (simp only [moves_mk]; refine Moves.record ?_)
    | with_reducible apply Moves.foldl
    | with_reducible apply Moves.foldl_snd
    | with_reducible apply Moves.ite_snd
    | with_reducible refine Moves.snd (by assumption) ?_
    | with_reducible intro _
    | dsimp only
    | split

theorem State.finishWb_moves (s w rcd) : Moves [.regs, .egress, .counters, .samples, .irqPending, .requests, .waybills, .tallies, .contexts] s (State.finishWb s w rcd) := by
  unfold State.finishWb
  try dsimp only
  repeat' first
    | with_reducible apply Moves.refl
    | with_reducible apply Moves.ite
    | ((with_reducible apply Moves.call (State.leaveCtx_moves _ _)); rfl)
    | ((with_reducible apply Moves.call (State.setReg_moves _ _ _)); rfl)
    | ((with_reducible apply Moves.call (State.addTally_moves _ _ _)); rfl)
    | ((with_reducible apply Moves.call (State.originate_moves _ _ _)); rfl)
    | ((with_reducible apply Moves.call (State.countCluster_moves _ _ _ _)); rfl)
    | (simp only [moves_mk]; refine Moves.record ?_)
    | with_reducible apply Moves.foldl
    | with_reducible apply Moves.foldl_snd
    | with_reducible apply Moves.ite_snd
    | with_reducible refine Moves.snd (by assumption) ?_
    | with_reducible intro _
    | dsimp only
    | split

theorem State.putCtr_moves (s d c x) (hx : s.obs.Sound → x.count < 2 ^ 48) : Moves [.counters] s (State.putCtr s d c x) := by
  unfold State.putCtr
  simp only [moves_mk]
  refine Moves.record (Moves.refl _ _) (k_obs := fun h => ⟨h.1, h.2.1, h.2.2.1, ?_⟩)
  intro r hr
  rcases mem_putRow hr with rfl | hr
  · exact hx h
  · exact h.2.2.2 r hr

theorem State.publishRanges_moves (s w) : Moves [.regs, .counters, .irqPending, .tlbs, .faults] s (State.publishRanges s w).2 := by
  unfold State.publishRanges
  try dsimp only
  repeat' first
    | with_reducible apply Moves.refl
    | with_reducible apply Moves.ite
    | ((with_reducible apply Moves.call (State.porterXl_moves _ _ _ _ _)); rfl)
    | (simp only [moves_mk]; refine Moves.record ?_)
    | with_reducible apply Moves.foldl
    | with_reducible apply Moves.foldl_snd
    | with_reducible apply Moves.ite_snd
    | with_reducible refine Moves.snd (by assumption) ?_
    | with_reducible intro _
    | dsimp only
    | split

theorem State.lrcDrop_moves (s pa len) : Moves [.lrc] s (State.lrcDrop s pa len) := by
  unfold State.lrcDrop
  try dsimp only
  repeat' first
    | with_reducible apply Moves.refl
    | with_reducible apply Moves.ite
    | (simp only [moves_mk]; refine Moves.record ?_)
    | with_reducible apply Moves.foldl
    | with_reducible apply Moves.foldl_snd
    | with_reducible apply Moves.ite_snd
    | with_reducible refine Moves.snd (by assumption) ?_
    | with_reducible intro _
    | dsimp only
    | split

theorem State.lrcPublish_moves (s pa len) : Moves [.counters, .irqPending, .lrc] s (State.lrcPublish s pa len) := by
  unfold State.lrcPublish
  try dsimp only
  repeat' first
    | with_reducible apply Moves.refl
    | with_reducible apply Moves.ite
    | ((with_reducible apply Moves.call (State.countN_moves _ _ _ _ _ _)); rfl)
    | ((with_reducible apply Moves.call (State.lrcDrop_moves _ _ _)); rfl)
    | (simp only [moves_mk]; refine Moves.record ?_)
    | with_reducible apply Moves.foldl
    | with_reducible apply Moves.foldl_snd
    | with_reducible apply Moves.ite_snd
    | with_reducible refine Moves.snd (by assumption) ?_
    | with_reducible intro _
    | dsimp only
    | split

theorem State.publishDrop_moves (s w) : Moves [.regs, .counters, .irqPending, .lrc, .tlbs, .faults] s (State.publishDrop s w) := by
  unfold State.publishDrop
  try dsimp only
  repeat' first
    | with_reducible apply Moves.refl
    | with_reducible apply Moves.ite
    | ((with_reducible apply Moves.call (State.publishRanges_moves _ _)); rfl)
    | ((with_reducible apply Moves.call (State.lrcPublish_moves _ _ _)); rfl)
    | (simp only [moves_mk]; refine Moves.record ?_)
    | with_reducible apply Moves.foldl
    | with_reducible apply Moves.foldl_snd
    | with_reducible apply Moves.ite_snd
    | with_reducible refine Moves.snd (by assumption) ?_
    | with_reducible intro _
    | dsimp only
    | split

theorem State.emptyQueue_moves (s gh q) : Moves [.egress, .samples] s (State.emptyQueue s gh q) := by
  unfold State.emptyQueue
  try dsimp only
  repeat' first
    | with_reducible apply Moves.refl
    | with_reducible apply Moves.ite
    | ((with_reducible apply Moves.call (State.joinQueue_moves _ _ _)); rfl)
    | ((with_reducible apply Moves.call (State.discardQ_moves _ _ _)); rfl)
    | (simp only [moves_mk]; refine Moves.record ?_)
    | with_reducible apply Moves.foldl
    | with_reducible apply Moves.foldl_snd
    | with_reducible apply Moves.ite_snd
    | with_reducible refine Moves.snd (by assumption) ?_
    | with_reducible intro _
    | dsimp only
    | split

theorem State.convRead_moves (s w cl g e0 e1) : Moves [.regs, .egress, .peers, .counters, .samples, .log, .irqPending, .keyCaches, .guests, .requests, .lrc, .tlbs, .faults, .coherence, .streams, .chans, .dram, .out, .free] s (State.convRead s w cl g e0 e1).2.2 := by
  unfold State.convRead
  try dsimp only
  repeat' first
    | with_reducible apply Moves.refl
    | with_reducible apply Moves.ite
    | ((with_reducible apply Moves.call (State.readRange_moves _ _ _ _ _ _ _)); rfl)
    | (simp only [moves_mk]; refine Moves.record ?_)
    | with_reducible apply Moves.foldl
    | with_reducible apply Moves.foldl_snd
    | with_reducible apply Moves.ite_snd
    | with_reducible refine Moves.snd (by assumption) ?_
    | with_reducible intro _
    | dsimp only
    | split

theorem State.slotBytes_moves (s gid pa) : Moves [.egress, .counters, .samples, .log, .irqPending, .keyCaches, .guests, .requests, .lrc, .streams, .chans, .dram, .out, .free] s (State.slotBytes s gid pa).2 := by
  unfold State.slotBytes
  try dsimp only
  repeat' first
    | with_reducible apply Moves.refl
    | with_reducible apply Moves.ite
    | ((with_reducible apply Moves.call (State.porterLines_moves _ _ _ _ _)); rfl)
    | (simp only [moves_mk]; refine Moves.record ?_)
    | with_reducible apply Moves.foldl
    | with_reducible apply Moves.foldl_snd
    | with_reducible apply Moves.ite_snd
    | with_reducible refine Moves.snd (by assumption) ?_
    | with_reducible intro _
    | dsimp only
    | split

theorem State.refetchWb_moves (s key) : Moves [.regs, .egress, .counters, .samples, .log, .irqPending, .keyCaches, .guests, .requests, .lrc, .tlbs, .faults, .streams, .waybills, .chans, .dram, .out, .free] s (State.refetchWb s key) := by
  unfold State.refetchWb
  try dsimp only
  repeat' first
    | with_reducible apply Moves.refl
    | with_reducible apply Moves.ite
    | ((with_reducible apply Moves.call (State.porterXl_moves _ _ _ _ _)); rfl)
    | ((with_reducible apply Moves.call (State.slotBytes_moves _ _ _)); rfl)
    | ((with_reducible apply Moves.call (State.onWb_moves _ _ _)); rfl)
    | (simp only [moves_mk]; refine Moves.record ?_)
    | with_reducible apply Moves.foldl
    | with_reducible apply Moves.foldl_snd
    | with_reducible apply Moves.ite_snd
    | with_reducible refine Moves.snd (by assumption) ?_
    | with_reducible intro _
    | dsimp only
    | split

theorem State.withWords_moves {ps} {s0 s : State} {key f} (k : Part.within [.regs, .egress, .counters, .samples, .log, .irqPending, .keyCaches, .guests, .requests, .lrc, .tlbs, .faults, .streams, .waybills, .chans, .dram, .out, .free] ps = true) (b : Moves ps s0 s)
    (hf : ∀ u, Moves ps u (f u)) : Moves ps s0 (State.withWords s key f) := by
  unfold State.withWords
  dsimp only
  split
  · exact Moves.call (State.refetchWb_moves _ _) (Part.within_trans rfl k) b
  · exact (Moves.call (State.refetchWb_moves _ _) (Part.within_trans rfl k) b).trans (hf _)

theorem State.effect_moves {ps} {s0 s : State} {stream seq opc f} (k : Part.within [.regs, .egress, .counters, .samples, .log, .irqPending, .keyCaches, .guests, .requests, .lrc, .tlbs, .faults, .streams, .waybills, .chans, .dram, .out, .free] ps = true) (b : Moves ps s0 s)
    (hf : ∀ u w, Moves ps u (f u w)) : Moves ps s0 (State.effect s stream seq opc f) := by
  unfold State.effect
  refine State.withWords_moves (Part.within_trans rfl k) b fun u => ?_
  split
  · exact Moves.refl _ _
  · split
    · exact hf _ _
    · exact Moves.refl _ _

theorem State.putThrough_moves (s pa gid bs) : Moves [.egress, .counters, .samples, .log, .irqPending, .keyCaches, .guests, .requests, .streams, .chans, .dram, .out, .free] s (State.putThrough s pa gid bs) := by
  unfold State.putThrough
  try dsimp only
  repeat' first
    | with_reducible apply Moves.refl
    | with_reducible apply Moves.ite
    | ((with_reducible apply Moves.call (State.wcbWrite_moves _ _ _ _ _)); rfl)
    | ((with_reducible apply Moves.call (State.drainLine_moves _ _ _)); rfl)
    | (simp only [moves_mk]; refine Moves.record ?_)
    | with_reducible apply Moves.foldl
    | with_reducible apply Moves.foldl_snd
    | with_reducible apply Moves.ite_snd
    | with_reducible refine Moves.snd (by assumption) ?_
    | with_reducible intro _
    | dsimp only
    | split

theorem State.zeroArea_moves (s pa len gid) : Moves [.egress, .counters, .samples, .log, .irqPending, .keyCaches, .guests, .requests, .streams, .chans, .dram, .out, .free] s (State.zeroArea s pa len gid) := by
  unfold State.zeroArea
  try dsimp only
  repeat' first
    | with_reducible apply Moves.refl
    | with_reducible apply Moves.ite
    | ((with_reducible apply Moves.call (State.putThrough_moves _ _ _ _)); rfl)
    | (simp only [moves_mk]; refine Moves.record ?_)
    | with_reducible apply Moves.foldl
    | with_reducible apply Moves.foldl_snd
    | with_reducible apply Moves.ite_snd
    | with_reducible refine Moves.snd (by assumption) ?_
    | with_reducible intro _
    | dsimp only
    | split

theorem State.zeroTable_moves (s t) : Moves [.egress, .counters, .samples, .log, .irqPending, .keyCaches, .guests, .requests, .streams, .chans, .dram, .out, .free] s (State.zeroTable s t) := by
  unfold State.zeroTable
  try dsimp only
  repeat' first
    | with_reducible apply Moves.refl
    | with_reducible apply Moves.ite
    | ((with_reducible apply Moves.call (State.zeroArea_moves _ _ _ _)); rfl)
    | (simp only [moves_mk]; refine Moves.record ?_)
    | with_reducible apply Moves.foldl
    | with_reducible apply Moves.foldl_snd
    | with_reducible apply Moves.ite_snd
    | with_reducible refine Moves.snd (by assumption) ?_
    | with_reducible intro _
    | dsimp only
    | split

theorem State.zeroFreed_moves (s gid) : Moves [.egress, .counters, .samples, .log, .irqPending, .keyCaches, .guests, .requests, .streams, .chans, .dram, .out, .free] s (State.zeroFreed s gid) := by
  unfold State.zeroFreed
  try dsimp only
  repeat' first
    | with_reducible apply Moves.refl
    | with_reducible apply Moves.ite
    | ((with_reducible apply Moves.call (State.zeroArea_moves _ _ _ _)); rfl)
    | ((with_reducible apply Moves.call (State.zeroTable_moves _ _)); rfl)
    | ((with_reducible apply Moves.call (State.putThrough_moves _ _ _ _)); rfl)
    | (simp only [moves_mk]; refine Moves.record ?_)
    | with_reducible apply Moves.foldl
    | with_reducible apply Moves.foldl_snd
    | with_reducible apply Moves.ite_snd
    | with_reducible refine Moves.snd (by assumption) ?_
    | with_reducible intro _
    | dsimp only
    | split

theorem State.countIk_moves (s ev sel) : Moves [.counters, .irqPending] s (State.countIk s ev sel) := by
  unfold State.countIk
  try dsimp only
  repeat' first
    | with_reducible apply Moves.refl
    | with_reducible apply Moves.ite
    | ((with_reducible apply Moves.call (State.count_moves _ _ _ _ _)); rfl)
    | (simp only [moves_mk]; refine Moves.record ?_)
    | with_reducible apply Moves.foldl
    | with_reducible apply Moves.foldl_snd
    | with_reducible apply Moves.ite_snd
    | with_reducible refine Moves.snd (by assumption) ?_
    | with_reducible intro _
    | dsimp only
    | split

theorem State.setHole_moves (s h x) : Moves [.holes] s (State.setHole s h x) := by
  unfold State.setHole
  try dsimp only
  repeat' first
    | with_reducible apply Moves.refl
    | with_reducible apply Moves.ite
    | (simp only [moves_mk]; refine Moves.record ?_)
    | with_reducible apply Moves.foldl
    | with_reducible apply Moves.foldl_snd
    | with_reducible apply Moves.ite_snd
    | with_reducible refine Moves.snd (by assumption) ?_
    | with_reducible intro _
    | dsimp only
    | split

theorem State.pigeon_moves (s t p) : Moves [.egress, .counters, .samples, .irqPending, .holes, .requests] s (State.pigeon s t p) := by
  unfold State.pigeon
  try dsimp only
  repeat' first
    | with_reducible apply Moves.refl
    | with_reducible apply Moves.ite
    | ((with_reducible apply Moves.call (State.countIk_moves _ _ _)); rfl)
    | ((with_reducible apply Moves.call (State.endReq_moves _ _ _ _ _)); rfl)
    | ((with_reducible apply Moves.call (State.setHole_moves _ _ _)); rfl)
    | (simp only [moves_mk]; refine Moves.record ?_)
    | with_reducible apply Moves.foldl
    | with_reducible apply Moves.foldl_snd
    | with_reducible apply Moves.ite_snd
    | with_reducible refine Moves.snd (by assumption) ?_
    | with_reducible intro _
    | dsimp only
    | split

theorem State.dropRevert_moves (s) : Moves [.ik] s (State.dropRevert s) := by
  unfold State.dropRevert
  try dsimp only
  repeat' first
    | with_reducible apply Moves.refl
    | with_reducible apply Moves.ite
    | (simp only [moves_mk]; refine Moves.record ?_)
    | with_reducible apply Moves.foldl
    | with_reducible apply Moves.foldl_snd
    | with_reducible apply Moves.ite_snd
    | with_reducible refine Moves.snd (by assumption) ?_
    | with_reducible intro _
    | dsimp only
    | split

theorem State.walked_moves (s t r) : Moves [.regs, .egress, .counters, .samples, .log, .irqPending, .keyCaches, .guests, .requests, .lrc, .tlbs, .faults, .coherence, .streams, .chans, .dram, .out, .free] s (State.walked s t r) := by
  unfold State.walked
  try dsimp only
  repeat' first
    | with_reducible apply Moves.refl
    | with_reducible apply Moves.ite
    | ((with_reducible apply Moves.call (State.xlWalk_moves _ _ _ _)); rfl)
    | ((with_reducible apply Moves.call (State.onPages_moves _ _ _ _)); rfl)
    | (simp only [moves_mk]; refine Moves.record ?_)
    | with_reducible apply Moves.foldl
    | with_reducible apply Moves.foldl_snd
    | with_reducible apply Moves.ite_snd
    | with_reducible refine Moves.snd (by assumption) ?_
    | with_reducible intro _
    | dsimp only
    | split

theorem State.rewalk_moves (s t) : Moves [.regs, .egress, .counters, .samples, .log, .irqPending, .keyCaches, .guests, .requests, .lrc, .tlbs, .faults, .coherence, .streams, .chans, .dram, .out, .free] s (State.rewalk s t) := by
  unfold State.rewalk
  try dsimp only
  repeat' first
    | with_reducible apply Moves.refl
    | with_reducible apply Moves.ite
    | ((with_reducible apply Moves.call (State.walked_moves _ _ _)); rfl)
    | ((with_reducible apply Moves.call (State.leaveQ_moves _ _ _)); rfl)
    | (simp only [moves_mk]; refine Moves.record ?_)
    | with_reducible apply Moves.foldl
    | with_reducible apply Moves.foldl_snd
    | with_reducible apply Moves.ite_snd
    | with_reducible refine Moves.snd (by assumption) ?_
    | with_reducible intro _
    | dsimp only
    | split

theorem State.onStream_moves (s k f) : Moves [.streams] s (State.onStream s k f) := by
  unfold State.onStream
  try dsimp only
  repeat' first
    | with_reducible apply Moves.refl
    | with_reducible apply Moves.ite
    | (simp only [moves_mk]; refine Moves.record ?_)
    | with_reducible apply Moves.foldl
    | with_reducible apply Moves.foldl_snd
    | with_reducible apply Moves.ite_snd
    | with_reducible refine Moves.snd (by assumption) ?_
    | with_reducible intro _
    | dsimp only
    | split

theorem State.unholdFetch_moves (s k) : Moves [.regs, .counters, .irqPending, .requests, .faults, .streams, .waybills, .contexts] s (State.unholdFetch s k) := by
  unfold State.unholdFetch
  try dsimp only
  repeat' first
    | with_reducible apply Moves.refl
    | with_reducible apply Moves.ite
    | ((with_reducible apply Moves.call (State.endHold_moves _ _)); rfl)
    | ((with_reducible apply Moves.call (State.onStream_moves _ _ _)); rfl)
    | (simp only [moves_mk]; refine Moves.record ?_)
    | with_reducible apply Moves.foldl
    | with_reducible apply Moves.foldl_snd
    | with_reducible apply Moves.ite_snd
    | with_reducible refine Moves.snd (by assumption) ?_
    | with_reducible intro _
    | dsimp only
    | split

theorem State.unholdCtx_moves (s r) : Moves [.regs, .counters, .irqPending, .requests, .faults, .streams, .waybills, .contexts] s (State.unholdCtx s r) := by
  unfold State.unholdCtx
  try dsimp only
  repeat' first
    | with_reducible apply Moves.refl
    | with_reducible apply Moves.ite
    | ((with_reducible apply Moves.call (State.endHold_moves _ _)); rfl)
    | ((with_reducible apply Moves.call (State.onCtx_moves _ _ _)); rfl)
    | (simp only [moves_mk]; refine Moves.record ?_)
    | with_reducible apply Moves.foldl
    | with_reducible apply Moves.foldl_snd
    | with_reducible apply Moves.ite_snd
    | with_reducible refine Moves.snd (by assumption) ?_
    | with_reducible intro _
    | dsimp only
    | split

theorem State.retranslate_moves (s gid spans) : Moves [.regs, .egress, .counters, .samples, .log, .irqPending, .keyCaches, .guests, .requests, .lrc, .tlbs, .faults, .coherence, .streams, .waybills, .contexts, .chans, .dram, .out, .free] s (State.retranslate s gid spans) := by
  unfold State.retranslate
  try dsimp only
  repeat' first
    | with_reducible apply Moves.refl
    | with_reducible apply Moves.ite
    | ((with_reducible apply Moves.call (State.rewalk_moves _ _)); rfl)
    | ((with_reducible apply Moves.call (State.unhold_moves _ _ _)); rfl)
    | ((with_reducible apply Moves.call (State.unholdFetch_moves _ _)); rfl)
    | ((with_reducible apply Moves.call (State.unholdCtx_moves _ _)); rfl)
    | (simp only [moves_mk]; refine Moves.record ?_)
    | with_reducible apply Moves.foldl
    | with_reducible apply Moves.foldl_snd
    | with_reducible apply Moves.ite_snd
    | with_reducible refine Moves.snd (by assumption) ?_
    | with_reducible intro _
    | dsimp only
    | split

theorem State.settleGranule_moves (s key c g cl kind) : Moves [.counters, .irqPending] s (State.settleGranule s key c g cl kind) := by
  unfold State.settleGranule
  try dsimp only
  repeat' first
    | with_reducible apply Moves.refl
    | with_reducible apply Moves.ite
    | ((with_reducible apply Moves.call (State.settleSlots_moves _ _ _ _ _ _)); rfl)
    | (simp only [moves_mk]; refine Moves.record ?_)
    | with_reducible apply Moves.foldl
    | with_reducible apply Moves.foldl_snd
    | with_reducible apply Moves.ite_snd
    | with_reducible refine Moves.snd (by assumption) ?_
    | with_reducible intro _
    | dsimp only
    | split

theorem State.commitElem_moves (s key c i flags poison degraded) : Moves [.regs, .egress, .counters, .samples, .log, .irqPending, .keyCaches, .guests, .requests, .faults, .coherence, .streams, .waybills, .contexts, .chans, .dram, .out, .free] s (State.commitElem s key c i flags poison degraded) := by
  unfold State.commitElem
  try dsimp only
  repeat' first
    | with_reducible apply Moves.refl
    | with_reducible apply Moves.ite
    | ((with_reducible apply Moves.call (State.onWb_moves _ _ _)); rfl)
    | ((with_reducible apply Moves.call (State.closeChunk_moves _ _ _)); rfl)
    | ((with_reducible apply Moves.call (State.settleGranule_moves _ _ _ _ _ _)); rfl)
    | ((with_reducible apply Moves.call (State.countCluster_moves _ _ _ _)); rfl)
    | ((with_reducible apply Moves.call (State.uncachedFree_moves _ _)); rfl)
    | ((with_reducible apply Moves.call (State.unhold_moves _ _ _)); rfl)
    | (simp only [moves_mk]; refine Moves.record ?_)
    | with_reducible apply Moves.foldl
    | with_reducible apply Moves.foldl_snd
    | with_reducible apply Moves.ite_snd
    | with_reducible refine Moves.snd (by assumption) ?_
    | with_reducible intro _
    | dsimp only
    | split

theorem State.drainRange_moves (s pa len) : Moves [.egress, .counters, .samples, .log, .irqPending, .keyCaches, .guests, .requests, .streams, .chans, .dram, .out, .free] s (State.drainRange s pa len).2 := by
  unfold State.drainRange
  try dsimp only
  repeat' first
    | with_reducible apply Moves.refl
    | with_reducible apply Moves.ite
    | ((with_reducible apply Moves.call (State.drainLine_moves _ _ _)); rfl)
    | (simp only [moves_mk]; refine Moves.record ?_)
    | with_reducible apply Moves.foldl
    | with_reducible apply Moves.foldl_snd
    | with_reducible apply Moves.ite_snd
    | with_reducible refine Moves.snd (by assumption) ?_
    | with_reducible intro _
    | dsimp only
    | split

theorem State.publishCtx_moves (s x) : Moves [.egress, .counters, .samples, .log, .irqPending, .keyCaches, .guests, .requests, .lrc, .streams, .chans, .dram, .out, .free] s (State.publishCtx s x).2 := by
  unfold State.publishCtx
  try dsimp only
  repeat' first
    | with_reducible apply Moves.refl
    | with_reducible apply Moves.ite
    | ((with_reducible apply Moves.call (State.drainRange_moves _ _ _)); rfl)
    | ((with_reducible apply Moves.call (State.lrcPublish_moves _ _ _)); rfl)
    | (simp only [moves_mk]; refine Moves.record ?_)
    | with_reducible apply Moves.foldl
    | with_reducible apply Moves.foldl_snd
    | with_reducible apply Moves.ite_snd
    | with_reducible refine Moves.snd (by assumption) ?_
    | with_reducible intro _
    | dsimp only
    | split

theorem State.takeLaneMapAck_moves (s l lane map) : Moves [.links] s (State.takeLaneMapAck s l lane map) := by
  unfold State.takeLaneMapAck
  try dsimp only
  repeat' first
    | with_reducible apply Moves.refl
    | with_reducible apply Moves.ite
    | ((with_reducible apply Moves.call (State.onLink_moves _ _ _)); rfl)
    | (simp only [moves_mk]; refine Moves.record ?_)
    | with_reducible apply Moves.foldl
    | with_reducible apply Moves.foldl_snd
    | with_reducible apply Moves.ite_snd
    | with_reducible refine Moves.snd (by assumption) ?_
    | with_reducible intro _
    | dsimp only
    | split

theorem State.startClose_moves (s key) : Moves [.waybills] s (State.startClose s key) := by
  unfold State.startClose
  try dsimp only
  repeat' first
    | with_reducible apply Moves.refl
    | with_reducible apply Moves.ite
    | (simp only [moves_mk]; refine Moves.record ?_)
    | with_reducible apply Moves.foldl
    | with_reducible apply Moves.foldl_snd
    | with_reducible apply Moves.ite_snd
    | with_reducible refine Moves.snd (by assumption) ?_
    | with_reducible intro _
    | dsimp only
    | split

theorem State.leavePool_moves (s inLink vc blocks) : Moves [.links] s (State.leavePool s inLink vc blocks) := by
  unfold State.leavePool
  try dsimp only
  repeat' first
    | with_reducible apply Moves.refl
    | with_reducible apply Moves.ite
    | ((with_reducible apply Moves.call (State.onLink_moves _ _ _)); rfl)
    | (simp only [moves_mk]; refine Moves.record ?_)
    | with_reducible apply Moves.foldl
    | with_reducible apply Moves.foldl_snd
    | with_reducible apply Moves.ite_snd
    | with_reducible refine Moves.snd (by assumption) ?_
    | with_reducible intro _
    | dsimp only
    | split

theorem State.unpool_moves (s l p) : Moves [.links, .samples] s (State.unpool s l p) := by
  unfold State.unpool
  try dsimp only
  repeat' first
    | with_reducible apply Moves.refl
    | with_reducible apply Moves.ite
    | ((with_reducible apply Moves.call (State.leaveQ_moves _ _ _)); rfl)
    | ((with_reducible apply Moves.call (State.leavePool_moves _ _ _ _)); rfl)
    | (simp only [moves_mk]; refine Moves.record ?_)
    | with_reducible apply Moves.foldl
    | with_reducible apply Moves.foldl_snd
    | with_reducible apply Moves.ite_snd
    | with_reducible refine Moves.snd (by assumption) ?_
    | with_reducible intro _
    | dsimp only
    | split

theorem State.unclaim_moves (s c) : Moves [.links, .samples] s (State.unclaim s c) := by
  unfold State.unclaim
  try dsimp only
  repeat' first
    | with_reducible apply Moves.refl
    | with_reducible apply Moves.ite
    | ((with_reducible apply Moves.call (State.unpool_moves _ _ _)); rfl)
    | (simp only [moves_mk]; refine Moves.record ?_)
    | with_reducible apply Moves.foldl
    | with_reducible apply Moves.foldl_snd
    | with_reducible apply Moves.ite_snd
    | with_reducible refine Moves.snd (by assumption) ?_
    | with_reducible intro _
    | dsimp only
    | split

theorem State.setKeys_moves (s l ks) : Moves [.regs, .routes] s (State.setKeys s l ks) := by
  unfold State.setKeys
  try dsimp only
  repeat' first
    | with_reducible apply Moves.refl
    | with_reducible apply Moves.ite
    | ((with_reducible apply Moves.call (State.setReg_moves _ _ _)); rfl)
    | (simp only [moves_mk]; refine Moves.record ?_)
    | with_reducible apply Moves.foldl
    | with_reducible apply Moves.foldl_snd
    | with_reducible apply Moves.ite_snd
    | with_reducible refine Moves.snd (by assumption) ?_
    | with_reducible intro _
    | dsimp only
    | split

theorem State.clusterSlots_moves (s cl) : Moves [.counters, .irqPending] s (State.clusterSlots s cl) := by
  unfold State.clusterSlots
  try dsimp only
  repeat' first
    | with_reducible apply Moves.refl
    | with_reducible apply Moves.ite
    | ((with_reducible apply Moves.call (State.countSlots_moves _ _ _ _)); rfl)
    | (simp only [moves_mk]; refine Moves.record ?_)
    | with_reducible apply Moves.foldl
    | with_reducible apply Moves.foldl_snd
    | with_reducible apply Moves.ite_snd
    | with_reducible refine Moves.snd (by assumption) ?_
    | with_reducible intro _
    | dsimp only
    | split

theorem State.sendPdu_moves (s via trk pdu) : Moves [.egress, .counters, .samples, .irqPending, .requests, .out] s (State.sendPdu s via trk pdu) := by
  unfold State.sendPdu
  try dsimp only
  repeat' first
    | with_reducible apply Moves.refl
    | with_reducible apply Moves.ite
    | ((with_reducible apply Moves.call (State.emit_moves _ _)); rfl)
    | ((with_reducible apply Moves.call (State.onReq_moves _ _ _)); rfl)
    | ((with_reducible apply Moves.call (State.originate_moves _ _ _)); rfl)
    | (simp only [moves_mk]; refine Moves.record ?_)
    | with_reducible apply Moves.foldl
    | with_reducible apply Moves.foldl_snd
    | with_reducible apply Moves.ite_snd
    | with_reducible refine Moves.snd (by assumption) ?_
    | with_reducible intro _
    | dsimp only
    | split

theorem State.publishWrite_moves (s pa gid bs) : Moves [.egress, .counters, .samples, .log, .irqPending, .keyCaches, .guests, .requests, .lrc, .coherence, .streams, .chans, .dram, .out, .free] s (State.publishWrite s pa gid bs).2 := by
  unfold State.publishWrite
  try dsimp only
  repeat' first
    | with_reducible apply Moves.refl
    | with_reducible apply Moves.ite
    | ((with_reducible apply Moves.call (State.uncachedStart_moves _ _ _ _)); rfl)
    | ((with_reducible apply Moves.call (State.drainLine_moves _ _ _)); rfl)
    | ((with_reducible apply Moves.call (State.wcbWrite_moves _ _ _ _ _)); rfl)
    | ((with_reducible apply Moves.call (State.lrcPublish_moves _ _ _)); rfl)
    | (simp only [moves_mk]; refine Moves.record ?_)
    | with_reducible apply Moves.foldl
    | with_reducible apply Moves.foldl_snd
    | with_reducible apply Moves.ite_snd
    | with_reducible refine Moves.snd (by assumption) ?_
    | with_reducible intro _
    | dsimp only
    | split

theorem State.completeWb_moves (s key) : Moves [.regs, .egress, .counters, .samples, .log, .irqPending, .keyCaches, .guests, .requests, .lrc, .coherence, .streams, .waybills, .tallies, .contexts, .chans, .dram, .out, .free] s (State.completeWb s key) := by
  unfold State.completeWb
  try dsimp only
  repeat' first
    | with_reducible apply Moves.refl
    | with_reducible apply Moves.ite
    | ((with_reducible apply Moves.call (State.publishWrite_moves _ _ _ _)); rfl)
    | ((with_reducible apply Moves.call (State.finishWb_moves _ _ _)); rfl)
    | (simp only [moves_mk]; refine Moves.record ?_)
    | with_reducible apply Moves.foldl
    | with_reducible apply Moves.foldl_snd
    | with_reducible apply Moves.ite_snd
    | with_reducible refine Moves.snd (by assumption) ?_
    | with_reducible intro _
    | dsimp only
    | split

theorem State.migrFail_moves (s) : Moves [.regs, .egress, .peers, .counters, .samples, .log, .irqPending, .keyCaches, .guests, .requests, .lrc, .tlbs, .commit, .faults, .coherence, .streams, .waybills, .contexts, .chans, .dram, .out, .free] s (State.migrFail s) := by
  unfold State.migrFail
  try dsimp only
  repeat' first
    | with_reducible apply Moves.refl
    | with_reducible apply Moves.ite
    | ((with_reducible apply Moves.call (State.setReg_moves _ _ _)); rfl)
    | ((with_reducible apply Moves.call (State.retranslate_moves _ _ _)); rfl)
    | ((with_reducible apply Moves.call (State.closeFault_moves _ _)); rfl)
    | (simp only [moves_mk]; refine Moves.record ?_)
    | with_reducible apply Moves.foldl
    | with_reducible apply Moves.foldl_snd
    | with_reducible apply Moves.ite_snd
    | with_reducible refine Moves.snd (by assumption) ?_
    | with_reducible intro _
    | dsimp only
    | split

theorem State.onSub_moves (s ch k f) : Moves [.chans] s (State.onSub s ch k f) := by
  unfold State.onSub
  try dsimp only
  repeat' first
    | with_reducible apply Moves.refl
    | with_reducible apply Moves.ite
    | ((with_reducible apply Moves.call (State.onChan_moves _ _ _)); rfl)
    | (simp only [moves_mk]; refine Moves.record ?_)
    | with_reducible apply Moves.foldl
    | with_reducible apply Moves.foldl_snd
    | with_reducible apply Moves.ite_snd
    | with_reducible refine Moves.snd (by assumption) ?_
    | with_reducible intro _
    | dsimp only
    | split

theorem State.dramCmd_moves (s ch k sel cmd) : Moves [.counters, .irqPending, .chans, .out] s (State.dramCmd s ch k sel cmd) := by
  unfold State.dramCmd
  try dsimp only
  repeat' first
    | with_reducible apply Moves.refl
    | with_reducible apply Moves.ite
    | ((with_reducible apply Moves.call (State.countChan_moves _ _ _ _)); rfl)
    | ((with_reducible apply Moves.call (State.emit_moves _ _)); rfl)
    | ((with_reducible apply Moves.call (State.onSub_moves _ _ _ _)); rfl)
    | (simp only [moves_mk]; refine Moves.record ?_)
    | with_reducible apply Moves.foldl
    | with_reducible apply Moves.foldl_snd
    | with_reducible apply Moves.ite_snd
    | with_reducible refine Moves.snd (by assumption) ?_
    | with_reducible intro _
    | dsimp only
    | split

theorem State.ledgerCycles_moves (s n) : Moves [.counters, .irqPending] s (State.ledgerCycles s n) := by
  unfold State.ledgerCycles
  try dsimp only
  repeat' first
    | with_reducible apply Moves.refl
    | with_reducible apply Moves.ite
    | ((with_reducible apply Moves.call (State.countN_moves _ _ _ _ _ _)); rfl)
    | (simp only [moves_mk]; refine Moves.record ?_)
    | with_reducible apply Moves.foldl
    | with_reducible apply Moves.foldl_snd
    | with_reducible apply Moves.ite_snd
    | with_reducible refine Moves.snd (by assumption) ?_
    | with_reducible intro _
    | dsimp only
    | split

theorem State.replyTo_moves (s q p r keys) : Moves [.egress, .counters, .samples, .irqPending, .requests, .out] s (State.replyTo s q p r keys) := by
  unfold State.replyTo
  try dsimp only
  repeat' first
    | with_reducible apply Moves.refl
    | with_reducible apply Moves.ite
    | ((with_reducible apply Moves.call (State.countIk_moves _ _ _)); rfl)
    | ((with_reducible apply Moves.call (State.sendPdu_moves _ _ _ _)); rfl)
    | (simp only [moves_mk]; refine Moves.record ?_)
    | with_reducible apply Moves.foldl
    | with_reducible apply Moves.foldl_snd
    | with_reducible apply Moves.ite_snd
    | with_reducible refine Moves.snd (by assumption) ?_
    | with_reducible intro _
    | dsimp only
    | split

theorem State.discardPool_moves (s l) : Moves [.egress, .samples, .requests] s (State.discardPool s l) := by
  unfold State.discardPool
  try dsimp only
  repeat' first
    | with_reducible apply Moves.refl
    | with_reducible apply Moves.ite
    | ((with_reducible apply Moves.call (State.discardQ_moves _ _ _)); rfl)
    | (simp only [moves_mk]; refine Moves.record ?_)
    | with_reducible apply Moves.foldl
    | with_reducible apply Moves.foldl_snd
    | with_reducible apply Moves.ite_snd
    | with_reducible refine Moves.snd (by assumption) ?_
    | with_reducible intro _
    | dsimp only
    | split

theorem State.toDetect_moves (s l) : Moves [.links, .egress, .samples, .requests] s (State.toDetect s l) := by
  unfold State.toDetect
  try dsimp only
  repeat' first
    | with_reducible apply Moves.refl
    | with_reducible apply Moves.ite
    | ((with_reducible apply Moves.call (State.discardPool_moves _ _)); rfl)
    | ((with_reducible apply Moves.call (State.onLink_moves _ _ _)); rfl)
    | (simp only [moves_mk]; refine Moves.record ?_)
    | with_reducible apply Moves.foldl
    | with_reducible apply Moves.foldl_snd
    | with_reducible apply Moves.ite_snd
    | with_reducible refine Moves.snd (by assumption) ?_
    | with_reducible intro _
    | dsimp only
    | split

theorem State.wakeLink_moves (s l) : Moves [.links, .irqPending] s (State.wakeLink s l) := by
  unfold State.wakeLink
  try dsimp only
  repeat' first
    | with_reducible apply Moves.refl
    | with_reducible apply Moves.ite
    | ((with_reducible apply Moves.call (State.irqEdge_moves _ _)); rfl)
    | ((with_reducible apply Moves.call (State.onLink_moves _ _ _)); rfl)
    | (simp only [moves_mk]; refine Moves.record ?_)
    | with_reducible apply Moves.foldl
    | with_reducible apply Moves.foldl_snd
    | with_reducible apply Moves.ite_snd
    | with_reducible refine Moves.snd (by assumption) ?_
    | with_reducible intro _
    | dsimp only
    | split

theorem State.wakeNightLinks_moves (s) : Moves [.night, .links, .egress, .samples, .irqPending, .requests] s (State.wakeNightLinks s) := by
  unfold State.wakeNightLinks
  try dsimp only
  repeat' first
    | with_reducible apply Moves.refl
    | with_reducible apply Moves.ite
    | ((with_reducible apply Moves.call (State.toDetect_moves _ _)); rfl)
    | ((with_reducible apply Moves.call (State.wakeLink_moves _ _)); rfl)
    | (simp only [moves_mk]; refine Moves.record ?_)
    | with_reducible apply Moves.foldl
    | with_reducible apply Moves.foldl_snd
    | with_reducible apply Moves.ite_snd
    | with_reducible refine Moves.snd (by assumption) ?_
    | with_reducible intro _
    | dsimp only
    | split

theorem State.guestResult_moves (s v) : Moves [.regs] s (State.guestResult s v) := by
  unfold State.guestResult
  try dsimp only
  repeat' first
    | with_reducible apply Moves.refl
    | with_reducible apply Moves.ite
    | ((with_reducible apply Moves.call (State.setReg_moves _ _ _)); rfl)
    | (simp only [moves_mk]; refine Moves.record ?_)
    | with_reducible apply Moves.foldl
    | with_reducible apply Moves.foldl_snd
    | with_reducible apply Moves.ite_snd
    | with_reducible refine Moves.snd (by assumption) ?_
    | with_reducible intro _
    | dsimp only
    | split

theorem State.refuseGuestCmd_moves (s) : Moves [.regs, .free] s (State.refuseGuestCmd s) := by
  unfold State.refuseGuestCmd
  try dsimp only
  repeat' first
    | with_reducible apply Moves.refl
    | with_reducible apply Moves.ite
    | ((with_reducible apply Moves.call (State.useFree_moves _ _)); rfl)
    | ((with_reducible apply Moves.call (State.guestResult_moves _ _)); rfl)
    | (simp only [moves_mk]; refine Moves.record ?_)
    | with_reducible apply Moves.foldl
    | with_reducible apply Moves.foldl_snd
    | with_reducible apply Moves.ite_snd
    | with_reducible refine Moves.snd (by assumption) ?_
    | with_reducible intro _
    | dsimp only
    | split

theorem State.holdOutputs_moves (s) : Moves [.contacts] s (State.holdOutputs s) := by
  unfold State.holdOutputs
  try dsimp only
  repeat' first
    | with_reducible apply Moves.refl
    | with_reducible apply Moves.ite
    | (simp only [moves_mk]; refine Moves.record ?_)
    | with_reducible apply Moves.foldl
    | with_reducible apply Moves.foldl_snd
    | with_reducible apply Moves.ite_snd
    | with_reducible refine Moves.snd (by assumption) ?_
    | with_reducible intro _
    | dsimp only
    | split

theorem State.completeCkpt_moves (s c) : Moves [.counters, .ik, .irqPending] s (State.completeCkpt s c) := by
  unfold State.completeCkpt
  try dsimp only
  repeat' first
    | with_reducible apply Moves.refl
    | with_reducible apply Moves.ite
    | ((with_reducible apply Moves.call (State.countIk_moves _ _ _)); rfl)
    | (simp only [moves_mk]; refine Moves.record ?_)
    | with_reducible apply Moves.foldl
    | with_reducible apply Moves.foldl_snd
    | with_reducible apply Moves.ite_snd
    | with_reducible refine Moves.snd (by assumption) ?_
    | with_reducible intro _
    | dsimp only
    | split

theorem State.recovery_moves (s) : Moves [.phase] s (State.recovery s) := by
  unfold State.recovery
  try dsimp only
  repeat' first
    | with_reducible apply Moves.refl
    | with_reducible apply Moves.ite
    | (simp only [moves_mk]; refine Moves.record ?_)
    | with_reducible apply Moves.foldl
    | with_reducible apply Moves.foldl_snd
    | with_reducible apply Moves.ite_snd
    | with_reducible refine Moves.snd (by assumption) ?_
    | with_reducible intro _
    | dsimp only
    | split

end Sys2Proof.Machine
end

