-- ==== Sys2Proof/Laws/Moves4.lean ====
section
/-! SUPPORT. One lemma for each operation: the parts of the state it may change, and that it keeps what every operation keeps
(Laws/Moves). Part 4 of 8, in the order in which the operations call one another. -/

namespace Sys2Proof.Machine

open Sys2Proof

set_option linter.all false

-- One proof after the other: in parallel, each waits in a thread of its own for the same lemma of `simp only`.
set_option Elab.async false

theorem State.startPlanned_moves (s t) : Moves [.contacts, .counters, .phase, .ik, .irqPending] s (State.startPlanned s t) := by
  unfold State.startPlanned
  try dsimp only
  repeat' first
    | with_reducible apply Moves.refl
    | with_reducible apply Moves.ite
    | ((with_reducible apply Moves.call (State.holdOutputs_moves _)); rfl)
    | ((with_reducible apply Moves.call (State.completeCkpt_moves _ _)); rfl)
    | ((with_reducible apply Moves.call (State.recovery_moves _)); rfl)
    | (simp only [moves_mk]; refine Moves.record ?_)
    | with_reducible apply Moves.foldl
    | with_reducible apply Moves.foldl_snd
    | with_reducible apply Moves.ite_snd
    | with_reducible refine Moves.snd (by assumption) ?_
    | with_reducible intro _
    | dsimp only
    | split

theorem State.startCkpt_moves (s) : Moves [.contacts, .counters, .phase, .ik, .irqPending] s (State.startCkpt s) := by
  unfold State.startCkpt
  try dsimp only
  repeat' first
    | with_reducible apply Moves.refl
    | with_reducible apply Moves.ite
    | ((with_reducible apply Moves.call (State.startPlanned_moves _ _)); rfl)
    | (simp only [moves_mk]; refine Moves.record ?_)
    | with_reducible apply Moves.foldl
    | with_reducible apply Moves.foldl_snd
    | with_reducible apply Moves.ite_snd
    | with_reducible refine Moves.snd (by assumption) ?_
    | with_reducible intro _
    | dsimp only
    | split

theorem State.takeStage_moves (s kib) : Moves [.contexts] s (State.takeStage s kib) := by
  unfold State.takeStage
  try dsimp only
  repeat' first
    | with_reducible apply Moves.refl
    | with_reducible apply Moves.ite
    | (simp only [moves_mk]; refine Moves.record ?_)
    | with_reducible apply Moves.foldl
    | with_reducible apply Moves.foldl_snd
    | with_reducible apply Moves.ite_snd
    | with_reducible refine Moves.snd (by assumption) ?_
    | with_reducible intro _
    | dsimp only
    | split

theorem State.stageOpen_moves (s key) : Moves [.waybills, .contexts] s (State.stageOpen s key) := by
  unfold State.stageOpen
  try dsimp only
  repeat' first
    | with_reducible apply Moves.refl
    | with_reducible apply Moves.ite
    | ((with_reducible apply Moves.call (State.onWb_moves _ _ _)); rfl)
    | ((with_reducible apply Moves.call (State.onCtx_moves _ _ _)); rfl)
    | ((with_reducible apply Moves.call (State.takeStage_moves _ _)); rfl)
    | (simp only [moves_mk]; refine Moves.record ?_)
    | with_reducible apply Moves.foldl
    | with_reducible apply Moves.foldl_snd
    | with_reducible apply Moves.ite_snd
    | with_reducible refine Moves.snd (by assumption) ?_
    | with_reducible intro _
    | dsimp only
    | split

theorem State.run_moves (s key) : Moves [.waybills, .contexts] s (State.run s key) := by
  unfold State.run
  try dsimp only
  repeat' first
    | with_reducible apply Moves.refl
    | with_reducible apply Moves.ite
    | ((with_reducible apply Moves.call (State.onWb_moves _ _ _)); rfl)
    | ((with_reducible apply Moves.call (State.stageOpen_moves _ _)); rfl)
    | ((with_reducible apply Moves.call (State.startClose_moves _ _)); rfl)
    | (simp only [moves_mk]; refine Moves.record ?_)
    | with_reducible apply Moves.foldl
    | with_reducible apply Moves.foldl_snd
    | with_reducible apply Moves.ite_snd
    | with_reducible refine Moves.snd (by assumption) ?_
    | with_reducible intro _
    | dsimp only
    | split

theorem State.onIkd_moves (s d f) : Moves [.ik] s (State.onIkd s d f) := by
  unfold State.onIkd
  try dsimp only
  repeat' first
    | with_reducible apply Moves.refl
    | with_reducible apply Moves.ite
    | (simp only [moves_mk]; refine Moves.record ?_)
    | with_reducible apply Moves.foldl
    | with_reducible apply Moves.foldl_snd
    | with_reducible apply Moves.ite_snd
    | with_reducible refine Moves.snd (by assumption) ?_
    | with_reducible intro _
    | dsimp only
    | split

theorem State.failDie_moves (s d) : Moves [.ik] s (State.failDie s d) := by
  unfold State.failDie
  try dsimp only
  repeat' first
    | with_reducible apply Moves.refl
    | with_reducible apply Moves.ite
    | ((with_reducible apply Moves.call (State.onIkd_moves _ _ _)); rfl)
    | ((with_reducible apply Moves.call (State.dropRevert_moves _)); rfl)
    | (simp only [moves_mk]; refine Moves.record ?_)
    | with_reducible apply Moves.foldl
    | with_reducible apply Moves.foldl_snd
    | with_reducible apply Moves.ite_snd
    | with_reducible refine Moves.snd (by assumption) ?_
    | with_reducible intro _
    | dsimp only
    | split

theorem State.learnMembers_moves (s ms) : Moves [.set] s (State.learnMembers s ms) := by
  unfold State.learnMembers
  try dsimp only
  repeat' first
    | with_reducible apply Moves.refl
    | with_reducible apply Moves.ite
    | (simp only [moves_mk]; refine Moves.record ?_)
    | with_reducible apply Moves.foldl
    | with_reducible apply Moves.foldl_snd
    | with_reducible apply Moves.ite_snd
    | with_reducible refine Moves.snd (by assumption) ?_
    | with_reducible intro _
    | dsimp only
    | split

theorem State.atomicLate_moves (s l g) : Moves [.regs, .egress, .counters, .samples, .log, .irqPending, .keyCaches, .guests, .requests, .faults, .coherence, .streams, .waybills, .contexts, .chans, .dram, .out, .free] s (State.atomicLate s l g) := by
  unfold State.atomicLate
  try dsimp only
  repeat' first
    | with_reducible apply Moves.refl
    | with_reducible apply Moves.ite
    | ((with_reducible apply Moves.call (State.setDir_moves _ _ _)); rfl)
    | ((with_reducible apply Moves.call (State.endReq_moves _ _ _ _ _)); rfl)
    | ((with_reducible apply Moves.call (State.failGranule_moves _ _ _ _ _)); rfl)
    | (simp only [moves_mk]; refine Moves.record ?_)
    | with_reducible apply Moves.foldl
    | with_reducible apply Moves.foldl_snd
    | with_reducible apply Moves.ite_snd
    | with_reducible refine Moves.snd (by assumption) ?_
    | with_reducible intro _
    | dsimp only
    | split

theorem State.gmapResult_moves (s v) : Moves [.regs] s (State.gmapResult s v) := by
  unfold State.gmapResult
  try dsimp only
  repeat' first
    | with_reducible apply Moves.refl
    | with_reducible apply Moves.ite
    | ((with_reducible apply Moves.call (State.setReg_moves _ _ _)); rfl)
    | (simp only [moves_mk]; refine Moves.record ?_)
    | with_reducible apply Moves.foldl
    | with_reducible apply Moves.foldl_snd
    | with_reducible apply Moves.ite_snd
    | with_reducible refine Moves.snd (by assumption) ?_
    | with_reducible intro _
    | dsimp only
    | split

theorem State.gmapUpdate_moves (s exact wild) : Moves [.regs, .routes] s (State.gmapUpdate s exact wild) := by
  unfold State.gmapUpdate
  try dsimp only
  repeat' first
    | with_reducible apply Moves.refl
    | with_reducible apply Moves.ite
    | ((with_reducible apply Moves.call (State.gmapResult_moves _ _)); rfl)
    | (simp only [moves_mk]; refine Moves.record ?_)
    | with_reducible apply Moves.foldl
    | with_reducible apply Moves.foldl_snd
    | with_reducible apply Moves.ite_snd
    | with_reducible refine Moves.snd (by assumption) ?_
    | with_reducible intro _
    | dsimp only
    | split

theorem State.markDepths_moves (s) : Moves [.samples] s (State.markDepths s) := by
  unfold State.markDepths
  try dsimp only
  repeat' first
    | with_reducible apply Moves.refl
    | with_reducible apply Moves.ite
    | (simp only [moves_mk]; refine Moves.record ?_)
    | with_reducible apply Moves.foldl
    | with_reducible apply Moves.foldl_snd
    | with_reducible apply Moves.ite_snd
    | with_reducible refine Moves.snd (by assumption) ?_
    | with_reducible intro _
    | dsimp only
    | split

theorem State.ikCycles_moves (s n) : Moves [.counters, .irqPending] s (State.ikCycles s n) := by
  unfold State.ikCycles
  try dsimp only
  repeat' first
    | with_reducible apply Moves.refl
    | with_reducible apply Moves.ite
    | ((with_reducible apply Moves.call (State.countN_moves _ _ _ _ _ _)); rfl)
    | ((with_reducible apply Moves.call (State.addFixed_moves _ _ _ _)); rfl)
    | (simp only [moves_mk]; refine Moves.record ?_)
    | with_reducible apply Moves.foldl
    | with_reducible apply Moves.foldl_snd
    | with_reducible apply Moves.ite_snd
    | with_reducible refine Moves.snd (by assumption) ?_
    | with_reducible intro _
    | dsimp only
    | split

theorem State.linkCycles_moves (s l) : Moves [.counters, .irqPending] s (State.linkCycles s l) := by
  unfold State.linkCycles
  try dsimp only
  repeat' first
    | with_reducible apply Moves.refl
    | with_reducible apply Moves.ite
    | ((with_reducible apply Moves.call (State.countLinkN_moves _ _ _ _ _)); rfl)
    | (simp only [moves_mk]; refine Moves.record ?_)
    | with_reducible apply Moves.foldl
    | with_reducible apply Moves.foldl_snd
    | with_reducible apply Moves.ite_snd
    | with_reducible refine Moves.snd (by assumption) ?_
    | with_reducible intro _
    | dsimp only
    | split

theorem State.chanCycles_moves (s ch) : Moves [.counters, .irqPending] s (State.chanCycles s ch) := by
  unfold State.chanCycles
  try dsimp only
  repeat' first
    | with_reducible apply Moves.refl
    | with_reducible apply Moves.ite
    | ((with_reducible apply Moves.call (State.countN_moves _ _ _ _ _ _)); rfl)
    | (simp only [moves_mk]; refine Moves.record ?_)
    | with_reducible apply Moves.foldl
    | with_reducible apply Moves.foldl_snd
    | with_reducible apply Moves.ite_snd
    | with_reducible refine Moves.snd (by assumption) ?_
    | with_reducible intro _
    | dsimp only
    | split

theorem State.clusterCycles_moves (s cl) : Moves [.counters, .irqPending] s (State.clusterCycles s cl) := by
  unfold State.clusterCycles
  try dsimp only
  repeat' first
    | with_reducible apply Moves.refl
    | with_reducible apply Moves.ite
    | ((with_reducible apply Moves.call (State.countN_moves _ _ _ _ _ _)); rfl)
    | ((with_reducible apply Moves.call (State.countOffset_moves _ _ _ _)); rfl)
    | ((with_reducible apply Moves.call (State.clusterSlots_moves _ _)); rfl)
    | (simp only [moves_mk]; refine Moves.record ?_)
    | with_reducible apply Moves.foldl
    | with_reducible apply Moves.foldl_snd
    | with_reducible apply Moves.ite_snd
    | with_reducible refine Moves.snd (by assumption) ?_
    | with_reducible intro _
    | dsimp only
    | split

theorem State.aonCycle_moves (s) : Moves [.timebase, .counters, .samples, .irqPending] s (State.aonCycle s) := by
  unfold State.aonCycle
  try dsimp only
  repeat' first
    | with_reducible apply Moves.refl
    | with_reducible apply Moves.ite
    | ((with_reducible apply Moves.call (State.markDepths_moves _)); rfl)
    | ((with_reducible apply Moves.call (State.ikCycles_moves _ _)); rfl)
    | ((with_reducible apply Moves.call (State.linkCycles_moves _ _)); rfl)
    | ((with_reducible apply Moves.call (State.chanCycles_moves _ _)); rfl)
    | ((with_reducible apply Moves.call (State.clusterCycles_moves _ _)); rfl)
    | ((with_reducible apply Moves.call (State.ledgerCycles_moves _ _)); rfl)
    | (simp only [moves_mk]; refine Moves.record ?_)
    | with_reducible apply Moves.foldl
    | with_reducible apply Moves.foldl_snd
    | with_reducible apply Moves.ite_snd
    | with_reducible refine Moves.snd (by assumption) ?_
    | with_reducible intro _
    | dsimp only
    | split

theorem State.writePiece_moves (s key cl g r) : Moves [.regs, .egress, .counters, .samples, .irqPending, .requests, .lrc, .tlbs, .faults, .coherence, .chans, .dram] s (State.writePiece s key cl g r).2 := by
  unfold State.writePiece
  try dsimp only
  repeat' first
    | with_reducible apply Moves.refl
    | with_reducible apply Moves.ite
    | ((with_reducible apply Moves.call (State.porterXl_moves _ _ _ _ _)); rfl)
    | ((with_reducible apply Moves.call (State.startFill_moves _ _ _ _ _)); rfl)
    | ((with_reducible apply Moves.call (State.uncachedStart_moves _ _ _ _)); rfl)
    | (simp only [moves_mk]; refine Moves.record ?_)
    | with_reducible apply Moves.foldl
    | with_reducible apply Moves.foldl_snd
    | with_reducible apply Moves.ite_snd
    | with_reducible refine Moves.snd (by assumption) ?_
    | with_reducible intro _
    | dsimp only
    | split

theorem State.syncStart_moves (s l) : Moves [.links, .counters, .irqPending] s (State.syncStart s l) := by
  unfold State.syncStart
  try dsimp only
  repeat' first
    | with_reducible apply Moves.refl
    | with_reducible apply Moves.ite
    | ((with_reducible apply Moves.call (State.countLink_moves _ _ _ _)); rfl)
    | ((with_reducible apply Moves.call (State.setLink_moves _ _ _)); rfl)
    | (simp only [moves_mk]; refine Moves.record ?_)
    | with_reducible apply Moves.foldl
    | with_reducible apply Moves.foldl_snd
    | with_reducible apply Moves.ite_snd
    | with_reducible refine Moves.snd (by assumption) ?_
    | with_reducible intro _
    | dsimp only
    | split

theorem State.applyAudit_moves (s l v audit) : Moves [.links, .counters, .irqPending] s (State.applyAudit s l v audit) := by
  unfold State.applyAudit
  try dsimp only
  repeat' first
    | with_reducible apply Moves.refl
    | with_reducible apply Moves.ite
    | ((with_reducible apply Moves.call (State.syncStart_moves _ _)); rfl)
    | ((with_reducible apply Moves.call (State.countLink_moves _ _ _ _)); rfl)
    | ((with_reducible apply Moves.call (State.countLinkN_moves _ _ _ _ _)); rfl)
    | ((with_reducible apply Moves.call (State.onLink_moves _ _ _)); rfl)
    | (simp only [moves_mk]; refine Moves.record ?_)
    | with_reducible apply Moves.foldl
    | with_reducible apply Moves.foldl_snd
    | with_reducible apply Moves.ite_snd
    | with_reducible refine Moves.snd (by assumption) ?_
    | with_reducible intro _
    | dsimp only
    | split

theorem State.answered_moves (s key c g) : Moves [.waybills] s (State.answered s key c g) := by
  unfold State.answered
  try dsimp only
  repeat' first
    | with_reducible apply Moves.refl
    | with_reducible apply Moves.ite
    | ((with_reducible apply Moves.call (State.onChunk_moves _ _ _ _)); rfl)
    | (simp only [moves_mk]; refine Moves.record ?_)
    | with_reducible apply Moves.foldl
    | with_reducible apply Moves.foldl_snd
    | with_reducible apply Moves.ite_snd
    | with_reducible refine Moves.snd (by assumption) ?_
    | with_reducible intro _
    | dsimp only
    | split

theorem State.failElem_moves (s key c g cause pva) : Moves [.regs, .egress, .counters, .samples, .log, .irqPending, .keyCaches, .guests, .requests, .faults, .coherence, .streams, .waybills, .contexts, .chans, .dram, .out, .free] s (State.failElem s key c g cause pva) := by
  unfold State.failElem
  try dsimp only
  repeat' first
    | with_reducible apply Moves.refl
    | with_reducible apply Moves.ite
    | ((with_reducible apply Moves.call (State.onWb_moves _ _ _)); rfl)
    | ((with_reducible apply Moves.call (State.unhold_moves _ _ _)); rfl)
    | ((with_reducible apply Moves.call (State.failGranule_moves _ _ _ _ _)); rfl)
    | (simp only [moves_mk]; refine Moves.record ?_)
    | with_reducible apply Moves.foldl
    | with_reducible apply Moves.foldl_snd
    | with_reducible apply Moves.ite_snd
    | with_reducible refine Moves.snd (by assumption) ?_
    | with_reducible intro _
    | dsimp only
    | split

theorem State.porterAnswer_moves (s k status data poi) : Moves [.regs, .egress, .counters, .samples, .log, .irqPending, .keyCaches, .guests, .requests, .faults, .coherence, .streams, .waybills, .contexts, .chans, .dram, .out, .free] s (State.porterAnswer s k status data poi) := by
  unfold State.porterAnswer
  try dsimp only
  repeat' first
    | with_reducible apply Moves.refl
    | with_reducible apply Moves.ite
    | ((with_reducible apply Moves.call (State.onWb_moves _ _ _)); rfl)
    | ((with_reducible apply Moves.call (State.answered_moves _ _ _ _)); rfl)
    | ((with_reducible apply Moves.call (State.onChunk_moves _ _ _ _)); rfl)
    | ((with_reducible apply Moves.call (State.failElem_moves _ _ _ _ _ _)); rfl)
    | ((with_reducible apply Moves.call (State.failGranule_moves _ _ _ _ _)); rfl)
    | (simp only [moves_mk]; refine Moves.record ?_)
    | with_reducible apply Moves.foldl
    | with_reducible apply Moves.foldl_snd
    | with_reducible apply Moves.ite_snd
    | with_reducible refine Moves.snd (by assumption) ?_
    | with_reducible intro _
    | dsimp only
    | split

theorem State.setBcast_moves (s b) : Moves [.peers] s (State.setBcast s b) := by
  unfold State.setBcast
  try dsimp only
  repeat' first
    | with_reducible apply Moves.refl
    | with_reducible apply Moves.ite
    | (simp only [moves_mk]; refine Moves.record ?_)
    | with_reducible apply Moves.foldl
    | with_reducible apply Moves.foldl_snd
    | with_reducible apply Moves.ite_snd
    | with_reducible refine Moves.snd (by assumption) ?_
    | with_reducible intro _
    | dsimp only
    | split

theorem State.routeResult_moves (s v) : Moves [.regs] s (State.routeResult s v) := by
  unfold State.routeResult
  try dsimp only
  repeat' first
    | with_reducible apply Moves.refl
    | with_reducible apply Moves.ite
    | ((with_reducible apply Moves.call (State.setReg_moves _ _ _)); rfl)
    | (simp only [moves_mk]; refine Moves.record ?_)
    | with_reducible apply Moves.foldl
    | with_reducible apply Moves.foldl_snd
    | with_reducible apply Moves.ite_snd
    | with_reducible refine Moves.snd (by assumption) ?_
    | with_reducible intro _
    | dsimp only
    | split

theorem State.routeUpdate_moves (s what) : Moves [.regs, .routes] s (State.routeUpdate s what) := by
  unfold State.routeUpdate
  try dsimp only
  repeat' first
    | with_reducible apply Moves.refl
    | with_reducible apply Moves.ite
    | ((with_reducible apply Moves.call (State.routeResult_moves _ _)); rfl)
    | (simp only [moves_mk]; refine Moves.record ?_)
    | with_reducible apply Moves.foldl
    | with_reducible apply Moves.foldl_snd
    | with_reducible apply Moves.ite_snd
    | with_reducible refine Moves.snd (by assumption) ?_
    | with_reducible intro _
    | dsimp only
    | split

theorem State.pairCmd_moves (s f) : Moves [.regs, .routes] s (State.pairCmd s f) := by
  unfold State.pairCmd
  try dsimp only
  repeat' first
    | with_reducible apply Moves.refl
    | with_reducible apply Moves.ite
    | ((with_reducible apply Moves.call (State.routeResult_moves _ _)); rfl)
    | ((with_reducible apply Moves.call (State.routeUpdate_moves _ _)); rfl)
    | (simp only [moves_mk]; refine Moves.record ?_)
    | with_reducible apply Moves.foldl
    | with_reducible apply Moves.foldl_snd
    | with_reducible apply Moves.ite_snd
    | with_reducible refine Moves.snd (by assumption) ?_
    | with_reducible intro _
    | dsimp only
    | split

theorem State.teardownResult_moves (s v) : Moves [.regs] s (State.teardownResult s v) := by
  unfold State.teardownResult
  try dsimp only
  repeat' first
    | with_reducible apply Moves.refl
    | with_reducible apply Moves.ite
    | ((with_reducible apply Moves.call (State.setReg_moves _ _ _)); rfl)
    | (simp only [moves_mk]; refine Moves.record ?_)
    | with_reducible apply Moves.foldl
    | with_reducible apply Moves.foldl_snd
    | with_reducible apply Moves.ite_snd
    | with_reducible refine Moves.snd (by assumption) ?_
    | with_reducible intro _
    | dsimp only
    | split

theorem State.refuseUnused_moves (s l p) : Moves [.links, .counters, .irqPending] s (State.refuseUnused s l p) := by
  unfold State.refuseUnused
  try dsimp only
  repeat' first
    | with_reducible apply Moves.refl
    | with_reducible apply Moves.ite
    | ((with_reducible apply Moves.call (State.countLink_moves _ _ _ _)); rfl)
    | ((with_reducible apply Moves.call (State.onLink_moves _ _ _)); rfl)
    | (simp only [moves_mk]; refine Moves.record ?_)
    | with_reducible apply Moves.foldl
    | with_reducible apply Moves.foldl_snd
    | with_reducible apply Moves.ite_snd
    | with_reducible refine Moves.snd (by assumption) ?_
    | with_reducible intro _
    | dsimp only
    | split

theorem State.arrive_moves (s l ps) : Moves [.links, .counters, .samples, .irqPending] s (State.arrive s l ps) := by
  unfold State.arrive
  try dsimp only
  repeat' first
    | with_reducible apply Moves.refl
    | with_reducible apply Moves.ite
    | ((with_reducible apply Moves.call (State.refuseUnused_moves _ _ _)); rfl)
    | ((with_reducible apply Moves.call (State.enterQ_moves _ _ _)); rfl)
    | ((with_reducible apply Moves.call (State.countLink_moves _ _ _ _)); rfl)
    | ((with_reducible apply Moves.call (State.onLink_moves _ _ _)); rfl)
    | (simp only [moves_mk]; refine Moves.record ?_)
    | with_reducible apply Moves.foldl
    | with_reducible apply Moves.foldl_snd
    | with_reducible apply Moves.ite_snd
    | with_reducible refine Moves.snd (by assumption) ?_
    | with_reducible intro _
    | dsimp only
    | split

theorem State.retrainEnd_moves (s l) : Moves [.regs, .links] s (State.retrainEnd s l) := by
  unfold State.retrainEnd
  try dsimp only
  repeat' first
    | with_reducible apply Moves.refl
    | with_reducible apply Moves.ite
    | ((with_reducible apply Moves.call (State.setReg_moves _ _ _)); rfl)
    | ((with_reducible apply Moves.call (State.onLink_moves _ _ _)); rfl)
    | (simp only [moves_mk]; refine Moves.record ?_)
    | with_reducible apply Moves.foldl
    | with_reducible apply Moves.foldl_snd
    | with_reducible apply Moves.ite_snd
    | with_reducible refine Moves.snd (by assumption) ?_
    | with_reducible intro _
    | dsimp only
    | split

theorem State.dropQueued_moves (s l sel e) : Moves [.links, .counters, .samples, .irqPending, .requests] s (State.dropQueued s l sel e) := by
  unfold State.dropQueued
  try dsimp only
  repeat' first
    | with_reducible apply Moves.refl
    | with_reducible apply Moves.ite
    | ((with_reducible apply Moves.call (State.countLink_moves _ _ _ _)); rfl)
    | ((with_reducible apply Moves.call (State.discardQ_moves _ _ _)); rfl)
    | ((with_reducible apply Moves.call (State.leavePool_moves _ _ _ _)); rfl)
    | ((with_reducible apply Moves.call (State.dropTracker_moves _ _)); rfl)
    | (simp only [moves_mk]; refine Moves.record ?_)
    | with_reducible apply Moves.foldl
    | with_reducible apply Moves.foldl_snd
    | with_reducible apply Moves.ite_snd
    | with_reducible refine Moves.snd (by assumption) ?_
    | with_reducible intro _
    | dsimp only
    | split

theorem State.moveTo_moves (s p ring e) : Moves [.egress, .samples] s (State.moveTo s p ring e) := by
  unfold State.moveTo
  try dsimp only
  repeat' first
    | with_reducible apply Moves.refl
    | with_reducible apply Moves.ite
    | ((with_reducible apply Moves.call (State.discardQ_moves _ _ _)); rfl)
    | ((with_reducible apply Moves.call (State.enterQ_moves _ _ _)); rfl)
    | ((with_reducible apply Moves.call (State.joinQueue_moves _ _ _)); rfl)
    | (simp only [moves_mk]; refine Moves.record ?_)
    | with_reducible apply Moves.foldl
    | with_reducible apply Moves.foldl_snd
    | with_reducible apply Moves.ite_snd
    | with_reducible refine Moves.snd (by assumption) ?_
    | with_reducible intro _
    | dsimp only
    | split

theorem State.handTo_moves (s l e) : Moves [.links, .egress, .counters, .samples, .irqPending, .requests] s (State.handTo s l e) := by
  unfold State.handTo
  try dsimp only
  repeat' first
    | with_reducible apply Moves.refl
    | with_reducible apply Moves.ite
    | ((with_reducible apply Moves.call (State.dropQueued_moves _ _ _ _)); rfl)
    | ((with_reducible apply Moves.call (State.moveTo_moves _ _ _ _)); rfl)
    | (simp only [moves_mk]; refine Moves.record ?_)
    | with_reducible apply Moves.foldl
    | with_reducible apply Moves.foldl_snd
    | with_reducible apply Moves.ite_snd
    | with_reducible refine Moves.snd (by assumption) ?_
    | with_reducible intro _
    | dsimp only
    | split

theorem State.unstall_moves (s) : Moves [.egress, .samples] s (State.unstall s) := by
  unfold State.unstall
  try dsimp only
  repeat' first
    | with_reducible apply Moves.refl
    | with_reducible apply Moves.ite
    | ((with_reducible apply Moves.call (State.queueOwn_moves _ _)); rfl)
    | (simp only [moves_mk]; refine Moves.record ?_)
    | with_reducible apply Moves.foldl
    | with_reducible apply Moves.foldl_snd
    | with_reducible apply Moves.ite_snd
    | with_reducible refine Moves.snd (by assumption) ?_
    | with_reducible intro _
    | dsimp only
    | split

theorem State.moveStalled_moves (s l) : Moves [.links, .egress, .counters, .samples, .irqPending, .requests] s (State.moveStalled s l) := by
  unfold State.moveStalled
  try dsimp only
  repeat' first
    | with_reducible apply Moves.refl
    | with_reducible apply Moves.ite
    | ((with_reducible apply Moves.call (State.dropQueued_moves _ _ _ _)); rfl)
    | (simp only [moves_mk]; refine Moves.record ?_)
    | with_reducible apply Moves.foldl
    | with_reducible apply Moves.foldl_snd
    | with_reducible apply Moves.ite_snd
    | with_reducible refine Moves.snd (by assumption) ?_
    | with_reducible intro _
    | dsimp only
    | split

theorem State.handover_moves (s l) : Moves [.links, .egress, .gatehouses, .counters, .samples, .phase, .irqPending, .requests] s (State.handover s l) := by
  unfold State.handover
  try dsimp only
  repeat' first
    | with_reducible apply Moves.refl
    | with_reducible apply Moves.ite
    | ((with_reducible apply Moves.call (State.handTo_moves _ _ _)); rfl)
    | ((with_reducible apply Moves.call (State.countLinkN_moves _ _ _ _ _)); rfl)
    | ((with_reducible apply Moves.call (State.recovery_moves _)); rfl)
    | ((with_reducible apply Moves.call (State.dropQueued_moves _ _ _ _)); rfl)
    | ((with_reducible apply Moves.call (State.unstall_moves _)); rfl)
    | ((with_reducible apply Moves.call (State.moveStalled_moves _ _)); rfl)
    | (simp only [moves_mk]; refine Moves.record ?_)
    | with_reducible apply Moves.foldl
    | with_reducible apply Moves.foldl_snd
    | with_reducible apply Moves.ite_snd
    | with_reducible refine Moves.snd (by assumption) ?_
    | with_reducible intro _
    | dsimp only
    | split

theorem State.linkDown_moves (s l st cause) : Moves [.links, .egress, .gatehouses, .counters, .samples, .log, .phase, .irqPending, .requests, .out] s (State.linkDown s l st cause) := by
  unfold State.linkDown
  try dsimp only
  repeat' first
    | with_reducible apply Moves.refl
    | with_reducible apply Moves.ite
    | ((with_reducible apply Moves.call (State.sendCtrl_moves _ _ _)); rfl)
    | ((with_reducible apply Moves.call (State.handover_moves _ _)); rfl)
    | ((with_reducible apply Moves.call (State.onLink_moves _ _ _)); rfl)
    | ((with_reducible apply Moves.call (State.log_moves _ _ _ _ _ _ _)); rfl)
    | ((with_reducible apply Moves.call (State.irqEdge_moves _ _)); rfl)
    | (simp only [moves_mk]; refine Moves.record ?_)
    | with_reducible apply Moves.foldl
    | with_reducible apply Moves.foldl_snd
    | with_reducible apply Moves.ite_snd
    | with_reducible refine Moves.snd (by assumption) ?_
    | with_reducible intro _
    | dsimp only
    | split

theorem State.keyxFail_moves (s l) : Moves [.regs, .links, .egress, .gatehouses, .counters, .samples, .log, .phase, .irqPending, .requests, .out] s (State.keyxFail s l) := by
  unfold State.keyxFail
  try dsimp only
  repeat' first
    | with_reducible apply Moves.refl
    | with_reducible apply Moves.ite
    | ((with_reducible apply Moves.call (State.retrainEnd_moves _ _)); rfl)
    | ((with_reducible apply Moves.call (State.linkDown_moves _ _ _ _)); rfl)
    | (simp only [moves_mk]; refine Moves.record ?_)
    | with_reducible apply Moves.foldl
    | with_reducible apply Moves.foldl_snd
    | with_reducible apply Moves.ite_snd
    | with_reducible refine Moves.snd (by assumption) ?_
    | with_reducible intro _
    | dsimp only
    | split

theorem State.writeSampleQueue_moves (s k v) : Moves [.regs, .samples] s (State.writeSampleQueue s k v) := by
  unfold State.writeSampleQueue
  try dsimp only
  repeat' first
    | with_reducible apply Moves.refl
    | with_reducible apply Moves.ite
    | ((with_reducible apply Moves.call (State.setReg_moves _ _ _)); rfl)
    | (simp only [moves_mk]; refine Moves.record ?_)
    | with_reducible apply Moves.foldl
    | with_reducible apply Moves.foldl_snd
    | with_reducible apply Moves.ite_snd
    | with_reducible refine Moves.snd (by assumption) ?_
    | with_reducible intro _
    | dsimp only
    | split

theorem State.endSessions_moves (s) : Moves [.sessions] s (State.endSessions s) := by
  unfold State.endSessions
  try dsimp only
  repeat' first
    | with_reducible apply Moves.refl
    | with_reducible apply Moves.ite
    | (simp only [moves_mk]; refine Moves.record ?_)
    | with_reducible apply Moves.foldl
    | with_reducible apply Moves.foldl_snd
    | with_reducible apply Moves.ite_snd
    | with_reducible refine Moves.snd (by assumption) ?_
    | with_reducible intro _
    | dsimp only
    | split

theorem State.retainTo_moves (s l p n) : Moves [.egress] s (State.retainTo s l p n) := by
  unfold State.retainTo
  try dsimp only
  repeat' first
    | with_reducible apply Moves.refl
    | with_reducible apply Moves.ite
    | (simp only [moves_mk]; refine Moves.record ?_)
    | with_reducible apply Moves.foldl
    | with_reducible apply Moves.foldl_snd
    | with_reducible apply Moves.ite_snd
    | with_reducible refine Moves.snd (by assumption) ?_
    | with_reducible intro _
    | dsimp only
    | split

theorem State.formData_moves (s l) : Moves [.links, .egress, .counters, .irqPending, .out] s (State.formData s l) := by
  unfold State.formData
  try dsimp only
  repeat' first
    | with_reducible apply Moves.refl
    | with_reducible apply Moves.ite
    | ((with_reducible apply Moves.call (State.formFlit_moves _ _ _ _ _ _)); rfl)
    | ((with_reducible apply Moves.call (State.onLink_moves _ _ _)); rfl)
    | ((with_reducible apply Moves.call (State.retainTo_moves _ _ _ _)); rfl)
    | (simp only [moves_mk]; refine Moves.record ?_)
    | with_reducible apply Moves.foldl
    | with_reducible apply Moves.foldl_snd
    | with_reducible apply Moves.ite_snd
    | with_reducible refine Moves.snd (by assumption) ?_
    | with_reducible intro _
    | dsimp only
    | split

theorem State.rebind_moves (s k) : Moves [.streams, .waybills] s (State.rebind s k) := by
  unfold State.rebind
  try dsimp only
  repeat' first
    | with_reducible apply Moves.refl
    | with_reducible apply Moves.ite
    | ((with_reducible apply Moves.call (State.onStream_moves _ _ _)); rfl)
    | (simp only [moves_mk]; refine Moves.record ?_)
    | with_reducible apply Moves.foldl
    | with_reducible apply Moves.foldl_snd
    | with_reducible apply Moves.ite_snd
    | with_reducible refine Moves.snd (by assumption) ?_
    | with_reducible intro _
    | dsimp only
    | split

theorem State.resendRetained_moves (s l es) : Moves [.links, .egress, .gatehouses, .counters, .samples, .phase, .irqPending, .requests] s (State.resendRetained s l es) := by
  unfold State.resendRetained
  try dsimp only
  repeat' first
    | with_reducible apply Moves.refl
    | with_reducible apply Moves.ite
    | ((with_reducible apply Moves.call (State.handTo_moves _ _ _)); rfl)
    | ((with_reducible apply Moves.call (State.recovery_moves _)); rfl)
    | ((with_reducible apply Moves.call (State.dropQueued_moves _ _ _ _)); rfl)
    | ((with_reducible apply Moves.call (State.unstall_moves _)); rfl)
    | ((with_reducible apply Moves.call (State.moveStalled_moves _ _)); rfl)
    | (simp only [moves_mk]; refine Moves.record ?_)
    | with_reducible apply Moves.foldl
    | with_reducible apply Moves.foldl_snd
    | with_reducible apply Moves.ite_snd
    | with_reducible refine Moves.snd (by assumption) ?_
    | with_reducible intro _
    | dsimp only
    | split

theorem State.forgetPkt_moves (s p) : Moves [.peers] s (State.forgetPkt s p) := by
  unfold State.forgetPkt
  try dsimp only
  repeat' first
    | with_reducible apply Moves.refl
    | with_reducible apply Moves.ite
    | (simp only [moves_mk]; refine Moves.record ?_)
    | with_reducible apply Moves.foldl
    | with_reducible apply Moves.foldl_snd
    | with_reducible apply Moves.ite_snd
    | with_reducible refine Moves.snd (by assumption) ?_
    | with_reducible intro _
    | dsimp only
    | split

theorem State.loseHeld_moves (s l) : Moves [.links, .egress, .peers, .samples, .requests] s (State.loseHeld s l) := by
  unfold State.loseHeld
  try dsimp only
  repeat' first
    | with_reducible apply Moves.refl
    | with_reducible apply Moves.ite
    | ((with_reducible apply Moves.call (State.forgetPkt_moves _ _)); rfl)
    | ((with_reducible apply Moves.call (State.discardQ_moves _ _ _)); rfl)
    | ((with_reducible apply Moves.call (State.leavePool_moves _ _ _ _)); rfl)
    | (simp only [moves_mk]; refine Moves.record ?_)
    | with_reducible apply Moves.foldl
    | with_reducible apply Moves.foldl_snd
    | with_reducible apply Moves.ite_snd
    | with_reducible refine Moves.snd (by assumption) ?_
    | with_reducible intro _
    | dsimp only
    | split

theorem State.loseLink_moves (s l) : Moves [.links, .egress, .peers, .gatehouses, .counters, .samples, .log, .phase, .irqPending, .requests, .out] s (State.loseLink s l) := by
  unfold State.loseLink
  try dsimp only
  repeat' first
    | with_reducible apply Moves.refl
    | with_reducible apply Moves.ite
    | ((with_reducible apply Moves.call (State.resendRetained_moves _ _ _)); rfl)
    | ((with_reducible apply Moves.call (State.loseHeld_moves _ _)); rfl)
    | ((with_reducible apply Moves.call (State.onLink_moves _ _ _)); rfl)
    | ((with_reducible apply Moves.call (State.log_moves _ _ _ _ _ _ _)); rfl)
    | ((with_reducible apply Moves.call (State.irqEdge_moves _ _)); rfl)
    | (simp only [moves_mk]; refine Moves.record ?_)
    | with_reducible apply Moves.foldl
    | with_reducible apply Moves.foldl_snd
    | with_reducible apply Moves.ite_snd
    | with_reducible refine Moves.snd (by assumption) ?_
    | with_reducible intro _
    | dsimp only
    | split

theorem State.resnoop_moves (s pair) : Moves [.egress, .counters, .samples, .irqPending, .requests, .coherence, .chans, .dram] s (State.resnoop s pair) := by
  unfold State.resnoop
  try dsimp only
  repeat' first
    | with_reducible apply Moves.refl
    | with_reducible apply Moves.ite
    | ((with_reducible apply Moves.call (State.setDir_moves _ _ _)); rfl)
    | ((with_reducible apply Moves.call (State.sendSnoop_moves _ _ _ _ _ _)); rfl)
    | (simp only [moves_mk]; refine Moves.record ?_)
    | with_reducible apply Moves.foldl
    | with_reducible apply Moves.foldl_snd
    | with_reducible apply Moves.ite_snd
    | with_reducible refine Moves.snd (by assumption) ?_
    | with_reducible intro _
    | dsimp only
    | split

theorem State.loudFaults_moves (s) : Moves [.regs, .faults] s (State.loudFaults s) := by
  unfold State.loudFaults
  try dsimp only
  repeat' first
    | with_reducible apply Moves.refl
    | with_reducible apply Moves.ite
    | ((with_reducible apply Moves.call (State.fqAdd_moves _ _)); rfl)
    | (simp only [moves_mk]; refine Moves.record ?_)
    | with_reducible apply Moves.foldl
    | with_reducible apply Moves.foldl_snd
    | with_reducible apply Moves.ite_snd
    | with_reducible refine Moves.snd (by assumption) ?_
    | with_reducible intro _
    | dsimp only
    | split

theorem State.afterPoint_moves (s c) : Moves [.regs, .egress, .counters, .samples, .log, .irqPending, .keyCaches, .guests, .requests, .lrc, .tlbs, .faults, .coherence, .streams, .waybills, .contexts, .chans, .dram, .out, .free] s (State.afterPoint s c) := by
  unfold State.afterPoint
  try dsimp only
  repeat' first
    | with_reducible apply Moves.refl
    | with_reducible apply Moves.ite
    | ((with_reducible apply Moves.call (State.onGuest_moves _ _ _)); rfl)
    | ((with_reducible apply Moves.call (State.setReg_moves _ _ _)); rfl)
    | ((with_reducible apply Moves.call (State.retranslate_moves _ _ _)); rfl)
    | ((with_reducible apply Moves.call (State.loudFaults_moves _)); rfl)
    | ((with_reducible apply Moves.call (State.closeFault_moves _ _)); rfl)
    | (simp only [moves_mk]; refine Moves.record ?_)
    | with_reducible apply Moves.foldl
    | with_reducible apply Moves.foldl_snd
    | with_reducible apply Moves.ite_snd
    | with_reducible refine Moves.snd (by assumption) ?_
    | with_reducible intro _
    | dsimp only
    | split

theorem State.endEarly_moves (s key status) : Moves [.waybills] s (State.endEarly s key status) := by
  unfold State.endEarly
  try dsimp only
  repeat' first
    | with_reducible apply Moves.refl
    | with_reducible apply Moves.ite
    | ((with_reducible apply Moves.call (State.onWb_moves _ _ _)); rfl)
    | (simp only [moves_mk]; refine Moves.record ?_)
    | with_reducible apply Moves.foldl
    | with_reducible apply Moves.foldl_snd
    | with_reducible apply Moves.ite_snd
    | with_reducible refine Moves.snd (by assumption) ?_
    | with_reducible intro _
    | dsimp only
    | split

theorem State.endWhole_moves (s key status) : Moves [.waybills] s (State.endWhole s key status) := by
  unfold State.endWhole
  try dsimp only
  repeat' first
    | with_reducible apply Moves.refl
    | with_reducible apply Moves.ite
    | ((with_reducible apply Moves.call (State.endEarly_moves _ _ _)); rfl)
    | ((with_reducible apply Moves.call (State.onWb_moves _ _ _)); rfl)
    | (simp only [moves_mk]; refine Moves.record ?_)
    | with_reducible apply Moves.foldl
    | with_reducible apply Moves.foldl_snd
    | with_reducible apply Moves.ite_snd
    | with_reducible refine Moves.snd (by assumption) ?_
    | with_reducible intro _
    | dsimp only
    | split

theorem State.noSwapWb_moves (s key) : Moves [.waybills] s (State.noSwapWb s key) := by
  unfold State.noSwapWb
  try dsimp only
  repeat' first
    | with_reducible apply Moves.refl
    | with_reducible apply Moves.ite
    | ((with_reducible apply Moves.call (State.endWhole_moves _ _ _)); rfl)
    | ((with_reducible apply Moves.call (State.onWb_moves _ _ _)); rfl)
    | (simp only [moves_mk]; refine Moves.record ?_)
    | with_reducible apply Moves.foldl
    | with_reducible apply Moves.foldl_snd
    | with_reducible apply Moves.ite_snd
    | with_reducible refine Moves.snd (by assumption) ?_
    | with_reducible intro _
    | dsimp only
    | split

theorem State.persist_moves (s key v) : Moves [.flash] s (State.persist s key v) := by
  unfold State.persist
  try dsimp only
  repeat' first
    | with_reducible apply Moves.refl
    | with_reducible apply Moves.ite
    | (simp only [moves_mk]; refine Moves.record ?_)
    | with_reducible apply Moves.foldl
    | with_reducible apply Moves.foldl_snd
    | with_reducible apply Moves.ite_snd
    | with_reducible refine Moves.snd (by assumption) ?_
    | with_reducible intro _
    | dsimp only
    | split

theorem State.saveHistory_moves (s) : Moves [.flash] s (State.saveHistory s) := by
  unfold State.saveHistory
  try dsimp only
  repeat' first
    | with_reducible apply Moves.refl
    | with_reducible apply Moves.ite
    | ((with_reducible apply Moves.call (State.persist_moves _ _ _)); rfl)
    | (simp only [moves_mk]; refine Moves.record ?_)
    | with_reducible apply Moves.foldl
    | with_reducible apply Moves.foldl_snd
    | with_reducible apply Moves.ite_snd
    | with_reducible refine Moves.snd (by assumption) ?_
    | with_reducible intro _
    | dsimp only
    | split

theorem State.countOverrun_moves (s l p) : Moves [.counters, .irqPending] s (State.countOverrun s l p) := by
  unfold State.countOverrun
  try dsimp only
  repeat' first
    | with_reducible apply Moves.refl
    | with_reducible apply Moves.ite
    | ((with_reducible apply Moves.call (State.countLinkN_moves _ _ _ _ _)); rfl)
    | ((with_reducible apply Moves.call (State.countLink_moves _ _ _ _)); rfl)
    | (simp only [moves_mk]; refine Moves.record ?_)
    | with_reducible apply Moves.foldl
    | with_reducible apply Moves.foldl_snd
    | with_reducible apply Moves.ite_snd
    | with_reducible refine Moves.snd (by assumption) ?_
    | with_reducible intro _
    | dsimp only
    | split

theorem State.startReplay_moves (s l n sel) : Moves [.links, .egress, .gatehouses, .counters, .samples, .log, .phase, .irqPending, .requests, .out] s (State.startReplay s l n sel) := by
  unfold State.startReplay
  try dsimp only
  repeat' first
    | with_reducible apply Moves.refl
    | with_reducible apply Moves.ite
    | ((with_reducible apply Moves.call (State.countLink_moves _ _ _ _)); rfl)
    | ((with_reducible apply Moves.call (State.onLink_moves _ _ _)); rfl)
    | ((with_reducible apply Moves.call (State.linkDown_moves _ _ _ _)); rfl)
    | (simp only [moves_mk]; refine Moves.record ?_)
    | with_reducible apply Moves.foldl
    | with_reducible apply Moves.foldl_snd
    | with_reducible apply Moves.ite_snd
    | with_reducible refine Moves.snd (by assumption) ?_
    | with_reducible intro _
    | dsimp only
    | split

theorem State.waitCalc_moves (s key c cl g hold) : Moves [.regs, .egress, .counters, .samples, .log, .irqPending, .keyCaches, .guests, .requests, .tlbs, .faults, .coherence, .streams, .waybills, .contexts, .chans, .dram, .out, .free] s (State.waitCalc s key c cl g hold) := by
  unfold State.waitCalc
  try dsimp only
  repeat' first
    | with_reducible apply Moves.refl
    | with_reducible apply Moves.ite
    | ((with_reducible apply Moves.call (State.unhold_moves _ _ _)); rfl)
    | ((with_reducible apply Moves.call (State.holdGranule_moves _ _ _ _)); rfl)
    | ((with_reducible apply Moves.call (State.porterXl_moves _ _ _ _ _)); rfl)
    | ((with_reducible apply Moves.call (State.failGranule_moves _ _ _ _ _)); rfl)
    | (simp only [moves_mk]; refine Moves.record ?_)
    | with_reducible apply Moves.foldl
    | with_reducible apply Moves.foldl_snd
    | with_reducible apply Moves.ite_snd
    | with_reducible refine Moves.snd (by assumption) ?_
    | with_reducible intro _
    | dsimp only
    | split

theorem State.holdCalc_moves (s key c g k o) : Moves [.regs, .egress, .peers, .counters, .samples, .irqPending, .requests, .faults, .streams, .waybills, .contexts] s (State.holdCalc s key c g k o) := by
  unfold State.holdCalc
  try dsimp only
  repeat' first
    | with_reducible apply Moves.refl
    | with_reducible apply Moves.ite
    | ((with_reducible apply Moves.call (State.onChunk_moves _ _ _ _)); rfl)
    | ((with_reducible apply Moves.call (State.unhold_moves _ _ _)); rfl)
    | ((with_reducible apply Moves.call (State.request_moves _ _ _ _)); rfl)
    | (simp only [moves_mk]; refine Moves.record ?_)
    | with_reducible apply Moves.foldl
    | with_reducible apply Moves.foldl_snd
    | with_reducible apply Moves.ite_snd
    | with_reducible refine Moves.snd (by assumption) ?_
    | with_reducible intro _
    | dsimp only
    | split

theorem State.writeRanges_moves (s key cl g rs) : Moves [.regs, .egress, .counters, .samples, .irqPending, .requests, .lrc, .tlbs, .faults, .coherence, .chans, .dram] s (State.writeRanges s key cl g rs).2 := by
  unfold State.writeRanges
  try dsimp only
  repeat' first
    | with_reducible apply Moves.refl
    | with_reducible apply Moves.ite
    | ((with_reducible apply Moves.call (State.writePiece_moves _ _ _ _ _)); rfl)
    | (simp only [moves_mk]; refine Moves.record ?_)
    | with_reducible apply Moves.foldl
    | with_reducible apply Moves.foldl_snd
    | with_reducible apply Moves.ite_snd
    | with_reducible refine Moves.snd (by assumption) ?_
    | with_reducible intro _
    | dsimp only
    | split

theorem State.placeCalc_moves (s key c g k) : Moves [.regs, .egress, .peers, .counters, .samples, .log, .irqPending, .keyCaches, .guests, .requests, .lrc, .tlbs, .faults, .coherence, .streams, .waybills, .contexts, .chans, .dram, .out, .free] s (State.placeCalc s key c g k) := by
  unfold State.placeCalc
  try dsimp only
  repeat' first
    | with_reducible apply Moves.refl
    | with_reducible apply Moves.ite
    | ((with_reducible apply Moves.call (State.waitCalc_moves _ _ _ _ _ _)); rfl)
    | ((with_reducible apply Moves.call (State.failGranule_moves _ _ _ _ _)); rfl)
    | ((with_reducible apply Moves.call (State.holdCalc_moves _ _ _ _ _ _)); rfl)
    | ((with_reducible apply Moves.call (State.writeRanges_moves _ _ _ _ _)); rfl)
    | ((with_reducible apply Moves.call (State.failElem_moves _ _ _ _ _ _)); rfl)
    | (simp only [moves_mk]; refine Moves.record ?_)
    | with_reducible apply Moves.foldl
    | with_reducible apply Moves.foldl_snd
    | with_reducible apply Moves.ite_snd
    | with_reducible refine Moves.snd (by assumption) ?_
    | with_reducible intro _
    | dsimp only
    | split

theorem State.openBytes_moves (s w o) : Moves [.free] s (State.openBytes s w o).2 := by
  unfold State.openBytes
  try dsimp only
  repeat' first
    | with_reducible apply Moves.refl
    | with_reducible apply Moves.ite
    | ((with_reducible apply Moves.call (State.useFree_moves _ _)); rfl)
    | (simp only [moves_mk]; refine Moves.record ?_)
    | with_reducible apply Moves.foldl
    | with_reducible apply Moves.foldl_snd
    | with_reducible apply Moves.ite_snd
    | with_reducible refine Moves.snd (by assumption) ?_
    | with_reducible intro _
    | dsimp only
    | split

theorem State.scatterOut_moves (s w g pva o) : Moves [.free] s (State.scatterOut s w g pva o).2 := by
  unfold State.scatterOut
  try dsimp only
  repeat' first
    | with_reducible apply Moves.refl
    | with_reducible apply Moves.ite
    | ((with_reducible apply Moves.call (State.useFree_moves _ _)); rfl)
    | (simp only [moves_mk]; refine Moves.record ?_)
    | with_reducible apply Moves.foldl
    | with_reducible apply Moves.foldl_snd
    | with_reducible apply Moves.ite_snd
    | with_reducible refine Moves.snd (by assumption) ?_
    | with_reducible intro _
    | dsimp only
    | split

theorem State.scatterOuts_moves (s w g outs) : Moves [.free] s (State.scatterOuts s w g outs).2 := by
  unfold State.scatterOuts
  try dsimp only
  repeat' first
    | with_reducible apply Moves.refl
    | with_reducible apply Moves.ite
    | ((with_reducible apply Moves.call (State.scatterOut_moves _ _ _ _ _)); rfl)
    | (simp only [moves_mk]; refine Moves.record ?_)
    | with_reducible apply Moves.foldl
    | with_reducible apply Moves.foldl_snd
    | with_reducible apply Moves.ite_snd
    | with_reducible refine Moves.snd (by assumption) ?_
    | with_reducible intro _
    | dsimp only
    | split

theorem State.openOuts_moves (s w g h) : Moves [.free] s (State.openOuts s w g h).2 := by
  unfold State.openOuts
  try dsimp only
  repeat' first
    | with_reducible apply Moves.refl
    | with_reducible apply Moves.ite
    | ((with_reducible apply Moves.call (State.openBytes_moves _ _ _)); rfl)
    | ((with_reducible apply Moves.call (State.scatterOuts_moves _ _ _ _)); rfl)
    | (simp only [moves_mk]; refine Moves.record ?_)
    | with_reducible apply Moves.foldl
    | with_reducible apply Moves.foldl_snd
    | with_reducible apply Moves.ite_snd
    | with_reducible refine Moves.snd (by assumption) ?_
    | with_reducible intro _
    | dsimp only
    | split

theorem State.putStage_moves (s r outs) : Moves [.contexts] s (State.putStage s r outs) := by
  unfold State.putStage
  try dsimp only
  repeat' first
    | with_reducible apply Moves.refl
    | with_reducible apply Moves.ite
    | ((with_reducible apply Moves.call (State.onCtx_moves _ _ _)); rfl)
    | (simp only [moves_mk]; refine Moves.record ?_)
    | with_reducible apply Moves.foldl
    | with_reducible apply Moves.foldl_snd
    | with_reducible apply Moves.ite_snd
    | with_reducible refine Moves.snd (by assumption) ?_
    | with_reducible intro _
    | dsimp only
    | split

theorem State.putOuts_moves (s gid outs) : Moves [.egress, .counters, .samples, .log, .irqPending, .keyCaches, .guests, .requests, .streams, .chans, .dram, .out, .free] s (State.putOuts s gid outs) := by
  unfold State.putOuts
  try dsimp only
  repeat' first
    | with_reducible apply Moves.refl
    | with_reducible apply Moves.ite
    | ((with_reducible apply Moves.call (State.wcbWrite_moves _ _ _ _ _)); rfl)
    | (simp only [moves_mk]; refine Moves.record ?_)
    | with_reducible apply Moves.foldl
    | with_reducible apply Moves.foldl_snd
    | with_reducible apply Moves.ite_snd
    | with_reducible refine Moves.snd (by assumption) ?_
    | with_reducible intro _
    | dsimp only
    | split

theorem State.commitHeld_moves (s key c g h) : Moves [.regs, .egress, .counters, .samples, .log, .irqPending, .keyCaches, .guests, .requests, .coherence, .streams, .waybills, .contexts, .chans, .dram, .out, .free] s (State.commitHeld s key c g h) := by
  unfold State.commitHeld
  try dsimp only
  repeat' first
    | with_reducible apply Moves.refl
    | with_reducible apply Moves.ite
    | ((with_reducible apply Moves.call (State.openOuts_moves _ _ _ _)); rfl)
    | ((with_reducible apply Moves.call (State.putStage_moves _ _ _)); rfl)
    | ((with_reducible apply Moves.call (State.putOuts_moves _ _ _)); rfl)
    | ((with_reducible apply Moves.call (State.onWb_moves _ _ _)); rfl)
    | ((with_reducible apply Moves.call (State.closeChunk_moves _ _ _)); rfl)
    | ((with_reducible apply Moves.call (State.uncachedFree_moves _ _)); rfl)
    | ((with_reducible apply Moves.call (State.unlockGranule_moves _ _ _)); rfl)
    | ((with_reducible apply Moves.call (State.countCluster_moves _ _ _ _)); rfl)
    | (simp only [moves_mk]; refine Moves.record ?_)
    | with_reducible apply Moves.foldl
    | with_reducible apply Moves.foldl_snd
    | with_reducible apply Moves.ite_snd
    | with_reducible refine Moves.snd (by assumption) ?_
    | with_reducible intro _
    | dsimp only
    | split

theorem State.putRmap_moves (s gid slot hi) : Moves [.egress, .counters, .samples, .log, .irqPending, .keyCaches, .guests, .requests, .rmap, .streams, .chans, .dram, .out, .free] s (State.putRmap s gid slot hi) := by
  unfold State.putRmap
  try dsimp only
  repeat' first
    | with_reducible apply Moves.refl
    | with_reducible apply Moves.ite
    | ((with_reducible apply Moves.call (State.putThrough_moves _ _ _ _)); rfl)
    | (simp only [moves_mk]; refine Moves.record ?_)
    | with_reducible apply Moves.foldl
    | with_reducible apply Moves.foldl_snd
    | with_reducible apply Moves.ite_snd
    | with_reducible refine Moves.snd (by assumption) ?_
    | with_reducible intro _
    | dsimp only
    | split

theorem State.remap_moves (s gid old new) : Moves [.egress, .counters, .samples, .log, .irqPending, .keyCaches, .guests, .requests, .rmap, .streams, .chans, .dram, .out, .free] s (State.remap s gid old new) := by
  unfold State.remap
  try dsimp only
  repeat' first
    | with_reducible apply Moves.refl
    | with_reducible apply Moves.ite
    | ((with_reducible apply Moves.call (State.putRmap_moves _ _ _ _)); rfl)
    | (simp only [moves_mk]; refine Moves.record ?_)
    | with_reducible apply Moves.foldl
    | with_reducible apply Moves.foldl_snd
    | with_reducible apply Moves.ite_snd
    | with_reducible refine Moves.snd (by assumption) ?_
    | with_reducible intro _
    | dsimp only
    | split

theorem State.setBlob_moves (s k v) : Moves [.blobs] s (State.setBlob s k v) := by
  unfold State.setBlob
  try dsimp only
  repeat' first
    | with_reducible apply Moves.refl
    | with_reducible apply Moves.ite
    | (simp only [moves_mk]; refine Moves.record ?_)
    | with_reducible apply Moves.foldl
    | with_reducible apply Moves.foldl_snd
    | with_reducible apply Moves.ite_snd
    | with_reducible refine Moves.snd (by assumption) ?_
    | with_reducible intro _
    | dsimp only
    | split

theorem State.applyHdr_moves (s l h) : Moves [.links, .egress, .samples] s (State.applyHdr s l h) := by
  unfold State.applyHdr
  try dsimp only
  repeat' first
    | with_reducible apply Moves.refl
    | with_reducible apply Moves.ite
    | ((with_reducible apply Moves.call (State.onLink_moves _ _ _)); rfl)
    | ((with_reducible apply Moves.call (State.unstall_moves _)); rfl)
    | (simp only [moves_mk]; refine Moves.record ?_)
    | with_reducible apply Moves.foldl
    | with_reducible apply Moves.foldl_snd
    | with_reducible apply Moves.ite_snd
    | with_reducible refine Moves.snd (by assumption) ?_
    | with_reducible intro _
    | dsimp only
    | split

end Sys2Proof.Machine
end

