-- ==== Sys2Proof/Laws/Moves5.lean ====
section
/-! SUPPORT. One lemma for each operation: the parts of the state it may change, and that it keeps what every operation keeps
(Laws/Moves). Part 5 of 8, in the order in which the operations call one another. -/

namespace Sys2Proof.Machine

open Sys2Proof

set_option linter.all false

-- One proof after the other: in parallel, each waits in a thread of its own for the same lemma of `simp only`.
set_option Elab.async false

theorem State.endSwap_moves (s gid) : Moves [.guests] s (State.endSwap s gid) := by
  unfold State.endSwap
  try dsimp only
  repeat' first
    | with_reducible apply Moves.refl
    | with_reducible apply Moves.ite
    | (simp only [moves_mk]; refine Moves.record ?_)
    | with_reducible apply Moves.foldl
    | with_reducible apply Moves.foldl_snd
    | with_reducible apply Moves.ite_snd
    | with_reducible refine Moves.snd (by assumption) ?_
    | with_reducible intro _
    | dsimp only
    | split

theorem State.endPin_moves (s gid done) : Moves [.regs, .guests, .guestCmd] s (State.endPin s gid done) := by
  unfold State.endPin
  try dsimp only
  repeat' first
    | with_reducible apply Moves.refl
    | with_reducible apply Moves.ite
    | ((with_reducible apply Moves.call (State.guestResult_moves _ _)); rfl)
    | ((with_reducible apply Moves.call (State.onGuest_moves _ _ _)); rfl)
    | (simp only [moves_mk]; refine Moves.record ?_)
    | with_reducible apply Moves.foldl
    | with_reducible apply Moves.foldl_snd
    | with_reducible apply Moves.ite_snd
    | with_reducible refine Moves.snd (by assumption) ?_
    | with_reducible intro _
    | dsimp only
    | split

theorem State.checkEntry_moves (s gid) : Moves [.egress, .counters, .samples, .log, .irqPending, .guests, .requests, .streams, .out] s (State.checkEntry s gid) := by
  unfold State.checkEntry
  try dsimp only
  repeat' first
    | with_reducible apply Moves.refl
    | with_reducible apply Moves.ite
    | ((with_reducible apply Moves.call (State.keyFail_moves _ _)); rfl)
    | ((with_reducible apply Moves.call (State.guestFatal_moves _ _ _ _)); rfl)
    | (simp only [moves_mk]; refine Moves.record ?_)
    | with_reducible apply Moves.foldl
    | with_reducible apply Moves.foldl_snd
    | with_reducible apply Moves.ite_snd
    | with_reducible refine Moves.snd (by assumption) ?_
    | with_reducible intro _
    | dsimp only
    | split

theorem State.tick_moves (s) : Moves [.timebase, .counters, .samples, .irqPending] s (State.tick s) := by
  unfold State.tick
  try dsimp only
  repeat' first
    | with_reducible apply Moves.refl
    | with_reducible apply Moves.ite
    | ((with_reducible apply Moves.call (State.aonCycle_moves _)); rfl)
    | (simp only [moves_mk]; refine Moves.record ?_)
    | with_reducible apply Moves.foldl
    | with_reducible apply Moves.foldl_snd
    | with_reducible apply Moves.ite_snd
    | with_reducible refine Moves.snd (by assumption) ?_
    | with_reducible intro _
    | dsimp only
    | split

theorem State.makeElt_moves (s w cl g off n) : Moves [.regs, .egress, .peers, .counters, .samples, .log, .irqPending, .keyCaches, .guests, .requests, .lrc, .tlbs, .faults, .coherence, .streams, .chans, .dram, .out, .free] s (State.makeElt s w cl g off n).2 := by
  unfold State.makeElt
  try dsimp only
  repeat' first
    | with_reducible apply Moves.refl
    | with_reducible apply Moves.ite
    | ((with_reducible apply Moves.call (State.readRange_moves _ _ _ _ _ _ _)); rfl)
    | (simp only [moves_mk]; refine Moves.record ?_)
    | with_reducible apply Moves.foldl
    | with_reducible apply Moves.foldl_snd
    | with_reducible apply Moves.ite_snd
    | with_reducible refine Moves.snd (by assumption) ?_
    | with_reducible intro _
    | dsimp only
    | split

theorem State.makeCopy_moves (s w cl g off n) : Moves [.regs, .egress, .peers, .counters, .samples, .log, .irqPending, .keyCaches, .guests, .requests, .lrc, .tlbs, .faults, .coherence, .streams, .chans, .dram, .out, .free] s (State.makeCopy s w cl g off n).2 := by
  unfold State.makeCopy
  try dsimp only
  repeat' first
    | with_reducible apply Moves.refl
    | with_reducible apply Moves.ite
    | ((with_reducible apply Moves.call (State.readRange_moves _ _ _ _ _ _ _)); rfl)
    | (simp only [moves_mk]; refine Moves.record ?_)
    | with_reducible apply Moves.foldl
    | with_reducible apply Moves.foldl_snd
    | with_reducible apply Moves.ite_snd
    | with_reducible refine Moves.snd (by assumption) ?_
    | with_reducible intro _
    | dsimp only
    | split

theorem State.makeConv_moves (s w cl g off n) : Moves [.regs, .egress, .peers, .counters, .samples, .log, .irqPending, .keyCaches, .guests, .requests, .lrc, .tlbs, .faults, .coherence, .streams, .chans, .dram, .out, .free] s (State.makeConv s w cl g off n).2 := by
  unfold State.makeConv
  try dsimp only
  repeat' first
    | with_reducible apply Moves.refl
    | with_reducible apply Moves.ite
    | ((with_reducible apply Moves.call (State.readRange_moves _ _ _ _ _ _ _)); rfl)
    | ((with_reducible apply Moves.call (State.convRead_moves _ _ _ _ _ _)); rfl)
    | (simp only [moves_mk]; refine Moves.record ?_)
    | with_reducible apply Moves.foldl
    | with_reducible apply Moves.foldl_snd
    | with_reducible apply Moves.ite_snd
    | with_reducible refine Moves.snd (by assumption) ?_
    | with_reducible intro _
    | dsimp only
    | split

theorem State.make0_moves (s w cl g off n) : Moves [.regs, .egress, .peers, .counters, .samples, .log, .irqPending, .keyCaches, .guests, .requests, .lrc, .tlbs, .faults, .coherence, .streams, .chans, .dram, .out, .free] s (State.make0 s w cl g off n).2 := by
  unfold State.make0
  try dsimp only
  repeat' first
    | with_reducible apply Moves.refl
    | with_reducible apply Moves.ite
    | ((with_reducible apply Moves.call (State.makeElt_moves _ _ _ _ _ _)); rfl)
    | ((with_reducible apply Moves.call (State.makeCopy_moves _ _ _ _ _ _)); rfl)
    | ((with_reducible apply Moves.call (State.makeConv_moves _ _ _ _ _ _)); rfl)
    | (simp only [moves_mk]; refine Moves.record ?_)
    | with_reducible apply Moves.foldl
    | with_reducible apply Moves.foldl_snd
    | with_reducible apply Moves.ite_snd
    | with_reducible refine Moves.snd (by assumption) ?_
    | with_reducible intro _
    | dsimp only
    | split

theorem kernel0_moves (key cl s g) : Moves [.regs, .egress, .peers, .counters, .samples, .log, .irqPending, .keyCaches, .guests, .requests, .lrc, .tlbs, .faults, .coherence, .streams, .chans, .dram, .out, .free] s (kernel0 key cl s g).2 := by
  unfold kernel0
  try dsimp only
  repeat' first
    | with_reducible apply Moves.refl
    | with_reducible apply Moves.ite
    | ((with_reducible apply Moves.call (State.make0_moves _ _ _ _ _ _)); rfl)
    | (simp only [moves_mk]; refine Moves.record ?_)
    | with_reducible apply Moves.foldl
    | with_reducible apply Moves.foldl_snd
    | with_reducible apply Moves.ite_snd
    | with_reducible refine Moves.snd (by assumption) ?_
    | with_reducible intro _
    | dsimp only
    | split

theorem State.clearClusters_moves (s) : Moves [.tlbs, .waybills] s (State.clearClusters s) := by
  unfold State.clearClusters
  try dsimp only
  repeat' first
    | with_reducible apply Moves.refl
    | with_reducible apply Moves.ite
    | (simp only [moves_mk]; refine Moves.record ?_)
    | with_reducible apply Moves.foldl
    | with_reducible apply Moves.foldl_snd
    | with_reducible apply Moves.ite_snd
    | with_reducible refine Moves.snd (by assumption) ?_
    | with_reducible intro _
    | dsimp only
    | split

theorem State.fwResult_moves (s v) : Moves [.regs] s (State.fwResult s v) := by
  unfold State.fwResult
  try dsimp only
  repeat' first
    | with_reducible apply Moves.refl
    | with_reducible apply Moves.ite
    | ((with_reducible apply Moves.call (State.setReg_moves _ _ _)); rfl)
    | (simp only [moves_mk]; refine Moves.record ?_)
    | with_reducible apply Moves.foldl
    | with_reducible apply Moves.foldl_snd
    | with_reducible apply Moves.ite_snd
    | with_reducible refine Moves.snd (by assumption) ?_
    | with_reducible intro _
    | dsimp only
    | split

theorem State.trial_moves (s t) : Moves [.regs, .firmware, .free] s (State.trial s t) := by
  unfold State.trial
  try dsimp only
  repeat' first
    | with_reducible apply Moves.refl
    | with_reducible apply Moves.ite
    | ((with_reducible apply Moves.call (State.useFree_moves _ _)); rfl)
    | ((with_reducible apply Moves.call (State.fwResult_moves _ _)); rfl)
    | (simp only [moves_mk]; refine Moves.record ?_)
    | with_reducible apply Moves.foldl
    | with_reducible apply Moves.foldl_snd
    | with_reducible apply Moves.ite_snd
    | with_reducible refine Moves.snd (by assumption) ?_
    | with_reducible intro _
    | dsimp only
    | split

theorem State.onPend_moves (s f) : Moves [.irqPending] s (State.onPend s f) := by
  unfold State.onPend
  try dsimp only
  repeat' first
    | with_reducible apply Moves.refl
    | with_reducible apply Moves.ite
    | (simp only [moves_mk]; refine Moves.record ?_)
    | with_reducible apply Moves.foldl
    | with_reducible apply Moves.foldl_snd
    | with_reducible apply Moves.ite_snd
    | with_reducible refine Moves.snd (by assumption) ?_
    | with_reducible intro _
    | dsimp only
    | split

theorem State.lockGranule_moves (s key cl g pa) : Moves [.waybills] s (State.lockGranule s key cl g pa).2 := by
  unfold State.lockGranule
  try dsimp only
  repeat' first
    | with_reducible apply Moves.refl
    | with_reducible apply Moves.ite
    | (simp only [moves_mk]; refine Moves.record ?_)
    | with_reducible apply Moves.foldl
    | with_reducible apply Moves.foldl_snd
    | with_reducible apply Moves.ite_snd
    | with_reducible refine Moves.snd (by assumption) ?_
    | with_reducible intro _
    | dsimp only
    | split

theorem State.redLock_moves (s key cl g lo staged) : Moves [.regs, .counters, .irqPending, .tlbs, .faults, .waybills] s (State.redLock s key cl g lo staged).2 := by
  unfold State.redLock
  try dsimp only
  repeat' first
    | with_reducible apply Moves.refl
    | with_reducible apply Moves.ite
    | ((with_reducible apply Moves.call (State.lockGranule_moves _ _ _ _ _)); rfl)
    | ((with_reducible apply Moves.call (State.porterXl_moves _ _ _ _ _)); rfl)
    | (simp only [moves_mk]; refine Moves.record ?_)
    | with_reducible apply Moves.foldl
    | with_reducible apply Moves.foldl_snd
    | with_reducible apply Moves.ite_snd
    | with_reducible refine Moves.snd (by assumption) ?_
    | with_reducible intro _
    | dsimp only
    | split

theorem State.migrRead_moves (s c u) : Moves [.egress, .counters, .samples, .log, .irqPending, .keyCaches, .guests, .requests, .streams, .chans, .dram, .out, .free] s (State.migrRead s c u).2 := by
  unfold State.migrRead
  try dsimp only
  repeat' first
    | with_reducible apply Moves.refl
    | with_reducible apply Moves.ite
    | ((with_reducible apply Moves.call (State.readLine_moves _ _ _ _ _)); rfl)
    | (simp only [moves_mk]; refine Moves.record ?_)
    | with_reducible apply Moves.foldl
    | with_reducible apply Moves.foldl_snd
    | with_reducible apply Moves.ite_snd
    | with_reducible refine Moves.snd (by assumption) ?_
    | with_reducible intro _
    | dsimp only
    | split

theorem State.migrSend1_moves (s c u) : Moves [.egress, .peers, .counters, .samples, .log, .irqPending, .keyCaches, .guests, .requests, .commit, .streams, .chans, .dram, .out, .free] s (State.migrSend1 s c u) := by
  unfold State.migrSend1
  try dsimp only
  repeat' first
    | with_reducible apply Moves.refl
    | with_reducible apply Moves.ite
    | ((with_reducible apply Moves.call (State.request_moves _ _ _ _)); rfl)
    | ((with_reducible apply Moves.call (State.migrRead_moves _ _ _)); rfl)
    | (simp only [moves_mk]; refine Moves.record ?_)
    | with_reducible apply Moves.foldl
    | with_reducible apply Moves.foldl_snd
    | with_reducible apply Moves.ite_snd
    | with_reducible refine Moves.snd (by assumption) ?_
    | with_reducible intro _
    | dsimp only
    | split

theorem State.migrSend_moves (s n) : Moves [.egress, .peers, .counters, .samples, .log, .irqPending, .keyCaches, .guests, .requests, .commit, .streams, .chans, .dram, .out, .free] s (State.migrSend s n) := by
  induction n generalizing s with
  | zero => exact Moves.refl _ _
  | succ n ih =>
    unfold State.migrSend
    split
    · split
      · split
        · exact (Moves.mono (State.migrSend1_moves _ _ _) rfl).trans (ih _)
        · exact Moves.refl _ _
      · exact Moves.refl _ _
    · exact Moves.refl _ _

theorem State.migrAnswer_moves (s off p) : Moves [.regs, .egress, .peers, .counters, .samples, .log, .irqPending, .keyCaches, .guests, .requests, .lrc, .tlbs, .commit, .faults, .coherence, .streams, .waybills, .contexts, .chans, .dram, .out, .free] s (State.migrAnswer s off p) := by
  unfold State.migrAnswer
  try dsimp only
  repeat' first
    | with_reducible apply Moves.refl
    | with_reducible apply Moves.ite
    | ((with_reducible apply Moves.call (State.migrFail_moves _)); rfl)
    | ((with_reducible apply Moves.call (State.wcbPut_moves _ _ _ _ _)); rfl)
    | ((with_reducible apply Moves.call (State.migrSend_moves _ _)); rfl)
    | (simp only [moves_mk]; refine Moves.record ?_)
    | with_reducible apply Moves.foldl
    | with_reducible apply Moves.foldl_snd
    | with_reducible apply Moves.ite_snd
    | with_reducible refine Moves.snd (by assumption) ?_
    | with_reducible intro _
    | dsimp only
    | split

theorem State.wake_moves (s cause) : Moves [.regs, .night, .links, .egress, .samples, .irqPending, .requests, .chans] s (State.wake s cause) := by
  unfold State.wake
  try dsimp only
  repeat' first
    | with_reducible apply Moves.refl
    | with_reducible apply Moves.ite
    | ((with_reducible apply Moves.call (State.wakeNightLinks_moves _)); rfl)
    | ((with_reducible apply Moves.call (State.setReg_moves _ _ _)); rfl)
    | (simp only [moves_mk]; refine Moves.record ?_)
    | with_reducible apply Moves.foldl
    | with_reducible apply Moves.foldl_snd
    | with_reducible apply Moves.ite_snd
    | with_reducible refine Moves.snd (by assumption) ?_
    | with_reducible intro _
    | dsimp only
    | split

theorem State.enterNight_moves (s) : Moves [.regs, .night, .contacts, .links, .egress, .samples, .irqPending, .irqCores, .requests, .tlbs, .waybills, .chans] s (State.enterNight s) := by
  unfold State.enterNight
  try dsimp only
  repeat' first
    | with_reducible apply Moves.refl
    | with_reducible apply Moves.ite
    | ((with_reducible apply Moves.call (State.holdOutputs_moves _)); rfl)
    | ((with_reducible apply Moves.call (State.wake_moves _ _)); rfl)
    | (simp only [moves_mk]; refine Moves.record ?_)
    | with_reducible apply Moves.foldl
    | with_reducible apply Moves.foldl_snd
    | with_reducible apply Moves.ite_snd
    | with_reducible refine Moves.snd (by assumption) ?_
    | with_reducible intro _
    | dsimp only
    | split

theorem State.releaseOutputs_moves (s) : Moves [.contacts] s (State.releaseOutputs s) := by
  unfold State.releaseOutputs
  try dsimp only
  repeat' first
    | with_reducible apply Moves.refl
    | with_reducible apply Moves.ite
    | (simp only [moves_mk]; refine Moves.record ?_)
    | with_reducible apply Moves.foldl
    | with_reducible apply Moves.foldl_snd
    | with_reducible apply Moves.ite_snd
    | with_reducible refine Moves.snd (by assumption) ?_
    | with_reducible intro _
    | dsimp only
    | split

theorem State.loseBoth_moves (s) : Moves [.contacts, .ik] s (State.loseBoth s) := by
  unfold State.loseBoth
  try dsimp only
  repeat' first
    | with_reducible apply Moves.refl
    | with_reducible apply Moves.ite
    | ((with_reducible apply Moves.call (State.releaseOutputs_moves _)); rfl)
    | (simp only [moves_mk]; refine Moves.record ?_)
    | with_reducible apply Moves.foldl
    | with_reducible apply Moves.foldl_snd
    | with_reducible apply Moves.ite_snd
    | with_reducible refine Moves.snd (by assumption) ?_
    | with_reducible intro _
    | dsimp only
    | split

theorem State.failRun_moves (s d) : Moves [.contacts, .ik, .irqPending] s (State.failRun s d) := by
  unfold State.failRun
  try dsimp only
  repeat' first
    | with_reducible apply Moves.refl
    | with_reducible apply Moves.ite
    | ((with_reducible apply Moves.call (State.dropRevert_moves _)); rfl)
    | ((with_reducible apply Moves.call (State.onIkd_moves _ _ _)); rfl)
    | ((with_reducible apply Moves.call (State.irqEdge_moves _ _)); rfl)
    | ((with_reducible apply Moves.call (State.loseBoth_moves _)); rfl)
    | (simp only [moves_mk]; refine Moves.record ?_)
    | with_reducible apply Moves.foldl
    | with_reducible apply Moves.foldl_snd
    | with_reducible apply Moves.ite_snd
    | with_reducible refine Moves.snd (by assumption) ?_
    | with_reducible intro _
    | dsimp only
    | split

theorem State.recallGuest_moves (s gid) : Moves [.egress, .counters, .samples, .log, .irqPending, .keyCaches, .guests, .requests, .coherence, .streams, .chans, .dram, .out, .free] s (State.recallGuest s gid) := by
  unfold State.recallGuest
  try dsimp only
  repeat' first
    | with_reducible apply Moves.refl
    | with_reducible apply Moves.ite
    | ((with_reducible apply Moves.call (State.recall_moves _ _ _)); rfl)
    | ((with_reducible apply Moves.call (State.setDir_moves _ _ _)); rfl)
    | ((with_reducible apply Moves.call (State.hfinish_moves _ _ _)); rfl)
    | (simp only [moves_mk]; refine Moves.record ?_)
    | with_reducible apply Moves.foldl
    | with_reducible apply Moves.foldl_snd
    | with_reducible apply Moves.ite_snd
    | with_reducible refine Moves.snd (by assumption) ?_
    | with_reducible intro _
    | dsimp only
    | split

theorem State.unpackGroup_moves (s l g flits) : Moves [.links, .counters, .samples, .irqPending] s (State.unpackGroup s l g flits) := by
  unfold State.unpackGroup
  try dsimp only
  repeat' first
    | with_reducible apply Moves.refl
    | with_reducible apply Moves.ite
    | ((with_reducible apply Moves.call (State.countLink_moves _ _ _ _)); rfl)
    | ((with_reducible apply Moves.call (State.arrive_moves _ _ _)); rfl)
    | ((with_reducible apply Moves.call (State.setLink_moves _ _ _)); rfl)
    | (simp only [moves_mk]; refine Moves.record ?_)
    | with_reducible apply Moves.foldl
    | with_reducible apply Moves.foldl_snd
    | with_reducible apply Moves.ite_snd
    | with_reducible refine Moves.snd (by assumption) ?_
    | with_reducible intro _
    | dsimp only
    | split

theorem State.irqStart_moves (s) : Moves [.counters, .irqPending, .irqCores] s (State.irqStart s) := by
  unfold State.irqStart
  try dsimp only
  repeat' first
    | with_reducible apply Moves.refl
    | with_reducible apply Moves.ite
    | ((with_reducible apply Moves.call (State.countN_moves _ _ _ _ _ _)); rfl)
    | (simp only [moves_mk]; refine Moves.record ?_)
    | with_reducible apply Moves.foldl
    | with_reducible apply Moves.foldl_snd
    | with_reducible apply Moves.ite_snd
    | with_reducible refine Moves.snd (by assumption) ?_
    | with_reducible intro _
    | dsimp only
    | split

theorem State.takeCtx_moves (s key) : Moves [.contexts] s (State.takeCtx s key) := by
  unfold State.takeCtx
  try dsimp only
  repeat' first
    | with_reducible apply Moves.refl
    | with_reducible apply Moves.ite
    | ((with_reducible apply Moves.call (State.onCtx_moves _ _ _)); rfl)
    | (simp only [moves_mk]; refine Moves.record ?_)
    | with_reducible apply Moves.foldl
    | with_reducible apply Moves.foldl_snd
    | with_reducible apply Moves.ite_snd
    | with_reducible refine Moves.snd (by assumption) ?_
    | with_reducible intro _
    | dsimp only
    | split

theorem State.checkWb_moves (s key) : Moves [.egress, .counters, .samples, .log, .irqPending, .guests, .requests, .streams, .waybills, .contexts, .out] s (State.checkWb s key) := by
  unfold State.checkWb
  try dsimp only
  repeat' first
    | with_reducible apply Moves.refl
    | with_reducible apply Moves.ite
    | ((with_reducible apply Moves.call (State.onWb_moves _ _ _)); rfl)
    | ((with_reducible apply Moves.call (State.onCtx_moves _ _ _)); rfl)
    | ((with_reducible apply Moves.call (State.endEarly_moves _ _ _)); rfl)
    | ((with_reducible apply Moves.call (State.takeCtx_moves _ _)); rfl)
    | ((with_reducible apply Moves.call (State.keyFail_moves _ _)); rfl)
    | (simp only [moves_mk]; refine Moves.record ?_)
    | with_reducible apply Moves.foldl
    | with_reducible apply Moves.foldl_snd
    | with_reducible apply Moves.ite_snd
    | with_reducible refine Moves.snd (by assumption) ?_
    | with_reducible intro _
    | dsimp only
    | split

theorem State.checkLate_moves (s key) : Moves [.egress, .counters, .samples, .log, .irqPending, .guests, .requests, .streams, .waybills, .contexts, .out] s (State.checkLate s key) := by
  unfold State.checkLate
  try dsimp only
  repeat' first
    | with_reducible apply Moves.refl
    | with_reducible apply Moves.ite
    | ((with_reducible apply Moves.call (State.checkWb_moves _ _)); rfl)
    | ((with_reducible apply Moves.call (State.onWb_moves _ _ _)); rfl)
    | (simp only [moves_mk]; refine Moves.record ?_)
    | with_reducible apply Moves.foldl
    | with_reducible apply Moves.foldl_snd
    | with_reducible apply Moves.ite_snd
    | with_reducible refine Moves.snd (by assumption) ?_
    | with_reducible intro _
    | dsimp only
    | split

theorem State.makeKey_moves (s gid) : Moves [.counters, .irqPending, .entropy, .keyCaches] s (State.makeKey s gid).2 := by
  unfold State.makeKey
  try dsimp only
  repeat' first
    | with_reducible apply Moves.refl
    | with_reducible apply Moves.ite
    | ((with_reducible apply Moves.call (State.draw_moves _ _)); rfl)
    | ((with_reducible apply Moves.call (State.countIk_moves _ _ _)); rfl)
    | (simp only [moves_mk]; refine Moves.record ?_)
    | with_reducible apply Moves.foldl
    | with_reducible apply Moves.foldl_snd
    | with_reducible apply Moves.ite_snd
    | with_reducible refine Moves.snd (by assumption) ?_
    | with_reducible intro _
    | dsimp only
    | split

theorem State.defineGuest_moves (s gid pkey) : Moves [.egress, .counters, .samples, .log, .irqPending, .entropy, .keyCaches, .guests, .requests, .streams, .chans, .dram, .out, .free] s (State.defineGuest s gid pkey) := by
  unfold State.defineGuest
  try dsimp only
  repeat' first
    | with_reducible apply Moves.refl
    | with_reducible apply Moves.ite
    | ((with_reducible apply Moves.call (State.makeKey_moves _ _)); rfl)
    | ((with_reducible apply Moves.call (State.spill_moves _ _)); rfl)
    | (simp only [moves_mk]; refine Moves.record ?_)
    | with_reducible apply Moves.foldl
    | with_reducible apply Moves.foldl_snd
    | with_reducible apply Moves.ite_snd
    | with_reducible refine Moves.snd (by assumption) ?_
    | with_reducible intro _
    | dsimp only
    | split

theorem State.applyDef_moves (s d) : Moves [.egress, .counters, .samples, .log, .irqPending, .entropy, .keyCaches, .guests, .requests, .streams, .chans, .dram, .out, .free] s (State.applyDef s d) := by
  unfold State.applyDef
  try dsimp only
  repeat' first
    | with_reducible apply Moves.refl
    | with_reducible apply Moves.ite
    | ((with_reducible apply Moves.call (State.defineGuest_moves _ _ _)); rfl)
    | ((with_reducible apply Moves.call (State.onGuest_moves _ _ _)); rfl)
    | (simp only [moves_mk]; refine Moves.record ?_)
    | with_reducible apply Moves.foldl
    | with_reducible apply Moves.foldl_snd
    | with_reducible apply Moves.ite_snd
    | with_reducible refine Moves.snd (by assumption) ?_
    | with_reducible intro _
    | dsimp only
    | split

theorem State.startTeardown_moves (s gid) : Moves [.egress, .counters, .samples, .irqPending, .teardown, .guests, .requests, .waybills] s (State.startTeardown s gid) := by
  unfold State.startTeardown
  try dsimp only
  repeat' first
    | with_reducible apply Moves.refl
    | with_reducible apply Moves.ite
    | ((with_reducible apply Moves.call (State.onGuest_moves _ _ _)); rfl)
    | ((with_reducible apply Moves.call (State.endReq_moves _ _ _ _ _)); rfl)
    | ((with_reducible apply Moves.call (State.leaveQ_moves _ _ _)); rfl)
    | (simp only [moves_mk]; refine Moves.record ?_)
    | with_reducible apply Moves.foldl
    | with_reducible apply Moves.foldl_snd
    | with_reducible apply Moves.ite_snd
    | with_reducible refine Moves.snd (by assumption) ?_
    | with_reducible intro _
    | dsimp only
    | split

theorem State.enterServing_moves (s) : Moves [.phase, .set] s (State.enterServing s) := by
  unfold State.enterServing
  try dsimp only
  repeat' first
    | with_reducible apply Moves.refl
    | with_reducible apply Moves.ite
    | (simp only [moves_mk]; refine Moves.record ?_)
    | with_reducible apply Moves.foldl
    | with_reducible apply Moves.foldl_snd
    | with_reducible apply Moves.ite_snd
    | with_reducible refine Moves.snd (by assumption) ?_
    | with_reducible intro _
    | dsimp only
    | split

theorem State.onDistribute_moves (s src ms defs erase) : Moves [.egress, .counters, .samples, .log, .phase, .irqPending, .entropy, .keyCaches, .teardown, .guests, .guestCmd, .requests, .set, .streams, .waybills, .chans, .dram, .out, .free] s (State.onDistribute s src ms defs erase) := by
  unfold State.onDistribute
  try dsimp only
  repeat' first
    | with_reducible apply Moves.refl
    | with_reducible apply Moves.ite
    | ((with_reducible apply Moves.call (State.applyDef_moves _ _)); rfl)
    | ((with_reducible apply Moves.call (State.learnMembers_moves _ _)); rfl)
    | ((with_reducible apply Moves.call (State.startTeardown_moves _ _)); rfl)
    | ((with_reducible apply Moves.call (State.enterServing_moves _)); rfl)
    | (simp only [moves_mk]; refine Moves.record ?_)
    | with_reducible apply Moves.foldl
    | with_reducible apply Moves.foldl_snd
    | with_reducible apply Moves.ite_snd
    | with_reducible refine Moves.snd (by assumption) ?_
    | with_reducible intro _
    | dsimp only
    | split

theorem State.countBus_moves (s b sel) : Moves [.counters, .irqPending] s (State.countBus s b sel) := by
  unfold State.countBus
  try dsimp only
  repeat' first
    | with_reducible apply Moves.refl
    | with_reducible apply Moves.ite
    | ((with_reducible apply Moves.call (State.count_moves _ _ _ _ _)); rfl)
    | (simp only [moves_mk]; refine Moves.record ?_)
    | with_reducible apply Moves.foldl
    | with_reducible apply Moves.foldl_snd
    | with_reducible apply Moves.ite_snd
    | with_reducible refine Moves.snd (by assumption) ?_
    | with_reducible intro _
    | dsimp only
    | split

theorem State.onBus_moves (s b f) : Moves [.buses] s (State.onBus s b f) := by
  unfold State.onBus
  try dsimp only
  repeat' first
    | with_reducible apply Moves.refl
    | with_reducible apply Moves.ite
    | (simp only [moves_mk]; refine Moves.record ?_)
    | with_reducible apply Moves.foldl
    | with_reducible apply Moves.foldl_snd
    | with_reducible apply Moves.ite_snd
    | with_reducible refine Moves.snd (by assumption) ?_
    | with_reducible intro _
    | dsimp only
    | split

theorem State.dimmTemp_moves (s ch t) : Moves [.irqPending, .chans] s (State.dimmTemp s ch t) := by
  unfold State.dimmTemp
  try dsimp only
  repeat' first
    | with_reducible apply Moves.refl
    | with_reducible apply Moves.ite
    | ((with_reducible apply Moves.call (State.onChan_moves _ _ _)); rfl)
    | ((with_reducible apply Moves.call (State.irqEdge_moves _ _)); rfl)
    | (simp only [moves_mk]; refine Moves.record ?_)
    | with_reducible apply Moves.foldl
    | with_reducible apply Moves.foldl_snd
    | with_reducible apply Moves.ite_snd
    | with_reducible refine Moves.snd (by assumption) ?_
    | with_reducible intro _
    | dsimp only
    | split

theorem State.busFree_moves (s b) : Moves [.irqPending, .chans, .buses] s (State.busFree s b) := by
  unfold State.busFree
  try dsimp only
  repeat' first
    | with_reducible apply Moves.refl
    | with_reducible apply Moves.ite
    | ((with_reducible apply Moves.call (State.dimmTemp_moves _ _ _)); rfl)
    | ((with_reducible apply Moves.call (State.onBus_moves _ _ _)); rfl)
    | (simp only [moves_mk]; refine Moves.record ?_)
    | with_reducible apply Moves.foldl
    | with_reducible apply Moves.foldl_snd
    | with_reducible apply Moves.ite_snd
    | with_reducible refine Moves.snd (by assumption) ?_
    | with_reducible intro _
    | dsimp only
    | split

theorem State.arbLost_moves (s b) : Moves [.regs, .counters, .irqPending, .chans, .buses] s (State.arbLost s b) := by
  unfold State.arbLost
  try dsimp only
  repeat' first
    | with_reducible apply Moves.refl
    | with_reducible apply Moves.ite
    | ((with_reducible apply Moves.call (State.countBus_moves _ _ _)); rfl)
    | ((with_reducible apply Moves.call (State.onBus_moves _ _ _)); rfl)
    | ((with_reducible apply Moves.call (State.busFree_moves _ _)); rfl)
    | ((with_reducible apply Moves.call (State.irqEdge_moves _ _)); rfl)
    | ((with_reducible apply Moves.call (State.setReg_moves _ _ _)); rfl)
    | (simp only [moves_mk]; refine Moves.record ?_)
    | with_reducible apply Moves.foldl
    | with_reducible apply Moves.foldl_snd
    | with_reducible apply Moves.ite_snd
    | with_reducible refine Moves.snd (by assumption) ?_
    | with_reducible intro _
    | dsimp only
    | split

theorem State.thermalLog_moves (s die t level was now) : Moves [.log, .out] s (State.thermalLog s die t level was now) := by
  unfold State.thermalLog
  try dsimp only
  repeat' first
    | with_reducible apply Moves.refl
    | with_reducible apply Moves.ite
    | ((with_reducible apply Moves.call (State.log_moves _ _ _ _ _ _ _)); rfl)
    | (simp only [moves_mk]; refine Moves.record ?_)
    | with_reducible apply Moves.foldl
    | with_reducible apply Moves.foldl_snd
    | with_reducible apply Moves.ite_snd
    | with_reducible refine Moves.snd (by assumption) ?_
    | with_reducible intro _
    | dsimp only
    | split

theorem State.countTakeover_moves (s t resumed) : Moves [.log, .ik, .out] s (State.countTakeover s t resumed) := by
  unfold State.countTakeover
  try dsimp only
  repeat' first
    | with_reducible apply Moves.refl
    | with_reducible apply Moves.ite
    | ((with_reducible apply Moves.call (State.log_moves _ _ _ _ _ _ _)); rfl)
    | (simp only [moves_mk]; refine Moves.record ?_)
    | with_reducible apply Moves.foldl
    | with_reducible apply Moves.foldl_snd
    | with_reducible apply Moves.ite_snd
    | with_reducible refine Moves.snd (by assumption) ?_
    | with_reducible intro _
    | dsimp only
    | split

theorem State.discardPkt_moves (s l p) : Moves [.links, .samples] s (State.discardPkt s l p) := by
  unfold State.discardPkt
  try dsimp only
  repeat' first
    | with_reducible apply Moves.refl
    | with_reducible apply Moves.ite
    | ((with_reducible apply Moves.call (State.discardQ_moves _ _ _)); rfl)
    | ((with_reducible apply Moves.call (State.leavePool_moves _ _ _ _)); rfl)
    | (simp only [moves_mk]; refine Moves.record ?_)
    | with_reducible apply Moves.foldl
    | with_reducible apply Moves.foldl_snd
    | with_reducible apply Moves.ite_snd
    | with_reducible refine Moves.snd (by assumption) ?_
    | with_reducible intro _
    | dsimp only
    | split

theorem State.rejectPkt_moves (s l p sel) : Moves [.links, .counters, .samples, .irqPending] s (State.rejectPkt s l p sel) := by
  unfold State.rejectPkt
  try dsimp only
  repeat' first
    | with_reducible apply Moves.refl
    | with_reducible apply Moves.ite
    | ((with_reducible apply Moves.call (State.discardPkt_moves _ _ _)); rfl)
    | ((with_reducible apply Moves.call (State.dropPkt_moves _ _ _)); rfl)
    | (simp only [moves_mk]; refine Moves.record ?_)
    | with_reducible apply Moves.foldl
    | with_reducible apply Moves.foldl_snd
    | with_reducible apply Moves.ite_snd
    | with_reducible refine Moves.snd (by assumption) ?_
    | with_reducible intro _
    | dsimp only
    | split

theorem State.noteBcast_moves (s l p) : Moves [.peers] s (State.noteBcast s l p) := by
  unfold State.noteBcast
  try dsimp only
  repeat' first
    | with_reducible apply Moves.refl
    | with_reducible apply Moves.ite
    | ((with_reducible apply Moves.call (State.setBcast_moves _ _)); rfl)
    | (simp only [moves_mk]; refine Moves.record ?_)
    | with_reducible apply Moves.foldl
    | with_reducible apply Moves.foldl_snd
    | with_reducible apply Moves.ite_snd
    | with_reducible refine Moves.snd (by assumption) ?_
    | with_reducible intro _
    | dsimp only
    | split

theorem State.sendCopies_moves (s l p held r) : Moves [.egress, .counters, .samples, .irqPending] s (State.sendCopies s l p held r) := by
  induction r generalizing s held with
  | nil => exact Moves.refl _ _
  | cons x r ih =>
    unfold State.sendCopies
    split
    · exact (Moves.mono (State.enqueue_moves _ _) rfl).trans (ih _ _)
    · exact (Moves.mono (State.dropPkt_moves _ _ _) rfl).trans (ih _ _)

theorem State.dictDropped_moves (s) : Moves [.regs, .counters, .irqPending] s (State.dictDropped s) := by
  unfold State.dictDropped
  try dsimp only
  repeat' first
    | with_reducible apply Moves.refl
    | with_reducible apply Moves.ite
    | ((with_reducible apply Moves.call (State.countIk_moves _ _ _)); rfl)
    | ((with_reducible apply Moves.call (State.setReg_moves _ _ _)); rfl)
    | (simp only [moves_mk]; refine Moves.record ?_)
    | with_reducible apply Moves.foldl
    | with_reducible apply Moves.foldl_snd
    | with_reducible apply Moves.ite_snd
    | with_reducible refine Moves.snd (by assumption) ?_
    | with_reducible intro _
    | dsimp only
    | split

theorem State.sayBusy_moves (s via trk pdu) : Moves [.egress, .counters, .samples, .irqPending, .requests, .out] s (State.sayBusy s via trk pdu) := by
  unfold State.sayBusy
  try dsimp only
  repeat' first
    | with_reducible apply Moves.refl
    | with_reducible apply Moves.ite
    | ((with_reducible apply Moves.call (State.countIk_moves _ _ _)); rfl)
    | ((with_reducible apply Moves.call (State.sendPdu_moves _ _ _ _)); rfl)
    | (simp only [moves_mk]; refine Moves.record ?_)
    | with_reducible apply Moves.foldl
    | with_reducible apply Moves.foldl_snd
    | with_reducible apply Moves.ite_snd
    | with_reducible refine Moves.snd (by assumption) ?_
    | with_reducible intro _
    | dsimp only
    | split

theorem State.dictArrive_moves (s via trk pdu) : Moves [.regs, .egress, .counters, .samples, .irqPending, .dictQueue, .requests, .out] s (State.dictArrive s via trk pdu) := by
  unfold State.dictArrive
  try dsimp only
  repeat' first
    | with_reducible apply Moves.refl
    | with_reducible apply Moves.ite
    | ((with_reducible apply Moves.call (State.dictDropped_moves _)); rfl)
    | ((with_reducible apply Moves.call (State.dropTracker_moves _ _)); rfl)
    | ((with_reducible apply Moves.call (State.sayBusy_moves _ _ _ _)); rfl)
    | ((with_reducible apply Moves.call (State.enterQ_moves _ _ _)); rfl)
    | (simp only [moves_mk]; refine Moves.record ?_)
    | with_reducible apply Moves.foldl
    | with_reducible apply Moves.foldl_snd
    | with_reducible apply Moves.ite_snd
    | with_reducible refine Moves.snd (by assumption) ?_
    | with_reducible intro _
    | dsimp only
    | split

theorem State.intrude_moves (s src) : Moves [.irqPending, .set] s (State.intrude s src) := by
  unfold State.intrude
  try dsimp only
  repeat' first
    | with_reducible apply Moves.refl
    | with_reducible apply Moves.ite
    | ((with_reducible apply Moves.call (State.irqEdge_moves _ _)); rfl)
    | (simp only [moves_mk]; refine Moves.record ?_)
    | with_reducible apply Moves.foldl
    | with_reducible apply Moves.foldl_snd
    | with_reducible apply Moves.ite_snd
    | with_reducible refine Moves.snd (by assumption) ?_
    | with_reducible intro _
    | dsimp only
    | split

theorem State.conflict_moves (s) : Moves [.set] s (State.conflict s) := by
  unfold State.conflict
  try dsimp only
  repeat' first
    | with_reducible apply Moves.refl
    | with_reducible apply Moves.ite
    | (simp only [moves_mk]; refine Moves.record ?_)
    | with_reducible apply Moves.foldl
    | with_reducible apply Moves.foldl_snd
    | with_reducible apply Moves.ite_snd
    | with_reducible refine Moves.snd (by assumption) ?_
    | with_reducible intro _
    | dsimp only
    | split

theorem State.sendJoin_moves (s src state nonce) : Moves [.egress, .counters, .samples, .irqPending, .requests, .set] s (State.sendJoin s src state nonce) := by
  unfold State.sendJoin
  try dsimp only
  repeat' first
    | with_reducible apply Moves.refl
    | with_reducible apply Moves.ite
    | ((with_reducible apply Moves.call (State.sendSet_moves _ _ _)); rfl)
    | (simp only [moves_mk]; refine Moves.record ?_)
    | with_reducible apply Moves.foldl
    | with_reducible apply Moves.foldl_snd
    | with_reducible apply Moves.ite_snd
    | with_reducible refine Moves.snd (by assumption) ?_
    | with_reducible intro _
    | dsimp only
    | split

theorem State.onAnnounce_moves (s src setId state nonce) : Moves [.egress, .counters, .samples, .irqPending, .requests, .set] s (State.onAnnounce s src setId state nonce) := by
  unfold State.onAnnounce
  try dsimp only
  repeat' first
    | with_reducible apply Moves.refl
    | with_reducible apply Moves.ite
    | ((with_reducible apply Moves.call (State.sendSet_moves _ _ _)); rfl)
    | ((with_reducible apply Moves.call (State.intrude_moves _ _)); rfl)
    | ((with_reducible apply Moves.call (State.conflict_moves _)); rfl)
    | ((with_reducible apply Moves.call (State.sendJoin_moves _ _ _ _)); rfl)
    | (simp only [moves_mk]; refine Moves.record ?_)
    | with_reducible apply Moves.foldl
    | with_reducible apply Moves.foldl_snd
    | with_reducible apply Moves.ite_snd
    | with_reducible refine Moves.snd (by assumption) ?_
    | with_reducible intro _
    | dsimp only
    | split

theorem State.refuseJoin_moves (s src) : Moves [.egress, .counters, .samples, .irqPending, .requests] s (State.refuseJoin s src) := by
  unfold State.refuseJoin
  try dsimp only
  repeat' first
    | with_reducible apply Moves.refl
    | with_reducible apply Moves.ite
    | ((with_reducible apply Moves.call (State.irqEdge_moves _ _)); rfl)
    | ((with_reducible apply Moves.call (State.sendSet_moves _ _ _)); rfl)
    | (simp only [moves_mk]; refine Moves.record ?_)
    | with_reducible apply Moves.foldl
    | with_reducible apply Moves.foldl_snd
    | with_reducible apply Moves.ite_snd
    | with_reducible refine Moves.snd (by assumption) ?_
    | with_reducible intro _
    | dsimp only
    | split

theorem State.endForming_moves (s) : Moves [.egress, .counters, .samples, .phase, .irqPending, .requests, .set] s (State.endForming s) := by
  unfold State.endForming
  try dsimp only
  repeat' first
    | with_reducible apply Moves.refl
    | with_reducible apply Moves.ite
    | ((with_reducible apply Moves.call (State.enterServing_moves _)); rfl)
    | ((with_reducible apply Moves.call (State.distributeAll_moves _ _ _)); rfl)
    | (simp only [moves_mk]; refine Moves.record ?_)
    | with_reducible apply Moves.foldl
    | with_reducible apply Moves.foldl_snd
    | with_reducible apply Moves.ite_snd
    | with_reducible refine Moves.snd (by assumption) ?_
    | with_reducible intro _
    | dsimp only
    | split

theorem State.onJoin_moves (s src idReq chain sig) : Moves [.egress, .counters, .samples, .phase, .irqPending, .requests, .set] s (State.onJoin s src idReq chain sig) := by
  unfold State.onJoin
  try dsimp only
  repeat' first
    | with_reducible apply Moves.refl
    | with_reducible apply Moves.ite
    | ((with_reducible apply Moves.call (State.refuseJoin_moves _ _)); rfl)
    | ((with_reducible apply Moves.call (State.irqEdge_moves _ _)); rfl)
    | ((with_reducible apply Moves.call (State.sendSet_moves _ _ _)); rfl)
    | ((with_reducible apply Moves.call (State.endForming_moves _)); rfl)
    | (simp only [moves_mk]; refine Moves.record ?_)
    | with_reducible apply Moves.foldl
    | with_reducible apply Moves.foldl_snd
    | with_reducible apply Moves.ite_snd
    | with_reducible refine Moves.snd (by assumption) ?_
    | with_reducible intro _
    | dsimp only
    | split

theorem State.onAdmit_moves (s src devid) : Moves [.set] s (State.onAdmit s src devid) := by
  unfold State.onAdmit
  try dsimp only
  repeat' first
    | with_reducible apply Moves.refl
    | with_reducible apply Moves.ite
    | (simp only [moves_mk]; refine Moves.record ?_)
    | with_reducible apply Moves.foldl
    | with_reducible apply Moves.foldl_snd
    | with_reducible apply Moves.ite_snd
    | with_reducible refine Moves.snd (by assumption) ?_
    | with_reducible intro _
    | dsimp only
    | split

theorem State.onRefuse_moves (s src setId state) : Moves [.set] s (State.onRefuse s src setId state) := by
  unfold State.onRefuse
  try dsimp only
  repeat' first
    | with_reducible apply Moves.refl
    | with_reducible apply Moves.ite
    | ((with_reducible apply Moves.call (State.conflict_moves _)); rfl)
    | (simp only [moves_mk]; refine Moves.record ?_)
    | with_reducible apply Moves.foldl
    | with_reducible apply Moves.foldl_snd
    | with_reducible apply Moves.ite_snd
    | with_reducible refine Moves.snd (by assumption) ?_
    | with_reducible intro _
    | dsimp only
    | split

theorem State.onSetMsg_moves (s src m) : Moves [.egress, .counters, .samples, .log, .phase, .irqPending, .entropy, .keyCaches, .teardown, .guests, .guestCmd, .requests, .set, .streams, .waybills, .chans, .dram, .out, .free] s (State.onSetMsg s src m) := by
  unfold State.onSetMsg
  try dsimp only
  repeat' first
    | with_reducible apply Moves.refl
    | with_reducible apply Moves.ite
    | ((with_reducible apply Moves.call (State.onAnnounce_moves _ _ _ _ _)); rfl)
    | ((with_reducible apply Moves.call (State.onJoin_moves _ _ _ _ _)); rfl)
    | ((with_reducible apply Moves.call (State.onAdmit_moves _ _ _)); rfl)
    | ((with_reducible apply Moves.call (State.onRefuse_moves _ _ _ _)); rfl)
    | ((with_reducible apply Moves.call (State.onDistribute_moves _ _ _ _ _)); rfl)
    | (simp only [moves_mk]; refine Moves.record ?_)
    | with_reducible apply Moves.foldl
    | with_reducible apply Moves.foldl_snd
    | with_reducible apply Moves.ite_snd
    | with_reducible refine Moves.snd (by assumption) ?_
    | with_reducible intro _
    | dsimp only
    | split

theorem State.takeSet_moves (s t c) : Moves [.egress, .counters, .samples, .log, .phase, .irqPending, .entropy, .keyCaches, .teardown, .guests, .guestCmd, .requests, .set, .streams, .waybills, .chans, .dram, .out, .free] s (State.takeSet s t c) := by
  unfold State.takeSet
  try dsimp only
  repeat' first
    | with_reducible apply Moves.refl
    | with_reducible apply Moves.ite
    | ((with_reducible apply Moves.call (State.freeTracker_moves _ _)); rfl)
    | ((with_reducible apply Moves.call (State.onSetMsg_moves _ _ _)); rfl)
    | (simp only [moves_mk]; refine Moves.record ?_)
    | with_reducible apply Moves.foldl
    | with_reducible apply Moves.foldl_snd
    | with_reducible apply Moves.ite_snd
    | with_reducible refine Moves.snd (by assumption) ?_
    | with_reducible intro _
    | dsimp only
    | split

theorem State.begin_moves (s t c) : Moves [.regs, .egress, .counters, .samples, .log, .phase, .irqPending, .holes, .dictQueue, .entropy, .keyCaches, .teardown, .guests, .guestCmd, .requests, .set, .lrc, .faults, .coherence, .streams, .waybills, .chans, .dram, .out, .free] s (State.begin s t c) := by
  unfold State.begin
  try dsimp only
  repeat' first
    | with_reducible apply Moves.refl
    | with_reducible apply Moves.ite
    | ((with_reducible apply Moves.call (State.dictArrive_moves _ _ _ _)); rfl)
    | ((with_reducible apply Moves.call (State.takeSet_moves _ _ _)); rfl)
    | ((with_reducible apply Moves.call (State.pigeon_moves _ _ _)); rfl)
    | ((with_reducible apply Moves.call (State.access_moves _ _)); rfl)
    | (simp only [moves_mk]; refine Moves.record ?_)
    | with_reducible apply Moves.foldl
    | with_reducible apply Moves.foldl_snd
    | with_reducible apply Moves.ite_snd
    | with_reducible refine Moves.snd (by assumption) ?_
    | with_reducible intro _
    | dsimp only
    | split

theorem State.putReq_moves (s t k r) : Moves [.regs, .counters, .irqPending, .requests] s (State.putReq s t k r) := by
  unfold State.putReq
  try dsimp only
  repeat' first
    | with_reducible apply Moves.refl
    | with_reducible apply Moves.ite
    | ((with_reducible apply Moves.call (State.settleTrk_moves _)); rfl)
    | ((with_reducible apply Moves.call (State.countLedger_moves _ _ _)); rfl)
    | ((with_reducible apply Moves.call (State.setReg_moves _ _ _)); rfl)
    | (simp only [moves_mk]; refine Moves.record ?_)
    | with_reducible apply Moves.foldl
    | with_reducible apply Moves.foldl_snd
    | with_reducible apply Moves.ite_snd
    | with_reducible refine Moves.snd (by assumption) ?_
    | with_reducible intro _
    | dsimp only
    | split

theorem State.takeTracker_moves {s r k t} (h : State.takeTracker s r = some (k, t)) : Moves [.regs, .counters, .irqPending, .requests] s t := by
  unfold State.takeTracker at h
  split at h
  · cases h
  · simp only [Option.map_eq_some_iff, Prod.mk.injEq] at h
    obtain ⟨_, _, _, rfl⟩ := h
    exact Moves.mono (State.putReq_moves _ _ _ _) rfl

theorem State.grant_moves {s c t} (h : State.grant s c = some t) : Moves [.regs, .links, .egress, .counters, .samples, .log, .phase, .irqPending, .holes, .dictQueue, .entropy, .keyCaches, .teardown, .guests, .guestCmd, .requests, .set, .lrc, .faults, .coherence, .streams, .waybills, .chans, .dram, .out, .free] s t := by
  simp only [State.grant, Option.map_eq_some_iff] at h
  obtain ⟨x, hx, rfl⟩ := h
  exact ((Moves.mono (State.takeTracker_moves hx) rfl).trans (Moves.mono (State.unclaim_moves _ _) rfl)).trans
    (Moves.mono (State.begin_moves _ _ _) rfl)

theorem State.claim_moves (s c) : Moves [.regs, .links, .egress, .counters, .samples, .log, .phase, .irqPending, .holes, .dictQueue, .entropy, .keyCaches, .teardown, .guests, .guestCmd, .requests, .set, .lrc, .faults, .coherence, .streams, .waybills, .chans, .dram, .out, .free] s (State.claim s c) := by
  have wait : Moves [.regs, .links, .egress, .counters, .samples, .log, .phase, .irqPending, .holes, .dictQueue, .entropy, .keyCaches, .teardown, .guests, .guestCmd, .requests, .set, .lrc, .faults, .coherence, .streams, .waybills, .chans, .dram, .out, .free] s { s with pool := { s.pool with claims := s.pool.claims ++ [c] } } := by
    simp only [moves_mk]; exact Moves.record (Moves.refl _ _)
  simp only [State.claim]
  split
  · exact wait
  · split
    · rename_i h; exact Moves.mono (State.grant_moves h) rfl
    · exact wait

theorem State.bcast_moves (s l p m) : Moves [.regs, .links, .egress, .peers, .counters, .samples, .log, .phase, .irqPending, .holes, .dictQueue, .entropy, .keyCaches, .teardown, .guests, .guestCmd, .requests, .set, .lrc, .faults, .coherence, .streams, .waybills, .chans, .dram, .out, .free] s (State.bcast s l p m) := by
  unfold State.bcast
  try dsimp only
  repeat' first
    | with_reducible apply Moves.refl
    | with_reducible apply Moves.ite
    | ((with_reducible apply Moves.call (State.rejectPkt_moves _ _ _ _)); rfl)
    | ((with_reducible apply Moves.call (State.noteBcast_moves _ _ _)); rfl)
    | ((with_reducible apply Moves.call (State.dropPkt_moves _ _ _)); rfl)
    | ((with_reducible apply Moves.call (State.sendCopies_moves _ _ _ _ _)); rfl)
    | ((with_reducible apply Moves.call (State.claim_moves _ _)); rfl)
    | ((with_reducible apply Moves.call (State.unpool_moves _ _ _)); rfl)
    | (simp only [moves_mk]; refine Moves.record ?_)
    | with_reducible apply Moves.foldl
    | with_reducible apply Moves.foldl_snd
    | with_reducible apply Moves.ite_snd
    | with_reducible refine Moves.snd (by assumption) ?_
    | with_reducible intro _
    | dsimp only
    | split

theorem State.drainChan_moves (s ch) : Moves [.egress, .counters, .samples, .log, .irqPending, .keyCaches, .guests, .requests, .streams, .chans, .dram, .out, .free] s (State.drainChan s ch) := by
  unfold State.drainChan
  try dsimp only
  repeat' first
    | with_reducible apply Moves.refl
    | with_reducible apply Moves.ite
    | ((with_reducible apply Moves.call (State.drainLine_moves _ _ _)); rfl)
    | (simp only [moves_mk]; refine Moves.record ?_)
    | with_reducible apply Moves.foldl
    | with_reducible apply Moves.foldl_snd
    | with_reducible apply Moves.ite_snd
    | with_reducible refine Moves.snd (by assumption) ?_
    | with_reducible intro _
    | dsimp only
    | split

theorem State.readIssued_moves (s ch pa gid e1 e2) : Moves [.egress, .counters, .samples, .log, .irqPending, .keyCaches, .guests, .requests, .streams, .chans, .dram, .out, .free] s (State.readIssued s ch pa gid e1 e2).2 := by
  unfold State.readIssued
  try dsimp only
  repeat' first
    | with_reducible apply Moves.refl
    | with_reducible apply Moves.ite
    | ((with_reducible apply Moves.call (State.readLine_moves _ _ _ _ _)); rfl)
    | ((with_reducible apply Moves.call (State.onChan_moves _ _ _)); rfl)
    | (simp only [moves_mk]; refine Moves.record ?_)
    | with_reducible apply Moves.foldl
    | with_reducible apply Moves.foldl_snd
    | with_reducible apply Moves.ite_snd
    | with_reducible refine Moves.snd (by assumption) ?_
    | with_reducible intro _
    | dsimp only
    | split

theorem State.askReplay_moves (s l) : Moves [.links, .counters, .irqPending, .out] s (State.askReplay s l) := by
  unfold State.askReplay
  try dsimp only
  repeat' first
    | with_reducible apply Moves.refl
    | with_reducible apply Moves.ite
    | ((with_reducible apply Moves.call (State.sendCtrl_moves _ _ _)); rfl)
    | ((with_reducible apply Moves.call (State.onLink_moves _ _ _)); rfl)
    | (simp only [moves_mk]; refine Moves.record ?_)
    | with_reducible apply Moves.foldl
    | with_reducible apply Moves.foldl_snd
    | with_reducible apply Moves.ite_snd
    | with_reducible refine Moves.snd (by assumption) ?_
    | with_reducible intro _
    | dsimp only
    | split

theorem State.putQueue_moves (s gh q c) : Moves [.egress, .routes] s (State.putQueue s gh q c) := by
  unfold State.putQueue
  try dsimp only
  repeat' first
    | with_reducible apply Moves.refl
    | with_reducible apply Moves.ite
    | (simp only [moves_mk]; refine Moves.record ?_)
    | with_reducible apply Moves.foldl
    | with_reducible apply Moves.foldl_snd
    | with_reducible apply Moves.ite_snd
    | with_reducible refine Moves.snd (by assumption) ?_
    | with_reducible intro _
    | dsimp only
    | split

theorem State.residentStream_moves (s k) : Moves [.streams] s (State.residentStream s k) := by
  unfold State.residentStream
  try dsimp only
  repeat' first
    | with_reducible apply Moves.refl
    | with_reducible apply Moves.ite
    | (simp only [moves_mk]; refine Moves.record ?_)
    | with_reducible apply Moves.foldl
    | with_reducible apply Moves.foldl_snd
    | with_reducible apply Moves.ite_snd
    | with_reducible refine Moves.snd (by assumption) ?_
    | with_reducible intro _
    | dsimp only
    | split

theorem State.unsealPdu_moves {s via p x d t} (h : State.unsealPdu s via p = some (x, d, t)) : Moves [.sessions] s t := by
  unfold State.unsealPdu at h
  split at h
  · cases h
  · dsimp only at h
    split at h
    · simp only [Option.some.injEq, Prod.mk.injEq] at h
      obtain ⟨_, _, rfl⟩ := h
      simp only [moves_mk]; exact Moves.record (Moves.refl _ _)
    · cases h

theorem State.serveFront_moves {ps} {s0 s : State} {op f} (k : Part.within [.regs, .egress, .counters, .samples, .irqPending, .dictQueue, .sessions, .requests, .out] ps = true) (b : Moves ps s0 s)
    (hf : ∀ u a p d, Served.Fr ps u (f u a p d)) : Moves ps s0 (State.serveFront s op f) := by
  have front : ∀ q rest, Moves ps s0 (State.leaveQ { s with dict := { s.dict with queue := rest } } qidDict q) := fun q rest =>
    Moves.call (State.leaveQ_moves _ _ _) (Part.within_trans rfl k) (b.trans
      (Moves.mono (ps := ps) (qs := [.dictQueue]) (by simp only [moves_mk]; exact Moves.record (Moves.refl _ _)) (Part.within_trans rfl k)))
  have reply : ∀ {t q p r x}, Moves ps s0 t → Moves ps s0 (State.replyTo t q p r x) := fun h =>
    Moves.call (State.replyTo_moves _ _ _ _ _) (Part.within_trans rfl k) h
  unfold State.serveFront
  split
  · exact b
  · dsimp only
    split
    · exact b
    · split
      · exact reply (front _ _)
      · split
        · split
          · exact Moves.call (State.dictDropped_moves _) (Part.within_trans rfl k)
              (Moves.call (State.dropTracker_moves _ _) (Part.within_trans rfl k) (front _ _))
          · rename_i h
            have h2 := Moves.call (ps := ps) (State.unsealPdu_moves h) (Part.within_trans rfl k) (front _ _)
            split
            · rename_i h3; exact reply (h2.trans (Served.Fr.of_eq h3 (hf _ _ _ _)))
            · exact b
        · split
          · rename_i h3; exact reply ((front _ _).trans (Served.Fr.of_eq h3 (hf _ _ _ _)))
          · exact b

end Sys2Proof.Machine
end

