-- ==== Sys2Proof/Laws/Moves6.lean ====
section
/-! SUPPORT. One lemma for each operation: the parts of the state it may change, and that it keeps what every operation keeps
(Laws/Moves). Part 6 of 8, in the order in which the operations call one another. -/

namespace Sys2Proof.Machine

open Sys2Proof

set_option linter.all false

-- One proof after the other: in parallel, each waits in a thread of its own for the same lemma of `simp only`.
set_option Elab.async false

theorem State.startRepair_moves (s ch key hard) : Moves [.egress, .counters, .samples, .log, .irqPending, .guests, .requests, .streams, .chans, .dram, .out, .free] s (State.startRepair s ch key hard) := by
  unfold State.startRepair
  try dsimp only
  repeat' first
    | with_reducible apply Moves.refl
    | with_reducible apply Moves.ite
    | ((with_reducible apply Moves.call (State.fetch_moves _ _ _ _ _ _)); rfl)
    | ((with_reducible apply Moves.call (State.onChan_moves _ _ _)); rfl)
    | (simp only [moves_mk]; refine Moves.record ?_)
    | with_reducible apply Moves.foldl
    | with_reducible apply Moves.foldl_snd
    | with_reducible apply Moves.ite_snd
    | with_reducible refine Moves.snd (by assumption) ?_
    | with_reducible intro _
    | dsimp only
    | split

theorem State.dropLocks_moves (s key k) : Moves [.regs, .egress, .counters, .samples, .log, .irqPending, .keyCaches, .guests, .requests, .faults, .coherence, .streams, .waybills, .contexts, .chans, .dram, .out, .free] s (State.dropLocks s key k) := by
  unfold State.dropLocks
  try dsimp only
  repeat' first
    | with_reducible apply Moves.refl
    | with_reducible apply Moves.ite
    | ((with_reducible apply Moves.call (State.uncachedFree_moves _ _)); rfl)
    | ((with_reducible apply Moves.call (State.unlockGranule_moves _ _ _)); rfl)
    | ((with_reducible apply Moves.call (State.unhold_moves _ _ _)); rfl)
    | (simp only [moves_mk]; refine Moves.record ?_)
    | with_reducible apply Moves.foldl
    | with_reducible apply Moves.foldl_snd
    | with_reducible apply Moves.ite_snd
    | with_reducible refine Moves.snd (by assumption) ?_
    | with_reducible intro _
    | dsimp only
    | split

theorem State.loseSlots_moves (s key c) : Moves [.counters] s (State.loseSlots s key c) := by
  unfold State.loseSlots
  try dsimp only
  repeat' first
    | with_reducible apply Moves.refl
    | with_reducible apply Moves.ite
    | (simp only [moves_mk]; refine Moves.record ?_)
    | with_reducible apply Moves.foldl
    | with_reducible apply Moves.foldl_snd
    | with_reducible apply Moves.ite_snd
    | with_reducible refine Moves.snd (by assumption) ?_
    | with_reducible intro _
    | dsimp only
    | split

theorem State.dropOwn_moves (s key c) : Moves [.peers] s (State.dropOwn s key c) := by
  unfold State.dropOwn
  try dsimp only
  repeat' first
    | with_reducible apply Moves.refl
    | with_reducible apply Moves.ite
    | (simp only [moves_mk]; refine Moves.record ?_)
    | with_reducible apply Moves.foldl
    | with_reducible apply Moves.foldl_snd
    | with_reducible apply Moves.ite_snd
    | with_reducible refine Moves.snd (by assumption) ?_
    | with_reducible intro _
    | dsimp only
    | split

theorem State.loseChunk_moves (s key c k) : Moves [.regs, .egress, .peers, .counters, .samples, .log, .irqPending, .keyCaches, .guests, .requests, .faults, .coherence, .streams, .waybills, .contexts, .chans, .dram, .out, .free] s (State.loseChunk s key c k) := by
  unfold State.loseChunk
  try dsimp only
  repeat' first
    | with_reducible apply Moves.refl
    | with_reducible apply Moves.ite
    | ((with_reducible apply Moves.call (State.unhold_moves _ _ _)); rfl)
    | ((with_reducible apply Moves.call (State.dropLocks_moves _ _ _)); rfl)
    | ((with_reducible apply Moves.call (State.onChunk_moves _ _ _ _)); rfl)
    | ((with_reducible apply Moves.call (State.loseSlots_moves _ _ _)); rfl)
    | ((with_reducible apply Moves.call (State.dropOwn_moves _ _ _)); rfl)
    | (simp only [moves_mk]; refine Moves.record ?_)
    | with_reducible apply Moves.foldl
    | with_reducible apply Moves.foldl_snd
    | with_reducible apply Moves.ite_snd
    | with_reducible refine Moves.snd (by assumption) ?_
    | with_reducible intro _
    | dsimp only
    | split

theorem State.openMin_moves (s) : Moves [.waybills] s (State.openMin s) := by
  unfold State.openMin
  try dsimp only
  repeat' first
    | with_reducible apply Moves.refl
    | with_reducible apply Moves.ite
    | ((with_reducible apply Moves.call (State.onCluster_moves _ _ _)); rfl)
    | (simp only [moves_mk]; refine Moves.record ?_)
    | with_reducible apply Moves.foldl
    | with_reducible apply Moves.foldl_snd
    | with_reducible apply Moves.ite_snd
    | with_reducible refine Moves.snd (by assumption) ?_
    | with_reducible intro _
    | dsimp only
    | split

theorem State.loseCluster_moves (s cl) : Moves [.regs, .egress, .peers, .counters, .samples, .log, .phase, .irqPending, .keyCaches, .guests, .requests, .tlbs, .faults, .coherence, .streams, .waybills, .contexts, .chans, .dram, .out, .free] s (State.loseCluster s cl) := by
  unfold State.loseCluster
  try dsimp only
  repeat' first
    | with_reducible apply Moves.refl
    | with_reducible apply Moves.ite
    | ((with_reducible apply Moves.call (State.recovery_moves _)); rfl)
    | ((with_reducible apply Moves.call (State.loseChunk_moves _ _ _ _)); rfl)
    | ((with_reducible apply Moves.call (State.openMin_moves _)); rfl)
    | ((with_reducible apply Moves.call (State.log_moves _ _ _ _ _ _ _)); rfl)
    | ((with_reducible apply Moves.call (State.onCluster_moves _ _ _)); rfl)
    | (simp only [moves_mk]; refine Moves.record ?_)
    | with_reducible apply Moves.foldl
    | with_reducible apply Moves.foldl_snd
    | with_reducible apply Moves.ite_snd
    | with_reducible refine Moves.snd (by assumption) ?_
    | with_reducible intro _
    | dsimp only
    | split

theorem State.forward_moves (s l p) : Moves [.links, .egress, .counters, .samples, .irqPending] s (State.forward s l p) := by
  unfold State.forward
  try dsimp only
  repeat' first
    | with_reducible apply Moves.refl
    | with_reducible apply Moves.ite
    | ((with_reducible apply Moves.call (State.rejectPkt_moves _ _ _ _)); rfl)
    | ((with_reducible apply Moves.call (State.enqueue_moves _ _)); rfl)
    | (simp only [moves_mk]; refine Moves.record ?_)
    | with_reducible apply Moves.foldl
    | with_reducible apply Moves.foldl_snd
    | with_reducible apply Moves.ite_snd
    | with_reducible refine Moves.snd (by assumption) ?_
    | with_reducible intro _
    | dsimp only
    | split

theorem State.withdraw_moves (s key g cl h) : Moves [.regs, .egress, .counters, .samples, .log, .irqPending, .keyCaches, .guests, .requests, .coherence, .streams, .waybills, .chans, .dram, .out, .free] s (State.withdraw s key g cl h) := by
  unfold State.withdraw
  try dsimp only
  repeat' first
    | with_reducible apply Moves.refl
    | with_reducible apply Moves.ite
    | ((with_reducible apply Moves.call (State.countCluster_moves _ _ _ _)); rfl)
    | ((with_reducible apply Moves.call (State.countChan_moves _ _ _ _)); rfl)
    | ((with_reducible apply Moves.call (State.uncachedFree_moves _ _)); rfl)
    | ((with_reducible apply Moves.call (State.unlockGranule_moves _ _ _)); rfl)
    | (simp only [moves_mk]; refine Moves.record ?_)
    | with_reducible apply Moves.foldl
    | with_reducible apply Moves.foldl_snd
    | with_reducible apply Moves.ite_snd
    | with_reducible refine Moves.snd (by assumption) ?_
    | with_reducible intro _
    | dsimp only
    | split

theorem State.markCe_moves (s l p) : Moves [.counters, .irqPending] s (State.markCe s l p).2 := by
  unfold State.markCe
  try dsimp only
  repeat' first
    | with_reducible apply Moves.refl
    | with_reducible apply Moves.ite
    | ((with_reducible apply Moves.call (State.countLink_moves _ _ _ _)); rfl)
    | (simp only [moves_mk]; refine Moves.record ?_)
    | with_reducible apply Moves.foldl
    | with_reducible apply Moves.foldl_snd
    | with_reducible apply Moves.ite_snd
    | with_reducible refine Moves.snd (by assumption) ?_
    | with_reducible intro _
    | dsimp only
    | split

theorem State.onEg_moves (s l f) : Moves [.gatehouses] s (State.onEg s l f) := by
  unfold State.onEg
  try dsimp only
  repeat' first
    | with_reducible apply Moves.refl
    | with_reducible apply Moves.ite
    | (simp only [moves_mk]; refine Moves.record ?_)
    | with_reducible apply Moves.foldl
    | with_reducible apply Moves.foldl_snd
    | with_reducible apply Moves.ite_snd
    | with_reducible refine Moves.snd (by assumption) ?_
    | with_reducible intro _
    | dsimp only
    | split

theorem State.onRun_moves (s gh q f) : Moves [.egress] s (State.onRun s gh q f) := by
  unfold State.onRun
  try dsimp only
  repeat' first
    | with_reducible apply Moves.refl
    | with_reducible apply Moves.ite
    | (simp only [moves_mk]; refine Moves.record ?_)
    | with_reducible apply Moves.foldl
    | with_reducible apply Moves.foldl_snd
    | with_reducible apply Moves.ite_snd
    | with_reducible refine Moves.snd (by assumption) ?_
    | with_reducible intro _
    | dsimp only
    | split

theorem State.takeTokens_moves (s l e) : Moves [.egress, .peers, .gatehouses] s (State.takeTokens s l e) := by
  unfold State.takeTokens
  try dsimp only
  repeat' first
    | with_reducible apply Moves.refl
    | with_reducible apply Moves.ite
    | ((with_reducible apply Moves.call (State.onEg_moves _ _ _)); rfl)
    | ((with_reducible apply Moves.call (State.onRun_moves _ _ _ _)); rfl)
    | (simp only [moves_mk]; refine Moves.record ?_)
    | with_reducible apply Moves.foldl
    | with_reducible apply Moves.foldl_snd
    | with_reducible apply Moves.ite_snd
    | with_reducible refine Moves.snd (by assumption) ?_
    | with_reducible intro _
    | dsimp only
    | split

theorem State.startPacket_moves (s l e won) : Moves [.links, .egress, .peers, .gatehouses, .counters, .samples, .irqPending, .requests, .out] s (State.startPacket s l e won) := by
  unfold State.startPacket
  try dsimp only
  repeat' first
    | with_reducible apply Moves.refl
    | with_reducible apply Moves.ite
    | ((with_reducible apply Moves.call (State.markCe_moves _ _ _)); rfl)
    | ((with_reducible apply Moves.call (State.countOverrun_moves _ _ _)); rfl)
    | ((with_reducible apply Moves.call (State.takeTokens_moves _ _ _)); rfl)
    | ((with_reducible apply Moves.call (State.leaveQ_moves _ _ _)); rfl)
    | ((with_reducible apply Moves.call (State.onLink_moves _ _ _)); rfl)
    | ((with_reducible apply Moves.call (State.dropTracker_moves _ _)); rfl)
    | ((with_reducible apply Moves.call (State.leavePool_moves _ _ _ _)); rfl)
    | ((with_reducible apply Moves.call (State.countLink_moves _ _ _ _)); rfl)
    | ((with_reducible apply Moves.call (State.emit_moves _ _)); rfl)
    | (simp only [moves_mk]; refine Moves.record ?_)
    | with_reducible apply Moves.foldl
    | with_reducible apply Moves.foldl_snd
    | with_reducible apply Moves.ite_snd
    | with_reducible refine Moves.snd (by assumption) ?_
    | with_reducible intro _
    | dsimp only
    | split

theorem State.takeIrq_moves (s) : Moves [.irqPending, .irqCores] s (State.takeIrq s) := by
  unfold State.takeIrq
  try dsimp only
  repeat' first
    | with_reducible apply Moves.refl
    | with_reducible apply Moves.ite
    | (simp only [moves_mk]; refine Moves.record ?_)
    | with_reducible apply Moves.foldl
    | with_reducible apply Moves.foldl_snd
    | with_reducible apply Moves.ite_snd
    | with_reducible refine Moves.snd (by assumption) ?_
    | with_reducible intro _
    | dsimp only
    | split

theorem State.atomApply_moves (s key c cl i pa b) : Moves [.regs, .egress, .counters, .samples, .log, .irqPending, .keyCaches, .guests, .requests, .lrc, .tlbs, .faults, .coherence, .streams, .waybills, .contexts, .chans, .dram, .out, .free] s (State.atomApply s key c cl i pa b) := by
  unfold State.atomApply
  try dsimp only
  repeat' first
    | with_reducible apply Moves.refl
    | with_reducible apply Moves.ite
    | ((with_reducible apply Moves.call (State.porterLine_moves _ _ _ _)); rfl)
    | ((with_reducible apply Moves.call (State.writeRanges_moves _ _ _ _ _)); rfl)
    | ((with_reducible apply Moves.call (State.failGranule_moves _ _ _ _ _)); rfl)
    | ((with_reducible apply Moves.call (State.waitCalc_moves _ _ _ _ _ _)); rfl)
    | ((with_reducible apply Moves.call (State.commitElem_moves _ _ _ _ _ _ _)); rfl)
    | ((with_reducible apply Moves.call (State.putOuts_moves _ _ _)); rfl)
    | ((with_reducible apply Moves.call (State.countChan_moves _ _ _ _)); rfl)
    | ((with_reducible apply Moves.call (State.wcbWrite_moves _ _ _ _ _)); rfl)
    | (simp only [moves_mk]; refine Moves.record ?_)
    | with_reducible apply Moves.foldl
    | with_reducible apply Moves.foldl_snd
    | with_reducible apply Moves.ite_snd
    | with_reducible refine Moves.snd (by assumption) ?_
    | with_reducible intro _
    | dsimp only
    | split

theorem State.atomElem_moves (s key c cl i) : Moves [.regs, .egress, .peers, .counters, .samples, .log, .irqPending, .keyCaches, .guests, .requests, .lrc, .tlbs, .faults, .coherence, .streams, .waybills, .contexts, .chans, .dram, .out, .free] s (State.atomElem s key c cl i) := by
  unfold State.atomElem
  try dsimp only
  repeat' first
    | with_reducible apply Moves.refl
    | with_reducible apply Moves.ite
    | ((with_reducible apply Moves.call (State.readRange_moves _ _ _ _ _ _ _)); rfl)
    | ((with_reducible apply Moves.call (State.failGranule_moves _ _ _ _ _)); rfl)
    | ((with_reducible apply Moves.call (State.porterXl_moves _ _ _ _ _)); rfl)
    | ((with_reducible apply Moves.call (State.waitCalc_moves _ _ _ _ _ _)); rfl)
    | ((with_reducible apply Moves.call (State.holdGranule_moves _ _ _ _)); rfl)
    | ((with_reducible apply Moves.call (State.startFill_moves _ _ _ _ _)); rfl)
    | ((with_reducible apply Moves.call (State.uncachedStart_moves _ _ _ _)); rfl)
    | ((with_reducible apply Moves.call (State.atomApply_moves _ _ _ _ _ _ _)); rfl)
    | (simp only [moves_mk]; refine Moves.record ?_)
    | with_reducible apply Moves.foldl
    | with_reducible apply Moves.foldl_snd
    | with_reducible apply Moves.ite_snd
    | with_reducible refine Moves.snd (by assumption) ?_
    | with_reducible intro _
    | dsimp only
    | split

theorem State.runAtoms_moves (s key c) : Moves [.regs, .egress, .peers, .counters, .samples, .log, .irqPending, .keyCaches, .guests, .requests, .lrc, .tlbs, .faults, .coherence, .streams, .waybills, .contexts, .chans, .dram, .out, .free] s (State.runAtoms s key c) := by
  unfold State.runAtoms
  try dsimp only
  repeat' first
    | with_reducible apply Moves.refl
    | with_reducible apply Moves.ite
    | ((with_reducible apply Moves.call (State.atomElem_moves _ _ _ _ _)); rfl)
    | (simp only [moves_mk]; refine Moves.record ?_)
    | with_reducible apply Moves.foldl
    | with_reducible apply Moves.foldl_snd
    | with_reducible apply Moves.ite_snd
    | with_reducible refine Moves.snd (by assumption) ?_
    | with_reducible intro _
    | dsimp only
    | split

theorem State.closeRow_moves (s ch k bank row) : Moves [.counters, .irqPending, .chans, .out] s (State.closeRow s ch k bank row) := by
  unfold State.closeRow
  try dsimp only
  repeat' first
    | with_reducible apply Moves.refl
    | with_reducible apply Moves.ite
    | ((with_reducible apply Moves.call (State.dramCmd_moves _ _ _ _ _)); rfl)
    | ((with_reducible apply Moves.call (State.onSub_moves _ _ _ _)); rfl)
    | (simp only [moves_mk]; refine Moves.record ?_)
    | with_reducible apply Moves.foldl
    | with_reducible apply Moves.foldl_snd
    | with_reducible apply Moves.ite_snd
    | with_reducible refine Moves.snd (by assumption) ?_
    | with_reducible intro _
    | dsimp only
    | split

theorem State.closeSpent_moves (s ch k bank row) : Moves [.counters, .irqPending, .chans, .out] s (State.closeSpent s ch k bank row) := by
  unfold State.closeSpent
  try dsimp only
  repeat' first
    | with_reducible apply Moves.refl
    | with_reducible apply Moves.ite
    | ((with_reducible apply Moves.call (State.closeRow_moves _ _ _ _ _)); rfl)
    | (simp only [moves_mk]; refine Moves.record ?_)
    | with_reducible apply Moves.foldl
    | with_reducible apply Moves.foldl_snd
    | with_reducible apply Moves.ite_snd
    | with_reducible refine Moves.snd (by assumption) ?_
    | with_reducible intro _
    | dsimp only
    | split

theorem State.issueFor_moves (s ch k w x) : Moves [.regs, .egress, .counters, .samples, .log, .irqPending, .keyCaches, .guests, .requests, .lrc, .faults, .coherence, .streams, .chans, .dram, .out, .free] s (State.issueFor s ch k w x) := by
  unfold State.issueFor
  try dsimp only
  repeat' first
    | with_reducible apply Moves.refl
    | with_reducible apply Moves.ite
    | ((with_reducible apply Moves.call (State.dramCmd_moves _ _ _ _ _)); rfl)
    | ((with_reducible apply Moves.call (State.onSub_moves _ _ _ _)); rfl)
    | ((with_reducible apply Moves.call (State.closeRow_moves _ _ _ _ _)); rfl)
    | ((with_reducible apply Moves.call (State.leaveQ_moves _ _ _)); rfl)
    | ((with_reducible apply Moves.call (State.countChan_moves _ _ _ _)); rfl)
    | ((with_reducible apply Moves.call (State.closeSpent_moves _ _ _ _ _)); rfl)
    | ((with_reducible apply Moves.call (State.resume_moves _ _)); rfl)
    | (simp only [moves_mk]; refine Moves.record ?_)
    | with_reducible apply Moves.foldl
    | with_reducible apply Moves.foldl_snd
    | with_reducible apply Moves.ite_snd
    | with_reducible refine Moves.snd (by assumption) ?_
    | with_reducible intro _
    | dsimp only
    | split

theorem State.hlose_moves (s l) : Moves [.egress, .counters, .samples, .log, .irqPending, .keyCaches, .guests, .requests, .streams, .chans, .dram, .out, .free] s (State.hlose s l) := by
  unfold State.hlose
  try dsimp only
  repeat' first
    | with_reducible apply Moves.refl
    | with_reducible apply Moves.ite
    | ((with_reducible apply Moves.call (State.drainLine_moves _ _ _)); rfl)
    | ((with_reducible apply Moves.call (State.onChan_moves _ _ _)); rfl)
    | ((with_reducible apply Moves.call (State.putMeta_moves _ _ _)); rfl)
    | (simp only [moves_mk]; refine Moves.record ?_)
    | with_reducible apply Moves.foldl
    | with_reducible apply Moves.foldl_snd
    | with_reducible apply Moves.ite_snd
    | with_reducible refine Moves.snd (by assumption) ?_
    | with_reducible intro _
    | dsimp only
    | split

theorem State.ccDecrease_moves (s epid tc) : Moves [.peers, .counters, .irqPending] s (State.ccDecrease s epid tc) := by
  unfold State.ccDecrease
  try dsimp only
  repeat' first
    | with_reducible apply Moves.refl
    | with_reducible apply Moves.ite
    | ((with_reducible apply Moves.call (State.count_moves _ _ _ _ _)); rfl)
    | (simp only [moves_mk]; refine Moves.record ?_)
    | with_reducible apply Moves.foldl
    | with_reducible apply Moves.foldl_snd
    | with_reducible apply Moves.ite_snd
    | with_reducible refine Moves.snd (by assumption) ?_
    | with_reducible intro _
    | dsimp only
    | split

theorem State.takeRsp_moves (s l p) : Moves [.regs, .links, .egress, .peers, .counters, .samples, .log, .irqPending, .keyCaches, .guests, .requests, .lrc, .tlbs, .commit, .faults, .coherence, .streams, .waybills, .contexts, .chans, .dram, .out, .free] s (State.takeRsp s l p) := by
  unfold State.takeRsp
  try dsimp only
  repeat' first
    | with_reducible apply Moves.refl
    | with_reducible apply Moves.ite
    | ((with_reducible apply Moves.call (State.rejectPkt_moves _ _ _ _)); rfl)
    | ((with_reducible apply Moves.call (State.unpool_moves _ _ _)); rfl)
    | ((with_reducible apply Moves.call (State.migrAnswer_moves _ _ _)); rfl)
    | ((with_reducible apply Moves.call (State.porterAnswer_moves _ _ _ _ _)); rfl)
    | (simp only [moves_mk]; refine Moves.record ?_)
    | with_reducible apply Moves.foldl
    | with_reducible apply Moves.foldl_snd
    | with_reducible apply Moves.ite_snd
    | with_reducible refine Moves.snd (by assumption) ?_
    | with_reducible intro _
    | dsimp only
    | split

theorem State.snoopAnswer_moves (s link p) : Moves [.regs, .egress, .counters, .samples, .log, .irqPending, .keyCaches, .guests, .requests, .coherence, .streams, .chans, .dram, .out, .free] s (State.snoopAnswer s link p) := by
  unfold State.snoopAnswer
  try dsimp only
  repeat' first
    | with_reducible apply Moves.refl
    | with_reducible apply Moves.ite
    | ((with_reducible apply Moves.call (State.dropPkt_moves _ _ _)); rfl)
    | ((with_reducible apply Moves.call (State.countLedger_moves _ _ _)); rfl)
    | ((with_reducible apply Moves.call (State.flushOn_moves _)); rfl)
    | ((with_reducible apply Moves.call (State.afterWb_moves _ _ _)); rfl)
    | ((with_reducible apply Moves.call (State.setDir_moves _ _ _)); rfl)
    | ((with_reducible apply Moves.call (State.hwrite_moves _ _ _ _)); rfl)
    | ((with_reducible apply Moves.call (State.hfinish_moves _ _ _)); rfl)
    | (simp only [moves_mk]; refine Moves.record ?_)
    | with_reducible apply Moves.foldl
    | with_reducible apply Moves.foldl_snd
    | with_reducible apply Moves.ite_snd
    | with_reducible refine Moves.snd (by assumption) ?_
    | with_reducible intro _
    | dsimp only
    | split

theorem State.deliver_moves (s l p m) : Moves [.regs, .links, .egress, .peers, .counters, .samples, .log, .phase, .irqPending, .holes, .dictQueue, .entropy, .keyCaches, .teardown, .guests, .guestCmd, .requests, .set, .lrc, .tlbs, .commit, .faults, .coherence, .streams, .waybills, .contexts, .chans, .dram, .out, .free] s (State.deliver s l p m) := by
  unfold State.deliver
  try dsimp only
  repeat' first
    | with_reducible apply Moves.refl
    | with_reducible apply Moves.ite
    | ((with_reducible apply Moves.call (State.rejectPkt_moves _ _ _ _)); rfl)
    | ((with_reducible apply Moves.call (State.claim_moves _ _)); rfl)
    | ((with_reducible apply Moves.call (State.unpool_moves _ _ _)); rfl)
    | ((with_reducible apply Moves.call (State.ccDecrease_moves _ _ _)); rfl)
    | ((with_reducible apply Moves.call (State.countLink_moves _ _ _ _)); rfl)
    | ((with_reducible apply Moves.call (State.takeRsp_moves _ _ _)); rfl)
    | ((with_reducible apply Moves.call (State.discardPkt_moves _ _ _)); rfl)
    | ((with_reducible apply Moves.call (State.dictDropped_moves _)); rfl)
    | ((with_reducible apply Moves.call (State.snoopAnswer_moves _ _ _)); rfl)
    | (simp only [moves_mk]; refine Moves.record ?_)
    | with_reducible apply Moves.foldl
    | with_reducible apply Moves.foldl_snd
    | with_reducible apply Moves.ite_snd
    | with_reducible refine Moves.snd (by assumption) ?_
    | with_reducible intro _
    | dsimp only
    | split

theorem State.laneFail_moves (s l lane) : Moves [.links, .egress, .gatehouses, .counters, .samples, .log, .phase, .irqPending, .requests, .out] s (State.laneFail s l lane) := by
  unfold State.laneFail
  try dsimp only
  repeat' first
    | with_reducible apply Moves.refl
    | with_reducible apply Moves.ite
    | ((with_reducible apply Moves.call (State.linkDown_moves _ _ _ _)); rfl)
    | ((with_reducible apply Moves.call (State.setLink_moves _ _ _)); rfl)
    | ((with_reducible apply Moves.call (State.sendCtrl_moves _ _ _)); rfl)
    | (simp only [moves_mk]; refine Moves.record ?_)
    | with_reducible apply Moves.foldl
    | with_reducible apply Moves.foldl_snd
    | with_reducible apply Moves.ite_snd
    | with_reducible refine Moves.snd (by assumption) ?_
    | with_reducible intro _
    | dsimp only
    | split

theorem State.serCheck_moves (s l) : Moves [.links, .egress, .gatehouses, .counters, .samples, .log, .phase, .irqPending, .requests, .out] s (State.serCheck s l) := by
  unfold State.serCheck
  try dsimp only
  repeat' first
    | with_reducible apply Moves.refl
    | with_reducible apply Moves.ite
    | ((with_reducible apply Moves.call (State.laneFail_moves _ _ _)); rfl)
    | ((with_reducible apply Moves.call (State.onLink_moves _ _ _)); rfl)
    | (simp only [moves_mk]; refine Moves.record ?_)
    | with_reducible apply Moves.foldl
    | with_reducible apply Moves.foldl_snd
    | with_reducible apply Moves.ite_snd
    | with_reducible refine Moves.snd (by assumption) ?_
    | with_reducible intro _
    | dsimp only
    | split

theorem State.putEntry_moves (s gid level pva v) : Moves [.egress, .counters, .samples, .log, .irqPending, .keyCaches, .guests, .requests, .streams, .chans, .dram, .out, .free] s (State.putEntry s gid level pva v) := by
  unfold State.putEntry
  try dsimp only
  repeat' first
    | with_reducible apply Moves.refl
    | with_reducible apply Moves.ite
    | ((with_reducible apply Moves.call (State.putThrough_moves _ _ _ _)); rfl)
    | (simp only [moves_mk]; refine Moves.record ?_)
    | with_reducible apply Moves.foldl
    | with_reducible apply Moves.foldl_snd
    | with_reducible apply Moves.ite_snd
    | with_reducible refine Moves.snd (by assumption) ?_
    | with_reducible intro _
    | dsimp only
    | split

theorem State.putPointer_moves (s t v) : Moves [.egress, .counters, .samples, .log, .irqPending, .keyCaches, .guests, .requests, .streams, .chans, .dram, .out, .free] s (State.putPointer s t v) := by
  unfold State.putPointer
  try dsimp only
  repeat' first
    | with_reducible apply Moves.refl
    | with_reducible apply Moves.ite
    | ((with_reducible apply Moves.call (State.putEntry_moves _ _ _ _ _)); rfl)
    | (simp only [moves_mk]; refine Moves.record ?_)
    | with_reducible apply Moves.foldl
    | with_reducible apply Moves.foldl_snd
    | with_reducible apply Moves.ite_snd
    | with_reducible refine Moves.snd (by assumption) ?_
    | with_reducible intro _
    | dsimp only
    | split

theorem State.writeTables_moves (s gid old new gone fresh) : Moves [.egress, .counters, .samples, .log, .irqPending, .keyCaches, .guests, .requests, .streams, .chans, .dram, .out, .free] s (State.writeTables s gid old new gone fresh) := by
  unfold State.writeTables
  try dsimp only
  repeat' first
    | with_reducible apply Moves.refl
    | with_reducible apply Moves.ite
    | ((with_reducible apply Moves.call (State.zeroTable_moves _ _)); rfl)
    | ((with_reducible apply Moves.call (State.putEntry_moves _ _ _ _ _)); rfl)
    | ((with_reducible apply Moves.call (State.putPointer_moves _ _ _)); rfl)
    | (simp only [moves_mk]; refine Moves.record ?_)
    | with_reducible apply Moves.foldl
    | with_reducible apply Moves.foldl_snd
    | with_reducible apply Moves.ite_snd
    | with_reducible refine Moves.snd (by assumption) ?_
    | with_reducible intro _
    | dsimp only
    | split

theorem State.commitPoint_moves (s c) : Moves [.regs, .egress, .counters, .samples, .log, .irqPending, .keyCaches, .guests, .requests, .lrc, .tables, .tlbs, .commit, .faults, .coherence, .rmap, .streams, .waybills, .contexts, .chans, .dram, .out, .free] s (State.commitPoint s c) := by
  unfold State.commitPoint
  try dsimp only
  repeat' first
    | with_reducible apply Moves.refl
    | with_reducible apply Moves.ite
    | ((with_reducible apply Moves.call (State.afterPoint_moves _ _)); rfl)
    | ((with_reducible apply Moves.call (State.remap_moves _ _ _ _)); rfl)
    | ((with_reducible apply Moves.call (State.writeTables_moves _ _ _ _ _ _)); rfl)
    | (simp only [moves_mk]; refine Moves.record ?_)
    | with_reducible apply Moves.foldl
    | with_reducible apply Moves.foldl_snd
    | with_reducible apply Moves.ite_snd
    | with_reducible refine Moves.snd (by assumption) ?_
    | with_reducible intro _
    | dsimp only
    | split

theorem State.dataXor_moves (s g line source) : Moves [.counters, .irqPending, .chans, .dram] s (State.dataXor s g line source).2 := by
  unfold State.dataXor
  try dsimp only
  repeat' first
    | with_reducible apply Moves.refl
    | with_reducible apply Moves.ite
    | ((with_reducible apply Moves.call (State.reconstruct_moves _ _ _ _ _)); rfl)
    | (simp only [moves_mk]; refine Moves.record ?_)
    | with_reducible apply Moves.foldl
    | with_reducible apply Moves.foldl_snd
    | with_reducible apply Moves.ite_snd
    | with_reducible refine Moves.snd (by assumption) ?_
    | with_reducible intro _
    | dsimp only
    | split

theorem State.makePending_moves (s) : Moves [.counters, .irqPending, .entropy, .keyCaches, .guests] s (State.makePending s) := by
  unfold State.makePending
  try dsimp only
  repeat' first
    | with_reducible apply Moves.refl
    | with_reducible apply Moves.ite
    | ((with_reducible apply Moves.call (State.makeKey_moves _ _)); rfl)
    | (simp only [moves_mk]; refine Moves.record ?_)
    | with_reducible apply Moves.foldl
    | with_reducible apply Moves.foldl_snd
    | with_reducible apply Moves.ite_snd
    | with_reducible refine Moves.snd (by assumption) ?_
    | with_reducible intro _
    | dsimp only
    | split

theorem State.takeAux_moves (s l n aux) : Moves [.links] s (State.takeAux s l n aux) := by
  unfold State.takeAux
  try dsimp only
  repeat' first
    | with_reducible apply Moves.refl
    | with_reducible apply Moves.ite
    | ((with_reducible apply Moves.call (State.onLink_moves _ _ _)); rfl)
    | (simp only [moves_mk]; refine Moves.record ?_)
    | with_reducible apply Moves.foldl
    | with_reducible apply Moves.foldl_snd
    | with_reducible apply Moves.ite_snd
    | with_reducible refine Moves.snd (by assumption) ?_
    | with_reducible intro _
    | dsimp only
    | split

theorem State.takeSyncRsp_moves (s l blocks) : Moves [.links] s (State.takeSyncRsp s l blocks) := by
  unfold State.takeSyncRsp
  try dsimp only
  repeat' first
    | with_reducible apply Moves.refl
    | with_reducible apply Moves.ite
    | ((with_reducible apply Moves.call (State.onLink_moves _ _ _)); rfl)
    | (simp only [moves_mk]; refine Moves.record ?_)
    | with_reducible apply Moves.foldl
    | with_reducible apply Moves.foldl_snd
    | with_reducible apply Moves.ite_snd
    | with_reducible refine Moves.snd (by assumption) ?_
    | with_reducible intro _
    | dsimp only
    | split

theorem State.wakeLinks_moves (s) : Moves [.night, .links, .egress, .samples, .irqPending, .requests] s (State.wakeLinks s) := by
  unfold State.wakeLinks
  try dsimp only
  repeat' first
    | with_reducible apply Moves.refl
    | with_reducible apply Moves.ite
    | ((with_reducible apply Moves.call (State.toDetect_moves _ _)); rfl)
    | ((with_reducible apply Moves.call (State.wakeLink_moves _ _)); rfl)
    | (simp only [moves_mk]; refine Moves.record ?_)
    | with_reducible apply Moves.foldl
    | with_reducible apply Moves.foldl_snd
    | with_reducible apply Moves.ite_snd
    | with_reducible refine Moves.snd (by assumption) ?_
    | with_reducible intro _
    | dsimp only
    | split

theorem State.trained_moves (s ch eyes entries osc) : Moves [.blobs, .flash, .chans] s (State.trained s ch eyes entries osc) := by
  unfold State.trained
  try dsimp only
  repeat' first
    | with_reducible apply Moves.refl
    | with_reducible apply Moves.ite
    | ((with_reducible apply Moves.call (State.onChan_moves _ _ _)); rfl)
    | ((with_reducible apply Moves.call (State.persist_moves _ _ _)); rfl)
    | ((with_reducible apply Moves.call (State.setBlob_moves _ _ _)); rfl)
    | (simp only [moves_mk]; refine Moves.record ?_)
    | with_reducible apply Moves.foldl
    | with_reducible apply Moves.foldl_snd
    | with_reducible apply Moves.ite_snd
    | with_reducible refine Moves.snd (by assumption) ?_
    | with_reducible intro _
    | dsimp only
    | split

theorem State.eccResult_moves (s v) : Moves [.regs] s (State.eccResult s v) := by
  unfold State.eccResult
  try dsimp only
  repeat' first
    | with_reducible apply Moves.refl
    | with_reducible apply Moves.ite
    | ((with_reducible apply Moves.call (State.setReg_moves _ _ _)); rfl)
    | (simp only [moves_mk]; refine Moves.record ?_)
    | with_reducible apply Moves.foldl
    | with_reducible apply Moves.foldl_snd
    | with_reducible apply Moves.ite_snd
    | with_reducible refine Moves.snd (by assumption) ?_
    | with_reducible intro _
    | dsimp only
    | split

theorem State.ctrlIn_moves {ps} {s0 s : State} {l h f} (k : Part.within [.links, .egress, .counters, .samples, .irqPending] ps = true) (b : Moves ps s0 s)
    (hf : ∀ u, Moves ps u (f u)) : Moves ps s0 (State.ctrlIn s l h f) := by
  unfold State.ctrlIn
  split
  · exact (Moves.call (State.applyHdr_moves _ _ _) (Part.within_trans rfl k)
      (Moves.call (State.countLink_moves _ _ _ _) (Part.within_trans rfl k) b)).trans (hf _)
  · exact b

theorem wfqNext_moves (l heads ok s) : Moves [.gatehouses] s (wfqNext l heads ok s).2 := by
  unfold wfqNext
  try dsimp only
  repeat' first
    | with_reducible apply Moves.refl
    | with_reducible apply Moves.ite
    | ((with_reducible apply Moves.call (State.onEg_moves _ _ _)); rfl)
    | (simp only [moves_mk]; refine Moves.record ?_)
    | with_reducible apply Moves.foldl
    | with_reducible apply Moves.foldl_snd
    | with_reducible apply Moves.ite_snd
    | with_reducible refine Moves.snd (by assumption) ?_
    | with_reducible intro _
    | dsimp only
    | split

theorem drrNext_moves (l qs heads ok n s) : Moves [.egress, .gatehouses] s (drrNext l qs heads ok n s).2 := by
  induction n generalizing s with
  | zero => exact Moves.refl _ _
  | succ n ih =>
    have run : ∀ (u : State) gh q f k g, Moves [.egress, .gatehouses] u ((u.onRun gh q f).onEg k g) := fun u gh q f k g =>
      Moves.call (State.onEg_moves _ _ _) (by rfl) (Moves.mono (State.onRun_moves _ _ _ _) (by rfl))
    unfold drrNext
    dsimp only
    split
    · exact (run _ _ _ _ _ _).trans (ih _)
    · with_reducible apply Moves.ite_snd
      · dsimp only; exact run _ _ _ _ _ _
      · exact (run _ _ _ _ _ _).trans (ih _)

theorem State.pickData_moves (s l heads ok) : Moves [.egress, .gatehouses] s (State.pickData s l heads ok).2 := by
  unfold State.pickData
  try dsimp only
  repeat' first
    | with_reducible apply Moves.refl
    | with_reducible apply Moves.ite
    | ((with_reducible apply Moves.call (wfqNext_moves _ _ _ _)); rfl)
    | ((with_reducible apply Moves.call (drrNext_moves _ _ _ _ _ _)); rfl)
    | (simp only [moves_mk]; refine Moves.record ?_)
    | with_reducible apply Moves.foldl
    | with_reducible apply Moves.foldl_snd
    | with_reducible apply Moves.ite_snd
    | with_reducible refine Moves.snd (by assumption) ?_
    | with_reducible intro _
    | dsimp only
    | split

theorem State.pickPacket_moves (s l) : Moves [.egress, .gatehouses] s (State.pickPacket s l).2 := by
  unfold State.pickPacket
  try dsimp only
  repeat' first
    | with_reducible apply Moves.refl
    | with_reducible apply Moves.ite
    | ((with_reducible apply Moves.call (State.pickData_moves _ _ _ _)); rfl)
    | (simp only [moves_mk]; refine Moves.record ?_)
    | with_reducible apply Moves.foldl
    | with_reducible apply Moves.foldl_snd
    | with_reducible apply Moves.ite_snd
    | with_reducible refine Moves.snd (by assumption) ?_
    | with_reducible intro _
    | dsimp only
    | split

theorem State.zeroLinkKeys_moves (s) : Moves [.links] s (State.zeroLinkKeys s) := by
  unfold State.zeroLinkKeys
  try dsimp only
  repeat' first
    | with_reducible apply Moves.refl
    | with_reducible apply Moves.ite
    | (simp only [moves_mk]; refine Moves.record ?_)
    | with_reducible apply Moves.foldl
    | with_reducible apply Moves.foldl_snd
    | with_reducible apply Moves.ite_snd
    | with_reducible refine Moves.snd (by assumption) ?_
    | with_reducible intro _
    | dsimp only
    | split

theorem State.freeSession_moves (s n) : Moves [.sessions] s (State.freeSession s n) := by
  unfold State.freeSession
  try dsimp only
  repeat' first
    | with_reducible apply Moves.refl
    | with_reducible apply Moves.ite
    | (simp only [moves_mk]; refine Moves.record ?_)
    | with_reducible apply Moves.foldl
    | with_reducible apply Moves.foldl_snd
    | with_reducible apply Moves.ite_snd
    | with_reducible refine Moves.snd (by assumption) ?_
    | with_reducible intro _
    | dsimp only
    | split

theorem State.weightBack_moves (s key cl pa e1 e2) : Moves [.egress, .counters, .samples, .log, .irqPending, .keyCaches, .guests, .requests, .streams, .waybills, .chans, .dram, .out, .free] s (State.weightBack s key cl pa e1 e2) := by
  unfold State.weightBack
  try dsimp only
  repeat' first
    | with_reducible apply Moves.refl
    | with_reducible apply Moves.ite
    | ((with_reducible apply Moves.call (State.readIssued_moves _ _ _ _ _ _)); rfl)
    | ((with_reducible apply Moves.call (State.queueBurst_moves _ _ _)); rfl)
    | ((with_reducible apply Moves.call (State.onWb_moves _ _ _)); rfl)
    | (simp only [moves_mk]; refine Moves.record ?_)
    | with_reducible apply Moves.foldl
    | with_reducible apply Moves.foldl_snd
    | with_reducible apply Moves.ite_snd
    | with_reducible refine Moves.snd (by assumption) ?_
    | with_reducible intro _
    | dsimp only
    | split

theorem State.contribRead_moves (s w cl g off n) : Moves [.regs, .egress, .peers, .counters, .samples, .log, .irqPending, .keyCaches, .guests, .requests, .lrc, .tlbs, .faults, .coherence, .streams, .chans, .dram, .out, .free] s (State.contribRead s w cl g off n).2 := by
  unfold State.contribRead
  try dsimp only
  repeat' first
    | with_reducible apply Moves.refl
    | with_reducible apply Moves.ite
    | ((with_reducible apply Moves.call (State.readRange_moves _ _ _ _ _ _ _)); rfl)
    | (simp only [moves_mk]; refine Moves.record ?_)
    | with_reducible apply Moves.foldl
    | with_reducible apply Moves.foldl_snd
    | with_reducible apply Moves.ite_snd
    | with_reducible refine Moves.snd (by assumption) ?_
    | with_reducible intro _
    | dsimp only
    | split

theorem State.countFixed_moves (s l lanes) : Moves [.links, .counters, .irqPending] s (State.countFixed s l lanes) := by
  unfold State.countFixed
  try dsimp only
  repeat' first
    | with_reducible apply Moves.refl
    | with_reducible apply Moves.ite
    | ((with_reducible apply Moves.call (State.countLink_moves _ _ _ _)); rfl)
    | ((with_reducible apply Moves.call (State.onLink_moves _ _ _)); rfl)
    | (simp only [moves_mk]; refine Moves.record ?_)
    | with_reducible apply Moves.foldl
    | with_reducible apply Moves.foldl_snd
    | with_reducible apply Moves.ite_snd
    | with_reducible refine Moves.snd (by assumption) ?_
    | with_reducible intro _
    | dsimp only
    | split

theorem State.atPort_moves {s l p t} (h : State.atPort s l p = some t) : Moves [.links, .counters, .samples, .irqPending] s t := by
  unfold State.atPort at h
  split at h
  · cases h
  · split at h
    · cases h; exact Moves.refl _ _
    · split at h
      · cases h; exact Moves.mono (State.arrive_moves _ _ _) rfl
      · cases h

theorem State.putDedup_moves (s l k e) : Moves [.peers, .counters, .irqPending] s (State.putDedup s l k e) := by
  unfold State.putDedup
  try dsimp only
  repeat' first
    | with_reducible apply Moves.refl
    | with_reducible apply Moves.ite
    | ((with_reducible apply Moves.call (State.countLink_moves _ _ _ _)); rfl)
    | (simp only [moves_mk]; refine Moves.record ?_)
    | with_reducible apply Moves.foldl
    | with_reducible apply Moves.foldl_snd
    | with_reducible apply Moves.ite_snd
    | with_reducible refine Moves.snd (by assumption) ?_
    | with_reducible intro _
    | dsimp only
    | split

theorem State.dedup_moves (s l p) : Moves [.links, .peers, .counters, .samples, .irqPending] s (State.dedup s l p).2 := by
  unfold State.dedup
  try dsimp only
  repeat' first
    | with_reducible apply Moves.refl
    | with_reducible apply Moves.ite
    | ((with_reducible apply Moves.call (State.discardPkt_moves _ _ _)); rfl)
    | ((with_reducible apply Moves.call (State.countLink_moves _ _ _ _)); rfl)
    | ((with_reducible apply Moves.call (State.putDedup_moves _ _ _ _)); rfl)
    | (simp only [moves_mk]; refine Moves.record ?_)
    | with_reducible apply Moves.foldl
    | with_reducible apply Moves.foldl_snd
    | with_reducible apply Moves.ite_snd
    | with_reducible refine Moves.snd (by assumption) ?_
    | with_reducible intro _
    | dsimp only
    | split

theorem State.takeMarks_moves (s l p) : Moves [.egress, .peers, .counters, .irqPending] s (State.takeMarks s l p) := by
  unfold State.takeMarks
  try dsimp only
  repeat' first
    | with_reducible apply Moves.refl
    | with_reducible apply Moves.ite
    | ((with_reducible apply Moves.call (State.ccDecrease_moves _ _ _)); rfl)
    | ((with_reducible apply Moves.call (State.countLink_moves _ _ _ _)); rfl)
    | (simp only [moves_mk]; refine Moves.record ?_)
    | with_reducible apply Moves.foldl
    | with_reducible apply Moves.foldl_snd
    | with_reducible apply Moves.ite_snd
    | with_reducible refine Moves.snd (by assumption) ?_
    | with_reducible intro _
    | dsimp only
    | split

theorem State.port_moves (s l p m) : Moves [.regs, .links, .egress, .peers, .counters, .samples, .log, .phase, .irqPending, .holes, .dictQueue, .entropy, .keyCaches, .teardown, .guests, .guestCmd, .requests, .set, .lrc, .tlbs, .commit, .faults, .coherence, .streams, .waybills, .contexts, .chans, .dram, .out, .free] s (State.port s l p m) := by
  unfold State.port
  try dsimp only
  repeat' first
    | with_reducible apply Moves.refl
    | with_reducible apply Moves.ite
    | ((with_reducible apply Moves.call (State.rejectPkt_moves _ _ _ _)); rfl)
    | ((with_reducible apply Moves.call (State.bcast_moves _ _ _ _)); rfl)
    | ((with_reducible apply Moves.call (State.forward_moves _ _ _)); rfl)
    | ((with_reducible apply Moves.call (State.dedup_moves _ _ _)); rfl)
    | ((with_reducible apply Moves.call (State.deliver_moves _ _ _ _)); rfl)
    | ((with_reducible apply Moves.call (State.takeMarks_moves _ _ _)); rfl)
    | (simp only [moves_mk]; refine Moves.record ?_)
    | with_reducible apply Moves.foldl
    | with_reducible apply Moves.foldl_snd
    | with_reducible apply Moves.ite_snd
    | with_reducible refine Moves.snd (by assumption) ?_
    | with_reducible intro _
    | dsimp only
    | split

theorem State.takeReleased_moves (s l p) : Moves [.links] s (State.takeReleased s l p) := by
  unfold State.takeReleased
  try dsimp only
  repeat' first
    | with_reducible apply Moves.refl
    | with_reducible apply Moves.ite
    | ((with_reducible apply Moves.call (State.onLink_moves _ _ _)); rfl)
    | (simp only [moves_mk]; refine Moves.record ?_)
    | with_reducible apply Moves.foldl
    | with_reducible apply Moves.foldl_snd
    | with_reducible apply Moves.ite_snd
    | with_reducible refine Moves.snd (by assumption) ?_
    | with_reducible intro _
    | dsimp only
    | split

theorem State.receive_moves (s l p m) : Moves [.regs, .night, .links, .egress, .peers, .counters, .samples, .log, .phase, .irqPending, .holes, .dictQueue, .entropy, .keyCaches, .teardown, .guests, .guestCmd, .requests, .set, .lrc, .tlbs, .commit, .faults, .coherence, .streams, .waybills, .contexts, .chans, .dram, .out, .free] s (State.receive s l p m) := by
  unfold State.receive
  split
  · exact Moves.refl _ _
  · have b := Moves.mono (ps := [.regs, .night, .links, .egress, .peers, .counters, .samples, .log, .phase, .irqPending, .holes, .dictQueue, .entropy, .keyCaches, .teardown, .guests, .guestCmd, .requests, .set, .lrc, .tlbs, .commit, .faults, .coherence, .streams, .waybills, .contexts, .chans, .dram, .out, .free]) (State.atPort_moves ‹State.atPort _ _ _ = some _›) rfl
    repeat' first
      | exact b
      | with_reducible apply Moves.ite
      | ((with_reducible apply Moves.call (State.wake_moves _ _)); rfl)
      | ((with_reducible apply Moves.call (State.takeReleased_moves _ _ _)); rfl)
      | ((with_reducible apply Moves.call (State.port_moves _ _ _ _)); rfl)

theorem State.i3cResets_moves (s) : Moves [.out] s (State.i3cResets s) := by
  unfold State.i3cResets
  try dsimp only
  repeat' first
    | with_reducible apply Moves.refl
    | with_reducible apply Moves.ite
    | ((with_reducible apply Moves.call (State.emit_moves _ _)); rfl)
    | (simp only [moves_mk]; refine Moves.record ?_)
    | with_reducible apply Moves.foldl
    | with_reducible apply Moves.foldl_snd
    | with_reducible apply Moves.ite_snd
    | with_reducible refine Moves.snd (by assumption) ?_
    | with_reducible intro _
    | dsimp only
    | split

theorem State.inColdReset_moves (s) : Moves [.regs, .blobs, .forced, .timebase, .reset, .night, .clocks, .present, .thermal, .contacts, .links, .egress, .routes, .peers, .gatehouses, .counters, .captures, .samples, .log, .phase, .ik, .irqPending, .irqCores, .holes, .dictQueue, .sessions, .flash, .t1s, .lifecycle, .entropy, .keyCaches, .firmware, .teardown, .guests, .guestCmd, .requests, .set, .lrc, .tables, .tlbs, .commit, .faults, .coherence, .rmap, .streams, .waybills, .tallies, .contexts, .layouts, .chans, .map, .groups, .buses] s (State.inColdReset s) := by
  unfold State.inColdReset
  dsimp only
  simp only [moves_mk]
  exact Moves.record (Moves.refl _ _) (k_obs := fun h => ⟨Nat.zero_le _, h.2.1, Nat.two_pow_pos 32, fun r hr => by cases hr⟩)

theorem State.enterReset_moves (s cause) : Moves [.regs, .blobs, .forced, .timebase, .reset, .night, .clocks, .present, .thermal, .contacts, .links, .egress, .routes, .peers, .gatehouses, .counters, .captures, .samples, .log, .phase, .ik, .irqPending, .irqCores, .holes, .dictQueue, .sessions, .flash, .t1s, .lifecycle, .entropy, .keyCaches, .firmware, .teardown, .guests, .guestCmd, .requests, .set, .lrc, .tables, .tlbs, .commit, .faults, .coherence, .rmap, .streams, .waybills, .tallies, .contexts, .layouts, .chans, .map, .groups, .buses, .out] s (State.enterReset s cause) := by
  unfold State.enterReset
  try dsimp only
  repeat' first
    | with_reducible apply Moves.refl
    | with_reducible apply Moves.ite
    | ((with_reducible apply Moves.call (State.i3cResets_moves _)); rfl)
    | ((with_reducible apply Moves.call (State.inColdReset_moves _)); rfl)
    | (simp only [moves_mk]; refine Moves.record ?_)
    | with_reducible apply Moves.foldl
    | with_reducible apply Moves.foldl_snd
    | with_reducible apply Moves.ite_snd
    | with_reducible refine Moves.snd (by assumption) ?_
    | with_reducible intro _
    | dsimp only
    | split

theorem State.dropUnanswered_moves (s) : Moves [.ik, .dictQueue, .requests] s (State.dropUnanswered s) := by
  unfold State.dropUnanswered
  try dsimp only
  repeat' first
    | with_reducible apply Moves.refl
    | with_reducible apply Moves.ite
    | ((with_reducible apply Moves.call (State.settleTrk_moves _)); rfl)
    | (simp only [moves_mk]; refine Moves.record ?_)
    | with_reducible apply Moves.foldl
    | with_reducible apply Moves.foldl_snd
    | with_reducible apply Moves.ite_snd
    | with_reducible refine Moves.snd (by assumption) ?_
    | with_reducible intro _
    | dsimp only
    | split

theorem State.ikFail_moves (s cause) : Moves [.contacts, .phase, .ik, .dictQueue, .requests] s (State.ikFail s cause) := by
  unfold State.ikFail
  try dsimp only
  repeat' first
    | with_reducible apply Moves.refl
    | with_reducible apply Moves.ite
    | ((with_reducible apply Moves.call (State.dropUnanswered_moves _)); rfl)
    | ((with_reducible apply Moves.call (State.failDie_moves _ _)); rfl)
    | ((with_reducible apply Moves.call (State.holdOutputs_moves _)); rfl)
    | ((with_reducible apply Moves.call (State.recovery_moves _)); rfl)
    | ((with_reducible apply Moves.call (State.loseBoth_moves _)); rfl)
    | (simp only [moves_mk]; refine Moves.record ?_)
    | with_reducible apply Moves.foldl
    | with_reducible apply Moves.foldl_snd
    | with_reducible apply Moves.ite_snd
    | with_reducible refine Moves.snd (by assumption) ?_
    | with_reducible intro _
    | dsimp only
    | split

theorem State.clearCounts_moves (s k) : Moves [.chans] s (State.clearCounts s k) := by
  unfold State.clearCounts
  try dsimp only
  repeat' first
    | with_reducible apply Moves.refl
    | with_reducible apply Moves.ite
    | ((with_reducible apply Moves.call (State.onChan_moves _ _ _)); rfl)
    | (simp only [moves_mk]; refine Moves.record ?_)
    | with_reducible apply Moves.foldl
    | with_reducible apply Moves.foldl_snd
    | with_reducible apply Moves.ite_snd
    | with_reducible refine Moves.snd (by assumption) ?_
    | with_reducible intro _
    | dsimp only
    | split

theorem State.enterStale_moves (s g m line) : Moves [.counters, .log, .irqPending, .groups, .out] s (State.enterStale s g m line).2 := by
  unfold State.enterStale
  try dsimp only
  repeat' first
    | with_reducible apply Moves.refl
    | with_reducible apply Moves.ite
    | ((with_reducible apply Moves.call (State.log_moves _ _ _ _ _ _ _)); rfl)
    | ((with_reducible apply Moves.call (State.countChan_moves _ _ _ _)); rfl)
    | (simp only [moves_mk]; refine Moves.record ?_)
    | with_reducible apply Moves.foldl
    | with_reducible apply Moves.foldl_snd
    | with_reducible apply Moves.ite_snd
    | with_reducible refine Moves.snd (by assumption) ?_
    | with_reducible intro _
    | dsimp only
    | split

theorem State.setMeta_moves (s ch line f) : Moves [.dram] s (State.setMeta s ch line f) := by
  unfold State.setMeta
  try dsimp only
  repeat' first
    | with_reducible apply Moves.refl
    | with_reducible apply Moves.ite
    | ((with_reducible apply Moves.call (State.putLine_moves _ _ _ _ _)); rfl)
    | (simp only [moves_mk]; refine Moves.record ?_)
    | with_reducible apply Moves.foldl
    | with_reducible apply Moves.foldl_snd
    | with_reducible apply Moves.ite_snd
    | with_reducible refine Moves.snd (by assumption) ?_
    | with_reducible intro _
    | dsimp only
    | split

theorem State.deltaStale_moves (s p g m line d) : Moves [.counters, .log, .irqPending, .chans, .dram, .groups, .out] s (State.deltaStale s p g m line d) := by
  unfold State.deltaStale
  try dsimp only
  repeat' first
    | with_reducible apply Moves.refl
    | with_reducible apply Moves.ite
    | ((with_reducible apply Moves.call (State.enterStale_moves _ _ _ _)); rfl)
    | ((with_reducible apply Moves.call (State.onChan_moves _ _ _)); rfl)
    | ((with_reducible apply Moves.call (State.setMeta_moves _ _ _ _)); rfl)
    | (simp only [moves_mk]; refine Moves.record ?_)
    | with_reducible apply Moves.foldl
    | with_reducible apply Moves.foldl_snd
    | with_reducible apply Moves.ite_snd
    | with_reducible refine Moves.snd (by assumption) ?_
    | with_reducible intro _
    | dsimp only
    | split

theorem State.uncachedEnd_moves (s l write) : Moves [.egress, .counters, .samples, .log, .irqPending, .keyCaches, .guests, .requests, .coherence, .streams, .chans, .dram, .out, .free] s (State.uncachedEnd s l write) := by
  unfold State.uncachedEnd
  try dsimp only
  repeat' first
    | with_reducible apply Moves.refl
    | with_reducible apply Moves.ite
    | ((with_reducible apply Moves.call (State.hwrite_moves _ _ _ _)); rfl)
    | ((with_reducible apply Moves.call (State.setDir_moves _ _ _)); rfl)
    | ((with_reducible apply Moves.call (State.dropDir_moves _ _)); rfl)
    | (simp only [moves_mk]; refine Moves.record ?_)
    | with_reducible apply Moves.foldl
    | with_reducible apply Moves.foldl_snd
    | with_reducible apply Moves.ite_snd
    | with_reducible refine Moves.snd (by assumption) ?_
    | with_reducible intro _
    | dsimp only
    | split

theorem State.markExpired_moves (s h) : Moves [.counters, .irqPending, .faults] s (State.markExpired s h) := by
  unfold State.markExpired
  try dsimp only
  repeat' first
    | with_reducible apply Moves.refl
    | with_reducible apply Moves.ite
    | ((with_reducible apply Moves.call (State.countLedger_moves _ _ _)); rfl)
    | (simp only [moves_mk]; refine Moves.record ?_)
    | with_reducible apply Moves.foldl
    | with_reducible apply Moves.foldl_snd
    | with_reducible apply Moves.ite_snd
    | with_reducible refine Moves.snd (by assumption) ?_
    | with_reducible intro _
    | dsimp only
    | split

end Sys2Proof.Machine
end

