-- ==== Sys2Proof/Laws/Moves7.lean ====
section
/-! SUPPORT. One lemma for each operation: the parts of the state it may change, and that it keeps what every operation keeps
(Laws/Moves). Part 7 of 8, in the order in which the operations call one another. -/

namespace Sys2Proof.Machine

open Sys2Proof

set_option linter.all false

-- One proof after the other: in parallel, each waits in a thread of its own for the same lemma of `simp only`.
set_option Elab.async false

theorem State.passRun_moves (s d) : Moves [.ik, .irqPending] s (State.passRun s d) := by
  unfold State.passRun
  try dsimp only
  repeat' first
    | with_reducible apply Moves.refl
    | with_reducible apply Moves.ite
    | ((with_reducible apply Moves.call (State.onIkd_moves _ _ _)); rfl)
    | ((with_reducible apply Moves.call (State.irqEdge_moves _ _)); rfl)
    | (simp only [moves_mk]; refine Moves.record ?_)
    | with_reducible apply Moves.foldl
    | with_reducible apply Moves.foldl_snd
    | with_reducible apply Moves.ite_snd
    | with_reducible refine Moves.snd (by assumption) ?_
    | with_reducible intro _
    | dsimp only
    | split

theorem State.onTally_moves {ps} {s0 s : State} {f} (k : Part.within [.regs] ps = true) (b : Moves ps s0 s)
    (hf : ∀ u x, Moves ps u (f u x)) : Moves ps s0 (State.onTally s f) := by
  unfold State.onTally
  split
  · exact b.trans (hf _ _)
  · exact Moves.call (State.setReg_moves _ _ _) k b

theorem State.takeRetry_moves (s l fseq) : Moves [.links, .egress, .gatehouses, .counters, .samples, .log, .phase, .irqPending, .requests, .out] s (State.takeRetry s l fseq) := by
  unfold State.takeRetry
  try dsimp only
  repeat' first
    | with_reducible apply Moves.refl
    | with_reducible apply Moves.ite
    | ((with_reducible apply Moves.call (State.onLink_moves _ _ _)); rfl)
    | ((with_reducible apply Moves.call (State.startReplay_moves _ _ _ _)); rfl)
    | (simp only [moves_mk]; refine Moves.record ?_)
    | with_reducible apply Moves.foldl
    | with_reducible apply Moves.foldl_snd
    | with_reducible apply Moves.ite_snd
    | with_reducible refine Moves.snd (by assumption) ?_
    | with_reducible intro _
    | dsimp only
    | split

theorem State.takeLaneMap_moves (s l lane map) : Moves [.links, .counters, .irqPending, .out] s (State.takeLaneMap s l lane map) := by
  unfold State.takeLaneMap
  try dsimp only
  repeat' first
    | with_reducible apply Moves.refl
    | with_reducible apply Moves.ite
    | ((with_reducible apply Moves.call (State.sendCtrl_moves _ _ _)); rfl)
    | ((with_reducible apply Moves.call (State.onLink_moves _ _ _)); rfl)
    | (simp only [moves_mk]; refine Moves.record ?_)
    | with_reducible apply Moves.foldl
    | with_reducible apply Moves.foldl_snd
    | with_reducible apply Moves.ite_snd
    | with_reducible refine Moves.snd (by assumption) ?_
    | with_reducible intro _
    | dsimp only
    | split

theorem State.takeSyncReq_moves (s l) : Moves [.links, .counters, .irqPending, .out] s (State.takeSyncReq s l) := by
  unfold State.takeSyncReq
  try dsimp only
  repeat' first
    | with_reducible apply Moves.refl
    | with_reducible apply Moves.ite
    | ((with_reducible apply Moves.call (State.onLink_moves _ _ _)); rfl)
    | ((with_reducible apply Moves.call (State.sendCtrl_moves _ _ _)); rfl)
    | (simp only [moves_mk]; refine Moves.record ?_)
    | with_reducible apply Moves.foldl
    | with_reducible apply Moves.foldl_snd
    | with_reducible apply Moves.ite_snd
    | with_reducible refine Moves.snd (by assumption) ?_
    | with_reducible intro _
    | dsimp only
    | split

theorem State.takeStandbyReq_moves (s l) : Moves [.links, .counters, .irqPending, .out] s (State.takeStandbyReq s l) := by
  unfold State.takeStandbyReq
  try dsimp only
  repeat' first
    | with_reducible apply Moves.refl
    | with_reducible apply Moves.ite
    | ((with_reducible apply Moves.call (State.onLink_moves _ _ _)); rfl)
    | ((with_reducible apply Moves.call (State.sendCtrl_moves _ _ _)); rfl)
    | ((with_reducible apply Moves.call (State.closeGroup_moves _ _)); rfl)
    | (simp only [moves_mk]; refine Moves.record ?_)
    | with_reducible apply Moves.foldl
    | with_reducible apply Moves.foldl_snd
    | with_reducible apply Moves.ite_snd
    | with_reducible refine Moves.snd (by assumption) ?_
    | with_reducible intro _
    | dsimp only
    | split

theorem State.takeStandbyAck_moves (s l) : Moves [.night, .links] s (State.takeStandbyAck s l) := by
  unfold State.takeStandbyAck
  try dsimp only
  repeat' first
    | with_reducible apply Moves.refl
    | with_reducible apply Moves.ite
    | ((with_reducible apply Moves.call (State.onLink_moves _ _ _)); rfl)
    | (simp only [moves_mk]; refine Moves.record ?_)
    | with_reducible apply Moves.foldl
    | with_reducible apply Moves.foldl_snd
    | with_reducible apply Moves.ite_snd
    | with_reducible refine Moves.snd (by assumption) ?_
    | with_reducible intro _
    | dsimp only
    | split

theorem State.takeCtrl_moves (s l m) : Moves [.night, .links, .egress, .gatehouses, .counters, .samples, .log, .phase, .irqPending, .requests, .out] s (State.takeCtrl s l m) := by
  unfold State.takeCtrl
  try dsimp only
  repeat' first
    | with_reducible apply Moves.refl
    | with_reducible apply Moves.ite
    | ((with_reducible apply Moves.call (State.takeRetry_moves _ _ _)); rfl)
    | ((with_reducible apply Moves.call (State.takeLaneMap_moves _ _ _ _)); rfl)
    | ((with_reducible apply Moves.call (State.takeLaneMapAck_moves _ _ _ _)); rfl)
    | ((with_reducible apply Moves.call (State.takeSyncReq_moves _ _)); rfl)
    | ((with_reducible apply Moves.call (State.takeSyncRsp_moves _ _ _)); rfl)
    | ((with_reducible apply Moves.call (State.linkDown_moves _ _ _ _)); rfl)
    | ((with_reducible apply Moves.call (State.takeStandbyReq_moves _ _)); rfl)
    | ((with_reducible apply Moves.call (State.takeStandbyAck_moves _ _)); rfl)
    | (simp only [moves_mk]; refine Moves.record ?_)
    | with_reducible apply Moves.foldl
    | with_reducible apply Moves.foldl_snd
    | with_reducible apply Moves.ite_snd
    | with_reducible refine Moves.snd (by assumption) ?_
    | with_reducible intro _
    | dsimp only
    | split

theorem State.drainSet_moves (s) : Moves [.egress, .counters, .samples, .log, .phase, .irqPending, .entropy, .keyCaches, .teardown, .guests, .guestCmd, .requests, .set, .streams, .waybills, .chans, .dram, .out, .free] s (State.drainSet s) := by
  unfold State.drainSet
  try dsimp only
  repeat' first
    | with_reducible apply Moves.refl
    | with_reducible apply Moves.ite
    | ((with_reducible apply Moves.call (State.freeTracker_moves _ _)); rfl)
    | ((with_reducible apply Moves.call (State.onSetMsg_moves _ _ _)); rfl)
    | (simp only [moves_mk]; refine Moves.record ?_)
    | with_reducible apply Moves.foldl
    | with_reducible apply Moves.foldl_snd
    | with_reducible apply Moves.ite_snd
    | with_reducible refine Moves.snd (by assumption) ?_
    | with_reducible intro _
    | dsimp only
    | split

theorem State.freeTables_moves (s gid) : Moves [.tables, .tlbs, .faults, .rmap] s (State.freeTables s gid) := by
  unfold State.freeTables
  try dsimp only
  repeat' first
    | with_reducible apply Moves.refl
    | with_reducible apply Moves.ite
    | (simp only [moves_mk]; refine Moves.record ?_)
    | with_reducible apply Moves.foldl
    | with_reducible apply Moves.foldl_snd
    | with_reducible apply Moves.ite_snd
    | with_reducible refine Moves.snd (by assumption) ?_
    | with_reducible intro _
    | dsimp only
    | split

theorem State.xlQuiet_moves (s gid pva write) : Moves [.regs, .counters, .irqPending, .tlbs, .faults] s (State.xlQuiet s gid pva write).2 := by
  unfold State.xlQuiet
  try dsimp only
  repeat' first
    | with_reducible apply Moves.refl
    | with_reducible apply Moves.ite
    | ((with_reducible apply Moves.call (State.countLedger_moves _ _ _)); rfl)
    | ((with_reducible apply Moves.call (State.xlWalk_moves _ _ _ _)); rfl)
    | (simp only [moves_mk]; refine Moves.record ?_)
    | with_reducible apply Moves.foldl
    | with_reducible apply Moves.foldl_snd
    | with_reducible apply Moves.ite_snd
    | with_reducible refine Moves.snd (by assumption) ?_
    | with_reducible intro _
    | dsimp only
    | split

theorem State.journalled_moves (s k) : Moves [.ik] s (State.journalled s k) := by
  unfold State.journalled
  try dsimp only
  repeat' first
    | with_reducible apply Moves.refl
    | with_reducible apply Moves.ite
    | (simp only [moves_mk]; refine Moves.record ?_)
    | with_reducible apply Moves.foldl
    | with_reducible apply Moves.foldl_snd
    | with_reducible apply Moves.ite_snd
    | with_reducible refine Moves.snd (by assumption) ?_
    | with_reducible intro _
    | dsimp only
    | split

theorem State.refuseCommit_moves (s gid res idx) : Moves [.regs] s (State.refuseCommit s gid res idx) := by
  unfold State.refuseCommit
  try dsimp only
  repeat' first
    | with_reducible apply Moves.refl
    | with_reducible apply Moves.ite
    | ((with_reducible apply Moves.call (State.setReg_moves _ _ _)); rfl)
    | (simp only [moves_mk]; refine Moves.record ?_)
    | with_reducible apply Moves.foldl
    | with_reducible apply Moves.foldl_snd
    | with_reducible apply Moves.ite_snd
    | with_reducible refine Moves.snd (by assumption) ?_
    | with_reducible intro _
    | dsimp only
    | split

theorem State.sweepLrc_moves (s gid) : Moves [.lrc] s (State.sweepLrc s gid) := by
  unfold State.sweepLrc
  try dsimp only
  repeat' first
    | with_reducible apply Moves.refl
    | with_reducible apply Moves.ite
    | (simp only [moves_mk]; refine Moves.record ?_)
    | with_reducible apply Moves.foldl
    | with_reducible apply Moves.foldl_snd
    | with_reducible apply Moves.ite_snd
    | with_reducible refine Moves.snd (by assumption) ?_
    | with_reducible intro _
    | dsimp only
    | split

theorem State.replayCmds_moves (s ch k) : Moves [.out] s (State.replayCmds s ch k) := by
  unfold State.replayCmds
  try dsimp only
  repeat' first
    | with_reducible apply Moves.refl
    | with_reducible apply Moves.ite
    | ((with_reducible apply Moves.call (State.emit_moves _ _)); rfl)
    | (simp only [moves_mk]; refine Moves.record ?_)
    | with_reducible apply Moves.foldl
    | with_reducible apply Moves.foldl_snd
    | with_reducible apply Moves.ite_snd
    | with_reducible refine Moves.snd (by assumption) ?_
    | with_reducible intro _
    | dsimp only
    | split

theorem State.loadBatch_moves (s key cl) : Moves [.regs, .egress, .peers, .counters, .samples, .log, .irqPending, .keyCaches, .guests, .requests, .lrc, .tlbs, .faults, .coherence, .streams, .waybills, .contexts, .chans, .dram, .out, .free] s (State.loadBatch s key cl).2 := by
  unfold State.loadBatch
  try dsimp only
  repeat' first
    | with_reducible apply Moves.refl
    | with_reducible apply Moves.ite
    | ((with_reducible apply Moves.call (State.readRange_moves _ _ _ _ _ _ _)); rfl)
    | ((with_reducible apply Moves.call (State.failAll_moves _ _ _)); rfl)
    | ((with_reducible apply Moves.call (State.unhold_moves _ _ _)); rfl)
    | ((with_reducible apply Moves.call (State.holdGranule_moves _ _ _ _)); rfl)
    | ((with_reducible apply Moves.call (State.onWb_moves _ _ _)); rfl)
    | (simp only [moves_mk]; refine Moves.record ?_)
    | with_reducible apply Moves.foldl
    | with_reducible apply Moves.foldl_snd
    | with_reducible apply Moves.ite_snd
    | with_reducible refine Moves.snd (by assumption) ?_
    | with_reducible intro _
    | dsimp only
    | split

theorem State.runSlice_moves (s key c) : Moves [.regs, .egress, .peers, .counters, .samples, .log, .irqPending, .keyCaches, .guests, .requests, .lrc, .tlbs, .faults, .coherence, .streams, .waybills, .contexts, .chans, .dram, .out, .free] s (State.runSlice s key c) := by
  unfold State.runSlice
  generalize c - 65536 = i
  try dsimp only
  repeat' first
    | with_reducible apply Moves.refl
    | with_reducible apply Moves.ite
    | ((with_reducible apply Moves.call (State.loadBatch_moves _ _ _)); rfl)
    | ((with_reducible apply Moves.call (State.endSlice_moves _ _ _)); rfl)
    | ((with_reducible apply Moves.call (State.makeSlice_moves _ _ _ _ _)); rfl)
    | (simp only [moves_mk]; refine Moves.record ?_)
    | with_reducible apply Moves.foldl
    | with_reducible apply Moves.foldl_snd
    | with_reducible apply Moves.ite_snd
    | with_reducible refine Moves.snd (by assumption) ?_
    | with_reducible intro _
    | dsimp only
    | split

theorem State.drainParity_moves (s p line) : Moves [.counters, .irqPending, .chans, .dram] s (State.drainParity s p line) := by
  unfold State.drainParity
  try dsimp only
  repeat' first
    | with_reducible apply Moves.refl
    | with_reducible apply Moves.ite
    | ((with_reducible apply Moves.call (State.onChan_moves _ _ _)); rfl)
    | ((with_reducible apply Moves.call (State.readStored_moves _ _ _ _ _ _)); rfl)
    | ((with_reducible apply Moves.call (State.countChan_moves _ _ _ _)); rfl)
    | ((with_reducible apply Moves.call (State.putLine_moves _ _ _ _ _)); rfl)
    | ((with_reducible apply Moves.call (State.dataXor_moves _ _ _ _)); rfl)
    | (simp only [moves_mk]; refine Moves.record ?_)
    | with_reducible apply Moves.foldl
    | with_reducible apply Moves.foldl_snd
    | with_reducible apply Moves.ite_snd
    | with_reducible refine Moves.snd (by assumption) ?_
    | with_reducible intro _
    | dsimp only
    | split

theorem after_moves {ps} {s0 s : State} {f : Act} (b : Moves ps s0 s) (hf : ∀ t, f s = .next t → Moves ps s t) :
    Moves ps s0 (after f s) := by
  unfold after
  split
  · exact b.trans (hf _ ‹_›)
  · exact b

theorem State.endTeardown_moves (s gid began) : Moves [.regs, .log, .teardown, .guests, .out] s (State.endTeardown s gid began) := by
  unfold State.endTeardown
  try dsimp only
  repeat' first
    | with_reducible apply Moves.refl
    | with_reducible apply Moves.ite
    | ((with_reducible apply Moves.call (State.log_moves _ _ _ _ _ _ _)); rfl)
    | ((with_reducible apply Moves.call (State.teardownResult_moves _ _)); rfl)
    | (simp only [moves_mk]; refine Moves.record ?_)
    | with_reducible apply Moves.foldl
    | with_reducible apply Moves.foldl_snd
    | with_reducible apply Moves.ite_snd
    | with_reducible refine Moves.snd (by assumption) ?_
    | with_reducible intro _
    | dsimp only
    | split

theorem State.clearZm_moves (s f) : Moves [.regs, .egress, .counters, .samples, .log, .irqPending, .keyCaches, .guests, .requests, .tables, .tlbs, .faults, .streams, .chans, .dram, .out, .free] s (State.clearZm s f) := by
  unfold State.clearZm
  try dsimp only
  repeat' first
    | with_reducible apply Moves.refl
    | with_reducible apply Moves.ite
    | ((with_reducible apply Moves.call (State.putEntry_moves _ _ _ _ _)); rfl)
    | ((with_reducible apply Moves.call (State.fqAdd_moves _ _)); rfl)
    | (simp only [moves_mk]; refine Moves.record ?_)
    | with_reducible apply Moves.foldl
    | with_reducible apply Moves.foldl_snd
    | with_reducible apply Moves.ite_snd
    | with_reducible refine Moves.snd (by assumption) ?_
    | with_reducible intro _
    | dsimp only
    | split

theorem State.freeWork_moves (s gid) : Moves [.streams, .tallies, .contexts, .layouts] s (State.freeWork s gid) := by
  unfold State.freeWork
  try dsimp only
  repeat' first
    | with_reducible apply Moves.refl
    | with_reducible apply Moves.ite
    | (simp only [moves_mk]; refine Moves.record ?_)
    | with_reducible apply Moves.foldl
    | with_reducible apply Moves.foldl_snd
    | with_reducible apply Moves.ite_snd
    | with_reducible refine Moves.snd (by assumption) ?_
    | with_reducible intro _
    | dsimp only
    | split

theorem State.hearthResult_moves (s v) : Moves [.regs] s (State.hearthResult s v) := by
  unfold State.hearthResult
  try dsimp only
  repeat' first
    | with_reducible apply Moves.refl
    | with_reducible apply Moves.ite
    | ((with_reducible apply Moves.call (State.setReg_moves _ _ _)); rfl)
    | (simp only [moves_mk]; refine Moves.record ?_)
    | with_reducible apply Moves.foldl
    | with_reducible apply Moves.foldl_snd
    | with_reducible apply Moves.ite_snd
    | with_reducible refine Moves.snd (by assumption) ?_
    | with_reducible intro _
    | dsimp only
    | split

theorem State.ikResult_moves (s v) : Moves [.regs] s (State.ikResult s v) := by
  unfold State.ikResult
  try dsimp only
  repeat' first
    | with_reducible apply Moves.refl
    | with_reducible apply Moves.ite
    | ((with_reducible apply Moves.call (State.setReg_moves _ _ _)); rfl)
    | (simp only [moves_mk]; refine Moves.record ?_)
    | with_reducible apply Moves.foldl
    | with_reducible apply Moves.foldl_snd
    | with_reducible apply Moves.ite_snd
    | with_reducible refine Moves.snd (by assumption) ?_
    | with_reducible intro _
    | dsimp only
    | split

theorem State.sbTransfer_moves (s write answer) : Moves [.regs, .blobs, .counters, .irqPending, .buses, .out] s (State.sbTransfer s write answer) := by
  unfold State.sbTransfer
  try dsimp only
  repeat' first
    | with_reducible apply Moves.refl
    | with_reducible apply Moves.ite
    | ((with_reducible apply Moves.call (State.onBus_moves _ _ _)); rfl)
    | ((with_reducible apply Moves.call (State.emit_moves _ _)); rfl)
    | ((with_reducible apply Moves.call (State.setReg_moves _ _ _)); rfl)
    | ((with_reducible apply Moves.call (State.countBus_moves _ _ _)); rfl)
    | ((with_reducible apply Moves.call (State.setBlob_moves _ _ _)); rfl)
    | (simp only [moves_mk]; refine Moves.record ?_)
    | with_reducible apply Moves.foldl
    | with_reducible apply Moves.foldl_snd
    | with_reducible apply Moves.ite_snd
    | with_reducible refine Moves.snd (by assumption) ?_
    | with_reducible intro _
    | dsimp only
    | split

theorem State.endWb_moves (s key) : Moves [.waybills] s (State.endWb s key) := by
  unfold State.endWb
  try dsimp only
  repeat' first
    | with_reducible apply Moves.refl
    | with_reducible apply Moves.ite
    | ((with_reducible apply Moves.call (State.onWb_moves _ _ _)); rfl)
    | (simp only [moves_mk]; refine Moves.record ?_)
    | with_reducible apply Moves.foldl
    | with_reducible apply Moves.foldl_snd
    | with_reducible apply Moves.ite_snd
    | with_reducible refine Moves.snd (by assumption) ?_
    | with_reducible intro _
    | dsimp only
    | split

theorem State.writeStream_moves (s k) : Moves [.egress, .counters, .samples, .log, .irqPending, .keyCaches, .guests, .requests, .streams, .chans, .dram, .out, .free] s (State.writeStream s k) := by
  unfold State.writeStream
  try dsimp only
  repeat' first
    | with_reducible apply Moves.refl
    | with_reducible apply Moves.ite
    | ((with_reducible apply Moves.call (State.useFree_moves _ _)); rfl)
    | ((with_reducible apply Moves.call (State.wcbPut_moves _ _ _ _ _)); rfl)
    | (simp only [moves_mk]; refine Moves.record ?_)
    | with_reducible apply Moves.foldl
    | with_reducible apply Moves.foldl_snd
    | with_reducible apply Moves.ite_snd
    | with_reducible refine Moves.snd (by assumption) ?_
    | with_reducible intro _
    | dsimp only
    | split

theorem State.takeForce_moves (s) : Moves [.forced, .irqCores] s (State.takeForce s) := by
  unfold State.takeForce
  try dsimp only
  repeat' first
    | with_reducible apply Moves.refl
    | with_reducible apply Moves.ite
    | (simp only [moves_mk]; refine Moves.record ?_)
    | with_reducible apply Moves.foldl
    | with_reducible apply Moves.foldl_snd
    | with_reducible apply Moves.ite_snd
    | with_reducible refine Moves.snd (by assumption) ?_
    | with_reducible intro _
    | dsimp only
    | split

theorem State.replayRec_moves (s r) : Moves [.regs, .blobs] s (State.replayRec s r) := by
  unfold State.replayRec
  try dsimp only
  repeat' first
    | with_reducible apply Moves.refl
    | with_reducible apply Moves.ite
    | ((with_reducible apply Moves.call (State.setReg_moves _ _ _)); rfl)
    | ((with_reducible apply Moves.call (State.setBlob_moves _ _ _)); rfl)
    | (simp only [moves_mk]; refine Moves.record ?_)
    | with_reducible apply Moves.foldl
    | with_reducible apply Moves.foldl_snd
    | with_reducible apply Moves.ite_snd
    | with_reducible refine Moves.snd (by assumption) ?_
    | with_reducible intro _
    | dsimp only
    | split

theorem State.replay_moves (s) : Moves [.regs, .blobs, .forced, .log, .irqCores, .flash, .out] s (State.replay s) := by
  unfold State.replay
  try dsimp only
  repeat' first
    | with_reducible apply Moves.refl
    | with_reducible apply Moves.ite
    | ((with_reducible apply Moves.call (State.takeForce_moves _)); rfl)
    | ((with_reducible apply Moves.call (State.replayRec_moves _ _)); rfl)
    | ((with_reducible apply Moves.call (State.log_moves _ _ _ _ _ _ _)); rfl)
    | (simp only [moves_mk]; refine Moves.record ?_)
    | with_reducible apply Moves.foldl
    | with_reducible apply Moves.foldl_snd
    | with_reducible apply Moves.ite_snd
    | with_reducible refine Moves.snd (by assumption) ?_
    | with_reducible intro _
    | dsimp only
    | split

theorem State.fqConfig_moves (s obj v) : Moves [.regs, .faults] s (State.fqConfig s obj v) := by
  unfold State.fqConfig
  try dsimp only
  repeat' first
    | with_reducible apply Moves.refl
    | with_reducible apply Moves.ite
    | ((with_reducible apply Moves.call (State.setReg_moves _ _ _)); rfl)
    | (simp only [moves_mk]; refine Moves.record ?_)
    | with_reducible apply Moves.foldl
    | with_reducible apply Moves.foldl_snd
    | with_reducible apply Moves.ite_snd
    | with_reducible refine Moves.snd (by assumption) ?_
    | with_reducible intro _
    | dsimp only
    | split

theorem State.onGroup_moves (s g f) : Moves [.groups] s (State.onGroup s g f) := by
  unfold State.onGroup
  try dsimp only
  repeat' first
    | with_reducible apply Moves.refl
    | with_reducible apply Moves.ite
    | (simp only [moves_mk]; refine Moves.record ?_)
    | with_reducible apply Moves.foldl
    | with_reducible apply Moves.foldl_snd
    | with_reducible apply Moves.ite_snd
    | with_reducible refine Moves.snd (by assumption) ?_
    | with_reducible intro _
    | dsimp only
    | split

theorem State.parityMade_moves (s g line) : Moves [.groups] s (State.parityMade s g line) := by
  unfold State.parityMade
  try dsimp only
  repeat' first
    | with_reducible apply Moves.refl
    | with_reducible apply Moves.ite
    | ((with_reducible apply Moves.call (State.onGroup_moves _ _ _)); rfl)
    | (simp only [moves_mk]; refine Moves.record ?_)
    | with_reducible apply Moves.foldl
    | with_reducible apply Moves.foldl_snd
    | with_reducible apply Moves.ite_snd
    | with_reducible refine Moves.snd (by assumption) ?_
    | with_reducible intro _
    | dsimp only
    | split

theorem State.rebuildStale_moves (s e p i) : Moves [.egress, .counters, .samples, .log, .irqPending, .guests, .requests, .streams, .chans, .dram, .groups, .out, .free] s (State.rebuildStale s e p i) := by
  unfold State.rebuildStale
  try dsimp only
  repeat' first
    | with_reducible apply Moves.refl
    | with_reducible apply Moves.ite
    | ((with_reducible apply Moves.call (State.setMeta_moves _ _ _ _)); rfl)
    | ((with_reducible apply Moves.call (State.fetch_moves _ _ _ _ _ _)); rfl)
    | ((with_reducible apply Moves.call (State.dataXor_moves _ _ _ _)); rfl)
    | ((with_reducible apply Moves.call (State.parityMade_moves _ _ _)); rfl)
    | ((with_reducible apply Moves.call (State.putLine_moves _ _ _ _ _)); rfl)
    | ((with_reducible apply Moves.call (State.onChan_moves _ _ _)); rfl)
    | (simp only [moves_mk]; refine Moves.record ?_)
    | with_reducible apply Moves.foldl
    | with_reducible apply Moves.foldl_snd
    | with_reducible apply Moves.ite_snd
    | with_reducible refine Moves.snd (by assumption) ?_
    | with_reducible intro _
    | dsimp only
    | split

theorem State.noteSlot_moves (s n r) : Moves [.firmware] s (State.noteSlot s n r) := by
  unfold State.noteSlot
  try dsimp only
  repeat' first
    | with_reducible apply Moves.refl
    | with_reducible apply Moves.ite
    | (simp only [moves_mk]; refine Moves.record ?_)
    | with_reducible apply Moves.foldl
    | with_reducible apply Moves.foldl_snd
    | with_reducible apply Moves.ite_snd
    | with_reducible refine Moves.snd (by assumption) ?_
    | with_reducible intro _
    | dsimp only
    | split

theorem State.finishMat_moves (s key cl rds macs wf xf c) : Moves [.counters, .irqPending, .waybills] s (State.finishMat s key cl rds macs wf xf c).2 := by
  unfold State.finishMat
  try dsimp only
  repeat' first
    | with_reducible apply Moves.refl
    | with_reducible apply Moves.ite
    | ((with_reducible apply Moves.call (State.dropLines_moves _ _ _)); rfl)
    | ((with_reducible apply Moves.call (State.countMacs_moves _ _ _ _ _)); rfl)
    | (simp only [moves_mk]; refine Moves.record ?_)
    | with_reducible apply Moves.foldl
    | with_reducible apply Moves.foldl_snd
    | with_reducible apply Moves.ite_snd
    | with_reducible refine Moves.snd (by assumption) ?_
    | with_reducible intro _
    | dsimp only
    | split

theorem kernelMoe_moves (key cl s g) : Moves [.regs, .egress, .peers, .counters, .samples, .log, .irqPending, .keyCaches, .guests, .requests, .lrc, .tlbs, .faults, .coherence, .streams, .waybills, .contexts, .chans, .dram, .out, .free] s (kernelMoe key cl s g).2 := by
  unfold kernelMoe
  try dsimp only
  repeat' first
    | with_reducible apply Moves.refl
    | with_reducible apply Moves.ite
    | ((with_reducible apply Moves.call (State.loadBatch_moves _ _ _)); rfl)
    | ((with_reducible apply Moves.call (State.onWb_moves _ _ _)); rfl)
    | ((with_reducible apply Moves.call (State.readRows_moves _ _ _ _ _ _)); rfl)
    | ((with_reducible apply Moves.call (State.finishMat_moves _ _ _ _ _ _ _ _)); rfl)
    | (simp only [moves_mk]; refine Moves.record ?_)
    | with_reducible apply Moves.foldl
    | with_reducible apply Moves.foldl_snd
    | with_reducible apply Moves.ite_snd
    | with_reducible refine Moves.snd (by assumption) ?_
    | with_reducible intro _
    | dsimp only
    | split

theorem State.holdFetch_moves (s k gid h) : Moves [.regs, .counters, .irqPending, .requests, .faults, .streams, .waybills, .contexts] s (State.holdFetch s k gid h) := by
  unfold State.holdFetch
  try dsimp only
  repeat' first
    | with_reducible apply Moves.refl
    | with_reducible apply Moves.ite
    | with_reducible refine State.rehold_moves rfl ?_ ?_
    | ((with_reducible apply Moves.call (State.onStream_moves _ _ _)); rfl)
    | (simp only [moves_mk]; refine Moves.record ?_)
    | with_reducible apply Moves.foldl
    | with_reducible apply Moves.foldl_snd
    | with_reducible apply Moves.ite_snd
    | with_reducible refine Moves.snd (by assumption) ?_
    | with_reducible intro _
    | dsimp only
    | split

theorem State.rebuildWrite_moves (s g m bad sp line r) : Moves [.egress, .counters, .samples, .log, .irqPending, .guests, .requests, .streams, .chans, .dram, .groups, .out] s (State.rebuildWrite s g m bad sp line r) := by
  unfold State.rebuildWrite
  try dsimp only
  repeat' first
    | with_reducible apply Moves.refl
    | with_reducible apply Moves.ite
    | ((with_reducible apply Moves.call (State.onGroup_moves _ _ _)); rfl)
    | ((with_reducible apply Moves.call (State.putLine_moves _ _ _ _ _)); rfl)
    | ((with_reducible apply Moves.call (State.reportLost_moves _ _ _ _ _)); rfl)
    | ((with_reducible apply Moves.call (State.parityMade_moves _ _ _)); rfl)
    | (simp only [moves_mk]; refine Moves.record ?_)
    | with_reducible apply Moves.foldl
    | with_reducible apply Moves.foldl_snd
    | with_reducible apply Moves.ite_snd
    | with_reducible refine Moves.snd (by assumption) ?_
    | with_reducible intro _
    | dsimp only
    | split

theorem State.loseClocks_moves (s) : Moves [.clocks, .links, .irqCores, .chans] s (State.loseClocks s) := by
  unfold State.loseClocks
  try dsimp only
  repeat' first
    | with_reducible apply Moves.refl
    | with_reducible apply Moves.ite
    | ((with_reducible apply Moves.call (State.stopLinks_moves _)); rfl)
    | ((with_reducible apply Moves.call (State.sleepChans_moves _)); rfl)
    | (simp only [moves_mk]; refine Moves.record ?_)
    | with_reducible apply Moves.foldl
    | with_reducible apply Moves.foldl_snd
    | with_reducible apply Moves.ite_snd
    | with_reducible refine Moves.snd (by assumption) ?_
    | with_reducible intro _
    | dsimp only
    | split

theorem State.swapWb_moves (s gid key) : Moves [.egress, .counters, .samples, .log, .irqPending, .keyCaches, .guests, .requests, .streams, .chans, .dram, .out, .free] s (State.swapWb s gid key) := by
  unfold State.swapWb
  try dsimp only
  repeat' first
    | with_reducible apply Moves.refl
    | with_reducible apply Moves.ite
    | ((with_reducible apply Moves.call (State.startSwap_moves _ _)); rfl)
    | (simp only [moves_mk]; refine Moves.record ?_)
    | with_reducible apply Moves.foldl
    | with_reducible apply Moves.foldl_snd
    | with_reducible apply Moves.ite_snd
    | with_reducible refine Moves.snd (by assumption) ?_
    | with_reducible intro _
    | dsimp only
    | split

theorem State.placeChunk_moves (s key c cl k) : Moves [.counters, .irqPending, .waybills] s (State.placeChunk s key c cl k) := by
  unfold State.placeChunk
  try dsimp only
  repeat' first
    | with_reducible apply Moves.refl
    | with_reducible apply Moves.ite
    | ((with_reducible apply Moves.call (State.onWb_moves _ _ _)); rfl)
    | ((with_reducible apply Moves.call (State.countCluster_moves _ _ _ _)); rfl)
    | ((with_reducible apply Moves.call (State.onCluster_moves _ _ _)); rfl)
    | (simp only [moves_mk]; refine Moves.record ?_)
    | with_reducible apply Moves.foldl
    | with_reducible apply Moves.foldl_snd
    | with_reducible apply Moves.ite_snd
    | with_reducible refine Moves.snd (by assumption) ?_
    | with_reducible intro _
    | dsimp only
    | split

theorem State.redispatch_moves (s key c) : Moves [.regs, .egress, .counters, .samples, .log, .irqPending, .keyCaches, .guests, .requests, .faults, .coherence, .streams, .waybills, .contexts, .chans, .dram, .out, .free] s (State.redispatch s key c) := by
  unfold State.redispatch
  try dsimp only
  repeat' first
    | with_reducible apply Moves.refl
    | with_reducible apply Moves.ite
    | ((with_reducible apply Moves.call (State.onChunk_moves _ _ _ _)); rfl)
    | ((with_reducible apply Moves.call (State.onWb_moves _ _ _)); rfl)
    | ((with_reducible apply Moves.call (State.endSlice_moves _ _ _)); rfl)
    | ((with_reducible apply Moves.call (State.failAll_moves _ _ _)); rfl)
    | ((with_reducible apply Moves.call (State.failGranule_moves _ _ _ _ _)); rfl)
    | ((with_reducible apply Moves.call (State.swapWb_moves _ _ _)); rfl)
    | ((with_reducible apply Moves.call (State.placeChunk_moves _ _ _ _ _)); rfl)
    | ((with_reducible apply Moves.call (State.countN_moves _ _ _ _ _ _)); rfl)
    | ((with_reducible apply Moves.call (State.countCluster_moves _ _ _ _)); rfl)
    | (simp only [moves_mk]; refine Moves.record ?_)
    | with_reducible apply Moves.foldl
    | with_reducible apply Moves.foldl_snd
    | with_reducible apply Moves.ite_snd
    | with_reducible refine Moves.snd (by assumption) ?_
    | with_reducible intro _
    | dsimp only
    | split

theorem State.queueResult_moves (s v) : Moves [.regs] s (State.queueResult s v) := by
  unfold State.queueResult
  try dsimp only
  repeat' first
    | with_reducible apply Moves.refl
    | with_reducible apply Moves.ite
    | ((with_reducible apply Moves.call (State.setReg_moves _ _ _)); rfl)
    | (simp only [moves_mk]; refine Moves.record ?_)
    | with_reducible apply Moves.foldl
    | with_reducible apply Moves.foldl_snd
    | with_reducible apply Moves.ite_snd
    | with_reducible refine Moves.snd (by assumption) ?_
    | with_reducible intro _
    | dsimp only
    | split

theorem State.setDefault_moves (s gh q c) : Moves [.regs, .egress, .routes] s (State.setDefault s gh q c) := by
  unfold State.setDefault
  try dsimp only
  repeat' first
    | with_reducible apply Moves.refl
    | with_reducible apply Moves.ite
    | ((with_reducible apply Moves.call (State.queueResult_moves _ _)); rfl)
    | ((with_reducible apply Moves.call (State.putQueue_moves _ _ _ _)); rfl)
    | (simp only [moves_mk]; refine Moves.record ?_)
    | with_reducible apply Moves.foldl
    | with_reducible apply Moves.foldl_snd
    | with_reducible apply Moves.ite_snd
    | with_reducible refine Moves.snd (by assumption) ?_
    | with_reducible intro _
    | dsimp only
    | split

theorem State.nextFlit_moves (s l) : Moves [.links, .egress, .counters, .irqPending, .out] s (State.nextFlit s l) := by
  unfold State.nextFlit
  try dsimp only
  repeat' first
    | with_reducible apply Moves.refl
    | with_reducible apply Moves.ite
    | ((with_reducible apply Moves.call (State.formIdle_moves _ _ _)); rfl)
    | ((with_reducible apply Moves.call (State.formData_moves _ _)); rfl)
    | (simp only [moves_mk]; refine Moves.record ?_)
    | with_reducible apply Moves.foldl
    | with_reducible apply Moves.foldl_snd
    | with_reducible apply Moves.ite_snd
    | with_reducible refine Moves.snd (by assumption) ?_
    | with_reducible intro _
    | dsimp only
    | split

theorem State.saveMap_moves (s) : Moves [.blobs, .flash] s (State.saveMap s) := by
  unfold State.saveMap
  try dsimp only
  repeat' first
    | with_reducible apply Moves.refl
    | with_reducible apply Moves.ite
    | ((with_reducible apply Moves.call (State.persist_moves _ _ _)); rfl)
    | ((with_reducible apply Moves.call (State.setBlob_moves _ _ _)); rfl)
    | (simp only [moves_mk]; refine Moves.record ?_)
    | with_reducible apply Moves.foldl
    | with_reducible apply Moves.foldl_snd
    | with_reducible apply Moves.ite_snd
    | with_reducible refine Moves.snd (by assumption) ?_
    | with_reducible intro _
    | dsimp only
    | split

theorem State.startRebuild_moves (s g) : Moves [.blobs, .log, .phase, .irqPending, .flash, .chans, .groups, .out] s (State.startRebuild s g) := by
  unfold State.startRebuild
  try dsimp only
  repeat' first
    | with_reducible apply Moves.refl
    | with_reducible apply Moves.ite
    | ((with_reducible apply Moves.call (State.onGroup_moves _ _ _)); rfl)
    | ((with_reducible apply Moves.call (State.recovery_moves _)); rfl)
    | ((with_reducible apply Moves.call (State.irqEdge_moves _ _)); rfl)
    | ((with_reducible apply Moves.call (State.onChan_moves _ _ _)); rfl)
    | ((with_reducible apply Moves.call (State.saveMap_moves _)); rfl)
    | ((with_reducible apply Moves.call (State.memIrq_moves _ _)); rfl)
    | ((with_reducible apply Moves.call (State.log_moves _ _ _ _ _ _ _)); rfl)
    | (simp only [moves_mk]; refine Moves.record ?_)
    | with_reducible apply Moves.foldl
    | with_reducible apply Moves.foldl_snd
    | with_reducible apply Moves.ite_snd
    | with_reducible refine Moves.snd (by assumption) ?_
    | with_reducible intro _
    | dsimp only
    | split

theorem State.testAndSet_moves (s key g cl) : Moves [.regs, .egress, .counters, .samples, .log, .irqPending, .keyCaches, .guests, .requests, .coherence, .streams, .waybills, .contexts, .chans, .dram, .out, .free] s (State.testAndSet s key g cl) := by
  unfold State.testAndSet
  try dsimp only
  repeat' first
    | with_reducible apply Moves.refl
    | with_reducible apply Moves.ite
    | ((with_reducible apply Moves.call (State.settleGranule_moves _ _ _ _ _ _)); rfl)
    | ((with_reducible apply Moves.call (State.onChunk_moves _ _ _ _)); rfl)
    | ((with_reducible apply Moves.call (State.withdraw_moves _ _ _ _ _)); rfl)
    | ((with_reducible apply Moves.call (State.uncachedStart_moves _ _ _ _)); rfl)
    | ((with_reducible apply Moves.call (State.commitHeld_moves _ _ _ _ _)); rfl)
    | (simp only [moves_mk]; refine Moves.record ?_)
    | with_reducible apply Moves.foldl
    | with_reducible apply Moves.foldl_snd
    | with_reducible apply Moves.ite_snd
    | with_reducible refine Moves.snd (by assumption) ?_
    | with_reducible intro _
    | dsimp only
    | split

theorem State.ctrResult_moves (s v) : Moves [.regs] s (State.ctrResult s v) := by
  unfold State.ctrResult
  try dsimp only
  repeat' first
    | with_reducible apply Moves.refl
    | with_reducible apply Moves.ite
    | ((with_reducible apply Moves.call (State.setReg_moves _ _ _)); rfl)
    | (simp only [moves_mk]; refine Moves.record ?_)
    | with_reducible apply Moves.foldl
    | with_reducible apply Moves.foldl_snd
    | with_reducible apply Moves.ite_snd
    | with_reducible refine Moves.snd (by assumption) ?_
    | with_reducible intro _
    | dsimp only
    | split

theorem State.runChunk_moves {ps} {s0 s : State} {key c kernel} (k : Part.within [.regs, .egress, .peers, .counters, .samples, .log, .irqPending, .keyCaches, .guests, .requests, .lrc, .tlbs, .faults, .coherence, .streams, .waybills, .contexts, .chans, .dram, .out, .free] ps = true) (b : Moves ps s0 s)
    (hf : ∀ u g, Moves ps u (kernel u g).2) : Moves ps s0 (State.runChunk s key c kernel) := by
  unfold State.runChunk
  dsimp only
  repeat' first
    | exact b
    | exact hf _ _
    | with_reducible apply Moves.refl
    | with_reducible apply Moves.ite
    | ((with_reducible apply Moves.call (State.placeCalc_moves _ _ _ _ _)); exact Part.within_trans rfl k)
    | with_reducible apply Moves.foldl
    | with_reducible intro _

theorem State.work0_moves {ps} {s0 s : State} {stream seq chunk opc kernel} (k : Part.within [.regs, .egress, .peers, .counters, .samples, .log, .irqPending, .keyCaches, .guests, .requests, .lrc, .tlbs, .faults, .coherence, .streams, .waybills, .contexts, .chans, .dram, .out, .free] ps = true) (b : Moves ps s0 s)
    (hf : ∀ key cl u g, Moves ps u (kernel key cl u g).2) : Moves ps s0 (State.work0 s stream seq chunk opc kernel) := by
  unfold State.work0
  dsimp only
  split
  · exact b
  · exact State.runChunk_moves k b fun u g => hf _ _ u g

theorem State.purgeKeys_moves (s) : Moves [.links, .sessions, .entropy, .keys, .keyCaches, .lrc, .tlbs, .waybills] s (State.purgeKeys s) := by
  unfold State.purgeKeys
  try dsimp only
  repeat' first
    | with_reducible apply Moves.refl
    | with_reducible apply Moves.ite
    | ((with_reducible apply Moves.call (State.endSessions_moves _)); rfl)
    | ((with_reducible apply Moves.call (State.lrcDrop_moves _ _ _)); rfl)
    | ((with_reducible apply Moves.call (State.clearClusters_moves _)); rfl)
    | ((with_reducible apply Moves.call (State.zeroLinkKeys_moves _)); rfl)
    | (simp only [moves_mk]; refine Moves.record ?_)
    | with_reducible apply Moves.foldl
    | with_reducible apply Moves.foldl_snd
    | with_reducible apply Moves.ite_snd
    | with_reducible refine Moves.snd (by assumption) ?_
    | with_reducible intro _
    | dsimp only
    | split

theorem State.migrOn_moves (s) : Moves [.egress, .peers, .counters, .samples, .log, .irqPending, .keyCaches, .guests, .requests, .commit, .streams, .chans, .dram, .out, .free] s (State.migrOn s) := by
  unfold State.migrOn
  try dsimp only
  repeat' first
    | with_reducible apply Moves.refl
    | with_reducible apply Moves.ite
    | ((with_reducible apply Moves.call (State.drainRange_moves _ _ _)); rfl)
    | ((with_reducible apply Moves.call (State.migrSend_moves _ _)); rfl)
    | (simp only [moves_mk]; refine Moves.record ?_)
    | with_reducible apply Moves.foldl
    | with_reducible apply Moves.foldl_snd
    | with_reducible apply Moves.ite_snd
    | with_reducible refine Moves.snd (by assumption) ?_
    | with_reducible intro _
    | dsimp only
    | split

theorem State.startCommit_moves (s gid us) : Moves [.regs, .egress, .peers, .counters, .samples, .log, .irqPending, .keyCaches, .guests, .requests, .lrc, .tlbs, .commit, .streams, .chans, .dram, .out, .free] s (State.startCommit s gid us) := by
  unfold State.startCommit
  try dsimp only
  repeat' first
    | with_reducible apply Moves.refl
    | with_reducible apply Moves.ite
    | ((with_reducible apply Moves.call (State.setReg_moves _ _ _)); rfl)
    | ((with_reducible apply Moves.call (State.migrSend_moves _ _)); rfl)
    | ((with_reducible apply Moves.call (State.lrcDrop_moves _ _ _)); rfl)
    | ((with_reducible apply Moves.call (State.migrOn_moves _)); rfl)
    | (simp only [moves_mk]; refine Moves.record ?_)
    | with_reducible apply Moves.foldl
    | with_reducible apply Moves.foldl_snd
    | with_reducible apply Moves.ite_snd
    | with_reducible refine Moves.snd (by assumption) ?_
    | with_reducible intro _
    | dsimp only
    | split

theorem State.bootMap_moves (s) : Moves [.blobs, .flash] s (State.bootMap s) := by
  unfold State.bootMap
  try dsimp only
  repeat' first
    | with_reducible apply Moves.refl
    | with_reducible apply Moves.ite
    | ((with_reducible apply Moves.call (State.saveMap_moves _)); rfl)
    | ((with_reducible apply Moves.call (State.setBlob_moves _ _ _)); rfl)
    | (simp only [moves_mk]; refine Moves.record ?_)
    | with_reducible apply Moves.foldl
    | with_reducible apply Moves.foldl_snd
    | with_reducible apply Moves.ite_snd
    | with_reducible refine Moves.snd (by assumption) ?_
    | with_reducible intro _
    | dsimp only
    | split

theorem State.debugResult_moves (s v) : Moves [.regs] s (State.debugResult s v) := by
  unfold State.debugResult
  try dsimp only
  repeat' first
    | with_reducible apply Moves.refl
    | with_reducible apply Moves.ite
    | ((with_reducible apply Moves.call (State.setReg_moves _ _ _)); rfl)
    | (simp only [moves_mk]; refine Moves.record ?_)
    | with_reducible apply Moves.foldl
    | with_reducible apply Moves.foldl_snd
    | with_reducible apply Moves.ite_snd
    | with_reducible refine Moves.snd (by assumption) ?_
    | with_reducible intro _
    | dsimp only
    | split

theorem State.broadcast_moves (s p) : Moves [.egress, .peers, .samples] s (State.broadcast s p) := by
  unfold State.broadcast
  try dsimp only
  repeat' first
    | with_reducible apply Moves.refl
    | with_reducible apply Moves.ite
    | ((with_reducible apply Moves.call (State.takeSeq_moves _ _ _)); rfl)
    | ((with_reducible apply Moves.call (State.setBcast_moves _ _)); rfl)
    | ((with_reducible apply Moves.call (State.queueOwn_moves _ _)); rfl)
    | (simp only [moves_mk]; refine Moves.record ?_)
    | with_reducible apply Moves.foldl
    | with_reducible apply Moves.foldl_snd
    | with_reducible apply Moves.ite_snd
    | with_reducible refine Moves.snd (by assumption) ?_
    | with_reducible intro _
    | dsimp only
    | split

theorem State.fatalLost_moves (s ch) : Moves [.egress, .counters, .samples, .log, .irqPending, .guests, .requests, .streams, .out] s (State.fatalLost s ch) := by
  unfold State.fatalLost
  try dsimp only
  repeat' first
    | with_reducible apply Moves.refl
    | with_reducible apply Moves.ite
    | ((with_reducible apply Moves.call (State.guestFatal_moves _ _ _ _)); rfl)
    | (simp only [moves_mk]; refine Moves.record ?_)
    | with_reducible apply Moves.foldl
    | with_reducible apply Moves.foldl_snd
    | with_reducible apply Moves.ite_snd
    | with_reducible refine Moves.snd (by assumption) ?_
    | with_reducible intro _
    | dsimp only
    | split

theorem State.ladder_moves (s g ch) : Moves [.egress, .counters, .samples, .log, .irqPending, .guests, .requests, .streams, .groups, .out] s (State.ladder s g ch) := by
  unfold State.ladder
  try dsimp only
  repeat' first
    | with_reducible apply Moves.refl
    | with_reducible apply Moves.ite
    | ((with_reducible apply Moves.call (State.onGroup_moves _ _ _)); rfl)
    | ((with_reducible apply Moves.call (State.fatalLost_moves _ _)); rfl)
    | ((with_reducible apply Moves.call (State.memIrq_moves _ _)); rfl)
    | ((with_reducible apply Moves.call (State.log_moves _ _ _ _ _ _ _)); rfl)
    | (simp only [moves_mk]; refine Moves.record ?_)
    | with_reducible apply Moves.foldl
    | with_reducible apply Moves.foldl_snd
    | with_reducible apply Moves.ite_snd
    | with_reducible refine Moves.snd (by assumption) ?_
    | with_reducible intro _
    | dsimp only
    | split

theorem State.endRebuild_moves (s g m sp) : Moves [.blobs, .egress, .counters, .samples, .log, .phase, .irqPending, .flash, .guests, .requests, .streams, .chans, .groups, .out] s (State.endRebuild s g m sp) := by
  unfold State.endRebuild
  try dsimp only
  repeat' first
    | with_reducible apply Moves.refl
    | with_reducible apply Moves.ite
    | ((with_reducible apply Moves.call (State.onGroup_moves _ _ _)); rfl)
    | ((with_reducible apply Moves.call (State.saveMap_moves _)); rfl)
    | ((with_reducible apply Moves.call (State.memIrq_moves _ _)); rfl)
    | ((with_reducible apply Moves.call (State.log_moves _ _ _ _ _ _ _)); rfl)
    | ((with_reducible apply Moves.call (State.ladder_moves _ _ _)); rfl)
    | ((with_reducible apply Moves.call (State.startRebuild_moves _ _)); rfl)
    | (simp only [moves_mk]; refine Moves.record ?_)
    | with_reducible apply Moves.foldl
    | with_reducible apply Moves.foldl_snd
    | with_reducible apply Moves.ite_snd
    | with_reducible refine Moves.snd (by assumption) ?_
    | with_reducible intro _
    | dsimp only
    | split

theorem State.writeLayout_moves (s i gid bs) : Moves [.egress, .counters, .samples, .log, .irqPending, .keyCaches, .guests, .requests, .streams, .chans, .dram, .out, .free] s (State.writeLayout s i gid bs) := by
  unfold State.writeLayout
  try dsimp only
  repeat' first
    | with_reducible apply Moves.refl
    | with_reducible apply Moves.ite
    | ((with_reducible apply Moves.call (State.wcbPut_moves _ _ _ _ _)); rfl)
    | (simp only [moves_mk]; refine Moves.record ?_)
    | with_reducible apply Moves.foldl
    | with_reducible apply Moves.foldl_snd
    | with_reducible apply Moves.ite_snd
    | with_reducible refine Moves.snd (by assumption) ?_
    | with_reducible intro _
    | dsimp only
    | split

theorem State.writeFreeze_moves (s v) : Moves [.regs, .captures] s (State.writeFreeze s v) := by
  unfold State.writeFreeze
  try dsimp only
  repeat' first
    | with_reducible apply Moves.refl
    | with_reducible apply Moves.ite
    | ((with_reducible apply Moves.call (State.setReg_moves _ _ _)); rfl)
    | (simp only [moves_mk]; refine Moves.record ?_)
    | with_reducible apply Moves.foldl
    | with_reducible apply Moves.foldl_snd
    | with_reducible apply Moves.ite_snd
    | with_reducible refine Moves.snd (by assumption) ?_
    | with_reducible intro _
    | dsimp only
    | split

theorem State.dequeue_moves (s l t) : Moves [.samples, .coherence] s (State.dequeue s l t) := by
  unfold State.dequeue
  try dsimp only
  repeat' first
    | with_reducible apply Moves.refl
    | with_reducible apply Moves.ite
    | ((with_reducible apply Moves.call (State.leaveQ_moves _ _ _)); rfl)
    | (simp only [moves_mk]; refine Moves.record ?_)
    | with_reducible apply Moves.foldl
    | with_reducible apply Moves.foldl_snd
    | with_reducible apply Moves.ite_snd
    | with_reducible refine Moves.snd (by assumption) ?_
    | with_reducible intro _
    | dsimp only
    | split

theorem State.backGranule_moves (s r i) : Moves [.regs, .egress, .counters, .samples, .log, .irqPending, .keyCaches, .guests, .requests, .lrc, .tlbs, .faults, .coherence, .streams, .waybills, .contexts, .chans, .dram, .out, .free] s (State.backGranule s r i).2 := by
  unfold State.backGranule
  try dsimp only
  repeat' first
    | with_reducible apply Moves.refl
    | with_reducible apply Moves.ite
    | ((with_reducible apply Moves.call (State.xlWalk_moves _ _ _ _)); rfl)
    | with_reducible refine State.rehold_moves rfl ?_ ?_
    | ((with_reducible apply Moves.call (State.onCtx_moves _ _ _)); rfl)
    | ((with_reducible apply Moves.call (State.startFill_moves _ _ _ _ _)); rfl)
    | ((with_reducible apply Moves.call (State.uncachedStart_moves _ _ _ _)); rfl)
    | ((with_reducible apply Moves.call (State.putOuts_moves _ _ _)); rfl)
    | (simp only [moves_mk]; refine Moves.record ?_)
    | with_reducible apply Moves.foldl
    | with_reducible apply Moves.foldl_snd
    | with_reducible apply Moves.ite_snd
    | with_reducible refine Moves.snd (by assumption) ?_
    | with_reducible intro _
    | dsimp only
    | split

theorem State.toDefault_moves (s x) : Moves [.regs, .blobs, .flash] s (State.toDefault s x) := by
  unfold State.toDefault
  try dsimp only
  repeat' first
    | with_reducible apply Moves.refl
    | with_reducible apply Moves.ite
    | ((with_reducible apply Moves.call (State.persist_moves _ _ _)); rfl)
    | (simp only [moves_mk]; refine Moves.record ?_)
    | with_reducible apply Moves.foldl
    | with_reducible apply Moves.foldl_snd
    | with_reducible apply Moves.ite_snd
    | with_reducible refine Moves.snd (by assumption) ?_
    | with_reducible intro _
    | dsimp only
    | split

theorem kernelMvb_moves (key cl s g) : Moves [.regs, .egress, .peers, .counters, .samples, .log, .irqPending, .keyCaches, .guests, .requests, .lrc, .tlbs, .faults, .coherence, .streams, .waybills, .contexts, .chans, .dram, .out, .free] s (kernelMvb key cl s g).2 := by
  unfold kernelMvb
  try dsimp only
  repeat' first
    | with_reducible apply Moves.refl
    | with_reducible apply Moves.ite
    | ((with_reducible apply Moves.call (State.loadBatch_moves _ _ _)); rfl)
    | ((with_reducible apply Moves.call (State.readRows_moves _ _ _ _ _ _)); rfl)
    | ((with_reducible apply Moves.call (State.readRange_moves _ _ _ _ _ _ _)); rfl)
    | ((with_reducible apply Moves.call (State.finishMat_moves _ _ _ _ _ _ _ _)); rfl)
    | (simp only [moves_mk]; refine Moves.record ?_)
    | with_reducible apply Moves.foldl
    | with_reducible apply Moves.foldl_snd
    | with_reducible apply Moves.ite_snd
    | with_reducible refine Moves.snd (by assumption) ?_
    | with_reducible intro _
    | dsimp only
    | split

theorem State.setStaging_moves (s n g) : Moves [.sessions] s (State.setStaging s n g) := by
  unfold State.setStaging
  try dsimp only
  repeat' first
    | with_reducible apply Moves.refl
    | with_reducible apply Moves.ite
    | (simp only [moves_mk]; refine Moves.record ?_)
    | with_reducible apply Moves.foldl
    | with_reducible apply Moves.foldl_snd
    | with_reducible apply Moves.ite_snd
    | with_reducible refine Moves.snd (by assumption) ?_
    | with_reducible intro _
    | dsimp only
    | split

theorem State.stage_moves (s n p d) : Moves [.sessions] s (State.stage s n p d).2 := by
  unfold State.stage
  try dsimp only
  repeat' first
    | with_reducible apply Moves.refl
    | with_reducible apply Moves.ite
    | ((with_reducible apply Moves.call (State.setStaging_moves _ _ _)); rfl)
    | (simp only [moves_mk]; refine Moves.record ?_)
    | with_reducible apply Moves.foldl
    | with_reducible apply Moves.foldl_snd
    | with_reducible apply Moves.ite_snd
    | with_reducible refine Moves.snd (by assumption) ?_
    | with_reducible intro _
    | dsimp only
    | split

theorem State.trainResult_moves (s ch cause v) : Moves [.regs] s (State.trainResult s ch cause v) := by
  unfold State.trainResult
  try dsimp only
  repeat' first
    | with_reducible apply Moves.refl
    | with_reducible apply Moves.ite
    | ((with_reducible apply Moves.call (State.setReg_moves _ _ _)); rfl)
    | (simp only [moves_mk]; refine Moves.record ?_)
    | with_reducible apply Moves.foldl
    | with_reducible apply Moves.foldl_snd
    | with_reducible apply Moves.ite_snd
    | with_reducible refine Moves.snd (by assumption) ?_
    | with_reducible intro _
    | dsimp only
    | split

theorem State.pprResult_moves (s ch v) : Moves [.regs] s (State.pprResult s ch v) := by
  unfold State.pprResult
  try dsimp only
  repeat' first
    | with_reducible apply Moves.refl
    | with_reducible apply Moves.ite
    | ((with_reducible apply Moves.call (State.setReg_moves _ _ _)); rfl)
    | (simp only [moves_mk]; refine Moves.record ?_)
    | with_reducible apply Moves.foldl
    | with_reducible apply Moves.foldl_snd
    | with_reducible apply Moves.ite_snd
    | with_reducible refine Moves.snd (by assumption) ?_
    | with_reducible intro _
    | dsimp only
    | split

theorem State.giveBack_moves (s sp bad) : Moves [.samples, .chans] s (State.giveBack s sp bad) := by
  unfold State.giveBack
  try dsimp only
  repeat' first
    | with_reducible apply Moves.refl
    | with_reducible apply Moves.ite
    | ((with_reducible apply Moves.call (State.onChan_moves _ _ _)); rfl)
    | ((with_reducible apply Moves.call (State.enterQ_moves _ _ _)); rfl)
    | ((with_reducible apply Moves.call (State.discardQ_moves _ _ _)); rfl)
    | (simp only [moves_mk]; refine Moves.record ?_)
    | with_reducible apply Moves.foldl
    | with_reducible apply Moves.foldl_snd
    | with_reducible apply Moves.ite_snd
    | with_reducible refine Moves.snd (by assumption) ?_
    | with_reducible intro _
    | dsimp only
    | split

end Sys2Proof.Machine
end

