-- ==== Sys2Proof/Laws/Moves8.lean ====
section
/-! SUPPORT. One lemma for each operation: the parts of the state it may change, and that it keeps what every operation keeps
(Laws/Moves). Part 8 of 8, in the order in which the operations call one another. -/

namespace Sys2Proof.Machine

open Sys2Proof

set_option linter.all false

-- One proof after the other: in parallel, each waits in a thread of its own for the same lemma of `simp only`.
set_option Elab.async false

theorem State.failChannel_moves (s ch cause) : Moves [.regs, .blobs, .egress, .counters, .samples, .log, .phase, .irqPending, .flash, .keyCaches, .guests, .requests, .lrc, .faults, .coherence, .streams, .chans, .dram, .groups, .out, .free] s (State.failChannel s ch cause) := by
  unfold State.failChannel
  try dsimp only
  repeat' first
    | with_reducible apply Moves.refl
    | with_reducible apply Moves.ite
    | ((with_reducible apply Moves.call (State.trainResult_moves _ _ _ _)); rfl)
    | ((with_reducible apply Moves.call (State.pprResult_moves _ _ _)); rfl)
    | ((with_reducible apply Moves.call (State.onChan_moves _ _ _)); rfl)
    | ((with_reducible apply Moves.call (State.memIrq_moves _ _)); rfl)
    | ((with_reducible apply Moves.call (State.log_moves _ _ _ _ _ _ _)); rfl)
    | ((with_reducible apply Moves.call (State.onGroup_moves _ _ _)); rfl)
    | ((with_reducible apply Moves.call (State.drainChan_moves _ _)); rfl)
    | ((with_reducible apply Moves.call (State.ladder_moves _ _ _)); rfl)
    | ((with_reducible apply Moves.call (State.startRebuild_moves _ _)); rfl)
    | ((with_reducible apply Moves.call (State.giveBack_moves _ _ _)); rfl)
    | ((with_reducible apply Moves.call (State.fatalLost_moves _ _)); rfl)
    | ((with_reducible apply Moves.call (State.resumeMem_moves _)); rfl)
    | (simp only [moves_mk]; refine Moves.record ?_)
    | with_reducible apply Moves.foldl
    | with_reducible apply Moves.foldl_snd
    | with_reducible apply Moves.ite_snd
    | with_reducible refine Moves.snd (by assumption) ?_
    | with_reducible intro _
    | dsimp only
    | split

theorem kernelOpen_moves (key cl s g) : Moves [.regs, .egress, .peers, .counters, .samples, .log, .irqPending, .keyCaches, .guests, .requests, .lrc, .tlbs, .faults, .coherence, .streams, .chans, .dram, .out, .free] s (kernelOpen key cl s g).2 := by
  unfold kernelOpen
  try dsimp only
  repeat' first
    | with_reducible apply Moves.refl
    | with_reducible apply Moves.ite
    | ((with_reducible apply Moves.call (State.readRange_moves _ _ _ _ _ _ _)); rfl)
    | (simp only [moves_mk]; refine Moves.record ?_)
    | with_reducible apply Moves.foldl
    | with_reducible apply Moves.foldl_snd
    | with_reducible apply Moves.ite_snd
    | with_reducible refine Moves.snd (by assumption) ?_
    | with_reducible intro _
    | dsimp only
    | split

theorem State.nextBack_moves (s r) : Moves [.regs, .counters, .irqPending, .requests, .faults, .streams, .waybills, .contexts] s (State.nextBack s r) := by
  unfold State.nextBack
  try dsimp only
  repeat' first
    | with_reducible apply Moves.refl
    | with_reducible apply Moves.ite
    | ((with_reducible apply Moves.call (State.onCtx_moves _ _ _)); rfl)
    | ((with_reducible apply Moves.call (State.unholdCtx_moves _ _)); rfl)
    | (simp only [moves_mk]; refine Moves.record ?_)
    | with_reducible apply Moves.foldl
    | with_reducible apply Moves.foldl_snd
    | with_reducible apply Moves.ite_snd
    | with_reducible refine Moves.snd (by assumption) ?_
    | with_reducible intro _
    | dsimp only
    | split

theorem State.writeBack_moves (s r) : Moves [.regs, .egress, .counters, .samples, .log, .irqPending, .keyCaches, .guests, .requests, .lrc, .tlbs, .faults, .coherence, .streams, .waybills, .contexts, .chans, .dram, .out, .free] s (State.writeBack s r).2 := by
  unfold State.writeBack
  try dsimp only
  repeat' first
    | with_reducible apply Moves.refl
    | with_reducible apply Moves.ite
    | ((with_reducible apply Moves.call (State.backGranule_moves _ _ _)); rfl)
    | ((with_reducible apply Moves.call (State.nextBack_moves _ _)); rfl)
    | (simp only [moves_mk]; refine Moves.record ?_)
    | with_reducible apply Moves.foldl
    | with_reducible apply Moves.foldl_snd
    | with_reducible apply Moves.ite_snd
    | with_reducible refine Moves.snd (by assumption) ?_
    | with_reducible intro _
    | dsimp only
    | split

theorem State.fwOpen_moves (s) : Moves [.regs, .free] s (State.fwOpen s) := by
  unfold State.fwOpen
  try dsimp only
  repeat' first
    | with_reducible apply Moves.refl
    | with_reducible apply Moves.ite
    | ((with_reducible apply Moves.call (State.useFree_moves _ _)); rfl)
    | ((with_reducible apply Moves.call (State.fwResult_moves _ _)); rfl)
    | (simp only [moves_mk]; refine Moves.record ?_)
    | with_reducible apply Moves.foldl
    | with_reducible apply Moves.foldl_snd
    | with_reducible apply Moves.ite_snd
    | with_reducible refine Moves.snd (by assumption) ?_
    | with_reducible intro _
    | dsimp only
    | split

theorem State.startWb_moves (s key) : Moves [.egress, .counters, .samples, .log, .irqPending, .guests, .requests, .streams, .waybills, .contexts, .out] s (State.startWb s key) := by
  unfold State.startWb
  try dsimp only
  repeat' first
    | with_reducible apply Moves.refl
    | with_reducible apply Moves.ite
    | ((with_reducible apply Moves.call (State.checkLate_moves _ _)); rfl)
    | ((with_reducible apply Moves.call (State.endEarly_moves _ _ _)); rfl)
    | ((with_reducible apply Moves.call (State.run_moves _ _)); rfl)
    | (simp only [moves_mk]; refine Moves.record ?_)
    | with_reducible apply Moves.foldl
    | with_reducible apply Moves.foldl_snd
    | with_reducible apply Moves.ite_snd
    | with_reducible refine Moves.snd (by assumption) ?_
    | with_reducible intro _
    | dsimp only
    | split

theorem State.targetFail_moves (s t cause) : Moves [.contacts, .ik] s (State.targetFail s t cause) := by
  unfold State.targetFail
  try dsimp only
  repeat' first
    | with_reducible apply Moves.refl
    | with_reducible apply Moves.ite
    | ((with_reducible apply Moves.call (State.failDie_moves _ _)); rfl)
    | ((with_reducible apply Moves.call (State.loseBoth_moves _)); rfl)
    | (simp only [moves_mk]; refine Moves.record ?_)
    | with_reducible apply Moves.foldl
    | with_reducible apply Moves.foldl_snd
    | with_reducible apply Moves.ite_snd
    | with_reducible refine Moves.snd (by assumption) ?_
    | with_reducible intro _
    | dsimp only
    | split

theorem State.verifyGroup_moves (s l) : Moves [.links, .egress, .gatehouses, .counters, .samples, .log, .phase, .irqPending, .requests, .out] s (State.verifyGroup s l) := by
  unfold State.verifyGroup
  try dsimp only
  repeat' first
    | with_reducible apply Moves.refl
    | with_reducible apply Moves.ite
    | ((with_reducible apply Moves.call (State.unpackGroup_moves _ _ _ _)); rfl)
    | ((with_reducible apply Moves.call (State.setLink_moves _ _ _)); rfl)
    | ((with_reducible apply Moves.call (State.countLink_moves _ _ _ _)); rfl)
    | ((with_reducible apply Moves.call (State.sendCtrl_moves _ _ _)); rfl)
    | ((with_reducible apply Moves.call (State.irqEdge_moves _ _)); rfl)
    | ((with_reducible apply Moves.call (State.linkDown_moves _ _ _ _)); rfl)
    | (simp only [moves_mk]; refine Moves.record ?_)
    | with_reducible apply Moves.foldl
    | with_reducible apply Moves.foldl_snd
    | with_reducible apply Moves.ite_snd
    | with_reducible refine Moves.snd (by assumption) ?_
    | with_reducible intro _
    | dsimp only
    | split

theorem State.applyFlit_moves (s l n f) : Moves [.links, .egress, .counters, .samples, .irqPending] s (State.applyFlit s l n f) := by
  unfold State.applyFlit
  try dsimp only
  repeat' first
    | with_reducible apply Moves.refl
    | with_reducible apply Moves.ite
    | ((with_reducible apply Moves.call (State.applyAudit_moves _ _ _ _)); rfl)
    | ((with_reducible apply Moves.call (State.applyHdr_moves _ _ _)); rfl)
    | ((with_reducible apply Moves.call (State.takeAux_moves _ _ _ _)); rfl)
    | (simp only [moves_mk]; refine Moves.record ?_)
    | with_reducible apply Moves.foldl
    | with_reducible apply Moves.foldl_snd
    | with_reducible apply Moves.ite_snd
    | with_reducible refine Moves.snd (by assumption) ?_
    | with_reducible intro _
    | dsimp only
    | split

theorem State.takeSeqFlit_moves (s l f) : Moves [.links, .egress, .gatehouses, .counters, .samples, .log, .phase, .irqPending, .requests, .out] s (State.takeSeqFlit s l f) := by
  unfold State.takeSeqFlit
  try dsimp only
  repeat' first
    | with_reducible apply Moves.refl
    | with_reducible apply Moves.ite
    | ((with_reducible apply Moves.call (State.onLink_moves _ _ _)); rfl)
    | ((with_reducible apply Moves.call (State.verifyGroup_moves _ _)); rfl)
    | ((with_reducible apply Moves.call (State.applyFlit_moves _ _ _ _)); rfl)
    | ((with_reducible apply Moves.call (State.countLink_moves _ _ _ _)); rfl)
    | (simp only [moves_mk]; refine Moves.record ?_)
    | with_reducible apply Moves.foldl
    | with_reducible apply Moves.foldl_snd
    | with_reducible apply Moves.ite_snd
    | with_reducible refine Moves.snd (by assumption) ?_
    | with_reducible intro _
    | dsimp only
    | split

theorem State.recvFlit_moves (s l f word next) : Moves [.night, .links, .egress, .gatehouses, .counters, .samples, .log, .phase, .irqPending, .requests, .out] s (State.recvFlit s l f word next) := by
  unfold State.recvFlit
  try dsimp only
  repeat' first
    | with_reducible apply Moves.refl
    | with_reducible apply Moves.ite
    | ((with_reducible apply Moves.call (State.countLink_moves _ _ _ _)); rfl)
    | ((with_reducible apply Moves.call (State.onLink_moves _ _ _)); rfl)
    | ((with_reducible apply Moves.call (State.askReplay_moves _ _)); rfl)
    | ((with_reducible apply Moves.call (State.applyHdr_moves _ _ _)); rfl)
    | ((with_reducible apply Moves.call (State.takeCtrl_moves _ _ _)); rfl)
    | ((with_reducible apply Moves.call (State.takeSeqFlit_moves _ _ _)); rfl)
    | (simp only [moves_mk]; refine Moves.record ?_)
    | with_reducible apply Moves.foldl
    | with_reducible apply Moves.foldl_snd
    | with_reducible apply Moves.ite_snd
    | with_reducible refine Moves.snd (by assumption) ?_
    | with_reducible intro _
    | dsimp only
    | split

theorem State.askStandby_moves (s l) : Moves [.links, .counters, .irqPending, .out] s (State.askStandby s l) := by
  unfold State.askStandby
  try dsimp only
  repeat' first
    | with_reducible apply Moves.refl
    | with_reducible apply Moves.ite
    | ((with_reducible apply Moves.call (State.onLink_moves _ _ _)); rfl)
    | ((with_reducible apply Moves.call (State.sendCtrl_moves _ _ _)); rfl)
    | ((with_reducible apply Moves.call (State.closeGroup_moves _ _)); rfl)
    | (simp only [moves_mk]; refine Moves.record ?_)
    | with_reducible apply Moves.foldl
    | with_reducible apply Moves.foldl_snd
    | with_reducible apply Moves.ite_snd
    | with_reducible refine Moves.snd (by assumption) ?_
    | with_reducible intro _
    | dsimp only
    | split

theorem State.sbStart_moves (s write lost answer) : Moves [.regs, .blobs, .counters, .irqPending, .buses, .out] s (State.sbStart s write lost answer) := by
  unfold State.sbStart
  try dsimp only
  repeat' first
    | with_reducible apply Moves.refl
    | with_reducible apply Moves.ite
    | ((with_reducible apply Moves.call (State.setReg_moves _ _ _)); rfl)
    | ((with_reducible apply Moves.call (State.countBus_moves _ _ _)); rfl)
    | ((with_reducible apply Moves.call (State.onBus_moves _ _ _)); rfl)
    | ((with_reducible apply Moves.call (State.sbTransfer_moves _ _ _)); rfl)
    | (simp only [moves_mk]; refine Moves.record ?_)
    | with_reducible apply Moves.foldl
    | with_reducible apply Moves.foldl_snd
    | with_reducible apply Moves.ite_snd
    | with_reducible refine Moves.snd (by assumption) ?_
    | with_reducible intro _
    | dsimp only
    | split

theorem State.startRebuilds_moves (s) : Moves [.blobs, .egress, .counters, .samples, .log, .phase, .irqPending, .flash, .guests, .requests, .streams, .chans, .groups, .out] s (State.startRebuilds s) := by
  unfold State.startRebuilds
  try dsimp only
  repeat' first
    | with_reducible apply Moves.refl
    | with_reducible apply Moves.ite
    | ((with_reducible apply Moves.call (State.ladder_moves _ _ _)); rfl)
    | ((with_reducible apply Moves.call (State.startRebuild_moves _ _)); rfl)
    | (simp only [moves_mk]; refine Moves.record ?_)
    | with_reducible apply Moves.foldl
    | with_reducible apply Moves.foldl_snd
    | with_reducible apply Moves.ite_snd
    | with_reducible refine Moves.snd (by assumption) ?_
    | with_reducible intro _
    | dsimp only
    | split

theorem State.bootIk_moves (s a slot otherOk) : Moves [.ik, .lifecycle, .firmware] s (State.bootIk s a slot otherOk) := by
  unfold State.bootIk
  try dsimp only
  repeat' first
    | with_reducible apply Moves.refl
    | with_reducible apply Moves.ite
    | ((with_reducible apply Moves.call (State.onIkd_moves _ _ _)); rfl)
    | (simp only [moves_mk]; refine Moves.record ?_)
    | with_reducible apply Moves.foldl
    | with_reducible apply Moves.foldl_snd
    | with_reducible apply Moves.ite_snd
    | with_reducible refine Moves.snd (by assumption) ?_
    | with_reducible intro _
    | dsimp only
    | split

theorem State.setQueue_moves (s gh q c) : Moves [.regs, .egress, .routes, .samples] s (State.setQueue s gh q c) := by
  unfold State.setQueue
  try dsimp only
  repeat' first
    | with_reducible apply Moves.refl
    | with_reducible apply Moves.ite
    | ((with_reducible apply Moves.call (State.queueResult_moves _ _)); rfl)
    | ((with_reducible apply Moves.call (State.putQueue_moves _ _ _ _)); rfl)
    | ((with_reducible apply Moves.call (State.emptyQueue_moves _ _ _)); rfl)
    | (simp only [moves_mk]; refine Moves.record ?_)
    | with_reducible apply Moves.foldl
    | with_reducible apply Moves.foldl_snd
    | with_reducible apply Moves.ite_snd
    | with_reducible refine Moves.snd (by assumption) ?_
    | with_reducible intro _
    | dsimp only
    | split

theorem State.fetchFail_moves (s k status) : Moves [.regs, .egress, .counters, .samples, .irqPending, .requests, .faults, .streams, .waybills, .contexts] s (State.fetchFail s k status) := by
  unfold State.fetchFail
  try dsimp only
  repeat' first
    | with_reducible apply Moves.refl
    | with_reducible apply Moves.ite
    | ((with_reducible apply Moves.call (State.streamError_moves _ _ _)); rfl)
    | ((with_reducible apply Moves.call (State.unholdFetch_moves _ _)); rfl)
    | (simp only [moves_mk]; refine Moves.record ?_)
    | with_reducible apply Moves.foldl
    | with_reducible apply Moves.foldl_snd
    | with_reducible apply Moves.ite_snd
    | with_reducible refine Moves.snd (by assumption) ?_
    | with_reducible intro _
    | dsimp only
    | split

theorem State.purgeKey_moves (s gid) : Moves [.counters, .irqPending, .keyCaches] s (State.purgeKey s gid) := by
  unfold State.purgeKey
  try dsimp only
  repeat' first
    | with_reducible apply Moves.refl
    | with_reducible apply Moves.ite
    | ((with_reducible apply Moves.call (State.count_moves _ _ _ _ _)); rfl)
    | (simp only [moves_mk]; refine Moves.record ?_)
    | with_reducible apply Moves.foldl
    | with_reducible apply Moves.foldl_snd
    | with_reducible apply Moves.ite_snd
    | with_reducible refine Moves.snd (by assumption) ?_
    | with_reducible intro _
    | dsimp only
    | split

theorem State.destroyKey_moves (s gid) : Moves [.egress, .counters, .samples, .log, .irqPending, .keyCaches, .guests, .requests, .tlbs, .streams, .waybills, .chans, .dram, .out, .free] s (State.destroyKey s gid) := by
  unfold State.destroyKey
  try dsimp only
  repeat' first
    | with_reducible apply Moves.refl
    | with_reducible apply Moves.ite
    | ((with_reducible apply Moves.call (State.wcbWrite_moves _ _ _ _ _)); rfl)
    | ((with_reducible apply Moves.call (State.purgeKey_moves _ _)); rfl)
    | ((with_reducible apply Moves.call (State.onGuest_moves _ _ _)); rfl)
    | (simp only [moves_mk]; refine Moves.record ?_)
    | with_reducible apply Moves.foldl
    | with_reducible apply Moves.foldl_snd
    | with_reducible apply Moves.ite_snd
    | with_reducible refine Moves.snd (by assumption) ?_
    | with_reducible intro _
    | dsimp only
    | split

theorem State.tearOne_moves (s gid began) : Moves [.regs, .egress, .counters, .samples, .log, .irqPending, .keyCaches, .teardown, .guests, .requests, .lrc, .tables, .tlbs, .faults, .coherence, .rmap, .streams, .waybills, .tallies, .contexts, .layouts, .chans, .dram, .out, .free] s (State.tearOne s gid began) := by
  unfold State.tearOne
  try dsimp only
  repeat' first
    | with_reducible apply Moves.refl
    | with_reducible apply Moves.ite
    | ((with_reducible apply Moves.call (State.recallGuest_moves _ _)); rfl)
    | ((with_reducible apply Moves.call (State.drainLine_moves _ _ _)); rfl)
    | ((with_reducible apply Moves.call (State.endTeardown_moves _ _ _)); rfl)
    | ((with_reducible apply Moves.call (State.freeTables_moves _ _)); rfl)
    | ((with_reducible apply Moves.call (State.freeWork_moves _ _)); rfl)
    | ((with_reducible apply Moves.call (State.zeroFreed_moves _ _)); rfl)
    | ((with_reducible apply Moves.call (State.destroyKey_moves _ _)); rfl)
    | ((with_reducible apply Moves.call (State.sweepLrc_moves _ _)); rfl)
    | (simp only [moves_mk]; refine Moves.record ?_)
    | with_reducible apply Moves.foldl
    | with_reducible apply Moves.foldl_snd
    | with_reducible apply Moves.ite_snd
    | with_reducible refine Moves.snd (by assumption) ?_
    | with_reducible intro _
    | dsimp only
    | split

theorem kernel3_moves (key cl s g) : Moves [.regs, .egress, .peers, .counters, .samples, .log, .irqPending, .keyCaches, .guests, .requests, .lrc, .tlbs, .faults, .coherence, .streams, .waybills, .chans, .dram, .out, .free] s (kernel3 key cl s g).2 := by
  unfold kernel3
  try dsimp only
  repeat' first
    | with_reducible apply Moves.refl
    | with_reducible apply Moves.ite
    | ((with_reducible apply Moves.call (State.redLock_moves _ _ _ _ _ _)); rfl)
    | ((with_reducible apply Moves.call (State.readRange_moves _ _ _ _ _ _ _)); rfl)
    | ((with_reducible apply Moves.call (State.contribRead_moves _ _ _ _ _ _)); rfl)
    | (simp only [moves_mk]; refine Moves.record ?_)
    | with_reducible apply Moves.foldl
    | with_reducible apply Moves.foldl_snd
    | with_reducible apply Moves.ite_snd
    | with_reducible refine Moves.snd (by assumption) ?_
    | with_reducible intro _
    | dsimp only
    | split

theorem State.dropSnap_moves (s a) : Moves [.sessions] s (State.dropSnap s a) := by
  unfold State.dropSnap
  try dsimp only
  repeat' first
    | with_reducible apply Moves.refl
    | with_reducible apply Moves.ite
    | (simp only [moves_mk]; refine Moves.record ?_)
    | with_reducible apply Moves.foldl
    | with_reducible apply Moves.foldl_snd
    | with_reducible apply Moves.ite_snd
    | with_reducible refine Moves.snd (by assumption) ?_
    | with_reducible intro _
    | dsimp only
    | split

theorem State.rebuildRead_moves (s g m line) : Moves [.counters, .irqPending, .chans, .dram] s (State.rebuildRead s g m line).2 := by
  unfold State.rebuildRead
  try dsimp only
  repeat' first
    | with_reducible apply Moves.refl
    | with_reducible apply Moves.ite
    | ((with_reducible apply Moves.call (State.reconstruct_moves _ _ _ _ _)); rfl)
    | (simp only [moves_mk]; refine Moves.record ?_)
    | with_reducible apply Moves.foldl
    | with_reducible apply Moves.foldl_snd
    | with_reducible apply Moves.ite_snd
    | with_reducible refine Moves.snd (by assumption) ?_
    | with_reducible intro _
    | dsimp only
    | split

theorem kernel4_moves (key cl s g) : Moves [.regs, .egress, .peers, .counters, .samples, .log, .irqPending, .keyCaches, .guests, .requests, .lrc, .tlbs, .faults, .coherence, .streams, .chans, .dram, .out, .free] s (kernel4 key cl s g).2 := by
  unfold kernel4
  try dsimp only
  repeat' first
    | with_reducible apply Moves.refl
    | with_reducible apply Moves.ite
    | ((with_reducible apply Moves.call (State.readRange_moves _ _ _ _ _ _ _)); rfl)
    | (simp only [moves_mk]; refine Moves.record ?_)
    | with_reducible apply Moves.foldl
    | with_reducible apply Moves.foldl_snd
    | with_reducible apply Moves.ite_snd
    | with_reducible refine Moves.snd (by assumption) ?_
    | with_reducible intro _
    | dsimp only
    | split

theorem State.dispatch_moves (s key) : Moves [.egress, .counters, .samples, .log, .irqPending, .keyCaches, .guests, .requests, .streams, .waybills, .chans, .dram, .out, .free] s (State.dispatch s key) := by
  unfold State.dispatch
  try dsimp only
  repeat' first
    | with_reducible apply Moves.refl
    | with_reducible apply Moves.ite
    | ((with_reducible apply Moves.call (State.swapWb_moves _ _ _)); rfl)
    | ((with_reducible apply Moves.call (State.enterQ_moves _ _ _)); rfl)
    | ((with_reducible apply Moves.call (State.countCluster_moves _ _ _ _)); rfl)
    | ((with_reducible apply Moves.call (State.placeChunk_moves _ _ _ _ _)); rfl)
    | ((with_reducible apply Moves.call (State.touchGuest_moves _ _)); rfl)
    | (simp only [moves_mk]; refine Moves.record ?_)
    | with_reducible apply Moves.foldl
    | with_reducible apply Moves.foldl_snd
    | with_reducible apply Moves.ite_snd
    | with_reducible refine Moves.snd (by assumption) ?_
    | with_reducible intro _
    | dsimp only
    | split

theorem State.switchEnd_moves (s resumed) : Moves [.regs, .free] s (State.switchEnd s resumed) := by
  unfold State.switchEnd
  try dsimp only
  repeat' first
    | with_reducible apply Moves.refl
    | with_reducible apply Moves.ite
    | ((with_reducible apply Moves.call (State.useFree_moves _ _)); rfl)
    | ((with_reducible apply Moves.call (State.setReg_moves _ _ _)); rfl)
    | (simp only [moves_mk]; refine Moves.record ?_)
    | with_reducible apply Moves.foldl
    | with_reducible apply Moves.foldl_snd
    | with_reducible apply Moves.ite_snd
    | with_reducible refine Moves.snd (by assumption) ?_
    | with_reducible intro _
    | dsimp only
    | split

theorem State.trainCmd_moves (s cause) : Moves [.regs, .chans] s (State.trainCmd s cause) := by
  unfold State.trainCmd
  try dsimp only
  repeat' first
    | with_reducible apply Moves.refl
    | with_reducible apply Moves.ite
    | ((with_reducible apply Moves.call (State.setReg_moves _ _ _)); rfl)
    | ((with_reducible apply Moves.call (State.onChan_moves _ _ _)); rfl)
    | (simp only [moves_mk]; refine Moves.record ?_)
    | with_reducible apply Moves.foldl
    | with_reducible apply Moves.foldl_snd
    | with_reducible apply Moves.ite_snd
    | with_reducible refine Moves.snd (by assumption) ?_
    | with_reducible intro _
    | dsimp only
    | split

theorem State.wakeSource_moves (s bit cause) : Moves [.regs, .night, .links, .egress, .samples, .irqPending, .requests, .chans] s (State.wakeSource s bit cause) := by
  unfold State.wakeSource
  try dsimp only
  repeat' first
    | with_reducible apply Moves.refl
    | with_reducible apply Moves.ite
    | ((with_reducible apply Moves.call (State.wake_moves _ _)); rfl)
    | (simp only [moves_mk]; refine Moves.record ?_)
    | with_reducible apply Moves.foldl
    | with_reducible apply Moves.foldl_snd
    | with_reducible apply Moves.ite_snd
    | with_reducible refine Moves.snd (by assumption) ?_
    | with_reducible intro _
    | dsimp only
    | split

theorem State.unlockDebug_moves (s level) : Moves [.links, .sessions, .lifecycle, .entropy, .keys, .keyCaches, .debug, .guests, .lrc, .tlbs, .waybills] s (State.unlockDebug s level) := by
  unfold State.unlockDebug
  try dsimp only
  repeat' first
    | with_reducible apply Moves.refl
    | with_reducible apply Moves.ite
    | ((with_reducible apply Moves.call (State.purgeKeys_moves _)); rfl)
    | (simp only [moves_mk]; refine Moves.record ?_)
    | with_reducible apply Moves.foldl
    | with_reducible apply Moves.foldl_snd
    | with_reducible apply Moves.ite_snd
    | with_reducible refine Moves.snd (by assumption) ?_
    | with_reducible intro _
    | dsimp only
    | split

theorem State.takeSnap_moves (s a p v) : Moves [.sessions] s (State.takeSnap s a p v) := by
  unfold State.takeSnap
  try dsimp only
  repeat' first
    | with_reducible apply Moves.refl
    | with_reducible apply Moves.ite
    | (simp only [moves_mk]; refine Moves.record ?_)
    | with_reducible apply Moves.foldl
    | with_reducible apply Moves.foldl_snd
    | with_reducible apply Moves.ite_snd
    | with_reducible refine Moves.snd (by assumption) ?_
    | with_reducible intro _
    | dsimp only
    | split

theorem State.halt_moves (s st cause) : Moves [.links, .sessions, .lifecycle, .entropy, .keys, .keyCaches, .lrc, .tlbs, .waybills, .chans] s (State.halt s st cause) := by
  unfold State.halt
  try dsimp only
  repeat' first
    | with_reducible apply Moves.refl
    | with_reducible apply Moves.ite
    | ((with_reducible apply Moves.call (State.sleepChans_moves _)); rfl)
    | ((with_reducible apply Moves.call (State.stopLinks_moves _)); rfl)
    | ((with_reducible apply Moves.call (State.purgeKeys_moves _)); rfl)
    | (simp only [moves_mk]; refine Moves.record ?_)
    | with_reducible apply Moves.foldl
    | with_reducible apply Moves.foldl_snd
    | with_reducible apply Moves.ite_snd
    | with_reducible refine Moves.snd (by assumption) ?_
    | with_reducible intro _
    | dsimp only
    | split

theorem State.mixBytes_moves (s w pva bs) : Moves [.free] s (State.mixBytes s w pva bs).2 := by
  unfold State.mixBytes
  try dsimp only
  repeat' first
    | with_reducible apply Moves.refl
    | with_reducible apply Moves.ite
    | ((with_reducible apply Moves.call (State.useFree_moves _ _)); rfl)
    | (simp only [moves_mk]; refine Moves.record ?_)
    | with_reducible apply Moves.foldl
    | with_reducible apply Moves.foldl_snd
    | with_reducible apply Moves.ite_snd
    | with_reducible refine Moves.snd (by assumption) ?_
    | with_reducible intro _
    | dsimp only
    | split

theorem State.refresh_moves (s ch k rank ba queued) : Moves [.counters, .irqPending, .chans, .out] s (State.refresh s ch k rank ba queued) := by
  unfold State.refresh
  try dsimp only
  repeat' first
    | with_reducible apply Moves.refl
    | with_reducible apply Moves.ite
    | ((with_reducible apply Moves.call (State.onSub_moves _ _ _ _)); rfl)
    | ((with_reducible apply Moves.call (State.dramCmd_moves _ _ _ _ _)); rfl)
    | (simp only [moves_mk]; refine Moves.record ?_)
    | with_reducible apply Moves.foldl
    | with_reducible apply Moves.foldl_snd
    | with_reducible apply Moves.ite_snd
    | with_reducible refine Moves.snd (by assumption) ?_
    | with_reducible intro _
    | dsimp only
    | split

theorem State.resend_moves (s l n) : Moves [.links, .counters, .irqPending, .out] s (State.resend s l n) := by
  unfold State.resend
  try dsimp only
  repeat' first
    | with_reducible apply Moves.refl
    | with_reducible apply Moves.ite
    | ((with_reducible apply Moves.call (State.transmit_moves _ _ _ _)); rfl)
    | ((with_reducible apply Moves.call (State.onLink_moves _ _ _)); rfl)
    | (simp only [moves_mk]; refine Moves.record ?_)
    | with_reducible apply Moves.foldl
    | with_reducible apply Moves.foldl_snd
    | with_reducible apply Moves.ite_snd
    | with_reducible refine Moves.snd (by assumption) ?_
    | with_reducible intro _
    | dsimp only
    | split

theorem State.checkStripe_moves (s g p line) : Moves [.counters, .log, .irqPending, .chans, .dram, .groups, .out] s (State.checkStripe s g p line) := by
  unfold State.checkStripe
  try dsimp only
  repeat' first
    | with_reducible apply Moves.refl
    | with_reducible apply Moves.ite
    | ((with_reducible apply Moves.call (State.dataXor_moves _ _ _ _)); rfl)
    | ((with_reducible apply Moves.call (State.parityMade_moves _ _ _)); rfl)
    | ((with_reducible apply Moves.call (State.putLine_moves _ _ _ _ _)); rfl)
    | ((with_reducible apply Moves.call (State.memIrq_moves _ _)); rfl)
    | ((with_reducible apply Moves.call (State.log_moves _ _ _ _ _ _ _)); rfl)
    | (simp only [moves_mk]; refine Moves.record ?_)
    | with_reducible apply Moves.foldl
    | with_reducible apply Moves.foldl_snd
    | with_reducible apply Moves.ite_snd
    | with_reducible refine Moves.snd (by assumption) ?_
    | with_reducible intro _
    | dsimp only
    | split

theorem State.packageKeys_moves (s) : Moves [.reset, .entropy, .keys] s (State.packageKeys s) := by
  unfold State.packageKeys
  try dsimp only
  repeat' first
    | with_reducible apply Moves.refl
    | with_reducible apply Moves.ite
    | ((with_reducible apply Moves.call (State.draw_moves _ _)); rfl)
    | (simp only [moves_mk]; refine Moves.record ?_)
    | with_reducible apply Moves.foldl
    | with_reducible apply Moves.foldl_snd
    | with_reducible apply Moves.ite_snd
    | with_reducible refine Moves.snd (by assumption) ?_
    | with_reducible intro _
    | dsimp only
    | split

theorem State.keyxTake_moves (s l m) : Moves [.links] s (State.keyxTake s l m) := by
  unfold State.keyxTake
  try dsimp only
  repeat' first
    | with_reducible apply Moves.refl
    | with_reducible apply Moves.ite
    | ((with_reducible apply Moves.call (State.onLink_moves _ _ _)); rfl)
    | (simp only [moves_mk]; refine Moves.record ?_)
    | with_reducible apply Moves.foldl
    | with_reducible apply Moves.foldl_snd
    | with_reducible apply Moves.ite_snd
    | with_reducible refine Moves.snd (by assumption) ?_
    | with_reducible intro _
    | dsimp only
    | split

theorem State.changeMode_moves (s l) : Moves [.egress, .gatehouses] s (State.changeMode s l) := by
  unfold State.changeMode
  try dsimp only
  repeat' first
    | with_reducible apply Moves.refl
    | with_reducible apply Moves.ite
    | ((with_reducible apply Moves.call (State.onRun_moves _ _ _ _)); rfl)
    | ((with_reducible apply Moves.call (State.onEg_moves _ _ _)); rfl)
    | (simp only [moves_mk]; refine Moves.record ?_)
    | with_reducible apply Moves.foldl
    | with_reducible apply Moves.foldl_snd
    | with_reducible apply Moves.ite_snd
    | with_reducible refine Moves.snd (by assumption) ?_
    | with_reducible intro _
    | dsimp only
    | split

theorem State.startNext_moves (s l) : Moves [.links, .egress, .peers, .gatehouses, .counters, .samples, .irqPending, .requests, .out] s (State.startNext s l) := by
  unfold State.startNext
  try dsimp only
  repeat' first
    | with_reducible apply Moves.refl
    | with_reducible apply Moves.ite
    | ((with_reducible apply Moves.call (State.pickPacket_moves _ _)); rfl)
    | ((with_reducible apply Moves.call (State.changeMode_moves _ _)); rfl)
    | ((with_reducible apply Moves.call (State.startPacket_moves _ _ _ _)); rfl)
    | ((with_reducible apply Moves.call (State.formData_moves _ _)); rfl)
    | ((with_reducible apply Moves.call (State.nextFlit_moves _ _)); rfl)
    | (simp only [moves_mk]; refine Moves.record ?_)
    | with_reducible apply Moves.foldl
    | with_reducible apply Moves.foldl_snd
    | with_reducible apply Moves.ite_snd
    | with_reducible refine Moves.snd (by assumption) ?_
    | with_reducible intro _
    | dsimp only
    | split

theorem State.fetchAt_moves (s k pva len write) : Moves [.regs, .counters, .irqPending, .requests, .lrc, .tlbs, .faults, .streams, .waybills, .contexts] s (State.fetchAt s k pva len write).2 := by
  unfold State.fetchAt
  try dsimp only
  repeat' first
    | with_reducible apply Moves.refl
    | with_reducible apply Moves.ite
    | ((with_reducible apply Moves.call (State.porterXl_moves _ _ _ _ _)); rfl)
    | ((with_reducible apply Moves.call (State.holdFetch_moves _ _ _ _)); rfl)
    | ((with_reducible apply Moves.call (State.startFill_moves _ _ _ _ _)); rfl)
    | (simp only [moves_mk]; refine Moves.record ?_)
    | with_reducible apply Moves.foldl
    | with_reducible apply Moves.foldl_snd
    | with_reducible apply Moves.ite_snd
    | with_reducible refine Moves.snd (by assumption) ?_
    | with_reducible intro _
    | dsimp only
    | split

theorem State.accept_moves (s k w) : Moves [.regs, .egress, .counters, .samples, .log, .irqPending, .guests, .requests, .faults, .streams, .waybills, .contexts, .out] s (State.accept s k w) := by
  unfold State.accept
  try dsimp only
  repeat' first
    | with_reducible apply Moves.refl
    | with_reducible apply Moves.ite
    | ((with_reducible apply Moves.call (State.onStream_moves _ _ _)); rfl)
    | ((with_reducible apply Moves.call (State.unholdFetch_moves _ _)); rfl)
    | ((with_reducible apply Moves.call (State.countCluster_moves _ _ _ _)); rfl)
    | ((with_reducible apply Moves.call (State.onWb_moves _ _ _)); rfl)
    | ((with_reducible apply Moves.call (State.checkWb_moves _ _)); rfl)
    | (simp only [moves_mk]; refine Moves.record ?_)
    | with_reducible apply Moves.foldl
    | with_reducible apply Moves.foldl_snd
    | with_reducible apply Moves.ite_snd
    | with_reducible refine Moves.snd (by assumption) ?_
    | with_reducible intro _
    | dsimp only
    | split

theorem State.acceptWords_moves (s k ws) : Moves [.regs, .egress, .counters, .samples, .log, .irqPending, .guests, .requests, .lrc, .tlbs, .faults, .streams, .waybills, .contexts, .out] s (State.acceptWords s k ws) := by
  unfold State.acceptWords
  try dsimp only
  repeat' first
    | with_reducible apply Moves.refl
    | with_reducible apply Moves.ite
    | ((with_reducible apply Moves.call (State.fetchFail_moves _ _ _)); rfl)
    | ((with_reducible apply Moves.call (State.fetchAt_moves _ _ _ _ _)); rfl)
    | ((with_reducible apply Moves.call (State.accept_moves _ _ _)); rfl)
    | (simp only [moves_mk]; refine Moves.record ?_)
    | with_reducible apply Moves.foldl
    | with_reducible apply Moves.foldl_snd
    | with_reducible apply Moves.ite_snd
    | with_reducible refine Moves.snd (by assumption) ?_
    | with_reducible intro _
    | dsimp only
    | split

theorem State.fence_moves (s c) : Moves [.egress, .counters, .samples, .log, .irqPending, .keyCaches, .guests, .requests, .coherence, .streams, .chans, .dram, .out, .free] s (State.fence s c) := by
  unfold State.fence
  try dsimp only
  repeat' first
    | with_reducible apply Moves.refl
    | with_reducible apply Moves.ite
    | ((with_reducible apply Moves.call (State.hlose_moves _ _)); rfl)
    | ((with_reducible apply Moves.call (State.countLedger_moves _ _ _)); rfl)
    | ((with_reducible apply Moves.call (State.log_moves _ _ _ _ _ _ _)); rfl)
    | ((with_reducible apply Moves.call (State.irqEdge_moves _ _)); rfl)
    | ((with_reducible apply Moves.call (State.hfinish_moves _ _ _)); rfl)
    | ((with_reducible apply Moves.call (State.setDir_moves _ _ _)); rfl)
    | (simp only [moves_mk]; refine Moves.record ?_)
    | with_reducible apply Moves.foldl
    | with_reducible apply Moves.foldl_snd
    | with_reducible apply Moves.ite_snd
    | with_reducible refine Moves.snd (by assumption) ?_
    | with_reducible intro _
    | dsimp only
    | split

theorem State.expireGranule_moves (s key g h) : Moves [.regs, .egress, .counters, .samples, .log, .irqPending, .keyCaches, .guests, .requests, .faults, .coherence, .streams, .waybills, .contexts, .chans, .dram, .out, .free] s (State.expireGranule s key g h) := by
  unfold State.expireGranule
  try dsimp only
  repeat' first
    | with_reducible apply Moves.refl
    | with_reducible apply Moves.ite
    | ((with_reducible apply Moves.call (State.failAll_moves _ _ _)); rfl)
    | ((with_reducible apply Moves.call (State.unhold_moves _ _ _)); rfl)
    | ((with_reducible apply Moves.call (State.endSlice_moves _ _ _)); rfl)
    | ((with_reducible apply Moves.call (State.failElem_moves _ _ _ _ _ _)); rfl)
    | (simp only [moves_mk]; refine Moves.record ?_)
    | with_reducible apply Moves.foldl
    | with_reducible apply Moves.foldl_snd
    | with_reducible apply Moves.ite_snd
    | with_reducible refine Moves.snd (by assumption) ?_
    | with_reducible intro _
    | dsimp only
    | split

theorem State.bootLinks_moves (s) : Moves [.links, .egress, .gatehouses, .samples, .requests] s (State.bootLinks s) := by
  unfold State.bootLinks
  try dsimp only
  repeat' first
    | with_reducible apply Moves.refl
    | with_reducible apply Moves.ite
    | ((with_reducible apply Moves.call (State.toDetect_moves _ _)); rfl)
    | (simp only [moves_mk]; refine Moves.record ?_)
    | with_reducible apply Moves.foldl
    | with_reducible apply Moves.foldl_snd
    | with_reducible apply Moves.ite_snd
    | with_reducible refine Moves.snd (by assumption) ?_
    | with_reducible intro _
    | dsimp only
    | split

theorem State.writeHwmQueue_moves (s k v) : Moves [.regs, .samples] s (State.writeHwmQueue s k v) := by
  unfold State.writeHwmQueue
  try dsimp only
  repeat' first
    | with_reducible apply Moves.refl
    | with_reducible apply Moves.ite
    | ((with_reducible apply Moves.call (State.setReg_moves _ _ _)); rfl)
    | (simp only [moves_mk]; refine Moves.record ?_)
    | with_reducible apply Moves.foldl
    | with_reducible apply Moves.foldl_snd
    | with_reducible apply Moves.ite_snd
    | with_reducible refine Moves.snd (by assumption) ?_
    | with_reducible intro _
    | dsimp only
    | split

theorem State.bootCellar_moves (s dimms) : Moves [.chans, .map, .groups, .buses] s (State.bootCellar s dimms) := by
  unfold State.bootCellar
  try dsimp only
  repeat' first
    | with_reducible apply Moves.refl
    | with_reducible apply Moves.ite
    | (simp only [moves_mk]; refine Moves.record ?_)
    | with_reducible apply Moves.foldl
    | with_reducible apply Moves.foldl_snd
    | with_reducible apply Moves.ite_snd
    | with_reducible refine Moves.snd (by assumption) ?_
    | with_reducible intro _
    | dsimp only
    | split

theorem State.swapFetch_moves (s gid k) : Moves [.egress, .counters, .samples, .log, .irqPending, .keyCaches, .guests, .requests, .streams, .chans, .dram, .out, .free] s (State.swapFetch s gid k) := by
  unfold State.swapFetch
  try dsimp only
  repeat' first
    | with_reducible apply Moves.refl
    | with_reducible apply Moves.ite
    | ((with_reducible apply Moves.call (State.startSwap_moves _ _)); rfl)
    | (simp only [moves_mk]; refine Moves.record ?_)
    | with_reducible apply Moves.foldl
    | with_reducible apply Moves.foldl_snd
    | with_reducible apply Moves.ite_snd
    | with_reducible refine Moves.snd (by assumption) ?_
    | with_reducible intro _
    | dsimp only
    | split

theorem State.spillStream_moves (s k) : Moves [.egress, .counters, .samples, .log, .irqPending, .keyCaches, .guests, .requests, .streams, .chans, .dram, .out, .free] s (State.spillStream s k) := by
  unfold State.spillStream
  try dsimp only
  repeat' first
    | with_reducible apply Moves.refl
    | with_reducible apply Moves.ite
    | ((with_reducible apply Moves.call (State.onStream_moves _ _ _)); rfl)
    | ((with_reducible apply Moves.call (State.writeStream_moves _ _)); rfl)
    | (simp only [moves_mk]; refine Moves.record ?_)
    | with_reducible apply Moves.foldl
    | with_reducible apply Moves.foldl_snd
    | with_reducible apply Moves.ite_snd
    | with_reducible refine Moves.snd (by assumption) ?_
    | with_reducible intro _
    | dsimp only
    | split

theorem State.ringBells_moves (s k) : Moves [.regs, .egress, .counters, .samples, .log, .irqPending, .keyCaches, .guests, .requests, .lrc, .faults, .coherence, .streams, .chans, .dram, .out, .free] s (State.ringBells s k) := by
  unfold State.ringBells
  try dsimp only
  repeat' first
    | with_reducible apply Moves.refl
    | with_reducible apply Moves.ite
    | ((with_reducible apply Moves.call (State.leaveQ_moves _ _ _)); rfl)
    | ((with_reducible apply Moves.call (State.applyBell_moves _ _ _)); rfl)
    | ((with_reducible apply Moves.call (State.resume_moves _ _)); rfl)
    | (simp only [moves_mk]; refine Moves.record ?_)
    | with_reducible apply Moves.foldl
    | with_reducible apply Moves.foldl_snd
    | with_reducible apply Moves.ite_snd
    | with_reducible refine Moves.snd (by assumption) ?_
    | with_reducible intro _
    | dsimp only
    | split

theorem State.writeSamplePeriod_moves (s v) : Moves [.regs, .samples] s (State.writeSamplePeriod s v) := by
  unfold State.writeSamplePeriod
  try dsimp only
  repeat' first
    | with_reducible apply Moves.refl
    | with_reducible apply Moves.ite
    | ((with_reducible apply Moves.call (State.setReg_moves _ _ _)); rfl)
    | (simp only [moves_mk]; refine Moves.record ?_)
    | with_reducible apply Moves.foldl
    | with_reducible apply Moves.foldl_snd
    | with_reducible apply Moves.ite_snd
    | with_reducible refine Moves.snd (by assumption) ?_
    | with_reducible intro _
    | dsimp only
    | split

theorem State.offPower_moves (s aon) : Moves [.regs, .blobs, .forced, .timebase, .reset, .night, .clocks, .present, .thermal, .contacts, .links, .egress, .routes, .peers, .gatehouses, .counters, .captures, .samples, .log, .phase, .ik, .irqPending, .irqCores, .holes, .dictQueue, .sessions, .flash, .t1s, .lifecycle, .entropy, .keys, .keyCaches, .firmware, .debug, .teardown, .guests, .guestCmd, .requests, .set, .lrc, .tables, .tlbs, .commit, .faults, .coherence, .rmap, .streams, .waybills, .tallies, .contexts, .layouts, .chans, .map, .groups, .buses] s (State.offPower s aon) := by
  unfold State.offPower
  dsimp only
  simp only [moves_mk]
  exact Moves.record (Moves.refl _ _) (k_obs := fun _ => ⟨Nat.zero_le _, Nat.zero_le _, Nat.two_pow_pos 32, fun r hr => by cases hr⟩)

theorem State.endRepair_moves (s ch key hard) : Moves [.regs, .egress, .counters, .samples, .log, .irqPending, .keyCaches, .guests, .requests, .lrc, .faults, .coherence, .streams, .chans, .dram, .out, .free] s (State.endRepair s ch key hard) := by
  unfold State.endRepair
  try dsimp only
  repeat' first
    | with_reducible apply Moves.refl
    | with_reducible apply Moves.ite
    | ((with_reducible apply Moves.call (State.onChan_moves _ _ _)); rfl)
    | ((with_reducible apply Moves.call (State.resumeMem_moves _)); rfl)
    | ((with_reducible apply Moves.call (State.log_moves _ _ _ _ _ _ _)); rfl)
    | ((with_reducible apply Moves.call (State.pprResult_moves _ _ _)); rfl)
    | (simp only [moves_mk]; refine Moves.record ?_)
    | with_reducible apply Moves.foldl
    | with_reducible apply Moves.foldl_snd
    | with_reducible apply Moves.ite_snd
    | with_reducible refine Moves.snd (by assumption) ?_
    | with_reducible intro _
    | dsimp only
    | split

theorem State.storeObj_moves (s row k bs) : Moves [.regs, .blobs, .peers, .flash, .calOver, .waybills, .chans] s (State.storeObj s row k bs) := by
  unfold State.storeObj
  try dsimp only
  repeat' first
    | with_reducible apply Moves.refl
    | with_reducible apply Moves.ite
    | ((with_reducible apply Moves.call (State.setReg_moves _ _ _)); rfl)
    | ((with_reducible apply Moves.call (State.setBlob_moves _ _ _)); rfl)
    | ((with_reducible apply Moves.call (State.clearCounts_moves _ _)); rfl)
    | ((with_reducible apply Moves.call (State.openMin_moves _)); rfl)
    | ((with_reducible apply Moves.call (State.persist_moves _ _ _)); rfl)
    | (simp only [moves_mk]; refine Moves.record ?_)
    | with_reducible apply Moves.foldl
    | with_reducible apply Moves.foldl_snd
    | with_reducible apply Moves.ite_snd
    | with_reducible refine Moves.snd (by assumption) ?_
    | with_reducible intro _
    | dsimp only
    | split

theorem State.wantRetrain_moves (s ch cause) : Moves [.chans] s (State.wantRetrain s ch cause) := by
  unfold State.wantRetrain
  try dsimp only
  repeat' first
    | with_reducible apply Moves.refl
    | with_reducible apply Moves.ite
    | ((with_reducible apply Moves.call (State.onChan_moves _ _ _)); rfl)
    | (simp only [moves_mk]; refine Moves.record ?_)
    | with_reducible apply Moves.foldl
    | with_reducible apply Moves.foldl_snd
    | with_reducible apply Moves.ite_snd
    | with_reducible refine Moves.snd (by assumption) ?_
    | with_reducible intro _
    | dsimp only
    | split

theorem State.wakeChans_moves (s bad) : Moves [.regs, .blobs, .egress, .counters, .samples, .log, .phase, .irqPending, .flash, .keyCaches, .guests, .requests, .lrc, .faults, .coherence, .streams, .chans, .dram, .groups, .out, .free] s (State.wakeChans s bad) := by
  unfold State.wakeChans
  try dsimp only
  repeat' first
    | with_reducible apply Moves.refl
    | with_reducible apply Moves.ite
    | ((with_reducible apply Moves.call (State.onChan_moves _ _ _)); rfl)
    | ((with_reducible apply Moves.call (State.countChan_moves _ _ _ _)); rfl)
    | ((with_reducible apply Moves.call (State.failChannel_moves _ _ _)); rfl)
    | ((with_reducible apply Moves.call (State.trainResult_moves _ _ _ _)); rfl)
    | (simp only [moves_mk]; refine Moves.record ?_)
    | with_reducible apply Moves.foldl
    | with_reducible apply Moves.foldl_snd
    | with_reducible apply Moves.ite_snd
    | with_reducible refine Moves.snd (by assumption) ?_
    | with_reducible intro _
    | dsimp only
    | split

theorem State.drainAll_moves (s) : Moves [.egress, .counters, .samples, .log, .irqPending, .keyCaches, .guests, .requests, .streams, .chans, .dram, .out, .free] s (State.drainAll s) := by
  unfold State.drainAll
  try dsimp only
  repeat' first
    | with_reducible apply Moves.refl
    | with_reducible apply Moves.ite
    | ((with_reducible apply Moves.call (State.drainChan_moves _ _)); rfl)
    | ((with_reducible apply Moves.call (State.mergeDelta_moves _ _ _ _ _)); rfl)
    | ((with_reducible apply Moves.call (State.onChan_moves _ _ _)); rfl)
    | ((with_reducible apply Moves.call (State.drainParity_moves _ _ _)); rfl)
    | (simp only [moves_mk]; refine Moves.record ?_)
    | with_reducible apply Moves.foldl
    | with_reducible apply Moves.foldl_snd
    | with_reducible apply Moves.ite_snd
    | with_reducible refine Moves.snd (by assumption) ?_
    | with_reducible intro _
    | dsimp only
    | split

theorem State.guestPending_moves (s kind gid) : Moves [.regs, .egress, .counters, .samples, .irqPending, .guestCmd, .requests] s (State.guestPending s kind gid) := by
  unfold State.guestPending
  try dsimp only
  repeat' first
    | with_reducible apply Moves.refl
    | with_reducible apply Moves.ite
    | ((with_reducible apply Moves.call (State.distributeAll_moves _ _ _)); rfl)
    | ((with_reducible apply Moves.call (State.guestResult_moves _ _)); rfl)
    | (simp only [moves_mk]; refine Moves.record ?_)
    | with_reducible apply Moves.foldl
    | with_reducible apply Moves.foldl_snd
    | with_reducible apply Moves.ite_snd
    | with_reducible refine Moves.snd (by assumption) ?_
    | with_reducible intro _
    | dsimp only
    | split

theorem State.stopRest_moves (s) : Moves [.night, .links] s (State.stopRest s) := by
  unfold State.stopRest
  try dsimp only
  repeat' first
    | with_reducible apply Moves.refl
    | with_reducible apply Moves.ite
    | ((with_reducible apply Moves.call (State.onLink_moves _ _ _)); rfl)
    | (simp only [moves_mk]; refine Moves.record ?_)
    | with_reducible apply Moves.foldl
    | with_reducible apply Moves.foldl_snd
    | with_reducible apply Moves.ite_snd
    | with_reducible refine Moves.snd (by assumption) ?_
    | with_reducible intro _
    | dsimp only
    | split

theorem State.askAll_moves (s) : Moves [.links, .counters, .irqPending, .out] s (State.askAll s) := by
  unfold State.askAll
  try dsimp only
  repeat' first
    | with_reducible apply Moves.refl
    | with_reducible apply Moves.ite
    | ((with_reducible apply Moves.call (State.askStandby_moves _ _)); rfl)
    | (simp only [moves_mk]; refine Moves.record ?_)
    | with_reducible apply Moves.foldl
    | with_reducible apply Moves.foldl_snd
    | with_reducible apply Moves.ite_snd
    | with_reducible refine Moves.snd (by assumption) ?_
    | with_reducible intro _
    | dsimp only
    | split

theorem State.refSwitch_moves (s dest) : Moves [.clocks, .log, .irqPending, .out] s (State.refSwitch s dest) := by
  unfold State.refSwitch
  try dsimp only
  repeat' first
    | with_reducible apply Moves.refl
    | with_reducible apply Moves.ite
    | ((with_reducible apply Moves.call (State.log_moves _ _ _ _ _ _ _)); rfl)
    | ((with_reducible apply Moves.call (State.irqEdge_moves _ _)); rfl)
    | (simp only [moves_mk]; refine Moves.record ?_)
    | with_reducible apply Moves.foldl
    | with_reducible apply Moves.foldl_snd
    | with_reducible apply Moves.ite_snd
    | with_reducible refine Moves.snd (by assumption) ?_
    | with_reducible intro _
    | dsimp only
    | split

theorem State.showQueue_moves (s c) : Moves [.regs] s (State.showQueue s c) := by
  unfold State.showQueue
  try dsimp only
  repeat' first
    | with_reducible apply Moves.refl
    | with_reducible apply Moves.ite
    | ((with_reducible apply Moves.call (State.setReg_moves _ _ _)); rfl)
    | (simp only [moves_mk]; refine Moves.record ?_)
    | with_reducible apply Moves.foldl
    | with_reducible apply Moves.foldl_snd
    | with_reducible apply Moves.ite_snd
    | with_reducible refine Moves.snd (by assumption) ?_
    | with_reducible intro _
    | dsimp only
    | split

theorem State.readStream_moves (s k) : Moves [.egress, .counters, .samples, .log, .irqPending, .guests, .requests, .streams, .out] s (State.readStream s k) := by
  unfold State.readStream
  try dsimp only
  repeat' first
    | with_reducible apply Moves.refl
    | with_reducible apply Moves.ite
    | ((with_reducible apply Moves.call (State.guestFatal_moves _ _ _ _)); rfl)
    | (simp only [moves_mk]; refine Moves.record ?_)
    | with_reducible apply Moves.foldl
    | with_reducible apply Moves.foldl_snd
    | with_reducible apply Moves.ite_snd
    | with_reducible refine Moves.snd (by assumption) ?_
    | with_reducible intro _
    | dsimp only
    | split

theorem kernel1_moves (key cl s i) : Moves [.regs, .egress, .peers, .counters, .samples, .log, .irqPending, .keyCaches, .guests, .requests, .lrc, .tlbs, .faults, .coherence, .streams, .chans, .dram, .out, .free] s (kernel1 key cl s i).2 := by
  unfold kernel1
  try dsimp only
  repeat' first
    | with_reducible apply Moves.refl
    | with_reducible apply Moves.ite
    | ((with_reducible apply Moves.call (State.readRange_moves _ _ _ _ _ _ _)); rfl)
    | ((with_reducible apply Moves.call (State.mixBytes_moves _ _ _ _)); rfl)
    | ((with_reducible apply Moves.call (State.writeRanges_moves _ _ _ _ _)); rfl)
    | (simp only [moves_mk]; refine Moves.record ?_)
    | with_reducible apply Moves.foldl
    | with_reducible apply Moves.foldl_snd
    | with_reducible apply Moves.ite_snd
    | with_reducible refine Moves.snd (by assumption) ?_
    | with_reducible intro _
    | dsimp only
    | split

theorem State.endCtx_moves (s r x) : Moves [.egress, .counters, .samples, .irqPending, .requests, .waybills, .tallies, .contexts] s (State.endCtx s r x) := by
  unfold State.endCtx
  try dsimp only
  repeat' first
    | with_reducible apply Moves.refl
    | with_reducible apply Moves.ite
    | ((with_reducible apply Moves.call (State.freeStage_moves _ _)); rfl)
    | ((with_reducible apply Moves.call (State.addTally_moves _ _ _)); rfl)
    | ((with_reducible apply Moves.call (State.closeChunk_moves _ _ _)); rfl)
    | ((with_reducible apply Moves.call (State.onWb_moves _ _ _)); rfl)
    | (simp only [moves_mk]; refine Moves.record ?_)
    | with_reducible apply Moves.foldl
    | with_reducible apply Moves.foldl_snd
    | with_reducible apply Moves.ite_snd
    | with_reducible refine Moves.snd (by assumption) ?_
    | with_reducible intro _
    | dsimp only
    | split

theorem State.serveRead_moves {ps} (k : Part.within [.sessions] ps = true) (s a p row) : Served.Fr ps s (State.serveRead s a p row) := by
  unfold State.serveRead
  dsimp only
  split
  · exact Moves.refl _ _
  · refine Moves.mono (qs := [.sessions]) ?_ k
    repeat' first
      | with_reducible apply Moves.refl
      | with_reducible apply Moves.ite
      | ((with_reducible apply Moves.call (State.takeSnap_moves _ _ _ _)); rfl)
      | ((with_reducible apply Moves.call (State.dropSnap_moves _ _)); rfl)

end Sys2Proof.Machine
end

