-- ==== Sys2Proof/Laws/State.lean ====
section
/-! SUPPORT. What each field of the state and each object reads after an update: one rewriting rule for each update and field. -/

namespace Sys2Proof.Machine

open Sys2Proof

/-! ## Objects -/

@[simp] theorem State.reg_setReg (s : State) (k k' v : Nat) : (s.setReg k v).reg k' = if k' = k then v else s.reg k' := by
  simp [State.reg, State.setReg]

@[simp] theorem State.blob_setReg (s : State) (k k' v : Nat) : (s.setReg k v).blob k' = s.blob k' := rfl

@[simp] theorem State.blob_setBlob (s : State) (k k' : Nat) (v : Bytes) : (s.setBlob k v).blob k' = if k' = k then v else s.blob k' := by
  simp [State.blob, State.setBlob]

@[simp] theorem State.reg_setBlob (s : State) (k k' : Nat) (v : Bytes) : (s.setBlob k v).reg k' = s.reg k' := rfl

theorem State.reg_congr {s t : State} (h : t.regs = s.regs) (k : Nat) : t.reg k = s.reg k := by simp [State.reg, h]

/-! ## Fields -/

theorem State.countN_form (s : State) (d inst ev sel n : Nat) : ∃ o q, s.countN d inst ev sel n = { s with obs := o, irq := q } := by
  unfold State.countN
  split
  · exact ⟨s.obs, s.irq, rfl⟩
  · dsimp only
    split
    · exact ⟨_, _, rfl⟩
    · exact ⟨_, _, rfl⟩

theorem State.log_form (s : State) (ty die w2 w3 w4 w5 : Nat) : ∃ o u, s.log ty die w2 w3 w4 w5 = { s with obs := o, out := u } := by
  have append : ∀ e, ∃ o u, State.log.appendLog s e = { s with obs := o, out := u } := by
    intro e
    unfold State.log.appendLog
    dsimp only
    split
    · exact ⟨_, _, rfl⟩
    · exact ⟨_, _, rfl⟩
  unfold State.log
  dsimp only
  split
  · split
    · exact ⟨_, _, rfl⟩
    · exact append _
  · exact append _

@[simp] theorem State.setReg_pending (s k v) : (State.setReg s k v).pending = s.pending := rfl
@[simp] theorem State.setReg_blobs (s k v) : (State.setReg s k v).blobs = s.blobs := rfl
@[simp] theorem State.setReg_forced (s k v) : (State.setReg s k v).forced = s.forced := rfl
@[simp] theorem State.setReg_power (s k v) : (State.setReg s k v).power = s.power := rfl
@[simp] theorem State.setReg_fabric (s k v) : (State.setReg s k v).fabric = s.fabric := rfl
@[simp] theorem State.setReg_obs (s k v) : (State.setReg s k v).obs = s.obs := rfl
@[simp] theorem State.setReg_ik (s k v) : (State.setReg s k v).ik = s.ik := rfl
@[simp] theorem State.setReg_irq (s k v) : (State.setReg s k v).irq = s.irq := rfl
@[simp] theorem State.setReg_holes (s k v) : (State.setReg s k v).holes = s.holes := rfl
@[simp] theorem State.setReg_dict (s k v) : (State.setReg s k v).dict = s.dict := rfl
@[simp] theorem State.setReg_sec (s k v) : (State.setReg s k v).sec = s.sec := rfl
@[simp] theorem State.setReg_pool (s k v) : (State.setReg s k v).pool = s.pool := rfl
@[simp] theorem State.setReg_trans (s k v) : (State.setReg s k v).trans = s.trans := rfl
@[simp] theorem State.setReg_hearth (s k v) : (State.setReg s k v).hearth = s.hearth := rfl
@[simp] theorem State.setReg_work (s k v) : (State.setReg s k v).work = s.work := rfl
@[simp] theorem State.setReg_cellar (s k v) : (State.setReg s k v).cellar = s.cellar := rfl
@[simp] theorem State.setReg_out (s k v) : (State.setReg s k v).out = s.out := rfl
@[simp] theorem State.setReg_freeCount (s k v) : (State.setReg s k v).freeCount = s.freeCount := rfl

@[simp] theorem State.setBlob_pending (s k v) : (State.setBlob s k v).pending = s.pending := rfl
@[simp] theorem State.setBlob_regs (s k v) : (State.setBlob s k v).regs = s.regs := rfl
@[simp] theorem State.setBlob_forced (s k v) : (State.setBlob s k v).forced = s.forced := rfl
@[simp] theorem State.setBlob_power (s k v) : (State.setBlob s k v).power = s.power := rfl
@[simp] theorem State.setBlob_fabric (s k v) : (State.setBlob s k v).fabric = s.fabric := rfl
@[simp] theorem State.setBlob_obs (s k v) : (State.setBlob s k v).obs = s.obs := rfl
@[simp] theorem State.setBlob_ik (s k v) : (State.setBlob s k v).ik = s.ik := rfl
@[simp] theorem State.setBlob_irq (s k v) : (State.setBlob s k v).irq = s.irq := rfl
@[simp] theorem State.setBlob_holes (s k v) : (State.setBlob s k v).holes = s.holes := rfl
@[simp] theorem State.setBlob_dict (s k v) : (State.setBlob s k v).dict = s.dict := rfl
@[simp] theorem State.setBlob_sec (s k v) : (State.setBlob s k v).sec = s.sec := rfl
@[simp] theorem State.setBlob_pool (s k v) : (State.setBlob s k v).pool = s.pool := rfl
@[simp] theorem State.setBlob_trans (s k v) : (State.setBlob s k v).trans = s.trans := rfl
@[simp] theorem State.setBlob_hearth (s k v) : (State.setBlob s k v).hearth = s.hearth := rfl
@[simp] theorem State.setBlob_work (s k v) : (State.setBlob s k v).work = s.work := rfl
@[simp] theorem State.setBlob_cellar (s k v) : (State.setBlob s k v).cellar = s.cellar := rfl
@[simp] theorem State.setBlob_out (s k v) : (State.setBlob s k v).out = s.out := rfl
@[simp] theorem State.setBlob_freeCount (s k v) : (State.setBlob s k v).freeCount = s.freeCount := rfl

@[simp] theorem State.emit_pending (s o) : (State.emit s o).pending = s.pending := rfl
@[simp] theorem State.emit_regs (s o) : (State.emit s o).regs = s.regs := rfl
@[simp] theorem State.emit_blobs (s o) : (State.emit s o).blobs = s.blobs := rfl
@[simp] theorem State.emit_forced (s o) : (State.emit s o).forced = s.forced := rfl
@[simp] theorem State.emit_power (s o) : (State.emit s o).power = s.power := rfl
@[simp] theorem State.emit_fabric (s o) : (State.emit s o).fabric = s.fabric := rfl
@[simp] theorem State.emit_obs (s o) : (State.emit s o).obs = s.obs := rfl
@[simp] theorem State.emit_ik (s o) : (State.emit s o).ik = s.ik := rfl
@[simp] theorem State.emit_irq (s o) : (State.emit s o).irq = s.irq := rfl
@[simp] theorem State.emit_holes (s o) : (State.emit s o).holes = s.holes := rfl
@[simp] theorem State.emit_dict (s o) : (State.emit s o).dict = s.dict := rfl
@[simp] theorem State.emit_sec (s o) : (State.emit s o).sec = s.sec := rfl
@[simp] theorem State.emit_pool (s o) : (State.emit s o).pool = s.pool := rfl
@[simp] theorem State.emit_trans (s o) : (State.emit s o).trans = s.trans := rfl
@[simp] theorem State.emit_hearth (s o) : (State.emit s o).hearth = s.hearth := rfl
@[simp] theorem State.emit_work (s o) : (State.emit s o).work = s.work := rfl
@[simp] theorem State.emit_cellar (s o) : (State.emit s o).cellar = s.cellar := rfl
@[simp] theorem State.emit_freeCount (s o) : (State.emit s o).freeCount = s.freeCount := rfl

@[simp] theorem State.useFree_pending (s n) : (State.useFree s n).pending = s.pending := rfl
@[simp] theorem State.useFree_regs (s n) : (State.useFree s n).regs = s.regs := rfl
@[simp] theorem State.useFree_blobs (s n) : (State.useFree s n).blobs = s.blobs := rfl
@[simp] theorem State.useFree_forced (s n) : (State.useFree s n).forced = s.forced := rfl
@[simp] theorem State.useFree_power (s n) : (State.useFree s n).power = s.power := rfl
@[simp] theorem State.useFree_fabric (s n) : (State.useFree s n).fabric = s.fabric := rfl
@[simp] theorem State.useFree_obs (s n) : (State.useFree s n).obs = s.obs := rfl
@[simp] theorem State.useFree_ik (s n) : (State.useFree s n).ik = s.ik := rfl
@[simp] theorem State.useFree_irq (s n) : (State.useFree s n).irq = s.irq := rfl
@[simp] theorem State.useFree_holes (s n) : (State.useFree s n).holes = s.holes := rfl
@[simp] theorem State.useFree_dict (s n) : (State.useFree s n).dict = s.dict := rfl
@[simp] theorem State.useFree_sec (s n) : (State.useFree s n).sec = s.sec := rfl
@[simp] theorem State.useFree_pool (s n) : (State.useFree s n).pool = s.pool := rfl
@[simp] theorem State.useFree_trans (s n) : (State.useFree s n).trans = s.trans := rfl
@[simp] theorem State.useFree_hearth (s n) : (State.useFree s n).hearth = s.hearth := rfl
@[simp] theorem State.useFree_work (s n) : (State.useFree s n).work = s.work := rfl
@[simp] theorem State.useFree_cellar (s n) : (State.useFree s n).cellar = s.cellar := rfl
@[simp] theorem State.useFree_out (s n) : (State.useFree s n).out = s.out := rfl

@[simp] theorem State.onLink_pending (s l f) : (State.onLink s l f).pending = s.pending := rfl
@[simp] theorem State.onLink_regs (s l f) : (State.onLink s l f).regs = s.regs := rfl
@[simp] theorem State.onLink_blobs (s l f) : (State.onLink s l f).blobs = s.blobs := rfl
@[simp] theorem State.onLink_forced (s l f) : (State.onLink s l f).forced = s.forced := rfl
@[simp] theorem State.onLink_power (s l f) : (State.onLink s l f).power = s.power := rfl
@[simp] theorem State.onLink_obs (s l f) : (State.onLink s l f).obs = s.obs := rfl
@[simp] theorem State.onLink_ik (s l f) : (State.onLink s l f).ik = s.ik := rfl
@[simp] theorem State.onLink_irq (s l f) : (State.onLink s l f).irq = s.irq := rfl
@[simp] theorem State.onLink_holes (s l f) : (State.onLink s l f).holes = s.holes := rfl
@[simp] theorem State.onLink_dict (s l f) : (State.onLink s l f).dict = s.dict := rfl
@[simp] theorem State.onLink_sec (s l f) : (State.onLink s l f).sec = s.sec := rfl
@[simp] theorem State.onLink_pool (s l f) : (State.onLink s l f).pool = s.pool := rfl
@[simp] theorem State.onLink_trans (s l f) : (State.onLink s l f).trans = s.trans := rfl
@[simp] theorem State.onLink_hearth (s l f) : (State.onLink s l f).hearth = s.hearth := rfl
@[simp] theorem State.onLink_work (s l f) : (State.onLink s l f).work = s.work := rfl
@[simp] theorem State.onLink_cellar (s l f) : (State.onLink s l f).cellar = s.cellar := rfl
@[simp] theorem State.onLink_out (s l f) : (State.onLink s l f).out = s.out := rfl
@[simp] theorem State.onLink_freeCount (s l f) : (State.onLink s l f).freeCount = s.freeCount := rfl

@[simp] theorem State.onChan_pending (s ch f) : (State.onChan s ch f).pending = s.pending := rfl
@[simp] theorem State.onChan_regs (s ch f) : (State.onChan s ch f).regs = s.regs := rfl
@[simp] theorem State.onChan_blobs (s ch f) : (State.onChan s ch f).blobs = s.blobs := rfl
@[simp] theorem State.onChan_forced (s ch f) : (State.onChan s ch f).forced = s.forced := rfl
@[simp] theorem State.onChan_power (s ch f) : (State.onChan s ch f).power = s.power := rfl
@[simp] theorem State.onChan_fabric (s ch f) : (State.onChan s ch f).fabric = s.fabric := rfl
@[simp] theorem State.onChan_obs (s ch f) : (State.onChan s ch f).obs = s.obs := rfl
@[simp] theorem State.onChan_ik (s ch f) : (State.onChan s ch f).ik = s.ik := rfl
@[simp] theorem State.onChan_irq (s ch f) : (State.onChan s ch f).irq = s.irq := rfl
@[simp] theorem State.onChan_holes (s ch f) : (State.onChan s ch f).holes = s.holes := rfl
@[simp] theorem State.onChan_dict (s ch f) : (State.onChan s ch f).dict = s.dict := rfl
@[simp] theorem State.onChan_sec (s ch f) : (State.onChan s ch f).sec = s.sec := rfl
@[simp] theorem State.onChan_pool (s ch f) : (State.onChan s ch f).pool = s.pool := rfl
@[simp] theorem State.onChan_trans (s ch f) : (State.onChan s ch f).trans = s.trans := rfl
@[simp] theorem State.onChan_hearth (s ch f) : (State.onChan s ch f).hearth = s.hearth := rfl
@[simp] theorem State.onChan_work (s ch f) : (State.onChan s ch f).work = s.work := rfl
@[simp] theorem State.onChan_out (s ch f) : (State.onChan s ch f).out = s.out := rfl
@[simp] theorem State.onChan_freeCount (s ch f) : (State.onChan s ch f).freeCount = s.freeCount := rfl

@[simp] theorem State.onGuest_pending (s gid f) : (State.onGuest s gid f).pending = s.pending := rfl
@[simp] theorem State.onGuest_regs (s gid f) : (State.onGuest s gid f).regs = s.regs := rfl
@[simp] theorem State.onGuest_blobs (s gid f) : (State.onGuest s gid f).blobs = s.blobs := rfl
@[simp] theorem State.onGuest_forced (s gid f) : (State.onGuest s gid f).forced = s.forced := rfl
@[simp] theorem State.onGuest_power (s gid f) : (State.onGuest s gid f).power = s.power := rfl
@[simp] theorem State.onGuest_fabric (s gid f) : (State.onGuest s gid f).fabric = s.fabric := rfl
@[simp] theorem State.onGuest_obs (s gid f) : (State.onGuest s gid f).obs = s.obs := rfl
@[simp] theorem State.onGuest_ik (s gid f) : (State.onGuest s gid f).ik = s.ik := rfl
@[simp] theorem State.onGuest_irq (s gid f) : (State.onGuest s gid f).irq = s.irq := rfl
@[simp] theorem State.onGuest_holes (s gid f) : (State.onGuest s gid f).holes = s.holes := rfl
@[simp] theorem State.onGuest_dict (s gid f) : (State.onGuest s gid f).dict = s.dict := rfl
@[simp] theorem State.onGuest_sec (s gid f) : (State.onGuest s gid f).sec = s.sec := rfl
@[simp] theorem State.onGuest_trans (s gid f) : (State.onGuest s gid f).trans = s.trans := rfl
@[simp] theorem State.onGuest_hearth (s gid f) : (State.onGuest s gid f).hearth = s.hearth := rfl
@[simp] theorem State.onGuest_work (s gid f) : (State.onGuest s gid f).work = s.work := rfl
@[simp] theorem State.onGuest_cellar (s gid f) : (State.onGuest s gid f).cellar = s.cellar := rfl
@[simp] theorem State.onGuest_out (s gid f) : (State.onGuest s gid f).out = s.out := rfl
@[simp] theorem State.onGuest_freeCount (s gid f) : (State.onGuest s gid f).freeCount = s.freeCount := rfl

@[simp] theorem State.onGroup_pending (s g f) : (State.onGroup s g f).pending = s.pending := rfl
@[simp] theorem State.onGroup_regs (s g f) : (State.onGroup s g f).regs = s.regs := rfl
@[simp] theorem State.onGroup_blobs (s g f) : (State.onGroup s g f).blobs = s.blobs := rfl
@[simp] theorem State.onGroup_forced (s g f) : (State.onGroup s g f).forced = s.forced := rfl
@[simp] theorem State.onGroup_power (s g f) : (State.onGroup s g f).power = s.power := rfl
@[simp] theorem State.onGroup_fabric (s g f) : (State.onGroup s g f).fabric = s.fabric := rfl
@[simp] theorem State.onGroup_obs (s g f) : (State.onGroup s g f).obs = s.obs := rfl
@[simp] theorem State.onGroup_ik (s g f) : (State.onGroup s g f).ik = s.ik := rfl
@[simp] theorem State.onGroup_irq (s g f) : (State.onGroup s g f).irq = s.irq := rfl
@[simp] theorem State.onGroup_holes (s g f) : (State.onGroup s g f).holes = s.holes := rfl
@[simp] theorem State.onGroup_dict (s g f) : (State.onGroup s g f).dict = s.dict := rfl
@[simp] theorem State.onGroup_sec (s g f) : (State.onGroup s g f).sec = s.sec := rfl
@[simp] theorem State.onGroup_pool (s g f) : (State.onGroup s g f).pool = s.pool := rfl
@[simp] theorem State.onGroup_trans (s g f) : (State.onGroup s g f).trans = s.trans := rfl
@[simp] theorem State.onGroup_hearth (s g f) : (State.onGroup s g f).hearth = s.hearth := rfl
@[simp] theorem State.onGroup_work (s g f) : (State.onGroup s g f).work = s.work := rfl
@[simp] theorem State.onGroup_out (s g f) : (State.onGroup s g f).out = s.out := rfl
@[simp] theorem State.onGroup_freeCount (s g f) : (State.onGroup s g f).freeCount = s.freeCount := rfl

@[simp] theorem State.onStream_pending (s k f) : (State.onStream s k f).pending = s.pending := rfl
@[simp] theorem State.onStream_regs (s k f) : (State.onStream s k f).regs = s.regs := rfl
@[simp] theorem State.onStream_blobs (s k f) : (State.onStream s k f).blobs = s.blobs := rfl
@[simp] theorem State.onStream_forced (s k f) : (State.onStream s k f).forced = s.forced := rfl
@[simp] theorem State.onStream_power (s k f) : (State.onStream s k f).power = s.power := rfl
@[simp] theorem State.onStream_fabric (s k f) : (State.onStream s k f).fabric = s.fabric := rfl
@[simp] theorem State.onStream_obs (s k f) : (State.onStream s k f).obs = s.obs := rfl
@[simp] theorem State.onStream_ik (s k f) : (State.onStream s k f).ik = s.ik := rfl
@[simp] theorem State.onStream_irq (s k f) : (State.onStream s k f).irq = s.irq := rfl
@[simp] theorem State.onStream_holes (s k f) : (State.onStream s k f).holes = s.holes := rfl
@[simp] theorem State.onStream_dict (s k f) : (State.onStream s k f).dict = s.dict := rfl
@[simp] theorem State.onStream_sec (s k f) : (State.onStream s k f).sec = s.sec := rfl
@[simp] theorem State.onStream_pool (s k f) : (State.onStream s k f).pool = s.pool := rfl
@[simp] theorem State.onStream_trans (s k f) : (State.onStream s k f).trans = s.trans := rfl
@[simp] theorem State.onStream_hearth (s k f) : (State.onStream s k f).hearth = s.hearth := rfl
@[simp] theorem State.onStream_cellar (s k f) : (State.onStream s k f).cellar = s.cellar := rfl
@[simp] theorem State.onStream_out (s k f) : (State.onStream s k f).out = s.out := rfl
@[simp] theorem State.onStream_freeCount (s k f) : (State.onStream s k f).freeCount = s.freeCount := rfl

@[simp] theorem State.onWb_pending (s key f) : (State.onWb s key f).pending = s.pending := rfl
@[simp] theorem State.onWb_regs (s key f) : (State.onWb s key f).regs = s.regs := rfl
@[simp] theorem State.onWb_blobs (s key f) : (State.onWb s key f).blobs = s.blobs := rfl
@[simp] theorem State.onWb_forced (s key f) : (State.onWb s key f).forced = s.forced := rfl
@[simp] theorem State.onWb_power (s key f) : (State.onWb s key f).power = s.power := rfl
@[simp] theorem State.onWb_fabric (s key f) : (State.onWb s key f).fabric = s.fabric := rfl
@[simp] theorem State.onWb_obs (s key f) : (State.onWb s key f).obs = s.obs := rfl
@[simp] theorem State.onWb_ik (s key f) : (State.onWb s key f).ik = s.ik := rfl
@[simp] theorem State.onWb_irq (s key f) : (State.onWb s key f).irq = s.irq := rfl
@[simp] theorem State.onWb_holes (s key f) : (State.onWb s key f).holes = s.holes := rfl
@[simp] theorem State.onWb_dict (s key f) : (State.onWb s key f).dict = s.dict := rfl
@[simp] theorem State.onWb_sec (s key f) : (State.onWb s key f).sec = s.sec := rfl
@[simp] theorem State.onWb_pool (s key f) : (State.onWb s key f).pool = s.pool := rfl
@[simp] theorem State.onWb_trans (s key f) : (State.onWb s key f).trans = s.trans := rfl
@[simp] theorem State.onWb_hearth (s key f) : (State.onWb s key f).hearth = s.hearth := rfl
@[simp] theorem State.onWb_cellar (s key f) : (State.onWb s key f).cellar = s.cellar := rfl
@[simp] theorem State.onWb_out (s key f) : (State.onWb s key f).out = s.out := rfl
@[simp] theorem State.onWb_freeCount (s key f) : (State.onWb s key f).freeCount = s.freeCount := rfl

@[simp] theorem State.onCtx_pending (s r f) : (State.onCtx s r f).pending = s.pending := rfl
@[simp] theorem State.onCtx_regs (s r f) : (State.onCtx s r f).regs = s.regs := rfl
@[simp] theorem State.onCtx_blobs (s r f) : (State.onCtx s r f).blobs = s.blobs := rfl
@[simp] theorem State.onCtx_forced (s r f) : (State.onCtx s r f).forced = s.forced := rfl
@[simp] theorem State.onCtx_power (s r f) : (State.onCtx s r f).power = s.power := rfl
@[simp] theorem State.onCtx_fabric (s r f) : (State.onCtx s r f).fabric = s.fabric := rfl
@[simp] theorem State.onCtx_obs (s r f) : (State.onCtx s r f).obs = s.obs := rfl
@[simp] theorem State.onCtx_ik (s r f) : (State.onCtx s r f).ik = s.ik := rfl
@[simp] theorem State.onCtx_irq (s r f) : (State.onCtx s r f).irq = s.irq := rfl
@[simp] theorem State.onCtx_holes (s r f) : (State.onCtx s r f).holes = s.holes := rfl
@[simp] theorem State.onCtx_dict (s r f) : (State.onCtx s r f).dict = s.dict := rfl
@[simp] theorem State.onCtx_sec (s r f) : (State.onCtx s r f).sec = s.sec := rfl
@[simp] theorem State.onCtx_pool (s r f) : (State.onCtx s r f).pool = s.pool := rfl
@[simp] theorem State.onCtx_trans (s r f) : (State.onCtx s r f).trans = s.trans := rfl
@[simp] theorem State.onCtx_hearth (s r f) : (State.onCtx s r f).hearth = s.hearth := rfl
@[simp] theorem State.onCtx_cellar (s r f) : (State.onCtx s r f).cellar = s.cellar := rfl
@[simp] theorem State.onCtx_out (s r f) : (State.onCtx s r f).out = s.out := rfl
@[simp] theorem State.onCtx_freeCount (s r f) : (State.onCtx s r f).freeCount = s.freeCount := rfl

@[simp] theorem State.onCluster_pending (s c f) : (State.onCluster s c f).pending = s.pending := rfl
@[simp] theorem State.onCluster_regs (s c f) : (State.onCluster s c f).regs = s.regs := rfl
@[simp] theorem State.onCluster_blobs (s c f) : (State.onCluster s c f).blobs = s.blobs := rfl
@[simp] theorem State.onCluster_forced (s c f) : (State.onCluster s c f).forced = s.forced := rfl
@[simp] theorem State.onCluster_power (s c f) : (State.onCluster s c f).power = s.power := rfl
@[simp] theorem State.onCluster_fabric (s c f) : (State.onCluster s c f).fabric = s.fabric := rfl
@[simp] theorem State.onCluster_obs (s c f) : (State.onCluster s c f).obs = s.obs := rfl
@[simp] theorem State.onCluster_ik (s c f) : (State.onCluster s c f).ik = s.ik := rfl
@[simp] theorem State.onCluster_irq (s c f) : (State.onCluster s c f).irq = s.irq := rfl
@[simp] theorem State.onCluster_holes (s c f) : (State.onCluster s c f).holes = s.holes := rfl
@[simp] theorem State.onCluster_dict (s c f) : (State.onCluster s c f).dict = s.dict := rfl
@[simp] theorem State.onCluster_sec (s c f) : (State.onCluster s c f).sec = s.sec := rfl
@[simp] theorem State.onCluster_pool (s c f) : (State.onCluster s c f).pool = s.pool := rfl
@[simp] theorem State.onCluster_trans (s c f) : (State.onCluster s c f).trans = s.trans := rfl
@[simp] theorem State.onCluster_hearth (s c f) : (State.onCluster s c f).hearth = s.hearth := rfl
@[simp] theorem State.onCluster_cellar (s c f) : (State.onCluster s c f).cellar = s.cellar := rfl
@[simp] theorem State.onCluster_out (s c f) : (State.onCluster s c f).out = s.out := rfl
@[simp] theorem State.onCluster_freeCount (s c f) : (State.onCluster s c f).freeCount = s.freeCount := rfl

@[simp] theorem State.onReq_pending (s t f) : (State.onReq s t f).pending = s.pending := rfl
@[simp] theorem State.onReq_regs (s t f) : (State.onReq s t f).regs = s.regs := rfl
@[simp] theorem State.onReq_blobs (s t f) : (State.onReq s t f).blobs = s.blobs := rfl
@[simp] theorem State.onReq_forced (s t f) : (State.onReq s t f).forced = s.forced := rfl
@[simp] theorem State.onReq_power (s t f) : (State.onReq s t f).power = s.power := rfl
@[simp] theorem State.onReq_fabric (s t f) : (State.onReq s t f).fabric = s.fabric := rfl
@[simp] theorem State.onReq_obs (s t f) : (State.onReq s t f).obs = s.obs := rfl
@[simp] theorem State.onReq_ik (s t f) : (State.onReq s t f).ik = s.ik := rfl
@[simp] theorem State.onReq_irq (s t f) : (State.onReq s t f).irq = s.irq := rfl
@[simp] theorem State.onReq_holes (s t f) : (State.onReq s t f).holes = s.holes := rfl
@[simp] theorem State.onReq_dict (s t f) : (State.onReq s t f).dict = s.dict := rfl
@[simp] theorem State.onReq_sec (s t f) : (State.onReq s t f).sec = s.sec := rfl
@[simp] theorem State.onReq_trans (s t f) : (State.onReq s t f).trans = s.trans := rfl
@[simp] theorem State.onReq_hearth (s t f) : (State.onReq s t f).hearth = s.hearth := rfl
@[simp] theorem State.onReq_work (s t f) : (State.onReq s t f).work = s.work := rfl
@[simp] theorem State.onReq_cellar (s t f) : (State.onReq s t f).cellar = s.cellar := rfl
@[simp] theorem State.onReq_out (s t f) : (State.onReq s t f).out = s.out := rfl
@[simp] theorem State.onReq_freeCount (s t f) : (State.onReq s t f).freeCount = s.freeCount := rfl

@[simp] theorem State.onBus_pending (s b f) : (State.onBus s b f).pending = s.pending := rfl
@[simp] theorem State.onBus_regs (s b f) : (State.onBus s b f).regs = s.regs := rfl
@[simp] theorem State.onBus_blobs (s b f) : (State.onBus s b f).blobs = s.blobs := rfl
@[simp] theorem State.onBus_forced (s b f) : (State.onBus s b f).forced = s.forced := rfl
@[simp] theorem State.onBus_power (s b f) : (State.onBus s b f).power = s.power := rfl
@[simp] theorem State.onBus_fabric (s b f) : (State.onBus s b f).fabric = s.fabric := rfl
@[simp] theorem State.onBus_obs (s b f) : (State.onBus s b f).obs = s.obs := rfl
@[simp] theorem State.onBus_ik (s b f) : (State.onBus s b f).ik = s.ik := rfl
@[simp] theorem State.onBus_irq (s b f) : (State.onBus s b f).irq = s.irq := rfl
@[simp] theorem State.onBus_holes (s b f) : (State.onBus s b f).holes = s.holes := rfl
@[simp] theorem State.onBus_dict (s b f) : (State.onBus s b f).dict = s.dict := rfl
@[simp] theorem State.onBus_sec (s b f) : (State.onBus s b f).sec = s.sec := rfl
@[simp] theorem State.onBus_pool (s b f) : (State.onBus s b f).pool = s.pool := rfl
@[simp] theorem State.onBus_trans (s b f) : (State.onBus s b f).trans = s.trans := rfl
@[simp] theorem State.onBus_hearth (s b f) : (State.onBus s b f).hearth = s.hearth := rfl
@[simp] theorem State.onBus_work (s b f) : (State.onBus s b f).work = s.work := rfl
@[simp] theorem State.onBus_out (s b f) : (State.onBus s b f).out = s.out := rfl
@[simp] theorem State.onBus_freeCount (s b f) : (State.onBus s b f).freeCount = s.freeCount := rfl

@[simp] theorem State.putRaw_pending (s ch line raw) : (State.putRaw s ch line raw).pending = s.pending := rfl
@[simp] theorem State.putRaw_regs (s ch line raw) : (State.putRaw s ch line raw).regs = s.regs := rfl
@[simp] theorem State.putRaw_blobs (s ch line raw) : (State.putRaw s ch line raw).blobs = s.blobs := rfl
@[simp] theorem State.putRaw_forced (s ch line raw) : (State.putRaw s ch line raw).forced = s.forced := rfl
@[simp] theorem State.putRaw_power (s ch line raw) : (State.putRaw s ch line raw).power = s.power := rfl
@[simp] theorem State.putRaw_fabric (s ch line raw) : (State.putRaw s ch line raw).fabric = s.fabric := rfl
@[simp] theorem State.putRaw_obs (s ch line raw) : (State.putRaw s ch line raw).obs = s.obs := rfl
@[simp] theorem State.putRaw_ik (s ch line raw) : (State.putRaw s ch line raw).ik = s.ik := rfl
@[simp] theorem State.putRaw_irq (s ch line raw) : (State.putRaw s ch line raw).irq = s.irq := rfl
@[simp] theorem State.putRaw_holes (s ch line raw) : (State.putRaw s ch line raw).holes = s.holes := rfl
@[simp] theorem State.putRaw_dict (s ch line raw) : (State.putRaw s ch line raw).dict = s.dict := rfl
@[simp] theorem State.putRaw_sec (s ch line raw) : (State.putRaw s ch line raw).sec = s.sec := rfl
@[simp] theorem State.putRaw_pool (s ch line raw) : (State.putRaw s ch line raw).pool = s.pool := rfl
@[simp] theorem State.putRaw_trans (s ch line raw) : (State.putRaw s ch line raw).trans = s.trans := rfl
@[simp] theorem State.putRaw_hearth (s ch line raw) : (State.putRaw s ch line raw).hearth = s.hearth := rfl
@[simp] theorem State.putRaw_work (s ch line raw) : (State.putRaw s ch line raw).work = s.work := rfl
@[simp] theorem State.putRaw_out (s ch line raw) : (State.putRaw s ch line raw).out = s.out := rfl
@[simp] theorem State.putRaw_freeCount (s ch line raw) : (State.putRaw s ch line raw).freeCount = s.freeCount := rfl

@[simp] theorem State.irqEdge_pending (s src) : (State.irqEdge s src).pending = s.pending := rfl
@[simp] theorem State.irqEdge_regs (s src) : (State.irqEdge s src).regs = s.regs := rfl
@[simp] theorem State.irqEdge_blobs (s src) : (State.irqEdge s src).blobs = s.blobs := rfl
@[simp] theorem State.irqEdge_forced (s src) : (State.irqEdge s src).forced = s.forced := rfl
@[simp] theorem State.irqEdge_power (s src) : (State.irqEdge s src).power = s.power := rfl
@[simp] theorem State.irqEdge_fabric (s src) : (State.irqEdge s src).fabric = s.fabric := rfl
@[simp] theorem State.irqEdge_obs (s src) : (State.irqEdge s src).obs = s.obs := rfl
@[simp] theorem State.irqEdge_ik (s src) : (State.irqEdge s src).ik = s.ik := rfl
@[simp] theorem State.irqEdge_holes (s src) : (State.irqEdge s src).holes = s.holes := rfl
@[simp] theorem State.irqEdge_dict (s src) : (State.irqEdge s src).dict = s.dict := rfl
@[simp] theorem State.irqEdge_sec (s src) : (State.irqEdge s src).sec = s.sec := rfl
@[simp] theorem State.irqEdge_pool (s src) : (State.irqEdge s src).pool = s.pool := rfl
@[simp] theorem State.irqEdge_trans (s src) : (State.irqEdge s src).trans = s.trans := rfl
@[simp] theorem State.irqEdge_hearth (s src) : (State.irqEdge s src).hearth = s.hearth := rfl
@[simp] theorem State.irqEdge_work (s src) : (State.irqEdge s src).work = s.work := rfl
@[simp] theorem State.irqEdge_cellar (s src) : (State.irqEdge s src).cellar = s.cellar := rfl
@[simp] theorem State.irqEdge_out (s src) : (State.irqEdge s src).out = s.out := rfl
@[simp] theorem State.irqEdge_freeCount (s src) : (State.irqEdge s src).freeCount = s.freeCount := rfl

@[simp] theorem State.countN_pending (s d inst ev sel n) : (State.countN s d inst ev sel n).pending = s.pending := by
  obtain ⟨o, q, h⟩ := State.countN_form s d inst ev sel n; rw [h]
@[simp] theorem State.countN_regs (s d inst ev sel n) : (State.countN s d inst ev sel n).regs = s.regs := by
  obtain ⟨o, q, h⟩ := State.countN_form s d inst ev sel n; rw [h]
@[simp] theorem State.countN_blobs (s d inst ev sel n) : (State.countN s d inst ev sel n).blobs = s.blobs := by
  obtain ⟨o, q, h⟩ := State.countN_form s d inst ev sel n; rw [h]
@[simp] theorem State.countN_forced (s d inst ev sel n) : (State.countN s d inst ev sel n).forced = s.forced := by
  obtain ⟨o, q, h⟩ := State.countN_form s d inst ev sel n; rw [h]
@[simp] theorem State.countN_power (s d inst ev sel n) : (State.countN s d inst ev sel n).power = s.power := by
  obtain ⟨o, q, h⟩ := State.countN_form s d inst ev sel n; rw [h]
@[simp] theorem State.countN_fabric (s d inst ev sel n) : (State.countN s d inst ev sel n).fabric = s.fabric := by
  obtain ⟨o, q, h⟩ := State.countN_form s d inst ev sel n; rw [h]
@[simp] theorem State.countN_ik (s d inst ev sel n) : (State.countN s d inst ev sel n).ik = s.ik := by
  obtain ⟨o, q, h⟩ := State.countN_form s d inst ev sel n; rw [h]
@[simp] theorem State.countN_holes (s d inst ev sel n) : (State.countN s d inst ev sel n).holes = s.holes := by
  obtain ⟨o, q, h⟩ := State.countN_form s d inst ev sel n; rw [h]
@[simp] theorem State.countN_dict (s d inst ev sel n) : (State.countN s d inst ev sel n).dict = s.dict := by
  obtain ⟨o, q, h⟩ := State.countN_form s d inst ev sel n; rw [h]
@[simp] theorem State.countN_sec (s d inst ev sel n) : (State.countN s d inst ev sel n).sec = s.sec := by
  obtain ⟨o, q, h⟩ := State.countN_form s d inst ev sel n; rw [h]
@[simp] theorem State.countN_pool (s d inst ev sel n) : (State.countN s d inst ev sel n).pool = s.pool := by
  obtain ⟨o, q, h⟩ := State.countN_form s d inst ev sel n; rw [h]
@[simp] theorem State.countN_trans (s d inst ev sel n) : (State.countN s d inst ev sel n).trans = s.trans := by
  obtain ⟨o, q, h⟩ := State.countN_form s d inst ev sel n; rw [h]
@[simp] theorem State.countN_hearth (s d inst ev sel n) : (State.countN s d inst ev sel n).hearth = s.hearth := by
  obtain ⟨o, q, h⟩ := State.countN_form s d inst ev sel n; rw [h]
@[simp] theorem State.countN_work (s d inst ev sel n) : (State.countN s d inst ev sel n).work = s.work := by
  obtain ⟨o, q, h⟩ := State.countN_form s d inst ev sel n; rw [h]
@[simp] theorem State.countN_cellar (s d inst ev sel n) : (State.countN s d inst ev sel n).cellar = s.cellar := by
  obtain ⟨o, q, h⟩ := State.countN_form s d inst ev sel n; rw [h]
@[simp] theorem State.countN_out (s d inst ev sel n) : (State.countN s d inst ev sel n).out = s.out := by
  obtain ⟨o, q, h⟩ := State.countN_form s d inst ev sel n; rw [h]
@[simp] theorem State.countN_freeCount (s d inst ev sel n) : (State.countN s d inst ev sel n).freeCount = s.freeCount := by
  obtain ⟨o, q, h⟩ := State.countN_form s d inst ev sel n; rw [h]

@[simp] theorem State.count_pending (s d inst ev sel) : (State.count s d inst ev sel).pending = s.pending := State.countN_pending _ _ _ _ _ _
@[simp] theorem State.count_regs (s d inst ev sel) : (State.count s d inst ev sel).regs = s.regs := State.countN_regs _ _ _ _ _ _
@[simp] theorem State.count_blobs (s d inst ev sel) : (State.count s d inst ev sel).blobs = s.blobs := State.countN_blobs _ _ _ _ _ _
@[simp] theorem State.count_forced (s d inst ev sel) : (State.count s d inst ev sel).forced = s.forced := State.countN_forced _ _ _ _ _ _
@[simp] theorem State.count_power (s d inst ev sel) : (State.count s d inst ev sel).power = s.power := State.countN_power _ _ _ _ _ _
@[simp] theorem State.count_fabric (s d inst ev sel) : (State.count s d inst ev sel).fabric = s.fabric := State.countN_fabric _ _ _ _ _ _
@[simp] theorem State.count_ik (s d inst ev sel) : (State.count s d inst ev sel).ik = s.ik := State.countN_ik _ _ _ _ _ _
@[simp] theorem State.count_holes (s d inst ev sel) : (State.count s d inst ev sel).holes = s.holes := State.countN_holes _ _ _ _ _ _
@[simp] theorem State.count_dict (s d inst ev sel) : (State.count s d inst ev sel).dict = s.dict := State.countN_dict _ _ _ _ _ _
@[simp] theorem State.count_sec (s d inst ev sel) : (State.count s d inst ev sel).sec = s.sec := State.countN_sec _ _ _ _ _ _
@[simp] theorem State.count_pool (s d inst ev sel) : (State.count s d inst ev sel).pool = s.pool := State.countN_pool _ _ _ _ _ _
@[simp] theorem State.count_trans (s d inst ev sel) : (State.count s d inst ev sel).trans = s.trans := State.countN_trans _ _ _ _ _ _
@[simp] theorem State.count_hearth (s d inst ev sel) : (State.count s d inst ev sel).hearth = s.hearth := State.countN_hearth _ _ _ _ _ _
@[simp] theorem State.count_work (s d inst ev sel) : (State.count s d inst ev sel).work = s.work := State.countN_work _ _ _ _ _ _
@[simp] theorem State.count_cellar (s d inst ev sel) : (State.count s d inst ev sel).cellar = s.cellar := State.countN_cellar _ _ _ _ _ _
@[simp] theorem State.count_out (s d inst ev sel) : (State.count s d inst ev sel).out = s.out := State.countN_out _ _ _ _ _ _
@[simp] theorem State.count_freeCount (s d inst ev sel) : (State.count s d inst ev sel).freeCount = s.freeCount := State.countN_freeCount _ _ _ _ _ _

@[simp] theorem State.countLink_pending (s l ev sel) : (State.countLink s l ev sel).pending = s.pending := State.countN_pending _ _ _ _ _ _
@[simp] theorem State.countLink_regs (s l ev sel) : (State.countLink s l ev sel).regs = s.regs := State.countN_regs _ _ _ _ _ _
@[simp] theorem State.countLink_blobs (s l ev sel) : (State.countLink s l ev sel).blobs = s.blobs := State.countN_blobs _ _ _ _ _ _
@[simp] theorem State.countLink_forced (s l ev sel) : (State.countLink s l ev sel).forced = s.forced := State.countN_forced _ _ _ _ _ _
@[simp] theorem State.countLink_power (s l ev sel) : (State.countLink s l ev sel).power = s.power := State.countN_power _ _ _ _ _ _
@[simp] theorem State.countLink_fabric (s l ev sel) : (State.countLink s l ev sel).fabric = s.fabric := State.countN_fabric _ _ _ _ _ _
@[simp] theorem State.countLink_ik (s l ev sel) : (State.countLink s l ev sel).ik = s.ik := State.countN_ik _ _ _ _ _ _
@[simp] theorem State.countLink_holes (s l ev sel) : (State.countLink s l ev sel).holes = s.holes := State.countN_holes _ _ _ _ _ _
@[simp] theorem State.countLink_dict (s l ev sel) : (State.countLink s l ev sel).dict = s.dict := State.countN_dict _ _ _ _ _ _
@[simp] theorem State.countLink_sec (s l ev sel) : (State.countLink s l ev sel).sec = s.sec := State.countN_sec _ _ _ _ _ _
@[simp] theorem State.countLink_pool (s l ev sel) : (State.countLink s l ev sel).pool = s.pool := State.countN_pool _ _ _ _ _ _
@[simp] theorem State.countLink_trans (s l ev sel) : (State.countLink s l ev sel).trans = s.trans := State.countN_trans _ _ _ _ _ _
@[simp] theorem State.countLink_hearth (s l ev sel) : (State.countLink s l ev sel).hearth = s.hearth := State.countN_hearth _ _ _ _ _ _
@[simp] theorem State.countLink_work (s l ev sel) : (State.countLink s l ev sel).work = s.work := State.countN_work _ _ _ _ _ _
@[simp] theorem State.countLink_cellar (s l ev sel) : (State.countLink s l ev sel).cellar = s.cellar := State.countN_cellar _ _ _ _ _ _
@[simp] theorem State.countLink_out (s l ev sel) : (State.countLink s l ev sel).out = s.out := State.countN_out _ _ _ _ _ _
@[simp] theorem State.countLink_freeCount (s l ev sel) : (State.countLink s l ev sel).freeCount = s.freeCount := State.countN_freeCount _ _ _ _ _ _

@[simp] theorem State.countChan_pending (s ch ev sel) : (State.countChan s ch ev sel).pending = s.pending := State.countN_pending _ _ _ _ _ _
@[simp] theorem State.countChan_regs (s ch ev sel) : (State.countChan s ch ev sel).regs = s.regs := State.countN_regs _ _ _ _ _ _
@[simp] theorem State.countChan_blobs (s ch ev sel) : (State.countChan s ch ev sel).blobs = s.blobs := State.countN_blobs _ _ _ _ _ _
@[simp] theorem State.countChan_forced (s ch ev sel) : (State.countChan s ch ev sel).forced = s.forced := State.countN_forced _ _ _ _ _ _
@[simp] theorem State.countChan_power (s ch ev sel) : (State.countChan s ch ev sel).power = s.power := State.countN_power _ _ _ _ _ _
@[simp] theorem State.countChan_fabric (s ch ev sel) : (State.countChan s ch ev sel).fabric = s.fabric := State.countN_fabric _ _ _ _ _ _
@[simp] theorem State.countChan_ik (s ch ev sel) : (State.countChan s ch ev sel).ik = s.ik := State.countN_ik _ _ _ _ _ _
@[simp] theorem State.countChan_holes (s ch ev sel) : (State.countChan s ch ev sel).holes = s.holes := State.countN_holes _ _ _ _ _ _
@[simp] theorem State.countChan_dict (s ch ev sel) : (State.countChan s ch ev sel).dict = s.dict := State.countN_dict _ _ _ _ _ _
@[simp] theorem State.countChan_sec (s ch ev sel) : (State.countChan s ch ev sel).sec = s.sec := State.countN_sec _ _ _ _ _ _
@[simp] theorem State.countChan_pool (s ch ev sel) : (State.countChan s ch ev sel).pool = s.pool := State.countN_pool _ _ _ _ _ _
@[simp] theorem State.countChan_trans (s ch ev sel) : (State.countChan s ch ev sel).trans = s.trans := State.countN_trans _ _ _ _ _ _
@[simp] theorem State.countChan_hearth (s ch ev sel) : (State.countChan s ch ev sel).hearth = s.hearth := State.countN_hearth _ _ _ _ _ _
@[simp] theorem State.countChan_work (s ch ev sel) : (State.countChan s ch ev sel).work = s.work := State.countN_work _ _ _ _ _ _
@[simp] theorem State.countChan_cellar (s ch ev sel) : (State.countChan s ch ev sel).cellar = s.cellar := State.countN_cellar _ _ _ _ _ _
@[simp] theorem State.countChan_out (s ch ev sel) : (State.countChan s ch ev sel).out = s.out := State.countN_out _ _ _ _ _ _
@[simp] theorem State.countChan_freeCount (s ch ev sel) : (State.countChan s ch ev sel).freeCount = s.freeCount := State.countN_freeCount _ _ _ _ _ _

@[simp] theorem State.countCluster_pending (s pc ev sel) : (State.countCluster s pc ev sel).pending = s.pending := State.countN_pending _ _ _ _ _ _
@[simp] theorem State.countCluster_regs (s pc ev sel) : (State.countCluster s pc ev sel).regs = s.regs := State.countN_regs _ _ _ _ _ _
@[simp] theorem State.countCluster_blobs (s pc ev sel) : (State.countCluster s pc ev sel).blobs = s.blobs := State.countN_blobs _ _ _ _ _ _
@[simp] theorem State.countCluster_forced (s pc ev sel) : (State.countCluster s pc ev sel).forced = s.forced := State.countN_forced _ _ _ _ _ _
@[simp] theorem State.countCluster_power (s pc ev sel) : (State.countCluster s pc ev sel).power = s.power := State.countN_power _ _ _ _ _ _
@[simp] theorem State.countCluster_fabric (s pc ev sel) : (State.countCluster s pc ev sel).fabric = s.fabric := State.countN_fabric _ _ _ _ _ _
@[simp] theorem State.countCluster_ik (s pc ev sel) : (State.countCluster s pc ev sel).ik = s.ik := State.countN_ik _ _ _ _ _ _
@[simp] theorem State.countCluster_holes (s pc ev sel) : (State.countCluster s pc ev sel).holes = s.holes := State.countN_holes _ _ _ _ _ _
@[simp] theorem State.countCluster_dict (s pc ev sel) : (State.countCluster s pc ev sel).dict = s.dict := State.countN_dict _ _ _ _ _ _
@[simp] theorem State.countCluster_sec (s pc ev sel) : (State.countCluster s pc ev sel).sec = s.sec := State.countN_sec _ _ _ _ _ _
@[simp] theorem State.countCluster_pool (s pc ev sel) : (State.countCluster s pc ev sel).pool = s.pool := State.countN_pool _ _ _ _ _ _
@[simp] theorem State.countCluster_trans (s pc ev sel) : (State.countCluster s pc ev sel).trans = s.trans := State.countN_trans _ _ _ _ _ _
@[simp] theorem State.countCluster_hearth (s pc ev sel) : (State.countCluster s pc ev sel).hearth = s.hearth := State.countN_hearth _ _ _ _ _ _
@[simp] theorem State.countCluster_work (s pc ev sel) : (State.countCluster s pc ev sel).work = s.work := State.countN_work _ _ _ _ _ _
@[simp] theorem State.countCluster_cellar (s pc ev sel) : (State.countCluster s pc ev sel).cellar = s.cellar := State.countN_cellar _ _ _ _ _ _
@[simp] theorem State.countCluster_out (s pc ev sel) : (State.countCluster s pc ev sel).out = s.out := State.countN_out _ _ _ _ _ _
@[simp] theorem State.countCluster_freeCount (s pc ev sel) : (State.countCluster s pc ev sel).freeCount = s.freeCount := State.countN_freeCount _ _ _ _ _ _

@[simp] theorem State.countIk_pending (s ev sel) : (State.countIk s ev sel).pending = s.pending := State.countN_pending _ _ _ _ _ _
@[simp] theorem State.countIk_regs (s ev sel) : (State.countIk s ev sel).regs = s.regs := State.countN_regs _ _ _ _ _ _
@[simp] theorem State.countIk_blobs (s ev sel) : (State.countIk s ev sel).blobs = s.blobs := State.countN_blobs _ _ _ _ _ _
@[simp] theorem State.countIk_forced (s ev sel) : (State.countIk s ev sel).forced = s.forced := State.countN_forced _ _ _ _ _ _
@[simp] theorem State.countIk_power (s ev sel) : (State.countIk s ev sel).power = s.power := State.countN_power _ _ _ _ _ _
@[simp] theorem State.countIk_fabric (s ev sel) : (State.countIk s ev sel).fabric = s.fabric := State.countN_fabric _ _ _ _ _ _
@[simp] theorem State.countIk_ik (s ev sel) : (State.countIk s ev sel).ik = s.ik := State.countN_ik _ _ _ _ _ _
@[simp] theorem State.countIk_holes (s ev sel) : (State.countIk s ev sel).holes = s.holes := State.countN_holes _ _ _ _ _ _
@[simp] theorem State.countIk_dict (s ev sel) : (State.countIk s ev sel).dict = s.dict := State.countN_dict _ _ _ _ _ _
@[simp] theorem State.countIk_sec (s ev sel) : (State.countIk s ev sel).sec = s.sec := State.countN_sec _ _ _ _ _ _
@[simp] theorem State.countIk_pool (s ev sel) : (State.countIk s ev sel).pool = s.pool := State.countN_pool _ _ _ _ _ _
@[simp] theorem State.countIk_trans (s ev sel) : (State.countIk s ev sel).trans = s.trans := State.countN_trans _ _ _ _ _ _
@[simp] theorem State.countIk_hearth (s ev sel) : (State.countIk s ev sel).hearth = s.hearth := State.countN_hearth _ _ _ _ _ _
@[simp] theorem State.countIk_work (s ev sel) : (State.countIk s ev sel).work = s.work := State.countN_work _ _ _ _ _ _
@[simp] theorem State.countIk_cellar (s ev sel) : (State.countIk s ev sel).cellar = s.cellar := State.countN_cellar _ _ _ _ _ _
@[simp] theorem State.countIk_out (s ev sel) : (State.countIk s ev sel).out = s.out := State.countN_out _ _ _ _ _ _
@[simp] theorem State.countIk_freeCount (s ev sel) : (State.countIk s ev sel).freeCount = s.freeCount := State.countN_freeCount _ _ _ _ _ _

@[simp] theorem State.log_pending (s ty die w2 w3 w4 w5) : (State.log s ty die w2 w3 w4 w5).pending = s.pending := by
  obtain ⟨o, u, h⟩ := State.log_form s ty die w2 w3 w4 w5; rw [h]
@[simp] theorem State.log_regs (s ty die w2 w3 w4 w5) : (State.log s ty die w2 w3 w4 w5).regs = s.regs := by
  obtain ⟨o, u, h⟩ := State.log_form s ty die w2 w3 w4 w5; rw [h]
@[simp] theorem State.log_blobs (s ty die w2 w3 w4 w5) : (State.log s ty die w2 w3 w4 w5).blobs = s.blobs := by
  obtain ⟨o, u, h⟩ := State.log_form s ty die w2 w3 w4 w5; rw [h]
@[simp] theorem State.log_forced (s ty die w2 w3 w4 w5) : (State.log s ty die w2 w3 w4 w5).forced = s.forced := by
  obtain ⟨o, u, h⟩ := State.log_form s ty die w2 w3 w4 w5; rw [h]
@[simp] theorem State.log_power (s ty die w2 w3 w4 w5) : (State.log s ty die w2 w3 w4 w5).power = s.power := by
  obtain ⟨o, u, h⟩ := State.log_form s ty die w2 w3 w4 w5; rw [h]
@[simp] theorem State.log_fabric (s ty die w2 w3 w4 w5) : (State.log s ty die w2 w3 w4 w5).fabric = s.fabric := by
  obtain ⟨o, u, h⟩ := State.log_form s ty die w2 w3 w4 w5; rw [h]
@[simp] theorem State.log_ik (s ty die w2 w3 w4 w5) : (State.log s ty die w2 w3 w4 w5).ik = s.ik := by
  obtain ⟨o, u, h⟩ := State.log_form s ty die w2 w3 w4 w5; rw [h]
@[simp] theorem State.log_irq (s ty die w2 w3 w4 w5) : (State.log s ty die w2 w3 w4 w5).irq = s.irq := by
  obtain ⟨o, u, h⟩ := State.log_form s ty die w2 w3 w4 w5; rw [h]
@[simp] theorem State.log_holes (s ty die w2 w3 w4 w5) : (State.log s ty die w2 w3 w4 w5).holes = s.holes := by
  obtain ⟨o, u, h⟩ := State.log_form s ty die w2 w3 w4 w5; rw [h]
@[simp] theorem State.log_dict (s ty die w2 w3 w4 w5) : (State.log s ty die w2 w3 w4 w5).dict = s.dict := by
  obtain ⟨o, u, h⟩ := State.log_form s ty die w2 w3 w4 w5; rw [h]
@[simp] theorem State.log_sec (s ty die w2 w3 w4 w5) : (State.log s ty die w2 w3 w4 w5).sec = s.sec := by
  obtain ⟨o, u, h⟩ := State.log_form s ty die w2 w3 w4 w5; rw [h]
@[simp] theorem State.log_pool (s ty die w2 w3 w4 w5) : (State.log s ty die w2 w3 w4 w5).pool = s.pool := by
  obtain ⟨o, u, h⟩ := State.log_form s ty die w2 w3 w4 w5; rw [h]
@[simp] theorem State.log_trans (s ty die w2 w3 w4 w5) : (State.log s ty die w2 w3 w4 w5).trans = s.trans := by
  obtain ⟨o, u, h⟩ := State.log_form s ty die w2 w3 w4 w5; rw [h]
@[simp] theorem State.log_hearth (s ty die w2 w3 w4 w5) : (State.log s ty die w2 w3 w4 w5).hearth = s.hearth := by
  obtain ⟨o, u, h⟩ := State.log_form s ty die w2 w3 w4 w5; rw [h]
@[simp] theorem State.log_work (s ty die w2 w3 w4 w5) : (State.log s ty die w2 w3 w4 w5).work = s.work := by
  obtain ⟨o, u, h⟩ := State.log_form s ty die w2 w3 w4 w5; rw [h]
@[simp] theorem State.log_cellar (s ty die w2 w3 w4 w5) : (State.log s ty die w2 w3 w4 w5).cellar = s.cellar := by
  obtain ⟨o, u, h⟩ := State.log_form s ty die w2 w3 w4 w5; rw [h]
@[simp] theorem State.log_freeCount (s ty die w2 w3 w4 w5) : (State.log s ty die w2 w3 w4 w5).freeCount = s.freeCount := by
  obtain ⟨o, u, h⟩ := State.log_form s ty die w2 w3 w4 w5; rw [h]

@[simp] theorem State.setLink_pending (s l k) : (State.setLink s l k).pending = s.pending := rfl
@[simp] theorem State.setLink_regs (s l k) : (State.setLink s l k).regs = s.regs := rfl
@[simp] theorem State.setLink_blobs (s l k) : (State.setLink s l k).blobs = s.blobs := rfl
@[simp] theorem State.setLink_forced (s l k) : (State.setLink s l k).forced = s.forced := rfl
@[simp] theorem State.setLink_power (s l k) : (State.setLink s l k).power = s.power := rfl
@[simp] theorem State.setLink_obs (s l k) : (State.setLink s l k).obs = s.obs := rfl
@[simp] theorem State.setLink_ik (s l k) : (State.setLink s l k).ik = s.ik := rfl
@[simp] theorem State.setLink_irq (s l k) : (State.setLink s l k).irq = s.irq := rfl
@[simp] theorem State.setLink_holes (s l k) : (State.setLink s l k).holes = s.holes := rfl
@[simp] theorem State.setLink_dict (s l k) : (State.setLink s l k).dict = s.dict := rfl
@[simp] theorem State.setLink_sec (s l k) : (State.setLink s l k).sec = s.sec := rfl
@[simp] theorem State.setLink_pool (s l k) : (State.setLink s l k).pool = s.pool := rfl
@[simp] theorem State.setLink_trans (s l k) : (State.setLink s l k).trans = s.trans := rfl
@[simp] theorem State.setLink_hearth (s l k) : (State.setLink s l k).hearth = s.hearth := rfl
@[simp] theorem State.setLink_work (s l k) : (State.setLink s l k).work = s.work := rfl
@[simp] theorem State.setLink_cellar (s l k) : (State.setLink s l k).cellar = s.cellar := rfl
@[simp] theorem State.setLink_out (s l k) : (State.setLink s l k).out = s.out := rfl
@[simp] theorem State.setLink_freeCount (s l k) : (State.setLink s l k).freeCount = s.freeCount := rfl

@[simp] theorem State.freeTracker_pending (s t) : (State.freeTracker s t).pending = s.pending := rfl
@[simp] theorem State.freeTracker_regs (s t) : (State.freeTracker s t).regs = s.regs := rfl
@[simp] theorem State.freeTracker_blobs (s t) : (State.freeTracker s t).blobs = s.blobs := rfl
@[simp] theorem State.freeTracker_forced (s t) : (State.freeTracker s t).forced = s.forced := rfl
@[simp] theorem State.freeTracker_power (s t) : (State.freeTracker s t).power = s.power := rfl
@[simp] theorem State.freeTracker_fabric (s t) : (State.freeTracker s t).fabric = s.fabric := rfl
@[simp] theorem State.freeTracker_obs (s t) : (State.freeTracker s t).obs = s.obs := rfl
@[simp] theorem State.freeTracker_ik (s t) : (State.freeTracker s t).ik = s.ik := rfl
@[simp] theorem State.freeTracker_irq (s t) : (State.freeTracker s t).irq = s.irq := rfl
@[simp] theorem State.freeTracker_holes (s t) : (State.freeTracker s t).holes = s.holes := rfl
@[simp] theorem State.freeTracker_dict (s t) : (State.freeTracker s t).dict = s.dict := rfl
@[simp] theorem State.freeTracker_sec (s t) : (State.freeTracker s t).sec = s.sec := rfl
@[simp] theorem State.freeTracker_trans (s t) : (State.freeTracker s t).trans = s.trans := rfl
@[simp] theorem State.freeTracker_hearth (s t) : (State.freeTracker s t).hearth = s.hearth := rfl
@[simp] theorem State.freeTracker_work (s t) : (State.freeTracker s t).work = s.work := rfl
@[simp] theorem State.freeTracker_cellar (s t) : (State.freeTracker s t).cellar = s.cellar := rfl
@[simp] theorem State.freeTracker_out (s t) : (State.freeTracker s t).out = s.out := rfl
@[simp] theorem State.freeTracker_freeCount (s t) : (State.freeTracker s t).freeCount = s.freeCount := rfl

@[simp] theorem State.putCtr_pending (s d c x) : (State.putCtr s d c x).pending = s.pending := rfl
@[simp] theorem State.putCtr_regs (s d c x) : (State.putCtr s d c x).regs = s.regs := rfl
@[simp] theorem State.putCtr_blobs (s d c x) : (State.putCtr s d c x).blobs = s.blobs := rfl
@[simp] theorem State.putCtr_forced (s d c x) : (State.putCtr s d c x).forced = s.forced := rfl
@[simp] theorem State.putCtr_power (s d c x) : (State.putCtr s d c x).power = s.power := rfl
@[simp] theorem State.putCtr_fabric (s d c x) : (State.putCtr s d c x).fabric = s.fabric := rfl
@[simp] theorem State.putCtr_ik (s d c x) : (State.putCtr s d c x).ik = s.ik := rfl
@[simp] theorem State.putCtr_irq (s d c x) : (State.putCtr s d c x).irq = s.irq := rfl
@[simp] theorem State.putCtr_holes (s d c x) : (State.putCtr s d c x).holes = s.holes := rfl
@[simp] theorem State.putCtr_dict (s d c x) : (State.putCtr s d c x).dict = s.dict := rfl
@[simp] theorem State.putCtr_sec (s d c x) : (State.putCtr s d c x).sec = s.sec := rfl
@[simp] theorem State.putCtr_pool (s d c x) : (State.putCtr s d c x).pool = s.pool := rfl
@[simp] theorem State.putCtr_trans (s d c x) : (State.putCtr s d c x).trans = s.trans := rfl
@[simp] theorem State.putCtr_hearth (s d c x) : (State.putCtr s d c x).hearth = s.hearth := rfl
@[simp] theorem State.putCtr_work (s d c x) : (State.putCtr s d c x).work = s.work := rfl
@[simp] theorem State.putCtr_cellar (s d c x) : (State.putCtr s d c x).cellar = s.cellar := rfl
@[simp] theorem State.putCtr_out (s d c x) : (State.putCtr s d c x).out = s.out := rfl
@[simp] theorem State.putCtr_freeCount (s d c x) : (State.putCtr s d c x).freeCount = s.freeCount := rfl

@[simp] theorem State.setReg_up (s k v) : (State.setReg s k v).up = s.up := rfl
@[simp] theorem State.setReg_halted (s k v) : (State.setReg s k v).halted = s.halted := rfl
@[simp] theorem State.setReg_running (s k v) : (State.setReg s k v).running = s.running := rfl
@[simp] theorem State.setReg_served (s k v) : (State.setReg s k v).served = s.served := rfl
@[simp] theorem State.setBlob_up (s k v) : (State.setBlob s k v).up = s.up := rfl
@[simp] theorem State.setBlob_halted (s k v) : (State.setBlob s k v).halted = s.halted := rfl
@[simp] theorem State.setBlob_running (s k v) : (State.setBlob s k v).running = s.running := rfl
@[simp] theorem State.setBlob_served (s k v) : (State.setBlob s k v).served = s.served := rfl
@[simp] theorem State.emit_up (s o) : (State.emit s o).up = s.up := rfl
@[simp] theorem State.emit_halted (s o) : (State.emit s o).halted = s.halted := rfl
@[simp] theorem State.emit_running (s o) : (State.emit s o).running = s.running := rfl
@[simp] theorem State.emit_served (s o) : (State.emit s o).served = s.served := rfl
@[simp] theorem State.useFree_up (s n) : (State.useFree s n).up = s.up := rfl
@[simp] theorem State.useFree_halted (s n) : (State.useFree s n).halted = s.halted := rfl
@[simp] theorem State.useFree_running (s n) : (State.useFree s n).running = s.running := rfl
@[simp] theorem State.useFree_served (s n) : (State.useFree s n).served = s.served := rfl
@[simp] theorem State.irqEdge_up (s src) : (State.irqEdge s src).up = s.up := rfl
@[simp] theorem State.irqEdge_halted (s src) : (State.irqEdge s src).halted = s.halted := rfl
@[simp] theorem State.irqEdge_running (s src) : (State.irqEdge s src).running = s.running := rfl
@[simp] theorem State.irqEdge_served (s src) : (State.irqEdge s src).served = s.served := rfl

theorem State.addFixed_form (s : State) (d c n : Nat) : ∃ o, s.addFixed d c n = { s with obs := o } := by
  unfold State.addFixed
  split
  · exact ⟨s.obs, rfl⟩
  · exact ⟨_, rfl⟩

@[simp] theorem State.addFixed_pending (s d c n) : (State.addFixed s d c n).pending = s.pending := by
  obtain ⟨o, h⟩ := State.addFixed_form s d c n; rw [h]
@[simp] theorem State.addFixed_regs (s d c n) : (State.addFixed s d c n).regs = s.regs := by
  obtain ⟨o, h⟩ := State.addFixed_form s d c n; rw [h]
@[simp] theorem State.addFixed_blobs (s d c n) : (State.addFixed s d c n).blobs = s.blobs := by
  obtain ⟨o, h⟩ := State.addFixed_form s d c n; rw [h]
@[simp] theorem State.addFixed_forced (s d c n) : (State.addFixed s d c n).forced = s.forced := by
  obtain ⟨o, h⟩ := State.addFixed_form s d c n; rw [h]
@[simp] theorem State.addFixed_power (s d c n) : (State.addFixed s d c n).power = s.power := by
  obtain ⟨o, h⟩ := State.addFixed_form s d c n; rw [h]
@[simp] theorem State.addFixed_fabric (s d c n) : (State.addFixed s d c n).fabric = s.fabric := by
  obtain ⟨o, h⟩ := State.addFixed_form s d c n; rw [h]
@[simp] theorem State.addFixed_ik (s d c n) : (State.addFixed s d c n).ik = s.ik := by
  obtain ⟨o, h⟩ := State.addFixed_form s d c n; rw [h]
@[simp] theorem State.addFixed_irq (s d c n) : (State.addFixed s d c n).irq = s.irq := by
  obtain ⟨o, h⟩ := State.addFixed_form s d c n; rw [h]
@[simp] theorem State.addFixed_holes (s d c n) : (State.addFixed s d c n).holes = s.holes := by
  obtain ⟨o, h⟩ := State.addFixed_form s d c n; rw [h]
@[simp] theorem State.addFixed_dict (s d c n) : (State.addFixed s d c n).dict = s.dict := by
  obtain ⟨o, h⟩ := State.addFixed_form s d c n; rw [h]
@[simp] theorem State.addFixed_sec (s d c n) : (State.addFixed s d c n).sec = s.sec := by
  obtain ⟨o, h⟩ := State.addFixed_form s d c n; rw [h]
@[simp] theorem State.addFixed_pool (s d c n) : (State.addFixed s d c n).pool = s.pool := by
  obtain ⟨o, h⟩ := State.addFixed_form s d c n; rw [h]
@[simp] theorem State.addFixed_trans (s d c n) : (State.addFixed s d c n).trans = s.trans := by
  obtain ⟨o, h⟩ := State.addFixed_form s d c n; rw [h]
@[simp] theorem State.addFixed_hearth (s d c n) : (State.addFixed s d c n).hearth = s.hearth := by
  obtain ⟨o, h⟩ := State.addFixed_form s d c n; rw [h]
@[simp] theorem State.addFixed_work (s d c n) : (State.addFixed s d c n).work = s.work := by
  obtain ⟨o, h⟩ := State.addFixed_form s d c n; rw [h]
@[simp] theorem State.addFixed_cellar (s d c n) : (State.addFixed s d c n).cellar = s.cellar := by
  obtain ⟨o, h⟩ := State.addFixed_form s d c n; rw [h]
@[simp] theorem State.addFixed_out (s d c n) : (State.addFixed s d c n).out = s.out := by
  obtain ⟨o, h⟩ := State.addFixed_form s d c n; rw [h]
@[simp] theorem State.addFixed_freeCount (s d c n) : (State.addFixed s d c n).freeCount = s.freeCount := by
  obtain ⟨o, h⟩ := State.addFixed_form s d c n; rw [h]

@[simp] theorem State.onEg_pending (s l f) : (State.onEg s l f).pending = s.pending := rfl
@[simp] theorem State.onEg_regs (s l f) : (State.onEg s l f).regs = s.regs := rfl
@[simp] theorem State.onEg_blobs (s l f) : (State.onEg s l f).blobs = s.blobs := rfl
@[simp] theorem State.onEg_forced (s l f) : (State.onEg s l f).forced = s.forced := rfl
@[simp] theorem State.onEg_power (s l f) : (State.onEg s l f).power = s.power := rfl
@[simp] theorem State.onEg_obs (s l f) : (State.onEg s l f).obs = s.obs := rfl
@[simp] theorem State.onEg_ik (s l f) : (State.onEg s l f).ik = s.ik := rfl
@[simp] theorem State.onEg_irq (s l f) : (State.onEg s l f).irq = s.irq := rfl
@[simp] theorem State.onEg_holes (s l f) : (State.onEg s l f).holes = s.holes := rfl
@[simp] theorem State.onEg_dict (s l f) : (State.onEg s l f).dict = s.dict := rfl
@[simp] theorem State.onEg_sec (s l f) : (State.onEg s l f).sec = s.sec := rfl
@[simp] theorem State.onEg_pool (s l f) : (State.onEg s l f).pool = s.pool := rfl
@[simp] theorem State.onEg_trans (s l f) : (State.onEg s l f).trans = s.trans := rfl
@[simp] theorem State.onEg_hearth (s l f) : (State.onEg s l f).hearth = s.hearth := rfl
@[simp] theorem State.onEg_work (s l f) : (State.onEg s l f).work = s.work := rfl
@[simp] theorem State.onEg_cellar (s l f) : (State.onEg s l f).cellar = s.cellar := rfl
@[simp] theorem State.onEg_out (s l f) : (State.onEg s l f).out = s.out := rfl
@[simp] theorem State.onEg_freeCount (s l f) : (State.onEg s l f).freeCount = s.freeCount := rfl

@[simp] theorem State.onRun_pending (s gh q f) : (State.onRun s gh q f).pending = s.pending := rfl
@[simp] theorem State.onRun_regs (s gh q f) : (State.onRun s gh q f).regs = s.regs := rfl
@[simp] theorem State.onRun_blobs (s gh q f) : (State.onRun s gh q f).blobs = s.blobs := rfl
@[simp] theorem State.onRun_forced (s gh q f) : (State.onRun s gh q f).forced = s.forced := rfl
@[simp] theorem State.onRun_power (s gh q f) : (State.onRun s gh q f).power = s.power := rfl
@[simp] theorem State.onRun_obs (s gh q f) : (State.onRun s gh q f).obs = s.obs := rfl
@[simp] theorem State.onRun_ik (s gh q f) : (State.onRun s gh q f).ik = s.ik := rfl
@[simp] theorem State.onRun_irq (s gh q f) : (State.onRun s gh q f).irq = s.irq := rfl
@[simp] theorem State.onRun_holes (s gh q f) : (State.onRun s gh q f).holes = s.holes := rfl
@[simp] theorem State.onRun_dict (s gh q f) : (State.onRun s gh q f).dict = s.dict := rfl
@[simp] theorem State.onRun_sec (s gh q f) : (State.onRun s gh q f).sec = s.sec := rfl
@[simp] theorem State.onRun_pool (s gh q f) : (State.onRun s gh q f).pool = s.pool := rfl
@[simp] theorem State.onRun_trans (s gh q f) : (State.onRun s gh q f).trans = s.trans := rfl
@[simp] theorem State.onRun_hearth (s gh q f) : (State.onRun s gh q f).hearth = s.hearth := rfl
@[simp] theorem State.onRun_work (s gh q f) : (State.onRun s gh q f).work = s.work := rfl
@[simp] theorem State.onRun_cellar (s gh q f) : (State.onRun s gh q f).cellar = s.cellar := rfl
@[simp] theorem State.onRun_out (s gh q f) : (State.onRun s gh q f).out = s.out := rfl
@[simp] theorem State.onRun_freeCount (s gh q f) : (State.onRun s gh q f).freeCount = s.freeCount := rfl

@[simp] theorem State.onSub_pending (s ch sub f) : (State.onSub s ch sub f).pending = s.pending := rfl
@[simp] theorem State.onSub_regs (s ch sub f) : (State.onSub s ch sub f).regs = s.regs := rfl
@[simp] theorem State.onSub_blobs (s ch sub f) : (State.onSub s ch sub f).blobs = s.blobs := rfl
@[simp] theorem State.onSub_forced (s ch sub f) : (State.onSub s ch sub f).forced = s.forced := rfl
@[simp] theorem State.onSub_power (s ch sub f) : (State.onSub s ch sub f).power = s.power := rfl
@[simp] theorem State.onSub_fabric (s ch sub f) : (State.onSub s ch sub f).fabric = s.fabric := rfl
@[simp] theorem State.onSub_obs (s ch sub f) : (State.onSub s ch sub f).obs = s.obs := rfl
@[simp] theorem State.onSub_ik (s ch sub f) : (State.onSub s ch sub f).ik = s.ik := rfl
@[simp] theorem State.onSub_irq (s ch sub f) : (State.onSub s ch sub f).irq = s.irq := rfl
@[simp] theorem State.onSub_holes (s ch sub f) : (State.onSub s ch sub f).holes = s.holes := rfl
@[simp] theorem State.onSub_dict (s ch sub f) : (State.onSub s ch sub f).dict = s.dict := rfl
@[simp] theorem State.onSub_sec (s ch sub f) : (State.onSub s ch sub f).sec = s.sec := rfl
@[simp] theorem State.onSub_pool (s ch sub f) : (State.onSub s ch sub f).pool = s.pool := rfl
@[simp] theorem State.onSub_trans (s ch sub f) : (State.onSub s ch sub f).trans = s.trans := rfl
@[simp] theorem State.onSub_hearth (s ch sub f) : (State.onSub s ch sub f).hearth = s.hearth := rfl
@[simp] theorem State.onSub_work (s ch sub f) : (State.onSub s ch sub f).work = s.work := rfl
@[simp] theorem State.onSub_out (s ch sub f) : (State.onSub s ch sub f).out = s.out := rfl
@[simp] theorem State.onSub_freeCount (s ch sub f) : (State.onSub s ch sub f).freeCount = s.freeCount := rfl

@[simp] theorem State.settleTrk_pending (s) : (State.settleTrk s).pending = s.pending := rfl
@[simp] theorem State.settleTrk_regs (s) : (State.settleTrk s).regs = s.regs := rfl
@[simp] theorem State.settleTrk_blobs (s) : (State.settleTrk s).blobs = s.blobs := rfl
@[simp] theorem State.settleTrk_forced (s) : (State.settleTrk s).forced = s.forced := rfl
@[simp] theorem State.settleTrk_power (s) : (State.settleTrk s).power = s.power := rfl
@[simp] theorem State.settleTrk_fabric (s) : (State.settleTrk s).fabric = s.fabric := rfl
@[simp] theorem State.settleTrk_obs (s) : (State.settleTrk s).obs = s.obs := rfl
@[simp] theorem State.settleTrk_ik (s) : (State.settleTrk s).ik = s.ik := rfl
@[simp] theorem State.settleTrk_irq (s) : (State.settleTrk s).irq = s.irq := rfl
@[simp] theorem State.settleTrk_holes (s) : (State.settleTrk s).holes = s.holes := rfl
@[simp] theorem State.settleTrk_dict (s) : (State.settleTrk s).dict = s.dict := rfl
@[simp] theorem State.settleTrk_sec (s) : (State.settleTrk s).sec = s.sec := rfl
@[simp] theorem State.settleTrk_trans (s) : (State.settleTrk s).trans = s.trans := rfl
@[simp] theorem State.settleTrk_hearth (s) : (State.settleTrk s).hearth = s.hearth := rfl
@[simp] theorem State.settleTrk_work (s) : (State.settleTrk s).work = s.work := rfl
@[simp] theorem State.settleTrk_cellar (s) : (State.settleTrk s).cellar = s.cellar := rfl
@[simp] theorem State.settleTrk_out (s) : (State.settleTrk s).out = s.out := rfl
@[simp] theorem State.settleTrk_freeCount (s) : (State.settleTrk s).freeCount = s.freeCount := rfl

@[simp] theorem State.loseSlots_pending (s key c) : (State.loseSlots s key c).pending = s.pending := rfl
@[simp] theorem State.loseSlots_regs (s key c) : (State.loseSlots s key c).regs = s.regs := rfl
@[simp] theorem State.loseSlots_blobs (s key c) : (State.loseSlots s key c).blobs = s.blobs := rfl
@[simp] theorem State.loseSlots_forced (s key c) : (State.loseSlots s key c).forced = s.forced := rfl
@[simp] theorem State.loseSlots_power (s key c) : (State.loseSlots s key c).power = s.power := rfl
@[simp] theorem State.loseSlots_fabric (s key c) : (State.loseSlots s key c).fabric = s.fabric := rfl
@[simp] theorem State.loseSlots_ik (s key c) : (State.loseSlots s key c).ik = s.ik := rfl
@[simp] theorem State.loseSlots_irq (s key c) : (State.loseSlots s key c).irq = s.irq := rfl
@[simp] theorem State.loseSlots_holes (s key c) : (State.loseSlots s key c).holes = s.holes := rfl
@[simp] theorem State.loseSlots_dict (s key c) : (State.loseSlots s key c).dict = s.dict := rfl
@[simp] theorem State.loseSlots_sec (s key c) : (State.loseSlots s key c).sec = s.sec := rfl
@[simp] theorem State.loseSlots_pool (s key c) : (State.loseSlots s key c).pool = s.pool := rfl
@[simp] theorem State.loseSlots_trans (s key c) : (State.loseSlots s key c).trans = s.trans := rfl
@[simp] theorem State.loseSlots_hearth (s key c) : (State.loseSlots s key c).hearth = s.hearth := rfl
@[simp] theorem State.loseSlots_work (s key c) : (State.loseSlots s key c).work = s.work := rfl
@[simp] theorem State.loseSlots_cellar (s key c) : (State.loseSlots s key c).cellar = s.cellar := rfl
@[simp] theorem State.loseSlots_out (s key c) : (State.loseSlots s key c).out = s.out := rfl
@[simp] theorem State.loseSlots_freeCount (s key c) : (State.loseSlots s key c).freeCount = s.freeCount := rfl

@[simp] theorem State.takeStage_pending (s kib) : (State.takeStage s kib).pending = s.pending := rfl
@[simp] theorem State.takeStage_regs (s kib) : (State.takeStage s kib).regs = s.regs := rfl
@[simp] theorem State.takeStage_blobs (s kib) : (State.takeStage s kib).blobs = s.blobs := rfl
@[simp] theorem State.takeStage_forced (s kib) : (State.takeStage s kib).forced = s.forced := rfl
@[simp] theorem State.takeStage_power (s kib) : (State.takeStage s kib).power = s.power := rfl
@[simp] theorem State.takeStage_fabric (s kib) : (State.takeStage s kib).fabric = s.fabric := rfl
@[simp] theorem State.takeStage_obs (s kib) : (State.takeStage s kib).obs = s.obs := rfl
@[simp] theorem State.takeStage_ik (s kib) : (State.takeStage s kib).ik = s.ik := rfl
@[simp] theorem State.takeStage_irq (s kib) : (State.takeStage s kib).irq = s.irq := rfl
@[simp] theorem State.takeStage_holes (s kib) : (State.takeStage s kib).holes = s.holes := rfl
@[simp] theorem State.takeStage_dict (s kib) : (State.takeStage s kib).dict = s.dict := rfl
@[simp] theorem State.takeStage_sec (s kib) : (State.takeStage s kib).sec = s.sec := rfl
@[simp] theorem State.takeStage_pool (s kib) : (State.takeStage s kib).pool = s.pool := rfl
@[simp] theorem State.takeStage_trans (s kib) : (State.takeStage s kib).trans = s.trans := rfl
@[simp] theorem State.takeStage_hearth (s kib) : (State.takeStage s kib).hearth = s.hearth := rfl
@[simp] theorem State.takeStage_cellar (s kib) : (State.takeStage s kib).cellar = s.cellar := rfl
@[simp] theorem State.takeStage_out (s kib) : (State.takeStage s kib).out = s.out := rfl
@[simp] theorem State.takeStage_freeCount (s kib) : (State.takeStage s kib).freeCount = s.freeCount := rfl

@[simp] theorem State.freeStage_pending (s kib) : (State.freeStage s kib).pending = s.pending := rfl
@[simp] theorem State.freeStage_regs (s kib) : (State.freeStage s kib).regs = s.regs := rfl
@[simp] theorem State.freeStage_blobs (s kib) : (State.freeStage s kib).blobs = s.blobs := rfl
@[simp] theorem State.freeStage_forced (s kib) : (State.freeStage s kib).forced = s.forced := rfl
@[simp] theorem State.freeStage_power (s kib) : (State.freeStage s kib).power = s.power := rfl
@[simp] theorem State.freeStage_fabric (s kib) : (State.freeStage s kib).fabric = s.fabric := rfl
@[simp] theorem State.freeStage_obs (s kib) : (State.freeStage s kib).obs = s.obs := rfl
@[simp] theorem State.freeStage_ik (s kib) : (State.freeStage s kib).ik = s.ik := rfl
@[simp] theorem State.freeStage_irq (s kib) : (State.freeStage s kib).irq = s.irq := rfl
@[simp] theorem State.freeStage_holes (s kib) : (State.freeStage s kib).holes = s.holes := rfl
@[simp] theorem State.freeStage_dict (s kib) : (State.freeStage s kib).dict = s.dict := rfl
@[simp] theorem State.freeStage_sec (s kib) : (State.freeStage s kib).sec = s.sec := rfl
@[simp] theorem State.freeStage_pool (s kib) : (State.freeStage s kib).pool = s.pool := rfl
@[simp] theorem State.freeStage_trans (s kib) : (State.freeStage s kib).trans = s.trans := rfl
@[simp] theorem State.freeStage_hearth (s kib) : (State.freeStage s kib).hearth = s.hearth := rfl
@[simp] theorem State.freeStage_cellar (s kib) : (State.freeStage s kib).cellar = s.cellar := rfl
@[simp] theorem State.freeStage_out (s kib) : (State.freeStage s kib).out = s.out := rfl
@[simp] theorem State.freeStage_freeCount (s kib) : (State.freeStage s kib).freeCount = s.freeCount := rfl

@[simp] theorem State.lrcFill_pending (s pa gid d) : (State.lrcFill s pa gid d).pending = s.pending := rfl
@[simp] theorem State.lrcFill_regs (s pa gid d) : (State.lrcFill s pa gid d).regs = s.regs := rfl
@[simp] theorem State.lrcFill_blobs (s pa gid d) : (State.lrcFill s pa gid d).blobs = s.blobs := rfl
@[simp] theorem State.lrcFill_forced (s pa gid d) : (State.lrcFill s pa gid d).forced = s.forced := rfl
@[simp] theorem State.lrcFill_power (s pa gid d) : (State.lrcFill s pa gid d).power = s.power := rfl
@[simp] theorem State.lrcFill_fabric (s pa gid d) : (State.lrcFill s pa gid d).fabric = s.fabric := rfl
@[simp] theorem State.lrcFill_obs (s pa gid d) : (State.lrcFill s pa gid d).obs = s.obs := rfl
@[simp] theorem State.lrcFill_ik (s pa gid d) : (State.lrcFill s pa gid d).ik = s.ik := rfl
@[simp] theorem State.lrcFill_irq (s pa gid d) : (State.lrcFill s pa gid d).irq = s.irq := rfl
@[simp] theorem State.lrcFill_holes (s pa gid d) : (State.lrcFill s pa gid d).holes = s.holes := rfl
@[simp] theorem State.lrcFill_dict (s pa gid d) : (State.lrcFill s pa gid d).dict = s.dict := rfl
@[simp] theorem State.lrcFill_sec (s pa gid d) : (State.lrcFill s pa gid d).sec = s.sec := rfl
@[simp] theorem State.lrcFill_trans (s pa gid d) : (State.lrcFill s pa gid d).trans = s.trans := rfl
@[simp] theorem State.lrcFill_hearth (s pa gid d) : (State.lrcFill s pa gid d).hearth = s.hearth := rfl
@[simp] theorem State.lrcFill_work (s pa gid d) : (State.lrcFill s pa gid d).work = s.work := rfl
@[simp] theorem State.lrcFill_cellar (s pa gid d) : (State.lrcFill s pa gid d).cellar = s.cellar := rfl
@[simp] theorem State.lrcFill_out (s pa gid d) : (State.lrcFill s pa gid d).out = s.out := rfl
@[simp] theorem State.lrcFill_freeCount (s pa gid d) : (State.lrcFill s pa gid d).freeCount = s.freeCount := rfl

@[simp] theorem State.cacheAdd_pending (s es) : (State.cacheAdd s es).pending = s.pending := rfl
@[simp] theorem State.cacheAdd_regs (s es) : (State.cacheAdd s es).regs = s.regs := rfl
@[simp] theorem State.cacheAdd_blobs (s es) : (State.cacheAdd s es).blobs = s.blobs := rfl
@[simp] theorem State.cacheAdd_forced (s es) : (State.cacheAdd s es).forced = s.forced := rfl
@[simp] theorem State.cacheAdd_power (s es) : (State.cacheAdd s es).power = s.power := rfl
@[simp] theorem State.cacheAdd_fabric (s es) : (State.cacheAdd s es).fabric = s.fabric := rfl
@[simp] theorem State.cacheAdd_obs (s es) : (State.cacheAdd s es).obs = s.obs := rfl
@[simp] theorem State.cacheAdd_ik (s es) : (State.cacheAdd s es).ik = s.ik := rfl
@[simp] theorem State.cacheAdd_irq (s es) : (State.cacheAdd s es).irq = s.irq := rfl
@[simp] theorem State.cacheAdd_holes (s es) : (State.cacheAdd s es).holes = s.holes := rfl
@[simp] theorem State.cacheAdd_dict (s es) : (State.cacheAdd s es).dict = s.dict := rfl
@[simp] theorem State.cacheAdd_sec (s es) : (State.cacheAdd s es).sec = s.sec := rfl
@[simp] theorem State.cacheAdd_pool (s es) : (State.cacheAdd s es).pool = s.pool := rfl
@[simp] theorem State.cacheAdd_hearth (s es) : (State.cacheAdd s es).hearth = s.hearth := rfl
@[simp] theorem State.cacheAdd_work (s es) : (State.cacheAdd s es).work = s.work := rfl
@[simp] theorem State.cacheAdd_cellar (s es) : (State.cacheAdd s es).cellar = s.cellar := rfl
@[simp] theorem State.cacheAdd_out (s es) : (State.cacheAdd s es).out = s.out := rfl
@[simp] theorem State.cacheAdd_freeCount (s es) : (State.cacheAdd s es).freeCount = s.freeCount := rfl

@[simp] theorem State.setHole_pending (s h x) : (State.setHole s h x).pending = s.pending := rfl
@[simp] theorem State.setHole_regs (s h x) : (State.setHole s h x).regs = s.regs := rfl
@[simp] theorem State.setHole_blobs (s h x) : (State.setHole s h x).blobs = s.blobs := rfl
@[simp] theorem State.setHole_forced (s h x) : (State.setHole s h x).forced = s.forced := rfl
@[simp] theorem State.setHole_power (s h x) : (State.setHole s h x).power = s.power := rfl
@[simp] theorem State.setHole_fabric (s h x) : (State.setHole s h x).fabric = s.fabric := rfl
@[simp] theorem State.setHole_obs (s h x) : (State.setHole s h x).obs = s.obs := rfl
@[simp] theorem State.setHole_ik (s h x) : (State.setHole s h x).ik = s.ik := rfl
@[simp] theorem State.setHole_irq (s h x) : (State.setHole s h x).irq = s.irq := rfl
@[simp] theorem State.setHole_dict (s h x) : (State.setHole s h x).dict = s.dict := rfl
@[simp] theorem State.setHole_sec (s h x) : (State.setHole s h x).sec = s.sec := rfl
@[simp] theorem State.setHole_pool (s h x) : (State.setHole s h x).pool = s.pool := rfl
@[simp] theorem State.setHole_trans (s h x) : (State.setHole s h x).trans = s.trans := rfl
@[simp] theorem State.setHole_hearth (s h x) : (State.setHole s h x).hearth = s.hearth := rfl
@[simp] theorem State.setHole_work (s h x) : (State.setHole s h x).work = s.work := rfl
@[simp] theorem State.setHole_cellar (s h x) : (State.setHole s h x).cellar = s.cellar := rfl
@[simp] theorem State.setHole_out (s h x) : (State.setHole s h x).out = s.out := rfl
@[simp] theorem State.setHole_freeCount (s h x) : (State.setHole s h x).freeCount = s.freeCount := rfl

@[simp] theorem State.onPend_pending (s f) : (State.onPend s f).pending = s.pending := rfl
@[simp] theorem State.onPend_regs (s f) : (State.onPend s f).regs = s.regs := rfl
@[simp] theorem State.onPend_blobs (s f) : (State.onPend s f).blobs = s.blobs := rfl
@[simp] theorem State.onPend_forced (s f) : (State.onPend s f).forced = s.forced := rfl
@[simp] theorem State.onPend_power (s f) : (State.onPend s f).power = s.power := rfl
@[simp] theorem State.onPend_fabric (s f) : (State.onPend s f).fabric = s.fabric := rfl
@[simp] theorem State.onPend_obs (s f) : (State.onPend s f).obs = s.obs := rfl
@[simp] theorem State.onPend_ik (s f) : (State.onPend s f).ik = s.ik := rfl
@[simp] theorem State.onPend_holes (s f) : (State.onPend s f).holes = s.holes := rfl
@[simp] theorem State.onPend_dict (s f) : (State.onPend s f).dict = s.dict := rfl
@[simp] theorem State.onPend_sec (s f) : (State.onPend s f).sec = s.sec := rfl
@[simp] theorem State.onPend_pool (s f) : (State.onPend s f).pool = s.pool := rfl
@[simp] theorem State.onPend_trans (s f) : (State.onPend s f).trans = s.trans := rfl
@[simp] theorem State.onPend_hearth (s f) : (State.onPend s f).hearth = s.hearth := rfl
@[simp] theorem State.onPend_work (s f) : (State.onPend s f).work = s.work := rfl
@[simp] theorem State.onPend_cellar (s f) : (State.onPend s f).cellar = s.cellar := rfl
@[simp] theorem State.onPend_out (s f) : (State.onPend s f).out = s.out := rfl
@[simp] theorem State.onPend_freeCount (s f) : (State.onPend s f).freeCount = s.freeCount := rfl

@[simp] theorem State.onIkd_pending (s d f) : (State.onIkd s d f).pending = s.pending := rfl
@[simp] theorem State.onIkd_regs (s d f) : (State.onIkd s d f).regs = s.regs := rfl
@[simp] theorem State.onIkd_blobs (s d f) : (State.onIkd s d f).blobs = s.blobs := rfl
@[simp] theorem State.onIkd_forced (s d f) : (State.onIkd s d f).forced = s.forced := rfl
@[simp] theorem State.onIkd_power (s d f) : (State.onIkd s d f).power = s.power := rfl
@[simp] theorem State.onIkd_fabric (s d f) : (State.onIkd s d f).fabric = s.fabric := rfl
@[simp] theorem State.onIkd_obs (s d f) : (State.onIkd s d f).obs = s.obs := rfl
@[simp] theorem State.onIkd_irq (s d f) : (State.onIkd s d f).irq = s.irq := rfl
@[simp] theorem State.onIkd_holes (s d f) : (State.onIkd s d f).holes = s.holes := rfl
@[simp] theorem State.onIkd_dict (s d f) : (State.onIkd s d f).dict = s.dict := rfl
@[simp] theorem State.onIkd_sec (s d f) : (State.onIkd s d f).sec = s.sec := rfl
@[simp] theorem State.onIkd_pool (s d f) : (State.onIkd s d f).pool = s.pool := rfl
@[simp] theorem State.onIkd_trans (s d f) : (State.onIkd s d f).trans = s.trans := rfl
@[simp] theorem State.onIkd_hearth (s d f) : (State.onIkd s d f).hearth = s.hearth := rfl
@[simp] theorem State.onIkd_work (s d f) : (State.onIkd s d f).work = s.work := rfl
@[simp] theorem State.onIkd_cellar (s d f) : (State.onIkd s d f).cellar = s.cellar := rfl
@[simp] theorem State.onIkd_out (s d f) : (State.onIkd s d f).out = s.out := rfl
@[simp] theorem State.onIkd_freeCount (s d f) : (State.onIkd s d f).freeCount = s.freeCount := rfl

/-! ## Words of a waybill -/

/-- A waybill whose words its sequencer has needs no fetch (R82). -/
theorem State.refetchWb_of_words {s : State} {key : Nat} (h : (s.wb key).refetch = false) : s.refetchWb key = s := by
  simp [State.refetchWb, h]

theorem State.withWords_of_words {s : State} {key : Nat} {f : State → State} (h : (s.wb key).refetch = false) : s.withWords key f = f s := by
  simp [State.withWords, State.refetchWb_of_words h, h]

end Sys2Proof.Machine
end

