-- ==== Sys2Proof/Machine/Contacts.lean ====
section
/-! DEFINITION. What the contacts show (R551, R552, Table 17.10): the state of each group while the device is unpowered, in reset, in Night,
halted or thermally tripped, as a function of State. -/

namespace Sys2Proof.Machine

open Sys2Proof

/-- Groups of contacts (Table 17.10). CHc_RESET_N is named by its channel. -/
inductive Contact where
  | linkTx | linkRx | chanData | chanResetN (ch : Nat) | chanAlertN | refclk | sideband | t1s | qspi | jtag | uartTx | alertN | thermtripN | stat
  | inputs
deriving DecidableEq, Repr

/-- What a group does; `works` while the device is out of every state of the table. -/
inductive Level where
  | works
  /-- High-impedance, with no load or termination. -/
  | highZ
  /-- Electrical idle at common mode, with no load to receiver-detect. -/
  | idleNoLoad
  /-- Electrical idle of STANDBY. -/
  | idle
  /-- Termination on, and the activity detector. -/
  | listening
  /-- The levels that DDR5 self-refresh requires, CK stopped. -/
  | selfRefresh
  | low | high
  /-- An input whose level is not used. -/
  | ignored
  | input
  | terminated
  /-- Receiving, and answering BUSY. -/
  | answersBusy
  /-- The TAP is usable; TDO drives only while shifting. -/
  | tap
  | asserted | released
  /-- The value held from the entry on. -/
  | held
deriving DecidableEq, Repr

/-- Columns of Table 17.10. -/
inductive Column where
  | unpowered | reset | night
deriving DecidableEq, Repr

/-- Column that holds for the device, none while it works (R551, R552): a halted device stands in Night, a tripped one in reset. Rails other than
VDD_AON are down while PWR_GOOD is low. -/
def State.column (s : State) : Option Column :=
  if !s.power.aon || !s.power.pwrGood then some .unpowered
  else if s.power.inReset || s.power.thermtrip then some .reset
  else if s.halted || s.power.st == 2 then some .night
  else none

/-- The device has put the channel into self-refresh. -/
def State.asleepChan (s : State) (ch : Nat) : Bool := (s.cellar.chans.getD ch {}).st == 6

/-- State of a group in a column (Table 17.10). -/
def State.contactIn (s : State) : Column → Contact → Level
  | .unpowered, .chanResetN _ => .low
  | .unpowered, .chanAlertN => .input
  | .unpowered, .refclk => .terminated
  | .unpowered, .alertN => .released
  | .unpowered, .thermtripN => .released
  | .unpowered, .inputs => .input
  | .unpowered, _ => .highZ
  | .reset, .linkTx => .idleNoLoad
  | .reset, .chanResetN ch => if s.power.thermtrip && s.asleepChan ch then .high else .low
  | .reset, .chanAlertN => .ignored
  | .reset, .refclk => .terminated
  | .reset, .jtag => .tap
  | .reset, .uartTx => .high
  | .reset, .alertN => if s.power.thermtrip then .asserted else .released
  | .reset, .thermtripN => if s.power.thermtrip then .asserted else .released
  | .reset, .stat => .low
  | .reset, .inputs => .input
  | .reset, _ => .highZ
  | .night, .linkTx => if s.halted then .idleNoLoad else .idle
  | .night, .linkRx => if s.halted then .highZ else .listening
  | .night, .chanData => .selfRefresh
  | .night, .chanResetN _ => .high
  | .night, .chanAlertN => .ignored
  | .night, .refclk => .terminated
  | .night, .t1s => .answersBusy
  | .night, .jtag => .tap
  | .night, .uartTx => .high
  | .night, .alertN => .held
  | .night, .thermtripN => if s.power.thermtrip then .asserted else .released
  | .night, .stat => if s.halted then .low else .held
  | .night, .inputs => .input
  | .night, .sideband => .highZ
  | .night, .qspi => .highZ

/-- State of a group of contacts. -/
def State.contact (s : State) (c : Contact) : Level := match s.column with | some x => s.contactIn x c | none => .works

end Sys2Proof.Machine
end

