-- ==== Sys2Proof/WellFormed.lean ====
section
/-! DEFINITION. Commands that can reach the block: every operand fits the field, object or message that carries it (Tables 8.3, 8.4,
9.1, 9.3 and the objects' types). `exec` is total on ill-formed ones too. -/

namespace Sys2Proof

/-- The number fits in n bits. -/
def fits (n x : Nat) : Bool := decide (x < 2 ^ n)

/-- A window lies in the ranges of Table 14.9. -/
def EyeWindow.wf (w : EyeWindow) : Bool := decide (w.vref ≤ 125) && decide (w.lo ≤ w.hi) && decide (w.hi ≤ 8192)

/-- Sweeps of 4 ranks of 20 lanes, and 8 oscillator counts. -/
def sweepsWf (lanes : List LaneSweep) (osc : List Nat) : Bool :=
  lanes.length == 80 && (lanes.all fun l => l.read.all EyeWindow.wf && l.write.all EyeWindow.wf) && osc.length == 8 && osc.all (fits 16)

/-- Fields of a packet fit Table 9.1, with its payload at its length (R275). -/
def Packet.wf (p : Packet) : Bool :=
  fits 20 p.dst && fits 20 p.src && fits 16 p.pkey && fits 2 p.tc && fits 3 p.vc && fits 8 p.opc && fits 5 p.len && fits 3 p.rsvd &&
    fits 48 p.addr && fits 32 p.seq && fits 16 p.tag && fits 8 p.status && fits 6 p.hops && fits 64 p.xw && p.payload.length == 64 * p.len

/-- Fields of a flit fit Table 8.3. -/
def Flit.wf (f : Flit) : Bool :=
  fits 12 f.fseq && fits 12 f.ack && fits 2 f.cretTc && fits 1 f.cretDl && fits 6 f.cretN && fits 16 f.aux && fits 2 f.ftype && fits 4 f.sop &&
    fits 4 f.pad && fits 3 f.abtVc && f.payload.length == 240 && fits 64 f.crc

/-- Fields of a CTRL flit's header fit Table 8.3. -/
def CtrlHdr.wf (h : CtrlHdr) : Bool := fits 12 h.ack && fits 2 h.cretTc && fits 1 h.cretDl && fits 6 h.cretN

/-- Addresses, EtherType and payload of an Ethernet frame (R456). -/
def Frame.wf (f : Frame) : Bool := fits 48 f.dst && fits 48 f.src && fits 16 f.ethertype && decide (46 ≤ f.payload.length) && decide (f.payload.length ≤ 1500)

/-- A guest definition's GID, key and directory entries (Tables 1.1, 1.4). -/
def GuestDef.wf (g : GuestDef) : Bool := fits 20 g.gid && fits 16 g.pkey && g.dir.all fun e => decide (e.1 < 240) && fits 128 e.2

/-- The command's operands fit what carries them. -/
def Instr.wf : Instr → Bool
  | .powerOn => true
  | .resetNFall => true
  | .pwrGoodFall => true
  | .resetRelease _ _ present => fits 64 present
  | .secureBoot _ _ dimms => decide (dimms.length ≤ 48) && dimms.all fun d => fits 16 d.maker && fits 32 d.serial
  | .coldReset => true
  | .coldResetDelayExpiry => true
  | .tamper _ => true
  | .define => true
  | .pin => true
  | .unpin => true
  | .windowSet => true
  | .windowClear => true
  | .guestQuery => true
  | .setPkey => true
  | .guestCmdApplied => true
  | .guestSwapDone _ => true
  | .guestSwapHoldExpiry _ => true
  | .swapVictimEligible => true
  | .announce _ p setId state nonce => p.wf && fits 32 setId && fits 8 state && nonce.length == 32
  | .announceSend => true
  | .join _ p idReq chain sig => p.wf && fits 8 idReq && decide (chain.length ≤ 4096) && sig.length == 96
  | .admitMsg _ p devid => p.wf && decide (devid ≤ 63)
  | .refuse _ p setId state => p.wf && fits 32 setId && fits 8 state
  | .distribute _ p members guests erase => p.wf && members.all (fun m => decide (m.1 ≤ 63) && fits 20 m.2) && guests.all GuestDef.wf && erase.all (fits 20)
  | .formTimeoutExpiry => true
  | .read _ p => p.wf
  | .write _ p => p.wf
  | .writeP _ p => p.wf
  | .atomicPacket _ p => p.wf
  | .doorbell _ p => p.wf
  | .notifyReceived _ p => p.wf
  | .cnp _ p => p.wf
  | .rsp _ p => p.wf
  | .mgmt _ p => p.wf
  | .packetHeader _ p => p.wf
  | .broadcastFilterExpiry src seq => fits 20 src && fits 32 seq
  | .zeroFillDone _ pva => fits 48 pva
  | .lrcFill line => fits 42 line
  | .publish _ seq => fits 32 seq
  | .publishDrainDone _ seq => fits 32 seq
  | .lrcSweepDone _ seq => fits 32 seq
  | .streamCreate => true
  | .streamDestroy => true
  | .streamReset => true
  | .streamQuery => true
  | .streamSwapDone _ => true
  | .waybillAccept _ => true
  | .descriptorPrefetch _ => true
  | .waybillStart _ seq => fits 32 seq
  | .waitTimeoutExpiry _ seq => fits 32 seq
  | .tallyInc _ seq => fits 32 seq
  | .tallySet _ seq => fits 32 seq
  | .tallyArm _ seq => fits 32 seq
  | .tallyRead _ seq => fits 32 seq
  | .drain _ seq => fits 32 seq
  | .nop _ seq => fits 32 seq
  | .cancel _ seq => fits 32 seq
  | .tallyMirrorWrite _ => true
  | .chunkDispatch _ seq => fits 32 seq
  | .clusterClearDone _ => true
  | .granuleCommit _ seq g _ => fits 32 seq && fits 32 g
  | .clusterLost _ => true
  | .chunkRedispatch _ seq chunk => fits 32 seq && fits 20 chunk
  | .porterDieLost _ => true
  | .waybillComplete _ seq => fits 32 seq
  | .trackerGrant => true
  | .tallyAlloc => true
  | .tallyFree => true
  | .tallyCmdArm => true
  | .tallyCmdSet => true
  | .tallyConfig => true
  | .tallyQuery => true
  | .trkHighWaterWrite v => fits 32 v
  | .arithFlagsSeenWrite v => fits 32 v
  | .copy _ seq chunk => fits 32 seq && fits 20 chunk
  | .convert _ seq chunk => fits 32 seq && fits 20 chunk
  | .fill _ seq chunk => fits 32 seq && fits 20 chunk
  | .eltwise _ seq chunk => fits 32 seq && fits 20 chunk
  | .deliver _ seq chunk => fits 32 seq && fits 20 chunk
  | .gather _ seq chunk => fits 32 seq && fits 20 chunk
  | .scatter _ seq chunk => fits 32 seq && fits 20 chunk
  | .atomic _ seq chunk => fits 32 seq && fits 20 chunk
  | .cas _ seq chunk => fits 32 seq && fits 20 chunk
  | .remoteTimeoutExpiry dst _ tag => fits 20 dst && fits 16 tag
  | .redOpen _ seq chunk => fits 32 seq && fits 20 chunk
  | .stagingAlloc _ seq => fits 32 seq
  | .redOpenTimeout _ seq => fits 32 seq
  | .redContrib _ seq chunk => fits 32 seq && fits 20 chunk
  | .contribTurn _ seq => fits 32 seq
  | .stagedPrefetch _ seq => fits 32 seq
  | .granuleLockGrant unit => fits 48 unit
  | .redClose _ seq => fits 32 seq
  | .redContextComplete _ => true
  | .reduce _ seq chunk => fits 32 seq && fits 20 chunk
  | .reshard _ seq chunk => fits 32 seq && fits 20 chunk
  | .mvb _ seq chunk => fits 32 seq && fits 20 chunk
  | .moeffn _ seq chunk => fits 32 seq && fits 20 chunk
  | .moeffnExchangeDone _ seq => fits 32 seq
  | .layoutRegister => true
  | .layoutRemove => true
  | .layoutQuery => true
  | .commit => true
  | .commitPoint => true
  | .commitDrainDone => true
  | .transQuery => true
  | .translationWalkDone _ => true
  | .faultHoldExpiry _ => true
  | .faultQueueRecord => true
  | .fqHeadWrite v => fits 32 v
  | .fqConfigWrite _ v => fits 64 v
  | .migrateInDone => true
  | .migrateOutDone => true
  | .migrateTimeoutExpiry => true
  | .ledgerDieLost _ => true
  | .rdS _ p => p.wf
  | .rdX _ p => p.wf
  | .upg _ p => p.wf
  | .wb _ p => p.wf
  | .evc _ p => p.wf
  | .snpAck _ p => p.wf
  | .snpData _ p => p.wf
  | .snpWbp _ p => p.wf
  | .coherenceUnmatched _ p => p.wf
  | .hearthLineDequeue line => fits 42 line
  | .backInvalidation line => fits 42 line
  | .hearthSnoopTimeout line _ => fits 42 line
  | .fenceWalkDone _ => true
  | .registerCe => true
  | .removeCe => true
  | .resetCe => true
  | .queryCe => true
  | .flush => true
  | .queryLine => true
  | .hearthRecallDone line => fits 42 line
  | .flitReceive _ f word _ next => f.wf && decide word.Nodup && decide next.Nodup
  | .retryReq _ h fseq => h.wf && fits 12 fseq
  | .null _ h => h.wf
  | .replayTimeout _ => true
  | .laneFailing _ _ => true
  | .spareUnusable _ => true
  | .laneMap _ h lane map => h.wf && fits 8 lane && fits 8 map
  | .laneMapAck _ h lane map => h.wf && fits 8 lane && fits 8 map
  | .laneMapResend _ => true
  | .laneSparingDone _ => true
  | .creditQuietExpiry _ _ => true
  | .creditSyncRequest _ => true
  | .creditSyncReq _ h => h.wf
  | .creditSyncRsp _ h blocks => h.wf && (blocks.length == 8 && blocks.all (fits 16))
  | .creditSyncTimeout _ => true
  | .linkDown _ h cause => h.wf && fits 8 cause
  | .standbyReq _ h => h.wf
  | .standbyAck _ h => h.wf
  | .standbyAckTimeout _ => true
  | .linkStandbyIdleExpiry _ => true
  | .linkWake _ => true
  | .hello _ version _ _ => fits 8 version
  | .cert _ chain => decide (chain.length ≤ 4096)
  | .share _ pub sig => pub.length == 97 && sig.length == 96
  | .finished _ mac => mac.length == 48
  | .keyxRetransmit _ => true
  | .keyxTimeout _ => true
  | .peerDetected _ => true
  | .trainingDone _ => true
  | .trainingFailed _ => true
  | .linkDeadTimeout _ => true
  | .linkRetry _ => true
  | .gatehouseDieLost _ => true
  | .dedupExpiry epid _ => fits 20 epid
  | .retrain => true
  | .disable => true
  | .enable => true
  | .linkQuery => true
  | .dedupClear => true
  | .cnpSend src _ => fits 20 src
  | .ccRateIncrease epid _ => fits 20 epid
  | .egressSelect _ => true
  | .expressWindowOpen _ => true
  | .expressWindowClose _ => true
  | .setBlock => true
  | .setExact => true
  | .clearExact => true
  | .pairOut => true
  | .pairIn => true
  | .routeQuery => true
  | .epochDrainDone _ => true
  | .gmapSet => true
  | .gmapClear => true
  | .gmapQuery => true
  | .pkeyAdd => true
  | .pkeyRemove => true
  | .pkeyQuery => true
  | .queueSet => true
  | .queueRemove => true
  | .queueQuery => true
  | .columnCommandIssue _ _ _ _ => true
  | .dramReadReturn _ line _ _ => fits 42 line
  | .wcbDrain _ line => fits 42 line
  | .pageIdleExpiry _ _ _ => true
  | .refresh _ _ _ _ _ => true
  | .dimmTempPoll _ _ => true
  | .chIdleSrExpiry _ => true
  | .selfRefreshExit _ => true
  | .chIdlePdExpiry _ => true
  | .alertNAssert _ => true
  | .alertRelease _ => true
  | .channelTrainingDone _ _ lanes osc => sweepsWf lanes osc
  | .channelFillDone _ => true
  | .dqsOscMeasure _ _ _ => true
  | .readCentreRecheck _ _ _ => true
  | .retrainStart _ => true
  | .retrainDone _ lanes osc => sweepsWf lanes osc
  | .trainRetrain => true
  | .trainFull => true
  | .sbArbLost _ => true
  | .sbBackoffExpiry _ _ => true
  | .sbBusRecovery _ => true
  | .sbRead _ _ => true
  | .sbWrite _ _ => true
  | .scrubLine _ => true
  | .parityDelta _ _ line => fits 42 line
  | .parityAckTimeout _ _ line => fits 42 line
  | .staleStripeRebuild _ stripe => fits 32 stripe
  | .channelFailed _ => true
  | .rebuildStripe _ => true
  | .rowRepair _ _ => true
  | .writeRaw => true
  | .readRaw => true
  | .readDecoded => true
  | .ceLogClear => true
  | .ppr => true
  | .evacuate => true
  | .entropyHealthFail => true
  | .entropyRetest _ => true
  | .drbgReseed => true
  | .keyCacheFill _ _ => true
  | .teardown => true
  | .teardownDrainDone => true
  | .queryKey => true
  | .writeChunk => true
  | .verify => true
  | .activate => true
  | .fwConfirm => true
  | .commitSvn => true
  | .attest nonce => nonce.length == 32
  | .challenge => true
  | .unlock => true
  | .debugNonceExpiry => true
  | .extest => true
  | .tapReset => true
  | .heartbeat => true
  | .heartbeatTimeout => true
  | .watchdogExpiry => true
  | .innkeeperFailure _ _ => true
  | .takeoverDone => true
  | .checkpoint => true
  | .checkpointComplete => true
  | .checkpointLate => true
  | .ikSelfTestRun _ _ => true
  | .ikRecoveryTest _ _ => true
  | .switch => true
  | .retest => true
  | .holdOut => true
  | .release => true
  | .irqEdge _ => true
  | .irqDeliver _ => true
  | .irqQuery => true
  | .setPending => true
  | .clearPending => true
  | .clearCount => true
  | .irqAlertStatusWrite v => fits 1024 v
  | .irqOverrunWrite v => fits 1024 v
  | .writeIn _ p => p.wf
  | .readOut _ p => p.wf
  | .poll _ p => p.wf
  | .readIn => true
  | .writeOut => true
  | .pigeonOwnerWrite _ v => fits 32 v
  | .t1sFrame f => f.wf
  | .plcaBeaconTimeout => true
  | .dictRead => true
  | .dictWrite _ _ => true
  | .describe => true
  | .defaults => true
  | .openHello => true
  | .openCert => true
  | .openProve => true
  | .close => true
  | .snapshotExpiry => true
  | .stagingExpiry _ => true
  | .sessionOpenTimeout _ => true
  | .sessionIdleExpiry _ => true
  | .openLockoutExpiry _ addr => fits 48 addr
  | .flashCompactionDone => true
  | .clearTrained => true
  | .registerWrite _ _ _ => true
  | .clusterShutterExpiry _ => true
  | .clusterDarkExpiry _ => true
  | .clusterWakeDone _ => true
  | .night => true
  | .nightEntryStepDone => true
  | .wake _ _ => true
  | .wakeNLow _ => true
  | .wakeTimerExpiry => true
  | .nightExitDone bad => fits 48 bad
  | .refclkFail _ => true
  | .refclkRevert => true
  | .refclkRecovery _ bad => fits 48 bad
  | .dieTempSample _ _ => true
  | .cdcOverrunWrite v => fits 64 v
  | .ctrConfig => true
  | .ctrRead => true
  | .ctrWrite => true
  | .snapshot => true
  | .snapshotCapture _ => true
  | .clearDie => true
  | .ctrFreezeWrite _ => true
  | .sampleTick => true
  | .samplerConfigWrite _ v => fits 32 v
  | .hwmQueueWrite _ v => fits 32 v
  | .recoveryHoldExpiry => true
  | .startPhaseExpiry => true
  | .logRead => true
  | .stat3Toggle => true
  | .powerOff => true
  | .detectWithoutPeer _ => true
  | .i3cInBandInterrupt _ _ => true
  | .plcaBeaconHeard => true
  | .clusterReturnsToService _ => true
  | .cellarDieLost _ => true
  | .refclkGood _ => true

end Sys2Proof
end

