-- ==== Sys2Proof/Tests/Slice0.lean ====
section
/-! SUPPORT. Tests: ill-formed commands are refused, the specification's worked examples come out as printed, and for every statement with
hypotheses a concrete state and operands that meet them. -/

open Sys2Proof Sys2Proof.Machine
namespace Sys2Proof.Tests

/-! ## Ill-formed terms are refused: one for each check -/

/-- A well-formed flit and frame, and an ill-formed packet, header, flit and frame. -/
def goodFlit : Flit := { payload := zeroBytes 240 }
def goodFrame : Frame := { dst := 0, src := 0, ethertype := 0x88B5, vlan := false, fcsOk := true, payload := zeroBytes 46 }
def badPacket : Packet := { dst := 2 ^ 20 }
def badHdr : CtrlHdr := { ack := 2 ^ 12 }
def badFlit : Flit := {}
def badFrame : Frame := { goodFrame with payload := [] }

/-- Sweeps of every lane of every rank, and the same with a reference step out of range. -/
def goodSweeps : List LaneSweep := List.replicate 80 { read := [{ vref := 125, lo := 0, hi := 200 }], write := [{ lo := 8000, hi := 8192 }] }
def badSweeps : List LaneSweep := List.replicate 80 { read := [{ vref := 126 }] }

/-- Each breaks one check of `Packet.wf`. -/
theorem test_wf_packet : ([
    { dst := 2 ^ 20 }, { src := 2 ^ 20 }, { pkey := 2 ^ 16 }, { tc := 4 }, { vc := 8 }, { opc := 2 ^ 8 },
    { len := 2 ^ 5, payload := zeroBytes 2048 }, { rsvd := 8 }, { addr := 2 ^ 48 }, { seq := 2 ^ 32 }, { tag := 2 ^ 16 },
    { status := 2 ^ 8 }, { hops := 2 ^ 6 }, { xw := 2 ^ 64 }, { len := 1 }] : List Packet).all (fun x => !x.wf) = true :=
  by (set_option maxRecDepth 20000 in decide)

/-- Each breaks one check of `Flit.wf`. -/
theorem test_wf_flit : ([
    { goodFlit with fseq := 2 ^ 12 }, { goodFlit with ack := 2 ^ 12 }, { goodFlit with cretTc := 4 },
    { goodFlit with cretDl := 2 }, { goodFlit with cretN := 2 ^ 6 }, { goodFlit with aux := 2 ^ 16 },
    { goodFlit with ftype := 4 }, { goodFlit with sop := 16 }, { goodFlit with pad := 16 }, { goodFlit with abtVc := 8 },
    { goodFlit with payload := [] }, { goodFlit with crc := 2 ^ 64 }] : List Flit).all (fun x => !x.wf) = true :=
  by (set_option maxRecDepth 20000 in decide)

/-- Each breaks one check of `CtrlHdr.wf`. -/
theorem test_wf_header : ([
    { ack := 2 ^ 12 }, { cretTc := 4 }, { cretDl := 2 }, { cretN := 2 ^ 6 }] : List CtrlHdr).all (fun x => !x.wf) = true :=
  by (set_option maxRecDepth 20000 in decide)

/-- Each breaks one check of `Frame.wf`. -/
theorem test_wf_frame : ([
    { goodFrame with dst := 2 ^ 48 }, { goodFrame with src := 2 ^ 48 }, { goodFrame with ethertype := 2 ^ 16 },
    { goodFrame with payload := zeroBytes 45 }, { goodFrame with payload := zeroBytes 1501 }] : List Frame).all (fun x => !x.wf) = true :=
  by (set_option maxRecDepth 20000 in decide)

/-- Each breaks one check of `GuestDef.wf`. -/
theorem test_wf_guest : ([
    { gid := 2 ^ 20 }, { gid := 0, pkey := 2 ^ 16 }, { gid := 0, dir := [(240, 0)] }, { gid := 0, dir := [(0, 2 ^ 128)] }] : List GuestDef).all (fun x => !x.wf) = true :=
  by (set_option maxRecDepth 20000 in decide)

/-- The terms that the next ones spoil are well formed. -/
theorem test_wf_good : goodFlit.wf = true ∧ goodFrame.wf = true ∧ ({} : Packet).wf = true ∧ ({} : CtrlHdr).wf = true :=
  by (set_option maxRecDepth 20000 in decide)

/-- Commands with operands that have checks, well formed. -/
theorem test_wf_accepts_1 : ([
    .resetRelease 0 0 0, .secureBoot false false [], .announce 0 {} 0 0 (zeroBytes 32), .join 0 {} 0 (zeroBytes 0) (zeroBytes 96),
    .admitMsg 0 {} 0, .refuse 0 {} 0 0, .distribute 0 {} [] [] [], .read 0 {}, .write 0 {}, .writeP 0 {}, .atomicPacket 0 {},
    .doorbell 0 {}, .notifyReceived 0 {}, .cnp 0 {}, .rsp 0 {}, .mgmt 0 {}, .packetHeader 0 {}, .broadcastFilterExpiry 0 0,
    .zeroFillDone 0 0, .lrcFill 0, .publish 0 0, .publishDrainDone 0 0, .lrcSweepDone 0 0, .waybillStart 0 0, .waitTimeoutExpiry 0 0,
    .tallyInc 0 0, .tallySet 0 0, .tallyArm 0 0, .tallyRead 0 0, .drain 0 0, .nop 0 0, .cancel 0 0, .chunkDispatch 0 0,
    .granuleCommit 0 0 0 0, .chunkRedispatch 0 0 0, .waybillComplete 0 0, .trkHighWaterWrite 0, .arithFlagsSeenWrite 0, .copy 0 0 0,
    .convert 0 0 0] : List Instr).all Instr.wf = true :=
  by (set_option maxRecDepth 20000 in decide)

/-- Commands with operands that have checks, well formed. -/
theorem test_wf_accepts_2 : ([
    .fill 0 0 0, .eltwise 0 0 0, .deliver 0 0 0, .gather 0 0 0, .scatter 0 0 0, .atomic 0 0 0, .cas 0 0 0, .remoteTimeoutExpiry 0 0 0,
    .redOpen 0 0 0, .stagingAlloc 0 0, .redOpenTimeout 0 0, .redContrib 0 0 0, .contribTurn 0 0, .stagedPrefetch 0 0, .granuleLockGrant 0,
    .redClose 0 0, .reduce 0 0 0, .reshard 0 0 0, .mvb 0 0 0, .moeffn 0 0 0, .moeffnExchangeDone 0 0, .fqHeadWrite 0, .fqConfigWrite 0 0,
    .rdS 0 {}, .rdX 0 {}, .upg 0 {}, .wb 0 {}, .evc 0 {}, .snpAck 0 {}, .snpData 0 {}, .snpWbp 0 {}, .coherenceUnmatched 0 {},
    .hearthLineDequeue 0, .backInvalidation 0, .hearthSnoopTimeout 0 0, .hearthRecallDone 0, .flitReceive 0 goodFlit [] true [],
    .retryReq 0 {} 0, .null 0 {}, .laneMap 0 {} 0 0] : List Instr).all Instr.wf = true :=
  by (set_option maxRecDepth 20000 in decide)

/-- Commands with operands that have checks, well formed. -/
theorem test_wf_accepts_3 : ([
    .laneMapAck 0 {} 0 0, .creditSyncReq 0 {}, .creditSyncRsp 0 {} (List.replicate 8 0), .linkDown 0 {} 0, .standbyReq 0 {},
    .standbyAck 0 {}, .hello 0 0 false false, .cert 0 (zeroBytes 0), .share 0 (zeroBytes 97) (zeroBytes 96), .finished 0 (zeroBytes 48),
    .dedupExpiry 0 0, .cnpSend 0 0, .ccRateIncrease 0 0, .dramReadReturn 0 0 0 0, .wcbDrain 0 0,
    .channelTrainingDone 0 false goodSweeps (List.replicate 8 0), .retrainDone 0 goodSweeps (List.replicate 8 0), .parityDelta 0 0 0, .parityAckTimeout 0 0 0, .staleStripeRebuild 0 0, .attest (zeroBytes 32), .irqAlertStatusWrite 0,
    .irqOverrunWrite 0, .writeIn 0 {}, .readOut 0 {}, .poll 0 {}, .pigeonOwnerWrite 0 0, .t1sFrame goodFrame, .openLockoutExpiry false 0,
    .nightExitDone 0, .refclkRecovery 0 0, .cdcOverrunWrite 0, .samplerConfigWrite none 0, .hwmQueueWrite 0 0] : List Instr).all Instr.wf = true :=
  by (set_option maxRecDepth 20000 in decide)

/-- Commands that break one check each. -/
theorem test_wf_refuses_1 : ([
    .resetRelease 0 0 (2 ^ 64), .secureBoot false false (List.replicate 49 {}), .announce 0 badPacket 0 0 (zeroBytes 32),
    .announce 0 {} (2 ^ 32) 0 (zeroBytes 32), .announce 0 {} 0 (2 ^ 8) (zeroBytes 32), .announce 0 {} 0 0 [],
    .join 0 badPacket 0 (zeroBytes 0) (zeroBytes 96), .join 0 {} (2 ^ 8) (zeroBytes 0) (zeroBytes 96),
    .join 0 {} 0 (List.replicate 4097 0) (zeroBytes 96), .join 0 {} 0 (zeroBytes 0) [], .admitMsg 0 badPacket 0, .admitMsg 0 {} 64,
    .refuse 0 badPacket 0 0, .refuse 0 {} (2 ^ 32) 0, .refuse 0 {} 0 (2 ^ 8), .distribute 0 badPacket [] [] [],
    .distribute 0 {} [(64, 0)] [] [], .distribute 0 {} [(0, 2 ^ 20)] [] [], .distribute 0 {} [] [{ gid := 2 ^ 20 }] [],
    .distribute 0 {} [] [] [2 ^ 20], .read 0 badPacket, .write 0 badPacket, .writeP 0 badPacket, .atomicPacket 0 badPacket,
    .doorbell 0 badPacket, .notifyReceived 0 badPacket, .cnp 0 badPacket, .rsp 0 badPacket, .mgmt 0 badPacket, .packetHeader 0 badPacket,
    .broadcastFilterExpiry (2 ^ 20) 0, .broadcastFilterExpiry 0 (2 ^ 32), .zeroFillDone 0 (2 ^ 48), .lrcFill (2 ^ 42),
    .publish 0 (2 ^ 32), .publishDrainDone 0 (2 ^ 32), .lrcSweepDone 0 (2 ^ 32), .waybillStart 0 (2 ^ 32), .waitTimeoutExpiry 0 (2 ^ 32),
    .tallyInc 0 (2 ^ 32)] : List Instr).all (fun c => !c.wf) = true :=
  by (set_option maxRecDepth 20000 in decide)

/-- Commands that break one check each. -/
theorem test_wf_refuses_2 : ([
    .tallySet 0 (2 ^ 32), .tallyArm 0 (2 ^ 32), .tallyRead 0 (2 ^ 32), .drain 0 (2 ^ 32), .nop 0 (2 ^ 32), .cancel 0 (2 ^ 32),
    .chunkDispatch 0 (2 ^ 32), .granuleCommit 0 (2 ^ 32) 0 0, .granuleCommit 0 0 (2 ^ 32) 0, .chunkRedispatch 0 (2 ^ 32) 0,
    .chunkRedispatch 0 0 (2 ^ 20), .waybillComplete 0 (2 ^ 32), .trkHighWaterWrite (2 ^ 32), .arithFlagsSeenWrite (2 ^ 32),
    .copy 0 (2 ^ 32) 0, .copy 0 0 (2 ^ 20), .convert 0 (2 ^ 32) 0, .convert 0 0 (2 ^ 20), .fill 0 (2 ^ 32) 0, .fill 0 0 (2 ^ 20),
    .eltwise 0 (2 ^ 32) 0, .eltwise 0 0 (2 ^ 20), .deliver 0 (2 ^ 32) 0, .deliver 0 0 (2 ^ 20), .gather 0 (2 ^ 32) 0,
    .gather 0 0 (2 ^ 20), .scatter 0 (2 ^ 32) 0, .scatter 0 0 (2 ^ 20), .atomic 0 (2 ^ 32) 0, .atomic 0 0 (2 ^ 20), .cas 0 (2 ^ 32) 0,
    .cas 0 0 (2 ^ 20), .remoteTimeoutExpiry (2 ^ 20) 0 0, .remoteTimeoutExpiry 0 0 (2 ^ 16), .redOpen 0 (2 ^ 32) 0, .redOpen 0 0 (2 ^ 20),
    .stagingAlloc 0 (2 ^ 32), .redOpenTimeout 0 (2 ^ 32), .redContrib 0 (2 ^ 32) 0, .redContrib 0 0 (2 ^ 20)] : List Instr).all (fun c => !c.wf) = true :=
  by (set_option maxRecDepth 20000 in decide)

/-- Commands that break one check each. -/
theorem test_wf_refuses_3 : ([
    .contribTurn 0 (2 ^ 32), .stagedPrefetch 0 (2 ^ 32), .granuleLockGrant (2 ^ 48), .redClose 0 (2 ^ 32), .reduce 0 (2 ^ 32) 0,
    .reduce 0 0 (2 ^ 20), .reshard 0 (2 ^ 32) 0, .reshard 0 0 (2 ^ 20), .mvb 0 (2 ^ 32) 0, .mvb 0 0 (2 ^ 20), .moeffn 0 (2 ^ 32) 0,
    .moeffn 0 0 (2 ^ 20), .moeffnExchangeDone 0 (2 ^ 32), .fqHeadWrite (2 ^ 32), .fqConfigWrite 0 (2 ^ 64), .rdS 0 badPacket,
    .rdX 0 badPacket, .upg 0 badPacket, .wb 0 badPacket, .evc 0 badPacket, .snpAck 0 badPacket, .snpData 0 badPacket, .snpWbp 0 badPacket,
    .coherenceUnmatched 0 badPacket, .hearthLineDequeue (2 ^ 42), .backInvalidation (2 ^ 42), .hearthSnoopTimeout (2 ^ 42) 0,
    .hearthRecallDone (2 ^ 42), .flitReceive 0 badFlit [] false [], .retryReq 0 badHdr 0, .retryReq 0 {} (2 ^ 12), .null 0 badHdr,
    .laneMap 0 badHdr 0 0, .laneMap 0 {} (2 ^ 8) 0, .laneMap 0 {} 0 (2 ^ 8), .laneMapAck 0 badHdr 0 0, .laneMapAck 0 {} (2 ^ 8) 0,
    .laneMapAck 0 {} 0 (2 ^ 8), .creditSyncReq 0 badHdr, .creditSyncRsp 0 badHdr (List.replicate 8 0)] : List Instr).all (fun c => !c.wf) = true :=
  by (set_option maxRecDepth 20000 in decide)

/-- Commands that break one check each. -/
theorem test_wf_refuses_4 : ([
    .creditSyncRsp 0 {} [], .creditSyncRsp 0 {} (List.replicate 8 (2 ^ 16)), .linkDown 0 badHdr 0, .linkDown 0 {} (2 ^ 8),
    .standbyReq 0 badHdr, .standbyAck 0 badHdr, .hello 0 (2 ^ 8) false false, .cert 0 (List.replicate 4097 0), .share 0 [] (zeroBytes 96),
    .share 0 (zeroBytes 97) [], .finished 0 [], .dedupExpiry (2 ^ 20) 0, .cnpSend (2 ^ 20) 0, .ccRateIncrease (2 ^ 20) 0,
    .dramReadReturn 0 (2 ^ 42) 0 0, .wcbDrain 0 (2 ^ 42), .channelTrainingDone 0 false [] (List.replicate 8 0), .channelTrainingDone 0 false goodSweeps [],
    .channelTrainingDone 0 false goodSweeps (List.replicate 8 (2 ^ 16)), .channelTrainingDone 0 false badSweeps (List.replicate 8 0),
    .retrainDone 0 [] (List.replicate 8 0), .retrainDone 0 goodSweeps [], .retrainDone 0 goodSweeps (List.replicate 8 (2 ^ 16)),
    .retrainDone 0 badSweeps (List.replicate 8 0), .secureBoot false false [{ maker := 2 ^ 16 }], .secureBoot false false [{ serial := 2 ^ 32 }],
    .flitReceive 0 goodFlit [5, 5] false [], .flitReceive 0 goodFlit [] true [5, 5], .parityDelta 0 0 (2 ^ 42), .parityAckTimeout 0 0 (2 ^ 42), .staleStripeRebuild 0 (2 ^ 32),
    .attest [], .irqAlertStatusWrite (2 ^ 1024), .irqOverrunWrite (2 ^ 1024), .writeIn 0 badPacket, .readOut 0 badPacket,
    .poll 0 badPacket, .pigeonOwnerWrite 0 (2 ^ 32), .t1sFrame badFrame, .openLockoutExpiry false (2 ^ 48), .nightExitDone (2 ^ 48),
    .refclkRecovery 0 (2 ^ 48), .cdcOverrunWrite (2 ^ 64), .samplerConfigWrite none (2 ^ 32), .hwmQueueWrite 0 (2 ^ 32)] : List Instr).all (fun c => !c.wf) = true :=
  by (set_option maxRecDepth 20000 in decide)

/-! ## The specification's worked examples -/

/-- Table 3.6: FP32 inputs converted to E4M3, FP8MODE 0 and 1. -/
theorem test_e4m3_300 : convElem (.flt fp32) (.flt e4m3) {} 0 0x43960000 = (0x79, fNX) := by decide +kernel
theorem test_e4m3_460 : convElem (.flt fp32) (.flt e4m3) {} 0 0x43E60000 = (0x7E, fNX) := by decide +kernel
theorem test_e4m3_500 : convElem (.flt fp32) (.flt e4m3) {} 0 0x43FA0000 = (0x7E, fSAT + fNX) := by decide +kernel
theorem test_e4m3_500_nan_mode :
    convElem (.flt fp32) (.flt e4m3) { fp8nan := true } 0 0x43FA0000 = (0x7F, fOF + fNX) := by decide +kernel
theorem test_e4m3_tiny : convElem (.flt fp32) (.flt e4m3) {} 0 0xBA83126F = (0x81, fNX + fUF) := by decide +kernel
theorem test_e4m3_tiny_ftz :
    convElem (.flt fp32) (.flt e4m3) { ftz := true } 0 0xBA83126F = (0x80, fDENORM + fUF + fNX) := by decide +kernel
theorem test_e4m3_infinity : convElem (.flt fp32) (.flt e4m3) {} 0 0x7F800000 = (0x7E, fSAT) := by decide +kernel
theorem test_e4m3_nan : convElem (.flt fp32) (.flt e4m3) {} 0 0x7FC00000 = (0x7F, fNAN) := by decide +kernel

/-- The MXFP4 block of Table 3.3, its four inputs that are not small and 28 zeros. -/
def block33 : List FV := [.num 14, .num 10, .num (-13 / 5), .num (3 / 10)] ++ List.replicate 28 (.zero false)

theorem test_mxfp4_floor :
    (let b := mxBlock (some e2m1) 2 {} 0 0 block33
     (b.1, b.2.1.take 4)) = (0x80, [0x7, 0x6, 0xB, 0x0]) := by decide +kernel
theorem test_mxfp4_fit :
    (let b := mxBlock (some e2m1) 2 { fit := true } 0 0 block33
     (b.1, b.2.1.take 4)) = (0x81, [0x6, 0x4, 0x9, 0x0]) := by decide +kernel

/-- Stochastic rounding of 1 + 2^-9 to BF16: rounded up from r16 = 0xC000 on. -/
theorem test_stochastic_up : (convElem (.flt fp32) (.flt bf16) { rnd := 5 } 0xC000 0x3F804000).1 = 0x3F81 := by decide +kernel
theorem test_stochastic_down : (convElem (.flt fp32) (.flt bf16) { rnd := 5 } 0xBFFF 0x3F804000).1 = 0x3F80 := by decide +kernel

/-- The Wd byte of chapter 10 down to its column. -/
theorem test_channel_offset_decoded :
    decodeCo 4 0x0C356667 = { sub := 0, rank := 2, bg := 2, ba := 2, row := 97, col := 0x550 } := by decide

/-- The same byte's channel under the 48 plain channels of layout 0x00. -/
theorem test_place_plain :
    placeIn 0x00024A034567 0 48 = (37, 0x0C356667) := by decide

/-- The same byte's member, counted over the eight members of five groups, under layout 0x01. -/
theorem test_place_strong : placeIn 0x00024A034567 0 40 = (13, 960123 * 256 + 0x67) := by decide

/-- The PUBLISH that chapter 2 encodes. -/
def publish17 : Waybill :=
  { seq := 0xA40
    w := [0x6000000100000017, 0x0008000001F20001, 0x0000004080000000, 0, 0x0000004080100000, 0xFFFF000000000000] ++ List.replicate 10 0 }

theorem test_publish_fields :
    [publish17.opc, publish17.ver, publish17.wid, publish17.len, publish17.tally, publish17.tallyAdd, publish17.src, publish17.cplPva] =
      [0x60, 1, 0x17, 0x80000, 0x1F2, 1, 0x4080000000, 0x4080100000] := by decide

/-- Its completion record. -/
theorem test_publish_record :
    publish17.record 0 = leBytes 8 0x0060000000000017 ++ leBytes 8 0 ++ leBytes 8 0 ++ leBytes 8 0x00000A4000000001 := by decide

/-- The request of chapter 14's in-band read of ORDERING_CODE. -/
theorem test_pdu_read :
    (let p := pduOf (leBytes 8 0x0101000000000042 ++ leBytes 8 0 ++ leBytes 8 0x1003000000000000 ++ leBytes 8 0)
     (p.ver, p.op, p.rsp, p.reqId, p.idx, p.sub, p.fieldsOk)) = (1, 1, false, 0x42, 0x1003, 0, true) := by decide

/-- The serial line that chapter 16 gives for a failed channel. -/
theorem test_uart_line :
    uartLine { type := 6, die := 20, time := 5123400, recno := 0xA2F3, w2 := 0x105 } =
      "CRIT 0000A2F3 5123400 06 CHANNEL_FAILED 20 0000000000000105 0000000000000000 0000000000000000 " ++
        "0000000000000000 0000000000000000 0000000000000000\r\n" := by decide +kernel

/-- Gatehouse 3 hosts links 3 and 27, and their partners lie on Gatehouse 11. -/
theorem test_links_of_gh3 : ((upto 32).filter fun l => linkGH l == 3, linkGH 19, linkGH 11) = ([3, 27], 11, 11) := by decide

/-- The parity example of chapter 11: the seven words and the parity word give 0x3C in the top byte. -/
theorem test_parity_word :
    ([0x3C77665544332211, 0x2200, 0x330000, 0x44000000, 0x5500000000, 0x660000000000, 0x77000000000000].foldl
      (fun x w => xorBytes x (leBytes 8 w)) (leBytes 8 0x11)) = leBytes 8 0x3C00000000000000 := by decide

/-! ## States that the witnesses start from -/

/-- KWRAP of the test states. -/
def kw : Bytes := List.replicate 32 1

/-- A device that is powered, out of reset, booted and managed by Innkeeper 0, with IK1 in standby. -/
def ready : State :=
  { power := { resetN := true, pwrGood := true, inReset := false, powerOn := false, keysDue := false, supplyArmed := true }
    sec := { booted := true, kwrap := some kw, ktable := some (List.replicate 64 2) }
    ik := { dies := { rows := [(0, { st := 4 }), (1, { st := 3 })] } } }

/-- The same as the manager of its set. -/
def mgr : State := { ready with power := { ready.power with roleMgr := true } }

/-- Every slot is taken by a swap, and guest 7 looks for one. -/
def slotsFull : State := { ready with pool := { swaps := { gid := 7 } :: List.replicate 16384 { gid := 8, slot := true } } }

theorem slots_taken (n : Nat) : (({ gid := 7 } :: List.replicate n { gid := 8, slot := true } : List Swap).filter (·.slot)).length = n := by
  simp [List.filter_cons, List.filter_replicate]

theorem slotsFull_slotFree : slotsFull.slotFree = false := by
  have h : (slotsFull.pool.swaps.filter (·.slot)).length = 16384 := slots_taken 16384
  simp [State.slotFree, h]

/-- A window of 1 GiB from an address on, homed on device 0, with every right. -/
def win (base : Nat) (hearth : Bool) : Window :=
  { base := base, size := 1, valid := true, hearth := hearth, lrcAlloc := false, atomic := true, write := true, read := true }

/-- Guest 7: resident, keyed, a plain window at 0 and a hearth window at 1 GiB. -/
def guest7 : Guest :=
  { resident := true, pkey := 5, key := wrapKey kw 1 7 (List.replicate 64 3), dir := { rows := [(0, win 0 false), (1, win 1 true)] } }

/-- SERVING with guest 7, whose first page and first hearth page are mapped and cached; two DRAM channels of layout 0x00 in service, link 3 up
with key 5 in its set, endpoint 9 mapped to guest 7. -/
def serving : State :=
  { ready with
    pool := { setState := 3, devid := 0, guests := { rows := [(7, guest7)] } }
    trans := { cache := [{ gid := 7, span := 65536 }, { gid := 7, base := 2 ^ 30, span := 65536, pa := 65536 }] }
    forced := { rows := [(Obj.pairMode 3, 1)] }
    fabric := { links := { rows := [(3, { st := 4 })] }, keySets := { rows := [(3, [5])] }, gmapExact := { rows := [(gmapKey 9 5, 7)] } }
    cellar := { layout := 0, plain := [0, 1], bytes := 1048576, cap := 524288, tableBase := 524288,
                chans := { rows := [(0, { st := 4 }), (1, { st := 4 })] } }
    work := { streams := { rows := [(3, { gid := 7, resident := true })] },
              clusters := { rows := [(0, { pw := 0 }), (1, { pw := 0 })] } } }

/-- A packet of endpoint 9 on TC0 with key 5. -/
def pkt (n xw len : Nat) : Packet := { src := 9, pkey := 5, addr := n, xw := xw, len := len, payload := zeroBytes (64 * len) }

/-- A SETMSG packet of endpoint 9. -/
def setp : Packet := { src := 9, pkey := 0xFFFF, tc := 3, vc := 6, len := 1, payload := zeroBytes 64 }

/-- The serving state with link 3 up, in another state of a set whose SET_ID is 5. -/
def inSet (manager : Bool) (st : Nat) : State :=
  { serving with power := { serving.power with roleMgr := manager }, pool := { setState := st, managerEpid := 9 },
                 forced := { rows := [(Obj.setId, 5), (Obj.pairMode 3, 1)] } }

/-- The serving state with one request that holds tracker 5. -/
def holding (r : Req) : State := { serving with pool := { serving.pool with reqs := { rows := [(5, r)] } } }

/-- The same with endpoint 9 registered under CEID 1, fenced or not, and a directory. -/
def coherent (r : Req) (fenced : Bool) (dir : List (Nat × Dir)) : State :=
  { holding r with hearth := { ces := { rows := [(1, { epid := 9, fenced := fenced })] }, dir := { rows := dir } } }

/-- A coherent request of endpoint 9 to the first line of the hearth window. -/
def coh (opc : Nat) : Req := { p := { src := 9, opc := opc }, gid := 7, pas := [(65536, 1)] }

theorem serving_key : unwrapKey serving.sec.kwrap (7 : Fin 1048576).val (serving.guest (7 : Fin 1048576).val).key =
    some (gcmXor kw (keyIv 1 7) (gcmXor kw (keyIv 1 7) (List.replicate 64 3))) := by
  have h : serving.guest 7 = guest7 := rfl
  have k : serving.sec.kwrap = some kw := rfl
  have e : (7 : Fin 1048576).val = 7 := rfl
  simp only [e, h, k]
  simp [guest7, wrapKey, unwrapKey]

theorem serving_keyed : serving.keyUnwraps 7 = true := by
  have h : serving.guest 7 = guest7 := rfl
  have k : serving.sec.kwrap = some kw := rfl
  simp [State.keyUnwraps, h, k, guest7, wrapKey, unwrapKey]

/-- A request within one page that the translation cache maps. -/
theorem one_page {s : State} {g : Nat} {p : Packet} (x : Nat × Nat) (a : Nat) (h : pieces p.addr (reqLen p) = [x])
    (hx : s.xlCached g x.1 (writes p.opc) = .ok a) (hf : s.filling a = none) : s.cached g p := by
  intro y hy
  rw [h] at hy
  obtain rfl := List.mem_singleton.mp hy
  exact ⟨a, hx, hf⟩

/-- A tally of guest 7 whose mirror is due. -/
def mirror8 : Tally := { gid := 7, mirror := true, mirrorPva := 8, due := true }

/-- The serving state with that tally, its guest resident or spilled. -/
def mirroring (resident : Bool) : State :=
  { serving with
    work := { serving.work with tallies := { rows := [(0, mirror8)] } }
    pool := { serving.pool with guests := { rows := [(7, { guest7 with resident := resident })] } } }

theorem mirroring_keyed (b : Bool) : (mirroring b).keyUnwraps 7 = true := by
  have h : (mirroring b).guest 7 = { guest7 with resident := b } := rfl
  have k : (mirroring b).sec.kwrap = some kw := rfl
  simp [State.keyUnwraps, h, k, guest7, wrapKey, unwrapKey]

/-- The serving state with a hearth of 1 MiB in force. -/
def hearthed : State :=
  { serving with cellar := { serving.cellar with hearthState := 1 }, forced := { rows := [(Obj.hearthSize, 1048576), (Obj.pairMode 3, 1)] } }

/-- A waybill with SEQ 0 of stream 3, of an opcode, in a state of its life. -/
def way (opc st : Nat) : Waybill := { seq := 0, stream := 3, gid := 7, w := [opc * 2 ^ 56], st := st }

/-- The serving state with that waybill and tally 0. -/
def working (w : Waybill) : State :=
  { serving with work := { serving.work with wbs := { rows := [(wbKey 3 0, w)] }, tallies := { rows := [(0, { gid := 7 })] } } }

/-- A running waybill of one chunk of one granule, which cluster 0 runs. -/
def chunked (opc : Nat) : Waybill := { way opc 1 with chunks := { rows := [(0, { count := 1 })] }, total := 1 }

/-- A slot of zeros at pool address 0 waits in the write-combining buffer of channel 0; stream 3 has one waybill to fetch. -/
def fetching : State :=
  { serving with
    cellar := { serving.cellar with chans := { rows := [(0, { st := 4, wcb := { rows := [(0, { data := zeroBytes 64, mask := 2 ^ 64 - 1, gid := 7 }),
      (1, { data := zeroBytes 64, mask := 2 ^ 64 - 1, gid := 7 })] } }), (1, { st := 4 })] } }
    work := { serving.work with streams := { rows := [(3, { gid := 7, resident := true, tail := 1 })] } } }

/-- The state with tally 0 and a waybill, and reduction context 0. -/
def reducing (w : Waybill) (x : RedCtx) : State := { working w with work := { (working w).work with ctxs := { rows := [(0, x)] } } }

/-- The descriptor of a layout of one byte: words 0 to 5 and zeros. -/
def layoutDesc : Bytes :=
  ([0x28 * 2 ^ 32 + 2 ^ 24 + 181896, 2 ^ 32 + 1, 2 ^ 32 + 1, 2 ^ 32 + 1, 2 ^ 48 + 2 ^ 32 + 2 ^ 16 + 1, 2 ^ 16 + 1].map fun n => leBytes 8 n).flatten ++
    zeroBytes 80

/-- The serving state with link 3 as given. -/
def linked (k : Link) : State := { serving with fabric := { serving.fabric with links := { rows := [(3, k)] } } }

/-- The serving state with link 3 in its key exchange. -/
def keying (x : Keyx) : State := linked { st := 3, kx := x }

/-- The CRC of a flit does not cover itself. -/
theorem crc_self (n : Nat) : flitCrc { crc := n } = flitCrc {} := by unfold flitCrc flitHeader; rfl

/-- The serving state with channel 0 as given. -/
def chanWith (c : Chan) : State :=
  { serving with cellar := { serving.cellar with chans := { rows := [(0, c), (1, { st := 4 })] } } }

/-- A subchannel with one read of line 0 and the rows given open. -/
def reading (rows : List (Nat × Nat × Nat)) : Sub := { rq := [{}], rows := { rows := rows } }

/-- The serving state under layout 0x01, with group 0 as given, of channels 0 to 8, and channel 9 a spare; channel 8 is as given. -/
def grouped (g : Group) (parity : Chan) (stale : List Stale := []) : State :=
  { serving with
    cellar := { layout := 1, cap := 524288, bytes := 20971520, tableBase := 10485760, spares := [9], stale := stale, groups := { rows := [(0, g)] }
                chans := { rows := [0, 1, 2, 3, 4, 5, 6, 7].map (fun n => (n, { st := 4 })) ++ [(8, parity), (9, { st := 4 })] } } }

/-- Members of group 0. -/
def mem9 : List Nat := [0, 1, 2, 3, 4, 5, 6, 7, 8]

/-- A PDU by its header fields: operation, session, SEC, LAST, SEQ, INDEX, SUB, LENGTH and TOTAL, and its data. -/
def pdu (op session : Nat) (sec last : Bool) (seq idx sub len total : Nat) (data : Bytes) : Bytes :=
  leBytes 8 (2 ^ 56 + op * 2 ^ 48 + b2n sec * 2 ^ 38 + b2n last * 2 ^ 37 + session * 2 ^ 16) ++ leBytes 8 seq ++
    leBytes 8 (idx * 2 ^ 48 + sub * 2 ^ 40) ++ leBytes 8 (len * 2 ^ 48 + total) ++ data

/-- The serving state with one request of the T1S peer 77 in the dictionary's queue, and the sessions given; OPEN_WRITE is 1. -/
def asking (b : Bytes) (xs : List (Nat × Session)) : State :=
  { serving with
    regs := { rows := [(Obj.openWrite, 1)] }
    dict := { serving.dict with queue := [{ via := .t1s 77, pdu := b }], sessions := { rows := xs } } }

/-- That state once the request is taken from its queue. -/
def taken (b : Bytes) (xs : List (Nat × Session)) : State :=
  State.leaveQ { asking b xs with dict := { (asking b xs).dict with queue := [] } } qidDict 0

/-- The request. -/
abbrev req77 (b : Bytes) : DictReq := { via := .t1s 77, pdu := b }

/-- An unprotected request is taken. -/
theorem asks_plain {b : Bytes} {xs : List (Nat × Session)} {op : Nat} (ho : (pduOf b).op = op) (hf : (pduOf b).formed = true)
    (hs : (pduOf b).sec = false) : (asking b xs).asks op (req77 b) (pduOf b) { via := .t1s 77 } (pduOf b).data none (taken b xs) :=
  ⟨rfl, rfl, ho, hf, [], taken b xs, rfl, rfl, Or.inl ⟨hs, rfl, rfl, rfl, rfl⟩⟩

/-- The open session 1 of peer 77 under keys of zeros. -/
def open1 : Session := { st := 2, via := .t1s 77, keys := zeroBytes 72 }

/-- A PDU protected under those keys with SEQ 1. -/
def sealed (op : Nat) (last : Bool) (idx sub len total : Nat) (data : Bytes) : Bytes :=
  pdu op 1 true last 1 idx sub len total data ++
    beBytes 16 (Config.gcmTag (zeroBytes 32) (pduIv (zeroBytes 4) 1) (pdu op 1 true last 1 idx sub len total []) data).toNat

/-- A PDU whose tag verifies under its session's keys is taken. -/
theorem unseals {s : State} {via : Via} {p : Pdu} {x : Session} (h : s.openSession via p.session = some x) (hs : x.seq < p.seq)
    (ht : sliceBytes p.rest p.length 16 = beBytes 16 (Config.gcmTag (sliceBytes x.keys 0 32) (pduIv (sliceBytes x.keys 32 4) p.seq) p.head p.data).toNat) :
    s.unsealPdu via p = some (x, gcmXor (sliceBytes x.keys 0 32) (pduIv (sliceBytes x.keys 32 4) p.seq) p.data,
      { s with dict := { s.dict with sessions := s.dict.sessions.put p.session { x with seq := p.seq } } }) := by
  unfold State.unsealPdu
  rw [h]
  simp [hs, ht]

/-- The state once a protected request with SEQ 1 is taken. -/
def sessioned (b : Bytes) : State :=
  { taken b [(1, open1)] with
    dict := { (taken b [(1, open1)]).dict with sessions := (taken b [(1, open1)]).dict.sessions.put 1 { open1 with seq := 1 } } }

/-- A protected request is taken. -/
theorem asks_sealed {b : Bytes} {op : Nat} (ho : (pduOf b).op = op) (hf : (pduOf b).formed = true) (hc : (pduOf b).sec = true)
    (hn : (pduOf b).session = 1) (hq : (pduOf b).seq = 1)
    (ht : sliceBytes (pduOf b).rest (pduOf b).length 16 =
      beBytes 16 (Config.gcmTag (zeroBytes 32) (pduIv (zeroBytes 4) 1) (pduOf b).head (pduOf b).data).toNat) :
    (asking b [(1, open1)]).asks op (req77 b) (pduOf b) { via := .t1s 77, session := 1 }
      (gcmXor (zeroBytes 32) (pduIv (zeroBytes 4) 1) (pduOf b).data) (some open1.keys) (sessioned b) :=
  have e : (taken b [(1, open1)]).unsealPdu (.t1s 77) (pduOf b) = some (open1, gcmXor (zeroBytes 32) (pduIv (zeroBytes 4) 1) (pduOf b).data, sessioned b) := by
    have u := unseals (s := taken b [(1, open1)]) (via := .t1s 77) (p := pduOf b) (x := open1) (by rw [hn]; rfl) (by rw [hq]; decide) (by rw [hq]; exact ht)
    rw [hq, hn] at u
    exact u
  ⟨rfl, rfl, ho, hf, [], taken b [(1, open1)], rfl, rfl, Or.inr ⟨hc, open1, e, by rw [hn]; rfl, rfl⟩⟩

/-- A byte under the keystream, twice. -/
theorem xor_twice (k iv : Bytes) (b : Byte) : gcmXor k iv (gcmXor k iv [b]) = [b] := by simp [gcmXor, BitVec.xor_assoc]

/-- A waybill whose words the sequencer has needs no fetch. -/
theorem hasWords_self {s : State} {key : Nat} (h : (s.wb key).refetch = false) : s.hasWords key s := ⟨(State.refetchWb_of_words h).symm, h⟩

/-- What a kernel makes is whole where its checks, evaluated one by one, say so. -/
theorem whole_of {key c : Nat} {k : Chunk} {r : Calc × State} (ha : r.1.waits = false ∧ r.1.fail = 0 ∧ r.1.stage = none)
    (hb : (r.2.writeRanges key k.cluster k.first r.1.ranges).1.fail = 0 ∧ (r.2.writeRanges key k.cluster k.first r.1.ranges).1.waits = false ∧
      (r.2.writeRanges key k.cluster k.first r.1.ranges).1.lost = false)
    (hc : ((r.2.work.wbs.find key).bind fun w => w.chunks.find c) = some k) : ∃ (o : Wr) (m : State), makesWhole key c k r o m := by
  obtain ⟨w, h1, h2⟩ := Option.bind_eq_some_iff.mp hc
  exact ⟨_, _, ha.1, ha.2.1, Or.inl ⟨ha.2.2, rfl, hb.1, hb.2.1, hb.2.2⟩, w, h1, h2⟩

/-- A running MOEFFN whose one row block cluster 0 runs, phase 1 over and h in its scratchpad. -/
def moe2 : Waybill := { chunked 0x51 with exchanged := true, scratch := { rows := [(0, { h := some [] })] } }

/-- A running MOEFFN whose slice 0 cluster 0 runs, the vector batch in its scratchpad. -/
def moe1 : Waybill := { way 0x51 1 with total := 1, chunks := { rows := [(65536, {})] }, scratch := { rows := [(0, {})] } }

/-- A full line at pool address 0 in a write-combining buffer, and a waybill whose chunk cluster 0 runs. -/
def atoming (w : Waybill) : State := { fetching with work := (working w).work }

/-- A waybill of stream 3, whose limit on a wait is n. -/
def limited (w : Waybill) (n : Nat) : State :=
  { working w with work := { (working w).work with streams := { rows := [(3, { gid := 7, resident := true, limit := n })] } } }

/-- A running MOEFFN whose slice 0 is on cluster 0 and whose slice 1 is next, on cluster 1. -/
def moeNext : Waybill :=
  { way 0x51 1 with w := [0x51 * 2 ^ 56, 0, 0, 0, 0, 0, 1, 64], total := 1, nparts := 2, parts := [0, 1], chunks := { rows := [(65536, {})] } }

/-- A flit with its own CRC. -/
def crcd (f : Flit) : Flit := { f with crc := flitCrc f }

/-- A flit other than DATA that carries its own CRC, in codewords without an error, is not bad. -/
theorem crcd_good (f : Flit) (n : Nat) (h : f.ftype ≠ 1) : flitBad (crcd f) [] [] n = none := by
  have e : flitCrc (crcd f) = flitCrc f := by unfold flitCrc flitHeader; rfl
  have d : (crcd f).ftype = f.ftype := rfl
  have c : (crcd f).crc = flitCrc f := rfl
  simp [flitBad, uncorrectable, e, c, d, h]

/-- One codeword with sixteen wrong symbols, which no code of fifteen corrects. -/
def lostWord : List (Fin 544) := [0, 1, 2, 3, 4, 5, 6, 7, 8, 9, 10, 11, 12, 13, 14, 15]

/-- The same on an Unused pair. -/
def unpaired (k : Link) : State := { linked k with forced := {} }

/-! ## Witnesses

One theorem per statement that has hypotheses, with one clause for each of its cases. Where a case hangs on an outcome of cryptography that the
configuration keeps opaque (`joinOk`, `chainOk`, `ecdsaVerify`, `proved`, `anchorVerify`), no value of it can be computed: the clause gives the
other hypotheses of that case, and the statement has a case for either outcome. -/

theorem witness_PowerAndResetComplete :
    (∃ (s : State), s.power.aon = false) ∧
    (∃ (s : State), s.power.aon = true ∧ s.power.resetN = true ∧ s.power.inReset = false) ∧
    (∃ (s : State), s.power.aon = true ∧ s.power.pwrGood = true ∧ s.power.inReset = false) ∧
    (∃ (s : State) (early late : Fin 2048) (present : Nat), s.power.aon = true ∧ s.power.inReset = true ∧ s.power.refGood ≠ 0) ∧
    (∃ (s : State) (ik1 : Bool) (dimms : List Dimm) (n : Nat), s.up = true ∧ s.halted = false ∧ s.sec.booted = false ∧
      s.sec.st ≠ 4 ∧ s.ik.noFirmware = false ∧ s.hasDie 0 = true ∧ s.packageKeys.bootSlot = some n) ∧
    (∃ (s : State), s.accepts Obj.powerCmdResult) ∧
    (∃ (s : State), s.up = true ∧ s.power.coldDelay = true) ∧
    (∃ (s : State) (cause : Fin 3), s.power.aon = true ∧ s.halted = false ∧ (cause.val = 0 → s.power.supplyArmed = true)) :=
  ⟨⟨{ ready with power := { ready.power with aon := false } }, by decide⟩,
   ⟨ready, by decide⟩,
   ⟨ready, by decide⟩,
   ⟨State.reset, 0, 0, 0, by decide⟩,
   ⟨{ ready with sec := { slotA := { valid := true, svn := Config.svnFused } }, power := { ready.power with keysDue := true } }, true, [], 0, by refine ⟨by decide, by decide, by decide, by decide, by decide, by decide, ?_⟩; simp [State.packageKeys, State.bootSlot, State.bootOrder, State.checkSlot, State.slotImage, State.svnMin, ready, State.draw, Sec.slotOf]⟩,
   ⟨ready, by unfold State.accepts; decide⟩,
   ⟨{ ready with power := { ready.power with coldDelay := true } }, by decide⟩,
   ⟨ready, 0, by decide⟩⟩

theorem witness_GuestCommandsComplete :
    (∃ (s : State), s.accepts Obj.guestCmdResult ∧ s.power.roleMgr = true ∧ s.pool.setState = 3 ∧ s.sec.noDefine = false ∧ s.pool.guests.has s.cmdGid = false ∧
      pkeyOk (s.reg Obj.guestCmdPkey) = true) ∧
    (∃ (s : State), s.accepts Obj.guestCmdResult ∧ s.power.roleMgr = true ∧ s.pool.setState = 3 ∧ s.pool.guests.has s.cmdGid = true ∧ s.reg Obj.guestCmdWindow <
      240 ∧ windowRsvdOk (leNat (s.blob Obj.guestCmdEntry)) = true ∧ ((windowOf (leNat (s.blob Obj.guestCmdEntry))).valid = true →
      windowFits (s.guest s.cmdGid).dir (s.reg Obj.guestCmdWindow) (windowOf (leNat (s.blob Obj.guestCmdEntry))) = true)) ∧
    (∃ (s : State), s.accepts Obj.guestCmdResult ∧ s.power.roleMgr = true ∧ s.pool.setState = 3 ∧ s.pool.guests.has s.cmdGid = true ∧ pkeyOk (s.reg
      Obj.guestCmdPkey) = true) ∧
    (∃ (s : State), s.accepts Obj.guestCmdResult ∧ s.pool.guests.has s.cmdGid = true ∧ (s.guest s.cmdGid).pinned = false ∧ s.pinRoom =
      true ∧ (s.guest s.cmdGid).resident = true) ∧
    (∃ (s : State), s.accepts Obj.guestCmdResult ∧ s.pool.guests.has s.cmdGid = true ∧ (s.guest s.cmdGid).pinned = false ∧ s.pinRoom =
      true ∧ (s.guest s.cmdGid).resident = false) ∧
    (∃ (s : State), s.served = true ∧ s.busy Obj.guestCmdResult = true ∧ ((s.pool.cmd.kind = 1 ∧ s.underOld s.pool.cmd.gid
      s.pool.cmd.dirEpoch = false) ∨ (s.pool.cmd.kind = 2 ∧ (s.guest s.pool.cmd.gid).key.kstate = 1))) :=
  ⟨⟨(({ mgr with pool := { setState := 3 } }.setReg Obj.guestCmdGid 7).setReg Obj.guestCmdPkey 5), by unfold State.accepts; decide⟩,
   ⟨({ mgr with pool := serving.pool }.setReg Obj.guestCmdGid 7), by unfold State.accepts; decide⟩,
   ⟨(({ mgr with pool := serving.pool }.setReg Obj.guestCmdGid 7).setReg Obj.guestCmdPkey 6), by unfold State.accepts; decide⟩,
   ⟨(serving.setReg Obj.guestCmdGid 7), by unfold State.accepts; decide⟩,
   ⟨({ ready with pool := { guests := { rows := [(7, {})] } } }.setReg Obj.guestCmdGid 7), by unfold State.accepts; decide⟩,
   ⟨({ ready with pool := { cmd := { kind := 1, gid := 7 } } }.setReg Obj.guestCmdResult 1), by decide⟩⟩

theorem witness_GuestSwapsComplete :
    (∃ (s : State) (gid : Fin 1048576) (w : Swap), s.running = true ∧ s.swapOf gid.val = some w ∧ w.slot = true ∧ s.pool.guests.has
      gid.val = true) ∧
    (∃ (s : State) (gid : Fin 1048576) (w : Swap), s.running = true ∧ s.swapOf gid.val = some w ∧ w.slot = false ∧ s.slotFree = false ∧
      s.swapVictim = none) ∧
    (∃ (s : State) (gid : Fin 1048576) (w : Swap), s.running = true ∧ s.swapOf gid.val = some w ∧ w.slot = false ∧ (s.slotFree = true ∨
      s.swapVictim.isSome = true)) ∧
    (∃ (s : State) (w : Swap) (ws : List Swap), s.running = true ∧ s.pool.swaps = w :: ws ∧ w.slot = false ∧ (s.slotFree = true ∨
      s.swapVictim.isSome = true)) :=
  ⟨⟨{ serving with pool := { serving.pool with swaps := [{ gid := 7, slot := true }] } }, 7, { gid := 7, slot := true }, by decide⟩,
   ⟨slotsFull, 7, { gid := 7 }, by decide, by decide, by decide, slotsFull_slotFree, by decide⟩,
   ⟨{ serving with pool := { serving.pool with swaps := [{ gid := 7 }] } }, 7, { gid := 7 }, by decide⟩,
   ⟨{ serving with pool := { serving.pool with swaps := [{ gid := 7 }] } }, { gid := 7 }, [], by decide⟩⟩

theorem witness_SetFormationCompletes :
    (∃ (s : State) (link : Fin 32) (p : Packet) (setId state : Nat) (nonce : Bytes), s.gets link.val p (.announce setId state nonce) ∧ setId = s.setIdNow ∧ setId ≠ 0 ∧ s.power.roleMgr = false ∧
      (s.pool.setState = 0 ∨ s.pool.setState = 1) ∧ s.pool.nonce = []) ∧
    (∃ (s : State) (link : Fin 32) (p : Packet) (setId state : Nat) (nonce : Bytes), s.gets link.val p (.announce setId state nonce) ∧ setId = s.setIdNow ∧ setId ≠ 0 ∧ s.power.roleMgr = true ∧
      s.pool.setState = 3 ∧ p.src ≠ s.epid) ∧
    (∃ (s : State) (link : Fin 32) (p : Packet) (setId state : Nat) (nonce : Bytes), s.gets link.val p (.announce setId state nonce) ∧ setId = s.setIdNow ∧ setId ≠ 0 ∧ s.power.roleMgr = false ∧
      (s.pool.setState = 2 ∨ s.pool.setState = 3) ∧ p.src ≠ s.pool.managerEpid) ∧
    (∃ (s : State) (link : Fin 32) (p : Packet) (setId state : Nat) (nonce : Bytes), s.gets link.val p (.announce setId state nonce) ∧ setId = s.setIdNow ∧ setId ≠ 0 ∧ s.power.roleMgr = true ∧
      s.pool.setState = 1 ∧ p.src ≠ s.epid) ∧
    (∃ (s : State), s.served = true ∧ s.power.roleMgr = true ∧ s.pool.setState ≠ 4 ∧ s.pool.setState ≠ 5) ∧
    (∃ (s : State) (link : Fin 32) (p : Packet) (idReq : Nat) (chain sig : Bytes) (d : Nat), s.gets link.val p (.join idReq chain sig) ∧ s.power.roleMgr = true ∧
      s.setIdNow ≠ 0 ∧ (s.pool.setState = 1 ∨ s.pool.setState = 3) ∧ s.joinDevid idReq (leafSerial chain) = some d) ∧
    (∃ (s : State) (link : Fin 32) (p : Packet) (idReq : Nat) (chain sig : Bytes), s.gets link.val p (.join idReq chain sig) ∧ s.power.roleMgr = true ∧
      s.setIdNow ≠ 0 ∧ (s.pool.setState = 1 ∨ s.pool.setState = 3) ∧ (s.joinOk idReq chain sig = false ∨ s.joinDevid idReq (leafSerial chain) = none)) ∧
    (∃ (s : State) (link : Fin 32) (p : Packet) (devid : Nat), s.gets link.val p (.admission devid) ∧ s.power.roleMgr = false ∧
      s.pool.setState = 1 ∧ p.src = s.pool.managerEpid) ∧
    (∃ (s : State) (link : Fin 32) (p : Packet) (setId state : Nat), s.gets link.val p (.refuse setId state) ∧ s.pool.setState = 1 ∧
      setId = s.setIdNow ∧ s.power.roleMgr = false ∧ p.src = s.pool.managerEpid) ∧
    (∃ (s : State) (link : Fin 32) (p : Packet) (setId state : Nat), s.gets link.val p (.refuse setId state) ∧ s.pool.setState = 1 ∧
      setId = s.setIdNow ∧ s.power.roleMgr = true ∧ state = 3) ∧
    (∃ (s : State) (link : Fin 32) (p : Packet) (ms : List (Nat × Nat)) (defs : List GuestDef) (erase : List Nat), s.gets link.val p (.distribute ms defs erase) ∧ 
      s.power.roleMgr = false ∧ (s.pool.setState = 2 ∨ s.pool.setState = 3) ∧ p.src = s.pool.managerEpid) ∧
    (∃ (s : State), s.served = true ∧ s.power.roleMgr = true ∧ s.pool.setState = 1) :=
  ⟨⟨inSet false 0, 3, setp, 5, 3, [], by unfold State.gets State.passes State.hears State.tracks; decide⟩,
   ⟨inSet true 3, 3, setp, 5, 3, [], by unfold State.gets State.passes State.hears State.tracks; decide⟩,
   ⟨inSet false 2, 3, { setp with src := 8 }, 5, 3, [], by unfold State.gets State.passes State.hears State.tracks; decide⟩,
   ⟨inSet true 1, 3, setp, 5, 1, [], by unfold State.gets State.passes State.hears State.tracks; decide⟩,
   ⟨inSet true 0, by decide⟩,
   ⟨inSet true 1, 3, setp, 0xFF, [], [], 1, by unfold State.gets State.passes State.hears State.tracks; decide⟩,
   ⟨inSet true 1, 3, setp, 64, [], [], by unfold State.gets State.passes State.hears State.tracks; exact ⟨by decide, by decide, by decide, by decide, Or.inl (by simp [State.joinOk])⟩⟩,
   ⟨inSet false 1, 3, setp, 3, by unfold State.gets State.passes State.hears State.tracks; decide⟩,
   ⟨inSet false 1, 3, setp, 5, 3, by unfold State.gets State.passes State.hears State.tracks; decide⟩,
   ⟨inSet true 1, 3, setp, 5, 3, by unfold State.gets State.passes State.hears State.tracks; decide⟩,
   ⟨inSet false 2, 3, setp, [], [], [], by unfold State.gets State.passes State.hears State.tracks; decide⟩,
   ⟨inSet true 1, by decide⟩⟩

theorem witness_MemoryRequestsComplete :
    (∃ (s : State) (link : Fin 32) (p : Packet) (g : Nat) (w : Window), s.admits link.val (s.mine p 0x01) g w ∧ s.cached g (s.mine p
      0x01)) ∧
    (∃ (s : State) (link : Fin 32) (p : Packet) (g : Nat) (w : Window), s.admits link.val (s.mine p 0x02) g w ∧ s.cached g (s.mine p
      0x02)) ∧
    (∃ (s : State) (link : Fin 32) (p : Packet) (g : Nat) (w : Window), s.admits link.val (s.mine p 0x03) g w ∧ s.cached g (s.mine p
      0x03)) ∧
    (∃ (s : State) (link : Fin 32) (p : Packet) (g : Nat) (w : Window), s.admits link.val (s.mine p 0x04) g w ∧ s.cached g (s.mine p
      0x04)) ∧
    (∃ (s : State) (link : Fin 32) (p : Packet) (g : Nat) (x : Stream), s.passes link.val (s.mine p 0x05) ∧ s.tracks link.val (s.mine p
      0x05) ∧ s.gmapLook p.src p.pkey = some g ∧ s.guestCheck g = none ∧ (s.guest g).resident = true ∧ s.work.streams.find (bitsOf p.addr
      47 28) = some x ∧ x.resident = true ∧ s.bellOk g p.addr = true) ∧
    (∃ (s : State) (link : Fin 32) (p : Packet) (g : Nat) (x : Stream), s.passes link.val (s.mine p 0x05) ∧ s.tracks link.val (s.mine p
      0x05) ∧ s.gmapLook p.src p.pkey = some g ∧ s.guestCheck g = none ∧ (s.guest g).resident = true ∧ s.work.streams.find (bitsOf p.addr
      47 28) = some x ∧ x.resident = true ∧ s.bellOk g p.addr = false) :=
  ⟨⟨serving, 3, pkt 0 64 0, 7, win 0 false, by exact ⟨⟨by unfold State.passes; decide, by unfold State.tracks; decide, by decide, by decide, by decide, by decide, serving_keyed⟩, one_page (0, 64) 0 (by decide) (by rfl) (by decide)⟩⟩,
   ⟨serving, 3, pkt 0 64 1, 7, win 0 false, by exact ⟨⟨by unfold State.passes; decide, by unfold State.tracks; decide, by decide, by decide, by decide, by decide, serving_keyed⟩, one_page (0, 64) 0 (by decide) (by rfl) (by decide)⟩⟩,
   ⟨serving, 3, pkt 0 64 1, 7, win 0 false, by exact ⟨⟨by unfold State.passes; decide, by unfold State.tracks; decide, by decide, by decide, by decide, by decide, serving_keyed⟩, one_page (0, 64) 0 (by decide) (by rfl) (by decide)⟩⟩,
   ⟨serving, 3, pkt 0 0x0022 1, 7, win 0 false, by exact ⟨⟨by unfold State.passes; decide, by unfold State.tracks; decide, by decide, by decide, by decide, by decide, serving_keyed⟩, one_page (0, 4) 0 (by decide) (by rfl) (by decide)⟩⟩,
   ⟨serving, 3, pkt (3 * 2 ^ 28 + 1) 0 0, 7, { gid := 7, resident := true }, by unfold State.passes State.tracks; decide⟩,
   ⟨serving, 3, pkt (3 * 2 ^ 28) 0 0, 7, { gid := 7, resident := true }, by unfold State.passes State.tracks; decide⟩⟩

theorem witness_AccessesAnswer :
    (∃ (s : State) (k : Nat) (r : Req), s.pool.reqs.find k = some r ∧ r.hearth = false ∧ r.p.opc = 0x01 ∧ r.ready = true) ∧
    (∃ (s : State) (k : Nat) (r : Req), s.pool.reqs.find k = some r ∧ r.hearth = false ∧ (r.p.opc = 0x02 ∨ r.p.opc = 0x03) ∧ (∃ x ∈
      storeLines r.pas r.p.payload, s.lineLost x.1 = true)) ∧
    (∃ (s : State) (k : Nat) (r : Req), s.pool.reqs.find k = some r ∧ r.hearth = false ∧ (r.p.opc = 0x02 ∨ r.p.opc = 0x03) ∧ (∀ x ∈
      storeLines r.pas r.p.payload, s.lineLost x.1 = false ∧ s.wcbRoom x.1 = true)) ∧
    (∃ (s : State) (k : Nat) (r : Req) (x : Nat × Nat) (xs : List (Nat × Nat)), s.pool.reqs.find k = some r ∧ r.hearth = false ∧ r.p.opc =
      0x04 ∧ r.ready = true ∧ r.pas = x :: xs ∧ (r.poisoned = true ∨ r.p.poi = true)) ∧
    (∃ (s : State) (k : Nat) (r : Req) (x : Nat × Nat) (xs : List (Nat × Nat)), s.pool.reqs.find k = some r ∧ r.hearth = false ∧ r.p.opc =
      0x04 ∧ r.ready = true ∧ r.pas = x :: xs ∧ r.poisoned = false ∧ r.p.poi = false ∧ s.wcbRoom x.1 = true) :=
  ⟨⟨holding { p := { opc := 1 }, pas := [(0, 64)], got := { rows := [(0, zeroBytes 64, false)] } }, 5, { p := { opc := 1 }, pas := [(0, 64)], got := { rows := [(0, zeroBytes 64, false)] } }, by decide⟩,
   ⟨holding { p := { opc := 2, payload := zeroBytes 64 }, pas := [(2 ^ 30, 64)] }, 5, { p := { opc := 2, payload := zeroBytes 64 }, pas := [(2 ^ 30, 64)] }, by decide⟩,
   ⟨holding { p := { opc := 2, payload := zeroBytes 64 }, pas := [(0, 64)] }, 5, { p := { opc := 2, payload := zeroBytes 64 }, pas := [(0, 64)] }, by decide⟩,
   ⟨holding { p := { opc := 4, poi := true }, pas := [(0, 4)], got := { rows := [(0, zeroBytes 64, false)] } }, 5, { p := { opc := 4, poi := true }, pas := [(0, 4)], got := { rows := [(0, zeroBytes 64, false)] } }, (0, 4), [], by decide⟩,
   ⟨holding { p := { opc := 4 }, pas := [(0, 4)], got := { rows := [(0, zeroBytes 64, false)] } }, 5, { p := { opc := 4 }, pas := [(0, 4)], got := { rows := [(0, zeroBytes 64, false)] } }, (0, 4), [], by decide⟩⟩

theorem witness_OtherPacketsComplete :
    (∃ (s : State) (link : Fin 32) (p : Packet), s.passes link.val (s.mine p 0x06)) ∧
    (∃ (s : State) (link : Fin 32) (p : Packet) (r : RateEntry), s.passes link.val (s.mine p 0x07) ∧ p.ece = false ∧ p.tc ≤ 1 ∧ s.flag
      Obj.ccEnable = true ∧ s.fabric.rates.find (rateKey p.src p.tc) = some r ∧ r.decreased + s.reg Obj.ccHold * 1000 ≤ s.now) ∧
    (∃ (s : State) (link : Fin 32) (p : Packet) (o : OwnReq), s.passes link.val (s.mine p 0x08) ∧ s.fabric.own.find? (fun o => o.dst ==
      p.src && o.tc == p.tc && o.tag == p.tag) = some o) ∧
    (∃ (s : State) (link : Fin 32) (p : Packet), s.passes link.val (s.mine p 0x08) ∧ s.fabric.own.find? (fun o => o.dst == p.src && o.tc
      == p.tc && o.tag == p.tag) = none) ∧
    (∃ (s : State) (link : Fin 32) (p : Packet), s.passes link.val (s.mine p 0x30) ∧ s.tracks link.val (s.mine p 0x30) ∧ s.inbandOn = true
      ∧ (pduOf p.payload).rsp = false ∧ s.dictAway = false ∧ s.dict.queue.length < 64) ∧
    (∃ (s : State) (link : Fin 32) (p : Packet) (l : Nat) (q : Packet), s.running = true ∧ s.power.st = 0 ∧ (s.atPort link.val p).isSome =
      true ∧ s.formOk p = true ∧ s.keyOk link.val p = true ∧ p.dst ≠ s.epid ∧ p.dst ≠ 0xFFFFF ∧ s.hopsOut p = false ∧ s.route p (some
      link.val) = some (l, q) ∧ s.keyOk l q = true) ∧
    (∃ (s : State) (src seq : Nat), s.running = true) :=
  ⟨⟨serving, 3, { pkt 0 0 1 with tc := 1, vc := 2 }, by unfold State.passes; decide⟩,
   ⟨{ serving with power := { serving.power with timebase := 1000000000 }, fabric := { serving.fabric with rates := { rows := [(rateKey 9 0, {})] } } }, 3, pkt 0 0 0, {}, by unfold State.passes; decide⟩,
   ⟨{ serving with fabric := { serving.fabric with own := [{ dst := 9 }] } }, 3, pkt 0 0 0, { dst := 9 }, by unfold State.passes; decide⟩,
   ⟨serving, 3, pkt 0 0 0, by unfold State.passes; decide⟩,
   ⟨serving, 3, setp, by unfold State.passes State.tracks; decide⟩,
   ⟨{ serving with fabric := { serving.fabric with links := { rows := [(3, { st := 4 }), (19, { st := 4 })] }, keySets := { rows := [(3, [5]), (19, [5])] }, exactRoutes := { rows := [(2, 0x8003)] } }, forced := { rows := [(Obj.pairMode 3, 1)] } }, 19, { pkt 0 64 0 with dst := 2, opc := 1 }, 3, { pkt 0 64 0 with dst := 2, opc := 1 }, by decide⟩,
   ⟨serving, 9, 4, by decide⟩⟩

theorem witness_CoherencePacketsComplete :
    (∃ (s : State) (link : Fin 32) (p : Packet) (g : Nat) (w : Window), s.admits link.val (s.mine p 0x10) g w ∧ s.cached g (s.mine p
      0x10)) ∧
    (∃ (s : State) (link : Fin 32) (p : Packet) (g : Nat) (w : Window), s.admits link.val (s.mine p 0x11) g w ∧ s.cached g (s.mine p
      0x11)) ∧
    (∃ (s : State) (link : Fin 32) (p : Packet) (g : Nat) (w : Window), s.admits link.val (s.mine p 0x12) g w ∧ s.cached g (s.mine p
      0x12)) ∧
    (∃ (s : State) (link : Fin 32) (p : Packet) (g : Nat) (w : Window), s.admits link.val (s.mine p 0x13) g w ∧ s.cached g (s.mine p
      0x13)) ∧
    (∃ (s : State) (link : Fin 32) (p : Packet) (g : Nat) (w : Window), s.admits link.val (s.mine p 0x14) g w ∧ s.cached g (s.mine p
      0x14)) ∧
    (∃ (s : State) (link : Fin 32) (p : Packet) (c l : Nat) (e : Ce) (d : Dir), s.ceOf p.src = some (c, e) ∧ e.fenced = false ∧
      s.snoopedLine c p.tag = some (l, d) ∧ s.passes link.val (s.mine p 0x21) ∧ (d.wbGot = false ∨ d.owner ≠ c)) ∧
    (∃ (s : State) (link : Fin 32) (p : Packet) (c l : Nat) (e : Ce) (d : Dir), s.ceOf p.src = some (c, e) ∧ e.fenced = false ∧
      s.snoopedLine c p.tag = some (l, d) ∧ s.passes link.val (s.mine p 0x22) ∧ (d.wbGot = false ∨ d.owner ≠ c)) ∧
    (∃ (s : State) (link : Fin 32) (p : Packet) (c l : Nat) (e : Ce) (d : Dir), s.ceOf p.src = some (c, e) ∧ e.fenced = false ∧
      s.snoopedLine c p.tag = some (l, d) ∧ s.passes link.val (s.mine p 0x23) ∧ d.owner = c ∧ d.wbGot = false) ∧
    (∃ (s : State) (link : Fin 32) (p : Packet), 0x15 ≤ p.opc ∧ p.opc ≤ 0x23 ∧ s.passes link.val (s.mine p p.opc) ∧ s.ceOf p.src = none) :=
  ⟨⟨serving, 3, { pkt (2 ^ 30) 0 0 with tc := 2, vc := 4 }, 7, win 1 true, by exact ⟨⟨by unfold State.passes; decide, by unfold State.tracks; decide, by decide, by decide, by decide, by decide, serving_keyed⟩, one_page (2 ^ 30, 1) 65536 (by decide) (by rfl) (by decide)⟩⟩,
   ⟨serving, 3, { pkt (2 ^ 30) 0 0 with tc := 2, vc := 4 }, 7, win 1 true, by exact ⟨⟨by unfold State.passes; decide, by unfold State.tracks; decide, by decide, by decide, by decide, by decide, serving_keyed⟩, one_page (2 ^ 30, 1) 65536 (by decide) (by rfl) (by decide)⟩⟩,
   ⟨serving, 3, { pkt (2 ^ 30) 0 0 with tc := 2, vc := 4 }, 7, win 1 true, by exact ⟨⟨by unfold State.passes; decide, by unfold State.tracks; decide, by decide, by decide, by decide, by decide, serving_keyed⟩, one_page (2 ^ 30, 1) 65536 (by decide) (by rfl) (by decide)⟩⟩,
   ⟨serving, 3, { pkt (2 ^ 30) 0 1 with tc := 2, vc := 4 }, 7, win 1 true, by exact ⟨⟨by unfold State.passes; decide, by unfold State.tracks; decide, by decide, by decide, by decide, by decide, serving_keyed⟩, one_page (2 ^ 30, 1) 65536 (by decide) (by rfl) (by decide)⟩⟩,
   ⟨serving, 3, { pkt (2 ^ 30) 0 0 with tc := 2, vc := 4 }, 7, win 1 true, by exact ⟨⟨by unfold State.passes; decide, by unfold State.tracks; decide, by decide, by decide, by decide, by decide, serving_keyed⟩, one_page (2 ^ 30, 1) 65536 (by decide) (by rfl) (by decide)⟩⟩,
   ⟨coherent (coh 0x10) false [(1024, { st := 6, snoops := [(1, 0x19, 8, 0)] })], 3, { pkt 0 0 0 with tc := 2, vc := 4, tag := 8 }, 1, 1024, { epid := 9 }, { st := 6, snoops := [(1, 0x19, 8, 0)] }, by unfold State.passes; decide⟩,
   ⟨coherent (coh 0x10) false [(1024, { st := 6, snoops := [(1, 0x19, 8, 0)] })], 3, { pkt 0 0 1 with tc := 2, vc := 4, tag := 8 }, 1, 1024, { epid := 9 }, { st := 6, snoops := [(1, 0x19, 8, 0)] }, by unfold State.passes; decide⟩,
   ⟨coherent (coh 0x10) false [(1024, { st := 6, owner := 1, snoops := [(1, 0x19, 8, 0)] })], 3, { pkt 0 0 0 with tc := 2, vc := 4, tag := 8 }, 1, 1024, { epid := 9 }, { st := 6, owner := 1, snoops := [(1, 0x19, 8, 0)] }, by unfold State.passes; decide⟩,
   ⟨serving, 3, { pkt 0 0 0 with tc := 2, vc := 4, opc := 0x21 }, by unfold State.passes; decide⟩⟩

theorem witness_CoherentRequestsAreServed :
    (∃ (s : State) (k c : Nat) (r : Req) (e : Ce) (x : Nat × Nat) (xs : List (Nat × Nat)), s.pool.reqs.find k = some r ∧ isCoh r.p.opc =
      true ∧ r.pas = x :: xs ∧ s.ceOf r.p.src = none) ∧
    (∃ (s : State) (k c : Nat) (r : Req) (e : Ce) (x : Nat × Nat) (xs : List (Nat × Nat)), s.pool.reqs.find k = some r ∧ isCoh r.p.opc =
      true ∧ r.pas = x :: xs ∧ s.ceOf r.p.src = some (c, e) ∧ e.fenced = true) ∧
    (∃ (s : State) (k c : Nat) (r : Req) (e : Ce) (x : Nat × Nat) (xs : List (Nat × Nat)), s.pool.reqs.find k = some r ∧ isCoh r.p.opc =
      true ∧ r.pas = x :: xs ∧ s.ceOf r.p.src = some (c, e) ∧ e.fenced = false ∧ r.p.opc ≠ 0x13 ∧ r.p.opc ≠ 0x14 ∧ s.hbusy (s.hline x.1) =
      true) ∧
    (∃ (s : State) (k c : Nat) (r : Req) (e : Ce) (x : Nat × Nat) (xs : List (Nat × Nat)), s.pool.reqs.find k = some r ∧ isCoh r.p.opc =
      true ∧ r.pas = x :: xs ∧ s.ceOf r.p.src = some (c, e) ∧ e.fenced = false ∧ r.p.opc ≠ 0x13 ∧ r.p.opc ≠ 0x14 ∧ s.hwaits k (s.hline x.1) = false ∧ s.dirOf (s.hline x.1) =
      none ∧ s.hasWay (s.hline x.1) = true ∧ (s.hread (s.hline x.1)).1.waits = false) ∧
    (∃ (s : State) (k c : Nat) (r : Req) (e : Ce) (x : Nat × Nat) (xs : List (Nat × Nat)) (d : Dir), s.pool.reqs.find k = some r ∧ isCoh
      r.p.opc = true ∧ r.pas = x :: xs ∧ s.ceOf r.p.src = some (c, e) ∧ e.fenced = false ∧ r.p.opc = 0x10 ∧ s.hwaits k (s.hline x.1) = false ∧ s.dirOf
      (s.hline x.1) = some d ∧ d.st = 1 ∧ (s.hread (s.hline x.1)).1.waits = false) ∧
    (∃ (s : State) (k c : Nat) (r : Req) (e : Ce) (x : Nat × Nat) (xs : List (Nat × Nat)) (d : Dir) (o : Nat) (os : List Nat) (f : Ce),
      s.pool.reqs.find k = some r ∧ isCoh r.p.opc = true ∧ r.pas = x :: xs ∧ s.ceOf r.p.src = some (c, e) ∧ e.fenced = false ∧ r.p.opc ≠
      0x13 ∧ r.p.opc ≠ 0x14 ∧ s.hwaits k (s.hline x.1) = false ∧ s.dirOf (s.hline x.1) = some d ∧ d.st = 2 ∧ d.ptrs = o :: os ∧ o ≠ c ∧
      s.hearth.ces.find o = some f ∧ f.fenced = false) ∧
    (∃ (s : State) (k c : Nat) (r : Req) (e : Ce) (x : Nat × Nat) (xs : List (Nat × Nat)) (d : Dir), s.pool.reqs.find k = some r ∧ isCoh
      r.p.opc = true ∧ r.pas = x :: xs ∧ s.ceOf r.p.src = some (c, e) ∧ e.fenced = false ∧ r.p.opc = 0x13 ∧ s.dirOf (s.hline x.1) = some d
      ∧ d.st = 2 ∧ d.holder = c ∧ s.hearth.flush = none) :=
  ⟨⟨holding (coh 0x10), 5, 1, coh 0x10, {}, (65536, 1), [], by decide⟩,
   ⟨coherent (coh 0x10) true [], 5, 1, coh 0x10, { epid := 9, fenced := true }, (65536, 1), [], by decide⟩,
   ⟨coherent (coh 0x10) false [(1024, { st := 4 })], 5, 1, coh 0x10, { epid := 9 }, (65536, 1), [], by decide⟩,
   ⟨coherent (coh 0x11) false [], 5, 1, coh 0x11, { epid := 9 }, (65536, 1), [], by decide⟩,
   ⟨coherent (coh 0x10) false [(1024, { st := 1 })], 5, 1, coh 0x10, { epid := 9 }, (65536, 1), [], { st := 1 }, by decide⟩,
   ⟨{ coherent (coh 0x10) false [(1024, { st := 2, ptrs := [2] })] with hearth := { ces := { rows := [(1, { epid := 9 }), (2, { epid := 8 })] }, dir := { rows := [(1024, { st := 2, ptrs := [2] })] } } }, 5, 1, coh 0x10, { epid := 9 }, (65536, 1), [], { st := 2, ptrs := [2] }, 2, [], { epid := 8 }, by decide⟩,
   ⟨coherent (coh 0x13) false [(1024, { st := 2, ptrs := [1] })], 5, 1, coh 0x13, { epid := 9 }, (65536, 1), [], { st := 2, ptrs := [1] }, by decide⟩⟩

theorem witness_HearthCommandsComplete :
    (∃ (s : State) (c : Nat), s.accepts Obj.hearthCmdResult ∧ s.hearth.ces.lowestFree 4096 = some c) ∧
    (∃ (s : State), s.accepts Obj.hearthCmdResult ∧ s.hearth.ces.has (s.reg Obj.hearthCmdCeid) = true ∧ s.hearth.dir.rows.any (fun r =>
      decide (r.1 < 2 ^ 30) && s.mayHold r.1 (s.reg Obj.hearthCmdCeid) r.2) = false) ∧
    (∃ (s : State) (e : Ce), s.accepts Obj.hearthCmdResult ∧ s.hearth.ces.find (s.reg Obj.hearthCmdCeid) = some e ∧ e.walking = false) ∧
    (∃ (s : State), s.accepts Obj.hearthCmdResult ∧ s.hearthRange (s.reg Obj.hearthCmdPa) (s.reg Obj.hearthCmdLen) = true ∧
      s.hearth.dir.rows.any (fun r => decide (s.hline (s.reg Obj.hearthCmdPa) ≤ r.1) && decide (r.1 < s.hline (s.reg Obj.hearthCmdPa) +
      s.reg Obj.hearthCmdLen / 64)) = false) ∧
    (∃ (s : State), s.accepts Obj.hearthCmdResult ∧ s.hearthRange (s.reg Obj.hearthCmdPa) 64 = true) :=
  ⟨⟨hearthed, 0, by unfold State.accepts; decide⟩,
   ⟨({ hearthed with hearth := { ces := { rows := [(1, { epid := 9 })] }, dir := { rows := [] }, queue := [] } }.setReg Obj.hearthCmdCeid 1), by unfold State.accepts; decide⟩,
   ⟨({ hearthed with hearth := { ces := { rows := [(1, { epid := 9 })] }, dir := { rows := [] }, queue := [] } }.setReg Obj.hearthCmdCeid 1), { epid := 9 }, by unfold State.accepts; decide⟩,
   ⟨(hearthed.setReg Obj.hearthCmdLen 64), by unfold State.accepts; decide⟩,
   ⟨hearthed, by unfold State.accepts; decide⟩⟩

theorem witness_HearthEventsComplete :
    (∃ (s : State) (line l k : Nat), s.running = true ∧ s.hbusy line = false ∧ s.hearth.queue.find? (fun x => x.1 == line) = some (l, k)) ∧
    (∃ (s : State) (line v : Nat) (d : Dir), s.running = true ∧ s.hearth.queue.any (fun x => x.1 == line) = true ∧ s.dirOf line = none ∧
      s.hasWay line = false ∧ s.hasVictim line = false ∧ s.hearth.dir.count (fun _ d => d.isVictim) < s.reg Obj.hearthBiMax ∧ s.hvictim line = some
      (v, d)) ∧
    (∃ (s : State) (line k : Nat) (d : Dir) (r : Req), s.running = true ∧ s.dirOf line = some d ∧ d.st = 6 ∧ d.snoops = [] ∧ d.grant =
      .uncached k ∧ s.pool.reqs.find k = some r) ∧
    (∃ (s : State) (line : Nat) (ceid : Fin 4096) (d : Dir) (e : Ce), s.running = true ∧ s.dirOf line = some d ∧ d.snoops.any (fun x =>
      x.1 == ceid.val) = true ∧ s.hearth.ces.find ceid.val = some e ∧ s.hearth.flush = none) ∧
    (∃ (s : State) (ceid : Fin 4096) (e : Ce), s.running = true ∧ s.hearth.ces.find ceid.val = some e ∧ e.walking = true ∧ s.hearth.flush
      = none) :=
  ⟨⟨{ hearthed with hearth := { ces := { rows := [(1, { epid := 9 })] }, dir := { rows := [] }, queue := [(4, 5)] } }, 4, 4, 5, by decide⟩,
   ⟨{ hearthed with hearth := { dir := { rows := (List.range 16).map fun i => ((i + 1) * 1048576 + (4 ^^^ (i + 1)), { way := i }) }, queue := [(4, 5)] } }, 4, 1048576 + (4 ^^^ 1), { way := 0 }, by decide⟩,
   ⟨{ holding (coh 0x01) with hearth := { dir := { rows := [(4, { st := 6, grant := .uncached 5 })] } } }, 4, 5, { st := 6, grant := .uncached 5 }, coh 0x01, by decide⟩,
   ⟨{ hearthed with hearth := { ces := { rows := [(1, { epid := 9 })] }, dir := { rows := [(4, { st := 6, snoops := [(1, 0x19, 8, 0)] })] }, queue := [] } }, 4, 1, { st := 6, snoops := [(1, 0x19, 8, 0)] }, { epid := 9 }, by decide⟩,
   ⟨{ hearthed with hearth := { ces := { rows := [(1, { epid := 9, walking := true })] } } }, 1, { epid := 9, walking := true }, by decide⟩⟩

theorem witness_InnkeeperEventsComplete :
    (∃ (s : State), s.ikServes = true ∧ s.ik.active < 2 ∧ s.ik.beat + 3000000 ≤ s.now) ∧
    (∃ (s : State) (die : Fin 2) (cause : Fin 3), s.ikServes = true ∧ s.ik.active = die.val) ∧
    (∃ (s : State) (die : Fin 2) (cause : Fin 3) (x : Takeover), s.ikRuns = true ∧ s.ik.gap = some x ∧ x.target = die.val ∧ x.planned =
      false) ∧
    (∃ (s : State) (x : Takeover), s.ikRuns = true ∧ s.ik.gap = some x ∧ (s.ikd x.target).st = 3) ∧
    (∃ (s : State), s.ikServes = true ∧ s.ik.ckptDue = none ∧ s.ik.planned = none) ∧
    (∃ (s : State) (x : Takeover), s.ikServes = true ∧ s.ik.ckptDue = none ∧ s.ik.planned = some x ∧ (s.ikd (1 - s.ik.active)).st = 3 ∧
      s.dict.queue = []) ∧
    (∃ (s : State) (c : Ckpt), s.ikServes = true ∧ s.ik.ckptDue = some c) ∧
    (∃ (s : State), s.ikServes = true ∧ s.ik.ckptDue.isSome = true ∧ s.ik.ckptLate = false) ∧
    (∃ (s : State) (die : Fin 2), s.ikRuns = true ∧ s.ik.bothLost = false ∧ s.ik.active ≠ die.val ∧ ((s.ikd die.val).st = 1 ∨ (s.ikd
      die.val).st = 3 ∧ s.takes die.val = false)) ∧
    (∃ (s : State) (die : Fin 2) (n : Nat), s.ikRuns = true ∧ s.ik.bothLost = true ∧ (s.ikd die.val).st ≠ 6 ∧ s.bootSlot = some n) :=
  ⟨⟨{ ready with power := { ready.power with timebase := 3000000 } }, by decide⟩,
   ⟨ready, 0, 0, by decide⟩,
   ⟨{ ready with ik := { ready.ik with gap := some { target := 1, cause := 1 } } }, 1, 0, { target := 1, cause := 1 }, by decide⟩,
   ⟨{ ready with ik := { ready.ik with gap := some { target := 1, cause := 1 } } }, { target := 1, cause := 1 }, by decide⟩,
   ⟨ready, by decide⟩,
   ⟨{ ready with ik := { ready.ik with planned := some { target := 1, planned := true } } }, { target := 1, planned := true }, by decide⟩,
   ⟨{ ready with ik := { ready.ik with ckptDue := some {} } }, {}, by decide⟩,
   ⟨{ ready with ik := { ready.ik with ckptDue := some {} } }, by decide⟩,
   ⟨ready, 1, by decide⟩,
   ⟨{ ready with ik := { ready.ik with bothLost := true, active := 0xFF }, sec := { ready.sec with slotA := { valid := true, svn := Config.svnFused } } }, 0, 0, by refine ⟨by decide, by decide, by decide, ?_⟩; simp [State.bootSlot, State.bootOrder, State.checkSlot, State.slotImage, State.svnMin, ready, Sec.slotOf]⟩⟩

theorem witness_InnkeeperCommandsComplete :
    (∃ (s : State), s.accepts Obj.ikCmdResult ∧ (s.ikd (1 - s.ik.active)).st = 3) ∧
    (∃ (s : State), s.accepts Obj.ikCmdResult ∧ s.reg Obj.ikCmdDie < 2 ∧ s.reg Obj.ikCmdDie ≠ s.ik.active ∧ (s.ikd (s.reg
      Obj.ikCmdDie)).st = 5) ∧
    (∃ (s : State), s.accepts Obj.ikCmdResult ∧ s.reg Obj.ikCmdDie < 2 ∧ s.reg Obj.ikCmdDie ≠ s.ik.active ∧ (s.ikd (s.reg
      Obj.ikCmdDie)).st = 6) :=
  ⟨⟨ready, by unfold State.accepts; decide⟩,
   ⟨({ ready with ik := { ready.ik with dies := { rows := [(0, { st := 4 }), (1, { st := 5 })] } } }.setReg Obj.ikCmdDie 1), by unfold State.accepts; decide⟩,
   ⟨({ ready with ik := { ready.ik with dies := { rows := [(0, { st := 4 }), (1, { st := 6 })] } } }.setReg Obj.ikCmdDie 1), by unfold State.accepts; decide⟩⟩

theorem witness_InterruptsComplete :
    (∃ (s : State) (src : Fin 512), s.up = true ∧ s.irq.stopped = false ∧ s.ik.gap = none ∧ s.ik.bothLost = false) ∧
    (∃ (s : State) (src : Fin 512), s.up = true ∧ s.irq.stopped = true) ∧
    (∃ (s : State) (re : Fin 16) (src c : Nat), s.served = true ∧ s.irqWinner = some src ∧ State.irqTarget { s with irq :=
      { s.irq with coreIe := s.irq.coreIe.zipIdx.map fun x => x.1 || re.val.testBit x.2 } } = some c) ∧
    (∃ (s : State), s.accepts Obj.irqCmdResult ∧ s.reg Obj.irqCmdSource < 1024) ∧
    (∃ (s : State) (v : Nat), s.served = true) :=
  ⟨⟨ready, 511, by decide⟩,
   ⟨{ ready with irq := { ready.irq with stopped := true } }, 511, by decide⟩,
   ⟨({ ready with irq := { ready.irq with pend := { bits := 2 ^ 5 }, vectors := { rows := [(5, 64)] }, prios := { rows := [(5, 1)] } } }.setBlob Obj.irqMask []), 0, 5, 0, by set_option maxRecDepth 20000 in decide⟩,
   ⟨(ready.setReg Obj.irqCmdSource 1023), by unfold State.accepts; decide⟩,
   ⟨ready, 0, by decide⟩⟩

theorem witness_PigeonholesComplete :
    (∃ (s : State) (link : Fin 32) (p : Packet), s.ik.gap = none ∧ s.ik.bothLost = false ∧ (s.hole (bitsOf p.addr 15 10)).owner.testBit 31
      = true ∧ p.src = bitsOf (s.hole (bitsOf p.addr 15 10)).owner 19 0 ∧ s.passes link.val (s.pigeonPkt p 1) ∧ s.tracks link.val
      (s.pigeonPkt p 1) ∧ pigeonFormed (s.pigeonPkt p 1) = true ∧ (s.hole (bitsOf p.addr 15 10)).inFull = false) ∧
    (∃ (s : State) (link : Fin 32) (p : Packet), s.ik.gap = none ∧ s.ik.bothLost = false ∧ (s.hole (bitsOf p.addr 15 10)).owner.testBit 31
      = true ∧ p.src = bitsOf (s.hole (bitsOf p.addr 15 10)).owner 19 0 ∧ s.passes link.val (s.pigeonPkt p 2) ∧ s.tracks link.val
      (s.pigeonPkt p 2) ∧ pigeonFormed (s.pigeonPkt p 2) = true) ∧
    (∃ (s : State) (link : Fin 32) (p : Packet), s.ik.gap = none ∧ s.ik.bothLost = false ∧ (s.hole (bitsOf p.addr 15 10)).owner.testBit 31
      = true ∧ p.src = bitsOf (s.hole (bitsOf p.addr 15 10)).owner 19 0 ∧ s.passes link.val (s.pigeonPkt p 3) ∧ s.tracks link.val
      (s.pigeonPkt p 3) ∧ pigeonFormed (s.pigeonPkt p 3) = true) ∧
    (∃ (s : State), s.accepts Obj.pigeonCmdResult ∧ s.reg Obj.pigeonCmdHole < 64 ∧ (s.hole (s.reg Obj.pigeonCmdHole)).inFull = true) ∧
    (∃ (s : State), s.accepts Obj.pigeonCmdResult ∧ s.reg Obj.pigeonCmdHole < 64 ∧ 1 ≤ s.reg Obj.pigeonCmdWords ∧ s.reg Obj.pigeonCmdWords
      ≤ 8 ∧ (s.hole (s.reg Obj.pigeonCmdHole)).outFull = false) ∧
    (∃ (s : State) (hole : Fin 64) (v : Nat), s.served = true ∧ bitsOf v 30 20 = 0 ∧ v < 2 ^ 32) :=
  ⟨⟨{ serving with holes := { rows := [(5, { owner := 2 ^ 31 + 9 })] } }, 3, { setp with addr := 5 * 1024 + 8 * 64, len := 1, payload := zeroBytes 64 }, by unfold State.passes State.tracks; decide⟩,
   ⟨{ serving with holes := { rows := [(5, { owner := 2 ^ 31 + 9 })] } }, 3, { setp with addr := 5 * 1024, len := 0, payload := zeroBytes 0 }, by unfold State.passes State.tracks; decide⟩,
   ⟨{ serving with holes := { rows := [(5, { owner := 2 ^ 31 + 9 })] } }, 3, { setp with addr := 5 * 1024, len := 0, payload := zeroBytes 0 }, by unfold State.passes State.tracks; decide⟩,
   ⟨({ serving with holes := { rows := [(5, { owner := 2 ^ 31 + 9, inFull := true })] } }.setReg Obj.pigeonCmdHole 5), by unfold State.accepts; decide⟩,
   ⟨(({ serving with holes := { rows := [(5, { owner := 2 ^ 31 + 9 })] } }.setReg Obj.pigeonCmdHole 5).setReg Obj.pigeonCmdWords 8), by unfold State.accepts; decide⟩,
   ⟨ready, 63, 2 ^ 31 + 2 ^ 20 - 1, by decide⟩⟩

theorem witness_StreamCommandsComplete :
    (∃ (s : State), s.accepts Obj.streamCmdResult ∧ s.work.streams.has s.cmdStream = false ∧ s.guestSound (s.reg Obj.streamCmdGid % 2 ^
      20) = true ∧ s.ringOk (s.reg Obj.streamCmdGid % 2 ^ 20) (s.reg Obj.streamCmdRingPva) (s.reg Obj.streamCmdLog2Size) = true) ∧
    (∃ (s : State) (k : Stream), s.accepts Obj.streamCmdResult ∧ s.work.streams.find s.cmdStream = some k ∧ k.held = none ∧ s.streamBusy
      s.cmdStream = false) :=
  ⟨⟨((serving.setReg Obj.streamCmdGid 7).setReg Obj.streamCmdStream 1048575), by unfold State.accepts; decide⟩,
   ⟨(serving.setReg Obj.streamCmdStream 3), { gid := 7, resident := true }, by unfold State.accepts; decide⟩⟩

theorem witness_TallyCommandsComplete :
    (∃ (s : State) (n : Nat), s.accepts Obj.tallyCmdResult ∧ s.guestSound (s.reg Obj.tallyCmdGid % 2 ^ 20) = true ∧
      s.work.tallies.lowestFree 16384 = some n) ∧
    (∃ (s : State) (x : Tally), s.accepts Obj.tallyCmdResult ∧ s.work.tallies.find s.cmdTally = some x ∧ s.waiters s.cmdTally = 0) ∧
    (∃ (s : State) (x : Tally), s.accepts Obj.tallyCmdResult ∧ s.work.tallies.find s.cmdTally = some x ∧ (bitOf (s.reg Obj.tallyCmdFlags)
      0 = false ∨ s.mirrorOk x.gid (s.reg Obj.tallyCmdMirrorPva) = true)) ∧
    (∃ (s : State) (tally : Fin 16384) (x : Tally) (w : Window), s.running = true ∧ s.work.tallies.find tally.val = some x ∧
      x.due = true ∧ (s.guest x.gid).windowAt x.mirrorPva = some w ∧ s.homed w = true ∧ w.write = true ∧ s.keyCheck x.gid = none ∧
      s.keyUnwraps x.gid = true ∧ s.guestCheck x.gid = none ∧ (s.guest x.gid).resident = false) ∧
    (∃ (s : State) (tally : Fin 16384) (x : Tally) (w : Window) (pa : Nat), s.running = true ∧ s.work.tallies.find tally.val = some x ∧
      x.due = true ∧ (s.guest x.gid).windowAt x.mirrorPva = some w ∧ s.homed w = true ∧ w.write = true ∧ s.keyCheck x.gid = none ∧
      s.keyUnwraps x.gid = true ∧ s.guestCheck x.gid = none ∧ (s.guest x.gid).resident = true ∧ s.xlCached x.gid x.mirrorPva true = .ok pa ∧
      s.filling pa = none ∧ (s.publishWrite pa x.gid (leBytes 8 x.count)).1 = true) ∧
    (∃ (s : State), s.served = true) ∧
    (∃ (s : State) (v : Nat), s.served = true) :=
  ⟨⟨(serving.setReg Obj.tallyCmdGid 7), 0, by unfold State.accepts; decide⟩,
   ⟨working (way 0x61 1), { gid := 7 }, by unfold State.accepts; decide⟩,
   ⟨working (way 0x61 1), { gid := 7 }, by unfold State.accepts; decide⟩,
   ⟨mirroring false, 0, mirror8, win 0 false, by exact ⟨by decide, by decide, by decide, by decide, by decide, by decide, by decide, mirroring_keyed false, by decide, by decide⟩⟩,
   ⟨mirroring true, 0, mirror8, win 0 false, 8, by exact ⟨by decide, by decide, by decide, by decide, by decide, by decide, by decide, mirroring_keyed true, by decide, by decide, by rfl, by decide, by decide⟩⟩,
   ⟨ready, by decide⟩,
   ⟨ready, 0, by decide⟩⟩

theorem witness_TallyAndControlWaybillsComplete :
    (∃ (s u : State) (stream : Fin 1048576) (seq : Nat) (w : Waybill) (x : Tally), s.running = true ∧ s.hasWords (wbKey stream.val seq) u ∧
      u.work.wbs.find (wbKey stream.val seq) = some w ∧ w.key = wbKey stream.val seq ∧ w.st = 1 ∧ u.work.tallies.find (bitsOf (w.op 0) 15 0) = some x ∧ w.opc = 0x61) ∧
    (∃ (s u : State) (stream : Fin 1048576) (seq : Nat) (w : Waybill) (x : Tally), s.running = true ∧ s.hasWords (wbKey stream.val seq) u ∧
      u.work.wbs.find (wbKey stream.val seq) = some w ∧ w.key = wbKey stream.val seq ∧ w.st = 1 ∧ u.work.tallies.find (bitsOf (w.op 0) 15 0) = some x ∧ w.opc = 0x62) ∧
    (∃ (s u : State) (stream : Fin 1048576) (seq : Nat) (w : Waybill) (x : Tally), s.running = true ∧ s.hasWords (wbKey stream.val seq) u ∧
      u.work.wbs.find (wbKey stream.val seq) = some w ∧ w.key = wbKey stream.val seq ∧ w.st = 1 ∧ u.work.tallies.find (bitsOf (w.op 0) 15 0) = some x ∧ w.opc = 0x63) ∧
    (∃ (s u : State) (stream : Fin 1048576) (seq : Nat) (w : Waybill) (x : Tally), s.running = true ∧ s.hasWords (wbKey stream.val seq) u ∧
      u.work.wbs.find (wbKey stream.val seq) = some w ∧ w.key = wbKey stream.val seq ∧ w.st = 1 ∧ u.work.tallies.find (bitsOf (w.op 0) 15 0) = some x ∧ w.opc = 0x64) ∧
    (∃ (s u : State) (stream : Fin 1048576) (seq : Nat) (w : Waybill), s.running = true ∧ s.hasWords (wbKey stream.val seq) u ∧
      u.work.wbs.find (wbKey stream.val seq) = some w ∧ w.key = wbKey stream.val seq ∧ w.st = 1 ∧ w.opc = 0x65 ∧ u.work.wbs.rows.any (fun r => r.2.earlier w) = false) ∧
    (∃ (s u : State) (stream : Fin 1048576) (seq : Nat) (w : Waybill), s.running = true ∧ s.hasWords (wbKey stream.val seq) u ∧
      u.work.wbs.find (wbKey stream.val seq) = some w ∧ w.key = wbKey stream.val seq ∧ w.st = 1 ∧ w.opc = 0x70) ∧
    (∃ (s u : State) (stream : Fin 1048576) (seq : Nat) (w : Waybill), s.running = true ∧ s.hasWords (wbKey stream.val seq) u ∧
      u.work.wbs.find (wbKey stream.val seq) = some w ∧ w.key = wbKey stream.val seq ∧ w.st = 1 ∧ w.opc = 0x71) ∧
    (∃ (s u : State) (stream : Fin 1048576) (seq : Nat) (w : Waybill), s.running = true ∧ s.hasWords (wbKey stream.val seq) u ∧
      u.work.wbs.find (wbKey stream.val seq) = some w ∧ w.key = wbKey stream.val seq ∧ w.st = 1 ∧ w.opc = 0x60 ∧ w.pubStep = 0) ∧
    (∃ (s u : State) (stream : Fin 1048576) (seq : Nat) (w : Waybill) (m : State), s.running = true ∧ s.hasWords (wbKey stream.val seq) u ∧
      u.work.wbs.find (wbKey stream.val seq) = some w ∧ w.key = wbKey stream.val seq ∧ w.st = 1 ∧ w.opc = 0x60 ∧ w.pubStep = 1 ∧
      m = w.drains.foldl (fun (s : State) d => s.drainLine (d / 2 ^ 40) (d % 2 ^ 40)) u ∧
      w.drains.any (fun d => (m.chan (d / 2 ^ 40)).wcb.has (d % 2 ^ 40)) = false ∧ w.len ≤ 1048576) ∧
    (∃ (s u : State) (stream : Fin 1048576) (seq : Nat) (w : Waybill) (m : State), s.running = true ∧ s.hasWords (wbKey stream.val seq) u ∧
      u.work.wbs.find (wbKey stream.val seq) = some w ∧ w.key = wbKey stream.val seq ∧ w.st = 1 ∧ w.opc = 0x60 ∧ w.pubStep = 1 ∧
      m = w.drains.foldl (fun (s : State) d => s.drainLine (d / 2 ^ 40) (d % 2 ^ 40)) u ∧
      w.drains.any (fun d => (m.chan (d / 2 ^ 40)).wcb.has (d % 2 ^ 40)) = false ∧ 1048576 < w.len) ∧
    (∃ (s u : State) (stream : Fin 1048576) (seq : Nat) (w : Waybill), s.running = true ∧ s.hasWords (wbKey stream.val seq) u ∧
      u.work.wbs.find (wbKey stream.val seq) = some w ∧ w.key = wbKey stream.val seq ∧ w.st = 1 ∧ w.opc = 0x60 ∧ w.pubStep = 2) :=
  ⟨⟨working (way 0x61 1), working (way 0x61 1), 3, 0, way 0x61 1, { gid := 7 }, by exact ⟨by decide, hasWords_self rfl, by decide, by decide, by decide, by decide, by decide⟩⟩,
   ⟨working (way 0x62 1), working (way 0x62 1), 3, 0, way 0x62 1, { gid := 7 }, by exact ⟨by decide, hasWords_self rfl, by decide, by decide, by decide, by decide, by decide⟩⟩,
   ⟨working (way 0x63 1), working (way 0x63 1), 3, 0, way 0x63 1, { gid := 7 }, by exact ⟨by decide, hasWords_self rfl, by decide, by decide, by decide, by decide, by decide⟩⟩,
   ⟨working (way 0x64 1), working (way 0x64 1), 3, 0, way 0x64 1, { gid := 7 }, by exact ⟨by decide, hasWords_self rfl, by decide, by decide, by decide, by decide, by decide⟩⟩,
   ⟨working (way 0x65 1), working (way 0x65 1), 3, 0, way 0x65 1, by exact ⟨by decide, hasWords_self rfl, by decide, by decide, by decide, by decide, by decide⟩⟩,
   ⟨working (way 0x70 1), working (way 0x70 1), 3, 0, way 0x70 1, by exact ⟨by decide, hasWords_self rfl, by decide, by decide, by decide, by decide⟩⟩,
   ⟨working (way 0x71 1), working (way 0x71 1), 3, 0, way 0x71 1, by exact ⟨by decide, hasWords_self rfl, by decide, by decide, by decide, by decide⟩⟩,
   ⟨working (way 0x60 1), working (way 0x60 1), 3, 0, way 0x60 1, by exact ⟨by decide, hasWords_self rfl, by decide, by decide, by decide, by decide, by decide⟩⟩,
   ⟨working { way 0x60 1 with pubStep := 1 }, working { way 0x60 1 with pubStep := 1 }, 3, 0, { way 0x60 1 with pubStep := 1 }, working { way 0x60 1 with pubStep := 1 }, by exact ⟨by decide, hasWords_self rfl, by decide, by decide, by decide, by decide, by decide, rfl, by decide, by decide⟩⟩,
   ⟨working { way 0x60 1 with pubStep := 1, w := [0x60 * 2 ^ 56, 2 ^ 53] }, working { way 0x60 1 with pubStep := 1, w := [0x60 * 2 ^ 56, 2 ^ 53] }, 3, 0, { way 0x60 1 with pubStep := 1, w := [0x60 * 2 ^ 56, 2 ^ 53] }, working { way 0x60 1 with pubStep := 1, w := [0x60 * 2 ^ 56, 2 ^ 53] }, by exact ⟨by decide, hasWords_self rfl, by decide, by decide, by decide, by decide, by decide, rfl, by decide, by decide⟩⟩,
   ⟨working { way 0x60 1 with pubStep := 2 }, working { way 0x60 1 with pubStep := 2 }, 3, 0, { way 0x60 1 with pubStep := 2 }, by exact ⟨by decide, hasWords_self rfl, by decide, by decide, by decide, by decide, by decide⟩⟩⟩

theorem witness_WaybillLifeCompletes :
    (∃ (s : State) (stream : Fin 1048576) (k : Stream), s.running = true ∧ s.work.streams.find stream.val = some k ∧ k.resident = false ∧
      (s.residentStreams < 16384 ∨ s.streamVictim.isSome = true)) ∧
    (∃ (s : State) (stream : Fin 1048576) (k : Stream) (pa cpl : Nat) (r : Rd) (m m' : State) (w : Waybill), s.running = true ∧
      s.work.streams.find stream.val = some k ∧ k.resident = true ∧ k.err = none ∧ k.head ≠ k.tail ∧ (s.guest k.gid).tearing = false ∧
      (s.guest k.gid).fatal = 0 ∧ (s.guest k.gid).resident = true ∧ s.fetchAt stream.val (k.slot k.head) 128 false = (.at_ pa, m) ∧
      (m.countCluster k.seqr 0x4021 0).slotBytes k.gid pa = (r, m') ∧ r.waits = false ∧ r.poisoned = false ∧ m'.work.streams =
      s.work.streams ∧ w = { stream := stream.val, gid := k.gid, w := wordsOf r.bytes } ∧ w.cplPva % 32 = 0 ∧ w.waitOn = false ∧
      (m'.fetchAt stream.val w.cplPva 32 true).1 = .at_ cpl) ∧
    (∃ (s : State) (stream : Fin 1048576) (k : Stream) (pa : Nat) (r : Rd) (m : State), s.running = true ∧ s.work.streams.find stream.val
      = some k ∧ k.resident = true ∧ k.err = none ∧ s.streamBusy stream.val = true ∧ k.ahead.length < s.reg Obj.prefetchDepth ∧
      k.ahead.length < k.dist k.tail ∧ s.xlCached k.gid (k.slot ((k.head + k.ahead.length) % 2 ^ 21)) false = .ok pa ∧ s.slotBytes k.gid
      pa = (r, m) ∧ r.ok = true ∧ r.poisoned = false) ∧
    (∃ (s u : State) (stream : Fin 1048576) (seq : Nat) (x w : Waybill), s.running = true ∧ s.work.wbs.find (wbKey stream.val seq) = some x ∧ s.mayStart x = true ∧
      s.seqLoad (s.work.streams.getD x.stream {}).seqr < 16 ∧ (s.guest x.gid).resident = true ∧ s.hasWords (wbKey stream.val seq) u ∧
      u.work.wbs.find (wbKey stream.val seq) = some w ∧ (u.guest w.gid).fatal = 0 ∧ w.checked = true) ∧
    (∃ (s u : State) (stream : Fin 1048576) (seq : Nat) (x w : Waybill) (m : State), s.running = true ∧ s.work.wbs.find (wbKey stream.val seq) = some x ∧ s.mayStart x = true ∧
      s.seqLoad (s.work.streams.getD x.stream {}).seqr < 16 ∧ (s.guest x.gid).resident = true ∧ s.hasWords (wbKey stream.val seq) u ∧
      u.work.wbs.find (wbKey stream.val seq) = some w ∧ (u.guest w.gid).fatal = 0 ∧ w.checked = false ∧
      m = u.onWb (wbKey stream.val seq) (fun x => { x with dir := (u.guest w.gid).dir, dirEpoch := u.pool.dirEpoch }) ∧
      m.check55 (m.wb (wbKey stream.val seq)) = none ∧ m.keyUnwraps w.gid = true) ∧
    (∃ (s : State) (stream : Fin 1048576) (seq : Nat) (w : Waybill), s.running = true ∧ s.work.wbs.find (wbKey stream.val seq) = some w ∧
      w.st = 0 ∧ w.waits.isSome = true ∧ (s.work.streams.getD w.stream {}).limit ≠ 0) ∧
    (∃ (s : State) (stream : Fin 1048576) (seq : Nat) (w : Waybill), s.running = true ∧ s.work.wbs.find (wbKey stream.val seq) = some w ∧
      w.st = 0 ∧ w.waits.isSome = true ∧ (s.work.streams.getD w.stream {}).limit = 0) ∧
    (∃ (s u : State) (stream : Fin 1048576) (seq : Nat) (w : Waybill) (m : State), s.running = true ∧ s.hasWords (wbKey stream.val seq) u ∧
      u.work.wbs.find (wbKey stream.val seq) = some w ∧ w.key = wbKey stream.val seq ∧ w.st = 2 ∧
      u.publishWrite w.cpl w.gid (w.record (u.reg Obj.arithReportMask)) = (true, m)) :=
  ⟨⟨{ serving with work := { serving.work with streams := { rows := [(3, { gid := 7 })] } } }, 3, { gid := 7 }, by decide⟩,
   ⟨fetching, 3, { gid := 7, resident := true, tail := 1 }, 0, 0, (((fetching.fetchAt 3 0 128 false).2.countCluster 0 0x4021 0).slotBytes 7 0).1, (fetching.fetchAt 3 0 128 false).2, (((fetching.fetchAt 3 0 128 false).2.countCluster 0 0x4021 0).slotBytes 7 0).2, { stream := 3, gid := 7, w := wordsOf (zeroBytes 128) }, by exact ⟨by decide, by decide, by decide, by decide, by decide, by decide, by decide, by decide, rfl, rfl, by decide, by decide, by decide, by decide, by decide, by decide, by rfl⟩⟩,
   ⟨{ fetching with work := { fetching.work with wbs := { rows := [(wbKey 3 0, way 0x70 1)] } } }, 3, { gid := 7, resident := true, tail := 1 }, 0, (State.slotBytes { fetching with work := { fetching.work with wbs := { rows := [(wbKey 3 0, way 0x70 1)] } } } 7 0).1, (State.slotBytes { fetching with work := { fetching.work with wbs := { rows := [(wbKey 3 0, way 0x70 1)] } } } 7 0).2, by exact ⟨by decide, by decide, by decide, by decide, by decide, by decide, by decide, by rfl, rfl, by decide, by decide⟩⟩,
   ⟨working { way 0x70 0 with w := [0x70 * 2 ^ 56 + 2 ^ 32, 0xFFFF * 2 ^ 16], checked := true }, working { way 0x70 0 with w := [0x70 * 2 ^ 56 + 2 ^ 32, 0xFFFF * 2 ^ 16], checked := true }, 3, 0, { way 0x70 0 with w := [0x70 * 2 ^ 56 + 2 ^ 32, 0xFFFF * 2 ^ 16], checked := true }, { way 0x70 0 with w := [0x70 * 2 ^ 56 + 2 ^ 32, 0xFFFF * 2 ^ 16], checked := true }, by exact ⟨by decide, by decide, by decide, by decide, by decide, hasWords_self rfl, by decide, by decide, by decide⟩⟩,
   ⟨working { way 0x70 0 with w := [0x70 * 2 ^ 56 + 2 ^ 32, 0xFFFF * 2 ^ 16] }, working { way 0x70 0 with w := [0x70 * 2 ^ 56 + 2 ^ 32, 0xFFFF * 2 ^ 16] }, 3, 0, { way 0x70 0 with w := [0x70 * 2 ^ 56 + 2 ^ 32, 0xFFFF * 2 ^ 16] }, { way 0x70 0 with w := [0x70 * 2 ^ 56 + 2 ^ 32, 0xFFFF * 2 ^ 16] }, (working { way 0x70 0 with w := [0x70 * 2 ^ 56 + 2 ^ 32, 0xFFFF * 2 ^ 16] }).onWb (wbKey 3 0) (fun x => { x with dir := guest7.dir }), by exact ⟨by decide, by decide, by decide, by decide, by decide, hasWords_self rfl, by decide, by decide, by decide, rfl, by decide, serving_keyed⟩⟩,
   ⟨limited { way 0x70 0 with waits := some 0 } 5, 3, 0, { way 0x70 0 with waits := some 0 }, by decide⟩,
   ⟨limited { way 0x70 0 with waits := some 0 } 0, 3, 0, { way 0x70 0 with waits := some 0 }, by decide⟩,
   ⟨working (way 0x70 2), working (way 0x70 2), 3, 0, way 0x70 2, _, by exact ⟨by decide, hasWords_self rfl, by decide, by decide, by decide, by rfl⟩⟩⟩

theorem witness_WaitingWorkGoesOn :
    (∃ (s : State) (c : Claim), s.running = true ∧ favoured75 s.ready75 s.pool.trkPtr = some c ∧ (s.trackerPool c.p.tc).isSome = true ∧
      (s.pool.reqs.lowestFree trackerCount).isSome = true) ∧
    (∃ (s : State) (gid : Fin 1048576) (pva : Nat) (f : ZFill), s.running = true ∧ s.pool.fills.find? (fun f => f.gid == gid.val && f.pva
      == pva) = some f) ∧
    (∃ (s : State) (line l g : Nat) (d : Bytes) (dead : Bool), s.running = true ∧ s.pool.lrcFills.find? (fun f => f.1 == line) = some (l,
      g, d, dead)) :=
  ⟨⟨{ serving with pool := { serving.pool with claims := [{ link := 3, p := pkt 0 64 0, gid := 7 }] } }, { link := 3, p := pkt 0 64 0, gid := 7 }, by decide⟩,
   ⟨{ serving with pool := { serving.pool with fills := [{ gid := 7 }] } }, 7, 0, { gid := 7 }, by decide⟩,
   ⟨{ serving with pool := { serving.pool with lrcFills := [(4, 7, [], false)] } }, 4, 4, 7, [], false, by decide⟩⟩

theorem witness_ChunksComplete :
    (∃ (s u : State) (stream : Fin 1048576) (seq c cl : Nat) (w : Waybill), s.running = true ∧ s.hasWords (wbKey stream.val seq) u ∧
      u.work.wbs.find (wbKey stream.val seq) = some w ∧ w.dispatches = true ∧ u.chunkEntries < 8192 ∧
      (u.guest w.gid).resident = true ∧ w.nextChunk = some c ∧ u.chooseCluster w = some cl) ∧
    (∃ (s u : State) (stream : Fin 1048576) (seq c cl : Nat) (w : Waybill), s.running = true ∧ s.hasWords (wbKey stream.val seq) u ∧
      u.work.wbs.find (wbKey stream.val seq) = some w ∧ w.dispatches = true ∧ 65536 < c ∧
      (u.guest w.gid).resident = true ∧ w.nextChunk = some c ∧ u.chooseCluster w = some cl) ∧
    (∃ (s : State) (stream : Fin 1048576) (seq g c : Nat) (cl : Fin 128) (w : Waybill) (k : Chunk) (h : Held), s.running = true ∧
      s.work.wbs.find (wbKey stream.val seq) = some w ∧ w.chunkOf g = some (c, k) ∧ w.chunks.find c = some k ∧ k.cluster = cl.val ∧
      k.old.find? (fun x => x.1 == cl.val && x.2.1 == g) = none ∧ k.held.find g = some h ∧ h.waiting = 0 ∧ k.bits.testBit (g - k.first) = false ∧
      s.outsRoom (h.outs.filter fun o => o.kind == 0) = true ∧ s.outsBlocked (wbKey stream.val seq) g h.outs = none) ∧
    (∃ (s : State) (stream : Fin 1048576) (seq g c : Nat) (cl : Fin 128) (w : Waybill) (k : Chunk) (h : Held), s.running = true ∧
      s.work.wbs.find (wbKey stream.val seq) = some w ∧ w.chunkOf g = some (c, k) ∧ w.chunks.find c = some k ∧ k.cluster = cl.val ∧
      k.old.find? (fun x => x.1 == cl.val && x.2.1 == g) = none ∧ k.held.find g = some h ∧ h.waiting = 0 ∧ k.bits.testBit (g - k.first) = true) ∧
    (∃ (s u : State) (stream : Fin 1048576) (seq c cl : Nat) (w : Waybill) (k : Chunk), s.running = true ∧ s.hasWords (wbKey stream.val seq) u ∧
      u.work.wbs.find (wbKey stream.val seq) = some w ∧ w.chunks.find c = some k ∧ k.st = 2 ∧
      w.cancelled = false ∧ k.redispatched < u.reg Obj.redispatchLimit ∧ w.opc ≠ 0x51 ∧ (u.guest w.gid).resident = true ∧
      u.rechooseCluster w = some cl) ∧
    (∃ (s u : State) (stream : Fin 1048576) (seq c cl : Nat) (w : Waybill) (k : Chunk), s.running = true ∧ s.hasWords (wbKey stream.val seq) u ∧
      u.work.wbs.find (wbKey stream.val seq) = some w ∧ w.chunks.find c = some k ∧ k.st = 2 ∧
      w.cancelled = false ∧ k.redispatched < u.reg Obj.redispatchLimit ∧ w.opc = 0x51 ∧ w.exchanged = true ∧ (u.guest w.gid).resident = true ∧
      u.rechooseCluster w = some cl) ∧
    (∃ (s u : State) (stream : Fin 1048576) (seq c cl : Nat) (w : Waybill) (k : Chunk), s.running = true ∧ s.hasWords (wbKey stream.val seq) u ∧
      u.work.wbs.find (wbKey stream.val seq) = some w ∧ w.chunks.find c = some k ∧ k.st = 2 ∧
      w.cancelled = false ∧ k.redispatched < u.reg Obj.redispatchLimit ∧ w.opc = 0x51 ∧ w.exchanged = false ∧ 65536 ≤ c ∧ (u.guest w.gid).resident = true ∧
      u.rechooseCluster w = some cl) :=
  ⟨⟨working { way 0x00 1 with total := 1 }, working { way 0x00 1 with total := 1 }, 3, 0, 0, 0, { way 0x00 1 with total := 1 }, by exact ⟨by decide, hasWords_self rfl, by decide, by decide, by decide, by decide, by decide, by decide⟩⟩,
   ⟨working moeNext, working moeNext, 3, 0, 65537, 1, moeNext, by exact ⟨by decide, hasWords_self rfl, by decide, by decide, by decide, by decide, by decide +kernel, by decide +kernel⟩⟩,
   ⟨working { chunked 0x00 with chunks := { rows := [(0, { count := 1, held := { rows := [(0, {})] } })] } }, 3, 0, 0, 0, 0, { chunked 0x00 with chunks := { rows := [(0, { count := 1, held := { rows := [(0, {})] } })] } }, { count := 1, held := { rows := [(0, {})] } }, {}, by decide⟩,
   ⟨working { chunked 0x00 with chunks := { rows := [(0, { count := 1, bits := 1, held := { rows := [(0, {})] } })] } }, 3, 0, 0, 0, 0, { chunked 0x00 with chunks := { rows := [(0, { count := 1, bits := 1, held := { rows := [(0, {})] } })] } }, { count := 1, bits := 1, held := { rows := [(0, {})] } }, {}, by decide⟩,
   ⟨working { chunked 0x00 with chunks := { rows := [(0, { count := 1, st := 2 })] } }, working { chunked 0x00 with chunks := { rows := [(0, { count := 1, st := 2 })] } }, 3, 0, 0, 0, { chunked 0x00 with chunks := { rows := [(0, { count := 1, st := 2 })] } }, { count := 1, st := 2 }, by exact ⟨by decide, hasWords_self rfl, by decide, by decide, by decide, by decide, by decide, by decide, by decide, by decide⟩⟩,
   ⟨working { chunked 0x51 with exchanged := true, nparts := 1, chunks := { rows := [(0, { count := 1, st := 2 })] } }, working { chunked 0x51 with exchanged := true, nparts := 1, chunks := { rows := [(0, { count := 1, st := 2 })] } }, 3, 0, 0, 0, { chunked 0x51 with exchanged := true, nparts := 1, chunks := { rows := [(0, { count := 1, st := 2 })] } }, { count := 1, st := 2 }, by exact ⟨by decide, hasWords_self rfl, by decide, by decide, by decide, by decide, by decide, by decide, by decide, by decide⟩⟩,
   ⟨working { way 0x51 1 with total := 1, nparts := 1, chunks := { rows := [(65536, { st := 2 })] } }, working { way 0x51 1 with total := 1, nparts := 1, chunks := { rows := [(65536, { st := 2 })] } }, 3, 0, 65536, 0, { way 0x51 1 with total := 1, nparts := 1, chunks := { rows := [(65536, { st := 2 })] } }, { st := 2 }, by exact ⟨by decide, hasWords_self rfl, by decide, by decide, by decide, by decide, by decide, by decide, by decide, by decide⟩⟩⟩

theorem witness_ClustersComplete :
    (∃ (s : State) (cl : Fin 128), s.running = true ∧ (s.cluster cl.val).clearing = true ∧ (s.cluster cl.val).pw = 0) ∧
    (∃ (s : State) (cl : Fin 128), s.running = true ∧ s.clusterUp cl.val = true ∧ (s.cluster cl.val).pw ≠ 1 ∧ (s.cluster cl.val).pw ≠ 2) ∧
    (∃ (s : State) (die : Fin 16), s.running = true ∧ s.hasDie (diePD die.val) = true) ∧
    (∃ (s : State) (cl : Fin 128), s.running = true ∧ (s.cluster cl.val).lost = true) ∧
    (∃ (s : State) (cl : Fin 128), s.running = true ∧ s.idleOpen cl.val = true ∧ (s.cluster cl.val).clearing = false ∧ s.keptOpen cl.val =
      false) ∧
    (∃ (s : State) (cl : Fin 128), s.running = true ∧ s.clusterUp cl.val = true ∧ (s.cluster cl.val).pw = 1 ∧ s.reg Obj.clusterDarkIdle ≠
      0) ∧
    (∃ (s : State) (cl : Fin 128), s.running = true ∧ ((s.cluster cl.val).pw = 3 ∨ (s.cluster cl.val).pw = 4)) :=
  ⟨⟨{ serving with work := { serving.work with clusters := { rows := [(127, {clearing := true, pw := 0})] } } }, 127, by decide⟩,
   ⟨{ serving with work := { serving.work with clusters := { rows := [(127, {pw := 0})] } } }, 127, by decide⟩,
   ⟨serving, 15, by decide⟩,
   ⟨{ serving with work := { serving.work with clusters := { rows := [(127, {lost := true})] } } }, 127, by decide⟩,
   ⟨{ serving with work := { serving.work with clusters := { rows := [(127, {pw := 0})] } } }, 127, by decide⟩,
   ⟨{ serving with work := { serving.work with clusters := { rows := [(127, {pw := 1})] } } }, 127, by decide⟩,
   ⟨{ serving with work := { serving.work with clusters := { rows := [(127, {pw := 4})] } } }, 127, by decide⟩⟩

theorem witness_DataOperationsComplete :
    (∃ (s : State) (stream : Fin 1048576) (seq chunk key : Nat) (k : Chunk), s.running = true ∧ key = wbKey stream.val seq ∧ s.oneLeft key chunk 0x00 k ∧
      ∃ (o : Wr) (m : State), makesWhole key chunk k (kernel0 key k.cluster s k.first) o m) ∧
    (∃ (s : State) (stream : Fin 1048576) (seq chunk key : Nat) (k : Chunk), s.running = true ∧ key = wbKey stream.val seq ∧ s.oneLeft key chunk 0x01 k ∧
      ∃ (o : Wr) (m : State), makesWhole key chunk k (kernel0 key k.cluster s k.first) o m) ∧
    (∃ (s : State) (stream : Fin 1048576) (seq chunk key : Nat) (k : Chunk), s.running = true ∧ key = wbKey stream.val seq ∧ s.oneLeft key chunk 0x02 k ∧
      ∃ (o : Wr) (m : State), makesWhole key chunk k (kernel0 key k.cluster s k.first) o m) ∧
    (∃ (s : State) (stream : Fin 1048576) (seq chunk key : Nat) (k : Chunk), s.running = true ∧ key = wbKey stream.val seq ∧ s.oneLeft key chunk 0x03 k ∧
      ∃ (o : Wr) (m : State), makesWhole key chunk k (kernel0 key k.cluster s k.first) o m) ∧
    (∃ (s : State) (stream : Fin 1048576) (seq chunk key : Nat) (k : Chunk), s.running = true ∧ key = wbKey stream.val seq ∧ s.oneLeft key chunk 0x04 k ∧
      ∃ (o : Wr) (m : State), makesWhole key chunk k (kernel0 key k.cluster s k.first) o m) ∧
    (∃ (s : State) (stream : Fin 1048576) (seq chunk key : Nat) (k : Chunk), s.running = true ∧ key = wbKey stream.val seq ∧ s.oneLeft key chunk 0x10 k ∧
      ∃ (o : Wr) (m : State), makesWhole key chunk k (kernel1 key k.cluster s k.first) o m) ∧
    (∃ (s : State) (stream : Fin 1048576) (seq chunk key : Nat) (k : Chunk), s.running = true ∧ key = wbKey stream.val seq ∧ s.oneLeft key chunk 0x11 k ∧
      ∃ (o : Wr) (m : State), makesWhole key chunk k (kernel1 key k.cluster s k.first) o m) ∧
    (∃ (s : State) (stream : Fin 1048576) (seq chunk key : Nat) (k : Chunk), s.running = true ∧ key = wbKey stream.val seq ∧ s.oneLeft key chunk 0x31 k ∧
      ∃ (o : Wr) (m : State), makesWhole key chunk k (kernel3 key k.cluster s k.first) o m) ∧
    (∃ (s : State) (stream : Fin 1048576) (seq chunk key : Nat) (k : Chunk), s.running = true ∧ key = wbKey stream.val seq ∧ s.oneLeft key chunk 0x33 k ∧
      ∃ (o : Wr) (m : State), makesWhole key chunk k (kernel3 key k.cluster s k.first) o m) ∧
    (∃ (s : State) (stream : Fin 1048576) (seq chunk key : Nat) (k : Chunk), s.running = true ∧ key = wbKey stream.val seq ∧ s.oneLeft key chunk 0x40 k ∧
      ∃ (o : Wr) (m : State), makesWhole key chunk k (kernel4 key k.cluster s k.first) o m) ∧
    (∃ (s : State) (stream : Fin 1048576) (seq chunk key : Nat) (k : Chunk), s.running = true ∧ key = wbKey stream.val seq ∧ s.oneLeft key chunk 0x50 k ∧
      ∃ (o : Wr) (m : State), makesWhole key chunk k (kernelMvb key k.cluster s k.first) o m) ∧
    (∃ (s : State) (stream : Fin 1048576) (seq chunk key : Nat) (k : Chunk), s.running = true ∧ key = wbKey stream.val seq ∧ s.oneLeft key chunk 0x30 k ∧ (s.wb key).total ≠ 0 ∧
      ∃ (o : Wr) (m : State), makesWhole key chunk k (kernelOpen key k.cluster s k.first) o m) ∧
    (∃ (s : State) (stream : Fin 1048576) (seq chunk key : Nat) (k : Chunk), s.running = true ∧ key = wbKey stream.val seq ∧ s.oneLeft key chunk 0x51 k ∧ chunk < 65536 ∧
      ∃ (o : Wr) (m : State), makesWhole key chunk k (kernelMoe key k.cluster s k.first) o m) ∧
    (∃ (s : State) (stream : Fin 1048576) (seq chunk key : Nat) (k : Chunk), s.running = true ∧ key = wbKey stream.val seq ∧ k.first = 0 ∧
      (∃ (b : Rd) (pa : Nat) (x : Seen) (o : Wr) (m : State), s.atomReady key k.cluster 0 b pa x o m) ∧ s.oneLeft key chunk 0x20 k) ∧
    (∃ (s : State) (stream : Fin 1048576) (seq chunk key : Nat) (k : Chunk), s.running = true ∧ key = wbKey stream.val seq ∧ k.first = 0 ∧
      (∃ (b : Rd) (pa : Nat) (x : Seen) (o : Wr) (m : State), s.atomReady key k.cluster 0 b pa x o m) ∧ s.oneLeft key chunk 0x21 k) ∧
    (∃ (s : State) (stream : Fin 1048576) (seq chunk key : Nat) (k : Chunk) (w : Waybill) (qs : List Nat) (gr ur : List (Nat × List Rd))
      (u v : State), s.running = true ∧ key = wbKey stream.val seq ∧ 65536 ≤ chunk ∧ s.work.wbs.find key = some w ∧ w.opc = 0x51 ∧
      s.runs key chunk = true ∧ w.chunks.find chunk = some k ∧ w.slices.testBit (chunk - 65536) = false ∧ w.hFail = 0 ∧
      w.scratch.has k.cluster = true ∧ qs = w.sliceQs (chunk - 65536) ∧ s.readRows key k.cluster chunk w.matG qs = (gr, u) ∧
      u.readRows key k.cluster chunk w.matU qs = (ur, v) ∧ stopOf ((gr.map (·.2)).flatten ++ (ur.map (·.2)).flatten) = none) :=
  ⟨⟨working (chunked 0x00), 3, 0, 0, wbKey 3 0, { count := 1 }, by exact ⟨by decide, by decide, ⟨chunked 0x00, by decide⟩, whole_of (by decide +kernel) (by decide +kernel) (by decide +kernel)⟩⟩,
   ⟨working (chunked 0x01), 3, 0, 0, wbKey 3 0, { count := 1 }, by exact ⟨by decide, by decide, ⟨chunked 0x01, by decide⟩, whole_of (by decide +kernel) (by decide +kernel) (by decide +kernel)⟩⟩,
   ⟨working (chunked 0x02), 3, 0, 0, wbKey 3 0, { count := 1 }, by exact ⟨by decide, by decide, ⟨chunked 0x02, by decide⟩, whole_of (by decide +kernel) (by decide +kernel) (by decide +kernel)⟩⟩,
   ⟨working (chunked 0x03), 3, 0, 0, wbKey 3 0, { count := 1 }, by exact ⟨by decide, by decide, ⟨chunked 0x03, by decide⟩, whole_of (by decide +kernel) (by decide +kernel) (by decide +kernel)⟩⟩,
   ⟨working (chunked 0x04), 3, 0, 0, wbKey 3 0, { count := 1 }, by exact ⟨by decide, by decide, ⟨chunked 0x04, by decide⟩, whole_of (by decide +kernel) (by decide +kernel) (by decide +kernel)⟩⟩,
   ⟨working ({ chunked 0x10 with dir := guest7.dir }), 3, 0, 0, wbKey 3 0, { count := 1 }, by exact ⟨by decide, by decide, ⟨{ chunked 0x10 with dir := guest7.dir }, by decide⟩, whole_of (by decide +kernel) (by decide +kernel) (by decide +kernel)⟩⟩,
   ⟨working ({ chunked 0x11 with dir := guest7.dir }), 3, 0, 0, wbKey 3 0, { count := 1 }, by exact ⟨by decide, by decide, ⟨{ chunked 0x11 with dir := guest7.dir }, by decide⟩, whole_of (by decide +kernel) (by decide +kernel) (by decide +kernel)⟩⟩,
   ⟨working (chunked 0x31), 3, 0, 0, wbKey 3 0, { count := 1 }, by exact ⟨by decide, by decide, ⟨chunked 0x31, by decide⟩, whole_of (by decide +kernel) (by decide +kernel) (by decide +kernel)⟩⟩,
   ⟨working (chunked 0x33), 3, 0, 0, wbKey 3 0, { count := 1 }, by exact ⟨by decide, by decide, ⟨chunked 0x33, by decide⟩, whole_of (by decide +kernel) (by decide +kernel) (by decide +kernel)⟩⟩,
   ⟨working (chunked 0x40), 3, 0, 0, wbKey 3 0, { count := 1 }, by exact ⟨by decide, by decide, ⟨chunked 0x40, by decide⟩, whole_of (by decide +kernel) (by decide +kernel) (by decide +kernel)⟩⟩,
   ⟨working (chunked 0x50), 3, 0, 0, wbKey 3 0, { count := 1 }, by exact ⟨by decide, by decide, ⟨chunked 0x50, by decide⟩, whole_of (by decide +kernel) (by decide +kernel) (by decide +kernel)⟩⟩,
   ⟨working (chunked 0x30), 3, 0, 0, wbKey 3 0, { count := 1 }, by exact ⟨by decide, by decide, ⟨chunked 0x30, by decide⟩, by decide, whole_of (by decide +kernel) (by decide +kernel) (by decide +kernel)⟩⟩,
   ⟨working moe2, 3, 0, 0, wbKey 3 0, { count := 1 }, by exact ⟨by decide, by decide, ⟨moe2, by decide⟩, by decide, whole_of (by decide +kernel) (by decide +kernel) (by decide +kernel)⟩⟩,
   ⟨atoming (chunked 0x20), 3, 0, 0, wbKey 3 0, { count := 1 }, by exact ⟨by decide, by decide, by decide, ⟨{}, 0, _, {}, _, _, _, _, rfl, by decide, by decide, by decide, rfl, by decide +kernel, by decide +kernel, rfl, by decide +kernel, by decide +kernel, by decide +kernel, rfl, by decide, by decide, by decide, by decide +kernel⟩, chunked 0x20, by decide⟩⟩,
   ⟨atoming (chunked 0x21), 3, 0, 0, wbKey 3 0, { count := 1 }, by exact ⟨by decide, by decide, by decide, ⟨{}, 0, _, {}, _, _, _, _, rfl, by decide, by decide, by decide, rfl, by decide +kernel, by decide +kernel, rfl, by decide +kernel, by decide +kernel, by decide +kernel, rfl, by decide, by decide, by decide, by decide +kernel⟩, chunked 0x21, by decide⟩⟩,
   ⟨working moe1, 3, 0, 65536, wbKey 3 0, {}, moe1, _, _, _, _, _, by exact ⟨by decide, by decide, by decide, by decide, by decide, by decide, by decide, by decide, by decide, by decide, rfl, rfl, rfl, by decide +kernel⟩⟩⟩

theorem witness_MadeGranulesArePlaced :
    (∃ (s : State) (key c g : Nat) (x : Calc) (w : Waybill) (k : Chunk), s.work.wbs.find key = some w ∧ w.chunks.find c = some k ∧ x.waits
      = true ∧ x.hold = none ∧ w.holds.find g = none) ∧
    (∃ (s : State) (key c g : Nat) (x : Calc) (w : Waybill) (k : Chunk), s.work.wbs.find key = some w ∧ w.chunks.find c = some k ∧ x.waits
      = false ∧ x.fail ≠ 0 ∧ x.force = false ∧ s.keepsOpen key g = false) ∧
    (∃ (s : State) (key c g : Nat) (x : Calc) (w : Waybill) (k : Chunk) (o : Wr) (m : State), s.work.wbs.find key = some w ∧ w.chunks.find
      c = some k ∧ x.waits = false ∧ (x.fail = 0 ∨ x.force = true) ∧ x.stage = none ∧ s.writeRanges key k.cluster g x.ranges = (o, m) ∧
      o.fail = 0 ∧ o.waits = false ∧ o.lost = false ∧ m.work.wbs = s.work.wbs) :=
  ⟨⟨working (chunked 0x00), wbKey 3 0, 0, 0, { waits := true }, chunked 0x00, { count := 1 }, by decide⟩,
   ⟨working (chunked 0x00), wbKey 3 0, 0, 0, { fail := 6 }, chunked 0x00, { count := 1 }, by decide⟩,
   ⟨working (chunked 0x00), wbKey 3 0, 0, 0, {}, chunked 0x00, { count := 1 }, {}, working (chunked 0x00), by exact ⟨by decide, by decide, by decide, by decide, by decide, rfl, by decide, by decide, by decide, by decide⟩⟩⟩

theorem witness_RemoteTimeoutsComplete :
    (∃ (s : State) (dst tag : Nat) (tc : Fin 4) (o : OwnReq) (b g i : Nat) (w : Waybill), s.running = true ∧ s.fabric.own.find? (fun o => o.dst == dst && o.tc == tc.val && o.tag == tag &&
      (match o.kind with | .remoteRead _ _ _ => true | .remoteWrite _ _ _ _ => true | .deliver _ _ _ => true | _ => false)) = some o ∧ o.kind = .remoteRead b g i ∧ s.work.wbs.find b = some w) ∧
    (∃ (s : State) (dst tag : Nat) (tc : Fin 4) (o : OwnReq) (b c g : Nat), s.running = true ∧ s.fabric.own.find? (fun o => o.dst == dst && o.tc == tc.val && o.tag == tag &&
      (match o.kind with | .remoteRead _ _ _ => true | .remoteWrite _ _ _ _ => true | .deliver _ _ _ => true | _ => false)) = some o ∧ o.kind = .deliver b c g ∧ s.heldIn b c g = true) ∧
    (∃ (s : State) (dst tag : Nat) (tc : Fin 4) (o : OwnReq) (b c g p : Nat), s.running = true ∧ s.fabric.own.find? (fun o => o.dst == dst && o.tc == tc.val && o.tag == tag &&
      (match o.kind with | .remoteRead _ _ _ => true | .remoteWrite _ _ _ _ => true | .deliver _ _ _ => true | _ => false)) = some o ∧ o.kind = .remoteWrite b c g p ∧ s.heldIn b c g = true ∧ (s.wb b).group = 1 ∧ (s.wb b).failed.has g = false) ∧
    (∃ (s : State) (dst tag : Nat) (tc : Fin 4) (o : OwnReq) (b c g p : Nat), s.running = true ∧ s.fabric.own.find? (fun o => o.dst == dst && o.tc == tc.val && o.tag == tag &&
      (match o.kind with | .remoteRead _ _ _ => true | .remoteWrite _ _ _ _ => true | .deliver _ _ _ => true | _ => false)) = some o ∧ o.kind = .remoteWrite b c g p ∧ s.heldIn b c g = true ∧ (s.wb b).group ≠ 1) :=
  ⟨⟨{ working (way 0x00 1) with fabric := { serving.fabric with own := [{ dst := 9, tag := 2, kind := .remoteRead (wbKey 3 0) 0 0 }] } }, 9, 2, 0, { dst := 9, tag := 2, kind := .remoteRead (wbKey 3 0) 0 0 }, wbKey 3 0, 0, 0, way 0x00 1, by decide⟩,
   ⟨{ working { chunked 0x04 with chunks := { rows := [(0, { count := 1, held := { rows := [(0, {})] } })] } } with fabric := { serving.fabric with own := [{ dst := 9, tag := 2, kind := .deliver (wbKey 3 0) 0 0 }] } }, 9, 2, 0, { dst := 9, tag := 2, kind := .deliver (wbKey 3 0) 0 0 }, wbKey 3 0, 0, 0, by decide⟩,
   ⟨{ working { chunked 0x10 with chunks := { rows := [(0, { count := 1, held := { rows := [(0, {})] } })] } } with fabric := { serving.fabric with own := [{ dst := 9, tag := 2, kind := .remoteWrite (wbKey 3 0) 0 0 0 }] } }, 9, 2, 0, { dst := 9, tag := 2, kind := .remoteWrite (wbKey 3 0) 0 0 0 }, wbKey 3 0, 0, 0, 0, by decide⟩,
   ⟨{ working { chunked 0x00 with chunks := { rows := [(0, { count := 1, held := { rows := [(0, {})] } })] } } with fabric := { serving.fabric with own := [{ dst := 9, tag := 2, kind := .remoteWrite (wbKey 3 0) 0 0 0 }] } }, 9, 2, 0, { dst := 9, tag := 2, kind := .remoteWrite (wbKey 3 0) 0 0 0 }, wbKey 3 0, 0, 0, 0, by decide⟩⟩

theorem witness_ReductionEventsComplete :
    (∃ (s : State) (stream : Fin 1048576) (seq key chunk : Nat) (w : Waybill), s.running = true ∧ key = wbKey stream.val seq ∧
      s.work.wbs.find key = some w ∧ w.st = 1 ∧ w.opc = 0x30 ∧ w.total = 0) ∧
    (∃ (s : State) (stream : Fin 1048576) (seq key chunk : Nat) (w : Waybill), s.running = true ∧ key = wbKey stream.val seq ∧
      s.work.wbs.find key = some w ∧ w.st = 1 ∧ w.openWait.isSome = true ∧ w.cancelled = false ∧ s.work.stageUsed + stageKib w.len ≤ stageTotal) ∧
    (∃ (s : State) (stream : Fin 1048576) (seq key chunk : Nat) (w : Waybill), s.running = true ∧ key = wbKey stream.val seq ∧
      s.work.wbs.find key = some w ∧ w.st = 1 ∧ w.openWait.isSome = true ∧ (s.work.streams.getD w.stream {}).limit ≠ 0) ∧
    (∃ (s : State) (stream : Fin 1048576) (seq key chunk : Nat) (w : Waybill), s.running = true ∧ key = wbKey stream.val seq ∧
      s.work.wbs.find key = some w ∧ w.st = 1 ∧ w.turn = true ∧ (s.work.ctxs.getD w.rctx {}).turnOf w.cidx = true ∧
      s.seqLoad (s.work.streams.getD w.stream {}).seqr < 16) ∧
    (∃ (s : State) (stream : Fin 1048576) (seq key chunk : Nat) (w : Waybill) (r : Rd) (m : State), s.running = true ∧ key = wbKey stream.val seq ∧
      s.work.wbs.find key = some w ∧ w.st = 1 ∧ w.turn = true ∧ w.staged = 0 ∧
      (s.work.ctxs.getD w.rctx {}).prefetched + ceilDiv (s.contribLen w) 1024 ≤ s.reg Obj.stagePrefetchMax ∧
      s.work.stageUsed + ceilDiv (s.contribLen w) 1024 ≤ stageTotal ∧
      s.readRange key (s.work.streams.getD w.stream {}).seqr 0 w.src (s.contribLen w) = (r, m) ∧ r.ok = true) ∧
    (∃ (s : State) (stream : Fin 1048576) (seq key chunk : Nat) (w : Waybill), s.running = true ∧ key = wbKey stream.val seq ∧
      s.work.wbs.find key = some w ∧ w.st = 1 ∧ w.opc = 0x32 ∧ s.runs key 0 = true ∧ w.closed = false) ∧
    (∃ (s : State) (stream : Fin 1048576) (seq key chunk : Nat) (w : Waybill) (k : Chunk), s.running = true ∧ key = wbKey stream.val seq ∧
      s.work.wbs.find key = some w ∧ w.st = 1 ∧ w.opc = 0x32 ∧ s.runs key 0 = true ∧ w.closed = true ∧ w.chunks.find 0 = some k ∧ k.count = 1) ∧
    (∃ (s : State) (stream : Fin 1048576) (seq key chunk : Nat) (w : Waybill), s.running = true ∧ key = wbKey stream.val seq ∧
      s.work.wbs.find key = some w ∧ w.st = 1 ∧ w.opc = 0x51 ∧ w.exchanged = false ∧ (upto w.sliceCount).all (w.slices.testBit ·) = true) ∧
    (∃ (s : State) (unit : Nat), s.running = true) ∧
    (∃ (s : State) (rctx : Fin 1024) (x : RedCtx) (m m' : State), s.running = true ∧ s.work.ctxs.find rctx.val = some x ∧ x.open_ = true ∧
      s.contribsLeft rctx.val = false ∧ x.ncontrib ≤ x.counted ∧
      (if x.staged then s.writeBack rctx.val else (true, s)) = (true, m) ∧ m.publishCtx x = (true, m')) ∧
    (∃ (s : State) (rctx : Fin 1024) (x : RedCtx) (m m' : State) (k : Nat), s.running = true ∧ s.work.ctxs.find rctx.val = some x ∧ x.open_ = true ∧
      s.contribsLeft rctx.val = false ∧ x.counted < x.ncontrib ∧ x.closing = some k ∧ (s.wb k).st = 1 ∧
      (if x.staged then s.writeBack rctx.val else (true, s)) = (true, m) ∧ m.publishCtx x = (true, m')) :=
  ⟨⟨working (way 0x30 1), 3, 0, wbKey 3 0, 0, (way 0x30 1), by decide⟩,
   ⟨working { way 0x30 1 with openWait := some 0 }, 3, 0, wbKey 3 0, 0, { way 0x30 1 with openWait := some 0 }, by decide⟩,
   ⟨limited { way 0x30 1 with openWait := some 0 } 5, 3, 0, wbKey 3 0, 0, { way 0x30 1 with openWait := some 0 }, by decide⟩,
   ⟨reducing ({ way 0x31 1 with turn := true }) { ordered := true }, 3, 0, wbKey 3 0, 0, { way 0x31 1 with turn := true }, by decide⟩,
   ⟨reducing ({ way 0x31 1 with turn := true }) { ordered := true }, 3, 0, wbKey 3 0, 0, { way 0x31 1 with turn := true }, _, _, by exact ⟨by decide, by decide, by decide, by decide, by decide, by decide, by decide, by decide, rfl, by decide⟩⟩,
   ⟨working { way 0x32 1 with chunks := { rows := [(0, { count := 1 })] } }, 3, 0, wbKey 3 0, 0, { way 0x32 1 with chunks := { rows := [(0, { count := 1 })] } }, by decide⟩,
   ⟨working { way 0x32 1 with closed := true, chunks := { rows := [(0, { count := 1 })] } }, 3, 0, wbKey 3 0, 0, { way 0x32 1 with closed := true, chunks := { rows := [(0, { count := 1 })] } }, { count := 1 }, by decide⟩,
   ⟨working (way 0x51 1), 3, 0, wbKey 3 0, 0, (way 0x51 1), by decide⟩,
   ⟨serving, 4, by decide⟩,
   ⟨reducing (way 0x70 1) { open_ := true }, 0, { open_ := true }, _, _, by exact ⟨by decide, by decide, by decide, by decide, by decide, rfl, rfl⟩⟩,
   ⟨reducing (way 0x32 1) { open_ := true, ncontrib := 2, closing := some (wbKey 3 0) }, 0, { open_ := true, ncontrib := 2, closing := some (wbKey 3 0) }, _, _, wbKey 3 0, by exact ⟨by decide, by decide, by decide, by decide, by decide, by decide, by decide, rfl, rfl⟩⟩⟩

theorem witness_LayoutCommandsComplete :
    (∃ (s : State) (i : Nat) (l : Layout), s.accepts Obj.layoutCmdResult ∧ l =
      { gid := s.reg Obj.layoutCmdGid % 2 ^ 20, w := wordsOf (s.blob Obj.layoutCmdDesc) } ∧ l.valid = true ∧ s.work.layouts.lowestFree
      65536 = some i) ∧
    (∃ (s : State), s.accepts Obj.layoutCmdResult ∧ s.work.layouts.has (s.reg Obj.layoutCmdId) = true ∧ s.layoutUsed (s.reg
      Obj.layoutCmdId) = false) ∧
    (∃ (s : State) (l : Layout), s.accepts Obj.layoutCmdResult ∧ s.work.layouts.find (s.reg Obj.layoutCmdId) = some l) :=
  ⟨⟨((serving.setReg Obj.layoutCmdGid 7).setBlob Obj.layoutCmdDesc layoutDesc), 0, { gid := 7, w := wordsOf layoutDesc }, by unfold State.accepts; (set_option maxRecDepth 20000 in decide)⟩,
   ⟨{ serving with work := { serving.work with layouts := { rows := [(0, { gid := 7 })] } } }, by unfold State.accepts; decide⟩,
   ⟨{ serving with work := { serving.work with layouts := { rows := [(0, { gid := 7 })] } } }, { gid := 7 }, by unfold State.accepts; decide⟩⟩

theorem witness_TranslationCommandsComplete :
    (∃ (s : State) (gid : Nat) (us : List UpdRec) (ls : List Leaf), s.accepts Obj.transCmdResult ∧ gid = s.reg Obj.transCmdGid % 2 ^ 20 ∧
      s.pool.guests.has gid = true ∧ 1 ≤ s.reg Obj.transCmdCount ∧ s.reg Obj.transCmdCount ≤ 128 ∧ (s.blob Obj.transCmdBatch).length = 32
      * s.reg Obj.transCmdCount ∧ s.reg Obj.transCmdExpectGen = (s.guest gid).gen ∧ us = (upto (s.reg Obj.transCmdCount)).map (fun i =>
      updOf (sliceBytes (s.blob Obj.transCmdBatch) (32 * i) 32)) ∧ s.checkBatch gid us 0 false s.trans.leaves = (none, ls) ∧ 
      (s.placeTables gid (s.tablesNew gid ls)).isSome = true) ∧
    (∃ (s : State) (gid : Nat), s.accepts Obj.transCmdResult ∧ gid = s.reg Obj.transCmdGid % 2 ^ 20 ∧ s.pool.guests.has gid = true) :=
  ⟨⟨((((serving.setReg Obj.transCmdGid 7).setReg Obj.transCmdCount 1).setReg Obj.transCmdExpectGen 0).setBlob Obj.transCmdBatch (leBytes 8 (2 ^ 56 + 3 * 2 ^ 54) ++ zeroBytes 24)), 7, [{ op := 1, level := 3 }], [], by unfold State.accepts; (set_option maxRecDepth 20000 in decide)⟩,
   ⟨(serving.setReg Obj.transCmdGid 7), 7, by unfold State.accepts; decide⟩⟩

theorem witness_CommitEventsComplete :
    (∃ (s : State) (c : Commit), s.running = true ∧ s.trans.commit = some c ∧ s.pool.guests.has c.gid = true ∧ c.phase = 1) ∧
    (∃ (s : State) (c : Commit), s.running = true ∧ s.trans.commit = some c ∧ s.pool.guests.has c.gid = true ∧ c.phase = 2 ∧ c.done * 1024
      = c.size) ∧
    (∃ (s : State) (c : Commit), s.running = true ∧ s.trans.commit = some c ∧ s.pool.guests.has c.gid = true ∧ c.phase = 4 ∧ c.done * 1024
      = c.size) ∧
    (∃ (s : State) (c : Commit) (m : State), s.running = true ∧ s.trans.commit = some c ∧ c.phase = 5 ∧ c.spans.any (fun x => s.inFlight
      x.1 x.2 c.epoch) = false ∧ c.spans.foldl (fun (b : Bool × State) x => let (k, s) := b.2.drainRange x.1 x.2; (b.1 && k, s)) (true, s)
      = (true, m)) ∧
    (∃ (s : State) (c : Commit), s.running = true ∧ s.trans.commit = some c ∧ (c.phase = 2 ∨ c.phase = 4) ∧ s.fabric.own.any (fun o =>
      match o.kind with | .migrateIn _ _ => true | .migrateOut _ _ => true | _ => false) = true) :=
  ⟨⟨{ serving with trans := { serving.trans with commit := some { gid := 7, phase := 1 } } }, { gid := 7, phase := 1 }, by decide⟩,
   ⟨{ serving with trans := { serving.trans with commit := some { gid := 7, recs := [{ op := 2, level := 3 }], done := 64, phase := 2 } } }, { gid := 7, recs := [{ op := 2, level := 3 }], done := 64, phase := 2 }, by decide⟩,
   ⟨{ serving with trans := { serving.trans with commit := some { gid := 7, recs := [{ op := 2, level := 3 }], done := 64, phase := 4 } } }, { gid := 7, recs := [{ op := 2, level := 3 }], done := 64, phase := 4 }, by decide⟩,
   ⟨{ serving with trans := { serving.trans with commit := some { gid := 7, phase := 5 } } }, { gid := 7, phase := 5 }, { serving with trans := { serving.trans with commit := some { gid := 7, phase := 5 } } }, by exact ⟨by decide, by decide, by decide, by decide, rfl⟩⟩,
   ⟨{ serving with trans := { serving.trans with commit := some { gid := 7, phase := 2 } }, fabric := { serving.fabric with own := [{ dst := 9, kind := .migrateIn 0 0 }] } }, { gid := 7, phase := 2 }, by decide⟩⟩

theorem witness_FaultsComplete :
    (∃ (s : State) (trk : Fin 16384) (r : Req) (g : Nat), s.running = true ∧ s.pool.reqs.find trk.val = some r ∧ r.stage = .walk g ∧ g =
      (s.guest r.gid).gen) ∧
    (∃ (s : State) (trk : Fin 16384) (r : Req) (g : Nat), s.running = true ∧ s.pool.reqs.find trk.val = some r ∧ r.stage = .walk g ∧ g ≠
      (s.guest r.gid).gen) ∧
    (∃ (s : State) (k : Nat) (r : Req) (h : Hold), s.running = true ∧ s.pool.reqs.find k = some r ∧ r.stage = .hold h) ∧
    (∃ (s : State) (k q g : Nat) (h : Hold), s.running = true ∧ (s.wb (wbKey k q)).holds.find g = some h) ∧
    (∃ (s : State) (k q g : Nat) (h : Hold) (c : Nat) (x : Chunk), s.running = true ∧ (s.wb (wbKey k q)).holds.find g = some h ∧
      (s.wb (wbKey k q)).chunkOf g = some (c, x) ∧ (s.wb (wbKey k q)).group ≠ 1 ∧ (s.wb (wbKey k q)).group ≠ 5) ∧
    (∃ (s : State) (k : Nat) (h : Hold) (x : Stream), s.running = true ∧ s.work.streams.find k = some x ∧ x.held = some h ∧ x.err = none) ∧
    (∃ (s : State) (r : Nat) (h : Hold), s.running = true ∧ (s.work.ctxs.getD r {}).hold = some h) ∧
    (∃ (s : State) (r : FqRec) (rest : List FqRec), s.running = true ∧ s.trans.fq = r :: rest ∧ s.reg Obj.fqLog2 ≠ 0 ∧ wrapSub 32
      s.trans.fqTail (s.reg Obj.fqHead) < 2 ^ s.reg Obj.fqLog2) ∧
    (∃ (s : State) (v : Nat), s.served = true) ∧
    (∃ (s : State) (which : Fin 3) (v : Nat), s.served = true ∧ fqOk which v = true) ∧
    (∃ (s : State) (die : Fin 6), s.running = true ∧ s.hasDie (dieLG die.val) = true) :=
  ⟨⟨holding { gid := 7, stage := .walk 0 }, 5, { gid := 7, stage := .walk 0 }, 0, by decide⟩,
   ⟨holding { gid := 7, stage := .walk 1 }, 5, { gid := 7, stage := .walk 1 }, 1, by decide⟩,
   ⟨holding { gid := 7, stage := .hold {} }, 5, { gid := 7, stage := .hold {} }, {}, by decide⟩,
   ⟨working { chunked 0x00 with holds := { rows := [(0, {})] } }, 3, 0, 0, {}, by decide⟩,
   ⟨working { chunked 0x00 with holds := { rows := [(0, {})] } }, 3, 0, 0, {}, 0, { count := 1 }, by decide⟩,
   ⟨{ serving with work := { serving.work with streams := { rows := [(3, { gid := 7, held := some {} })] } } }, 3, {}, { gid := 7, held := some {} }, by decide⟩,
   ⟨reducing (way 0x70 1) { hold := some {} }, 0, {}, by decide⟩,
   ⟨({ serving with trans := { serving.trans with fq := [{}] } }.setReg Obj.fqLog2 4), {}, [], by decide⟩,
   ⟨ready, 0, by decide⟩,
   ⟨ready, 2, 16, by decide⟩,
   ⟨serving, 5, by decide⟩⟩

theorem witness_LinkTrafficCompletes :
    (∃ (s : State) (link : Fin 32) (h : CtrlHdr) (k : Link), s.running = true ∧ k = s.link link.val ∧ k.established = true) ∧
    (∃ (s : State) (link : Fin 32) (h : CtrlHdr) (k : Link) (fseq n : Nat), s.running = true ∧ k = s.link link.val ∧ k.established = true ∧
      (k.heard h s.now).tx.unacked fseq = some n ∧ (k.heard h s.now).tx.replay = none ∧ (k.heard h s.now).tx.consec < s.reg Obj.replayMax) ∧
    (∃ (s : State) (link : Fin 32) (h : CtrlHdr) (k : Link) (fseq n : Nat), s.running = true ∧ k = s.link link.val ∧ k.established = true ∧
      (k.heard h s.now).tx.unacked fseq = some n ∧ (k.heard h s.now).tx.replay = none ∧ s.reg Obj.replayMax ≤ (k.heard h s.now).tx.consec) ∧
    (∃ (s : State) (link : Fin 32) (h : CtrlHdr) (k : Link) (lane map : Nat), s.running = true ∧ k = s.link link.val ∧ k.established = true ∧
      remapTx k.txLanes lane map ≠ k.txLanes) ∧
    (∃ (s : State) (link : Fin 32) (h : CtrlHdr) (k : Link) (lane map : Nat), s.running = true ∧ k = s.link link.val ∧ k.established = true ∧
      remapTx k.txLanes lane map = k.txLanes) ∧
    (∃ (s : State) (link : Fin 32) (h : CtrlHdr) (k : Link) (lane m : Nat), s.running = true ∧ k = s.link link.val ∧ k.established = true ∧
      k.mapSent = some (lane, m)) ∧
    (∃ (s : State) (link : Fin 32) (h : CtrlHdr) (k : Link), s.running = true ∧ k = s.link link.val ∧ k.established = true ∧
      k.st = 6 ∧ k.tx.sync = 2) ∧
    (∃ (s : State) (link : Fin 32) (h : CtrlHdr) (k : Link), s.running = true ∧ k = s.link link.val ∧ k.established = true ∧
      k.st = 7 ∧ k.tx.sync = 2) ∧
    (∃ (s : State) (link : Fin 32) (h : CtrlHdr) (k : Link), s.running = true ∧ k = s.link link.val ∧ k.established = true ∧
      s.fabric.stalled = [] ∧ (k.st = 4 ∨ k.st = 5) ∧ s.linkBusy link.val = false) ∧
    (∃ (s : State) (link : Fin 32) (h : CtrlHdr) (k : Link), s.running = true ∧ k = s.link link.val ∧ k.established = true ∧
      s.fabric.stalled = [] ∧ k.standbyAsked = true ∧ s.linkBusy link.val = false) ∧
    (∃ (s : State) (link : Fin 32) (h : CtrlHdr) (k : Link) (f : Flit) (word : List (Fin 544)) (ends : Bool) (next : List (Fin 544)), s.running = true ∧ k = s.link link.val ∧ k.established = true ∧
      k.receives f = true ∧ flitBad f word next (k.rx.drained link.val).fifo = none ∧ f.ftype < 2 ∧ f.fseq = k.rx.taken % 4096) ∧
    (∃ (s : State) (link : Fin 32) (h : CtrlHdr) (k : Link) (f : Flit) (word : List (Fin 544)) (ends : Bool) (next : List (Fin 544)) (c : CtrlMsg), s.running = true ∧ k = s.link link.val ∧ k.established = true ∧
      k.receives f = true ∧ flitBad f word next (k.rx.drained link.val).fifo = none ∧ f.ftype = 2 ∧ ctrlOf f.payload = some c) ∧
    (∃ (s : State) (link : Fin 32) (h : CtrlHdr) (k : Link) (f : Flit) (word : List (Fin 544)) (ends : Bool) (next : List (Fin 544)) (sel : Nat), s.running = true ∧ k = s.link link.val ∧ k.established = true ∧
      k.receives f = true ∧ flitBad f word next (k.rx.drained link.val).fifo = some sel) :=
  ⟨⟨linked { st := 8 }, 3, {}, { st := 8 }, by decide⟩,
   ⟨linked { st := 4, tx := { formed := 1, buf := [{}] } }, 3, {}, { st := 4, tx := { formed := 1, buf := [{}] } }, 0, 0, by decide⟩,
   ⟨linked { st := 4, tx := { formed := 1, buf := [{}], consec := 255 } }, 3, {}, { st := 4, tx := { formed := 1, buf := [{}], consec := 255 } }, 0, 0, by decide⟩,
   ⟨linked { st := 4 }, 3, {}, { st := 4 }, 1, 0xFF, by decide⟩,
   ⟨linked { st := 6, txLanes := 0x1FD }, 3, {}, { st := 6, txLanes := 0x1FD }, 1, 0xFF, by decide⟩,
   ⟨linked { st := 6, mapSent := some (1, 0x1FD), spareFor := some 1 }, 3, {}, { st := 6, mapSent := some (1, 0x1FD), spareFor := some 1 }, 1, 0x1FD, by decide⟩,
   ⟨linked { st := 6, tx := { sync := 2 } }, 3, {}, { st := 6, tx := { sync := 2 } }, by decide⟩,
   ⟨linked { st := 7, tx := { sync := 2 } }, 3, {}, { st := 7, tx := { sync := 2 } }, by decide⟩,
   ⟨linked { st := 4 }, 3, {}, { st := 4 }, by decide⟩,
   ⟨linked { st := 5, standbyAsked := true }, 3, {}, { st := 5, standbyAsked := true }, by decide⟩,
   ⟨linked { st := 4 }, 3, {}, { st := 4 }, crcd {}, [], true, [], by exact ⟨by decide, rfl, by decide, by decide, crcd_good {} _ (by decide), by decide, by decide⟩⟩,
   ⟨linked { st := 4 }, 3, {}, { st := 4 }, crcd { ftype := 2, payload := [2] }, [], true, [], .null, by exact ⟨by decide, rfl, by decide, by decide, crcd_good _ _ (by decide), by decide, by decide⟩⟩,
   ⟨linked { st := 4 }, 3, {}, { st := 4 }, {}, [], true, lostWord, 2, by exact ⟨by decide, rfl, by decide, by decide, by simp [flitBad, lostWord, uncorrectable]⟩⟩⟩

theorem witness_LinkEventsComplete :
    (∃ (s : State) (link : Fin 32) (k : Link), s.running = true ∧ k = s.link link.val ∧
      k.established = true ∧ k.tx.acked < k.tx.formed ∧ k.tx.ackAt ≠ some s.now ∧ k.tx.replayAt ≠ some s.now ∧
      k.tx.consec < s.reg Obj.replayMax) ∧
    (∃ (s : State) (link : Fin 32) (k : Link), s.running = true ∧ k = s.link link.val ∧
      k.established = true ∧ k.tx.acked < k.tx.formed ∧ k.tx.ackAt ≠ some s.now ∧ k.tx.replayAt ≠ some s.now ∧
      s.reg Obj.replayMax ≤ k.tx.consec) ∧
    (∃ (s : State) (link : Fin 32) (k : Link), s.running = true ∧ k = s.link link.val ∧
      k.established = true ∧ k.tx.acked < k.tx.formed ∧ k.tx.ackAt ≠ some s.now ∧ k.tx.replayAt = some s.now) ∧
    (∃ (s : State) (link : Fin 32) (k : Link) (lane : Fin 9), s.running = true ∧ k = s.link link.val ∧
      4 ≤ k.st ∧ k.st ≤ 7 ∧ k.lanesNext.testBit lane.val = true ∧ k.rxNarrow = false ∧ k.spareFree = true) ∧
    (∃ (s : State) (link : Fin 32) (k : Link) (lane : Fin 9), s.running = true ∧ k = s.link link.val ∧
      4 ≤ k.st ∧ k.st ≤ 7 ∧ k.lanesNext.testBit lane.val = true ∧ k.rxNarrow = false ∧ k.spareFree = false ∧ k.narrowOk = true) ∧
    (∃ (s : State) (link : Fin 32) (k : Link) (lane : Fin 9), s.running = true ∧ k = s.link link.val ∧
      4 ≤ k.st ∧ k.st ≤ 7 ∧ k.lanesNext.testBit lane.val = true ∧ k.rxNarrow = false ∧ k.spareFree = false ∧ k.narrowOk = true ∧ lane.val = 8) ∧
    (∃ (s : State) (link : Fin 32) (k : Link) (lane : Fin 9), s.running = true ∧ k = s.link link.val ∧
      4 ≤ k.st ∧ k.st ≤ 7 ∧ k.lanesNext.testBit lane.val = true ∧ k.rxNarrow = true) ∧
    (∃ (s : State) (link : Fin 32) (k : Link) (lane : Fin 9), s.running = true ∧ k = s.link link.val ∧
      4 ≤ k.st ∧ k.st ≤ 7 ∧ k.lanesNext.testBit lane.val = true ∧ k.spareFree = false ∧ k.narrowOk = false) ∧
    (∃ (s : State) (link : Fin 32) (k : Link), s.running = true ∧ k = s.link link.val ∧
      k.established = true ∧ k.lanes.testBit 8 = false) ∧
    (∃ (s : State) (link : Fin 32) (k : Link) (lane m : Nat), s.running = true ∧ k = s.link link.val ∧
      k.mapSent = some (lane, m)) ∧
    (∃ (s : State) (link : Fin 32) (k : Link), s.running = true ∧ k = s.link link.val ∧
      k.st = 6 ∧ k.rx.closed = true ∧ k.mapSent = none) ∧
    (∃ (s : State) (link : Fin 32) (k : Link), s.running = true ∧ k = s.link link.val ∧
      k.rx.closed = false) ∧
    (∃ (s : State) (link : Fin 32) (k : Link) (vc : Fin 8), s.running = true ∧ k = s.link link.val ∧
      k.established = true ∧ k.audit = true) ∧
    (∃ (s : State) (link : Fin 32) (k : Link) (vc : Fin 8), s.running = true ∧ k = s.link link.val ∧
      (k.st = 4 ∨ k.st = 5) ∧ k.audit = false ∧ k.tx.sync = 0 ∧
      LinkTx.window { k.tx with quiet := k.tx.quiet.set vc.val true } < s.reg Obj.creditRetrainFloor) ∧
    (∃ (s : State) (link : Fin 32) (k : Link), s.running = true ∧ k = s.link link.val ∧
      (k.st = 6 ∨ k.st = 7) ∧ k.tx.sync = 1 ∧ k.tx.settled = true) ∧
    (∃ (s : State) (link : Fin 32) (k : Link), s.running = true ∧ k = s.link link.val ∧
      (k.st = 6 ∨ k.st = 7) ∧ k.tx.sync = 2 ∧ k.tx.syncTries < 2) ∧
    (∃ (s : State) (link : Fin 32) (k : Link), s.running = true ∧ k = s.link link.val ∧
      (k.st = 6 ∨ k.st = 7) ∧ k.tx.sync = 2 ∧ 2 ≤ k.tx.syncTries) ∧
    (∃ (s : State) (link : Fin 32) (k : Link), s.running = true ∧ k = s.link link.val ∧
      k.established = true ∧ k.st ≠ 8) ∧
    (∃ (s : State) (link : Fin 32) (k : Link), s.running = true ∧ k = s.link link.val ∧
      k.standbyAsked = true) ∧
    (∃ (s : State) (link : Fin 32) (k : Link), s.running = true ∧ k = s.link link.val ∧
      s.reg Obj.linkStandbyIdle ≠ 0 ∧ (k.st = 4 ∨ k.st = 5) ∧ s.linkBusy link.val = false) ∧
    (∃ (s : State) (link : Fin 32) (k : Link), s.running = true ∧ k = s.link link.val ∧
      (k.st = 9 ∨ k.st = 10)) ∧
    (∃ (s : State) (link : Fin 32) (k : Link), s.running = true ∧ k = s.link link.val ∧
      k.st = 1) ∧
    (∃ (s : State) (link : Fin 32) (k : Link), s.running = true ∧ k = s.link link.val ∧
      k.st = 1 ∧ k.retrainCmd = true) ∧
    (∃ (s : State) (link : Fin 32) (k : Link) (gh : Fin 16), s.running = true ∧ k = s.link link.val ∧
      s.hasDie (dieGH gh.val) = true) ∧
    (∃ (s : State) (link : Fin 32) (k : Link) (epid : Nat) (tc : Fin 4), s.running = true ∧ k = s.link link.val) ∧
    (∃ (s : State) (link : Fin 32) (k : Link), s.up = true ∧ k = s.link link.val ∧
      k.st = 8 ∧ s.power.st ≠ 2) ∧
    (∃ (s : State) (link : Fin 32) (k : Link), s.up = true ∧ k = s.link link.val ∧
      k.st = 8 ∧ s.power.st = 2 ∧ (s.reg Obj.wakeLinkMask).testBit link.val = true ∧
      s.power.deafLinks.testBit link.val = false ∧ (s.reg Obj.wakeEn).testBit 0 = true) :=
  ⟨⟨linked { st := 4, tx := { formed := 1, buf := [{}] } }, 3, { st := 4, tx := { formed := 1, buf := [{}] } }, by decide⟩,
   ⟨linked { st := 4, tx := { formed := 1, buf := [{}], consec := 255 } }, 3, { st := 4, tx := { formed := 1, buf := [{}], consec := 255 } }, by decide⟩,
   ⟨linked { st := 4, tx := { formed := 1, buf := [{}], replayAt := some 0 } }, 3, { st := 4, tx := { formed := 1, buf := [{}], replayAt := some 0 } }, by decide⟩,
   ⟨linked { st := 4 }, 3, { st := 4 }, 7, by decide⟩,
   ⟨linked { st := 5, spareBad := true }, 3, { st := 5, spareBad := true }, 0, by decide⟩,
   ⟨linked { st := 4, lanes := 0x1FD, spareFor := some 1 }, 3, { st := 4, lanes := 0x1FD, spareFor := some 1 }, 8, by decide⟩,
   ⟨linked { st := 7, lanes := 0x07F, rxNarrow := true }, 3, { st := 7, lanes := 0x07F, rxNarrow := true }, 0, by decide⟩,
   ⟨linked { st := 6, spareBad := true, narrowOk := false }, 3, { st := 6, spareBad := true, narrowOk := false }, 0, by decide⟩,
   ⟨linked { st := 4 }, 3, { st := 4 }, by decide⟩,
   ⟨linked { st := 6, mapSent := some (1, 0x1FD) }, 3, { st := 6, mapSent := some (1, 0x1FD) }, 1, 0x1FD, by decide⟩,
   ⟨linked { st := 6, rx := { closed := true } }, 3, { st := 6, rx := { closed := true } }, by decide⟩,
   ⟨linked { st := 6, tx := { moving := true } }, 3, { st := 6, tx := { moving := true } }, by decide⟩,
   ⟨linked { st := 4, audit := true }, 3, { st := 4, audit := true }, 7, by decide⟩,
   ⟨linked { st := 4, tx := { used := [0, 0, 0, 0, 0, 0, 0, 100000] } }, 3, { st := 4, tx := { used := [0, 0, 0, 0, 0, 0, 0, 100000] } }, 7, by decide⟩,
   ⟨linked { st := 7, tx := { sync := 1 } }, 3, { st := 7, tx := { sync := 1 } }, by decide⟩,
   ⟨linked { st := 7, tx := { sync := 2 } }, 3, { st := 7, tx := { sync := 2 } }, by decide⟩,
   ⟨linked { st := 6, tx := { sync := 2, syncTries := 2 } }, 3, { st := 6, tx := { sync := 2, syncTries := 2 } }, by decide⟩,
   ⟨linked { st := 4 }, 3, { st := 4 }, by decide⟩,
   ⟨linked { st := 4, standbyAsked := true }, 3, { st := 4, standbyAsked := true }, by decide⟩,
   ⟨((linked { st := 4 }).setReg Obj.linkStandbyIdle 1000), 3, { st := 4 }, by decide⟩,
   ⟨linked { st := 9 }, 3, { st := 9 }, by decide⟩,
   ⟨linked { st := 1 }, 3, { st := 1 }, by decide⟩,
   ⟨linked { st := 1, retrainCmd := true }, 3, { st := 1, retrainCmd := true }, by decide⟩,
   ⟨linked { st := 4 }, 3, { st := 4 }, 3, by decide⟩,
   ⟨linked { st := 4 }, 3, { st := 4 }, 9, 3, by decide⟩,
   ⟨linked { st := 8 }, 3, { st := 8 }, by decide⟩,
   ⟨((({ linked { st := 8 } with power := { serving.power with st := 2 } } : State).setReg Obj.wakeEn 1).setReg Obj.wakeLinkMask 8), 3, { st := 8 }, by decide⟩⟩

theorem witness_KeyExchangeCompletes :
    (∃ (s : State) (link : Fin 32) (k : Link), s.running = true ∧ k = s.link link.val ∧ k.st = 2) ∧
    (∃ (s : State) (link : Fin 32) (k : Link), s.running = true ∧ k = s.link link.val ∧ k.st = 3) ∧
    (∃ (s : State) (link : Fin 32) (k : Link) (m : CtrlMsg), s.running = true ∧ k = s.link link.val ∧ k.st = 3 ∧ k.kx.tries < 3 ∧ k.kx.latest = some m) ∧
    (∃ (s : State) (link : Fin 32) (k : Link) (version : Nat) (audit narrow : Bool), s.running = true ∧ k = s.link link.val ∧ k.st = 3 ∧
      k.kx.step = 1) ∧
    (∃ (s : State) (link : Fin 32) (k : Link) (chain sig : Bytes), s.running = true ∧ k = s.link link.val ∧ k.st = 3 ∧ k.kx.step = 2 ∧
      s.served = true ∧ s.sec.noIdentity = false ∧ sig =
      Config.ecdsaSign (Config.sha384 (transcript (lowerCert (leafOfChain chain)) k.kx.mine (k.kx.peer ++ [keyxBytes (.cert chain)])))) ∧
    (∃ (s : State) (link : Fin 32) (k : Link) (pub sig th keys : Bytes), s.running = true ∧ k = s.link link.val ∧ k.st = 3 ∧ k.kx.step = 3 ∧
      th = transcript k.sideA k.kx.mine (k.kx.peer ++ [keyxBytes (.share pub sig)]) ∧
      keys = hkdf72 (Config.ecdhSecret k.kx.eph pub) (Config.sha384 th) "TRH link v1") ∧
    (∃ (s : State) (link : Fin 32) (k : Link) (mac : Bytes), s.running = true ∧ k = s.link link.val ∧ k.st = 3 ∧ k.kx.step = 4 ∧
      mac = Config.hmac384 k.keys k.transcript) ∧
    (∃ (s : State) (link : Fin 32) (k : Link) (mac : Bytes), s.running = true ∧ k = s.link link.val ∧ k.st = 3 ∧ k.kx.step = 4 ∧
      mac ≠ Config.hmac384 k.keys k.transcript) :=
  ⟨⟨linked { st := 2, kx := {} }, 3, { st := 2, kx := {} }, by decide⟩,
   ⟨linked { st := 3, kx := { step := 2 } }, 3, { st := 3, kx := { step := 2 } }, by decide⟩,
   ⟨linked { st := 3, kx := { step := 1, latest := some .null } }, 3, { st := 3, kx := { step := 1, latest := some .null } }, .null, by decide⟩,
   ⟨linked { st := 3, kx := { step := 1 } }, 3, { st := 3, kx := { step := 1 } }, 1, false, true, by decide⟩,
   ⟨linked { st := 3, kx := { step := 2 } }, 3, { st := 3, kx := { step := 2 } }, [], _, by exact ⟨by decide, rfl, by decide, by decide, by decide, by decide, rfl⟩⟩,
   ⟨linked { st := 3, kx := { step := 3 } }, 3, { st := 3, kx := { step := 3 } }, [], [], _, _, by exact ⟨by decide, rfl, by decide, by decide, rfl, rfl⟩⟩,
   ⟨linked { st := 3, kx := { step := 4 } }, 3, { st := 3, kx := { step := 4 } }, _, by exact ⟨by decide, rfl, by decide, by decide, rfl⟩⟩,
   ⟨linked { st := 3, kx := { step := 4 } }, 3, { st := 3, kx := { step := 4 } }, 0 :: Config.hmac384 [] (Link.transcript { st := 3, kx := { step := 4 } }), by exact ⟨by decide, rfl, by decide, by decide, List.cons_ne_self _ _⟩⟩⟩

theorem witness_LinkCommandsComplete :
    (∃ (s : State) (l : Nat), s.accepts Obj.linkCmdResult ∧ l = s.reg Obj.linkCmdLink ∧ l < 32 ∧ (s.link l).st ≠ 0 ∧ s.needsPartner l =
      false ∧ s.flag (Obj.linkEnable l) = true) ∧
    (∃ (s : State) (l : Nat), s.accepts Obj.linkCmdResult ∧ l = s.reg Obj.linkCmdLink ∧ l < 32 ∧ (s.link l).st ≠ 0 ∧ s.needsPartner l =
      false ∧ s.flag (Obj.linkEnable l) = false) ∧
    (∃ (s : State) (l : Nat), s.accepts Obj.linkCmdResult ∧ l = s.reg Obj.linkCmdLink ∧ l < 32 ∧ s.needsPartner l = false) ∧
    (∃ (s : State) (l : Nat), s.accepts Obj.linkCmdResult ∧ l = s.reg Obj.linkCmdLink ∧ l < 32 ∧ (s.link l).st = 0) :=
  ⟨⟨((unpaired { st := 4 }).setReg Obj.linkCmdLink 3), 3, by unfold State.accepts; decide⟩,
   ⟨(((linked { st := 10 }).setReg Obj.linkCmdLink 3).setReg (Obj.linkEnable 3) 0), 3, by unfold State.accepts; decide⟩,
   ⟨((unpaired { st := 4 }).setReg Obj.linkCmdLink 3), 3, by unfold State.accepts; decide⟩,
   ⟨(ready.setReg Obj.linkCmdLink 31), 31, by unfold State.accepts; decide⟩⟩

theorem witness_FabricCommandsComplete :
    (∃ (s : State) (d e : Nat), s.accepts Obj.routeCmdResult ∧ d = s.reg Obj.routeCmdEpid % 2 ^ 20 ∧ e = s.reg Obj.routeCmdEntry ∧
      s.entryOk e = true ∧ (s.fabric.exactRoutes.has d = true ∨ s.fabric.exactRoutes.size < 4096)) ∧
    (∃ (s : State) (d e : Nat), s.accepts Obj.routeCmdResult ∧ d = s.reg Obj.routeCmdEpid % 2 ^ 20 ∧ e = s.reg Obj.routeCmdEntry ∧
      s.fabric.exactRoutes.has d = true) ∧
    (∃ (s : State) (d e : Nat), s.accepts Obj.routeCmdResult ∧ d = s.reg Obj.routeCmdEpid % 2 ^ 20 ∧ e = s.reg Obj.routeCmdEntry ∧ s.reg
      Obj.routeCmdPair < 16 ∧ s.pairMode (s.reg Obj.routeCmdPair) ≠ 0) ∧
    (∃ (s : State) (k src g : Nat) (wild : Bool), s.accepts Obj.gmapCmdResult ∧ k = s.reg Obj.gmapCmdPkey ∧ src = s.reg Obj.gmapCmdEpid %
      2 ^ 20 ∧ wild = bitOf (s.reg Obj.gmapCmdEpid) 31 ∧ 1 ≤ k ∧ k ≤ 0xFFFE ∧ g = s.reg Obj.gmapCmdGid % 2 ^ 20 ∧ s.pool.guests.has g =
      true ∧ (s.gmapEntry.isSome = true ∨ s.gmapFull = false)) ∧
    (∃ (s : State) (k src g : Nat) (wild : Bool), s.accepts Obj.gmapCmdResult ∧ k = s.reg Obj.gmapCmdPkey ∧ src = s.reg Obj.gmapCmdEpid %
      2 ^ 20 ∧ wild = bitOf (s.reg Obj.gmapCmdEpid) 31 ∧ 1 ≤ k ∧ k ≤ 0xFFFE ∧ s.gmapEntry.isSome = true) ∧
    (∃ (s : State) (k src g : Nat) (wild : Bool), s.accepts Obj.gmapCmdResult ∧ k = s.reg Obj.gmapCmdPkey ∧ src = s.reg Obj.gmapCmdEpid %
      2 ^ 20 ∧ wild = bitOf (s.reg Obj.gmapCmdEpid) 31 ∧ 1 ≤ k ∧ k ≤ 0xFFFE ∧ s.gmapEntry = some g) ∧
    (∃ (s : State) (l k : Nat), s.accepts Obj.pkeyCmdResult ∧ l = s.reg Obj.pkeyCmdLink ∧ k = s.reg Obj.pkeyCmdPkey ∧ 1 ≤ k ∧ k ≤ 0xFFFE ∧
      (s.keySet l).length < 64) ∧
    (∃ (s : State) (l k : Nat), s.accepts Obj.pkeyCmdResult ∧ l = s.reg Obj.pkeyCmdLink ∧ k = s.reg Obj.pkeyCmdPkey ∧ 1 ≤ k ∧ k ≤ 0xFFFE ∧
      (s.keySet l).contains k = true) ∧
    (∃ (s : State) (gh q : Nat), s.accepts Obj.queueCmdResult ∧ gh = s.reg Obj.queueCmdGh ∧ q = s.reg Obj.queueCmdQueue ∧ gh < 16 ∧ q <
      1024 ∧ s.cmdQueue.shapeOk = true ∧ q < 4) ∧
    (∃ (s : State) (gh q : Nat), s.accepts Obj.queueCmdResult ∧ gh = s.reg Obj.queueCmdGh ∧ q = s.reg Obj.queueCmdQueue ∧ gh < 16 ∧ q <
      1024 ∧ s.cmdQueue.shapeOk = true ∧ 4 ≤ q ∧ s.cmdQueue.matchOk gh = true ∧ s.fabric.queues.rows.any (fun r => r.1 / 1024 == gh &&
      decide (4 ≤ r.1 % 1024) && r.1 % 1024 != q && r.2.same s.cmdQueue) = false) ∧
    (∃ (s : State) (gh q : Nat), s.accepts Obj.queueCmdResult ∧ gh = s.reg Obj.queueCmdGh ∧ q = s.reg Obj.queueCmdQueue ∧ gh < 16 ∧ q <
      1024 ∧ s.cmdQueue.shapeOk = true ∧ 4 ≤ q ∧ s.fabric.queues.has (gh * 1024 + q) = true) ∧
    (∃ (s : State) (gh q : Nat), s.accepts Obj.queueCmdResult ∧ gh = s.reg Obj.queueCmdGh ∧ q = s.reg Obj.queueCmdQueue ∧ gh < 16 ∧ q <
      1024 ∧ s.cmdQueue.shapeOk = true ∧ (q < 4 ∨ s.fabric.queues.has (gh * 1024 + q) = true)) :=
  ⟨⟨((serving.setReg Obj.routeCmdEpid 1048575).setReg Obj.routeCmdEntry 0), 1048575, 0, by unfold State.accepts; decide⟩,
   ⟨({ serving with fabric := { serving.fabric with exactRoutes := { rows := [(2, 0)] } } }.setReg Obj.routeCmdEpid 2), 2, 0, by unfold State.accepts; decide⟩,
   ⟨({ serving with forced := { rows := [(Obj.pairMode 15, 1)] } }.setReg Obj.routeCmdPair 15), 0, 0, by unfold State.accepts; decide⟩,
   ⟨(((serving.setReg Obj.gmapCmdPkey 5).setReg Obj.gmapCmdEpid 9).setReg Obj.gmapCmdGid 7), 5, 9, 7, false, by unfold State.accepts; decide⟩,
   ⟨(((serving.setReg Obj.gmapCmdPkey 5).setReg Obj.gmapCmdEpid 9).setReg Obj.gmapCmdGid 7), 5, 9, 7, false, by unfold State.accepts; decide⟩,
   ⟨(((serving.setReg Obj.gmapCmdPkey 5).setReg Obj.gmapCmdEpid 9).setReg Obj.gmapCmdGid 7), 5, 9, 7, false, by unfold State.accepts; decide⟩,
   ⟨((serving.setReg Obj.pkeyCmdLink 3).setReg Obj.pkeyCmdPkey 0xFFFE), 3, 0xFFFE, by unfold State.accepts; decide⟩,
   ⟨((serving.setReg Obj.pkeyCmdLink 3).setReg Obj.pkeyCmdPkey 5), 3, 5, by unfold State.accepts; decide⟩,
   ⟨((serving.setReg Obj.queueCmdGh 3).setReg Obj.queueCmdQueue 3), 3, 3, by unfold State.accepts; decide⟩,
   ⟨((((serving.setReg Obj.queueCmdGh 3).setReg Obj.queueCmdQueue 4).setReg Obj.queueCmdLink 3).setReg Obj.queueCmdPkey 5), 3, 4, by unfold State.accepts; decide⟩,
   ⟨(({ serving with fabric := { serving.fabric with queues := { rows := [(3 * 1024 + 1023, {})] } } }.setReg Obj.queueCmdGh 3).setReg Obj.queueCmdQueue 1023), 3, 1023, by unfold State.accepts; decide⟩,
   ⟨(({ serving with fabric := { serving.fabric with queues := { rows := [(3 * 1024 + 1023, {})] } } }.setReg Obj.queueCmdGh 3).setReg Obj.queueCmdQueue 1023), 3, 1023, by unfold State.accepts; decide⟩⟩

theorem witness_FabricEventsComplete :
    (∃ (s : State) (src : Nat) (tc : Fin 4) (d : EchoDue), s.running = true ∧ s.fabric.echoes.find? (fun e => e.src == src && e.tc ==
      tc.val) = some d ∧ ∀ x, s.fabric.lastCnp.find (rateKey src tc.val) = some x → x + s.reg Obj.cnpGap * 1000 ≤ s.now) ∧
    (∃ (s : State) (src : Nat) (tc : Fin 4) (d : EchoDue) (x : Nat), s.running = true ∧ s.fabric.echoes.find? (fun e => e.src == src && e.tc ==
      tc.val) = some d ∧ s.fabric.lastCnp.find (rateKey src tc.val) = some x ∧ s.now < x + s.reg Obj.cnpGap * 1000) ∧
    (∃ (s : State) (epid : Nat) (tc : Fin 4) (r : RateEntry), s.running = true ∧ s.fabric.rates.find (rateKey epid tc.val) = some r ∧
      r.decreased = s.now) ∧
    (∃ (s : State) (epid : Nat) (tc : Fin 4) (r : RateEntry), s.running = true ∧ s.fabric.rates.find (rateKey epid tc.val) = some r ∧
      r.decreased ≠ s.now) ∧
    (∃ (s : State) (w : Nat × Nat), s.running = true ∧ s.fabric.routeWait = some w ∧ s.fabric.egress.any (s.routedOld w) = false) ∧
    (∃ (s : State) (w : Nat × Option Nat), s.running = true ∧ s.fabric.gmapWait = some w ∧ s.gmapInFlight w = false) ∧
    (∃ (s : State) (link : Fin 32), s.running = true) ∧
    (∃ (s : State) (link : Fin 32) (k : Link) (n : Nat) (x : TxFlit), s.running = true ∧ k = s.link link.val ∧ k.sends = true ∧
      k.tx.replay = some n ∧ k.tx.buf[n - k.tx.acked]? = some x) ∧
    (∃ (s : State) (link : Fin 32) (k : Link), s.running = true ∧ k = s.link link.val ∧ k.sends = true ∧
      k.tx.replay = none ∧ k.tx.full = true) ∧
    (∃ (s : State) (link : Fin 32) (k : Link), s.running = true ∧ k = s.link link.val ∧ k.sends = true ∧
      k.tx.replay = none ∧ k.tx.full = false ∧ k.tx.paused = true) ∧
    (∃ (s : State) (link : Fin 32) (k : Link), s.running = true ∧ k = s.link link.val ∧ k.sends = true ∧
      k.tx.replay = none ∧ k.tx.full = false ∧ s.maySend link.val = false ∧ k.tx.line = []) ∧
    (∃ (s : State) (link : Fin 32) (k : Link), s.running = true ∧ k = s.link link.val ∧ k.sends = true ∧
      k.tx.replay = none ∧ k.tx.full = false ∧ k.tx.paused = false ∧ s.maySend link.val = false ∧ k.tx.line ≠ []) ∧
    (∃ (s u m : State) (link : Fin 32) (e : EPkt), s.running = true ∧ s.maySend link.val = true ∧
      u = (if (s.eg link.val).wfq != s.wantWfq link.val then s.changeMode link.val else s) ∧ u.pickPacket link.val = (some e, m)) ∧
    (∃ (s u m : State) (link : Fin 32) (e : EPkt), s.running = true ∧ s.maySend link.val = true ∧
      u = (if (s.eg link.val).wfq != s.wantWfq link.val then s.changeMode link.val else s) ∧ u.pickPacket link.val = (some e, m) ∧
      (s.eg link.val).wfq ≠ s.wantWfq link.val) :=
  ⟨⟨{ serving with fabric := { serving.fabric with echoes := [{ src := 9, tc := 1 }] } }, 9, 1, { src := 9, tc := 1 }, by exact ⟨by decide, by decide, fun x h => by cases h⟩⟩,
   ⟨{ serving with fabric := { serving.fabric with echoes := [{ src := 9, tc := 1 }], lastCnp := { rows := [(rateKey 9 1, 0)] } } }, 9, 1, { src := 9, tc := 1 }, 0, by decide⟩,
   ⟨{ serving with fabric := { serving.fabric with rates := { rows := [(rateKey 9 1, {})] } } }, 9, 1, {}, by decide⟩,
   ⟨{ serving with fabric := { serving.fabric with rates := { rows := [(rateKey 9 1, { decreased := 5 })] } } }, 9, 1, { decreased := 5 }, by decide⟩,
   ⟨{ serving with fabric := { serving.fabric with routeWait := some (1, 2) } }, (1, 2), by decide⟩,
   ⟨{ serving with fabric := { serving.fabric with gmapWait := some (5, none) } }, (5, none), by decide⟩,
   ⟨serving, 31, by decide⟩,
   ⟨linked { st := 4, tx := { formed := 1, buf := [{}], replay := some 0 } }, 3, { st := 4, tx := { formed := 1, buf := [{}], replay := some 0 } }, 0, {}, by decide⟩,
   ⟨linked { st := 4, tx := { formed := 1024 } }, 3, { st := 4, tx := { formed := 1024 } }, by decide⟩,
   ⟨linked { st := 4, tx := { paused := true } }, 3, { st := 4, tx := { paused := true } }, by decide⟩,
   ⟨linked { st := 7 }, 3, { st := 7 }, by decide⟩,
   ⟨linked { st := 7, tx := { line := zeroBytes 16 } }, 3, { st := 7, tx := { line := zeroBytes 16 } }, by decide⟩,
   ⟨{ serving with fabric := { serving.fabric with egress := [{ link := 3, p := pkt 0 64 0, own := true }] } }, _, _, 3, { link := 3, p := pkt 0 64 0, own := true }, by exact ⟨by decide, by decide, rfl, by rfl⟩⟩,
   ⟨{ serving with fabric := { serving.fabric with egress := [{ link := 3, p := pkt 0 64 0, own := true }], egLinks := { rows := [(3, { wfq := true })] } } }, _, _, 3, { link := 3, p := pkt 0 64 0, own := true }, by exact ⟨by decide, by decide, rfl, by rfl, by decide⟩⟩⟩

theorem witness_ChannelTrafficCompletes :
    (∃ (s : State) (ch : Fin 48) (c : Chan) (sub : Fin 2) (ready : List Nat) (retire : Nat) (q0 q : Sub) (x : Nat × Burst) (capped : Bool)
      (r : RowAddr), s.running = true ∧ c = s.chan ch.val ∧ c.st = 4 ∧ c.alert = false ∧ c.repair = none ∧ c.subs[sub.val]? = some q0 ∧ q
      = { q0 with retry := q0.retry.drop retire } ∧ q.retry.length < 64 ∧ s.pickSlot ch.val q (if s.subMode q then q.wq else q.rq) ready =
      (some x, capped) ∧ r = s.burstRow ch.val x.2 ∧ q.rows.find r.bank = none) ∧
    (∃ (s : State) (ch : Fin 48) (c : Chan) (sub : Fin 2) (ready : List Nat) (retire : Nat) (q0 q : Sub) (x : Nat × Burst) (capped : Bool)
      (r : RowAddr) (row at_ : Nat), s.running = true ∧ c = s.chan ch.val ∧ c.st = 4 ∧ c.alert = false ∧ c.repair = none ∧
      c.subs[sub.val]? = some q0 ∧ q = { q0 with retry := q0.retry.drop retire } ∧ q.retry.length < 64 ∧ s.pickSlot ch.val q (if s.subMode
      q then q.wq else q.rq) ready = (some x, capped) ∧ r = s.burstRow ch.val x.2 ∧ q.rows.find r.bank = some (row, at_) ∧ row ≠ r.row) ∧
    (∃ (s : State) (ch : Fin 48) (c : Chan) (sub : Fin 2) (ready : List Nat) (retire : Nat) (q0 q : Sub) (x : Nat × Burst) (capped : Bool)
      (r : RowAddr) (at_ : Nat), s.running = true ∧ c = s.chan ch.val ∧ c.st = 4 ∧ c.alert = false ∧ c.repair = none ∧ c.subs[sub.val]? =
      some q0 ∧ q = { q0 with retry := q0.retry.drop retire } ∧ q.retry.length < 64 ∧ s.pickSlot ch.val q (if s.subMode q then q.wq else
      q.rq) ready = (some x, capped) ∧ r = s.burstRow ch.val x.2 ∧ q.rows.find r.bank = some (r.row, at_)) ∧
    (∃ (s : State) (ch : Fin 48) (c : Chan) (line e1 e2 k a : Nat) (b : Burst) (r : Req) (x : Seen) (m : State), s.running = true ∧ c =
      s.chan ch.val ∧ (s.sub ch.val (line / 4 % 2)).inFlight.find? (fun b => b.line == line) = some b ∧ b.weight = none ∧ b.trk = some k ∧ s.pool.reqs.find
      k = some r ∧ r.lines.find? (fun a => s.wcbOf (s.place a) == (ch.val, line)) = some a ∧ (s.onSub ch.val (line / 4 % 2) fun q =>
      { q with inFlight := q.inFlight.erase b }).readIssued ch.val a r.gid e1 e2 = (x, m) ∧ x.waits = false) ∧
    (∃ (s : State) (ch : Fin 48) (c : Chan) (line e1 e2 k a : Nat) (b : Burst) (r : Req) (x : Seen) (m : State), s.running = true ∧ c =
      s.chan ch.val ∧ (s.sub ch.val (line / 4 % 2)).inFlight.find? (fun b => b.line == line) = some b ∧ b.weight = none ∧ b.trk = some k ∧ s.pool.reqs.find
      k = some r ∧ r.lines.find? (fun a => s.wcbOf (s.place a) == (ch.val, line)) = some a ∧ (s.onSub ch.val (line / 4 % 2) fun q =>
      { q with inFlight := q.inFlight.erase b }).readIssued ch.val a r.gid e1 e2 = (x, m) ∧ x.waits = true) ∧
    (∃ (s : State) (ch : Fin 48) (c : Chan) (line e1 e2 a : Nat) (b : Burst) (w : Nat × Nat), s.running = true ∧ c = s.chan ch.val ∧
      (s.sub ch.val (line / 4 % 2)).inFlight.find? (fun b => b.line == line) = some b ∧ b.weight = some w ∧
      s.lineAddr ch.val line = some a) ∧
    (∃ (s : State) (ch : Fin 48) (c : Chan) (line : Nat) (w : WLine), s.running = true ∧ c = s.chan ch.val ∧ s.strongChan ch.val = false ∧
      c.serves = true ∧ (s.sub ch.val (line / 4 % 2)).wq.length < 64 ∧ c.wcb.find line = some w ∧ w.whole = true ∧ s.drainDue ch.val line = true) ∧
    (∃ (s : State) (ch : Fin 48) (line : Nat), s.running = true ∧ s.drainDue ch.val line = false) ∧
    (∃ (s : State) (ch : Fin 48) (c : Chan) (sub : Fin 2) (bank : Fin 128) (row at_ : Nat) (q : Sub), s.running = true ∧ c = s.chan ch.val
      ∧ c.subs[sub.val]? = some q ∧ q.rows.find bank.val = some (row, at_) ∧ c.st = 4 ∧ s.rowWanted ch.val sub.val bank.val row = false) ∧
    (∃ (s : State) (ch : Fin 48) (c : Chan) (sub : Fin 2) (rank ba : Fin 4) (q : Sub), s.running = true ∧ c = s.chan ch.val ∧ (c.st = 4 ∨
      c.st = 5) ∧ c.alert = false ∧ c.subs[sub.val]? = some q ∧ 0 ≤ q.refresh.getD rank.val 0 ∧ (q.rq ++ q.wq).any (fun b => (s.burstRow
      ch.val b).rank == rank.val) = true ∧ q.refresh.getD rank.val 0 < 4) ∧
    (∃ (s : State) (ch : Fin 48) (c : Chan) (sub : Fin 2) (rank ba : Fin 4) (q : Sub), s.running = true ∧ c = s.chan ch.val ∧ (c.st = 4 ∨
      c.st = 5) ∧ c.alert = false ∧ c.subs[sub.val]? = some q ∧ 0 ≤ q.refresh.getD rank.val 0 ∧ (q.rq ++ q.wq).any (fun b => (s.burstRow
      ch.val b).rank == rank.val) = false) ∧
    (∃ (s : State) (ch : Fin 48) (c : Chan) (temp : Int), s.running = true ∧ c = s.chan ch.val ∧ c.st ≠ 0 ∧ (s.bus (ch.val / 8)).busy = false) ∧
    (∃ (s : State) (ch : Fin 48) (c : Chan) (temp : Int), s.running = true ∧ c = s.chan ch.val ∧ c.st ≠ 0 ∧ (s.bus (ch.val / 8)).busy = true ∧
      (s.bus (ch.val / 8)).queue.length < 32) ∧
    (∃ (s : State) (ch : Fin 48) (c : Chan) (temp : Int), s.running = true ∧ c = s.chan ch.val ∧ c.st ≠ 0 ∧ s.inForce (Obj.sbMode (ch.val
      / 8)) = 1) ∧
    (∃ (s : State) (ch : Fin 48) (c : Chan), s.running = true ∧ c = s.chan ch.val ∧ c.st = 4 ∧ c.repair = none ∧ c.quiet = true ∧
      c.wcb.size = 0 ∧ c.plines.size = 0 ∧ s.reg Obj.chIdleSr ≠ 0) ∧
    (∃ (s : State) (ch : Fin 48) (c : Chan), s.running = true ∧ c = s.chan ch.val ∧ c.st = 4 ∧ c.repair = none ∧ c.quiet = true ∧
      c.wcb.size = 0 ∧ c.plines.size = 0 ∧ c.pd = false ∧ s.reg Obj.chIdlePd ≠ 0) ∧
    (∃ (s : State) (ch : Fin 48) (c : Chan), s.running = true ∧ c = s.chan ch.val ∧ c.st = 6) ∧
    (∃ (s : State) (ch : Fin 48) (c : Chan), s.running = true ∧ c = s.chan ch.val ∧ c.alert = true) :=
  ⟨⟨chanWith { st := 4, subs := [reading [], {}] }, 0, { st := 4, subs := [reading [], {}] }, 0, [0], 0, reading [], reading [], (0, {}), false, decodeCo 4 0, by decide⟩,
   ⟨chanWith { st := 4, subs := [reading [(0, 5, 0)], {}] }, 0, { st := 4, subs := [reading [(0, 5, 0)], {}] }, 0, [0], 0, reading [(0, 5, 0)], reading [(0, 5, 0)], (0, {}), false, decodeCo 4 0, 5, 0, by decide⟩,
   ⟨chanWith { st := 4, subs := [reading [(0, 0, 0)], {}] }, 0, { st := 4, subs := [reading [(0, 0, 0)], {}] }, 0, [0], 0, reading [(0, 0, 0)], reading [(0, 0, 0)], (0, {}), false, decodeCo 4 0, 0, by decide⟩,
   ⟨{ chanWith { st := 4, subs := [{ inFlight := [{ trk := some 5 }] }, {}] } with pool := { serving.pool with reqs := { rows := [(5, { p := { opc := 1 }, gid := 7, pas := [(0, 64)], stage := .dram })] } } }, 0, { st := 4, subs := [{ inFlight := [{ trk := some 5 }] }, {}] }, 0, 0, 0, 5, 0, { trk := some 5 }, { p := { opc := 1 }, gid := 7, pas := [(0, 64)], stage := .dram }, _, _, by exact ⟨by decide, by decide, by decide, by decide, by decide, by decide, by decide, rfl, by decide⟩⟩,
   ⟨{ chanWith { st := 4, repair := some (0, false), subs := [{ inFlight := [{ trk := some 5 }] }, {}] } with pool := { serving.pool with reqs := { rows := [(5, { p := { opc := 1 }, gid := 7, pas := [(0, 64)], stage := .dram })] } } }, 0, { st := 4, repair := some (0, false), subs := [{ inFlight := [{ trk := some 5 }] }, {}] }, 0, 0, 0, 5, 0, { trk := some 5 }, { p := { opc := 1 }, gid := 7, pas := [(0, 64)], stage := .dram }, _, _, by exact ⟨by decide, by decide, by decide, by decide, by decide, by decide, by decide, rfl, by decide⟩⟩,
   ⟨chanWith { st := 4, subs := [{ inFlight := [{ weight := some (wbKey 3 0, 0) }] }, {}] }, 0, { st := 4, subs := [{ inFlight := [{ weight := some (wbKey 3 0, 0) }] }, {}] }, 0, 0, 0, 0, { weight := some (wbKey 3 0, 0) }, (wbKey 3 0, 0), by decide⟩,
   ⟨{ chanWith { st := 4, wcb := { rows := [(0, { data := zeroBytes 64, mask := 2 ^ 64 - 1 })] } } with power := { serving.power with timebase := 200 } }, 0, { st := 4, wcb := { rows := [(0, { data := zeroBytes 64, mask := 2 ^ 64 - 1 })] } }, 0, { data := zeroBytes 64, mask := 2 ^ 64 - 1 }, by decide⟩,
   ⟨{ chanWith { st := 4, subs := [reading [], {}], wcb := { rows := [(0, { data := zeroBytes 64, mask := 2 ^ 64 - 1 })] } } with power := { serving.power with timebase := 199 } }, 0, 0, by decide⟩,
   ⟨chanWith { st := 4, subs := [{ rows := { rows := [(127, 0, 0)] } }, {}] }, 0, { st := 4, subs := [{ rows := { rows := [(127, 0, 0)] } }, {}] }, 0, 127, 0, 0, { rows := { rows := [(127, 0, 0)] } }, by decide⟩,
   ⟨chanWith { st := 4, subs := [reading [], {}] }, 0, { st := 4, subs := [reading [], {}] }, 0, 0, 3, reading [], by decide⟩,
   ⟨chanWith { st := 5 }, 0, { st := 5 }, 1, 3, 3, {}, by decide⟩,
   ⟨chanWith { st := 4 }, 0, { st := 4 }, 400, by decide⟩,
   ⟨{ chanWith { st := 4 } with cellar := { (chanWith { st := 4 }).cellar with buses := { rows := [(0, { busy := true, queue := List.replicate 31 (0, 0) })] } } }, 0, { st := 4 }, 400, by decide⟩,
   ⟨{ chanWith { st := 4 } with forced := { rows := [(Obj.sbMode 0, 1)] } }, 0, { st := 4 }, 400, by decide⟩,
   ⟨((chanWith { st := 4 }).setReg Obj.chIdleSr 1000), 0, { st := 4 }, by decide⟩,
   ⟨((chanWith { st := 4 }).setReg Obj.chIdlePd 1000), 0, { st := 4 }, by decide⟩,
   ⟨chanWith { st := 6 }, 0, { st := 6 }, by decide⟩,
   ⟨chanWith { st := 4, alert := true }, 0, { st := 4, alert := true }, by decide⟩⟩

theorem witness_TrainingAndSidebandComplete :
    (∃ (s : State) (ch : Fin 48) (c : Chan) (ok : Bool) (lanes : List LaneSweep) (osc eyes : List Nat) (entries : Bytes), s.running = true ∧
      c = s.chan ch.val ∧ c.st = 3 ∧ c.filling = false ∧ eyes = c.eyesOf (c.sweeps c.seed true lanes) ∧
      entries = entriesOf (c.sweeps c.seed true lanes) ∧ (ok && s.eyesOk eyes) = true) ∧
    (∃ (s : State) (ch : Fin 48) (c : Chan) (ok : Bool) (lanes : List LaneSweep) (osc eyes : List Nat) (entries : Bytes), s.running = true ∧
      c = s.chan ch.val ∧ c.st = 3 ∧ c.filling = false ∧ eyes = c.eyesOf (c.sweeps c.seed true lanes) ∧
      entries = entriesOf (c.sweeps c.seed true lanes) ∧ (ok && s.eyesOk eyes) = false ∧ c.reran = false) ∧
    (∃ (s : State) (ch : Fin 48) (c : Chan) (ok : Bool) (lanes : List LaneSweep) (osc eyes : List Nat) (entries : Bytes), s.running = true ∧
      c = s.chan ch.val ∧ c.st = 3 ∧ c.filling = false ∧ eyes = c.eyesOf (c.sweeps c.seed true lanes) ∧
      entries = entriesOf (c.sweeps c.seed true lanes) ∧ (ok && s.eyesOk eyes) = false ∧ c.reran = true) ∧
    (∃ (s : State) (ch : Fin 48) (c : Chan), s.running = true ∧ c = s.chan ch.val ∧ c.st = 3 ∧ c.filling = true) ∧
    (∃ (s : State) (ch : Fin 48) (c : Chan) (rank : Fin 4) (change v : Int), s.running = true ∧ c = s.chan ch.val ∧ c.st = 4 ∧ v =
      c.wrDrift.getD rank.val 0 + change ∧ v.natAbs ≤ s.reg Obj.wrTrackRange) ∧
    (∃ (s : State) (ch : Fin 48) (c : Chan) (rank : Fin 4) (change v : Int), s.running = true ∧ c = s.chan ch.val ∧ c.st = 4 ∧ v =
      c.wrDrift.getD rank.val 0 + change ∧ s.reg Obj.wrTrackRange < v.natAbs) ∧
    (∃ (s : State) (ch : Fin 48) (c : Chan) (lane : Fin 20) (off v : Int), s.running = true ∧ c = s.chan ch.val ∧ c.st = 4 ∧ 2 ≤
      off.natAbs ∧ v = c.rdDrift.getD lane.val 0 + (if 0 < off then 1 else -1) ∧ v.natAbs ≤ s.reg Obj.rdTrackRange) ∧
    (∃ (s : State) (ch : Fin 48) (c : Chan) (lane : Fin 20) (off v : Int), s.running = true ∧ c = s.chan ch.val ∧ c.st = 4 ∧ 2 ≤
      off.natAbs ∧ v = c.rdDrift.getD lane.val 0 + (if 0 < off then 1 else -1) ∧ s.reg Obj.rdTrackRange < v.natAbs) ∧
    (∃ (s : State) (ch : Fin 48) (c : Chan), s.running = true ∧ c = s.chan ch.val ∧ c.st = 4 ∧ c.repair = none ∧ c.want ≠ 0 ∧ s.groupHolds
      ch.val = false ∧ c.want = 5) ∧
    (∃ (s : State) (ch : Fin 48) (c : Chan), s.running = true ∧ c = s.chan ch.val ∧ c.st = 4 ∧ c.repair = none ∧ c.want ≠ 0 ∧ s.groupHolds
      ch.val = false ∧ c.want ≠ 5 ∧ (s.recentRetrains c).length < s.reg Obj.retrainLimit) ∧
    (∃ (s : State) (ch : Fin 48) (c : Chan), s.running = true ∧ c = s.chan ch.val ∧ c.st = 4 ∧ c.repair = none ∧ c.want ≠ 0 ∧ s.groupHolds
      ch.val = false ∧ c.want ≠ 5 ∧ s.reg Obj.retrainLimit ≤ (s.recentRetrains c).length) ∧
    (∃ (s : State) (ch : Fin 48) (c : Chan) (lanes : List LaneSweep) (osc eyes : List Nat) (f : List (Option EyeWindow × Option EyeWindow)),
      s.running = true ∧ c = s.chan ch.val ∧ c.st = 5 ∧
      f = (if c.full then c.sweeps c.seed true lanes else c.sweeps (some c.present) false lanes) ∧ eyes = c.eyesOf f ∧ s.eyesOk eyes = true ∧ c.full = false) ∧
    (∃ (s : State) (ch : Fin 48) (c : Chan) (lanes : List LaneSweep) (osc eyes : List Nat) (f : List (Option EyeWindow × Option EyeWindow)),
      s.running = true ∧ c = s.chan ch.val ∧ c.st = 5 ∧
      f = (if c.full then c.sweeps c.seed true lanes else c.sweeps (some c.present) false lanes) ∧ eyes = c.eyesOf f ∧ s.eyesOk eyes = true ∧ c.full = true) ∧
    (∃ (s : State) (ch : Fin 48) (c : Chan) (lanes : List LaneSweep) (osc eyes : List Nat) (f : List (Option EyeWindow × Option EyeWindow)),
      s.running = true ∧ c = s.chan ch.val ∧ c.st = 5 ∧
      f = (if c.full then c.sweeps c.seed true lanes else c.sweeps (some c.present) false lanes) ∧ eyes = c.eyesOf f ∧ s.eyesOk eyes = false) ∧
    (∃ (s : State) (ch : Nat), s.accepts Obj.trainCmdResult ∧ ch = s.reg Obj.trainCmdChannel ∧ ch < 48 ∧ ((s.chan ch).st = 4 ∨ (s.chan
      ch).st = 6)) ∧
    (∃ (s : State) (ch n k r : Nat) (d : Bytes), s.accepts Obj.sbCmdResult ∧ ch = s.reg Obj.sbCmdChannel ∧ n = s.reg Obj.sbCmdLen ∧ k =
      s.reg Obj.sbCmdTarget ∧ r = s.reg Obj.sbCmdReg ∧ s.sbValid false = true) ∧
    (∃ (s : State) (ch n k r : Nat) (acked : Bool), s.accepts Obj.sbCmdResult ∧ ch = s.reg Obj.sbCmdChannel ∧ n = s.reg Obj.sbCmdLen ∧ k =
      s.reg Obj.sbCmdTarget ∧ r = s.reg Obj.sbCmdReg ∧ s.sbValid true = true) ∧
    (∃ (s : State) (bus : Fin 6), s.running = true ∧ s.inForce (Obj.sbMode bus.val) = 0 ∧ (s.bus bus.val).losses < 7) ∧
    (∃ (s : State) (bus : Fin 6), s.running = true ∧ s.inForce (Obj.sbMode bus.val) = 0 ∧ 7 ≤ (s.bus bus.val).losses) ∧
    (∃ (s : State) (bus : Fin 6) (answer : Option Bytes), s.running = true ∧ (s.bus bus.val).busy = true ∧ s.reg Obj.sbCmdChannel / 8 =
      bus.val) :=
  ⟨⟨chanWith { st := 3 }, 0, { st := 3 }, true, goodSweeps, [], _, _, by exact ⟨by decide, by decide, by decide, by decide, rfl, rfl, by decide +kernel⟩⟩,
   ⟨chanWith { st := 3 }, 0, { st := 3 }, false, [], [], _, _, by exact ⟨by decide, by decide, by decide, by decide, rfl, rfl, by decide, by decide⟩⟩,
   ⟨chanWith { st := 3, reran := true }, 0, { st := 3, reran := true }, true, [], [], _, _, by exact ⟨by decide, by decide, by decide, by decide, rfl, rfl, by decide +kernel, by decide⟩⟩,
   ⟨chanWith { st := 3, filling := true }, 0, { st := 3, filling := true }, by decide⟩,
   ⟨chanWith { st := 4 }, 0, { st := 4 }, 3, 1, 1, by decide⟩,
   ⟨chanWith { st := 4 }, 0, { st := 4 }, 3, -100000, -100000, by decide⟩,
   ⟨chanWith { st := 4 }, 0, { st := 4 }, 19, -2, -1, by decide⟩,
   ⟨chanWith { st := 4, rdDrift := { rows := [(19, 100000)] } }, 0, { st := 4, rdDrift := { rows := [(19, 100000)] } }, 19, 2, 100001, by decide⟩,
   ⟨chanWith { st := 4, want := 5 }, 0, { st := 4, want := 5 }, by decide⟩,
   ⟨chanWith { st := 4, want := 1 }, 0, { st := 4, want := 1 }, by decide⟩,
   ⟨chanWith { st := 4, want := 1, times := List.replicate 20 0 }, 0, { st := 4, want := 1, times := List.replicate 20 0 }, by decide⟩,
   ⟨chanWith { st := 5, entries := (List.replicate 80 (leBytes 8 (8096 * 2 ^ 32 + 100))).flatten }, 0, { st := 5, entries := (List.replicate 80 (leBytes 8 (8096 * 2 ^ 32 + 100))).flatten }, goodSweeps, [], _, _, by exact ⟨by decide, rfl, by decide +kernel, rfl, rfl, by decide +kernel, by decide +kernel⟩⟩,
   ⟨chanWith { st := 5, full := true }, 0, { st := 5, full := true }, goodSweeps, [], _, _, by exact ⟨by decide, rfl, by decide +kernel, rfl, rfl, by decide +kernel, by decide +kernel⟩⟩,
   ⟨chanWith { st := 5 }, 0, { st := 5 }, [], [], _, _, by exact ⟨by decide, by decide, by decide, rfl, rfl, by decide +kernel⟩⟩,
   ⟨(chanWith { st := 4 }), 0, by unfold State.accepts; decide⟩,
   ⟨(serving.setReg Obj.sbCmdLen 64), 0, 64, 0, 0, [], by unfold State.accepts; decide⟩,
   ⟨(serving.setReg Obj.sbCmdLen 1), 0, 1, 0, 0, true, by unfold State.accepts; decide⟩,
   ⟨serving, 5, by decide⟩,
   ⟨{ serving with cellar := { serving.cellar with buses := { rows := [(5, { losses := 7 })] } } }, 5, by decide⟩,
   ⟨{ serving with cellar := { serving.cellar with buses := { rows := [(0, { busy := true })] } } }, 0, none, by decide⟩⟩

theorem witness_ProtectionEventsComplete :
    (∃ (s : State) (ch : Fin 48) (c : Chan) (d : Decoded), s.running = true ∧ c = s.chan ch.val ∧ c.st = 4 ∧ c.repair = none ∧ s.flag
      Obj.scrubEnable = true ∧ s.chanLines ≠ 0 ∧ c.wcb.has c.scrub = false ∧ s.strongChan ch.val = false ∧ d = decodeLine (s.rawLine
      ch.val c.scrub) false ∧ d.res = 0) ∧
    (∃ (s : State) (ch : Fin 48) (c : Chan) (d : Decoded), s.running = true ∧ c = s.chan ch.val ∧ c.st = 4 ∧ c.repair = none ∧ s.flag
      Obj.scrubEnable = true ∧ s.chanLines ≠ 0 ∧ c.wcb.has c.scrub = false ∧ s.strongChan ch.val = false ∧ d = decodeLine (s.rawLine
      ch.val c.scrub) false ∧ d.res = 1) ∧
    (∃ (s : State) (ch : Fin 48) (m : Fin 8) (line g : Nat) (d : Nat × Nat × Nat × Bytes × Nat), s.running = true ∧ (s.chan
      ch.val).deltaOf m.val line = some d ∧ s.groupOf ch.val = some g ∧ (s.chan ch.val).gone = false) ∧
    (∃ (s : State) (ch : Fin 48) (m : Fin 8) (line g : Nat) (d : Nat × Nat × Nat × Bytes × Nat), s.running = true ∧ (s.chan
      ch.val).deltaOf m.val line = some d ∧ s.groupOf ch.val = some g ∧ s.staleOf g (line / 4) = none ∧ s.cellar.stale.length < 65536) ∧
    (∃ (s : State) (group : Fin 5) (stripe p : Nat) (e : Stale), s.running = true ∧ s.staleOf group.val stripe = some e ∧ s.memberChan
      group.val 8 stripe = some p ∧ (s.chan p).st = 4 ∧ (∀ m, m < 8 → ∃ c, s.memberChan group.val m stripe = some c ∧ (s.chan c).serves =
      true)) ∧
    (∃ (s : State) (ch : Fin 48), s.running = true ∧ (s.memberOf ch.val).isSome = true ∧ s.reg Obj.ueFailRows < ((s.chan
      ch.val).ueRows.filter fun r => decide (s.nowMs < r.2 + 86400000)).length) ∧
    (∃ (s : State) (group : Fin 5) (m sp ptr : Nat), s.running = true ∧ (s.group group.val).rebuild = some (m, sp, ptr) ∧ (s.chan
      sp).serves = true ∧ (∀ c ∈ (s.group group.val).members, c ≠ (s.group group.val).members.getD m 0 → (s.chan c).awayAt (ptr * 4) = false) ∧ ptr +
      1 < s.cellar.cap / 256) ∧
    (∃ (s : State) (group : Fin 5) (m sp ptr : Nat), s.running = true ∧ (s.group group.val).rebuild = some (m, sp, ptr) ∧ (s.chan
      sp).serves = true ∧ (∀ c ∈ (s.group group.val).members, c ≠ (s.group group.val).members.getD m 0 → (s.chan c).awayAt (ptr * 4) = false) ∧
      s.cellar.cap / 256 ≤ ptr + 1) ∧
    (∃ (s : State) (ch : Fin 48) (c : Chan) (key : Nat) (hard left : Bool), s.running = true ∧ c = s.chan ch.val ∧ c.repair = some (key,
      hard)) ∧
    (∃ (s : State) (ch : Fin 48) (c : Chan) (key : Nat) (rest : List Nat), s.running = true ∧ c = s.chan ch.val ∧ c.repair = none ∧
      c.wantRepair = key :: rest ∧ s.repairFree ch.val = true) ∧
    (∃ (s : State) (die : Fin 24), s.running = true ∧ s.hasDie (dieCL die.val) = true) :=
  ⟨⟨((chanWith { st := 4 }).setReg Obj.scrubEnable 1), 0, { st := 4 }, decodeLine (zeroBytes 80) false, by exact ⟨by decide, by decide, by decide, by decide, by decide, by decide, by decide, by decide, by rfl, by decide⟩⟩,
   ⟨(({ chanWith { st := 4 } with cellar := { (chanWith { st := 4 }).cellar with dram := [(0, 1)] } } : State).setReg Obj.scrubEnable 1), 0, { st := 4 }, _, by exact ⟨by decide, by decide, by decide, by decide, by decide, by decide, by decide, by decide, rfl, by (set_option maxRecDepth 20000 in decide)⟩⟩,
   ⟨grouped { members := mem9 } { st := 4, deltas := [(3, 0, 0, zeroBytes 64, 0)] }, 8, 3, 0, 0, (3, 0, 0, zeroBytes 64, 0), by decide⟩,
   ⟨grouped { members := mem9 } { st := 4, deltas := [(3, 0, 0, zeroBytes 64, 0)] }, 8, 3, 0, 0, (3, 0, 0, zeroBytes 64, 0), by decide⟩,
   ⟨grouped { members := mem9 } { st := 4 } [{ stripe := 5 }], 0, 5, 8, { stripe := 5 }, by exact ⟨by decide, by decide, by decide, by decide, fun m hm => ⟨m, (by decide : ∀ m, m < 8 → (grouped { members := mem9 } { st := 4 } [{ stripe := 5 }]).memberChan 0 m 5 = some m ∧ ((grouped { members := mem9 } { st := 4 } [{ stripe := 5 }]).chan m).serves = true) m hm⟩⟩⟩,
   ⟨grouped { members := mem9 } { st := 4, ueRows := List.replicate 100 (0, 0) }, 8, by decide⟩,
   ⟨grouped { members := mem9, failed := [0], rebuild := some (0, 9, 0) } { st := 4 }, 0, 0, 9, 0, by decide⟩,
   ⟨grouped { members := mem9, failed := [0], rebuild := some (0, 9, 2047) } { st := 4 }, 0, 0, 9, 2047, by decide⟩,
   ⟨chanWith { st := 4, repair := some (3, true) }, 0, { st := 4, repair := some (3, true) }, 3, true, false, by decide⟩,
   ⟨chanWith { st := 4, wantRepair := [3] }, 0, { st := 4, wantRepair := [3] }, 3, [], by decide⟩,
   ⟨serving, 23, by decide⟩⟩

theorem witness_EccCommandsComplete :
    (∃ (s : State) (ch co : Nat) (d : Decoded), s.accepts Obj.eccCmdResult ∧ ch = s.reg Obj.eccCmdChannel ∧ co = s.reg Obj.eccCmdCo ∧ ch <
      48 ∧ co % 64 = 0 ∧ co < s.cellar.cap ∧ (s.chan ch).st = 4 ∧ (s.cellar.spares.contains ch = true ∨ s.pool.setState = 0 ∨
      s.pool.setState = 4 ∨ s.pool.setState = 5) ∧ d = decodeLine (s.rawLine ch (co / 64)) (s.strongChan ch)) ∧
    (∃ (s : State) (ch co : Nat), s.accepts Obj.eccCmdResult ∧ ch = s.reg Obj.eccCmdChannel ∧ co = s.reg Obj.eccCmdCo ∧ ch < 48 ∧ co % 64
      = 0 ∧ co < s.cellar.cap ∧ (s.chan ch).st = 4 ∧ (s.chan ch).repair = none) ∧
    (∃ (s : State) (ch co : Nat) (g m : Nat), s.accepts Obj.eccCmdResult ∧ ch = s.reg Obj.eccCmdChannel ∧ co = s.reg Obj.eccCmdCo ∧ ch <
      48 ∧ (s.chan ch).st = 4 ∧ s.memberOf ch = some (g, m) ∧ (s.group g).st = 0 ∧ (s.pickSpare g m).isSome = true) :=
  ⟨⟨((grouped { members := mem9 } { st := 4 }).setReg Obj.eccCmdChannel 9), 9, 0, decodeLine (zeroBytes 80) false, by unfold State.accepts; exact ⟨by decide, by decide, by decide, by decide, by decide, by decide, by decide, by decide, by rfl⟩⟩,
   ⟨(((grouped { members := mem9 } { st := 4 }).setReg Obj.eccCmdChannel 8).setReg Obj.eccCmdCo 524224), 8, 524224, by unfold State.accepts; decide⟩,
   ⟨((grouped { members := mem9 } { st := 4 }).setReg Obj.eccCmdChannel 8), 8, 0, 0, 8, by unfold State.accepts; decide⟩⟩

theorem witness_KeysAndTeardownComplete :
    (∃ (s : State), s.up = true ∧ s.sec.entropyBad = true) ∧
    (∃ (s : State), s.up = true ∧ s.sec.entropyBad = false) ∧
    (∃ (s : State) (die : Fin 24) (gid : Fin 1048576) (f : Nat) (k : Bytes), s.running = true ∧ f = die.val * 2 ^ 20 + gid.val ∧
      s.sec.fetches.contains f = true ∧ unwrapKey s.sec.kwrap gid.val (s.guest gid.val).key = some k) ∧
    (∃ (s : State) (die : Fin 24) (gid : Fin 1048576) (f : Nat), s.running = true ∧ f = die.val * 2 ^ 20 + gid.val ∧
      s.sec.fetches.contains f = true ∧ s.keyUnwraps gid.val = false ∧ s.pool.guests.has gid.val = true ∧ (s.guest gid.val).fatal = 0) ∧
    (∃ (s : State), s.accepts Obj.teardownCmdResult ∧ s.power.roleMgr = true ∧ s.pool.guests.has s.teardownGid = true ∧ (s.guest
      s.teardownGid).tearing = false) ∧
    (∃ (s : State) (gid began : Nat), s.running = true ∧ s.sec.teardown = [(gid, began)] ∧ s.drained gid = true ∧ s.hearthOf gid = [] ∧
      s.wcbOfGuest gid = []) ∧
    (∃ (s : State) (g : Guest), s.accepts Obj.teardownCmdResult ∧ s.pool.guests.find s.teardownGid = some g) :=
  ⟨⟨{ ready with sec := { ready.sec with entropyBad := true } }, by decide⟩,
   ⟨ready, by decide⟩,
   ⟨{ serving with sec := { serving.sec with fetches := [7] } }, 0, 7, 7, gcmXor kw (keyIv 1 7) (gcmXor kw (keyIv 1 7) (List.replicate 64 3)), by exact ⟨by decide, by decide, by decide, serving_key⟩⟩,
   ⟨{ serving with sec := { serving.sec with fetches := [23 * 2 ^ 20 + 7], kwrap := none } }, 23, 7, 23 * 2 ^ 20 + 7, by decide⟩,
   ⟨({ mgr with pool := serving.pool }.setReg Obj.teardownCmdGid 7), by unfold State.accepts; decide⟩,
   ⟨{ serving with sec := { serving.sec with teardown := [(7, 0)] } }, 7, 0, by decide⟩,
   ⟨(serving.setReg Obj.teardownCmdGid 7), guest7, by exact ⟨by unfold State.accepts; decide, rfl⟩⟩⟩

theorem witness_FirmwareAndDebugComplete :
    (∃ (s : State) (n : Nat) (off : Nat) (bs : Bytes), s.accepts Obj.fwCmdResult ∧ n = s.otherSlot ∧ off = s.reg Obj.fwCmdOffset ∧ bs =
      s.blob Obj.fwCmdData ∧ off % 1024 = 0 ∧ off < 2 ^ 25 ∧ bs.length ≤ 1024) ∧
    (∃ (s : State) (n : Nat) (v svn : Nat) (h : Bytes), s.accepts Obj.fwCmdResult ∧ n = s.otherSlot ∧ s.slotImage n = some (v, svn, h) ∧
      s.svnMin ≤ svn) ∧
    (∃ (s : State) (n : Nat), s.accepts Obj.fwCmdResult ∧ n = s.otherSlot ∧ (∀ v svn h, s.slotImage n = some (v, svn, h) → svn <
      s.svnMin)) ∧
    (∃ (s : State) (n : Nat), s.accepts Obj.fwCmdResult ∧ n = s.otherSlot ∧ s.sec.st ≠ 4 ∧ s.sec.verified = some n) ∧
    (∃ (s : State) (n : Nat) (run : Nat), s.accepts Obj.fwCmdResult ∧ n = s.otherSlot ∧ run = (s.sec.slotOf s.sec.slot).svn ∧ s.sec.st ≠ 4
      ∧ (∀ v svn h, s.slotImage n = some (v, svn, h) → run ≤ svn)) ∧
    (∃ (s : State) (old : Nat), s.served = true ∧ s.sec.confirm = some old) ∧
    (∃ (s : State) (nonce : Bytes), s.served = true ∧ nonce.length = 32 ∧ s.sec.noIdentity = false) ∧
    (∃ (s : State), s.accepts Obj.debugCmdResult ∧ s.sec.failedUnlocks < 8 ∧ s.drbgOk = true) ∧
    (∃ (s : State) (n : Bytes) (level : Nat), s.accepts Obj.debugCmdResult ∧ s.sec.nonce = some n ∧ level = s.reg Obj.debugCmdLevel) ∧
    (∃ (s : State) (n : Bytes) (level : Nat), s.accepts Obj.debugCmdResult ∧ s.sec.nonce = some n ∧ level = s.reg Obj.debugCmdLevel ∧ (∀ a
      ∈ s.debugAnchors level, Config.anchorVerify (s.anchor a) (Config.sha384 (n ++ Config.serialNumber ++ leBytes 1 level)) (s.blob Obj.debugCmdSig) =
      false)) ∧
    (∃ (s : State), s.up = true) ∧
    (∃ (s : State), s.power.aon = true ∧ s.halted = false) :=
  ⟨⟨((ready.setReg Obj.fwCmdOffset 33553408).setBlob Obj.fwCmdData (zeroBytes 32)), 1, 33553408, zeroBytes 32, by unfold State.accepts; decide⟩,
   ⟨{ ready with sec := { ready.sec with slotB := { valid := true, svn := Config.svnFused } } }, 1, 0, Config.svnFused, Config.factoryHash 1, by exact ⟨by unfold State.accepts; decide, by decide, rfl, Nat.max_le.mpr ⟨Nat.le_refl _, Nat.zero_le _⟩⟩⟩,
   ⟨ready, 1, by exact ⟨by unfold State.accepts; decide, by decide, fun _ _ _ h => by cases h⟩⟩,
   ⟨{ ready with sec := { ready.sec with verified := some 1 } }, 1, by unfold State.accepts; decide⟩,
   ⟨ready, 1, 0, by exact ⟨by unfold State.accepts; decide, by decide, by decide, by decide, fun _ _ _ h => by cases h⟩⟩,
   ⟨{ ready with sec := { ready.sec with confirm := some 1 } }, 1, by decide⟩,
   ⟨ready, zeroBytes 32, by decide⟩,
   ⟨ready, by unfold State.accepts; decide⟩,
   ⟨({ ready with sec := { ready.sec with nonce := some (zeroBytes 32) } }.setReg Obj.debugCmdLevel 1), zeroBytes 32, 1, by exact ⟨by unfold State.accepts; decide, rfl, by decide⟩⟩,
   ⟨({ ready with sec := { ready.sec with nonce := some (zeroBytes 32) } }.setReg Obj.debugCmdLevel 3), zeroBytes 32, 3, by exact ⟨by unfold State.accepts; decide, rfl, by decide, fun a h => by cases h⟩⟩,
   ⟨ready, by decide⟩,
   ⟨ready, by decide⟩⟩

set_option maxRecDepth 20000 in
theorem witness_DictionaryRequestsComplete :
    (∃ (s m : State) (q : DictReq) (p : Pdu) (a : Asker) (d v : Bytes) (keys : Option Bytes) (row : ObjRow), s.asks 0x01 q p a d keys m ∧
      m.findObj p.idx p.sub = .ok row ∧ readError row.acc a.session = none ∧ v = m.readValue a p row ∧ readSizeOk row p v.length = true) ∧
    (∃ (s m : State) (q : DictReq) (p : Pdu) (a : Asker) (d : Bytes) (keys : Option Bytes) (row : ObjRow) (k : Nat) (lost : Bool) (ans :
      Option Bytes), s.asks 0x02 q p a d keys m ∧ m.findObj p.idx p.sub = .ok row ∧ m.writeError row.acc a.session (p.offset != 0 ||
      !p.last) = none ∧ writeSizeOk row p = true ∧ p.offset = 0 ∧ k = objKey p.idx p.sub ∧ p.last = false) ∧
    (∃ (s m : State) (q : DictReq) (p : Pdu) (a : Asker) (d : Bytes) (keys : Option Bytes) (row : ObjRow) (k : Nat) (lost : Bool) (ans :
      Option Bytes), s.asks 0x02 q p a d keys m ∧ m.findObj p.idx p.sub = .ok row ∧ m.writeError row.acc a.session (p.offset != 0 ||
      !p.last) = none ∧ writeSizeOk row p = true ∧ p.offset = 0 ∧ k = objKey p.idx p.sub ∧ p.last = true ∧ m.valueOk row k d = true ∧
      recordOf lost ans k = none ∧ actOf k d = none ∧ (row.persisted = true → m.dict.flashBad = false ∧ m.dict.compacting = false)) ∧
    (∃ (s m : State) (q : DictReq) (p : Pdu) (a : Asker) (d : Bytes) (keys : Option Bytes) (row : ObjRow) (k : Nat) (lost : Bool) (ans :
      Option Bytes) (op result : Nat) (acts : List Act) (f : Act), s.asks 0x02 q p a d keys m ∧ m.findObj p.idx p.sub = .ok row ∧
      m.writeError row.acc a.session (p.offset != 0 || !p.last) = none ∧ writeSizeOk row p = true ∧ p.offset = 0 ∧ k = objKey p.idx p.sub
      ∧ p.last = true ∧ m.valueOk row k d = true ∧ recordOf lost ans k = some (op, result, acts) ∧ leNat d ≠ 0 ∧ acts[leNat d - 1]? = some
      f ∧ m.busy result = false ∧ m.served = true) ∧
    (∃ (s m : State) (q : DictReq) (p : Pdu) (a : Asker) (d : Bytes) (keys : Option Bytes) (row : ObjRow), s.asks 0x03 q p a d keys m ∧
      m.findObj p.idx p.sub = .ok row) ∧
    (∃ (s m : State) (q : DictReq) (p : Pdu) (a : Asker) (d : Bytes) (keys : Option Bytes), s.asks 0x08 q p a d keys m ∧ a.session ≠ 0 ∧
      m.dict.flashBad = false ∧ m.dict.compacting = false) ∧
    (∃ (s : State) (idx : Fin 65536) (sub : Fin 256) (v : Bytes) (row : ObjRow) (k : Nat), s.served = true ∧ k = objKey idx sub ∧
      s.findObj idx sub = .ok row ∧ row.acc ≠ .ro ∧ row.acc ≠ .con ∧ recordOf false none k = none ∧ actOf k v = none ∧ sizeOk row.ty
      v.length = true ∧ s.valueOk row k v = true ∧ (row.persisted = true → s.dict.flashBad = false)) ∧
    (∃ (s : State) (n : Nat), s.accepts Obj.calCmdResult ∧ n = s.reg Obj.calCmdChannel ∧ n < 48) :=
  ⟨⟨asking (pdu 0x01 0 false false 0 0x4022 0 0 0 []) [], taken (pdu 0x01 0 false false 0 0x4022 0 0 0 []) [], req77 (pdu 0x01 0 false false 0 0x4022 0 0 0 []), pduOf (pdu 0x01 0 false false 0 0x4022 0 0 0 []), { via := .t1s 77 }, (pduOf (pdu 0x01 0 false false 0 0x4022 0 0 0 [])).data, _, none, _, by exact ⟨asks_plain (by decide) (by decide) (by decide), rfl, by decide, rfl, by decide⟩⟩,
   by have h := asks_sealed (b := sealed 0x02 false 0x2104 4 4 16 (zeroBytes 4)) (op := 0x02) (by decide) (by decide) (by decide) (by decide) (by decide) rfl; exact ⟨_, _, _, _, _, _, _, _, _, false, none, h, rfl, rfl, by decide, by decide, rfl, by decide⟩,
   ⟨asking (pdu 0x02 0 false true 0 0x4022 0 1 1 [48]) [], taken (pdu 0x02 0 false true 0 0x4022 0 1 1 [48]) [], req77 (pdu 0x02 0 false true 0 0x4022 0 1 1 [48]), pduOf (pdu 0x02 0 false true 0 0x4022 0 1 1 [48]), { via := .t1s 77 }, (pduOf (pdu 0x02 0 false true 0 0x4022 0 1 1 [48])).data, none, _, _, false, none, by exact ⟨asks_plain (by decide) (by decide) (by decide), rfl, by decide, by decide, by decide, rfl, by decide, by decide, rfl, rfl, by decide⟩⟩,
   by have h := asks_sealed (b := sealed 0x02 true 0x5382 1 1 1 (gcmXor (zeroBytes 32) (pduIv (zeroBytes 4) 1) [3])) (op := 0x02) (by decide) (by decide) (by decide) (by decide) (by decide) rfl; rw [show (pduOf (sealed 0x02 true 0x5382 1 1 1 (gcmXor (zeroBytes 32) (pduIv (zeroBytes 4) 1) [3]))).data = gcmXor (zeroBytes 32) (pduIv (zeroBytes 4) 1) [3] from rfl, xor_twice] at h; exact ⟨_, _, _, _, _, _, _, _, _, false, none, _, _, _, _, h, rfl, rfl, by decide, by decide, rfl, by decide, by decide, rfl, by decide, rfl, by decide, by decide⟩,
   ⟨asking (pdu 0x03 0 false false 0 0x4022 0 0 0 []) [], taken (pdu 0x03 0 false false 0 0x4022 0 0 0 []) [], req77 (pdu 0x03 0 false false 0 0x4022 0 0 0 []), pduOf (pdu 0x03 0 false false 0 0x4022 0 0 0 []), { via := .t1s 77 }, (pduOf (pdu 0x03 0 false false 0 0x4022 0 0 0 [])).data, none, _, by exact ⟨asks_plain (by decide) (by decide) (by decide), rfl⟩⟩,
   by have h := asks_sealed (b := sealed 0x08 false 0 0 0 0 []) (op := 0x08) (by decide) (by decide) (by decide) (by decide) (by decide) rfl; exact ⟨_, _, _, _, _, _, _, h, by decide, by decide, by decide⟩,
   ⟨ready, 0x4022, 0, [48], _, _, by exact ⟨by decide, rfl, rfl, by decide, by decide, rfl, rfl, by decide, by decide, by decide⟩⟩,
   ⟨(ready.setReg Obj.calCmdChannel 47), 47, by unfold State.accepts; decide⟩⟩

set_option maxRecDepth 20000 in
theorem witness_SessionsAndAttachmentsComplete :
    (∃ (s : State) (f : Frame), s.up = true ∧ f.dst = Config.macAddress ∧ frameOk f = true ∧ (pduOf f.payload).rsp = false ∧ s.dictAway =
      false ∧ s.dict.queue.length < 64) ∧
    (∃ (s : State), s.up = true ∧ s.follower = true ∧ s.dict.csma = false) ∧
    (∃ (s m : State) (q : DictReq) (p : Pdu) (a : Asker) (d : Bytes) (keys : Option Bytes) (i : Nat), s.asks 0x10 q p a d keys m ∧
      (m.failsOf a.via).locked = false ∧ m.sec.noIdentity = false ∧ m.drbgOk = true ∧ i < 8 ∧ m.dict.sessions.has (i + 1) = false ∧ (∀ j,
      j < i → m.dict.sessions.has (j + 1) = true)) ∧
    (∃ (s m : State) (q : DictReq) (p : Pdu) (a : Asker) (d : Bytes) (keys : Option Bytes) (x : Session), s.asks 0x11 q p a d keys m ∧
      m.opening a p = some x ∧ p.total ≤ 8192 ∧ p.offset + p.length ≤ p.total ∧ p.offset = 0 ∧ p.last = true) ∧
    (∃ (s m : State) (q : DictReq) (p : Pdu) (a : Asker) (d : Bytes) (keys : Option Bytes) (x : Session), s.asks 0x12 q p a d keys m ∧
      m.opening a p = some x) ∧
    (∃ (s m : State) (q : DictReq) (p : Pdu) (a : Asker) (d : Bytes) (keys : Option Bytes) (x : Session), s.asks 0x12 q p a d keys m ∧
      m.opening a p = some x) ∧
    (∃ (s m : State) (q : DictReq) (p : Pdu) (a : Asker) (d : Bytes) (keys : Option Bytes), s.asks 0x13 q p a d keys m) ∧
    (∃ (s : State) (session : Fin 8) (x : Session), s.up = true ∧ s.dict.sessions.find (session.val + 1) = some x ∧ s.sessionAsks
      (session.val + 1) = false) ∧
    (∃ (s : State) (session : Fin 8) (x : Session), s.up = true ∧ s.dict.sessions.find (session.val + 1) = some x ∧ x.st = 1) ∧
    (∃ (s : State) (session : Fin 8) (x : Session), s.up = true ∧ s.dict.sessions.find (session.val + 1) = some x ∧ x.st = 2 ∧
      s.sessionAsks (session.val + 1) = false) ∧
    (∃ (s : State) (inband : Bool) (addr : Nat) (via : Via), s.up = true ∧ via = (if inband then .inband addr 0 else .t1s addr)) ∧
    (∃ (s : State), s.up = true ∧ s.dict.compacting = true ∧ s.dict.flashBad = false ∧ s.dict.copy < 2 ∧ s.dict.waiting = []) :=
  ⟨⟨serving, { dst := Config.macAddress, src := 77, ethertype := 0x88B5, vlan := false, fcsOk := true, payload := zeroBytes 46 }, by exact ⟨by decide, rfl, by decide, by decide, by decide, by decide⟩⟩,
   ⟨{ serving with power := { serving.power with nodeId := 1 }, forced := { rows := [(Obj.plcaEn, 1)] } }, by decide⟩,
   ⟨asking (pdu 0x10 0 false false 0 0 0 129 0 (zeroBytes 129)) [], taken (pdu 0x10 0 false false 0 0 0 129 0 (zeroBytes 129)) [], req77 (pdu 0x10 0 false false 0 0 0 129 0 (zeroBytes 129)), pduOf (pdu 0x10 0 false false 0 0 0 129 0 (zeroBytes 129)), { via := .t1s 77 }, (pduOf (pdu 0x10 0 false false 0 0 0 129 0 (zeroBytes 129))).data, none, 0, by exact ⟨asks_plain (by decide) (by decide) (by decide), by decide, by decide, by decide, by decide, by decide, fun j h => absurd h (Nat.not_lt_zero j)⟩⟩,
   ⟨asking (pdu 0x11 1 false true 0 0 0 0 0 []) [(1, { via := .t1s 77 })], taken (pdu 0x11 1 false true 0 0 0 0 0 []) [(1, { via := .t1s 77 })], req77 (pdu 0x11 1 false true 0 0 0 0 0 []), pduOf (pdu 0x11 1 false true 0 0 0 0 0 []), { via := .t1s 77 }, (pduOf (pdu 0x11 1 false true 0 0 0 0 0 [])).data, none, { via := .t1s 77 }, by exact ⟨asks_plain (by decide) (by decide) (by decide), rfl, by decide, by decide, by decide, by decide⟩⟩,
   ⟨asking (pdu 0x12 1 false false 0 0 0 96 0 (zeroBytes 96)) [(1, { via := .t1s 77 })], taken (pdu 0x12 1 false false 0 0 0 96 0 (zeroBytes 96)) [(1, { via := .t1s 77 })], req77 (pdu 0x12 1 false false 0 0 0 96 0 (zeroBytes 96)), pduOf (pdu 0x12 1 false false 0 0 0 96 0 (zeroBytes 96)), { via := .t1s 77 }, (pduOf (pdu 0x12 1 false false 0 0 0 96 0 (zeroBytes 96))).data, none, { via := .t1s 77 }, by exact ⟨asks_plain (by decide) (by decide) (by decide), rfl⟩⟩,
   ⟨asking (pdu 0x12 1 false false 0 0 0 96 0 (zeroBytes 96)) [(1, { via := .t1s 77 })], taken (pdu 0x12 1 false false 0 0 0 96 0 (zeroBytes 96)) [(1, { via := .t1s 77 })], req77 (pdu 0x12 1 false false 0 0 0 96 0 (zeroBytes 96)), pduOf (pdu 0x12 1 false false 0 0 0 96 0 (zeroBytes 96)), { via := .t1s 77 }, (pduOf (pdu 0x12 1 false false 0 0 0 96 0 (zeroBytes 96))).data, none, { via := .t1s 77 }, by exact ⟨asks_plain (by decide) (by decide) (by decide), rfl⟩⟩,
   by have h := asks_sealed (b := sealed 0x13 false 0 0 0 0 []) (op := 0x13) (by decide) (by decide) (by decide) (by decide) (by decide) rfl; exact ⟨_, _, _, _, _, _, _, h⟩,
   ⟨{ serving with dict := { serving.dict with sessions := { rows := [(8, {})] } } }, 7, {}, by decide⟩,
   ⟨{ serving with dict := { serving.dict with sessions := { rows := [(8, {})] } } }, 7, {}, by decide⟩,
   ⟨{ serving with dict := { serving.dict with sessions := { rows := [(1, open1)] } } }, 0, open1, by decide⟩,
   ⟨serving, true, 9, .inband 9 0, by decide⟩,
   ⟨{ serving with dict := { serving.dict with compacting := true } }, by decide⟩⟩

theorem witness_NightCompletes :
    (∃ (s : State), s.accepts Obj.powerCmdResult ∧ s.nightBlockers = 0 ∧ bitsOf (s.reg Obj.wakeEn) 3 0 ≠ 0 ∧ s.levelWake = none) ∧
    (∃ (s : State), s.accepts Obj.powerCmdResult ∧ s.nightBlockers ≠ 0) ∧
    (∃ (s : State) (n : Nat), s.running = true ∧ s.power.st = 1 ∧ n = s.power.nightStep ∧ n = 2) ∧
    (∃ (s : State) (n : Nat), s.running = true ∧ s.power.st = 1 ∧ n = s.power.nightStep ∧ n = 3) ∧
    (∃ (s : State) (n : Nat), s.running = true ∧ s.power.st = 1 ∧ n = s.power.nightStep ∧ n = 4) ∧
    (∃ (s : State) (n : Nat), s.running = true ∧ s.power.st = 1 ∧ n = s.power.nightStep ∧ n = 5) ∧
    (∃ (s : State) (n : Nat), s.running = true ∧ s.power.st = 1 ∧ n = s.power.nightStep ∧ n = 6) ∧
    (∃ (s : State) (n : Nat), s.running = true ∧ s.power.st = 1 ∧ n = s.power.nightStep ∧ n = 7) ∧
    (∃ (s : State) (source : Fin 5) (link : Fin 32), s.up = true ∧ s.power.st = 2 ∧ source.val = 0 ∧ (s.reg Obj.wakeEn).testBit 0 = true ∧
      (s.reg Obj.wakeLinkMask).testBit link = true ∧ s.power.deafLinks.testBit link = false) ∧
    (∃ (s : State) (source : Fin 5) (link : Fin 32), s.up = true ∧ s.power.st = 2 ∧ 1 ≤ source.val ∧ source.val ≤ 3 ∧ (s.reg
      Obj.wakeEn).testBit source = true) ∧
    (∃ (s : State) (source : Fin 5) (link : Fin 32), s.up = true ∧ s.power.st = 1 ∧ source.val = 4) ∧
    (∃ (s : State), s.up = true ∧ s.power.st = 2 ∧ (s.reg Obj.wakeEn).testBit 2 = true) ∧
    (∃ (s : State), s.up = true ∧ s.power.st = 2 ∧ (s.reg Obj.wakeEn).testBit 3 = true ∧ s.reg Obj.wakeTimer ≠ 0 ∧ s.reg Obj.wakeTimer ≤
      s.now) ∧
    (∃ (s : State) (bad : Nat), s.running = true ∧ s.power.st = 3) :=
  ⟨⟨(ready.setReg Obj.wakeEn 1), by unfold State.accepts; decide⟩,
   ⟨holding {}, by unfold State.accepts; decide⟩,
   ⟨{ serving with power := { serving.power with st := 1, nightStep := 2 } }, 2, by decide⟩,
   ⟨{ serving with power := { serving.power with st := 1, nightStep := 3 } }, 3, by decide⟩,
   ⟨{ serving with power := { serving.power with st := 1, nightStep := 4 } }, 4, by decide⟩,
   ⟨{ serving with power := { serving.power with st := 1, nightStep := 5 } }, 5, by decide⟩,
   ⟨{ serving with power := { serving.power with st := 1, nightStep := 6 } }, 6, by decide⟩,
   ⟨{ serving with power := { serving.power with st := 1, nightStep := 7 } }, 7, by decide⟩,
   ⟨(({ serving with power := { serving.power with st := 2 } }.setReg Obj.wakeEn 1).setReg Obj.wakeLinkMask (2 ^ 31)), 0, 31, by decide⟩,
   ⟨({ serving with power := { serving.power with st := 2 } }.setReg Obj.wakeEn 8), 3, 0, by decide⟩,
   ⟨{ serving with power := { serving.power with st := 1 } }, 4, 0, by decide⟩,
   ⟨({ serving with power := { serving.power with st := 2 } }.setReg Obj.wakeEn 4), by decide⟩,
   ⟨(({ serving with power := { serving.power with st := 2, timebase := 5 } }.setReg Obj.wakeEn 8).setReg Obj.wakeTimer 5), by decide⟩,
   ⟨{ serving with power := { serving.power with st := 3 } }, 0, by decide⟩⟩

theorem witness_ClocksAndTemperatureComplete :
    (∃ (s : State) (which : Fin 2), s.power.aon = true ∧ (s.power.inReset = true ∨ s.power.refSel ≠ which.val)) ∧
    (∃ (s : State) (which : Fin 2), s.power.aon = true ∧ s.power.inReset = false ∧ s.power.refSel = which.val ∧ clearBit s.power.refGood
      which.val ≠ 0) ∧
    (∃ (s : State) (which : Fin 2), s.power.aon = true ∧ s.power.inReset = false ∧ s.power.refSel = which.val ∧ clearBit s.power.refGood
      which.val = 0) ∧
    (∃ (s : State), s.up = true ∧ s.inForce Obj.refclkRevert ≠ 0 ∧ s.power.refSel = 1 ∧ s.power.refGood.testBit 0 = true) ∧
    (∃ (s : State) (which : Fin 2) (bad : Nat), s.up = true ∧ s.power.clocksLost = true) ∧
    (∃ (s : State) (die : Fin 64) (q : Int), s.up = true ∧ s.halted = false ∧ s.hasDie die = true) ∧
    (∃ (s : State) (v : Nat), s.served = true) ∧
    (∃ (s : State), s.ikRuns = true ∧ s.ikServes = true) :=
  ⟨⟨{ serving with power := { serving.power with refSel := 0 } }, 1, by decide⟩,
   ⟨serving, 0, by decide⟩,
   ⟨{ serving with power := { serving.power with refGood := 1 } }, 0, by decide⟩,
   ⟨{ serving with power := { serving.power with refSel := 1 }, forced := { rows := [(Obj.refclkRevert, 1)] } }, by decide⟩,
   ⟨{ serving with power := { serving.power with clocksLost := true } }, 1, 0, by decide⟩,
   ⟨serving, 63, 460, by decide⟩,
   ⟨serving, 0, by decide⟩,
   ⟨serving, by decide⟩⟩

theorem witness_ObservationComplete :
    (∃ (s : State) (d c : Nat), s.accepts Obj.ctrCmdResult ∧ d = s.reg Obj.ctrCmdDie ∧ c = s.reg Obj.ctrCmdCounter ∧ d < 64 ∧ s.hasDie d =
      true ∧ c < allCounters d ∧ c < progCounters d ∧ cfgOk d (s.reg Obj.ctrCmdConfig) = true) ∧
    (∃ (s : State), s.accepts Obj.ctrCmdResult) ∧
    (∃ (s : State) (die : Fin 64) (at_ m : Nat), s.running = true ∧ s.obs.snapDue = some (at_, m) ∧ m &&& s.power.present = 0) ∧
    (∃ (s : State) (die : Fin 64) (at_ m : Nat), s.running = true ∧ s.obs.snapDue = some (at_, m) ∧ m.testBit die = true ∧ s.hasDie die = true) ∧
    (∃ (s : State) (v : Bool), s.served = true) ∧
    (∃ (s : State), s.running = true ∧ s.phase = 0) ∧
    (∃ (s : State) (k : Fin 64) (v : Nat), s.served = true ∧ s.qidOk v = true) ∧
    (∃ (s : State) (v : Nat), s.served = true ∧ 1 ≤ v ∧ v ≤ 1000000) ∧
    (∃ (s : State), s.up = true ∧ s.recovering = false) ∧
    (∃ (s : State) (r n : Nat) (x : LogRec), s.accepts Obj.logCmdResult ∧ r = s.reg Obj.logCmdRecno ∧ n = s.reg Obj.logCmdCount ∧ 1 ≤ n ∧
      n ≤ 15 ∧ 1 ≤ wrapSub 32 s.obs.logTail r ∧ wrapSub 32 s.obs.logTail r < 2 ^ 31 ∧ r < 2 ^ 32 ∧ s.obs.log.find? (fun y => y.recno == r)
      = some x) :=
  ⟨⟨((((serving.setReg Obj.ctrCmdDie 63).setReg Obj.ctrCmdCounter 15).setReg Obj.ctrCmdConfig 0)), 63, 15, by unfold State.accepts; decide⟩,
   ⟨serving, by unfold State.accepts; decide⟩,
   ⟨{ serving with obs := { serving.obs with snapDue := some (0, 0) } }, 0, 0, 0, by decide⟩,
   ⟨{ serving with obs := { serving.obs with snapDue := some (0, 2 ^ 63) } }, 63, 0, 2 ^ 63, by decide⟩,
   ⟨serving, true, by decide⟩,
   ⟨{ serving with obs := { serving.obs with startOver := true } }, by decide⟩,
   ⟨serving, 63, 0, by decide⟩,
   ⟨serving, 1000000, by decide⟩,
   ⟨serving, by decide⟩,
   ⟨((({ serving with obs := { serving.obs with logTail := 2, log := [{ recno := 1 }] } } : State).setReg Obj.logCmdRecno 1).setReg Obj.logCmdCount 15), 1, 15, { recno := 1 }, by unfold State.accepts; decide⟩⟩

theorem witness_IdleStepIsATick : ∃ (s : State), s.pending = [] :=
  ⟨serving, by decide⟩

theorem witness_CommandsTouchOnlyTheirParts : ∃ (c : Instr) (s t : State), exec c s = .next t :=
  ⟨.heartbeat, serving, _, by exact rfl⟩

theorem witness_EveryStepKeepsSound : ∃ (s t : State), s.Sound ∧ step s = .next t :=
  ⟨{ serving with pending := [.heartbeat] }, _, by exact ⟨⟨rfl, by decide, by decide, by decide, fun r h => by cases h⟩, rfl⟩⟩

theorem witness_PlacementFollowsItsRule :
    (∃ (pa base n : Nat), base ≤ pa ∧ 0 < n) ∧
    (∃ (s : State) (pa : Nat), pa < s.cellar.bytes ∧ s.cellar.layout = 0) ∧
    (∃ (s : State) (pa : Nat), pa < s.cellar.bytes ∧ s.cellar.layout ≠ 0 ∧ 8 * groupCount s.cellar.layout * s.cellar.cap ≤ pa) ∧
    (∃ (s : State) (k : Nat) (m b : Nat), s.cellar.layout ≠ 0 ∧ 2048 * (k + 1) ≤ s.cellar.bytes ∧ 2048 * (k + 1) ≤ 8 * groupCount
      s.cellar.layout * s.cellar.cap ∧ m < 8 ∧ b < 256) ∧
    (∃ (s : State) (pa pb : Nat), s.cellar.layout = 0 ∧ s.cellar.plain.Nodup ∧ s.cellar.plain ≠ [] ∧ pa < s.cellar.bytes ∧ pb <
      s.cellar.bytes ∧ s.place pa = s.place pb) ∧
    (∃ (s : State) (pa pb : Nat), s.cellar.layout ≠ 0 ∧ pa < s.cellar.bytes ∧ pb < s.cellar.bytes ∧ s.place pa = s.place pb) :=
  ⟨⟨0, 0, 1, by decide⟩,
   ⟨serving, 1048575, by decide⟩,
   ⟨{ grouped { members := mem9 } { st := 4 } with cellar := { (grouped { members := mem9 } { st := 4 }).cellar with cap := 262144 } }, 20971519, by decide⟩,
   ⟨grouped { members := mem9 } { st := 4 }, 4, 7, 255, by decide⟩,
   ⟨serving, 1048575, 1048575, by decide⟩,
   ⟨grouped { members := mem9 } { st := 4 }, 20971519, 20971519, by decide⟩⟩

theorem witness_HeartbeatWinsItsCycle : ∃ (s : State), s.ikServes = true :=
  ⟨{ ready with power := { ready.power with timebase := 3000000 } }, by decide⟩

theorem witness_SoftwareSetIsNotCounted : ∃ (s : State) (src : Fin 512), s.accepts Obj.irqCmdResult ∧ s.reg Obj.irqCmdSource < 1024 ∧
  s.irq.stopped = false ∧ s.ik.gap = none ∧ s.ik.bothLost = false ∧ s.reg Obj.irqCmdSource = src.val :=
  ⟨(ready.setReg Obj.irqCmdSource 511), 511, by unfold State.accepts; decide⟩

theorem witness_OwnerWriteEmptiesItsHole :
    (∃ (s : State) (hole : Fin 64) (v : Nat), s.served = true ∧ bitsOf v 30 20 = 0 ∧ v < 2 ^ 32) ∧
    (∃ (s : State) (l : Nat) (p : Packet) (m : Option SetMsg) (g : Fin 1048576), p.opc = 0x32) :=
  ⟨⟨ready, 63, 2 ^ 31 + 2 ^ 20 - 1, by decide⟩,
   ⟨ready, 3, { opc := 0x32 }, none, 0, by decide⟩⟩

theorem witness_PortChecksManagementKey :
    (∃ (s : State) (l : Nat) (p : Packet) (m : Option SetMsg), s.formOk p = true ∧ (p.pkey = 0 ∨ (p.tc = 3 ∧ p.pkey ≠ 0xFFFF) ∨ (p.tc ≠ 3
      ∧ p.pkey = 0xFFFF))) ∧
    (∃ (s : State) (l : Nat) (p : Packet) (m : Option SetMsg), s.formOk p = true ∧ p.tc = 3 ∧ p.pkey = 0xFFFF) :=
  ⟨⟨ready, 3, { setp with opc := 0x31, pkey := 0 }, none, by decide⟩,
   ⟨ready, 3, { setp with opc := 0x31 }, none, by decide⟩⟩

theorem witness_OnlyPowerUndoesThem :
    (∃ (c : Instr) (s t : State), exec c s = .next t ∧ c ≠ .powerOn ∧ c ≠ .powerOff ∧ s.sec.st = 2) ∧
    (∃ (c : Instr) (s t : State), exec c s = .next t ∧ c ≠ .powerOn ∧ c ≠ .powerOff ∧ s.sec.st = 3) ∧
    (∃ (c : Instr) (s t : State), exec c s = .next t ∧ c ≠ .powerOn ∧ c ≠ .powerOff ∧ s.power.thermtrip = true) :=
  ⟨⟨.heartbeat, { ready with sec := { ready.sec with st := 2 } }, _, by exact ⟨rfl, Instr.noConfusion, Instr.noConfusion, rfl⟩⟩,
   ⟨.heartbeat, { ready with sec := { ready.sec with st := 3 } }, _, by exact ⟨rfl, Instr.noConfusion, Instr.noConfusion, rfl⟩⟩,
   ⟨.heartbeat, { ready with power := { ready.power with thermtrip := true } }, _, by exact ⟨rfl, Instr.noConfusion, Instr.noConfusion, rfl⟩⟩⟩

theorem witness_StoresReachOnlyTheirBytes :
    (∃ (s : State) (pa gid ch line : Nat) (bs : Bytes) (poison : Bool) (old : WLine) (c l : Nat), pa % 64 + bs.length ≤ 64 ∧ s.wcbOf
      (s.place (pa / 64 * 64)) = (ch, line) ∧ s.ownLine pa gid ∧ old = ((s.chan ch).wcb.find line).getD { data := zeroBytes 64 } ∧ (c, l) ≠ (ch, line)) ∧
    (∃ (s : State) (pa gid ch line : Nat) (bs : Bytes) (poison : Bool), s.wcbOf (s.place (pa / 64 * 64)) = (ch, line) ∧ ¬ s.ownLine pa gid) ∧
    (∃ (s : State) (ch line m : Nat) (bs : Bytes) (c l : Nat), s.Sound ∧ line < 2 ^ 33 ∧ l < 2 ^ 33 ∧ (c, l) ≠ (ch, line)) ∧
    (∃ (s : State) (k : Nat) (r : Req) (c l : Nat), r.hearth = false ∧ (r.p.opc = 0x02 ∨ r.p.opc = 0x03) ∧
      s.hearth.dir.rows.any (fun x => x.2.open_ && Grant.ofReq k x.2.grant) = false ∧
      (∀ x ∈ storeLines r.pas r.p.payload, s.ownLine x.1 r.gid) ∧
      ∀ x ∈ storeLines r.pas r.p.payload, s.wcbOf (s.place (x.1 / 64 * 64)) ≠ (c, l)) :=
  ⟨⟨serving, 60, 7, 0, 0, [1, 2, 3, 4], false, { data := zeroBytes 64 }, 1, 0, by exact ⟨by decide, by decide, (by unfold State.ownLine; exact fun w h => (by cases h)), by decide, by decide⟩⟩,
   ⟨chanWith { st := 4, wcb := { rows := [(0, { data := zeroBytes 64, gid := 8 })] } }, 60, 7, 0, 0, [1], false,
    by exact ⟨by decide, by unfold State.ownLine; exact fun h => (h { data := zeroBytes 64, gid := 8 } rfl).elim (by decide) (by decide)⟩⟩,
   ⟨serving, 0, 0, 0, [1], 0, 1, by exact ⟨⟨rfl, by decide, by decide, by decide, fun r h => by cases h⟩, by decide, by decide, by decide⟩⟩,
   ⟨serving, 5, { p := { opc := 2, payload := zeroBytes 64 }, pas := [(0, 64)] }, 0, 1, by exact ⟨by decide, by decide, by decide, (by
     unfold State.ownLine; intro x h w hw
     have := (by decide : ∀ x ∈ storeLines [(0, 64)] (zeroBytes 64), x.1 = 0) x h
     rw [this] at hw; cases hw), by decide⟩⟩⟩

end Sys2Proof.Tests
end

section
/-! Proofs for the pool model (chapter 01): what shared operations leave, beside the laws of `Laws/State` and `Laws/Moves`. -/

namespace Sys2Proof.Machine

open Sys2Proof

/-- A part that an operation does not move is the same after it. -/
theorem Moves.same {ps : List Part} {s t : State} (h : Moves ps s t) {p : Part} (hp : p ∉ ps) : Part.same s t p := h.frame.2 p hp

@[simp] theorem State.chan_onChan (s : State) (ch c : Nat) (f : Chan → Chan) :
    (s.onChan ch f).chan c = if c = ch then f (s.chan ch) else s.chan c := by
  simp [State.chan, State.onChan]

@[simp] theorem State.onChan_dram (s : State) (ch : Nat) (f : Chan → Chan) : (s.onChan ch f).cellar.dram = s.cellar.dram := rfl

@[simp] theorem State.enterQ_cellar (s : State) (q i : Nat) : (s.enterQ q i).cellar = s.cellar := rfl

@[simp] theorem State.discardQ_cellar (s : State) (q i : Nat) : (s.discardQ q i).cellar = s.cellar := rfl

theorem State.chan_congr {s t : State} (h : t.cellar.chans = s.cellar.chans) (c : Nat) : t.chan c = s.chan c := by
  simp [State.chan, h]

theorem State.guest_of_find {s : State} {gid : Nat} {g : Guest} (h : s.pool.guests.find gid = some g) : s.guest gid = g := by
  simp [State.guest, Tab.getD, h]

theorem State.find_guest {s : State} {gid : Nat} (h : s.pool.guests.has gid = true) : s.pool.guests.find gid = some (s.guest gid) :=
  Tab.find_of_has _ h

/-! ## Commands that are accepted -/

/-- A command of the datapath completes with its effect on a device that runs. -/
theorem completes_live {c : Instr} {s : State} {f : State → State} {post : State → Prop} (hs : s.running = true)
    (hc : exec c s = live s f) (h : post (f s)) : Completes c s post :=
  ⟨f s, by simp [hc, live, hs], h⟩

/-- A management command completes with its effect where firmware serves. -/
theorem completes_managed {c : Instr} {s : State} {f : State → State} {post : State → Prop} (hs : s.served = true)
    (hc : exec c s = managed s f) (h : post (f s)) : Completes c s post :=
  ⟨f s, by simp [hc, managed, hs], h⟩

/-- The command of a record completes with its effect where the record accepts it (R47). -/
theorem completes_record {c : Instr} {s : State} {op result code : Nat} {f : State → State} {post : State → Prop}
    (hs : s.accepts result) (hc : exec c s = record s op result code f) (h : post (f (s.setReg op code))) : Completes c s post :=
  ⟨f (s.setReg op code), by simp [hc, record, hs.1, hs.2], h⟩

/-! ## Events of the Ledger -/

theorem State.countLedger_form (s : State) (ev sel : Nat) : ∃ o q, s.countLedger ev sel = { s with obs := o, irq := q } := by
  unfold State.countLedger
  split
  · exact State.countN_form _ _ _ _ _ _
  · exact ⟨s.obs, s.irq, rfl⟩

@[simp] theorem State.countLedger_pool (s : State) (ev sel : Nat) : (s.countLedger ev sel).pool = s.pool := by
  obtain ⟨o, q, h⟩ := s.countLedger_form ev sel; rw [h]

@[simp] theorem State.countLedger_trans (s : State) (ev sel : Nat) : (s.countLedger ev sel).trans = s.trans := by
  obtain ⟨o, q, h⟩ := s.countLedger_form ev sel; rw [h]

@[simp] theorem State.countLedger_work (s : State) (ev sel : Nat) : (s.countLedger ev sel).work = s.work := by
  obtain ⟨o, q, h⟩ := s.countLedger_form ev sel; rw [h]

@[simp] theorem State.countLedger_cellar (s : State) (ev sel : Nat) : (s.countLedger ev sel).cellar = s.cellar := by
  obtain ⟨o, q, h⟩ := s.countLedger_form ev sel; rw [h]

end Sys2Proof.Machine
end

section
namespace Sys2Proof.Machine

open Sys2Proof

/-! ## Accesses outside the hearth -/

theorem Req.hearth_stop_none (s : State) (k : Nat) {r : Req} (write : Bool) (h : r.hearth = false) : s.hearthStop k r write = none := by
  simp [State.hearthStop, h]

theorem State.needLine_of_got (s : State) (k : Nat) {r : Req} {a : Nat} (lrc : Bool) (h : r.got.has (a / 64) = true) :
    s.needLine k r a lrc = s := by
  simp [State.needLine, h]

/-- A request that has every line it needs asks for none. -/
theorem State.needLines_of_ready (s : State) (k : Nat) {r : Req} (lrc : Bool) (h : r.ready = true) :
    r.lines.foldl (fun s a => s.needLine k r a lrc) s = s := by
  have got : ∀ l : List Nat, (∀ a ∈ l, r.got.has (a / 64) = true) → l.foldl (fun s a => s.needLine k r a lrc) s = s := by
    intro l
    induction l with
    | nil => intro _; rfl
    | cons a l ih =>
      intro hl
      rw [List.foldl_cons, State.needLine_of_got s k lrc (hl a (by simp))]
      exact ih fun b hb => hl b (by simp [hb])
  exact got _ (by simpa [Req.ready] using h)

theorem State.load_of_ready {s : State} {k : Nat} {r : Req} (hr : s.pool.reqs.find k = some r) (hh : r.hearth = false)
    (h : r.ready = true) :
    s.load k r = s.endReq k (if r.poisoned then 0x02 else 0) (r.pas.map r.rangeBytes).flatten r.poisoned := by
  simp [State.load, Req.hearth_stop_none s k false hh, State.needLines_of_ready s k r.lrc h, hr, h]

theorem State.store_of_lost {s : State} {k : Nat} {r : Req} (hh : r.hearth = false)
    (h : ∃ x ∈ storeLines r.pas r.p.payload, s.lineLost x.1 = true) : s.store k r = s.ackReq k 0x02 [] false := by
  simp only [State.store, Req.hearth_stop_none s k true hh, List.any_eq_true.mpr h, if_true]

theorem State.store_of_room {s : State} {k : Nat} {r : Req} (hh : r.hearth = false)
    (h : ∀ x ∈ storeLines r.pas r.p.payload, s.lineLost x.1 = false ∧ s.wcbRoom x.1 = true) :
    s.store k r = ((storeLines r.pas r.p.payload).foldl (fun u x => u.wcbWrite x.1 r.gid x.2 r.p.poi) s).ackReq k 0 [] false := by
  have lost : (storeLines r.pas r.p.payload).any (fun x => s.lineLost x.1) = false := by
    rw [List.any_eq_false]; exact fun x hx => by simp [(h x hx).1]
  have room : (storeLines r.pas r.p.payload).all (fun x => s.wcbRoom x.1) = true := List.all_eq_true.mpr fun x hx => (h x hx).2
  simp only [State.store, Req.hearth_stop_none s k true hh, lost, room, if_true, Bool.false_eq_true, if_false]

/-- The new value of an ATOMIC's element: of a compare-and-swap where bit 16 of XW is set, else of its operation (R137, R278). -/
def Req.atomicNew (r : Req) (old : Bytes) : Bytes :=
  let n := atomicSize r.p
  let b := sliceBytes r.p.payload 0 n
  if bitOf r.p.xw 16 then (if old == b then sliceBytes r.p.payload 8 n else old)
  else match fmtOf (bitsOf r.p.xw 7 0) with
    | some f => leBytes n (elemOp (bitsOf r.p.xw 15 8) f {} 0 (leNat old) (leNat b)).1
    | none => old

theorem State.atomic_of_poison {s : State} {k : Nat} {r : Req} {x : Nat × Nat} {xs : List (Nat × Nat)}
    (hr : s.pool.reqs.find k = some r) (hh : r.hearth = false) (h : r.ready = true) (hx : r.pas = x :: xs)
    (hp : r.poisoned = true ∨ r.p.poi = true) :
    s.atomic k r = s.ackReq k 0x02 (padBytes 8 (poisonBytes (x.1 % 64) (atomicSize r.p))) true := by
  simp [State.atomic, Req.hearth_stop_none s k true hh, State.needLines_of_ready s k false h, hr, hx, h, hp]

theorem State.atomic_of_room {s : State} {k : Nat} {r : Req} {x : Nat × Nat} {xs : List (Nat × Nat)}
    (hr : s.pool.reqs.find k = some r) (hh : r.hearth = false) (h : r.ready = true) (hx : r.pas = x :: xs)
    (hp : r.poisoned = false) (hpoi : r.p.poi = false) (room : s.wcbRoom x.1 = true) :
    s.atomic k r = ((s.wcbWrite x.1 r.gid (r.atomicNew (r.rangeBytes x)) false).countChan (s.wcbOf (s.place x.1)).1 0x301B 0).ackReq k 0
      (padBytes 8 (r.rangeBytes x)) false := by
  simp [State.atomic, Req.hearth_stop_none s k true hh, State.needLines_of_ready s k false h, hr, hx, h, hp, hpoi, room, Req.atomicNew]
  <;> rfl

/-- Settles O6: a request outside the hearth stops for no line of it, and one that is ready asks for no line. -/
theorem accessesAnswer : Obligations.AccessesAnswer := by
  unfold Obligations.AccessesAnswer
  intro s k r hr hh
  refine ⟨fun hop hready => ?_, fun hop => ?_, fun hop hready x xs hx => ?_⟩
  · simp only [State.perform, hop, beq_self_eq_true, if_true]
    exact State.load_of_ready hr hh hready
  · have hs : s.perform k r = s.store k r := by
      rcases hop with hop | hop <;> simp [State.perform, hop]
    rw [hs]
    exact ⟨State.store_of_lost hh, State.store_of_room hh⟩
  · have ha : s.perform k r = s.atomic k r := by simp [State.perform, hop]
    rw [ha]
    refine ⟨State.atomic_of_poison hr hh hready hx, fun hp hpoi room =>
      ⟨_, State.atomic_of_room hr hh hready hx hp hpoi room, fun hcas => ?_⟩⟩
    simp [Req.atomicNew, hcas]

end Sys2Proof.Machine
end

section
namespace Sys2Proof.Machine

open Sys2Proof

/-! ## Bytes -/

theorem length_upto_map {α : Type} (n : Nat) (f : Nat → α) : ((upto n).map f).length = n := by simp [upto]

theorem getD_upto_map {α : Type} (n b : Nat) (f : Nat → α) (d : α) (h : b < n) : ((upto n).map f).getD b d = f b := by
  simp [upto, List.getD, h]

theorem length_leBytes (w n : Nat) : (leBytes w n).length = w := by
  induction w generalizing n with
  | zero => rfl
  | succ w ih => simp [leBytes, ih]

theorem length_padBytes (w : Nat) (bs : Bytes) : (padBytes w bs).length = w := by
  simp only [padBytes, List.length_append, List.length_take, List.length_replicate]; omega

theorem padBytes_of_length {w : Nat} {bs : Bytes} (h : bs.length = w) : padBytes w bs = bs := by
  subst h
  simp [padBytes]

theorem getD_padBytes {w b : Nat} (bs : Bytes) (h : b < w) : (padBytes w bs).getD b 0 = bs.getD b 0 := by
  simp only [padBytes, List.getD_eq_getElem?_getD]
  by_cases hb : b < bs.length
  · rw [List.getElem?_append_left (by simp; omega), List.getElem?_take_of_lt h]
  · rw [List.getElem?_append_right (by simp; omega), List.getElem?_replicate, List.getElem?_eq_none (by omega : bs.length ≤ b)]
    split <;> rfl

theorem getD_zeros_append {n b : Nat} (bs : Bytes) (h : n ≤ b) : (zeroBytes n ++ bs).getD b 0 = bs.getD (b - n) 0 := by
  simp only [zeroBytes, List.getD_eq_getElem?_getD]
  rw [List.getElem?_append_right (by simpa using h), List.length_replicate]

theorem testBit_byteMask (b n i : Nat) : (byteMask b n).testBit i = (decide (b ≤ i) && decide (i < b + n)) := by
  simp only [byteMask, Nat.testBit_shiftLeft, Nat.testBit_two_pow_sub_one]
  by_cases h : b ≤ i
  · simp only [h, decide_true, Bool.true_and]
    exact decide_eq_decide.mpr (by omega)
  · simp [h]

theorem getD_mergeBytes (mask b : Nat) (new old : Bytes) (h : b < 64) :
    (mergeBytes mask new old).getD b 0 = if mask.testBit b then new.getD b 0 else old.getD b 0 := getD_upto_map 64 b _ 0 h

/-! ## A write of some bytes of a line (R331) -/

/-- A line without another guest's entry is not drained first. -/
theorem State.clearForeign_of_own {s : State} {pa gid : Nat} (h : s.ownLine pa gid) : s.clearForeign pa gid = s := by
  unfold State.clearForeign
  dsimp only
  split
  · rfl
  · rename_i w hw
    have : (w.gid == gid || s.inTables (pa / 64 * 64)) = true := by simpa using h w hw
    rw [if_pos this]

/-- The WCB entry of an address's line after a write of some of its bytes. -/
def State.mergedLine (s : State) (pa gid : Nat) (bs : Bytes) (poison : Bool) : WLine :=
  let x := s.wcbOf (s.place (pa / 64 * 64))
  let m := byteMask (pa % 64) bs.length
  let w := ((s.chan x.1).wcb.find x.2).getD { data := zeroBytes 64, entered := s.now }
  { w with data := mergeBytes m (padBytes 64 (zeroBytes (pa % 64) ++ bs)) w.data, mask := w.mask ||| m, gid := gid, written := s.now,
           poison := if m == fullMask then poison else w.poison && w.mask != m }

/-- Every WCB, and the DRAM, as before. -/
def SameWcbs (s t : State) : Prop := t.cellar.dram = s.cellar.dram ∧ ∀ c, (t.chan c).wcb = (s.chan c).wcb

theorem SameWcbs.refl (s : State) : SameWcbs s s := ⟨rfl, fun _ => rfl⟩

theorem SameWcbs.trans {s t u : State} (h : SameWcbs s t) (k : SameWcbs t u) : SameWcbs s u :=
  ⟨k.1.trans h.1, fun c => (k.2 c).trans (h.2 c)⟩

theorem SameWcbs.ite {c : Prop} [Decidable c] {s a b : State} (h : SameWcbs s a) (k : SameWcbs s b) : SameWcbs s (if c then a else b) := by
  split <;> assumption

theorem State.countChan_sameWcbs (s : State) (ch ev sel : Nat) : SameWcbs s (s.countChan ch ev sel) :=
  ⟨by simp, fun c => congrArg Chan.wcb (State.chan_congr (by simp) c)⟩

theorem State.enterQ_sameWcbs (s : State) (q i : Nat) : SameWcbs s (s.enterQ q i) := ⟨rfl, fun _ => rfl⟩

theorem State.onChan_sameWcbs (s : State) (ch : Nat) {f : Chan → Chan} (h : ∀ c, (f c).wcb = c.wcb) : SameWcbs s (s.onChan ch f) := by
  refine ⟨rfl, fun c => ?_⟩
  rw [State.chan_onChan]
  split
  · rename_i same
    rw [h, same]
  · rfl

/-- A write puts the merged entry into the WCB of its line and changes no other WCB and no DRAM. -/
theorem State.wcbWrite_of_own {s : State} {pa gid ch line : Nat} (bs : Bytes) (poison : Bool) (own : s.ownLine pa gid)
    (hp : s.wcbOf (s.place (pa / 64 * 64)) = (ch, line)) :
    (s.wcbWrite pa gid bs poison).cellar.dram = s.cellar.dram ∧
    ∀ c, ((s.wcbWrite pa gid bs poison).chan c).wcb =
      if c = ch then (s.chan ch).wcb.put line (s.mergedLine pa gid bs poison) else (s.chan c).wcb := by
  have entered : ∃ u, SameWcbs (s.onChan ch fun c => { c with wcb := c.wcb.put line (s.mergedLine pa gid bs poison), lastReq := s.now }) u ∧
      s.wcbWrite pa gid bs poison = u := by
    refine ⟨_, ?_, rfl⟩
    unfold State.wcbWrite
    rw [State.clearForeign_of_own own]
    simp only [hp, State.mergedLine]
    generalize s.onChan ch _ = u
    have logged := fun p entry => (u.onChan_sameWcbs p fun _ => rfl : SameWcbs u (u.onChan p fun c => { c with plog := c.plog ++ [entry] }))
    refine SameWcbs.ite (SameWcbs.trans ?_ (State.countChan_sameWcbs _ _ _ _)) (SameWcbs.trans ?_ (State.enterQ_sameWcbs _ _ _))
    all_goals
      split
      · split
        · exact SameWcbs.ite (SameWcbs.refl u) ((logged _ _).trans (State.enterQ_sameWcbs _ _ _))
        · exact SameWcbs.refl u
      · exact SameWcbs.refl u
  obtain ⟨u, ⟨dram, wcbs⟩, same⟩ := entered
  rw [same]
  refine ⟨dram, fun c => (wcbs c).trans ?_⟩
  rw [State.chan_onChan]
  split <;> rfl

/-- Bytes of the write stand in the merged entry, every other byte as it stood in the old one. -/
theorem State.mergedLine_byte {s : State} {pa gid ch line b : Nat} {bs : Bytes} (poison : Bool)
    (hp : s.wcbOf (s.place (pa / 64 * 64)) = (ch, line)) (hb : b < 64) :
    let old := ((s.chan ch).wcb.find line).getD { data := zeroBytes 64 }
    let w := s.mergedLine pa gid bs poison
    (pa % 64 ≤ b → b < pa % 64 + bs.length → w.mask.testBit b = true ∧ w.data.getD b 0 = bs.getD (b - pa % 64) 0) ∧
    (b < pa % 64 ∨ pa % 64 + bs.length ≤ b → w.mask.testBit b = old.mask.testBit b ∧ w.data.getD b 0 = old.data.getD b 0) := by
  have fresh : ∀ o : Option WLine, (o.getD { data := zeroBytes 64, entered := s.now }).mask = (o.getD { data := zeroBytes 64 }).mask ∧
      (o.getD { data := zeroBytes 64, entered := s.now }).data = (o.getD { data := zeroBytes 64 }).data := by
    intro o; cases o <;> exact ⟨rfl, rfl⟩
  simp only [State.mergedLine, hp, fresh, Nat.testBit_or, testBit_byteMask, getD_mergeBytes _ b _ _ hb, getD_padBytes _ hb]
  refine ⟨fun lo hi => ?_, fun out => ?_⟩
  · simp only [lo, hi, decide_true, Bool.and_self, Bool.or_true, if_true, getD_zeros_append bs lo, and_self]
  · have : (decide (pa % 64 ≤ b) && decide (b < pa % 64 + bs.length)) = false := by
      rcases out with out | out <;> simp <;> omega
    simp [this]

/-- Another guest's entry leaves the WCB of its line before a write. -/
theorem State.clearForeign_clears {s : State} {pa gid ch line : Nat} (hp : s.wcbOf (s.place (pa / 64 * 64)) = (ch, line))
    (foreign : ¬ s.ownLine pa gid) : ((s.clearForeign pa gid).chan ch).wcb.find line = none := by
  simp only [State.ownLine, hp, not_forall, not_or] at foreign
  obtain ⟨w, hw, hg, ht⟩ := foreign
  have other : (w.gid == gid || s.inTables (pa / 64 * 64)) = false := by simp [hg, ht]
  simp only [State.clearForeign, hp, hw, other, Bool.false_eq_true, if_false]
  split
  · rw [State.chan_congr (congrArg Cellar.chans (State.discardQ_cellar _ _ _))]
    simp
  · rename_i gone
    simpa [Tab.has] using gone

/-! ## A line in DRAM (R359, R360) -/

theorem length_eccBytes (bs : Bytes) (m : Nat) : (eccBytes bs m).length = 16 := by simp [eccBytes, length_leBytes, upto]

/-- The stored bytes of a line have addresses of their own. -/
theorem dramKey_within {ch line c l b : Nat} (hline : line < 2 ^ 33) (hl : l < 2 ^ 33) (hb : b < 80) :
    (dramKey ch line 0 ≤ dramKey c l b ∧ dramKey c l b < dramKey ch line 0 + 80) ↔ (c, l) = (ch, line) := by
  simp only [dramKey, Prod.mk.injEq]
  omega

theorem dramKey_sub (c l b : Nat) : dramKey c l b - dramKey c l 0 = b := by
  simp only [dramKey]
  omega

/-- A line put into DRAM reads as its 64 bytes and its code, and every other line as before. -/
theorem State.rawLine_putLine {s : State} {ch line c l : Nat} (m : Nat) (bs : Bytes) (hs : s.Sound) (hline : line < 2 ^ 33)
    (hl : l < 2 ^ 33) :
    (s.putLine ch line bs m).rawLine c l =
      if (c, l) = (ch, line) then padBytes 64 bs ++ eccBytes (padBytes 64 bs) m else s.rawLine c l := by
  have len : (padBytes 64 bs ++ eccBytes (padBytes 64 bs) m).length = 80 := by
    rw [List.length_append, length_padBytes, length_eccBytes]
  have byte : ∀ b, b < 80 → cellGet (dramKey c l b) (s.putLine ch line bs m).cellar.dram =
      if (c, l) = (ch, line) then (padBytes 64 bs ++ eccBytes (padBytes 64 bs) m).getD b 0 else cellGet (dramKey c l b) s.cellar.dram := by
    intro b hb
    simp only [State.putLine, State.putRaw, padBytes_of_length len]
    rw [cellGet_cellsPut _ _ _ hs.1, len, if_congr (dramKey_within hline hl hb) rfl rfl]
    split
    · rename_i h
      obtain ⟨rfl, rfl⟩ := Prod.mk.inj h
      rw [dramKey_sub]
    · rfl
  split
  · rename_i h
    apply List.ext_getElem (by rw [len]; exact length_upto_map _ _)
    intro b h1 h2
    rw [len] at h2
    have := byte b h2
    rw [if_pos h, List.getD_eq_getElem _ _ (by rw [len]; exact h2)] at this
    simpa [State.rawLine, upto] using this
  · rename_i h
    simp only [State.rawLine]
    exact List.map_congr_left fun b hb => by rw [byte b (by simpa [upto] using hb), if_neg h]

/-! ## A store request (R35) -/

/-- What says where a pool address lies is the same after a write of the WCBs. -/
theorem State.wcbWrite_place (s : State) (pa gid : Nat) (bs : Bytes) (poison : Bool) (a : Nat) :
    (s.wcbWrite pa gid bs poison).wcbOf ((s.wcbWrite pa gid bs poison).place a) = s.wcbOf (s.place a) ∧
      (s.wcbWrite pa gid bs poison).inTables a = s.inTables a := by
  have h := State.wcbWrite_moves s pa gid bs poison
  obtain ⟨hlay, -, hcap, hbytes, hbase, hplain, -⟩ := h.same (p := .map) (by decide)
  obtain ⟨hgroups, -, -⟩ := h.same (p := .groups) (by decide)
  have place : ∀ x, (s.wcbWrite pa gid bs poison).place x = s.place x := by
    intro x; simp only [State.place, hlay, hcap, hbytes, hplain]
  have group : ∀ g, (s.wcbWrite pa gid bs poison).group g = s.group g := by
    intro g; simp only [State.group, hgroups]
  have member : ∀ g m x, (s.wcbWrite pa gid bs poison).memberChan g m x = s.memberChan g m x := by
    intro g m x; simp only [State.memberChan, group]
  refine ⟨?_, by simp only [State.inTables, hbytes, hbase]⟩
  rw [place]
  cases s.place a with
  | plain ch co => rfl
  | strong g m co => simp only [State.wcbOf, State.wcbChan, member, group]
  | nowhere => rfl

/-- A guest's write leaves no other guest's entry where there was none. -/
theorem State.ownLine_wcbWrite {s : State} {pa gid a : Nat} (bs : Bytes) (poison : Bool) (own : s.ownLine pa gid) (ha : s.ownLine a gid) :
    (s.wcbWrite pa gid bs poison).ownLine a gid := by
  obtain ⟨hp, ht⟩ := State.wcbWrite_place s pa gid bs poison (a / 64 * 64)
  unfold State.ownLine
  rw [hp, ht, (State.wcbWrite_of_own bs poison own Prod.mk.eta.symm).2]
  intro w hw
  split at hw
  · rename_i hc
    simp only [Tab.find_put] at hw
    split at hw
    · exact .inl (by rw [← Option.some.inj hw]; rfl)
    · exact ha w (by rw [hc]; exact hw)
  · exact ha w hw

/-- Writes of a guest to lines that are no other guest's change no DRAM and no WCB line but those. -/
theorem State.wcbWrites_frame (gid : Nat) (poison : Bool) (parts : List (Nat × Bytes)) {s : State}
    (own : ∀ x ∈ parts, s.ownLine x.1 gid) :
    let t := parts.foldl (fun (u : State) x => u.wcbWrite x.1 gid x.2 poison) s
    t.cellar.dram = s.cellar.dram ∧
    ∀ c l, (∀ x ∈ parts, s.wcbOf (s.place (x.1 / 64 * 64)) ≠ (c, l)) → (t.chan c).wcb.find l = (s.chan c).wcb.find l := by
  induction parts generalizing s with
  | nil => exact ⟨rfl, fun _ _ _ => rfl⟩
  | cons x parts ih =>
    have hx := own x (by simp)
    obtain ⟨dram, wcb⟩ := State.wcbWrite_of_own x.2 poison hx Prod.mk.eta.symm
    obtain ⟨dram', rest⟩ := ih fun y hy => State.ownLine_wcbWrite x.2 poison hx (own y (by simp [hy]))
    refine ⟨dram'.trans dram, fun c l away => (rest c l fun y hy => ?_).trans ?_⟩
    · rw [(State.wcbWrite_place s x.1 gid x.2 poison _).1]
      exact away y (by simp [hy])
    · rw [wcb]
      split
      · rename_i hc
        have : l ≠ (s.wcbOf (s.place (x.1 / 64 * 64))).2 := fun hl => away x (by simp) (by rw [hc, hl])
        rw [Tab.find_put_ne _ _ this, hc]
      · rfl

/-- An answer touches no cellar where no hearth line is kept busy for it. -/
theorem State.ackReq_cellar {s : State} {k : Nat} (status : Nat) (data : Bytes) (poi : Bool)
    (h : s.hearth.dir.rows.any (fun x => x.2.open_ && Grant.ofReq k x.2.grant) = false) :
    (s.ackReq k status data poi).cellar.dram = s.cellar.dram ∧ (s.ackReq k status data poi).cellar.chans = s.cellar.chans := by
  have moved := State.endReq_moves s k status data poi
  obtain ⟨-, hdir, -⟩ := moved.same (p := .coherence) (by decide)
  have none : ((s.endReq k status data poi).hearth.dir.rows.filter fun r => r.2.open_ && Grant.ofReq k r.2.grant) = [] := by
    rw [hdir, List.filter_eq_nil_iff]
    exact fun x hx => by simpa using List.any_eq_false.mp h x hx
  have : s.ackReq k status data poi = s.endReq k status data poi := by
    simp [State.ackReq, State.uncachedFree, none]
  rw [this]
  exact ⟨moved.same (p := .dram) (by decide), moved.same (p := .chans) (by decide)⟩

/-- A store request changes no DRAM and no WCB line but those that its ranges name. -/
theorem State.store_frame {s : State} {k : Nat} {r : Req} (hh : r.hearth = false)
    (closed : s.hearth.dir.rows.any (fun x => x.2.open_ && Grant.ofReq k x.2.grant) = false)
    (own : ∀ x ∈ storeLines r.pas r.p.payload, s.ownLine x.1 r.gid) :
    (s.store k r).cellar.dram = s.cellar.dram ∧
    ∀ c l, (∀ x ∈ storeLines r.pas r.p.payload, s.wcbOf (s.place (x.1 / 64 * 64)) ≠ (c, l)) →
      ((s.store k r).chan c).wcb.find l = (s.chan c).wcb.find l := by
  simp only [State.store, Req.hearth_stop_none s k true hh]
  split
  · obtain ⟨dram, chans⟩ := State.ackReq_cellar 0x02 [] false closed
    exact ⟨dram, fun c l _ => by rw [State.chan_congr chans]⟩
  split
  · obtain ⟨dram, wcb⟩ := State.wcbWrites_frame r.gid r.p.poi _ own
    have moved := Moves.foldl (l := storeLines r.pas r.p.payload) (f := fun (u : State) x => u.wcbWrite x.1 r.gid x.2 r.p.poi)
      (fun v x => State.wcbWrite_moves v _ _ _ _) (Moves.refl _ s)
    obtain ⟨-, hdir, -⟩ := moved.same (p := .coherence) (by decide)
    obtain ⟨dram', chans⟩ := State.ackReq_cellar 0 [] false (by rw [hdir]; exact closed)
    exact ⟨dram'.trans dram, fun c l away => by rw [State.chan_congr chans]; exact wcb c l away⟩
  · exact ⟨rfl, fun c l _ => rfl⟩

/-- Settles O59: the entry of a line is merged byte by byte, a line of DRAM has 80 addresses of its own, and a store request is a fold of
such writes. -/
theorem storesReachOnlyTheirBytes : Obligations.StoresReachOnlyTheirBytes := by
  unfold Obligations.StoresReachOnlyTheirBytes
  refine ⟨?_, fun s pa gid ch line _ _ hp foreign => State.clearForeign_clears hp foreign, ?_, ?_⟩
  · rintro s pa gid ch line bs poison old - hp own rfl
    obtain ⟨dram, wcb⟩ := State.wcbWrite_of_own bs poison own hp
    refine ⟨dram, fun c l away => ?_, s.mergedLine pa gid bs poison, by rw [wcb]; simp, rfl,
      fun b hb => State.mergedLine_byte poison hp hb⟩
    rw [wcb]
    split
    · rename_i hc
      rw [Tab.find_put_ne _ _ fun hl => away (by rw [hc, hl]), hc]
    · rfl
  · intro s ch line m bs hs hline
    refine ⟨by rw [State.rawLine_putLine m bs hs hline hline, if_pos rfl], fun c l hl away => ?_⟩
    rw [State.rawLine_putLine m bs hs hline hl, if_neg away]
  · intro s k r hh hop closed own
    have hs : s.perform k r = s.store k r := by
      rcases hop with hop | hop <;> simp [State.perform, hop]
    rw [hs]
    exact State.store_frame hh closed own

end Sys2Proof.Machine
end

section
namespace Sys2Proof.Machine

open Sys2Proof

/-! ## Guests that may become fatal, and change in nothing else (R386, R396) -/

/-- A guest's record but for whether the guest is fatal. -/
def Guest.unfatal (g : Guest) : Guest := { g with fatal := 0 }

/-- Guests and swaps are as before, but that a guest may have become fatal. -/
def FatalOnly (s t : State) : Prop :=
  t.pool.swaps = s.pool.swaps ∧ t.pool.oldDirs = s.pool.oldDirs ∧ t.pool.stamp = s.pool.stamp ∧
    ∀ gid, (t.pool.guests.find gid).map Guest.unfatal = (s.pool.guests.find gid).map Guest.unfatal

theorem FatalOnly.refl (s : State) : FatalOnly s s := ⟨rfl, rfl, rfl, fun _ => rfl⟩

theorem FatalOnly.trans {s t u : State} (h : FatalOnly s t) (k : FatalOnly t u) : FatalOnly s u :=
  ⟨k.1.trans h.1, k.2.1.trans h.2.1, k.2.2.1.trans h.2.2.1, fun gid => (k.2.2.2 gid).trans (h.2.2.2 gid)⟩

/-- An operation that does not move the guests keeps them all. -/
theorem Moves.fatalOnly {ps : List Part} {s t : State} (h : Moves ps s t) (hp : Part.guests ∉ ps) : FatalOnly s t := by
  obtain ⟨hg, hd, hst, hsw⟩ := h.same hp
  exact ⟨hsw, hd, hst, fun gid => by rw [hg]⟩

theorem FatalOnly.then_moves {ps : List Part} {s t u : State} (k : FatalOnly s t) (h : Moves ps t u) (hp : Part.guests ∉ ps) :
    FatalOnly s u := k.trans (h.fatalOnly hp)

theorem FatalOnly.ite {c : Prop} [Decidable c] {s a b : State} (h : FatalOnly s a) (k : FatalOnly s b) :
    FatalOnly s (if c then a else b) := by
  split <;> assumption

theorem FatalOnly.foldl {α : Type} {f : State → α → State} (h : ∀ s x, FatalOnly s (f s x)) (l : List α) (s : State) :
    FatalOnly s (l.foldl f s) := by
  induction l generalizing s with
  | nil => exact FatalOnly.refl s
  | cons x l ih => exact (h s x).trans (ih (f s x))

theorem State.onGuest_fatalOnly (s : State) (gid n : Nat) : FatalOnly s (s.onGuest gid fun g => { g with fatal := n }) := by
  refine ⟨rfl, rfl, rfl, fun g => ?_⟩
  simp only [State.onGuest, Tab.find_upd]
  split
  · rename_i h; subst h; cases s.pool.guests.find g <;> rfl
  · rfl

theorem State.guestFatal_fatalOnly (s : State) (gid pa ch : Nat) : FatalOnly s (s.guestFatal gid pa ch) := by
  unfold State.guestFatal
  split
  · exact FatalOnly.refl s
  split
  · exact FatalOnly.refl s
  exact (((State.onGuest_fatalOnly s gid 1).then_moves (State.log_moves _ _ _ _ _ _ _) (by decide)).then_moves
    (State.memIrq_moves _ _) (by decide)).then_moves (State.guestStreamsError_moves _ _ _) (by decide)

theorem State.keyFail_fatalOnly (s : State) (gid : Nat) : FatalOnly s (s.keyFail gid) := by
  unfold State.keyFail
  split
  · exact FatalOnly.refl s
  split
  · exact FatalOnly.refl s
  exact (((State.onGuest_fatalOnly s gid 2).then_moves (State.log_moves _ _ _ _ _ _ _) (by decide)).then_moves
    (State.irqEdge_moves _ _) (by decide)).then_moves (State.guestStreamsError_moves _ _ _) (by decide)

theorem State.checkEntry_fatalOnly (s : State) (gid : Nat) : FatalOnly s (s.checkEntry gid) := by
  unfold State.checkEntry
  dsimp only
  split
  · exact State.keyFail_fatalOnly s gid
  split
  · exact State.guestFatal_fatalOnly s _ _ _
  · exact FatalOnly.refl s

theorem State.reportLost_fatalOnly (s : State) (ch line : Nat) (pa reader : Option Nat) :
    FatalOnly s (s.reportLost ch line pa reader) := by
  have logged : ∀ w5 : Nat, FatalOnly s ((((s.onChan ch fun c => { c with ueLost := satInc 32 c.ueLost }).countChan ch 0x3015 4).log 0x02
      (chanDie ch) ch (line * 64) (pa.getD 0) w5).memIrq ch) := fun w5 =>
    ((((State.onChan_moves s ch _).fatalOnly (by decide)).then_moves (State.countChan_moves _ _ _ _) (by decide)).then_moves
      (State.log_moves _ _ _ _ _ _ _) (by decide)).then_moves (State.memIrq_moves _ _) (by decide)
  unfold State.reportLost
  cases pa with
  | none => exact logged _
  | some a => exact ((logged _).trans (FatalOnly.foldl (fun v g => State.guestFatal_fatalOnly v g _ _) _ _)).ite (logged _)

theorem State.poisonLine_fatalOnly (s : State) (ch line : Nat) (reader : Option Nat) : FatalOnly s (s.poisonLine ch line reader) := by
  unfold State.poisonLine
  exact (((State.putLine_moves s ch line _ _).fatalOnly (by decide)).then_moves (State.useFree_moves _ _) (by decide)).trans
    (State.reportLost_fatalOnly _ _ _ _ _)

theorem State.countBuilt_fatalOnly (s : State) (r : Got) (ch line m : Nat) (reader : Option Nat) :
    FatalOnly s (s.countBuilt r ch line m reader) := by
  unfold State.countBuilt
  split
  · exact FatalOnly.refl s
  split
  · split
    · exact State.reportLost_fatalOnly _ _ _ _ _
    · exact FatalOnly.refl s
  · exact (State.countChan_moves s _ _ _).fatalOnly (by decide)

theorem State.fetch_fatalOnly (s : State) (pl : Place) (source e1 e2 : Nat) (reader : Option Nat) :
    FatalOnly s (s.fetch pl source e1 e2 reader).2 := by
  have stored : ∀ ch line, FatalOnly s (s.readStored ch line source e1 e2).2 :=
    fun ch line => (State.readStored_moves s ch line source e1 e2).fatalOnly (by decide)
  have built : ∀ (u : State) g m line, FatalOnly u (u.reconstruct g m line source).2 :=
    fun u g m line => (State.reconstruct_moves u g m line source).fatalOnly (by decide)
  unfold State.fetch
  split
  · exact FatalOnly.refl s
  · rename_i ch co
    split
    · exact FatalOnly.refl s
    split
    · exact FatalOnly.refl s
    have read := stored ch (co / 64)
    split
    · rename_i h; rw [h] at read; exact read
    · rename_i h; rw [h] at read; exact read.trans (State.poisonLine_fatalOnly _ _ _ _)
  · rename_i g m co
    dsimp only
    split
    · exact (built s _ _ _).trans (State.countBuilt_fatalOnly _ _ _ _ _ _)
    rename_i ch _
    split
    · exact (built s _ _ _).trans (State.countBuilt_fatalOnly _ _ _ _ _ _)
    split
    · split
      · exact built s _ _ _
      · exact (built s _ _ _).trans (State.countBuilt_fatalOnly _ _ _ _ _ _)
    have read := stored ch (co / 64)
    split
    · rename_i h; rw [h] at read; exact read
    · rename_i u h
      rw [h] at read
      have again := read.trans (built u g m (co / 64))
      split
      · exact again
      split
      · exact again.trans (State.poisonLine_fatalOnly _ _ _ _)
      · exact (((again.then_moves (State.putLine_moves _ _ _ _ _) (by decide)).then_moves (State.countChan_moves _ _ _ _)
          (by decide)).then_moves (State.onChan_moves _ _ _) (by decide)).then_moves (State.log_moves _ _ _ _ _ _ _) (by decide)

theorem State.drainLine_fatalOnly (s : State) (ch line : Nat) : FatalOnly s (s.drainLine ch line) := by
  unfold State.drainLine
  split
  · exact FatalOnly.refl s
  rename_i w _
  extract_lets pl pa strong evac dead
  clear_value dead evac strong pa pl
  refine (FatalOnly.refl s).ite (((State.onChan_moves s _ _).fatalOnly (by decide)).ite ?_)
  have read : FatalOnly s (if w.whole && !strong then (({ data := zeroBytes 64 } : Got), s) else s.fetch pl 0 0 0 none).2 := by
    split
    · exact FatalOnly.refl s
    · exact State.fetch_fatalOnly _ _ _ _ _ _
  generalize (if w.whole && !strong then (({ data := zeroBytes 64 } : Got), s) else s.fetch pl 0 0 0 none) = x at read ⊢
  obtain ⟨old, u⟩ := x
  refine FatalOnly.ite read ?_
  have looked := read.then_moves (State.keyLook_moves u ch pa w.gid) (by decide)
  have counted : FatalOnly s (if w.whole then u.keyLook ch pa w.gid else (u.keyLook ch pa w.gid).countChan ch 0x3014 3) :=
    looked.ite (looked.then_moves (State.countChan_moves _ _ _ _) (by decide))
  dsimp only
  refine FatalOnly.then_moves (FatalOnly.then_moves (FatalOnly.then_moves ?_ (State.onChan_moves _ _ _) (by decide))
    (State.countChan_moves _ _ _ _) (by decide)) (State.leaveQ_moves _ _ _) (by decide)
  have stored := fun (bs : Bytes) (m : Nat) =>
    counted.ite (c := dead = true) (counted.then_moves (State.putLine_moves _ ch line bs m) (by decide))
  split
  · refine (stored _ _).ite ?_
    have sent := fun bs m' g m d dm => (stored bs m').then_moves (State.sendDelta_moves _ g m line d dm) (by decide)
    split
    · exact ((sent _ _ _ _ _ _).then_moves (State.onChan_moves _ _ _) (by decide)).then_moves (State.leaveQ_moves _ _ _) (by decide)
    · exact sent _ _ _ _ _ _
  · exact stored _ _

theorem State.clearForeign_fatalOnly (s : State) (pa gid : Nat) : FatalOnly s (s.clearForeign pa gid) := by
  unfold State.clearForeign
  extract_lets a
  split
  split
  · exact FatalOnly.refl s
  refine (FatalOnly.refl s).ite ?_
  have drained := State.drainLine_fatalOnly s
  exact ((((drained _ _).then_moves (State.onChan_moves _ _ _) (by decide)).then_moves (State.discardQ_moves _ _ _) (by decide)).ite
    (drained _ _))

theorem State.wcbWrite_fatalOnly (s : State) (pa gid : Nat) (bs : Bytes) (poison : Bool) : FatalOnly s (s.wcbWrite pa gid bs poison) := by
  have cleared := State.clearForeign_fatalOnly s pa gid
  unfold State.wcbWrite
  generalize s.clearForeign pa gid = u at cleared ⊢
  dsimp only
  have put := fun ch f => cleared.then_moves (State.onChan_moves u ch f) (by decide)
  refine FatalOnly.ite (FatalOnly.then_moves ?_ (State.countChan_moves _ _ _ _) (by decide))
    (FatalOnly.then_moves ?_ (State.enterQ_moves _ _ _) (by decide))
  all_goals
    split
    · split
      · exact (put _ _).ite (((put _ _).then_moves (State.onChan_moves _ _ _) (by decide)).then_moves (State.enterQ_moves _ _ _) (by decide))
      · exact put _ _
    · exact put _ _

theorem State.wcbPut_fatalOnly (s : State) (pa gid : Nat) (bs : Bytes) (poison : Bool) : FatalOnly s (s.wcbPut pa gid bs poison) := by
  have written := State.wcbWrite_fatalOnly s pa gid bs poison
  exact written.ite (written.trans (State.drainLine_fatalOnly _ _ _))

/-- A guest that is spilled is no longer resident; else guests and swaps keep what they are but for fatal ones (R11). -/
theorem State.spill_fatalOnly (s : State) (gid : Nat) :
    ∃ u, FatalOnly s u ∧ s.spill gid = u.onGuest gid fun g => { g with resident := false } := by
  refine ⟨_, ?_, rfl⟩
  exact FatalOnly.foldl (fun v l => (State.wcbPut_fatalOnly v _ _ _ _).then_moves (State.useFree_moves _ _) (by decide)) _ _

end Sys2Proof.Machine
end

section
namespace Sys2Proof.Machine

open Sys2Proof

/-! ## Swaps that take a slot (R10, R11) -/

/-- A swap that has a slot, in the place of the guest's others. -/
def slotted (w : Swap) (swaps : List Swap) : List Swap := swaps.map fun x => if x.gid == w.gid then { w with slot := true } else x

theorem slotted_gids (w : Swap) (swaps : List Swap) : (slotted w swaps).map (·.gid) = swaps.map (·.gid) := by
  simp only [slotted, List.map_map, List.map_inj_left, Function.comp]
  intro x _
  split
  · rename_i h; exact (beq_iff_eq.mp h).symm
  · rfl

theorem mem_slotted {w x : Swap} {swaps : List Swap} (h : x ∈ swaps) (hg : x.gid = w.gid) : { w with slot := true } ∈ slotted w swaps :=
  List.mem_map.mpr ⟨x, h, by simp [hg]⟩

/-- A swap with a slot keeps its place when another's takes one. -/
theorem slotted_keeps {w : Swap} {swaps : List Swap} {gid : Nat} (h : ∃ x ∈ swaps, x.gid = gid ∧ x.slot = true) :
    ∃ x ∈ slotted w swaps, x.gid = gid ∧ x.slot = true := by
  obtain ⟨x, mem, hg, slot⟩ := h
  by_cases hw : x.gid = w.gid
  · exact ⟨_, mem_slotted mem hw, hw.symm.trans hg, rfl⟩
  · exact ⟨x, List.mem_map.mpr ⟨x, mem, by simp [hw]⟩, hg, slot⟩

theorem State.spill_swaps (s : State) (gid : Nat) : (s.spill gid).pool.swaps = s.pool.swaps := by
  obtain ⟨u, kept, spilled⟩ := State.spill_fatalOnly s gid
  rw [spilled]
  exact kept.1

/-- A swap takes a slot where one or a victim is there. -/
theorem State.swapSlot_swaps {s : State} {w : Swap} (hw : w.slot = false) (room : s.slotFree = true ∨ s.swapVictim.isSome = true) :
    (s.swapSlot w).pool.swaps = slotted w s.pool.swaps := by
  unfold State.swapSlot
  simp only [hw, Bool.false_eq_true, if_false]
  split
  · rfl
  · rename_i full
    have victim := room.resolve_left (by simpa [State.slotFree] using full)
    obtain ⟨v, hv⟩ := Option.isSome_iff_exists.mp victim
    simp only [hv, State.spill_swaps, slotted]

/-- Whatever is there, no other swap than those of the guest changes. -/
theorem State.swapSlot_swaps_cases (s : State) (w : Swap) :
    (s.swapSlot w).pool.swaps = s.pool.swaps ∨ (s.swapSlot w).pool.swaps = slotted w s.pool.swaps := by
  by_cases hw : w.slot = true
  · exact .inl (by simp [State.swapSlot, hw])
  by_cases room : s.slotFree = true ∨ s.swapVictim.isSome = true
  · exact .inr (State.swapSlot_swaps (by simpa using hw) room)
  · rw [not_or] at room
    obtain ⟨full, victim⟩ := room
    have full' : ¬ s.residents + (s.pool.swaps.filter (·.slot)).length < 16384 := by simpa [State.slotFree] using full
    have none : s.swapVictim = none := by simpa using victim
    exact .inl (by simp [State.swapSlot, hw, full', none])

theorem State.swapSlot_gids (s : State) (w : Swap) : (s.swapSlot w).pool.swaps.map (·.gid) = s.pool.swaps.map (·.gid) := by
  rcases s.swapSlot_swaps_cases w with h | h <;> rw [h]
  exact slotted_gids _ _

/-- A guest that is wanted has a swap. -/
theorem State.startSwap_swaps (s : State) (gid : Nat) : (s.startSwap gid).pool.swaps.any (fun w => w.gid == gid) = true := by
  unfold State.startSwap
  split
  · assumption
  · have gids := State.swapSlot_gids { s with pool := { s.pool with swaps := s.pool.swaps ++ [{ gid := gid, since := s.now }] } }
      { gid := gid, since := s.now }
    have mem : gid ∈ (State.swapSlot { s with pool := { s.pool with swaps := s.pool.swaps ++ [{ gid := gid, since := s.now }] } }
        { gid := gid, since := s.now }).pool.swaps.map (·.gid) := by
      rw [gids]; simp
    obtain ⟨x, hx, hg⟩ := List.mem_map.mp mem
    simp only [State.countLedger_pool]
    exact List.any_eq_true.mpr ⟨x, hx, by simpa using hg⟩

end Sys2Proof.Machine
end

section
namespace Sys2Proof.Machine

open Sys2Proof

/-! ## Guest commands (R15, R19, R22, R47, R48) -/

/-- A guest command that only the manager takes has its effect on a manager that serves (R30, R47). -/
theorem completes_mgrCmd {c : Instr} {s : State} {code : Nat} {f : State → State} {post : State → Prop}
    (hs : s.accepts Obj.guestCmdResult) (mgr : s.power.roleMgr = true) (serves : s.pool.setState = 3)
    (hc : exec c s = mgrCmd s code f) (h : post (f (s.setReg Obj.guestCmdOp code))) : Completes c s post :=
  completes_record hs hc (by simpa [mgr, serves] using h)

@[simp] theorem State.cmdGid_setOp (s : State) (v : Nat) : (s.setReg Obj.guestCmdOp v).cmdGid = s.cmdGid := by
  simp [State.cmdGid, show Obj.guestCmdGid ≠ Obj.guestCmdOp by decide]

@[simp] theorem State.guest_setReg (s : State) (k v gid : Nat) : (s.setReg k v).guest gid = s.guest gid := rfl

theorem State.onGuest_guests (s : State) (gid : Nat) (f : Guest → Guest) : (s.onGuest gid f).pool.guests = s.pool.guests.upd gid f := rfl

/-- A RESULT is written and every other object but OP reads as before. -/
theorem State.regsBut_guestResult {s u : State} (code v : Nat) (h : u.regs = (s.setReg Obj.guestCmdOp code).regs) :
    (u.guestResult v).reg Obj.guestCmdResult = v ∧ s.regsBut [Obj.guestCmdOp, Obj.guestCmdResult] (u.guestResult v) := by
  refine ⟨by simp [State.guestResult], fun k hk => ?_⟩
  simp only [List.mem_cons, List.not_mem_nil, or_false, not_or] at hk
  simp [State.guestResult, State.reg_congr h, hk.1, hk.2]

/-- A change that goes to the members leaves RESULT at 0x01, a new directory-change count, and the guests as they were. -/
theorem State.guestPending_spec {s u : State} (code kind gid : Nat) (h : u.regs = (s.setReg Obj.guestCmdOp code).regs) :
    (u.guestPending kind gid).pool.guests = u.pool.guests ∧ (u.guestPending kind gid).pool.dirEpoch = u.pool.dirEpoch + 1 ∧
      (u.guestPending kind gid).reg Obj.guestCmdResult = 0x01 ∧
      s.regsBut [Obj.guestCmdOp, Obj.guestCmdResult] (u.guestPending kind gid) := by
  have sent := State.distributeAll_moves
    { u with pool := { u.pool with dirEpoch := u.pool.dirEpoch + 1, cmd := { kind := kind, gid := gid, dirEpoch := u.pool.dirEpoch } } }
    [u.guestDef gid] []
  exact ⟨(sent.same (p := .guests) (by decide)).1, (sent.same (p := .guestCmd) (by decide)).2,
    State.regsBut_guestResult code 0x01 (Eq.trans (sent.same (p := .regs) (by decide)) h)⟩

/-- A key made while the DRBG answers and KWRAP is held is DEFINED, else PENDING (R392). -/
theorem State.makeKey_kstate (s : State) (gid : Nat) :
    (s.makeKey gid).1.kstate = if s.drbgOk && s.sec.kwrap.isSome then 1 else 2 := by
  unfold State.makeKey
  split
  · rename_i ok
    split <;> simp_all [wrapKey]
  · simp_all

/-- A guest's record enters the table (R10, R401). -/
def State.enroll (s : State) (gid : Nat) (g : Guest) : State :=
  { s with pool := { s.pool with guests := s.pool.guests.put gid g, oldDirs := s.pool.oldDirs.del gid, stamp := s.pool.stamp + 1 } }

/-- The record with which a guest is defined. -/
def State.newGuest (s : State) (gid pkey : Nat) : Guest :=
  { resident := s.slotFree, pkey := pkey, key := (s.makeKey gid).1, dir := (s.makeKey gid).2.pool.oldDirs.getD gid {},
    used := (s.makeKey gid).2.pool.stamp + 1 }

theorem State.defineGuest_eq (s : State) (gid pkey : Nat) :
    s.defineGuest gid pkey =
      if s.slotFree then (s.makeKey gid).2.enroll gid (s.newGuest gid pkey) else ((s.makeKey gid).2.enroll gid (s.newGuest gid pkey)).spill gid :=
  rfl

/-- A guest's record but for residency and for whether the guest is fatal. -/
def Guest.spilled (g : Guest) (resident : Bool) (fatal : Nat) : Guest := { g with resident := resident, fatal := fatal }

/-- A spilled guest keeps its record, but that it is not resident and may have become fatal. -/
theorem State.spill_guest {s : State} {gid : Nat} {g : Guest} (h : s.pool.guests.find gid = some g) :
    ∃ n, (s.spill gid).pool.guests.find gid = some (g.spilled false n) := by
  obtain ⟨u, kept, spilled⟩ := State.spill_fatalOnly s gid
  have same := kept.2.2.2 gid
  rw [h] at same
  obtain ⟨g', found, like⟩ := Option.map_eq_some_iff.mp same
  refine ⟨g'.fatal, ?_⟩
  rw [spilled, State.onGuest_guests, Tab.find_upd, if_pos rfl, found]
  have : g' = { g with fatal := g'.fatal } := by
    cases g'; cases g; simp_all [Guest.unfatal]
  rw [this]
  rfl

/-- The record of a guest once it is defined. -/
theorem State.defineGuest_guest (s : State) (gid pkey : Nat) :
    ∃ n, (s.defineGuest gid pkey).pool.guests.find gid = some ((s.newGuest gid pkey).spilled s.slotFree n) := by
  have put : ((s.makeKey gid).2.enroll gid (s.newGuest gid pkey)).pool.guests.find gid = some (s.newGuest gid pkey) :=
    Tab.find_put_self _ _ _
  rw [State.defineGuest_eq]
  split
  · rename_i free
    exact ⟨0, put.trans (by simp [Guest.spilled, State.newGuest, free])⟩
  · rename_i full
    obtain ⟨n, h⟩ := State.spill_guest put
    exact ⟨n, h.trans (by simp [full])⟩

/-- DEFINE (R47, R48, R392). -/
theorem define_completes {s : State} (hs : s.accepts Obj.guestCmdResult) (mgr : s.power.roleMgr = true) (serves : s.pool.setState = 3)
    (open_ : s.sec.noDefine = false) (new : s.pool.guests.has s.cmdGid = false) (key : pkeyOk (s.reg Obj.guestCmdPkey) = true) :
    Completes .define s fun t =>
      t.pool.guests.has s.cmdGid = true ∧ (t.guest s.cmdGid).pkey = s.reg Obj.guestCmdPkey ∧ (t.guest s.cmdGid).resident = s.slotFree ∧
        (t.guest s.cmdGid).pinned = false ∧ (t.guest s.cmdGid).dir = s.pool.oldDirs.getD s.cmdGid {} ∧
        ((t.guest s.cmdGid).key.kstate = if s.drbgOk && s.sec.kwrap.isSome then 1 else 2) ∧
        t.reg Obj.guestCmdResult = 0x01 ∧ s.regsBut [Obj.guestCmdOp, Obj.guestCmdResult] t := by
  refine completes_mgrCmd hs mgr serves (by rw [exec, execDefine]) ?_
  have pkey : (s.setReg Obj.guestCmdOp 0x01).reg Obj.guestCmdPkey = s.reg Obj.guestCmdPkey := by
    simp [show Obj.guestCmdPkey ≠ Obj.guestCmdOp by decide]
  simp only [State.setReg_sec, open_, State.setReg_pool, State.cmdGid_setOp, new, pkey, key, Bool.not_true, Bool.false_eq_true, if_false]
  generalize hu : s.setReg Obj.guestCmdOp 0x01 = u
  have hpool : u.pool = s.pool := by rw [← hu]; rfl
  have hsec : u.sec = s.sec := by rw [← hu]; rfl
  obtain ⟨n, found⟩ := State.defineGuest_guest u s.cmdGid (s.reg Obj.guestCmdPkey)
  have moved := State.defineGuest_moves u s.cmdGid (s.reg Obj.guestCmdPkey)
  obtain ⟨guests, -, result, others⟩ := State.guestPending_spec (s := s) 0x01 2 s.cmdGid
    (u := u.defineGuest s.cmdGid (s.reg Obj.guestCmdPkey)) (by rw [hu]; exact moved.same (p := .regs) (by decide))
  have found' := (congrArg (Tab.find · s.cmdGid) guests).trans found
  have guest : ((u.defineGuest s.cmdGid (s.reg Obj.guestCmdPkey)).guestPending 2 s.cmdGid).guest s.cmdGid =
      (u.newGuest s.cmdGid (s.reg Obj.guestCmdPkey)).spilled u.slotFree n := State.guest_of_find found'
  obtain ⟨-, dirs, -⟩ := (State.makeKey_moves u s.cmdGid).same (p := .guests) (by decide)
  refine ⟨Tab.has_of_find found', by rw [guest]; rfl, ?_, by rw [guest]; rfl, ?_, ?_, result, others⟩
  · rw [guest, ← hu]; rfl
  · rw [guest]
    simp only [Guest.spilled, State.newGuest, dirs, hpool]
  · rw [guest]
    have drbg : u.drbgOk = s.drbgOk := by simp only [State.drbgOk, hsec]
    rw [← drbg, ← hsec]
    exact State.makeKey_kstate u s.cmdGid

/-- A command that changes a defined guest on the manager, and goes to the members. -/
theorem guestChange_completes {c : Instr} {s : State} {code : Nat} {f : State → State} (change : Guest → Guest)
    (hs : s.accepts Obj.guestCmdResult) (mgr : s.power.roleMgr = true) (serves : s.pool.setState = 3)
    (hc : exec c s = mgrCmd s code f)
    (hf : f (s.setReg Obj.guestCmdOp code) = ((s.setReg Obj.guestCmdOp code).onGuest s.cmdGid change).guestPending 1 s.cmdGid) :
    Completes c s fun t => t.pool.guests = s.pool.guests.upd s.cmdGid change ∧ t.pool.dirEpoch = s.pool.dirEpoch + 1 ∧
      t.reg Obj.guestCmdResult = 0x01 ∧ s.regsBut [Obj.guestCmdOp, Obj.guestCmdResult] t :=
  completes_mgrCmd hs mgr serves hc (by rw [hf]; exact State.guestPending_spec (s := s) code 1 s.cmdGid rfl)

/-- Objects of the command that its OP leaves. -/
theorem State.guestCmd_setOp (s : State) (v : Nat) :
    (s.setReg Obj.guestCmdOp v).reg Obj.guestCmdWindow = s.reg Obj.guestCmdWindow ∧
      (s.setReg Obj.guestCmdOp v).reg Obj.guestCmdPkey = s.reg Obj.guestCmdPkey := by
  simp [show Obj.guestCmdWindow ≠ Obj.guestCmdOp by decide, show Obj.guestCmdPkey ≠ Obj.guestCmdOp by decide]

theorem State.pinRoom_setOp (s : State) (v : Nat) : (s.setReg Obj.guestCmdOp v).pinRoom = s.pinRoom := by
  have limit : (s.setReg Obj.guestCmdOp v).reg Obj.guestPinnedLimit = s.reg Obj.guestPinnedLimit := by
    simp [show Obj.guestPinnedLimit ≠ Obj.guestCmdOp by decide]
  rw [State.pinRoom, limit]
  rfl

/-- A guest that is resident is pinned at once. -/
theorem pin_resident_completes {s : State} (hs : s.accepts Obj.guestCmdResult) (defined : s.pool.guests.has s.cmdGid = true)
    (free : (s.guest s.cmdGid).pinned = false) (room : s.pinRoom = true) (resident : (s.guest s.cmdGid).resident = true) :
    Completes .pin s fun t => t.pool.guests = s.pool.guests.upd s.cmdGid (fun g => { g with pinned := true }) ∧
      t.reg Obj.guestCmdResult = 0x00 ∧ s.regsBut [Obj.guestCmdOp, Obj.guestCmdResult] t := by
  refine completes_record hs (by rw [exec, execPin]) ?_
  simp only [State.setReg_pool, State.cmdGid_setOp, State.guest_setReg, State.pinRoom_setOp, defined, free, room, resident, Bool.not_true,
    Bool.false_eq_true, if_false, if_true]
  exact ⟨rfl, State.regsBut_guestResult 0x02 0x00 rfl⟩

/-- A guest that is spilled is wanted first (R15). -/
theorem pin_spilled_completes {s : State} (hs : s.accepts Obj.guestCmdResult) (defined : s.pool.guests.has s.cmdGid = true)
    (free : (s.guest s.cmdGid).pinned = false) (room : s.pinRoom = true) (spilled : (s.guest s.cmdGid).resident = false) :
    Completes .pin s fun t => t.pool.cmd.kind = 3 ∧ t.pool.cmd.gid = s.cmdGid ∧
      t.pool.swaps.any (fun w => w.gid == s.cmdGid) = true ∧ t.reg Obj.guestCmdResult = 0x01 ∧
      s.regsBut [Obj.guestCmdOp, Obj.guestCmdResult] t := by
  refine completes_record hs (by rw [exec, execPin]) ?_
  simp only [State.setReg_pool, State.cmdGid_setOp, State.guest_setReg, State.pinRoom_setOp, defined, free, room, spilled, Bool.not_true,
    Bool.false_eq_true, if_false]
  have swaps := State.startSwap_swaps (s.setReg Obj.guestCmdOp 0x02) s.cmdGid
  have regs : ((s.setReg Obj.guestCmdOp 0x02).startSwap s.cmdGid).regs = (s.setReg Obj.guestCmdOp 0x02).regs :=
    (State.startSwap_moves _ s.cmdGid).same (p := .regs) (by decide)
  generalize (s.setReg Obj.guestCmdOp 0x02).startSwap s.cmdGid = u at swaps regs ⊢
  have gid : u.cmdGid = s.cmdGid := by
    rw [State.cmdGid, State.reg_congr regs]; exact State.cmdGid_setOp s 0x02
  exact ⟨rfl, gid, swaps, State.regsBut_guestResult 0x02 0x01 regs⟩

/-- Settles O2: each command of the record does on its guest what its rule says; those of the manager then go to the members. -/
theorem guestCommandsComplete : Obligations.GuestCommandsComplete := by
  unfold Obligations.GuestCommandsComplete
  refine ⟨fun s hs mgr serves noDefine new key => define_completes hs mgr serves noDefine new key,
    fun s hs mgr serves defined index rsvd fits => ?_, fun s hs mgr serves defined index => ?_,
    fun s hs mgr serves defined key => ?_, fun s hs defined free room res => pin_resident_completes hs defined free room res,
    fun s hs defined free room res => pin_spilled_completes hs defined free room res, fun s hs defined => ?_, fun s hs => ?_,
    fun s hs busy ready => ?_⟩
  · obtain ⟨window, -⟩ := State.guestCmd_setOp s 0x04
    refine guestChange_completes _ hs mgr serves (by rw [exec, execWindowSet]) ?_
    have entry : (s.setReg Obj.guestCmdOp 0x04).blob Obj.guestCmdEntry = s.blob Obj.guestCmdEntry := rfl
    have refused : ¬ (decide (240 ≤ s.reg Obj.guestCmdWindow) || !windowRsvdOk (leNat (s.blob Obj.guestCmdEntry)) ||
        ((windowOf (leNat (s.blob Obj.guestCmdEntry))).valid &&
          !windowFits (s.guest s.cmdGid).dir (s.reg Obj.guestCmdWindow) (windowOf (leNat (s.blob Obj.guestCmdEntry))))) = true := by
      simpa [rsvd, Nat.not_le.mpr index] using fits
    simp only [State.setReg_pool, State.cmdGid_setOp, State.guest_setReg, window, entry, defined, Bool.not_true, Bool.false_eq_true, if_false]
    exact if_neg refused
  · obtain ⟨window, -⟩ := State.guestCmd_setOp s 0x05
    refine guestChange_completes _ hs mgr serves (by rw [exec, execWindowClear]) ?_
    simp only [State.setReg_pool, State.cmdGid_setOp, window, defined, Nat.not_le.mpr index, Bool.not_true, Bool.false_eq_true, if_false]
  · obtain ⟨-, pkey⟩ := State.guestCmd_setOp s 0x07
    have changed := guestChange_completes (c := .setPkey) (fun g => { g with pkey := s.reg Obj.guestCmdPkey }) hs mgr serves
      (by rw [exec, execSetPkey])
      (by simp only [State.setReg_pool, State.cmdGid_setOp, pkey, defined, key, Bool.not_true, Bool.false_eq_true, if_false])
    exact changed.imp fun t h => ⟨h.1, h.2.1, h.2.2.2⟩
  · refine completes_record hs (by rw [exec, execUnpin]) ?_
    simp only [State.setReg_pool, State.cmdGid_setOp, defined, Bool.not_true, Bool.false_eq_true, if_false]
    exact ⟨rfl, State.regsBut_guestResult 0x03 0x00 rfl⟩
  · refine completes_record hs (by rw [exec, execGuestQuery]) ?_
    rw [State.cmdGid_setOp]
    refine ⟨?_, ?_, ?_, fun k hk => ?_⟩
    · simp [State.guestResult, show Obj.guestCmdState ≠ Obj.guestCmdResult by decide, show Obj.guestCmdState ≠ Obj.guestCmdPkey by decide]
      rfl
    · simp [State.guestResult, show Obj.guestCmdPkey ≠ Obj.guestCmdResult by decide]
    · simp [State.guestResult]
    · simp only [List.mem_cons, List.not_mem_nil, or_false, not_or] at hk
      obtain ⟨op, state, pkey, result⟩ := hk
      simp [State.guestResult, op, state, pkey, result]
  · refine completes_managed hs (by rw [exec, execGuestCmdApplied]) ?_
    have now : (s.busy Obj.guestCmdResult && ((s.pool.cmd.kind == 1 && !s.underOld s.pool.cmd.gid s.pool.cmd.dirEpoch) ||
        (s.pool.cmd.kind == 2 && (s.guest s.pool.cmd.gid).key.kstate == 1))) = true := by
      rcases ready with ⟨kind, drained⟩ | ⟨kind, held⟩
      · simp [busy, kind, drained]
      · simp [busy, kind, held]
    simp only [now, if_true]
    refine ⟨by simp [State.guestResult], rfl, fun k hk => ?_⟩
    simp [State.guestResult, List.mem_singleton.not.mp hk]
    rfl

end Sys2Proof.Machine
end

section
namespace Sys2Proof.Machine

open Sys2Proof

/-! ## Folds over keys, where each key changes its own row only -/

/-- A fold over keys brings about what its step at a key does, where the other steps leave what the step starts from, and no step undoes it. -/
theorem foldl_reaches {σ : Type} {op : σ → Nat → σ} {k : Nat} {before after : σ → Prop}
    (other : ∀ s j, j ≠ k → before s → before (op s j)) (step : ∀ s, before s → after (op s k))
    (stays : ∀ s j, after s → after (op s j)) {l : List Nat} (mem : k ∈ l) {s : σ} (h : before s) : after (l.foldl op s) := by
  have done : ∀ (l : List Nat) (u : σ), after u → after (l.foldl op u) := fun l => by
    induction l with
    | nil => exact fun u hu => hu
    | cons j l ih => exact fun u hu => ih _ (stays u j hu)
  induction l generalizing s with
  | nil => cases mem
  | cons j l ih =>
    rcases eq_or_ne j k with rfl | ne
    · exact done l _ (step s h)
    · exact ih (List.mem_of_ne_of_mem ne.symm mem) (other s j ne h)

theorem mem_rows_of_find {α : Type} {t : Tab α} {k : Nat} {v : α} (h : t.find k = some v) : (k, v) ∈ t.rows := by
  have rows : ∀ r : List (Nat × α), findRow k r = some v → (k, v) ∈ r := fun r => by
    induction r with
    | nil => simp [findRow]
    | cons x r ih =>
      simp only [findRow]
      split
      · rintro ⟨⟩
        simp [*]
      · exact fun h => List.mem_cons_of_mem _ (ih h)
  exact rows _ h

/-! ## Requests that end (R280) -/

/-- Requests may have freed their trackers; the others are as before. -/
def ReqsLess (s t : State) : Prop := ∀ k r, t.pool.reqs.find k = some r → s.pool.reqs.find k = some r

theorem ReqsLess.refl (s : State) : ReqsLess s s := fun _ _ h => h

theorem ReqsLess.trans {s t u : State} (h : ReqsLess s t) (k : ReqsLess t u) : ReqsLess s u := fun j r hr => h j r (k j r hr)

theorem ReqsLess.foldl {α : Type} {f : State → α → State} (h : ∀ s x, ReqsLess s (f s x)) (l : List α) (s : State) :
    ReqsLess s (l.foldl f s) := by
  induction l generalizing s with
  | nil => exact ReqsLess.refl s
  | cons x l ih => exact (h s x).trans (ih (f s x))

theorem Moves.reqsLess {ps : List Part} {s t : State} (h : Moves ps s t) (hp : Part.requests ∉ ps) : ReqsLess s t := by
  obtain ⟨reqs, -⟩ := h.same hp
  exact fun k r hr => reqs ▸ hr

theorem State.freeTracker_reqsLess (s : State) (t : Nat) : ReqsLess s (s.freeTracker t) := by
  intro k r h
  simp only [State.freeTracker, State.settleTrk, Tab.find_del] at h
  split at h
  · cases h
  · exact h

theorem State.dropTracker_reqsLess (s : State) (t : Option Nat) : ReqsLess s (s.dropTracker t) := by
  cases t with
  | none => exact ReqsLess.refl s
  | some k => exact State.freeTracker_reqsLess s k

theorem State.originate_reqsLess (s : State) (p : Packet) (tracker : Option Nat) : ReqsLess s (s.originate p tracker) := by
  have numbered := (State.takeSeq_moves s p.dst p.tc).reqsLess (by decide)
  unfold State.originate
  generalize s.takeSeq p.dst p.tc = x at numbered ⊢
  obtain ⟨n, u⟩ := x
  have echoed := numbered.trans ((State.takeEcho_moves u p.dst p.tc).reqsLess (by decide))
  dsimp only
  generalize u.takeEcho p.dst p.tc = y at echoed ⊢
  obtain ⟨ece, v⟩ := y
  dsimp only
  have dropped := echoed.trans (State.dropTracker_reqsLess v tracker)
  split
  · exact dropped.trans ((State.countLink_moves _ _ _ _).reqsLess (by decide))
  · split
    · exact echoed.trans ((State.queueOwn_moves _ _).reqsLess (by decide))
    · exact dropped.trans ((State.countLink_moves _ _ _ _).reqsLess (by decide))

/-- The request at a tracker, if one is left there, only keeps its tracker for its answer. -/
def State.overAt (s : State) (k : Nat) : Prop := ∀ r, s.pool.reqs.find k = some r → r.stage = .answer

theorem ReqsLess.overAt {s t : State} (h : ReqsLess s t) {k : Nat} (a : s.overAt k) : t.overAt k := fun r hr => a r (h k r hr)

/-- A request that ends is set to answer, and no other request changes but by freeing its tracker. -/
theorem State.endReq_overAt {s : State} {t k status : Nat} {data : Bytes} {poi : Bool} (h : k = t ∨ s.overAt k) :
    (s.endReq t status data poi).overAt k := by
  unfold State.endReq
  split
  · rename_i gone
    rcases h with rfl | h
    · intro r hr
      rw [gone] at hr
      cases hr
    · exact h
  · rename_i r found
    dsimp only
    split
    · have freed : (s.freeTracker t).overAt k := by
        intro r' hr'
        simp only [State.freeTracker, State.settleTrk, Tab.find_del] at hr'
        split at hr'
        · cases hr'
        · rename_i ne
          exact h.resolve_left ne r' hr'
      split
      · exact freed
      · exact ((State.dropPkt_moves _ _ _).reqsLess (by decide)).overAt freed
    · refine (State.originate_reqsLess _ _ _).overAt fun r' hr' => ?_
      simp only [State.onReq, Tab.find_upd, found, Option.map_some] at hr'
      split at hr'
      · rw [← Option.some.inj hr']
      · rename_i ne
        exact h.resolve_left ne r' hr'

/-! ## Waybills and streams whose guest could not be made resident (R13) -/

theorem State.wb_of_find {s : State} {k : Nat} {x : Waybill} (h : s.work.wbs.find k = some x) : s.wb k = x := by
  simp [State.wb, Tab.getD, h]

theorem State.noSwapWb_other {s : State} {j k : Nat} (ne : j ≠ k) : (s.noSwapWb j).work.wbs.find k = s.work.wbs.find k := by
  unfold State.noSwapWb State.endWhole State.endEarly
  split
  · simp [State.onWb, ne.symm]
  · split <;> simp [State.onWb, ne.symm]

/-- A waybill that waited to start ends whole with NOT_RESIDENT. -/
theorem State.noSwapWb_unstarted {s : State} {k : Nat} {x : Waybill} (h : s.work.wbs.find k = some x) (st : x.st = 0) :
    ∃ y, (s.noSwapWb k).work.wbs.find k = some y ∧ y.st = 2 ∧ y.early = some 0x06 := by
  simp [State.noSwapWb, State.wb_of_find h, st, State.endWhole, State.endEarly, State.onWb, h]

/-- A waybill that runs fails the rest of its granules. -/
theorem State.noSwapWb_running {s : State} {k : Nat} {x : Waybill} (h : s.work.wbs.find k = some x) (st : x.st = 1) :
    ∃ y, (s.noSwapWb k).work.wbs.find k = some y ∧ y.st = 2 ∧ ∀ c ∈ y.chunks.rows, c.2.st = 3 := by
  refine ⟨x.failRest 0x06, by simp [State.noSwapWb, State.wb_of_find h, st, State.onWb, h], rfl, fun c hc => ?_⟩
  obtain ⟨c', -, rfl⟩ := List.mem_map.mp hc
  rfl

/-- A waybill that has ended is left. -/
theorem State.noSwapWb_ended {s : State} {k : Nat} {x : Waybill} (h : s.work.wbs.find k = some x) (st : x.st = 2) : s.noSwapWb k = s := by
  simp [State.noSwapWb, State.wb_of_find h, st]

/-- What becomes of one of the waybills that waited. -/
theorem State.noSwapWbs {k : Nat} {x : Waybill} {ended : Waybill → Prop}
    (step : ∀ s : State, s.work.wbs.find k = some x → ∃ y, (s.noSwapWb k).work.wbs.find k = some y ∧ y.st = 2 ∧ ended y)
    {l : List Nat} (mem : k ∈ l) {s : State} (h : s.work.wbs.find k = some x) :
    ∃ y, (l.foldl (fun s k => s.noSwapWb k) s).work.wbs.find k = some y ∧ y.st = 2 ∧ ended y := by
  refine foldl_reaches (op := fun (s : State) k => s.noSwapWb k) (before := fun s => s.work.wbs.find k = some x)
    (after := fun s => ∃ y, s.work.wbs.find k = some y ∧ y.st = 2 ∧ ended y) ?_ step ?_ mem h
  · exact fun u j ne hu => (State.noSwapWb_other ne).trans hu
  · rintro u j ⟨y, hy, st, he⟩
    rcases eq_or_ne j k with rfl | ne
    · exact ⟨y, by rw [State.noSwapWb_ended hy st]; exact hy, st, he⟩
    · exact ⟨y, (State.noSwapWb_other ne).trans hy, st, he⟩

/-- A stream in no ERROR enters it; no other stream changes. -/
theorem State.streamError_fresh {s : State} {j status : Nat} {t : Stream} (found : s.work.streams.find j = some t) (fresh : t.err = none) :
    (s.streamError j status).work.streams = s.work.streams.put j { t with err := some (t.seq, status), held := none } := by
  unfold State.streamError
  simp only [found, fresh, Option.isSome_none, Bool.false_eq_true, if_false]
  exact ((State.irqEdge_moves _ _).same (p := .streams) (by decide)).1.trans
    ((State.originate_moves _ _ _).same (p := .streams) (by decide)).1

theorem State.streamError_reqsLess (s : State) (k status : Nat) : ReqsLess s (s.streamError k status) := by
  unfold State.streamError
  split
  · exact ReqsLess.refl s
  split
  · exact ReqsLess.refl s
  refine ReqsLess.trans ?_ ((State.irqEdge_moves _ _).reqsLess (by decide))
  refine ReqsLess.trans ?_ (State.originate_reqsLess _ _ _)
  exact fun k r h => h

theorem State.streamError_again {s : State} {j status : Nat} {t : Stream} (found : s.work.streams.find j = some t)
    (err : t.err.isSome = true) : s.streamError j status = s := by
  simp [State.streamError, found, err]

theorem State.streamError_other {s : State} {j k status : Nat} (ne : j ≠ k) :
    (s.streamError j status).work.streams.find k = s.work.streams.find k := by
  cases found : s.work.streams.find j with
  | none => simp [State.streamError, found]
  | some t =>
    cases err : t.err with
    | none => rw [State.streamError_fresh found err, Tab.find_put_ne _ _ ne.symm]
    | some e => rw [State.streamError_again found (by simp [err])]

/-- What becomes of one of the streams whose fetch waited. -/
theorem State.streamErrors {k status : Nat} {x : Stream} (fresh : x.err = none) {l : List Nat} (mem : k ∈ l) {s : State}
    (h : s.work.streams.find k = some x) :
    ∃ y, (l.foldl (fun s k => s.streamError k status) s).work.streams.find k = some y ∧ y.err = some (x.seq, status) := by
  refine foldl_reaches (op := fun (s : State) k => s.streamError k status) (before := fun s => s.work.streams.find k = some x)
    (after := fun s => ∃ y, s.work.streams.find k = some y ∧ y.err = some (x.seq, status)) ?_ ?_ ?_ mem h
  · exact fun u j ne hu => (State.streamError_other ne).trans hu
  · exact fun u hu => ⟨_, by rw [State.streamError_fresh hu fresh, Tab.find_put_self], rfl⟩
  · rintro u j ⟨y, hy, he⟩
    rcases eq_or_ne j k with rfl | ne
    · exact ⟨y, by rwa [State.streamError_again hy (by simp [he])], he⟩
    · exact ⟨y, (State.streamError_other ne).trans hy, he⟩

/-! ## A PIN that waits for the swap (R15) -/

/-- The PIN waits for this guest. -/
def State.pinWaits (s : State) (gid : Nat) : Prop := s.pool.cmd.kind = 3 ∧ s.pool.cmd.gid = gid

theorem State.endPin_given_up {s : State} {gid : Nat} (h : s.pinWaits gid) :
    (s.endPin gid false).pool.cmd.kind = 0 ∧ (s.endPin gid false).reg Obj.guestCmdResult = 0x08 := by
  obtain ⟨kind, hg⟩ := h
  simp [State.endPin, kind, hg, State.guestResult]

/-- A guest that becomes resident is pinned where the limit leaves room. -/
theorem State.endPin_done {s : State} {gid : Nat} (h : s.pinWaits gid) (defined : s.pool.guests.has gid = true) :
    (s.endPin gid true).pool.cmd.kind = 0 ∧
      (((s.endPin gid true).reg Obj.guestCmdResult = 0x00 ∧ ((s.endPin gid true).guest gid).pinned = true) ∨
        (s.endPin gid true).reg Obj.guestCmdResult = 0x04) := by
  obtain ⟨kind, hg⟩ := h
  have found := State.find_guest defined
  unfold State.endPin
  simp only [kind, hg, beq_self_eq_true, Bool.and_self, if_true, Bool.not_true, Bool.false_eq_true, if_false]
  split
  · exact ⟨rfl, .inl ⟨by simp [State.guestResult], by simp [State.guest, State.guestResult, State.onGuest, Tab.getD_upd_of_find _ _ _ _ found]⟩⟩
  · exact ⟨rfl, .inr (by simp [State.guestResult])⟩

/-- The end of a PIN leaves the swaps, and its guest resident as it was. -/
theorem State.endPin_keeps (s : State) (gid : Nat) (done : Bool) :
    (s.endPin gid done).pool.swaps = s.pool.swaps ∧
      ∀ g, s.pool.guests.find gid = some g → ((s.endPin gid done).guest gid).resident = g.resident := by
  unfold State.endPin
  dsimp only
  split
  · split
    · exact ⟨rfl, fun g found => congrArg Guest.resident (State.guest_of_find found)⟩
    · split
      · exact ⟨rfl, fun g found => by simp [State.guest, State.guestResult, State.onGuest, Tab.getD_upd_of_find _ _ _ _ found]⟩
      · exact ⟨rfl, fun g found => congrArg Guest.resident (State.guest_of_find found)⟩
  · exact ⟨rfl, fun g found => congrArg Guest.resident (State.guest_of_find found)⟩

/-! ## The end of a swap, and the search for a victim (R11 to R13) -/

theorem State.swapOf_mem {s : State} {gid : Nat} {w : Swap} (h : s.swapOf gid = some w) : w ∈ s.pool.swaps ∧ w.gid = gid :=
  ⟨List.mem_of_find?_eq_some h, by simpa using List.find?_some h⟩

/-- The guest's entry is installed (R12). -/
def State.install (s : State) (gid : Nat) : State :=
  (((s.endSwap gid).onGuest gid fun g => { g with resident := true }).touchGuest gid).checkEntry gid

theorem State.install_resident {s : State} {gid : Nat} (defined : s.pool.guests.has gid = true) :
    (s.install gid).pool.swaps = s.pool.swaps.filter (fun x => x.gid != gid) ∧ (s.install gid).pool.cmd = s.pool.cmd ∧
      ∃ g, (s.install gid).pool.guests.find gid = some g ∧ g.resident = true := by
  have found := State.find_guest defined
  have installed : (((s.endSwap gid).onGuest gid fun g => { g with resident := true }).touchGuest gid).pool.guests.find gid =
      some { s.guest gid with resident := true, used := s.pool.stamp + 1 } := by
    simp [State.touchGuest, State.onGuest, State.endSwap, found]
  obtain ⟨swaps, -, -, guests⟩ := State.checkEntry_fatalOnly (((s.endSwap gid).onGuest gid fun g => { g with resident := true }).touchGuest gid) gid
  obtain ⟨cmd, -⟩ := (State.checkEntry_moves (((s.endSwap gid).onGuest gid fun g => { g with resident := true }).touchGuest gid) gid).same
    (p := .guestCmd) (by decide)
  have like := guests gid
  rw [installed] at like
  obtain ⟨g, hg, same⟩ := Option.map_eq_some_iff.mp like
  exact ⟨swaps, cmd, g, hg, (congrArg Guest.resident same :)⟩

theorem guestSwapDone_completes {s : State} {gid : Fin 1048576} {w : Swap} (hs : s.running = true) (swap : s.swapOf gid.val = some w)
    (slot : w.slot = true) (defined : s.pool.guests.has gid.val = true) :
    Completes (.guestSwapDone gid) s fun t => ∃ m : State,
      m.pool.swaps = s.pool.swaps.filter (fun x => x.gid != gid.val) ∧ (m.guest gid.val).resident = true ∧
        (s.pool.cmd.kind = 3 ∧ s.pool.cmd.gid = gid.val → m.pool.cmd.kind = 0 ∧
          ((m.reg Obj.guestCmdResult = 0x00 ∧ (m.guest gid.val).pinned = true) ∨ m.reg Obj.guestCmdResult = 0x04)) ∧
        t = m.resume fun r => r.stage == .swap && r.gid == gid.val := by
  refine completes_live hs (by rfl) ?_
  have still : ((s.endSwap gid.val).onGuest gid.val fun g => { g with resident := true }).pool.guests.has gid.val = true :=
    (Tab.has_upd _ _ _ _).trans defined
  simp only [swap, slot, Bool.not_true, Bool.false_eq_true, if_false, still, if_true]
  obtain ⟨swaps, cmd, g, found, resident⟩ := State.install_resident defined
  obtain ⟨kept, keeps⟩ := (s.install gid.val).endPin_keeps gid.val true
  refine ⟨(s.install gid.val).endPin gid.val true, kept.trans swaps, (keeps g found).trans resident, fun pin => ?_, rfl⟩
  exact State.endPin_done (by rwa [State.pinWaits, cmd]) (Tab.has_of_find found)

theorem guestSwapGivenUp_completes {s : State} {gid : Fin 1048576} {w : Swap} (hs : s.running = true) (swap : s.swapOf gid.val = some w)
    (slot : w.slot = false) (full : s.slotFree = false) (victim : s.swapVictim = none) :
    Completes (.guestSwapHoldExpiry gid) s fun t =>
      t.pool.swaps = s.pool.swaps.filter (fun x => x.gid != gid.val) ∧
        (∀ (k : Nat) (r : Req), s.pool.reqs.find k = some r → r.stage = .swap → r.gid = gid.val →
          ∀ r' : Req, t.pool.reqs.find k = some r' → r'.stage = .answer) ∧
        (∀ k ∈ w.wbs, ∀ x : Waybill, s.work.wbs.find k = some x → x.st = 0 →
          ∃ y : Waybill, t.work.wbs.find k = some y ∧ y.st = 2 ∧ y.early = some 0x06) ∧
        (∀ k ∈ w.wbs, ∀ x : Waybill, s.work.wbs.find k = some x → x.st = 1 →
          ∃ y : Waybill, t.work.wbs.find k = some y ∧ y.st = 2 ∧ ∀ c ∈ y.chunks.rows, c.2.st = 3) ∧
        (∀ k ∈ w.fetches, ∀ x : Stream, s.work.streams.find k = some x → x.err = none →
          ∃ y : Stream, t.work.streams.find k = some y ∧ y.err = some (x.seq, 0x06)) ∧
        (s.pool.cmd.kind = 3 ∧ s.pool.cmd.gid = gid.val → t.pool.cmd.kind = 0 ∧ t.reg Obj.guestCmdResult = 0x08) := by
  refine completes_live hs (by rfl) ?_
  simp only [swap, slot, full, victim, Option.isSome_none, Bool.or_self, Bool.false_eq_true, if_false]
  generalize hbegun : (s.endSwap gid.val).countLedger 0x5013 2 = begun
  have pool : begun.pool = (s.endSwap gid.val).pool := by rw [← hbegun, State.countLedger_pool]
  have work : begun.work = s.work := by rw [← hbegun, State.countLedger_work]; rfl
  generalize hts : (begun.pool.reqs.rows.filter _).map _ = waiting
  have ended := Moves.foldl (l := waiting) (f := fun (u : State) t => u.endReq t 0x06 [] false)
    (fun v t => State.endReq_moves v t 0x06 [] false) (Moves.refl _ begun)
  have spent : ∀ k ∈ waiting, (waiting.foldl (fun (u : State) t => u.endReq t 0x06 [] false) begun).overAt k := fun k mem =>
    foldl_reaches (op := fun (u : State) t => u.endReq t 0x06 [] false) (before := fun _ => True) (after := fun u => u.overAt k)
      (fun _ _ _ _ => trivial) (fun _ _ => State.endReq_overAt (.inl rfl)) (fun _ _ h => State.endReq_overAt (.inr h)) mem trivial
  generalize waiting.foldl (fun (u : State) t => u.endReq t 0x06 [] false) begun = answered at ended spent ⊢
  have wbs0 : answered.work.wbs = s.work.wbs := (ended.same (p := .waybills) (by decide)).1.trans (by rw [work])
  have streams0 : answered.work.streams = s.work.streams := (ended.same (p := .streams) (by decide)).1.trans (by rw [work])
  have failed := Moves.foldl (l := w.wbs) (f := fun (u : State) k => u.noSwapWb k) (fun v k => State.noSwapWb_moves v k) (Moves.refl _ answered)
  have unstarted := fun (k : Nat) (mem : k ∈ w.wbs) (x : Waybill) (h : s.work.wbs.find k = some x) (st : x.st = 0) =>
    State.noSwapWbs (fun v hv => State.noSwapWb_unstarted hv st) mem (s := answered) (by rwa [wbs0])
  have running := fun (k : Nat) (mem : k ∈ w.wbs) (x : Waybill) (h : s.work.wbs.find k = some x) (st : x.st = 1) =>
    State.noSwapWbs (fun v hv => State.noSwapWb_running hv st) mem (s := answered) (by rwa [wbs0])
  generalize w.wbs.foldl (fun (u : State) k => u.noSwapWb k) answered = u at failed unstarted running ⊢
  have errors := Moves.foldl (l := w.fetches) (f := fun (u : State) k => u.streamError k 0x06) (fun v k => State.streamError_moves v k 0x06)
    (Moves.refl _ u)
  have less := ReqsLess.foldl (fun v k => State.streamError_reqsLess v k 0x06) w.fetches u
  have streams := fun (k : Nat) (mem : k ∈ w.fetches) (x : Stream) (h : s.work.streams.find k = some x) (fresh : x.err = none) =>
    State.streamErrors (status := 0x06) fresh mem (s := u) (by rwa [(failed.same (p := .streams) (by decide)).1, streams0])
  generalize w.fetches.foldl (fun (u : State) k => u.streamError k 0x06) u = v at errors less streams ⊢
  have pins := State.endPin_moves v gid.val false
  obtain ⟨swaps, -⟩ := v.endPin_keeps gid.val false
  refine ⟨?_, fun k r hr stage hg => ?_, fun k mem x hx st => ?_, fun k mem x hx st => ?_, fun k mem x hx fresh => ?_, fun pin => ?_⟩
  · rw [swaps, (errors.same (p := .guests) (by decide)).2.2.2, (failed.same (p := .guests) (by decide)).2.2.2,
      (ended.same (p := .guests) (by decide)).2.2.2, pool]
    rfl
  · have mem : k ∈ waiting := by
      rw [← hts, pool]
      exact List.mem_map.mpr ⟨(k, r), List.mem_filter.mpr ⟨mem_rows_of_find hr, by simp [stage, hg]⟩, rfl⟩
    exact ((pins.reqsLess (by decide)).overAt (less.overAt ((failed.reqsLess (by decide)).overAt (spent k mem))))
  · obtain ⟨y, hy, done⟩ := unstarted k mem x hx st
    exact ⟨y, by rwa [(pins.same (p := .waybills) (by decide)).1, (errors.same (p := .waybills) (by decide)).1], done⟩
  · obtain ⟨y, hy, done⟩ := running k mem x hx st
    exact ⟨y, by rwa [(pins.same (p := .waybills) (by decide)).1, (errors.same (p := .waybills) (by decide)).1], done⟩
  · obtain ⟨y, hy, done⟩ := streams k mem x hx fresh
    exact ⟨y, by rwa [(pins.same (p := .streams) (by decide)).1], done⟩
  · refine State.endPin_given_up ?_
    have cmd : v.pool.cmd = s.pool.cmd := by
      rw [(errors.same (p := .guestCmd) (by decide)).1, (failed.same (p := .guestCmd) (by decide)).1,
        (ended.same (p := .guestCmd) (by decide)).1, pool]
      rfl
    rwa [State.pinWaits, cmd]

/-- A swap that looks for a victim takes a slot where one is there. -/
theorem swapSlot_takes {s : State} {w : Swap} (mem : w ∈ s.pool.swaps) (slot : w.slot = false)
    (room : s.slotFree = true ∨ s.swapVictim.isSome = true) :
    (s.swapSlot w).pool.swaps.map (·.gid) = s.pool.swaps.map (·.gid) ∧
      ∃ x ∈ (s.swapSlot w).pool.swaps, x.gid = w.gid ∧ x.slot = true :=
  ⟨State.swapSlot_gids s w, { w with slot := true }, by rw [State.swapSlot_swaps slot room]; exact mem_slotted mem rfl, rfl, rfl⟩

/-- The turn of a swap among those that look for a victim. -/
def State.swapTurn (s : State) (w : Swap) : State := match s.swapOf w.gid with | some w => s.swapSlot w | none => s

theorem State.swapTurn_gids (s : State) (w : Swap) : (s.swapTurn w).pool.swaps.map (·.gid) = s.pool.swaps.map (·.gid) := by
  unfold State.swapTurn
  split
  · exact State.swapSlot_gids _ _
  · rfl

theorem State.swapTurn_keeps {s : State} {gid : Nat} (w : Swap) (h : ∃ x ∈ s.pool.swaps, x.gid = gid ∧ x.slot = true) :
    ∃ x ∈ (s.swapTurn w).pool.swaps, x.gid = gid ∧ x.slot = true := by
  unfold State.swapTurn
  split
  · rename_i w' _
    rcases s.swapSlot_swaps_cases w' with same | takes
    · rwa [same]
    · rw [takes]; exact slotted_keeps h
  · exact h

theorem swapTurns_keep {gid : Nat} (ws : List Swap) {s : State} (h : ∃ x ∈ s.pool.swaps, x.gid = gid ∧ x.slot = true) :
    (ws.foldl State.swapTurn s).pool.swaps.map (·.gid) = s.pool.swaps.map (·.gid) ∧
      ∃ x ∈ (ws.foldl State.swapTurn s).pool.swaps, x.gid = gid ∧ x.slot = true := by
  induction ws generalizing s with
  | nil => exact ⟨rfl, h⟩
  | cons w ws ih =>
    obtain ⟨gids, slot⟩ := ih (State.swapTurn_keeps w h)
    exact ⟨gids.trans (State.swapTurn_gids s w), slot⟩

/-- Settles O3: a swap that ends, that is given up, and that looks for a victim. -/
theorem guestSwapsComplete : Obligations.GuestSwapsComplete := by
  unfold Obligations.GuestSwapsComplete
  refine ⟨fun s gid w hs swap slot defined => guestSwapDone_completes hs swap slot defined,
    fun s gid w hs swap slot full victim => guestSwapGivenUp_completes hs swap slot full victim,
    fun s gid w hs swap slot room => ?_, fun s w ws hs swaps slot room => ?_⟩
  · refine completes_live hs (by rfl) ?_
    have room' : (s.slotFree || s.swapVictim.isSome) = true := by simpa using room
    simp only [swap, slot, room', Bool.false_eq_true, if_false, if_true]
    obtain ⟨mem, hg⟩ := State.swapOf_mem swap
    rw [← hg]
    exact swapSlot_takes mem slot room
  · refine completes_live hs (by rfl) ?_
    have first : s.swapTurn w = s.swapSlot w := by simp [State.swapTurn, State.swapOf, swaps]
    obtain ⟨gids, taken⟩ := swapSlot_takes (by simp [swaps]) slot room
    obtain ⟨gids', slot'⟩ := swapTurns_keep ws (s := s.swapTurn w) (by rwa [first])
    rw [swaps] at gids ⊢
    exact ⟨gids'.trans (by rw [first]; exact gids), slot'⟩

end Sys2Proof.Machine
end

section
namespace Sys2Proof.Machine

open Sys2Proof

/-! ## Trackers (R73 to R75) -/

theorem not_has_of_freeFrom {α : Type} {t : Tab α} {n k i : Nat} (h : freeFrom t i n = some k) : t.has k = false := by
  induction n generalizing i with
  | zero => cases h
  | succ n ih =>
    simp only [freeFrom] at h
    split at h
    · exact ih h
    · rename_i free
      rw [← Option.some.inj h]; simpa using free

theorem Tab.not_has_of_lowestFree {α : Type} {t : Tab α} {n k : Nat} (h : t.lowestFree n = some k) : t.has k = false :=
  not_has_of_freeFrom h

/-- A request as its tracker holds it from the start. -/
def State.tracked (s : State) (pool : Nat) (r : Req) : Req :=
  { r with pool := pool, since := s.now, dirEpoch := s.pool.dirEpoch, dir := (s.guest r.gid).dir }

theorem State.putReq_reqs (s : State) (t k : Nat) (r : Req) : (s.putReq t k r).pool.reqs = s.pool.reqs.put t (s.tracked k r) := by
  unfold State.putReq
  dsimp only
  split <;> simp [State.settleTrk, State.tracked]

theorem State.putReq_claims (s : State) (t k : Nat) (r : Req) : (s.putReq t k r).pool.claims = s.pool.claims := by
  unfold State.putReq
  dsimp only
  split <;> simp [State.settleTrk]

theorem State.unclaim_pool (s : State) (c : Claim) : (s.unclaim c).pool = s.pool := by
  unfold State.unclaim
  split <;> rfl

/-- A request takes the lowest free tracker where its class has a pool with one. -/
theorem State.takeTracker_of_free {s : State} {r : Req} {p k : Nat} (hp : s.trackerPool r.p.tc = some p)
    (hk : s.pool.reqs.lowestFree trackerCount = some k) : s.takeTracker r = some (k, s.putReq k p r) := by
  simp [State.takeTracker, hp, hk]

/-- A claim that the pointer favours takes a tracker, leaves the claims and goes on (R75). -/
theorem trackerGrant_completes {s : State} {c : Claim} (hs : s.running = true) (fav : favoured75 s.ready75 s.pool.trkPtr = some c)
    (hp : (s.trackerPool c.p.tc).isSome = true) (hk : (s.pool.reqs.lowestFree trackerCount).isSome = true) :
    Completes .trackerGrant s fun t => ∃ (m : State) (k : Nat) (r : Req), s.pool.reqs.has k = false ∧
      m.pool.reqs = s.pool.reqs.put k r ∧ r.p = c.p ∧ m.pool.claims = s.pool.claims.erase c ∧ t = m.begin k c := by
  obtain ⟨p, hp⟩ := Option.isSome_iff_exists.mp hp
  obtain ⟨k, hk⟩ := Option.isSome_iff_exists.mp hk
  have taken : State.takeTracker { s with pool := { s.pool with claims := s.pool.claims.erase c } } c.req =
      some (k, State.putReq { s with pool := { s.pool with claims := s.pool.claims.erase c } } k p c.req) :=
    State.takeTracker_of_free hp hk
  have reqs := State.putReq_reqs { s with pool := { s.pool with claims := s.pool.claims.erase c } } k p c.req
  have claims := State.putReq_claims { s with pool := { s.pool with claims := s.pool.claims.erase c } } k p c.req
  refine completes_live hs (by rfl) ?_
  simp only [fav, taken]
  generalize State.putReq _ k p c.req = s1 at reqs claims ⊢
  refine ⟨_, k, s.tracked p c.req, Tab.not_has_of_lowestFree hk, ?_, rfl, ?_, rfl⟩
  · rw [State.unclaim_pool]
    split <;> simp only [State.countN_pool, reqs] <;> rfl
  · rw [State.unclaim_pool]
    split <;> simp only [State.countN_pool, claims]

/-! ## Zero fills and LRC fills (R32, R37) -/

theorem State.putEntry_leaves (s : State) (gid level pva v : Nat) : (s.putEntry gid level pva v).trans.leaves = s.trans.leaves :=
  ((State.putEntry_moves s gid level pva v).same (p := .tables) (by decide)).1

theorem State.fqAdd_leaves (s : State) (r : FqRec) : (s.fqAdd r).trans.leaves = s.trans.leaves :=
  ((State.fqAdd_moves s r).same (p := .tables) (by decide)).1

/-- The leaf of a filled page is no zero page any more. -/
theorem State.clearZm_leaves (s : State) (f : ZFill) :
    ∀ l ∈ (s.clearZm f).trans.leaves, l.gid = f.gid → l.pva = f.pva → l.level = f.level → l.pa = f.pa → l.zm = false := by
  intro l hl hg hv hlev hpa
  unfold State.clearZm at hl
  dsimp only at hl
  split at hl
  · rename_i none
    simpa [hg, hv, hlev, hpa] using List.find?_eq_none.mp none l hl
  · rw [State.fqAdd_leaves, State.putEntry_leaves] at hl
    obtain ⟨x, -, rfl⟩ := List.mem_map.mp hl
    split
    · rename_i l' found _
      rfl
    · rename_i kept
      simp only [kept, if_false, Bool.false_eq_true] at hg hv hlev hpa
      simpa [hg, hv, hlev, hpa] using kept

/-- Settles O20: a tracker's grant, a zero fill's end and an LRC fill's end each do one thing and let what waited go on. -/
theorem waitingWorkGoesOn : Obligations.WaitingWorkGoesOn := by
  unfold Obligations.WaitingWorkGoesOn
  refine ⟨fun s c hs fav hp hk => trackerGrant_completes hs fav hp hk, fun s gid pva f hs hf => ?_, fun s line l g d dead hs hf => ?_⟩
  · refine completes_live hs (by rfl) ?_
    simp only [hf]
    refine ⟨_, ?_, State.clearZm_leaves _ f, rfl⟩
    have filled := Moves.foldl (l := lineAddrs f.pa f.size) (f := fun (u : State) a => u.putThrough a f.gid (zeroBytes 64))
      (fun v a => State.putThrough_moves v _ _ _) (Moves.refl _ s)
    rw [((State.clearZm_moves _ f).same (p := .lrc) (by decide)).1]
    exact congrArg (List.filter _) (filled.same (p := .lrc) (by decide)).1
  · refine completes_live hs (by rfl) ?_
    simp only [hf]
    cases dead <;> simp

end Sys2Proof.Machine
end

section
namespace Sys2Proof.Machine

open Sys2Proof

/-! ## A packet that passes its port (R270, R283) -/

theorem Moves.pool_same {ps : List Part} {s t : State} (h : Moves ps s t) (hg : Part.guests ∉ ps) (hc : Part.guestCmd ∉ ps)
    (hr : Part.requests ∉ ps) (hs : Part.set ∉ ps) (hl : Part.lrc ∉ ps) : t.pool = s.pool := by
  obtain ⟨guests, oldDirs, stamp, swaps⟩ := h.same hg
  obtain ⟨cmd, dirEpoch⟩ := h.same hc
  obtain ⟨reqs, claims, ptr, trk2, trk3⟩ := h.same hr
  obtain ⟨setState, devid, members, manager, nonce, heard, intruders⟩ := h.same hs
  obtain ⟨fills, lrc, lrcFills⟩ := h.same hl
  cases _ : s.pool
  cases _ : t.pool
  simp_all

theorem Moves.work_same {ps : List Part} {s t : State} (h : Moves ps s t) (hs : Part.streams ∉ ps) (hw : Part.waybills ∉ ps)
    (hc : Part.contexts ∉ ps) (ht : Part.tallies ∉ ps) (hl : Part.layouts ∉ ps) : t.work = s.work := by
  obtain ⟨streams, stamp, bells, discarded⟩ := h.same hs
  obtain ⟨wbs, clusters, locks⟩ := h.same hw
  obtain ⟨ctxs, stage⟩ := h.same hc
  have tallies : t.work.tallies = s.work.tallies := h.same ht
  have layouts : t.work.layouts = s.work.layouts := h.same hl
  cases _ : s.work
  cases _ : t.work
  simp_all

theorem Moves.trans_same {ps : List Part} {s t : State} (h : Moves ps s t) (ht : Part.tables ∉ ps) (hb : Part.tlbs ∉ ps)
    (hc : Part.commit ∉ ps) (hf : Part.faults ∉ ps) : t.trans = s.trans := by
  obtain ⟨leaves, tables, heap, epoch⟩ := h.same ht
  obtain ⟨cache, tlbs⟩ := h.same hb
  obtain ⟨faults, next, fq, tail⟩ := h.same hf
  have commit : t.trans.commit = s.trans.commit := h.same hc
  cases _ : s.trans
  cases _ : t.trans
  simp_all

/-- What a packet's passage through its port leaves. -/
structure Passed (s u : State) : Prop where
  moves : Moves portOnly s u
  pool : u.pool = s.pool
  work : u.work = s.work
  regs : u.regs = s.regs

theorem Moves.passed {s u : State} (h : Moves portOnly s u) : Passed s u where
  moves := h
  pool := h.pool_same (by decide) (by decide) (by decide) (by decide) (by decide)
  work := h.work_same (by decide) (by decide) (by decide) (by decide) (by decide)
  regs := h.same (p := .regs) (by decide)

theorem State.inForce_congr {s t : State} (h : t.forced = s.forced) (k : Nat) : t.inForce k = s.inForce k := by
  simp [State.inForce, h]

theorem State.epid_congr {s t : State} (h : t.forced = s.forced) : t.epid = s.epid := by
  simp only [State.epid, State.inForce_congr h]

theorem State.formOk_congr {s t : State} (h : t.forced = s.forced) (p : Packet) : t.formOk p = s.formOk p := by
  simp only [State.formOk, State.epid_congr h]

theorem State.keyOk_congr {s t : State} (hr : t.regs = s.regs) (hk : t.fabric.keySets = s.fabric.keySets) (l : Nat) (p : Packet) :
    t.keyOk l p = s.keyOk l p := by
  unfold State.keyOk State.flag State.keySet
  rw [State.reg_congr hr, hk]

theorem State.dedup_congr {s t : State} (h : t.fabric.dedup = s.fabric.dedup) (l : Nat) (p : Packet) : (t.dedup l p).1 = (s.dedup l p).1 := by
  simp only [State.dedup, h]
  split <;> rfl

/-- A packet taken from its port to be checked, and what its checks read. -/
theorem State.taken_at_port {s a : State} {l : Nat} {p : Packet} (h : s.atPort l p = some a) :
    Moves [.links, .counters, .samples, .irqPending] s (a.takeReleased l p) :=
  (State.atPort_moves h).trans ((State.takeReleased_moves a l p).mono (by decide))

/-- A packet that is present is checked. -/
theorem State.receive_port {s : State} {l : Nat} {p : Packet} (m : Option SetMsg) (awake : s.power.st = 0) (present : (s.atPort l p).isSome = true) :
    ∃ a, Moves [.links, .counters, .samples, .irqPending] s a ∧ s.receive l p m = a.port l p m := by
  obtain ⟨a, ha⟩ := Option.isSome_iff_exists.mp present
  have st : a.power.st = 0 := ((State.atPort_moves ha).same (p := .night) (by decide)).1.trans awake
  exact ⟨a.takeReleased l p, State.taken_at_port ha, by simp [State.receive, ha, State.waits495, st]⟩

/-- A packet for this device that passes its port is delivered. -/
theorem State.receive_of_passes {s : State} {l : Nat} {p : Packet} (m : Option SetMsg) (h : s.passes l p) :
    ∃ u, Passed s u ∧ s.receive l p m = u.deliver l p m := by
  obtain ⟨-, awake, present, form, key, dst, unicast, fresh⟩ := h
  obtain ⟨a, moved, received⟩ := State.receive_port m awake present
  have forced : a.forced = s.forced := moved.same (p := .forced) (by decide)
  have regs : a.regs = s.regs := moved.same (p := .regs) (by decide)
  obtain ⟨-, -, -, -, -, -, -, -, -, keys, -⟩ := moved.same (p := .routes) (by decide)
  obtain ⟨dedup, -⟩ := moved.same (p := .peers) (by decide)
  have form' : a.formOk p = true := (State.formOk_congr forced p).trans form
  have key' : a.keyOk l p = true := (State.keyOk_congr regs keys l p).trans key
  have dst' : p.dst = a.epid := dst.trans (State.epid_congr forced).symm
  have fresh' : (a.dedup l p).1 = true := (State.dedup_congr dedup l p).trans fresh
  refine ⟨(a.dedup l p).2.takeMarks l p, Moves.passed ?_, ?_⟩
  · exact (moved.mono (by decide)).trans (((State.dedup_moves a l p).mono (by decide)).trans ((State.takeMarks_moves _ l p).mono (by decide)))
  · rw [received, State.port]
    simp [form', key', unicast, ← dst', fresh']

/-- A broadcast that is new here is claimed, once its copies have left. -/
theorem State.receive_of_hears {s : State} {l : Nat} {p : Packet} (m : Option SetMsg) (h : s.hears l p) :
    ∃ u pooled, Passed s u ∧ s.receive l p m = u.claim { link := l, p := p, gid := noGid, msg := m, pooled := pooled } := by
  obtain ⟨-, awake, present, form, key, dst, new⟩ := h
  obtain ⟨a, moved, received⟩ := State.receive_port m awake present
  have forced : a.forced = s.forced := moved.same (p := .forced) (by decide)
  have regs : a.regs = s.regs := moved.same (p := .regs) (by decide)
  obtain ⟨-, -, -, -, -, -, -, -, -, keys, -⟩ := moved.same (p := .routes) (by decide)
  obtain ⟨-, -, bcast, -⟩ := moved.same (p := .peers) (by decide)
  have form' : a.formOk p = true := (State.formOk_congr forced p).trans form
  have key' : a.keyOk l p = true := (State.keyOk_congr regs keys l p).trans key
  have new' : a.newBcast p = true := by
    rw [← new]
    simp only [State.newBcast, State.bcastOf, State.epid_congr forced, bcast]
  rw [received, State.port]
  simp only [form', key', dst, Bool.not_true, Bool.false_eq_true, if_false, beq_self_eq_true, if_true, State.bcast, new', Bool.false_and]
  refine ⟨_, _, Moves.passed ?_, rfl⟩
  refine (moved.mono (by decide)).trans (Moves.trans ?_ ((State.sendCopies_moves _ _ _ _ _).mono (by decide)))
  have noted : Moves portOnly a (a.noteBcast l p) := (State.noteBcast_moves a l p).mono (by decide)
  split
  · exact noted.trans ((State.dropPkt_moves _ _ _).mono (by decide))
  · exact noted

/-! ## A request that finds a tracker (R67, R74, R75) -/

theorem State.bellsFull_congr {s t : State} (h : t.work = s.work) : t.bellsFull = s.bellsFull := by simp only [State.bellsFull, h]

theorem State.poolFree_congr {s t : State} (hp : t.pool = s.pool) (hr : t.regs = s.regs) (k : Nat) : t.poolFree k = s.poolFree k := by
  simp only [State.poolFree, State.trkSizes, State.poolUsed, hp, State.reg_congr hr]

theorem State.trackerPool_congr {s t : State} (hp : t.pool = s.pool) (hr : t.regs = s.regs) (tc : Nat) : t.trackerPool tc = s.trackerPool tc := by
  simp only [State.trackerPool, State.poolFree_congr hp hr]

theorem State.lastTracker_congr {s t : State} (hp : t.pool = s.pool) (hr : t.regs = s.regs) (tc : Nat) : t.lastTracker tc = s.lastTracker tc := by
  simp only [State.lastTracker, State.trackerPool_congr hp hr, State.poolFree_congr hp hr]

theorem State.ready75_congr {s t : State} (hp : t.pool = s.pool) (hw : t.work = s.work) (hr : t.regs = s.regs) : t.ready75 = s.ready75 := by
  have grant : t.mayGrant = s.mayGrant := funext fun c => by
    simp only [State.mayGrant, State.bellWaits, State.bellsFull_congr hw, State.trackerPool_congr hp hr]
  simp only [State.ready75, hp, grant]

/-- Whether a request finds a tracker at once is not changed by its passage through the port. -/
theorem State.tracks_of_passed {s u : State} {l : Nat} {p : Packet} (h : s.tracks l p) (passed : Passed s u) : u.tracks l p := by
  simpa only [State.tracks, State.bellsFull_congr passed.work, State.trackerPool_congr passed.pool passed.regs,
    State.lastTracker_congr passed.pool passed.regs, State.ready75_congr passed.pool passed.work passed.regs, passed.pool] using h

/-- A claim that finds a tracker is granted it, and goes on. -/
theorem State.claim_of_tracks {u : State} {c : Claim} (h : u.tracks c.link c.p) :
    ∃ k n, u.pool.reqs.lowestFree trackerCount = some k ∧ u.claim c = ((u.putReq k n c.req).unclaim c).begin k c := by
  obtain ⟨bell, pool, more, free, ready, others⟩ := h
  obtain ⟨n, hn⟩ := Option.isSome_iff_exists.mp pool
  obtain ⟨k, hk⟩ := Option.isSome_iff_exists.mp free
  refine ⟨k, n, hk, ?_⟩
  have may : u.mayGrant c = true := by
    simp only [State.mayGrant, State.bellWaits, pool, Bool.and_true, Bool.not_eq_true', Bool.and_eq_false_iff, beq_eq_false_iff_ne]
    exact (em (c.p.opc = 0x05)).elim (fun h => .inr (bell h)) .inl
  have taken := State.takeTracker_of_free (r := c.req) hn hk
  simp [State.claim, may, more, ready, others, State.grant, taken]

/-- What a request that takes a tracker may change. -/
def trackParts : List Part := [.regs, .links, .egress, .peers, .counters, .samples, .irqPending, .requests]

/-- A request that has passed its port holds a tracker. -/
def State.holds (s : State) (c : Claim) (k : Nat) (m : State) : Prop :=
  Moves trackParts s m ∧ ∃ n, m.pool.reqs.find k = some (s.tracked n c.req)

theorem State.holds_of_putReq {s u : State} (passed : Passed s u) (k n : Nat) (c : Claim) : s.holds c k ((u.putReq k n c.req).unclaim c) := by
  refine ⟨(passed.moves.mono (by decide)).trans
    (((State.putReq_moves u k n c.req).mono (by decide)).trans ((State.unclaim_moves _ c).mono (by decide))), n, ?_⟩
  have now : u.now = s.now := passed.moves.same (p := .timebase) (by decide)
  rw [State.unclaim_pool, State.putReq_reqs, Tab.find_put_self]
  simp only [State.tracked, State.guest, passed.pool, now]

end Sys2Proof.Machine
end

section
namespace Sys2Proof.Machine

open Sys2Proof

/-! ## Memory requests and doorbells (R20, R63, R194, R280) -/

theorem State.guest_congr {s t : State} (h : t.pool.guests = s.pool.guests) (gid : Nat) : t.guest gid = s.guest gid := by
  simp only [State.guest, h]

/-- A use of a guest leaves what the checks read of it. -/
theorem State.touchGuest_guest (s : State) (gid : Nat) :
    ((s.touchGuest gid).guest gid).key = (s.guest gid).key := by
  simp only [State.touchGuest, State.onGuest, State.guest, Tab.getD, Tab.find_upd, if_true]
  cases s.pool.guests.find gid <;> rfl

theorem State.filling_congr {s t : State} (h : t.pool.fills = s.pool.fills) (pa : Nat) : t.filling pa = s.filling pa := by
  simp only [State.filling, h]

theorem State.xlCached_congr {s t : State} (ht : t.trans = s.trans) (hb : t.cellar.tableBase = s.cellar.tableBase) (gid pva : Nat) (write : Bool) :
    t.xlCached gid pva write = s.xlCached gid pva write := by
  simp only [State.xlCached, State.outPage, State.entryOutcome, ht, hb]

/-- A mapped request that is delivered claims a tracker. -/
theorem State.deliver_mapped {u : State} {l g : Nat} {p : Packet} (m : Option SetMsg) (h : mapped p.opc = true)
    (hg : u.gmapLook p.src p.pkey = some g) : u.deliver l p m = u.claim { link := l, p := p, gid := g, gmEpoch := u.fabric.gmapEpoch } := by
  simp [State.deliver, h, hg]

/-- A mapped request that holds a tracker makes its access. -/
theorem State.begin_mapped {u : State} {c : Claim} (k : Nat) (h : c.p.opc ≤ 0x05) : u.begin k c = u.access k := by
  have h30 : c.p.opc ≠ 0x30 := by omega
  have h31 : c.p.opc ≠ 0x31 := by omega
  have h32 : c.p.opc ≠ 0x32 := by omega
  simp [State.begin, h30, h31, h32]

/-- A guest's request passes its port and holds a tracker, and its access begins. -/
theorem State.receive_access {s : State} {l g : Nat} {p : Packet} (m : Option SetMsg) (passes : s.passes l p) (tracks : s.tracks l p)
    (low : 1 ≤ p.opc) (high : p.opc ≤ 5) (hg : s.gmapLook p.src p.pkey = some g) :
    ∃ u c k, c.p = p ∧ c.link = l ∧ c.gid = g ∧ s.holds c k u ∧ s.receive l p m = u.access k := by
  obtain ⟨u, passed, received⟩ := State.receive_of_passes m passes
  have map : u.gmapLook p.src p.pkey = some g := by
    obtain ⟨-, -, -, exact_, wild, -⟩ := passed.moves.same (p := .routes) (by decide)
    rw [← hg]
    simp only [State.gmapLook, exact_, wild]
  have delivered := State.deliver_mapped (l := l) m (by simp [mapped, low, high]) map
  obtain ⟨k, n, -, claimed⟩ := State.claim_of_tracks (c := { link := l, p := p, gid := g, gmEpoch := u.fabric.gmapEpoch })
    (State.tracks_of_passed tracks passed)
  exact ⟨_, _, k, rfl, rfl, rfl, State.holds_of_putReq passed k n _,
    received.trans (delivered.trans (claimed.trans (State.begin_mapped k high)))⟩

section

variable {u : State} {k : Nat} {r : Req} (found : u.pool.reqs.find k = some r) (stage : r.stage = .walk 0) (pas : r.pas = [])
  (win : r.win = none) (check : u.guestCheck r.gid = none) (resident : (u.guest r.gid).resident = true)

include found stage pas win check resident

/-- A doorbell that has a place in its queue, or needs none, frees its tracker and takes effect (R63, R67). -/
theorem State.access_bell (opc : r.p.opc = 0x05) (place : (u.touchGuest r.gid).bellStalls r.gid r.p.addr = false) :
    u.access k = ((u.touchGuest r.gid).freeTracker k).doorbell r := by
  simp [State.access, found, stage, pas, win, check, resident, opc, place]

/-- A request whose checks pass is translated (R20, R194). -/
theorem State.access_checked {w : Window} (opc : r.p.opc ≠ 0x05) (checks : (u.touchGuest r.gid).checks r = (none, some w))
    (key : (u.touchGuest r.gid).keyUnwraps r.gid = true) :
    u.access k = ((u.touchGuest r.gid).onReq k fun _ => { r with win := some w }).translate k { r with win := some w } := by
  simp [State.access, found, stage, pas, win, check, resident, opc, checks, key]

end

/-- The request translated to its ranges. -/
def Req.at (r : Req) (pas : List (Nat × Nat)) (epoch : Nat) : Req := { r with pas := pas, epoch := epoch }

/-- The range of a page that translates. -/
def Page.range (x : Page) : Nat × Nat := (match x.xl with | .ok a => a | _ => 0, x.len)

theorem foldl_of_fixed {α β : Type} {f : α → β → α} {a : α} {l : List β} (h : ∀ x ∈ l, f a x = a) : l.foldl f a = a := by
  induction l with
  | nil => rfl
  | cons x l ih => rw [List.foldl_cons, h x List.mem_cons_self]; exact ih fun y hy => h y (List.mem_cons_of_mem x hy)

/-- A request whose ranges are under no zero fill makes its access. -/
theorem State.settled_of_free {v : State} {k : Nat} {r : Req} (h : ∀ x ∈ r.pas, v.filling x.1 = none) : v.settled k r = v.perform k r := by
  unfold State.settled
  rw [List.findSome?_eq_none_iff.mpr h]

/-- A request whose pages all translate, with no fill on one, makes its access. -/
theorem State.onPages_of_ok {v : State} {k : Nat} {r : Req} {outs : List Page} (h : ∀ x ∈ outs, ∃ a, x.xl = .ok a ∧ v.filling a = none) :
    v.onPages k r outs = (v.onReq k fun _ => r.at (outs.map Page.range) v.trans.epoch).perform k (r.at (outs.map Page.range) v.trans.epoch) := by
  unfold State.onPages
  split
  · rename_i e stops
    obtain ⟨x, hx, hxe⟩ := List.exists_of_findSome?_eq_some stops
    obtain ⟨a, ok, -⟩ := h x hx
    simp [ok] at hxe
  split
  · rename_i l p holds
    obtain ⟨x, hx, hxe⟩ := List.exists_of_findSome?_eq_some holds
    obtain ⟨a, ok, -⟩ := h x hx
    simp [ok] at hxe
  · have ranges : (outs.map fun x => (v.pageAt (writes r.p.opc) x, x.len)) = outs.map Page.range :=
      List.map_congr_left fun x hx => by obtain ⟨a, ok, -⟩ := h x hx; simp only [State.pageAt, Page.range, ok]
    dsimp only
    rw [ranges, foldl_of_fixed fun x hx => by obtain ⟨a, ok, -⟩ := h x hx; simp only [ok]]
    refine State.settled_of_free fun y hy => ?_
    obtain ⟨x, hx, rfl⟩ := List.mem_map.mp hy
    obtain ⟨a, ok, free⟩ := h x hx
    simp only [Page.range, ok]
    exact free

/-- A request with its pages in the cache makes its access (R33, R194). -/
theorem State.translate_cached {u : State} {k : Nat} {r : Req} (h : u.cached r.gid r.p) :
    u.translate k r = (((u.countLedger 0x5011 0).countLedger 0x5011 1).onReq k fun _ => r.at (u.ranges r.gid r.p) u.trans.epoch).perform k
      (r.at (u.ranges r.gid r.p) u.trans.epoch) := by
  unfold State.translate
  generalize houts : ((pieces r.p.addr (reqLen r.p)).map fun x => ({ pva := x.1, len := x.2, xl := u.xlCached r.gid x.1 (writes r.p.opc) } : Page)) = outs
  have ok : ∀ x ∈ outs, ∃ a, x.xl = .ok a ∧ ((u.countLedger 0x5011 0).countLedger 0x5011 1).filling a = none := fun x hx => by
    rw [← houts] at hx
    obtain ⟨y, hy, rfl⟩ := List.mem_map.mp hx
    obtain ⟨a, ok, free⟩ := h y hy
    exact ⟨a, ok, (State.filling_congr (by simp) a).trans free⟩
  have hit : outs.any (fun x => x.xl == .miss) = false := List.any_eq_false.mpr fun x hx => by
    obtain ⟨a, ok, -⟩ := ok x hx
    simp [ok]
  have ranges : outs.map Page.range = u.ranges r.gid r.p := by
    rw [← houts, List.map_map]
    rfl
  simp only [hit, Bool.false_eq_true, if_false]
  rw [State.onPages_of_ok ok, ranges, State.countLedger_trans, State.countLedger_trans]

/-! ### What a request finds when its access begins -/

theorem State.guestCheck_congr {s t : State} (hg : t.pool.guests = s.pool.guests) (hs : t.pool.setState = s.pool.setState) (gid : Nat) :
    t.guestCheck gid = s.guestCheck gid := by
  simp only [State.guestCheck, hg, hs]

theorem State.checks_congr {s t : State} {q r : Req} (hd : t.pool.devid = s.pool.devid) (hp : r.p = q.p) (hdir : r.dir = q.dir) (hgid : r.gid = q.gid)
    (hk : (t.guest q.gid).key = (s.guest q.gid).key) : t.checks r = s.checks q := by
  have window : t.windowCheck = s.windowCheck := by
    funext dir pva len need
    simp only [State.windowCheck, State.homed, hd]
    rfl
  simp only [State.checks, State.keyCheck, window, hp, hdir, hgid, hk]

theorem State.cached_congr {s t : State} {g : Nat} {p : Packet} (ht : t.trans = s.trans) (hb : t.cellar.tableBase = s.cellar.tableBase)
    (hf : t.pool.fills = s.pool.fills) (h : s.cached g p) : t.cached g p := by
  intro x hx
  simpa only [State.xlCached_congr ht hb, State.filling_congr hf] using h x hx

theorem State.ranges_congr {s t : State} {g : Nat} {p : Packet} (ht : t.trans = s.trans) (hb : t.cellar.tableBase = s.cellar.tableBase) :
    t.ranges g p = s.ranges g p := by
  simp only [State.ranges, State.xlCached_congr ht hb]

/-- The request that a claim has become. -/
theorem State.tracked_req {s : State} {c : Claim} {n : Nat} (h : c.p.opc ≤ 5) :
    (s.tracked n c.req).p = c.p ∧ (s.tracked n c.req).link = c.link ∧ (s.tracked n c.req).gid = c.gid ∧
      (s.tracked n c.req).dir = (s.guest c.gid).dir ∧ (s.tracked n c.req).stage = .walk 0 ∧ (s.tracked n c.req).pas = [] ∧
        (s.tracked n c.req).win = none := by
  have low : ¬ 0x30 ≤ c.p.opc := by omega
  exact ⟨rfl, rfl, rfl, rfl, by simp [State.tracked, Claim.req, low], rfl, rfl⟩

/-- A guest that may be served as the request's port saw it is so when the access begins. -/
theorem Moves.guestCheck {s u : State} (h : Moves trackParts s u) (gid : Nat) : u.guestCheck gid = s.guestCheck gid ∧ u.guest gid = s.guest gid := by
  obtain ⟨guests, -⟩ := h.same (p := .guests) (by decide)
  obtain ⟨setState, -⟩ := h.same (p := .set) (by decide)
  exact ⟨State.guestCheck_congr guests setState gid, State.guest_congr guests gid⟩

/-- A request that holds a tracker and is translated by the cache reaches its access. -/
theorem State.translate_reaches {s v : State} {k l g : Nat} {p : Packet} {w : Window} {r : Req} (moved : Moves arrivalParts s v)
    (tracked : v.pool.reqs.has k = true) (hp : r.p = p) (hl : r.link = l) (hg : r.gid = g) (hw : r.win = some w) (cached : s.cached g p) :
    s.reaches l p g w (v.translate k r) := by
  have trans := moved.trans_same (by decide) (by decide) (by decide) (by decide)
  obtain ⟨-, -, -, -, base, -⟩ := moved.same (p := .map) (by decide)
  obtain ⟨fills, -⟩ := moved.same (p := .lrc) (by decide)
  have cached' : v.cached r.gid r.p := by rw [hg, hp]; exact State.cached_congr trans base fills cached
  have looked : Moves arrivalParts v ((v.countLedger 0x5011 0).countLedger 0x5011 1) :=
    ((State.countLedger_moves _ _ _).mono (by decide)).trans ((State.countLedger_moves _ _ _).mono (by decide))
  refine ⟨_, k, r.at (v.ranges r.gid r.p) v.trans.epoch, ?_, ?_, hp, hl, hg, hw, ?_, State.translate_cached cached'⟩
  · exact (moved.trans (looked.trans ((State.onReq_moves _ _ _).mono (by decide)))).frame
  · simp only [State.onReq, State.countLedger_pool, Tab.find_upd, if_true, Tab.find_of_has r tracked, Option.map_some]
  · rw [← hg, ← hp]
    exact State.ranges_congr trans base

/-- A memory request that passes its checks, with its pages in the cache, reaches its access. -/
theorem State.receive_reaches {s : State} {l g : Nat} {p : Packet} {w : Window} (low : 1 ≤ p.opc) (high : p.opc ≤ 4) (h : s.admits l p g w)
    (cached : s.cached g p) : s.reaches l p g w (s.receive l p none) := by
  obtain ⟨passes, tracks, map, check, resident, checks, key⟩ := h
  obtain ⟨u, c, k, rfl, rfl, rfl, ⟨moved, n, found⟩, received⟩ := State.receive_access none passes tracks low (by omega) map
  obtain ⟨hp, hlink, hgid, hdir, stage, pas, win⟩ := State.tracked_req (s := s) (c := c) (n := n) (by omega)
  generalize s.tracked n c.req = r at found hp hlink hgid hdir stage pas win
  obtain ⟨check', guest'⟩ := moved.guestCheck c.gid
  have used := State.touchGuest_moves u c.gid
  have keySame : ((u.touchGuest c.gid).guest c.gid).key = (s.guest c.gid).key := by rw [State.touchGuest_guest, guest']
  have checks' : (u.touchGuest c.gid).checks r = (none, some w) := by
    rw [← checks]
    refine State.checks_congr ?_ hp hdir hgid keySame
    obtain ⟨-, devid, -⟩ := used.same (p := .set) (by decide)
    obtain ⟨-, devid', -⟩ := moved.same (p := .set) (by decide)
    exact devid.trans devid'
  have key' : (u.touchGuest c.gid).keyUnwraps c.gid = true := by
    obtain ⟨kwrap, -⟩ := used.same (p := .keys) (by decide)
    obtain ⟨kwrap', -⟩ := moved.same (p := .keys) (by decide)
    rw [← key, State.keyUnwraps, State.keyUnwraps, keySame, kwrap, kwrap']
  have accessed := State.access_checked found stage pas win (by rw [hgid, check', check]) (by rw [hgid, guest', resident]) (by rw [hp]; omega)
    (by rwa [hgid]) (by rwa [hgid])
  have ready : Moves arrivalParts s ((u.touchGuest r.gid).onReq k fun _ => { r with win := some w }) :=
    (moved.mono (by decide)).trans (((State.touchGuest_moves u r.gid).mono (by decide)).trans ((State.onReq_moves _ k _).mono (by decide)))
  have tracked : ((u.touchGuest r.gid).onReq k fun _ => { r with win := some w }).pool.reqs.has k = true := by
    obtain ⟨reqs, -⟩ := (State.touchGuest_moves u r.gid).same (p := .requests) (by decide)
    rw [State.onReq, reqs]
    exact (Tab.has_upd _ _ _ _).trans (Tab.has_of_find found)
  rw [received, accessed]
  exact State.translate_reaches ready tracked hp hlink hgid rfl cached

theorem memoryRequest_completes {c : Instr} {s : State} {l g opc : Nat} {p : Packet} {w : Window} (low : 1 ≤ opc) (high : opc ≤ 4)
    (hc : exec c s = live s fun s => s.receive l (s.mine p opc) none) (h : s.admits l (s.mine p opc) g w) (cached : s.cached g (s.mine p opc)) :
    Completes c s fun t => s.reaches l (s.mine p opc) g w t :=
  completes_live h.1.1 hc (State.receive_reaches low high h cached)

/-- A doorbell for a resident stream is answered where it arrives: its tracker is free again, and it has taken effect. -/
theorem State.receive_bell {s : State} {l g : Nat} {p : Packet} {x : Stream} (opc : p.opc = 0x05) (passes : s.passes l p) (tracks : s.tracks l p)
    (map : s.gmapLook p.src p.pkey = some g) (check : s.guestCheck g = none) (resident : (s.guest g).resident = true)
    (found : s.work.streams.find (bitsOf p.addr 47 28) = some x) (here : x.resident = true) :
    ∃ (u : State) (r : Req), u.work = s.work ∧ r.p = p ∧ r.gid = g ∧ s.receive l p none = u.doorbell r := by
  obtain ⟨u, c, k, rfl, rfl, rfl, ⟨moved, n, tracked⟩, received⟩ := State.receive_access none passes tracks (by omega) (by omega) map
  obtain ⟨hp, -, hgid, -, stage, pas, win⟩ := State.tracked_req (s := s) (c := c) (n := n) (by omega)
  generalize s.tracked n c.req = r at tracked hp hgid stage pas win
  obtain ⟨check', guest'⟩ := moved.guestCheck c.gid
  have work : u.work = s.work := moved.work_same (by decide) (by decide) (by decide) (by decide) (by decide)
  have place : (u.touchGuest r.gid).bellStalls r.gid r.p.addr = false := by
    have streams : (u.touchGuest r.gid).work = s.work := work
    simp [State.bellStalls, streams, hp, Tab.getD_of_find _ found, here]
  exact ⟨(u.touchGuest r.gid).freeTracker k, r, work, hp, hgid, received.trans
    (State.access_bell tracked stage pas win (by rw [hgid, check', check]) (by rw [hgid, guest', resident]) (by rw [hp, opc]) place)⟩

/-- Settles O5: a request that its port and its checks let pass reaches its access; a doorbell moves TAIL, or is counted. -/
theorem memoryRequestsComplete : Obligations.MemoryRequestsComplete := by
  unfold Obligations.MemoryRequestsComplete
  refine ⟨fun s link p g w h cached => memoryRequest_completes (by decide) (by decide) (by rw [exec, execRead]) h cached,
    fun s link p g w h cached => memoryRequest_completes (by decide) (by decide) (by rw [exec, execWrite]) h cached,
    fun s link p g w h cached => memoryRequest_completes (by decide) (by decide) (by rw [exec, execWriteP]) h cached,
    fun s link p g w h cached => memoryRequest_completes (by decide) (by decide) (by rw [exec, execAtomicPacket]) h cached,
    fun s link p g x passes tracks map check resident found here => ?_⟩
  obtain ⟨u, r, work, hp, rfl, received⟩ := State.receive_bell (p := s.mine p 0x05) rfl passes tracks map check resident found here
  have addr : r.p.addr = p.addr := by rw [hp]; rfl
  have same : u.bellOk r.gid p.addr = s.bellOk r.gid p.addr := by simp only [State.bellOk, work]
  refine ⟨fun ok => completes_live passes.1 (by rw [exec, execDoorbell]) ?_, fun bad => completes_live passes.1 (by rw [exec, execDoorbell]) ?_⟩
  · rw [received]
    simp [State.doorbell, same, ok, work, addr, Tab.getD_of_find _ found, here, State.applyBell]
  · rw [received]
    simp [State.doorbell, addr, same, bad, work, State.dropPkt, State.countLink]

end Sys2Proof.Machine
end

section
namespace Sys2Proof.Machine

open Sys2Proof

/-! ## Set formation (R23 to R30) -/

/-- What a device that acts on a SETMSG reads of its set is as it was when the message arrived. -/
structure SetView (s a : State) : Prop where
  setState : a.pool.setState = s.pool.setState
  members : a.pool.members = s.pool.members
  manager : a.pool.managerEpid = s.pool.managerEpid
  nonce : a.pool.nonce = s.pool.nonce
  intruders : a.pool.intruders = s.pool.intruders
  role : a.power.roleMgr = s.power.roleMgr
  forced : a.forced = s.forced
  setId : a.setIdNow = s.setIdNow
  epid : a.epid = s.epid

theorem Moves.setView {s a : State} (h : Moves trackParts s a) : SetView s a := by
  obtain ⟨setState, -, members, manager, nonce, -, intruders⟩ := h.same (p := .set) (by decide)
  obtain ⟨-, -, -, -, -, -, role, -⟩ := h.same (p := .reset) (by decide)
  have forced : a.forced = s.forced := h.same (p := .forced) (by decide)
  exact ⟨setState, members, manager, nonce, intruders, role, forced, State.inForce_congr forced _, State.epid_congr forced⟩

/-- Firmware serves on after a message has arrived. -/
theorem Moves.served {s a : State} (h : Moves trackParts s a) : a.served = s.served := by
  obtain ⟨aon, -, -, inReset, -⟩ := h.same (p := .reset) (by decide)
  obtain ⟨-, -, -, -, trip⟩ := h.same (p := .thermal) (by decide)
  obtain ⟨st, booted, -⟩ := h.same (p := .lifecycle) (by decide)
  obtain ⟨active, -, -, -, -, -, -, -, -, -, gap, -, lost, -⟩ := h.same (p := .ik) (by decide)
  obtain ⟨awake, -⟩ := h.same (p := .night) (by decide)
  obtain ⟨-, -, -, clocks⟩ := h.same (p := .clocks) (by decide)
  simp only [State.served, State.up, State.halted, aon, inReset, trip, st, booted, active, gap, lost, awake, clocks]

/-- A SETMSG that is delivered claims a tracker. -/
theorem State.deliver_setmsg (u : State) (l : Nat) {p : Packet} (m : Option SetMsg) (h : p.opc = 0x31) :
    u.deliver l p m = u.claim { link := l, p := p, gid := noGid, msg := m } := by
  have other : mapped 0x31 = false := by decide
  simp [State.deliver, other, h]

/-- A SETMSG arrives, holds a tracker, and is acted on. -/
theorem State.receive_setmsg {s : State} {l : Nat} {p : Packet} {m : SetMsg} (h : s.gets l p m) :
    ∃ a k, Moves trackParts s a ∧ s.receive l (s.setPkt p m) (some m) = (a.onSetMsg p.src m).freeTracker k := by
  obtain ⟨comes, tracks, served, -⟩ := h
  have claimed : ∃ u pooled, Passed s u ∧ s.receive l (s.setPkt p m) (some m) =
      u.claim { link := l, p := s.setPkt p m, gid := noGid, msg := some m, pooled := pooled } := by
    rcases comes with passes | hears
    · obtain ⟨u, passed, received⟩ := State.receive_of_passes (some m) passes
      exact ⟨u, _, passed, received.trans (State.deliver_setmsg u l (some m) rfl)⟩
    · exact State.receive_of_hears (some m) hears
  obtain ⟨u, pooled, passed, received⟩ := claimed
  obtain ⟨k, n, -, granted⟩ := State.claim_of_tracks (c := { link := l, p := s.setPkt p m, gid := noGid, msg := some m, pooled := pooled })
    (State.tracks_of_passed tracks passed)
  obtain ⟨moved, -⟩ := State.holds_of_putReq passed k n { link := l, p := s.setPkt p m, gid := noGid, msg := some m, pooled := pooled }
  rw [received, granted]
  generalize (u.putReq k n _).unclaim _ = a at moved ⊢
  refine ⟨a, k, moved, ?_⟩
  simp [State.begin, State.setPkt, State.takeSet, moved.served, served]

/-- A SETMSG has its effect, and its tracker is free again. -/
theorem setmsg_completes {c : Instr} {s : State} {l : Nat} {p : Packet} {m : SetMsg} {act : State → State} {post : State → Prop}
    (hc : exec c s = live s fun s => s.receive l (s.setPkt p m) (some m)) (h : s.gets l p m)
    (acts : ∀ a : State, ¬ a.pool.intruders.contains p.src = true → a.onSetMsg p.src m = act a)
    (step : ∀ (a : State) (k : Nat), Moves trackParts s a → SetView s a → post ((act a).freeTracker k)) : Completes c s post := by
  have running : s.running = true := h.1.elim And.left And.left
  obtain ⟨a, k, moved, received⟩ := State.receive_setmsg h
  refine completes_live running hc ?_
  rw [received, acts a (by rw [moved.setView.intruders, h.2.2.2]; exact Bool.false_ne_true)]
  exact step a k moved moved.setView

theorem acts_of_moves {s a : State} {k : Nat} (f : State → State) (h : Moves trackParts s a) : s.acts f ((f a).freeTracker k) :=
  ⟨a, k, (h.mono (by decide) : Moves arrivalParts s a).frame, rfl⟩

/-- A device that is sent something keeps its set. -/
theorem State.sendSet_set (s : State) (dst : Nat) (m : SetMsg) : Part.same s (s.sendSet dst m) .set :=
  (State.sendSet_moves s dst m).same (by decide)

theorem State.intrude_sendSet (s : State) (src : Nat) (m : SetMsg) :
    ((s.intrude src).sendSet src m).pool.intruders = s.pool.intruders ++ [src] ∧ ((s.intrude src).sendSet src m).pool.setState = s.pool.setState := by
  obtain ⟨setState, -, -, -, -, -, intruders⟩ := (s.intrude src).sendSet_set src m
  exact ⟨intruders, setState⟩

/-! ### ANNOUNCE (R24, R28, R29) -/

/-- An ANNOUNCE of the set's own identifier, by another device where the receiver is a manager. -/
theorem State.onAnnounce_worker {a : State} {src setId state : Nat} {nonce : Bytes} (same : setId = a.setIdNow) (some_ : setId ≠ 0)
    (worker : a.power.roleMgr = false) (free : a.pool.setState = 0 ∨ a.pool.setState = 1) (none : a.pool.nonce = []) :
    a.onAnnounce src setId state nonce = a.sendJoin src state nonce := by
  subst same
  rcases free with st | st <;> simp [State.onAnnounce, some_, worker, st, none]

theorem State.onAnnounce_intruder {a : State} {src setId state : Nat} {nonce : Bytes} (same : setId = a.setIdNow) (some_ : setId ≠ 0)
    (manager : a.power.roleMgr = true) (serves : a.pool.setState = 3) (other : src ≠ a.epid) :
    a.onAnnounce src setId state nonce = (a.intrude src).sendSet src (.refuse setId 3) := by
  subst same
  simp [State.onAnnounce, some_, manager, serves, other]

theorem State.onAnnounce_joined {a : State} {src setId state : Nat} {nonce : Bytes} (same : setId = a.setIdNow) (some_ : setId ≠ 0)
    (worker : a.power.roleMgr = false) (joined : a.pool.setState = 2 ∨ a.pool.setState = 3) (other : src ≠ a.pool.managerEpid) :
    a.onAnnounce src setId state nonce = a.intrude src := by
  subst same
  rcases joined with st | st <;> simp [State.onAnnounce, some_, worker, st, other]

theorem State.onAnnounce_forming {a : State} {src setId state : Nat} {nonce : Bytes} (same : setId = a.setIdNow) (some_ : setId ≠ 0)
    (manager : a.power.roleMgr = true) (forms : a.pool.setState = 1) (other : src ≠ a.epid) :
    a.onAnnounce src setId state nonce = a.conflict := by
  subst same
  simp [State.onAnnounce, some_, manager, forms, other]

section Announce

variable {s : State} {link : Fin 32} {p : Packet} {setId state : Nat} {nonce : Bytes} (h : s.gets link.val p (.announce setId state nonce))
  (same : setId = s.setIdNow) (some_ : setId ≠ 0)

include h same some_

theorem announce_worker_completes (worker : s.power.roleMgr = false) (free : s.pool.setState = 0 ∨ s.pool.setState = 1)
    (none : s.pool.nonce = []) : Completes (.announce link p setId state nonce) s fun t =>
      t.pool.setState = 1 ∧ t.pool.managerEpid = p.src ∧ t.pool.nonce = nonce ∧ t.pool.heard = state ∧
        s.acts (fun m => m.sendJoin p.src state nonce) t := by
  refine setmsg_completes (act := fun a => a.onAnnounce p.src setId state nonce) (by rw [exec, execAnnounce]) h
    (fun a known => if_neg known) fun a k moved view => ?_
  rw [State.onAnnounce_worker (same.trans view.setId.symm) some_ (view.role.trans worker) (by rwa [view.setState]) (view.nonce.trans none)]
  obtain ⟨setState, -, -, manager, nonce', heard, -⟩ := State.sendSet_set
    { a with pool := { a.pool with setState := 1, managerEpid := p.src, nonce := nonce, heard := state } } p.src
    (.join (a.inForce Obj.deviceIdReq) ownChain (Config.ecdsaSign (joinData a.setIdNow (a.inForce Obj.deviceIdReq) nonce)))
  exact ⟨setState, manager, nonce', heard, acts_of_moves (fun m => m.sendJoin p.src state nonce) moved⟩

theorem announce_intruder_completes (manager : s.power.roleMgr = true) (serves : s.pool.setState = 3) (other : p.src ≠ s.epid) :
    Completes (.announce link p setId state nonce) s fun t =>
      t.pool.intruders = s.pool.intruders ++ [p.src] ∧ t.pool.setState = 3 ∧
        s.acts (fun m => (m.intrude p.src).sendSet p.src (.refuse setId 3)) t := by
  refine setmsg_completes (act := fun a => a.onAnnounce p.src setId state nonce) (by rw [exec, execAnnounce]) h
    (fun a known => if_neg known) fun a k moved view => ?_
  rw [State.onAnnounce_intruder (same.trans view.setId.symm) some_ (view.role.trans manager) (view.setState.trans serves)
    (by rwa [view.epid])]
  obtain ⟨intruders, setState⟩ := a.intrude_sendSet p.src (.refuse setId 3)
  rw [view.intruders] at intruders
  exact ⟨intruders, setState.trans (view.setState.trans serves), acts_of_moves _ moved⟩

theorem announce_joined_completes (worker : s.power.roleMgr = false) (joined : s.pool.setState = 2 ∨ s.pool.setState = 3)
    (other : p.src ≠ s.pool.managerEpid) : Completes (.announce link p setId state nonce) s fun t =>
      t.pool.intruders = s.pool.intruders ++ [p.src] ∧ t.pool.setState = s.pool.setState ∧ s.acts (fun m => m.intrude p.src) t := by
  refine setmsg_completes (act := fun a => a.onAnnounce p.src setId state nonce) (by rw [exec, execAnnounce]) h
    (fun a known => if_neg known) fun a k moved view => ?_
  rw [State.onAnnounce_joined (same.trans view.setId.symm) some_ (view.role.trans worker) (by rwa [view.setState]) (by rwa [view.manager])]
  exact ⟨congrArg (· ++ [p.src]) view.intruders, view.setState, acts_of_moves _ moved⟩

theorem announce_forming_completes (manager : s.power.roleMgr = true) (forms : s.pool.setState = 1) (other : p.src ≠ s.epid) :
    Completes (.announce link p setId state nonce) s fun t => t.pool.setState = 4 ∧ s.acts (fun m => m.conflict) t := by
  refine setmsg_completes (act := fun a => a.onAnnounce p.src setId state nonce) (by rw [exec, execAnnounce]) h
    (fun a known => if_neg known) fun a k moved view => ?_
  rw [State.onAnnounce_forming (same.trans view.setId.symm) some_ (view.role.trans manager) (view.setState.trans forms) (by rwa [view.epid])]
  exact ⟨rfl, acts_of_moves _ moved⟩

end Announce

/-! ### JOIN (R25 to R27) -/

/-- The three checks of a JOIN read what they did when it arrived. -/
theorem SetView.joinOk {s a : State} (view : SetView s a) (blobs : a.blobs = s.blobs) (idReq : Nat) (chain sig : Bytes) :
    a.joinOk idReq chain sig = s.joinOk idReq chain sig := by
  simp only [State.joinOk, State.chainOk, State.anchorsOf, State.anchor, State.denied, State.blob, blobs, view.nonce, view.setId]

theorem SetView.joinDevid {s a : State} (view : SetView s a) (idReq : Nat) (serial : Bytes) : a.joinDevid idReq serial = s.joinDevid idReq serial := by
  simp only [State.joinDevid, view.members]

theorem State.endForming_members (s : State) : s.endForming.pool.members = s.pool.members := by
  obtain ⟨-, -, members, -⟩ := (State.distributeAll_moves s s.allDefs []).same (p := .set) (by decide)
  exact members

/-- The manager sends a member's admission, and what the member lacks. -/
def State.admitted (a : State) (src d st : Nat) (member : Member) : State :=
  let u := (State.sendSet { a with pool := { a.pool with members := a.pool.members.put d member } } src (.admission d)).irqEdge 0x009
  if st == 3 then u.sendSet src (.distribute u.memberList u.allDefs []) else if u.allJoined then u.endForming else u

theorem State.admitted_members (a : State) (src d st : Nat) (member : Member) :
    (a.admitted src d st member).pool.members = a.pool.members.put d member := by
  obtain ⟨-, -, sent, -⟩ := State.sendSet_set { a with pool := { a.pool with members := a.pool.members.put d member } } src (.admission d)
  obtain ⟨-, -, raised, -⟩ := (State.irqEdge_moves (State.sendSet
    { a with pool := { a.pool with members := a.pool.members.put d member } } src (.admission d)) 0x009).same (p := .set) (by decide)
  unfold State.admitted
  dsimp only
  generalize State.irqEdge _ 0x009 = u at raised ⊢
  have members : u.pool.members = a.pool.members.put d member := raised.trans sent
  split
  · obtain ⟨-, -, told, -⟩ := u.sendSet_set src (.distribute u.memberList u.allDefs [])
    exact told.trans members
  · split
    · exact u.endForming_members.trans members
    · exact members

section Join

variable {a : State} {src idReq : Nat} {chain sig : Bytes} (manager : a.power.roleMgr = true) (set : a.setIdNow ≠ 0)
  (forms : a.pool.setState = 1 ∨ a.pool.setState = 3)

include manager set forms

/-- A JOIN that passes R26 is admitted. -/
theorem State.onJoin_admits {d : Nat} (ok : a.joinOk idReq chain sig = true) (devid : a.joinDevid idReq (leafSerial chain) = some d) :
    a.onJoin src idReq chain sig = a.admitted src d a.pool.setState { epid := src, serial := leafSerial chain } := by
  have open_ : (a.pool.setState == 1 || a.pool.setState == 3) = true := by simpa using forms
  have ofSet : (a.setIdNow == 0) = false := by simpa using set
  simp only [State.onJoin, manager, ofSet, open_, ok, devid, Bool.not_true, Bool.or_self, Bool.false_eq_true, if_false]
  rfl

theorem State.onJoin_refuses (bad : a.joinOk idReq chain sig = false ∨ a.joinDevid idReq (leafSerial chain) = none) :
    a.onJoin src idReq chain sig = a.refuseJoin src := by
  have open_ : (a.pool.setState == 1 || a.pool.setState == 3) = true := by simpa using forms
  have ofSet : (a.setIdNow == 0) = false := by simpa using set
  simp only [State.onJoin, manager, ofSet, open_, Bool.not_true, Bool.or_self, Bool.false_eq_true, if_false]
  cases ok : a.joinOk idReq chain sig with
  | false => rfl
  | true => rw [bad.resolve_left (by simp [ok])]; rfl

end Join

section Join

variable {s : State} {link : Fin 32} {p : Packet} {idReq : Nat} {chain sig : Bytes} (h : s.gets link.val p (.join idReq chain sig))
  (manager : s.power.roleMgr = true) (set : s.setIdNow ≠ 0) (forms : s.pool.setState = 1 ∨ s.pool.setState = 3)

include h manager set forms

theorem join_admitted_completes {d : Nat} (ok : s.joinOk idReq chain sig = true) (devid : s.joinDevid idReq (leafSerial chain) = some d) :
    Completes (.join link p idReq chain sig) s fun t =>
      t.pool.members = s.pool.members.put d { epid := p.src, serial := leafSerial chain } := by
  refine setmsg_completes (act := fun a => a.onJoin p.src idReq chain sig) (by rw [exec, execJoin]) h (fun a known => if_neg known)
    fun a k moved view => ?_
  have blobs : a.blobs = s.blobs := moved.same (p := .blobs) (by decide)
  rw [State.onJoin_admits (view.role.trans manager) (by rwa [view.setId]) (by rwa [view.setState]) ((view.joinOk blobs _ _ _).trans ok)
    ((view.joinDevid _ _).trans devid), ← view.members]
  exact a.admitted_members _ _ _ _

theorem join_refused_completes (bad : s.joinOk idReq chain sig = false ∨ s.joinDevid idReq (leafSerial chain) = none) :
    Completes (.join link p idReq chain sig) s fun t =>
      t.pool.members = s.pool.members ∧ t.pool.setState = s.pool.setState ∧ s.acts (fun m => m.refuseJoin p.src) t := by
  refine setmsg_completes (act := fun a => a.onJoin p.src idReq chain sig) (by rw [exec, execJoin]) h (fun a known => if_neg known)
    fun a k moved view => ?_
  have blobs : a.blobs = s.blobs := moved.same (p := .blobs) (by decide)
  rw [State.onJoin_refuses (view.role.trans manager) (by rwa [view.setId]) (by rwa [view.setState])
    (by rwa [view.joinOk blobs, view.joinDevid])]
  obtain ⟨setState, -, members, -⟩ := a.sendSet_set p.src (.refuse a.setIdNow a.pool.setState)
  obtain ⟨setState', -, members', -⟩ := (State.irqEdge_moves (a.sendSet p.src (.refuse a.setIdNow a.pool.setState)) 0x009).same (p := .set)
    (by decide)
  exact ⟨members'.trans (members.trans view.members), setState'.trans (setState.trans view.setState), acts_of_moves _ moved⟩

end Join

/-! ### ADMIT, REFUSE and DISTRIBUTE at a worker (R22, R24, R25, R29) -/

theorem admitMsg_completes {s : State} {link : Fin 32} {p : Packet} {devid : Nat} (h : s.gets link.val p (.admission devid))
    (worker : s.power.roleMgr = false) (forms : s.pool.setState = 1) (manager : p.src = s.pool.managerEpid) :
    Completes (.admitMsg link p devid) s fun t => t.pool.setState = 2 ∧ t.pool.devid = devid ∧
      t.pool.members = (s.pool.members.put 0 { epid := p.src }).put devid { epid := s.epid, serial := Config.serialNumber } := by
  refine setmsg_completes (act := fun a => a.onAdmit p.src devid) (by rw [exec, execAdmitMsg]) h (fun a known => if_neg known)
    fun a k moved view => ?_
  have taken : ¬ (a.power.roleMgr || a.pool.setState != 1 || p.src != a.pool.managerEpid) = true := by
    simp [view.role, worker, view.setState, forms, view.manager, manager]
  rw [State.onAdmit, if_neg taken, ← view.members, ← view.epid]
  exact ⟨rfl, rfl, rfl⟩

theorem refuse_completes {s : State} {link : Fin 32} {p : Packet} {setId state : Nat} (h : s.gets link.val p (.refuse setId state))
    (forms : s.pool.setState = 1) (same : setId = s.setIdNow) :
    (s.power.roleMgr = false → p.src = s.pool.managerEpid → Completes (.refuse link p setId state) s fun t => t.pool.setState = 5) ∧
      (s.power.roleMgr = true → state = 3 → Completes (.refuse link p setId state) s fun t => t.pool.setState = 4) := by
  refine ⟨fun worker manager => ?_, fun manager serving => ?_⟩
  · refine setmsg_completes (act := fun a => a.onRefuse p.src setId state) (by rw [exec, execRefuse]) h (fun a known => if_neg known)
      fun a k moved view => ?_
    simp [State.onRefuse, view.setState, forms, view.setId, same, view.role, worker, view.manager, manager, State.freeTracker, State.settleTrk]
  · refine setmsg_completes (act := fun a => a.onRefuse p.src setId state) (by rw [exec, execRefuse]) h (fun a known => if_neg known)
      fun a k moved view => ?_
    simp [State.onRefuse, view.setState, forms, view.setId, same, view.role, manager, serving, State.conflict, State.freeTracker, State.settleTrk]

/-- The directory that a definition spells. -/
def definedDir (d : GuestDef) : Tab Window := d.dir.foldl (fun (b : Tab Window) e => b.put e.1 (windowOf e.2)) {}

/-- A definition that is applied gives its guest the key and the directory it spells. -/
theorem State.applyDef_guest {s : State} {d : GuestDef} (open_ : s.sec.noDefine = false) (tearing : (s.guest d.gid).tearing = false) :
    ∃ g, (s.applyDef d).pool.guests.find d.gid = some g ∧ g.pkey = d.pkey ∧ g.dir = definedDir d := by
  have given : ∀ (u : State) (g : Guest), u.pool.guests.find d.gid = some g →
      (u.onGuest d.gid fun g => { g with pkey := d.pkey, dir := definedDir d }).pool.guests.find d.gid =
        some { g with pkey := d.pkey, dir := definedDir d } := fun u g found => by
    simp only [State.onGuest, Tab.find_upd, if_true, found, Option.map_some]
  have applied : s.applyDef d = (if s.pool.guests.has d.gid then s else s.defineGuest d.gid d.pkey).onGuest d.gid
      fun g => { g with pkey := d.pkey, dir := definedDir d } := by
    rw [State.applyDef, if_neg (by simp [open_, tearing])]
    rfl
  rw [applied]
  split
  · rename_i known
    exact ⟨_, given s _ (State.find_guest known), rfl, rfl⟩
  · obtain ⟨n, found⟩ := s.defineGuest_guest d.gid d.pkey
    exact ⟨_, given _ _ found, rfl, rfl⟩

/-- The epoch of a member's directory after a DISTRIBUTE, and its members. -/
def State.learn (s : State) (ms : List (Nat × Nat)) : State :=
  State.learnMembers { s with pool := { s.pool with dirEpoch := s.pool.dirEpoch + 1 } } ms

/-- The definitions and erasures of a DISTRIBUTE, on a member that takes them. -/
def State.distributed (s : State) (ms : List (Nat × Nat)) (defs : List GuestDef) (erase : List Nat) : State :=
  erase.foldl (fun (s : State) g => if s.pool.guests.has g && !(s.guest g).tearing then s.startTeardown g else s)
    (defs.foldl (fun (s : State) d => s.applyDef d) (s.learn ms))

theorem State.distributed_dirEpoch (s : State) (ms : List (Nat × Nat)) (defs : List GuestDef) (erase : List Nat) :
    (s.distributed ms defs erase).pool.dirEpoch = s.pool.dirEpoch + 1 := by
  obtain ⟨-, learnt⟩ := (State.learnMembers_moves { s with pool := { s.pool with dirEpoch := s.pool.dirEpoch + 1 } } ms).same
    (p := .guestCmd) (by decide)
  obtain ⟨-, defined⟩ := (Moves.foldl (l := defs) (f := fun (s : State) d => s.applyDef d) (fun v d => State.applyDef_moves v d)
    (Moves.refl _ (s.learn ms))).same (p := .guestCmd) (by decide)
  obtain ⟨-, erased⟩ := (Moves.foldl (l := erase)
    (f := fun (s : State) g => if s.pool.guests.has g && !(s.guest g).tearing then s.startTeardown g else s)
    (fun v g => Moves.ite (State.startTeardown_moves v g) (Moves.refl _ v))
    (Moves.refl _ (defs.foldl (fun (s : State) d => s.applyDef d) (s.learn ms)))).same (p := .guestCmd) (by decide)
  exact erased.trans (defined.trans learnt)

theorem distribute_completes {s : State} {link : Fin 32} {p : Packet} {ms : List (Nat × Nat)} {defs : List GuestDef} {erase : List Nat}
    (h : s.gets link.val p (.distribute ms defs erase)) (worker : s.power.roleMgr = false)
    (joined : s.pool.setState = 2 ∨ s.pool.setState = 3) (manager : p.src = s.pool.managerEpid) :
    Completes (.distribute link p ms defs erase) s fun t =>
      t.pool.setState = 3 ∧ t.pool.dirEpoch = s.pool.dirEpoch + 1 ∧ t.obs.startOver = true ∧
        (s.sec.noDefine = false → ∀ d : GuestDef, defs = [d] → erase = [] → (s.guest d.gid).tearing = false →
          t.pool.guests.has d.gid = true ∧ (t.guest d.gid).pkey = d.pkey ∧
            (t.guest d.gid).dir = d.dir.foldl (fun (b : Tab Window) e => b.put e.1 (windowOf e.2)) {}) := by
  refine setmsg_completes (act := fun a => a.onDistribute p.src ms defs erase) (by rw [exec, execDistribute]) h
    (fun a known => if_neg known) fun a k moved view => ?_
  have taken : ¬ (a.power.roleMgr || !(a.pool.setState == 2 || a.pool.setState == 3) || p.src != a.pool.managerEpid) = true := by
    simpa [view.role, worker, view.setState, view.manager, manager, or_iff_not_imp_left] using joined
  have acted : a.onDistribute p.src ms defs erase = (a.distributed ms defs erase).enterServing := if_neg taken
  obtain ⟨-, epoch⟩ := moved.same (p := .guestCmd) (by decide)
  rw [acted]
  refine ⟨rfl, (a.distributed_dirEpoch ms defs erase).trans (by rw [epoch]), rfl, ?_⟩
  rintro noDefine d rfl rfl tearing
  obtain ⟨guests, -⟩ := moved.same (p := .guests) (by decide)
  obtain ⟨-, -, -, noDefine'⟩ := moved.same (p := .debug) (by decide)
  obtain ⟨found', learnt, -⟩ := (State.learnMembers_moves { a with pool := { a.pool with dirEpoch := a.pool.dirEpoch + 1 } } ms).same
    (p := .guests) (by decide)
  obtain ⟨-, -, -, open_⟩ := (State.learnMembers_moves { a with pool := { a.pool with dirEpoch := a.pool.dirEpoch + 1 } } ms).same
    (p := .debug) (by decide)
  have kept : (a.learn ms).pool.guests = s.pool.guests := found'.trans guests
  obtain ⟨g, found, pkey, dir⟩ := State.applyDef_guest (s := a.learn ms) (d := d) ((open_.trans noDefine').trans noDefine)
    (by rw [State.guest, kept]; exact tearing)
  have now : (((a.distributed ms [d] []).enterServing).freeTracker k).guest d.gid = g := State.guest_of_find found
  exact ⟨Tab.has_of_find found, by rw [now, pkey], by rw [now, dir]; rfl⟩

/-! ### ANNOUNCE_SEND and the forming timer (R23, R24) -/

/-- A manager that forms its set, before it announces. -/
def State.lead (s : State) : State :=
  { s with pool := { s.pool with
      devid := 0, managerEpid := s.epid, members := s.pool.members.put 0 { epid := s.epid, serial := Config.serialNumber },
      setState := if s.pool.setState == 3 then 3 else 1 } }

/-- The manager announces its set to all, and to each peer. -/
def State.announceAll (s : State) : State :=
  let u := s.freshNonce
  let m : SetMsg := .announce u.setIdNow u.pool.setState u.pool.nonce
  let v := (setPackets 0xFFFFF m).foldl (fun (s : State) p => s.broadcast p) u
  (((upto 63).map fun i => v.inForce (Obj.setPeerEpid i) % 2 ^ 20).filter (· != 0)).foldl (fun (s : State) e => s.sendSet e m) v

/-- An announcement leaves the set but for its nonce. -/
theorem State.announceAll_set (s : State) :
    s.announceAll.pool.setState = s.pool.setState ∧ s.announceAll.pool.devid = s.pool.devid ∧ s.announceAll.pool.members = s.pool.members ∧
      s.announceAll.pool.managerEpid = s.pool.managerEpid ∧ s.announceAll.forced = s.forced := by
  unfold State.announceAll
  dsimp only
  generalize hu : s.freshNonce = u
  have pool : u.pool = { s.pool with nonce := (s.draw 32).1 } := by rw [← hu]; rfl
  have forced : u.forced = s.forced := by rw [← hu]; rfl
  generalize SetMsg.announce u.setIdNow u.pool.setState u.pool.nonce = m
  have told := Moves.foldl (l := setPackets 0xFFFFF m) (f := fun (s : State) p => s.broadcast p) (fun v p => State.broadcast_moves v p)
    (Moves.refl _ u)
  generalize (setPackets 0xFFFFF m).foldl (fun (s : State) p => s.broadcast p) u = v at told ⊢
  generalize ((upto 63).map fun i => v.inForce (Obj.setPeerEpid i) % 2 ^ 20).filter (· != 0) = peers
  have sent := Moves.foldl (l := peers) (f := fun (s : State) e => s.sendSet e m) (fun v e => State.sendSet_moves v e m) (Moves.refl _ v)
  obtain ⟨setState, devid, members, manager, -⟩ := told.same (p := .set) (by decide)
  obtain ⟨setState', devid', members', manager', -⟩ := sent.same (p := .set) (by decide)
  have forced' : v.forced = u.forced := told.same (p := .forced) (by decide)
  have forced'' := sent.same (p := .forced) (by decide)
  rw [pool] at setState devid members manager
  exact ⟨setState'.trans setState, devid'.trans devid, members'.trans members, manager'.trans manager, forced''.trans (forced'.trans forced)⟩

theorem filter_putRow_of_not {α : Type} {p : Nat × α → Bool} {k : Nat} (h : ∀ v, p (k, v) = false) (v : α) (r : List (Nat × α)) :
    (putRow k v r).filter p = r.filter p := by
  induction r with
  | nil => simp [putRow, h]
  | cons x r ih =>
    obtain ⟨a, b⟩ := x
    simp only [putRow]
    split
    · rw [List.filter_cons_of_neg (by simp [h])]
    · split
      · subst_vars
        rw [List.filter_cons_of_neg (by simp [h]), List.filter_cons_of_neg (by simp [h])]
      · simp only [List.filter_cons, ih]

/-- The manager itself is no worker. -/
theorem count_workers_put (t : Tab Member) (m : Member) : (t.put 0 m).count (fun k _ => k != 0) = t.count fun k _ => k != 0 :=
  congrArg List.length (filter_putRow_of_not (fun _ => rfl) m t.rows)

/-- The forming manager announces, and serves once all have joined. -/
def State.announced (s : State) : State :=
  if s.announceAll.pool.setState == 1 && s.announceAll.allJoined then s.announceAll.endForming else s.announceAll

theorem State.endForming_set (s : State) : s.endForming.pool.setState = 3 ∧ s.endForming.pool.devid = s.pool.devid ∧
    s.endForming.pool.members = s.pool.members ∧ s.endForming.pool.managerEpid = s.pool.managerEpid := by
  obtain ⟨-, devid, members, manager, -⟩ := (State.distributeAll_moves s s.allDefs []).same (p := .set) (by decide)
  exact ⟨rfl, devid, members, manager⟩

theorem State.announced_set (s : State) :
    (s.announced.pool.devid = s.pool.devid ∧ s.announced.pool.managerEpid = s.pool.managerEpid ∧ s.announced.pool.members = s.pool.members) ∧
      s.announced.pool.setState = if s.pool.setState = 1 ∧ s.inForce Obj.expectedWorkers ≤ s.workerCount then 3 else s.pool.setState := by
  obtain ⟨setState, devid, members, manager, forced⟩ := s.announceAll_set
  have joined : (s.announceAll.pool.setState == 1 && s.announceAll.allJoined) = true ↔
      s.pool.setState = 1 ∧ s.inForce Obj.expectedWorkers ≤ s.workerCount := by
    simp [State.allJoined, State.workerCount, setState, members, State.inForce_congr forced]
  unfold State.announced
  obtain ⟨serves, devid', members', manager'⟩ := s.announceAll.endForming_set
  by_cases all : s.pool.setState = 1 ∧ s.inForce Obj.expectedWorkers ≤ s.workerCount
  · rw [if_pos (joined.mpr all), if_pos all]
    exact ⟨⟨devid'.trans devid, manager'.trans manager, members'.trans members⟩, serves⟩
  · rw [if_neg (mt joined.mp all), if_neg all]
    exact ⟨⟨devid, manager, members⟩, setState⟩

theorem announceSend_completes {s : State} (hs : s.served = true) (role : s.power.roleMgr = true) (free : s.pool.setState ≠ 4)
    (free' : s.pool.setState ≠ 5) : Completes .announceSend s fun t =>
      t.pool.devid = 0 ∧ t.pool.managerEpid = s.epid ∧
        t.pool.members = s.pool.members.put 0 { epid := s.epid, serial := Config.serialNumber } ∧
        (s.setIdNow = 0 → t.pool.setState = 3) ∧
        (s.setIdNow ≠ 0 → t.pool.setState = if s.pool.setState = 3 ∨ s.inForce Obj.expectedWorkers ≤ s.workerCount then 3 else 1) := by
  refine completes_managed hs (f := fun s => if !s.power.roleMgr || s.pool.setState == 4 || s.pool.setState == 5 then s else
    if s.lead.setIdNow == 0 then s.lead.enterServing else s.lead.announced) (by rfl) ?_
  have goes : ¬ (!s.power.roleMgr || s.pool.setState == 4 || s.pool.setState == 5) = true := by simp [role, free, free']
  rw [if_neg goes]
  have setId : s.lead.setIdNow = s.setIdNow := rfl
  have workers : s.lead.workerCount = s.workerCount := count_workers_put _ _
  obtain ⟨⟨devid, manager, members⟩, setState⟩ := s.lead.announced_set
  by_cases alone : s.setIdNow = 0
  · rw [if_pos (by rw [setId]; simp [alone])]
    exact ⟨rfl, rfl, rfl, fun _ => rfl, fun set => absurd alone set⟩
  · rw [if_neg (by rw [setId]; simp [alone])]
    refine ⟨devid, manager, members, fun none => absurd none alone, fun _ => setState.trans ?_⟩
    have force : s.lead.inForce Obj.expectedWorkers = s.inForce Obj.expectedWorkers := rfl
    have st : s.lead.pool.setState = if s.pool.setState = 3 then 3 else 1 := by simp [State.lead]
    rw [workers, force, st]
    by_cases serves : s.pool.setState = 3 <;> simp [serves]

/-- Settles O4: each message of set formation is acted on as its rule says, once its packet has passed its port. -/
theorem setFormationCompletes : Obligations.SetFormationCompletes := by
  unfold Obligations.SetFormationCompletes
  refine ⟨fun s link p setId state nonce h same some_ => ⟨announce_worker_completes h same some_, announce_intruder_completes h same some_,
      announce_joined_completes h same some_, announce_forming_completes h same some_⟩,
    fun s hs role free free' => announceSend_completes hs role free free',
    fun s link p idReq chain sig h manager set forms => ⟨fun d ok devid => join_admitted_completes h manager set forms ok devid,
      fun bad => join_refused_completes h manager set forms bad⟩,
    fun s link p devid h worker forms manager => admitMsg_completes h worker forms manager,
    fun s link p setId state h forms same => refuse_completes h forms same,
    fun s link p ms defs erase h worker joined manager => distribute_completes h worker joined manager, fun s hs role forms => ?_⟩
  refine completes_managed hs (by rw [exec, execFormTimeoutExpiry]) ?_
  rw [if_pos (by simp [role, forms])]
  exact ⟨rfl, rfl⟩

end Sys2Proof.Machine
end

section
namespace Sys2Proof.Machine

open Sys2Proof

/-! ## Tally and control waybills (R38 to R42, R53, R77 to R79) -/

/-- A command of a running waybill has its effect on the state in which the waybill has its words. -/
theorem effect_completes {c : Instr} {s u : State} {stream seq opc : Nat} {w : Waybill} {f : State → Waybill → State} {post : State → Prop}
    (hs : s.running = true) (hc : exec c s = live s fun s => s.effect stream seq opc f) (words : s.hasWords (wbKey stream seq) u)
    (found : u.work.wbs.find (wbKey stream seq) = some w) (st : w.st = 1) (op : w.opc = opc) (h : post (f u w)) : Completes c s post := by
  obtain ⟨rfl, has⟩ := words
  refine completes_live hs hc ?_
  simpa [State.effect, State.withWords, has, found, st, op] using h

theorem Moves.cellar_same {ps : List Part} {s t : State} (h : Moves ps s t) (hc : Part.chans ∉ ps) (hd : Part.dram ∉ ps)
    (hm : Part.map ∉ ps) (hg : Part.groups ∉ ps) (hb : Part.buses ∉ ps) : t.cellar = s.cellar := by
  obtain ⟨layout, mode, cap, bytes, base, plain, hearth⟩ := h.same hm
  obtain ⟨groups, spares, stale⟩ := h.same hg
  have chans : t.cellar.chans = s.cellar.chans := h.same hc
  have dram : t.cellar.dram = s.cellar.dram := h.same hd
  have buses : t.cellar.buses = s.cellar.buses := h.same hb
  cases _ : s.cellar
  cases _ : t.cellar
  simp_all

/-- A waybill changed, where it is there. -/
theorem State.find_onWb {s : State} {key : Nat} {x : Waybill} (f : Waybill → Waybill) (h : s.work.wbs.find key = some x) :
    (s.onWb key f).work.wbs.find key = some (f x) := by
  simp [State.onWb, h]

theorem State.find_endWb {s : State} {key : Nat} {x : Waybill} (h : s.work.wbs.find key = some x) :
    (s.endWb key).work.wbs.find key = some { x with st := 2 } := State.find_onWb _ h

/-- A waybill that ends is ready for its record. -/
theorem State.endWb_st {s : State} {key : Nat} {x : Waybill} (h : s.work.wbs.find key = some x) : ((s.endWb key).wb key).st = 2 := by
  rw [State.wb_of_find (State.find_endWb h)]

/-! ### Tallies (R77, R78, R80) -/

/-- A tally as a change of it leaves it: its mirror falls due where COUNT changes. -/
def Tally.changed (x y : Tally) : Tally := { y with due := y.due || (y.mirror && y.count != x.count) }

/-- A tally's row written. -/
def State.putTally (s : State) (t : Nat) (y : Tally) : State := { s with work := { s.work with tallies := s.work.tallies.put t y } }

/-- A tally that changes is written, is counted and notified of where it becomes ready, and wakes its waiters where it is. -/
theorem State.changeTally_steps {s : State} {t : Nat} {x : Tally} (f : Tally → Tally) (found : s.work.tallies.find t = some x) :
    ∃ m, Moves [.egress, .counters, .samples, .irqPending, .requests] (s.putTally t (x.changed (f x))) m ∧
      s.changeTally t f = if (x.changed (f x)).ready then m.wakeWaiters t else m := by
  unfold State.changeTally
  simp only [found]
  refine ⟨_, ?_, rfl⟩
  have counted : Moves [.egress, .counters, .samples, .irqPending, .requests] (s.putTally t (x.changed (f x)))
      (if (x.changed (f x)).ready && !x.ready then (s.putTally t (x.changed (f x))).countLedger 0x5015 1 else s.putTally t (x.changed (f x))) :=
    Moves.ite ((State.countLedger_moves _ _ _).mono (by decide)) (Moves.refl _ _)
  exact Moves.ite (counted.trans ((State.originate_moves _ _ _).mono (by decide))) counted

/-- A tally that changes is the only one that does. -/
theorem State.changeTally_tallies {s : State} {t : Nat} {x : Tally} (f : Tally → Tally) (found : s.work.tallies.find t = some x) :
    (s.changeTally t f).work.tallies = s.work.tallies.put t (x.changed (f x)) := by
  obtain ⟨m, moved, changed⟩ := State.changeTally_steps f found
  have tallies : m.work.tallies = s.work.tallies.put t (x.changed (f x)) := moved.same (p := .tallies) (by decide)
  rw [changed]
  split
  · exact tallies
  · exact tallies

/-- No waybill goes with a tally's change, though those that wait for it may become ready. -/
theorem State.changeTally_has {s : State} {t key : Nat} {x : Tally} (f : Tally → Tally) (found : s.work.tallies.find t = some x)
    (h : s.work.wbs.has key = true) : (s.changeTally t f).work.wbs.has key = true := by
  obtain ⟨m, moved, changed⟩ := State.changeTally_steps f found
  obtain ⟨wbs, -⟩ := moved.same (p := .waybills) (by decide)
  have here : m.work.wbs.has key = true := by rw [wbs]; exact h
  rw [changed]
  split
  · exact (Tab.has_map _ _ _).trans here
  · exact here

/-- A waybill that changes a tally ends, and the tally is as it has made it. -/
theorem State.changeTally_endWb {s : State} {t key : Nat} {x : Tally} {w : Waybill} (f : Tally → Tally) (tally : s.work.tallies.find t = some x)
    (found : s.work.wbs.find key = some w) :
    (((s.changeTally t f).endWb key).wb key).st = 2 ∧
      ((s.changeTally t f).endWb key).work.tallies = s.work.tallies.put t (x.changed (f x)) := by
  have here := Tab.find_of_has {} (State.changeTally_has f tally (Tab.has_of_find found))
  exact ⟨State.endWb_st here, State.changeTally_tallies f tally⟩

section Tallies

variable {s u : State} {stream : Fin 1048576} {seq : Nat} {w : Waybill} {x : Tally} (hs : s.running = true)
  (words : s.hasWords (wbKey stream.val seq) u) (found : u.work.wbs.find (wbKey stream.val seq) = some w) (key : w.key = wbKey stream.val seq)
  (st : w.st = 1)

include hs words found key st

theorem tallyInc_completes (tally : u.work.tallies.find (bitsOf (w.op 0) 15 0) = some x) (op : w.opc = 0x61) :
    Completes (.tallyInc stream seq) s fun t => (t.wb (wbKey stream.val seq)).st = 2 ∧ ∃ y : Tally,
      t.work.tallies = u.work.tallies.put (bitsOf (w.op 0) 15 0) y ∧ y.count = wrapAdd 64 x.count (w.op 1) ∧ y.target = x.target := by
  refine effect_completes hs (by rw [exec, execTallyInc]) words found st op ?_
  have work : (u.countLedger 0x5015 0).work = u.work := State.countLedger_work _ _ _
  obtain ⟨ended, tallies⟩ := State.changeTally_endWb (s := u.countLedger 0x5015 0) (fun x => { x with count := wrapAdd 64 x.count (w.op 1) })
    (by rw [work]; exact tally) (by rw [work]; exact found)
  rw [work] at tallies
  rw [key]
  exact ⟨ended, _, tallies, rfl, rfl⟩

theorem tallySet_completes (tally : u.work.tallies.find (bitsOf (w.op 0) 15 0) = some x) (op : w.opc = 0x62) :
    Completes (.tallySet stream seq) s fun t => (t.wb (wbKey stream.val seq)).st = 2 ∧ ∃ y : Tally,
      t.work.tallies = u.work.tallies.put (bitsOf (w.op 0) 15 0) y ∧ y.count = w.op 1 ∧ y.target = x.target := by
  refine effect_completes hs (by rw [exec, execTallySet]) words found st op ?_
  obtain ⟨ended, tallies⟩ := State.changeTally_endWb (fun x => { x with count := w.op 1 }) tally found
  rw [key]
  exact ⟨ended, _, tallies, rfl, rfl⟩

theorem tallyArm_completes (tally : u.work.tallies.find (bitsOf (w.op 0) 15 0) = some x) (op : w.opc = 0x63) :
    Completes (.tallyArm stream seq) s fun t => (t.wb (wbKey stream.val seq)).st = 2 ∧ ∃ y : Tally,
      t.work.tallies = u.work.tallies.put (bitsOf (w.op 0) 15 0) y ∧ y.target = w.op 1 ∧ y.count = x.count := by
  refine effect_completes hs (by rw [exec, execTallyArm]) words found st op ?_
  obtain ⟨ended, tallies⟩ := State.changeTally_endWb (fun x => { x with target := w.op 1 }) tally found
  rw [key]
  exact ⟨ended, _, tallies, rfl, rfl⟩

theorem tallyRead_completes (tally : u.work.tallies.find (bitsOf (w.op 0) 15 0) = some x) (op : w.opc = 0x64) :
    Completes (.tallyRead stream seq) s fun t =>
      t.work.wbs.find (wbKey stream.val seq) = some { w with mask := x.count, st := 2 } ∧ t.work.tallies = u.work.tallies := by
  refine effect_completes hs (by rw [exec, execTallyRead]) words found st op ?_
  rw [key, Tab.getD_of_find _ tally]
  exact ⟨State.find_endWb (State.find_onWb _ found), rfl⟩

end Tallies

/-! ### DRAIN, NOP and CANCEL (R53, R79) -/

/-- A waybill that a CANCEL hits. -/
def Waybill.hitBy (w x : Waybill) : Bool := x.earlier w && x.wid == bitsOf (w.op 0) 31 0 && decide (x.st ≤ 1) && !x.cancelled

/-- Every waybill that a CANCEL hits is cancelled. -/
def State.cancelHits (s : State) (w : Waybill) : State :=
  { s with work := { s.work with wbs := s.work.wbs.map fun _ x => if w.hitBy x then s.cancelWb x else x } }

theorem State.find_cancelHits {s : State} {w x : Waybill} {n : Nat} (h : s.work.wbs.find n = some x) :
    (s.cancelHits w).work.wbs.find n = some (if w.hitBy x then s.cancelWb x else x) := by
  simp [State.cancelHits, h]

/-- A waybill is not earlier than itself, so that its CANCEL does not hit it. -/
theorem Waybill.not_hitBy_self (w : Waybill) : w.hitBy w = false := by simp [Waybill.hitBy, Waybill.earlier]

/-- CANCEL: what it hits is cancelled, and it ends with the number of them. -/
def State.doCancel (s : State) (w : Waybill) : State :=
  ((s.cancelHits w).onWb w.key fun x => { x with mask := s.work.wbs.count fun _ x => w.hitBy x }).endWb w.key

theorem State.doCancel_self {s : State} {w : Waybill} (found : s.work.wbs.find w.key = some w) :
    ((s.doCancel w).wb w.key).st = 2 ∧ ((s.doCancel w).wb w.key).mask = s.work.wbs.count fun _ x => w.hitBy x := by
  have self : (s.cancelHits w).work.wbs.find w.key = some w := by
    rw [State.find_cancelHits found, Waybill.not_hitBy_self]
    rfl
  have ended := State.wb_of_find (State.find_endWb (State.find_onWb (fun x => { x with mask := s.work.wbs.count fun _ x => w.hitBy x }) self))
  exact ⟨congrArg Waybill.st ended, congrArg Waybill.mask ended⟩

theorem State.doCancel_other {s : State} {w x : Waybill} {n : Nat} (ne : n ≠ w.key) (h : s.work.wbs.find n = some x) :
    (s.doCancel w).work.wbs.find n = some (if w.hitBy x then s.cancelWb x else x) := by
  rw [← State.find_cancelHits h]
  simp only [State.doCancel, State.endWb, State.onWb, Tab.find_upd, if_neg ne]

section Control

variable {s u : State} {stream : Fin 1048576} {seq : Nat} {w : Waybill} (hs : s.running = true)
  (words : s.hasWords (wbKey stream.val seq) u) (found : u.work.wbs.find (wbKey stream.val seq) = some w) (key : w.key = wbKey stream.val seq)
  (st : w.st = 1)

include hs words found key st

theorem drain_completes (op : w.opc = 0x65) (first : u.work.wbs.rows.any (fun r => r.2.earlier w) = false) :
    Completes (.drain stream seq) s fun t => t.work.wbs.find (wbKey stream.val seq) = some { w with st := 2 } := by
  refine effect_completes hs (by rw [exec, execDrain]) words found st op ?_
  rw [if_neg (by simp [first]), key]
  exact State.find_endWb found

theorem nop_completes (op : w.opc = 0x70) : Completes (.nop stream seq) s fun t =>
    t.work.wbs = u.work.wbs.upd (wbKey stream.val seq) (fun x => { x with st := 2 }) ∧ t.work.tallies = u.work.tallies ∧ t.cellar = u.cellar := by
  refine effect_completes hs (by rw [exec, execNop]) words found st op ?_
  rw [key]
  exact ⟨rfl, rfl, rfl⟩

theorem cancel_completes (op : w.opc = 0x71) : Completes (.cancel stream seq) s fun t =>
    (t.wb (wbKey stream.val seq)).st = 2 ∧
      (t.wb (wbKey stream.val seq)).mask = u.work.wbs.count (fun _ x => w.hitBy x) ∧
      ∀ (n : Nat) (x : Waybill), n ≠ wbKey stream.val seq → u.work.wbs.find n = some x →
        t.work.wbs.find n = some (if w.hitBy x then u.cancelWb x else x) := by
  refine effect_completes (f := State.doCancel) hs (by rw [exec, execCancel]; rfl) words found st op ?_
  rw [← key] at found ⊢
  obtain ⟨ended, mask⟩ := State.doCancel_self found
  exact ⟨ended, mask, fun n x ne hx => State.doCancel_other ne hx⟩

end Control

/-! ### PUBLISH (R38 to R42) -/

theorem State.wcbLinesIn_congr {s t : State} (h : t.cellar = s.cellar) (pa len : Nat) : t.wcbLinesIn pa len = s.wcbLinesIn pa len := by
  have addr : ∀ ch line, t.lineAddr ch line = s.lineAddr ch line := fun ch line => by
    simp only [State.lineAddr, State.memberOf, State.group, h]
  simp only [State.wcbLinesIn, addr, h]

/-- The pages of a PUBLISH are looked up: no waybill and no memory changes. -/
theorem State.publishRanges_keeps (s : State) (w : Waybill) :
    (s.publishRanges w).2.work.wbs = s.work.wbs ∧ (s.publishRanges w).2.cellar = s.cellar :=
  have moved := State.publishRanges_moves s w
  ⟨(moved.same (p := .waybills) (by decide)).1, moved.cellar_same (by decide) (by decide) (by decide) (by decide) (by decide)⟩

/-- Nor does any change where lines of the LRC are dropped. -/
theorem State.publishDrop_keeps (s : State) (w : Waybill) : (s.publishDrop w).work.wbs = s.work.wbs ∧ (s.publishDrop w).cellar = s.cellar :=
  have moved := State.publishDrop_moves s w
  ⟨(moved.same (p := .waybills) (by decide)).1, moved.cellar_same (by decide) (by decide) (by decide) (by decide) (by decide)⟩

/-- The lines that a PUBLISH waits for. -/
def State.publishLines (s : State) (w : Waybill) : List Nat :=
  (((s.publishRanges w).1.map fun x => (s.publishRanges w).2.wcbLinesIn x.1 x.2).flatten).map fun l => l.1 * 2 ^ 40 + l.2

theorem State.publishLines_eq (s : State) (w : Waybill) :
    s.publishLines w = (((s.publishRanges w).1.map fun x => s.wcbLinesIn x.1 x.2).flatten).map fun l => l.1 * 2 ^ 40 + l.2 := by
  simp only [State.publishLines, State.wcbLinesIn_congr (s.publishRanges_keeps w).2]

section Publish

variable {s u : State} {stream : Fin 1048576} {seq : Nat} {w : Waybill} (hs : s.running = true)
  (words : s.hasWords (wbKey stream.val seq) u) (found : u.work.wbs.find (wbKey stream.val seq) = some w) (key : w.key = wbKey stream.val seq)
  (st : w.st = 1) (op : w.opc = 0x60)

include hs words found key st op

theorem publish_completes (step : w.pubStep = 0) : Completes (.publish stream seq) s fun t =>
    (t.wb (wbKey stream.val seq)).pubStep = 1 ∧ (t.wb (wbKey stream.val seq)).st = 1 ∧ t.cellar = u.cellar ∧
      (t.wb (wbKey stream.val seq)).drains =
        (((u.publishRanges w).1.map fun x => u.wcbLinesIn x.1 x.2).flatten).map fun l => l.1 * 2 ^ 40 + l.2 := by
  refine effect_completes hs (by rw [exec, execPublish]) words found st op ?_
  obtain ⟨wbs, cellar⟩ := u.publishRanges_keeps w
  have asked := State.wb_of_find (State.find_onWb (s := (u.publishRanges w).2) (fun x => { x with pubStep := 1, drains := u.publishLines w })
    (by rw [wbs]; exact found))
  rw [if_neg (by simp [step]), key, ← State.publishLines_eq]
  exact ⟨congrArg Waybill.pubStep asked, (congrArg Waybill.st asked).trans st, cellar, congrArg Waybill.drains asked⟩

theorem publishDrainDone_completes (step : w.pubStep = 1) {m : State}
    (hm : m = w.drains.foldl (fun (s : State) d => s.drainLine (d / 2 ^ 40) (d % 2 ^ 40)) u)
    (drained : w.drains.any (fun d => (m.chan (d / 2 ^ 40)).wcb.has (d % 2 ^ 40)) = false) :
    Completes (.publishDrainDone stream seq) s fun t =>
      t.cellar = m.cellar ∧
        (w.len ≤ 1048576 → (t.wb (wbKey stream.val seq)).st = 2 ∧ t.pool.lrc = (m.publishDrop w).pool.lrc) ∧
        (1048576 < w.len → (t.wb (wbKey stream.val seq)).st = 1 ∧ (t.wb (wbKey stream.val seq)).pubStep = 2 ∧
          t.pool.lrc = ((m.countLedger 0x5010 4).publishDrop w).pool.lrc) := by
  refine effect_completes hs (by rw [exec, execPublishDrainDone]) words found st op ?_
  have moved := Moves.foldl (l := w.drains) (f := fun (s : State) d => s.drainLine (d / 2 ^ 40) (d % 2 ^ 40))
    (fun v d => State.drainLine_moves v _ _) (Moves.refl _ u)
  rw [← hm] at moved
  obtain ⟨wbs, -⟩ := moved.same (p := .waybills) (by decide)
  have here : m.work.wbs.find (wbKey stream.val seq) = some w := by rw [wbs]; exact found
  rw [if_neg (by simp [step])]
  simp only [← hm]
  rw [if_neg (by rw [drained]; exact Bool.false_ne_true), key]
  obtain ⟨dropped, cellar⟩ := m.publishDrop_keeps w
  by_cases long : 1048576 < w.len
  · rw [if_neg (by omega)]
    obtain ⟨dropped', cellar'⟩ := (m.countLedger 0x5010 4).publishDrop_keeps w
    rw [State.countLedger_work] at dropped'
    rw [State.countLedger_cellar] at cellar'
    have swept := State.wb_of_find (State.find_onWb (s := (m.countLedger 0x5010 4).publishDrop w) (fun x => { x with pubStep := 2 })
      (by rw [dropped']; exact here))
    exact ⟨cellar', fun short => absurd short (by omega), fun _ => ⟨(congrArg Waybill.st swept).trans st, congrArg Waybill.pubStep swept, rfl⟩⟩
  · rw [if_pos (by omega)]
    exact ⟨cellar, fun _ => ⟨State.endWb_st (by rw [dropped]; exact here), rfl⟩, fun h => absurd h long⟩

theorem lrcSweepDone_completes (step : w.pubStep = 2) : Completes (.lrcSweepDone stream seq) s fun t =>
    (t.wb (wbKey stream.val seq)).st = 2 ∧ t.pool.lrc = (u.publishDrop w).pool.lrc := by
  refine effect_completes hs (by rw [exec, execLrcSweepDone]) words found st op ?_
  rw [if_pos (by simp [step]), key]
  exact ⟨State.endWb_st (by rw [(u.publishDrop_keeps w).1]; exact found), rfl⟩

end Publish

/-- Settles O18: each tally and control waybill has its one effect on the state in which it has its words. -/
theorem tallyAndControlWaybillsComplete : Obligations.TallyAndControlWaybillsComplete := by
  unfold Obligations.TallyAndControlWaybillsComplete
  intro s u stream seq w hs words found key st
  refine ⟨fun x tally => ⟨fun op => tallyInc_completes hs words found key st tally op, fun op => tallySet_completes hs words found key st tally op,
      fun op => tallyArm_completes hs words found key st tally op, fun op => tallyRead_completes hs words found key st tally op⟩,
    fun op first => drain_completes hs words found key st op first, fun op => nop_completes hs words found key st op,
    fun op => cancel_completes hs words found key st op, fun op step => publish_completes hs words found key st op step,
    fun op step m hm drained => publishDrainDone_completes hs words found key st op step hm drained,
    fun op step => lrcSweepDone_completes hs words found key st op step⟩

end Sys2Proof.Machine
end

section
namespace Sys2Proof.Machine

open Sys2Proof

/-! ## Streams that may enter ERROR, and change in nothing else (R69, R386, R396) -/

/-- The parts that an access to memory moves beside the streams. None of them says whose control data a line of the table region holds, but for
the guests' residency. -/
def accessParts : List Part :=
  [.regs, .egress, .counters, .samples, .log, .irqPending, .keyCaches, .guests, .requests, .lrc, .faults, .coherence, .chans, .dram, .out, .free]

/-- What accesses to memory come to as far as streams are concerned: a lost line makes the guests fatal whose control data it held, a key that does not
verify makes its guest fatal, and nothing else reaches a stream. -/
inductive Reports : State → State → Prop where
  | calm {s t : State} : Moves accessParts s t → Reports s t
  | lost (s : State) (pa ch : Nat) : Reports s ((s.controlOf pa).foldl (fun s g => s.guestFatal g pa ch) s)
  | keyFail (s : State) (gid : Nat) : Reports s (s.keyFail gid)
  | trans {s t u : State} : Reports s t → Reports t u → Reports s u

theorem Reports.refl (s : State) : Reports s s := .calm (Moves.refl _ s)

theorem Moves.reports {ps : List Part} {s t : State} (h : Moves ps s t) (k : Part.within ps accessParts = true) : Reports s t := .calm (h.mono k)

theorem Reports.then_moves {ps : List Part} {s t u : State} (k : Reports s t) (h : Moves ps t u) (hp : Part.within ps accessParts = true) :
    Reports s u := k.trans (h.reports hp)

theorem Reports.ite {c : Prop} [Decidable c] {s a b : State} (h : Reports s a) (k : Reports s b) : Reports s (if c then a else b) := by
  split <;> assumption

theorem Reports.foldl {α : Type} {f : State → α → State} (h : ∀ s x, Reports s (f s x)) (l : List α) (s : State) : Reports s (l.foldl f s) := by
  induction l generalizing s with
  | nil => exact Reports.refl s
  | cons x l ih => exact (h s x).trans (ih (f s x))

/-- The hearth's own state changed, but for the reverse map. -/
theorem Reports.hearth {s t : State} (k : Reports s t) {x : Hearth} (h : x.rmap = t.hearth.rmap := by rfl) : Reports s { t with hearth := x } := by
  refine k.trans (.calm ?_)
  simp only [moves_mk]
  exact Moves.record (Moves.refl _ t) (h_hearth := ⟨.inl (by decide), .inr h⟩)

/-! ### Lines read, drained and written -/

theorem State.reportLost_reports (s : State) (ch line : Nat) (pa reader : Option Nat) : Reports s (s.reportLost ch line pa reader) := by
  have logged : ∀ w5 : Nat, Reports s ((((s.onChan ch fun c => { c with ueLost := satInc 32 c.ueLost }).countChan ch 0x3015 4).log 0x02
      (chanDie ch) ch (line * 64) (pa.getD 0) w5).memIrq ch) := fun w5 =>
    ((((State.onChan_moves s ch _).reports (by decide)).then_moves (State.countChan_moves _ _ _ _) (by decide)).then_moves
      (State.log_moves _ _ _ _ _ _ _) (by decide)).then_moves (State.memIrq_moves _ _) (by decide)
  unfold State.reportLost
  cases pa with
  | none => exact logged _
  | some a => exact ((logged _).trans (.lost _ _ _)).ite (logged _)

theorem State.poisonLine_reports (s : State) (ch line : Nat) (reader : Option Nat) : Reports s (s.poisonLine ch line reader) :=
  (((State.putLine_moves s ch line _ _).reports (by decide)).then_moves (State.useFree_moves _ _) (by decide)).trans
    (State.reportLost_reports _ _ _ _ _)

theorem State.countBuilt_reports (s : State) (r : Got) (ch line m : Nat) (reader : Option Nat) : Reports s (s.countBuilt r ch line m reader) :=
  (Reports.refl s).ite (((State.reportLost_reports s _ _ _ _).ite (Reports.refl s)).ite ((State.countChan_moves s _ _ _).reports (by decide)))

theorem State.fetch_reports (s : State) (pl : Place) (source e1 e2 : Nat) (reader : Option Nat) :
    Reports s (s.fetch pl source e1 e2 reader).2 := by
  have stored : ∀ ch line, Reports s (s.readStored ch line source e1 e2).2 :=
    fun ch line => (State.readStored_moves s ch line source e1 e2).reports (by decide)
  have built : ∀ (u : State) g m line, Reports u (u.reconstruct g m line source).2 :=
    fun u g m line => (State.reconstruct_moves u g m line source).reports (by decide)
  have told : ∀ g m line ch, Reports s ((s.reconstruct g m line source).2.countBuilt (s.reconstruct g m line source).1 ch line m reader) :=
    fun g m line ch => (built s g m line).trans (State.countBuilt_reports _ _ _ _ _ _)
  unfold State.fetch
  split
  case h_1 => exact Reports.refl s
  case h_2 ch co =>
    split
    · exact Reports.refl s
    split
    · exact Reports.refl s
    have read := stored ch (co / 64)
    split
    all_goals rename_i h; rw [h] at read
    · exact read
    · exact read.trans (State.poisonLine_reports _ _ _ _)
  case h_3 g m co =>
    dsimp only
    split
    · exact told _ _ _ _
    rename_i ch _
    split
    · exact told _ _ _ _
    split
    · split
      · exact built s _ _ _
      · exact told _ _ _ _
    have read := stored ch (co / 64)
    split
    all_goals rename_i u h; rw [h] at read
    · exact read
    have again := read.trans (built u g m (co / 64))
    split
    · exact again
    split
    · exact again.trans (State.poisonLine_reports _ _ _ _)
    · exact (((again.then_moves (State.putLine_moves _ _ _ _ _) (by decide)).then_moves (State.countChan_moves _ _ _ _)
        (by decide)).then_moves (State.onChan_moves _ _ _) (by decide)).then_moves (State.log_moves _ _ _ _ _ _ _) (by decide)

theorem State.readLine_reports (s : State) (pa gid e1 e2 : Nat) : Reports s (s.readLine pa gid e1 e2).2 := by
  have fetched := State.fetch_reports s (s.place (pa / 64 * 64)) 0 e1 e2 (some gid)
  have looked := fun ch => fetched.then_moves (State.keyLook_moves _ ch (pa / 64 * 64) gid) (by decide)
  unfold State.readLine
  extract_lets a pl
  split
  split
  · extract_lets view
    split
    · exact Reports.refl s
    dsimp only
    split
    · exact fetched
    split
    · exact fetched
    · exact looked _
  · dsimp only
    split
    · exact fetched
    split
    · exact fetched
    · exact looked _

theorem State.drainLine_reports (s : State) (ch line : Nat) : Reports s (s.drainLine ch line) := by
  unfold State.drainLine
  split
  · exact Reports.refl s
  rename_i w _
  extract_lets pl pa strong evac dead
  clear_value dead evac strong pa pl
  refine (Reports.refl s).ite (((State.onChan_moves s _ _).reports (by decide)).ite ?_)
  have read : Reports s (if w.whole && !strong then (({ data := zeroBytes 64 } : Got), s) else s.fetch pl 0 0 0 none).2 := by
    split
    · exact Reports.refl s
    · exact State.fetch_reports _ _ _ _ _ _
  generalize (if w.whole && !strong then (({ data := zeroBytes 64 } : Got), s) else s.fetch pl 0 0 0 none) = x at read ⊢
  obtain ⟨old, u⟩ := x
  refine Reports.ite read ?_
  have looked := read.then_moves (State.keyLook_moves u ch pa w.gid) (by decide)
  have counted := Reports.ite (c := w.whole = true) looked (looked.then_moves (State.countChan_moves _ ch 0x3014 3) (by decide))
  have stored := fun (bs : Bytes) (m : Nat) =>
    counted.ite (c := dead = true) (counted.then_moves (State.putLine_moves _ ch line bs m) (by decide))
  dsimp only
  refine Reports.then_moves (Reports.then_moves (Reports.then_moves ?_ (State.onChan_moves _ _ _) (by decide))
    (State.countChan_moves _ _ _ _) (by decide)) (State.leaveQ_moves _ _ _) (by decide)
  split
  · refine (stored _ _).ite ?_
    have sent := fun bs m' g m d dm => (stored bs m').then_moves (State.sendDelta_moves _ g m line d dm) (by decide)
    split
    · exact ((sent _ _ _ _ _ _).then_moves (State.onChan_moves _ _ _) (by decide)).then_moves (State.leaveQ_moves _ _ _) (by decide)
    · exact sent _ _ _ _ _ _
  · exact stored _ _

theorem State.clearForeign_reports (s : State) (pa gid : Nat) : Reports s (s.clearForeign pa gid) := by
  unfold State.clearForeign
  extract_lets a
  split
  split
  · exact Reports.refl s
  have drained := State.drainLine_reports s
  exact (Reports.refl s).ite ((((drained _ _).then_moves (State.onChan_moves _ _ _) (by decide)).then_moves (State.discardQ_moves _ _ _)
    (by decide)).ite (drained _ _))

theorem State.wcbWrite_reports (s : State) (pa gid : Nat) (bs : Bytes) (poison : Bool) : Reports s (s.wcbWrite pa gid bs poison) := by
  have cleared := State.clearForeign_reports s pa gid
  unfold State.wcbWrite
  generalize s.clearForeign pa gid = u at cleared ⊢
  dsimp only
  have put := fun ch f => cleared.then_moves (State.onChan_moves u ch f) (by decide)
  refine Reports.ite (Reports.then_moves ?_ (State.countChan_moves _ _ _ _) (by decide))
    (Reports.then_moves ?_ (State.enterQ_moves _ _ _) (by decide))
  all_goals
    split
    · split
      · exact (put _ _).ite (((put _ _).then_moves (State.onChan_moves _ _ _) (by decide)).then_moves (State.enterQ_moves _ _ _) (by decide))
      · exact put _ _
    · exact put _ _

theorem State.wcbPut_reports (s : State) (pa gid : Nat) (bs : Bytes) (poison : Bool) : Reports s (s.wcbPut pa gid bs poison) := by
  have written := State.wcbWrite_reports s pa gid bs poison
  exact written.ite (written.trans (State.drainLine_reports _ _ _))

/-! ### The hearth and its lines (R219 to R239) -/

theorem State.hread_reports (s : State) (l : Nat) : Reports s (s.hread l).2 := State.readLine_reports s _ _ _ _

theorem State.hwrite_reports (s : State) (l : Nat) (d : Bytes) (poi : Bool) : Reports s (s.hwrite l d poi) := State.wcbPut_reports s _ _ _ _

theorem Reports.setDir {s t : State} (k : Reports s t) (l : Nat) (d : Dir) : Reports s (t.setDir l d) :=
  k.then_moves (State.setDir_moves _ _ _) (by decide)

theorem Reports.dropDir {s t : State} (k : Reports s t) (l : Nat) : Reports s (t.dropDir l) :=
  k.then_moves (State.dropDir_moves _ _) (by decide)

theorem Reports.hqueue {s t : State} (k : Reports s t) (l n : Nat) : Reports s (t.hqueue l n) :=
  k.then_moves (State.hqueue_moves _ _ _) (by decide)

theorem Reports.hdone {s t : State} (k : Reports s t) (n : Nat) : Reports s (t.hdone n) := k.then_moves (State.hdone_moves _ _) (by decide)

theorem Reports.granted {s t : State} (k : Reports s t) (n : Nat) (r : Req) (opc : Nat) (data : Bytes) (poi : Bool) :
    Reports s ((t.grantMsg n r opc data poi).hdone n) := (k.then_moves (State.grantMsg_moves _ _ _ _ _ _) (by decide)).hdone n

theorem State.hfinish_reports (s : State) (l : Nat) (d : Dir) : Reports s (s.hfinish l d) := by
  unfold State.hfinish
  refine (Reports.refl s).ite ?_
  extract_lets lost u
  have written : Reports s u := by
    dsimp only [u]
    split
    · exact State.hwrite_reports _ _ _ _
    · exact Reports.refl s
  clear_value u
  have read := written.trans (u.hread_reports l)
  split
  case h_1 t =>
    split
    · exact written.setDir _ _
    dsimp only
    exact ((written.setDir _ _).granted _ _ _ _ _).ite (((read.setDir _ _).ite ((read.setDir _ _).granted _ _ _ _ _)).ite
      ((written.setDir _ _).hdone _))
  case h_2 t upg =>
    split
    · exact written.dropDir _
    dsimp only
    exact ((written.setDir _ _).granted _ _ _ _ _).ite (((written.setDir _ _).granted _ _ _ _ _).ite
      (((read.setDir _ _).ite ((read.setDir _ _).granted _ _ _ _ _)).ite ((written.setDir _ _).hdone _)))
  case h_3 => exact written.setDir _ _
  case h_4 => exact written.setDir _ _
  case h_5 => exact written.dropDir _
  case h_6 => exact Reports.ite ((written.hearth).setDir _ _) ((written.dropDir _).ite (written.setDir _ _))
  case h_7 => exact Reports.ite ((written.dropDir _).hearth) (written.dropDir _)
  case h_8 => exact written.setDir _ _

/-- An entry whose answers have all come, if it is there, is done with. -/
theorem Reports.finished {s t : State} (k : Reports s t) (l : Nat) :
    Reports s (match t.dirOf l with | some d => t.hfinish l d | none => t) := by
  split
  · exact k.trans (State.hfinish_reports _ _ _)
  · exact k

theorem State.backInvalidate_reports (s : State) (l : Nat) : Reports s (s.backInvalidate l) := by
  unfold State.backInvalidate
  refine (Reports.refl s).ite ?_
  split
  · exact (((Reports.refl s).setDir _ _).then_moves (State.recall_moves _ _ _) (by decide)
      |>.then_moves (State.countLedger_moves _ _ _) (by decide)).finished _
  · exact Reports.refl s

theorem State.serveDI_reports (s : State) (t : Nat) (r : Req) (l c : Nat) : Reports s (s.serveDI t r l c) := by
  have read := s.hread_reports l
  exact ((s.backInvalidate_reports l).hqueue _ _).ite ((read.hqueue _ _).ite
    ((read.then_moves (State.hnew_moves _ _ _) (by decide)).granted _ _ _ _ _))

theorem State.serveDS_reports (s : State) (t : Nat) (r : Req) (l c : Nat) (d : Dir) : Reports s (s.serveDS t r l c d) := by
  have read := s.hread_reports l
  unfold State.serveDS
  refine Reports.ite ((read.hqueue _ _).ite (((read.hearth).setDir _ _).granted _ _ _ _ _)) ?_
  refine Reports.then_moves (Reports.then_moves (Reports.ite (Reports.then_moves ?_ (State.countN_moves _ _ _ _ _ _) (by decide)) ?_)
    (State.snoopAll_moves _ _ _ _) (by decide)) (State.onReq_moves _ _ _) (by decide)
  all_goals exact (Reports.refl s).setDir _ _

theorem State.flushLine_reports (s : State) (l : Nat) (d : Dir) (ce : Option Nat) : Reports s (s.flushLine l d ce) := by
  unfold State.flushLine
  extract_lets put u
  have asked : Reports s u := by
    dsimp only [u, put]
    split
    · exact ((Reports.refl s).setDir _ _).then_moves (State.recall_moves _ _ _) (by decide)
    · exact ((Reports.refl s).setDir _ _).then_moves (State.snoopAll_moves _ _ _ _) (by decide)
  exact asked.finished l

theorem State.flushOn_reports (s : State) : Reports s s.flushOn := by
  unfold State.flushOn
  split
  · exact Reports.refl s
  rename_i ce _
  have flushed := Reports.foldl (f := fun (s : State) (r : Nat × Dir) => if r.2.busy then s else s.flushLine r.1 r.2 ce)
    (fun v r => (Reports.refl v).ite (State.flushLine_reports v _ _ _)) s.flushLeft s
  dsimp only
  exact Reports.ite ((flushed.hearth).then_moves (State.setReg_moves _ _ _) (by decide)) flushed

theorem Reports.flushOn {s t : State} (k : Reports s t) : Reports s t.flushOn := k.trans (State.flushOn_reports t)

theorem State.uncachedFree_reports (s : State) (mine : Grant → Bool) : Reports s (s.uncachedFree mine) :=
  (Reports.refl s).ite (Reports.foldl (fun v l => (Reports.refl v).dropDir l) _ s).flushOn

theorem State.afterWb_reports (s : State) (l : Nat) (d : Dir) : Reports s (s.afterWb l d) := by
  unfold State.afterWb
  extract_lets u grantTo
  have written : Reports s u := by
    dsimp only [u]
    split
    · exact State.hwrite_reports _ _ _ _
    · exact Reports.refl s
  have granted : ∀ t own, Reports s (grantTo u t own) := by
    intro t own
    dsimp only [grantTo]
    split
    · exact written.dropDir _
    · exact ((written.dropDir _).trans (State.serveDI_reports _ _ _ _ _)).ite ((written.setDir _ _).trans (State.hfinish_reports _ _ _))
  clear_value u
  split
  case h_1 | h_2 => exact granted _ _
  case h_3 | h_4 => exact written.setDir _ _
  case h_5 => exact written.dropDir _

end Sys2Proof.Machine
end

section
namespace Sys2Proof.Machine

open Sys2Proof

/-! ### Requests (R10, R35, R137, R194, R219) -/

theorem State.spill_reports (s : State) (gid : Nat) : Reports s (s.spill gid) :=
  (Reports.foldl (fun v l => (State.wcbPut_reports v _ _ _ _).then_moves (State.useFree_moves _ _) (by decide)) _ s).then_moves
    (State.onGuest_moves _ _ _) (by decide)

/-- Swaps changed, and no guest. -/
theorem Reports.swaps {s t : State} (k : Reports s t) {l : List Swap} : Reports s { t with pool := { t.pool with swaps := l } } := by
  refine k.trans (.calm ?_)
  simp only [moves_mk]
  exact Moves.record (Moves.refl _ t)

theorem State.swapSlot_reports (s : State) (w : Swap) : Reports s (s.swapSlot w) := by
  refine (Reports.refl s).ite ((Reports.refl s).swaps.ite ?_)
  split
  · exact (State.spill_reports s _).swaps
  · exact Reports.refl s

theorem State.startSwap_reports (s : State) (gid : Nat) : Reports s (s.startSwap gid) :=
  (Reports.refl s).ite (((Reports.refl s).swaps.trans (State.swapSlot_reports _ _)).then_moves (State.countLedger_moves _ _ _) (by decide))

theorem Reports.onReq {s t : State} (k : Reports s t) (n : Nat) (f : Req → Req) : Reports s (t.onReq n f) :=
  k.then_moves (State.onReq_moves _ _ _) (by decide)

theorem Reports.endReq {s t : State} (k : Reports s t) (n status : Nat) (data : Bytes) (poi : Bool) : Reports s (t.endReq n status data poi) :=
  k.then_moves (State.endReq_moves _ _ _ _ _) (by decide)

theorem Reports.ackReq {s t : State} (k : Reports s t) (n status : Nat) (data : Bytes) (poi : Bool) : Reports s (t.ackReq n status data poi) :=
  (k.endReq n status data poi).trans (State.uncachedFree_reports _ _)

theorem State.needLine_reports (s : State) (t : Nat) (r : Req) (pa : Nat) (lrc : Bool) : Reports s (s.needLine t r pa lrc) := by
  refine (Reports.refl s).ite ?_
  have looked : Reports s (if lrc then s.lrcLook pa r.gid else (none, s)).2 := by
    split
    · exact (State.lrcLook_moves s pa r.gid).reports (by decide)
    · exact Reports.refl s
  generalize (if lrc then s.lrcLook pa r.gid else (none, s)) = x at looked ⊢
  obtain ⟨hit, u⟩ := x
  have read := looked.trans (State.readLine_reports u pa r.gid 0 0)
  have queued := fun (v : State) (k : Reports s v) => k.then_moves (State.queueRead_moves v pa t) (by decide)
  dsimp only
  split
  · exact looked.onReq _ _
  · exact ((queued _ read).ite (((read.onReq _ _).then_moves (State.lrcFill_moves _ _ _ _) (by decide)).ite (read.onReq _ _))).ite
      (queued _ looked)

theorem State.load_reports (s : State) (t : Nat) (r : Req) : Reports s (s.load t r) := by
  have needed := Reports.foldl (f := fun (s : State) a => s.needLine t r a r.lrc) (fun v a => State.needLine_reports v t r a r.lrc) r.lines s
  unfold State.load
  split
  · exact (State.hearthWait_moves s _ _ _).reports (by decide)
  dsimp only
  split
  · exact needed
  · exact (needed.endReq _ _ _ _).ite (needed.onReq _ _)

theorem State.store_reports (s : State) (t : Nat) (r : Req) : Reports s (s.store t r) := by
  have written := Reports.foldl (f := fun (s : State) (x : Nat × Bytes) => s.wcbWrite x.1 r.gid x.2 r.p.poi)
    (fun v x => State.wcbWrite_reports v _ _ _ _) (storeLines r.pas r.p.payload) s
  unfold State.store
  split
  · exact (State.hearthWait_moves s _ _ _).reports (by decide)
  · exact ((Reports.refl s).ackReq _ _ _ _).ite ((written.ackReq _ _ _ _).ite ((Reports.refl s).onReq _ _))

theorem State.atomic_reports (s : State) (t : Nat) (r : Req) : Reports s (s.atomic t r) := by
  have needed := Reports.foldl (f := fun (s : State) a => s.needLine t r a false) (fun v a => State.needLine_reports v t r a false) r.lines s
  unfold State.atomic
  split
  · exact (State.hearthWait_moves s _ _ _).reports (by decide)
  dsimp only
  split
  · exact (needed.onReq _ _).ite ((needed.ackReq _ _ _ _).ite ((needed.onReq _ _).ite
      (((needed.trans (State.wcbWrite_reports _ _ _ _ _)).then_moves (State.countChan_moves _ _ _ _) (by decide)).ackReq _ _ _ _)))
  · exact needed

theorem State.takeWb_reports (s : State) (t : Nat) (r : Req) (l c : Nat) : Reports s (s.takeWb t r l c) := by
  have acked : ∀ v, Reports s v → Reports s ((v.grantMsg t r 0x18 [] false).hdone t) := fun v k => k.granted _ _ _ _ _
  have late := (acked s (Reports.refl s)).then_moves (State.countLedger_moves _ 0x5014 3) (by decide)
  unfold State.takeWb
  dsimp only
  split
  · exact late
  rename_i d _
  refine Reports.ite (Reports.flushOn (acked _ (Reports.dropDir ?_ _)))
    (Reports.ite (((acked _ (State.afterWb_reports s _ _)).flushOn).ite (acked _ ((Reports.refl s).setDir _ _))) late)
  split
  · exact State.hwrite_reports _ _ _ _
  · exact Reports.refl s

theorem State.coherent_reports (s : State) (t : Nat) (r : Req) : Reports s (s.coherent t r) := by
  unfold State.coherent
  split
  · refine ((Reports.refl s).endReq _ _ _ _).ite ((State.takeWb_reports s _ _ _ _).ite (((Reports.refl s).hqueue _ _).ite ?_))
    split
    · exact State.serveDI_reports _ _ _ _ _
    · rename_i d _
      have served : ∀ l c, Reports s (if d.st == 2 then s.serveDX t r l c d else s.serveDS t r l c d) := fun l c =>
        ((State.serveDX_moves s t r l c d).reports (by decide)).ite (State.serveDS_reports s t r l c d)
      dsimp only
      split
      · exact ((served _ _).trans (State.hfinish_reports _ _ _)).ite (served _ _)
      · exact served _ _
  · exact (Reports.refl s).endReq _ _ _ _

theorem State.perform_reports (s : State) (t : Nat) (r : Req) : Reports s (s.perform t r) :=
  (State.load_reports s t r).ite ((State.store_reports s t r).ite ((State.atomic_reports s t r).ite (State.coherent_reports s t r)))

theorem State.settled_reports (s : State) (t : Nat) (r : Req) : Reports s (s.settled t r) := by
  unfold State.settled
  split
  · exact (Reports.refl s).onReq _ _
  · exact State.perform_reports s t r

theorem State.onPages_reports (s : State) (t : Nat) (r : Req) (outs : List Page) : Reports s (s.onPages t r outs) := by
  have filled : ∀ (w : Bool), Reports s (outs.foldl (fun (s : State) x => match x.xl with
      | .zero l p a => if w then s.startFill r.gid l p a else s
      | _ => s) s) := fun w => by
    refine Reports.foldl (fun v x => ?_) outs s
    split
    · exact ((State.startFill_moves v _ _ _ _).reports (by decide)).ite (Reports.refl v)
    · exact Reports.refl v
  unfold State.onPages
  split
  · exact (Reports.refl s).endReq _ _ _ _
  split
  · exact (State.holdReq_moves s _ _ _ _).reports (by decide)
  · exact ((filled (writes r.p.opc)).onReq _ _).trans (State.settled_reports _ _ _)

theorem State.translate_reports (s : State) (t : Nat) (r : Req) : Reports s (s.translate t r) := by
  have counted := (State.countLedger_moves s 0x5011 0).reports (by decide)
  exact (counted.onReq _ _).ite ((counted.then_moves (State.countLedger_moves _ _ _) (by decide)).trans (State.onPages_reports _ _ _ _))

end Sys2Proof.Machine
end

section
namespace Sys2Proof.Machine

open Sys2Proof

/-! ### What reaches no stream: those of guests that hold no line of the table region -/

/-- Streams by numbers, and of guests, that no line of the table region stands for: no layout, reverse map or table belongs to anyone, and no stream
has entered ERROR for a guest's control data. -/
def State.detached (s : State) : Prop :=
  s.work.layouts = {} ∧ s.hearth.rmap = {} ∧ s.trans.tables = [] ∧
    ∀ r ∈ s.work.streams.rows, 2 ^ 20 ≤ r.1 ∧ 2 ^ 20 ≤ r.2.gid ∧ ∀ e, r.2.err = some e → e.2 ≠ 0x07

theorem Moves.detached {ps : List Part} {s t : State} (h : Moves ps s t) (hl : Part.layouts ∉ ps) (hr : Part.rmap ∉ ps)
    (ht : Part.tables ∉ ps) (hs : Part.streams ∉ ps) (k : s.detached) : t.detached := by
  obtain ⟨layouts, rmap, tables, streams⟩ := k
  obtain ⟨-, same, -⟩ := h.same ht
  refine ⟨(h.same hl).trans layouts, (h.same hr).trans rmap, same.trans tables, ?_⟩
  rw [(h.same hs).1]
  exact streams

theorem Moves.detached_of_access {s t : State} (h : Moves accessParts s t) (k : s.detached) : t.detached :=
  h.detached (by decide) (by decide) (by decide) (by decide) k

/-- One stream changed, and still with no control data to lose. -/
theorem State.detached.put {s : State} (k : s.detached) {n : Nat} {x : Stream} (hn : 2 ^ 20 ≤ n) (hg : 2 ^ 20 ≤ x.gid)
    (he : ∀ e, x.err = some e → e.2 ≠ 0x07) {w : Work} (hl : w.layouts = s.work.layouts) (hw : w.streams = s.work.streams.put n x) :
    State.detached { s with work := w } := by
  obtain ⟨layouts, rmap, tables, streams⟩ := k
  refine ⟨hl.trans layouts, rmap, tables, fun r hr => ?_⟩
  rw [hw] at hr
  rcases mem_putRow hr with rfl | hr
  · exact ⟨hn, hg, he⟩
  · exact streams r hr

theorem State.detached.streamError {s : State} (k : s.detached) (n : Nat) {status : Nat} (h : status ≠ 0x07) : (s.streamError n status).detached := by
  cases found : s.work.streams.find n with
  | none => simpa [State.streamError, found] using k
  | some x =>
    obtain ⟨-, -, -, streams⟩ := id k
    obtain ⟨number, gid, err⟩ := streams _ (mem_rows_of_find found)
    unfold State.streamError
    simp only [found]
    split
    · exact k
    · refine (State.irqEdge_moves _ _).detached (by decide) (by decide) (by decide) (by decide)
        ((State.originate_moves _ _ _).detached (by decide) (by decide) (by decide) (by decide) ?_)
      exact k.put (x := { x with err := some (x.seq, status), held := none }) number gid (fun e he => Option.some.inj he ▸ h) rfl rfl

theorem State.detached.foldl {α : Type} {f : State → α → State} {l : List α} (h : ∀ s, ∀ x ∈ l, s.detached → (f s x).detached) {s : State}
    (k : s.detached) : (l.foldl f s).detached := by
  induction l generalizing s with
  | nil => exact k
  | cons x l ih => exact ih (fun s y hy => h s y (List.mem_cons_of_mem _ hy)) (h s x (List.mem_cons_self ..) k)

theorem State.detached.keyFail {s : State} (k : s.detached) (gid : Nat) : (s.keyFail gid).detached := by
  unfold State.keyFail
  split
  · exact k
  split
  · exact k
  · exact State.detached.foldl (fun v r _ hv => by split; exacts [hv.streamError _ (by decide), hv])
      ((State.irqEdge_moves _ _).detached (by decide) (by decide) (by decide) (by decide)
        ((State.log_moves _ _ _ _ _ _ _).detached (by decide) (by decide) (by decide) (by decide)
          ((State.onGuest_moves _ _ _).detached (by decide) (by decide) (by decide) (by decide) k)))

/-- A guest that owns none of the streams becomes fatal. -/
theorem State.detached.guestFatal {s : State} (k : s.detached) {gid : Nat} (h : gid < 2 ^ 20) (pa ch : Nat) : (s.guestFatal gid pa ch).detached := by
  unfold State.guestFatal
  split
  · exact k
  split
  · exact k
  · have logged := (State.memIrq_moves _ ch).detached (by decide) (by decide) (by decide) (by decide)
      ((State.log_moves _ 0x0A (chanDie ch) gid pa 0 0).detached (by decide) (by decide) (by decide) (by decide)
        ((State.onGuest_moves s gid fun g => { g with fatal := 1 }).detached (by decide) (by decide) (by decide) (by decide) k))
    refine State.detached.foldl (fun v r hr hv => ?_) logged
    obtain ⟨-, -, -, streams⟩ := logged
    obtain ⟨-, gid', -⟩ := streams r hr
    rw [if_neg (by simp; omega)]
    exact hv

/-- The guests whose control data a line holds own none of the streams. -/
theorem State.detached.controlOf {s : State} (k : s.detached) {pa gid : Nat} (h : gid ∈ s.controlOf pa) : gid < 2 ^ 20 := by
  obtain ⟨layouts, rmap, tables, streams⟩ := k
  unfold State.controlOf at h
  simp only [layouts, rmap, tables] at h
  split at h
  · split at h
    · rw [List.mem_singleton.mp h]
      omega
    · cases h
  split at h
  · split at h
    · rename_i found
      obtain ⟨number, -⟩ := streams _ (mem_rows_of_find found)
      dsimp only at number
      omega
    · cases h
  split at h
  · simp at h
  · split at h <;> simp at h

theorem Reports.detached {s t : State} (h : Reports s t) : s.detached → t.detached := by
  induction h with
  | calm moved => exact moved.detached_of_access
  | lost s pa ch => exact fun k => State.detached.foldl (fun v g hg hv => hv.guestFatal (k.controlOf hg) _ _) k
  | keyFail s gid => exact fun k => k.keyFail gid
  | trans _ _ h1 h2 => exact fun k => h2 (h1 k)

theorem State.detached.doorbell {s : State} (k : s.detached) (r : Req) : (s.doorbell r).detached := by
  unfold State.doorbell
  dsimp only
  split
  · exact (State.dropPkt_moves _ _ _).detached (by decide) (by decide) (by decide) (by decide) k
  split
  · rename_i bell resident
    cases found : s.work.streams.find (bitsOf r.p.addr 47 28) with
    | none =>
      simp only [State.applyBell, Tab.upd, found]
      exact k
    | some x =>
      obtain ⟨-, -, -, streams⟩ := id k
      obtain ⟨number, gid, err⟩ := streams _ (mem_rows_of_find found)
      refine k.put (x := { x with tail := bitsOf r.p.addr 20 0, used := s.work.stamp + 1 }) number gid err rfl ?_
      simp [Tab.upd, found]
  · exact (State.enterQ_moves _ _ _).detached (by decide) (by decide) (by decide) (by decide) k

theorem State.detached.access {s : State} (k : s.detached) (t : Nat) : (s.access t).detached := by
  unfold State.access
  split
  · exact k
  rename_i r _
  split
  · exact k
  have left : (match r.stage with | .hold _ => s.leaveQ qidFault t | _ => s).detached := by
    split
    · exact (State.leaveQ_moves _ _ _).detached (by decide) (by decide) (by decide) (by decide) k
    · exact k
  extract_lets u
  change u.detached at left
  clear_value u
  split
  · split
    · exact (State.settled_reports _ _ _).detached left
    · exact (State.perform_reports _ _ _).detached left
  split
  · exact ((Reports.refl _).endReq _ _ _ _).detached left
  split
  · exact ((State.startSwap_reports _ _).onReq _ _).detached left
  have touched := ((State.touchGuest_moves u r.gid).reports (by decide)).detached left
  dsimp only
  split
  · split
    · exact ((Reports.refl _).onReq _ _).detached touched
    · exact (((State.freeTracker_moves _ t).reports (by decide)).detached touched).doorbell r
  split
  · exact (State.translate_reports _ _ _).detached touched
  split
  · exact ((Reports.refl _).endReq _ _ _ _).detached touched
  split
  · exact (((Reports.refl _).onReq _ _).trans (State.translate_reports _ _ _)).detached touched
  · exact ((Reports.keyFail _ _).endReq _ _ _ _).detached touched

theorem State.detached.resume {s : State} (k : s.detached) (f : Req → Bool) : (s.resume f).detached :=
  State.detached.foldl (fun _ r _ hv => hv.access r.1) k

end Sys2Proof.Machine
end

section
namespace Sys2Proof.Machine

open Sys2Proof

/-! ## STREAM_DESTROY of a stream whose entry is lost (R66, R69, R386) -/

/-- A device that serves under layout 0x01, its channels gone, with streams 0 and 2^20 of one guest. The entry of stream 0 lies in group 0; that of
stream 2^20, and the guest's own entry, lie in no line of the table region, so that stream 0's is the only line of the guest's control data. -/
def entryLost : State where
  power := { aon := true, inReset := false }
  sec := { booted := true }
  pool := { guests := { rows := [(2 ^ 20, {})] } }
  cellar := { layout := 1, cap := 2 ^ 28, bytes := 2 ^ 34, tableBase := 6144, groups := { rows := [(0, { members := upto 9 })] } }
  work := { streams := { rows := [(0, { gid := 2 ^ 20 }), (2 ^ 20, { gid := 2 ^ 20 })] } }

set_option maxRecDepth 10000 in
/-- Its entry is overwritten with zeros, for which the old line is read. It is lost, so that the guest becomes fatal, and the other stream enters
ERROR. -/
theorem entryLost_destroyed : Completes .streamDestroy entryLost fun t =>
    (t.work.streams.find (2 ^ 20)).map (·.err) = some (some (0, 0x07)) ∧ t.work.layouts = {} ∧ t.hearth.rmap = {} ∧ t.trans.tables = [] :=
  ⟨_, rfl, rfl, rfl, rfl, rfl⟩

/-- Where only the destroyed stream goes, no request that goes on can bring the other into ERROR. -/
theorem entryLost_resumed {m : State} {f : Req → Bool} (streams : m.work.streams = entryLost.work.streams.del 0)
    (layouts : (m.resume f).work.layouts = {}) (rmap : (m.resume f).hearth.rmap = {}) (tables : (m.resume f).trans.tables = []) :
    ((m.resume f).work.streams.find (2 ^ 20)).map (·.err) ≠ some (some (0, 0x07)) := by
  have moved := State.resume_moves m f
  have detached : m.detached := by
    obtain ⟨-, tables', -⟩ := moved.same (p := .tables) (by decide)
    refine ⟨(moved.same (p := .layouts) (by decide)).symm.trans layouts, (moved.same (p := .rmap) (by decide)).symm.trans rmap,
      tables'.symm.trans tables, fun r hr => ?_⟩
    rw [streams] at hr
    obtain rfl : r = (2 ^ 20, { gid := 2 ^ 20 }) := by simpa [entryLost, Tab.del] using hr
    exact ⟨le_refl _, le_refl _, fun e he => by cases he⟩
  obtain ⟨-, -, -, spared⟩ := detached.resume f
  intro h
  obtain ⟨x, found, err⟩ := Option.map_eq_some_iff.mp h
  obtain ⟨-, -, free⟩ := spared _ (mem_rows_of_find found)
  exact free _ err rfl

/-- Refutes O16: a stream is destroyed whose entry in the table region is lost. As R66 and R386 say, its guest becomes fatal and the guest's other
streams enter ERROR, so that the streams left are not those of before but for the one destroyed. -/
theorem not_streamCommandsComplete : ¬ Obligations.StreamCommandsComplete := by
  unfold Obligations.StreamCommandsComplete
  rintro ⟨-, destroy, -⟩
  obtain ⟨⟨t, run, m, streams, -, -, done⟩, -⟩ := destroy entryLost { gid := 2 ^ 20 } ⟨by decide, by decide⟩ rfl rfl rfl
  obtain ⟨u, run', err, layouts, rmap, tables⟩ := entryLost_destroyed
  obtain rfl : t = u := by rw [run] at run'; exact Host.Outcome.next.inj run'
  rw [done] at err layouts rmap tables
  exact entryLost_resumed streams layouts rmap tables err

end Sys2Proof.Machine
end

section
namespace Sys2Proof.Machine

open Sys2Proof

/-! ## TALLY_CMD, the mirror write and two register writes (R80, R88, R89) -/

theorem State.reg_setReg_ne (s : State) {k k' : Nat} (v : Nat) (h : k' ≠ k) : (s.setReg k v).reg k' = s.reg k' := by simp [h]

@[simp] theorem State.cmdTally_setOp (s : State) (v : Nat) : (s.setReg Obj.tallyCmdOp v).cmdTally = s.cmdTally :=
  s.reg_setReg_ne v (by decide)

/-- RESULT is written 0, and every other object but OP reads as before. -/
theorem State.tallyResult {s u : State} {code : Nat} (h : u.regs = (s.setReg Obj.tallyCmdOp code).regs) :
    (u.setReg Obj.tallyCmdResult 0).reg Obj.tallyCmdResult = 0x00 ∧
      s.regsBut [Obj.tallyCmdOp, Obj.tallyCmdResult] (u.setReg Obj.tallyCmdResult 0) := by
  refine ⟨by simp, fun k hk => ?_⟩
  simp only [List.mem_cons, List.not_mem_nil, or_false, not_or] at hk
  simp [State.reg_congr h, hk.1, hk.2]

theorem State.onTally_found {s : State} {x : Tally} (f : State → Tally → State) (found : s.work.tallies.find s.cmdTally = some x) :
    s.onTally f = f s x := by
  simp [State.onTally, found]

/-- A TALLY_CMD on an allocated tally has its effect on the state in which OP is written. -/
theorem completes_onTally {c : Instr} {s : State} {code : Nat} {x : Tally} {f : State → Tally → State} {post : State → Prop}
    (hs : s.accepts Obj.tallyCmdResult) (found : s.work.tallies.find s.cmdTally = some x)
    (hc : exec c s = record s Obj.tallyCmdOp Obj.tallyCmdResult code fun s => s.onTally f)
    (h : post (f (s.setReg Obj.tallyCmdOp code) x)) : Completes c s post :=
  completes_record hs hc (by rwa [State.onTally_found (x := x) f (by simpa using found)])

theorem tallyAlloc_completes {s : State} {n : Nat} (hs : s.accepts Obj.tallyCmdResult)
    (sound : s.guestSound (s.reg Obj.tallyCmdGid % 2 ^ 20) = true) (free : s.work.tallies.lowestFree 16384 = some n) :
    Completes .tallyAlloc s fun t =>
      t.work.tallies = s.work.tallies.put n { gid := s.reg Obj.tallyCmdGid % 2 ^ 20 } ∧ t.reg Obj.tallyCmdTally = n ∧
        t.reg Obj.tallyCmdResult = 0x00 ∧ s.regsBut [Obj.tallyCmdOp, Obj.tallyCmdTally, Obj.tallyCmdResult] t := by
  refine completes_record hs (by rw [exec, execTallyAlloc]) ?_
  have sound' : (s.setReg Obj.tallyCmdOp 0x01).guestSound (s.reg Obj.tallyCmdGid % 2 ^ 20) = true := sound
  simp only [State.reg_setReg_ne s 0x01 (show Obj.tallyCmdGid ≠ Obj.tallyCmdOp by decide), State.setReg_work, sound', free]
  refine ⟨rfl, ?_, ?_, fun k hk => ?_⟩
  · simp [show Obj.tallyCmdTally ≠ Obj.tallyCmdResult by decide]
  · simp
  · simp only [List.mem_cons, List.not_mem_nil, or_false, not_or] at hk
    obtain ⟨op, tally, result⟩ := hk
    have regs : State.reg { s.setReg Obj.tallyCmdOp 0x01 with
        work := { s.work with tallies := s.work.tallies.put n { gid := s.reg Obj.tallyCmdGid % 2 ^ 20 } } } k = s.reg k := s.reg_setReg_ne _ op
    simpa [tally, result] using regs

/-- A tally changed by a command is the only one that is, and no object moves but OP and RESULT. -/
theorem State.changeTally_command {s : State} {x : Tally} (found : s.work.tallies.find s.cmdTally = some x) (code : Nat) (f : Tally → Tally) :
    (((s.setReg Obj.tallyCmdOp code).changeTally s.cmdTally f).setReg Obj.tallyCmdResult 0).work.tallies =
        s.work.tallies.put s.cmdTally (x.changed (f x)) ∧
      (((s.setReg Obj.tallyCmdOp code).changeTally s.cmdTally f).setReg Obj.tallyCmdResult 0).reg Obj.tallyCmdResult = 0x00 ∧
      s.regsBut [Obj.tallyCmdOp, Obj.tallyCmdResult] (((s.setReg Obj.tallyCmdOp code).changeTally s.cmdTally f).setReg Obj.tallyCmdResult 0) :=
  ⟨State.changeTally_tallies (s := s.setReg Obj.tallyCmdOp code) f found,
    State.tallyResult ((State.changeTally_moves _ _ _).same (p := .regs) (by decide))⟩

section Commands

variable {s : State} {x : Tally} (hs : s.accepts Obj.tallyCmdResult) (found : s.work.tallies.find s.cmdTally = some x)

include hs found

theorem tallyFree_completes (unwaited : s.waiters s.cmdTally = 0) : Completes .tallyFree s fun t =>
    t.work.tallies = s.work.tallies.del s.cmdTally ∧ t.reg Obj.tallyCmdResult = 0x00 ∧
      s.regsBut [Obj.tallyCmdOp, Obj.tallyCmdResult] t := by
  refine completes_onTally hs found (by rw [exec, execTallyFree]) ?_
  have none : (s.setReg Obj.tallyCmdOp 0x02).waiters s.cmdTally = 0 := unwaited
  simp only [State.cmdTally_setOp, none]
  exact ⟨rfl, State.tallyResult rfl⟩

theorem tallyCmdArm_completes : Completes .tallyCmdArm s fun t => ∃ y : Tally, t.work.tallies = s.work.tallies.put s.cmdTally y ∧
    y.target = s.reg Obj.tallyCmdValue ∧ y.count = x.count ∧ y.due = x.due ∧ t.reg Obj.tallyCmdResult = 0x00 ∧
      s.regsBut [Obj.tallyCmdOp, Obj.tallyCmdResult] t := by
  refine completes_onTally hs found (by rw [exec, execTallyCmdArm]) ?_
  simp only [State.cmdTally_setOp, State.reg_setReg_ne s 0x03 (show Obj.tallyCmdValue ≠ Obj.tallyCmdOp by decide)]
  obtain ⟨tallies, result⟩ := State.changeTally_command found 0x03 fun x => { x with target := s.reg Obj.tallyCmdValue }
  exact ⟨_, tallies, rfl, rfl, by simp [Tally.changed], result⟩

theorem tallyCmdSet_completes : Completes .tallyCmdSet s fun t => ∃ y : Tally, t.work.tallies = s.work.tallies.put s.cmdTally y ∧
    y.count = s.reg Obj.tallyCmdValue ∧ y.target = x.target ∧
      y.due = (x.due || (x.mirror && s.reg Obj.tallyCmdValue != x.count)) ∧ t.reg Obj.tallyCmdResult = 0x00 ∧
      s.regsBut [Obj.tallyCmdOp, Obj.tallyCmdResult] t := by
  refine completes_onTally hs found (by rw [exec, execTallyCmdSet]) ?_
  simp only [State.cmdTally_setOp, State.reg_setReg_ne s 0x04 (show Obj.tallyCmdValue ≠ Obj.tallyCmdOp by decide)]
  obtain ⟨tallies, result⟩ := State.changeTally_command found 0x04 fun x => { x with count := s.reg Obj.tallyCmdValue }
  exact ⟨_, tallies, rfl, rfl, rfl, result⟩

theorem tallyConfig_completes (mirror : bitOf (s.reg Obj.tallyCmdFlags) 0 = false ∨ s.mirrorOk x.gid (s.reg Obj.tallyCmdMirrorPva) = true) :
    Completes .tallyConfig s fun t =>
      ∃ y : Tally, t.work.tallies = s.work.tallies.put s.cmdTally y ∧ y.mirror = bitOf (s.reg Obj.tallyCmdFlags) 0 ∧
        y.notifyOn = bitOf (s.reg Obj.tallyCmdFlags) 1 ∧ y.mirrorPva = s.reg Obj.tallyCmdMirrorPva % 2 ^ 48 ∧
        y.notify = s.reg Obj.tallyCmdNotifyEpid % 2 ^ 20 ∧ y.count = x.count ∧ y.target = x.target ∧ y.gid = x.gid ∧
        t.reg Obj.tallyCmdResult = 0x00 ∧ s.regsBut [Obj.tallyCmdOp, Obj.tallyCmdResult] t := by
  refine completes_onTally hs found (by rw [exec, execTallyConfig]) ?_
  have mirror' : (bitOf (s.reg Obj.tallyCmdFlags) 0 && !(s.setReg Obj.tallyCmdOp 0x05).mirrorOk x.gid (s.reg Obj.tallyCmdMirrorPva)) = false := by
    rcases mirror with off | ok
    · simp [off]
    · rw [show (s.setReg Obj.tallyCmdOp 0x05).mirrorOk x.gid _ = true from ok, Bool.not_true, Bool.and_false]
  simp only [State.cmdTally_setOp, State.reg_setReg_ne s 0x05 (show Obj.tallyCmdFlags ≠ Obj.tallyCmdOp by decide),
    State.reg_setReg_ne s 0x05 (show Obj.tallyCmdMirrorPva ≠ Obj.tallyCmdOp by decide),
    State.reg_setReg_ne s 0x05 (show Obj.tallyCmdNotifyEpid ≠ Obj.tallyCmdOp by decide), mirror']
  exact ⟨_, rfl, rfl, rfl, rfl, rfl, rfl, rfl, rfl, State.tallyResult rfl⟩

theorem tallyQuery_completes : Completes .tallyQuery s fun t =>
    t.blob Obj.tallyCmdEntry = leBytes 8 x.count ++ leBytes 8 x.target ++
      leBytes 8 (2 ^ 63 + b2n x.notifyOn * 2 ^ 62 + b2n x.mirror * 2 ^ 61 + x.gid * 2 ^ 32 + s.waiters s.cmdTally) ++
      leBytes 8 x.mirrorPva ++ leBytes 8 x.notify ++ zeroBytes 24 ∧
    t.work.tallies = s.work.tallies ∧ t.reg Obj.tallyCmdResult = 0x00 ∧ s.regsBut [Obj.tallyCmdOp, Obj.tallyCmdResult] t := by
  refine completes_onTally hs found (by rw [exec, execTallyQuery]) ?_
  rw [State.cmdTally_setOp]
  refine ⟨?_, rfl, State.tallyResult rfl⟩
  rw [State.blob_setReg, State.blob_setBlob, if_pos rfl]
  rfl

end Commands

/-! ### The mirror write (R80) -/

section Mirror

variable {s : State} {tally : Fin 16384} {x : Tally} {w : Window} (hs : s.running = true)
  (found : s.work.tallies.find tally.val = some x) (due : x.due = true) (window : (s.guest x.gid).windowAt x.mirrorPva = some w)
  (homed : s.homed w = true) (write : w.write = true) (key : s.keyCheck x.gid = none) (unwraps : s.keyUnwraps x.gid = true)
  (check : s.guestCheck x.gid = none)

include hs found due window homed write key unwraps check

theorem tallyMirrorWrite_swaps (spilled : (s.guest x.gid).resident = false) :
    Completes (.tallyMirrorWrite tally) s fun t => t = s.startSwap x.gid := by
  refine completes_live hs (by rw [exec, execTallyMirrorWrite]) ?_
  simp [found, due, window, homed, write, key, unwraps, check, spilled]

theorem tallyMirrorWrite_publishes {pa : Nat} (resident : (s.guest x.gid).resident = true)
    (cached : s.xlCached x.gid x.mirrorPva true = .ok pa) (calm : s.filling pa = none)
    (done : (s.publishWrite pa x.gid (leBytes 8 x.count)).1 = true) : Completes (.tallyMirrorWrite tally) s fun t =>
      ∃ m : State, m = (s.publishWrite pa x.gid (leBytes 8 x.count)).2 ∧ t.cellar = m.cellar ∧ t.pool = m.pool ∧
        t.work.tallies = s.work.tallies.upd tally.val fun y => { y with due := false } := by
  refine completes_live hs (by rw [exec, execTallyMirrorWrite]) ?_
  have hit : ¬ ((Xl.ok pa == Xl.miss) = true) := by simp
  simp only [found, due, window, homed, write, key, unwraps, check, resident, cached, calm, Bool.not_true, Bool.and_self, Option.isSome_none,
    Bool.or_self, Bool.false_eq_true, if_false, if_neg hit, done, if_true]
  have tallies := (State.publishWrite_moves s pa x.gid (leBytes 8 x.count)).same (p := .tallies) (by decide)
  exact ⟨_, rfl, rfl, rfl, congrArg (Tab.upd · _ _) tallies⟩

end Mirror

theorem trkHighWaterWrite_completes {s : State} (hs : s.served = true) : Completes (.trkHighWaterWrite 0) s fun t =>
    t.reg Obj.trkHighWater = s.pool.reqs.size ∧ s.regsBut [Obj.trkHighWater] t :=
  completes_managed hs (by rw [exec, execTrkHighWaterWrite]) ⟨by simp, fun k hk => by simp_all⟩

theorem arithFlagsSeenWrite_completes {s : State} {v : Nat} (hs : s.served = true) : Completes (.arithFlagsSeenWrite v) s fun t =>
    t.reg Obj.arithFlagsSeen = clearMask (s.reg Obj.arithFlagsSeen) v ∧ s.regsBut [Obj.arithFlagsSeen] t :=
  completes_managed hs (by rw [exec, execArithFlagsSeenWrite]) ⟨by simp, fun k hk => by simp_all⟩

/-- Settles O17: each TALLY_CMD that the record accepts changes its tally and no object but its own; a due mirror is written and published, or
its spilled owner is made resident first; and the two registers take what is written. -/
theorem tallyCommandsComplete : Obligations.TallyCommandsComplete := by
  unfold Obligations.TallyCommandsComplete
  exact ⟨fun s n hs sound free => tallyAlloc_completes hs sound free,
    fun s x hs found => ⟨tallyFree_completes hs found, tallyCmdArm_completes hs found, tallyCmdSet_completes hs found,
      tallyConfig_completes hs found, tallyQuery_completes hs found⟩,
    fun s tally x w pa hs found due window homed write key unwraps check =>
      ⟨tallyMirrorWrite_swaps hs found due window homed write key unwraps check,
        tallyMirrorWrite_publishes hs found due window homed write key unwraps check⟩,
    fun s hs => trkHighWaterWrite_completes hs, fun s v hs => arithFlagsSeenWrite_completes hs⟩

end Sys2Proof.Machine
end

section
namespace Sys2Proof.Machine

open Sys2Proof

/-! ## Waybills and streams that change in their holds alone (R69, R206, R386, R396) -/

/-- A waybill but for the granules of it that are held on pages. -/
def Waybill.unheld (w : Waybill) : Waybill := { w with holds := {} }

/-- A stream but for its ERROR and for a fetch that is held on a page. -/
def Stream.calm (k : Stream) : Stream := { k with err := none, held := none }

/-- A waybill with these granules held on pages. -/
def Waybill.reheld (hs : Tab Hold) (w : Waybill) : Waybill := { w with holds := hs }

/-- A stream with this ERROR and this hold. -/
def Stream.restated (e : Option (Nat × Nat)) (x : Option Hold) (k : Stream) : Stream := { k with err := e, held := x }

/-- Waybills change in nothing but what of them is held on pages, streams in that and in their ERROR, and clusters and bells not at all. -/
structure Reheld (s t : State) : Prop where
  wbs : ∀ n, (t.work.wbs.find n).map Waybill.unheld = (s.work.wbs.find n).map Waybill.unheld
  streams : ∀ n, (t.work.streams.find n).map Stream.calm = (s.work.streams.find n).map Stream.calm
  clusters : t.work.clusters = s.work.clusters
  bells : t.work.bells = s.work.bells

theorem Reheld.refl (s : State) : Reheld s s := ⟨fun _ => rfl, fun _ => rfl, rfl, rfl⟩

theorem Reheld.trans {s t u : State} (h : Reheld s t) (k : Reheld t u) : Reheld s u :=
  ⟨fun n => (k.wbs n).trans (h.wbs n), fun n => (k.streams n).trans (h.streams n), k.clusters.trans h.clusters, k.bells.trans h.bells⟩

theorem Moves.reheld {ps : List Part} {s t : State} (h : Moves ps s t) (hs : Part.streams ∉ ps) (hw : Part.waybills ∉ ps) : Reheld s t := by
  obtain ⟨streams, -, bells, -⟩ := h.same hs
  obtain ⟨wbs, clusters, -⟩ := h.same hw
  exact ⟨fun n => by rw [wbs], fun n => by rw [streams], clusters, bells⟩

theorem Reheld.of_work {s t : State} (h : t.work = s.work) : Reheld s t := by
  refine ⟨fun n => ?_, fun n => ?_, ?_, ?_⟩ <;> rw [h]

theorem Reheld.ite {c : Prop} [Decidable c] {s a b : State} (h : Reheld s a) (k : Reheld s b) : Reheld s (if c then a else b) := by
  split <;> assumption

theorem Reheld.foldl {α : Type} {f : State → α → State} (h : ∀ s x, Reheld s (f s x)) (l : List α) (s : State) : Reheld s (l.foldl f s) := by
  induction l generalizing s with
  | nil => exact Reheld.refl s
  | cons x l ih => exact (h s x).trans (ih (f s x))

/-- A waybill is there after, but for its holds as it was. -/
theorem Reheld.find {s t : State} (h : Reheld s t) {n : Nat} {w : Waybill} (found : s.work.wbs.find n = some w) :
    ∃ hs, t.work.wbs.find n = some (w.reheld hs) := by
  obtain ⟨w', found', eq⟩ := Option.map_eq_some_iff.mp ((h.wbs n).trans (by rw [found]; rfl))
  refine ⟨w'.holds, found'.trans (congrArg some ?_)⟩
  cases w'
  cases w
  simp_all [Waybill.unheld, Waybill.reheld]

/-- A stream is there after, but for its ERROR and its hold as it was. -/
theorem Reheld.findStream {s t : State} (h : Reheld s t) {n : Nat} {k : Stream} (found : s.work.streams.find n = some k) :
    ∃ e x, t.work.streams.find n = some (k.restated e x) := by
  obtain ⟨k', found', eq⟩ := Option.map_eq_some_iff.mp ((h.streams n).trans (by rw [found]; rfl))
  refine ⟨k'.err, k'.held, found'.trans (congrArg some ?_)⟩
  cases k'
  cases k
  simp_all [Stream.calm, Stream.restated]

/-- A waybill whose holds alone change. -/
theorem State.onWb_reheld (s : State) (key : Nat) {f : Waybill → Waybill} (h : ∀ w, (f w).unheld = w.unheld) : Reheld s (s.onWb key f) := by
  refine ⟨fun n => ?_, fun n => rfl, rfl, rfl⟩
  have here : ∀ o : Option Waybill, (o.map f).map Waybill.unheld = o.map Waybill.unheld := fun o => by cases o <;> simp [h]
  by_cases same : n = key
  · simpa [State.onWb, same] using here _
  · simp [State.onWb, same]

/-- A stream whose ERROR and hold alone change. -/
theorem State.onStream_reheld (s : State) (key : Nat) {f : Stream → Stream} (h : ∀ k, (f k).calm = k.calm) : Reheld s (s.onStream key f) := by
  refine ⟨fun n => rfl, fun n => ?_, rfl, rfl⟩
  have here : ∀ o : Option Stream, (o.map f).map Stream.calm = o.map Stream.calm := fun o => by cases o <;> simp [h]
  by_cases same : n = key
  · simpa [State.onStream, same] using here _
  · simp [State.onStream, same]

theorem State.setHold_reheld (s : State) (k : HoldOf) (h : Hold) : Reheld s (s.setHold k h) := by
  cases k with
  | req t => exact (State.onReq_moves s t _).reheld (by decide) (by decide)
  | granule k q g => exact s.onWb_reheld _ fun _ => rfl
  | fetch k => exact s.onStream_reheld k fun _ => rfl
  | ctx _ => exact ⟨fun _ => rfl, fun _ => rfl, rfl, rfl⟩

theorem State.openHold_reheld (s : State) (gid : Nat) (h : Hold) (porter : Bool) : Reheld s (s.openHold gid h porter).2 :=
  (State.openHold_moves s gid h porter).reheld (by decide) (by decide)

theorem State.refile_reheld (s : State) : Reheld s s.refile :=
  Reheld.foldl (fun v _ => ((v.openHold_reheld _ _ _).trans (State.setHold_reheld _ _ _)).ite (v.openHold_reheld _ _ _)) _ s

theorem State.closeFault_reheld (s : State) (n : Nat) : Reheld s (s.closeFault n) := by
  unfold State.closeFault
  split
  · exact Reheld.refl s
  refine Reheld.ite (Reheld.refl s) (Reheld.trans ?_ (State.refile_reheld _))
  have freed : Reheld s { s with trans := { s.trans with faults := s.trans.faults.del n } } := Reheld.of_work rfl
  exact Reheld.ite (freed.trans ((State.fqAdd_moves _ _).reheld (by decide) (by decide))) freed

theorem State.endHold_reheld (s : State) (h : Hold) : Reheld s (s.endHold h) := by
  unfold State.endHold
  split
  · exact s.closeFault_reheld _
  · exact Reheld.refl s

theorem State.unhold_reheld (s : State) (key g : Nat) : Reheld s (s.unhold key g) := by
  unfold State.unhold
  split
  · exact Reheld.refl s
  · have forgotten := s.onWb_reheld key (f := fun w => { w with holds := w.holds.del g }) fun _ => rfl
    exact (forgotten.trans ((State.leaveQ_moves _ _ _).reheld (by decide) (by decide))).trans (State.endHold_reheld _ _)

theorem State.streamError_reheld (s : State) (k status : Nat) : Reheld s (s.streamError k status) := by
  unfold State.streamError
  cases found : s.work.streams.find k with
  | none => exact Reheld.refl s
  | some x =>
    have stopped : Reheld s { s with work := { s.work with
        streams := s.work.streams.put k { x with err := some (x.seq, status), held := none } } } := by
      refine ⟨fun n => rfl, fun n => ?_, rfl, rfl⟩
      by_cases same : n = k
      · simp [same, found, Stream.calm]
      · simp [same]
    refine Reheld.ite (Reheld.refl s) (stopped.trans ?_)
    exact ((State.originate_moves _ _ _).reheld (by decide) (by decide)).trans ((State.irqEdge_moves _ _).reheld (by decide) (by decide))

theorem State.guestStreamsError_reheld (s : State) (gid status : Nat) : Reheld s (s.guestStreamsError gid status) :=
  Reheld.foldl (fun v (r : Nat × Stream) => Reheld.ite (v.streamError_reheld r.1 status) (Reheld.refl v)) _ s

theorem State.guestFatal_reheld (s : State) (gid pa ch : Nat) : Reheld s (s.guestFatal gid pa ch) := by
  unfold State.guestFatal
  split
  · exact Reheld.refl s
  split
  · exact Reheld.refl s
  refine Reheld.trans ?_ (State.guestStreamsError_reheld _ _ _)
  exact (((State.onGuest_moves _ _ _).reheld (by decide) (by decide)).trans ((State.log_moves _ _ _ _ _ _ _).reheld (by decide) (by decide))).trans
    ((State.memIrq_moves _ _).reheld (by decide) (by decide))

theorem State.keyFail_reheld (s : State) (gid : Nat) : Reheld s (s.keyFail gid) := by
  unfold State.keyFail
  split
  · exact Reheld.refl s
  split
  · exact Reheld.refl s
  refine Reheld.trans ?_ (State.guestStreamsError_reheld _ _ _)
  exact (((State.onGuest_moves _ _ _).reheld (by decide) (by decide)).trans ((State.log_moves _ _ _ _ _ _ _).reheld (by decide) (by decide))).trans
    ((State.irqEdge_moves _ _).reheld (by decide) (by decide))

/-- An access to memory reaches no waybill, and streams in their ERROR alone. -/
theorem Reports.reheld {s t : State} (h : Reports s t) : Reheld s t := by
  induction h with
  | calm moved => exact moved.reheld (by decide) (by decide)
  | lost s pa ch => exact Reheld.foldl (fun v g => v.guestFatal_reheld g pa ch) _ s
  | keyFail s gid => exact s.keyFail_reheld gid
  | trans _ _ first second => exact first.trans second

end Sys2Proof.Machine
end

section
namespace Sys2Proof.Machine

open Sys2Proof

/-! ## Granules and chunks that end (R57, R81) -/

/-- Where no hearth line is kept busy for it, the end of a write leaves the hearth as it is. -/
theorem State.uncachedFree_of_shut {s : State} {mine : Grant → Bool} (h : s.hearth.dir.rows.any (fun r => r.2.open_ && mine r.2.grant) = false) :
    s.uncachedFree mine = s := by
  have none : (s.hearth.dir.rows.filter fun r => r.2.open_ && mine r.2.grant) = [] := by
    rw [List.filter_eq_nil_iff]
    exact fun r hr => by simpa using List.any_eq_false.mp h r hr
  simp [State.uncachedFree, none]

/-- So it does in a state of the same directory. -/
theorem Moves.uncachedFree_of_shut {ps : List Part} {s t : State} {mine : Grant → Bool} (h : Moves ps s t) (hp : Part.coherence ∉ ps)
    (shut : s.hearth.dir.rows.any (fun r => r.2.open_ && mine r.2.grant) = false) : t.uncachedFree mine = t := by
  obtain ⟨-, dir, -⟩ := h.same hp
  exact State.uncachedFree_of_shut (by rw [dir]; exact shut)

/-- The end of a write reaches no waybill. -/
theorem State.uncachedFree_wbs (s : State) (mine : Grant → Bool) : (s.uncachedFree mine).work.wbs = s.work.wbs :=
  ((s.uncachedFree_moves mine).same (p := .waybills) (by decide)).1

/-- The chunks of a waybill as the end of one of them may leave them: it keeps what is committed of it. -/
def ChunksKept (cs ds : Tab Chunk) : Prop := ∀ n k, cs.find n = some k → ∃ st held, ds.find n = some { k with st := st, held := held }

theorem ChunksKept.refl (cs : Tab Chunk) : ChunksKept cs cs := fun _ k h => ⟨k.st, k.held, h⟩

theorem ChunksKept.ended (cs : Tab Chunk) (c : Nat) : ChunksKept cs (cs.upd c fun k => { k with st := 3, held := {} }) := by
  intro n k h
  by_cases same : n = c
  · exact ⟨3, {}, by subst same; simp [h]⟩
  · exact ⟨k.st, k.held, by simp [same, h]⟩

/-- A chunk of the waybill ends. -/
def Waybill.endChunk (c : Nat) (w : Waybill) : Waybill := { w with chunks := w.chunks.upd c fun k => { k with st := 3, held := {} } }

/-- A waybill with these chunks, and in this state. -/
def Waybill.chunked (cs : Tab Chunk) (st : Nat) (w : Waybill) : Waybill := { w with chunks := cs, st := st }

/-- A waybill where a chunk of it may end: it keeps its marks, flags and committed granules. -/
theorem State.find_closeChunk {s : State} {key : Nat} {w : Waybill} (c : Nat) (found : s.work.wbs.find key = some w) :
    ∃ cs st, (s.closeChunk key c).work.wbs.find key = some (w.chunked cs st) ∧ ChunksKept w.chunks cs := by
  have left : ∃ cs st, s.work.wbs.find key = some (w.chunked cs st) ∧ ChunksKept w.chunks cs :=
    ⟨w.chunks, w.st, found, ChunksKept.refl _⟩
  unfold State.closeChunk
  simp only [found]
  cases chunk : w.chunks.find c with
  | none => exact left
  | some k =>
    dsimp only
    split
    · exact left
    have ended := State.find_onWb (Waybill.endChunk c) found
    generalize hm : State.leaveQ (State.onCluster _ _ _) _ _ = m
    have here : m.work.wbs.find key = some (w.endChunk c) := by
      rw [← hm, ((State.leaveQ_moves _ _ _).same (p := .waybills) (by decide)).1]
      refine Eq.trans ?_ ended
      refine congrArg (Tab.find · key) (Eq.trans ((State.settleChunk_moves _ _ _ _ _).same (p := .waybills) (by decide)).1 ?_)
      rw [State.countCluster_work]
      rfl
    split
    · exact ⟨(w.endChunk c).chunks, 2, State.find_onWb (fun w => { w with st := 2 }) here, ChunksKept.ended _ c⟩
    · exact ⟨(w.endChunk c).chunks, w.st, here, ChunksKept.ended _ c⟩

theorem State.closeChunk_cellar (s : State) (key c : Nat) : (s.closeChunk key c).cellar = s.cellar :=
  (s.closeChunk_moves key c).cellar_same (by decide) (by decide) (by decide) (by decide) (by decide)

theorem State.unhold_cellar (s : State) (key g : Nat) : (s.unhold key g).cellar = s.cellar :=
  (s.unhold_moves key g).cellar_same (by decide) (by decide) (by decide) (by decide) (by decide)

/-! ### A granule that fails (R57) -/

/-- A granule of the waybill is marked, and held no more. -/
def Waybill.mark (c g cause : Nat) (w : Waybill) : Waybill :=
  { w with marks := w.marks.put g cause, chunks := w.chunks.upd c fun k => { k with held := k.held.del g } }

theorem State.failGranule_marks {s : State} {key : Nat} {w : Waybill} (c g cause : Nat) (found : s.work.wbs.find key = some w) :
    ∃ w' : Waybill, (s.failGranule key c g cause).work.wbs.find key = some w' ∧ w'.marks.find g = some cause ∧ w'.committed = w.committed := by
  unfold State.failGranule
  dsimp only
  generalize hm : State.onWb _ _ _ = m
  have marked : m.work.wbs.find key = some (w.mark c g cause) := hm ▸ State.find_onWb (Waybill.mark c g cause) found
  obtain ⟨hs, unheld⟩ := (m.unhold_reheld key g).find marked
  generalize hn : State.countCluster _ _ _ _ = n
  have freed : n.work.wbs.find key = some ((w.mark c g cause).reheld hs) := by
    rw [← hn, State.countCluster_work, State.uncachedFree_wbs]
    exact unheld
  obtain ⟨cs, st, closed, -⟩ := State.find_closeChunk c freed
  exact ⟨_, closed, Tab.find_put_self _ _ _, rfl⟩

theorem State.failGranule_cellar {s : State} {key g : Nat} (c cause : Nat) (shut : s.keepsOpen key g = false) :
    (s.failGranule key c g cause).cellar = s.cellar := by
  unfold State.failGranule
  dsimp only
  generalize hm : State.onWb _ _ _ = m
  have moved : Moves [.waybills] s m := hm ▸ State.onWb_moves _ _ _
  have held := (m.unhold_moves key g).trans (((m.unhold key g).unlockGranule_moves key g).mono (by decide))
  rw [State.closeChunk_cellar, State.countCluster_cellar,
    ((moved.mono (by decide)).trans held).uncachedFree_of_shut (by decide) shut, ← hm]
  exact State.unhold_cellar _ _ _

/-! ### A granule that is held for its commit (R81) -/

/-- What a granule made holds until its commit. -/
def Calc.held (x : Calc) (o : Wr) (epoch : Nat) : Held :=
  { outs := o.outs, flags := x.flags, poison := x.poison || o.lost, degraded := x.degraded, fail := x.fail, failPva := x.failPva,
    waiting := o.remote.length + x.deliver.length, epoch := epoch }

/-- The packets of a granule made go out once it is held. -/
theorem State.holdCalc_moved (s : State) (key c g : Nat) (x : Calc) (o : Wr) :
    Moves [.egress, .peers, .counters, .samples, .irqPending, .requests]
      ((s.unhold key g).onChunk key c fun k => { k with held := k.held.put g (x.held o s.trans.epoch) }) (s.holdCalc key c g x o) :=
  Moves.foldl (fun v _ => v.request_moves _ _ _) (Moves.foldl (fun v _ => v.request_moves _ _ _) (Moves.refl _ _))

theorem State.find_holdCalc {s : State} {key c : Nat} {w : Waybill} {k : Chunk} (g : Nat) (x : Calc) (o : Wr)
    (found : s.work.wbs.find key = some w) (chunk : w.chunks.find c = some k) :
    ∃ w' : Waybill, (s.holdCalc key c g x o).work.wbs.find key = some w' ∧
      w'.chunks.find c = some { k with held := k.held.put g (x.held o s.trans.epoch) } := by
  obtain ⟨hs, unheld⟩ := (s.unhold_reheld key g).find found
  obtain ⟨wbs, -⟩ := (s.holdCalc_moved key c g x o).same (p := .waybills) (by decide)
  exact ⟨_, by rw [wbs]; exact State.find_onWb _ unheld, by simp [Waybill.reheld, chunk]⟩

theorem State.holdCalc_cellar (s : State) (key c g : Nat) (x : Calc) (o : Wr) : (s.holdCalc key c g x o).cellar = s.cellar :=
  ((s.holdCalc_moved key c g x o).cellar_same (by decide) (by decide) (by decide) (by decide) (by decide)).trans (s.unhold_cellar key g)

/-! ### A granule made is placed -/

theorem State.placeCalc_fails (s : State) (key c g : Nat) {x : Calc} (goes : x.waits = false) (fail : x.fail ≠ 0) (keeps : x.force = false) :
    s.placeCalc key c g x = s.failGranule key c g x.fail := by
  simp [State.placeCalc, goes, fail, keeps]

section Placed

variable {s : State} {key c : Nat} {w : Waybill} {k : Chunk} (found : s.work.wbs.find key = some w) (chunk : w.chunks.find c = some k)

include found

theorem State.placeCalc_waits {g : Nat} {x : Calc} (waits : x.waits = true) (resident : x.hold = none) (free : w.holds.find g = none) :
    s.placeCalc key c g x = s := by
  simp [State.placeCalc, waits, State.waitCalc, resident, State.unhold, State.wb_of_find found, free]

include chunk

theorem State.placeCalc_holds {g : Nat} {x : Calc} {o : Wr} {m : State} (goes : x.waits = false) (made : x.fail = 0 ∨ x.force = true)
    (memory : x.stage = none) (write : s.writeRanges key k.cluster g x.ranges = (o, m)) (fail : o.fail = 0) (waits : o.waits = false)
    (lost : o.lost = false) : s.placeCalc key c g x = m.holdCalc key c g x o := by
  have made' : (x.fail != 0 && !x.force) = false := by rcases made with h | h <;> simp [h]
  simp [State.placeCalc, goes, made', memory, State.wb_of_find found, chunk, write, fail, waits, lost]

end Placed

/-- Settles O24: a granule made stays as it is where it waits, is marked where it fails, and is held with its ranges where they can be written. -/
theorem madeGranulesArePlaced : Obligations.MadeGranulesArePlaced := by
  unfold Obligations.MadeGranulesArePlaced
  intro s key c g x w k found chunk
  refine ⟨fun waits resident free => State.placeCalc_waits found waits resident free, fun goes fail keeps => ?_,
    fun goes made o m memory write fail waits lost wbs => ?_⟩
  · rw [State.placeCalc_fails s key c g goes fail keeps]
    exact ⟨State.failGranule_marks c g x.fail found, fun shut => State.failGranule_cellar c x.fail shut⟩
  · rw [State.placeCalc_holds found chunk goes made memory write fail waits lost]
    obtain ⟨w', found', chunk'⟩ := State.find_holdCalc g x o (by rw [wbs]; exact found) chunk
    exact ⟨⟨w', _, _, found', chunk', Tab.find_put_self _ _ _, rfl, rfl, by simp [Calc.held, lost], rfl, rfl⟩, State.holdCalc_cellar _ _ _ _ _ _⟩

end Sys2Proof.Machine
end

section
namespace Sys2Proof.Machine

open Sys2Proof

/-! ## Chunks dispatched, committed and dispatched again (R81 to R83, R85, R125, R399) -/

/-- What needs a waybill's words goes on in the state in which they are there. -/
theorem State.withWords_of_hasWords {s u : State} {key : Nat} (f : State → State) (h : s.hasWords key u) : s.withWords key f = f u := by
  obtain ⟨rfl, has⟩ := h
  simp [State.withWords, has]

/-- A chunk put on a cluster, its start waiting for the cluster's clearing where the guest changes. -/
def Waybill.place (c cl : Nat) (k : Chunk) (clear : Bool) (w : Waybill) : Waybill :=
  { w with chunks := w.chunks.put c { k with cluster := cl, st := 1, clearing := clear },
           parts := if w.group == 5 && !w.parts.contains cl then w.parts ++ [cl] else w.parts }

/-- A cluster that takes a chunk: it wakes where it sleeps. -/
def Cluster.take (clear : Bool) (x : Cluster) : Cluster :=
  { x with pw := if x.pw == 1 then 3 else if x.pw == 2 then 4 else x.pw, clearing := x.clearing || clear }

theorem State.placeChunk_work (s : State) (key c cl : Nat) (k : Chunk) :
    (s.placeChunk key c cl k).work =
      ((s.onWb key (Waybill.place c cl k ((s.cluster cl).lastGid != some (s.wb key).gid))).onCluster cl
        (Cluster.take ((s.cluster cl).lastGid != some (s.wb key).gid))).work := by
  have keeps : ∀ (b : Prop) [Decidable b] (u : State) (pc ev sel : Nat), (if b then u.countCluster pc ev sel else u).work = u.work :=
    fun b _ u pc ev sel => by split <;> simp
  have same : ∀ {u v : State} (f : Cluster → Cluster), u.work = v.work → (u.onCluster cl f).work = (v.onCluster cl f).work :=
    fun f h => by simp only [State.onCluster, State.cluster, h]
  exact same _ ((keeps _ _ _ _ _).trans (keeps _ _ _ _ _))

theorem State.find_placeChunk {s : State} {key : Nat} {w : Waybill} (c cl : Nat) (k : Chunk) (found : s.work.wbs.find key = some w) :
    (s.placeChunk key c cl k).work.wbs.find key = some (w.place c cl k ((s.cluster cl).lastGid != some w.gid)) := by
  rw [State.placeChunk_work, State.wb_of_find found]
  exact State.find_onWb _ found

theorem State.cluster_placeChunk (s : State) (key c cl : Nat) (k : Chunk) :
    (s.placeChunk key c cl k).cluster cl = (s.cluster cl).take ((s.cluster cl).lastGid != some (s.wb key).gid) := by
  simp [State.cluster, State.placeChunk_work, State.onCluster, State.onWb]

theorem Cluster.take_wakes (clear : Bool) (x : Cluster) : (x.pw = 1 → (x.take clear).pw = 3) ∧ (x.pw = 2 → (x.take clear).pw = 4) := by
  constructor <;> intro h <;> simp [Cluster.take, h]

/-! ### Dispatch (R85, R125) -/

/-- The next chunk of a waybill, on no cluster yet. -/
def Waybill.freshChunk (c : Nat) (w : Waybill) : Chunk :=
  if 65536 ≤ c then { count := 1 } else { first := c * w.perChunk, count := min w.perChunk (w.total - c * w.perChunk) }

theorem State.dispatch_work {u : State} {key c cl : Nat} {w : Waybill} (found : u.work.wbs.find key = some w) (goes : w.dispatches = true)
    (room : u.chunkEntries < 8192 ∨ 65536 < c) (resident : (u.guest w.gid).resident = true) (next : w.nextChunk = some c)
    (chosen : u.chooseCluster w = some cl) : (u.dispatch key).work = ((u.touchGuest w.gid).placeChunk key c cl (w.freshChunk c)).work := by
  have room' : ¬ (decide (8192 ≤ u.chunkEntries) && decide (c ≤ 65536)) = true := by simp; omega
  unfold State.dispatch
  simp only [State.wb_of_find found, goes, resident, next, chosen, Bool.not_true, Bool.false_eq_true, if_false, if_neg room']
  rw [((State.enterQ_moves _ _ _).work_same (by decide) (by decide) (by decide) (by decide) (by decide)), State.countCluster_work]
  rfl

theorem chunkDispatch_completes {s u : State} {stream : Fin 1048576} {seq c cl : Nat} {w : Waybill} (hs : s.running = true)
    (words : s.hasWords (wbKey stream.val seq) u) (found : u.work.wbs.find (wbKey stream.val seq) = some w) (goes : w.dispatches = true)
    (room : u.chunkEntries < 8192 ∨ 65536 < c) (resident : (u.guest w.gid).resident = true) (next : w.nextChunk = some c)
    (chosen : u.chooseCluster w = some cl) : Completes (.chunkDispatch stream seq) s fun t =>
      ∃ k : Chunk, (t.wb (wbKey stream.val seq)).chunks = w.chunks.put c k ∧ k.cluster = cl ∧ k.st = 1 ∧
        k.clearing = ((u.cluster cl).lastGid != some w.gid) ∧ (c < 65536 → k.first = c * w.perChunk) ∧
        ((u.cluster cl).pw = 1 → (t.cluster cl).pw = 3) ∧ ((u.cluster cl).pw = 2 → (t.cluster cl).pw = 4) := by
  refine completes_live hs (by rw [exec, execChunkDispatch]) ?_
  rw [State.withWords_of_hasWords _ words]
  have work := State.dispatch_work found goes room resident next chosen
  have placed := State.find_placeChunk (s := u.touchGuest w.gid) c cl (w.freshChunk c) found
  have taken : (u.dispatch (wbKey stream.val seq)).cluster cl = (u.cluster cl).take _ :=
    (congrArg (fun x : Work => x.clusters.getD cl {}) work).trans (State.cluster_placeChunk (u.touchGuest w.gid) (wbKey stream.val seq) c cl (w.freshChunk c))
  refine ⟨_, by rw [State.wb, work, Tab.getD_of_find _ placed]; rfl, rfl, rfl, rfl, fun block => ?_, ?_⟩
  · simp [Waybill.freshChunk, Nat.not_le.mpr block]
  · rw [taken]
    exact Cluster.take_wakes _ (u.cluster cl)

/-! ### Redispatch (R82) -/

/-- A waybill with one chunk more dispatched again. -/
def Waybill.again (w : Waybill) : Waybill := { w with redispatch := satInc 8 w.redispatch }

theorem State.redispatch_work {u : State} {key c cl : Nat} {w : Waybill} {k : Chunk} (found : u.work.wbs.find key = some w)
    (chunk : w.chunks.find c = some k) (lost : k.st = 2) (kept : w.cancelled = false) (limit : k.redispatched < u.reg Obj.redispatchLimit)
    (phase : w.opc = 0x51 → w.exchanged = true ∨ 65536 ≤ c) (resident : (u.guest w.gid).resident = true) (chosen : u.rechooseCluster w = some cl) :
    (u.redispatch key c).work =
      ((u.onWb key Waybill.again).placeChunk key c cl { k with redispatched := k.redispatched + 1 }).work := by
  have phase' : (w.opc == 0x51 && !w.exchanged && decide (c < 65536)) = false := by
    by_cases op : w.opc = 0x51
    · rcases phase op with h | h
      · simp [h]
      · simp [Nat.not_lt.mpr h]
    · simp [op]
  unfold State.redispatch
  simp only [State.wb_of_find found, chunk, lost, kept, phase', resident, chosen, bne_self_eq_false, Bool.not_true, Bool.false_eq_true, if_false,
    if_neg (Nat.not_le.mpr limit)]
  rw [State.countN_work, State.countCluster_work]
  rfl

theorem chunkRedispatch_completes {s u : State} {stream : Fin 1048576} {seq c cl : Nat} {w : Waybill} {k : Chunk} (hs : s.running = true)
    (words : s.hasWords (wbKey stream.val seq) u) (found : u.work.wbs.find (wbKey stream.val seq) = some w) (chunk : w.chunks.find c = some k)
    (lost : k.st = 2) (kept : w.cancelled = false) (limit : k.redispatched < u.reg Obj.redispatchLimit)
    (phase : w.opc = 0x51 → w.exchanged = true ∨ 65536 ≤ c) (resident : (u.guest w.gid).resident = true)
    (chosen : u.rechooseCluster w = some cl) : Completes (.chunkRedispatch stream seq c) s fun t =>
      (t.wb (wbKey stream.val seq)).redispatch = satInc 8 w.redispatch ∧
      ∃ k' : Chunk, (t.wb (wbKey stream.val seq)).chunks = w.chunks.put c k' ∧ k'.cluster = cl ∧ k'.st = 1 ∧ k'.bits = k.bits ∧
        k'.redispatched = k.redispatched + 1 := by
  refine completes_live hs (by rw [exec, execChunkRedispatch]) ?_
  rw [State.withWords_of_hasWords _ words, State.wb, State.redispatch_work found chunk lost kept limit phase resident chosen,
    Tab.getD_of_find _ (State.find_placeChunk c cl _ (State.find_onWb Waybill.again found))]
  exact ⟨rfl, _, rfl, rfl, rfl, rfl, rfl⟩

/-! ### Commit (R81) -/

/-- A chunk with a granule less held for its commit. -/
def Chunk.unheld (g : Nat) (k : Chunk) : Chunk := { k with held := k.held.del g }

/-- A waybill with a granule of it committed. -/
def Waybill.commit (c g : Nat) (h : Held) (w : Waybill) : Waybill :=
  { w with flags := w.flags ||| h.flags, degraded := w.degraded || h.degraded, committed := if h.fail == 0 then w.committed + 1 else w.committed,
           marks := if h.fail != 0 then w.marks.put g h.fail else if h.poison then w.marks.put g 0x02 else w.marks,
           chunks := w.chunks.upd c fun k => { k with bits := setBit k.bits (g - k.first), held := k.held.del g } }

/-- The ranges of a granule with its open bytes settled, and the state after. -/
def State.outsPut (s : State) (key g : Nat) (h : Held) : State :=
  (s.openOuts (s.wb key) g h).2.putOuts (s.wb key).gid ((s.openOuts (s.wb key) g h).1.filter fun o => o.kind == 0)

/-- The commit but for what ends with it. -/
def State.committing (s : State) (key c g : Nat) (h : Held) : State :=
  (((((s.outsPut key g h).putStage (s.wb key).rctx (s.openOuts (s.wb key) g h).1).onWb key (Waybill.commit c g h)).countCluster
    ((s.wb key).chunks.getD c {}).cluster 0x4012 (if h.fail != 0 then 3 else 0)).unlockGranule key g)

theorem State.commitHeld_eq (s : State) (key c g : Nat) (h : Held) :
    s.commitHeld key c g h = ((s.committing key c g h).uncachedFree (Grant.ofGranule key g)).closeChunk key c := rfl

theorem State.outsPut_moves (s : State) (key g : Nat) (h : Held) :
    Moves [.egress, .counters, .samples, .log, .irqPending, .keyCaches, .guests, .requests, .streams, .chans, .dram, .out, .free] s
      (s.outsPut key g h) :=
  ((State.openOuts_moves _ _ _ _).mono (by decide)).trans (State.putOuts_moves _ _ _)

theorem State.find_committing {s : State} {key : Nat} {w : Waybill} (c g : Nat) (h : Held) (found : s.work.wbs.find key = some w) :
    (s.committing key c g h).work.wbs.find key = some (w.commit c g h) := by
  have stored := ((s.outsPut_moves key g h).same (p := .waybills) (by decide)).1
  have staged := ((State.putStage_moves (s.outsPut key g h) (s.wb key).rctx (s.openOuts (s.wb key) g h).1).same (p := .waybills) (by decide)).1
  change (State.countCluster _ _ _ _).work.wbs.find key = _
  rw [State.countCluster_work]
  exact State.find_onWb (Waybill.commit c g h) (by rw [staged, stored]; exact found)

theorem State.committing_cellar (s : State) (key c g : Nat) (h : Held) : (s.committing key c g h).cellar = (s.outsPut key g h).cellar :=
  (State.countCluster_cellar _ _ _ _).trans
    ((State.putStage_moves _ _ _).cellar_same (by decide) (by decide) (by decide) (by decide) (by decide))

theorem State.committing_dir (s : State) (key c g : Nat) (h : Held) : (s.committing key c g h).hearth.dir = s.hearth.dir := by
  obtain ⟨-, staged, -⟩ := (State.putStage_moves (s.outsPut key g h) (s.wb key).rctx (s.openOuts (s.wb key) g h).1).same (p := .coherence) (by decide)
  obtain ⟨-, stored, -⟩ := (s.outsPut_moves key g h).same (p := .coherence) (by decide)
  exact Eq.trans (congrArg Hearth.dir (State.countCluster_hearth _ _ _ _)) (staged.trans stored)

/-- A granule that commits sets its bit, and counts with its flags and its mark. -/
theorem State.find_commitHeld {s : State} {key c : Nat} {w : Waybill} {k : Chunk} (g : Nat) (h : Held) (found : s.work.wbs.find key = some w)
    (chunk : w.chunks.find c = some k) : ∃ w' : Waybill, (s.commitHeld key c g h).work.wbs.find key = some w' ∧
      (∃ k' : Chunk, w'.chunks.find c = some k' ∧ k'.bits = setBit k.bits (g - k.first)) ∧ w'.flags = (w.commit c g h).flags ∧
        w'.committed = (w.commit c g h).committed ∧ w'.marks = (w.commit c g h).marks := by
  obtain ⟨cs, st, closed, kept⟩ := State.find_closeChunk (s := (s.committing key c g h).uncachedFree (Grant.ofGranule key g)) c
    (by rw [State.uncachedFree_wbs]; exact State.find_committing c g h found)
  obtain ⟨st', held, chunk'⟩ := kept c { k with bits := setBit k.bits (g - k.first), held := k.held.del g } (by simp [Waybill.commit, chunk])
  exact ⟨_, closed, ⟨_, chunk', rfl⟩, rfl, rfl, rfl⟩

theorem State.commitHeld_cellar {s : State} {key g : Nat} (c : Nat) (h : Held) (shut : s.keepsOpen key g = false) :
    (s.commitHeld key c g h).cellar = (s.outsPut key g h).cellar := by
  rw [State.commitHeld_eq, State.closeChunk_cellar, State.uncachedFree_of_shut (by rw [State.committing_dir]; exact shut),
    State.committing_cellar]

/-! ### A duplicate (R81 step 4) -/

/-- A duplicate's write is counted, and its locks free. -/
theorem State.withdraw_moved (s : State) (key g cl : Nat) (h : Held) : ∃ m : State, Moves [.counters, .irqPending] s m ∧
    s.withdraw key g cl h = (m.unlockGranule key g).uncachedFree (Grant.ofGranule key g) := by
  unfold State.withdraw
  have counted := s.countCluster_moves cl 0x4012 1
  cases h.outs.find? fun o => o.kind == 0 with
  | none => exact ⟨_, counted, rfl⟩
  | some o => exact ⟨_, counted.trans (State.countChan_moves _ _ _ _), rfl⟩

theorem State.withdraw_wbs (s : State) (key g cl : Nat) (h : Held) : (s.withdraw key g cl h).work.wbs = s.work.wbs := by
  obtain ⟨m, moved, withdrawn⟩ := s.withdraw_moved key g cl h
  rw [withdrawn, State.uncachedFree_wbs]
  exact (moved.same (p := .waybills) (by decide)).1

theorem State.withdraw_cellar {s : State} {key g : Nat} (cl : Nat) (h : Held) (shut : s.keepsOpen key g = false) :
    (s.withdraw key g cl h).cellar = s.cellar := by
  obtain ⟨m, moved, withdrawn⟩ := s.withdraw_moved key g cl h
  rw [withdrawn, ((moved.mono (by decide)).trans ((m.unlockGranule_moves key g).mono (by decide)) :
    Moves [.counters, .irqPending, .waybills] s _).uncachedFree_of_shut (by decide) shut]
  exact moved.cellar_same (by decide) (by decide) (by decide) (by decide) (by decide)

section Commit

/-- The state in which a granule has been tested: it is held no more. -/
def State.tested (s : State) (key g c cl kind : Nat) : State := (s.onChunk key c (Chunk.unheld g)).settleGranule key c g cl kind

theorem State.tested_frame (s : State) (key g c cl kind : Nat) :
    Moves [.counters, .irqPending] (s.onChunk key c (Chunk.unheld g)) (s.tested key g c cl kind) := State.settleGranule_moves _ _ _ _ _ _

/-- A waybill with a granule of a chunk less held. -/
def Waybill.unheldIn (c g : Nat) (w : Waybill) : Waybill := { w with chunks := w.chunks.upd c (Chunk.unheld g) }

theorem State.find_tested {s : State} {key : Nat} {w : Waybill} (g c cl kind : Nat) (found : s.work.wbs.find key = some w) :
    (s.tested key g c cl kind).work.wbs.find key = some (w.unheldIn c g) := by
  obtain ⟨wbs, -⟩ := (s.tested_frame key g c cl kind).same (p := .waybills) (by decide)
  rw [wbs]
  exact State.find_onWb (Waybill.unheldIn c g) found

theorem State.tested_dir (s : State) (key g c cl kind : Nat) : (s.tested key g c cl kind).hearth.dir = s.hearth.dir := by
  obtain ⟨-, dir, -⟩ := (s.tested_frame key g c cl kind).same (p := .coherence) (by decide)
  exact dir

theorem State.tested_keepsOpen (s : State) (key g c cl kind : Nat) : (s.tested key g c cl kind).keepsOpen key g = s.keepsOpen key g := by
  rw [State.keepsOpen, State.tested_dir, ← State.keepsOpen]

theorem State.tested_cellar (s : State) (key g c cl kind : Nat) : (s.tested key g c cl kind).cellar = s.cellar :=
  (s.tested_frame key g c cl kind).cellar_same (by decide) (by decide) (by decide) (by decide) (by decide)

variable {s : State} {stream : Fin 1048576} {seq g c : Nat} {cl : Fin 128} {w : Waybill} {k : Chunk} {h : Held} (hs : s.running = true)
  (found : s.work.wbs.find (wbKey stream.val seq) = some w) (of : w.chunkOf g = some (c, k)) (own : k.cluster = cl.val)
  (late : k.old.find? (fun x => x.1 == cl.val && x.2.1 == g) = none) (held : k.held.find g = some h) (answered : h.waiting = 0)

include found of own late held answered

/-- The test-and-set of a granule held on the cluster of its chunk. -/
theorem State.testAndSet_held : s.testAndSet (wbKey stream.val seq) g cl.val =
    if k.bits.testBit (g - k.first) then (s.tested (wbKey stream.val seq) g c cl.val 1).withdraw (wbKey stream.val seq) g cl.val h
    else if !s.outsRoom (h.outs.filter fun o => o.kind == 0) then s
    else match s.outsBlocked (wbKey stream.val seq) g h.outs with
      | some l => s.uncachedStart l (.porter (wbKey stream.val seq) g true false) true
      | none => (s.tested (wbKey stream.val seq) g c cl.val 0).commitHeld (wbKey stream.val seq) c g h := by
  unfold State.testAndSet
  simp only [State.wb_of_find found, of, late, own, beq_self_eq_true, if_true, held, answered]
  rfl

include hs

theorem granuleCommit_duplicate (set : k.bits.testBit (g - k.first) = true) : Completes (.granuleCommit stream seq g cl) s fun t =>
    t.work.wbs.find (wbKey stream.val seq) = some (w.unheldIn c g) ∧ (s.keepsOpen (wbKey stream.val seq) g = false → t.cellar = s.cellar) := by
  refine completes_live hs (by rw [exec, execGranuleCommit]) ?_
  rw [State.testAndSet_held found of own late held answered, if_pos set, State.withdraw_wbs]
  refine ⟨State.find_tested g c cl.val 1 found, fun shut => ?_⟩
  rw [State.withdraw_cellar cl.val h (by rw [State.tested_keepsOpen]; exact shut), State.tested_cellar]

theorem granuleCommit_commits (chunk : w.chunks.find c = some k) (clear : k.bits.testBit (g - k.first) = false)
    (room : s.outsRoom (h.outs.filter fun o => o.kind == 0) = true) (free : s.outsBlocked (wbKey stream.val seq) g h.outs = none) :
    Completes (.granuleCommit stream seq g cl) s fun t =>
      (∃ k' : Chunk, (t.wb (wbKey stream.val seq)).chunks.find c = some k' ∧ k'.bits = setBit k.bits (g - k.first)) ∧
      (t.wb (wbKey stream.val seq)).flags = w.flags ||| h.flags ∧
      (t.wb (wbKey stream.val seq)).committed = (if h.fail = 0 then w.committed + 1 else w.committed) ∧
      (t.wb (wbKey stream.val seq)).marks = (if h.fail ≠ 0 then w.marks.put g h.fail else if h.poison then w.marks.put g 0x02 else w.marks) ∧
      ∃ m : State, Frame [.counters, .irqPending] (s.onChunk (wbKey stream.val seq) c (Chunk.unheld g)) m ∧
        (s.keepsOpen (wbKey stream.val seq) g = false → ∀ (outs : List OutRange) (n : State),
          m.openOuts (m.wb (wbKey stream.val seq)) g h = (outs, n) →
          t.cellar = (n.putOuts w.gid (outs.filter fun o => o.kind == 0)).cellar) := by
  refine completes_live hs (by rw [exec, execGranuleCommit]) ?_
  rw [State.testAndSet_held found of own late held answered, if_neg (by simp [clear]), if_neg (by simp [room])]
  simp only [free]
  have tested := State.find_tested g c cl.val 0 found
  obtain ⟨w', found', chunk', flags, committed, marks⟩ := State.find_commitHeld (c := c) (k := k.unheld g) g h tested
    (by simp [Waybill.unheldIn, chunk])
  rw [State.wb_of_find found']
  refine ⟨chunk', flags, by simp [committed, Waybill.commit, Waybill.unheldIn], by simp [marks, Waybill.commit, Waybill.unheldIn], _,
    (s.tested_frame (wbKey stream.val seq) g c cl.val 0).frame, fun shut outs n opened => ?_⟩
  rw [State.commitHeld_cellar c h (by rw [State.tested_keepsOpen]; exact shut), State.outsPut, opened, State.wb_of_find tested]
  rfl

end Commit

/-- Settles O21: a chunk is put on the chosen cluster, by its dispatch and again by its redispatch; the granule that it makes commits where its bit
is clear, and is withdrawn where it is set. -/
theorem chunksComplete : Obligations.ChunksComplete := by
  unfold Obligations.ChunksComplete
  exact ⟨fun s u stream seq c cl w hs words found goes room resident next chosen =>
      chunkDispatch_completes hs words found goes room resident next chosen,
    fun s stream seq g c cl w k h hs found of chunk own late held answered =>
      ⟨fun clear room free => granuleCommit_commits hs found of own late held answered chunk clear room free,
        fun set => granuleCommit_duplicate hs found of own late held answered set⟩,
    fun s u stream seq c cl w k hs words found chunk lost kept limit phase resident chosen =>
      chunkRedispatch_completes hs words found chunk lost kept limit phase resident chosen⟩

end Sys2Proof.Machine
end

section
namespace Sys2Proof.Machine

open Sys2Proof

/-! ## Clusters (R82, R399, R400, R486, R487) -/

theorem State.cluster_onCluster (s : State) (c d : Nat) (f : Cluster → Cluster) :
    (s.onCluster c f).cluster d = if d = c then f (s.cluster c) else s.cluster d := by
  simp [State.cluster, State.onCluster]

theorem State.cluster_congr {s t : State} (h : t.work.clusters = s.work.clusters) (c : Nat) : t.cluster c = s.cluster c := by
  rw [State.cluster, h, ← State.cluster]

/-! ### Cleared (R399) -/

/-- The chunks of a waybill that waited for the clearing of their cluster start. -/
def Waybill.startOn (cl : Nat) (w : Waybill) : Waybill :=
  { w with chunks := w.chunks.map fun _ c => if c.cluster == cl && c.st == 1 then { c with clearing := false } else c }

/-- No chunk that has been dispatched to the cluster waits any more. -/
theorem Waybill.startOn_started {cl c : Nat} {w : Waybill} {k : Chunk} (chunk : (w.startOn cl).chunks.find c = some k) (on : k.cluster = cl)
    (st : k.st = 1) : k.clearing = false := by
  obtain ⟨k', -, rfl⟩ := Option.map_eq_some_iff.mp ((Tab.find_map _ _ _).symm.trans chunk)
  by_cases waits : (k'.cluster == cl && k'.st == 1) = true
  · rw [if_pos waits]
  · rw [if_neg waits] at on st
    simp [on, st] at waits

/-- A cluster that is clear, for this guest. -/
def Cluster.cleared (gid : Option Nat) (x : Cluster) : Cluster := { x with clearing := false, lastGid := gid }

/-- A cluster is clear, its TLB empty, and its chunks start. -/
def State.clearCluster (s : State) (cl : Nat) : State :=
  let t := s.onCluster cl (Cluster.cleared (s.clusterGuest cl))
  { t with work := { t.work with wbs := t.work.wbs.map fun _ w => w.startOn cl }, trans := { t.trans with tlbs := t.trans.tlbs.del cl } }

theorem State.cluster_clearCluster (s : State) (cl : Nat) : (s.clearCluster cl).cluster cl = (s.cluster cl).cleared (s.clusterGuest cl) :=
  (State.cluster_onCluster s cl cl _).trans (if_pos rfl)

theorem clusterClearDone_completes {s : State} {cl : Fin 128} (hs : s.running = true) (clearing : (s.cluster cl.val).clearing = true)
    (awake : (s.cluster cl.val).pw = 0) : Completes (.clusterClearDone cl) s fun t =>
      (t.cluster cl.val).clearing = false ∧ (t.cluster cl.val).lastGid = s.clusterGuest cl.val ∧ t.trans.tlbs = s.trans.tlbs.del cl.val ∧
        ∀ (n c : Nat) (w : Waybill) (k : Chunk), t.work.wbs.find n = some w → w.chunks.find c = some k → k.cluster = cl.val → k.st = 1 →
          k.clearing = false := by
  refine completes_live hs
    (f := fun s => if !(s.cluster cl.val).clearing || (s.cluster cl.val).pw != 0 then s else s.clearCluster cl.val) (by rfl) ?_
  simp only [clearing, awake, Bool.not_true, bne_self_eq_false, Bool.or_self, Bool.false_eq_true, if_false, State.cluster_clearCluster]
  refine ⟨rfl, rfl, rfl, fun n c w k found chunk on st => ?_⟩
  obtain ⟨w', -, rfl⟩ := Option.map_eq_some_iff.mp ((Tab.find_map _ _ _).symm.trans found)
  exact Waybill.startOn_started chunk on st

/-! ### Lost (R82, R487) -/

/-- No hearth line is kept busy for a write. -/
def State.shut (s : State) : Prop := s.hearth.dir.rows.any (fun r => r.2.open_) = false

/-- DRAM, its channels and the hearth's directory are left as they were. -/
structure KeepsLines (s t : State) : Prop where
  cellar : t.cellar = s.cellar
  dir : t.hearth.dir = s.hearth.dir

theorem KeepsLines.refl (s : State) : KeepsLines s s := ⟨rfl, rfl⟩

theorem KeepsLines.trans {s t u : State} (h : KeepsLines s t) (k : KeepsLines t u) : KeepsLines s u :=
  ⟨k.cellar.trans h.cellar, k.dir.trans h.dir⟩

theorem KeepsLines.shut {s t : State} (h : KeepsLines s t) (shut : s.shut) : t.shut := by
  rw [State.shut, h.dir]
  exact shut

theorem Moves.keepsLines {ps : List Part} {s t : State} (h : Moves ps s t) (hh : Part.coherence ∉ ps) (hc : Part.chans ∉ ps) (hd : Part.dram ∉ ps)
    (hm : Part.map ∉ ps) (hg : Part.groups ∉ ps) (hb : Part.buses ∉ ps) : KeepsLines s t := by
  obtain ⟨-, dir, -⟩ := h.same hh
  exact ⟨h.cellar_same hc hd hm hg hb, dir⟩

theorem KeepsLines.foldl {α : Type} {f : State → α → State} (h : ∀ s x, s.shut → KeepsLines s (f s x)) (l : List α) {s : State} (shut : s.shut) :
    KeepsLines s (l.foldl f s) := by
  induction l generalizing s with
  | nil => exact KeepsLines.refl s
  | cons x l ih => exact (h s x shut).trans (ih ((h s x shut).shut shut))

theorem State.shut.free {s : State} (shut : s.shut) (mine : Grant → Bool) : s.uncachedFree mine = s := by
  refine State.uncachedFree_of_shut (List.any_eq_false.mpr fun r hr => ?_)
  simp [List.any_eq_false.mp shut r hr]

theorem State.unhold_keepsLines (s : State) (key g : Nat) : KeepsLines s (s.unhold key g) :=
  (s.unhold_moves key g).keepsLines (by decide) (by decide) (by decide) (by decide) (by decide) (by decide)

theorem State.dropLocks_keepsLines {s : State} (shut : s.shut) (key : Nat) (k : Chunk) : KeepsLines s (s.dropLocks key k) := by
  refine KeepsLines.foldl (fun v i shut => ?_) _ shut
  dsimp only
  split
  · exact KeepsLines.refl v
  · have freed : KeepsLines v ((v.unhold key (k.first + i)).unlockGranule key (k.first + i)) := (v.unhold_keepsLines key _).trans ⟨rfl, rfl⟩
    rw [(freed.shut shut).free]
    exact freed

/-- The holds and locks of a lost chunk free. -/
def State.releaseChunk (s : State) (key c : Nat) (k : Chunk) : State :=
  if 65536 ≤ c then (s.unhold key (batchItem k.cluster)).unhold key c else (s.unhold key (batchItem k.cluster)).dropLocks key k

theorem State.loseChunk_moved (s : State) (key c : Nat) (k : Chunk) :
    Moves [.peers, .counters, .waybills] (s.releaseChunk key c k) (s.loseChunk key c k) :=
  (((State.dropOwn_moves _ _ _).mono (by decide)).trans ((State.loseSlots_moves _ _ _).mono (by decide))).trans
    ((State.onChunk_moves _ _ _ _).mono (by decide))

theorem State.loseChunk_keepsLines {s : State} (shut : s.shut) (key c : Nat) (k : Chunk) : KeepsLines s (s.loseChunk key c k) := by
  have batch := s.unhold_keepsLines key (batchItem k.cluster)
  have released : KeepsLines s (s.releaseChunk key c k) := by
    unfold State.releaseChunk
    split
    · exact batch.trans (State.unhold_keepsLines _ _ _)
    · exact batch.trans (State.dropLocks_keepsLines (batch.shut shut) _ _)
  exact released.trans ((s.loseChunk_moved key c k).keepsLines (by decide) (by decide) (by decide) (by decide) (by decide) (by decide))

/-- No chunk that is lost changes a cluster. -/
theorem State.dropLocks_clusters (s : State) (key : Nat) (k : Chunk) : (s.dropLocks key k).work.clusters = s.work.clusters := by
  refine List.foldlRecOn (motive := fun t : State => t.work.clusters = s.work.clusters) _ _ rfl fun v h i _ => ?_
  dsimp only
  split
  · exact h
  · obtain ⟨-, clusters, -⟩ := (State.uncachedFree_moves ((v.unhold key (k.first + i)).unlockGranule key (k.first + i))
      (Grant.ofGranule key (k.first + i))).same (p := .waybills) (by decide)
    exact (clusters.trans (v.unhold_reheld key (k.first + i)).clusters).trans h

theorem State.loseChunk_clusters (s : State) (key c : Nat) (k : Chunk) : (s.loseChunk key c k).work.clusters = s.work.clusters := by
  have batch := (s.unhold_reheld key (batchItem k.cluster)).clusters
  have released : (s.releaseChunk key c k).work.clusters = s.work.clusters := by
    unfold State.releaseChunk
    split
    · exact (State.unhold_reheld _ _ _).clusters.trans batch
    · exact (State.dropLocks_clusters _ _ _).trans batch
  exact released

/-- The chunks that run on a cluster: waybill, number and chunk. -/
def State.runningOn (s : State) (cl : Nat) : List (Nat × Nat × Chunk) :=
  (s.work.wbs.rows.map fun w => (w.2.chunks.rows.filter fun c => c.2.st == 1 && c.2.cluster == cl).map fun c => (w.1, c.1, c.2)).flatten

/-- The chunks of a cluster are lost. -/
def State.losing (s : State) (cl : Nat) : State :=
  (s.runningOn cl).foldl (fun (s : State) x => s.loseChunk x.1 x.2.1 x.2.2) (if (s.runningOn cl).isEmpty then s else s.recovery)

/-- A cluster that is lost. -/
def Cluster.lose (x : Cluster) : Cluster := { x with lost := true, lastGid := none, clearing := false, pw := 0 }

/-- The cluster is lost with its TLB, and its holders of h. -/
def State.losesCluster (s : State) (cl : Nat) : State :=
  State.onCluster { s with work := { s.work with wbs := s.work.wbs.map fun _ w => w.loseHolder cl },
                           trans := { s.trans with tlbs := s.trans.tlbs.del cl } } cl Cluster.lose

theorem State.loseCluster_eq (s : State) (cl : Nat) :
    s.loseCluster cl = (((s.losing cl).losesCluster cl).log 0x11 (diePD (cl / 8)) cl (s.runningOn cl).length).openMin := rfl

theorem State.losing_clusters (s : State) (cl : Nat) : (s.losing cl).work.clusters = s.work.clusters :=
  List.foldlRecOn (motive := fun t : State => t.work.clusters = s.work.clusters) _ _ (by split <;> rfl)
    fun v h _ _ => (v.loseChunk_clusters _ _ _).trans h

theorem State.losing_tlbs (s : State) (cl : Nat) : (s.losing cl).trans.tlbs = s.trans.tlbs :=
  List.foldlRecOn (motive := fun t : State => t.trans.tlbs = s.trans.tlbs) _ _ (by split <;> rfl)
    fun v h x _ => ((v.loseChunk_moves x.1 x.2.1 x.2.2).same (p := .tlbs) (by decide)).2.trans h

theorem State.losing_keepsLines {s : State} (shut : s.shut) (cl : Nat) : KeepsLines s (s.losing cl) := by
  have begun : KeepsLines s (if (s.runningOn cl).isEmpty then s else s.recovery) := by split <;> exact ⟨rfl, rfl⟩
  exact begun.trans (KeepsLines.foldl (fun v x shut => State.loseChunk_keepsLines shut _ _ _) _ (begun.shut shut))

/-- A cluster that is opened is neither lost nor found by it, and keeps its last guest. -/
theorem State.openMin_cluster (s : State) (c : Nat) :
    (s.openMin.cluster c).lost = (s.cluster c).lost ∧ (s.openMin.cluster c).lastGid = (s.cluster c).lastGid := by
  refine List.foldlRecOn (motive := fun t : State => (t.cluster c).lost = (s.cluster c).lost ∧ (t.cluster c).lastGid = (s.cluster c).lastGid) _ _
    ⟨rfl, rfl⟩ fun v h d _ => ?_
  rw [State.cluster_onCluster]
  split
  · rename_i same
    subst same
    split <;> exact h
  · exact h

/-- What follows the loss of a cluster: it is logged, and others open. -/
theorem State.loseCluster_moved (s : State) (cl : Nat) : Moves [.waybills, .log, .out] ((s.losing cl).losesCluster cl) (s.loseCluster cl) := by
  rw [State.loseCluster_eq]
  exact ((State.log_moves _ _ _ _ _ _ _).mono (by decide)).trans ((State.openMin_moves _).mono (by decide))

theorem State.loseCluster_cluster (s : State) (cl c : Nat) :
    ((s.loseCluster cl).cluster c).lost = (((s.losing cl).losesCluster cl).cluster c).lost ∧
      ((s.loseCluster cl).cluster c).lastGid = (((s.losing cl).losesCluster cl).cluster c).lastGid := by
  have logged := ((State.log_moves ((s.losing cl).losesCluster cl) 0x11 (diePD (cl / 8)) cl (s.runningOn cl).length 0 0).same
    (p := .waybills) (by decide)).2.1
  rw [State.loseCluster_eq, ← State.cluster_congr logged]
  exact State.openMin_cluster _ c

/-- A cluster that is lost has no last guest. -/
theorem State.loseCluster_lost (s : State) (cl : Nat) :
    ((s.loseCluster cl).cluster cl).lost = true ∧ ((s.loseCluster cl).cluster cl).lastGid = none := by
  obtain ⟨lost, last⟩ := s.loseCluster_cluster cl cl
  rw [State.losesCluster, State.cluster_onCluster, if_pos rfl] at lost last
  exact ⟨lost, last⟩

/-- A cluster that is lost is not found by the loss of another. -/
theorem State.loseCluster_stays (s : State) {cl c : Nat} (h : (s.cluster c).lost = true) : ((s.loseCluster cl).cluster c).lost = true := by
  obtain ⟨lost, -⟩ := s.loseCluster_cluster cl c
  rw [State.losesCluster, State.cluster_onCluster] at lost
  refine lost.trans ?_
  split
  · rfl
  · exact (congrArg Cluster.lost (State.cluster_congr (s.losing_clusters cl) c)).trans h

theorem State.loseCluster_tlbs (s : State) (cl : Nat) : (s.loseCluster cl).trans.tlbs = s.trans.tlbs.del cl := by
  rw [((s.loseCluster_moved cl).same (p := .tlbs) (by decide)).2, ← State.losing_tlbs s cl]
  rfl

theorem State.loseCluster_keepsLines {s : State} (shut : s.shut) (cl : Nat) : KeepsLines s (s.loseCluster cl) := by
  have lost : KeepsLines s ((s.losing cl).losesCluster cl) := (State.losing_keepsLines shut cl).trans ⟨rfl, rfl⟩
  exact lost.trans ((s.loseCluster_moved cl).keepsLines (by decide) (by decide) (by decide) (by decide) (by decide) (by decide))

theorem clusterLost_completes {s : State} {cl : Fin 128} (hs : s.running = true) (up : s.clusterUp cl.val = true)
    (open_ : (s.cluster cl.val).pw ≠ 1) (awake : (s.cluster cl.val).pw ≠ 2) : Completes (.clusterLost cl) s fun t =>
      (t.cluster cl.val).lost = true ∧ (t.cluster cl.val).lastGid = none ∧ t.trans.tlbs = s.trans.tlbs.del cl.val ∧
        (s.hearth.dir.rows.any (fun r => r.2.open_) = false → t.cellar = s.cellar) := by
  refine completes_live hs (by rw [exec, execClusterLost]) ?_
  simp only [up, beq_eq_false_iff_ne.mpr open_, beq_eq_false_iff_ne.mpr awake, Bool.not_true, Bool.or_self, Bool.false_eq_true, if_false]
  obtain ⟨lost, last⟩ := s.loseCluster_lost cl.val
  exact ⟨lost, last, s.loseCluster_tlbs cl.val, fun shut => (State.loseCluster_keepsLines shut cl.val).cellar⟩

/-! ### A die lost (R82) -/

/-- The clusters of a die are lost that are not lost yet. -/
def State.loseClusters (s : State) (die : Nat) : State :=
  (upto 8).foldl (fun (s : State) i => if (s.cluster (die * 8 + i)).lost then s else s.loseCluster (die * 8 + i)) s

theorem State.loseClusters_lost (s : State) (die : Nat) {i : Nat} (h : i < 8) : ((s.loseClusters die).cluster (die * 8 + i)).lost = true := by
  refine foldl_reaches (before := fun _ => True) (after := fun s : State => (s.cluster (die * 8 + i)).lost = true) (fun _ _ _ _ => trivial)
    (fun v _ => ?_) (fun v j lost => ?_) (by simpa [upto] using h) trivial
  · split
    · assumption
    · exact (v.loseCluster_lost _).1
  · split
    · exact lost
    · exact v.loseCluster_stays lost

theorem State.loseClusters_present (s : State) (die : Nat) : (s.loseClusters die).power.present = s.power.present := by
  unfold State.loseClusters
  refine List.foldlRecOn (motive := fun t : State => t.power.present = s.power.present) _ _ rfl fun v h i _ => ?_
  split
  · exact h
  · exact Eq.trans ((v.loseCluster_moves _).same (p := .present) (by decide)) h

theorem State.loseClusters_keepsLines {s : State} (shut : s.shut) (die : Nat) : KeepsLines s (s.loseClusters die) :=
  KeepsLines.foldl (fun v i shut => by split; exacts [KeepsLines.refl v, State.loseCluster_keepsLines shut _]) _ shut

/-- The streams of the sequencers on a die are bound to others. -/
def State.rebindAll (s : State) (die : Nat) : State :=
  s.work.streams.keys.foldl (fun (s : State) k => if (s.work.streams.getD k {}).seqr / 8 == die then s.rebind k else s) s

theorem State.rebindAll_moves (s : State) (die : Nat) : Moves [.streams, .waybills] s (s.rebindAll die) :=
  Moves.foldl (fun v k => Moves.ite (v.rebind_moves k) (Moves.refl _ v)) (Moves.refl _ s)

theorem State.rebindAll_clusters (s : State) (die : Nat) : (s.rebindAll die).work.clusters = s.work.clusters := by
  refine List.foldlRecOn (motive := fun t : State => t.work.clusters = s.work.clusters) _ _ rfl fun v h k _ => ?_
  split <;> exact h

/-- A die is present no more. -/
def State.dieGone (s : State) (die : Nat) : State := { s with power := { s.power with present := clearBit s.power.present (diePD die) } }

theorem State.dieGone_present (s : State) (die : Nat) : (s.dieGone die).power.present = clearBit s.power.present (diePD die) := rfl

theorem State.dieGone_clusters (s : State) (die : Nat) : (s.dieGone die).work.clusters = s.work.clusters := rfl

theorem State.dieGone_cellar (s : State) (die : Nat) : (s.dieGone die).cellar = s.cellar := rfl

/-- What follows the loss of a die's clusters: the die is gone, and the streams of its sequencers go to others. -/
def State.leaveDie (s : State) (die : Nat) : State := ((s.dieGone die).rebindAll die).log 0x12 (diePD die) (diePD die)

theorem State.leaveDie_moved (s : State) (die : Nat) : Moves [.streams, .waybills, .log, .out] (s.dieGone die) (s.leaveDie die) :=
  ((State.rebindAll_moves _ die).mono (by decide)).trans ((State.log_moves _ _ _ _ _ _ _).mono (by decide))

theorem State.leaveDie_present (s : State) (die : Nat) : (s.leaveDie die).power.present = clearBit s.power.present (diePD die) :=
  Eq.trans ((s.leaveDie_moved die).same (p := .present) (by decide)) (s.dieGone_present die)

theorem State.leaveDie_clusters (s : State) (die : Nat) : (s.leaveDie die).work.clusters = s.work.clusters := by
  obtain ⟨-, logged, -⟩ := (State.log_moves ((s.dieGone die).rebindAll die) 0x12 (diePD die) (diePD die) 0 0 0).same (p := .waybills) (by decide)
  exact (logged.trans (State.rebindAll_clusters _ die)).trans (s.dieGone_clusters die)

theorem State.leaveDie_cellar (s : State) (die : Nat) : (s.leaveDie die).cellar = s.cellar :=
  ((s.leaveDie_moved die).cellar_same (by decide) (by decide) (by decide) (by decide) (by decide)).trans (s.dieGone_cellar die)

theorem porterDieLost_completes {s : State} {die : Fin 16} (hs : s.running = true) (here : s.hasDie (diePD die.val) = true) :
    Completes (.porterDieLost die) s fun t =>
      t.power.present = clearBit s.power.present (diePD die.val) ∧ (∀ i : Nat, i < 8 → (t.cluster (die.val * 8 + i)).lost = true) ∧
        (s.hearth.dir.rows.any (fun r => r.2.open_) = false → t.cellar = s.cellar) := by
  refine completes_live hs (f := fun s => if !s.hasDie (diePD die.val) then s else (s.loseClusters die.val).leaveDie die.val)
    (by simp only [exec, execPorterDieLost, State.loseClusters, State.leaveDie, State.rebindAll, State.dieGone]) ?_
  simp only [here, Bool.not_true, Bool.false_eq_true, if_false]
  refine ⟨?_, fun i h => ?_, fun shut => ?_⟩
  · rw [State.leaveDie_present, State.loseClusters_present]
  · rw [State.cluster_congr (State.leaveDie_clusters _ _)]
    exact s.loseClusters_lost die.val h
  · exact (State.leaveDie_cellar _ _).trans (State.loseClusters_keepsLines shut die.val).cellar

/-! ### Back in service, asleep and awake (R400, R486, R487) -/

section Sleep

variable {s : State} {cl : Fin 128} (hs : s.running = true)

include hs

theorem clusterReturns_completes (lost : (s.cluster cl.val).lost = true) : Completes (.clusterReturnsToService cl) s fun t =>
    (t.cluster cl.val).lost = false ∧ (t.cluster cl.val).lastGid = none ∧ (t.cluster cl.val).pw = 0 := by
  refine completes_live hs (by rw [exec, execClusterReturnsToService]) ?_
  rw [if_pos lost, State.cluster_onCluster, if_pos rfl]
  exact ⟨rfl, rfl, rfl⟩

theorem clusterShutter_completes (idle : s.idleOpen cl.val = true) (clear : (s.cluster cl.val).clearing = false)
    (spare : s.keptOpen cl.val = false) : Completes (.clusterShutterExpiry cl) s fun t =>
      t.work.clusters = s.work.clusters.put cl.val { (s.cluster cl.val) with pw := 1, idle := s.now } ∧ t.trans.tlbs = s.trans.tlbs := by
  refine completes_live hs (by rw [exec, execClusterShutterExpiry]) ?_
  rw [if_pos (by simp [idle, clear, spare])]
  exact ⟨rfl, rfl⟩

theorem clusterDark_completes (up : s.clusterUp cl.val = true) (shuttered : (s.cluster cl.val).pw = 1)
    (limit : s.reg Obj.clusterDarkIdle ≠ 0) : Completes (.clusterDarkExpiry cl) s fun t =>
      t.work.clusters = s.work.clusters.put cl.val { (s.cluster cl.val) with pw := 2, lastGid := none, idle := s.now } ∧
        t.trans.tlbs = s.trans.tlbs.del cl.val := by
  refine completes_live hs (by rw [exec, execClusterDarkExpiry]) ?_
  rw [if_pos (by simp [up, shuttered, limit])]
  exact ⟨rfl, rfl⟩

theorem clusterWake_completes (woken : (s.cluster cl.val).pw = 3 ∨ (s.cluster cl.val).pw = 4) : Completes (.clusterWakeDone cl) s fun t =>
    t.work.clusters = s.work.clusters.put cl.val { (s.cluster cl.val) with pw := 0, idle := s.now } := by
  refine completes_live hs (by rw [exec, execClusterWakeDone]) ?_
  rw [if_pos (by simpa using woken)]
  split
  · exact ((State.irqEdge_moves _ _).same (p := .waybills) (by decide)).2.1
  · rfl

end Sleep

/-- Settles O22: each event of a cluster has its effect on it, and the loss of one, or of a die, leaves memory as it is where no hearth line is kept
busy for a write. -/
theorem clustersComplete : Obligations.ClustersComplete := by
  unfold Obligations.ClustersComplete
  exact ⟨fun s cl hs clearing awake => clusterClearDone_completes hs clearing awake,
    fun s cl hs up open_ awake => clusterLost_completes hs up open_ awake,
    fun s die hs here => porterDieLost_completes hs here,
    fun s cl hs lost => clusterReturns_completes hs lost,
    fun s cl hs idle clear spare => clusterShutter_completes hs idle clear spare,
    fun s cl hs up shuttered limit => clusterDark_completes hs up shuttered limit,
    fun s cl hs woken => clusterWake_completes hs woken⟩

end Sys2Proof.Machine
end

section
namespace Sys2Proof.Machine

open Sys2Proof

/-! ## States that differ in counts and interrupts alone: what a line of the table region holds is the same (R386) -/

/-- The state with other counts and interrupts. -/
def State.counted (s : State) (o : Obs) (q : Irq) : State := { s with obs := o, irq := q }

/-- Two states differ in counts and interrupts alone. -/
def Counted (s t : State) : Prop := ∃ o q, t = s.counted o q

theorem Counted.countChan {s t : State} (h : Counted s t) (ch ev sel : Nat) : Counted (s.countChan ch ev sel) (t.countChan ch ev sel) := by
  obtain ⟨o, q, rfl⟩ := h
  obtain ⟨o₁, q₁, h₁⟩ := State.countN_form s (dieCL (ch / 2)) (ch % 2) ev sel 1
  obtain ⟨o₂, q₂, h₂⟩ := State.countN_form (s.counted o q) (dieCL (ch / 2)) (ch % 2) ev sel 1
  refine ⟨o₂, q₂, ?_⟩
  simp only [State.countChan, State.count, h₁, h₂]
  rfl

theorem Counted.onChan {s t : State} (h : Counted s t) (ch : Nat) (f : Chan → Chan) : Counted (s.onChan ch f) (t.onChan ch f) := by
  obtain ⟨o, q, rfl⟩ := h
  exact ⟨o, q, rfl⟩

theorem Counted.putLine {s t : State} (h : Counted s t) (ch line : Nat) (d : Bytes) (m : Nat) :
    Counted (s.putLine ch line d m) (t.putLine ch line d m) := by
  obtain ⟨o, q, rfl⟩ := h
  exact ⟨o, q, rfl⟩

theorem Counted.ite {c : Prop} [Decidable c] {a b a' b' : State} (h : Counted a a') (k : Counted b b') :
    Counted (if c then a else b) (if c then a' else b') := by
  split <;> assumption

theorem Counted.chan {s t : State} (h : Counted s t) (ch : Nat) : t.chan ch = s.chan ch := by
  obtain ⟨o, q, rfl⟩ := h
  rfl

/-- A correction logged. -/
def State.ceLogged (s : State) (ch line source : Nat) (synds : List Nat) : State :=
  s.onChan ch fun c =>
    { c with ceCount := satInc 32 c.ceCount,
             ceLog := ceEnter c.ceLog { source := source, word := (lastWrong synds).1, synd := (lastWrong synds).2, line := line,
                                        time := s.nowUs % 2 ^ 48 },
             ceTimes := (s.nowMs :: c.ceTimes).filter fun t => decide (s.nowMs < t + 1000) }

/-- The corrections of the row reach the threshold of a repair. -/
def State.ceMany (s : State) (ch line : Nat) : Bool :=
  s.reg Obj.pprCeThreshold != 0 && decide (s.reg Obj.pprCeThreshold ≤
    ((s.chan ch).ceLog.filter fun e => s.rowKey ch e.line == s.rowKey ch line).foldl (fun n e => n + e.count) 0)

/-- A row that cannot be repaired is marked. -/
def State.ceMarked (s : State) (ch line : Nat) : State :=
  if s.ceMany ch line && (s.chan ch).noRepair.contains (keyBankGroup (s.rowKey ch line)) then
    s.onChan ch fun c => { c with ueRows := ueRow c.ueRows (s.rowKey ch line) s.nowMs } else s

/-- What the corrections call for, as logged in u: a repair, or a retrain. -/
def State.ceJudged (v u : State) (ch line : Nat) : State :=
  let c := u.chan ch
  let due := u.ceMany ch line && !c.wantRepair.contains (u.rowKey ch line) && !c.noRepair.contains (keyBankGroup (u.rowKey ch line))
  let high := v.reg Obj.ceRetrainRate != 0 && decide (v.reg Obj.ceRetrainRate < c.ceTimes.length)
  let soon := match c.ceRetrain with | some t => decide (v.nowMs ≤ t + 10000) | none => false
  let free := decide (c.ceHold ≤ v.nowMs)
  v.onChan ch fun d => { d with wantRepair := if due then d.wantRepair ++ [u.rowKey ch line] else d.wantRepair,
                                want := if high && free && !soon && c.want == 0 && c.st != 5 then 2 else d.want,
                                ceHold := if high && free && soon then v.nowMs + 60000 else d.ceHold }

theorem State.corrected_eq (s : State) (ch line source : Nat) (synds : List Nat) : s.corrected ch line source synds =
    (((s.ceLogged ch line source synds).ceMarked ch line).ceJudged (s.ceLogged ch line source synds) ch line).countChan ch 0x3015 0 := rfl

theorem Counted.ceMarked {s t : State} (h : Counted s t) (ch line : Nat) : Counted (s.ceMarked ch line) (t.ceMarked ch line) := by
  obtain ⟨o, q, rfl⟩ := id h
  exact Counted.ite ⟨o, q, rfl⟩ h

theorem Counted.ceJudged {v v' u u' : State} (h : Counted v v') (k : Counted u u') (ch line : Nat) :
    Counted (v.ceJudged u ch line) (v'.ceJudged u' ch line) := by
  obtain ⟨o, q, rfl⟩ := h
  obtain ⟨-, -, rfl⟩ := k
  exact ⟨o, q, rfl⟩

theorem Counted.corrected {s t : State} (h : Counted s t) (ch line source : Nat) (synds : List Nat) :
    Counted (s.corrected ch line source synds) (t.corrected ch line source synds) := by
  obtain ⟨o, q, rfl⟩ := h
  have logged : Counted (s.ceLogged ch line source synds) ((s.counted o q).ceLogged ch line source synds) := ⟨o, q, rfl⟩
  rw [State.corrected_eq, State.corrected_eq]
  exact ((logged.ceMarked ch line).ceJudged logged ch line).countChan ch 0x3015 0

/-- Two answers to a read, and the states after: the same answer, and states that differ in counts alone. -/
def SameRead {α : Type} (x y : α × State) : Prop := x.1 = y.1 ∧ Counted x.2 y.2

theorem SameRead.ite {α : Type} {c : Prop} [Decidable c] {a b a' b' : α × State} (h : SameRead a a') (k : SameRead b b') :
    SameRead (if c then a else b) (if c then a' else b') := by
  split <;> assumption

/-- A row marked for a line that is lost. -/
def State.markRow (s : State) (ch line : Nat) : State :=
  s.onChan ch fun c =>
    { c with ueRows := ueRow c.ueRows (s.rowKey ch line) s.nowMs,
             wantRepair := if c.wantRepair.contains (s.rowKey ch line) || c.noRepair.contains (keyBankGroup (s.rowKey ch line)) then c.wantRepair
               else c.wantRepair ++ [s.rowKey ch line] }

theorem Counted.markRow {s t : State} (h : Counted s t) (ch line : Nat) : Counted (s.markRow ch line) (t.markRow ch line) := by
  obtain ⟨o, q, rfl⟩ := h
  exact ⟨o, q, rfl⟩

/-- A corrected line goes back to DRAM, unless its WCB holds a newer one. -/
def State.putBack (s : State) (ch line : Nat) (d : Bytes) (m : Nat) : State :=
  if (s.chan ch).wcb.has line then s.countChan ch 0x3015 5 else s.putLine ch line d m

theorem Counted.putBack {s t : State} (h : Counted s t) (ch line : Nat) (d : Bytes) (m : Nat) :
    Counted (s.putBack ch line d m) (t.putBack ch line d m) := by
  unfold State.putBack
  rw [h.chan]
  exact (h.countChan _ _ _).ite (h.putLine _ _ _ _)

theorem Counted.readStored {s t : State} (h : Counted s t) (ch line source e1 e2 : Nat) :
    SameRead (s.readStored ch line source e1 e2) (t.readStored ch line source e1 e2) := by
  have flagged := h.countChan ch 0x3015 1
  have again := flagged.countChan ch 0x3015 2
  have raw : t.rawLine ch line = s.rawLine ch line := by obtain ⟨o, q, rfl⟩ := h; rfl
  have strong : t.strongChan ch = s.strongChan ch := by obtain ⟨o, q, rfl⟩ := h; rfl
  unfold State.readStored
  dsimp only
  rw [raw, strong]
  refine SameRead.ite ⟨rfl, h⟩ (SameRead.ite ⟨rfl, (h.corrected _ _ _ _).putBack _ _ _ _⟩ ?_)
  refine SameRead.ite ⟨rfl, flagged.markRow ch line⟩ ⟨rfl, ?_⟩
  exact (Counted.ite (again.corrected _ _ _ _) again).putLine _ _ _ _

/-- What is built of the lines read, if none was lost. -/
theorem SameRead.built {x y : Option (Bytes × Nat) × State} (h : SameRead x y) :
    SameRead (match x.1 with | some (d, dm) => (({ data := d, dmeta := dm } : Got), x.2) | none => ({ lost := true }, x.2))
      (match y.1 with | some (d, dm) => (({ data := d, dmeta := dm } : Got), y.2) | none => ({ lost := true }, y.2)) := by
  obtain ⟨same, after⟩ := h
  rw [← same]
  cases x.1 <;> exact ⟨rfl, after⟩

theorem Counted.reconstruct {s t : State} (h : Counted s t) (g m line source : Nat) :
    (t.reconstruct g m line source).1 = (s.reconstruct g m line source).1 := by
  refine Eq.symm (And.left (b := Counted (s.reconstruct g m line source).2 (t.reconstruct g m line source).2) ?_)
  obtain ⟨o, q, rfl⟩ := id h
  unfold State.reconstruct
  dsimp only
  refine SameRead.ite ⟨rfl, h⟩ (SameRead.ite ⟨rfl, h⟩ (SameRead.built ?_))
  refine List.foldl_rel (r := SameRead) ⟨rfl, h⟩ fun x _ b b' same => ?_
  obtain ⟨acc, v⟩ := b
  obtain ⟨acc', v'⟩ := b'
  obtain ⟨rfl, h⟩ := same
  have read := h.readStored (x.2.getD 0) line source 0 0
  dsimp only
  generalize v.readStored (x.2.getD 0) line source 0 0 = r at read
  generalize v'.readStored (x.2.getD 0) line source 0 0 = r' at read
  obtain ⟨r, n⟩ := r
  obtain ⟨r', n'⟩ := r'
  obtain ⟨rfl, after⟩ := read
  have chan := after.chan (x.2.getD 0)
  cases acc with
  | none => exact ⟨rfl, after⟩
  | some a =>
    cases r with
    | none => exact ⟨rfl, after⟩
    | some r =>
      dsimp only at chan ⊢
      rw [chan]
      exact ⟨rfl, after⟩

theorem Counted.tableLineBad {s t : State} (h : Counted s t) (pa : Nat) : t.tableLineBad pa = s.tableLineBad pa := by
  have built := fun g m line => h.reconstruct g m line 0
  obtain ⟨o, q, rfl⟩ := h
  unfold State.tableLineBad
  simp only [built]
  rfl

theorem Counted.streamBad {s t : State} (h : Counted s t) (k : Nat) : t.streamBad k = s.streamBad k := by
  have bad := fun pa => h.tableLineBad pa
  obtain ⟨o, q, rfl⟩ := h
  exact List.filter_congr fun a _ => bad a

theorem State.countLedger_counted (s : State) (ev sel : Nat) : Counted s (s.countLedger ev sel) := by
  obtain ⟨o, q, h⟩ := s.countLedger_form ev sel
  exact ⟨o, q, h⟩

end Sys2Proof.Machine
end

section
namespace Sys2Proof.Machine

open Sys2Proof

/-! ## A stream that becomes resident (R66, R67) -/

/-- A stream with TAIL moved by a doorbell. -/
def Stream.rung (tail used : Nat) (k : Stream) : Stream := { k with tail := tail, used := used }

/-- A doorbell leaves the queue, and is applied where it still advances TAIL. -/
def ringBell (k : Nat) (s : State) (b : Bell) : State :=
  if (s.work.streams.getD k {}).dist (s.work.streams.getD k {}).tail < (s.work.streams.getD k {}).dist b.tail then
    (s.leaveQ qidBell k).applyBell k b.tail
  else s.leaveQ qidBell k

/-- A stream's waiting doorbells are applied to it. -/
def State.rung (s : State) (k : Nat) : State :=
  (s.work.bells.filter fun b => b.stream == k).foldl (ringBell k)
    { s with work := { s.work with bells := s.work.bells.filter fun b => b.stream != k } }

theorem State.ringBells_eq (s : State) (k : Nat) : s.ringBells k = (s.rung k).resume fun r => r.stage == .bell := rfl

theorem State.leaveQ_work (s : State) (q i : Nat) : (s.leaveQ q i).work = s.work :=
  (s.leaveQ_moves q i).work_same (by decide) (by decide) (by decide) (by decide) (by decide)

theorem State.applyBell_bells (s : State) (k tail : Nat) : (s.applyBell k tail).work.bells = s.work.bells := rfl

theorem State.applyBell_find (s : State) (k tail : Nat) :
    (s.applyBell k tail).work.streams.find k = (s.work.streams.find k).map (Stream.rung tail (s.work.stamp + 1)) := by
  simp only [State.applyBell, Tab.find_upd, if_pos]
  rfl

theorem ringBell_bells (s : State) (k : Nat) (b : Bell) : (ringBell k s b).work.bells = s.work.bells := by
  unfold ringBell
  split
  · rw [State.applyBell_bells, State.leaveQ_work]
  · rw [State.leaveQ_work]

theorem find_ringBell {s : State} {k : Nat} {x : Stream} (b : Bell) (found : s.work.streams.find k = some x) :
    ∃ tail used, (ringBell k s b).work.streams.find k = some (x.rung tail used) := by
  unfold ringBell
  split
  · rw [State.applyBell_find, State.leaveQ_work, found]
    exact ⟨b.tail, _, rfl⟩
  · rw [State.leaveQ_work]
    exact ⟨x.tail, x.used, found⟩

theorem State.rung_bells (s : State) (k : Nat) : (s.rung k).work.bells = s.work.bells.filter fun b => b.stream != k :=
  List.foldlRecOn (motive := fun t : State => t.work.bells = s.work.bells.filter fun b => b.stream != k) _ _ rfl
    fun v h b _ => (ringBell_bells v k b).trans h

theorem State.find_rung {s : State} {k : Nat} {x : Stream} (found : s.work.streams.find k = some x) :
    ∃ tail used, (s.rung k).work.streams.find k = some (x.rung tail used) := by
  refine List.foldlRecOn (motive := fun t : State => ∃ tail used, t.work.streams.find k = some (x.rung tail used)) _ _
    ⟨x.tail, x.used, found⟩ fun v h b _ => ?_
  obtain ⟨tail, used, here⟩ := h
  obtain ⟨tail', used', there⟩ := find_ringBell b here
  exact ⟨tail', used', there⟩

/-- The entry of a stream read: it may make its guest fatal, and so the stream enters ERROR. -/
theorem State.readStream_reheld (s : State) (k : Nat) : Reheld s (s.readStream k) :=
  Reheld.foldl (fun v a => v.guestFatal_reheld _ a _) _ s

theorem State.readStream_of_sound {s : State} {k : Nat} (h : s.streamBad k = []) : s.readStream k = s := by
  simp [State.readStream, h]

theorem State.writeStream_reheld (s : State) (k : Nat) : Reheld s (s.writeStream k) :=
  (Reports.foldl (fun v _ => (State.wcbPut_reports v _ _ _ _).then_moves (State.useFree_moves _ _) (by decide)) _ s).reheld

theorem State.find_readStream {s : State} {k : Nat} {x : Stream} (found : s.work.streams.find k = some x) :
    ∃ e h, (s.readStream k).work.streams.find k = some (x.restated e h) ∧ (s.streamBad k = [] → e = x.err) := by
  by_cases sound : s.streamBad k = []
  · exact ⟨x.err, x.held, by rw [State.readStream_of_sound sound]; exact found, fun _ => rfl⟩
  · obtain ⟨e, h, here⟩ := (s.readStream_reheld k).findStream found
    exact ⟨e, h, here, fun h => absurd h sound⟩

theorem State.residentStream_bells (s : State) (k : Nat) : (s.residentStream k).work.bells = s.work.bells := rfl

theorem State.onStream_bells (s : State) (k : Nat) (f : Stream → Stream) : (s.onStream k f).work.bells = s.work.bells := rfl

theorem State.residentStream_find (s : State) (k : Nat) : (s.residentStream k).work.streams.find k =
    (s.work.streams.find k).map fun t => { t with resident := true, seqr := s.bestSeqr, used := s.work.stamp + 1 } := by
  simp only [State.residentStream, Tab.find_upd, if_pos]

theorem State.onStream_find (s : State) (k : Nat) (f : Stream → Stream) : (s.onStream k f).work.streams.find k = (s.work.streams.find k).map f := by
  simp only [State.onStream, Tab.find_upd, if_pos]

theorem State.onStream_find_ne (s : State) {k n : Nat} (f : Stream → Stream) (h : n ≠ k) :
    (s.onStream k f).work.streams.find n = s.work.streams.find n := by
  simp [State.onStream, h]

/-- A stream arrives: it is resident, and its doorbells are applied before others take their places. -/
theorem State.arrives {s : State} {k : Nat} {x : Stream} (found : s.work.streams.find k = some x) : ∃ m : State,
    (∃ k' : Stream, m.work.streams.find k = some k' ∧ k'.resident = true ∧ k'.head = x.head ∧ (s.streamBad k = [] → k'.err = x.err)) ∧
      m.work.bells = s.work.bells.filter (fun b => b.stream != k) ∧
      ((s.readStream k).residentStream k).ringBells k = m.resume fun r => r.stage == .bell := by
  obtain ⟨e, h, read, sound⟩ := State.find_readStream found
  have arrived : ((s.readStream k).residentStream k).work.streams.find k =
      some { x.restated e h with resident := true, seqr := (s.readStream k).bestSeqr, used := (s.readStream k).work.stamp + 1 } := by
    rw [State.residentStream_find, read]
    rfl
  obtain ⟨tail, used, rung⟩ := State.find_rung arrived
  have bells : ((s.readStream k).residentStream k).work.bells = s.work.bells := by
    rw [State.residentStream_bells, (s.readStream_reheld k).bells]
  exact ⟨((s.readStream k).residentStream k).rung k, ⟨_, rung, rfl, rfl, sound⟩, by rw [State.rung_bells, bells], State.ringBells_eq _ _⟩

theorem State.find_spillStream {s : State} (v : Nat) {k : Nat} {x : Stream} (found : s.work.streams.find k = some x) :
    ∃ y : Stream, (s.spillStream v).work.streams.find k = some y ∧ y.head = x.head := by
  obtain ⟨e, h, written⟩ := (s.writeStream_reheld v).findStream found
  unfold State.spillStream
  by_cases same : k = v
  · subst same
    rw [State.onStream_find, written]
    exact ⟨_, rfl, rfl⟩
  · rw [State.onStream_find_ne _ _ same]
    exact ⟨_, written, rfl⟩

theorem State.spillStream_bells (s : State) (v : Nat) : (s.spillStream v).work.bells = s.work.bells := by
  unfold State.spillStream
  rw [State.onStream_bells, (s.writeStream_reheld v).bells]

theorem streamSwapDone_completes {s : State} {stream : Fin 1048576} {k : Stream} (hs : s.running = true)
    (found : s.work.streams.find stream.val = some k) (spilled : k.resident = false)
    (room : s.residentStreams < 16384 ∨ s.streamVictim.isSome = true) : Completes (.streamSwapDone stream) s fun t => ∃ m : State,
      (∃ k' : Stream, m.work.streams.find stream.val = some k' ∧ k'.resident = true ∧ k'.head = k.head ∧
        (s.residentStreams < 16384 → s.streamBad stream.val = [] → k'.err = k.err)) ∧
        m.work.bells = s.work.bells.filter (fun b => b.stream != stream.val) ∧ t = m.resume fun r => r.stage == .bell := by
  refine completes_live hs (by rw [exec, execStreamSwapDone]) ?_
  simp only [found, spilled, Bool.false_eq_true, if_false]
  have counted : (s.countLedger 0x5013 1).work = s.work := State.countLedger_work _ _ _
  by_cases free : s.residentStreams < 16384
  · rw [if_pos free]
    obtain ⟨m, ⟨k', here, resident, head, err⟩, bells, done⟩ := State.arrives (s := s.countLedger 0x5013 1) (by rw [counted]; exact found)
    rw [counted] at bells
    rw [(s.countLedger_counted 0x5013 1).streamBad] at err
    exact ⟨m, ⟨k', here, resident, head, fun _ => err⟩, bells, done⟩
  · rw [if_neg free]
    obtain ⟨v, victim⟩ := Option.isSome_iff_exists.mp (room.resolve_left free)
    simp only [victim]
    obtain ⟨y, spill, head'⟩ := State.find_spillStream (s := s.countLedger 0x5013 1) v (by rw [counted]; exact found)
    obtain ⟨m, ⟨k', here, resident, head, -⟩, bells, done⟩ := State.arrives spill
    refine ⟨m, ⟨k', here, resident, head.trans head', fun h => absurd h free⟩, bells.trans ?_, done⟩
    rw [State.spillStream_bells, counted]

end Sys2Proof.Machine
end

section
namespace Sys2Proof.Machine

open Sys2Proof

/-! ## A slot accepted, and the checks of R55 (R51, R54, R55, R64, R65) -/

/-- Where a fetch has its address, no work has changed. -/
def Fetched.calm (s : State) (x : Fetched × State) : Prop := ∀ pa, x.1 = .at_ pa → x.2.work = s.work

theorem Fetched.calm.ite {s : State} {c : Prop} [Decidable c] {x y : Fetched × State} (h : Fetched.calm s x) (k : Fetched.calm s y) :
    Fetched.calm s (if c then x else y) := by
  split <;> assumption

theorem Fetched.calm.fails (s : State) (e : Nat) : Fetched.calm s (.fail e, s) := fun _ h => by cases h

theorem Fetched.calm.waits (s t : State) : Fetched.calm s (.wait, t) := fun _ h => by cases h

theorem State.fetchAt_calm (s : State) (k pva len : Nat) (write : Bool) : Fetched.calm s (s.fetchAt k pva len write) := by
  unfold State.fetchAt
  dsimp only
  cases (s.guest (s.work.streams.getD k {}).gid).windowAt pva with
  | none => exact Fetched.calm.fails s _
  | some w =>
    refine Fetched.calm.ite (Fetched.calm.fails s _) ?_
    refine Fetched.calm.ite (Fetched.calm.fails s _) ?_
    refine Fetched.calm.ite (Fetched.calm.fails s _) ?_
    have moved := s.porterXl_moves (s.work.streams.getD k {}).seqr (s.work.streams.getD k {}).gid pva write
    generalize s.porterXl (s.work.streams.getD k {}).seqr (s.work.streams.getD k {}).gid pva write = x at moved
    obtain ⟨o, v⟩ := x
    have work : ∀ a, Fetched.calm s (.at_ a, v) := fun _ _ _ => moved.work_same (by decide) (by decide) (by decide) (by decide) (by decide)
    cases o with
    | stop e => exact fun _ h => by cases h
    | miss => exact Fetched.calm.waits s _
    | hold l p => exact Fetched.calm.waits s _
    | zero l p a => exact Fetched.calm.ite (Fetched.calm.waits s _) (work _)
    | ok a => exact Fetched.calm.ite (Fetched.calm.waits s _) (work _)

theorem State.unholdFetch_reheld (s : State) (k : Nat) : Reheld s (s.unholdFetch k) := by
  unfold State.unholdFetch
  split
  · exact Reheld.refl s
  · exact (s.onStream_reheld k (f := fun t => { t with held := none }) fun _ => rfl).trans (State.endHold_reheld _ _)

/-! ### The checks (R55) -/

/-- A waybill that has been checked. -/
def Waybill.checkedAs (counts noTally : Bool) (w : Waybill) : Waybill := { w with checked := true, counts := counts, noTally := noTally }

/-- A waybill with a status decided early. -/
def Waybill.endedEarly (status : Nat) (w : Waybill) : Waybill := { w with early := some status, st := 2, waits := none }

/-- The waybill has been checked, and its contribution is seen by its context. -/
def State.checking (s : State) (key : Nat) : State :=
  let w := s.wb key
  let t := s.onWb key (Waybill.checkedAs (s.contribOk w) (s.fails4 w || s.publishFails w))
  if s.contribOk w then t.onCtx w.rctx fun x => { x with seen := x.seen ++ [w.cidx] } else t

/-- The status that the checks decide, if any does. -/
def State.checkStatus (s : State) (w : Waybill) : Option Nat :=
  if (s.guest w.gid).fatal == 2 then some 0x0D else if (s.guest w.gid).fatal != 0 then some 0x07 else s.check55 w

theorem State.checkWb_eq (s : State) (key : Nat) : s.checkWb key =
    match s.checkStatus (s.wb key) with
    | some e => (s.checking key).endEarly key e
    | none => if (s.checking key).keyUnwraps (s.wb key).gid then (s.checking key).takeCtx key
        else ((s.checking key).keyFail (s.wb key).gid).endEarly key 0x0D := rfl

theorem State.onCtx_wbs (s : State) (r : Nat) (f : RedCtx → RedCtx) : (s.onCtx r f).work.wbs = s.work.wbs := rfl

theorem State.onCtx_streams (s : State) (r : Nat) (f : RedCtx → RedCtx) : (s.onCtx r f).work.streams = s.work.streams := rfl

theorem State.onWb_streams (s : State) (key : Nat) (f : Waybill → Waybill) : (s.onWb key f).work.streams = s.work.streams := rfl

theorem State.find_checking {s : State} {key : Nat} {w : Waybill} (found : s.work.wbs.find key = some w) :
    (s.checking key).work.wbs.find key = some (w.checkedAs (s.contribOk w) (s.fails4 w || s.publishFails w)) := by
  simp only [State.checking, State.wb_of_find found]
  split
  · rw [State.onCtx_wbs]
    exact State.find_onWb _ found
  · exact State.find_onWb _ found

theorem State.checking_streams (s : State) (key : Nat) : (s.checking key).work.streams = s.work.streams := by
  unfold State.checking
  dsimp only
  split
  · rw [State.onCtx_streams, State.onWb_streams]
  · rw [State.onWb_streams]

theorem State.takeCtx_wbs (s : State) (key : Nat) : (s.takeCtx key).work.wbs = s.work.wbs :=
  ((s.takeCtx_moves key).same (p := .waybills) (by decide)).1

theorem State.takeCtx_streams (s : State) (key : Nat) : (s.takeCtx key).work.streams = s.work.streams :=
  ((s.takeCtx_moves key).same (p := .streams) (by decide)).1

/-- A waybill that is checked keeps its words, its record's address and its slot. -/
theorem State.find_checkWb {s : State} {key : Nat} {w : Waybill} (found : s.work.wbs.find key = some w) :
    ∃ w' : Waybill, (s.checkWb key).work.wbs.find key = some w' ∧ w'.checked = true ∧ w'.w = w.w ∧ w'.cpl = w.cpl ∧ w'.slot = w.slot := by
  have checked := State.find_checking found
  rw [State.checkWb_eq]
  split
  · rename_i e _
    exact ⟨_, State.find_onWb (Waybill.endedEarly e) checked, rfl, rfl, rfl, rfl⟩
  split
  · exact ⟨w.checkedAs (s.contribOk w) (s.fails4 w || s.publishFails w), by rw [State.takeCtx_wbs]; exact checked, rfl, rfl, rfl, rfl⟩
  · obtain ⟨hs, failed⟩ := (State.keyFail_reheld (s.checking key) (s.wb key).gid).find checked
    exact ⟨_, State.find_onWb (Waybill.endedEarly 0x0D) failed, rfl, rfl, rfl, rfl⟩

/-- A stream may enter ERROR by the check of its waybill. -/
theorem State.findStream_checkWb {s : State} (key : Nat) {n : Nat} {k : Stream} (found : s.work.streams.find n = some k) :
    ∃ e x, (s.checkWb key).work.streams.find n = some (k.restated e x) := by
  have checked : (s.checking key).work.streams.find n = some k := by rw [State.checking_streams]; exact found
  rw [State.checkWb_eq]
  split
  · exact ⟨k.err, k.held, checked⟩
  split
  · exact ⟨k.err, k.held, by rw [State.takeCtx_streams]; exact checked⟩
  · exact (State.keyFail_reheld (s.checking key) (s.wb key).gid).findStream checked

/-! ### Acceptance -/

/-- HEAD advances past an accepted slot, and SEQ counts. -/
def Stream.advance (t : Stream) : Stream :=
  { t with head := (t.head + 1) % 2 ^ 21, seq := (t.seq + 1) % 2 ^ 32, ahead := t.ahead.filter fun a => a.1 != t.head }

/-- A waybill as it is accepted from the slot at HEAD of a stream, waiting for no tally. -/
def State.acceptedWb (s : State) (t : Stream) (w : Waybill) : Waybill :=
  { w with seq := t.seq, slot := t.head, splitDef := s.reg Obj.matrixSplitDefault, readShare := s.reg Obj.matrixReadShare,
           dir := (s.guest t.gid).dir, dirEpoch := s.pool.dirEpoch, epoch := s.trans.epoch, waits := none }

/-- A waybill of that number enters. -/
def State.putWb (s : State) (w : Waybill) : State := { s with work := { s.work with wbs := s.work.wbs.put w.key w } }

/-- The slot at HEAD is taken by its waybill. -/
def State.takeSlot (s : State) (k q : Nat) (w : Waybill) : State :=
  (((s.unholdFetch k).onStream k Stream.advance).putWb w).countCluster q 0x4020 0

/-- A waybill is checked as it is accepted, but for a PUBLISH that waits. -/
def State.checkAccepted (s : State) (w : Waybill) : State :=
  if w.opc == 0x60 && !s.mayStart w then s.onWb w.key fun x => { x with noTally := s.fails4 w } else s.checkWb w.key

/-- A wait is counted. -/
def State.countWait (s : State) (key q : Nat) : State := if (s.wb key).waits.isSome then s.countCluster q 0x4020 2 else s

theorem State.accept_eq {s : State} {k : Nat} {x : Stream} {w : Waybill} (found : s.work.streams.find k = some x) (free : w.waitOn = false) :
    s.accept k w = ((s.takeSlot k x.seqr (s.acceptedWb x w)).checkAccepted (s.acceptedWb x w)).countWait (s.acceptedWb x w).key x.seqr := by
  unfold State.accept
  simp only [Tab.getD_of_find _ found, free, Bool.false_and, Bool.false_eq_true, if_false]
  rfl

theorem State.countWait_work (s : State) (key q : Nat) : (s.countWait key q).work = s.work := by
  unfold State.countWait
  split
  · rw [State.countCluster_work]
  · rfl

theorem State.find_takeSlot (s : State) (k q : Nat) (w : Waybill) : (s.takeSlot k q w).work.wbs.find w.key = some w := by
  rw [State.takeSlot, State.countCluster_work]
  exact Tab.find_put_self _ _ _

theorem State.findStream_takeSlot {s : State} {k : Nat} {x : Stream} (q : Nat) (w : Waybill) (found : s.work.streams.find k = some x) :
    ∃ e h, (s.takeSlot k q w).work.streams.find k = some (x.restated e h).advance := by
  obtain ⟨e, h, free⟩ := (s.unholdFetch_reheld k).findStream found
  refine ⟨e, h, ?_⟩
  rw [State.takeSlot, State.countCluster_work]
  exact (State.onStream_find _ _ _).trans (by rw [free]; rfl)

theorem State.find_checkAccepted {s : State} {w : Waybill} (found : s.work.wbs.find w.key = some w) :
    ∃ w' : Waybill, (s.checkAccepted w).work.wbs.find w.key = some w' ∧ w'.w = w.w ∧ w'.cpl = w.cpl ∧ w'.slot = w.slot ∧
      (w.opc ≠ 0x60 → w'.checked = true) := by
  unfold State.checkAccepted
  split
  · rename_i later
    exact ⟨_, State.find_onWb (fun x => { x with noTally := s.fails4 w }) found, rfl, rfl, rfl, fun op => by simp [op] at later⟩
  · obtain ⟨w', found', checked, words, cpl, slot⟩ := State.find_checkWb found
    exact ⟨w', found', words, cpl, slot, fun _ => checked⟩

theorem State.findStream_checkAccepted {s : State} (w : Waybill) {n : Nat} {k : Stream} (found : s.work.streams.find n = some k) :
    ∃ e x, (s.checkAccepted w).work.streams.find n = some (k.restated e x) := by
  unfold State.checkAccepted
  split
  · exact ⟨k.err, k.held, by rw [State.onWb_streams]; exact found⟩
  · exact State.findStream_checkWb w.key found

section Accept

variable {s : State} {k : Nat} {x : Stream} {w : Waybill} (found : s.work.streams.find k = some x) (free : w.waitOn = false)

include found free

theorem State.find_accept (stream : w.stream = k) :
    ∃ w' : Waybill, (s.accept k w).work.wbs.find (wbKey k x.seq) = some w' ∧ w'.w = w.w ∧ w'.cpl = w.cpl ∧ w'.slot = x.head ∧
      (w.opc ≠ 0x60 → w'.checked = true) := by
  rw [State.accept_eq found free, State.countWait_work]
  subst stream
  exact State.find_checkAccepted (State.find_takeSlot s w.stream x.seqr (s.acceptedWb x w))

theorem State.findStream_accept : ∃ k' : Stream, (s.accept k w).work.streams.find k = some k' ∧ k'.head = (x.head + 1) % 2 ^ 21 ∧
    k'.seq = (x.seq + 1) % 2 ^ 32 ∧ k'.tail = x.tail := by
  rw [State.accept_eq found free, State.countWait_work]
  obtain ⟨e, h, taken⟩ := State.findStream_takeSlot x.seqr (s.acceptedWb x w) found
  obtain ⟨e', h', there⟩ := State.findStream_checkAccepted (s.acceptedWb x w) taken
  exact ⟨_, there, rfl, rfl, rfl⟩

end Accept

section Fetched

variable {s m m' : State} {stream : Fin 1048576} {k : Stream} {pa cpl : Nat} {r : Rd} {w : Waybill} (hs : s.running = true)
  (found : s.work.streams.find stream.val = some k)

include found

/-- A slot whose words are known is accepted, where its record's address is good. -/
theorem State.acceptWords_accepts {ws : List Nat} (hw : w = { stream := stream.val, gid := k.gid, w := ws }) (aligned : w.cplPva % 32 = 0)
    (at_ : (s.fetchAt stream.val w.cplPva 32 true).1 = .at_ cpl) :
    ∃ n : State, n.work = s.work ∧ s.acceptWords stream.val ws = n.accept stream.val { w with cpl := cpl } := by
  subst hw
  have calm := s.fetchAt_calm stream.val ({ stream := stream.val, gid := k.gid, w := ws } : Waybill).cplPva 32 true cpl at_
  unfold State.acceptWords
  simp only [Tab.getD_of_find _ found]
  rw [if_neg (by simp [aligned])]
  generalize s.fetchAt stream.val ({ stream := stream.val, gid := k.gid, w := ws } : Waybill).cplPva 32 true = f at at_ calm
  obtain ⟨o, n⟩ := f
  obtain rfl : o = .at_ cpl := at_
  exact ⟨n, calm, rfl⟩

include hs

theorem waybillAccept_completes (resident : k.resident = true) (calm : k.err = none) (filled : k.head ≠ k.tail)
    (kept : (s.guest k.gid).tearing = false) (sound : (s.guest k.gid).fatal = 0) (here : (s.guest k.gid).resident = true)
    (slot : s.fetchAt stream.val (k.slot k.head) 128 false = (.at_ pa, m)) (read : (m.countCluster k.seqr 0x4021 0).slotBytes k.gid pa = (r, m'))
    (goes : r.waits = false) (clean : r.poisoned = false) (streams : m'.work.streams = s.work.streams)
    (hw : w = { stream := stream.val, gid := k.gid, w := wordsOf r.bytes }) (aligned : w.cplPva % 32 = 0) (free : w.waitOn = false)
    (at_ : (m'.fetchAt stream.val w.cplPva 32 true).1 = .at_ cpl) : Completes (.waybillAccept stream) s fun t =>
      (t.work.wbs.find (wbKey stream.val k.seq)).isSome = true ∧
      (t.wb (wbKey stream.val k.seq)).w = w.w ∧ (t.wb (wbKey stream.val k.seq)).cpl = cpl ∧ (t.wb (wbKey stream.val k.seq)).slot = k.head ∧
      (w.opc ≠ 0x60 → (t.wb (wbKey stream.val k.seq)).checked = true) ∧
      ∃ k' : Stream, t.work.streams.find stream.val = some k' ∧ k'.head = (k.head + 1) % 2 ^ 21 ∧ k'.seq = (k.seq + 1) % 2 ^ 32 ∧
        k'.tail = k.tail := by
  refine completes_live hs (by rw [exec, execWaybillAccept]) ?_
  simp only [found, resident, calm, beq_eq_false_iff_ne.mpr filled, kept, sound, here, slot, read, goes, clean, Bool.not_true, Option.isSome_none,
    Bool.or_self, Bool.false_eq_true, if_false, show ((0 : Nat) == 1) = false from rfl, show ((0 : Nat) == 2) = false from rfl]
  have found' : m'.work.streams.find stream.val = some k := by rw [streams]; exact found
  obtain ⟨n, work, accepts⟩ := State.acceptWords_accepts found' hw aligned at_
  have there : n.work.streams.find stream.val = some k := by rw [work]; exact found'
  obtain ⟨w', find, words, record, slot', checked⟩ := State.find_accept (w := { w with cpl := cpl }) there free (by rw [hw])
  rw [accepts, State.wb_of_find find, find]
  exact ⟨rfl, words, record, slot', checked, State.findStream_accept there free⟩

end Fetched

end Sys2Proof.Machine
end

section
namespace Sys2Proof.Machine

open Sys2Proof

/-! ## Slots fetched ahead (R70) -/

theorem descriptorPrefetch_completes {s m : State} {stream : Fin 1048576} {k : Stream} {pa : Nat} {r : Rd} (hs : s.running = true)
    (found : s.work.streams.find stream.val = some k) (resident : k.resident = true) (calm : k.err = none)
    (busy : s.streamBusy stream.val = true) (depth : k.ahead.length < s.reg Obj.prefetchDepth) (left : k.ahead.length < k.dist k.tail)
    (cached : s.xlCached k.gid (k.slot ((k.head + k.ahead.length) % 2 ^ 21)) false = .ok pa) (read : s.slotBytes k.gid pa = (r, m))
    (sound : r.ok = true) (clean : r.poisoned = false) : Completes (.descriptorPrefetch stream) s fun t =>
      t.work.streams = m.work.streams.upd stream.val
        fun x => { x with ahead := x.ahead ++ [((k.head + k.ahead.length) % 2 ^ 21, r.bytes)] } := by
  refine completes_live hs (by rw [exec, execDescriptorPrefetch]) ?_
  have hit : ¬ ((Xl.ok pa == Xl.miss) = true) := by simp
  simp only [found, resident, calm, busy, decide_eq_false (Nat.not_le.mpr depth), decide_eq_false (Nat.not_le.mpr left), cached, if_neg hit, read,
    sound, clean, Bool.not_true, Bool.not_false, Bool.and_self, Option.isSome_none, Bool.or_self, Bool.false_eq_true, if_false, if_true]
  rw [State.countCluster_work]
  rfl

/-! ## A waybill that starts (R54, R55, R68, R82) -/

/-- A waybill fetched again from its slot changes in its words alone (R82). -/
def Waybill.refetched (ws : List Nat) (again : Bool) (w : Waybill) : Waybill := { w with w := ws, refetch := again }

theorem State.find_refetchWb {s : State} {key : Nat} {w : Waybill} (found : s.work.wbs.find key = some w) :
    ∃ ws again, (s.refetchWb key).work.wbs.find key = some (w.refetched ws again) := by
  have kept : ∃ ws again, s.work.wbs.find key = some (w.refetched ws again) := ⟨w.w, w.refetch, found⟩
  unfold State.refetchWb
  dsimp only
  split
  · exact kept
  rw [State.wb_of_find found]
  have walked := s.porterXl_moves (s.work.streams.getD w.stream {}).seqr (s.work.streams.getD w.stream {}).gid
    ((s.work.streams.getD w.stream {}).slot w.slot) false
  generalize s.porterXl (s.work.streams.getD w.stream {}).seqr (s.work.streams.getD w.stream {}).gid
    ((s.work.streams.getD w.stream {}).slot w.slot) false = x at walked
  obtain ⟨o, v⟩ := x
  have found' : v.work.wbs.find key = some w := by rw [(walked.same (p := .waybills) (by decide)).1]; exact found
  cases o with
  | ok pa =>
    dsimp only
    have read := v.slotBytes_moves (s.work.streams.getD w.stream {}).gid pa
    generalize v.slotBytes (s.work.streams.getD w.stream {}).gid pa = y at read
    obtain ⟨r, n⟩ := y
    have found'' : n.work.wbs.find key = some w := by rw [(read.same (p := .waybills) (by decide)).1]; exact found'
    dsimp only
    split
    · exact ⟨w.w, w.refetch, found''⟩
    · exact ⟨wordsOf r.bytes, false, State.find_onWb (Waybill.refetched (wordsOf r.bytes) false) found''⟩
  | stop e => exact ⟨w.w, w.refetch, found'⟩
  | miss => exact ⟨w.w, w.refetch, found'⟩
  | hold l p => exact ⟨w.w, w.refetch, found'⟩
  | zero l p a => exact ⟨w.w, w.refetch, found'⟩

/-- A waybill that waits to start still does once its words are there. -/
theorem State.hasWords.st {s u : State} {key : Nat} {x w : Waybill} (words : s.hasWords key u) (found : s.work.wbs.find key = some x)
    (here : u.work.wbs.find key = some w) : w.st = x.st := by
  obtain ⟨rfl, -⟩ := words
  obtain ⟨ws, again, fetched⟩ := State.find_refetchWb found
  obtain rfl := Option.some.inj (fetched.symm.trans here)
  rfl

theorem State.mayStart_st {s : State} {w : Waybill} (h : s.mayStart w = true) : w.st = 0 := by
  simp only [State.mayStart, Bool.and_eq_true, beq_iff_eq] at h
  obtain ⟨⟨⟨st, -⟩, -⟩, -⟩ := h
  exact st

/-- A waybill that runs: its granules, chunks and rows, and whether it waits for its turn. -/
def Waybill.running (total per rows n : Nat) (turn : Bool) (w : Waybill) : Waybill :=
  { w with st := 1, total := total, perChunk := per, rows := rows, nparts := n, turn := turn }

/-- The waybill runs, and nothing has been done for it yet. -/
def State.beginRun (s : State) (key : Nat) : State :=
  let w := s.wb key
  s.onWb key (Waybill.running (s.division w).1 (s.division w).2.1 (s.division w).2.2 (if w.group == 5 then s.matSplit w else 0)
    (w.opc == 0x31 && w.ordered && !(s.work.ctxs.getD w.rctx {}).turnOf w.cidx))

theorem State.run_eq (s : State) (key : Nat) : s.run key =
    if (s.wb key).opc == 0x30 && (s.wb key).redStaged then (s.beginRun key).stageOpen key
    else if (s.wb key).opc == 0x32 then (s.beginRun key).startClose key else s.beginRun key := rfl

/-- A RED_OPEN that takes its staging, or waits for it, goes on in any other respect. -/
theorem State.find_stageOpen {s : State} {key : Nat} {w : Waybill} (found : s.work.wbs.find key = some w) :
    ∃ o, (s.stageOpen key).work.wbs.find key = some { w with openWait := o } := by
  unfold State.stageOpen
  dsimp only
  split
  · exact ⟨_, State.find_onWb (fun w => { w with openWait := none }) found⟩
  · exact ⟨_, State.find_onWb (fun x => { x with openWait := x.openWait <|> some s.now }) found⟩

/-- A RED_CLOSE cancels no waybill that runs and waits for no turn: not itself. -/
theorem State.find_startClose {s : State} {key : Nat} {w : Waybill} (found : s.work.wbs.find key = some w) (st : w.st = 1)
    (turn : w.turn = false) : (s.startClose key).work.wbs.find key = some w := by
  unfold State.startClose
  dsimp only
  split
  · exact found
  · simp [found, st, turn]

/-- What of a waybill its start does not change, and that it runs with its granules counted. -/
theorem State.find_run {s : State} {key : Nat} {w : Waybill} (found : s.work.wbs.find key = some w) :
    ∃ w' : Waybill, (s.run key).work.wbs.find key = some w' ∧ w'.st = 1 ∧ w'.total = (s.division w).1 ∧ w'.checked = w.checked ∧
      w'.dir = w.dir := by
  have begun : (s.beginRun key).work.wbs.find key = some (w.running (s.division w).1 (s.division w).2.1 (s.division w).2.2
      (if w.group == 5 then s.matSplit w else 0) (w.opc == 0x31 && w.ordered && !(s.work.ctxs.getD w.rctx {}).turnOf w.cidx)) := by
    simp only [State.beginRun, State.wb_of_find found]
    exact State.find_onWb _ found
  rw [State.run_eq, State.wb_of_find found]
  split
  · obtain ⟨o, opened⟩ := State.find_stageOpen begun
    exact ⟨_, opened, rfl, rfl, rfl, rfl⟩
  split
  · rename_i close
    have turn : (w.opc == 0x31 && w.ordered && !(s.work.ctxs.getD w.rctx {}).turnOf w.cidx) = false := by
      rw [beq_iff_eq.mp close]
      rfl
    exact ⟨_, State.find_startClose begun rfl turn, rfl, rfl, rfl, rfl⟩
  · exact ⟨_, begun, rfl, rfl, rfl, rfl⟩

theorem State.run_cellar (s : State) (key : Nat) : (s.run key).cellar = s.cellar :=
  (s.run_moves key).cellar_same (by decide) (by decide) (by decide) (by decide) (by decide)

/-- A waybill that waits to start, and has been checked, runs where its guest is not fatal. -/
theorem State.startWb_runs {s : State} {key : Nat} {w : Waybill} (checked : (s.checkLate key).work.wbs.find key = some w) (st : w.st = 0)
    (sound : ((s.checkLate key).guest w.gid).fatal = 0) : s.startWb key = (s.checkLate key).run key := by
  simp [State.startWb, State.wb_of_find checked, st, sound]

theorem State.checkLate_checked {s : State} {key : Nat} {w : Waybill} (found : s.work.wbs.find key = some w) (checked : w.checked = true) :
    s.checkLate key = s := by
  simp [State.checkLate, State.wb_of_find found, checked]

/-- A waybill with its guest's directory of now. -/
def Waybill.directed (dir : Tab Window) (epoch : Nat) (w : Waybill) : Waybill := { w with dir := dir, dirEpoch := epoch }

theorem State.checking_keeps (s : State) (key : Nat) :
    (s.checking key).cellar = s.cellar ∧ (s.checking key).pool = s.pool ∧ (s.checking key).sec = s.sec := by
  unfold State.checking
  dsimp only
  split <;> exact ⟨rfl, rfl, rfl⟩

theorem State.checking_keyUnwraps (s : State) (key gid : Nat) : (s.checking key).keyUnwraps gid = s.keyUnwraps gid := by
  obtain ⟨-, pool, sec⟩ := s.checking_keeps key
  rw [State.keyUnwraps, State.guest, sec, pool, ← State.guest, ← State.keyUnwraps]

/-- A waybill that passes the checks takes its context. -/
theorem State.checkWb_passes {s : State} {key : Nat} {w : Waybill} (found : s.work.wbs.find key = some w) (sound : (s.guest w.gid).fatal = 0)
    (passes : s.check55 w = none) (unwraps : s.keyUnwraps w.gid = true) : s.checkWb key = (s.checking key).takeCtx key := by
  have status : s.checkStatus w = none := by simp [State.checkStatus, sound, passes]
  rw [State.checkWb_eq, State.wb_of_find found, status, State.checking_keyUnwraps, unwraps]
  rfl

theorem State.takeCtx_guest (s : State) (key gid : Nat) : (s.takeCtx key).guest gid = s.guest gid :=
  State.guest_congr ((s.takeCtx_moves key).same (p := .guests) (by decide)).1 gid

theorem State.takeCtx_cellar (s : State) (key : Nat) : (s.takeCtx key).cellar = s.cellar :=
  (s.takeCtx_moves key).cellar_same (by decide) (by decide) (by decide) (by decide) (by decide)

section Start

variable {s u : State} {stream : Fin 1048576} {seq : Nat} {x w : Waybill} (hs : s.running = true)
  (waiting : s.work.wbs.find (wbKey stream.val seq) = some x) (may : s.mayStart x = true)
  (load : s.seqLoad (s.work.streams.getD x.stream {}).seqr < 16) (resident : (s.guest x.gid).resident = true)
  (words : s.hasWords (wbKey stream.val seq) u) (found : u.work.wbs.find (wbKey stream.val seq) = some w) (sound : (u.guest w.gid).fatal = 0)

include hs waiting may load resident words

theorem waybillStart_starts {post : State → Prop} (h : post (u.startWb (wbKey stream.val seq))) : Completes (.waybillStart stream seq) s post := by
  refine completes_live hs (by rw [exec, execWaybillStart]) ?_
  simp only [waiting, may, decide_eq_false (Nat.not_le.mpr load), resident, Bool.not_true, Bool.or_self, Bool.false_eq_true, if_false]
  rwa [State.withWords_of_hasWords _ words]

include found sound

theorem waybillStart_checked (checked : w.checked = true) : Completes (.waybillStart stream seq) s fun t =>
    (t.wb (wbKey stream.val seq)).st = 1 ∧ (t.wb (wbKey stream.val seq)).total = (u.division w).1 ∧ t.cellar = u.cellar := by
  refine waybillStart_starts hs waiting may load resident words ?_
  have st := (words.st waiting found).trans (State.mayStart_st may)
  obtain ⟨w', found', runs, total, -, -⟩ := State.find_run found
  have late := State.checkLate_checked found checked
  rw [State.startWb_runs (by rw [late]; exact found) st (by rw [late]; exact sound), late, State.wb_of_find found']
  exact ⟨runs, total, u.run_cellar _⟩

theorem waybillStart_late (unchecked : w.checked = false) {m : State}
    (hm : m = u.onWb (wbKey stream.val seq) (Waybill.directed (u.guest w.gid).dir u.pool.dirEpoch))
    (passes : m.check55 (m.wb (wbKey stream.val seq)) = none) (unwraps : m.keyUnwraps w.gid = true) :
    Completes (.waybillStart stream seq) s fun t =>
      (t.wb (wbKey stream.val seq)).st = 1 ∧ (t.wb (wbKey stream.val seq)).checked = true ∧
        (t.wb (wbKey stream.val seq)).dir = (u.guest w.gid).dir ∧ t.cellar = u.cellar := by
  refine waybillStart_starts hs waiting may load resident words ?_
  have st := (words.st waiting found).trans (State.mayStart_st may)
  have late : m.work.wbs.find (wbKey stream.val seq) = some (w.directed (u.guest w.gid).dir u.pool.dirEpoch) := by
    rw [hm]
    exact State.find_onWb _ found
  have sound' : (m.guest w.gid).fatal = 0 := by rw [hm]; exact sound
  have cellar : m.cellar = u.cellar := by rw [hm]; rfl
  rw [State.wb_of_find late] at passes
  have checks : u.checkLate (wbKey stream.val seq) = (m.checking (wbKey stream.val seq)).takeCtx (wbKey stream.val seq) := by
    rw [← State.checkWb_passes late sound' passes unwraps, hm]
    simp only [State.checkLate, State.wb_of_find found, unchecked, Bool.false_eq_true, if_false]
    rfl
  have checked := State.find_checking late
  rw [← State.takeCtx_wbs, ← checks] at checked
  obtain ⟨keeps, pool, -⟩ := m.checking_keeps (wbKey stream.val seq)
  have sound'' : ((u.checkLate (wbKey stream.val seq)).guest w.gid).fatal = 0 := by
    rw [checks, State.takeCtx_guest, State.guest, pool]
    exact sound'
  obtain ⟨w', found', runs, -, checked', dir⟩ := State.find_run checked
  rw [State.startWb_runs checked st sound'', State.wb_of_find found', State.run_cellar, checks, State.takeCtx_cellar, keeps]
  exact ⟨runs, checked', dir, cellar⟩

end Start

/-! ## A wait that expires (R78) -/

section Timeout

variable {s : State} {stream : Fin 1048576} {seq : Nat} {w : Waybill}

theorem waitTimeoutExpiry_completes (hs : s.running = true) (found : s.work.wbs.find (wbKey stream.val seq) = some w) (st : w.st = 0)
    (waits : w.waits.isSome = true) (limit : (s.work.streams.getD w.stream {}).limit ≠ 0) : Completes (.waitTimeoutExpiry stream seq) s fun t =>
      t.work.wbs.find (wbKey stream.val seq) =
        some { w with whole := true, total := s.granulesOf w, early := some 0x0C, st := 2, waits := none } := by
  refine completes_live hs (by rw [exec, execWaitTimeoutExpiry]) ?_
  simp only [State.wb_of_find found]
  rw [if_pos (by simp [st, waits, limit]), State.countCluster_work]
  rw [State.endWhole, State.wb_of_find found]
  exact State.find_onWb (Waybill.endedEarly 0x0C) (State.find_onWb (fun x => { x with whole := true, total := s.granulesOf w }) found)

theorem waitTimeoutExpiry_unlimited (found : s.work.wbs.find (wbKey stream.val seq) = some w)
    (limit : (s.work.streams.getD w.stream {}).limit = 0) : exec (.waitTimeoutExpiry stream seq) s = .next s := by
  rw [exec, execWaitTimeoutExpiry, live]
  simp [State.wb_of_find found, limit]

end Timeout

/-! ## Completion (R56, R60, R117) -/

/-- A waybill that is over is left by its tally's change. -/
theorem State.changeTally_find_none {s : State} {t key : Nat} (f : Tally → Tally) (h : s.work.wbs.find key = none) :
    (s.changeTally t f).work.wbs.find key = none := by
  cases found : s.work.tallies.find t with
  | none => simpa [State.changeTally, found] using h
  | some x =>
    obtain ⟨m, moved, changed⟩ := State.changeTally_steps f found
    obtain ⟨wbs, -⟩ := moved.same (p := .waybills) (by decide)
    have here : m.work.wbs.find key = none := by rw [wbs]; exact h
    rw [changed]
    split
    · exact (Tab.find_map _ _ _).trans (by rw [here]; rfl)
    · exact here

/-- The waybill goes, its locks free, and its flags are seen. -/
def State.dropWb (s : State) (w : Waybill) : State :=
  let s := s.leaveCtx w
  let s := { s with work := { s.work with wbs := s.work.wbs.del w.key,
                                          locks := s.work.locks.filter fun l => !(match l.holder with | some (k, _) => k == w.key | none => false) } }
  s.setReg Obj.arithFlagsSeen (s.reg Obj.arithFlagsSeen ||| (w.flags % 2 ^ 16))

/-- Its tally moves, if it has one. -/
def State.payTally (s : State) (w : Waybill) : State := if w.tally == 0xFFFF || w.noTally then s else s.addTally w.tally w.tallyAdd

/-- A waybill that completes goes and moves its tally; then its NOTIFY copy is sent. -/
theorem State.finishWb_moved (s : State) (w : Waybill) (rcd : Bytes) :
    Moves [.egress, .counters, .samples, .irqPending, .requests] ((s.dropWb w).payTally w) (s.finishWb w rcd) := by
  refine Moves.trans ?_ ((State.countCluster_moves _ _ _ _).mono (by decide))
  exact Moves.ite (State.originate_moves _ _ _) (Moves.refl _ _)

theorem State.leaveCtx_keeps (s : State) (w : Waybill) : (s.leaveCtx w).cellar = s.cellar ∧ (s.leaveCtx w).regs = s.regs ∧
    (s.leaveCtx w).work.tallies = s.work.tallies := by
  have moved := s.leaveCtx_moves w
  exact ⟨moved.cellar_same (by decide) (by decide) (by decide) (by decide) (by decide), moved.same (p := .regs) (by decide),
    moved.same (p := .tallies) (by decide)⟩

theorem State.dropWb_find (s : State) (w : Waybill) : (s.dropWb w).work.wbs.find w.key = none := by simp [State.dropWb]

theorem State.dropWb_cellar (s : State) (w : Waybill) : (s.dropWb w).cellar = s.cellar := (s.leaveCtx_keeps w).1

theorem State.dropWb_tallies (s : State) (w : Waybill) : (s.dropWb w).work.tallies = s.work.tallies := (s.leaveCtx_keeps w).2.2

theorem State.dropWb_flags (s : State) (w : Waybill) :
    (s.dropWb w).reg Obj.arithFlagsSeen = s.reg Obj.arithFlagsSeen ||| (w.flags % 2 ^ 16) := by
  obtain ⟨-, regs, -⟩ := s.leaveCtx_keeps w
  rw [State.dropWb, State.reg_setReg, if_pos rfl]
  exact congrArg (· ||| (w.flags % 2 ^ 16)) (State.reg_congr regs _)

theorem State.payTally_moves (s : State) (w : Waybill) :
    Moves [.egress, .counters, .samples, .irqPending, .requests, .waybills, .tallies] s (s.payTally w) :=
  Moves.ite (Moves.refl _ s) (State.addTally_moves _ _ _)

theorem State.payTally_find {s : State} {w : Waybill} {key : Nat} (h : s.work.wbs.find key = none) :
    (s.payTally w).work.wbs.find key = none := by
  unfold State.payTally
  split
  · exact h
  · exact State.changeTally_find_none _ (by rw [State.countLedger_work]; exact h)

theorem State.payTally_tallies {s : State} {w : Waybill} {x : Tally} (pays : w.noTally = false) (some_ : w.tally ≠ 0xFFFF)
    (found : s.work.tallies.find w.tally = some x) :
    ∃ y : Tally, (s.payTally w).work.tallies = s.work.tallies.put w.tally y ∧ y.count = wrapAdd 64 x.count w.tallyAdd := by
  rw [State.payTally, if_neg (by simp [pays, some_]), State.addTally]
  have work : (s.countLedger 0x5015 0).work = s.work := State.countLedger_work _ _ _
  have changed := State.changeTally_tallies (s := s.countLedger 0x5015 0) (fun x => { x with count := wrapAdd 64 x.count w.tallyAdd })
    (by rw [work]; exact found)
  rw [work] at changed
  exact ⟨_, changed, rfl⟩

section Complete

variable {s u m : State} {stream : Fin 1048576} {seq : Nat} {w : Waybill}

theorem waybillComplete_completes (hs : s.running = true) (words : s.hasWords (wbKey stream.val seq) u)
    (found : u.work.wbs.find (wbKey stream.val seq) = some w) (key : w.key = wbKey stream.val seq) (st : w.st = 2)
    (publish : u.publishWrite w.cpl w.gid (w.record (u.reg Obj.arithReportMask)) = (true, m)) : Completes (.waybillComplete stream seq) s fun t =>
      t.work.wbs.find (wbKey stream.val seq) = none ∧ t.cellar = m.cellar ∧
        t.reg Obj.arithFlagsSeen = u.reg Obj.arithFlagsSeen ||| (w.flags % 2 ^ 16) ∧
        (∀ x : Tally, w.noTally = false → w.tally ≠ 0xFFFF → u.work.tallies.find w.tally = some x → ∃ y : Tally,
          t.work.tallies = u.work.tallies.put w.tally y ∧ y.count = wrapAdd 64 x.count w.tallyAdd) := by
  refine completes_live hs (by rw [exec, execWaybillComplete]) ?_
  rw [State.withWords_of_hasWords _ words]
  have published := u.publishWrite_moves w.cpl w.gid (w.record (u.reg Obj.arithReportMask))
  rw [publish] at published
  have regs := State.reg_congr (published.same (p := .regs) (by decide)) Obj.arithFlagsSeen
  have tallies : m.work.tallies = u.work.tallies := published.same (p := .tallies) (by decide)
  have ends : u.completeWb (wbKey stream.val seq) = m.finishWb w (w.record (u.reg Obj.arithReportMask)) := by
    simp [State.completeWb, found, st, publish]
  rw [ends, ← key]
  have moved := m.finishWb_moved w (w.record (u.reg Obj.arithReportMask))
  have paid := (m.dropWb w).payTally_moves w
  refine ⟨?_, ?_, ?_, fun x pays some_ tally => ?_⟩
  · rw [(moved.same (p := .waybills) (by decide)).1]
    exact State.payTally_find (m.dropWb_find w)
  · rw [moved.cellar_same (by decide) (by decide) (by decide) (by decide) (by decide),
      paid.cellar_same (by decide) (by decide) (by decide) (by decide) (by decide), State.dropWb_cellar]
  · rw [State.reg_congr (moved.same (p := .regs) (by decide)), State.reg_congr (paid.same (p := .regs) (by decide)), State.dropWb_flags, regs]
  · obtain ⟨y, put, count⟩ := State.payTally_tallies (s := m.dropWb w) pays some_ (by rw [State.dropWb_tallies, tallies]; exact tally)
    have settled : (m.finishWb w (w.record (u.reg Obj.arithReportMask))).work.tallies = _ := moved.same (p := .tallies) (by decide)
    exact ⟨y, by rw [settled, put, State.dropWb_tallies, tallies], count⟩

end Complete

/-- Settles O19: each step in the life of a stream and its waybills has its effect, with the words of a waybill that is to be fetched again fetched
first. -/
theorem waybillLifeCompletes : Obligations.WaybillLifeCompletes := by
  unfold Obligations.WaybillLifeCompletes
  exact ⟨fun s stream k hs found spilled room => streamSwapDone_completes hs found spilled room,
    fun s stream k pa cpl r m m' hs found resident calm filled kept sound here slot read goes clean streams w hw aligned free at_ =>
      waybillAccept_completes hs found resident calm filled kept sound here slot read goes clean streams hw aligned free at_,
    fun s stream k pa r m hs found resident calm busy depth left cached read sound clean =>
      descriptorPrefetch_completes hs found resident calm busy depth left cached read sound clean,
    fun s u stream seq x w hs waiting may load resident words found sound =>
      ⟨fun checked => waybillStart_checked hs waiting may load resident words found sound checked,
        fun unchecked m hm passes unwraps => waybillStart_late hs waiting may load resident words found sound unchecked hm passes unwraps⟩,
    fun s stream seq w hs found st waits =>
      ⟨fun limit => waitTimeoutExpiry_completes hs found st waits limit, fun limit => waitTimeoutExpiry_unlimited found limit⟩,
    fun s u stream seq w m hs words found key st publish => waybillComplete_completes hs words found key st publish⟩

end Sys2Proof.Machine
end

section
namespace Sys2Proof.Machine

open Sys2Proof

/-! ## Reductions and the exchange of a matrix waybill (R113, R144 to R150, R172)

Three readings of the model show in these lemmas: a RED_OPEN of no granules is over at once (R55, log entry 52), RED_CLOSE cancels when it starts
whatever has not started to apply (R150, log entry 52), and a write-back passes over granules whose page takes no write (R149, log entry 39). -/

section Events

variable {s : State} {stream : Fin 1048576} {seq : Nat} {w : Waybill} (hs : s.running = true)
  (found : s.work.wbs.find (wbKey stream.val seq) = some w)

include hs found

/-! ### RED_OPEN (R144) -/

/-- A RED_OPEN that has nothing to put in place is over (R55, R144). -/
theorem redOpen_completes_of_empty (chunk : Nat) (st : w.st = 1) (op : w.opc = 0x30) (empty : w.total = 0) :
    Completes (.redOpen stream seq chunk) s fun t => t.work.wbs.find (wbKey stream.val seq) = some { w with st := 2 } := by
  refine completes_live hs (by rw [exec, execRedOpen]) ?_
  dsimp only
  rw [State.wb_of_find found, if_pos (by simp [op, st, empty])]
  exact State.find_onWb (fun w => { w with st := 2 }) found

theorem stagingAlloc_completes (st : w.st = 1) (waits : w.openWait.isSome = true) (live : w.cancelled = false)
    (room : s.work.stageUsed + stageKib w.len ≤ stageTotal) : Completes (.stagingAlloc stream seq) s fun t =>
      t.work.stageUsed = s.work.stageUsed + stageKib w.len ∧ t.work.wbs.find (wbKey stream.val seq) = some { w with openWait := none } ∧
        t.work.ctxs = s.work.ctxs.upd w.rctx fun x => { x with kib := stageKib w.len, stage := zeroBytes w.len } := by
  refine completes_live hs (by rw [exec, execStagingAlloc]) ?_
  dsimp only
  rw [State.wb_of_find found, if_pos (by simp [waits, st, live]), State.stageOpen, State.wb_of_find found]
  dsimp only
  rw [if_pos room]
  exact ⟨rfl, State.find_onWb (fun w => { w with openWait := none }) found, rfl⟩

theorem redOpenTimeout_completes (st : w.st = 1) (waits : w.openWait.isSome = true) (limit : (s.work.streams.getD w.stream {}).limit ≠ 0) :
    Completes (.redOpenTimeout stream seq) s fun t => t.work.ctxs = s.work.ctxs ∧ (t.wb (wbKey stream.val seq)).early = some 0x0C ∧
      (t.wb (wbKey stream.val seq)).st = 2 ∧ (t.wb (wbKey stream.val seq)).whole = true := by
  refine completes_live hs (by rw [exec, execRedOpenTimeout]) ?_
  dsimp only
  rw [State.wb_of_find found, if_pos (by simp [waits, st, limit]), State.endWhole, State.wb_of_find found]
  have ended := State.wb_of_find (State.find_onWb (Waybill.endedEarly 0x0C)
    (State.find_onWb (fun x => { x with whole := true, total := s.granulesOf w }) found))
  exact ⟨rfl, congrArg Waybill.early ended, congrArg Waybill.st ended, congrArg Waybill.whole ended⟩

/-! ### Contributions in turn (R113, R148) -/

theorem contribTurn_completes (turn : w.turn = true) (comes : (s.work.ctxs.getD w.rctx {}).turnOf w.cidx = true)
    (load : s.seqLoad (s.work.streams.getD w.stream {}).seqr < 16) :
    Completes (.contribTurn stream seq) s fun t => t.work.wbs.find (wbKey stream.val seq) = some { w with turn := false } := by
  refine completes_live hs (by rw [exec, execContribTurn]) ?_
  dsimp only
  rw [State.wb_of_find found, if_pos (by simp [turn, comes, load])]
  exact State.find_onWb (fun w => { w with turn := false }) found

theorem stagedPrefetch_completes {r : Rd} {m : State} (turn : w.turn = true) (unstaged : w.staged = 0)
    (budget : (s.work.ctxs.getD w.rctx {}).prefetched + ceilDiv (s.contribLen w) 1024 ≤ s.reg Obj.stagePrefetchMax)
    (room : s.work.stageUsed + ceilDiv (s.contribLen w) 1024 ≤ stageTotal)
    (read : s.readRange (wbKey stream.val seq) (s.work.streams.getD w.stream {}).seqr 0 w.src (s.contribLen w) = (r, m)) (sound : r.ok = true) :
    Completes (.stagedPrefetch stream seq) s fun t => t.work.stageUsed = m.work.stageUsed + ceilDiv (s.contribLen w) 1024 ∧
      t.work.wbs = m.work.wbs.upd (wbKey stream.val seq)
        fun x => { x with staged := ceilDiv (s.contribLen w) 1024, pre := r.bytes, prePz := r.pz, degraded := x.degraded || r.degraded } := by
  refine completes_live hs (by rw [exec, execStagedPrefetch]) ?_
  dsimp only
  rw [State.wb_of_find found, if_pos (by simp [turn, unstaged, budget, room]), read]
  dsimp only
  rw [if_pos sound]
  exact ⟨rfl, rfl⟩

/-! ### The exchange of phase 1 (R172) -/

theorem moeffnExchangeDone_completes (st : w.st = 1) (op : w.opc = 0x51) (apart : w.exchanged = false)
    (sliced : (upto w.sliceCount).all (w.slices.testBit ·) = true) :
    Completes (.moeffnExchangeDone stream seq) s fun t => t.work.wbs.find (wbKey stream.val seq) = some w.exchange := by
  refine completes_live hs (by rw [exec, execMoeffnExchangeDone]) ?_
  dsimp only
  rw [State.wb_of_find found, if_pos (by simp only [op, st, apart, sliced]; rfl)]
  exact State.find_onWb Waybill.exchange found

end Events

/-! ### RED_CLOSE (R150) -/

/-- What a RED_CLOSE that starts cancels: the contributions of its context that have not started to apply. -/
theorem State.find_startClose_of_open {s : State} {key n : Nat} {w c : Waybill} (found : s.work.wbs.find key = some w) (open_ : w.closed = false)
    (here : s.work.wbs.find n = some c) : (s.startClose key).work.wbs.find n =
      some (if c.counts = true ∧ c.rctx = w.rctx ∧ (c.turn = true ∨ c.st = 0) then s.cancelWb c else c) := by
  unfold State.startClose
  simp [State.wb_of_find found, open_, here, and_assoc]

/-- A chunk that runs is dispatched and has not ended. -/
theorem State.runs_st {s : State} {key c : Nat} {w : Waybill} {k : Chunk} (runs : s.runs key c = true)
    (found : s.work.wbs.find key = some w) (chunk : w.chunks.find c = some k) : k.st = 1 := by
  simp only [State.runs, State.wb_of_find found, chunk, Bool.and_eq_true, beq_iff_eq] at runs
  obtain ⟨⟨⟨⟨⟨st, -⟩, -⟩, -⟩, -⟩, -⟩ := runs
  exact st

/-- A chunk of which every granule is committed or marked ends, and its waybill with its last chunk. -/
theorem State.closeChunk_of_done {s : State} {key c : Nat} {w : Waybill} {k : Chunk} (found : s.work.wbs.find key = some w)
    (chunk : w.chunks.find c = some k) (done : ((upto k.count).all fun i => k.bits.testBit i || w.marks.has (k.first + i)) = true)
    (runs : k.st ≠ 3) : ∃ st, (s.closeChunk key c).work.wbs.find key = some { w.endChunk c with st := st } := by
  unfold State.closeChunk
  simp only [found, chunk]
  rw [if_neg (by simp [done, runs])]
  generalize hm : State.leaveQ (State.onCluster _ _ _) _ _ = m
  have ended : m.work.wbs.find key = some (w.endChunk c) := by
    rw [← hm, ((State.leaveQ_moves _ _ _).same (p := .waybills) (by decide)).1]
    refine Eq.trans (congrArg (Tab.find · key) ?_) (State.find_onWb (Waybill.endChunk c) found)
    refine Eq.trans ((State.settleChunk_moves _ _ _ _ _).same (p := .waybills) (by decide)).1 ?_
    rw [State.countCluster_work]
    rfl
  split
  · exact ⟨2, State.find_onWb (fun w => { w with st := 2 }) ended⟩
  · exact ⟨w.st, ended⟩

/-- The single granule of a RED_CLOSE is committed. -/
def Waybill.commitClose (w : Waybill) : Waybill := { w with chunks := w.chunks.upd 0 fun c => { c with bits := 1 } }

section Close

variable {s : State} {stream : Fin 1048576} {seq : Nat} {w : Waybill} (hs : s.running = true)
  (found : s.work.wbs.find (wbKey stream.val seq) = some w) (op : w.opc = 0x32) (runs : s.runs (wbKey stream.val seq) 0 = true)

include hs found op runs

theorem redClose_starts (open_ : w.closed = false) : Completes (.redClose stream seq) s fun t => t.work.ctxs = s.work.ctxs ∧
    ∀ (n : Nat) (c : Waybill), s.work.wbs.find n = some c → t.work.wbs.find n =
      some (if c.counts = true ∧ c.rctx = w.rctx ∧ (c.turn = true ∨ c.st = 0) then s.cancelWb c else c) := by
  refine completes_live hs (by rw [exec, execRedClose]) ?_
  dsimp only
  rw [State.wb_of_find found, if_neg (by simp [op, runs]), if_neg (by simp [open_])]
  exact ⟨((s.startClose_moves _).same (p := .contexts) (by decide)).1, fun n c here => State.find_startClose_of_open found open_ here⟩

theorem redClose_ends {k : Chunk} (closed : w.closed = true) (chunk : w.chunks.find 0 = some k) (one : k.count = 1) :
    Completes (.redClose stream seq) s fun t => ∃ k' : Chunk, (t.wb (wbKey stream.val seq)).chunks.find 0 = some k' ∧ k'.st = 3 := by
  refine completes_live hs (by rw [exec, execRedClose]) ?_
  dsimp only
  rw [State.wb_of_find found, if_neg (by simp [op, runs]), if_pos closed]
  have committed := State.find_onWb Waybill.commitClose found
  have running := State.runs_st runs found chunk
  obtain ⟨st, ended⟩ := State.closeChunk_of_done (c := 0) (k := { k with bits := 1 }) committed
    (by simp [Waybill.commitClose, chunk]) (by simp [one, upto]) (by simp [running])
  refine ⟨{ k with bits := 1, st := 3, held := {} }, (congrArg (·.chunks.find 0) (State.wb_of_find ended)).trans ?_, rfl⟩
  simp [Waybill.endChunk, Waybill.commitClose, chunk]

end Close

/-! ### Locks on accumulator granules (R146) -/

/-- The granule's cluster may take the lock. -/
def State.mayLock (s : State) (unit : Nat) (x : Nat × Nat) : Bool :=
  match s.clusterOf x with | some c => s.lockOk c unit | none => false

/-- A lock as a grant leaves it: where it is free, the first that waits for it and may take it holds it. -/
def State.grantLock (s : State) (unit : Nat) (l : GLock) : GLock :=
  if l.pa == unit && l.holder.isNone then
    match l.waiters.find? (s.mayLock unit) with
    | some x => { l with holder := some x, waiters := l.waiters.filter (· != x) }
    | none => l
  else l

theorem granuleLockGrant_grants {s : State} (unit : Nat) (hs : s.running = true) :
    Completes (.granuleLockGrant unit) s fun t => t.work.locks = s.work.locks.map (s.grantLock unit) := by
  refine completes_live hs (by rw [exec, execGranuleLockGrant]) ?_
  rfl

theorem State.grantLock_eq (s : State) (unit : Nat) (l : GLock) : s.grantLock unit l =
    if l.pa = unit ∧ l.holder = none then
      match l.waiters.find? (s.mayLock unit) with
      | some x => { l with holder := some x, waiters := l.waiters.filter (· != x) }
      | none => l
    else l := by
  unfold State.grantLock
  by_cases free : l.pa = unit ∧ l.holder = none
  · rw [if_pos free, if_pos (by simp [free])]
  · rw [if_neg free, if_neg (by simpa using free)]

theorem granuleLockGrant_completes {s : State} (unit : Nat) (hs : s.running = true) : Completes (.granuleLockGrant unit) s fun t =>
    t.work.locks.length = s.work.locks.length ∧ ∀ (i : Nat) (l : GLock), s.work.locks[i]? = some l →
      t.work.locks[i]? = some (s.grantLock unit l) := by
  obtain ⟨t, runs, locks⟩ := granuleLockGrant_grants unit hs
  refine ⟨t, runs, by rw [locks, List.length_map], fun i l here => ?_⟩
  rw [locks, List.getElem?_map, here, Option.map_some]

/-! ### A context that completes (R149, R150) -/

/-- The context and its staging are free. -/
def State.dropCtx (s : State) (r kib : Nat) : State :=
  { s with work := { s.work with ctxs := s.work.ctxs.del r, stageUsed := s.work.stageUsed - kib } }

/-- DONE_TALLY moves by one, where there is one. -/
def State.payDone (s : State) (x : RedCtx) : State := if x.doneTally == 0xFFFF then s else s.addTally x.doneTally 1

/-- A context that is over goes and moves DONE_TALLY; then its RED_CLOSE may end. -/
theorem State.endCtx_moved (s : State) (r : Nat) (x : RedCtx) :
    Moves [.counters, .samples, .irqPending, .waybills] ((s.dropCtx r x.kib).payDone x) (s.endCtx r x) := by
  unfold State.endCtx
  dsimp only
  split
  · exact ((State.onWb_moves _ _ _).mono (by decide)).trans (State.closeChunk_moves _ _ _)
  · exact Moves.refl _ _

theorem State.payDone_moves (s : State) (x : RedCtx) :
    Moves [.egress, .counters, .samples, .irqPending, .requests, .waybills, .tallies] s (s.payDone x) :=
  Moves.ite (Moves.refl _ s) (State.addTally_moves _ _ _)

/-- An amount added to a tally reaches no other. -/
theorem State.addTally_tallies {s : State} {t : Nat} {y : Tally} (n : Nat) (found : s.work.tallies.find t = some y) :
    ∃ z : Tally, (s.addTally t n).work.tallies = s.work.tallies.put t z ∧ z.count = wrapAdd 64 y.count n := by
  have work : (s.countLedger 0x5015 0).work = s.work := State.countLedger_work _ _ _
  have changed := State.changeTally_tallies (s := s.countLedger 0x5015 0) (fun x => { x with count := wrapAdd 64 x.count n })
    (by rw [work]; exact found)
  rw [work] at changed
  exact ⟨_, changed, rfl⟩

theorem State.endCtx_ctxs (s : State) (r : Nat) (x : RedCtx) :
    (s.endCtx r x).work.ctxs = s.work.ctxs.del r ∧ (s.endCtx r x).work.stageUsed = s.work.stageUsed - x.kib := by
  obtain ⟨ctxs, used⟩ := (s.endCtx_moved r x).same (p := .contexts) (by decide)
  obtain ⟨ctxs', used'⟩ := ((s.dropCtx r x.kib).payDone_moves x).same (p := .contexts) (by decide)
  exact ⟨ctxs.trans ctxs', used.trans used'⟩

theorem State.endCtx_cellar (s : State) (r : Nat) (x : RedCtx) : (s.endCtx r x).cellar = s.cellar :=
  (s.endCtx_moves r x).cellar_same (by decide) (by decide) (by decide) (by decide) (by decide)

theorem State.endCtx_tallies {s : State} {x : RedCtx} {y : Tally} (r : Nat) (some_ : x.doneTally ≠ 0xFFFF)
    (found : s.work.tallies.find x.doneTally = some y) :
    ∃ z : Tally, (s.endCtx r x).work.tallies = s.work.tallies.put x.doneTally z ∧ z.count = wrapAdd 64 y.count 1 := by
  have settled : (s.endCtx r x).work.tallies = _ := (s.endCtx_moved r x).same (p := .tallies) (by decide)
  rw [settled, State.payDone, if_neg (by simp [some_])]
  exact State.addTally_tallies (s := s.dropCtx r x.kib) 1 found

/-- A context is over where every contribution is counted or its RED_CLOSE runs, and no contribution is left. -/
def State.ctxOver (s : State) (x : RedCtx) : Bool :=
  decide (x.ncontrib ≤ x.counted) || (match x.closing with | some k => (s.wb k).st == 1 | none => false)

theorem State.ctxOver_of {s : State} {x : RedCtx} (h : x.ncontrib ≤ x.counted ∨ ∃ k : Nat, x.closing = some k ∧ (s.wb k).st = 1) :
    s.ctxOver x = true := by
  rcases h with counted | ⟨k, closing, st⟩
  · simp [State.ctxOver, counted]
  · simp [State.ctxOver, closing, st]

theorem redContextComplete_ends {s m m' : State} {rctx : Fin 1024} {x : RedCtx} (hs : s.running = true)
    (found : s.work.ctxs.find rctx.val = some x) (open_ : x.open_ = true) (none_ : s.contribsLeft rctx.val = false) (done : s.ctxOver x = true)
    (back : (if x.staged then s.writeBack rctx.val else (true, s)) = (true, m)) (publish : m.publishCtx x = (true, m')) :
    Completes (.redContextComplete rctx) s fun t => t = m'.endCtx rctx.val x := by
  refine completes_live hs (by rw [exec, execRedContextComplete]) ?_
  simp only [found]
  refine (if_neg (c := (!x.open_ || s.contribsLeft rctx.val || !s.ctxOver x) = true) (by simp [open_, none_, done])).trans ?_
  simp only [back, publish, Bool.not_true, Bool.false_eq_true, if_false, if_true]

theorem redContextComplete_completes {s m m' : State} {rctx : Fin 1024} {x : RedCtx} (hs : s.running = true)
    (found : s.work.ctxs.find rctx.val = some x) (open_ : x.open_ = true) (none_ : s.contribsLeft rctx.val = false) (done : s.ctxOver x = true)
    (back : (if x.staged then s.writeBack rctx.val else (true, s)) = (true, m)) (publish : m.publishCtx x = (true, m')) :
    Completes (.redContextComplete rctx) s fun t =>
      t.work.ctxs.find rctx.val = none ∧ t.work.stageUsed = m'.work.stageUsed - x.kib ∧ t.cellar = m'.cellar ∧
      (∀ y : Tally, x.doneTally ≠ 0xFFFF → m'.work.tallies.find x.doneTally = some y → ∃ z : Tally,
        t.work.tallies = m'.work.tallies.put x.doneTally z ∧ z.count = wrapAdd 64 y.count 1) := by
  obtain ⟨t, runs, rfl⟩ := redContextComplete_ends hs found open_ none_ done back publish
  obtain ⟨ctxs, used⟩ := m'.endCtx_ctxs rctx.val x
  exact ⟨_, runs, by simp [ctxs], used, m'.endCtx_cellar _ _, fun y some_ tally => State.endCtx_tallies _ some_ tally⟩

/-- Settles O26: each event of a reduction, and the exchange of a matrix waybill, has its effect where it can happen. -/
theorem reductionEventsComplete : Obligations.ReductionEventsComplete := by
  unfold Obligations.ReductionEventsComplete
  refine ⟨?_, ?_, ?_⟩
  · rintro s stream seq key chunk w hs rfl found st
    exact ⟨fun op empty => redOpen_completes_of_empty hs found chunk st op empty,
      fun waits live room => stagingAlloc_completes hs found st waits live room,
      fun waits limit => redOpenTimeout_completes hs found st waits limit,
      fun turn comes load => contribTurn_completes hs found turn comes load,
      fun r m turn unstaged budget room read sound => stagedPrefetch_completes hs found turn unstaged budget room read sound,
      fun op runs open_ => redClose_starts hs found op runs open_,
      fun k op runs closed chunk one => redClose_ends hs found op runs closed chunk one,
      fun op apart sliced => moeffnExchangeDone_completes hs found st op apart sliced⟩
  · intro s unit hs
    obtain ⟨t, runs, length, granted⟩ := granuleLockGrant_completes unit hs
    refine ⟨t, runs, length, fun i l here => (granted i l here).trans (congrArg some ?_)⟩
    exact s.grantLock_eq unit l
  · exact fun s rctx x m m' hs found open_ none_ done back publish =>
      redContextComplete_completes hs found open_ none_ (State.ctxOver_of done) back publish

end Sys2Proof.Machine
end

section
namespace Sys2Proof.Machine

open Sys2Proof

/-! ## Remote accesses that stay unanswered (R126, R134, R156) -/

/-- A granule that waits in its chunk is one of a waybill's. -/
theorem State.find_of_heldIn {s : State} {key c g : Nat} (h : s.heldIn key c g = true) : ∃ w, s.work.wbs.find key = some w := by
  cases found : s.work.wbs.find key with
  | some w => exact ⟨w, rfl⟩
  | none => simp [State.heldIn, State.wb, Tab.getD, found] at h

/-- An element of the waybill has failed outside its checks, and is to be made again. -/
def Waybill.failOnce (c g cause pva : Nat) (w : Waybill) : Waybill :=
  { w with failed := w.failed.put g (cause, pva), chunks := w.chunks.upd c fun k => { k with held := k.held.del g } }

/-- The first failure of an element of group 0x1 is kept for its record; an element that fails again, and any other granule, is marked (R156). -/
theorem State.failElem_fails {s : State} {key : Nat} {w : Waybill} (c g cause pva : Nat) (found : s.work.wbs.find key = some w) :
    if w.group = 1 ∧ w.failed.has g = false then ((s.failElem key c g cause pva).wb key).failed.find g = some (cause, pva)
    else ((s.failElem key c g cause pva).wb key).marks.find g = some cause := by
  have again : ((s.wb key).group == 1 && !(s.wb key).failed.has g) = decide (w.group = 1 ∧ w.failed.has g = false) := by
    simp [State.wb_of_find found, beq_eq_decide]
  unfold State.failElem
  rw [again]
  by_cases first : w.group = 1 ∧ w.failed.has g = false
  · obtain ⟨hs, unheld⟩ := (s.unhold_reheld key g).find found
    rw [if_pos first, if_pos (decide_eq_true first)]
    have kept := State.wb_of_find (State.find_onWb (Waybill.failOnce c g cause pva) unheld)
    exact (congrArg (fun w : Waybill => w.failed.find g) kept).trans (Tab.find_put_self _ _ _)
  · obtain ⟨w', marked, mark, -⟩ := State.failGranule_marks c g cause found
    rw [if_neg first, if_neg (by simp [first]), State.wb_of_find marked]
    exact mark

/-- A request of the device is awaited no more. -/
def State.unawaited (s : State) (o : OwnReq) : State := { s with fabric := { s.fabric with own := s.fabric.own.filter (· != o) } }

/-- An answer to the Porter asks nothing of another device. -/
theorem State.porterAnswer_own (s : State) (k : OwnKind) (status : Nat) (data : Bytes) (poi : Bool) :
    (s.porterAnswer k status data poi).fabric.own = s.fabric.own := by
  obtain ⟨-, -, -, own, -⟩ := (s.porterAnswer_moves k status data poi).same (p := .peers) (by decide)
  exact own

/-- The request that is found ends as one answered with 0x0C. -/
theorem remoteTimeoutExpiry_answers {s : State} {dst tag : Nat} {tc : Fin 4} {o : OwnReq} (hs : s.running = true)
    (found : s.fabric.own.find? (fun o => o.dst == dst && o.tc == tc.val && o.tag == tag &&
      (match o.kind with | .remoteRead _ _ _ => true | .remoteWrite _ _ _ _ => true | .deliver _ _ _ => true | _ => false)) = some o) :
    exec (.remoteTimeoutExpiry dst tc tag) s = .next ((s.unawaited o).porterAnswer o.kind 0x0C [] false) := by
  rw [exec, execRemoteTimeoutExpiry, live, if_pos hs]
  dsimp only
  split
  next none_ => cases none_.symm.trans found
  next o' here =>
    cases here.symm.trans found
    rfl

/-- A DELIVER granule that no answer comes for fails (R134). -/
theorem State.porterAnswer_deliver_timeout {s : State} {b c g : Nat} (held : s.heldIn b c g = true) :
    s.porterAnswer (.deliver b c g) 0x0C [] false = s.failGranule b c g 0x0C := by
  simp [State.porterAnswer, held]

/-- A granule or element with a range on another device that no answer comes for fails (R126, R156). -/
theorem State.porterAnswer_remoteWrite_timeout {s : State} {b c g : Nat} (pva : Nat) (held : s.heldIn b c g = true) :
    s.porterAnswer (.remoteWrite b c g pva) 0x0C [] false = s.failElem b c g 0x0C pva := by
  simp [State.porterAnswer, held]

/-- Settles O25: the access is awaited no more, and what it was for takes the cause 0x0C. -/
theorem remoteTimeoutsComplete : Obligations.RemoteTimeoutsComplete := by
  unfold Obligations.RemoteTimeoutsComplete
  intro s dst tag tc o hs found
  refine ⟨_, remoteTimeoutExpiry_answers hs found, State.porterAnswer_own _ _ _ _ _, ?_, ?_, ?_⟩
  · intro b g i w kind here
    rw [kind]
    exact State.find_onWb (s := s.unawaited o) (fun w => { w with remote := w.remote.put i ([], false, 0x0C) }) here
  · intro b c g kind held
    obtain ⟨w, here⟩ := State.find_of_heldIn held
    obtain ⟨w', marked, mark, -⟩ := State.failGranule_marks (s := s.unawaited o) c g 0x0C here
    rw [kind, State.porterAnswer_deliver_timeout (s := s.unawaited o) held, State.wb_of_find marked]
    exact mark
  · intro b c g p kind held
    obtain ⟨w, here⟩ := State.find_of_heldIn held
    rw [kind, State.porterAnswer_remoteWrite_timeout (s := s.unawaited o) p held, State.wb_of_find here]
    exact State.failElem_fails (s := s.unawaited o) c g 0x0C p here

end Sys2Proof.Machine
end

section
namespace Sys2Proof.Machine

open Sys2Proof

/-! ## Chunks of the data operations (R128 to R156, R166 to R172, R185) -/

/-- An operation that moves no waybills leaves each as it is in the state that it ends in. -/
theorem Moves.wbs_of_result {ps : List Part} {s u : State} {α : Type} {r : α × State} {a : α} (moved : Moves ps s r.2)
    (kept : Part.waybills ∉ ps) (ends : r = (a, u)) : u.work.wbs = s.work.wbs := by
  subst ends
  exact (moved.same kept).1

section OneLeft

variable {s : State} {key c : Nat} {w : Waybill} {k : Chunk} (found : s.work.wbs.find key = some w) (chunk : w.chunks.find c = some k)

include found chunk

/-- A chunk that runs has been dispatched, and has not ended. -/
theorem State.dispatched_of_runs (runs : s.runs key c = true) : k.st = 1 := by
  simp only [State.runs, State.wb_of_find found, chunk, Bool.and_eq_true, beq_iff_eq] at runs
  obtain ⟨⟨⟨⟨⟨st, -⟩, -⟩, -⟩, -⟩, -⟩ := runs
  exact st

/-- A chunk with one granule left makes it, and places what its kernel made. -/
theorem State.runChunk_one (kernel : State → Nat → Calc × State) (runs : s.runs key c = true) (one : k.count = 1)
    (clear : k.bits.testBit 0 = false) (unheld : k.held.has k.first = false) (unmarked : w.marks.has k.first = false) :
    (s.runChunk key c kernel).places key c k.first (kernel s k.first) := by
  have st := State.dispatched_of_runs found chunk runs
  simp [State.places, State.runChunk, runs, State.wb_of_find found, Tab.getD_of_find _ chunk, one, upto, st, clear, unheld, unmarked]

end OneLeft

theorem State.oneLeft.opcode {s : State} {key c opc : Nat} {k : Chunk} (left : s.oneLeft key c opc k) : (s.wb key).opc = opc := by
  obtain ⟨w, found, op, -⟩ := left
  rw [State.wb_of_find found, op]

/-- A granule that is made waits for its commit with what its write stores. -/
theorem State.holdCalc_holdsMade {m : State} {key c : Nat} {w : Waybill} {k : Chunk} (g : Nat) (x : Calc) {o : Wr}
    (found : m.work.wbs.find key = some w) (chunk : w.chunks.find c = some k) (sound : o.lost = false) :
    (m.holdCalc key c g x o).holdsMade key c g x o m := by
  obtain ⟨w', found', chunk'⟩ := State.find_holdCalc g x o found chunk
  exact ⟨w', _, _, found', chunk', Tab.find_put_self _ _ _, rfl, rfl, by simp [Calc.held, sound], rfl, m.holdCalc_cellar key c g x o⟩

/-- A granule of an accumulator in staging is held with its ranges there (R147). -/
theorem State.placeCalc_stages (s : State) (key c g : Nat) {x : Calc} {r : Nat} (goes : x.waits = false) (made : x.fail = 0)
    (staged : x.stage = some r) : s.placeCalc key c g x = s.holdCalc key c g x { outs := stageOuts (s.work.ctxs.getD r {}) x.ranges } := by
  simp [State.placeCalc, goes, made, staged]

/-- What a kernel made whole is held once it is placed (R81 step 1). -/
theorem State.places_holdsMade {t m : State} {key c : Nat} {k : Chunk} {r : Calc × State} {o : Wr} (placed : t.places key c k.first r)
    (whole : makesWhole key c k r o m) : t.holdsMade key c k.first r.1 o m := by
  obtain ⟨goes, made, destination, w, found, chunk⟩ := whole
  subst placed
  rcases destination with ⟨memory, write, fail, waits, lost⟩ | ⟨x, staged, rfl, rfl⟩
  · have wbs : m.work.wbs = r.2.work.wbs := (State.writeRanges_moves _ _ _ _ _).wbs_of_result (by decide) write
    rw [State.placeCalc_holds found chunk goes (.inl made) memory write fail waits lost]
    exact State.holdCalc_holdsMade _ _ (by rw [wbs]; exact found) chunk lost
  · rw [State.placeCalc_stages _ _ _ _ goes made staged]
    exact State.holdCalc_holdsMade _ _ found chunk rfl

/-- A command that gives a running chunk to a kernel makes the granule that is left of it. -/
theorem State.chunkMakes_of_work0 {s : State} {i : Instr} {stream seq c opc : Nat} {k : Chunk} {f : State → State}
    (kernel : Nat → Nat → State → Nat → Calc × State) (hs : s.running = true) (hc : exec i s = live s f)
    (does : f s = s.work0 stream seq c opc kernel) :
    s.chunkMakes i (wbKey stream seq) c opc k (kernel (wbKey stream seq) k.cluster s k.first) := by
  rintro ⟨w, found, op, runs, chunk, one, clear, unheld, unmarked⟩
  have placed : (f s).places (wbKey stream seq) c k.first (kernel (wbKey stream seq) k.cluster s k.first) := by
    simp only [does, State.work0, State.wb_of_find found, op, bne_self_eq_false, Bool.false_eq_true, if_false, Tab.getD_of_find _ chunk]
    exact State.runChunk_one found chunk _ runs one clear unheld unmarked
  exact ⟨completes_live hs hc placed, fun o m whole => completes_live hs hc (State.places_holdsMade placed whole)⟩

/-! ### Elements of ATOMIC and CAS (R137) -/

/-- An element that has all it needs takes its new value. -/
theorem State.atomElem_ready {s m : State} {key c cl i pa : Nat} {b : Rd} {x : Seen} {o : Wr} (ready : s.atomReady key cl i b pa x o m) :
    s.atomElem key c cl i = m.atomDone (s.wb key) key c i b pa x o := by
  obtain ⟨u, v, q, operand, sound, came, clean, address, filled, free, line, here, whole, kept, old, fits, there, room, space⟩ := ready
  have wb : v.wb key = s.wb key := by
    have asked : u.work.wbs = s.work.wbs := by
      split at operand
      · exact (State.readRange_moves _ _ _ _ _ _ _).wbs_of_result (by decide) operand
      · cases operand
        rfl
    rw [State.wb, (State.porterXl_moves _ _ _ _ _).wbs_of_result (by decide) address, asked, ← State.wb]
  have applied : v.atomApply key c cl i pa b = m.atomDone (s.wb key) key c i b pa x o := by
    simp [State.atomApply, wb, line, here, whole, kept, clean, old, fits, there, room, space, State.atomDone]
  unfold State.atomElem
  simp only [operand]
  simp [sound, came, address, filled, free, applied]

/-- A chunk of ATOMIC or CAS with one element left tries it. -/
theorem State.runAtoms_one {s : State} {key c opc : Nat} {k : Chunk} (first : k.first = 0) (left : s.oneLeft key c opc k) :
    s.runAtoms key c = s.atomElem key c k.cluster 0 := by
  obtain ⟨w, found, -, runs, chunk, one, clear, -, unmarked⟩ := left
  have st := State.dispatched_of_runs found chunk runs
  rw [first] at unmarked
  simp [State.runAtoms, runs, State.wb_of_find found, Tab.getD_of_find _ chunk, one, upto, st, clear, unmarked]

/-! ### Slices of MOEFFN's phase 1 (R172) -/

/-- A waybill with the result of a slice. -/
def Waybill.sliced (i off : Nat) (bs : Bytes) (flags : Nat) (poison degraded : Bool) (w : Waybill) : Waybill :=
  { w with slices := setBit w.slices i, h := putAt w.h off bs, hPoison := w.hPoison || poison, hFlags := w.hFlags ||| flags,
           degraded := w.degraded || degraded, chunks := w.chunks.upd (65536 + i) fun k => { k with bits := 1 } }

/-- A slice that is done, and whose chunk may end, is in the waybill with its bytes of h. -/
theorem State.wb_closeSlice {s : State} {key : Nat} {w : Waybill} (c i off : Nat) (bs : Bytes) (flags : Nat) (poison degraded : Bool)
    (found : s.work.wbs.find key = some w) :
    ((((s.unhold key c).sliceDone key i off bs flags poison degraded).closeChunk key c).wb key).slices = setBit w.slices i ∧
      ((((s.unhold key c).sliceDone key i off bs flags poison degraded).closeChunk key c).wb key).h = putAt w.h off bs := by
  obtain ⟨hs, unheld⟩ := (s.unhold_reheld key c).find found
  have done : ((s.unhold key c).sliceDone key i off bs flags poison degraded).work.wbs.find key = some _ :=
    State.find_onWb (Waybill.sliced i off bs flags poison degraded) unheld
  obtain ⟨cs, st, closed, -⟩ := State.find_closeChunk c done
  rw [State.wb_of_find closed]
  exact ⟨rfl, rfl⟩

/-- A cluster's scratchpad holds no line of weights for the waybill. -/
def Waybill.dropLines (cl : Nat) (w : Waybill) : Waybill := { w with scratch := w.scratch.upd cl fun c => { c with lines := {} } }

theorem State.find_dropLines {s : State} {key : Nat} {w : Waybill} (cl : Nat) (found : s.work.wbs.find key = some w) :
    (s.dropLines key cl).work.wbs.find key = some (w.dropLines cl) := State.find_onWb (Waybill.dropLines cl) found

/-- The bytes of a slice's rows of h. -/
def Waybill.sliceH (w : Waybill) (cl : Nat) (qs : List Nat) (gr ur : List (Nat × List Rd)) : Bytes :=
  (packElems (fmtD w.bfmt).size ((qs.map fun q => (upto w.batch).map fun j =>
    hElem w (rowAt gr q) (rowAt ur q) (w.pad cl).x q j).flatten)).1

/-- A slice whose rows have all come enters the waybill (R172). -/
theorem State.makeSlice_done {s u v : State} {key c cl i : Nat} {w : Waybill} {gr ur : List (Nat × List Rd)}
    (found : s.work.wbs.find key = some w) (gate : s.readRows key cl c w.matG (w.sliceQs i) = (gr, u))
    (up : u.readRows key cl c w.matU (w.sliceQs i) = (ur, v)) (there : stopOf ((gr.map (·.2)).flatten ++ (ur.map (·.2)).flatten) = none) :
    ((s.makeSlice key c cl i).wb key).slices = setBit w.slices i ∧ ((s.makeSlice key c cl i).wb key).h =
      putAt w.h (i * sliceRows w.colsK w.nparts w.batch * w.batch * (fmtD w.bfmt).size) (w.sliceH cl (w.sliceQs i) gr ur) := by
  have here : v.work.wbs.find key = some w := by
    rw [(State.readRows_moves _ _ _ _ _ _).wbs_of_result (by decide) up, (State.readRows_moves _ _ _ _ _ _).wbs_of_result (by decide) gate, found]
  have counted : ∀ macs, ((v.dropLines key cl).countMacs cl w.wfmt w.xfmt macs).work.wbs.find key = some (w.dropLines cl) := fun macs => by
    rw [((State.countMacs_moves _ _ _ _ _).same (p := .waybills) (by decide)).1, State.find_dropLines cl here]
  unfold State.makeSlice
  unfold Waybill.sliceQs at gate up
  simp only [State.wb_of_find found, gate, up, there]
  exact State.wb_closeSlice (w := w.dropLines cl) _ _ _ _ _ _ _ (counted _)

/-- A slice whose cluster has the vector batch makes its rows. -/
theorem State.runSlice_makes {s : State} {key c : Nat} {w : Waybill} {k : Chunk} (found : s.work.wbs.find key = some w)
    (runs : s.runs key c = true) (chunk : w.chunks.find c = some k) (new : w.slices.testBit (c - 65536) = false) (sound : w.hFail = 0)
    (loaded : w.scratch.has k.cluster = true) : s.runSlice key c = s.makeSlice key c k.cluster (c - 65536) := by
  simp [State.runSlice, runs, State.wb_of_find found, Tab.getD_of_find _ chunk, new, State.loadBatch, sound, loaded]

/-- Settles O23: a command runs its operation's kernel on what is left of its chunk, and places what the kernel makes; elements of ATOMIC and
CAS and slices of MOEFFN's phase 1 go their own ways. -/
theorem dataOperationsComplete : Obligations.DataOperationsComplete := by
  unfold Obligations.DataOperationsComplete
  rintro s stream seq chunk key k hs rfl
  refine ⟨State.chunkMakes_of_work0 kernel0 hs (by rw [exec, execCopy]) rfl,
    State.chunkMakes_of_work0 kernel0 hs (by rw [exec, execConvert]) rfl,
    State.chunkMakes_of_work0 kernel0 hs (by rw [exec, execFill]) rfl,
    State.chunkMakes_of_work0 kernel0 hs (by rw [exec, execEltwise]) rfl,
    State.chunkMakes_of_work0 kernel0 hs (by rw [exec, execDeliver]) rfl,
    State.chunkMakes_of_work0 kernel1 hs (by rw [exec, execGather]) rfl,
    State.chunkMakes_of_work0 kernel1 hs (by rw [exec, execScatter]) rfl,
    State.chunkMakes_of_work0 kernel3 hs (by rw [exec, execRedContrib]) rfl,
    State.chunkMakes_of_work0 kernel3 hs (by rw [exec, execReduce]) rfl,
    State.chunkMakes_of_work0 kernel4 hs (by rw [exec, execReshard]) rfl,
    State.chunkMakes_of_work0 kernelMvb hs (by rw [exec, execMvb]) rfl,
    fun some_ => ?_, fun block => ?_, fun b pa x o m first ready => ⟨fun left => ?_, fun left => ?_⟩, ?_⟩
  · refine State.chunkMakes_of_work0 kernelOpen hs (by rw [exec, execRedOpen]) ?_
    exact if_neg (by simp [some_])
  · refine State.chunkMakes_of_work0 kernelMoe hs (by rw [exec, execMoeffn]) ?_
    exact if_neg (Nat.not_le.mpr block)
  · refine completes_live hs (by rw [exec, execAtomic]) ?_
    rw [if_pos (by simp [left.opcode]), State.runAtoms_one first left, State.atomElem_ready ready]
  · refine completes_live hs (by rw [exec, execCas]) ?_
    rw [if_pos (by simp [left.opcode]), State.runAtoms_one first left, State.atomElem_ready ready]
  · rintro w qs gr ur u v slice found op runs here new sound loaded rfl gate up there
    refine completes_live hs (by rw [exec, execMoeffn]) ?_
    rw [if_pos slice, State.wb_of_find found, op, if_pos (by rfl), State.runSlice_makes found runs here new sound loaded]
    exact State.makeSlice_done found gate up there

end Sys2Proof.Machine
end

section
namespace Sys2Proof.Machine

open Sys2Proof

/-! ## LAYOUT_CMD (R179, R181, R186, Table 5.12) -/

theorem State.regsBut.mono {s t : State} {ks ls : List Nat} (h : s.regsBut ks t) (sub : ks ⊆ ls) : s.regsBut ls t :=
  fun j kept => h j fun out => kept (sub out)

/-- An object that is among those left out may be written. -/
theorem State.regsBut.setReg {s t : State} {ks : List Nat} {k : Nat} (h : s.regsBut ks t) (out : k ∈ ks) (v : Nat) :
    s.regsBut ks (t.setReg k v) := fun j kept => by
  rw [State.reg_setReg, if_neg (ne_of_mem_of_not_mem out kept).symm, h j kept]

theorem State.regsBut.of_regs {s t u : State} {ks : List Nat} (h : s.regsBut ks t) (same : u.regs = t.regs) : s.regsBut ks u :=
  fun j kept => (State.reg_congr same j).trans (h j kept)

theorem State.regsBut.with_work {s t : State} {ks : List Nat} (h : s.regsBut ks t) (w : Work) : s.regsBut ks { t with work := w } :=
  h.of_regs rfl

/-- A record's command has its effect on a state that differs from the one before in OP. -/
theorem completes_record_of_op {c : Instr} {s : State} {op result code : Nat} {f : State → State} {post : State → Prop}
    (hs : s.accepts result) (hc : exec c s = record s op result code f)
    (h : ∀ u : State, s.regsBut [op] u → u.blobs = s.blobs → u.work = s.work → post (f u)) : Completes c s post :=
  completes_record hs hc (h _ (.setReg (fun _ _ => rfl) (List.mem_singleton_self op) code) rfl rfl)

/-- Writing a layout's entry changes neither an object nor the layouts, even where a lost line of the table region makes a guest fatal
(R386). -/
theorem State.writeLayout_keeps {s u : State} {i gid : Nat} {bs : Bytes} (wrote : s.writeLayout i gid bs = u) :
    u.regs = s.regs ∧ u.work.layouts = s.work.layouts := by
  have moved := State.writeLayout_moves s i gid bs
  rw [wrote] at moved
  exact ⟨moved.same (p := .regs) (by decide), moved.same (p := .layouts) (by decide)⟩

theorem State.layoutUsed_congr {s u : State} (work : u.work = s.work) (i : Nat) : u.layoutUsed i = s.layoutUsed i := by
  rw [State.layoutUsed, State.layoutUsed, work]

theorem layoutRegister_completes {s : State} {i : Nat} {l : Layout} (hs : s.accepts Obj.layoutCmdResult)
    (desc : l = { gid := s.reg Obj.layoutCmdGid % 2 ^ 20, w := wordsOf (s.blob Obj.layoutCmdDesc) }) (valid : l.valid = true)
    (free : s.work.layouts.lowestFree 65536 = some i) : Completes .layoutRegister s fun t =>
      t.work.layouts = s.work.layouts.put i l ∧ t.reg Obj.layoutCmdId = i ∧ t.reg Obj.layoutCmdResult = 0x00 ∧
        s.regsBut [Obj.layoutCmdOp, Obj.layoutCmdId, Obj.layoutCmdResult] t := by
  refine completes_record_of_op hs (by rw [exec, execLayoutRegister]) fun u kept blobs work => ?_
  have gid : u.reg Obj.layoutCmdGid = s.reg Obj.layoutCmdGid := kept _ (by decide)
  have blob : u.blob Obj.layoutCmdDesc = s.blob Obj.layoutCmdDesc := by rw [State.blob, State.blob, blobs]
  simp only [gid, blob, work, ← desc, valid, free, Bool.not_true, Bool.false_eq_true, if_false]
  generalize wrote : State.writeLayout _ _ _ _ = v
  obtain ⟨regs, layouts⟩ := State.writeLayout_keeps wrote
  refine ⟨by rw [State.setReg_work, State.setReg_work, layouts], ?_, by simp, ?_⟩
  · simp [show Obj.layoutCmdId ≠ Obj.layoutCmdResult by decide]
  · exact .setReg (.setReg (.of_regs (.with_work (kept.mono (by simp)) _) regs) (by simp) i) (by simp) 0

theorem layoutRemove_completes {s : State} (hs : s.accepts Obj.layoutCmdResult)
    (there : s.work.layouts.has (s.reg Obj.layoutCmdId) = true) (unused : s.layoutUsed (s.reg Obj.layoutCmdId) = false) :
    Completes .layoutRemove s fun t =>
      t.work.layouts = s.work.layouts.del (s.reg Obj.layoutCmdId) ∧ t.reg Obj.layoutCmdResult = 0x00 ∧
        s.regsBut [Obj.layoutCmdOp, Obj.layoutCmdResult] t := by
  refine completes_record_of_op hs (by rw [exec, execLayoutRemove]) fun u kept _ work => ?_
  have number : u.reg Obj.layoutCmdId = s.reg Obj.layoutCmdId := kept _ (by decide)
  simp only [number, State.layoutUsed_congr work, work, there, unused, Bool.not_true, Bool.false_eq_true, if_false]
  generalize wrote : State.writeLayout _ _ _ _ = v
  obtain ⟨regs, layouts⟩ := State.writeLayout_keeps wrote
  exact ⟨by rw [State.setReg_work, layouts, work], by simp, .setReg (.with_work (.of_regs (kept.mono (by simp)) regs) _) (by simp) 0⟩

theorem layoutQuery_completes {s : State} {l : Layout} (hs : s.accepts Obj.layoutCmdResult)
    (found : s.work.layouts.find (s.reg Obj.layoutCmdId) = some l) : Completes .layoutQuery s fun t =>
      t.blob Obj.layoutCmdDesc = (l.w.map fun v => leBytes 8 v).flatten ∧ t.work.layouts = s.work.layouts ∧
        t.reg Obj.layoutCmdResult = 0x00 ∧ s.regsBut [Obj.layoutCmdOp, Obj.layoutCmdResult] t := by
  refine completes_record_of_op hs (by rw [exec, execLayoutQuery]) fun u kept _ work => ?_
  have number : u.reg Obj.layoutCmdId = s.reg Obj.layoutCmdId := kept _ (by decide)
  simp only [number, work, found]
  exact ⟨by simp, congrArg (·.layouts) work, by simp, .setReg (.of_regs (kept.mono (by simp)) rfl) (by simp) 0⟩

/-- Settles O27: LAYOUT_REGISTER takes the lowest free number, LAYOUT_REMOVE frees the number of a layout that no RESHARD in progress names, and
LAYOUT_QUERY reports the descriptor. -/
theorem layoutCommandsComplete : Obligations.LayoutCommandsComplete := by
  unfold Obligations.LayoutCommandsComplete
  exact ⟨fun _ _ _ hs desc valid free => layoutRegister_completes hs desc valid free,
    fun _ hs there unused => layoutRemove_completes hs there unused, fun _ _ hs found => layoutQuery_completes hs found⟩

end Sys2Proof.Machine
end

section
namespace Sys2Proof.Machine

open Sys2Proof

/-! ## TRANS_CMD (R199 to R204, R210, R211, R213) -/

/-! ### The checks of a batch read no object that a command writes -/

theorem State.checkBatch_setReg (s : State) (k v gid : Nat) (us : List UpdRec) (i : Nat) (migr : Bool) (ls : List Leaf) :
    (s.setReg k v).checkBatch gid us i migr ls = s.checkBatch gid us i migr ls := by
  induction us generalizing i migr ls with
  | nil => rfl
  | cons u us ih =>
    have valid : (s.setReg k v).updValid gid ls migr u = s.updValid gid ls migr u := rfl
    have home : (s.setReg k v).updHome gid u = s.updHome gid u := rfl
    simp only [State.checkBatch, valid, home, ih]

theorem State.placeTables_setReg (s : State) (k v gid : Nat) (ls : List Leaf) :
    (s.setReg k v).placeTables gid ((s.setReg k v).tablesNew gid ls) = s.placeTables gid (s.tablesNew gid ls) := rfl

/-! ### The commit in progress while its transfers go out (R210, R211) -/

/-- A commit whose next host transfer is at an offset. -/
def Commit.nextAt (c : Commit) (n : Nat) : Commit := { c with next := n }

theorem State.migrSend1_commit {s : State} {c : Commit} (u : UpdRec) (running : s.trans.commit = some c) :
    ∃ n, (s.migrSend1 c u).trans.commit = some (c.nextAt n) := by
  have asked := fun (v : State) (p : Packet) kind bytes => (State.request_moves v p kind bytes).same (p := .commit) (by decide)
  unfold State.migrSend1
  dsimp only
  split
  · exact ⟨_, asked _ _ _ _⟩
  · have read : (s.migrRead c u).2.trans.commit = s.trans.commit := (State.migrRead_moves s c u).same (p := .commit) (by decide)
    split
    · exact ⟨c.next, read.trans running⟩
    · exact ⟨_, asked _ _ _ _⟩

/-- Transfers that go out move only the offset of the next. -/
theorem State.migrSend_commit {s : State} {c : Commit} (n : Nat) (running : s.trans.commit = some c) :
    ∃ k, (s.migrSend n).trans.commit = some (c.nextAt k) := by
  induction n generalizing s c with
  | zero => exact ⟨c.next, running⟩
  | succ n ih =>
    simp only [State.migrSend, running]
    split
    · rename_i u _
      split
      · obtain ⟨k, sent⟩ := State.migrSend1_commit u running
        obtain ⟨j, gone⟩ := ih sent
        exact ⟨j, gone⟩
      · exact ⟨c.next, running⟩
    · exact ⟨c.next, running⟩

/-- A MIGRATE_OUT that goes on may enter its transfers, and else moves only the offset of the next. -/
theorem State.migrOn_commit {s : State} {c : Commit} (running : s.trans.commit = some c) :
    ∃ k p, s.migrOn.trans.commit = some { c with next := k, phase := p } ∧ (p = 4 ∨ p = c.phase) := by
  simp only [State.migrOn, running]
  split
  · split
    · obtain ⟨k, sent⟩ := State.migrSend_commit
        (s := { (s.drainRange (s.migrPa c) c.size).2 with
          trans := { (s.drainRange (s.migrPa c) c.size).2.trans with commit := some { c with phase := 4 } } }) 64 rfl
      exact ⟨k, 4, sent, .inl rfl⟩
    · have drained := (State.drainRange_moves s (s.migrPa c) c.size).same (p := .commit) (by decide)
      exact ⟨c.next, c.phase, drained.trans running, .inr rfl⟩
  · obtain ⟨k, sent⟩ := State.migrSend_commit 64 running
    exact ⟨k, c.phase, sent, .inr rfl⟩

/-! ### COMMIT and QUERY -/

/-- The commit of a batch that is accepted. -/
def State.batchCommit (s : State) (gid : Nat) (us : List UpdRec) : Commit :=
  { gid := gid, recs := us, phase := match us.find? fun u => u.op != 1 with | some u => u.op | none => 1, epoch := s.trans.epoch }

/-- What a batch that is accepted answers: it runs, and the guest's GEN is as it was. -/
def State.answerCommit (s : State) (gid : Nat) : State :=
  ((s.setReg Obj.transCmdResult 0x01).setReg Obj.transCmdGen (s.guest gid).gen).setReg Obj.transCmdFailIndex 0

/-- A batch is accepted and has taken no step. -/
def State.acceptBatch (s : State) (gid : Nat) (us : List UpdRec) : State :=
  { s.answerCommit gid with trans := { s.trans with commit := some (s.batchCommit gid us) } }

/-- The device with this translation cache. -/
def State.withCache (s : State) (es : List TlbEnt) : State := { s with trans := { s.trans with cache := es } }

/-- A MIGRATE_IN starts its transfers, with nothing of the page in the LRC; a MIGRATE_OUT goes as far as it can, with nothing of the page in the
translation cache. -/
theorem State.startCommit_eq (s : State) (gid : Nat) (us : List UpdRec) : s.startCommit gid us =
    match us.find? fun u => u.op != 1 with
    | some u =>
      if u.op == 2 then
        ((s.acceptBatch gid us).lrcDrop ((s.acceptBatch gid us).migrPa (s.batchCommit gid us)) (s.batchCommit gid us).size).migrSend 64
      else ((s.acceptBatch gid us).withCache (s.trans.cache.filter fun e =>
        !(e.gid == gid && overlaps e.base e.span u.pva (s.batchCommit gid us).size))).migrOn
    | none => s.acceptBatch gid us := rfl

/-- The first steps of a batch write no object. -/
theorem State.startCommit_regs (s : State) (gid : Nat) (us : List UpdRec) : (s.startCommit gid us).regs = (s.answerCommit gid).regs := by
  rw [State.startCommit_eq]
  split
  · split
    · exact ((State.migrSend_moves _ _).same (p := .regs) (by decide)).trans ((State.lrcDrop_moves _ _ _).same (p := .regs) (by decide))
    · exact (State.migrOn_moves _).same (p := .regs) (by decide)
  · rfl

/-- The commit of a batch of updates waits for its commit point; that of a MIGRATE_IN is in its transfers, and that of a MIGRATE_OUT may be. -/
theorem State.startCommit_commit (s : State) (gid : Nat) (us : List UpdRec) :
    ∃ c : Commit, (s.startCommit gid us).trans.commit = some c ∧ c.recs = us ∧ c.gid = gid ∧
      match us.find? (fun u => u.op != 1) with
      | none => c.phase = 1
      | some u => if u.op = 2 then c.phase = 2 else c.phase = 4 ∨ c.phase = u.op := by
  rw [State.startCommit_eq]
  have accepted : (s.acceptBatch gid us).trans.commit = some (s.batchCommit gid us) := rfl
  cases migr : us.find? (fun u => u.op != 1) with
  | none => exact ⟨_, accepted, rfl, rfl, by simp [State.batchCommit, migr]⟩
  | some u =>
    have phase : (s.batchCommit gid us).phase = u.op := by simp [State.batchCommit, migr]
    by_cases into : u.op = 2
    · simp only [into, beq_self_eq_true, if_true]
      obtain ⟨k, sent⟩ := State.migrSend_commit 64 (((State.lrcDrop_moves _ _ _).same (p := .commit) (by decide)).trans accepted)
      exact ⟨_, sent, rfl, rfl, phase.trans into⟩
    · simp only [into, beq_iff_eq, if_false]
      generalize s.trans.cache.filter _ = es
      obtain ⟨k, p, gone, goes⟩ := State.migrOn_commit (s := (s.acceptBatch gid us).withCache es) accepted
      exact ⟨_, gone, rfl, rfl, phase ▸ goes⟩

theorem commit_completes {s : State} {gid : Nat} {us : List UpdRec} {ls : List Leaf} (hs : s.accepts Obj.transCmdResult)
    (guest : gid = s.reg Obj.transCmdGid % 2 ^ 20) (defined : s.pool.guests.has gid = true) (some_ : 1 ≤ s.reg Obj.transCmdCount)
    (most : s.reg Obj.transCmdCount ≤ 128) (whole : (s.blob Obj.transCmdBatch).length = 32 * s.reg Obj.transCmdCount)
    (gen : s.reg Obj.transCmdExpectGen = (s.guest gid).gen)
    (recs : us = (upto (s.reg Obj.transCmdCount)).map fun i => updOf (sliceBytes (s.blob Obj.transCmdBatch) (32 * i) 32))
    (valid : s.checkBatch gid us 0 false s.trans.leaves = (none, ls)) (room : (s.placeTables gid (s.tablesNew gid ls)).isSome = true) :
    Completes .commit s fun t => t = (s.setReg Obj.transCmdOp 0x01).startCommit gid us := by
  refine completes_record hs (by rw [exec, execCommit]) ?_
  have count : (s.reg Obj.transCmdCount == 0 || decide (128 < s.reg Obj.transCmdCount) ||
      (s.blob Obj.transCmdBatch).length != 32 * s.reg Obj.transCmdCount) = false := by
    simp [whole]; omega
  have gid' : (s.setReg Obj.transCmdOp 0x01).reg Obj.transCmdGid % 2 ^ 20 = gid := by rw [guest, s.reg_setReg_ne _ (by decide)]
  have guest' : (s.setReg Obj.transCmdOp 0x01).guest gid = s.guest gid := rfl
  simp only [gid', guest', s.reg_setReg_ne 0x01 (show Obj.transCmdCount ≠ Obj.transCmdOp by decide),
    s.reg_setReg_ne 0x01 (show Obj.transCmdExpectGen ≠ Obj.transCmdOp by decide), State.blob_setReg, State.setReg_pool, State.setReg_trans,
    defined, count, gen, ← recs, State.checkBatch_setReg, valid, State.placeTables_setReg, Option.isNone_eq_false_iff.mpr room, bne_self_eq_false,
    Bool.not_true, Bool.false_eq_true, if_false]

theorem transQuery_completes {s : State} {gid : Nat} (hs : s.accepts Obj.transCmdResult) (guest : gid = s.reg Obj.transCmdGid % 2 ^ 20)
    (defined : s.pool.guests.has gid = true) : Completes .transQuery s fun t =>
      t.reg Obj.transCmdResult = 0x00 ∧ t.reg Obj.transCmdGen = (s.guest gid).gen ∧ t.reg Obj.transCmdFailIndex = 0 ∧
      t.reg Obj.transCmdQentry = ((s.leafAt gid (s.reg Obj.transCmdQpva)).map (·.bits)).getD 0 ∧
      t.reg Obj.transCmdQlevel = ((s.leafAt gid (s.reg Obj.transCmdQpva)).map (·.level)).getD 0xFF ∧
      s.regsBut [Obj.transCmdOp, Obj.transCmdResult, Obj.transCmdGen, Obj.transCmdFailIndex, Obj.transCmdQentry, Obj.transCmdQlevel] t := by
  refine completes_record hs (by rw [exec, execTransQuery]) ?_
  have gid' : (s.setReg Obj.transCmdOp 0x02).reg Obj.transCmdGid % 2 ^ 20 = gid := by rw [guest, s.reg_setReg_ne _ (by decide)]
  have guest' : (s.setReg Obj.transCmdOp 0x02).guest gid = s.guest gid := rfl
  have leaf : ∀ a, (s.setReg Obj.transCmdOp 0x02).leafAt gid a = s.leafAt gid a := fun _ => rfl
  simp only [gid', guest', leaf, s.reg_setReg_ne 0x02 (show Obj.transCmdQpva ≠ Obj.transCmdOp by decide), State.setReg_pool, defined,
    Bool.not_true, Bool.false_eq_true, if_false]
  refine ⟨?_, ?_, ?_, ?_, ?_, ?_⟩
  case refine_6 =>
    exact .setReg (.setReg (.setReg (.setReg (.setReg (.setReg (fun _ _ => rfl) (by simp) _) (by simp) _) (by simp) _) (by simp) _) (by simp) _)
      (by simp) _
  all_goals simp [Obj.transCmdResult, Obj.transCmdGen, Obj.transCmdFailIndex, Obj.transCmdQentry, Obj.transCmdQlevel]

/-- Settles O28: a batch that passes the checks of R200 starts its commit, whose first steps write no object and no leaf; a query writes the
leaf that it finds. -/
theorem translationCommandsComplete : Obligations.TranslationCommandsComplete := by
  unfold Obligations.TranslationCommandsComplete
  refine ⟨fun s gid us ls hs guest defined some_ most whole gen recs valid room => ?_, fun s gid hs guest defined =>
    transQuery_completes hs guest defined⟩
  obtain ⟨t, step, rfl⟩ := commit_completes hs guest defined some_ most whole gen recs valid room
  have regs := (s.setReg Obj.transCmdOp 0x01).startCommit_regs gid us
  refine ⟨_, step, ?_, ?_, ?_, ?_, ((State.startCommit_moves _ _ _).same (p := .tables) (by decide)).1, State.startCommit_commit _ _ _⟩
  case refine_4 =>
    exact .of_regs (.setReg (.setReg (.setReg (.setReg (fun _ _ => rfl) (by simp) _) (by simp) _) (by simp) _) (by simp) _) regs
  all_goals rw [State.reg_congr regs]
  all_goals simp [State.answerCommit, State.guest, Obj.transCmdResult, Obj.transCmdGen, Obj.transCmdFailIndex]

end Sys2Proof.Machine
end

section
namespace Sys2Proof.Machine

open Sys2Proof

/-! ## What a commit does on its own (R201, R202, R204, R210 to R212) -/

/-! ### The commit point (R201 to R204) -/

/-- The leaves as the records of a commit leave them. -/
def Commit.applied (c : Commit) (ls : List Leaf) : List Leaf := c.recs.foldl (fun ls u => applyUpd ls c.gid u) ls

/-- The records of a commit are in the window table, with these tables and this much of the heap free, and caches hold nothing that they make
stale; the commit goes on as another. -/
def State.retabled (s : State) (c d : Commit) (gone tables : List WTable) (heap : Nat) : State :=
  { s with trans := { s.trans with
    leaves := c.applied s.trans.leaves, tables := tables, commit := some d, epoch := s.trans.epoch + 1, heapFree := heap,
    cache := s.trans.cache.filter (fun e => !c.stale gone e), tlbs := s.trans.tlbs.map fun _ t => t.filter fun e => !c.stale gone e } }

theorem State.retabled_moves (s : State) (c d : Commit) (gone tables : List WTable) (heap : Nat) :
    Moves [.tables, .tlbs, .commit] s (s.retabled c d gone tables heap) := moves_mk.mpr (.record (.refl _ s))

/-- A commit point puts the records into force, writes what changed in the heap and in the reverse map, and lets what waited go on. -/
theorem State.commitPoint_form (s : State) (c : Commit) : ∃ (d : Commit) (gone fresh tables : List WTable) (heap : Nat),
    d.phase = 5 ∧ d.recs = c.recs ∧ d.gid = c.gid ∧
      s.commitPoint c = (((s.retabled c d gone tables heap).writeTables c.gid s.trans.leaves (c.applied s.trans.leaves) gone fresh).remap
        c.gid s.trans.leaves (c.applied s.trans.leaves)).afterPoint c := by
  refine ⟨_, _, _, _, _, ?_, ?_, ?_, rfl⟩ <;> rfl

/-- What a commit point's writes of the heap and of the reverse map may change. -/
def entryParts : List Part :=
  [.egress, .counters, .samples, .log, .irqPending, .keyCaches, .guests, .requests, .rmap, .streams, .chans, .dram, .out, .free]

theorem State.writeEntries_moves (s : State) (gid : Nat) (old new : List Leaf) (gone fresh : List WTable) :
    Moves entryParts s ((s.writeTables gid old new gone fresh).remap gid old new) :=
  ((State.writeTables_moves s gid old new gone fresh).mono rfl).trans ((State.remap_moves _ gid old new).mono rfl)

/-- A cached leaf that a commit does not make stale lies outside the span of each of its records. -/
theorem Commit.outside_of_fresh {c : Commit} {gone : List WTable} {e : TlbEnt} (fresh : c.stale gone e = false) (leaf : e.ptr = false)
    (guest : e.gid = c.gid) : ∀ r ∈ c.recs, overlaps e.base e.span r.pva (levelSpan r.level) = false := by
  simpa [Commit.stale, leaf, guest] using fresh

theorem State.commitPoint_pastPoint (s : State) (c : Commit) : s.pastPoint c (s.commitPoint c) := by
  obtain ⟨d, gone, fresh, tables, heap, phase, recs, guest, point⟩ := s.commitPoint_form c
  rw [point]
  have retabled := s.retabled_moves c d gone tables heap
  have stored := (s.retabled c d gone tables heap).writeEntries_moves c.gid s.trans.leaves (c.applied s.trans.leaves) gone fresh
  generalize State.remap _ _ _ _ = u at stored
  obtain ⟨leaves, -, -, epoch⟩ := stored.same (p := .tables) (by decide)
  obtain ⟨cache, -⟩ := stored.same (p := .tlbs) (by decide)
  have commit := stored.same (p := .commit) (by decide)
  have after := u.afterPoint_moves c
  obtain ⟨leaves', -, -, epoch'⟩ := after.same (p := .tables) (by decide)
  have commit' := after.same (p := .commit) (by decide)
  refine ⟨leaves'.trans leaves, epoch'.trans epoch, ⟨d, commit'.trans commit, phase, recs, guest⟩, u,
    (retabled.frame.mono rfl).trans (stored.frame.mono rfl), rfl, fun e held leaf own => ?_⟩
  rw [cache] at held
  exact Commit.outside_of_fresh (by simpa using (List.mem_filter.mp held).2) leaf own

/-! ### The end of a drain (R202, R204) -/

/-- What the end of a drain drops and zeroes once the old ranges are clean. -/
def State.endDrain (s : State) (c : Commit) : State :=
  c.gone.foldl (fun (s : State) t => s.zeroTable t) (c.drops.foldl (fun s x => s.lrcDrop x.1 x.2) s)

/-- What a drain, and what ends it, may change. -/
def drainParts : List Part :=
  [.egress, .counters, .samples, .log, .irqPending, .keyCaches, .guests, .requests, .lrc, .streams, .chans, .dram, .out, .free]

theorem State.drainRanges_moves (s : State) (spans : List (Nat × Nat)) :
    Moves drainParts s (spans.foldl (fun (b : Bool × State) x => let (k, s) := b.2.drainRange x.1 x.2; (b.1 && k, s)) (true, s)).2 :=
  Moves.foldl_snd (fun v x => (State.drainRange_moves v.2 x.1 x.2).mono rfl) (.refl _ s)

theorem State.endDrain_moves (s : State) (c : Commit) : Moves drainParts s (s.endDrain c) :=
  .foldl (fun v t => (State.zeroTable_moves v t).mono rfl) (.foldl (fun v x => (State.lrcDrop_moves v x.1 x.2).mono rfl) (.refl _ s))

/-- Where no table goes, the end of a drain writes no memory. -/
theorem State.endDrain_cellar {s : State} {c : Commit} (none : c.gone = []) : (s.endDrain c).cellar = s.cellar := by
  have dropped : Moves [.lrc] s (c.drops.foldl (fun s x => s.lrcDrop x.1 x.2) s) :=
    .foldl (fun v x => State.lrcDrop_moves v x.1 x.2) (.refl _ s)
  rw [State.endDrain, none]
  exact dropped.cellar_same (by decide) (by decide) (by decide) (by decide) (by decide)

theorem commitDrainDone_completes {s m : State} {c : Commit} (hs : s.running = true) (running : s.trans.commit = some c) (after : c.phase = 5)
    (quiet : c.spans.any (fun x => s.inFlight x.1 x.2 c.epoch) = false)
    (clean : c.spans.foldl (fun (b : Bool × State) x => let (k, s) := b.2.drainRange x.1 x.2; (b.1 && k, s)) (true, s) = (true, m)) :
    Completes .commitDrainDone s fun t =>
      t.reg Obj.transCmdResult = 0x00 ∧ t.trans.commit = none ∧ t.trans.heapFree = s.trans.heapFree + c.freed ∧
        t.trans.leaves = s.trans.leaves ∧ s.regsBut [Obj.transCmdResult] t ∧ (c.gone = [] → t.cellar = m.cellar) := by
  have drained : Moves drainParts s m := Moves.snd clean (s.drainRanges_moves c.spans)
  have ended := drained.trans (m.endDrain_moves c)
  obtain ⟨leaves, -, heap, -⟩ := ended.same (p := .tables) (by decide)
  refine completes_live hs (by rw [exec, execCommitDrainDone]) ?_
  simp only [running, after, quiet, clean, bne_self_eq_false, Bool.or_self, Bool.not_true, Bool.false_eq_true, if_false]
  refine ⟨by simp, rfl, congrArg (· + c.freed) heap, leaves, ?_, fun none => State.endDrain_cellar none⟩
  exact .setReg (.of_regs (fun _ _ => rfl) (ended.same (p := .regs) (by decide))) (by simp) 0

/-! ### A migration that fails (R212) -/

/-- No commit is in progress, its transfers are forgotten, and RESULT reads that the migration has failed. -/
def State.giveUp (s : State) : State :=
  State.setReg { s with
    trans := { s.trans with commit := none },
    fabric := { s.fabric with own := s.fabric.own.filter fun o => match o.kind with | .migrateIn _ _ => false | .migrateOut _ _ => false | _ => true } }
    Obj.transCmdResult 0x07

theorem State.closeFaults_moves (s : State) (ns : List Nat) :
    Moves releaseParts s (ns.foldl (fun (s : State) n => s.closeFault n) s) :=
  .foldl (fun v n => (State.closeFault_moves v n).mono rfl) (.refl _ s)

/-- A migration that fails is given up, and what it held goes on. -/
theorem State.migrFail_moves_giveUp {s : State} {c : Commit} (running : s.trans.commit = some c) : Moves releaseParts s.giveUp s.migrFail := by
  simp only [State.migrFail, running]
  generalize given : State.setReg _ _ _ = v
  rw [show s.giveUp = v from given]
  split
  · exact .ite (((State.retranslate_moves v _ _).mono rfl).trans (State.closeFaults_moves _ _)) (.refl _ v)
  · exact .refl _ v

theorem migrateTimeoutExpiry_completes {s : State} {c : Commit} (hs : s.running = true) (running : s.trans.commit = some c)
    (moving : c.phase = 2 ∨ c.phase = 4)
    (sent : s.fabric.own.any (fun o => match o.kind with | .migrateIn _ _ => true | .migrateOut _ _ => true | _ => false) = true) :
    Completes .migrateTimeoutExpiry s fun t =>
      t.trans.commit = none ∧ t.trans.leaves = s.trans.leaves ∧
      (∀ o ∈ t.fabric.own, (match o.kind with | .migrateIn _ _ => true | .migrateOut _ _ => true | _ => false) = false) ∧
      ∃ m : State, m.reg Obj.transCmdResult = 0x07 ∧ Frame releaseParts m t := by
  have phase : (c.phase == 2 || c.phase == 4) = true := by simpa using moving
  refine completes_live hs (by rw [exec, execMigrateTimeoutExpiry]) ?_
  have released := State.migrFail_moves_giveUp running
  have commit : s.migrFail.trans.commit = s.giveUp.trans.commit := released.same (p := .commit) (by decide)
  obtain ⟨leaves, -⟩ := released.same (p := .tables) (by decide)
  obtain ⟨-, -, -, own, -⟩ := released.same (p := .peers) (by decide)
  have others : ∀ o ∈ s.migrFail.fabric.own, (match o.kind with | .migrateIn _ _ => true | .migrateOut _ _ => true | _ => false) = false := by
    intro o held
    rw [own] at held
    have other := (List.mem_filter.mp held).2
    split at other <;> simp_all
  simp only [running, phase, Bool.true_and]
  split
  · exact ⟨commit, leaves, others, s.giveUp, by simp [State.giveUp], released.frame⟩
  · rename_i unsent
    exact absurd sent unsent

/-- Settles O29: a commit point where the transfers are over, a drain that ends with the old ranges clean, and a migration that passes its limit. -/
theorem commitEventsComplete : Obligations.CommitEventsComplete := by
  unfold Obligations.CommitEventsComplete
  refine fun s c hs running => ⟨fun _ phase => ?_, fun _ phase whole => ?_, fun _ phase whole => ?_,
    fun m phase quiet clean => commitDrainDone_completes hs running phase quiet clean,
    fun moving sent => migrateTimeoutExpiry_completes hs running moving sent⟩
  · refine completes_live hs (by rw [exec, execCommitPoint]) ?_
    simpa [running, phase] using s.commitPoint_pastPoint c
  · refine completes_live hs (by rw [exec, execMigrateInDone]) ?_
    simpa [running, phase, whole] using s.commitPoint_pastPoint c
  · refine completes_live hs (by rw [exec, execMigrateOutDone]) ?_
    simpa [running, phase, whole] using s.commitPoint_pastPoint c

end Sys2Proof.Machine
end

section
namespace Sys2Proof.Machine

open Sys2Proof

/-! ## Walks, holds that expire, and the fault queue (R194, R197, R201, R206 to R208, R214, R236) -/

/-! ### Walks and holds -/

theorem translationWalkDone_completes {s : State} {trk : Fin 16384} {r : Req} {g : Nat} (hs : s.running = true)
    (found : s.pool.reqs.find trk.val = some r) (walks : r.stage = .walk g) :
    (g = (s.guest r.gid).gen → Completes (.translationWalkDone trk) s fun t => t = s.walked trk.val r) ∧
    (g ≠ (s.guest r.gid).gen → Completes (.translationWalkDone trk) s fun t =>
      t.pool.reqs = s.pool.reqs.upd trk.val fun r => { r with stage := .walk (s.guest r.gid).gen }) := by
  refine ⟨fun current => ?_, fun stale => ?_⟩ <;> refine completes_live hs (by rw [exec, execTranslationWalkDone]) ?_
  · simp [found, walks, current]
  · simp [found, walks, stale, State.onReq]

/-- A hold that expires leaves the Porters' work as it is. -/
@[simp] theorem State.markExpired_work (s : State) (h : Hold) : (s.markExpired h).work = s.work := by
  unfold State.markExpired
  dsimp only
  split <;> simp

@[simp] theorem State.markExpired_wb (s : State) (h : Hold) (key : Nat) : (s.markExpired h).wb key = s.wb key := by simp [State.wb]

/-- A granule whose hold expires fails alone, but for those of groups 0x1 and 0x5. -/
theorem State.expireGranule_fails {s : State} {key g c : Nat} {h : Hold} {x : Chunk} (chunk : (s.wb key).chunkOf g = some (c, x))
    (elems : (s.wb key).group ≠ 1) (matrix : (s.wb key).group ≠ 5) : s.expireGranule key g h = s.failGranule key c g 0x06 := by
  have moe : (s.wb key).opc ≠ 0x51 := fun op => matrix (by rw [Waybill.group, op])
  simp [State.expireGranule, State.failElem, chunk, elems, matrix, moe]

/-! ### A fetch whose hold expires (R69, R206) -/

/-- A stream is in no ERROR, at a slot. -/
def State.fetchesAt (s : State) (k n : Nat) : Prop := ∃ x, s.work.streams.find k = some x ∧ x.err = none ∧ x.seq = n

section Fetches

variable {s : State} {k n : Nat} (at_ : s.fetchesAt k n)

include at_

theorem Moves.fetchesAt {ps : List Part} {t : State} (h : Moves ps s t) (hs : Part.streams ∉ ps) : t.fetchesAt k n := by
  obtain ⟨streams, -⟩ := h.same hs
  rwa [State.fetchesAt, streams]

/-- A hold that comes or goes leaves a stream in no ERROR, at its slot. -/
theorem State.onStream_fetchesAt (j : Nat) (o : Option Hold) : (s.onStream j fun t => { t with held := o }).fetchesAt k n := by
  obtain ⟨x, found, fresh, slot⟩ := at_
  by_cases same : k = j
  · exact ⟨{ x with held := o }, by simp [State.onStream, ← same, found], fresh, slot⟩
  · exact ⟨x, by simp [State.onStream, same, found], fresh, slot⟩

theorem State.setHold_fetchesAt (who : HoldOf) (h : Hold) : (s.setHold who h).fetchesAt k n := by
  cases who with
  | fetch j => exact State.onStream_fetchesAt at_ j (some h)
  | req _ => exact at_
  | granule _ _ _ => exact at_
  | ctx _ => exact at_

theorem State.refile_fetchesAt : s.refile.fetchesAt k n := by
  refine List.foldlRecOn (motive := fun u : State => u.fetchesAt k n) _ _ at_ fun u kept x _ => ?_
  have opened := (State.openHold_moves u x.2.1 x.2.2.1 x.2.2.2).fetchesAt kept (by decide)
  dsimp only
  split
  · exact State.setHold_fetchesAt opened _ _
  · exact opened

theorem State.closeFault_fetchesAt (f : Nat) : (s.closeFault f).fetchesAt k n := by
  unfold State.closeFault
  split
  · exact at_
  split
  · exact at_
  refine State.refile_fetchesAt ?_
  have freed : State.fetchesAt { s with trans := { s.trans with faults := s.trans.faults.del f } } k n := at_
  split
  · exact (State.fqAdd_moves _ _).fetchesAt freed (by decide)
  · exact freed

theorem State.unholdFetch_fetchesAt (j : Nat) : (s.unholdFetch j).fetchesAt k n := by
  unfold State.unholdFetch State.endHold
  split
  · exact at_
  · have free := State.onStream_fetchesAt at_ j none
    split
    · exact State.closeFault_fetchesAt free _
    · exact free

/-- A stream whose fetch fails enters ERROR at its slot. -/
theorem State.fetchFail_stream (status : Nat) :
    ∃ y : Stream, (s.fetchFail k status).work.streams.find k = some y ∧ y.err = some (n, status) ∧ y.held = none := by
  obtain ⟨x, found, fresh, rfl⟩ := State.unholdFetch_fetchesAt at_ k
  rw [State.fetchFail, State.streamError_fresh found fresh]
  exact ⟨_, Tab.find_put_self _ _ _, rfl, rfl⟩

end Fetches

theorem faultHoldExpiry_req_completes {s : State} {k : Nat} {r : Req} {h : Hold} (hs : s.running = true)
    (found : s.pool.reqs.find k = some r) (held : r.stage = .hold h) : Completes (.faultHoldExpiry (.req k)) s fun t =>
      t = (((s.markExpired h).leaveQ qidFault k).endReq k 0x06 [] false).endHold h := by
  refine completes_live hs (by rw [exec, execFaultHoldExpiry]) ?_
  simp only [found, held]

theorem faultHoldExpiry_granule_completes {s : State} {k q g : Nat} {h : Hold} (hs : s.running = true)
    (held : (s.wb (wbKey k q)).holds.find g = some h) : Completes (.faultHoldExpiry (.granule k q g)) s fun t =>
      t = (s.markExpired h).expireGranule (wbKey k q) g h := by
  refine completes_live hs (by rw [exec, execFaultHoldExpiry]) ?_
  simp only [held]

theorem faultHoldExpiry_fetch_completes {s : State} {k : Nat} {h : Hold} {x : Stream} (hs : s.running = true)
    (found : s.work.streams.find k = some x) (held : x.held = some h) : Completes (.faultHoldExpiry (.fetch k)) s fun t =>
      t = (s.markExpired h).fetchFail k 0x06 := by
  refine completes_live hs (by rw [exec, execFaultHoldExpiry]) ?_
  simp only [Tab.getD_of_find _ found, held]

theorem faultHoldExpiry_ctx_completes {s : State} {r : Nat} {h : Hold} (hs : s.running = true)
    (held : (s.work.ctxs.getD r {}).hold = some h) : Completes (.faultHoldExpiry (.ctx r)) s fun t => t = (s.markExpired h).nextBack r := by
  refine completes_live hs (by rw [exec, execFaultHoldExpiry]) ?_
  simp only [held]

/-! ### The fault queue (R208, R214) -/

theorem faultQueueRecord_completes {s : State} {r : FqRec} {rest : List FqRec} (hs : s.running = true) (waits : s.trans.fq = r :: rest)
    (on_ : s.reg Obj.fqLog2 ≠ 0) (room : wrapSub 32 s.trans.fqTail (s.reg Obj.fqHead) < 2 ^ s.reg Obj.fqLog2) :
    Completes .faultQueueRecord s fun t =>
      t.trans.fq = rest ∧ t.trans.fqTail = (s.trans.fqTail + 1) % 2 ^ 32 ∧ ∃ m : State, Frame [.faults] s m ∧ t = m.originate
        { dst := s.reg Obj.fqEpid % 2 ^ 20, pkey := 0xFFFF, tc := 3, opc := 0x03, len := 1,
          addr := s.reg Obj.fqBase + 32 * (s.trans.fqTail % 2 ^ s.reg Obj.fqLog2), xw := 32,
          payload := padBytes 64 (s.fqBytes r s.trans.fqTail (s.reg Obj.fqLog2)) } := by
  refine completes_live hs (by rw [exec, execFaultQueueRecord]) ?_
  have taken : Moves [.faults] s { s with trans := { s.trans with fq := rest, fqTail := (s.trans.fqTail + 1) % 2 ^ 32 } } :=
    moves_mk.mpr (.record (.refl _ s))
  simp only [waits, bne_iff_ne.mpr on_, room, decide_true, Bool.and_self, if_true]
  obtain ⟨-, -, fq, tail⟩ := (State.originate_moves _ _ _).same (p := .faults) (by decide)
  exact ⟨fq, tail, _, taken.frame, rfl⟩

theorem fqHeadWrite_completes {s : State} (v : Nat) (hs : s.served = true) : Completes (.fqHeadWrite v) s fun t =>
    t.reg Obj.fqHead = v % 2 ^ 32 ∧ s.regsBut [Obj.fqHead] t :=
  completes_managed hs (by rw [exec, execFqHeadWrite]) ⟨by simp, .setReg (fun _ _ => rfl) (List.mem_singleton_self _) _⟩

/-- A configuration object is neither FQ_HEAD nor the count of records lost. -/
theorem fqObject_ne (which : Fin 3) : fqObject which ≠ Obj.fqHead ∧ fqObject which ≠ Obj.zmLost := by
  revert which
  decide

/-- A configuration written starts the queue again: waiting records stay for a queue that is on. -/
theorem State.fqConfig_effect {s : State} {obj : Nat} (v : Nat) (head : obj ≠ Obj.fqHead) (lost : obj ≠ Obj.zmLost) :
    (s.fqConfig obj v).reg obj = v ∧ (s.fqConfig obj v).reg Obj.fqHead = 0 ∧ (s.fqConfig obj v).trans.fqTail = 0 ∧
    (s.fqConfig obj v).trans.fq = (if (s.fqConfig obj v).reg Obj.fqLog2 = 0 then [] else s.trans.fq) ∧
    s.regsBut [obj, Obj.fqHead, Obj.zmLost] (s.fqConfig obj v) := by
  have written : s.regsBut [obj, Obj.fqHead, Obj.zmLost] ((s.setReg obj v).setReg Obj.fqHead 0) :=
    .setReg (.setReg (fun _ _ => rfl) (by simp) _) (by simp) _
  have size : Obj.fqLog2 ≠ Obj.zmLost := by decide
  have reads : ((s.setReg obj v).setReg Obj.fqHead 0).reg obj = v := by simp [head]
  have starts : ((s.setReg obj v).setReg Obj.fqHead 0).reg Obj.fqHead = 0 := by simp
  unfold State.fqConfig
  dsimp only
  split
  · rename_i off
    refine ⟨?_, ?_, rfl, ?_, .setReg (written.of_regs rfl) (by simp) _⟩
    · rw [State.reg_setReg_ne _ _ lost]
      exact reads
    · rw [State.reg_setReg_ne _ _ (by decide)]
      exact starts
    · rw [State.reg_setReg_ne _ _ size]
      exact (if_pos (beq_iff_eq.mp off)).symm
  · rename_i on_
    exact ⟨reads, starts, rfl, (if_neg fun off => on_ (beq_iff_eq.mpr off)).symm, written.of_regs rfl⟩

theorem fqConfigWrite_completes {s : State} {which : Fin 3} {v : Nat} (hs : s.served = true) (ok : fqOk which v = true) :
    Completes (.fqConfigWrite which v) s fun t =>
      t.reg (fqObject which) = v ∧ t.reg Obj.fqHead = 0 ∧ t.trans.fqTail = 0 ∧
      t.trans.fq = (if t.reg Obj.fqLog2 = 0 then [] else s.trans.fq) ∧ s.regsBut [fqObject which, Obj.fqHead, Obj.zmLost] t := by
  refine completes_managed hs (by rw [exec, execFqConfigWrite]) ?_
  rw [if_pos ok]
  exact State.fqConfig_effect v (fqObject_ne which).1 (fqObject_ne which).2

/-! ### A Ledger die that is lost (R197, R236) -/

theorem mem_of_survivors {α : Type} {base : Nat} {l : List α} {x : α} (h : x ∈ survivors base l) : x ∈ l := by
  obtain ⟨y, kept, rfl⟩ := List.mem_map.mp h
  exact List.fst_mem_of_mem_zipIdx (List.mem_filter.mp kept).1

/-- A Ledger die is absent, with its LRC lines and its part of the translation cache, and the device holds for recovery. -/
def State.withoutLedger (s : State) (die : Nat) : State :=
  let n := s.freeCount
  State.useFree (State.recovery { s with
    power := { s.power with present := clearBit s.power.present (dieLG die) },
    pool := { s.pool with lrc := ⟨survivors n s.pool.lrc.rows⟩ },
    trans := { s.trans with cache := survivors (n + s.pool.lrc.size) s.trans.cache } }) (s.pool.lrc.size + s.trans.cache.length)

theorem State.withoutLedger_moves (s : State) (die : Nat) : Moves [.present, .lrc, .tlbs, .phase, .free] s (s.withoutLedger die) :=
  (Moves.trans (moves_mk.mpr (.record (.refl _ s))) ((State.recovery_moves _).mono rfl)).trans ((State.useFree_moves _ _).mono rfl)

/-- What the snoops sent again and the entry in the log may change. -/
def afterLossParts : List Part :=
  [.egress, .counters, .samples, .log, .irqPending, .requests, .coherence, .chans, .dram, .out]

theorem ledgerDieLost_completes {s : State} {die : Fin 6} (hs : s.running = true) (present : s.hasDie (dieLG die.val) = true) :
    Completes (.ledgerDieLost die) s fun t =>
      t.power.present = clearBit s.power.present (dieLG die.val) ∧ (∀ e ∈ t.trans.cache, e ∈ s.trans.cache) ∧
        (∀ r ∈ t.pool.lrc.rows, r ∈ s.pool.lrc.rows) ∧ t.trans.leaves = s.trans.leaves ∧ t.trans.tlbs = s.trans.tlbs ∧
        t.pool.guests = s.pool.guests ∧ t.obs.recoveryHold = true ∧ ∃ m : State, Frame [.present, .lrc, .tlbs, .phase, .free] s m ∧
          Frame [.log, .out] (m.resnoop (die.val / 2)) t := by
  refine completes_live hs (by rw [exec, execLedgerDieLost]) ?_
  simp only [present, Bool.not_true, Bool.false_eq_true, if_false]
  have snooped := State.resnoop_moves (s.withoutLedger die.val) (die.val / 2)
  have logged := State.log_moves ((s.withoutLedger die.val).resnoop (die.val / 2)) 0x12 (dieLG die.val) (dieLG die.val) 0 0 0
  have after := (snooped.mono (ps := afterLossParts) rfl).trans (logged.mono rfl)
  obtain ⟨leaves, -⟩ := after.same (p := .tables) (by decide)
  obtain ⟨cache, tlbs⟩ := after.same (p := .tlbs) (by decide)
  obtain ⟨guests, -⟩ := after.same (p := .guests) (by decide)
  obtain ⟨-, lrc, -⟩ := after.same (p := .lrc) (by decide)
  obtain ⟨-, hold⟩ := after.same (p := .phase) (by decide)
  exact ⟨after.same (p := .present) (by decide), fun e kept => mem_of_survivors (cache ▸ kept), fun r kept => mem_of_survivors (lrc ▸ kept),
    leaves, tlbs, guests, hold, _, (s.withoutLedger_moves die.val).frame, logged.frame⟩

/-- Settles O30: walks, the four kinds of hold that expire, the fault queue and its registers, and the loss of a Ledger die. -/
theorem faultsComplete : Obligations.FaultsComplete := by
  unfold Obligations.FaultsComplete
  refine ⟨fun _ _ _ _ hs found walks => translationWalkDone_completes hs found walks,
    fun _ _ _ _ hs found held => faultHoldExpiry_req_completes hs found held, fun s k q g h hs held => ⟨faultHoldExpiry_granule_completes hs held,
      fun c x chunk elems matrix => ?_⟩, fun s k h x hs found held fresh => ?_,
    fun _ _ _ hs held => faultHoldExpiry_ctx_completes hs held, fun _ _ _ hs waits on_ room => faultQueueRecord_completes hs waits on_ room,
    fun _ v hs => fqHeadWrite_completes v hs, fun _ _ _ hs ok => fqConfigWrite_completes hs ok,
    fun _ _ hs present => ledgerDieLost_completes hs present⟩
  · obtain ⟨t, step, rfl⟩ := faultHoldExpiry_granule_completes hs held
    exact ⟨_, step, State.expireGranule_fails (by simpa using chunk) (by simpa using elems) (by simpa using matrix)⟩
  · obtain ⟨t, step, rfl⟩ := faultHoldExpiry_fetch_completes hs found held
    exact ⟨_, step, rfl, State.fetchFail_stream ⟨x, by simpa using found, fresh, rfl⟩ 0x06⟩

end Sys2Proof.Machine
end

section
namespace Sys2Proof.Machine

open Sys2Proof

/-! ## The hearth's directory: what an operation on a line leaves of it (R223, R224) -/

theorem Moves.hearth_same {ps : List Part} {s t : State} (h : Moves ps s t) (hc : Part.coherence ∉ ps) (hr : Part.rmap ∉ ps) :
    t.hearth = s.hearth := by
  obtain ⟨ces, dir, queue, late, flush, swept, kept⟩ := h.same hc
  have rmap : t.hearth.rmap = s.hearth.rmap := h.same hr
  cases _ : s.hearth
  cases _ : t.hearth
  simp_all

@[simp] theorem State.hint_hearth (s : State) (l : Nat) (on : Bool) : (s.hint l on).hearth = s.hearth :=
  (State.hint_moves s l on).hearth_same (by decide) (by decide)

@[simp] theorem State.setDir_hearth (s : State) (l : Nat) (d : Dir) : (s.setDir l d).hearth = { s.hearth with dir := s.hearth.dir.put l d } :=
  State.hint_hearth _ _ _

@[simp] theorem State.dropDir_hearth (s : State) (l : Nat) : (s.dropDir l).hearth = { s.hearth with dir := s.hearth.dir.del l } :=
  State.hint_hearth _ _ _

@[simp] theorem State.hread_hearth (s : State) (l : Nat) : (s.hread l).2.hearth = s.hearth :=
  (State.hread_moves s l).hearth_same (by decide) (by decide)

@[simp] theorem State.hwrite_hearth (s : State) (l : Nat) (d : Bytes) (poi : Bool) : (s.hwrite l d poi).hearth = s.hearth :=
  (State.hwrite_moves s l d poi).hearth_same (by decide) (by decide)

@[simp] theorem State.hlose_hearth (s : State) (l : Nat) : (s.hlose l).hearth = s.hearth :=
  (State.hlose_moves s l).hearth_same (by decide) (by decide)

@[simp] theorem State.grantMsg_hearth (s : State) (t : Nat) (r : Req) (opc : Nat) (data : Bytes) (poi : Bool) :
    (s.grantMsg t r opc data poi).hearth = s.hearth := (State.grantMsg_moves s t r opc data poi).hearth_same (by decide) (by decide)

@[simp] theorem State.hdone_hearth (s : State) (t : Nat) : (s.hdone t).hearth = s.hearth :=
  (State.hdone_moves s t).hearth_same (by decide) (by decide)

@[simp] theorem State.countLedger_hearth (s : State) (ev sel : Nat) : (s.countLedger ev sel).hearth = s.hearth :=
  (State.countLedger_moves s ev sel).hearth_same (by decide) (by decide)

@[simp] theorem State.sendSnoop_hearth (s : State) (l : Nat) (e : Ce) (opc tag fwd : Nat) : (s.sendSnoop l e opc tag fwd).hearth = s.hearth :=
  (State.originate_moves _ _ _).hearth_same (by decide) (by decide)

@[simp] theorem State.setDir_dirOf (s : State) (l : Nat) (d : Dir) : (s.setDir l d).dirOf l = some d := by simp [State.dirOf]

@[simp] theorem State.dropDir_dirOf (s : State) (l : Nat) : (s.dropDir l).dirOf l = none := by simp [State.dirOf]

theorem State.dirOf_congr {s t : State} (h : t.hearth = s.hearth) (l : Nat) : t.dirOf l = s.dirOf l := by simp only [State.dirOf, h]

/-- No FLUSH and no REMOVE_CE runs: nothing is left for it to do (R234, R239). -/
theorem State.flushOn_idle {s : State} (idle : s.hearth.flush = none) : s.flushOn = s := by simp only [State.flushOn, idle]

/-- A new entry stands for its line as it was made, in a way of its set (R223, R232). -/
theorem State.hnew_dirOf (s : State) (l : Nat) (d : Dir) : ∃ w, (s.hnew l d).dirOf l = some { d with way := w } :=
  ⟨_, State.setDir_dirOf _ _ _⟩

/-! ## A coherent request at its line (Table 7.5) -/

theorem State.perform_coherent (s : State) (k : Nat) {r : Req} (h : isCoh r.p.opc = true) : s.perform k r = s.coherent k r := by
  obtain ⟨low, high⟩ : 0x10 ≤ r.p.opc ∧ r.p.opc ≤ 0x14 := by simpa [isCoh] using h
  have load : r.p.opc ≠ 0x01 := by omega
  have store : r.p.opc ≠ 0x02 ∧ r.p.opc ≠ 0x03 := by omega
  have atomic : r.p.opc ≠ 0x04 := by omega
  simp [State.perform, load, store, atomic]

theorem State.coherent_of_unregistered {s : State} {k : Nat} {r : Req} (unknown : s.ceOf r.p.src = none) :
    s.coherent k r = s.endReq k 0x07 [] false := by
  simp only [State.coherent, unknown]

section

variable {s : State} {k c : Nat} {r : Req} {e : Ce} {x : Nat × Nat} {xs : List (Nat × Nat)} (pas : r.pas = x :: xs)
  (ce : s.ceOf r.p.src = some (c, e))

include pas ce

theorem State.coherent_of_fenced (fenced : e.fenced = true) : s.coherent k r = s.endReq k 0x07 [] false := by
  simp [State.coherent, ce, pas, fenced]

variable (active : e.fenced = false)

include active

theorem State.coherent_of_wb (opc : r.p.opc = 0x13) : s.coherent k r = s.takeWb k r (s.hline x.1) c := by
  simp [State.coherent, ce, pas, active, opc]

variable (not_wb : r.p.opc ≠ 0x13) (not_evc : r.p.opc ≠ 0x14)

include not_wb not_evc

theorem State.coherent_of_waits (waits : s.hwaits k (s.hline x.1) = true) : s.coherent k r = s.hqueue (s.hline x.1) k := by
  simp [State.coherent, ce, pas, active, not_wb, not_evc, waits]

variable (turn : s.hwaits k (s.hline x.1) = false)

include turn

theorem State.coherent_of_DI (di : s.dirOf (s.hline x.1) = none) : s.coherent k r = s.serveDI k r (s.hline x.1) c := by
  simp [State.coherent, ce, pas, active, not_wb, not_evc, turn, di]

/-- What serves a request at a tracked line leaves the entry d', which is not over: awaited answers keep it, or it is not busy. -/
theorem State.coherent_of_tracked {d d' : Dir} {u : State} (tracked : s.dirOf (s.hline x.1) = some d)
    (served : (if d.st == 2 then s.serveDX k r (s.hline x.1) c d else s.serveDS k r (s.hline x.1) c d) = u)
    (leaves : u.dirOf (s.hline x.1) = some d') (awaits : d'.busy = true → d'.snoops.isEmpty = false) : s.coherent k r = u := by
  simp only [State.coherent, ce, pas, active, turn, tracked, served, leaves]
  cases busy : d'.busy
  · simp [not_wb, not_evc]
  · simp [not_wb, not_evc, State.hfinish, awaits busy]

end

/-- From DI a request is granted in the entry that it makes, E or M as R219 says. -/
theorem State.serveDI_dirOf {s : State} (k : Nat) (r : Req) {l : Nat} (c : Nat) (way : s.hasWay l = true)
    (read : (s.hread l).1.waits = false) : ∃ w, (s.serveDI k r l c).dirOf l = some
      { st := if r.p.opc ≠ 0x10 ∨ (s.hread l).2.mayGrantE r l = true then 2 else 1, ptrs := [c], way := w } := by
  obtain ⟨w, made⟩ := (s.hread l).2.hnew_dirOf l { st := if r.p.opc != 0x10 || (s.hread l).2.mayGrantE r l then 2 else 1, ptrs := [c] }
  refine ⟨w, ?_⟩
  simp only [State.serveDI, way, read, Bool.not_true, Bool.false_eq_true, if_false]
  rw [State.dirOf_congr (State.hdone_hearth _ _), State.dirOf_congr (State.grantMsg_hearth _ _ _ _ _ _), made]
  simp

/-- From DS a read adds a sharer (R223). -/
theorem State.serveDS_read_dirOf {s : State} (k : Nat) {r : Req} {l : Nat} (c : Nat) (d : Dir) (opc : r.p.opc = 0x10)
    (read : (s.hread l).1.waits = false) : (s.serveDS k r l c d).dirOf l = some { d.share c with rpl := 0 } := by
  simp only [State.serveDS, opc, read, beq_self_eq_true, if_true, Bool.false_eq_true, if_false]
  rw [State.dirOf_congr (State.hdone_hearth _ _), State.dirOf_congr (State.grantMsg_hearth _ _ _ _ _ _), State.setDir_dirOf]

theorem Dir.share_st (d : Dir) (c : Nat) : (d.share c).st = d.st := by
  unfold Dir.share
  split
  · rfl
  · split
    · rfl
    · split <;> rfl

/-- A snoop to an endpoint that serves is awaited in the entry of its line (R217, R226). -/
theorem State.snoop_dirOf {s : State} {l o : Nat} {f : Ce} {d : Dir} (opc epid tag : Nat) (found : s.hearth.ces.find o = some f)
    (serves : f.fenced = false) (tracked : s.dirOf l = some d) :
    (s.snoop l o opc epid tag).dirOf l = some { d with snoops := d.snoops ++ [(o, opc, s.snoopTag o f.epid, s.now)] } := by
  simp only [State.snoop, found, serves, tracked, Bool.false_eq_true, if_false]
  rw [State.dirOf_congr (State.sendSnoop_hearth _ _ _ _ _ _), State.setDir_dirOf]

/-- The entry of a DX line whose owner another endpoint's request has snooped, but for the snoop. -/
def Dir.snooping (d : Dir) (read : Bool) (k o : Nat) : Dir :=
  { d with st := if read then 4 else 5, grant := if read then .read k else .own k false, owner := o, rpl := 0, snoops := [] }

theorem State.serveDX_dirOf {s : State} (k : Nat) (r : Req) {l c o : Nat} {os : List Nat} {d : Dir} {f : Ce} (ptrs : d.ptrs = o :: os)
    (other : o ≠ c) (found : s.hearth.ces.find o = some f) (serves : f.fenced = false) : ∃ tag sent,
    (s.serveDX k r l c d).dirOf l = some
      { d.snooping (r.p.opc == 0x10) k o with snoops := [(o, if r.p.opc == 0x10 then 0x19 else 0x1A, tag, sent)] } := by
  have head : d.ptrs.headD 0 = o := by rw [ptrs]; rfl
  have apart : (o == c) = false := by simpa using other
  unfold State.serveDX
  simp only [head, apart, Bool.false_eq_true, if_false]
  exact ⟨_, _, State.snoop_dirOf (d := d.snooping (r.p.opc == 0x10) k o) _ _ _ (by simpa using found) serves (State.setDir_dirOf _ _ _)⟩

/-- The WB of a DX line's owner leaves it DI. -/
theorem State.takeWb_owner_dirOf {s : State} (k : Nat) (r : Req) {l c : Nat} {d : Dir} (tracked : s.dirOf l = some d)
    (dx : d.st = 2) (owner : d.holder = c) (idle : s.hearth.flush = none) : (s.takeWb k r l c).dirOf l = none := by
  simp only [State.takeWb, tracked, dx, owner, beq_self_eq_true, Bool.and_self, if_true]
  rw [State.flushOn_idle]
  · rw [State.dirOf_congr (State.hdone_hearth _ _), State.dirOf_congr (State.grantMsg_hearth _ _ _ _ _ _), State.dropDir_dirOf]
  · split <;> simp [idle]

/-- Settles O9: each state of Table 7.5 in which a request finds its line. -/
theorem coherentRequestsAreServed : Obligations.CoherentRequestsAreServed := by
  unfold Obligations.CoherentRequestsAreServed
  intro s k c r e x xs _ coh pas
  rw [State.perform_coherent s k coh]
  refine ⟨State.coherent_of_unregistered, State.coherent_of_fenced pas, fun ce active =>
    ⟨fun wb evc busy => ?_, fun wb evc turn di way read => ?_,
    fun opc turn d tracked ds read => ?_, fun wb evc turn d o os f tracked dx ptrs other found serves => ?_,
    fun opc d tracked dx owner idle => ?_⟩⟩
  · exact State.coherent_of_waits pas ce active wb evc (by simp [State.hwaits, busy])
  · obtain ⟨w, granted⟩ := State.serveDI_dirOf k r c way read
    exact ⟨_, (State.dirOf_congr (congrArg _ (State.coherent_of_DI pas ce active wb evc turn di)) _).trans granted, rfl, rfl⟩
  · have shared := State.serveDS_read_dirOf k c d opc read
    rw [State.coherent_of_tracked pas ce active (by omega) (by omega) turn tracked (by simp [ds]) shared (by simp [Dir.busy, Dir.share_st, ds])]
    exact shared
  · obtain ⟨tag, sent, snooped⟩ := State.serveDX_dirOf k r ptrs other found serves
    rw [State.coherent_of_tracked pas ce active wb evc turn tracked (by simp [dx]) snooped (by simp)]
    exact ⟨_, snooped, by simp [Dir.snooping], rfl, by simp [Dir.snooping], by simp⟩
  · rw [State.coherent_of_wb pas ce active opc]
    exact State.takeWb_owner_dirOf k r tracked dx owner idle

end Sys2Proof.Machine
end

section
namespace Sys2Proof.Machine

open Sys2Proof

/-! ## HEARTH_CMD (R217, R231, R234, R238, R239) -/

/-- A HEARTH_CMD that ends with RESULT has written OP and RESULT and no other object, where what it does before writes none. -/
theorem State.hearthResult_regs {s u : State} (code v : Nat) (h : u.regs = (s.setReg Obj.hearthCmdOp code).regs) :
    (u.hearthResult v).reg Obj.hearthCmdResult = v ∧ s.regsBut [Obj.hearthCmdOp, Obj.hearthCmdResult] (u.hearthResult v) :=
  ⟨by simp [State.hearthResult], .setReg (.of_regs (.setReg (fun _ _ => rfl) (by simp) code) h) (by simp) v⟩

theorem registerCe_completes {s : State} {c : Nat} (hs : s.accepts Obj.hearthCmdResult) (free : s.hearth.ces.lowestFree 4096 = some c) :
    Completes .registerCe s fun t =>
      t.hearth.ces = s.hearth.ces.put c { epid := s.reg Obj.hearthCmdEpid % 2 ^ 20, pkey := s.reg Obj.hearthCmdPkey } ∧
        t.reg Obj.hearthCmdCeid = c ∧ t.reg Obj.hearthCmdResult = 0x00 ∧
        s.regsBut [Obj.hearthCmdOp, Obj.hearthCmdCeid, Obj.hearthCmdResult] t := by
  refine completes_record hs (by rw [exec, execRegisterCe, hearthCmd]) ?_
  simp only [State.setReg_hearth, free, State.reg_setReg_ne s 1 (show Obj.hearthCmdEpid ≠ Obj.hearthCmdOp by decide),
    State.reg_setReg_ne s 1 (show Obj.hearthCmdPkey ≠ Obj.hearthCmdOp by decide)]
  refine ⟨rfl, ?_, by simp [State.hearthResult], ?_⟩
  · simp [State.hearthResult, show Obj.hearthCmdCeid ≠ Obj.hearthCmdResult by decide]
  · exact .setReg (.setReg (.of_regs (.setReg (fun _ _ => rfl) (by simp) 1) rfl) (by simp) c) (by simp) 0

/-- The registered endpoints once a FLUSH or REMOVE_CE is over: the latter frees its CEID. -/
def endpointsLeft (ces : Tab Ce) : Option Nat → Tab Ce
  | some c => ces.del c
  | none => ces

/-- With nothing of its range cached, a FLUSH or REMOVE_CE is over. -/
theorem State.flushOn_over {s : State} {a b : Nat} {ce : Option Nat} (runs : s.hearth.flush = some (a, b, ce)) (clean : s.flushLeft = []) :
    s.flushOn = State.hearthResult { s with hearth := { s.hearth with flush := none, swept := [], ces := endpointsLeft s.hearth.ces ce } } 0 := by
  simp only [State.flushOn, runs, clean, List.foldl_nil, List.isEmpty_nil, if_true]
  cases ce <;> rfl

theorem State.mayHold_congr {s t : State} (ces : t.hearth.ces = s.hearth.ces) (swept : t.hearth.swept = s.hearth.swept)
    (reqs : t.pool.reqs = s.pool.reqs) (l c : Nat) (d : Dir) : t.mayHold l c d = s.mayHold l c d := by
  simp only [State.mayHold, State.holders, State.ceActive, State.grantee, State.ceOf, ces, swept, reqs]

/-- A FLUSH or REMOVE_CE has started over the lines from a to b. -/
def State.flushing (s : State) (a b : Nat) (ce : Option Nat) : State :=
  State.hearthResult { s with hearth := { s.hearth with flush := some (a, b, ce) } } 0x01

/-- A FLUSH of a range of which nothing is cached is over at once. -/
theorem State.flushing_range {s : State} {a b : Nat} (clear : s.hearth.dir.rows.any (fun r => decide (a ≤ r.1) && decide (r.1 < b)) = false) :
    (s.flushing a b none).flushLeft = [] :=
  List.filter_eq_nil_iff.mpr (List.any_eq_false.mp clear)

/-- A REMOVE_CE of an endpoint that may hold no line is over at once. -/
theorem State.flushing_endpoint {s : State} {c : Nat}
    (clear : s.hearth.dir.rows.any (fun r => decide (r.1 < 2 ^ 30) && s.mayHold r.1 c r.2) = false) :
    (s.flushing 0 (2 ^ 30) (some c)).flushLeft = [] := by
  refine List.filter_eq_nil_iff.mpr fun r mem => ?_
  have out := List.any_eq_false.mp clear r mem
  have same : (s.flushing 0 (2 ^ 30) (some c)).mayHold r.1 c r.2 = s.mayHold r.1 c r.2 := State.mayHold_congr rfl rfl rfl _ _ _
  change ¬(decide (0 ≤ r.1) && decide (r.1 < 2 ^ 30) && (s.flushing 0 (2 ^ 30) (some c)).mayHold r.1 c r.2) = true
  rw [same, decide_eq_true (Nat.zero_le r.1), Bool.true_and]
  exact out

/-- A FLUSH or REMOVE_CE with nothing to recall has ended, with RESULT 0 and the directory as it was. -/
theorem State.flushing_over {s : State} {code a b : Nat} {ce : Option Nat}
    (clean : ((s.setReg Obj.hearthCmdOp code).flushing a b ce).flushLeft = []) :
    ∃ t, ((s.setReg Obj.hearthCmdOp code).flushing a b ce).flushOn = t ∧
      t.hearth = { s.hearth with flush := none, swept := [], ces := endpointsLeft s.hearth.ces ce } ∧
        t.reg Obj.hearthCmdResult = 0 ∧ s.regsBut [Obj.hearthCmdOp, Obj.hearthCmdResult] t := by
  refine ⟨_, State.flushOn_over rfl clean, rfl, by simp [State.hearthResult], ?_⟩
  have begun : s.regsBut [Obj.hearthCmdOp, Obj.hearthCmdResult] ((s.setReg Obj.hearthCmdOp code).flushing a b ce) :=
    (State.hearthResult_regs code 0x01 rfl).2.of_regs rfl
  exact (begun.of_regs rfl).setReg (by simp) 0

theorem removeCe_completes {s : State} (hs : s.accepts Obj.hearthCmdResult) (there : s.hearth.ces.has (s.reg Obj.hearthCmdCeid) = true)
    (clear : s.hearth.dir.rows.any (fun r => decide (r.1 < 2 ^ 30) && s.mayHold r.1 (s.reg Obj.hearthCmdCeid) r.2) = false) :
    Completes .removeCe s fun t =>
      t.hearth.ces = s.hearth.ces.del (s.reg Obj.hearthCmdCeid) ∧ t.hearth.flush = none ∧ t.hearth.dir = s.hearth.dir ∧
        t.reg Obj.hearthCmdResult = 0x00 ∧ s.regsBut [Obj.hearthCmdOp, Obj.hearthCmdResult] t := by
  refine completes_record hs (by rw [exec, execRemoveCe, hearthCmd]) ?_
  have ceid : (s.setReg Obj.hearthCmdOp 0x02).reg Obj.hearthCmdCeid = s.reg Obj.hearthCmdCeid := s.reg_setReg_ne _ (by decide)
  simp only [ceid, State.setReg_hearth, there, if_true]
  obtain ⟨t, ends, hearth, result, kept⟩ := State.flushing_over (code := 0x02) (State.flushing_endpoint clear)
  exact ends ▸ ⟨congrArg (·.ces) hearth, congrArg (·.flush) hearth, congrArg (·.dir) hearth, result, kept⟩

theorem resetCe_completes {s : State} {e : Ce} (hs : s.accepts Obj.hearthCmdResult) (found : s.hearth.ces.find (s.reg Obj.hearthCmdCeid) = some e)
    (walked : e.walking = false) : Completes .resetCe s fun t =>
      t.hearth.ces = s.hearth.ces.put (s.reg Obj.hearthCmdCeid) { e with fenced := false } ∧
        t.reg Obj.hearthCmdResult = 0x00 ∧ s.regsBut [Obj.hearthCmdOp, Obj.hearthCmdResult] t := by
  refine completes_record hs (by rw [exec, execResetCe, hearthCmd]) ?_
  have ceid : (s.setReg Obj.hearthCmdOp 0x03).reg Obj.hearthCmdCeid = s.reg Obj.hearthCmdCeid := s.reg_setReg_ne _ (by decide)
  simp only [ceid, State.setReg_hearth, found, walked, Bool.false_eq_true, if_false]
  exact ⟨rfl, State.hearthResult_regs 0x03 0 rfl⟩

theorem queryCe_completes {s : State} (hs : s.accepts Obj.hearthCmdResult) : Completes .queryCe s fun t =>
    (t.reg Obj.hearthCmdCeState = match s.hearth.ces.find (s.reg Obj.hearthCmdCeid) with
      | none => 0 | some e => if e.fenced then 2 else 1) ∧
      t.reg Obj.hearthCmdResult = 0x00 ∧ s.regsBut [Obj.hearthCmdOp, Obj.hearthCmdCeState, Obj.hearthCmdResult] t := by
  refine completes_record hs (by rw [exec, execQueryCe, hearthCmd]) ?_
  have ceid : (s.setReg Obj.hearthCmdOp 0x04).reg Obj.hearthCmdCeid = s.reg Obj.hearthCmdCeid := s.reg_setReg_ne _ (by decide)
  simp only [ceid, State.setReg_hearth]
  refine ⟨?_, by simp [State.hearthResult], .setReg (.setReg (.setReg (fun _ _ => rfl) (by simp) 0x04) (by simp) _) (by simp) 0⟩
  exact (State.reg_setReg_ne _ _ (by decide)).trans ((State.reg_setReg _ _ _ _).trans (if_pos rfl))

theorem flush_completes {s : State} (hs : s.accepts Obj.hearthCmdResult)
    (range : s.hearthRange (s.reg Obj.hearthCmdPa) (s.reg Obj.hearthCmdLen) = true)
    (clear : s.hearth.dir.rows.any (fun r => decide (s.hline (s.reg Obj.hearthCmdPa) ≤ r.1) &&
      decide (r.1 < s.hline (s.reg Obj.hearthCmdPa) + s.reg Obj.hearthCmdLen / 64)) = false) : Completes .flush s fun t =>
      t.hearth.flush = none ∧ t.hearth.dir = s.hearth.dir ∧ t.hearth.ces = s.hearth.ces ∧ t.reg Obj.hearthCmdResult = 0x00 ∧
        s.regsBut [Obj.hearthCmdOp, Obj.hearthCmdResult] t := by
  refine completes_record hs (by rw [exec, execFlush, hearthCmd]) ?_
  have pa : (s.setReg Obj.hearthCmdOp 0x05).reg Obj.hearthCmdPa = s.reg Obj.hearthCmdPa := s.reg_setReg_ne _ (by decide)
  have len : (s.setReg Obj.hearthCmdOp 0x05).reg Obj.hearthCmdLen = s.reg Obj.hearthCmdLen := s.reg_setReg_ne _ (by decide)
  simp only [pa, len]
  rw [if_pos (by exact range)]
  obtain ⟨t, ends, hearth, result, kept⟩ := State.flushing_over (code := 0x05) (State.flushing_range clear)
  exact ends ▸ ⟨congrArg (·.flush) hearth, congrArg (·.dir) hearth, congrArg (·.ces) hearth, result, kept⟩

theorem queryLine_completes {s : State} (hs : s.accepts Obj.hearthCmdResult) (range : s.hearthRange (s.reg Obj.hearthCmdPa) 64 = true) :
    Completes .queryLine s fun t =>
      (t.blob Obj.hearthCmdEntry = leBytes 16 (match s.dirOf (s.hline (s.reg Obj.hearthCmdPa)) with
        | some d => dirBits (s.hline (s.reg Obj.hearthCmdPa)) d | none => 0)) ∧
        t.reg Obj.hearthCmdResult = 0x00 ∧ s.regsBut [Obj.hearthCmdOp, Obj.hearthCmdResult] t := by
  refine completes_record hs (by rw [exec, execQueryLine, hearthCmd]) ?_
  have pa : (s.setReg Obj.hearthCmdOp 0x06).reg Obj.hearthCmdPa = s.reg Obj.hearthCmdPa := s.reg_setReg_ne _ (by decide)
  simp only [pa]
  rw [if_pos (by exact range)]
  exact ⟨(State.blob_setReg _ _ _ _).trans ((State.blob_setBlob _ _ _ _).trans (if_pos rfl)), State.hearthResult_regs 0x06 0 rfl⟩

/-- Settles O10: each HEARTH_CMD that the record accepts. -/
theorem hearthCommandsComplete : Obligations.HearthCommandsComplete := by
  unfold Obligations.HearthCommandsComplete
  exact ⟨fun _ _ hs free => registerCe_completes hs free, fun _ hs there clear => removeCe_completes hs there clear,
    fun _ _ hs found walked => resetCe_completes hs found walked, fun _ hs => queryCe_completes hs,
    fun _ hs range clear => flush_completes hs range clear, fun _ hs range => queryLine_completes hs range⟩

end Sys2Proof.Machine
end

section
namespace Sys2Proof.Machine

open Sys2Proof

/-! ## Coherence packets (R217, R219, R224, R225, R281) -/

/-- A guest's request that holds a tracker, and is neither a doorbell nor firmware's, goes on to its access. -/
theorem State.begin_access {u : State} {c : Claim} (k : Nat) (h : c.p.opc < 0x30) : u.begin k c = u.access k := by
  have mgmt : c.p.opc ≠ 0x30 ∧ c.p.opc ≠ 0x31 ∧ c.p.opc ≠ 0x32 := by omega
  simp [State.begin, mgmt]

/-- The request of a guest that a packet asks for holds a tracker, and is to be translated; its arrival has changed nothing else. -/
structure Arrived (s : State) (l g : Nat) (p : Packet) (u : State) (k : Nat) (r : Req) : Prop where
  moves : Moves trackParts s u
  found : u.pool.reqs.find k = some r
  packet : r.p = p
  link : r.link = l
  gid : r.gid = g
  dir : r.dir = (s.guest g).dir
  stage : r.stage = .walk 0
  pas : r.pas = []
  win : r.win = none

/-- A request that is mapped to a guest passes its port and holds a tracker, and its access begins. -/
theorem State.receive_mapped {s : State} {l g : Nat} {p : Packet} (map : mapped p.opc = true) (low : p.opc < 0x30) (passes : s.passes l p)
    (tracks : s.tracks l p) (guest : s.gmapLook p.src p.pkey = some g) : ∃ u k r, Arrived s l g p u k r ∧ s.receive l p none = u.access k := by
  obtain ⟨v, passed, received⟩ := State.receive_of_passes none passes
  have guest' : v.gmapLook p.src p.pkey = some g := by
    obtain ⟨-, -, -, exact_, wild, -⟩ := passed.moves.same (p := .routes) (by decide)
    rw [← guest]
    simp only [State.gmapLook, exact_, wild]
  have delivered := State.deliver_mapped (l := l) none map guest'
  obtain ⟨k, n, -, claimed⟩ := State.claim_of_tracks (c := { link := l, p := p, gid := g, gmEpoch := v.fabric.gmapEpoch })
    (State.tracks_of_passed tracks passed)
  obtain ⟨moves, m, found⟩ := State.holds_of_putReq passed k n { link := l, p := p, gid := g, gmEpoch := v.fabric.gmapEpoch }
  exact ⟨_, k, _, { moves, found, packet := rfl, link := rfl, gid := rfl, dir := rfl, pas := rfl, win := rfl
                    stage := by simp [State.tracked, Claim.req, Nat.not_le.mpr low] },
    received.trans (delivered.trans (claimed.trans (State.begin_access k low)))⟩

/-- A request that has arrived, and passes its checks with its pages in the cache, reaches its access (R20, R194). -/
theorem Arrived.reaches {s u : State} {l g k : Nat} {p : Packet} {r : Req} {w : Window} (h : Arrived s l g p u k r) (not_bell : p.opc ≠ 0x05)
    (ok : s.admits l p g w) (cached : s.cached g p) : s.reaches l p g w (u.access k) := by
  obtain ⟨moved, found, rfl, hlink, rfl, hdir, stage, pas, win⟩ := h
  obtain ⟨-, -, -, check, resident, checks, key⟩ := ok
  obtain ⟨check', same⟩ := moved.guestCheck r.gid
  have used := State.touchGuest_moves u r.gid
  have keySame : ((u.touchGuest r.gid).guest r.gid).key = (s.guest r.gid).key := by rw [State.touchGuest_guest, same]
  have checks' : (u.touchGuest r.gid).checks r = (none, some w) := by
    rw [← checks]
    obtain ⟨-, devid, -⟩ := used.same (p := .set) (by decide)
    obtain ⟨-, devid', -⟩ := moved.same (p := .set) (by decide)
    exact State.checks_congr (devid.trans devid') rfl hdir rfl keySame
  have key' : (u.touchGuest r.gid).keyUnwraps r.gid = true := by
    obtain ⟨kwrap, -⟩ := used.same (p := .keys) (by decide)
    obtain ⟨kwrap', -⟩ := moved.same (p := .keys) (by decide)
    rw [← key, State.keyUnwraps, State.keyUnwraps, keySame, kwrap, kwrap']
  rw [State.access_checked found stage pas win (check'.trans check) (by rw [same, resident]) not_bell checks' key']
  refine State.translate_reaches ?_ ?_ rfl hlink rfl rfl cached
  · exact (moved.mono (by decide)).trans ((used.mono (by decide)).trans ((State.onReq_moves _ k _).mono (by decide)))
  · obtain ⟨reqs, -⟩ := used.same (p := .requests) (by decide)
    rw [State.onReq, reqs]
    exact (Tab.has_upd _ _ _ _).trans (Tab.has_of_find found)

theorem coherentRequest_completes {c : Instr} {s : State} {l g opc : Nat} {p : Packet} {w : Window} (coh : isCoh opc = true)
    (hc : exec c s = live s fun s => s.receive l (s.mine p opc) none) (h : s.admits l (s.mine p opc) g w) (cached : s.cached g (s.mine p opc)) :
    Completes c s fun t => s.reaches l (s.mine p opc) g w t := by
  obtain ⟨low, high⟩ : 0x10 ≤ opc ∧ opc ≤ 0x14 := by simpa [isCoh] using coh
  have map : mapped opc = true := by simp [mapped, coh]
  have ⟨passes, tracks, guest, _⟩ := h
  obtain ⟨u, k, r, arrived, received⟩ := State.receive_mapped (p := s.mine p opc) map (show opc < 0x30 by omega) passes tracks guest
  refine completes_live passes.1 hc ?_
  rw [received]
  exact arrived.reaches (show opc ≠ 0x05 by omega) h cached

/-- A coherence message that is no request is an answer to a snoop, or nothing that the home awaits. -/
theorem State.deliver_message (u : State) (l : Nat) {p : Packet} (m : Option SetMsg) (low : 0x15 ≤ p.opc) (high : p.opc ≤ 0x23) :
    u.deliver l p m = (u.snoopAnswer l p).unpool l p := by
  have request : mapped p.opc = false := by simp [mapped, isCoh]; omega
  have other : p.opc ≠ 0x06 ∧ p.opc ≠ 0x07 ∧ p.opc ≠ 0x08 := by omega
  have mgmt : p.opc ≠ 0x30 ∧ p.opc ≠ 0x31 ∧ p.opc ≠ 0x32 := by omega
  simp [State.deliver, request, other, mgmt]

/-- A coherence message that passes its port finds the hearth as it was. -/
theorem State.receive_message {s : State} {l : Nat} {p : Packet} (low : 0x15 ≤ p.opc) (high : p.opc ≤ 0x23) (passes : s.passes l p) :
    ∃ u, Moves portOnly s u ∧ u.hearth = s.hearth ∧ s.receive l p none = (u.snoopAnswer l p).unpool l p := by
  obtain ⟨u, passed, received⟩ := State.receive_of_passes none passes
  exact ⟨u, passed.moves, passed.moves.hearth_same (by decide) (by decide), received.trans (u.deliver_message l none low high)⟩

theorem State.ceOf_congr {s t : State} (h : t.hearth = s.hearth) (epid : Nat) : t.ceOf epid = s.ceOf epid := by simp only [State.ceOf, h]

theorem State.snoopedLine_congr {s t : State} (h : t.hearth = s.hearth) (c tag : Nat) : t.snoopedLine c tag = s.snoopedLine c tag := by
  simp only [State.snoopedLine, h]

section

variable {s : State} {p : Packet} {c l : Nat} {e : Ce} {d : Dir} (ce : s.ceOf p.src = some (c, e)) (active : e.fenced = false)
  (snooped : s.snoopedLine c p.tag = some (l, d))

include ce active snooped

/-- An SNP_ACK or SNP_DATA is taken off its line, with the data it brings, and the line's transaction goes on (R224). -/
theorem State.snoopAnswer_answers (link : Nat) (opc : p.opc = 0x21 ∨ p.opc = 0x22) (first : d.wbGot = false ∨ d.owner ≠ c) :
    s.snoopAnswer link p = (State.hfinish (if p.opc = 0x22 then (s.setDir l (d.answered c p.tag)).hwrite l p.payload p.poi
      else s.setDir l (d.answered c p.tag)) l (d.answered c p.tag)).flushOn := by
  have answers : answersSnoop p.opc = true := by rcases opc with h | h <;> rw [h] <;> rfl
  have not_wbp : p.opc ≠ 0x23 := by omega
  have plain : ((p.opc == 0x23 || d.wbGot) && d.owner == c) = false := by simpa [not_wbp, or_iff_not_imp_left] using first
  simp [State.snoopAnswer, ce, active, answers, snooped, plain]

/-- After SNP_WBP of an owner its WB is awaited (R224). -/
theorem State.snoopAnswer_awaits (link : Nat) (opc : p.opc = 0x23) (owner : d.owner = c) (not_yet : d.wbGot = false) :
    s.snoopAnswer link p = (s.setDir l { (d.answered c p.tag) with wbp := true, st := 7 }).flushOn := by
  have still : (d.answered c p.tag).wbGot = false := not_yet
  simp [State.snoopAnswer, ce, active, answersSnoop, snooped, opc, owner, still]

end

theorem State.snoopAnswer_unmatched {s : State} {p : Packet} (link : Nat) (unknown : s.ceOf p.src = none) :
    s.snoopAnswer link p = s.countLink link 0x2022 8 := by
  simp only [State.snoopAnswer, unknown]
  rfl

theorem snoopAnswer_completes {c : Instr} {s : State} {l opc : Nat} {p : Packet} {post : State → Prop} (low : 0x15 ≤ opc) (high : opc ≤ 0x23)
    (hc : exec c s = live s fun s => s.receive l (s.mine p opc) none) (passes : s.passes l (s.mine p opc))
    (h : ∀ u : State, Moves portOnly s u → u.hearth = s.hearth → post ((u.snoopAnswer l (s.mine p opc)).unpool l (s.mine p opc))) :
    Completes c s post := by
  obtain ⟨u, moved, hearth, received⟩ := State.receive_message low high passes
  exact completes_live passes.1 hc (received ▸ h u moved hearth)

/-- Settles O8: requests reach their access; answers to snoops are taken; what nothing awaits is counted. -/
theorem coherencePacketsComplete : Obligations.CoherencePacketsComplete := by
  unfold Obligations.CoherencePacketsComplete
  refine ⟨fun s link p g w h cached => coherentRequest_completes (by decide) (by rw [exec, execRdS]) h cached,
    fun s link p g w h cached => coherentRequest_completes (by decide) (by rw [exec, execRdX]) h cached,
    fun s link p g w h cached => coherentRequest_completes (by decide) (by rw [exec, execUpg]) h cached,
    fun s link p g w h cached => coherentRequest_completes (by decide) (by rw [exec, execWb]) h cached,
    fun s link p g w h cached => coherentRequest_completes (by decide) (by rw [exec, execEvc]) h cached,
    fun s link p c l e d ce active snooped => ?_, fun s link p low high passes unknown => ?_⟩
  · have awaited : ∀ u : State, u.hearth = s.hearth → u.ceOf p.src = some (c, e) ∧ u.snoopedLine c p.tag = some (l, d) :=
      fun u hearth => ⟨(State.ceOf_congr hearth _).trans ce, (State.snoopedLine_congr hearth _ _).trans snooped⟩
    refine ⟨fun passes first => ?_, fun passes first => ?_, fun passes owner not_yet => ?_⟩
    · refine snoopAnswer_completes (by decide) (by decide) (by rw [exec, execSnpAck]) passes fun u moved hearth => ⟨u, moved.frame, ?_⟩
      obtain ⟨ce', snooped'⟩ := awaited u hearth
      rw [State.snoopAnswer_answers (p := s.mine p 0x21) ce' active snooped' _ (.inl rfl) first]
      rfl
    · refine snoopAnswer_completes (by decide) (by decide) (by rw [exec, execSnpData]) passes fun u moved hearth => ⟨u, moved.frame, ?_⟩
      obtain ⟨ce', snooped'⟩ := awaited u hearth
      rw [State.snoopAnswer_answers (p := s.mine p 0x22) ce' active snooped' _ (.inr rfl) first]
      rfl
    · refine snoopAnswer_completes (by decide) (by decide) (by rw [exec, execSnpWbp]) passes fun u moved hearth => ⟨u, moved.frame, ?_⟩
      obtain ⟨ce', snooped'⟩ := awaited u hearth
      rw [State.snoopAnswer_awaits (p := s.mine p 0x23) ce' active snooped' _ rfl owner not_yet]
      rfl
  · have message : (decide (0x15 ≤ p.opc) && decide (p.opc ≤ 0x23)) = true := by simp [low, high]
    refine snoopAnswer_completes low high (by rw [exec, execCoherenceUnmatched, message]; rfl) passes fun u moved hearth => ?_
    rw [State.snoopAnswer_unmatched (p := s.mine p p.opc) _ ((State.ceOf_congr hearth _).trans unknown)]
    refine ⟨(moved.trans ?_).frame, u, moved.frame, rfl⟩
    exact ((State.countLink_moves u _ _ _).mono (by decide)).trans ((State.unpool_moves _ _ _).mono (by decide))

end Sys2Proof.Machine
end

section
namespace Sys2Proof.Machine

open Sys2Proof

/-! ## The memory's own work: reads, drains and writes of lines (R331, R365, R386) -/

/-- The parts that reading, draining and writing lines moves, where no guest becomes fatal. Trackers are not among them, as they are among
`accessParts`. -/
def upkeepParts : List Part := [.counters, .samples, .log, .irqPending, .keyCaches, .chans, .dram, .out, .free]

/-- What reading, draining and writing lines comes to: it moves those parts, and a line of control data that is lost makes guests fatal. -/
inductive Upkeep : State → State → Prop where
  | calm {s t : State} : Moves upkeepParts s t → Upkeep s t
  | fatal (s : State) (gid pa ch : Nat) : Upkeep s (s.guestFatal gid pa ch)
  | trans {s t u : State} : Upkeep s t → Upkeep t u → Upkeep s u

theorem Upkeep.refl (s : State) : Upkeep s s := .calm (Moves.refl _ s)

theorem Moves.upkeep {ps : List Part} {s t : State} (h : Moves ps s t) (k : Part.within ps upkeepParts = true) : Upkeep s t := .calm (h.mono k)

theorem Upkeep.then_moves {ps : List Part} {s t u : State} (k : Upkeep s t) (h : Moves ps t u) (hp : Part.within ps upkeepParts = true) :
    Upkeep s u := k.trans (h.upkeep hp)

theorem Upkeep.ite {c : Prop} [Decidable c] {s a b : State} (h : Upkeep s a) (k : Upkeep s b) : Upkeep s (if c then a else b) := by
  split <;> assumption

theorem Upkeep.fatals (s : State) (gids : List Nat) (pa ch : Nat) : Upkeep s (gids.foldl (fun s g => s.guestFatal g pa ch) s) :=
  List.foldlRecOn (motive := Upkeep s) _ _ (.refl s) fun v h g _ => h.trans (.fatal v g pa ch)

theorem State.reportLost_upkeep (s : State) (ch line : Nat) (pa reader : Option Nat) : Upkeep s (s.reportLost ch line pa reader) := by
  have logged : ∀ w5 : Nat, Upkeep s ((((s.onChan ch fun c => { c with ueLost := satInc 32 c.ueLost }).countChan ch 0x3015 4).log 0x02
      (chanDie ch) ch (line * 64) (pa.getD 0) w5).memIrq ch) := fun w5 =>
    ((((State.onChan_moves s ch _).upkeep (by decide)).then_moves (State.countChan_moves _ _ _ _) (by decide)).then_moves
      (State.log_moves _ _ _ _ _ _ _) (by decide)).then_moves (State.memIrq_moves _ _) (by decide)
  unfold State.reportLost
  cases pa with
  | none => exact logged _
  | some a => exact ((logged _).trans (.fatals _ _ _ _)).ite (logged _)

theorem State.poisonLine_upkeep (s : State) (ch line : Nat) (reader : Option Nat) : Upkeep s (s.poisonLine ch line reader) :=
  (((State.putLine_moves s ch line _ _).upkeep (by decide)).then_moves (State.useFree_moves _ _) (by decide)).trans
    (State.reportLost_upkeep _ _ _ _ _)

theorem State.countBuilt_upkeep (s : State) (r : Got) (ch line m : Nat) (reader : Option Nat) : Upkeep s (s.countBuilt r ch line m reader) :=
  (Upkeep.refl s).ite (((State.reportLost_upkeep s _ _ _ _).ite (.refl s)).ite ((State.countChan_moves s _ _ _).upkeep (by decide)))

theorem State.fetch_upkeep (s : State) (pl : Place) (source e1 e2 : Nat) (reader : Option Nat) : Upkeep s (s.fetch pl source e1 e2 reader).2 := by
  have built : ∀ (u : State) g m line, Upkeep u (u.reconstruct g m line source).2 :=
    fun u g m line => (State.reconstruct_moves u g m line source).upkeep (by decide)
  have told : ∀ g m line ch, Upkeep s ((s.reconstruct g m line source).2.countBuilt (s.reconstruct g m line source).1 ch line m reader) :=
    fun g m line ch => (built s g m line).trans (State.countBuilt_upkeep _ _ _ _ _ _)
  have read : ∀ ch line, Upkeep s (s.readStored ch line source e1 e2).2 :=
    fun ch line => (State.readStored_moves s ch line source e1 e2).upkeep (by decide)
  unfold State.fetch
  split
  case h_1 => exact .refl s
  case h_2 ch co =>
    split
    · exact .refl s
    split
    · exact .refl s
    have stored := read ch (co / 64)
    split
    all_goals rename_i got; rw [got] at stored
    · exact stored
    · exact stored.trans (State.poisonLine_upkeep _ _ _ _)
  case h_3 g m co =>
    dsimp only
    split
    · exact told _ _ _ _
    rename_i ch _
    split
    · exact told _ _ _ _
    split
    · split
      · exact built s _ _ _
      · exact told _ _ _ _
    have stored := read ch (co / 64)
    split
    all_goals rename_i u got; rw [got] at stored
    · exact stored
    have again := stored.trans (built u g m (co / 64))
    split
    · exact again
    split
    · exact again.trans (State.poisonLine_upkeep _ _ _ _)
    · exact (((again.then_moves (State.putLine_moves _ _ _ _ _) (by decide)).then_moves (State.countChan_moves _ _ _ _)
        (by decide)).then_moves (State.onChan_moves _ _ _) (by decide)).then_moves (State.log_moves _ _ _ _ _ _ _) (by decide)

theorem State.drainLine_upkeep (s : State) (ch line : Nat) : Upkeep s (s.drainLine ch line) := by
  unfold State.drainLine
  split
  · exact .refl s
  rename_i w _
  extract_lets pl pa strong evac dead
  clear_value dead evac strong pa pl
  refine (Upkeep.refl s).ite (((State.onChan_moves s _ _).upkeep (by decide)).ite ?_)
  have read : Upkeep s (if w.whole && !strong then (({ data := zeroBytes 64 } : Got), s) else s.fetch pl 0 0 0 none).2 := by
    split
    · exact .refl s
    · exact State.fetch_upkeep _ _ _ _ _ _
  generalize (if w.whole && !strong then (({ data := zeroBytes 64 } : Got), s) else s.fetch pl 0 0 0 none) = x at read ⊢
  obtain ⟨old, u⟩ := x
  refine read.ite ?_
  have looked := read.then_moves (State.keyLook_moves u ch pa w.gid) (by decide)
  have counted := Upkeep.ite (c := w.whole = true) looked (looked.then_moves (State.countChan_moves _ ch 0x3014 3) (by decide))
  have stored := fun (bs : Bytes) (m : Nat) =>
    counted.ite (c := dead = true) (counted.then_moves (State.putLine_moves _ ch line bs m) (by decide))
  have sent := fun bs m' g m d dm => (stored bs m').then_moves (State.sendDelta_moves _ g m line d dm) (by decide)
  refine Upkeep.then_moves (Upkeep.then_moves (Upkeep.then_moves ?_ (State.onChan_moves _ _ _) (by decide))
    (State.countChan_moves _ _ _ _) (by decide)) (State.leaveQ_moves _ _ _) (by decide)
  split
  · refine (stored _ _).ite ?_
    dsimp only
    split
    · exact ((sent _ _ _ _ _ _).then_moves (State.onChan_moves _ _ _) (by decide)).then_moves (State.leaveQ_moves _ _ _) (by decide)
    · exact sent _ _ _ _ _ _
  · exact stored _ _

theorem State.clearForeign_upkeep (s : State) (pa gid : Nat) : Upkeep s (s.clearForeign pa gid) := by
  unfold State.clearForeign
  extract_lets a
  split
  split
  · exact .refl s
  have drained := State.drainLine_upkeep s
  exact (Upkeep.refl s).ite ((((drained _ _).then_moves (State.onChan_moves _ _ _) (by decide)).then_moves (State.discardQ_moves _ _ _)
    (by decide)).ite (drained _ _))

theorem State.wcbWrite_upkeep (s : State) (pa gid : Nat) (bs : Bytes) (poison : Bool) : Upkeep s (s.wcbWrite pa gid bs poison) := by
  have cleared := State.clearForeign_upkeep s pa gid
  unfold State.wcbWrite
  generalize s.clearForeign pa gid = u at cleared ⊢
  dsimp only
  have put := fun ch f => cleared.then_moves (State.onChan_moves u ch f) (by decide)
  refine Upkeep.ite (Upkeep.then_moves ?_ (State.countChan_moves _ _ _ _) (by decide)) (Upkeep.then_moves ?_ (State.enterQ_moves _ _ _) (by decide))
  all_goals
    split
    · split
      · exact (put _ _).ite (((put _ _).then_moves (State.onChan_moves _ _ _) (by decide)).then_moves (State.enterQ_moves _ _ _) (by decide))
      · exact put _ _
    · exact put _ _

/-- Dirty data that comes back is written to its line, and nothing else happens but the memory's own work. -/
theorem State.hwrite_upkeep (s : State) (l : Nat) (d : Bytes) (poi : Bool) : Upkeep s (s.hwrite l d poi) := by
  have written := s.wcbWrite_upkeep (s.hlinePa l) (s.hlineOwner l).1 (padBytes 64 d) poi
  exact written.ite (written.trans (State.drainLine_upkeep _ _ _))

/-! ### Trackers that the memory's own work leaves (R73) -/

theorem Moves.reqs_same {ps : List Part} {s t : State} (h : Moves ps s t) (hp : Part.requests ∉ ps) : t.pool.reqs = s.pool.reqs := (h.same hp).1

/-- A packet of the device that answers no request leaves the trackers. -/
theorem State.originate_reqs (s : State) (p : Packet) : (s.originate p).pool.reqs = s.pool.reqs := by
  unfold State.originate
  split
  rename_i n u seq
  split
  rename_i ece v echo
  have numbered : v.pool.reqs = s.pool.reqs := ((Moves.snd echo (State.takeEcho_moves _ _ _)).reqs_same (by decide)).trans
    ((Moves.snd seq (State.takeSeq_moves _ _ _)).reqs_same (by decide))
  have dropped := fun l sel => ((State.countLink_moves v l 0x2022 sel).reqs_same (by decide)).trans numbered
  dsimp only
  split
  · exact dropped _ _
  split
  · exact ((State.queueOwn_moves _ _).reqs_same (by decide)).trans numbered
  · exact dropped _ _

theorem State.streamError_reqs (s : State) (k status : Nat) : (s.streamError k status).pool.reqs = s.pool.reqs := by
  unfold State.streamError
  split
  · rfl
  · refine apply_ite (fun v : State => v.pool.reqs) _ _ _ |>.trans ?_
    split
    · rfl
    · exact State.originate_reqs _ _

theorem State.guestFatal_reqs (s : State) (gid pa ch : Nat) : (s.guestFatal gid pa ch).pool.reqs = s.pool.reqs := by
  have streams : ∀ v : State, (v.guestStreamsError gid 0x07).pool.reqs = v.pool.reqs := fun v =>
    List.foldlRecOn (motive := fun u : State => u.pool.reqs = v.pool.reqs) _ _ rfl fun u h r _ => by
      split
      · exact (u.streamError_reqs _ _).trans h
      · exact h
  unfold State.guestFatal
  split
  · rfl
  split
  · rfl
  · exact (streams _).trans (((State.log_moves _ _ _ _ _ _ _).reqs_same (by decide)))

theorem Upkeep.reqs {s t : State} (h : Upkeep s t) : t.pool.reqs = s.pool.reqs := by
  induction h with
  | calm moved => exact moved.reqs_same (by decide)
  | fatal s gid pa ch => exact s.guestFatal_reqs gid pa ch
  | trans _ _ first then_ => exact then_.trans first

/-! ## What the hearth does on its own (R225 to R233) -/

/-! ### A recall that is over (R226) -/

section

variable {s : State} {l : Nat} {d : Dir} (tracked : s.dirOf l = some d) (write : Bool)

include tracked

/-- Once its recall is over, a line that is read is DS, or DI where nobody is left; one that is written stays busy. -/
theorem State.uncachedEnd_dirOf : (s.uncachedEnd l write).dirOf l =
    if write then some { d with open_ := true, dirty := none }
    else if d.ptrs.isEmpty then none else some { d with st := 1, grant := .none, dirty := none, snoops := [] } := by
  simp only [State.uncachedEnd, tracked]
  cases write with
  | true => exact State.setDir_dirOf _ _ _
  | false =>
    simp only [Bool.false_eq_true, if_false]
    split
    · exact State.dropDir_dirOf _ _
    · exact State.setDir_dirOf _ _ _

end

/-- No tracker changes when the recall of an uncached access is over. -/
theorem State.uncachedEnd_reqs (s : State) (l : Nat) (write : Bool) : (s.uncachedEnd l write).pool.reqs = s.pool.reqs := by
  unfold State.uncachedEnd
  split
  case h_2 => rfl
  case h_1 d _ =>
    extract_lets u
    have written : u.pool.reqs = s.pool.reqs := by
      dsimp only [u]
      split
      · exact (State.hwrite_upkeep _ _ _ _).reqs
      · rfl
    clear_value u
    have put := fun d' => ((u.setDir_moves l d').reqs_same (by decide)).trans written
    split
    · exact put _
    split
    · exact ((u.dropDir_moves l).reqs_same (by decide)).trans written
    · exact put _

/-- An uncached access whose recall is over proceeds. -/
theorem hearthRecallDone_completes {s : State} {line k : Nat} {d : Dir} {r : Req} (hs : s.running = true) (tracked : s.dirOf line = some d)
    (br : d.st = 6) (answered : d.snoops = []) (grant : d.grant = .uncached k) (found : s.pool.reqs.find k = some r) :
    Completes (.hearthRecallDone line) s fun t => t = ((s.uncachedEnd line (writes r.p.opc)).access k).flushOn := by
  refine completes_live hs (by rw [exec, execHearthRecallDone]) ?_
  simp [tracked, Dir.busy, br, answered, grant, found]

/-! ### Registered endpoints (R217, R230) -/

/-- The registered endpoints and a running FLUSH or REMOVE_CE are as before. -/
structure KeepsEndpoints (s t : State) : Prop where
  ces : t.hearth.ces = s.hearth.ces
  flush : t.hearth.flush = s.hearth.flush

theorem KeepsEndpoints.refl (s : State) : KeepsEndpoints s s := ⟨rfl, rfl⟩

theorem KeepsEndpoints.trans {s t u : State} (h : KeepsEndpoints s t) (k : KeepsEndpoints t u) : KeepsEndpoints s u :=
  ⟨k.ces.trans h.ces, k.flush.trans h.flush⟩

theorem KeepsEndpoints.ite {c : Prop} [Decidable c] {s a b : State} (h : KeepsEndpoints s a) (k : KeepsEndpoints s b) :
    KeepsEndpoints s (if c then a else b) := by
  split <;> assumption

theorem KeepsEndpoints.foldl {α : Type} {f : State → α → State} (h : ∀ v x, KeepsEndpoints v (f v x)) (xs : List α) (s : State) :
    KeepsEndpoints s (xs.foldl f s) :=
  List.foldlRecOn (motive := KeepsEndpoints s) _ _ (.refl s) fun v k x _ => k.trans (h v x)

theorem KeepsEndpoints.of_hearth {s t u : State} (k : KeepsEndpoints s t) (h : u.hearth = t.hearth) : KeepsEndpoints s u :=
  k.trans ⟨congrArg _ h, congrArg _ h⟩

theorem KeepsEndpoints.setDir {s t : State} (k : KeepsEndpoints s t) (l : Nat) (d : Dir) : KeepsEndpoints s (t.setDir l d) :=
  k.trans ⟨by simp, by simp⟩

theorem KeepsEndpoints.dropDir {s t : State} (k : KeepsEndpoints s t) (l : Nat) : KeepsEndpoints s (t.dropDir l) :=
  k.trans ⟨by simp, by simp⟩

theorem KeepsEndpoints.hdone {s t : State} (k : KeepsEndpoints s t) (n : Nat) : KeepsEndpoints s (t.hdone n) := k.of_hearth (by simp)

theorem KeepsEndpoints.granted {s t : State} (k : KeepsEndpoints s t) (n : Nat) (r : Req) (opc : Nat) (data : Bytes) (poi : Bool) :
    KeepsEndpoints s ((t.grantMsg n r opc data poi).hdone n) := k.of_hearth (by simp)

theorem State.hfinish_endpoints (s : State) (l : Nat) (d : Dir) : KeepsEndpoints s (s.hfinish l d) := by
  unfold State.hfinish
  refine (KeepsEndpoints.refl s).ite ?_
  extract_lets lost u
  have written : KeepsEndpoints s u := by
    dsimp only [u]
    split
    · exact (KeepsEndpoints.refl s).of_hearth (by simp)
    · exact .refl s
  clear_value u
  have read : KeepsEndpoints s (u.hread l).2 := written.of_hearth (by simp)
  split
  case h_1 t =>
    split
    · exact written.setDir _ _
    · exact ((written.setDir _ _).granted _ _ _ _ _).ite (((read.setDir _ _).ite ((read.setDir _ _).granted _ _ _ _ _)).ite
        ((written.setDir _ _).hdone _))
  case h_2 t upg =>
    split
    · exact written.dropDir _
    · exact ((written.setDir _ _).granted _ _ _ _ _).ite (((written.setDir _ _).granted _ _ _ _ _).ite
        (((read.setDir _ _).ite ((read.setDir _ _).granted _ _ _ _ _)).ite ((written.setDir _ _).hdone _)))
  case h_3 => exact written.setDir _ _
  case h_4 => exact written.setDir _ _
  case h_5 => exact written.dropDir _
  case h_6 =>
    refine KeepsEndpoints.ite (KeepsEndpoints.setDir ?_ _ _) ((written.dropDir _).ite (written.setDir _ _))
    exact written.trans ⟨rfl, rfl⟩
  case h_7 => exact KeepsEndpoints.ite ((written.dropDir _).trans ⟨rfl, rfl⟩) (written.dropDir _)
  case h_8 => exact written.setDir _ _

/-- Lines that were kept busy for writes free, where no FLUSH and no REMOVE_CE runs. -/
theorem State.uncachedFree_endpoints {s : State} (idle : s.hearth.flush = none) (mine : Grant → Bool) : KeepsEndpoints s (s.uncachedFree mine) := by
  have dropped := KeepsEndpoints.foldl (fun (v : State) l => (KeepsEndpoints.refl v).dropDir l)
    ((s.hearth.dir.rows.filter fun r => r.2.open_ && mine r.2.grant).map (·.1)) s
  refine (KeepsEndpoints.refl s).ite ?_
  rw [State.flushOn_idle (dropped.flush.trans idle)]
  exact dropped

theorem State.failGranule_endpoints {s : State} (idle : s.hearth.flush = none) (key c g cause : Nat) :
    KeepsEndpoints s (s.failGranule key c g cause) := by
  unfold State.failGranule
  extract_lets cl u
  have freed : ((u.unhold key g).unlockGranule key g).hearth = s.hearth := (State.unhold_moves u key g).hearth_same (by decide) (by decide)
  have shut := State.uncachedFree_endpoints (s := (u.unhold key g).unlockGranule key g) (by rw [freed, idle]) (Grant.ofGranule key g)
  refine (((KeepsEndpoints.refl s).of_hearth freed).trans shut).of_hearth ?_
  exact ((State.closeChunk_moves _ key c).hearth_same (by decide) (by decide)).trans (State.countCluster_hearth _ _ _ _)

/-- An atomic whose recall came too late ends, and leaves the endpoints as they are (R139). -/
theorem State.atomicLate_endpoints {s : State} (idle : s.hearth.flush = none) (l : Nat) (g : Grant) : KeepsEndpoints s (s.atomicLate l g) := by
  have dropped : KeepsEndpoints s (match s.dirOf l with | some d => s.setDir l { d with grant := .flush } | none => s) := by
    split
    · exact (KeepsEndpoints.refl s).setDir _ _
    · exact .refl s
  unfold State.atomicLate
  dsimp only
  split
  · split
    · exact KeepsEndpoints.ite (dropped.of_hearth ((State.endReq_moves _ _ _ _ _).hearth_same (by decide) (by decide))) (.refl s)
    · exact .refl s
  · exact dropped.trans (State.failGranule_endpoints (dropped.flush.trans idle) _ _ _ _)
  · exact .refl s

/-- The endpoint is FENCED, with its walk still to do (R230). -/
def State.fenceMarked (s : State) (c : Nat) (e : Ce) : State :=
  { s with hearth := { s.hearth with ces := s.hearth.ces.put c { e with fenced := true, walking := true } } }

/-- Fencing marks its endpoint, and no other. -/
theorem State.fence_endpoints {s : State} {c : Nat} {e : Ce} (found : s.hearth.ces.find c = some e) :
    KeepsEndpoints (s.fenceMarked c e) (s.fence c) := by
  unfold State.fence
  split
  case h_1 missing => cases found.symm.trans missing
  case h_2 same =>
    cases found.symm.trans same
    extract_lets mine late old u v w
    have marked : KeepsEndpoints (s.fenceMarked c e) u := ⟨rfl, rfl⟩
    have lost : KeepsEndpoints u v := KeepsEndpoints.foldl (fun v r => (KeepsEndpoints.refl v).of_hearth (by simp)) _ _
    have logged : KeepsEndpoints u w := lost.of_hearth (by simp [w])
    refine (marked.trans logged).trans (KeepsEndpoints.foldl (fun x r => ?_) _ _)
    exact (((KeepsEndpoints.refl x).setDir _ _).trans (State.hfinish_endpoints _ _ _)).ite (.refl x)

theorem hearthSnoopTimeout_completes {s : State} {line : Nat} {ceid : Fin 4096} {d : Dir} {e : Ce} (hs : s.running = true)
    (tracked : s.dirOf line = some d) (awaited : d.snoops.any (fun x => x.1 == ceid.val) = true) (found : s.hearth.ces.find ceid.val = some e)
    (idle : s.hearth.flush = none) : Completes (.hearthSnoopTimeout line ceid) s fun t =>
      t.hearth.ces = s.hearth.ces.put ceid.val { e with fenced := true, walking := true } := by
  refine completes_live hs (by rw [exec, execHearthSnoopTimeout]) ?_
  have late := State.atomicLate_endpoints idle line d.grant
  have fenced := State.fence_endpoints (s := s.atomicLate line d.grant) (c := ceid.val) (by rw [late.ces, found])
  simp only [tracked, awaited, if_true]
  rw [State.flushOn_idle (fenced.flush.trans (late.flush.trans idle)), fenced.ces, State.fenceMarked, late.ces]

/-! ### The walk that ends a fencing (R230) -/

theorem State.dropDirs_hearth (ls : List Nat) (s : State) :
    (ls.foldl (fun (s : State) l => s.dropDir l) s).hearth = { s.hearth with dir := ls.foldl (fun t l => t.del l) s.hearth.dir } := by
  induction ls generalizing s with
  | nil => rfl
  | cons l ls ih => simp [ih]

theorem Tab.mem_dels {α : Type} {r : Nat × α} (ls : List Nat) {t : Tab α} (h : r ∈ (ls.foldl (fun t l => t.del l) t).rows) : r ∈ t.rows := by
  induction ls generalizing t with
  | nil => exact h
  | cons l ls ih => exact List.mem_of_mem_filter (ih h)

/-- Once the walk has ended no pointer names the endpoint. -/
theorem fenceWalkDone_completes {s : State} {ceid : Fin 4096} {e : Ce} (hs : s.running = true) (found : s.hearth.ces.find ceid.val = some e)
    (walking : e.walking = true) (idle : s.hearth.flush = none) : Completes (.fenceWalkDone ceid) s fun t =>
      t.hearth.ces = s.hearth.ces.put ceid.val { e with walking := false } ∧ ∀ r ∈ t.hearth.dir.rows, ceid.val ∉ r.2.ptrs := by
  refine completes_live hs (by rw [exec, execFenceWalkDone]) ?_
  simp only [found, walking, Bool.not_true, Bool.false_eq_true, if_false]
  rw [State.flushOn_idle (by rw [State.dropDirs_hearth]; exact idle), State.dropDirs_hearth]
  refine ⟨rfl, fun r kept => ?_⟩
  obtain ⟨q, -, rfl⟩ := List.mem_map.mp (Tab.mem_dels _ kept)
  simp

/-! ### A victim, and a request whose turn has come (R225, R232) -/

theorem backInvalidation_completes {s : State} {line v : Nat} {d : Dir} (hs : s.running = true)
    (waits : s.hearth.queue.any (fun x => x.1 == line) = true) (di : s.dirOf line = none) (full : s.hasWay line = false)
    (first : s.hasVictim line = false) (few : s.hearth.dir.count (fun _ d => d.isVictim) < s.reg Obj.hearthBiMax)
    (victim : s.hvictim line = some (v, d)) :
    Completes (.backInvalidation line) s fun t => ∃ m : State,
      m = ((s.setDir v { d with st := 6, grant := .victim line, owner := d.holder, snoops := [] }).recall v d).countLedger 0x5014 1 ∧
        t = match m.dirOf v with | some e => m.hfinish v e | none => m := by
  refine completes_live hs (by rw [exec, execBackInvalidation]) ⟨_, rfl, ?_⟩
  have may : (s.hasVictim line || decide (s.reg Obj.hearthBiMax ≤ s.hearth.dir.count fun _ d => d.isVictim)) = false := by simp [first, few]
  simp only [waits, di, full, Option.isNone_none, Bool.not_false, Bool.and_self, if_true]
  unfold State.backInvalidate
  simp only [may, victim, Bool.false_eq_true, if_false] <;> rfl

theorem hearthLineDequeue_completes {s : State} {line l k : Nat} (hs : s.running = true) (free : s.hbusy line = false)
    (front : s.hearth.queue.find? (fun x => x.1 == line) = some (l, k)) : Completes (.hearthLineDequeue line) s fun t =>
      ((s.access k).waitsFor l k = true → t = (s.access k).flushOn) ∧
        ((s.access k).waitsFor l k = false → ∃ m : State, m.hearth.queue = (s.access k).hearth.queue.erase (l, k) ∧
          Frame [.coherence, .samples] (s.access k) m ∧ t = m.flushOn) := by
  refine completes_live hs (by rw [exec, execHearthLineDequeue]) ?_
  simp only [free, front, Bool.false_eq_true, if_false]
  refine ⟨fun again => by rw [if_pos again], fun served => ⟨(s.access k).dequeue l k, rfl, ?_, by rw [served]; rfl⟩⟩
  exact ((State.dequeue_moves _ l k).mono (by decide)).frame

/-- Settles O11: what the hearth does on its own. -/
theorem hearthEventsComplete : Obligations.HearthEventsComplete := by
  unfold Obligations.HearthEventsComplete
  refine ⟨fun _ _ _ _ hs free front => hearthLineDequeue_completes hs free front,
    fun _ _ _ _ hs waits di full first few victim => backInvalidation_completes hs waits di full first few victim,
    fun s line k d r hs tracked br answered grant found => ?_,
    fun _ _ _ _ _ hs tracked awaited found idle => hearthSnoopTimeout_completes hs tracked awaited found idle,
    fun _ _ _ hs found walking idle => fenceWalkDone_completes hs found walking idle⟩
  obtain ⟨t, step, rfl⟩ := hearthRecallDone_completes hs tracked br answered grant found
  exact ⟨_, step, _, State.uncachedEnd_dirOf tracked _, s.uncachedEnd_reqs _ _, rfl⟩

end Sys2Proof.Machine
end

section
/-! Proofs for the link layer (chapter 08): what each operation leaves of a link, a link that is lost, and the commands of chapter 08. -/

namespace Sys2Proof.Machine

open Sys2Proof

/-! ## Links under writes -/

@[simp] theorem State.link_setLink (s : State) (l x : Nat) (k : Link) : (s.setLink l k).link x = if x = l then k else s.link x := by
  simp [State.link, State.setLink]

@[simp] theorem State.link_onLink (s : State) (l x : Nat) (f : Link → Link) :
    (s.onLink l f).link x = if x = l then f (s.link l) else s.link x := State.link_setLink s l x _

theorem State.link_congr {s t : State} (h : t.fabric.links = s.fabric.links) (x : Nat) : t.link x = s.link x := by
  simp [State.link, h]

/-- An operation that does not move the links keeps each. -/
theorem Moves.link {ps : List Part} {s t : State} (h : Moves ps s t) (hp : Part.links ∉ ps) (x : Nat) : t.link x = s.link x :=
  State.link_congr (h.same hp) x

@[simp] theorem State.link_countLink (s : State) (l ev sel x : Nat) : (s.countLink l ev sel).link x = s.link x :=
  State.link_congr (by simp) x

@[simp] theorem State.link_countLinkN (s : State) (l ev sel n x : Nat) : (s.countLinkN l ev sel n).link x = s.link x :=
  (State.countLinkN_moves s l ev sel n).link (by decide) x

@[simp] theorem State.countLinkN_out (s : State) (l ev sel n : Nat) : (s.countLinkN l ev sel n).out = s.out :=
  State.countN_out s _ _ _ _ _

@[simp] theorem State.link_log (s : State) (ty die w2 w3 w4 w5 x : Nat) : (s.log ty die w2 w3 w4 w5).link x = s.link x :=
  State.link_congr (by simp) x

@[simp] theorem State.link_irqEdge (s : State) (src x : Nat) : (s.irqEdge src).link x = s.link x := rfl

@[simp] theorem State.link_setReg (s : State) (k v x : Nat) : (s.setReg k v).link x = s.link x := rfl

/-! ## A CTRL message that is sent (R246, R247) -/

@[simp] theorem State.link_sendCtrl (s : State) (l x : Nat) (m : CtrlMsg) :
    (s.sendCtrl l m).link x = if x = l then { s.link l with rx := ((s.link l).header l).2 } else s.link x := by
  simp only [State.sendCtrl, State.link_countLinkN]
  exact State.link_setLink s l x _

theorem State.sendCtrl_out (s : State) (l : Nat) (m : CtrlMsg) : ∃ h, (s.sendCtrl l m).out = .ctrl l h m (ctrlFlits h m) :: s.out :=
  ⟨((s.link l).header l).1, State.countLinkN_out _ _ _ _ _⟩

/-- What sends a message and changes nothing else that leaves the package says that message. -/
theorem State.says_sendCtrl {s u t : State} {l : Nat} {m : CtrlMsg} (after : t.out = (u.sendCtrl l m).out) (before : u.out = s.out) :
    s.says l m t := by
  obtain ⟨h, sent⟩ := u.sendCtrl_out l m
  exact ⟨h, by rw [after, sent, before]⟩

/-- Of the receive side, a header that is built takes only due credits, the pause mark and the count of draws (R247, R251, R255). -/
theorem Link.header_rx (k : Link) (l : Nat) :
    (k.header l).2.taken = k.rx.taken ∧ (k.header l).2.grp = k.rx.grp ∧ (k.header l).2.asked = k.rx.asked ∧
      (k.header l).2.closed = k.rx.closed := by
  simp only [Link.header, LinkRx.header]
  split <;> exact ⟨rfl, rfl, rfl, rfl⟩

theorem Link.header_closed (k : Link) (l : Nat) : (k.header l).2.closed = k.rx.closed := by
  obtain ⟨-, -, -, closed⟩ := k.header_rx l
  exact closed

/-! ## Links that change in their receive side alone -/

/-- A link but for its receive side. -/
def Link.unreceived (k : Link) : Link := { k with rx := {} }

/-- Every link is as before but for its receive side. -/
def KeepsLinks (s t : State) : Prop := ∀ x, (t.link x).unreceived = (s.link x).unreceived

theorem KeepsLinks.refl (s : State) : KeepsLinks s s := fun _ => rfl

theorem KeepsLinks.trans {s t u : State} (h : KeepsLinks s t) (k : KeepsLinks t u) : KeepsLinks s u := fun x => (k x).trans (h x)

theorem KeepsLinks.st {s t : State} (h : KeepsLinks s t) (x : Nat) : (t.link x).st = (s.link x).st := (congrArg Link.st (h x) :)

theorem KeepsLinks.ite {c : Prop} [Decidable c] {s a b : State} (h : KeepsLinks s a) (k : KeepsLinks s b) :
    KeepsLinks s (if c then a else b) := by
  split <;> assumption

theorem Moves.keepsLinks {ps : List Part} {s t : State} (h : Moves ps s t) (hp : Part.links ∉ ps) : KeepsLinks s t :=
  fun x => congrArg Link.unreceived (h.link hp x)

theorem KeepsLinks.then_moves {ps : List Part} {s t u : State} (k : KeepsLinks s t) (h : Moves ps t u) (hp : Part.links ∉ ps) :
    KeepsLinks s u := k.trans (h.keepsLinks hp)

theorem State.onLink_keepsLinks (s : State) (l : Nat) {f : Link → Link} (h : (f (s.link l)).unreceived = (s.link l).unreceived) :
    KeepsLinks s (s.onLink l f) := by
  intro x
  rw [State.link_onLink]
  split
  case isTrue same => rw [h, same]
  case isFalse => rfl

theorem State.sendCtrl_keepsLinks (s : State) (l : Nat) (m : CtrlMsg) : KeepsLinks s (s.sendCtrl l m) := by
  intro x
  rw [State.link_sendCtrl]
  split
  case isTrue same => rw [same]; rfl
  case isFalse => rfl

theorem State.leavePool_keepsLinks (s : State) (inLink : Option Nat) (vc blocks : Nat) : KeepsLinks s (s.leavePool inLink vc blocks) := by
  cases inLink with
  | none => exact .refl s
  | some l => exact s.onLink_keepsLinks l rfl

theorem State.dropTracker_keepsLinks (s : State) (t : Option Nat) : KeepsLinks s (s.dropTracker t) := by
  cases t <;> exact .refl s

theorem State.dropQueued_keepsLinks (s : State) (l sel : Nat) (e : EPkt) : KeepsLinks s (s.dropQueued l sel e) :=
  (((s.dropTracker_keepsLinks e.tracker).trans (State.leavePool_keepsLinks _ _ _ _)).then_moves (State.discardQ_moves _ _ _)
    (by decide)).then_moves (State.countLink_moves _ _ _ _) (by decide)

/-! ## Where packets wait (R267, R299, R301) -/

/-- No packet is queued on a link. -/
def State.unqueued (s : State) (l : Nat) : Prop := ∀ e ∈ s.fabric.egress, e.link ≠ l

/-- No packet is queued on a link, or waits for a retention buffer to be. -/
def State.unused (s : State) (l : Nat) : Prop := s.unqueued l ∧ ∀ e ∈ s.fabric.stalled, e.link ≠ l

theorem partner_ne (l : Nat) : partner l ≠ l := by
  unfold partner
  split <;> omega

/-- Operations that leave the egress queues alone. -/
theorem Moves.egress {ps : List Part} {s t : State} (h : Moves ps s t) (hp : Part.egress ∉ ps) :
    t.fabric.egress = s.fabric.egress ∧ t.fabric.stalled = s.fabric.stalled := by
  obtain ⟨queued, -, -, stalled, -⟩ := h.same hp
  exact ⟨queued, stalled⟩

theorem State.unqueued.congr {s t : State} {l : Nat} (q : s.unqueued l) (h : t.fabric.egress = s.fabric.egress) : t.unqueued l := by
  unfold State.unqueued; rw [h]; exact q

theorem State.joinQueue_egress (s : State) (e : EPkt) (q : Nat) :
    ∃ e', (s.joinQueue e q).fabric.egress = s.fabric.egress ++ [e'] ∧ e'.link = e.link ∧
      (s.joinQueue e q).fabric.stalled = s.fabric.stalled := by
  unfold State.joinQueue
  dsimp only
  split <;> exact ⟨_, rfl, rfl, rfl⟩

theorem State.joinQueue_unqueued {s : State} {e : EPkt} {x : Nat} (q : Nat) (h : e.link ≠ x) (before : s.unqueued x) :
    (s.joinQueue e q).unqueued x := by
  obtain ⟨e', queued, same, -⟩ := s.joinQueue_egress e q
  intro y mem
  rw [queued, List.mem_append, List.mem_singleton] at mem
  rcases mem with mem | rfl
  · exact before y mem
  · rwa [same]

/-! ## Traffic that leaves a link (R267, R268, R299, R301) -/

/-- Packets of link l have moved to its partner or been dropped: of the links only receive pools have changed, no queue but the partner's
has grown, and what waits for a retention buffer still waits. -/
structure GivesAway (l : Nat) (s t : State) : Prop where
  links : KeepsLinks s t
  queued : ∀ x, x ≠ partner l → s.unqueued x → t.unqueued x
  stalled : t.fabric.stalled = s.fabric.stalled
  lost : t.fabric.ghLost = s.fabric.ghLost

theorem GivesAway.refl (l : Nat) (s : State) : GivesAway l s s := ⟨.refl s, fun _ _ q => q, rfl, rfl⟩

theorem GivesAway.trans {l : Nat} {s t u : State} (h : GivesAway l s t) (k : GivesAway l t u) : GivesAway l s u :=
  ⟨h.links.trans k.links, fun x hx q => k.queued x hx (h.queued x hx q), k.stalled.trans h.stalled, k.lost.trans h.lost⟩

theorem GivesAway.ite {c : Prop} [Decidable c] {l : Nat} {s a b : State} (h : GivesAway l s a) (k : GivesAway l s b) :
    GivesAway l s (if c then a else b) := by
  split <;> assumption

theorem GivesAway.foldl {α : Type} {f : State → α → State} {l : Nat} (h : ∀ s x, GivesAway l s (f s x)) (xs : List α) (s : State) :
    GivesAway l s (xs.foldl f s) := by
  induction xs generalizing s with
  | nil => exact .refl l s
  | cons x xs ih => exact (h s x).trans (ih (f s x))

/-- Whatever keeps the links, the queues and the lost Gatehouses. -/
theorem GivesAway.then_same {l : Nat} {s t u : State} (h : GivesAway l s t) (links : u.fabric.links = t.fabric.links := by rfl)
    (queued : u.fabric.egress = t.fabric.egress := by rfl) (stalled : u.fabric.stalled = t.fabric.stalled := by rfl)
    (lost : u.fabric.ghLost = t.fabric.ghLost := by rfl) : GivesAway l s u :=
  h.trans ⟨fun x => congrArg Link.unreceived (State.link_congr links x), fun _ _ q => q.congr queued, stalled, lost⟩

theorem GivesAway.counted {l : Nat} {s t : State} (h : GivesAway l s t) (x ev sel n : Nat) : GivesAway l s (t.countLinkN x ev sel n) := by
  have same : (t.countLinkN x ev sel n).fabric = t.fabric := State.countN_fabric _ _ _ _ _ _
  exact h.then_same (congrArg _ same) (congrArg _ same) (congrArg _ same) (congrArg _ same)

theorem State.dropQueued_givesAway (s : State) (l sel : Nat) (e : EPkt) : GivesAway l s (s.dropQueued l sel e) := by
  have moved := State.dropQueued_moves s l sel e
  obtain ⟨queued, stalled⟩ := moved.egress (by decide)
  exact ⟨s.dropQueued_keepsLinks l sel e, fun _ _ q => q.congr queued, stalled, (moved.same (p := .gatehouses) (by decide)).1⟩

theorem State.moveTo_givesAway (s : State) (l : Nat) (ring : Bool) (e : EPkt) : GivesAway l s (s.moveTo (partner l) ring e) := by
  have moved := State.moveTo_moves s (partner l) ring e
  refine ⟨moved.keepsLinks (by decide), fun x hx q => State.joinQueue_unqueued _ hx.symm q, ?_, (moved.same (p := .gatehouses) (by decide)).1⟩
  obtain ⟨-, -, -, stalled⟩ := State.joinQueue_egress (s.discardQ (qidEgress e.gh e.queue) e.p.seq)
    { e with link := partner l, p := if ring then e.p.turn else e.p } (s.queueFor (partner l) (if ring then e.p.turn else e.p))
  exact stalled

theorem State.handTo_givesAway (s : State) (l : Nat) (e : EPkt) : GivesAway l s (s.handTo l e) :=
  (s.dropQueued_givesAway l 4 e).ite (s.moveTo_givesAway l _ e)

/-- What waits for a retention buffer, once that of link l that can be carried waits for its partner. -/
def State.restalled (s : State) (l : Nat) : State :=
  let mine := s.fabric.stalled.partition fun e => e.link == l
  let goes (e : EPkt) : Bool := s.linkUp (partner l) && !s.stuck l e.p
  { s with fabric := { s.fabric with
    stalled := mine.2 ++ (mine.1.filter goes).map fun e => { e with link := partner l, p := s.onPartner l e.p } } }

theorem State.mem_restalled {s : State} {l : Nat} {e : EPkt} (h : e ∈ (s.restalled l).fabric.stalled) :
    e.link = partner l ∨ (e.link ≠ l ∧ e ∈ s.fabric.stalled) := by
  simp only [State.restalled, List.partition_eq_filter_filter, List.mem_append, List.mem_filter, List.mem_map] at h
  rcases h with ⟨mem, other⟩ | ⟨y, -, rfl⟩
  · exact .inr ⟨by simpa using other, mem⟩
  · exact .inl rfl

theorem State.moveStalled_steps (s : State) (l : Nat) : ∃ (sel : Nat) (es : List EPkt),
    s.moveStalled l = es.foldl (fun (s : State) e => s.dropQueued l sel e) (s.restalled l) := ⟨_, _, rfl⟩

theorem State.queueOwn_unused {s : State} {e : EPkt} {x : Nat} (h : e.link ≠ x) (before : s.unused x) : (s.queueOwn e).unused x := by
  have enqueued : ∀ u : State, u.unused x → (u.enqueue e).unused x := by
    intro u q
    obtain ⟨-, -, -, stalled⟩ := u.joinQueue_egress { e with joined := u.now, epoch := u.fabric.routeEpoch } (u.queueFor e.link e.p)
    exact ⟨State.joinQueue_unqueued (e := { e with joined := u.now, epoch := u.fabric.routeEpoch }) (u.queueFor e.link e.p) h q.1,
      fun y mem => q.2 y (stalled ▸ mem)⟩
  unfold State.queueOwn
  dsimp only
  split
  · exact enqueued s before
  split
  · refine ⟨before.1, fun y mem => ?_⟩
    rcases List.mem_append.mp mem with mem | mem
    · exact before.2 y mem
    · rw [List.mem_singleton.mp mem]; exact h
  · exact enqueued _ before

theorem State.unstall_unused {s : State} {x : Nat} (before : s.unused x) : s.unstall.unused x :=
  List.foldlRecOn s.fabric.stalled (fun (s : State) e => s.queueOwn e) (motive := fun u => State.unused u x)
    ⟨before.1, fun _ mem => nomatch mem⟩ fun _ kept e mem => State.queueOwn_unused (before.2 e mem) kept

/-- Traffic that has left a link leaves no packet behind, and every link but the partner as empty as it was. -/
theorem GivesAway.settled {l : Nat} {s t : State} (h : GivesAway l s t) : KeepsLinks s (t.moveStalled l).unstall ∧
    (t.moveStalled l).unstall.fabric.ghLost = s.fabric.ghLost ∧
    ∀ x, x ≠ partner l → s.unqueued x → (x = l ∨ s.unused x) → (t.moveStalled l).unstall.unused x := by
  obtain ⟨sel, es, steps⟩ := t.moveStalled_steps l
  have dropped : GivesAway l (t.restalled l) (t.moveStalled l) :=
    steps ▸ GivesAway.foldl (fun v e => v.dropQueued_givesAway l sel e) es _
  have unstalled := State.unstall_moves (t.moveStalled l)
  refine ⟨(h.links.trans dropped.links).then_moves unstalled (by decide),
    (unstalled.same (p := .gatehouses) (by decide)).1.trans (dropped.lost.trans h.lost), fun x hx queued before => ?_⟩
  refine State.unstall_unused ⟨dropped.queued x hx (h.queued x hx queued), fun e mem => ?_⟩
  rw [dropped.stalled] at mem
  rcases State.mem_restalled mem with same | ⟨other, mem⟩
  · rw [same]; exact hx.symm
  · rw [h.stalled] at mem
    rcases before with rfl | before
    · exact other
    · exact before.2 e mem

/-- The queued packets of a link, taken out of the egress queues. -/
def State.withoutQueued (s : State) (l : Nat) : State :=
  { s with fabric := { s.fabric with egress := s.fabric.egress.filter fun e => e.link != l } }

theorem State.withoutQueued_unqueued (s : State) (l : Nat) : (s.withoutQueued l).unqueued l :=
  fun _ mem => by simpa using (List.mem_filter.mp mem).2

theorem State.handover_steps (s : State) (l : Nat) : ∃ t, s.handover l = (t.moveStalled l).unstall ∧ GivesAway l (s.withoutQueued l) t := by
  refine ⟨_, rfl, GivesAway.ite (GivesAway.counted (GivesAway.then_same
      (GivesAway.foldl (fun v e => v.handTo_givesAway l e) (s.handoverSet l) (s.withoutQueued l))) _ _ _ _)
    (GivesAway.then_same (GivesAway.foldl (fun v e => v.dropQueued_givesAway l 10 e) (s.handoverSet l) (s.withoutQueued l)))⟩

/-- A handover moves and drops packets, and of the links changes only what their receive pools hold. -/
theorem State.handover_keepsLinks (s : State) (l : Nat) : KeepsLinks s (s.handover l) := by
  obtain ⟨t, steps, gone⟩ := s.handover_steps l
  rw [steps]
  exact gone.settled.1

/-- A link that has handed its traffic over has none left. -/
theorem State.handover_unused (s : State) (l : Nat) : (s.handover l).unused l := by
  obtain ⟨t, steps, gone⟩ := s.handover_steps l
  obtain ⟨-, -, unused⟩ := gone.settled
  rw [steps]
  exact unused l (partner_ne l).symm (s.withoutQueued_unqueued l) (.inl rfl)

/-! ## A link that goes down (R260, R266 to R268) -/

/-- The state in which link l has told its peer and given its traffic away, and is not yet down. -/
def State.vacated (s : State) (l cause : Nat) : State :=
  let k := s.link l
  let s := if k.lanesOk && k.established && cause != 0x07 then s.sendCtrl l (.linkDown cause) else s
  if k.established then s.handover l else s

theorem State.vacated_keepsLinks (s : State) (l cause : Nat) : KeepsLinks s (s.vacated l cause) := by
  have told : KeepsLinks s (if (s.link l).lanesOk && (s.link l).established && cause != 0x07 then s.sendCtrl l (.linkDown cause) else s) :=
    (s.sendCtrl_keepsLinks l _).ite (.refl s)
  exact (told.trans (State.handover_keepsLinks _ l)).ite told

theorem State.vacated_unqueued {s : State} {l : Nat} (cause : Nat) (est : (s.link l).established = true) : (s.vacated l cause).unqueued l := by
  unfold State.vacated
  simp only [est, if_true]
  exact (State.handover_unused _ l).1

theorem State.link_linkDown (s : State) (l st cause x : Nat) :
    (s.linkDown l st cause).link x = if x = l then
      { (s.vacated l cause).link l with
        st := st, cause := cause, narrow := false, rxNarrow := false, keys := [], kx := {}, tx := {}, standbyAsked := false, mapSent := none,
        rx := { released := ((s.vacated l cause).link l).rx.released, held := ((s.vacated l cause).link l).rx.held } }
    else (s.vacated l cause).link x := by
  simp only [State.linkDown, State.link_log, State.link_irqEdge]
  exact State.link_onLink _ l x _

theorem State.linkDown_egress (s : State) (l st cause : Nat) : (s.linkDown l st cause).fabric.egress = (s.vacated l cause).fabric.egress := by
  simp only [State.linkDown, State.log_fabric, State.irqEdge_fabric]
  rfl

theorem State.linkDown_lost (s : State) (l st cause : Nat) : s.linkLost l st cause (s.linkDown l st cause) := by
  unfold State.linkLost
  simp only [State.link_linkDown, State.linkDown_egress, if_true]
  refine ⟨trivial, trivial, trivial, trivial, trivial, trivial, State.vacated_unqueued cause, fun x other => ?_⟩
  rw [if_neg other]
  exact (s.vacated_keepsLinks l cause).st x

/-- A link that is lost from a state with the same link states is lost from the state before. -/
theorem State.linkLost.since {s u t : State} {l st cause : Nat} (h : u.linkLost l st cause t)
    (service : (s.link l).established = true → (u.link l).established = true) (others : ∀ x, x ≠ l → (u.link x).st = (s.link x).st) :
    s.linkLost l st cause t := by
  obtain ⟨hst, hcause, keys, tx, kx, grp, queued, same⟩ := h
  exact ⟨hst, hcause, keys, tx, kx, grp, fun est => queued (service est), fun x other => (same x other).trans (others x other)⟩

end Sys2Proof.Machine
end

section
namespace Sys2Proof.Machine

open Sys2Proof

/-! ## A link that starts from DETECT (R264, R268, R273) -/

/-- A link as it enters DETECT under the settings of a state, or stays DISABLED. -/
def State.detecting (s : State) (l : Nat) (k : Link) : Link :=
  { k with st := if s.flag (Obj.linkEnable l) then 1 else 0, narrowOk := s.flag (Obj.linkNarrowOk l),
           auditEn := s.flag (Obj.linkAuditEn l), narrow := false, rxNarrow := false, kx := {}, tx := {}, rx := {},
           keys := [], lanes := 0x0FF, txLanes := 0x0FF, spareFor := none, spareBad := false, lanesOk := true }

theorem State.link_toDetect (s : State) (l : Nat) : (s.toDetect l).link l = s.detecting l (s.link l) := by
  have moved := State.discardPool_moves s l
  have flag : ∀ k, (s.discardPool l).flag k = s.flag k := fun k => congrArg (· != 0) (State.reg_congr (moved.same (p := .regs) (by decide)) k)
  simp only [State.toDetect, State.link_onLink, if_true, flag, moved.link (by decide) l, State.detecting]

theorem State.toDetect_regs (s : State) (l : Nat) : (s.toDetect l).regs = s.regs := (State.toDetect_moves s l).same (p := .regs) (by decide)

theorem State.linkDown_regs (s : State) (l st cause : Nat) : (s.linkDown l st cause).regs = s.regs :=
  (State.linkDown_moves s l st cause).same (p := .regs) (by decide)

/-! ## LINK_CMD (R264, R273, R274) -/

/-- A LINK_CMD completes with its effect where the record accepts it and names a link. -/
theorem completes_linkCmd {c : Instr} {s : State} {code l : Nat} {f : Nat → State → State} {post : State → Prop}
    (hs : s.accepts Obj.linkCmdResult) (hl : l = s.reg Obj.linkCmdLink) (named : l < 32) (hc : exec c s = linkCmd s code f)
    (h : post (f l (s.setReg Obj.linkCmdOp code))) : Completes c s post := by
  have same : (s.setReg Obj.linkCmdOp code).reg Obj.linkCmdLink = l := (State.reg_setReg_ne s code (by decide)).trans hl.symm
  refine completes_record hs hc ?_
  simp only [same, named, if_true]
  exact h

/-- What the registers hold after a LINK_CMD that writes its RESULT last. -/
theorem State.linkResult {s u : State} {code : Nat} (v : Nat) (h : u.regs = (s.setReg Obj.linkCmdOp code).regs) :
    (u.setReg Obj.linkCmdResult v).reg Obj.linkCmdResult = v ∧ s.regsBut [Obj.linkCmdOp, Obj.linkCmdResult] (u.setReg Obj.linkCmdResult v) := by
  refine ⟨by simp, fun k out => ?_⟩
  simp only [List.mem_cons, List.not_mem_nil, or_false, not_or] at out
  rw [State.reg_setReg_ne _ _ out.2, State.reg_congr h, State.reg_setReg_ne _ _ out.1]

theorem State.flag_setOp (s : State) {l : Nat} (code : Nat) (named : l < 32) :
    (s.setReg Obj.linkCmdOp code).flag (Obj.linkEnable l) = s.flag (Obj.linkEnable l) := by
  unfold State.flag
  rw [State.reg_setReg_ne]
  simp only [Obj.linkEnable, Obj.linkCmdOp]
  omega

/-- The state in which RETRAIN starts a link from DETECT: it has gone DOWN unless it was down (R274). -/
def State.retrainFrom (s : State) (l : Nat) : State := if (s.link l).st == 9 || (s.link l).st == 10 then s else s.linkDown l 9 0x08

/-- A link that RETRAIN has started again (R260, R264, R274). -/
theorem State.retrainFrom_toDetect (s : State) (l : Nat) : ((s.retrainFrom l).toDetect l).regs = s.regs ∧
    (((s.retrainFrom l).toDetect l).link l).st = (if s.flag (Obj.linkEnable l) then 1 else 0) ∧
    (((s.retrainFrom l).toDetect l).link l).keys = [] ∧
    ((s.link l).st ≠ 9 → (s.link l).st ≠ 10 → (((s.retrainFrom l).toDetect l).link l).cause = 0x08) := by
  have regs : (s.retrainFrom l).regs = s.regs := by
    unfold State.retrainFrom
    split
    · rfl
    · exact s.linkDown_regs l 9 0x08
  simp only [State.toDetect_regs, State.link_toDetect, State.detecting, State.flag, State.reg_congr regs]
  refine ⟨regs, rfl, trivial, fun down failed => ?_⟩
  obtain ⟨-, cause, -⟩ := s.linkDown_lost l 9 0x08
  simpa [State.retrainFrom, down, failed] using cause

section Commands

variable {s : State} {l : Nat} (hs : s.accepts Obj.linkCmdResult) (hl : l = s.reg Obj.linkCmdLink) (named : l < 32)

include hs hl named

/-- RETRAIN of a link that is not DISABLED and needs no partner. -/
theorem completes_retrain {post : State → Prop} (on : (s.link l).st ≠ 0) (free : s.needsPartner l = false)
    (h : ∀ u : State, u.regs = (s.setReg Obj.linkCmdOp 0x01).regs → (u.link l).st = (if s.flag (Obj.linkEnable l) then 1 else 0) →
      (u.link l).keys = [] → ((s.link l).st ≠ 9 → (s.link l).st ≠ 10 → (u.link l).cause = 0x08) →
      post (if (u.link l).st == 0 then u.setReg Obj.linkCmdResult 0x00
        else (u.onLink l fun k => { k with retrainCmd := true }).setReg Obj.linkCmdResult 0x01)) : Completes .retrain s post := by
  refine completes_linkCmd hs hl named (by rw [exec, execRetrain]) ?_
  have free' : (s.setReg Obj.linkCmdOp 0x01).needsPartner l = false := free
  have on' : ((s.link l).st == 0) = false := by simpa using on
  simp only [State.link_setReg, on', free', Bool.false_eq_true, if_false]
  obtain ⟨regs, st, keys, cause⟩ := (s.setReg Obj.linkCmdOp 0x01).retrainFrom_toDetect l
  exact h _ regs (s.flag_setOp 0x01 named ▸ st) keys cause

theorem retrain_completes (on : (s.link l).st ≠ 0) (free : s.needsPartner l = false) (enabled : s.flag (Obj.linkEnable l) = true) :
    Completes .retrain s fun t =>
      (t.link l).st = 1 ∧ (t.link l).keys = [] ∧ (t.link l).retrainCmd = true ∧
        ((s.link l).st ≠ 9 → (s.link l).st ≠ 10 → (t.link l).cause = 0x08) ∧ t.reg Obj.linkCmdResult = 0x01 ∧
        s.regsBut [Obj.linkCmdOp, Obj.linkCmdResult] t := by
  refine completes_retrain hs hl named on free fun u regs st keys cause => ?_
  have st : (u.link l).st = 1 := by simpa [enabled] using st
  simp only [st, Nat.reduceBEq, Bool.false_eq_true, if_false, State.link_setReg, State.link_onLink, if_true]
  exact ⟨trivial, keys, trivial, cause, State.linkResult 0x01 regs⟩

theorem retrain_disabled_completes (on : (s.link l).st ≠ 0) (free : s.needsPartner l = false) (off : s.flag (Obj.linkEnable l) = false) :
    Completes .retrain s fun t =>
      (t.link l).st = 0 ∧ (t.link l).keys = [] ∧ t.reg Obj.linkCmdResult = 0x00 ∧ s.regsBut [Obj.linkCmdOp, Obj.linkCmdResult] t := by
  refine completes_retrain hs hl named on free fun u regs st keys _ => ?_
  have st : (u.link l).st = 0 := by simpa [off] using st
  simp only [st, beq_self_eq_true, if_true, State.link_setReg]
  exact ⟨trivial, keys, State.linkResult 0x00 regs⟩

theorem disable_completes (free : s.needsPartner l = false) : Completes .disable s fun t =>
    (t.link l).st = 0 ∧ ((s.link l).st ≠ 0 → s.linkLost l 0 0x08 t) ∧ t.reg Obj.linkCmdResult = 0x00 ∧
      s.regsBut [Obj.linkCmdOp, Obj.linkCmdResult] t := by
  refine completes_linkCmd hs hl named (by rw [exec, execDisable]) ?_
  have free' : (s.setReg Obj.linkCmdOp 0x02).needsPartner l = false := free
  simp only [State.link_setReg, free', Bool.false_eq_true, if_false]
  by_cases off : (s.link l).st = 0
  · simp only [off, beq_self_eq_true, if_true, State.link_setReg]
    exact ⟨trivial, fun on => absurd rfl on, State.linkResult 0x00 rfl⟩
  · have on : ((s.link l).st == 0) = false := by simpa using off
    simp only [on, Bool.false_eq_true, if_false]
    have lost := (s.setReg Obj.linkCmdOp 0x02).linkDown_lost l 0 0x08
    exact ⟨lost.1, fun _ => lost, State.linkResult 0x00 (State.linkDown_regs _ l 0 0x08)⟩

theorem enable_completes (off : (s.link l).st = 0) : Completes .enable s fun t =>
    (t.link l).st = (if s.flag (Obj.linkEnable l) then 1 else 0) ∧ t.reg Obj.linkCmdResult = 0x00 ∧
      s.regsBut [Obj.linkCmdOp, Obj.linkCmdResult] t := by
  refine completes_linkCmd hs hl named (by rw [exec, execEnable]) ?_
  simp only [State.link_setReg, off, beq_self_eq_true, if_true, State.link_toDetect, State.detecting, State.flag_setOp s 0x03 named]
  exact ⟨trivial, State.linkResult 0x00 (State.toDetect_regs _ l)⟩

theorem linkQuery_completes : Completes .linkQuery s fun t =>
    t.reg Obj.linkCmdLanes = (s.link l).lanes + (if (s.link l).spareBad then 0x8000 else 0) ∧
      t.blob Obj.linkCmdPeer = padBytes 16 ((s.link l).peerHash.take 16) ∧ t.reg Obj.linkCmdResult = 0x00 ∧
      t.fabric = s.fabric ∧ s.regsBut [Obj.linkCmdOp, Obj.linkCmdLanes, Obj.linkCmdResult] t := by
  refine completes_linkCmd hs hl named (by rw [exec, execLinkQuery]) ?_
  refine ⟨?_, ?_, ?_, rfl, fun k out => ?_⟩
  · rw [State.reg_setReg_ne _ _ (by decide), State.reg_setBlob, State.reg_setReg, if_pos rfl]; rfl
  · simp
  · simp
  · simp only [List.mem_cons, List.not_mem_nil, or_false, not_or] at out
    simp [out]

end Commands

theorem dedupClear_completes {s : State} (hs : s.accepts Obj.linkCmdResult) : Completes .dedupClear s fun t =>
    t.fabric.dedup = s.fabric.dedup.filter (fun k _ => k / 4 != s.reg Obj.linkCmdEpid % 2 ^ 20) ∧ t.reg Obj.linkCmdResult = 0x00 ∧
      s.regsBut [Obj.linkCmdOp, Obj.linkCmdResult] t := by
  refine completes_record hs (by rw [exec, execDedupClear]) ?_
  simp only [State.reg_setReg_ne s 0x05 (show Obj.linkCmdEpid ≠ Obj.linkCmdOp by decide)]
  exact ⟨rfl, State.linkResult 0x00 rfl⟩

/-- Settles O34: RETRAIN and DISABLE take a link down as any loss does, RETRAIN and ENABLE start it from DETECT, and no command writes a
register but its own record's. -/
theorem linkCommandsComplete : Obligations.LinkCommandsComplete := by
  unfold Obligations.LinkCommandsComplete
  exact fun s l hs => ⟨fun hl named =>
    ⟨retrain_completes hs hl named, retrain_disabled_completes hs hl named, disable_completes hs hl named, enable_completes hs hl named,
      linkQuery_completes hs hl named⟩,
    dedupClear_completes hs⟩

end Sys2Proof.Machine
end

section
namespace Sys2Proof.Machine

open Sys2Proof

/-! ## Steps of a key exchange (R259) -/

theorem State.link_keyxSend (s : State) (l step : Nat) (m : CtrlMsg) : ∃ r : LinkRx, (s.keyxSend l step m).link l =
    { s.link l with rx := r, kx := { (s.link l).kx with step := step, tries := 0, latest := some m,
                                                         mine := (s.link l).kx.mine ++ [keyxBytes m] } } := by
  unfold State.keyxSend
  rw [State.link_sendCtrl, if_pos rfl, State.link_onLink, if_pos rfl]
  exact ⟨_, rfl⟩

theorem State.says_keyxSend {s u : State} (l step : Nat) (m : CtrlMsg) (before : u.out = s.out) : s.says l m (u.keyxSend l step m) :=
  State.says_sendCtrl (u := u.onLink l _) rfl before

theorem State.keyxSend_drawn (s : State) (l step : Nat) (m : CtrlMsg) : (s.keyxSend l step m).sec.drawn = s.sec.drawn := by
  obtain ⟨-, drawn, -⟩ := (State.keyxSend_moves s l step m).same (p := .entropy) (by decide)
  exact drawn

@[simp] theorem State.link_keyxTake (s : State) (l : Nat) (m : CtrlMsg) :
    (s.keyxTake l m).link l = { s.link l with kx := { (s.link l).kx with peer := (s.link l).kx.peer ++ [keyxBytes m] } } := by
  simp only [State.keyxTake, State.link_onLink, if_true]

theorem State.link_carried (s : State) (n x : Nat) : State.link { s with fabric := { s.fabric with carried := n } } x = s.link x := rfl

@[simp] theorem State.link_draw (s : State) (n x : Nat) : (s.draw n).2.link x = s.link x := rfl

theorem Link.no_retrain {k : Link} (h : k.retrainCmd = false) : { k with retrainCmd := false } = k := by rw [← h]

/-- The end of a RETRAIN changes of a link only that none runs (R274). -/
theorem State.link_retrainEnd (s : State) (l x : Nat) :
    (s.retrainEnd l).link x = if x = l then { s.link l with retrainCmd := false } else s.link x := by
  unfold State.retrainEnd
  split
  case isTrue => rw [State.link_setReg, State.link_onLink]
  case isFalse idle =>
    rw [Link.no_retrain (by simpa using idle)]
    split
    case isTrue same => rw [same]
    case isFalse => rfl

theorem State.retrainEnd_fabric (s : State) (l : Nat) : { (s.retrainEnd l).fabric with links := s.fabric.links } = s.fabric := by
  unfold State.retrainEnd
  split <;> rfl

/-- A link that is lost stays so at the end of a RETRAIN. -/
theorem State.linkLost.retrainEnd {s t : State} {l st cause : Nat} (h : s.linkLost l st cause t) : s.linkLost l st cause (t.retrainEnd l) := by
  obtain ⟨hst, hcause, keys, tx, kx, grp, queued, same⟩ := h
  have egress : (t.retrainEnd l).fabric.egress = t.fabric.egress := (congrArg Fabric.egress (t.retrainEnd_fabric l) :)
  unfold State.linkLost
  simp only [State.link_retrainEnd, egress, if_true]
  refine ⟨hst, hcause, keys, tx, kx, grp, queued, fun x other => ?_⟩
  rw [if_neg other]
  exact same x other

theorem State.keyxFail_lost (s : State) (l : Nat) : s.linkLost l 10 0x05 (s.keyxFail l) := (s.linkDown_lost l 10 0x05).retrainEnd

section Exchange

variable {s : State} {link : Fin 32} (hs : s.running = true)

include hs

theorem trainingDone_completes (training : (s.link link.val).st = 2) : Completes (.trainingDone link) s fun t =>
    (t.link link.val).st = 3 ∧ (t.link link.val).kx.step = 1 ∧
      s.says link.val (.hello 1 (s.link link.val).auditEn (s.link link.val).narrowOk) t := by
  refine completes_live hs (by rw [exec, execTrainingDone]) ?_
  simp only [training, beq_self_eq_true, if_true]
  generalize hu : s.setLink _ _ = u
  have opened : (u.link link.val).st = 3 := by rw [← hu, State.link_setLink, if_pos rfl]
  have out : u.out = s.out := by rw [← hu]; rfl
  obtain ⟨r, sent⟩ := u.link_keyxSend link.val 1 (.hello 1 (s.link link.val).auditEn (s.link link.val).narrowOk)
  rw [sent]
  exact ⟨opened, rfl, State.says_keyxSend _ _ _ out⟩

theorem trainingFailed_completes (training : (s.link link.val).st = 2) :
    Completes (.trainingFailed link) s fun t => s.linkLost link.val 10 0x09 t := by
  refine completes_live hs (by rw [exec, execTrainingFailed]) ?_
  simp only [training, beq_self_eq_true, if_true]
  exact (s.linkDown_lost link.val 10 0x09).retrainEnd

variable (exchange : (s.link link.val).st = 3)

include exchange

theorem keyxTimeout_completes : Completes (.keyxTimeout link) s fun t => s.linkLost link.val 10 0x05 t := by
  refine completes_live hs (by rw [exec, execKeyxTimeout]) ?_
  simp only [exchange, beq_self_eq_true, if_true]
  exact s.keyxFail_lost link.val

theorem keyxRetransmit_completes {m : CtrlMsg} (tries : (s.link link.val).kx.tries < 3) (latest : (s.link link.val).kx.latest = some m) :
    Completes (.keyxRetransmit link) s fun t => (t.link link.val).kx.tries = (s.link link.val).kx.tries + 1 ∧ s.says link.val m t := by
  refine completes_live hs (by rw [exec, execKeyxRetransmit]) ?_
  simp only [exchange, beq_self_eq_true, tries, decide_true, Bool.and_self, if_true, latest]
  refine ⟨?_, State.says_sendCtrl rfl rfl⟩
  simp only [State.link_sendCtrl, State.link_setLink, if_true]

theorem hello_completes (version : Nat) (audit narrow : Bool) (step : (s.link link.val).kx.step = 1) :
    Completes (.hello link version audit narrow) s fun t =>
      (t.link link.val).kx.step = 2 ∧ (t.link link.val).kx.peerAudit = audit ∧
        (t.link link.val).kx.peer = (s.link link.val).kx.peer ++ [keyxBytes (.hello version audit narrow)] ∧
        (t.link link.val).kx.mine = (s.link link.val).kx.mine ++ [keyxBytes (.cert ownChain)] ∧
        s.says link.val (.cert ownChain) t := by
  refine completes_live hs (by rw [exec, execHello]) ?_
  simp only [exchange, step, beq_self_eq_true, Bool.and_self, if_true]
  generalize hu : State.onLink (s.keyxTake _ _) _ _ = u
  have taken : u.link link.val = { s.link link.val with kx := { (s.link link.val).kx with
      peer := (s.link link.val).kx.peer ++ [keyxBytes (.hello version audit narrow)], peerAudit := audit, peerNarrow := narrow } } := by
    rw [← hu, State.link_onLink, if_pos rfl, State.link_keyxTake]
  have out : u.out = s.out := by rw [← hu]; rfl
  obtain ⟨r, sent⟩ := u.link_keyxSend link.val 2 (.cert ownChain)
  rw [sent, taken]
  exact ⟨rfl, rfl, rfl, rfl, State.says_keyxSend _ _ _ out⟩

theorem cert_completes {chain sig : Bytes} (step : (s.link link.val).kx.step = 2) (served : s.served = true) (identity : s.sec.noIdentity = false)
    (hsig : sig = Config.ecdsaSign (Config.sha384 (transcript (lowerCert (leafOfChain chain)) (s.link link.val).kx.mine
      ((s.link link.val).kx.peer ++ [keyxBytes (.cert chain)]))))
    (trusted : (s.withTrust (s.link link.val).kx.anchors (s.link link.val).kx.deny).chainOk chain (fun _ => true) = true) :
    Completes (.cert link chain) s fun t =>
      (t.link link.val).kx.step = 3 ∧ (t.link link.val).kx.peerChain = chain ∧ (t.link link.val).kx.eph = s.sec.drawn ∧
        (t.link link.val).sideA = decide (beNat (Config.sha384 Config.deviceCert) < beNat (Config.sha384 (leafOfChain chain))) ∧
        t.sec.drawn = s.sec.drawn + 48 ∧ s.says link.val (.share (Config.ephemeralPub s.sec.drawn) sig) t := by
  refine completes_live hs (by rw [exec, execCert]) ?_
  have sign : s.canSign = true := by simp [State.canSign, served, identity]
  simp only [exchange, step, beq_self_eq_true, Bool.and_self, if_true, trusted, identity, sign, Bool.not_true, Bool.or_self, Bool.false_eq_true,
    if_false]
  generalize hu : State.onLink (State.draw _ 48).2 _ _ = u
  have taken : u.link link.val = { s.link link.val with sideA := lowerCert (leafOfChain chain), kx := { (s.link link.val).kx with
      peer := (s.link link.val).kx.peer ++ [keyxBytes (.cert chain)], peerChain := chain, eph := s.sec.drawn } } := by
    rw [← hu, State.link_onLink, if_pos rfl, State.link_draw, State.link_keyxTake]
    rfl
  have out : u.out = s.out := by rw [← hu]; rfl
  have drawn : u.sec.drawn = s.sec.drawn + 48 := by rw [← hu]; rfl
  have signed : Config.ecdsaSign (Config.sha384 (u.link link.val).transcript) = sig := by rw [taken, hsig]; rfl
  rw [signed]
  obtain ⟨r, sent⟩ := u.link_keyxSend link.val 3 (.share (Config.ephemeralPub s.sec.drawn) sig)
  have same : (s.keyxTake link.val (.cert chain)).sec.drawn = s.sec.drawn := rfl
  rw [same, sent, taken, State.keyxSend_drawn]
  exact ⟨rfl, rfl, rfl, rfl, drawn, State.says_keyxSend _ _ _ out⟩

theorem cert_untrusted_completes {chain : Bytes} (step : (s.link link.val).kx.step = 2)
    (untrusted : (s.withTrust (s.link link.val).kx.anchors (s.link link.val).kx.deny).chainOk chain (fun _ => true) = false) :
    Completes (.cert link chain) s fun t => s.linkLost link.val 10 0x05 t := by
  refine completes_live hs (by rw [exec, execCert]) ?_
  simp only [exchange, step, beq_self_eq_true, Bool.and_self, if_true, untrusted, Bool.not_false, Bool.true_or]
  exact s.keyxFail_lost link.val

theorem share_completes {pub sig th keys : Bytes} (step : (s.link link.val).kx.step = 3)
    (hth : th = transcript (s.link link.val).sideA (s.link link.val).kx.mine ((s.link link.val).kx.peer ++ [keyxBytes (.share pub sig)]))
    (hkeys : keys = hkdf72 (Config.ecdhSecret (s.link link.val).kx.eph pub) (Config.sha384 th) "TRH link v1")
    (signed : Config.ecdsaVerify (leafKey (s.link link.val).kx.peerChain) (Config.sha384 (s.link link.val).transcript) sig = true) :
    Completes (.share link pub sig) s fun t =>
      (t.link link.val).kx.step = 4 ∧ (t.link link.val).keys = keys ∧
        (t.link link.val).peerHash = Config.sha384 (leafOfChain (s.link link.val).kx.peerChain) ∧
        (t.link link.val).sideA = (s.link link.val).sideA ∧ s.says link.val (.finished (Config.hmac384 keys th)) t := by
  refine completes_live hs (by rw [exec, execShare]) ?_
  have whole : ((s.keyxTake link.val (.share pub sig)).link link.val).transcript = th := by rw [State.link_keyxTake, hth]; rfl
  simp only [exchange, step, beq_self_eq_true, Bool.and_self, if_true, signed, whole, ← hkeys]
  generalize hu : State.onLink (s.keyxTake _ _) _ _ = u
  obtain ⟨r, sent⟩ := u.link_keyxSend link.val 4 (.finished (Config.hmac384 keys th))
  obtain ⟨agreed, hash, side⟩ : (u.link link.val).keys = keys ∧ (u.link link.val).peerHash = Config.sha384 (leafOfChain (s.link link.val).kx.peerChain) ∧
      (u.link link.val).sideA = (s.link link.val).sideA := by
    rw [← hu, State.link_onLink, if_pos rfl, State.link_keyxTake]
    exact ⟨rfl, rfl, rfl⟩
  have out : u.out = s.out := by rw [← hu]; rfl
  rw [sent]
  exact ⟨rfl, agreed, hash, side, State.says_keyxSend _ _ _ out⟩

theorem share_unsigned_completes {pub sig : Bytes} (step : (s.link link.val).kx.step = 3)
    (unsigned : Config.ecdsaVerify (leafKey (s.link link.val).kx.peerChain) (Config.sha384 (s.link link.val).transcript) sig = false) :
    Completes (.share link pub sig) s fun t => s.linkLost link.val 10 0x05 t := by
  refine completes_live hs (by rw [exec, execShare]) ?_
  simp only [exchange, step, beq_self_eq_true, Bool.and_self, if_true, unsigned, Bool.false_eq_true, if_false]
  exact s.keyxFail_lost link.val

theorem finished_completes {mac : Bytes} (step : (s.link link.val).kx.step = 4)
    (agreed : mac = Config.hmac384 (s.link link.val).keys (s.link link.val).transcript) : Completes (.finished link mac) s fun t =>
      (t.link link.val).st = 4 ∧ (t.link link.val).narrow = false ∧
        (t.link link.val).audit = ((s.link link.val).auditEn && (s.link link.val).kx.peerAudit) ∧ (t.link link.val).tx = {} ∧
        (t.link link.val).rx = {} ∧ (t.link link.val).keys = (s.link link.val).keys ∧
        t.fabric.carried = clearBit s.fabric.carried link.val := by
  refine completes_live hs (by rw [exec, execFinished]) ?_
  simp only [exchange, step, agreed, beq_self_eq_true, Bool.and_self, if_true]
  simp only [State.link_retrainEnd, State.link_carried, State.link_setLink, if_true]
  exact ⟨trivial, trivial, trivial, trivial, trivial, trivial, (congrArg Fabric.carried (State.retrainEnd_fabric _ link.val) :)⟩

theorem finished_wrong_completes {mac : Bytes} (step : (s.link link.val).kx.step = 4)
    (wrong : mac ≠ Config.hmac384 (s.link link.val).keys (s.link link.val).transcript) :
    Completes (.finished link mac) s fun t => s.linkLost link.val 10 0x05 t := by
  refine completes_live hs (by rw [exec, execFinished]) ?_
  simp only [exchange, step, beq_self_eq_true, Bool.and_self, if_true, beq_eq_false_iff_ne.mpr wrong, Bool.false_eq_true, if_false]
  exact s.keyxFail_lost link.val

end Exchange

/-- Settles O33: each message of the exchange is answered by the next, over the transcript that it has joined, and what fails a check takes
the link down as any loss does. -/
theorem keyExchangeCompletes : Obligations.KeyExchangeCompletes := by
  unfold Obligations.KeyExchangeCompletes
  rintro s link - hs rfl
  refine ⟨fun training => ⟨trainingDone_completes hs training, trainingFailed_completes hs training⟩, fun exchange =>
    ⟨keyxTimeout_completes hs exchange, fun m => keyxRetransmit_completes hs exchange, hello_completes hs exchange,
      fun chain sig step served identity hsig =>
        ⟨cert_completes hs exchange step served identity hsig, cert_untrusted_completes hs exchange step⟩,
      fun pub sig th keys step hth hkeys => ⟨share_completes hs exchange step hth hkeys, share_unsigned_completes hs exchange step⟩,
      fun mac step => ⟨finished_completes hs exchange step, finished_wrong_completes hs exchange step⟩⟩⟩

end Sys2Proof.Machine
end

section
namespace Sys2Proof.Machine

open Sys2Proof

/-! ## Header fields of a flit that is not bad (R249) -/

/-- The state in which header fields have been applied to link l and copies in retention buffers freed. -/
def State.acknowledged (s : State) (l : Nat) (h : CtrlHdr) (rs : List Retained) : State :=
  let s := s.onLink l fun k => k.heard h s.now
  { s with fabric := { s.fabric with retained := rs } }

theorem State.applyHdr_steps (s : State) (l : Nat) (h : CtrlHdr) : ∃ rs, s.applyHdr l h = (s.acknowledged l h rs).unstall := ⟨_, rfl⟩

theorem State.link_applyHdr (s : State) (l x : Nat) (h : CtrlHdr) :
    (s.applyHdr l h).link x = if x = l then (s.link l).heard h s.now else s.link x := by
  obtain ⟨rs, steps⟩ := s.applyHdr_steps l h
  rw [steps, (State.unstall_moves _).link (by decide)]
  exact State.link_onLink s l x fun k => k.heard h s.now

/-- Where nothing waits for a retention buffer, no packet is queued. -/
theorem State.applyHdr_egress {s : State} (l : Nat) (h : CtrlHdr) (none : s.fabric.stalled = []) :
    (s.applyHdr l h).fabric.egress = s.fabric.egress := by
  obtain ⟨rs, steps⟩ := s.applyHdr_steps l h
  have still : (s.acknowledged l h rs).fabric.stalled = [] := none
  simp only [steps, State.unstall, still, List.foldl_nil]
  rfl

/-- What a header's fields leave of the transmit side (R249). -/
theorem Link.heard_tx (k : Link) (h : CtrlHdr) (now : Nat) :
    (k.heard h now).tx.line = k.tx.line ∧ (k.heard h now).tx.sync = k.tx.sync := by
  have acked : (k.tx.ackUpTo h.ack).line = k.tx.line ∧ (k.tx.ackUpTo h.ack).sync = k.tx.sync := by
    unfold LinkTx.ackUpTo
    split <;> exact ⟨rfl, rfl⟩
  simp only [Link.heard, LinkTx.credit, LinkTx.stamped]
  split <;> exact acked

/-- The state in which a CTRL flit's message is taken: its header fields are applied. -/
def State.ctrlHeard (s : State) (l : Nat) (h : CtrlHdr) : State := (s.countLink l 0x2011 3).applyHdr l h

theorem State.link_ctrlHeard (s : State) (l x : Nat) (h : CtrlHdr) :
    (s.ctrlHeard l h).link x = if x = l then (s.link l).heard h s.now else s.link x := by
  have now : (s.countLink l 0x2011 3).now = s.now := congrArg Power.timebase (State.countLink_power _ _ _ _)
  simp only [State.ctrlHeard, State.link_applyHdr, State.link_countLink, now]

theorem State.ctrlHeard_moves (s : State) (l : Nat) (h : CtrlHdr) : Moves [.links, .egress, .counters, .samples, .irqPending] s (s.ctrlHeard l h) :=
  ((State.countLink_moves s l 0x2011 3).mono (by decide)).trans ((State.applyHdr_moves _ l h).mono (by decide))

theorem State.ctrlHeard_out (s : State) (l : Nat) (h : CtrlHdr) : (s.ctrlHeard l h).out = s.out :=
  (s.ctrlHeard_moves l h).same (p := .out) (by decide)

theorem State.ctrlHeard_reg (s : State) (l : Nat) (h : CtrlHdr) (k : Nat) : (s.ctrlHeard l h).reg k = s.reg k :=
  State.reg_congr ((s.ctrlHeard_moves l h).same (p := .regs) (by decide)) k

theorem State.ctrlHeard_now (s : State) (l : Nat) (h : CtrlHdr) : (s.ctrlHeard l h).now = s.now :=
  (s.ctrlHeard_moves l h).same (p := .timebase) (by decide)

theorem State.linkBusy_ctrlHeard {s : State} (l : Nat) (h : CtrlHdr) (none : s.fabric.stalled = []) :
    (s.ctrlHeard l h).linkBusy l = s.linkBusy l := by
  have counted := State.countLink_fabric s l 0x2011 3
  have queued : (s.ctrlHeard l h).fabric.egress = s.fabric.egress :=
    (State.applyHdr_egress l h (by rw [counted]; exact none)).trans (congrArg Fabric.egress counted)
  have line := ((s.link l).heard_tx h s.now).1
  simp only [State.linkBusy, queued, State.link_ctrlHeard, if_true, line]

/-- A link lost from a state in which header fields have been applied is lost from the state before. -/
theorem State.linkLost.since_ctrlHeard {s t : State} {l st cause : Nat} {h : CtrlHdr} (lost : (s.ctrlHeard l h).linkLost l st cause t) :
    s.linkLost l st cause t := by
  refine lost.since (fun est => ?_) fun x other => ?_
  · rw [State.link_ctrlHeard, if_pos rfl]; exact est
  · rw [State.link_ctrlHeard, if_neg other]

/-- A CTRL message completes with its effect on a link in service. -/
theorem completes_ctrl {c : Instr} {s : State} {l : Nat} {h : CtrlHdr} {f : State → State} {post : State → Prop} (hs : s.running = true)
    (service : (s.link l).established = true) (hc : exec c s = live s fun s => s.ctrlIn l h f) (effect : post (f (s.ctrlHeard l h))) :
    Completes c s post :=
  completes_live hs hc (by simp only [State.ctrlIn, service, if_true]; exact effect)

/-! ## Replays (R250) -/

theorem State.startReplay_of_room {s : State} {l : Nat} (n sel : Nat) (room : (s.link l).tx.consec < s.reg Obj.replayMax) :
    (s.startReplay l n sel).link l = (s.link l).replays n s.now := by
  have regs : ∀ f, ((s.onLink l f).countLink l 0x2014 sel).reg Obj.replayMax = s.reg Obj.replayMax :=
    fun f => State.reg_congr (State.countLink_regs _ _ _ _) _
  simp only [State.startReplay, regs, show ¬ s.reg Obj.replayMax < (s.link l).tx.consec + 1 by omega, if_false, State.link_countLink,
    State.link_onLink, if_true]
  rfl

theorem State.startReplay_lost {s : State} {l : Nat} (n sel : Nat) (full : s.reg Obj.replayMax ≤ (s.link l).tx.consec) :
    s.linkLost l 9 0x02 (s.startReplay l n sel) := by
  have regs : ∀ f, ((s.onLink l f).countLink l 0x2014 sel).reg Obj.replayMax = s.reg Obj.replayMax :=
    fun f => State.reg_congr (State.countLink_regs _ _ _ _) _
  simp only [State.startReplay, regs, show s.reg Obj.replayMax < (s.link l).tx.consec + 1 by omega, if_true]
  refine (State.linkDown_lost _ l 9 0x02).since (fun est => ?_) fun x other => ?_
  · rw [State.link_countLink, State.link_onLink, if_pos rfl]; exact est
  · rw [State.link_countLink, State.link_onLink, if_neg other]

theorem Link.moved_tx (k : Link) : k.moved.tx = { k.tx with moving := false } := by
  unfold Link.moved
  split
  case isTrue => rfl
  case isFalse still => rw [← Bool.eq_false_iff.mpr still]

theorem Link.moved_unacked (k : Link) (fseq : Nat) : k.moved.tx.unacked fseq = k.tx.unacked fseq := by
  rw [Link.moved_tx]; rfl

/-- A RETRY_REQ for an unacknowledged flit starts a replay from it where none runs. -/
theorem State.takeRetry_starts {s : State} {l fseq n : Nat} (found : (s.link l).tx.unacked fseq = some n)
    (idle : (s.link l).tx.replay = none) : s.takeRetry l fseq = (s.onLink l Link.moved).startReplay l n 1 := by
  have idle' : (s.link l).moved.tx.replay = none := by rw [Link.moved_tx]; exact idle
  simp only [State.takeRetry, State.link_onLink, if_true, Link.moved_unacked, found, idle', Option.isSome_none, Bool.false_and,
    Bool.false_eq_true, if_false]

theorem Link.moved_established {k : Link} (h : k.established = true) : k.moved.established = true := by
  have resume : ∀ k : Link, k.resumeState = 7 ∨ k.resumeState = 5 ∨ k.resumeState = 4 := by
    intro k
    unfold Link.resumeState Link.upState
    split
    · exact .inl rfl
    split <;> simp
  unfold Link.moved
  split
  · simp only [Link.established, Bool.and_eq_true, decide_eq_true_eq] at h ⊢
    split
    · rcases resume k with r | r | r <;> rw [r] <;> omega
    · exact h
  · exact h

/-! ## Credits that a header takes (R247, R255, R258) -/

/-- With no credits due, a header that is built takes none. -/
theorem LinkRx.header_undue {r : LinkRx} (l : Nat) (undue : r.due = List.replicate 8 0) : (r.drained l).header.2 = r.drained l := by
  have none : dueVc (r.drained l).due (r.drained l).crPtr = none := by
    have due : (r.drained l).due = List.replicate 8 0 := undue
    rw [due, dueVc, List.find?_eq_none]
    intro v _
    rw [List.getD_eq_getElem?_getD, List.getElem?_replicate]
    split <;> decide
  simp only [LinkRx.header, none]

end Sys2Proof.Machine
end

section
namespace Sys2Proof.Machine

open Sys2Proof

/-! ## CTRL messages on a link in service (R243, R244, R250, R258, R266, R489) -/

section Messages

variable {s : State} {link : Fin 32} {h : CtrlHdr} {k : Link} (hs : s.running = true) (hk : s.link link.val = k) (service : k.established = true)

include hs hk service

theorem null_completes : Completes (.null link h) s fun t => t.link link.val = k.heard h s.now := by
  refine completes_ctrl hs (hk ▸ service) (by rw [exec, execNull]) ?_
  rw [id, State.link_ctrlHeard, if_pos rfl, hk]

theorem completes_retryReq {fseq n : Nat} {post : State → Prop} (found : (k.heard h s.now).tx.unacked fseq = some n)
    (idle : (k.heard h s.now).tx.replay = none)
    (effect : post (((s.ctrlHeard link.val h).onLink link.val Link.moved).startReplay link.val n 1)) : Completes (.retryReq link h fseq) s post := by
  refine completes_ctrl hs (hk ▸ service) (by rw [exec, execRetryReq]) ?_
  have heard : (s.ctrlHeard link.val h).link link.val = k.heard h s.now := by rw [State.link_ctrlHeard, if_pos rfl, hk]
  rw [State.takeRetry_starts (heard ▸ found) (heard ▸ idle)]
  exact effect

theorem retryReq_completes {fseq n : Nat} (found : (k.heard h s.now).tx.unacked fseq = some n) (idle : (k.heard h s.now).tx.replay = none)
    (room : (k.heard h s.now).tx.consec < s.reg Obj.replayMax) :
    Completes (.retryReq link h fseq) s fun t => t.link link.val = (k.heard h s.now).moved.replays n s.now := by
  refine completes_retryReq hs hk service found idle ?_
  have moved : ((s.ctrlHeard link.val h).onLink link.val Link.moved).link link.val = (k.heard h s.now).moved := by
    rw [State.link_onLink, if_pos rfl, State.link_ctrlHeard, if_pos rfl, hk]
  rw [State.startReplay_of_room, moved]
  · exact congrArg (Link.replays _ n) (s.ctrlHeard_now link.val h)
  · rw [moved, Link.moved_tx, State.reg_congr (State.onLink_regs _ _ _), State.ctrlHeard_reg]
    exact room

theorem retryReq_lost_completes {fseq n : Nat} (found : (k.heard h s.now).tx.unacked fseq = some n)
    (idle : (k.heard h s.now).tx.replay = none) (full : s.reg Obj.replayMax ≤ (k.heard h s.now).tx.consec) :
    Completes (.retryReq link h fseq) s fun t => s.linkLost link.val 9 0x02 t := by
  refine completes_retryReq hs hk service found idle (State.linkLost.since_ctrlHeard (h := h) ((State.startReplay_lost n 1 ?_).since ?_ ?_))
  · rw [State.link_onLink, if_pos rfl, Link.moved_tx, State.link_ctrlHeard, if_pos rfl, State.reg_congr (State.onLink_regs _ _ _),
      State.ctrlHeard_reg, hk]
    exact full
  · intro est
    rw [State.link_onLink, if_pos rfl]
    exact Link.moved_established est
  · intro x other
    rw [State.link_onLink, if_neg other]

theorem laneMap_moves_completes {lane map : Nat} (new : remapTx k.txLanes lane map ≠ k.txLanes) : Completes (.laneMap link h lane map) s fun t =>
    s.says link.val (.laneMapAck lane map) t ∧ (t.link link.val).txLanes = remapTx k.txLanes lane map ∧
      (t.link link.val).tx.moving = true ∧ (t.link link.val).narrow = (k.narrow || decide (laneCount map < 8)) ∧
      (t.link link.val).st = if k.st = 8 then 8 else 6 := by
  refine completes_ctrl hs (hk ▸ service) (by rw [exec, execLaneMap]) ?_
  have new' : (remapTx k.txLanes lane map == k.txLanes) = false := by simpa using new
  refine ⟨State.says_sendCtrl rfl (s.ctrlHeard_out link.val h), ?_⟩
  simp only [State.takeLaneMap, State.link_onLink, State.link_sendCtrl, State.link_ctrlHeard, if_true, hk, Link.heard, new', Bool.false_eq_true,
    if_false, true_and]
  simp only [Link.established, Bool.and_eq_true, decide_eq_true_eq] at service
  simp only [Bool.or_eq_true, beq_iff_eq]
  split <;> split <;> omega

theorem laneMap_again_completes {lane map : Nat} (same : remapTx k.txLanes lane map = k.txLanes) : Completes (.laneMap link h lane map) s fun t =>
    s.says link.val (.laneMapAck lane map) t ∧ (t.link link.val).tx = (k.heard h s.now).tx ∧ (t.link link.val).st = k.st := by
  refine completes_ctrl hs (hk ▸ service) (by rw [exec, execLaneMap]) ?_
  refine ⟨State.says_sendCtrl rfl (s.ctrlHeard_out link.val h), ?_⟩
  have held : (k.heard h s.now).txLanes = k.txLanes := rfl
  simp only [State.takeLaneMap, State.link_onLink, State.link_sendCtrl, State.link_ctrlHeard, if_true, hk, held, same, beq_self_eq_true,
    true_and]
  rfl

theorem laneMapAck_completes {lane m : Nat} (sent : k.mapSent = some (lane, m)) :
    Completes (.laneMapAck link h lane (laneByte m k.spareFor)) s fun t =>
      t.link link.val = { k.heard h s.now with mapSent := none, lanes := m } := by
  refine completes_ctrl hs (hk ▸ service) (by rw [exec, execLaneMapAck]) ?_
  have sent' : (k.heard h s.now).mapSent = some (lane, m) := sent
  have spare : (k.heard h s.now).spareFor = k.spareFor := rfl
  simp only [State.takeLaneMapAck, State.link_onLink, State.link_ctrlHeard, if_true, hk, sent', spare, beq_self_eq_true, Bool.and_self]

theorem creditSyncReq_completes : Completes (.creditSyncReq link h) s fun t =>
    s.says link.val (.creditSyncRsp k.rx.held) t ∧
      (t.link link.val).rx = LinkRx.drained { k.rx with due := List.replicate 8 0, attached := List.replicate 8 0 } link.val := by
  refine completes_ctrl hs (hk ▸ service) (by rw [exec, execCreditSyncReq]) ?_
  simp only [State.takeSyncReq, State.link_onLink, State.link_ctrlHeard, if_true, hk]
  refine ⟨State.says_sendCtrl rfl (s.ctrlHeard_out link.val h), ?_⟩
  simp only [State.link_sendCtrl, State.link_onLink, State.link_ctrlHeard, if_true, hk]
  exact LinkRx.header_undue link.val rfl

theorem creditSyncRsp_completes {blocks : List Nat} (pausing : k.st = 6 ∨ k.st = 7) (asked : k.tx.sync = 2) :
    Completes (.creditSyncRsp link h blocks) s fun t =>
      (t.link link.val).st = (if k.st = 6 then 6 else k.upState) ∧ (t.link link.val).tx.used = (upto 8).map (fun v => blocks.getD v 0) ∧
        (t.link link.val).tx.sync = 0 ∧ (t.link link.val).rx = k.rx := by
  refine completes_ctrl hs (hk ▸ service) (by rw [exec, execCreditSyncRsp]) ?_
  have asked' : (k.heard h s.now).tx.sync = 2 := (k.heard_tx h s.now).2.trans asked
  have same : (k.heard h s.now).st = k.st := rfl
  simp only [State.takeSyncRsp, State.link_onLink, State.link_ctrlHeard, if_true, hk, asked', same, beq_self_eq_true, Bool.and_true,
    Bool.or_eq_true, beq_iff_eq, pausing]
  exact ⟨rfl, trivial, trivial, rfl⟩

theorem standbyReq_completes (none : s.fabric.stalled = []) (up : k.st = 4 ∨ k.st = 5) (idle : s.linkBusy link.val = false) :
    Completes (.standbyReq link h) s fun t =>
      (t.link link.val).st = 8 ∧ ∃ g, t.out.head? = some (.ctrl link.val g .standbyAck (ctrlFlits g .standbyAck)) := by
  refine completes_ctrl hs (hk ▸ service) (by rw [exec, execStandbyReq]) ?_
  have up' : (s.ctrlHeard link.val h).linkUp link.val = true := by
    rw [State.linkUp, State.link_ctrlHeard, if_pos rfl, hk]
    change (k.st == 4 || k.st == 5) = true
    simpa using up
  have idle' : (s.ctrlHeard link.val h).linkBusy link.val = false := (State.linkBusy_ctrlHeard link.val h none).trans idle
  simp only [State.takeStandbyReq, up', idle', Bool.not_false, Bool.and_self, if_true, State.link_onLink, true_and, State.onLink_out]
  obtain ⟨g, out⟩ := ((s.ctrlHeard link.val h).closeGroup link.val).sendCtrl_out link.val .standbyAck
  exact ⟨g, by rw [out]; rfl⟩

theorem standbyAck_completes (none : s.fabric.stalled = []) (asked : k.standbyAsked = true) (idle : s.linkBusy link.val = false) :
    Completes (.standbyAck link h) s fun t =>
      t.link link.val = { k.heard h s.now with st := 8, standbyAsked := false } ∧
        t.power.nightLinks = if s.power.st = 1 then setBit s.power.nightLinks link.val else s.power.nightLinks := by
  refine completes_ctrl hs (hk ▸ service) (by rw [exec, execStandbyAck]) ?_
  have asked' : ((s.ctrlHeard link.val h).link link.val).standbyAsked = true := by
    rw [State.link_ctrlHeard, if_pos rfl, hk]; exact asked
  have idle' : (s.ctrlHeard link.val h).linkBusy link.val = false := (State.linkBusy_ctrlHeard link.val h none).trans idle
  obtain ⟨st, -, -, -, -, nightLinks, -⟩ := (s.ctrlHeard_moves link.val h).same (p := .night) (by decide)
  simp only [State.takeStandbyAck, asked', idle', if_true, Bool.false_eq_true, if_false, State.onLink_power, st, nightLinks, beq_iff_eq]
  have stopped : ((s.ctrlHeard link.val h).onLink link.val fun k => { k with st := 8, standbyAsked := false }).link link.val =
      { k.heard h s.now with st := 8, standbyAsked := false } := by
    rw [State.link_onLink, if_pos rfl, State.link_ctrlHeard, if_pos rfl, hk]
  split
  · exact ⟨stopped, rfl⟩
  · exact ⟨stopped, nightLinks⟩

theorem linkDown_completes (cause : Nat) : Completes (.linkDown link h cause) s fun t => s.linkLost link.val 9 0x06 t := by
  refine completes_live hs (by rw [exec, execLinkDown]) ?_
  simp only [hk, service, if_true]
  refine (State.linkDown_lost _ link.val 9 0x06).since (fun est => ?_) fun x other => ?_
  · rw [State.link_applyHdr, if_pos rfl]; exact est
  · rw [State.link_applyHdr, if_neg other]

end Messages

end Sys2Proof.Machine
end

section
namespace Sys2Proof.Machine

open Sys2Proof

/-! ## A flit that arrives (R241, R249, R251) -/

/-- The state in which a flit that arrives is judged: it is counted and the FIFO has drained. -/
def State.arriving (s : State) (l : Nat) (f : Flit) : State :=
  (s.countLink l 0x2011 (if f.ftype == 1 then 2 else if f.ftype == 0 then 1 else 3)).onLink l fun k => { k with rx := k.rx.drained l }

theorem State.link_arriving (s : State) (l : Nat) (f : Flit) :
    (s.arriving l f).link l = { s.link l with rx := (s.link l).rx.drained l } := by
  simp only [State.arriving, State.link_onLink, if_true, State.link_countLink]

theorem State.arriving_moves (s : State) (l : Nat) (f : Flit) : Moves [.links, .counters, .irqPending] s (s.arriving l f) :=
  ((State.countLink_moves _ _ _ _).mono (by decide)).trans ((State.onLink_moves _ _ _).mono (by decide))

theorem State.recvFlit_bad {s : State} {l sel : Nat} {f : Flit} {word next : List (Fin 544)}
    (bad : flitBad f word next ((s.link l).rx.drained l).fifo = some sel) :
    s.recvFlit l f word next = ((s.arriving l f).countLink l 0x2012 sel).askReplay l := by
  have judged : flitBad f word next ((s.arriving l f).link l).rx.fifo = some sel := by rw [State.link_arriving]; exact bad
  unfold State.recvFlit
  unfold State.arriving at judged
  simp only [judged]
  rfl

theorem State.recvFlit_ctrl {s : State} {l : Nat} {f : Flit} {word next : List (Fin 544)} {c : CtrlMsg}
    (good : flitBad f word next ((s.link l).rx.drained l).fifo = none) (type : f.ftype = 2) (msg : ctrlOf f.payload = some c) :
    s.recvFlit l f word next = ((s.arriving l f).applyHdr l (Flit.ctrlHdr f)).takeCtrl l c := by
  have judged : flitBad f word next ((s.arriving l f).link l).rx.fifo = none := by rw [State.link_arriving]; exact good
  unfold State.recvFlit
  unfold State.arriving at judged
  simp only [judged, show 2 ≤ f.ftype by omega, if_true, show (f.ftype == 2) = true by simp [type], msg]
  rfl

/-- A sequenced flit as it is taken: a DATA flit has entered the FIFO (R251). -/
def State.entered (s : State) (l : Nat) (f : Flit) : State :=
  if f.ftype == 1 then (s.arriving l f).onLink l fun k => { k with rx := k.rx.filled (k.rx.fifo + 1) } else s.arriving l f

theorem State.recvFlit_seq {s : State} {l : Nat} {f : Flit} {word next : List (Fin 544)}
    (good : flitBad f word next ((s.link l).rx.drained l).fifo = none) (type : f.ftype < 2) :
    s.recvFlit l f word next = (s.entered l f).takeSeqFlit l f := by
  have judged : flitBad f word next ((s.arriving l f).link l).rx.fifo = none := by rw [State.link_arriving]; exact good
  unfold State.recvFlit
  unfold State.arriving at judged
  simp only [judged, Nat.not_le.mpr type, if_false]
  rfl

theorem State.link_entered (s : State) (l : Nat) (f : Flit) : ∃ r : LinkRx, (s.entered l f).link l = { s.link l with rx := r } ∧
    r.taken = (s.link l).rx.taken ∧ r.grp = (s.link l).rx.grp := by
  unfold State.entered
  split
  · rw [State.link_onLink, if_pos rfl, State.link_arriving]
    exact ⟨_, rfl, rfl, rfl⟩
  · rw [State.link_arriving]
    exact ⟨_, rfl, rfl, rfl⟩

theorem State.entered_moves (s : State) (l : Nat) (f : Flit) : Moves [.links, .counters, .irqPending] s (s.entered l f) :=
  Moves.ite ((s.arriving_moves l f).trans ((State.onLink_moves _ _ _).mono (by decide))) (s.arriving_moves l f)

/-- A sequenced flit as its group keeps it until it verifies (R261, R262). -/
def Flit.kept (f : Flit) : RxFlit :=
  { hdr := hdr14 f.ftype f.sop f.pad f.abt f.abtVc, ftype := f.ftype, sop := f.sop, pad := f.pad, abt := f.abt, abtVc := f.abtVc,
    cipher := padBytes 240 f.payload }

/-- A link that has taken the next flit of the sequence. -/
def Link.taking (k : Link) (f : Flit) : Link :=
  { k with rx := { k.rx with taken := k.rx.taken + 1, asked := false, grp := k.rx.grp ++ [Flit.kept f] } }

theorem State.takeSeqFlit_next {s : State} {l : Nat} {f : Flit} (next : f.fseq = (s.link l).rx.taken % 4096) :
    s.takeSeqFlit l f = ((s.onLink l fun k => k.taking f).applyFlit l (s.link l).rx.taken f).verifyGroup l := by
  have same : wrapSub 12 f.fseq ((s.link l).rx.taken % 4096) = 0 := by rw [next, wrapSub]; omega
  unfold State.takeSeqFlit
  simp only [same, beq_self_eq_true, if_true]
  rfl

/-! ## What header fields leave of the receive side (R249, R256) -/

/-- Link l has taken as many flits, and holds the same of groups not verified. -/
def SameTaken (l : Nat) (s t : State) : Prop := (t.link l).rx.taken = (s.link l).rx.taken ∧ (t.link l).rx.grp = (s.link l).rx.grp

theorem SameTaken.trans {l : Nat} {s t u : State} (h : SameTaken l s t) (k : SameTaken l t u) : SameTaken l s u :=
  ⟨k.1.trans h.1, k.2.trans h.2⟩

theorem SameTaken.of_rx {l : Nat} {s t : State} (h : (t.link l).rx = (s.link l).rx) : SameTaken l s t := ⟨by rw [h], by rw [h]⟩

theorem State.syncStart_rx (s : State) (l : Nat) : ((s.syncStart l).link l).rx = (s.link l).rx := by
  unfold State.syncStart
  dsimp only
  split
  · rw [State.link_countLink, State.link_setLink, if_pos rfl]
  · rfl

theorem State.applyAudit_rx (s : State) (l v audit : Nat) : ((s.applyAudit l v audit).link l).rx = (s.link l).rx := by
  unfold State.applyAudit
  dsimp only
  split
  · rfl
  split
  · rw [State.syncStart_rx, State.link_countLink]
  · rw [State.link_countLinkN, State.link_countLink, State.link_onLink, if_pos rfl]

theorem State.takeAux_sameTaken (s : State) (l n aux : Nat) : SameTaken l s (s.takeAux l n aux) := by
  unfold State.takeAux
  dsimp only
  split
  · unfold SameTaken
    rw [State.link_onLink, if_pos rfl]
    split <;> exact ⟨rfl, rfl⟩
  · exact ⟨rfl, rfl⟩

theorem State.applyFlit_sameTaken (s : State) (l n : Nat) (f : Flit) : SameTaken l s (s.applyFlit l n f) := by
  unfold State.applyFlit
  refine SameTaken.trans (SameTaken.of_rx ?_) (State.takeAux_sameTaken _ l n f.aux)
  rw [State.link_applyHdr, if_pos rfl]
  split
  · exact s.applyAudit_rx l _ _
  · rfl

/-! ## A bad flit (R249) -/

theorem State.askReplay_asks (s : State) (l : Nat) : SameTaken l s (s.askReplay l) ∧ ((s.askReplay l).link l).rx.asked = true ∧
    ((s.link l).rx.asked = false → s.says l (.retryReq ((s.link l).rx.taken % 4096)) (s.askReplay l)) ∧
    ((s.askReplay l).link l).tx = (s.link l).tx := by
  unfold State.askReplay
  dsimp only
  split
  case isTrue asked => exact ⟨⟨rfl, rfl⟩, asked, fun fresh => absurd asked (by simp [fresh]), rfl⟩
  case isFalse =>
    obtain ⟨taken, grp, asked, -⟩ := Link.header_rx { s.link l with rx := { (s.link l).rx with asked := true } } l
    unfold SameTaken
    rw [State.link_sendCtrl, if_pos rfl, State.link_onLink, if_pos rfl]
    exact ⟨⟨taken, grp⟩, asked, fun _ => State.says_sendCtrl rfl rfl, rfl⟩

/-! ## Corrected symbols (R243) -/

theorem State.link_countFixed (s : State) (l : Nat) (lanes : List Nat) :
    ∃ F, (s.countFixed l lanes).link l = { s.link l with rx := { (s.link l).rx with fixed := F } } := by
  have counted : (lanes.foldl (fun (s : State) n => s.countLink l 0x2016 n) s).link l = s.link l :=
    List.foldlRecOn lanes (fun (s : State) n => s.countLink l 0x2016 n) (motive := fun u => State.link u l = s.link l) rfl
      fun u same n _ => (State.link_countLink u l _ n l).trans same
  unfold State.countFixed
  rw [State.link_onLink, if_pos rfl, counted]
  exact ⟨_, rfl⟩

/-! ## FLIT_RECEIVE (R241, R243, R249, R251) -/

section Flits

variable {s : State} {link : Fin 32} {k : Link} {f : Flit} {word next : List (Fin 544)} (hs : s.running = true) (hk : s.link link.val = k)
  (takes : k.receives f = true) (ends : Bool)

include hs hk takes

/-- A flit that the link takes arrives in a state that differs in what was corrected. -/
theorem completes_flitReceive {post : State → Prop}
    (effect : ∀ (u : State) (F : List (Nat × Nat)), Moves [.links, .counters, .irqPending] s u →
      u.link link.val = { k with rx := { k.rx with fixed := F } } → post ((u.recvFlit link.val f word next).serCheck link.val)) :
    Completes (.flitReceive link f word ends next) s post := by
  refine completes_live hs (by rw [exec, execFlitReceive]) ?_
  obtain ⟨F, fixed⟩ := s.link_countFixed link.val ((s.link link.val).fixedLanes word ends)
  rw [hk] at fixed
  have takes' : ((s.countFixed link.val ((s.link link.val).fixedLanes word ends)).link link.val).receives f = true := by
    rw [hk, fixed]; exact takes
  simp only [takes', if_true]
  exact effect _ F (State.countFixed_moves _ _ _) (by rw [hk]; exact fixed)

theorem flitReceive_seq_completes (good : flitBad f word next (k.rx.drained link.val).fifo = none) (type : f.ftype < 2)
    (inOrder : f.fseq = k.rx.taken % 4096) : Completes (.flitReceive link f word ends next) s fun t =>
      ∃ m : State, Frame [.links, .egress, .counters, .samples, .irqPending] s m ∧ t = (m.verifyGroup link.val).serCheck link.val ∧
        (m.link link.val).rx.taken = k.rx.taken + 1 ∧ (m.link link.val).rx.grp = k.rx.grp ++
          [{ hdr := hdr14 f.ftype f.sop f.pad f.abt f.abtVc, ftype := f.ftype, sop := f.sop, pad := f.pad, abt := f.abt,
             abtVc := f.abtVc, cipher := padBytes 240 f.payload }] := by
  refine completes_flitReceive hs hk takes ends fun u F moved fixed => ?_
  have good' : flitBad f word next ((u.link link.val).rx.drained link.val).fifo = none := by rw [fixed]; exact good
  obtain ⟨r, entered, taken, grp⟩ := u.link_entered link.val f
  rw [fixed] at entered taken grp
  have first : ((u.entered link.val f).link link.val).rx.taken = k.rx.taken := by rw [entered]; exact taken
  rw [State.recvFlit_seq good' type, State.takeSeqFlit_next (by rw [first]; exact inOrder), first]
  have into := (moved.trans (u.entered_moves link.val f)).mono (ps := [.links, .egress, .counters, .samples, .irqPending]) (by decide)
  have applied := State.applyFlit_sameTaken ((u.entered link.val f).onLink link.val fun k => k.taking f) link.val k.rx.taken f
  unfold SameTaken at applied
  rw [State.link_onLink, if_pos rfl, entered] at applied
  refine ⟨_, ((into.trans ((State.onLink_moves _ _ _).mono (by decide))).trans (State.applyFlit_moves _ _ _ _)).frame, rfl, ?_, ?_⟩
  · exact applied.1.trans (congrArg (· + 1) taken)
  · exact applied.2.trans (congrArg (· ++ [Flit.kept f]) grp)

theorem flitReceive_ctrl_completes (good : flitBad f word next (k.rx.drained link.val).fifo = none) (c : CtrlMsg) (type : f.ftype = 2)
    (msg : ctrlOf f.payload = some c) : Completes (.flitReceive link f word ends next) s fun t =>
      ∃ m : State, Frame [.links, .egress, .counters, .samples, .irqPending] s m ∧ t = (m.takeCtrl link.val c).serCheck link.val ∧
        (m.link link.val).tx = (k.heard (Flit.ctrlHdr f) s.now).tx ∧ (m.link link.val).rx.taken = k.rx.taken ∧
        (m.link link.val).rx.grp = k.rx.grp := by
  refine completes_flitReceive hs hk takes ends fun u F moved fixed => ?_
  have good' : flitBad f word next ((u.link link.val).rx.drained link.val).fifo = none := by rw [fixed]; exact good
  have into := moved.trans (u.arriving_moves link.val f)
  have now : (u.arriving link.val f).now = s.now := into.same (p := .timebase) (by decide)
  rw [State.recvFlit_ctrl good' type msg]
  refine ⟨_, ((into.mono (by decide)).trans ((State.applyHdr_moves _ _ _).mono (by decide))).frame, rfl, ?_⟩
  rw [State.link_applyHdr, if_pos rfl, State.link_arriving, fixed, now]
  exact ⟨rfl, rfl, rfl⟩

theorem flitReceive_bad_completes {sel : Nat} (bad : flitBad f word next (k.rx.drained link.val).fifo = some sel) :
    Completes (.flitReceive link f word ends next) s fun t =>
      ∃ m : State, Frame [.links, .counters, .irqPending, .out] s m ∧ t = m.serCheck link.val ∧
        (m.link link.val).rx.taken = k.rx.taken ∧ (m.link link.val).rx.grp = k.rx.grp ∧ (m.link link.val).rx.asked = true ∧
        (k.rx.asked = false → s.says link.val (.retryReq (k.rx.taken % 4096)) m) ∧ (m.link link.val).tx = k.tx := by
  refine completes_flitReceive hs hk takes ends fun u F moved fixed => ?_
  have bad' : flitBad f word next ((u.link link.val).rx.drained link.val).fifo = some sel := by rw [fixed]; exact bad
  rw [State.recvFlit_bad bad']
  have into := (moved.trans (u.arriving_moves link.val f)).trans (State.countLink_moves _ link.val 0x2012 sel |>.mono (by decide))
  have out : ((u.arriving link.val f).countLink link.val 0x2012 sel).out = s.out := into.same (p := .out) (by decide)
  obtain ⟨same, asked, said, tx⟩ := ((u.arriving link.val f).countLink link.val 0x2012 sel).askReplay_asks link.val
  unfold SameTaken at same
  unfold State.says at said
  rw [State.link_countLink, State.link_arriving, fixed] at same said tx
  rw [out] at said
  exact ⟨_, ((into.mono (by decide)).trans (State.askReplay_moves _ _)).frame, rfl, same.1, same.2, asked, said, tx⟩

end Flits

/-- Settles O31: header fields are applied before a message has its effect, and a flit that is judged differs from the one before it only in
what was corrected, counted and drained. -/
theorem linkTrafficCompletes : Obligations.LinkTrafficCompletes := by
  unfold Obligations.LinkTrafficCompletes
  rintro s link h - hs rfl service
  exact ⟨null_completes hs rfl service,
    fun fseq n found idle => ⟨retryReq_completes hs rfl service found idle, retryReq_lost_completes hs rfl service found idle⟩,
    fun lane map => ⟨laneMap_moves_completes hs rfl service, laneMap_again_completes hs rfl service⟩,
    fun lane m => laneMapAck_completes hs rfl service,
    creditSyncReq_completes hs rfl service,
    fun blocks => creditSyncRsp_completes hs rfl service,
    standbyReq_completes hs rfl service,
    standbyAck_completes hs rfl service,
    linkDown_completes hs rfl service,
    fun f word ends next takes good => ⟨flitReceive_seq_completes hs rfl takes ends good, flitReceive_ctrl_completes hs rfl takes ends good⟩,
    fun f word ends next sel takes bad => flitReceive_bad_completes hs rfl takes ends bad⟩

end Sys2Proof.Machine
end

section
namespace Sys2Proof.Machine

open Sys2Proof

/-! ## Flits that close a group (R261, R262) -/

theorem State.transmit_keepsLinks (s : State) (l n : Nat) (x : TxFlit) : KeepsLinks s (s.transmit l n x) :=
  KeepsLinks.then_moves (t := s.onLink l fun k => { k with rx := (k.header l).2 }) (s.onLink_keepsLinks l rfl)
    (((State.emit_moves _ _).mono (by decide)).trans ((State.countLink_moves _ _ _ _).mono (by decide)) :
      Moves [.counters, .irqPending, .out] _ _) (by decide)

/-- A flit that is formed changes no link's state. -/
theorem State.formFlit_st (s : State) (l type sop pad x : Nat) (plain : Bytes) :
    ((s.formFlit l type sop pad plain).link x).st = (s.link x).st := by
  have put : ∀ k : Link, k.st = (s.link l).st → ((s.setLink l k).link x).st = (s.link x).st := by
    intro k hk
    rw [State.link_setLink]
    split
    case isTrue same => rw [hk, same]
    case isFalse => rfl
  have sent : ∀ k n y, k.st = (s.link l).st → (((s.setLink l k).transmit l n y).link x).st = (s.link x).st :=
    fun k n y hk => ((State.transmit_keepsLinks _ l n y).st x).trans (put k hk)
  unfold State.formFlit
  dsimp only
  split
  · rw [State.link_onLink]
    split
    case isTrue same => subst same; exact sent _ _ _ rfl
    case isFalse => exact sent _ _ _ rfl
  · exact sent _ _ _ rfl

theorem State.formIdle_st (s : State) (l x n : Nat) : ((s.formIdle l n).link x).st = (s.link x).st := by
  induction n generalizing s with
  | zero => rfl
  | succ n ih => exact (ih _).trans (s.formFlit_st l 0 0xF 0xF x (zeroBytes 240))

theorem State.closeGroup_st (s : State) (l x : Nat) : ((s.closeGroup l).link x).st = (s.link x).st := s.formIdle_st l x _

/-! ## A Gatehouse that is lost (R266, R301) -/

theorem GivesAway.of_moves {ps : List Part} {l : Nat} {s t : State} (links : KeepsLinks s t) (h : Moves ps s t) (he : Part.egress ∉ ps)
    (hg : Part.gatehouses ∉ ps) : GivesAway l s t := by
  obtain ⟨queued, stalled⟩ := h.egress he
  exact ⟨links, fun _ _ q => q.congr queued, stalled, (h.same hg).1⟩

/-- What a lost link's queues and pools held, taken out of them. -/
def State.withoutHeld (s : State) (l : Nat) : State :=
  { s with fabric := { s.fabric with egress := s.fabric.egress.filter fun e => !(e.link == l || e.inLink == some l) },
           pool := { s.pool with claims := s.pool.claims.filter fun c => c.link != l } }

theorem State.withoutHeld_unqueued (s : State) (l : Nat) : (s.withoutHeld l).unqueued l := by
  intro e mem same
  have kept := (List.mem_filter.mp mem).2
  simp [same] at kept

theorem State.withoutHeld_unused {s : State} {x : Nat} (l : Nat) (h : s.unused x) : (s.withoutHeld l).unused x :=
  ⟨fun e mem => h.1 e (List.mem_filter.mp mem).1, h.2⟩

theorem State.loseHeld_givesAway (s : State) (l : Nat) : GivesAway l (s.withoutHeld l) (s.loseHeld l) := by
  have forgotten : ∀ (u : State) (p : Packet), GivesAway l u (u.forgetPkt p) := fun u p =>
    .of_moves ((State.forgetPkt_moves u p).keepsLinks (by decide)) (State.forgetPkt_moves u p) (by decide) (by decide)
  have returned : ∀ (u : State) (e : EPkt), GivesAway l u ((u.leavePool e.inLink e.inVc e.p.blocks).discardQ (qidEgress e.gh e.queue) e.p.seq) :=
    fun u e => .of_moves ((u.leavePool_keepsLinks _ _ _).then_moves (State.discardQ_moves _ _ _) (by decide))
      ((State.leavePool_moves u _ _ _ |>.mono (ps := [.links, .samples]) (by decide)).trans ((State.discardQ_moves _ _ _).mono (by decide)))
      (by decide) (by decide)
  exact (GivesAway.foldl (fun u (c : Claim) => forgotten u c.p) _ _).trans (GivesAway.foldl returned _ _)

theorem State.resendRetained_steps (s : State) (l : Nat) (es : List EPkt) :
    ∃ t, s.resendRetained l es = (t.moveStalled l).unstall ∧ GivesAway l s t := by
  refine ⟨_, rfl, GivesAway.ite (GivesAway.then_same (GivesAway.trans (GivesAway.then_same (.refl l s) (u := s.recovery))
      (GivesAway.foldl (fun v e => v.handTo_givesAway l e) es s.recovery)))
    (GivesAway.then_same (GivesAway.foldl (fun v e => v.dropQueued_givesAway l 10 e) es s))⟩

/-- A link has gone with its die, and no packet waits for it. -/
def State.goneWithDie (s : State) (l : Nat) : Prop :=
  (s.link l).st = 9 ∧ (s.link l).cause = 0x07 ∧ (s.link l).keys = [] ∧ s.unused l

theorem State.goneWithDie.congr {s t : State} {l : Nat} (h : s.goneWithDie l) (same : t.fabric = s.fabric) : t.goneWithDie l := by
  unfold State.goneWithDie State.unused State.unqueued
  rw [State.link_congr (congrArg Fabric.links same), same]
  exact h

/-- A link as it goes with its die. -/
def Link.withDie (k : Link) : Link :=
  { k with st := 9, cause := 0x07, narrow := false, rxNarrow := false, keys := [], kx := {}, tx := {}, rx := {}, mapSent := none,
           standbyAsked := false, lanesOk := false }

theorem State.loseLink_steps (s : State) (l : Nat) : ∃ t, GivesAway l (s.withoutHeld l) t ∧
    (s.loseLink l).fabric = ((t.moveStalled l).unstall.onLink l Link.withDie).fabric := by
  obtain ⟨t, steps, gone⟩ := (s.loseHeld l).resendRetained_steps l ((s.fabric.retained.filter fun r => r.link == l).map s.retainedPkt)
  refine ⟨t, (s.loseHeld_givesAway l).trans gone, ?_⟩
  simp only [State.loseLink, State.log_fabric, State.irqEdge_fabric, steps]
  rfl

/-- What a lost link leaves: itself gone, and every link but its partner gone that was. -/
theorem State.loseLink_gone (s : State) (l : Nat) : (s.loseLink l).goneWithDie l ∧ (s.loseLink l).fabric.ghLost = s.fabric.ghLost ∧
    ∀ x, x ≠ l → x ≠ partner l → s.goneWithDie x → (s.loseLink l).goneWithDie x := by
  obtain ⟨t, gone, fabric⟩ := s.loseLink_steps l
  obtain ⟨links, lost, unused⟩ := gone.settled
  refine ⟨State.goneWithDie.congr ?_ fabric, (congrArg Fabric.ghLost fabric :).trans lost,
    fun x other away before => State.goneWithDie.congr ?_ fabric⟩
  · unfold State.goneWithDie
    rw [State.link_onLink, if_pos rfl]
    exact ⟨rfl, rfl, rfl, unused l (partner_ne l).symm (s.withoutHeld_unqueued l) (.inl rfl)⟩
  · obtain ⟨st, cause, keys, empty⟩ := before
    have empty := s.withoutHeld_unused l empty
    have same := links x
    unfold State.goneWithDie
    rw [State.link_onLink, if_neg other]
    exact ⟨(congrArg Link.st same :).trans st, (congrArg Link.cause same :).trans cause, (congrArg Link.keys same :).trans keys,
      unused x away empty.1 (.inr empty)⟩

end Sys2Proof.Machine
end

section
namespace Sys2Proof.Machine

open Sys2Proof

/-! ## What a link does on its own (R243, R244, R250, R257, R258, R264, R266, R271, R272, R274, R301, R489) -/

/-- A credit sync of a link that is up pauses it and waits for acknowledgements (R258). -/
theorem State.syncStart_starts {s : State} {l : Nat} (up : (s.link l).st = 4 ∨ (s.link l).st = 5) (unsynced : (s.link l).tx.sync = 0) :
    ((s.syncStart l).link l).st = 7 ∧ ((s.syncStart l).link l).tx.sync = 1 := by
  have up' : ((s.link l).st == 4 || (s.link l).st == 5) = true := by simpa using up
  have unpaused : ((s.link l).st == 6) = false := by rw [beq_eq_false_iff_ne]; omega
  simp only [State.syncStart, up', unsynced, unpaused, Bool.true_or, beq_self_eq_true, Bool.and_self, if_true, Bool.false_eq_true, if_false,
    State.link_countLink, State.link_setLink, and_self]

section Events

variable {s : State} {link : Fin 32} {k : Link} (hs : s.running = true) (hk : s.link link.val = k)

include hs hk

/-! ### Replay timer (R250) -/

theorem completes_replayTimeout {post : State → Prop} (service : k.established = true) (waiting : k.tx.acked < k.tx.formed)
    (still : k.tx.ackAt ≠ some s.now)
    (effect : post (if k.tx.replayAt == some s.now then
        s.setLink link.val { k with tx := { k.tx with replay := some k.tx.acked, replayFrom := k.tx.acked } }
      else s.startReplay link.val k.tx.acked 2)) : Completes (.replayTimeout link) s post := by
  refine completes_live hs (by rw [exec, execReplayTimeout]) ?_
  have still' : (k.tx.ackAt == some s.now) = false := by simpa using still
  simp only [hk, service, Nat.not_le.mpr waiting, still', decide_false, Bool.not_true, Bool.or_self, Bool.false_eq_true, if_false]
  exact effect

theorem replayTimeout_completes (service : k.established = true) (waiting : k.tx.acked < k.tx.formed) (still : k.tx.ackAt ≠ some s.now) :
    (k.tx.replayAt ≠ some s.now → k.tx.consec < s.reg Obj.replayMax → Completes (.replayTimeout link) s fun t =>
      t.link link.val = k.replays k.tx.acked s.now) ∧
    (k.tx.replayAt ≠ some s.now → s.reg Obj.replayMax ≤ k.tx.consec → Completes (.replayTimeout link) s fun t =>
      s.linkLost link.val 9 0x02 t) ∧
    (k.tx.replayAt = some s.now → Completes (.replayTimeout link) s fun t =>
      t.link link.val = { k with tx := { k.tx with replay := some k.tx.acked, replayFrom := k.tx.acked } }) := by
  have alone : k.tx.replayAt ≠ some s.now → (k.tx.replayAt == some s.now) = false := fun h => by simpa using h
  refine ⟨fun fresh room => ?_, fun fresh full => ?_, fun same => ?_⟩ <;> refine completes_replayTimeout hs hk service waiting still ?_
  · simp only [alone fresh, Bool.false_eq_true, if_false]
    rw [State.startReplay_of_room _ _ (by rw [hk]; exact room), hk]
  · simp only [alone fresh, Bool.false_eq_true, if_false]
    exact State.startReplay_lost _ _ (by rw [hk]; exact full)
  · simp only [same, beq_self_eq_true, if_true, State.link_setLink]

/-! ### Lanes (R243, R244) -/

theorem laneFailing_spare_completes {lane : Fin 9} (lo : 4 ≤ k.st) (hi : k.st ≤ 7) (used : k.lanesNext.testBit lane.val = true)
    (wide : k.rxNarrow = false) (spare : k.spareFree = true) : Completes (.laneFailing link lane) s fun t =>
      (t.link link.val).st = 6 ∧ (t.link link.val).rxNarrow = false ∧ (t.link link.val).rx.closed = true ∧
        (t.link link.val).mapSent = some (lane.val, setBit (clearBit k.lanesNext lane.val) 8) ∧ (t.link link.val).spareFor = some lane.val ∧
        s.says link.val (.laneMap lane.val (laneByte (setBit (clearBit k.lanesNext lane.val) 8) (some lane.val))) t := by
  refine completes_live hs (by rw [exec, execLaneFailing]) ?_
  simp only [State.laneFail, Link.remap, hk, lo, hi, used, wide, spare, decide_true, Bool.and_self, if_true, Bool.not_true, Bool.false_and,
    Bool.or_self, Bool.or_false, Bool.false_eq_true, if_false, State.link_sendCtrl, State.link_setLink, true_and]
  exact ⟨Link.header_closed _ _, State.says_sendCtrl rfl rfl⟩

theorem laneFailing_narrow_completes {lane : Fin 9} (lo : 4 ≤ k.st) (hi : k.st ≤ 7) (used : k.lanesNext.testBit lane.val = true)
    (wide : k.rxNarrow = false) (spare : k.spareFree = false) (narrow : k.narrowOk = true) : Completes (.laneFailing link lane) s fun t =>
      (t.link link.val).st = 6 ∧ (t.link link.val).narrow = true ∧ (t.link link.val).rxNarrow = true ∧ (t.link link.val).rx.closed = true ∧
        (t.link link.val).mapSent = some (lane.val, clearBit k.lanesNext lane.val) ∧
        s.says link.val (.laneMap lane.val (laneByte (clearBit k.lanesNext lane.val) (if lane.val = 8 then none else k.spareFor))) t := by
  refine completes_live hs (by rw [exec, execLaneFailing]) ?_
  simp only [State.laneFail, Link.remap, hk, lo, hi, used, wide, spare, narrow, decide_true, Bool.and_self, if_true, Bool.not_false, Bool.not_true,
    Bool.and_false, Bool.or_self, Bool.or_true, Bool.false_eq_true, if_false, State.link_sendCtrl, State.link_setLink, true_and, beq_iff_eq]
  exact ⟨Link.header_closed _ _, State.says_sendCtrl rfl rfl⟩

theorem laneFailing_lost_completes {lane : Fin 9} (lo : 4 ≤ k.st) (hi : k.st ≤ 7) (used : k.lanesNext.testBit lane.val = true)
    (left : k.rxNarrow = true ∨ (k.spareFree = false ∧ k.narrowOk = false)) :
    Completes (.laneFailing link lane) s fun t => s.linkLost link.val 9 0x03 t := by
  refine completes_live hs (by rw [exec, execLaneFailing]) ?_
  have none : (k.rxNarrow || (!k.spareFree && !k.narrowOk)) = true := by
    rcases left with narrow | ⟨spare, narrow⟩
    · rw [narrow, Bool.true_or]
    · rw [spare, narrow, Bool.not_false, Bool.and_self, Bool.or_true]
  simp only [State.laneFail, hk, lo, hi, used, none, decide_true, Bool.and_self, if_true]
  exact s.linkDown_lost link.val 9 0x03

theorem spareUnusable_completes (service : k.established = true) (idle : k.lanes.testBit 8 = false) :
    Completes (.spareUnusable link) s fun t => t.link link.val = { k with spareBad := true } := by
  refine completes_live hs (by rw [exec, execSpareUnusable]) ?_
  simp only [hk, service, idle, Bool.not_false, Bool.and_self, Bool.true_and]
  cases bad : k.spareBad with
  | false => simp only [Bool.not_false, if_true, State.link_countLink, State.link_setLink]
  | true =>
    simp only [Bool.not_true, Bool.false_eq_true, if_false]
    rw [hk, ← bad]

theorem laneMapResend_completes {lane m : Nat} (sent : k.mapSent = some (lane, m)) :
    Completes (.laneMapResend link) s fun t => s.says link.val (.laneMap lane (laneByte m k.spareFor)) t := by
  refine completes_live hs (by rw [exec, execLaneMapResend]) ?_
  simp only [hk, sent]
  exact State.says_sendCtrl rfl rfl

theorem laneSparingDone_receiver_completes (sparing : k.st = 6) (closed : k.rx.closed = true) (acked : k.mapSent = none) :
    Completes (.laneSparingDone link) s fun t =>
      (t.link link.val).st = (if k.tx.moving = true then 6 else k.resumeState) ∧ (t.link link.val).rx.closed = false ∧
        s.says link.val (.retryReq (k.rx.taken % 4096)) t := by
  refine completes_live hs (by rw [exec, execLaneSparingDone]) ?_
  simp only [hk, sparing, closed, acked, beq_self_eq_true, Option.isNone_none, Bool.and_self, if_true, State.link_sendCtrl, State.link_countLink,
    State.link_setLink]
  exact ⟨trivial, Link.header_closed _ _, State.says_sendCtrl rfl (State.countLink_out _ _ _ _)⟩

theorem laneSparingDone_sender_completes (opened : k.rx.closed = false) :
    Completes (.laneSparingDone link) s fun t => t.link link.val = k.moved := by
  refine completes_live hs (by rw [exec, execLaneSparingDone]) ?_
  simp only [hk, opened, Bool.and_false, Bool.false_and, Bool.false_eq_true, if_false, State.link_onLink, if_true]

/-! ### Credits (R257, R258) -/

theorem creditQuietExpiry_audited_completes (vc : Fin 8) (service : k.established = true) (audit : k.audit = true) :
    Completes (.creditQuietExpiry link vc) s fun t =>
      t.link link.val = { k with tx := { k.tx with quiet := k.tx.quiet.set vc.val true } } := by
  refine completes_live hs (by rw [exec, execCreditQuietExpiry]) ?_
  simp only [hk, service, if_true, State.link_onLink, audit, Bool.not_true, Bool.false_and, Bool.false_eq_true, if_false]

theorem creditQuietExpiry_syncs_completes (vc : Fin 8) (up : k.st = 4 ∨ k.st = 5) (audit : k.audit = false) (unsynced : k.tx.sync = 0)
    (low : LinkTx.window { k.tx with quiet := k.tx.quiet.set vc.val true } < s.reg Obj.creditRetrainFloor) :
    Completes (.creditQuietExpiry link vc) s fun t => (t.link link.val).st = 7 ∧ (t.link link.val).tx.sync = 1 := by
  refine completes_live hs (by rw [exec, execCreditQuietExpiry]) ?_
  have service : k.established = true := by
    simp only [Link.established, Bool.and_eq_true, decide_eq_true_eq]
    omega
  simp only [hk, service, if_true]
  generalize hu : s.onLink link.val _ = u
  have quiet : u.link link.val = { k with tx := { k.tx with quiet := k.tx.quiet.set vc.val true } } := by
    rw [← hu, State.link_onLink, if_pos rfl, hk]
  have floor : u.reg Obj.creditRetrainFloor = s.reg Obj.creditRetrainFloor := by rw [← hu]; rfl
  rw [quiet, floor, audit, decide_eq_true low]
  exact u.syncStart_starts (by rw [quiet]; exact up) (by rw [quiet]; exact unsynced)

theorem creditSyncRequest_completes (pausing : k.st = 6 ∨ k.st = 7) (waiting : k.tx.sync = 1) (settled : k.tx.settled = true) :
    Completes (.creditSyncRequest link) s fun t => (t.link link.val).tx = { k.tx with sync := 2 } ∧ s.says link.val .creditSyncReq t := by
  refine completes_live hs (by rw [exec, execCreditSyncRequest]) ?_
  have pausing' : (k.st == 6 || k.st == 7) = true := by simpa using pausing
  simp only [hk, pausing', waiting, settled, beq_self_eq_true, Bool.and_self, if_true, State.link_sendCtrl, State.link_setLink, true_and]
  exact State.says_sendCtrl rfl rfl

theorem creditSyncTimeout_completes (pausing : k.st = 6 ∨ k.st = 7) (asked : k.tx.sync = 2) :
    (k.tx.syncTries < 2 → Completes (.creditSyncTimeout link) s fun t =>
      (t.link link.val).tx = { k.tx with syncTries := k.tx.syncTries + 1 } ∧ s.says link.val .creditSyncReq t) ∧
    (2 ≤ k.tx.syncTries → Completes (.creditSyncTimeout link) s fun t => s.linkLost link.val 9 0x04 t) := by
  have pausing' : (k.st == 6 || k.st == 7) = true := by simpa using pausing
  refine ⟨fun few => completes_live hs (by rw [exec, execCreditSyncTimeout]) ?_,
    fun many => completes_live hs (by rw [exec, execCreditSyncTimeout]) ?_⟩
  · simp only [hk, pausing', asked, beq_self_eq_true, Bool.and_self, if_true, show ¬ 3 ≤ k.tx.syncTries + 1 by omega, if_false,
      State.link_sendCtrl, State.link_setLink, true_and]
    exact State.says_sendCtrl rfl rfl
  · simp only [hk, pausing', asked, beq_self_eq_true, Bool.and_self, if_true, show 3 ≤ k.tx.syncTries + 1 by omega]
    exact s.linkDown_lost link.val 9 0x04

/-! ### Silence, standby and the way back (R264, R266, R272, R274, R489) -/

theorem linkDeadTimeout_completes (service : k.established = true) (awake : k.st ≠ 8) :
    Completes (.linkDeadTimeout link) s fun t => s.linkLost link.val 9 0x01 t := by
  refine completes_live hs (by rw [exec, execLinkDeadTimeout]) ?_
  simp only [hk, service, bne_iff_ne.mpr awake, Bool.and_self, if_true]
  exact s.linkDown_lost link.val 9 0x01

theorem standbyAckTimeout_completes (asked : k.standbyAsked = true) : Completes (.standbyAckTimeout link) s fun t =>
    t.link link.val = { k with standbyAsked := false } ∧
      t.power.deafLinks = if s.power.st = 1 then setBit s.power.deafLinks link.val else s.power.deafLinks := by
  refine completes_live hs (by rw [exec, execStandbyAckTimeout]) ?_
  have stays : (s.onLink link.val fun k => { k with standbyAsked := false }).link link.val = { k with standbyAsked := false } := by
    rw [State.link_onLink, if_pos rfl, hk]
  simp only [hk, asked, if_true, State.onLink_power, beq_iff_eq]
  split <;> exact ⟨stays, rfl⟩

theorem linkStandbyIdleExpiry_completes (armed : s.reg Obj.linkStandbyIdle ≠ 0) (up : k.st = 4 ∨ k.st = 5) (idle : s.linkBusy link.val = false) :
    Completes (.linkStandbyIdleExpiry link) s fun t =>
      (t.link link.val).standbyAsked = true ∧ (t.link link.val).st = k.st ∧
        ∃ g, t.out.head? = some (.ctrl link.val g .standbyReq (ctrlFlits g .standbyReq)) := by
  refine completes_live hs (by rw [exec, execLinkStandbyIdleExpiry]) ?_
  have up' : s.linkUp link.val = true := by rw [State.linkUp, hk]; simpa using up
  simp only [bne_iff_ne.mpr armed, up', idle, Bool.not_false, Bool.and_self, if_true, State.askStandby, State.link_onLink, State.link_sendCtrl,
    State.closeGroup_st, hk, true_and, State.onLink_out]
  obtain ⟨g, out⟩ := (s.closeGroup link.val).sendCtrl_out link.val .standbyReq
  exact ⟨g, by rw [out]; rfl⟩

theorem linkRetry_completes (down : k.st = 9 ∨ k.st = 10) : Completes (.linkRetry link) s fun t =>
    (t.link link.val).st = (if s.flag (Obj.linkEnable link.val) then 1 else 0) ∧ (t.link link.val).keys = [] ∧
      (t.link link.val).lanes = 0x0FF ∧ (t.link link.val).tx = {} ∧ (t.link link.val).rx = {} := by
  refine completes_live hs (by rw [exec, execLinkRetry]) ?_
  have down' : (k.st == 9 || k.st == 10) = true := by simpa using down
  simp only [hk, down', if_true, State.link_toDetect]
  exact ⟨rfl, rfl, rfl, rfl, rfl⟩

theorem peerDetected_completes (detecting : k.st = 1) : Completes (.peerDetected link) s fun t => t.link link.val = { k with st := 2 } := by
  refine completes_live hs (by rw [exec, execPeerDetected]) ?_
  simp only [State.link_onLink, if_true, hk, detecting, beq_self_eq_true]

theorem detectWithoutPeer_completes (detecting : k.st = 1) (retrain : k.retrainCmd = true) : Completes (.detectWithoutPeer link) s fun t =>
    t.link link.val = { k with retrainCmd := false } ∧ t.reg Obj.linkCmdResult = 0x00 ∧ s.regsBut [Obj.linkCmdResult] t := by
  refine completes_live hs (by rw [exec, execDetectWithoutPeer]) ?_
  simp only [hk, detecting, beq_self_eq_true, if_true, State.link_retrainEnd, true_and]
  simp only [State.retrainEnd, hk, retrain, if_true, State.reg_setReg, true_and]
  intro x out
  exact State.reg_setReg_ne _ _ (List.mem_singleton.not.mp out)

end Events

/-- The second link of a Gatehouse is another than its first, and the partner of another (Table 0.4). -/
theorem secondLink_apart {gh : Nat} (_ : gh < 16) : gh ≠ secondLink gh ∧ gh ≠ partner (secondLink gh) := by
  unfold secondLink partner
  split <;> omega

/-- A lost Gatehouse takes both its links with it: the first stays gone while the second's traffic moves (R301). -/
theorem gatehouseDieLost_completes {s : State} {gh : Fin 16} (hs : s.running = true) (present : s.hasDie (dieGH gh.val) = true) :
    Completes (.gatehouseDieLost gh) s fun t =>
      t.power.present = clearBit s.power.present (dieGH gh.val) ∧ t.fabric.ghLost = setBit s.fabric.ghLost gh.val ∧
        ∀ l, l = gh.val ∨ l = secondLink gh.val →
          (t.link l).st = 9 ∧ (t.link l).cause = 0x07 ∧ (t.link l).keys = [] ∧ ∀ e ∈ t.fabric.egress, e.link ≠ l := by
  refine completes_live hs (by rw [exec, execGatehouseDieLost]) ?_
  simp only [present, if_true]
  generalize hu : State.loseLink _ gh.val = u
  have first : u.goneWithDie gh.val ∧ u.fabric.ghLost = setBit s.fabric.ghLost gh.val ∧
      u.power.present = clearBit s.power.present (dieGH gh.val) := by
    rw [← hu]
    obtain ⟨gone, lost, -⟩ := State.loseLink_gone _ gh.val
    exact ⟨gone, lost, (State.loseLink_moves _ gh.val).same (p := .present) (by decide)⟩
  obtain ⟨gone, lost, left⟩ := first
  obtain ⟨other, apart⟩ := secondLink_apart gh.isLt
  obtain ⟨second, lost', kept⟩ := u.loseLink_gone (secondLink gh.val)
  have logged := State.log_fabric (u.loseLink (secondLink gh.val)) 0x12 (dieGH gh.val) (dieGH gh.val) 0 0 0
  have power := State.log_power (u.loseLink (secondLink gh.val)) 0x12 (dieGH gh.val) (dieGH gh.val) 0 0 0
  refine ⟨(congrArg Power.present power).trans (((State.loseLink_moves u _).same (p := .present) (by decide)).trans left),
    (congrArg Fabric.ghLost logged).trans (lost'.trans lost), fun l hl => ?_⟩
  have both : ((u.loseLink (secondLink gh.val)).log 0x12 (dieGH gh.val) (dieGH gh.val)).goneWithDie l := by
    refine State.goneWithDie.congr ?_ logged
    rcases hl with rfl | rfl
    · exact kept _ other apart gone
    · exact second
  obtain ⟨st, cause, keys, empty⟩ := both
  exact ⟨st, cause, keys, empty.1⟩

theorem dedupExpiry_completes {s : State} (hs : s.running = true) (epid : Nat) (tc : Fin 4) :
    Completes (.dedupExpiry epid tc) s fun t => t.fabric.dedup = s.fabric.dedup.del (epid * 4 + tc.val) :=
  completes_live hs (by rw [exec, execDedupExpiry]) rfl

/-! ## A link that wakes (R489, R491) -/

/-- A command of a device that is up, asleep or not. -/
theorem completes_awake {c : Instr} {s : State} {f : State → State} {post : State → Prop} (hs : s.up = true) (hc : exec c s = awake s f)
    (h : post (f s)) : Completes c s post :=
  ⟨f s, by simp [hc, awake, hs], h⟩

theorem linkWake_completes {s : State} {link : Fin 32} {k : Link} (hs : s.up = true) (hk : s.link link.val = k) (standby : k.st = 8)
    (day : s.power.st ≠ 2) : Completes (.linkWake link) s fun t => t.link link.val = { k with st := k.upState, standbyAsked := false } := by
  refine completes_awake hs (by rw [exec, execLinkWake]) ?_
  simp only [beq_eq_false_iff_ne.mpr day, Bool.false_eq_true, if_false, State.wakeLink, hk, standby, beq_self_eq_true, if_true,
    State.link_irqEdge, State.link_onLink]

theorem linkWake_night_completes {s : State} {link : Fin 32} (hs : s.up = true) (standby : (s.link link.val).st = 8) (night : s.power.st = 2)
    (mask : (s.reg Obj.wakeLinkMask).testBit link.val = true) (hears : s.power.deafLinks.testBit link.val = false)
    (enabled : (s.reg Obj.wakeEn).testBit 0 = true) :
    Completes (.linkWake link) s fun t => t.power.st = 3 ∧ t.power.wakeCause = 0x01 + link.val * 4 := by
  refine completes_awake hs (by rw [exec, execLinkWake]) ?_
  simp only [night, beq_self_eq_true, if_true, standby, mask, hears, Bool.not_false, Bool.and_self, State.wakeSource, enabled, State.wake,
    Nat.reduceBEq, Bool.false_eq_true, if_false, and_self]

/-- Settles O32: a link that is lost is taken down, its packets moved or dropped; every other event writes the link it names, and sends what
it says. -/
theorem linkEventsComplete : Obligations.LinkEventsComplete := by
  unfold Obligations.LinkEventsComplete
  refine ⟨?_, ?_⟩
  · rintro s link - hs rfl
    exact ⟨replayTimeout_completes hs rfl,
      fun lane lo hi used => ⟨laneFailing_spare_completes hs rfl lo hi used, laneFailing_narrow_completes hs rfl lo hi used,
        laneFailing_lost_completes hs rfl lo hi used⟩,
      spareUnusable_completes hs rfl,
      fun lane m => laneMapResend_completes hs rfl,
      laneSparingDone_receiver_completes hs rfl,
      laneSparingDone_sender_completes hs rfl,
      creditQuietExpiry_audited_completes hs rfl,
      creditQuietExpiry_syncs_completes hs rfl,
      creditSyncRequest_completes hs rfl,
      creditSyncTimeout_completes hs rfl,
      linkDeadTimeout_completes hs rfl,
      standbyAckTimeout_completes hs rfl,
      linkStandbyIdleExpiry_completes hs rfl,
      linkRetry_completes hs rfl,
      peerDetected_completes hs rfl,
      detectWithoutPeer_completes hs rfl,
      fun gh => gatehouseDieLost_completes hs,
      dedupExpiry_completes hs⟩
  · rintro s link - hs rfl standby
    exact ⟨linkWake_completes hs rfl standby, linkWake_night_completes hs standby⟩

end Sys2Proof.Machine
end

section
/-! Proofs for routing and traffic (chapter 09): the checks of a port, the packets that take no guest's memory, the fabric's command records,
and the transmitter's turns. -/

namespace Sys2Proof.Machine

open Sys2Proof

/-! ## The management key at a port (R283 check 2, R302) -/

theorem State.keyOk_management {s : State} {l : Nat} {p : Packet} (class3 : p.tc = 3) : s.keyOk l p = (p.pkey == 0xFFFF) := by
  simp [State.keyOk, class3]

/-- Neither PKEY_ALL nor a key set lets key 0 or the management key pass on TC0 to TC2. -/
theorem State.keyOk_reserved {s : State} {l : Nat} {p : Packet} (guest : p.tc ≠ 3) (key : p.pkey = 0 ∨ p.pkey = 0xFFFF) :
    s.keyOk l p = false := by
  unfold State.keyOk
  rw [if_neg (by simpa using guest)]
  rcases key with key | key <;> simp [key]

theorem State.keyOk_misused {s : State} {l : Nat} {p : Packet}
    (key : p.pkey = 0 ∨ (p.tc = 3 ∧ p.pkey ≠ 0xFFFF) ∨ (p.tc ≠ 3 ∧ p.pkey = 0xFFFF)) : s.keyOk l p = false := by
  by_cases class3 : p.tc = 3
  · rw [State.keyOk_management class3, beq_eq_false_iff_ne]
    omega
  · exact State.keyOk_reserved class3 (by omega)

theorem State.port_of_bad_key {s : State} {l : Nat} {p : Packet} (m : Option SetMsg) (form : s.formOk p = true) (key : s.keyOk l p = false) :
    s.port l p m = s.rejectPkt l p 2 := by
  simp [State.port, form, key]

/-- Settles O57: the key check follows the check of form, and what fails it is rejected there. -/
theorem portChecksManagementKey : Obligations.PortChecksManagementKey := by
  unfold Obligations.PortChecksManagementKey
  exact fun s l p m form => ⟨fun key => State.port_of_bad_key m form (State.keyOk_misused key),
    fun class3 key => by rw [State.keyOk_management class3, key, beq_self_eq_true]⟩

end Sys2Proof.Machine
end

section
namespace Sys2Proof.Machine

open Sys2Proof

/-! ## What a packet's passage through its port leaves of rates, requests and links (R270, R283, R310) -/

/-- Of what belongs to its peers, a look at the dedup entry moves that entry and no other. -/
theorem State.dedup_peers (s : State) (l : Nat) (p : Packet) :
    (s.dedup l p).2.fabric.own = s.fabric.own ∧ (s.dedup l p).2.fabric.rates = s.fabric.rates := by
  have put : ∀ k e, (s.putDedup l k e).fabric.own = s.fabric.own ∧ (s.putDedup l k e).fabric.rates = s.fabric.rates := by
    intro k e
    simp only [State.putDedup]
    split <;> simp
  have dropped : ∀ sel, ((s.countLink l 0x2023 sel).discardPkt l p).fabric.own = s.fabric.own ∧
      ((s.countLink l 0x2023 sel).discardPkt l p).fabric.rates = s.fabric.rates := by
    intro sel
    obtain ⟨-, -, -, own, rates, -⟩ :=
      (((State.countLink_moves s l 0x2023 sel).mono (ps := [.links, .samples, .counters, .irqPending]) (by decide)).trans
        ((State.discardPkt_moves _ l p).mono (by decide))).same (p := .peers) (by decide)
    exact ⟨own, rates⟩
  simp only [State.dedup]
  split
  · exact put _ _
  · exact dropped 0
  · exact dropped 1

theorem State.own_of_ite {c : Prop} [Decidable c] {a b : State} {os : List OwnReq} (then_ : a.fabric.own = os) (else_ : b.fabric.own = os) :
    (if c then a else b).fabric.own = os := by
  split <;> assumption

theorem State.ccDecrease_own (s : State) (epid tc : Nat) : (s.ccDecrease epid tc).fabric.own = s.fabric.own :=
  State.own_of_ite rfl (State.own_of_ite rfl (by
    rw [State.count_fabric]
    exact State.own_of_ite (by rw [State.count_fabric]) rfl))

/-- Marks leave the device's requests, and without ECE every rate, as they are. -/
theorem State.takeMarks_peers (s : State) (l : Nat) (p : Packet) :
    (s.takeMarks l p).fabric.own = s.fabric.own ∧ (p.ece = false → (s.takeMarks l p).fabric.rates = s.fabric.rates) := by
  have own : (if p.ece then (s.countLink l 0x2024 2).ccDecrease p.src p.tc else s).fabric.own = s.fabric.own := by
    split
    · rw [State.ccDecrease_own, State.countLink_fabric]
    · rfl
  unfold State.takeMarks
  dsimp only
  refine ⟨?_, fun unmarked => ?_⟩
  · split <;> exact own
  · simp only [unmarked, Bool.false_eq_true, if_false]
    split <;> rfl

theorem State.arrive_keepsLinks (s : State) (l : Nat) (ps : List Packet) : KeepsLinks s (s.arrive l ps) := by
  refine List.foldlRecOn ps _ (motive := fun u => KeepsLinks s u) (.refl s) fun u kept p _ => kept.trans (.ite ?_ ?_)
  · exact (u.onLink_keepsLinks l rfl).then_moves (State.countLink_moves _ _ _ _) (by decide)
  · exact ((u.onLink_keepsLinks l rfl).then_moves (State.countLink_moves _ _ _ _) (by decide)).then_moves (State.enterQ_moves _ _ _) (by decide)

theorem State.atPort_keepsLinks {s a : State} {l : Nat} {p : Packet} (h : s.atPort l p = some a) : KeepsLinks s a := by
  unfold State.atPort at h
  split at h
  · cases h
  split at h
  · cases h; exact .refl s
  split at h
  · cases h; exact s.arrive_keepsLinks l [p]
  · cases h

/-- A packet that is present at a port of a device that is awake is taken from it and checked. -/
theorem State.receive_awake {s a : State} {l : Nat} {p : Packet} (m : Option SetMsg) (awake : s.power.st = 0) (present : s.atPort l p = some a) :
    s.receive l p m = (a.takeReleased l p).port l p m := by
  have st : a.power.st = 0 := ((State.atPort_moves present).same (p := .night) (by decide)).1.trans awake
  simp [State.receive, present, State.waits495, st]

/-- A packet that comes as it is to a device that is awake: it has been taken from its port, with every link as before but for its receive
side, and is checked. -/
theorem State.receive_checked {s : State} {l : Nat} {p : Packet} (m : Option SetMsg) (awake : s.power.st = 0)
    (present : (s.atPort l p).isSome = true) :
    ∃ a, Moves [.links, .counters, .samples, .irqPending] s a ∧ KeepsLinks s a ∧ s.receive l p m = a.port l p m := by
  obtain ⟨a, ha⟩ := Option.isSome_iff_exists.mp present
  exact ⟨a.takeReleased l p, State.taken_at_port ha, (State.atPort_keepsLinks ha).trans (a.onLink_keepsLinks l rfl),
    State.receive_awake m awake ha⟩

/-- What the checks of a packet's form and key read is not changed by its being taken from its port. -/
theorem Moves.checks {s a : State} (h : Moves [.links, .counters, .samples, .irqPending] s a) (p : Packet) :
    a.epid = s.epid ∧ a.formOk p = s.formOk p ∧ ∀ l q, a.keyOk l q = s.keyOk l q := by
  have forced : a.forced = s.forced := h.same (p := .forced) (by decide)
  have regs : a.regs = s.regs := h.same (p := .regs) (by decide)
  obtain ⟨-, -, -, -, -, -, -, -, -, keys, -⟩ := h.same (p := .routes) (by decide)
  exact ⟨State.epid_congr forced, State.formOk_congr forced p, State.keyOk_congr regs keys⟩

/-- A packet for this device that passes its port is delivered, with the device's requests as before, and every rate too where it echoes no
mark. -/
theorem State.receive_peers {s : State} {l : Nat} {p : Packet} (m : Option SetMsg) (h : s.passes l p) :
    ∃ u, Passed s u ∧ u.fabric.own = s.fabric.own ∧ (p.ece = false → u.fabric.rates = s.fabric.rates) ∧
      s.receive l p m = u.deliver l p m := by
  obtain ⟨-, awake, present, form, key, dst, unicast, fresh⟩ := h
  obtain ⟨a, moved, -, received⟩ := State.receive_checked m awake present
  obtain ⟨epid, formed, keyed⟩ := moved.checks p
  obtain ⟨dedup, -, -, own, rates, -⟩ := moved.same (p := .peers) (by decide)
  obtain ⟨own', rates'⟩ := a.dedup_peers l p
  obtain ⟨own'', rates''⟩ := (a.dedup l p).2.takeMarks_peers l p
  have fresh' : (a.dedup l p).1 = true := (State.dedup_congr dedup l p).trans fresh
  refine ⟨(a.dedup l p).2.takeMarks l p, Moves.passed ?_, own''.trans (own'.trans own),
    fun unmarked => (rates'' unmarked).trans (rates'.trans rates), ?_⟩
  · exact (moved.mono (by decide)).trans (((State.dedup_moves a l p).mono (by decide)).trans ((State.takeMarks_moves _ l p).mono (by decide)))
  · rw [received, State.port]
    simp [formed, form, keyed, key, unicast, epid, ← dst, fresh']

/-! ## NOTIFY, CNP, RSP and MGMT (R279 to R281, R310, R311, R459) -/

theorem State.rejectPkt_portOnly {s u : State} (h : Moves portOnly s u) (l sel : Nat) (p : Packet) : Moves portOnly s (u.rejectPkt l p sel) :=
  h.trans ((State.rejectPkt_moves u l p sel).mono (by decide))

theorem notifyReceived_completes {s : State} {link : Fin 32} {p : Packet} (h : s.passes link.val (s.mine p 0x06)) :
    Completes (.notifyReceived link p) s fun t => Frame portOnly s t ∧
      ∃ m : State, Frame portOnly s m ∧ t = (m.countLink link.val 0x2022 8).discardPkt link.val (s.mine p 0x06) := by
  refine completes_live h.1 (by rw [exec, execNotifyReceived]) ?_
  obtain ⟨u, passed, received⟩ := State.receive_of_passes none h
  have dropped : u.deliver link.val (s.mine p 0x06) none = u.rejectPkt link.val (s.mine p 0x06) 8 := rfl
  rw [received, dropped]
  exact ⟨(State.rejectPkt_portOnly passed.moves _ _ _).frame, u, passed.moves.frame, rfl⟩

/-- A rate entry that is decreased now: an increase of the same time is discarded first (R311, R312). -/
def State.lowered (s : State) (r : RateEntry) : RateEntry :=
  { s.rateNow r with
    rate := max (s.reg Obj.ccMinRate)
      ((match r.raised with | some (x, b) => if x = s.now then b else r.rate | none => r.rate) * (256 - s.reg Obj.ccMd) / 256),
    decreased := s.now }

theorem State.ccDecrease_rates {s : State} {epid tc : Nat} {r : RateEntry} (low : tc ≤ 1) (on : s.flag Obj.ccEnable = true)
    (found : s.fabric.rates.find (rateKey epid tc) = some r) (due : r.decreased + s.reg Obj.ccHold * 1000 ≤ s.now) :
    (s.ccDecrease epid tc).fabric.rates = s.fabric.rates.put (rateKey epid tc) (s.lowered r) := by
  have class01 : decide (1 < tc) = false := by simpa using low
  have held : decide (s.now < r.decreased + s.reg Obj.ccHold * 1000) = false := by simpa using due
  simp only [State.ccDecrease, class01, on, found, held, Bool.not_true, Bool.or_self, Bool.false_eq_true, if_false, Option.map_some,
    Option.getD_some, State.count_fabric, State.lowered, State.rateNow, beq_iff_eq] <;> rfl

theorem State.lowered_congr {s u : State} (regs : u.regs = s.regs) (now : u.now = s.now) (r : RateEntry) : u.lowered r = s.lowered r := by
  simp only [State.lowered, State.rateNow, State.reg_congr regs, now]

theorem cnp_completes {s : State} {link : Fin 32} {p : Packet} {r : RateEntry} (h : s.passes link.val (s.mine p 0x07)) (unmarked : p.ece = false)
    (low : p.tc ≤ 1) (on : s.flag Obj.ccEnable = true) (found : s.fabric.rates.find (rateKey p.src p.tc) = some r)
    (due : r.decreased + s.reg Obj.ccHold * 1000 ≤ s.now) :
    Completes (.cnp link p) s fun t => t.fabric.rates = s.fabric.rates.put (rateKey p.src p.tc) (s.lowered r) := by
  refine completes_live h.1 (by rw [exec, execCnp]) ?_
  obtain ⟨u, passed, -, rates, received⟩ := State.receive_peers none h
  have delivered : u.deliver link.val (s.mine p 0x07) none =
      ((u.countLink link.val 0x2024 2).ccDecrease p.src p.tc).unpool link.val (s.mine p 0x07) := rfl
  generalize hv : u.countLink link.val 0x2024 2 = v at delivered
  have counted : Moves portOnly s v := hv ▸ passed.moves.trans ((State.countLink_moves u _ _ _).mono (by decide))
  have regs : v.regs = s.regs := counted.same (p := .regs) (by decide)
  have now : v.now = s.now := counted.same (p := .timebase) (by decide)
  have rates' : v.fabric.rates = s.fabric.rates := by rw [← hv, State.countLink_fabric]; exact rates unmarked
  have lowers := State.ccDecrease_rates (s := v) low (by simpa only [State.flag, State.reg_congr regs] using on) (rates' ▸ found)
    (by rw [State.reg_congr regs, now]; exact due)
  rw [received, delivered]
  obtain ⟨-, -, -, -, kept, -⟩ := (State.unpool_moves (v.ccDecrease p.src p.tc) link.val (s.mine p 0x07)).same (p := .peers) (by decide)
  rw [kept, lowers, rates', State.lowered_congr regs now]

/-- The request of the device that an answer matches (R279). -/
def State.asked (s : State) (p : Packet) : Option OwnReq := s.fabric.own.find? fun o => o.dst == p.src && o.tc == p.tc && o.tag == p.tag

/-- A request of the device once its answer has come. -/
def State.ownAnswered (s : State) (k : OwnKind) (p : Packet) : State :=
  match k with
  | .migrateIn _ off => s.migrAnswer off p
  | .migrateOut _ off => s.migrAnswer off p
  | k => s.porterAnswer k p.status (p.payload.take (bitsOf p.xw 10 0)) p.poi

theorem State.takeRsp_matched {s : State} {l : Nat} {p : Packet} {o : OwnReq} (found : s.asked p = some o) :
    s.takeRsp l p = (State.unpool { s with fabric := { s.fabric with own := s.fabric.own.erase o } } l p).ownAnswered o.kind p := by
  have found' : s.fabric.own.find? (fun o => o.dst == p.src && o.tc == p.tc && o.tag == p.tag) = some o := found
  cases kind : o.kind <;> simp only [State.takeRsp, found', kind, State.ownAnswered]

theorem State.takeRsp_unmatched {s : State} {l : Nat} {p : Packet} (none_asked : s.asked p = none) : s.takeRsp l p = s.rejectPkt l p 8 := by
  have found' : s.fabric.own.find? (fun o => o.dst == p.src && o.tc == p.tc && o.tag == p.tag) = none := none_asked
  simp only [State.takeRsp, found']

theorem rsp_completes {s : State} {link : Fin 32} {p : Packet} {o : OwnReq} (h : s.passes link.val (s.mine p 0x08)) (found : s.asked p = some o) :
    Completes (.rsp link p) s fun t => ∃ m : State, Frame portOnly s m ∧ m.fabric.own = s.fabric.own.erase o ∧
      t = m.ownAnswered o.kind (s.mine p 0x08) := by
  refine completes_live h.1 (by rw [exec, execRsp]) ?_
  obtain ⟨u, passed, own, -, received⟩ := State.receive_peers none h
  have delivered : u.deliver link.val (s.mine p 0x08) none = u.takeRsp link.val (s.mine p 0x08) := rfl
  have found' : u.asked (s.mine p 0x08) = some o := by rw [← found]; simp only [State.asked, own]; rfl
  rw [received, delivered, State.takeRsp_matched found']
  generalize hv : { u with fabric := { u.fabric with own := u.fabric.own.erase o } } = v
  have erased : Moves portOnly s v := hv ▸ moves_mk.mpr (.record passed.moves)
  have left : v.fabric.own = s.fabric.own.erase o := by rw [← hv, ← own]
  have taken := State.unpool_moves v link.val (s.mine p 0x08)
  obtain ⟨-, -, -, kept, -⟩ := taken.same (p := .peers) (by decide)
  exact ⟨_, (erased.trans (taken.mono (by decide))).frame, kept.trans left, rfl⟩

theorem rsp_unmatched_completes {s : State} {link : Fin 32} {p : Packet} (h : s.passes link.val (s.mine p 0x08)) (none_asked : s.asked p = none) :
    Completes (.rsp link p) s fun t => Frame portOnly s t ∧ t.fabric.own = s.fabric.own := by
  refine completes_live h.1 (by rw [exec, execRsp]) ?_
  obtain ⟨u, passed, own, -, received⟩ := State.receive_peers none h
  have delivered : u.deliver link.val (s.mine p 0x08) none = u.takeRsp link.val (s.mine p 0x08) := rfl
  have none_asked' : u.asked (s.mine p 0x08) = none := by rw [← none_asked]; simp only [State.asked, own]; rfl
  rw [received, delivered, State.takeRsp_unmatched none_asked']
  obtain ⟨-, -, -, kept, -⟩ := (State.rejectPkt_moves u link.val (s.mine p 0x08) 8).same (p := .peers) (by decide)
  exact ⟨(State.rejectPkt_portOnly passed.moves _ _ _).frame, kept.trans own⟩

/-- A request that finds room in the dictionary's queue joins it. -/
theorem State.dictArrive_joins {s : State} {via : Via} {trk : Option Nat} {pdu : Bytes} (request : (pduOf pdu).rsp = false)
    (serves : s.dictAway = false) (room : s.dict.queue.length < 64) :
    (s.dictArrive via trk pdu).dict.queue = s.dict.queue ++ [{ via := via, pdu := pdu, joined := s.dict.arrived, trk := trk }] ∧
      (s.dictArrive via trk pdu).pool = s.pool := by
  simp only [State.dictArrive, request, serves, Nat.not_le.mpr room, decide_false, Bool.or_self, Bool.false_eq_true, if_false]
  exact ⟨rfl, rfl⟩

theorem mgmt_completes {s : State} {link : Fin 32} {p : Packet} (h : s.passes link.val (s.mine p 0x30)) (tracks : s.tracks link.val (s.mine p 0x30))
    (on : s.inbandOn = true) (request : (pduOf p.payload).rsp = false) (serves : s.dictAway = false) (room : s.dict.queue.length < 64) :
    Completes (.mgmt link p) s fun t => ∃ k : Nat, t.pool.reqs.has k = true ∧ t.dict.queue = s.dict.queue ++
      [{ via := .inband p.src p.tag, pdu := p.payload, joined := s.dict.arrived, trk := some k }] := by
  refine completes_live h.1 (by rw [exec, execMgmt]) ?_
  obtain ⟨u, passed, received⟩ := State.receive_of_passes none h
  have on' : u.inbandOn = true := by
    rw [← on]
    simp only [State.inbandOn, State.inForce_congr (passed.moves.same (p := .forced) (by decide))]
  have delivered : u.deliver link.val (s.mine p 0x30) none = u.claim { link := link.val, p := s.mine p 0x30, gid := noGid } := if_pos on'
  obtain ⟨k, n, -, claimed⟩ := State.claim_of_tracks (c := { link := link.val, p := s.mine p 0x30, gid := noGid })
    (State.tracks_of_passed tracks passed)
  obtain ⟨moved, m, held⟩ := State.holds_of_putReq passed k n { link := link.val, p := s.mine p 0x30, gid := noGid }
  generalize State.unclaim _ _ = v at claimed moved held
  have begun : v.begin k { link := link.val, p := s.mine p 0x30, gid := noGid } = v.dictArrive (.inband p.src p.tag) (some k) p.payload := rfl
  obtain ⟨queue, arrived⟩ := moved.same (p := .dictQueue) (by decide)
  obtain ⟨-, -, -, -, -, -, -, -, -, -, gap, -, lost, -⟩ := moved.same (p := .ik) (by decide)
  obtain ⟨awake, -⟩ := moved.same (p := .night) (by decide)
  have serves' : v.dictAway = false := by rw [← serves]; simp only [State.dictAway, gap, lost, awake]
  obtain ⟨joins, pool⟩ := State.dictArrive_joins (via := .inband p.src p.tag) (trk := some k) request serves' (queue ▸ room)
  rw [received, delivered, claimed, begun]
  exact ⟨k, by rw [pool]; exact Tab.has_of_find held, by rw [joins, queue, arrived]⟩

/-! ## Packets in transit (R283 checks 3 to 5, R289, R294) -/

theorem State.route_congr {s t : State} (links : KeepsLinks s t) (forced : t.forced = s.forced)
    (block : t.fabric.blockRoutes = s.fabric.blockRoutes) (exact_ : t.fabric.exactRoutes = s.fabric.exactRoutes)
    (out : t.fabric.pairOut = s.fabric.pairOut) : t.route = s.route := by
  have entry : t.routeEntry = s.routeEntry := by funext dst; simp only [State.routeEntry, block, exact_]
  have mode : t.pairMode = s.pairMode := by funext k; exact State.inForce_congr forced _
  have isOut : t.pairIsOut = s.pairIsOut := by funext k; simp only [State.pairIsOut, out]
  have usable : t.linkUsable = s.linkUsable := by funext l; simp only [State.linkUsable, Link.established, links.st]
  have up : t.linkUp = s.linkUp := by funext l; simp only [State.linkUp, links.st]
  have spur : t.spurLink = s.spurLink := by unfold State.spurLink; rw [up]
  have ring : t.ringVc = s.ringVc := by funext k out p i; simp only [State.ringVc, State.crosses, State.inForce_congr forced]
  unfold State.route
  rw [entry, mode, isOut, usable, up, spur, ring]

/-- A packet takes its place at the end of the egress queues; of its fields only its queue and its finish tag are new. -/
theorem State.joinQueue_form (s : State) (e : EPkt) (q : Nat) : ∃ n r, s.joinQueue e q =
    { s with fabric := { s.fabric with queueRun := r, egress := s.fabric.egress ++ [{ e with queue := q, finish := n }] } } := by
  simp only [State.joinQueue]
  split <;> exact ⟨_, _, rfl⟩

theorem State.enqueue_egress (s : State) (e : EPkt) : ∃ f : EPkt, (s.enqueue e).fabric.egress = s.fabric.egress ++ [f] ∧
    f.link = e.link ∧ f.p = e.p ∧ f.inLink = e.inLink := by
  obtain ⟨n, r, joined⟩ := s.joinQueue_form { e with joined := s.now, epoch := s.fabric.routeEpoch } (s.queueFor e.link e.p)
  exact ⟨_, congrArg (fun u : State => u.fabric.egress) joined, rfl, rfl, rfl⟩

theorem State.forward_routed {s : State} {l out : Nat} {p q : Packet} (hops : s.hopsOut p = false) (route : s.route p (some l) = some (out, q))
    (key : s.keyOk out q = true) :
    s.forward l p = s.enqueue { link := out, p := { q with hops := p.hops + 1 }, inLink := some l, inVc := p.vc } := by
  simp [State.forward, hops, route, key]

theorem packetHeader_completes {s : State} {link : Fin 32} {p q : Packet} {l : Nat} (hs : s.running = true) (awake : s.power.st = 0)
    (present : (s.atPort link.val p).isSome = true) (form : s.formOk p = true) (key : s.keyOk link.val p = true) (other : p.dst ≠ s.epid)
    (unicast : p.dst ≠ 0xFFFFF) (hops : s.hopsOut p = false) (route : s.route p (some link.val) = some (l, q)) (key' : s.keyOk l q = true) :
    Completes (.packetHeader link p) s fun t => ∃ e : EPkt, t.fabric.egress = s.fabric.egress ++ [e] ∧ e.link = l ∧
      e.p = { q with hops := p.hops + 1 } ∧ e.inLink = some link.val := by
  refine completes_live hs (by rw [exec, execPacketHeader]) ?_
  obtain ⟨a, moved, links, received⟩ := State.receive_checked none awake present
  obtain ⟨epid, formed, keyed⟩ := moved.checks p
  obtain ⟨block, exact_, -, -, -, -, -, -, out, -⟩ := moved.same (p := .routes) (by decide)
  have routed : a.route p (some link.val) = some (l, q) :=
    State.route_congr links (moved.same (p := .forced) (by decide)) block exact_ out ▸ route
  have hops' : a.hopsOut p = false := by
    rw [← hops]
    simp only [State.hopsOut, State.reg_congr (moved.same (p := .regs) (by decide))]
  have forwards : a.port link.val p none = a.forward link.val p := by
    simp [State.port, formed, form, keyed, key, unicast, epid, other]
  rw [received, forwards, State.forward_routed hops' routed ((keyed l q).trans key')]
  obtain ⟨e, queued, link, packet, port⟩ := a.enqueue_egress { link := l, p := { q with hops := p.hops + 1 }, inLink := some link.val, inVc := p.vc }
  exact ⟨e, by rw [queued, (moved.egress (by decide)).1], link, packet, port⟩

/-- Settles O7: each packet, once it has passed its port, does what its opcode says. -/
theorem otherPacketsComplete : Obligations.OtherPacketsComplete := by
  unfold Obligations.OtherPacketsComplete
  refine ⟨fun s link p h => notifyReceived_completes h,
    fun s link p r h unmarked low on found due => cnp_completes h unmarked low on found due,
    fun s link p h => ⟨fun o found => ?_, fun none_asked => rsp_unmatched_completes h none_asked⟩,
    fun s link p h tracks on request serves room => mgmt_completes h tracks on request serves room,
    fun s link p l q hs awake present form key other unicast hops route key' =>
      packetHeader_completes hs awake present form key other unicast hops route key',
    fun s src seq hs => completes_live hs (by rw [exec, execBroadcastFilterExpiry]) rfl⟩
  obtain ⟨t, ht, m, frame, own, answered⟩ := rsp_completes h found
  refine ⟨t, ht, m, frame, own, answered.trans ?_⟩
  cases o.kind <;> rfl

end Sys2Proof.Machine
end

section
namespace Sys2Proof.Machine

open Sys2Proof

/-! ## The fabric's command records (R47) -/

/-- A command that ends with its RESULT has written OP and RESULT and no other object, where what it does before writes none. -/
theorem State.resultWritten {s u : State} {op code : Nat} (result v : Nat) (h : u.regs = (s.setReg op code).regs) :
    (u.setReg result v).reg result = v ∧ s.regsBut [op, result] (u.setReg result v) :=
  ⟨by simp, .setReg (.of_regs (.setReg (fun _ _ => rfl) (by simp) code) h) (by simp) v⟩

/-- A query that shows one value has written OP, the object that shows it and RESULT. -/
theorem State.queryShown {s : State} (op code shown v result : Nat) (apart : shown ≠ result) :
    (((s.setReg op code).setReg shown v).setReg result 0).reg shown = v ∧ (((s.setReg op code).setReg shown v).setReg result 0).reg result = 0 ∧
      s.regsBut [op, shown, result] (((s.setReg op code).setReg shown v).setReg result 0) :=
  ⟨by simp [apart], by simp, .setReg (.setReg (.setReg (fun _ _ => rfl) (by simp) code) (by simp) v) (by simp) 0⟩

/-! ## ROUTE_CMD (R288, R293, R306) -/

section Routes

variable {s : State} (hs : s.accepts Obj.routeCmdResult)

include hs

theorem setBlock_completes (ok : s.entryOk (s.reg Obj.routeCmdEntry) = true) : Completes .setBlock s fun t =>
    t.fabric = { s.fabric with
      blockRoutes := s.fabric.blockRoutes.put (s.reg Obj.routeCmdEpid % 2 ^ 20 / 256) (s.reg Obj.routeCmdEntry),
      routeEpoch := s.fabric.routeEpoch + 1, routeWait := some (0, s.reg Obj.routeCmdEpid % 2 ^ 20 / 256) } ∧
      t.reg Obj.routeCmdResult = 0x01 ∧ s.regsBut [Obj.routeCmdOp, Obj.routeCmdResult] t := by
  refine completes_record hs (by rw [exec, execSetBlock, routeCmd]) ?_
  have entry : (s.setReg Obj.routeCmdOp 0x01).reg Obj.routeCmdEntry = s.reg Obj.routeCmdEntry := s.reg_setReg_ne _ (by decide)
  have epid : (s.setReg Obj.routeCmdOp 0x01).routeEpid = s.reg Obj.routeCmdEpid % 2 ^ 20 := congrArg (· % _) (s.reg_setReg_ne _ (by decide))
  have ok' : (s.setReg Obj.routeCmdOp 0x01).entryOk (s.reg Obj.routeCmdEntry) = true := ok
  simp only [entry, epid, ok', Bool.not_true, Bool.false_eq_true, if_false]
  exact ⟨rfl, State.resultWritten Obj.routeCmdResult 0x01 rfl⟩

theorem setExact_completes (ok : s.entryOk (s.reg Obj.routeCmdEntry) = true)
    (room : s.fabric.exactRoutes.has (s.reg Obj.routeCmdEpid % 2 ^ 20) = true ∨ s.fabric.exactRoutes.size < 4096) :
    Completes .setExact s fun t =>
      t.fabric = { s.fabric with
        exactRoutes := s.fabric.exactRoutes.put (s.reg Obj.routeCmdEpid % 2 ^ 20) (s.reg Obj.routeCmdEntry),
        routeEpoch := s.fabric.routeEpoch + 1, routeWait := some (1, s.reg Obj.routeCmdEpid % 2 ^ 20) } ∧
        t.reg Obj.routeCmdResult = 0x01 ∧ s.regsBut [Obj.routeCmdOp, Obj.routeCmdResult] t := by
  refine completes_record hs (by rw [exec, execSetExact, routeCmd]) ?_
  have entry : (s.setReg Obj.routeCmdOp 0x02).reg Obj.routeCmdEntry = s.reg Obj.routeCmdEntry := s.reg_setReg_ne _ (by decide)
  have epid : (s.setReg Obj.routeCmdOp 0x02).routeEpid = s.reg Obj.routeCmdEpid % 2 ^ 20 := congrArg (· % _) (s.reg_setReg_ne _ (by decide))
  have ok' : (s.setReg Obj.routeCmdOp 0x02).entryOk (s.reg Obj.routeCmdEntry) = true := ok
  have room' : (!(s.setReg Obj.routeCmdOp 0x02).fabric.exactRoutes.has (s.reg Obj.routeCmdEpid % 2 ^ 20) &&
      decide (4096 ≤ (s.setReg Obj.routeCmdOp 0x02).fabric.exactRoutes.size)) = false := by
    rcases room with there | room
    · rw [State.setReg_fabric, there]; rfl
    · simp [Nat.not_le.mpr room]
  simp only [entry, epid, ok', room', Bool.not_true, Bool.false_eq_true, if_false]
  exact ⟨rfl, State.resultWritten Obj.routeCmdResult 0x01 rfl⟩

theorem clearExact_completes (there : s.fabric.exactRoutes.has (s.reg Obj.routeCmdEpid % 2 ^ 20) = true) : Completes .clearExact s fun t =>
    t.fabric = { s.fabric with
      exactRoutes := s.fabric.exactRoutes.del (s.reg Obj.routeCmdEpid % 2 ^ 20), routeEpoch := s.fabric.routeEpoch + 1,
      routeWait := some (1, s.reg Obj.routeCmdEpid % 2 ^ 20) } ∧
      t.reg Obj.routeCmdResult = 0x01 ∧ s.regsBut [Obj.routeCmdOp, Obj.routeCmdResult] t := by
  refine completes_record hs (by rw [exec, execClearExact, routeCmd]) ?_
  have epid : (s.setReg Obj.routeCmdOp 0x03).routeEpid = s.reg Obj.routeCmdEpid % 2 ^ 20 := congrArg (· % _) (s.reg_setReg_ne _ (by decide))
  simp only [epid, State.setReg_fabric, there, Bool.not_true, Bool.false_eq_true, if_false]
  exact ⟨rfl, State.resultWritten Obj.routeCmdResult 0x01 rfl⟩

/-- PAIR_OUT or PAIR_IN of a pair in use. -/
theorem pairCmd_completes {c : Instr} {code : Nat} {f : State → Nat → Nat} (hc : exec c s = routeCmd s code fun s => s.pairCmd (f s))
    (same : f (s.setReg Obj.routeCmdOp code) = f s) (named : s.reg Obj.routeCmdPair < 16) (used : s.pairMode (s.reg Obj.routeCmdPair) ≠ 0) :
    Completes c s fun t =>
      t.fabric = { s.fabric with pairOut := f s (s.reg Obj.routeCmdPair), routeEpoch := s.fabric.routeEpoch + 1,
                                 routeWait := some (2, s.reg Obj.routeCmdPair) } ∧
        t.reg Obj.routeCmdResult = 0x01 ∧ s.regsBut [Obj.routeCmdOp, Obj.routeCmdResult] t := by
  refine completes_record hs hc ?_
  have pair : (s.setReg Obj.routeCmdOp code).reg Obj.routeCmdPair = s.reg Obj.routeCmdPair := s.reg_setReg_ne _ (by decide)
  have used' : ((s.setReg Obj.routeCmdOp code).pairMode (s.reg Obj.routeCmdPair) == 0) = false := beq_eq_false_iff_ne.mpr used
  simp only [State.pairCmd, pair, used', same, Nat.not_le.mpr named, decide_false, Bool.or_self, Bool.false_eq_true, if_false]
  exact ⟨rfl, State.resultWritten Obj.routeCmdResult 0x01 rfl⟩

theorem routeQuery_completes : Completes .routeQuery s fun t =>
    t.reg Obj.routeCmdEntry = s.routeEntry (s.reg Obj.routeCmdEpid % 2 ^ 20) ∧ t.reg Obj.routeCmdResult = 0x00 ∧ t.fabric = s.fabric ∧
      s.regsBut [Obj.routeCmdOp, Obj.routeCmdEntry, Obj.routeCmdResult] t := by
  refine completes_record hs (by rw [exec, execRouteQuery, routeCmd]) ?_
  have epid : (s.setReg Obj.routeCmdOp 0x06).routeEpid = s.reg Obj.routeCmdEpid % 2 ^ 20 := congrArg (· % _) (s.reg_setReg_ne _ (by decide))
  rw [epid]
  obtain ⟨shown, result, kept⟩ := s.queryShown Obj.routeCmdOp 0x06 Obj.routeCmdEntry (s.routeEntry (s.reg Obj.routeCmdEpid % 2 ^ 20))
    Obj.routeCmdResult (by decide)
  exact ⟨shown, result, rfl, kept⟩

end Routes

/-! ## GMAP_CMD (R304 to R307, R321) -/

/-- What a GMAP_CMD reads is not written by its OP. -/
theorem State.gmap_setOp (s : State) (code : Nat) :
    (s.setReg Obj.gmapCmdOp code).reg Obj.gmapCmdPkey = s.reg Obj.gmapCmdPkey ∧
      (s.setReg Obj.gmapCmdOp code).reg Obj.gmapCmdGid = s.reg Obj.gmapCmdGid ∧
      (s.setReg Obj.gmapCmdOp code).gmapWildcard = s.gmapWildcard ∧ (s.setReg Obj.gmapCmdOp code).gmapEpid = s.gmapEpid ∧
      (s.setReg Obj.gmapCmdOp code).gmapEntry = s.gmapEntry ∧ (s.setReg Obj.gmapCmdOp code).gmapFull = s.gmapFull := by
  have pkey : (s.setReg Obj.gmapCmdOp code).reg Obj.gmapCmdPkey = s.reg Obj.gmapCmdPkey := s.reg_setReg_ne _ (by decide)
  have epid : (s.setReg Obj.gmapCmdOp code).reg Obj.gmapCmdEpid = s.reg Obj.gmapCmdEpid := s.reg_setReg_ne _ (by decide)
  have wildcard : (s.setReg Obj.gmapCmdOp code).gmapWildcard = s.gmapWildcard := congrArg (bitOf · 31) epid
  have source : (s.setReg Obj.gmapCmdOp code).gmapEpid = s.gmapEpid := congrArg (· % 2 ^ 20) epid
  refine ⟨pkey, s.reg_setReg_ne _ (by decide), wildcard, source, ?_, ?_⟩
  · rw [State.gmapEntry, wildcard, source, pkey, State.setReg_fabric, State.gmapEntry]
  · rw [State.gmapFull, wildcard, State.setReg_fabric, State.gmapFull]

/-- The guest map has taken an update, and drains what was mapped before it (R306). -/
def State.gmapUpdated (s : State) (exact_ wild : Tab Nat) (t : State) : Prop :=
  t.fabric.gmapExact = exact_ ∧ t.fabric.gmapWild = wild ∧ t.fabric.gmapEpoch = s.fabric.gmapEpoch + 1 ∧
    t.fabric.gmapWait = some (s.reg Obj.gmapCmdPkey, if s.gmapWildcard then none else some s.gmapEpid) ∧
    t.reg Obj.gmapCmdResult = 0x01 ∧ s.regsBut [Obj.gmapCmdOp, Obj.gmapCmdResult] t

theorem State.gmapUpdate_updates (s : State) (code : Nat) (exact_ wild : Tab Nat) :
    s.gmapUpdated exact_ wild ((s.setReg Obj.gmapCmdOp code).gmapUpdate exact_ wild) := by
  obtain ⟨pkey, -, wildcard, epid, -⟩ := s.gmap_setOp code
  simp only [State.gmapUpdate, pkey, wildcard, epid]
  exact ⟨rfl, rfl, rfl, rfl, State.resultWritten Obj.gmapCmdResult 0x01 rfl⟩

section Gmap

variable {s : State} (hs : s.accepts Obj.gmapCmdResult) (low : 1 ≤ s.reg Obj.gmapCmdPkey) (high : s.reg Obj.gmapCmdPkey ≤ 0xFFFE)

include hs low high

theorem gmapSet_completes (guest : s.pool.guests.has (s.reg Obj.gmapCmdGid % 2 ^ 20) = true)
    (room : s.gmapEntry.isSome = true ∨ s.gmapFull = false) : Completes .gmapSet s (s.gmapUpdated
      (if s.gmapWildcard then s.fabric.gmapExact
        else s.fabric.gmapExact.put (gmapKey s.gmapEpid (s.reg Obj.gmapCmdPkey)) (s.reg Obj.gmapCmdGid % 2 ^ 20))
      (if s.gmapWildcard then s.fabric.gmapWild.put (s.reg Obj.gmapCmdPkey) (s.reg Obj.gmapCmdGid % 2 ^ 20) else s.fabric.gmapWild)) := by
  refine completes_record hs (by rw [exec, execGmapSet, gmapCmd]) ?_
  obtain ⟨pkey, gid, wildcard, epid, entry, full⟩ := s.gmap_setOp 0x01
  have room' : (s.gmapEntry.isNone && s.gmapFull) = false := by
    rcases room with there | room
    · simp [Option.isSome_iff_ne_none.mp there]
    · simp [room]
  simp only [pkey, gid, wildcard, epid, entry, full, room', low, high, guest, State.setReg_pool, State.setReg_fabric, decide_true, Bool.and_self,
    Bool.not_true, Bool.false_eq_true, if_false]
  split <;> exact s.gmapUpdate_updates 0x01 _ _

theorem gmapClear_completes (there : s.gmapEntry.isSome = true) : Completes .gmapClear s (s.gmapUpdated
      (if s.gmapWildcard then s.fabric.gmapExact else s.fabric.gmapExact.del (gmapKey s.gmapEpid (s.reg Obj.gmapCmdPkey)))
      (if s.gmapWildcard then s.fabric.gmapWild.del (s.reg Obj.gmapCmdPkey) else s.fabric.gmapWild)) := by
  refine completes_record hs (by rw [exec, execGmapClear, gmapCmd]) ?_
  obtain ⟨pkey, -, wildcard, epid, entry, -⟩ := s.gmap_setOp 0x02
  have there' : s.gmapEntry.isNone = false := Option.isNone_eq_false_iff.mpr there
  simp only [pkey, wildcard, epid, entry, there', low, high, State.setReg_fabric, decide_true, Bool.and_self, Bool.not_true, Bool.false_eq_true,
    if_false]
  split <;> exact s.gmapUpdate_updates 0x02 _ _

omit low high in
theorem gmapQuery_completes {g : Nat} (found : s.gmapEntry = some g) : Completes .gmapQuery s fun t =>
    t.reg Obj.gmapCmdGid = g ∧ t.reg Obj.gmapCmdResult = 0x00 ∧ t.fabric = s.fabric ∧
      s.regsBut [Obj.gmapCmdOp, Obj.gmapCmdGid, Obj.gmapCmdResult] t := by
  refine completes_record hs (by rw [exec, execGmapQuery, gmapCmd]) ?_
  obtain ⟨-, -, -, -, entry, -⟩ := s.gmap_setOp 0x03
  simp only [entry, found]
  obtain ⟨shown, result, kept⟩ := s.queryShown Obj.gmapCmdOp 0x03 Obj.gmapCmdGid g Obj.gmapCmdResult (by decide)
  exact ⟨shown, result, rfl, kept⟩

end Gmap

/-! ## PKEY_CMD (R303) -/

theorem State.keySet_setReg (s : State) (k v l : Nat) : (s.setReg k v).keySet l = s.keySet l := rfl

theorem State.keySet_setKeys (s : State) (l x : Nat) (ks : List Nat) : (s.setKeys l ks).keySet x = if x = l then ks else s.keySet x :=
  Tab.getD_put _ _ _ _ _

/-- The key set of a link is written, and no other, with OP and RESULT (R303). -/
def State.keysWritten (s : State) (l : Nat) (ks : List Nat) (t : State) : Prop :=
  t.keySet l = ks ∧ (∀ x, x ≠ l → t.keySet x = s.keySet x) ∧ t.reg Obj.pkeyCmdResult = 0x00 ∧ s.regsBut [Obj.pkeyCmdOp, Obj.pkeyCmdResult] t

theorem State.setKeys_writes (s : State) (code l : Nat) (ks : List Nat) : s.keysWritten l ks ((s.setReg Obj.pkeyCmdOp code).setKeys l ks) := by
  refine ⟨by rw [State.keySet_setKeys, if_pos rfl], fun x other => ?_, State.resultWritten Obj.pkeyCmdResult 0x00 rfl⟩
  rw [State.keySet_setKeys, if_neg other, State.keySet_setReg]

section Pkey

variable {s : State} (hs : s.accepts Obj.pkeyCmdResult)

include hs

/-- A PKEY_CMD of a guest's key has its effect on the link and key that it names. -/
theorem completes_pkeyCmd {c : Instr} {code : Nat} {f : State → Nat → Nat → State} {post : State → Prop} (low : 1 ≤ s.reg Obj.pkeyCmdPkey)
    (high : s.reg Obj.pkeyCmdPkey ≤ 0xFFFE) (hc : exec c s = pkeyCmd s code f)
    (h : post (f (s.setReg Obj.pkeyCmdOp code) (s.reg Obj.pkeyCmdLink) (s.reg Obj.pkeyCmdPkey))) : Completes c s post := by
  refine completes_record hs hc ?_
  have pkey : (s.setReg Obj.pkeyCmdOp code).reg Obj.pkeyCmdPkey = s.reg Obj.pkeyCmdPkey := s.reg_setReg_ne _ (by decide)
  have link : (s.setReg Obj.pkeyCmdOp code).reg Obj.pkeyCmdLink = s.reg Obj.pkeyCmdLink := s.reg_setReg_ne _ (by decide)
  simpa only [pkey, link, low, high, decide_true, Bool.and_self, Bool.not_true, Bool.false_eq_true, if_false] using h

theorem pkeyAdd_completes (low : 1 ≤ s.reg Obj.pkeyCmdPkey) (high : s.reg Obj.pkeyCmdPkey ≤ 0xFFFE)
    (room : (s.keySet (s.reg Obj.pkeyCmdLink)).length < 64) : Completes .pkeyAdd s (s.keysWritten (s.reg Obj.pkeyCmdLink)
      (if (s.keySet (s.reg Obj.pkeyCmdLink)).contains (s.reg Obj.pkeyCmdPkey) then s.keySet (s.reg Obj.pkeyCmdLink)
        else s.keySet (s.reg Obj.pkeyCmdLink) ++ [s.reg Obj.pkeyCmdPkey])) := by
  refine completes_pkeyCmd hs low high (by rw [exec, execPkeyAdd]) ?_
  simp only [State.keySet_setReg, Nat.not_le.mpr room, if_false]
  split
  · exact ⟨rfl, fun _ _ => rfl, State.resultWritten Obj.pkeyCmdResult 0x00 rfl⟩
  · exact s.setKeys_writes 0x01 _ _

theorem pkeyRemove_completes (low : 1 ≤ s.reg Obj.pkeyCmdPkey) (high : s.reg Obj.pkeyCmdPkey ≤ 0xFFFE)
    (there : (s.keySet (s.reg Obj.pkeyCmdLink)).contains (s.reg Obj.pkeyCmdPkey) = true) : Completes .pkeyRemove s
      (s.keysWritten (s.reg Obj.pkeyCmdLink) ((s.keySet (s.reg Obj.pkeyCmdLink)).filter (fun x => x != s.reg Obj.pkeyCmdPkey))) := by
  refine completes_pkeyCmd hs low high (by rw [exec, execPkeyRemove]) ?_
  simp only [State.keySet_setReg, there, if_true]
  exact s.setKeys_writes 0x02 _ _

theorem pkeyQuery_completes : Completes .pkeyQuery s fun t =>
    t.blob Obj.pkeyCmdSet = padBytes 128 ((s.keySet (s.reg Obj.pkeyCmdLink)).map fun x => leBytes 2 x).flatten ∧
      t.reg Obj.pkeyCmdResult = 0x00 ∧ t.fabric = s.fabric ∧ s.regsBut [Obj.pkeyCmdOp, Obj.pkeyCmdResult] t := by
  refine completes_record hs (by rw [exec, execPkeyQuery]) ?_
  have link : (s.setReg Obj.pkeyCmdOp 0x03).reg Obj.pkeyCmdLink = s.reg Obj.pkeyCmdLink := s.reg_setReg_ne _ (by decide)
  simp only [link, State.keySet_setReg]
  obtain ⟨result, kept⟩ := State.resultWritten (u := (s.setReg Obj.pkeyCmdOp 0x03).setBlob Obj.pkeyCmdSet
    (padBytes 128 ((s.keySet (s.reg Obj.pkeyCmdLink)).map fun x => leBytes 2 x).flatten)) Obj.pkeyCmdResult 0x00 rfl
  exact ⟨by simp, result, rfl, kept⟩

end Pkey

/-! ## QUEUE_CMD (R314, R322) -/

/-- Packets of a queue that move take their places in other queues, and what waits elsewhere stays; every configuration stays (R322). -/
theorem State.emptyQueue_egress (s : State) (gh q : Nat) : ∀ e ∈ (s.emptyQueue gh q).fabric.egress,
    e.gh = gh → e.queue ≠ q ∨ defaultQueue e.link e.p.tc = q := by
  simp only [State.emptyQueue]
  refine List.foldlRecOn _ _ (motive := fun u : State => ∀ e ∈ u.fabric.egress, e.gh = gh → e.queue ≠ q ∨ defaultQueue e.link e.p.tc = q)
    (fun e mem here => ?_) fun u left x _ e mem here => ?_
  · have out := (List.mem_filter.mp mem).2
    simp only [here, beq_self_eq_true, Bool.true_and, Bool.not_eq_true', beq_eq_false_iff_ne] at out
    exact .inl out
  · obtain ⟨n, r, joined⟩ := (u.discardQ (qidEgress gh q) x.p.seq).joinQueue_form x (defaultQueue x.link x.p.tc)
    rw [joined] at mem
    rcases List.mem_append.mp mem with mem | mem
    · exact left e mem here
    · rw [List.mem_singleton.mp mem]
      exact (em (defaultQueue x.link x.p.tc = q)).elim .inr .inl

theorem State.emptyQueue_keeps (s : State) (gh q : Nat) :
    (s.emptyQueue gh q).regs = s.regs ∧ (s.emptyQueue gh q).fabric.queues = s.fabric.queues := by
  have moved := State.emptyQueue_moves s gh q
  obtain ⟨-, -, -, -, -, -, -, -, -, -, queues⟩ := moved.same (p := .routes) (by decide)
  exact ⟨moved.same (p := .regs) (by decide), queues⟩

theorem State.emptied_keeps (s : State) (gh q : Nat) {c : Prop} [Decidable c] :
    (if c then s.emptyQueue gh q else s).regs = s.regs ∧ (if c then s.emptyQueue gh q else s).fabric.queues = s.fabric.queues := by
  split
  · exact s.emptyQueue_keeps gh q
  · exact ⟨rfl, rfl⟩

section Queues

variable {s : State} (hs : s.accepts Obj.queueCmdResult) (gatehouse : s.reg Obj.queueCmdGh < 16) (queue : s.reg Obj.queueCmdQueue < 1024)

/-- What a QUEUE_CMD names and configures is not written by its OP. -/
theorem State.queue_setOp (s : State) (code : Nat) :
    (s.setReg Obj.queueCmdOp code).reg Obj.queueCmdGh = s.reg Obj.queueCmdGh ∧
      (s.setReg Obj.queueCmdOp code).reg Obj.queueCmdQueue = s.reg Obj.queueCmdQueue ∧
      (s.setReg Obj.queueCmdOp code).cmdQueue = s.cmdQueue := by
  refine ⟨s.reg_setReg_ne _ (by decide), s.reg_setReg_ne _ (by decide), ?_⟩
  simp only [State.cmdQueue]
  congr 1 <;> exact s.reg_setReg_ne _ (by decide)

include hs gatehouse queue

theorem queueSet_default_completes (shape : s.cmdQueue.shapeOk = true) (default_ : s.reg Obj.queueCmdQueue < 4) : Completes .queueSet s fun t =>
    t.fabric.queues = s.fabric.queues.put (s.reg Obj.queueCmdGh * 1024 + s.reg Obj.queueCmdQueue)
      { s.queueCfg (s.reg Obj.queueCmdGh) (s.reg Obj.queueCmdQueue) with weight := s.cmdQueue.weight, quantum := s.cmdQueue.quantum,
                                                                         rate := s.cmdQueue.rate, burst := s.cmdQueue.burst } ∧
      t.reg Obj.queueCmdResult = 0x00 ∧ t.fabric.egress = s.fabric.egress ∧ s.regsBut [Obj.queueCmdOp, Obj.queueCmdResult] t := by
  refine completes_record hs (by rw [exec, execQueueSet]) ?_
  obtain ⟨gh, q, cmd⟩ := s.queue_setOp 0x01
  simp only [gh, q, cmd, Nat.not_le.mpr gatehouse, Nat.not_le.mpr queue, if_false, default_, if_true, State.setDefault, shape, Bool.not_true,
    Bool.false_eq_true]
  obtain ⟨result, kept⟩ := State.resultWritten (s := s) (op := Obj.queueCmdOp) (code := 0x01) Obj.queueCmdResult 0x00 rfl
  exact ⟨rfl, result, rfl, kept⟩

theorem queueSet_completes (shape : s.cmdQueue.shapeOk = true) (configured : 4 ≤ s.reg Obj.queueCmdQueue)
    (matched : s.cmdQueue.matchOk (s.reg Obj.queueCmdGh) = true)
    (only : s.fabric.queues.rows.any (fun r => r.1 / 1024 == s.reg Obj.queueCmdGh && decide (4 ≤ r.1 % 1024) &&
      r.1 % 1024 != s.reg Obj.queueCmdQueue && r.2.same s.cmdQueue) = false) : Completes .queueSet s fun t =>
      t.fabric.queues = s.fabric.queues.put (s.reg Obj.queueCmdGh * 1024 + s.reg Obj.queueCmdQueue) s.cmdQueue ∧
        t.reg Obj.queueCmdResult = 0x00 ∧ s.regsBut [Obj.queueCmdOp, Obj.queueCmdResult] t := by
  refine completes_record hs (by rw [exec, execQueueSet]) ?_
  obtain ⟨gh, q, cmd⟩ := s.queue_setOp 0x01
  simp only [gh, q, cmd, Nat.not_le.mpr gatehouse, Nat.not_le.mpr queue, if_false, Nat.not_lt.mpr configured, State.setQueue, shape, matched,
    Bool.not_true, Bool.false_eq_true, State.setReg_fabric, only]
  exact ⟨congrArg (Tab.put · _ _) (State.emptied_keeps _ _ _).2,
    State.resultWritten Obj.queueCmdResult 0x00 (State.emptied_keeps _ _ _).1⟩

theorem queueRemove_completes (configured : 4 ≤ s.reg Obj.queueCmdQueue)
    (there : s.fabric.queues.has (s.reg Obj.queueCmdGh * 1024 + s.reg Obj.queueCmdQueue) = true) : Completes .queueRemove s fun t =>
      t.fabric.queues = s.fabric.queues.del (s.reg Obj.queueCmdGh * 1024 + s.reg Obj.queueCmdQueue) ∧
        t.fabric.queueRun.has (s.reg Obj.queueCmdGh * 1024 + s.reg Obj.queueCmdQueue) = false ∧
        (∀ e ∈ t.fabric.egress, e.gh = s.reg Obj.queueCmdGh →
          e.queue ≠ s.reg Obj.queueCmdQueue ∨ defaultQueue e.link e.p.tc = s.reg Obj.queueCmdQueue) ∧
        t.reg Obj.queueCmdResult = 0x00 ∧ s.regsBut [Obj.queueCmdOp, Obj.queueCmdResult] t := by
  refine completes_record hs (by rw [exec, execQueueRemove]) ?_
  obtain ⟨gh, q, -⟩ := s.queue_setOp 0x02
  simp only [gh, q, Nat.not_le.mpr gatehouse, Nat.not_le.mpr queue, Nat.not_lt.mpr configured, if_false, State.setReg_fabric, there, Bool.not_true,
    decide_false, Bool.or_self, Bool.false_eq_true]
  obtain ⟨regs, queues⟩ := (s.setReg Obj.queueCmdOp 0x02).emptyQueue_keeps (s.reg Obj.queueCmdGh) (s.reg Obj.queueCmdQueue)
  exact ⟨congrArg (Tab.del · _) queues, by simp [State.queueResult], State.emptyQueue_egress _ _ _,
    State.resultWritten Obj.queueCmdResult 0x00 regs⟩

end Queues

/-- A query's answer shows a configuration field by field, and nothing of the fabric changes. -/
theorem State.showQueue_shows (s : State) (c : QueueCfg) :
    ((s.showQueue c).queueResult 0).reg Obj.queueCmdWeight = c.weight ∧ ((s.showQueue c).queueResult 0).reg Obj.queueCmdQuantum = c.quantum ∧
      ((s.showQueue c).queueResult 0).reg Obj.queueCmdRate = c.rate ∧ ((s.showQueue c).queueResult 0).reg Obj.queueCmdBurst = c.burst ∧
      ((s.showQueue c).queueResult 0).reg Obj.queueCmdLink = c.link ∧ ((s.showQueue c).queueResult 0).reg Obj.queueCmdTc = c.tc ∧
      ((s.showQueue c).queueResult 0).reg Obj.queueCmdPkey = c.pkey ∧ ((s.showQueue c).queueResult 0).reg Obj.queueCmdResult = 0 ∧
      ((s.showQueue c).queueResult 0).fabric = s.fabric := by
  simp [State.showQueue, State.queueResult, Obj.queueCmdLink, Obj.queueCmdTc, Obj.queueCmdPkey, Obj.queueCmdWeight, Obj.queueCmdQuantum,
    Obj.queueCmdRate, Obj.queueCmdBurst, Obj.queueCmdResult]

theorem queueQuery_completes {s : State} {gh q : Nat} (hs : s.accepts Obj.queueCmdResult) (hgh : gh = s.reg Obj.queueCmdGh)
    (hq : q = s.reg Obj.queueCmdQueue) (gatehouse : gh < 16) (queue : q < 1024)
    (there : q < 4 ∨ s.fabric.queues.has (gh * 1024 + q) = true) : Completes .queueQuery s fun t =>
      t.reg Obj.queueCmdWeight = (s.queueCfg gh q).weight ∧ t.reg Obj.queueCmdQuantum = (s.queueCfg gh q).quantum ∧
        t.reg Obj.queueCmdRate = (s.queueCfg gh q).rate ∧ t.reg Obj.queueCmdBurst = (s.queueCfg gh q).burst ∧
        t.reg Obj.queueCmdLink = (if q < 4 then defaultLink gh q else (s.queueCfg gh q).link) ∧
        t.reg Obj.queueCmdTc = (if q < 4 then q % 2 else (s.queueCfg gh q).tc) ∧ t.reg Obj.queueCmdPkey = (s.queueCfg gh q).pkey ∧
        t.reg Obj.queueCmdResult = 0x00 ∧ t.fabric = s.fabric := by
  refine completes_record hs (by rw [exec, execQueueQuery]) ?_
  obtain ⟨gh', q', -⟩ := s.queue_setOp 0x03
  have there' : (decide (4 ≤ q) && !s.fabric.queues.has (gh * 1024 + q)) = false := by
    rcases there with default_ | there
    · simp [Nat.not_le.mpr default_]
    · simp [there]
  simp only [gh', q', ← hgh, ← hq, State.setReg_fabric, there', Nat.not_le.mpr gatehouse, Nat.not_le.mpr queue, decide_false, Bool.or_self,
    Bool.false_eq_true, if_false]
  by_cases default_ : q < 4
  · simp only [default_, if_true]
    exact State.showQueue_shows _ _
  · simp only [default_, if_false]
    exact State.showQueue_shows _ _

/-- Settles O35: each command of the four records that is accepted changes the table that it names, or shows it, and of the objects it writes
its own record alone. -/
theorem fabricCommandsComplete : Obligations.FabricCommandsComplete := by
  unfold Obligations.FabricCommandsComplete
  refine ⟨?_, ?_, ?_, ?_⟩
  · rintro s d e hs rfl rfl
    exact ⟨setBlock_completes hs, setExact_completes hs, clearExact_completes hs,
      fun named used => ⟨pairCmd_completes (code := 0x04) (f := fun s => setBit s.fabric.pairOut) hs (by rw [exec, execPairOut]) rfl named used,
        pairCmd_completes (code := 0x05) (f := fun s => clearBit s.fabric.pairOut) hs (by rw [exec, execPairIn]) rfl named used⟩,
      routeQuery_completes hs⟩
  · rintro s k src g wild hs rfl rfl rfl low high
    exact ⟨fun gid guest room => by subst gid; exact gmapSet_completes hs low high guest room, gmapClear_completes hs low high,
      gmapQuery_completes hs⟩
  · rintro s l k hs rfl rfl
    exact ⟨pkeyAdd_completes hs, pkeyRemove_completes hs, pkeyQuery_completes hs⟩
  · rintro s gh q hs rfl rfl gatehouse queue shape
    exact ⟨queueSet_default_completes hs gatehouse queue shape, queueSet_completes hs gatehouse queue shape,
      queueRemove_completes hs gatehouse queue, queueQuery_completes hs rfl rfl gatehouse queue⟩

end Sys2Proof.Machine
end

section
namespace Sys2Proof.Machine

open Sys2Proof

/-! ## What a packet of the device takes with it (R279, R283, R301, R310) -/

theorem State.enqueue_seqs (s : State) (e : EPkt) :
    (s.enqueue e).fabric.nextSeq = s.fabric.nextSeq ∧ (s.enqueue e).fabric.echoes = s.fabric.echoes := by
  obtain ⟨n, r, joined⟩ := s.joinQueue_form { e with joined := s.now, epoch := s.fabric.routeEpoch } (s.queueFor e.link e.p)
  unfold State.enqueue
  dsimp only
  rw [joined]
  exact ⟨rfl, rfl⟩

theorem State.queueOwn_seqs (s : State) (e : EPkt) :
    (s.queueOwn e).fabric.nextSeq = s.fabric.nextSeq ∧ (s.queueOwn e).fabric.echoes = s.fabric.echoes := by
  unfold State.queueOwn
  dsimp only
  split
  · exact s.enqueue_seqs e
  split
  · exact ⟨rfl, rfl⟩
  · exact State.enqueue_seqs _ e

/-- Echoes that a packet carries are owed no more, and no other comes to be owed. -/
theorem State.takeEcho_seqs (s : State) (dst tc : Nat) :
    (s.takeEcho dst tc).2.fabric.nextSeq = s.fabric.nextSeq ∧ (s.takeEcho dst tc).2.fabric.echoes ⊆ s.fabric.echoes := by
  unfold State.takeEcho
  dsimp only
  split
  · exact ⟨rfl, fun _ mem => (List.mem_filter.mp mem).1⟩
  · exact ⟨rfl, List.Subset.refl _⟩

theorem State.dropTracker_fabric (s : State) (t : Option Nat) : (s.dropTracker t).fabric = s.fabric := by
  cases t <;> rfl

/-- A packet of the device takes the next SEQ of its destination and class, whether it can be routed or not, and makes no echo due. -/
theorem State.originate_seqs (s : State) (p : Packet) (tracker : Option Nat) :
    (s.originate p tracker).fabric.nextSeq =
        s.fabric.nextSeq.put (p.dst * 4 + p.tc) ((s.fabric.nextSeq.getD (p.dst * 4 + p.tc) 0 + 1) % 2 ^ 32) ∧
      (s.originate p tracker).fabric.echoes ⊆ s.fabric.echoes := by
  obtain ⟨seqs, echoes⟩ := (s.takeSeq p.dst p.tc).2.takeEcho_seqs p.dst p.tc
  unfold State.originate
  dsimp only
  split
  · rw [State.countLink_fabric, State.dropTracker_fabric]
    exact ⟨seqs, echoes⟩
  split
  · obtain ⟨seqs', echoes'⟩ := State.queueOwn_seqs _ _
    rw [seqs', echoes']
    exact ⟨seqs, echoes⟩
  · rw [State.countLink_fabric, State.dropTracker_fabric]
    exact ⟨seqs, echoes⟩

/-! ## Congestion (R310 to R312) -/

theorem State.counted_fabric (s : State) (l ev sel : Nat) (c : Prop) [Decidable c] :
    (if c then s.countLink l ev sel else s).fabric = s.fabric := by
  split
  · exact State.countLink_fabric s l ev sel
  · rfl

theorem State.counted_reg (s : State) (l ev sel k : Nat) (c : Prop) [Decidable c] :
    (if c then s.countLink l ev sel else s).reg k = s.reg k := by
  split
  · exact State.reg_congr (State.countLink_regs s l ev sel) k
  · rfl

section Congestion

variable {s : State} (hs : s.running = true)

include hs

theorem cnpSend_completes {src : Nat} {tc : Fin 4} {d : EchoDue} (owed : s.fabric.echoes.find? (fun e => e.src == src && e.tc == tc.val) = some d)
    (due : ∀ x, s.fabric.lastCnp.find (rateKey src tc.val) = some x → x + s.reg Obj.cnpGap * 1000 ≤ s.now) :
    Completes (.cnpSend src tc) s fun t =>
      (∀ e ∈ t.fabric.echoes, e.src = src → e.tc = tc.val → d.at_ < e.at_) ∧
        t.fabric.lastCnp = s.fabric.lastCnp.put (rateKey src tc.val) s.now ∧
        t.fabric.nextSeq = s.fabric.nextSeq.put (src * 4 + tc.val) ((s.fabric.nextSeq.getD (src * 4 + tc.val) 0 + 1) % 2 ^ 32) := by
  refine completes_live hs (by rw [exec, execCnpSend]) ?_
  simp only [owed]
  rw [if_neg, State.countLink_fabric]
  · refine ⟨fun e mem src tc => ?_, ?_, (State.originate_seqs _ _ _).1⟩
    · have unpaid := (List.mem_filter.mp ((State.originate_seqs _ _ _).2 mem)).2
      simp only [src, tc, beq_self_eq_true, Bool.true_and, Bool.not_eq_true', Bool.or_eq_false_iff, decide_eq_false_iff_not, Nat.not_le] at unpaid
      exact unpaid.1
    · obtain ⟨-, -, -, -, -, sent⟩ := (State.originate_moves _ _ _).same (p := .peers) (by decide)
      exact sent
  · intro recent
    split at recent
    case h_1 x found => exact absurd (due x found) (by simpa using recent)
    case h_2 => exact absurd recent Bool.false_ne_true

theorem cnpSend_early_completes {src : Nat} {tc : Fin 4} {d : EchoDue} {x : Nat}
    (owed : s.fabric.echoes.find? (fun e => e.src == src && e.tc == tc.val) = some d)
    (last : s.fabric.lastCnp.find (rateKey src tc.val) = some x) (early : s.now < x + s.reg Obj.cnpGap * 1000) :
    Completes (.cnpSend src tc) s fun t => t = s := by
  refine completes_live hs (by rw [exec, execCnpSend]) ?_
  simp only [owed, last, early, decide_true, if_true]

theorem ccRateIncrease_decreased_completes {epid : Nat} {tc : Fin 4} {r : RateEntry}
    (found : s.fabric.rates.find (rateKey epid tc.val) = some r) (now : r.decreased = s.now) :
    Completes (.ccRateIncrease epid tc) s fun t => t = s := by
  refine completes_live hs (by rw [exec, execCcRateIncrease]) ?_
  simp only [found, now, beq_self_eq_true, if_true]

theorem ccRateIncrease_completes {epid : Nat} {tc : Fin 4} {r : RateEntry}
    (found : s.fabric.rates.find (rateKey epid tc.val) = some r) (before : r.decreased ≠ s.now) :
    Completes (.ccRateIncrease epid tc) s fun t =>
      t.fabric.rates = if 99210 ≤ r.rate + s.reg Obj.ccAi then s.fabric.rates.del (rateKey epid tc.val)
        else s.fabric.rates.put (rateKey epid tc.val)
          { s.rateNow r with rate := r.rate + s.reg Obj.ccAi, raised := some (s.now, r.rate) } := by
  refine completes_live hs (by rw [exec, execCcRateIncrease]) ?_
  simp only [found, beq_eq_false_iff_ne.mpr before, Bool.false_eq_true, if_false]

/-! ## The end of an update's drain (R306) -/

theorem epochDrainDone_route_completes {w : Nat × Nat} (waits : s.fabric.routeWait = some w)
    (drained : s.fabric.egress.any (s.routedOld w) = false) : Completes (.epochDrainDone true) s fun t =>
      t.fabric = { s.fabric with routeWait := none } ∧ t.reg Obj.routeCmdResult = 0x00 ∧ s.regsBut [Obj.routeCmdResult] t := by
  refine completes_live hs (by rw [exec, execEpochDrainDone]) ?_
  simp only [if_true, waits, drained, Bool.false_eq_true, if_false]
  exact ⟨rfl, by simp [State.routeResult], .setReg (fun _ _ => rfl) (by simp) 0⟩

theorem epochDrainDone_gmap_completes {w : Nat × Option Nat} (waits : s.fabric.gmapWait = some w) (drained : s.gmapInFlight w = false) :
    Completes (.epochDrainDone false) s fun t =>
      t.fabric = { s.fabric with gmapWait := none } ∧ t.reg Obj.gmapCmdResult = 0x00 ∧ s.regsBut [Obj.gmapCmdResult] t := by
  refine completes_live hs (by rw [exec, execEpochDrainDone]) ?_
  simp only [waits, drained, Bool.false_eq_true, if_false]
  exact ⟨rfl, by simp [State.gmapResult], .setReg (fun _ _ => rfl) (by simp) 0⟩

/-! ## Express windows (R316, R319, R322) -/

theorem expressWindowOpen_completes (link : Fin 32) : Completes (.expressWindowOpen link) s fun t =>
    t.fabric.egLinks = s.fabric.egLinks.put link.val { s.eg link.val with
      period := s.reg (Obj.expPeriod link.val), width := s.reg (Obj.expWindow link.val), window := s.reg (Obj.expPeriod link.val) != 0 } := by
  refine completes_live hs (by rw [exec, execExpressWindowOpen]) ?_
  simp only [State.onEg, State.eg, State.counted_fabric, State.counted_reg]

theorem expressWindowClose_completes (link : Fin 32) : Completes (.expressWindowClose link) s fun t =>
    t.fabric.egLinks = s.fabric.egLinks.put link.val { s.eg link.val with window := false } :=
  completes_live hs (by rw [exec, execExpressWindowClose]) rfl

end Congestion

/-! ## Flits that are formed and sent (R246, R247, R261) -/

theorem State.transmit_out (s : State) (l n : Nat) (x : TxFlit) : ∃ f : Flit, (s.transmit l n x).out = .flit l f :: s.out ∧
    f.fseq = n % 4096 ∧ f.ftype = x.ftype ∧ f.sop = x.sop ∧ f.pad = x.pad ∧ f.payload = x.cipher := by
  simp only [State.transmit, State.countLink_out]
  exact ⟨_, rfl, rfl, rfl, rfl, rfl, rfl⟩

theorem KeepsLinks.tx {s t : State} (h : KeepsLinks s t) (x : Nat) : (t.link x).tx = (s.link x).tx := (congrArg Link.tx (h x) :)

theorem State.tx_onLink (s : State) (l : Nat) (f : LinkTx → LinkTx) :
    ((s.onLink l fun k => { k with tx := f k.tx }).link l).tx = f (s.link l).tx := by
  rw [State.link_onLink, if_pos rfl]

/-- Two transmit sides that differ in kept flits, group tags and replay alone. -/
structure LinkTx.Same (t u : LinkTx) : Prop where
  formed : u.formed = t.formed
  line : u.line = t.line
  ends : u.ends = t.ends
  sent : u.sent = t.sent
  used : u.used = t.used

/-- A transmit side with one flit more formed and kept, and its group's tags as they then are. -/
structure LinkTx.Formed (t u : LinkTx) : Prop where
  formed : u.formed = t.formed + 1
  line : u.line = t.line
  ends : u.ends = t.ends
  sent : u.sent = t.sent
  used : u.used = t.used

theorem LinkTx.Formed.trans_same {t u v : LinkTx} (h : t.Formed u) (k : u.Same v) : t.Formed v :=
  ⟨k.formed.trans h.formed, k.line.trans h.line, k.ends.trans h.ends, k.sent.trans h.sent, k.used.trans h.used⟩

/-- A flit is kept for replay, before it is sent. -/
def State.keptFormed (s : State) (l : Nat) (x : TxFlit) (grp : List (Nat × Bytes)) : State :=
  s.setLink l { s.link l with tx := { (s.link l).tx with
    formed := (s.link l).tx.formed + 1, buf := (s.link l).tx.buf ++ [x], grpOut := grp } }

theorem State.sendFormed (s : State) (l n : Nat) (x : TxFlit) (grp : List (Nat × Bytes)) :
    (∃ f : Flit, (s.keptFormed l x grp |>.transmit l n x).out = .flit l f :: s.out ∧ f.fseq = n % 4096 ∧ f.ftype = x.ftype ∧ f.pad = x.pad) ∧
      LinkTx.Formed (s.link l).tx ((s.keptFormed l x grp |>.transmit l n x).link l).tx := by
  obtain ⟨f, out, fseq, type, -, pad, -⟩ := (s.keptFormed l x grp).transmit_out l n x
  have tx := ((s.keptFormed l x grp).transmit_keepsLinks l n x).tx l
  rw [State.keptFormed, State.link_setLink, if_pos rfl] at tx
  rw [State.keptFormed] at out ⊢
  exact ⟨⟨f, out, fseq, type, pad⟩, by rw [tx], by rw [tx], by rw [tx], by rw [tx], by rw [tx]⟩

/-- The flit that a link forms next of a plaintext. -/
def State.nextTx (s : State) (l type sop pad : Nat) (plain : Bytes) : TxFlit :=
  { ftype := type, sop := sop, pad := pad,
    cipher := groupCrypt (s.link l).txKey.1 (s.link l).txKey.2 ((s.link l).tx.formed / 64) ((s.link l).tx.formed % 64) (padBytes 240 plain) }

/-- A new flit is kept and sent; the last of a group then leaves the group's tag (R247, R261). -/
theorem State.formFlit_steps (s : State) (l type sop pad : Nat) (plain : Bytes) : ∃ x : TxFlit, ∃ grp, x.ftype = type ∧ x.pad = pad ∧
    (s.formFlit l type sop pad plain = (s.keptFormed l x grp).transmit l (s.link l).tx.formed x ∨
      ∃ f : Link → Link, s.formFlit l type sop pad plain = ((s.keptFormed l x grp).transmit l (s.link l).tx.formed x).onLink l f ∧
        ∀ k : Link, LinkTx.Same k.tx (f k).tx) := by
  refine ⟨s.nextTx l type sop pad plain, (s.link l).tx.grpOut ++ [(hdr14 type sop pad false 0, (s.nextTx l type sop pad plain).cipher)],
    rfl, rfl, ?_⟩
  unfold State.formFlit
  dsimp only
  split
  · exact .inr ⟨_, rfl, fun k => ⟨rfl, rfl, rfl, rfl, rfl⟩⟩
  · exact .inl rfl

/-- A flit that is formed leaves at once, numbered by those formed before it; bytes, packets and credits of the link stay. -/
theorem State.formFlit_sends (s : State) (l type sop pad : Nat) (plain : Bytes) :
    (∃ f : Flit, (s.formFlit l type sop pad plain).out = .flit l f :: s.out ∧ f.fseq = (s.link l).tx.formed % 4096 ∧ f.ftype = type ∧
      f.pad = pad) ∧
      LinkTx.Formed (s.link l).tx ((s.formFlit l type sop pad plain).link l).tx := by
  obtain ⟨x, grp, rfl, rfl, steps⟩ := s.formFlit_steps l type sop pad plain
  obtain ⟨sent, formed⟩ := s.sendFormed l (s.link l).tx.formed x grp
  rcases steps with steps | ⟨f, steps, same⟩
  · rw [steps]
    exact ⟨sent, formed⟩
  · rw [steps, State.onLink_out, State.link_onLink, if_pos rfl]
    exact ⟨sent, formed.trans_same (same _)⟩

/-- Marking retained copies changes nothing but the copies (R301). -/
theorem State.retainTo_keeps (s : State) (l n : Nat) (es : List (Nat × EPkt)) :
    (es.foldl (fun (s : State) e => s.retainTo l e.2.p n) s).out = s.out ∧
      (es.foldl (fun (s : State) e => s.retainTo l e.2.p n) s).fabric.links = s.fabric.links ∧
      (es.foldl (fun (s : State) e => s.retainTo l e.2.p n) s).fabric.egress = s.fabric.egress :=
  List.foldlRecOn es _ (motive := fun u : State => u.out = s.out ∧ u.fabric.links = s.fabric.links ∧ u.fabric.egress = s.fabric.egress)
    ⟨rfl, rfl, rfl⟩ fun _ kept _ _ => kept

/-- A DATA flit carries the front of the line, up to fifteen slots (R246). -/
theorem State.formData_sends (s : State) (l : Nat) :
    (∃ f : Flit, (s.formData l).out = .flit l f :: s.out ∧ f.fseq = (s.link l).tx.formed % 4096 ∧ f.ftype = 1 ∧
      f.pad = if min 240 (s.link l).tx.line.length < 240 then min 240 (s.link l).tx.line.length / 16 else 0xF) ∧
    (∃ u : LinkTx, LinkTx.Formed (s.link l).tx u ∧
      ((s.formData l).link l).tx = u.cut (min 240 (s.link l).tx.line.length) (s.link l).tx.formed) ∧
    (s.formData l).fabric.egress = s.fabric.egress := by
  unfold State.formData
  dsimp only
  generalize hv : s.formFlit l 1 _ _ _ = v
  have egress : v.fabric.egress = s.fabric.egress := hv ▸ ((State.formFlit_moves s l _ _ _ _).egress (by decide)).1
  obtain ⟨sends, formed⟩ := hv ▸ s.formFlit_sends l 1 _ _ _
  obtain ⟨out, links, queued⟩ := State.retainTo_keeps
    (v.onLink l fun k => { k with tx := k.tx.cut (min 240 (s.link l).tx.line.length) (s.link l).tx.formed })
    l (s.link l).tx.formed ((s.link l).tx.ends.filter fun e => decide (e.1 ≤ min 240 (s.link l).tx.line.length))
  rw [out, State.link_congr links, queued]
  exact ⟨sends, ⟨(v.link l).tx, formed, v.tx_onLink l (·.cut _ _)⟩, egress⟩

/-! ## A turn of the transmitter (R246 to R251, R262) -/

section Turns

variable {s : State} {link : Fin 32} {k : Link} (hs : s.running = true) (hk : k = s.link link.val) (sends : k.sends = true)

include hs hk sends

theorem egressSelect_replay_completes {n : Nat} {x : TxFlit} (replay : k.tx.replay = some n) (kept : k.tx.buf[n - k.tx.acked]? = some x) :
    Completes (.egressSelect link) s fun t =>
      (∃ f : Flit, t.out = .flit link.val f :: s.out ∧ f.fseq = n % 4096 ∧ f.ftype = x.ftype ∧ f.sop = x.sop ∧ f.pad = x.pad ∧
        f.payload = x.cipher) ∧
      (t.link link.val).tx = { k.tx with replay := if n + 1 < k.tx.formed then some (n + 1) else none } := by
  refine completes_live hs (by rw [exec, execEgressSelect]) ?_
  simp only [← hk, sends, replay, Bool.not_true, Bool.false_eq_true, if_false, State.resend, kept, State.onLink_out, State.link_onLink, if_true]
  have tx := (s.transmit_keepsLinks link.val n x).tx link.val
  rw [← hk] at tx
  exact ⟨s.transmit_out link.val n x, by rw [tx]⟩

theorem egressSelect_stalled_completes (idle : k.tx.replay = none) (full : k.tx.full = true) :
    Completes (.egressSelect link) s fun t => s.says link.val .null t := by
  refine completes_live hs (by rw [exec, execEgressSelect]) ?_
  simp only [← hk, sends, idle, full, Bool.not_true, Bool.false_eq_true, if_false, if_true]
  exact State.says_sendCtrl rfl rfl

theorem egressSelect_idle_completes (idle : k.tx.replay = none) (room : k.tx.full = false)
    (nothing : k.tx.paused = true ∨ (s.maySend link.val = false ∧ k.tx.line = [])) : Completes (.egressSelect link) s fun t =>
      (∃ f : Flit, t.out = .flit link.val f :: s.out ∧ f.fseq = k.tx.formed % 4096 ∧ f.ftype = 0) ∧
        (t.link link.val).tx.formed = k.tx.formed + 1 ∧ (t.link link.val).tx.line = k.tx.line := by
  refine completes_live hs (by rw [exec, execEgressSelect]) ?_
  obtain ⟨⟨f, out, fseq, type, -⟩, formed⟩ := s.formFlit_sends link.val 0 0xF 0xF (zeroBytes 240)
  have turn : (if k.tx.paused = true then s.formIdle link.val 1
      else if s.maySend link.val = true then s.startNext link.val else s.nextFlit link.val) = s.formFlit link.val 0 0xF 0xF (zeroBytes 240) := by
    rcases nothing with paused | ⟨still, empty⟩
    · rw [if_pos paused]; rfl
    · have next : s.nextFlit link.val = s.formIdle link.val 1 := by simp [State.nextFlit, ← hk, empty]
      rw [still, if_neg Bool.false_ne_true, next]
      exact ite_self _
  simp only [← hk, sends, idle, room, Bool.not_true, Bool.false_eq_true, if_false, turn]
  rw [← hk] at fseq formed
  exact ⟨⟨f, out, fseq, type⟩, formed.formed, formed.line⟩

theorem egressSelect_data_completes (idle : k.tx.replay = none) (room : k.tx.full = false) (asks : k.tx.paused = false)
    (still : s.maySend link.val = false) (line : k.tx.line ≠ []) : Completes (.egressSelect link) s fun t =>
      (∃ f : Flit, t.out = .flit link.val f :: s.out ∧ f.fseq = k.tx.formed % 4096 ∧ f.ftype = 1 ∧
        f.pad = (if k.tx.line.length < 240 then k.tx.line.length / 16 else 0xF)) ∧
        (t.link link.val).tx.formed = k.tx.formed + 1 ∧ (t.link link.val).tx.line = k.tx.line.drop (min 240 k.tx.line.length) := by
  refine completes_live hs (by rw [exec, execEgressSelect]) ?_
  have next : s.nextFlit link.val = s.formData link.val := by simp [State.nextFlit, ← hk, line]
  simp only [← hk, sends, idle, room, asks, still, next, Bool.not_true, Bool.false_eq_true, if_false]
  obtain ⟨⟨f, out, fseq, type, pad⟩, ⟨u, formed, tx⟩, -⟩ := s.formData_sends link.val
  rw [← hk] at fseq pad formed tx
  refine ⟨⟨f, out, fseq, type, pad.trans ?_⟩, ?_, ?_⟩
  · by_cases short : k.tx.line.length < 240
    · simp [short, Nat.min_eq_right (Nat.le_of_lt short)]
    · simp [short, Nat.min_eq_left (Nat.not_lt.mp short)]
  · rw [tx]; exact formed.formed
  · rw [tx, LinkTx.cut, formed.line]

end Turns

/-! ## A packet that starts (R246, R253, R309, R313) -/

theorem State.markCe_marks (s : State) (l : Nat) (p : Packet) :
    (s.markCe l p).1 = (if p.ect && decide (s.reg Obj.ecnThreshold * 1024 < s.vcBytes l p.vc) then { p with ce := true } else p) ∧
      (s.markCe l p).2.fabric = s.fabric := by
  unfold State.markCe
  split
  · exact ⟨rfl, State.countLink_fabric _ _ _ _⟩
  · exact ⟨rfl, rfl⟩

theorem State.takeTokens_egress (s : State) (l : Nat) (e : EPkt) : (s.takeTokens l e).fabric.egress = s.fabric.egress := by
  simp only [State.takeTokens]
  split
  · rfl
  split <;> rfl

/-- The state in which a packet that starts has left its queue and its receive pool, and the tracker of its answer is free. -/
def State.dequeued (s : State) (l : Nat) (e : EPkt) : State :=
  let s := ((s.markCe l e.p).2.takeTokens l e).countOverrun l (s.markCe l e.p).1
  let s := State.leaveQ { s with fabric := { s.fabric with egress := s.fabric.egress.erase e } } (qidEgress (linkGH l) e.queue) e.p.seq
  let s := match e.inLink with | some i => s.leaveQ (qidPool i) e.p.seq | none => s
  (s.leavePool e.inLink e.inVc e.p.blocks).dropTracker e.tracker

theorem State.startPacket_steps (s : State) (l : Nat) (e : EPkt) (won : Bool) : s.startPacket l e won =
    (((((s.dequeued l e).onLink l fun k => { k with tx := k.tx.spend (s.markCe l e.p).1 won }).emit (.pkt l (s.markCe l e.p).1)).countLink l 0x2020
      (s.markCe l e.p).1.tc).onLink l fun k =>
        { k with tx := k.tx.put { e with p := (s.markCe l e.p).1, inLink := none, tracker := none } }) := rfl

/-- A step that sends nothing and leaves every link but for its receive side. -/
structure Unsent (s t : State) : Prop where
  links : KeepsLinks s t
  out : t.out = s.out

theorem Unsent.trans {s t u : State} (h : Unsent s t) (k : Unsent t u) : Unsent s u := ⟨h.links.trans k.links, k.out.trans h.out⟩

theorem Moves.unsent {ps : List Part} {s t : State} (h : Moves ps s t) (links : Part.links ∉ ps) (out : Part.out ∉ ps) : Unsent s t :=
  ⟨h.keepsLinks links, h.same (p := .out) out⟩

theorem State.dequeued_unsent (s : State) (l : Nat) (e : EPkt) :
    Unsent s (s.dequeued l e) ∧ (s.dequeued l e).fabric.egress = s.fabric.egress.erase e := by
  obtain ⟨-, fabric⟩ := s.markCe_marks l e.p
  have marked := State.markCe_moves s l e.p
  have taken := State.takeTokens_moves (s.markCe l e.p).2 l e
  have counted := State.countOverrun_moves ((s.markCe l e.p).2.takeTokens l e) l (s.markCe l e.p).1
  unfold State.dequeued
  dsimp only
  generalize hu : State.countOverrun _ l _ = u at counted ⊢
  have before : Unsent s u := ((marked.unsent (by decide) (by decide)).trans (taken.unsent (by decide) (by decide))).trans
    (counted.unsent (by decide) (by decide))
  obtain ⟨uncounted, -⟩ := counted.egress (by decide)
  have queued : u.fabric.egress = s.fabric.egress := by rw [uncounted, State.takeTokens_egress, fabric]
  generalize hv : State.leaveQ _ (qidEgress (linkGH l) e.queue) e.p.seq = v
  obtain ⟨left, erased⟩ : Unsent u v ∧ v.fabric.egress = u.fabric.egress.erase e := hv ▸ ⟨⟨.refl u, rfl⟩, rfl⟩
  generalize hw : (match e.inLink with | some i => v.leaveQ (qidPool i) e.p.seq | none => v) = w
  obtain ⟨tagged, kept⟩ : Unsent v w ∧ w.fabric.egress = v.fabric.egress := by
    rw [← hw]
    split
    · exact ⟨(State.leaveQ_moves v _ _).unsent (by decide) (by decide), rfl⟩
    · exact ⟨⟨.refl v, rfl⟩, rfl⟩
  have freed := State.leavePool_moves w e.inLink e.inVc e.p.blocks
  have pooled : Unsent w (w.leavePool e.inLink e.inVc e.p.blocks) := ⟨w.leavePool_keepsLinks _ _ _, freed.same (p := .out) (by decide)⟩
  have dropped := (State.dropTracker_moves (w.leavePool e.inLink e.inVc e.p.blocks) e.tracker).unsent (by decide) (by decide)
  obtain ⟨waits, -⟩ := freed.egress (by decide)
  exact ⟨(before.trans left).trans ((tagged.trans pooled).trans dropped), by rw [State.dropTracker_fabric, waits, kept, erased, queued]⟩

/-- A packet that starts goes out with its mark, leaves its queue, spends the credits of its VC and stands next in line. -/
theorem State.startPacket_starts (s : State) (l : Nat) (e : EPkt) (won : Bool) :
    (s.startPacket l e won).out = .pkt l (s.markCe l e.p).1 :: s.out ∧
      (s.startPacket l e won).fabric.egress = s.fabric.egress.erase e ∧
      ((s.startPacket l e won).link l).tx =
        ((s.link l).tx.spend (s.markCe l e.p).1 won).put { e with p := (s.markCe l e.p).1, inLink := none, tracker := none } := by
  obtain ⟨⟨links, out⟩, egress⟩ := s.dequeued_unsent l e
  rw [State.startPacket_steps]
  generalize s.dequeued l e = u at links out egress ⊢
  refine ⟨?_, ?_, ?_⟩
  · rw [State.onLink_out, State.countLink_out, State.emit, State.onLink_out, out]
  · exact (congrArg Fabric.egress (State.countLink_fabric _ _ _ _)).trans egress
  · rw [State.tx_onLink _ l (·.put _), State.link_countLink, ← links.tx l, ← u.tx_onLink l (·.spend _ won)]
    rfl

/-- A packet whose last byte is in line is in line still, or has left with the flit (R246). -/
theorem LinkTx.cut_keeps {t : LinkTx} {x : EPkt} (m n : Nat) (h : x ∈ t.ends.map (·.2)) :
    x ∈ (t.cut m n).sent.map (·.2) ∨ x ∈ (t.cut m n).ends.map (·.2) := by
  obtain ⟨y, mem, rfl⟩ := List.mem_map.mp h
  simp only [LinkTx.cut, List.map_append, List.map_map, List.mem_append, List.mem_map, List.mem_filter, decide_eq_true_eq]
  rcases Nat.lt_or_ge m y.1 with after | within
  · exact .inr ⟨y, ⟨mem, after⟩, rfl⟩
  · exact .inl (.inr ⟨y, ⟨mem, within⟩, rfl⟩)

/-- What holds of the transmit side once a packet has started holds still when a full flit then leaves. -/
theorem State.formData_carries (s : State) (l : Nat) {x : EPkt} (h : x ∈ (s.link l).tx.ends.map (·.2)) :
    ((s.formData l).link l).tx.used = (s.link l).tx.used ∧
      (x ∈ ((s.formData l).link l).tx.sent.map (·.2) ∨ x ∈ ((s.formData l).link l).tx.ends.map (·.2)) := by
  obtain ⟨-, ⟨u, formed, tx⟩, -⟩ := s.formData_sends l
  rw [tx]
  exact ⟨formed.used, LinkTx.cut_keeps _ _ (formed.ends ▸ h)⟩

/-- The link that may start a packet sends, replays nothing, and is neither full nor paused. -/
theorem State.maySend_link {s : State} {l : Nat} (h : s.maySend l = true) :
    (s.link l).sends = true ∧ (s.link l).tx.replay = none ∧ (s.link l).tx.full = false ∧ (s.link l).tx.paused = false := by
  simp only [State.maySend, Bool.and_eq_true, Option.isNone_iff_eq_none, Bool.not_eq_true'] at h
  obtain ⟨⟨⟨⟨⟨⟨sends, -⟩, -⟩, replay⟩, full⟩, paused⟩, -⟩ := h
  exact ⟨sends, replay, full, paused⟩

theorem egressSelect_starts_completes {s u m : State} {link : Fin 32} {e : EPkt} (hs : s.running = true) (may : s.maySend link.val = true)
    (mode : u = if (s.eg link.val).wfq != s.wantWfq link.val then s.changeMode link.val else s)
    (picked : u.pickPacket link.val = (some e, m)) : Completes (.egressSelect link) s fun t => ∃ p : Packet,
      (p = if e.p.ect && decide (m.reg Obj.ecnThreshold * 1024 < m.vcBytes link.val e.p.vc) then { e.p with ce := true } else e.p) ∧
      .pkt link.val p ∈ t.out ∧ t.fabric.egress = m.fabric.egress.erase e ∧
      (t.link link.val).tx.used = (m.link link.val).tx.used.set p.vc ((m.link link.val).tx.used.getD p.vc 0 + p.blocks) ∧
      ∃ x : EPkt, x.p = p ∧ (x ∈ (t.link link.val).tx.sent.map (·.2) ∨ x ∈ (t.link link.val).tx.ends.map (·.2)) := by
  refine completes_live hs (by rw [exec, execEgressSelect]) ?_
  obtain ⟨sends, replay, full, paused⟩ := State.maySend_link may
  simp only [sends, replay, full, paused, may, State.startNext, ← mode, picked, Bool.not_true, Bool.false_eq_true, if_false, if_true]
  obtain ⟨out, egress, tx⟩ := m.startPacket_starts link.val e (s.favours link.val == some e.p.vc)
  generalize m.startPacket link.val e _ = v at out egress tx ⊢
  have used := congrArg LinkTx.used tx
  have inLine : ({ e with p := (m.markCe link.val e.p).1, inLink := none, tracker := none } : EPkt) ∈ (v.link link.val).tx.ends.map (·.2) := by
    rw [tx]
    simp [LinkTx.put]
  refine ⟨_, (m.markCe_marks link.val e.p).1, ?_⟩
  split
  · obtain ⟨⟨f, sent, -⟩, -, kept⟩ := v.formData_sends link.val
    obtain ⟨spent, carried⟩ := v.formData_carries link.val inLine
    exact ⟨by rw [sent, out]; simp, kept.trans egress, spent.trans used, _, rfl, carried⟩
  · exact ⟨by rw [out]; simp, egress, used, _, rfl, .inr inLine⟩

/-- Settles O36: each event of congestion, of an update's drain and of a link's transmitter does what its rule says. -/
theorem fabricEventsComplete : Obligations.FabricEventsComplete := by
  unfold Obligations.FabricEventsComplete
  refine ⟨fun s src tc d hs owed => ⟨cnpSend_completes hs owed, fun x last early => cnpSend_early_completes hs owed last early⟩,
    fun s epid tc r hs found => ⟨ccRateIncrease_decreased_completes hs found, ccRateIncrease_completes hs found⟩,
    fun s w hs waits drained => epochDrainDone_route_completes hs waits drained,
    fun s w hs waits drained => epochDrainDone_gmap_completes hs waits drained,
    fun s link hs => ⟨expressWindowOpen_completes hs link, expressWindowClose_completes hs link⟩,
    fun s link k hs hk sends => ⟨fun n x replay kept => egressSelect_replay_completes hs hk sends replay kept,
      fun idle full => egressSelect_stalled_completes hs hk sends idle full,
      fun idle room => ⟨egressSelect_idle_completes hs hk sends idle room, egressSelect_data_completes hs hk sends idle room⟩⟩,
    fun s u m link e hs may mode picked => egressSelect_starts_completes hs may mode picked⟩

end Sys2Proof.Machine
end

section
namespace Sys2Proof.Machine

open Sys2Proof

/-! ## The place of a pool address (R327 to R329) -/

/-- R329 shifts and masks where the model divides and multiplies. -/
theorem placeIn_shifts (pa base n : Nat) :
    placeIn pa base n = (((pa - base) >>> 8) % n, (((pa - base) >>> 8) / n) <<< 8 ||| pa % 256) := by
  have low : pa % 256 < 2 ^ 8 := Nat.mod_lt _ (by decide)
  rw [placeIn, ← Nat.shiftLeft_add_eq_or_of_lt low, Nat.shiftLeft_eq, Nat.shiftRight_eq_div_pow]

theorem placeIn_next_granule {pa base : Nat} (n : Nat) (h : base ≤ pa) :
    (placeIn (pa + 256) base n).1 = ((placeIn pa base n).1 + 1) % n := by
  have next : (pa + 256 - base) / 256 = (pa - base) / 256 + 1 := by omega
  simp only [placeIn, next, Nat.mod_add_mod]

theorem placeIn_lt (pa base : Nat) {n : Nat} (h : 0 < n) : (placeIn pa base n).1 < n := Nat.mod_lt _ h

/-- A channel of the list and an offset there are the place of one address: they give back the granule, and the offset the byte in it. -/
theorem placeIn_inj {pa pb base n : Nat} (ha : base ≤ pa) (hb : base ≤ pb) (h : placeIn pa base n = placeIn pb base n) : pa = pb := by
  obtain ⟨idx, co⟩ := Prod.mk.inj h
  have row : (pa - base) / 256 / n = (pb - base) / 256 / n := by omega
  have granule : (pa - base) / 256 = (pb - base) / 256 := by
    rw [← Nat.div_add_mod ((pa - base) / 256) n, row, idx, Nat.div_add_mod]
  omega

/-- So do a channel by its number and an offset, where the list names no channel twice. -/
theorem placeIn_listed_inj {list : List Nat} {pa pb base : Nat} (nodup : list.Nodup) (nonempty : list ≠ []) (ha : base ≤ pa) (hb : base ≤ pb)
    (ch : list.getD (placeIn pa base list.length).1 0 = list.getD (placeIn pb base list.length).1 0)
    (co : (placeIn pa base list.length).2 = (placeIn pb base list.length).2) : pa = pb := by
  have pos := List.length_pos_iff.mpr nonempty
  rw [List.getD_eq_getElem _ _ (placeIn_lt pa base pos), List.getD_eq_getElem _ _ (placeIn_lt pb base pos)] at ch
  exact placeIn_inj ha hb (Prod.ext (nodup.getElem_inj_iff.mp ch) co)

/-- Bytes of a layout's strongroom region, which comes first. -/
def State.strongBytes (s : State) : Nat := 8 * groupCount s.cellar.layout * s.cellar.cap

theorem State.place_of_plain_layout {s : State} {pa : Nat} (below : pa < s.cellar.bytes) (layout : s.cellar.layout = 0) :
    s.place pa = .plain (s.cellar.plain.getD (placeIn pa 0 s.cellar.plain.length).1 0) (placeIn pa 0 s.cellar.plain.length).2 := by
  simp [State.place, Nat.not_le.mpr below, layout]

theorem State.place_of_plain_region {s : State} {pa : Nat} (below : pa < s.cellar.bytes) (layout : s.cellar.layout ≠ 0)
    (region : s.strongBytes ≤ pa) :
    s.place pa = .plain (plain2.getD (placeIn pa s.strongBytes 12).1 0) (placeIn pa s.strongBytes 12).2 := by
  rw [State.strongBytes] at region ⊢
  simp [State.place, Nat.not_le.mpr below, layout, Nat.not_lt.mpr region]

theorem State.place_of_strongroom {s : State} {pa : Nat} (below : pa < s.cellar.bytes) (layout : s.cellar.layout ≠ 0)
    (region : pa < s.strongBytes) :
    s.place pa = .strong ((placeIn pa 0 (8 * groupCount s.cellar.layout)).1 / 8) ((placeIn pa 0 (8 * groupCount s.cellar.layout)).1 % 8)
      (placeIn pa 0 (8 * groupCount s.cellar.layout)).2 := by
  rw [State.strongBytes] at region
  simp [State.place, Nat.not_le.mpr below, layout, region]

/-- Granule m of stripe k lies on member m of the stripe's group, in that group's next free stripe. -/
theorem placeIn_stripe (k n : Nat) {m b : Nat} (hm : m < 8) (hb : b < 256) :
    placeIn (2048 * k + 256 * m + b) 0 (8 * n) = (8 * (k % n) + m, k / n * 256 + b) := by
  have granule : (2048 * k + 256 * m + b - 0) / 256 = 8 * k + m := by omega
  have byte : (2048 * k + 256 * m + b) % 256 = b := by omega
  have stripe : (8 * k + m) / 8 = k := by omega
  have idx : (8 * k + m) % (8 * n) = 8 * (k % n) + m := by
    rw [Nat.mod_mul, stripe]
    omega
  have row : (8 * k + m) / (8 * n) = k / n := by rw [← Nat.div_div_eq_div_mul, stripe]
  rw [placeIn, granule, byte, idx, row]

theorem State.place_stripe {s : State} {k m b : Nat} (layout : s.cellar.layout ≠ 0) (below : 2048 * (k + 1) ≤ s.cellar.bytes)
    (region : 2048 * (k + 1) ≤ s.strongBytes) (hm : m < 8) (hb : b < 256) :
    s.place (2048 * k + 256 * m + b) =
      .strong (k % groupCount s.cellar.layout) m (k / groupCount s.cellar.layout * 256 + b) := by
  rw [State.place_of_strongroom (by omega) layout (by omega), placeIn_stripe k _ hm hb]
  congr 1
  · omega
  · omega

theorem State.place_inj_of_plain_layout {s : State} {pa pb : Nat} (layout : s.cellar.layout = 0) (nodup : s.cellar.plain.Nodup)
    (nonempty : s.cellar.plain ≠ []) (ha : pa < s.cellar.bytes) (hb : pb < s.cellar.bytes) (h : s.place pa = s.place pb) : pa = pb := by
  rw [State.place_of_plain_layout ha layout, State.place_of_plain_layout hb layout] at h
  obtain ⟨ch, co⟩ := Place.plain.inj h
  exact placeIn_listed_inj nodup nonempty (Nat.zero_le _) (Nat.zero_le _) ch co

/-- The two regions of a layout with groups give different kinds of place, and each gives a place to one address. -/
theorem State.place_inj_of_groups {s : State} {pa pb : Nat} (layout : s.cellar.layout ≠ 0) (ha : pa < s.cellar.bytes)
    (hb : pb < s.cellar.bytes) (h : s.place pa = s.place pb) : pa = pb := by
  rcases Nat.lt_or_ge pa s.strongBytes with strongA | plainA <;> rcases Nat.lt_or_ge pb s.strongBytes with strongB | plainB
  · rw [State.place_of_strongroom ha layout strongA, State.place_of_strongroom hb layout strongB] at h
    obtain ⟨group, member, co⟩ := Place.strong.inj h
    exact placeIn_inj (Nat.zero_le _) (Nat.zero_le _) (Prod.ext (by omega) co)
  · rw [State.place_of_strongroom ha layout strongA, State.place_of_plain_region hb layout plainB] at h
    cases h
  · rw [State.place_of_plain_region ha layout plainA, State.place_of_strongroom hb layout strongB] at h
    cases h
  · rw [State.place_of_plain_region ha layout plainA, State.place_of_plain_region hb layout plainB] at h
    obtain ⟨ch, co⟩ := Place.plain.inj h
    exact placeIn_listed_inj (list := plain2) (by decide) (by decide) plainA plainB ch co

/-- Settles O53: the place is R329's, and from it come back the granule and the byte in it. -/
theorem placementFollowsItsRule : Obligations.PlacementFollowsItsRule := by
  unfold Obligations.PlacementFollowsItsRule
  exact ⟨fun pa base n _ => placeIn_shifts pa base n, fun pa base n h _ => placeIn_next_granule n h,
    fun s pa below layout => State.place_of_plain_layout below layout,
    fun s pa below layout region => State.place_of_plain_region below layout region,
    fun s k layout below region m b hm hb => State.place_stripe layout below region hm hb,
    fun s pa pb layout nodup nonempty ha hb h => State.place_inj_of_plain_layout layout nodup nonempty ha hb h,
    fun s pa pb layout ha hb h => State.place_inj_of_groups layout ha hb h⟩

end Sys2Proof.Machine
end

section
namespace Sys2Proof.Machine

open Sys2Proof

/-! ## What a channel, a subchannel and a bus read after an update -/

@[simp] theorem State.chan_setReg (s : State) (k v c : Nat) : (s.setReg k v).chan c = s.chan c := rfl

@[simp] theorem State.chan_emit (s : State) (o : Out) (c : Nat) : (s.emit o).chan c = s.chan c := rfl

@[simp] theorem State.chan_irqEdge (s : State) (src c : Nat) : (s.irqEdge src).chan c = s.chan c := rfl

@[simp] theorem State.chan_countChan (s : State) (ch ev sel c : Nat) : (s.countChan ch ev sel).chan c = s.chan c :=
  State.chan_congr (by simp) c

@[simp] theorem State.chan_enterQ (s : State) (qid item c : Nat) : (s.enterQ qid item).chan c = s.chan c := rfl

@[simp] theorem State.chan_leaveQ (s : State) (qid item c : Nat) : (s.leaveQ qid item).chan c = s.chan c := rfl

@[simp] theorem State.leaveQ_out (s : State) (qid item : Nat) : (s.leaveQ qid item).out = s.out := rfl

@[simp] theorem State.sub_countChan (s : State) (ch ev sel c k : Nat) : (s.countChan ch ev sel).sub c k = s.sub c k := by
  simp only [State.sub, State.chan_countChan]

@[simp] theorem State.sub_leaveQ (s : State) (qid item c k : Nat) : (s.leaveQ qid item).sub c k = s.sub c k := rfl

@[simp] theorem State.chan_onBus (s : State) (b c : Nat) (f : Bus → Bus) : (s.onBus b f).chan c = s.chan c := rfl

@[simp] theorem State.bus_onBus (s : State) (b b' : Nat) (f : Bus → Bus) :
    (s.onBus b f).bus b' = if b' = b then f (s.bus b) else s.bus b' := by
  simp [State.bus, State.onBus]

theorem State.sub_of_subs {s : State} {ch k : Nat} {q : Sub} (there : (s.chan ch).subs[k]? = some q) : s.sub ch k = q := by
  simp [State.sub, there]

theorem State.subs_onSub {s : State} {ch k : Nat} {q : Sub} (f : Sub → Sub) (there : (s.chan ch).subs[k]? = some q) :
    ((s.onSub ch k f).chan ch).subs[k]? = some (f q) := by
  simp [State.onSub, there]

/-! ## Commands of a subchannel (R333, R334, R336, R339) -/

theorem State.dramCmd_sends {s : State} {ch k : Nat} {q : Sub} (sel : Nat) (cmd : String) (there : (s.chan ch).subs[k]? = some q) :
    (s.dramCmd ch k sel cmd).out = .dram ch k cmd :: s.out ∧
      (s.dramCmd ch k sel cmd).sub ch k = { q with retry := q.retry ++ [(cmd, s.now)] } := by
  have entered := State.subs_onSub (fun q => { q with retry := q.retry ++ [(cmd, s.now)] }) there
  exact ⟨by simp [State.dramCmd, State.emit], State.sub_of_subs (by simpa [State.dramCmd] using entered)⟩

/-- A precharge goes out, and the bank's row is closed. -/
theorem State.closeRow_closes {s : State} {ch k : Nat} {q : Sub} (bank row : Nat) (there : (s.chan ch).subs[k]? = some q) :
    (s.closeRow ch k bank row).out = .dram ch k (cmdText "PRE" bank row) :: s.out ∧
      ∃ r, (s.closeRow ch k bank row).sub ch k = { q with rows := q.rows.del bank, retry := r } := by
  obtain ⟨out, sub⟩ := State.dramCmd_sends 3 (cmdText "PRE" bank row) (State.subs_onSub (fun q => { q with rows := q.rows.del bank }) there)
  exact ⟨out, _, sub⟩

/-- A subchannel of `u` stands at q for its next command; what that command depends on and what has left the package are as in `s`. -/
structure State.Readied (s : State) (ch k : Nat) (q : Sub) (u : State) : Prop where
  there : (u.chan ch).subs[k]? = some q
  row : ∀ b, u.burstRow ch b = s.burstRow ch b
  now : u.now = s.now
  out : u.out = s.out

theorem State.Readied.countChan {s u : State} {ch k : Nat} {q : Sub} (h : s.Readied ch k q u) (c ev sel : Nat) :
    s.Readied ch k q (u.countChan c ev sel) := by
  obtain ⟨there, row, now, out⟩ := h
  exact ⟨by rw [State.chan_countChan, there], fun b => by rw [← row b, State.burstRow, State.chan_countChan, State.burstRow],
    by rw [← now, State.now, State.countChan_power, State.now], by rw [State.countChan_out, out]⟩

section Issue
variable {s u : State} {ch k : Nat} {w : Bool} {q : Sub} {x : Nat × Burst} {r : RowAddr}

theorem State.issueFor_activates (ready : s.Readied ch k q u) (hr : r = s.burstRow ch x.2) (shut : q.rows.find r.bank = none) :
    (u.issueFor ch k w x).out = .dram ch k (cmdText "ACT" r.bank r.row) :: s.out ∧
      ∃ l, (u.issueFor ch k w x).sub ch k = { q with rows := q.rows.put r.bank (r.row, s.now), retry := l } := by
  obtain ⟨there, row, now, out⟩ := ready
  obtain ⟨sent, sub⟩ := State.dramCmd_sends 2 (cmdText "ACT" r.bank r.row)
    (State.subs_onSub (fun q => { q with rows := q.rows.put r.bank (r.row, s.now) }) there)
  simp only [State.issueFor, row, ← hr, State.sub_of_subs there, shut, now]
  exact ⟨sent.trans (by rw [State.onSub_out, out]), _, sub⟩

theorem State.issueFor_precharges {row at_ : Nat} (ready : s.Readied ch k q u) (hr : r = s.burstRow ch x.2)
    (opened : q.rows.find r.bank = some (row, at_)) (other : row ≠ r.row) :
    (u.issueFor ch k w x).out = .dram ch k (cmdText "PRE" r.bank row) :: s.out ∧
      ∃ l, (u.issueFor ch k w x).sub ch k = { q with rows := q.rows.del r.bank, retry := l } := by
  obtain ⟨there, rows, -, out⟩ := ready
  simp only [State.issueFor, rows, ← hr, State.sub_of_subs there, opened, bne_iff_ne.mpr other, if_true, ← out]
  exact State.closeRow_closes r.bank row there

/-- A column command to the open row goes out, and its burst leaves its queue; a read is then under way. -/
theorem State.issueFor_column {at_ : Nat} (ready : s.Readied ch k q u) (hr : r = s.burstRow ch x.2)
    (opened : q.rows.find r.bank = some (r.row, at_)) : ∃ v m : State,
      v.out = .dram ch k (cmdText (if w then "WR" else "RD") r.bank r.col) :: s.out ∧
        (v.sub ch k).rq = (if w then q.rq else q.rq.eraseIdx x.1) ∧ (v.sub ch k).wq = (if w then q.wq.eraseIdx x.1 else q.wq) ∧
        (v.sub ch k).inFlight = (if w then q.inFlight else q.inFlight ++ [x.2]) ∧ m = v.closeSpent ch k r.bank r.row ∧
        u.issueFor ch k w x = if w = false ∧ 128 ≤ q.rq.length then m.resume (fun r => r.stage == .dram) else m := by
  obtain ⟨there, row, -, out⟩ := ready
  simp only [State.issueFor, row, ← hr, State.sub_of_subs there, opened, bne_self_eq_false, Bool.false_eq_true, if_false]
  have taken := fun f => State.dramCmd_sends (b2n w) (cmdText (if w then "WR" else "RD") r.bank r.col) (State.subs_onSub f there)
  generalize hv : State.leaveQ _ _ _ = v
  refine ⟨v, _, ?_, ?_, ?_, ?_, rfl, by simp⟩
  all_goals subst hv
  · rw [State.leaveQ_out, State.countChan_out, (taken _).1, State.onSub_out, out]
  all_goals rw [State.sub_leaveQ, State.sub_countChan, (taken _).2]

end Issue

theorem State.burstRow_onChan (s : State) {ch : Nat} {f : Chan → Chan} (ranks : (f (s.chan ch)).ranks = (s.chan ch).ranks) (c : Nat)
    (b : Burst) : (s.onChan ch f).burstRow c b = s.burstRow c b := by
  simp only [State.burstRow, State.chan_onChan]
  split
  · rename_i same
    rw [ranks, same]
  · rfl

/-- A pick depends on the rows of bursts, on the objects, and on time (R333, R336). -/
theorem State.pickSlot_congr {s u : State} {ch : Nat} (row : ∀ b, u.burstRow ch b = s.burstRow ch b) (regs : u.regs = s.regs)
    (power : u.power = s.power) (mode : u.cellar.mode = s.cellar.mode) (q : Sub) (queue : List Burst) (ready : List Nat) :
    u.pickSlot ch q queue ready = s.pickSlot ch q queue ready := by
  simp only [State.pickSlot, State.burstAge, State.now, row, State.reg_congr regs, power, mode]
  rfl

theorem State.subMode_congr {s u : State} (regs : u.regs = s.regs) (q : Sub) : u.subMode q = s.subMode q := by
  simp only [State.subMode, State.reg_congr regs]

theorem Chan.repairs_of_none {c : Chan} (h : c.repair = none) (k : Nat) : c.repairs k = false := by simp [Chan.repairs, h]

section Column
variable {s : State} {ch : Fin 48} {sub : Fin 2} {ready : List Nat} {retire : Nat} {q0 q : Sub} {x : Nat × Burst} {capped : Bool}

/-- The state in which a subchannel issues for the burst that it picks. -/
def State.forColumn (s : State) (ch k retire : Nat) (w : Bool) : State :=
  ((s.onSub ch k fun q => { q with retry := q.retry.drop retire }).onSub ch k fun q => { q with writes := w }).onChan ch fun c =>
    { c with pd := false }

theorem State.forColumn_readied {ch k : Nat} (there : (s.chan ch).subs[k]? = some q0) (hq : q = { q0 with retry := q0.retry.drop retire })
    (w : Bool) : s.Readied ch k { q with writes := w } (s.forColumn ch k retire w) := by
  subst hq
  refine ⟨by simp [State.forColumn, State.onSub, there], fun b => ?_, rfl, rfl⟩
  rw [State.forColumn, State.burstRow_onChan, State.onSub, State.burstRow_onChan, State.onSub, State.burstRow_onChan] <;> rfl

theorem columnCommandIssue_issues {post : State → Prop} (hs : s.running = true) (st : (s.chan ch.val).st = 4)
    (alert : (s.chan ch.val).alert = false) (repair : (s.chan ch.val).repair = none) (there : (s.chan ch.val).subs[sub.val]? = some q0)
    (hq : q = { q0 with retry := q0.retry.drop retire }) (short : q.retry.length < 64)
    (pick : s.pickSlot ch.val q (if s.subMode q then q.wq else q.rq) ready = (some x, capped))
    (issues : ∀ u, s.Readied ch.val sub.val { q with writes := s.subMode q } u → post (u.issueFor ch.val sub.val (s.subMode q) x)) :
    Completes (.columnCommandIssue ch sub ready retire) s post := by
  refine completes_live hs (by rw [exec, execColumnCommandIssue]) ?_
  have standing : (s.onSub ch.val sub.val fun q => { q with retry := q.retry.drop retire }).sub ch.val sub.val = q :=
    (State.sub_of_subs (State.subs_onSub _ there)).trans hq.symm
  have readied := State.forColumn_readied there hq (s.subMode q)
  have picks : (s.forColumn ch.val sub.val retire (s.subMode q)).pickSlot ch.val q (if s.subMode q then q.wq else q.rq) ready =
      (some x, capped) := (State.pickSlot_congr readied.row rfl rfl rfl q _ ready).trans pick
  rw [State.forColumn] at picks readied
  simp only [st, alert, Chan.repairs_of_none repair, standing, Nat.not_le.mpr short, State.subMode_congr (State.onSub_regs s _ _ _), picks,
    bne_self_eq_false, Bool.or_self, Bool.false_eq_true, if_false]
  cases capped with
  | false => exact issues _ readied
  | true => exact issues _ (readied.countChan _ _ _)

section Picked
variable {r : RowAddr} (hs : s.running = true) (st : (s.chan ch.val).st = 4) (alert : (s.chan ch.val).alert = false)
  (repair : (s.chan ch.val).repair = none) (there : (s.chan ch.val).subs[sub.val]? = some q0)
  (hq : q = { q0 with retry := q0.retry.drop retire }) (short : q.retry.length < 64)
  (pick : s.pickSlot ch.val q (if s.subMode q then q.wq else q.rq) ready = (some x, capped)) (hr : r = s.burstRow ch.val x.2)
include hs st alert repair there hq short pick hr

theorem columnCommandIssue_activates (shut : q.rows.find r.bank = none) : Completes (.columnCommandIssue ch sub ready retire) s fun t =>
    t.out = .dram ch.val sub.val (cmdText "ACT" r.bank r.row) :: s.out ∧ (t.sub ch.val sub.val).rows = q.rows.put r.bank (r.row, s.now) ∧
      (t.sub ch.val sub.val).rq = q.rq ∧ (t.sub ch.val sub.val).wq = q.wq := by
  refine columnCommandIssue_issues hs st alert repair there hq short pick fun u readied => ?_
  obtain ⟨out, l, stands⟩ := State.issueFor_activates readied hr shut
  exact ⟨out, by rw [stands], by rw [stands], by rw [stands]⟩

theorem columnCommandIssue_precharges {row at_ : Nat} (opened : q.rows.find r.bank = some (row, at_)) (other : row ≠ r.row) :
    Completes (.columnCommandIssue ch sub ready retire) s fun t =>
      t.out = .dram ch.val sub.val (cmdText "PRE" r.bank row) :: s.out ∧ (t.sub ch.val sub.val).rows = q.rows.del r.bank ∧
        (t.sub ch.val sub.val).rq = q.rq ∧ (t.sub ch.val sub.val).wq = q.wq := by
  refine columnCommandIssue_issues hs st alert repair there hq short pick fun u readied => ?_
  obtain ⟨out, l, stands⟩ := State.issueFor_precharges readied hr opened other
  exact ⟨out, by rw [stands], by rw [stands], by rw [stands]⟩

theorem columnCommandIssue_column {at_ : Nat} (opened : q.rows.find r.bank = some (r.row, at_)) :
    Completes (.columnCommandIssue ch sub ready retire) s fun t => ∃ v m : State,
      v.out = .dram ch.val sub.val (cmdText (if s.subMode q then "WR" else "RD") r.bank r.col) :: s.out ∧
        (v.sub ch.val sub.val).rq = (if s.subMode q then q.rq else q.rq.eraseIdx x.1) ∧
        (v.sub ch.val sub.val).wq = (if s.subMode q then q.wq.eraseIdx x.1 else q.wq) ∧
        (v.sub ch.val sub.val).inFlight = (if s.subMode q then q.inFlight else q.inFlight ++ [x.2]) ∧
        m = v.closeSpent ch.val sub.val r.bank r.row ∧
        t = if s.subMode q = false ∧ 128 ≤ q.rq.length then m.resume (fun r => r.stage == .dram) else m := by
  refine columnCommandIssue_issues hs st alert repair there hq short pick fun u readied => ?_
  have column := State.issueFor_column (w := s.subMode q) readied hr opened
  exact column

end Picked

end Column

/-! ## Reads that return (R178, R340, R362 to R366) -/

theorem State.wcbOf_place_onSub (s : State) (ch k a : Nat) (f : Sub → Sub) :
    (s.onSub ch k f).wcbOf ((s.onSub ch k f).place a) = s.wcbOf (s.place a) := rfl

theorem State.lineAddr_onSub (s : State) (ch k c line : Nat) (f : Sub → Sub) : (s.onSub ch k f).lineAddr c line = s.lineAddr c line := rfl

section Return
variable {s : State} {ch : Fin 48} {line e1 e2 : Nat} {b : Burst}
  (hs : s.running = true) (issued : (s.sub ch.val (line / 4 % 2)).inFlight.find? (fun b => b.line == line) = some b)
include hs issued

theorem dramReadReturn_weight_completes {a : Nat} {w : Nat × Nat} (weight : b.weight = some w) (pa : s.lineAddr ch.val line = some a) :
    Completes (.dramReadReturn ch line e1 e2) s fun t =>
      t = (s.onSub ch.val (line / 4 % 2) fun q => { q with inFlight := q.inFlight.erase b }).weightBack w.1 w.2 a e1 e2 := by
  refine completes_live hs (by rw [exec, execDramReadReturn]) ?_
  simp only [issued, weight, State.lineAddr_onSub, pa]

section Request
variable {k a : Nat} {r : Req} {x : Seen} {m : State} (own : b.weight = none) (trk : b.trk = some k) (req : s.pool.reqs.find k = some r)
  (asked : r.lines.find? (fun a => s.wcbOf (s.place a) == (ch.val, line)) = some a)
  (read : (s.onSub ch.val (line / 4 % 2) fun q => { q with inFlight := q.inFlight.erase b }).readIssued ch.val a r.gid e1 e2 = (x, m))
include own trk req asked read

theorem dramReadReturn_waits_completes (waits : x.waits = true) : Completes (.dramReadReturn ch line e1 e2) s fun t =>
    t = m.onSub ch.val (line / 4 % 2) fun q => { q with rq := q.rq ++ [b] } := by
  refine completes_live hs (by rw [exec, execDramReadReturn]) ?_
  simp only [issued, own, trk, State.onSub_pool, req, State.wcbOf_place_onSub, asked, read, waits, if_true]

theorem dramReadReturn_completes (goes : x.waits = false) : Completes (.dramReadReturn ch line e1 e2) s fun t => ∃ u : State,
    u.pool.reqs = m.pool.reqs.upd k (fun r => { r with got := r.got.put (a / 64) (x.data, x.poison) }) ∧ t = u.access k := by
  refine completes_live hs (by rw [exec, execDramReadReturn]) ?_
  simp only [issued, own, trk, State.onSub_pool, req, State.wcbOf_place_onSub, asked, read, goes, Bool.false_eq_true, if_false]
  refine ⟨_, ?_, rfl⟩
  split <;> rfl

end Request

end Return

/-! ## Lines that drain (R331, R371) -/

theorem wcbDrain_not_due_completes {s : State} {ch : Fin 48} {line : Nat} (hs : s.running = true) (not_due : s.drainDue ch.val line = false) :
    Completes (.wcbDrain ch line) s fun t => t = s := by
  refine completes_live hs (by rw [exec, execWcbDrain]) ?_
  simp only [not_due, Bool.not_false, Bool.or_true, if_true]

@[simp] theorem State.keyLook_cellar (s : State) (ch pa gid : Nat) : (s.keyLook ch pa gid).cellar = s.cellar := by
  unfold State.keyLook
  split
  · rfl
  · dsimp only
    split
    · exact State.countChan_cellar _ _ _ _
    · exact (State.countChan_cellar _ _ _ _).trans (State.countChan_cellar _ _ _ _)

theorem Chan.awayAt_of_serves {c : Chan} (h : c.serves = true) (line : Nat) : c.awayAt line = false := by
  simp only [Chan.serves, Bool.and_eq_true, Bool.or_eq_true, beq_iff_eq, Option.isNone_iff_eq_none] at h
  obtain ⟨st, repair⟩ := h
  rcases st with st | st <;> simp [Chan.awayAt, st, Chan.repairs_of_none repair]

theorem Chan.gone_of_serves {c : Chan} (h : c.serves = true) : c.gone = false := by simp [Chan.gone, h]

/-- A channel that stands for no member of a group, and rebuilds none, has no place in one. -/
theorem State.groupless {s : State} {ch : Nat} (h : s.strongChan ch = false) :
    s.groupOf ch = none ∧ ∀ line, s.placeOf ch line = .plain ch (line * 64) := by
  simp only [State.strongChan, Bool.or_eq_false_iff, Option.isSome_eq_false_iff, Option.isNone_iff_eq_none, List.any_eq_false] at h
  obtain ⟨member, rebuilds⟩ := h
  refine ⟨?_, fun line => ?_⟩
  · simp only [State.groupOf, member]
    exact List.find?_eq_none.mpr rebuilds
  · simp only [State.placeOf, member]
    split
    · rename_i g m named
      obtain ⟨g', listed, names⟩ := List.exists_of_findSome?_eq_some named
      have spare := rebuilds g' listed
      split at names
      · rename_i rebuild
        simp only [rebuild] at spare
        rw [if_neg spare] at names
        cases names
      · cases names
    · rfl

@[simp] theorem State.leaveQ_cellar (s : State) (qid item : Nat) : (s.leaveQ qid item).cellar = s.cellar := rfl

theorem State.onChan_cellar_congr {s t : State} (h : t.cellar = s.cellar) (ch : Nat) (f : Chan → Chan) :
    (t.onChan ch f).cellar = (s.onChan ch f).cellar := by
  simp only [State.onChan, State.chan, h]

@[simp] theorem State.chan_putLine (s : State) (ch line c : Nat) (bs : Bytes) (m : Nat) : (s.putLine ch line bs m).chan c = s.chan c := by
  rw [State.putLine, State.putRaw, State.chan, State.chan]

theorem State.putLine_cellar_congr {s t : State} (h : t.cellar = s.cellar) (ch line : Nat) (bs : Bytes) (m : Nat) :
    (t.putLine ch line bs m).cellar = (s.putLine ch line bs m).cellar := by
  simp only [State.putLine, State.putRaw, h]

/-- A line written whole drains from a plain channel with its code, and nothing is read first. -/
theorem State.drainLine_cellar {s : State} {ch line : Nat} {w : WLine} (strong : s.strongChan ch = false)
    (serves : (s.chan ch).serves = true) (found : (s.chan ch).wcb.find line = some w) (whole : w.whole = true) :
    (s.drainLine ch line).cellar =
      ((s.putLine ch line (s.seal ((s.lineAddr ch line).getD 0) w.gid w.data) (lineMeta w.poison w.hsh)).onChan ch fun c =>
        { c with wcb := c.wcb.del line }).cellar := by
  unfold State.drainLine
  split
  · rename_i empty
    rw [found] at empty
    cases empty
  · rename_i w' held
    obtain rfl : w = w' := Option.some.inj (found.symm.trans held)
    extract_lets pl pa strong' evac dead
    have place : pl = .plain ch (line * 64) := (State.groupless strong).2 line
    clear_value pl
    subst place
    simp only [Chan.awayAt_of_serves serves, Chan.gone_of_serves serves, whole, dead, strong', pa, Bool.false_and, Bool.not_false,
      Bool.and_self, Bool.false_eq_true, if_false, if_true, State.leaveQ_cellar, State.countChan_cellar]
    exact State.onChan_cellar_congr (State.putLine_cellar_congr (State.keyLook_cellar s ch _ w.gid) ch line _ _) ch _

theorem State.groupOf_congr {s t : State} (groups : t.cellar.groups = s.cellar.groups ∧ t.cellar.layout = s.cellar.layout) (ch : Nat) :
    t.groupOf ch = s.groupOf ch := by
  obtain ⟨groups, layout⟩ := groups
  simp only [State.groupOf, State.memberOf, State.group, groups, layout]

theorem State.drainParity_of_groupless {s : State} {ch : Nat} (h : s.groupOf ch = none) (line : Nat) : s.drainParity ch line = s := by
  rw [State.drainParity, h]
  split
  · rename_i grouped
    cases grouped
  · rfl

/-- What of a channel's WCB and of DRAM is left once such a line has drained. -/
theorem State.drainLine_stores {s : State} {ch line : Nat} {w : WLine} (strong : s.strongChan ch = false)
    (serves : (s.chan ch).serves = true) (found : (s.chan ch).wcb.find line = some w) (whole : w.whole = true) :
    ((s.drainLine ch line).chan ch).wcb = (s.chan ch).wcb.del line ∧
      (s.drainLine ch line).cellar.dram =
        cellsPut (dramKey ch line 0) (padBytes 80 (padBytes 64 (s.seal ((s.lineAddr ch line).getD 0) w.gid w.data) ++
          eccBytes (padBytes 64 (s.seal ((s.lineAddr ch line).getD 0) w.gid w.data)) (lineMeta w.poison w.hsh))) s.cellar.dram := by
  have drained := State.drainLine_cellar strong serves found whole
  refine ⟨?_, by rw [drained, State.onChan_dram, State.putLine, State.putRaw]⟩
  rw [State.chan_congr (congrArg Cellar.chans drained), State.chan_onChan, if_pos rfl, State.chan_putLine]

theorem wcbDrain_completes {s : State} {ch : Fin 48} {line : Nat} {w : WLine} (hs : s.running = true) (strong : s.strongChan ch.val = false)
    (serves : (s.chan ch.val).serves = true) (room : (s.sub ch.val (line / 4 % 2)).wq.length < 64)
    (found : (s.chan ch.val).wcb.find line = some w) (whole : w.whole = true) (due : s.drainDue ch.val line = true) :
    Completes (.wcbDrain ch line) s fun t => ∃ (m : State) (bs : Bytes),
      bs = s.seal ((s.lineAddr ch.val line).getD 0) w.gid w.data ∧ (m.chan ch.val).wcb = (s.chan ch.val).wcb.del line ∧
        m.cellar.dram = cellsPut (dramKey ch.val line 0)
          (padBytes 80 (padBytes 64 bs ++ eccBytes (padBytes 64 bs) (lineMeta w.poison w.hsh))) s.cellar.dram ∧
        t = m.resume fun r => r.stage == .wcb := by
  refine completes_live hs (by rw [exec, execWcbDrain]) ?_
  obtain ⟨wcb, dram⟩ := State.drainLine_stores strong serves found whole
  have moved := State.drainLine_moves s ch.val line
  obtain ⟨groups, -⟩ := moved.same (p := .groups) (by decide)
  obtain ⟨layout, -⟩ := moved.same (p := .map) (by decide)
  have groupless := (State.groupOf_congr ⟨groups, layout⟩ ch.val).trans (State.groupless strong).1
  simp only [due, Nat.not_le.mpr room, decide_false, Bool.not_true, Bool.or_self, Bool.false_eq_true, if_false,
    State.drainParity_of_groupless groupless line]
  refine ⟨_, _, rfl, ?_, ?_, rfl⟩
  · split
    · rw [State.chan_enterQ, State.onSub, State.chan_onChan, if_pos rfl, ← wcb]
    · exact wcb
  · split
    · rw [State.enterQ_cellar, State.onSub, State.onChan_dram, dram]
    · exact dram

/-! ## Banks, refresh and sensors (R334, R336, R337, R353) -/

theorem pageIdleExpiry_completes {s : State} {ch : Fin 48} {sub : Fin 2} {bank : Fin 128} {row at_ : Nat} {q : Sub} (hs : s.running = true)
    (there : (s.chan ch.val).subs[sub.val]? = some q) (opened : q.rows.find bank.val = some (row, at_)) (st : (s.chan ch.val).st = 4)
    (idle : s.rowWanted ch.val sub.val bank.val row = false) : Completes (.pageIdleExpiry ch sub bank) s fun t =>
      t.out = .dram ch.val sub.val (cmdText "PRE" bank.val row) :: s.out ∧ (t.sub ch.val sub.val).rows = q.rows.del bank.val := by
  refine completes_live hs (by rw [exec, execPageIdleExpiry]) ?_
  obtain ⟨out, l, stands⟩ := State.closeRow_closes bank.val row there
  simp only [State.sub_of_subs there, opened, st, idle, bne_self_eq_false, Bool.or_self, Bool.false_eq_true, if_false]
  exact ⟨out, by rw [stands]⟩

/-- An all-bank refresh of a rank goes out and closes the rows of the rank. -/
theorem State.refresh_allBank {s : State} {ch k : Nat} {q : Sub} (rank ba : Nat) (there : (s.chan ch).subs[k]? = some q) :
    (s.refresh ch k rank ba false).out = .dram ch k (cmdText "REFab" rank 0) :: s.out ∧
      ∃ l, (s.refresh ch k rank ba false).sub ch k = { q with rows := q.rows.filter fun b _ => !(b / 32 == rank), retry := l } := by
  simp only [State.refresh, Bool.and_false, Bool.not_false, Bool.true_or, Bool.and_true, Bool.false_eq_true, if_false]
  obtain ⟨out, stands⟩ := State.dramCmd_sends 4 (cmdText "REFab" rank 0)
    (State.subs_onSub (fun q => { q with rows := q.rows.filter fun b _ => !(b / 32 == rank) }) there)
  exact ⟨out, _, stands⟩

section Refresh
variable {s : State} {ch : Fin 48} {sub : Fin 2} {rank ba : Fin 4} {q : Sub}
  (hs : s.running = true) (st : (s.chan ch.val).st = 4 ∨ (s.chan ch.val).st = 5) (alert : (s.chan ch.val).alert = false)
  (there : (s.chan ch.val).subs[sub.val]? = some q) (owed : 0 ≤ q.refresh.getD rank.val 0)
include hs st alert there owed

theorem refresh_postponed_completes (queued : (q.rq ++ q.wq).any (fun b => (s.burstRow ch.val b).rank == rank.val) = true)
    (room : q.refresh.getD rank.val 0 < 4) : Completes (.refresh ch sub rank ba true) s fun t =>
      (t.sub ch.val sub.val).refresh = q.refresh.put rank.val (q.refresh.getD rank.val 0 + 1) ∧ t.out = s.out := by
  refine completes_live hs (by rw [exec, execRefresh]) ?_
  have acts : ((s.chan ch.val).st == 4 || (s.chan ch.val).st == 5) = true := by simpa using st
  simp only [acts, alert, State.sub_of_subs there, Int.not_lt.mpr owed, queued, room, Bool.not_true, Bool.or_self, Bool.false_eq_true,
    decide_true, Bool.and_self, if_true, if_false]
  exact ⟨by rw [State.sub_of_subs (State.subs_onSub _ there)], rfl⟩

theorem refresh_runs_completes (free : (q.rq ++ q.wq).any (fun b => (s.burstRow ch.val b).rank == rank.val) = false) :
    Completes (.refresh ch sub rank ba true) s fun t =>
      (t.sub ch.val sub.val).refresh = q.refresh ∧ (t.sub ch.val sub.val).rows = q.rows.filter (fun b _ => !(b / 32 == rank.val)) ∧
        t.out = .dram ch.val sub.val (cmdText "REFab" rank.val 0) :: s.out := by
  refine completes_live hs (by rw [exec, execRefresh]) ?_
  have acts : ((s.chan ch.val).st == 4 || (s.chan ch.val).st == 5) = true := by simpa using st
  obtain ⟨out, l, stands⟩ := State.refresh_allBank rank.val ba.val there
  simp only [acts, alert, State.sub_of_subs there, Int.not_lt.mpr owed, free, Bool.not_true, Bool.or_self, Bool.false_eq_true,
    Bool.false_and, if_true, if_false]
  exact ⟨by rw [stands], by rw [stands], out⟩

end Refresh

/-- A sensor's reading stands in its channel with the throttle level that it gives. -/
theorem State.chan_dimmTemp (s : State) (ch c : Nat) (t : Int) :
    (s.dimmTemp ch t).chan c =
      if c = ch then { (s.chan ch) with temp := t, throttle := s.throttleLevel (s.chan ch).throttle t } else s.chan c := by
  simp only [State.dimmTemp]
  split
  · rw [State.chan_irqEdge, State.chan_onChan]
  · rw [State.chan_onChan]

section Sensor
variable {s : State} {ch : Fin 48} (hs : s.running = true) (st : (s.chan ch.val).st ≠ 0) (temp : Int)
include hs st

theorem dimmTempPoll_completes (free : (s.bus (ch.val / 8)).busy = false) : Completes (.dimmTempPoll ch temp) s fun t =>
    t.chan ch.val = { (s.chan ch.val) with temp := temp, throttle := s.throttleLevel (s.chan ch.val).throttle temp } := by
  refine completes_live hs (by rw [exec, execDimmTempPoll]) ?_
  simp only [beq_false_of_ne st, free, Bool.false_eq_true, if_false, State.chan_dimmTemp, if_true]

theorem dimmTempPoll_waits_completes (busy : (s.bus (ch.val / 8)).busy = true) (room : (s.bus (ch.val / 8)).queue.length < 32) :
    Completes (.dimmTempPoll ch temp) s fun t =>
      t.bus (ch.val / 8) = { (s.bus (ch.val / 8)) with queue := (s.bus (ch.val / 8)).queue ++ [(ch.val, temp)] } ∧
        t.chan ch.val = s.chan ch.val := by
  refine completes_live hs (by rw [exec, execDimmTempPoll]) ?_
  simp only [beq_false_of_ne st, busy, room, Bool.false_eq_true, if_false, if_true, State.bus_onBus, State.chan_onBus, and_self]

theorem i3cInBandInterrupt_completes (mode : s.inForce (Obj.sbMode (ch.val / 8)) = 1) : Completes (.i3cInBandInterrupt ch temp) s fun t =>
    t.chan ch.val = { (s.chan ch.val) with temp := temp, throttle := s.throttleLevel (s.chan ch.val).throttle temp } := by
  refine completes_live hs (by rw [exec, execI3cInBandInterrupt]) ?_
  simp only [mode, bne_iff_ne.mpr st, beq_self_eq_true, Bool.and_self, if_true, State.chan_dimmTemp]

end Sensor

/-! ## Channels that sleep and wake (R338, R488) -/

theorem selfRefreshExit_completes {s : State} {ch : Fin 48} (hs : s.running = true) (asleep : (s.chan ch.val).st = 6) :
    Completes (.selfRefreshExit ch) s fun t => ∃ m : State, m.chan ch.val = { (s.chan ch.val) with st := 4 } ∧ t = m.resumeMem := by
  refine completes_live hs (by rw [exec, execSelfRefreshExit]) ?_
  simp only [asleep, beq_self_eq_true, if_true]
  exact ⟨_, by rw [State.chan_irqEdge, State.chan_onChan, if_pos rfl], rfl⟩

section Idle
variable {s : State} {ch : Fin 48} (hs : s.running = true) (st : (s.chan ch.val).st = 4) (repair : (s.chan ch.val).repair = none)
  (quiet : (s.chan ch.val).quiet = true) (wcb : (s.chan ch.val).wcb.size = 0) (plines : (s.chan ch.val).plines.size = 0)
include hs st repair quiet wcb plines

theorem chIdleSrExpiry_completes (enabled : s.reg Obj.chIdleSr ≠ 0) : Completes (.chIdleSrExpiry ch) s fun t =>
    (t.chan ch.val).st = 6 ∧ (t.chan ch.val).pd = false ∧ ∀ q ∈ (t.chan ch.val).subs, q.rows = {} := by
  refine completes_live hs (by rw [exec, execChIdleSrExpiry]) ?_
  simp only [st, repair, quiet, wcb, plines, bne_iff_ne.mpr enabled, beq_self_eq_true, Option.isNone_none, Bool.and_self, if_true,
    State.chan_countChan, State.chan_onChan, true_and]
  intro q mem
  obtain ⟨q', -, rfl⟩ := List.mem_map.mp mem
  rfl

theorem chIdlePdExpiry_completes (up : (s.chan ch.val).pd = false) (enabled : s.reg Obj.chIdlePd ≠ 0) :
    Completes (.chIdlePdExpiry ch) s fun t => t.chan ch.val = { (s.chan ch.val) with pd := true } := by
  refine completes_live hs (by rw [exec, execChIdlePdExpiry]) ?_
  simp only [st, repair, quiet, wcb, plines, up, bne_iff_ne.mpr enabled, beq_self_eq_true, Option.isNone_none, Bool.not_false, Bool.and_self,
    if_true, State.chan_countChan, State.chan_onChan]

end Idle

/-! ## Alerts (R339) -/

theorem State.foldl_emit {α : Type} (f : α → Out) (l : List α) (s : State) :
    l.foldl (fun s x => s.emit (f x)) s = { s with out := (l.map f).reverse ++ s.out } := by
  induction l generalizing s with
  | nil => rfl
  | cons x l ih =>
    rw [List.foldl_cons, ih]
    simp [State.emit]

/-- Commands that are issued again go out in their order. -/
theorem State.replayCmds_out (s : State) (ch k : Nat) :
    (s.replayCmds ch k).out = ((s.sub ch k).retry.map fun x => Out.dram ch k x.1).reverse ++ s.out :=
  congrArg State.out (State.foldl_emit (fun x : String × Nat => Out.dram ch k x.1) (s.sub ch k).retry s)

@[simp] theorem State.chan_replayCmds (s : State) (ch k c : Nat) : (s.replayCmds ch k).chan c = s.chan c :=
  (congrArg (State.chan · c) (State.foldl_emit (fun x : String × Nat => Out.dram ch k x.1) (s.sub ch k).retry s)).trans rfl

theorem getD_map_shut (qs : List Sub) (k : Nat) :
    (qs.map fun q => { q with rows := {} }).getD k {} = { qs.getD k {} with rows := {} } :=
  List.getD_map qs {} fun q : Sub => { q with rows := {} }

section Alert
variable {s : State} {ch : Fin 48} (hs : s.running = true)
include hs

theorem alertNAssert_completes (st : (s.chan ch.val).st = 4 ∨ (s.chan ch.val).st = 5) : Completes (.alertNAssert ch) s fun t =>
    (t.chan ch.val).alert = true ∧ (t.chan ch.val).st = (s.chan ch.val).st ∧
      (t.chan ch.val).alerts = (s.now :: (s.chan ch.val).alerts).filter (fun x => decide (s.now < x + 1000000)) ∧
      ((s.chan ch.val).want = 0 → (t.chan ch.val).want = if 3 ≤ (t.chan ch.val).alerts.length then 3 else 0) ∧
      ((s.chan ch.val).want ≠ 0 → (t.chan ch.val).want = (s.chan ch.val).want) := by
  refine completes_live hs (by rw [exec, execAlertNAssert]) ?_
  have acts : ((s.chan ch.val).st == 4 || (s.chan ch.val).st == 5) = true := by simpa using st
  simp only [acts, Bool.not_true, Bool.false_eq_true, if_false, State.chan_onChan, if_true, true_and]
  exact ⟨fun unasked => by simp [unasked], fun asked => by simp [asked]⟩

theorem alertRelease_completes (alert : (s.chan ch.val).alert = true) : Completes (.alertRelease ch) s fun t =>
    t.chan ch.val = { (s.chan ch.val) with alert := false, subs := (s.chan ch.val).subs.map fun q => { q with rows := {} } } ∧
      t.out = ((s.sub ch.val 0).retry.map (fun x => Out.dram ch.val 0 x.1) ++ (s.sub ch.val 1).retry.map fun x => Out.dram ch.val 1 x.1).reverse ++
        s.out := by
  refine completes_live hs (by rw [exec, execAlertRelease]) ?_
  simp only [alert, Bool.not_true, Bool.false_eq_true, if_false, State.chan_countChan, State.countChan_out]
  have kept : ∀ k, ((s.onChan ch.val fun c => { c with alert := false, subs := c.subs.map fun q => { q with rows := {} } }).sub ch.val k).retry =
      (s.sub ch.val k).retry := by
    intro k
    rw [State.sub, State.chan_onChan, if_pos rfl, getD_map_shut, State.sub]
  refine ⟨by rw [State.chan_replayCmds, State.chan_replayCmds, State.chan_onChan, if_pos rfl], ?_⟩
  rw [State.replayCmds_out, State.replayCmds_out, State.sub, State.chan_replayCmds, ← State.sub, kept 0, kept 1, State.onChan_out,
    List.reverse_append, List.append_assoc]

end Alert

/-- Settles O37: each event of a channel finds what it waits for, sends the commands of its rule, and leaves the channel as the rule has it. -/
theorem channelTrafficCompletes : Obligations.ChannelTrafficCompletes := by
  unfold Obligations.ChannelTrafficCompletes
  rintro s ch c hs rfl
  refine ⟨?_, ?_, fun line e1 e2 a b w issued weight pa => dramReadReturn_weight_completes hs issued weight pa,
    fun line w strong serves room found whole due => wcbDrain_completes hs strong serves room found whole due,
    fun line due => wcbDrain_not_due_completes hs due,
    fun sub bank row at_ q there opened st idle => pageIdleExpiry_completes hs there opened st idle,
    fun sub rank ba q st alert there owed =>
      ⟨refresh_postponed_completes hs st alert there owed, refresh_runs_completes hs st alert there owed⟩,
    fun temp st => ⟨dimmTempPoll_completes hs st temp, dimmTempPoll_waits_completes hs st temp, i3cInBandInterrupt_completes hs st temp⟩,
    fun st repair quiet => ⟨chIdleSrExpiry_completes hs st repair quiet, chIdlePdExpiry_completes hs st repair quiet⟩,
    selfRefreshExit_completes hs, alertNAssert_completes hs, alertRelease_completes hs⟩
  · intro sub ready retire q0 q x capped r st alert repair there hq short pick hr
    exact ⟨columnCommandIssue_activates hs st alert repair there hq short pick hr,
      fun row at_ opened other => columnCommandIssue_precharges hs st alert repair there hq short pick hr opened other,
      fun at_ opened => columnCommandIssue_column hs st alert repair there hq short pick hr opened⟩
  · intro line e1 e2 k a b r x m issued own trk req asked read
    exact ⟨dramReadReturn_completes hs issued own trk req asked read, dramReadReturn_waits_completes hs issued own trk req asked read⟩

end Sys2Proof.Machine
end

section
namespace Sys2Proof.Machine

open Sys2Proof

/-! ## Training (R341 to R346, R481) -/

theorem State.persist_keeps (s : State) (k : Nat) (v : Bytes) :
    (s.persist k v).regs = s.regs ∧ (s.persist k v).blobs = s.blobs ∧ (s.persist k v).cellar.chans = s.cellar.chans := by
  have moved := State.persist_moves s k v
  exact ⟨moved.same (p := .regs) (by decide), moved.same (p := .blobs) (by decide), moved.same (p := .chans) (by decide)⟩

@[simp] theorem State.chan_setBlob (s : State) (k c : Nat) (v : Bytes) : (s.setBlob k v).chan c = s.chan c := rfl

/-- Results of sweeps are in use, and the trained group holds them. -/
theorem State.trained_keeps (s : State) (ch : Nat) (eyes : List Nat) (entries : Bytes) (osc : List Nat) :
    (s.trained ch eyes entries osc).chan ch = (s.chan ch).centred eyes entries osc ∧
      (s.trained ch eyes entries osc).blob (Obj.calTrained ch) = (s.chan ch).trainedGroup entries osc ∧
      (s.trained ch eyes entries osc).regs = s.regs := by
  obtain ⟨regs, blobs, chans⟩ := ((s.onChan ch fun c => c.centred eyes entries osc).setBlob (Obj.calTrained ch)
    ((s.chan ch).trainedGroup entries osc)).persist_keeps (Obj.calTrained ch) ((s.chan ch).trainedGroup entries osc)
  refine ⟨?_, ?_, regs⟩
  · exact (State.chan_congr chans ch).trans (by rw [State.chan_setBlob, State.chan_onChan, if_pos rfl])
  · rw [State.trained, State.blob, blobs, ← State.blob, State.blob_setBlob, if_pos rfl]

theorem State.chan_wantRetrain (s : State) (ch cause : Nat) :
    (s.wantRetrain ch cause).chan ch = { (s.chan ch) with want := if (s.chan ch).want = 0 then cause else (s.chan ch).want } := by
  simp [State.wantRetrain]

/-- A retrain puts the results of its sweeps in use as a training does, and a FULL writes the trained group too. -/
theorem State.recentred_keeps (s : State) (ch : Nat) (eyes : List Nat) (entries : Bytes) (osc : List Nat) (full : Bool) :
    let u := if full then s.trained ch eyes entries osc else s.onChan ch fun c => c.centred eyes entries osc
    u.chan ch = (s.chan ch).centred eyes entries osc ∧ (full = true → u.blob (Obj.calTrained ch) = (s.chan ch).trainedGroup entries osc) ∧
      u.regs = s.regs := by
  cases full with
  | true =>
    obtain ⟨chan, blob, regs⟩ := s.trained_keeps ch eyes entries osc
    exact ⟨chan, fun _ => blob, regs⟩
  | false => exact ⟨by simp, nofun, rfl⟩

@[simp] theorem State.chan_trainResult (s : State) (ch cause v c : Nat) : (s.trainResult ch cause v).chan c = s.chan c := by
  unfold State.trainResult
  split <;> rfl

/-- A command's retrain writes TRAIN_CMD's RESULT, and of the objects that one alone. -/
theorem State.reg_trainResult (s : State) (ch cause v k : Nat) :
    (s.trainResult ch cause v).reg k =
      if k = Obj.trainCmdResult ∧ (cause = 4 ∨ cause = 5) ∧ s.reg Obj.trainCmdChannel = ch then v else s.reg k := by
  unfold State.trainResult
  split
  · rename_i own
    have own' : (cause = 4 ∨ cause = 5) ∧ s.reg Obj.trainCmdChannel = ch := by simpa using own
    rw [State.reg_setReg]
    simp only [own', and_true]
  · rename_i other
    have other' : ¬ ((cause = 4 ∨ cause = 5) ∧ s.reg Obj.trainCmdChannel = ch) := by simpa using other
    rw [if_neg fun both => other' both.2]

@[simp] theorem State.blob_trainResult (s : State) (ch cause v k : Nat) : (s.trainResult ch cause v).blob k = s.blob k := by
  unfold State.trainResult
  split <;> rfl

@[simp] theorem State.reg_onChan (s : State) (ch k : Nat) (f : Chan → Chan) : (s.onChan ch f).reg k = s.reg k := rfl

@[simp] theorem State.reg_recovery (s : State) (k : Nat) : s.recovery.reg k = s.reg k := rfl

@[simp] theorem State.chan_recovery (s : State) (c : Nat) : s.recovery.chan c = s.chan c := rfl

/-- A READY channel starts the retrain that it wants while nothing of its group holds it up (R349, R381). -/
theorem State.retrain_due {s : State} {ch : Nat} (st : (s.chan ch).st = 4) (repair : (s.chan ch).repair = none)
    (want : (s.chan ch).want ≠ 0) (free : s.groupHolds ch = false) :
    ((s.chan ch).st != 4 || (s.chan ch).repair.isSome || (s.chan ch).want == 0 || s.groupHolds ch) = false := by
  simp [st, repair, want, free]

section Train
variable {s : State} {ch : Fin 48} (hs : s.running = true)
include hs

section Sweeps
variable {ok : Bool} {lanes : List LaneSweep} {osc eyes : List Nat} (st : (s.chan ch.val).st = 3) (idle : (s.chan ch.val).filling = false)
  (heyes : eyes = (s.chan ch.val).eyesOf ((s.chan ch.val).sweeps (s.chan ch.val).seed true lanes))
include st idle heyes

theorem channelTrainingDone_completes {entries : Bytes}
    (hentries : entries = entriesOf ((s.chan ch.val).sweeps (s.chan ch.val).seed true lanes)) (passed : (ok && s.eyesOk eyes) = true) :
    Completes (.channelTrainingDone ch ok lanes osc) s fun t =>
      t.chan ch.val = { (s.chan ch.val) with
        filling := true, eyes := eyes, entries := entries, wrDrift := {}, rdDrift := {}, oscBase := baselines osc } ∧
        t.blob (Obj.calTrained ch.val) = (s.chan ch.val).trainedGroup entries osc := by
  refine completes_live hs (by rw [exec, execChannelTrainingDone]) ?_
  obtain ⟨chan, blob, -⟩ := s.trained_keeps ch.val eyes entries osc
  have acts : ((s.chan ch.val).st != 3 || (s.chan ch.val).filling) = false := by simp [st, idle]
  simp only [acts, ← heyes, ← hentries, passed, Bool.false_eq_true, if_false, if_true, State.chan_onChan, chan]
  exact ⟨rfl, blob⟩

theorem channelTrainingDone_again_completes (failed : (ok && s.eyesOk eyes) = false) (first : (s.chan ch.val).reran = false) :
    Completes (.channelTrainingDone ch ok lanes osc) s fun t => t.chan ch.val = { (s.chan ch.val) with reran := true, eyes := eyes } := by
  refine completes_live hs (by rw [exec, execChannelTrainingDone]) ?_
  simp only [st, idle, ← heyes, failed, first, bne_self_eq_false, Bool.or_self, Bool.false_eq_true, if_false, if_true, State.chan_onChan]

theorem channelTrainingDone_fails_completes (failed : (ok && s.eyesOk eyes) = false) (second : (s.chan ch.val).reran = true) :
    Completes (.channelTrainingDone ch ok lanes osc) s fun t =>
      t = (s.onChan ch.val fun c => { c with eyes := eyes }).failChannel ch.val 1 := by
  refine completes_live hs (by rw [exec, execChannelTrainingDone]) ?_
  simp only [st, idle, ← heyes, failed, second, bne_self_eq_false, Bool.or_self, Bool.false_eq_true, if_false, if_true]

end Sweeps

theorem channelFillDone_completes (st : (s.chan ch.val).st = 3) (filling : (s.chan ch.val).filling = true) :
    Completes (.channelFillDone ch) s fun t => ∃ m : State,
      m.chan ch.val = { (s.chan ch.val) with st := 4, filling := false, scrub := 0, lastReq := s.now } ∧
        m.cellar.dram = s.cellar.dram.filter (fun x => x.1 / 2 ^ 40 != ch.val) ∧ t = m.startRebuilds.resumeMem := by
  refine completes_live hs (by rw [exec, execChannelFillDone]) ?_
  simp only [st, filling, bne_self_eq_false, Bool.not_true, Bool.or_self, Bool.false_eq_true, if_false]
  exact ⟨_, (State.chan_onChan _ _ _ _).trans (if_pos rfl), rfl, rfl⟩

section Drift
variable (st : (s.chan ch.val).st = 4)
include st

section Write
variable {rank : Fin 4} {change v : Int} (hv : v = (s.chan ch.val).wrDrift.getD rank.val 0 + change)
include hv

theorem dqsOscMeasure_completes (within : v.natAbs ≤ s.reg Obj.wrTrackRange) : Completes (.dqsOscMeasure ch rank change) s fun t =>
    t.chan ch.val = { (s.chan ch.val) with wrDrift := (s.chan ch.val).wrDrift.put rank.val v } := by
  refine completes_live hs (by rw [exec, execDqsOscMeasure]) ?_
  have kept : ¬ (s.reg Obj.wrTrackRange : Int) < v.natAbs := by omega
  simp only [st, ← hv, kept, bne_self_eq_false, Bool.false_eq_true, if_false, if_true, State.chan_countChan, State.chan_onChan]

theorem dqsOscMeasure_wants_completes (beyond : s.reg Obj.wrTrackRange < v.natAbs) : Completes (.dqsOscMeasure ch rank change) s fun t =>
    t.chan ch.val = { (s.chan ch.val) with want := if (s.chan ch.val).want = 0 then 1 else (s.chan ch.val).want } := by
  refine completes_live hs (by rw [exec, execDqsOscMeasure]) ?_
  have left : (s.reg Obj.wrTrackRange : Int) < v.natAbs := by omega
  have acts : ((s.chan ch.val).st != 4) = false := by simp [st]
  simp only [acts, ← hv, left, Bool.false_eq_true, if_false, if_true, State.chan_wantRetrain]

end Write

section Read
variable {lane : Fin 20} {off v : Int} (away : 2 ≤ off.natAbs)
  (hv : v = (s.chan ch.val).rdDrift.getD lane.val 0 + (if 0 < off then 1 else -1))
include away hv

theorem readCentreRecheck_completes (within : v.natAbs ≤ s.reg Obj.rdTrackRange) : Completes (.readCentreRecheck ch lane off) s fun t =>
    t.chan ch.val = { (s.chan ch.val) with
      rdDrift := if (s.chan ch.val).x8 then ((s.chan ch.val).rdDrift.put (lane.val / 2 * 2) v).put (lane.val / 2 * 2 + 1) v
        else (s.chan ch.val).rdDrift.put lane.val v } := by
  refine completes_live hs (by rw [exec, execReadCentreRecheck]) ?_
  have kept : ¬ (s.reg Obj.rdTrackRange : Int) < v.natAbs := by omega
  simp only [st, Nat.not_lt.mpr away, ← hv, kept, bne_self_eq_false, decide_false, Bool.or_self, Bool.false_eq_true, if_false, if_true,
    State.chan_countChan, State.chan_onChan]

theorem readCentreRecheck_wants_completes (beyond : s.reg Obj.rdTrackRange < v.natAbs) : Completes (.readCentreRecheck ch lane off) s fun t =>
    t.chan ch.val = { (s.chan ch.val) with want := if (s.chan ch.val).want = 0 then 1 else (s.chan ch.val).want } := by
  refine completes_live hs (by rw [exec, execReadCentreRecheck]) ?_
  have left : (s.reg Obj.rdTrackRange : Int) < v.natAbs := by omega
  have acts : ((s.chan ch.val).st != 4 || decide (off.natAbs < 2)) = false := by simp [st, Nat.lt_of_succ_le away]
  simp only [acts, ← hv, left, Bool.false_eq_true, if_false, if_true, State.chan_wantRetrain]

end Read

end Drift

/-! ## Retrains (R349 to R352, R381) -/

section Start
variable (st : (s.chan ch.val).st = 4) (repair : (s.chan ch.val).repair = none) (want : (s.chan ch.val).want ≠ 0)
  (free : s.groupHolds ch.val = false)
include st repair want free

theorem retrainStart_full_completes (full : (s.chan ch.val).want = 5) : Completes (.retrainStart ch) s fun t =>
    t.chan ch.val = { (s.chan ch.val) with
      st := 5, full := true, seed := (s.calStart ch.val (s.chan ch.val).maker (s.chan ch.val).serial).1,
      trim := (s.calStart ch.val (s.chan ch.val).maker (s.chan ch.val).serial).2,
      subs := (s.chan ch.val).subs.map fun q => { q with rows := {} } } ∧
      t.reg Obj.trainCmdResult = (if s.reg Obj.trainCmdChannel = ch.val then 0x01 else s.reg Obj.trainCmdResult) ∧
      s.regsBut [Obj.trainCmdResult] t := by
  refine completes_live hs (by rw [exec, execRetrainStart]) ?_
  have five : ((s.chan ch.val).want == 5) = true := by simp [full]
  simp only [State.retrain_due st repair want free, five, Bool.false_eq_true, if_false, if_true]
  refine ⟨by rw [State.chan_trainResult, State.chan_onChan, if_pos rfl]; rfl, ?_, fun k other => ?_⟩
  · rw [State.reg_trainResult]
    simp
  · rw [State.reg_trainResult, if_neg fun own => other (by simp [own.1]), State.reg_onChan, State.reg_recovery]

section Again
variable (again : (s.chan ch.val).want ≠ 5)
include again

theorem retrainStart_completes (room : (s.recentRetrains (s.chan ch.val)).length < s.reg Obj.retrainLimit) :
    Completes (.retrainStart ch) s fun t =>
      (t.chan ch.val).st = 5 ∧ (t.chan ch.val).retrains = satInc 32 (s.chan ch.val).retrains ∧
        (t.chan ch.val).times = s.recentRetrains (s.chan ch.val) ++ [s.nowMs] ∧ (t.chan ch.val).want = (s.chan ch.val).want ∧
        t.reg Obj.trainCmdResult =
          if (s.chan ch.val).want = 4 ∧ s.reg Obj.trainCmdChannel = ch.val then 0x01 else s.reg Obj.trainCmdResult := by
  refine completes_live hs (by rw [exec, execRetrainStart]) ?_
  simp only [State.retrain_due st repair want free, beq_false_of_ne again, Nat.not_le.mpr room, Bool.false_eq_true, if_false,
    State.chan_countChan, State.chan_trainResult, State.chan_onChan, if_true, State.chan_recovery, true_and]
  rw [State.reg_congr (State.countChan_regs _ _ _ _), State.reg_trainResult]
  simp [again]

theorem retrainStart_fails_completes (spent : s.reg Obj.retrainLimit ≤ (s.recentRetrains (s.chan ch.val)).length) :
    Completes (.retrainStart ch) s fun t => t = (s.trainResult ch.val (s.chan ch.val).want 0x04).failChannel ch.val 2 := by
  refine completes_live hs (by rw [exec, execRetrainStart]) ?_
  simp only [State.retrain_due st repair want free, beq_false_of_ne again, spent, Bool.false_eq_true, if_false, if_true]

end Again

end Start

section Done
variable {lanes : List LaneSweep} {osc eyes : List Nat} {f : List (Option EyeWindow × Option EyeWindow)} (st : (s.chan ch.val).st = 5)
  (hf : f = if (s.chan ch.val).full then (s.chan ch.val).sweeps (s.chan ch.val).seed true lanes
    else (s.chan ch.val).sweeps (some (s.chan ch.val).present) false lanes) (heyes : eyes = (s.chan ch.val).eyesOf f)
include st hf heyes

theorem retrainDone_completes (passed : s.eyesOk eyes = true) : Completes (.retrainDone ch lanes osc) s fun t => ∃ m : State,
    (m.chan ch.val).st = 4 ∧ (m.chan ch.val).want = 0 ∧ (m.chan ch.val).full = false ∧ (m.chan ch.val).eyes = eyes ∧
      (m.chan ch.val).entries = entriesOf f ∧ (m.chan ch.val).wrDrift = {} ∧ (m.chan ch.val).rdDrift = {} ∧
      ((s.chan ch.val).full = true → m.blob (Obj.calTrained ch.val) = (s.chan ch.val).trainedGroup (entriesOf f) osc) ∧
      m.reg Obj.trainCmdResult =
        (if ((s.chan ch.val).want = 4 ∨ (s.chan ch.val).want = 5) ∧ s.reg Obj.trainCmdChannel = ch.val then 0x00
          else s.reg Obj.trainCmdResult) ∧ t = m.resumeMem := by
  refine completes_live hs (by rw [exec, execRetrainDone]) ?_
  simp only [st, ← hf, ← heyes, passed, bne_self_eq_false, Bool.false_eq_true, if_false, if_true]
  obtain ⟨chan, blob, regs⟩ := s.recentred_keeps ch.val eyes (entriesOf f) osc (s.chan ch.val).full
  generalize (if (s.chan ch.val).full = true then _ else _ : State) = u at chan blob regs ⊢
  have served : ((u.onChan ch.val fun c => { c with st := 4, full := false, want := 0, ceTimes := [] }).trainResult ch.val
      (s.chan ch.val).want 0).chan ch.val =
      { (s.chan ch.val).centred eyes (entriesOf f) osc with st := 4, full := false, want := 0, ceTimes := [] } := by
    rw [State.chan_trainResult, State.chan_onChan, if_pos rfl, chan]
  refine ⟨_, congrArg Chan.st served, congrArg Chan.want served, congrArg Chan.full served, congrArg Chan.eyes served,
    congrArg Chan.entries served, congrArg Chan.wrDrift served, congrArg Chan.rdDrift served,
    fun full => (State.blob_trainResult _ _ _ _ _).trans (blob full), ?_, rfl⟩
  rw [State.reg_trainResult]
  simp [State.reg_congr regs]

theorem retrainDone_fails_completes (failed : s.eyesOk eyes = false) : Completes (.retrainDone ch lanes osc) s fun t =>
    t = ((s.onChan ch.val fun c => { c with eyes := eyes }).trainResult ch.val (s.chan ch.val).want 0x04).failChannel ch.val 1 := by
  refine completes_live hs (by rw [exec, execRetrainDone]) ?_
  simp only [st, ← hf, ← heyes, failed, bne_self_eq_false, Bool.false_eq_true, if_false]

end Done

end Train

/-! ## TRAIN_CMD (R349, R352, R358) -/

/-- Either command asks its channel for a retrain, and RESULT says whether it waits for the channel's group. -/
theorem trainCmd_completes {c : Instr} {s : State} {ch code cause : Nat} (hs : s.accepts Obj.trainCmdResult)
    (hc : exec c s = record s Obj.trainCmdOp Obj.trainCmdResult code fun s => s.trainCmd cause) (hch : ch = s.reg Obj.trainCmdChannel)
    (present : ch < 48) (st : (s.chan ch).st = 4 ∨ (s.chan ch).st = 6) : Completes c s fun t =>
      t.chan ch = { (s.chan ch) with want := cause } ∧ t.reg Obj.trainCmdResult = (if s.groupHolds ch then 0x03 else 0x01) ∧
        s.regsBut [Obj.trainCmdOp, Obj.trainCmdResult] t := by
  refine completes_record hs hc ?_
  have named : (s.setReg Obj.trainCmdOp code).reg Obj.trainCmdChannel = ch := by
    rw [State.reg_setReg, if_neg (by decide), hch]
  have lives : ((s.chan ch).st == 7) = false := by rcases st with st | st <;> simp [st]
  have serves : (!((s.chan ch).st == 4 || (s.chan ch).st == 6) || decide (48 ≤ ch)) = false := by
    rcases st with st | st <;> simp [st, present]
  have holds : (s.setReg Obj.trainCmdOp code).groupHolds ch = s.groupHolds ch := rfl
  simp only [State.trainCmd, named, State.chan_setReg, lives, serves, holds, Bool.false_eq_true, if_false]
  refine ⟨by rw [State.chan_onChan, if_pos rfl, State.chan_setReg], by rw [State.reg_setReg, if_pos rfl], fun k other => ?_⟩
  simp only [List.mem_cons, List.not_mem_nil, or_false, not_or] at other
  rw [State.reg_setReg, if_neg other.2, State.reg_onChan, State.reg_setReg, if_neg other.1]

/-! ## Sidebands (R353 to R355, R358) -/

@[simp] theorem State.countBus_regs (s : State) (b sel : Nat) : (s.countBus b sel).regs = s.regs := State.count_regs _ _ _ _ _

@[simp] theorem State.countBus_out (s : State) (b sel : Nat) : (s.countBus b sel).out = s.out := State.count_out _ _ _ _ _

@[simp] theorem State.bus_countBus (s : State) (b sel c : Nat) : (s.countBus b sel).bus c = s.bus c := by
  rw [State.bus, State.countBus, State.count_cellar, State.bus]

@[simp] theorem State.bus_setReg (s : State) (k v b : Nat) : (s.setReg k v).bus b = s.bus b := rfl

@[simp] theorem State.bus_setBlob (s : State) (k b : Nat) (v : Bytes) : (s.setBlob k v).bus b = s.bus b := rfl

@[simp] theorem State.bus_emit (s : State) (o : Out) (b : Nat) : (s.emit o).bus b = s.bus b := rfl

@[simp] theorem State.bus_irqEdge (s : State) (src b : Nat) : (s.irqEdge src).bus b = s.bus b := rfl

@[simp] theorem State.reg_onBus (s : State) (b k : Nat) (f : Bus → Bus) : (s.onBus b f).reg k = s.reg k := rfl

@[simp] theorem State.reg_emit (s : State) (o : Out) (k : Nat) : (s.emit o).reg k = s.reg k := rfl

@[simp] theorem State.blob_onBus (s : State) (b k : Nat) (f : Bus → Bus) : (s.onBus b f).blob k = s.blob k := rfl

/-- A transfer of SB_CMD ends: its bus is free, RESULT says whether it was answered, and a read's data stand in the record. -/
theorem State.sbTransfer_ends (s : State) (write : Bool) (answer : Option Bytes) :
    let ch := s.reg Obj.sbCmdChannel
    let n := s.reg Obj.sbCmdLen
    let t := s.sbTransfer write answer
    t.out = .sideband (ch / 8) ch (s.reg Obj.sbCmdTarget) (s.reg Obj.sbCmdReg) write
      (if write then sliceBytes (s.blob Obj.sbCmdData) 0 n else []) :: s.out ∧
      (∀ k, t.reg k = if k = Obj.sbCmdResult then (if answer.isSome then 0x00 else 0x02) else s.reg k) ∧
      t.bus (ch / 8) = { (s.bus (ch / 8)) with busy := false, losses := 0 } ∧
      (write = false → ∀ d, answer = some d → t.blob Obj.sbCmdData = padBytes 64 (d.take n)) := by
  cases answer with
  | none =>
    refine ⟨?_, fun k => ?_, ?_, nofun⟩
    · simp [State.sbTransfer, State.emit]
    · simp [State.sbTransfer, State.reg_congr (State.countBus_regs _ _ _)]
    · simp [State.sbTransfer]
  | some d =>
    refine ⟨?_, fun k => ?_, ?_, fun read d' answer => ?_⟩
    · cases write <;> simp [State.sbTransfer, State.emit]
    · cases write <;> simp [State.sbTransfer]
    · cases write <;> simp [State.sbTransfer]
    · obtain rfl := Option.some.inj answer
      simp [State.sbTransfer, read]

/-- The fields of SB_CMD are as they were once its OP is written. -/
theorem State.sb_setOp (s : State) (code : Nat) :
    (s.setReg Obj.sbCmdOp code).reg Obj.sbCmdChannel = s.reg Obj.sbCmdChannel ∧
      (s.setReg Obj.sbCmdOp code).reg Obj.sbCmdLen = s.reg Obj.sbCmdLen ∧
      (s.setReg Obj.sbCmdOp code).reg Obj.sbCmdTarget = s.reg Obj.sbCmdTarget ∧
      (s.setReg Obj.sbCmdOp code).reg Obj.sbCmdReg = s.reg Obj.sbCmdReg ∧
      ∀ write, (s.setReg Obj.sbCmdOp code).sbValid write = s.sbValid write := by
  have kept : ∀ k, k ≠ Obj.sbCmdOp → (s.setReg Obj.sbCmdOp code).reg k = s.reg k := fun k other => by rw [State.reg_setReg, if_neg other]
  have channel := kept Obj.sbCmdChannel (by decide)
  have len := kept Obj.sbCmdLen (by decide)
  have target := kept Obj.sbCmdTarget (by decide)
  exact ⟨channel, len, target, kept Obj.sbCmdReg (by decide),
    fun write => by simp only [State.sbValid, channel, len, target, State.chan_setReg]⟩

section Sideband
variable {s : State} {c : Instr} {ch n k r code : Nat} (hs : s.accepts Obj.sbCmdResult) (hch : ch = s.reg Obj.sbCmdChannel)
  (hn : n = s.reg Obj.sbCmdLen) (hk : k = s.reg Obj.sbCmdTarget) (hr : r = s.reg Obj.sbCmdReg)
include hs hch hn hk hr

/-- An SB_CMD with valid fields that loses no arbitration is made and ends in one. -/
theorem sbCmd_completes {write : Bool} {answer : Option Bytes}
    (hc : exec c s = record s Obj.sbCmdOp Obj.sbCmdResult code fun s => s.sbStart write false answer) (valid : s.sbValid write = true) :
    Completes c s fun t =>
      t.reg Obj.sbCmdResult = (if answer.isSome then 0x00 else 0x02) ∧
        t.out = .sideband (ch / 8) ch k r write (if write then sliceBytes (s.blob Obj.sbCmdData) 0 n else []) :: s.out ∧
        s.regsBut [Obj.sbCmdOp, Obj.sbCmdResult] t ∧
        (write = false → ∀ d, answer = some d → t.blob Obj.sbCmdData = padBytes 64 (d.take n)) := by
  refine completes_record hs hc ?_
  obtain ⟨channel, len, target, register, valid'⟩ := s.sb_setOp code
  obtain ⟨out, regs, -, data⟩ := (s.setReg Obj.sbCmdOp code).sbTransfer_ends write answer
  simp only [channel, len, target, register, ← hch, ← hn, ← hk, ← hr, State.blob_setReg, State.setReg_out] at out data
  simp only [State.sbStart, valid', valid, Bool.not_true, Bool.false_and, Bool.false_eq_true, if_false]
  refine ⟨by rw [regs, if_pos rfl], out, fun k other => ?_, data⟩
  simp only [List.mem_cons, List.not_mem_nil, or_false, not_or] at other
  rw [regs, if_neg other.2, State.reg_setReg, if_neg other.1]

theorem sbRead_completes {d : Bytes} (valid : s.sbValid false = true) : Completes (.sbRead false (some d)) s fun t =>
    t.blob Obj.sbCmdData = padBytes 64 (d.take n) ∧ t.reg Obj.sbCmdResult = 0x00 ∧
      t.out = .sideband (ch / 8) ch k r false [] :: s.out ∧ s.regsBut [Obj.sbCmdOp, Obj.sbCmdResult] t := by
  obtain ⟨t, done, result, out, regs, data⟩ := sbCmd_completes (c := .sbRead false (some d)) hs hch hn hk hr (by rw [exec, execSbRead]) valid
  exact ⟨t, done, data rfl d rfl, result, out, regs⟩

theorem sbWrite_completes {acked : Bool} (valid : s.sbValid true = true) : Completes (.sbWrite false acked) s fun t =>
    t.reg Obj.sbCmdResult = (if acked then 0x00 else 0x02) ∧
      t.out = .sideband (ch / 8) ch k r true (sliceBytes (s.blob Obj.sbCmdData) 0 n) :: s.out ∧
      s.regsBut [Obj.sbCmdOp, Obj.sbCmdResult] t := by
  obtain ⟨t, done, result, out, regs, -⟩ := sbCmd_completes (c := .sbWrite false acked) hs hch hn hk hr (by rw [exec, execSbWrite]) valid
  refine ⟨t, done, ?_, out, regs⟩
  cases acked with
  | true => exact result
  | false => exact result

end Sideband

/-- The sensor reads that waited for a bus are made, and change no bus and no object but its queue. -/
theorem State.busFree_empties (s : State) (b : Nat) :
    (s.busFree b).bus b = { (s.bus b) with queue := [] } ∧ (s.busFree b).regs = s.regs := by
  refine ⟨?_, (State.busFree_moves s b).same (p := .regs) (by decide)⟩
  have moved := Moves.foldl (f := fun (s : State) (x : Nat × Int) => s.dimmTemp x.1 x.2) (l := (s.bus b).queue)
    (fun v x => State.dimmTemp_moves v x.1 x.2) (Moves.refl _ (s.onBus b fun x => { x with queue := [] }))
  have buses := moved.same (p := .buses) (by decide)
  rw [State.busFree, State.bus, buses, ← State.bus, State.bus_onBus, if_pos rfl]

section Bus
variable {s : State} {bus : Fin 6} (hs : s.running = true)
include hs

section Lost
variable (mode : s.inForce (Obj.sbMode bus.val) = 0)
include mode

theorem sbArbLost_completes (few : (s.bus bus.val).losses < 7) : Completes (.sbArbLost bus) s fun t =>
    t.bus bus.val = { (s.bus bus.val) with losses := (s.bus bus.val).losses + 1 } := by
  refine completes_live hs (by rw [exec, execSbArbLost]) ?_
  have again : (s.bus bus.val).losses + 1 < 8 := by omega
  simp only [mode, beq_self_eq_true, if_true, State.arbLost, again, State.bus_onBus, State.bus_countBus]

theorem sbArbLost_fails_completes (many : 7 ≤ (s.bus bus.val).losses) : Completes (.sbArbLost bus) s fun t =>
    t.bus bus.val = { (s.bus bus.val) with losses := 0, busy := false, queue := [] } ∧
      t.reg Obj.sbCmdResult = if (s.bus bus.val).busy then 0x03 else s.reg Obj.sbCmdResult := by
  refine completes_live hs (by rw [exec, execSbArbLost]) ?_
  have last : ¬ (s.bus bus.val).losses + 1 < 8 := by omega
  simp only [mode, beq_self_eq_true, if_true, State.arbLost, last, if_false, State.bus_countBus]
  generalize hm : State.irqEdge _ _ = m
  have ended : m.bus bus.val = { (s.bus bus.val) with losses := 0, busy := false } := by simp [← hm]
  have same : m.regs = s.regs := by simp [← hm]
  obtain ⟨freed, kept⟩ := m.busFree_empties bus.val
  rw [ended] at freed
  have regs := State.reg_congr (kept.trans same)
  split
  · exact ⟨freed, by rw [State.reg_setReg, if_pos rfl]⟩
  · exact ⟨freed, regs _⟩

end Lost

theorem sbBackoffExpiry_completes {answer : Option Bytes} (busy : (s.bus bus.val).busy = true)
    (own : s.reg Obj.sbCmdChannel / 8 = bus.val) : Completes (.sbBackoffExpiry bus answer) s fun t =>
      t.bus bus.val = { (s.bus bus.val) with busy := false, losses := 0, queue := [] } ∧
        t.reg Obj.sbCmdResult = if answer.isSome then 0x00 else 0x02 := by
  refine completes_live hs (by rw [exec, execSbBackoffExpiry]) ?_
  obtain ⟨-, regs, ended, -⟩ := s.sbTransfer_ends (s.reg Obj.sbCmdOp == 2) answer
  obtain ⟨freed, same⟩ := (s.sbTransfer (s.reg Obj.sbCmdOp == 2) answer).busFree_empties bus.val
  rw [own] at ended
  simp only [busy, if_true]
  refine ⟨by rw [freed, ended], ?_⟩
  rw [State.reg_congr same, regs, if_pos rfl]

theorem sbBusRecovery_completes : Completes (.sbBusRecovery bus) s fun t =>
    t.bus bus.val = { (s.bus bus.val) with recoveries := (s.bus bus.val).recoveries + 1 } ∧ t.out = .sbRecover bus.val :: s.out := by
  refine completes_live hs (by rw [exec, execSbBusRecovery]) ?_
  exact ⟨by simp, by simp [State.emit]⟩

end Bus

/-- Settles O38: a sweep's results, a drift, a retrain and a transfer each have the outcome that their rule gives, on the channel and on the
bus that they name. -/
theorem trainingAndSidebandComplete : Obligations.TrainingAndSidebandComplete := by
  unfold Obligations.TrainingAndSidebandComplete
  refine ⟨?_, fun s ch hs hch present st =>
      ⟨trainCmd_completes hs (by rw [exec, execTrainRetrain]) hch present st, trainCmd_completes hs (by rw [exec, execTrainFull]) hch present st⟩,
    fun s ch n k r hs hch hn hk hr =>
      ⟨fun d valid => sbRead_completes hs hch hn hk hr valid, fun acked valid => sbWrite_completes hs hch hn hk hr valid⟩,
    fun s bus hs => ⟨fun mode => ⟨sbArbLost_completes hs mode, sbArbLost_fails_completes hs mode⟩, fun answer busy own => ?_,
      sbBusRecovery_completes hs⟩⟩
  · rintro s ch c hs rfl
    refine ⟨fun ok lanes osc eyes entries st idle heyes hentries => ⟨channelTrainingDone_completes hs st idle heyes hentries,
        channelTrainingDone_again_completes hs st idle heyes, channelTrainingDone_fails_completes hs st idle heyes⟩,
      channelFillDone_completes hs,
      fun st => ⟨fun rank change v hv => ⟨dqsOscMeasure_completes hs st hv, dqsOscMeasure_wants_completes hs st hv⟩,
        fun lane off v away hv => ⟨readCentreRecheck_completes hs st away hv, readCentreRecheck_wants_completes hs st away hv⟩⟩,
      fun st repair want free => ⟨retrainStart_full_completes hs st repair want free, retrainStart_completes hs st repair want free,
        retrainStart_fails_completes hs st repair want free⟩,
      fun lanes osc eyes f st hf heyes => ⟨retrainDone_completes hs st hf heyes, retrainDone_fails_completes hs st hf heyes⟩⟩
  · cases answer with
    | none => exact sbBackoffExpiry_completes hs busy own
    | some d => exact sbBackoffExpiry_completes hs busy own

end Sys2Proof.Machine
end

section

/-! Every command, taken whole, changes only the parts that `touches` names for it, keeps what has left the package and keeps the state sound
(O51): one lemma for each command, put together from the lemmas on its operations, then the step. -/

namespace Sys2Proof.Machine

open Sys2Proof

-- One proof after the other: in parallel, each waits in a thread of its own, and their stacks exceed the memory's limit.
set_option Elab.async false

/-! ## Moves in sequence, and what an answer moves

A command's lemma follows its meaning: `.of` cites an operation that ends it, `.after` one that comes on top of others, `.seq` joins two parts.
The `conv` that opens it reads the parts off `touches`, so that the side conditions compare lists of parts. -/

theorem Moves.of {ps qs : List Part} {s t : State} (h : Moves qs s t) (k : Part.within qs ps = true := by rfl) : Moves ps s t := h.mono k

theorem Moves.after {ps qs : List Part} {s u t : State} (h : Moves qs u t) (b : Moves ps s u) (k : Part.within qs ps = true := by rfl) :
    Moves ps s t :=
  b.trans (h.mono k)

theorem Moves.seq {ps : List Part} {s u t : State} (h : Moves ps u t) (b : Moves ps s u) : Moves ps s t := b.trans h

/-- A command that goes on, goes on to a state that it may move to. -/
def AnswerMoves (ps : List Part) (s : State) (o : Host.Outcome State Fault Refusal) : Prop := ∀ t, o = .next t → Moves ps s t

theorem AnswerMoves.next {ps s t} (h : Moves ps s t) : AnswerMoves ps s (.next t) := by
  rintro u ⟨⟩; exact h

theorem AnswerMoves.guarded {ps s t} {c : Prop} [Decidable c] (h : Moves ps s t) : AnswerMoves ps s (.next (if c then t else s)) :=
  .next (.ite h (.refl ..))

/-! ### Commands that a state may pass over, and command records -/

theorem live_moves {ps s f} (h : ∀ s, Moves ps s (f s)) : AnswerMoves ps s (live s f) := .guarded (h s)
theorem managed_moves {ps s f} (h : ∀ s, Moves ps s (f s)) : AnswerMoves ps s (managed s f) := .guarded (h s)
theorem awake_moves {ps s f} (h : ∀ s, Moves ps s (f s)) : AnswerMoves ps s (awake s f) := .guarded (h s)
theorem dict_moves {ps s f} (h : ∀ s, Moves ps s (f s)) : AnswerMoves ps s (dict s f) := .guarded (h s)
theorem ikEvent_moves {ps s f} (h : ∀ s, Moves ps s (f s)) : AnswerMoves ps s (ikEvent s f) := .guarded (h s)

theorem record_moves {ps s op result code f} (h : ∀ s, Moves ps s (f s)) (k : Part.within [.regs] ps = true := by rfl) :
    AnswerMoves ps s (record s op result code f) :=
  .guarded <| .seq (h _) <| .of (State.setReg_moves ..) k

theorem fwCmd_moves {ps s code f} (h : ∀ s, Moves ps s (f s)) (k : Part.within [.regs] ps = true := by rfl) :
    AnswerMoves ps s (fwCmd s code f) :=
  .guarded <| .seq (h _) <| .of (State.setReg_moves ..) k

theorem linkCmd_moves {ps s code f} (h : ∀ l s, Moves ps s (f l s)) (k : Part.within [.regs] ps = true := by rfl) :
    AnswerMoves ps s (linkCmd s code f) :=
  record_moves (fun _ => .ite (h ..) (.of (State.setReg_moves ..) k)) k

theorem pkeyCmd_moves {ps s code f} (h : ∀ s l p, Moves ps s (f s l p)) (k : Part.within [.regs] ps = true := by rfl) :
    AnswerMoves ps s (pkeyCmd s code f) :=
  record_moves (fun _ => .ite (.of (State.setReg_moves ..) k) (h ..)) k

theorem ctrCmd_moves {ps s code f} (h : ∀ d c s, Moves ps s (f d c s)) (k : Part.within [.regs] ps = true := by rfl) :
    AnswerMoves ps s (ctrCmd s code f) :=
  record_moves (fun _ => .ite (.of (State.ctrResult_moves ..) k) <| .ite (.of (State.ctrResult_moves ..) k) (h ..)) k

theorem mgrCmd_moves {ps s code f} (h : ∀ s, Moves ps s (f s)) (k : Part.within [.regs, .free] ps = true := by rfl) :
    AnswerMoves ps s (mgrCmd s code f) :=
  have k' : Part.within [.regs] ps = true := Part.within_trans rfl k
  record_moves (fun _ => .ite (.of (State.guestResult_moves ..) k') <| .ite (.of (State.refuseGuestCmd_moves ..) k) (h ..)) k'

theorem ikDieCmd_moves {ps s code f} (h : ∀ s d, Moves ps s (f s d)) (k : Part.within [.regs] ps = true := by rfl) :
    AnswerMoves ps s (ikDieCmd s code f) :=
  record_moves (fun _ => .ite (.of (State.ikResult_moves ..) k) <| .ite (.of (State.ikResult_moves ..) k) <|
    .after (State.ikResult_moves ..) (h ..) k) k

theorem irqCmd_moves {ps s code f} (h : ∀ s n, Moves ps s (f s n)) (k : Part.within [.regs] ps = true := by rfl) :
    AnswerMoves ps s (irqCmd s code f) :=
  record_moves (fun _ => .ite (.of (State.setReg_moves ..) k) (.after (State.setReg_moves ..) (h ..) k)) k

theorem pigeonCmd_moves {ps s code f} (h : ∀ s n, Moves ps s (f s n)) (k : Part.within [.regs] ps = true := by rfl) :
    AnswerMoves ps s (pigeonCmd s code f) :=
  record_moves (fun _ => .ite (.of (State.setReg_moves ..) k) (h ..)) k

theorem eccCmd_moves {ps s code useCo raw ready f} (h : ∀ s ch line, Moves ps s (f s ch line))
    (k : Part.within [.regs] ps = true := by rfl) :
    AnswerMoves ps s (eccCmd s code useCo raw ready f) :=
  record_moves (fun _ => .ite (.of (State.eccResult_moves ..) k) <| .ite (.of (State.eccResult_moves ..) k) <|
    .ite (.of (State.eccResult_moves ..) k) (h ..)) k

theorem hearthCmd_moves {ps s code f} (h : ∀ s, Moves ps s (f s)) (k : Part.within [.regs] ps = true := by rfl) :
    AnswerMoves ps s (hearthCmd s code f) :=
  record_moves h k

theorem routeCmd_moves {ps s code f} (h : ∀ s, Moves ps s (f s)) (k : Part.within [.regs] ps = true := by rfl) :
    AnswerMoves ps s (routeCmd s code f) :=
  record_moves h k

theorem gmapCmd_moves {ps s code f} (h : ∀ s, Moves ps s (f s)) (k : Part.within [.regs] ps = true := by rfl) :
    AnswerMoves ps s (gmapCmd s code f) :=
  record_moves h k

/-! ### Counters in range -/

/-- A counter holds a COUNT in range, whether or not it has a row of its own. -/
theorem State.count_lt_of_sound {s : State} (h : s.obs.Sound) (d c : Nat) : (s.ctr d c).count < 2 ^ 48 := by
  obtain ⟨-, -, -, rows⟩ := h
  cases found : s.obs.ctrs.find (ctrKey d c) with
  | none => simp [State.ctr, Tab.getD, found]
  | some x => simpa [State.ctr, Tab.getD, found] using rows _ (mem_rows_of_find found)

/-- Counters cleared are in range, as those that stay are. -/
theorem Obs.sound_clear {o : Obs} (h : o.Sound) (hit : Nat → Bool) :
    ({ o with ctrs := o.ctrs.map fun k c => if hit k then { c with count := 0, ovf := false } else c } : Obs).Sound := by
  obtain ⟨log, preserved, tail, rows⟩ := h
  refine ⟨log, preserved, tail, fun r hr => ?_⟩
  obtain ⟨x, hx, rfl⟩ := List.mem_map.mp hr
  dsimp only
  split
  · exact Nat.two_pow_pos 48
  · exact rows x hx

/-- A packet that a port takes, whatever its kind. -/
theorem received_moves {f : State → State} (h : ∀ s, ∃ l p m, f s = s.receive l p m) (s) : AnswerMoves portParts s (live s f) :=
  live_moves fun s => by
    obtain ⟨l, p, m, eq⟩ := h s
    exact eq ▸ .of (State.receive_moves ..)

/-! ## The commands, chapter by chapter -/

/-! ### Power, resets and tamper (R393, R407, R413, R508) -/

theorem execPowerOn_moves (s) : AnswerMoves (touches .powerOn) s (execPowerOn s) := by
  conv => arg 1; whnf
  exact .next <| .ite (.refl ..) <| .of (State.offPower_moves ..)

theorem execResetNFall_moves (s) : AnswerMoves (touches .resetNFall) s (execResetNFall s) := by
  conv => arg 1; whnf
  refine .next ?_
  dsimp only
  exact .ite (.refl ..) <| .seq (.ite (.refl ..) <| .of (State.enterReset_moves ..)) <| .record <| .refl ..

theorem execPwrGoodFall_moves (s) : AnswerMoves (touches .pwrGoodFall) s (execPwrGoodFall s) := by
  conv => arg 1; whnf
  refine .next ?_
  dsimp only
  exact .ite (.refl ..) <| .seq (.ite (.refl ..) <| .of (State.enterReset_moves ..)) <| .record <| .refl ..

theorem execResetRelease_moves (early late present s) :
    AnswerMoves (touches (.resetRelease early late present)) s (execResetRelease early late present s) := by
  conv => arg 1; whnf
  refine .next ?_
  dsimp only
  exact .ite (.refl ..) <| .record <| .refl ..

theorem execSecureBoot_moves (ik0 ik1 dimms s) : AnswerMoves (touches (.secureBoot ik0 ik1 dimms)) s (execSecureBoot ik0 ik1 dimms s) := by
  conv => arg 1; whnf
  refine awake_moves fun s => ?_
  dsimp only
  refine .ite (.refl ..) ?_
  split
  · exact .record <| .refl ..
  · refine .seq ?_ <| .of (State.packageKeys_moves ..)
    split
    · exact .record <| .refl ..
    · exact .after (State.openMin_moves ..) <| .after (State.bootLinks_moves ..) <| .after (State.bootMap_moves ..) <|
        .after (State.bootCellar_moves ..) <| .after (State.saveHistory_moves ..) <| .after (State.replay_moves ..) <|
        .after (State.noteSlot_moves ..) <| .of (State.bootIk_moves ..)

theorem execColdReset_moves (s) : AnswerMoves (touches .coldReset) s (execColdReset s) := by
  conv => arg 1; whnf
  refine record_moves fun s => ?_
  dsimp only
  exact .after (State.setReg_moves ..) <| .record <| .refl ..

theorem execColdResetDelayExpiry_moves (s) : AnswerMoves (touches .coldResetDelayExpiry) s (execColdResetDelayExpiry s) := by
  conv => arg 1; whnf
  exact awake_moves fun s => .ite (.of (State.enterReset_moves ..)) (.refl ..)

theorem execTamper_moves (cause s) : AnswerMoves (touches (.tamper cause)) s (execTamper cause s) := by
  conv => arg 1; whnf
  exact .next <| .ite (.refl ..) <| .of (State.halt_moves ..)

/-! ### Guests, their swaps and set formation (R10 to R48) -/

theorem execDefine_moves (s) : AnswerMoves (touches .define) s (execDefine s) := by
  conv => arg 1; whnf
  exact mgrCmd_moves fun s => .ite (.of (State.refuseGuestCmd_moves ..)) <| .ite (.of (State.guestResult_moves ..)) <|
    .ite (.of (State.guestResult_moves ..)) <| .after (State.guestPending_moves ..) <| .of (State.defineGuest_moves ..)

theorem execPin_moves (s) : AnswerMoves (touches .pin) s (execPin s) := by
  conv => arg 1; whnf
  refine record_moves fun s => ?_
  dsimp only
  exact .ite (.of (State.guestResult_moves ..)) <| .ite (.of (State.guestResult_moves ..)) <| .ite (.of (State.guestResult_moves ..)) <|
    .ite (.after (State.guestResult_moves ..) <| .of (State.onGuest_moves ..)) <| .after (State.guestResult_moves ..) <| .record <|
    .of (State.startSwap_moves ..)

theorem execUnpin_moves (s) : AnswerMoves (touches .unpin) s (execUnpin s) := by
  conv => arg 1; whnf
  exact record_moves fun s => .ite (.of (State.guestResult_moves ..)) <| .after (State.guestResult_moves ..) <| .of (State.onGuest_moves ..)

theorem execWindowSet_moves (s) : AnswerMoves (touches .windowSet) s (execWindowSet s) := by
  conv => arg 1; whnf
  refine mgrCmd_moves fun s => ?_
  dsimp only
  exact .ite (.of (State.guestResult_moves ..)) <| .ite (.of (State.guestResult_moves ..)) <| .after (State.guestPending_moves ..) <|
    .of (State.onGuest_moves ..)

theorem execWindowClear_moves (s) : AnswerMoves (touches .windowClear) s (execWindowClear s) := by
  conv => arg 1; whnf
  refine mgrCmd_moves fun s => ?_
  dsimp only
  exact .ite (.of (State.guestResult_moves ..)) <| .ite (.of (State.guestResult_moves ..)) <| .after (State.guestPending_moves ..) <|
    .of (State.onGuest_moves ..)

theorem execGuestQuery_moves (s) : AnswerMoves (touches .guestQuery) s (execGuestQuery s) := by
  conv => arg 1; whnf
  exact record_moves fun s => .after (State.guestResult_moves ..) <| .after (State.setReg_moves ..) <| .of (State.setReg_moves ..)

theorem execSetPkey_moves (s) : AnswerMoves (touches .setPkey) s (execSetPkey s) := by
  conv => arg 1; whnf
  exact mgrCmd_moves fun s => .ite (.of (State.guestResult_moves ..)) <| .ite (.of (State.guestResult_moves ..)) <|
    .after (State.guestPending_moves ..) <| .of (State.onGuest_moves ..)

theorem execGuestCmdApplied_moves (s) : AnswerMoves (touches .guestCmdApplied) s (execGuestCmdApplied s) := by
  conv => arg 1; whnf
  refine managed_moves fun s => ?_
  dsimp only
  exact .ite (.after (State.guestResult_moves ..) <| .record <| .refl ..) (.refl ..)

theorem execGuestSwapDone_moves (gid s) : AnswerMoves (touches (.guestSwapDone gid)) s (execGuestSwapDone gid s) := by
  conv => arg 1; whnf
  refine live_moves fun s => ?_
  dsimp only
  split
  · exact .refl ..
  · exact .ite (.refl ..) <| .seq (.after (State.resume_moves ..) <| .after (State.endPin_moves ..) <|
      .ite (.after (State.checkEntry_moves ..) <| .of (State.touchGuest_moves ..)) (.refl ..)) <| .after (State.onGuest_moves ..) <|
      .of (State.endSwap_moves ..)

theorem execGuestSwapHoldExpiry_moves (gid s) : AnswerMoves (touches (.guestSwapHoldExpiry gid)) s (execGuestSwapHoldExpiry gid s) := by
  conv => arg 1; whnf
  refine live_moves fun s => ?_
  dsimp only
  split
  · exact .refl ..
  · exact .ite (.refl ..) <| .ite (.of (State.swapSlot_moves ..)) <| .seq (.seq (.seq (.after (State.endPin_moves ..) <|
      .foldl (fun _ _ => .of (State.streamError_moves ..)) <| .refl ..) <| .foldl (fun _ _ => .of (State.noSwapWb_moves ..)) <|
      .refl ..) <| .foldl (fun _ _ => .of (State.endReq_moves ..)) <| .refl ..) <| .after (State.countLedger_moves ..) <|
      .of (State.endSwap_moves ..)

theorem execSwapVictimEligible_moves (s) : AnswerMoves (touches .swapVictimEligible) s (execSwapVictimEligible s) := by
  conv => arg 1; whnf
  refine live_moves fun s => .foldl (fun s g => ?_) (.refl ..)
  split
  · exact .of (State.swapSlot_moves ..)
  · exact .refl ..

theorem execAnnounceSend_moves (s) : AnswerMoves (touches .announceSend) s (execAnnounceSend s) := by
  conv => arg 1; whnf
  refine managed_moves fun s => ?_
  dsimp only
  exact .ite (.refl ..) <| .seq (.ite (.of (State.enterServing_moves ..)) <|
    .seq (.seq (.seq (.ite (.of (State.endForming_moves ..)) (.refl ..)) <| .foldl (fun _ _ => .of (State.sendSet_moves ..)) <|
    .refl ..) <| .foldl (fun _ _ => .of (State.broadcast_moves ..)) <| .refl ..) <| .of (State.freshNonce_moves ..)) <| .record <| .refl ..

theorem execFormTimeoutExpiry_moves (s) : AnswerMoves (touches .formTimeoutExpiry) s (execFormTimeoutExpiry s) := by
  conv => arg 1; whnf
  exact managed_moves fun s => .ite (.of (State.endForming_moves ..)) (.refl ..)

/-! ### Packets that a port takes -/

theorem execBroadcastFilterExpiry_moves (src seq s) :
    AnswerMoves (touches (.broadcastFilterExpiry src seq)) s (execBroadcastFilterExpiry src seq s) := by
  conv => arg 1; whnf
  refine live_moves fun s => ?_
  dsimp only
  exact .record <| .refl ..

/-! ### The page state (R32 to R42) -/

theorem execZeroFillDone_moves (gid pva s) : AnswerMoves (touches (.zeroFillDone gid pva)) s (execZeroFillDone gid pva s) := by
  conv => arg 1; whnf
  refine live_moves fun s => ?_
  dsimp only
  split
  · exact .refl ..
  · exact .after (State.resume_moves ..) <| .after (State.clearZm_moves ..) <| .record <|
      .foldl (fun _ _ => .of (State.putThrough_moves ..)) <| .refl ..

theorem execLrcFill_moves (line s) : AnswerMoves (touches (.lrcFill line)) s (execLrcFill line s) := by
  conv => arg 1; whnf
  refine live_moves fun s => ?_
  dsimp only
  split
  · exact .refl ..
  · exact .ite (.after (State.countLedger_moves ..) <| .record <| .refl ..) (.record <| .refl ..)

theorem execPublish_moves (stream seq s) : AnswerMoves (touches (.publish stream seq)) s (execPublish stream seq s) := by
  conv => arg 1; whnf
  exact live_moves fun s => State.effect_moves rfl (.refl ..) fun s w => .ite (.refl ..) <| .after (State.onWb_moves ..) <|
    .of (State.publishRanges_moves ..)

theorem execPublishDrainDone_moves (stream seq s) :
    AnswerMoves (touches (.publishDrainDone stream seq)) s (execPublishDrainDone stream seq s) := by
  conv => arg 1; whnf
  refine live_moves fun s => ?_
  dsimp only
  exact State.effect_moves rfl (.refl ..) fun s w => .ite (.refl ..) <| .seq (.ite (.refl ..) <| .ite (.after (State.endWb_moves ..) <|
    .of (State.publishDrop_moves ..)) <| .after (State.onWb_moves ..) <| .after (State.publishDrop_moves ..) <|
    .of (State.countLedger_moves ..)) <| .foldl (fun _ _ => .of (State.drainLine_moves ..)) <| .refl ..

theorem execLrcSweepDone_moves (stream seq s) : AnswerMoves (touches (.lrcSweepDone stream seq)) s (execLrcSweepDone stream seq s) := by
  conv => arg 1; whnf
  exact live_moves fun s => State.effect_moves rfl (.refl ..) fun s w => .ite (.after (State.endWb_moves ..) <|
    .of (State.publishDrop_moves ..)) (.refl ..)

/-! ### Streams, waybills, tallies and trackers (R51 to R89) -/

theorem execStreamCreate_moves (s) : AnswerMoves (touches .streamCreate) s (execStreamCreate s) := by
  conv => arg 1; whnf
  refine record_moves fun s => ?_
  dsimp only
  exact .ite (.of (State.setReg_moves ..)) <| .ite (.of (State.setReg_moves ..)) <| .ite (.of (State.setReg_moves ..)) <|
    .after (State.setReg_moves ..) <| .after (State.writeStream_moves ..) <| .record <| .refl ..

theorem execStreamDestroy_moves (s) : AnswerMoves (touches .streamDestroy) s (execStreamDestroy s) := by
  conv => arg 1; whnf
  have removed (k : Nat) (u : State) : Moves [.streams] u
      { u with work := { u.work with streams := u.work.streams.del k, bells := u.work.bells.filter fun b => b.stream != k } } :=
    .record (.refl ..)
  exact record_moves fun s => .ite (.of (State.setReg_moves ..)) <| .ite (.of (State.setReg_moves ..)) <| .after (State.setReg_moves ..) <|
    .after (State.resume_moves ..) <| .after (removed ..) <| .after (State.zeroArea_moves ..) <| .of (State.unholdFetch_moves ..)

theorem execStreamReset_moves (s) : AnswerMoves (touches .streamReset) s (execStreamReset s) := by
  conv => arg 1; whnf
  refine record_moves fun s => ?_
  dsimp only
  split
  · exact .of (State.setReg_moves ..)
  · exact .ite (.of (State.setReg_moves ..)) <| .after (State.setReg_moves ..) <| .after (State.onStream_moves ..) <|
      .after (State.countN_moves ..) <| .of (State.unholdFetch_moves ..)

theorem execStreamQuery_moves (s) : AnswerMoves (touches .streamQuery) s (execStreamQuery s) := by
  conv => arg 1; whnf
  refine record_moves fun s => ?_
  dsimp only
  split
  · exact .after (State.setReg_moves ..) <| .after (State.setReg_moves ..) <| .after (State.setReg_moves ..) <| .of (State.setReg_moves ..)
  · exact .after (State.setReg_moves ..) <| .after (State.setReg_moves ..) <| .after (State.setReg_moves ..) <| .of (State.setReg_moves ..)

theorem execStreamSwapDone_moves (stream s) : AnswerMoves (touches (.streamSwapDone stream)) s (execStreamSwapDone stream s) := by
  conv => arg 1; whnf
  refine live_moves fun s => ?_
  dsimp only
  split
  · exact .record <| .refl ..
  · refine .ite (.of (State.ringBells_moves ..)) <| .ite (.after (State.ringBells_moves ..) <| .after (State.residentStream_moves ..) <|
      .after (State.readStream_moves ..) <| .of (State.countLedger_moves ..)) ?_
    split
    · exact .after (State.ringBells_moves ..) <| .after (State.residentStream_moves ..) <| .after (State.readStream_moves ..) <|
        .after (State.spillStream_moves ..) <| .of (State.countLedger_moves ..)
    · exact .refl ..

theorem execWaybillAccept_moves (stream s) : AnswerMoves (touches (.waybillAccept stream)) s (execWaybillAccept stream s) := by
  conv => arg 1; whnf
  refine live_moves fun s => ?_
  dsimp only
  split
  · exact .refl ..
  · refine .ite (.refl ..) <| .ite (.of (State.fetchFail_moves ..)) <| .ite (.of (State.fetchFail_moves ..)) <|
      .ite (.of (State.swapFetch_moves ..)) ?_
    split
    next h => exact .after (State.fetchFail_moves ..) <| .snd h <| .of (State.fetchAt_moves ..)
    next h => exact .snd h <| .of (State.fetchAt_moves ..)
    next h =>
      exact .seq (.ite (.refl ..) <| .ite (.of (State.fetchFail_moves ..)) <| .of (State.acceptWords_moves ..)) <|
        .after (State.slotBytes_moves ..) <| .after (State.countCluster_moves ..) <| .snd h <| .of (State.fetchAt_moves ..)

theorem execDescriptorPrefetch_moves (stream s) : AnswerMoves (touches (.descriptorPrefetch stream)) s (execDescriptorPrefetch stream s) := by
  conv => arg 1; whnf
  refine live_moves fun s => ?_
  dsimp only
  split
  · exact .refl ..
  · refine .ite (.refl ..) <| .seq (.ite (.after (State.countCluster_moves ..) <| .of (State.onStream_moves ..)) <|
      .of (State.countCluster_moves ..)) ?_
    split
    · exact .after (State.slotBytes_moves ..) <| .ite_snd (.of (State.xlQuiet_moves ..)) (.refl ..)
    · exact .ite_snd (.of (State.xlQuiet_moves ..)) (.refl ..)

theorem execWaybillStart_moves (stream seq s) : AnswerMoves (touches (.waybillStart stream seq)) s (execWaybillStart stream seq s) := by
  conv => arg 1; whnf
  refine live_moves fun s => ?_
  split
  · exact .refl ..
  · exact .ite (.refl ..) <| .ite (.of (State.swapWb_moves ..)) <|
      State.withWords_moves rfl (.refl ..) fun s => .of (State.startWb_moves ..)

theorem execWaitTimeoutExpiry_moves (stream seq s) :
    AnswerMoves (touches (.waitTimeoutExpiry stream seq)) s (execWaitTimeoutExpiry stream seq s) := by
  conv => arg 1; whnf
  refine live_moves fun s => ?_
  dsimp only
  exact .ite (.after (State.countCluster_moves ..) <| .of (State.endWhole_moves ..)) (.refl ..)

theorem execTallyInc_moves (stream seq s) : AnswerMoves (touches (.tallyInc stream seq)) s (execTallyInc stream seq s) := by
  conv => arg 1; whnf
  exact live_moves fun s => State.effect_moves rfl (.refl ..) fun s w => .after (State.endWb_moves ..) <| .of (State.addTally_moves ..)

theorem execTallySet_moves (stream seq s) : AnswerMoves (touches (.tallySet stream seq)) s (execTallySet stream seq s) := by
  conv => arg 1; whnf
  exact live_moves fun s => State.effect_moves rfl (.refl ..) fun s w => .after (State.endWb_moves ..) <| .of (State.changeTally_moves ..)

theorem execTallyArm_moves (stream seq s) : AnswerMoves (touches (.tallyArm stream seq)) s (execTallyArm stream seq s) := by
  conv => arg 1; whnf
  exact live_moves fun s => State.effect_moves rfl (.refl ..) fun s w => .after (State.endWb_moves ..) <| .of (State.changeTally_moves ..)

theorem execTallyRead_moves (stream seq s) : AnswerMoves (touches (.tallyRead stream seq)) s (execTallyRead stream seq s) := by
  conv => arg 1; whnf
  exact live_moves fun s => State.effect_moves rfl (.refl ..) fun s w => .after (State.endWb_moves ..) <| .of (State.onWb_moves ..)

theorem execDrain_moves (stream seq s) : AnswerMoves (touches (.drain stream seq)) s (execDrain stream seq s) := by
  conv => arg 1; whnf
  exact live_moves fun s => State.effect_moves rfl (.refl ..) fun s w => .ite (.refl ..) <| .of (State.endWb_moves ..)

theorem execNop_moves (stream seq s) : AnswerMoves (touches (.nop stream seq)) s (execNop stream seq s) := by
  conv => arg 1; whnf
  exact live_moves fun s => State.effect_moves rfl (.refl ..) fun s w => .of (State.endWb_moves ..)

theorem execCancel_moves (stream seq s) : AnswerMoves (touches (.cancel stream seq)) s (execCancel stream seq s) := by
  conv => arg 1; whnf
  refine live_moves fun s => ?_
  dsimp only
  exact State.effect_moves rfl (.refl ..) fun s w => .after (State.endWb_moves ..) <| .after (State.onWb_moves ..) <| .record <| .refl ..

theorem execTallyMirrorWrite_moves (tally s) : AnswerMoves (touches (.tallyMirrorWrite tally)) s (execTallyMirrorWrite tally s) := by
  conv => arg 1; whnf
  refine live_moves fun s => ?_
  dsimp only
  split
  · exact .refl ..
  · refine .ite (.refl ..) <| .ite (.record <| .refl ..) <| .ite (.of (State.startSwap_moves ..)) ?_
    split
    · exact .after (State.startFill_moves ..) <| .ite_snd (.of (State.xlQuiet_moves ..)) (.refl ..)
    · exact .seq (.ite (.refl ..) <| .seq (.ite (.record <| .refl ..) (.refl ..)) <| .of (State.publishWrite_moves ..)) <|
        .ite_snd (.of (State.xlQuiet_moves ..)) (.refl ..)
    · exact .record <| .ite_snd (.of (State.xlQuiet_moves ..)) (.refl ..)

theorem execChunkDispatch_moves (stream seq s) : AnswerMoves (touches (.chunkDispatch stream seq)) s (execChunkDispatch stream seq s) := by
  conv => arg 1; whnf
  exact live_moves fun s => State.withWords_moves rfl (.refl ..) fun s => .of (State.dispatch_moves ..)

theorem execClusterClearDone_moves (cluster s) : AnswerMoves (touches (.clusterClearDone cluster)) s (execClusterClearDone cluster s) := by
  conv => arg 1; whnf
  refine live_moves fun s => ?_
  dsimp only
  exact .ite (.refl ..) <| .record <| .of (State.onCluster_moves ..)

theorem execGranuleCommit_moves (stream seq g cluster s) :
    AnswerMoves (touches (.granuleCommit stream seq g cluster)) s (execGranuleCommit stream seq g cluster s) := by
  conv => arg 1; whnf
  exact live_moves fun s => .of (State.testAndSet_moves ..)

theorem execClusterLost_moves (cluster s) : AnswerMoves (touches (.clusterLost cluster)) s (execClusterLost cluster s) := by
  conv => arg 1; whnf
  refine live_moves fun s => ?_
  dsimp only
  exact .ite (.refl ..) <| .of (State.loseCluster_moves ..)

theorem execChunkRedispatch_moves (stream seq chunk s) :
    AnswerMoves (touches (.chunkRedispatch stream seq chunk)) s (execChunkRedispatch stream seq chunk s) := by
  conv => arg 1; whnf
  exact live_moves fun s => State.withWords_moves rfl (.refl ..) fun s => .of (State.redispatch_moves ..)

theorem execPorterDieLost_moves (die s) : AnswerMoves (touches (.porterDieLost die)) s (execPorterDieLost die s) := by
  conv => arg 1; whnf
  refine live_moves fun s => ?_
  dsimp only
  exact .ite (.refl ..) <| .seq (.seq (.after (State.log_moves ..) <|
    .foldl (fun _ _ => .ite (.of (State.rebind_moves ..)) (.refl ..)) <| .refl ..) <| .record <| .refl ..) <|
    .foldl (fun _ _ => .ite (.refl ..) <| .of (State.loseCluster_moves ..)) <| .refl ..

theorem execWaybillComplete_moves (stream seq s) :
    AnswerMoves (touches (.waybillComplete stream seq)) s (execWaybillComplete stream seq s) := by
  conv => arg 1; whnf
  exact live_moves fun s => State.withWords_moves rfl (.refl ..) fun s => .of (State.completeWb_moves ..)

theorem execTrackerGrant_moves (s) : AnswerMoves (touches .trackerGrant) s (execTrackerGrant s) := by
  conv => arg 1; whnf
  refine live_moves fun s => ?_
  dsimp only
  split
  · exact .refl ..
  · split
    · exact .refl ..
    next h =>
      exact .after (State.begin_moves ..) <| .after (State.unclaim_moves ..) <| .seq (.ite (.refl ..) (.record <| .refl ..)) <|
        .seq (.ite (.refl ..) (.of (State.countN_moves ..))) <| .after (State.takeTracker_moves h) <| .record <| .refl ..

theorem execTallyAlloc_moves (s) : AnswerMoves (touches .tallyAlloc) s (execTallyAlloc s) := by
  conv => arg 1; whnf
  refine record_moves fun s => ?_
  dsimp only
  refine .ite (.of (State.setReg_moves ..)) ?_
  split
  · exact .of (State.setReg_moves ..)
  · exact .after (State.setReg_moves ..) <| .after (State.setReg_moves ..) <| .record <| .refl ..

theorem execTallyFree_moves (s) : AnswerMoves (touches .tallyFree) s (execTallyFree s) := by
  conv => arg 1; whnf
  refine record_moves fun s => ?_
  dsimp only
  exact State.onTally_moves rfl (.refl ..) fun s x => .ite (.of (State.setReg_moves ..)) <| .after (State.setReg_moves ..) <| .record <|
    .refl ..

theorem execTallyCmdArm_moves (s) : AnswerMoves (touches .tallyCmdArm) s (execTallyCmdArm s) := by
  conv => arg 1; whnf
  refine record_moves fun s => ?_
  dsimp only
  exact State.onTally_moves rfl (.refl ..) fun s x => .after (State.setReg_moves ..) <| .of (State.changeTally_moves ..)

theorem execTallyCmdSet_moves (s) : AnswerMoves (touches .tallyCmdSet) s (execTallyCmdSet s) := by
  conv => arg 1; whnf
  refine record_moves fun s => ?_
  dsimp only
  exact State.onTally_moves rfl (.refl ..) fun s x => .after (State.setReg_moves ..) <| .of (State.changeTally_moves ..)

theorem execTallyConfig_moves (s) : AnswerMoves (touches .tallyConfig) s (execTallyConfig s) := by
  conv => arg 1; whnf
  refine record_moves fun s => ?_
  dsimp only
  exact State.onTally_moves rfl (.refl ..) fun s x => .ite (.of (State.setReg_moves ..)) <| .after (State.setReg_moves ..) <| .record <|
    .refl ..

theorem execTallyQuery_moves (s) : AnswerMoves (touches .tallyQuery) s (execTallyQuery s) := by
  conv => arg 1; whnf
  exact record_moves fun s => State.onTally_moves rfl (.refl ..) fun s x => .after (State.setReg_moves ..) <| .of (State.setBlob_moves ..)

theorem execTrkHighWaterWrite_moves (v s) : AnswerMoves (touches (.trkHighWaterWrite v)) s (execTrkHighWaterWrite v s) := by
  conv => arg 1; whnf
  exact managed_moves fun s => .ite (.of (State.setReg_moves ..)) (.refl ..)

theorem execArithFlagsSeenWrite_moves (v s) : AnswerMoves (touches (.arithFlagsSeenWrite v)) s (execArithFlagsSeenWrite v s) := by
  conv => arg 1; whnf
  exact managed_moves fun s => .of (State.setReg_moves ..)

/-! ### Data operations and reductions (R117 to R172, R181 to R189) -/

theorem execCopy_moves (stream seq chunk s) : AnswerMoves (touches (.copy stream seq chunk)) s (execCopy stream seq chunk s) := by
  conv => arg 1; whnf
  exact live_moves fun s => State.work0_moves rfl (.refl ..) fun _ _ _ _ => .of (kernel0_moves ..)

theorem execConvert_moves (stream seq chunk s) : AnswerMoves (touches (.convert stream seq chunk)) s (execConvert stream seq chunk s) := by
  conv => arg 1; whnf
  exact live_moves fun s => State.work0_moves rfl (.refl ..) fun _ _ _ _ => .of (kernel0_moves ..)

theorem execFill_moves (stream seq chunk s) : AnswerMoves (touches (.fill stream seq chunk)) s (execFill stream seq chunk s) := by
  conv => arg 1; whnf
  exact live_moves fun s => State.work0_moves rfl (.refl ..) fun _ _ _ _ => .of (kernel0_moves ..)

theorem execEltwise_moves (stream seq chunk s) : AnswerMoves (touches (.eltwise stream seq chunk)) s (execEltwise stream seq chunk s) := by
  conv => arg 1; whnf
  exact live_moves fun s => State.work0_moves rfl (.refl ..) fun _ _ _ _ => .of (kernel0_moves ..)

theorem execDeliver_moves (stream seq chunk s) : AnswerMoves (touches (.deliver stream seq chunk)) s (execDeliver stream seq chunk s) := by
  conv => arg 1; whnf
  exact live_moves fun s => State.work0_moves rfl (.refl ..) fun _ _ _ _ => .of (kernel0_moves ..)

theorem execGather_moves (stream seq chunk s) : AnswerMoves (touches (.gather stream seq chunk)) s (execGather stream seq chunk s) := by
  conv => arg 1; whnf
  exact live_moves fun s => State.work0_moves rfl (.refl ..) fun _ _ _ _ => .of (kernel1_moves ..)

theorem execScatter_moves (stream seq chunk s) : AnswerMoves (touches (.scatter stream seq chunk)) s (execScatter stream seq chunk s) := by
  conv => arg 1; whnf
  exact live_moves fun s => State.work0_moves rfl (.refl ..) fun _ _ _ _ => .of (kernel1_moves ..)

theorem execAtomic_moves (stream seq chunk s) : AnswerMoves (touches (.atomic stream seq chunk)) s (execAtomic stream seq chunk s) := by
  conv => arg 1; whnf
  exact live_moves fun s => .ite (.of (State.runAtoms_moves ..)) (.refl ..)

theorem execCas_moves (stream seq chunk s) : AnswerMoves (touches (.cas stream seq chunk)) s (execCas stream seq chunk s) := by
  conv => arg 1; whnf
  exact live_moves fun s => .ite (.of (State.runAtoms_moves ..)) (.refl ..)

theorem execRemoteTimeoutExpiry_moves (dst tc tag s) :
    AnswerMoves (touches (.remoteTimeoutExpiry dst tc tag)) s (execRemoteTimeoutExpiry dst tc tag s) := by
  conv => arg 1; whnf
  refine live_moves fun s => ?_
  dsimp only
  split
  · exact .refl ..
  · exact .after (State.porterAnswer_moves ..) <| .record <| .refl ..

theorem execRedOpen_moves (stream seq chunk s) : AnswerMoves (touches (.redOpen stream seq chunk)) s (execRedOpen stream seq chunk s) := by
  conv => arg 1; whnf
  refine live_moves fun s => ?_
  dsimp only
  exact .ite (.of (State.onWb_moves ..)) <| State.work0_moves rfl (.refl ..) fun _ _ _ _ => .of (kernelOpen_moves ..)

theorem execStagingAlloc_moves (stream seq s) : AnswerMoves (touches (.stagingAlloc stream seq)) s (execStagingAlloc stream seq s) := by
  conv => arg 1; whnf
  refine live_moves fun s => ?_
  dsimp only
  exact .ite (.of (State.stageOpen_moves ..)) (.refl ..)

theorem execRedOpenTimeout_moves (stream seq s) :
    AnswerMoves (touches (.redOpenTimeout stream seq)) s (execRedOpenTimeout stream seq s) := by
  conv => arg 1; whnf
  refine live_moves fun s => ?_
  dsimp only
  exact .ite (.of (State.endWhole_moves ..)) (.refl ..)

theorem execRedContrib_moves (stream seq chunk s) :
    AnswerMoves (touches (.redContrib stream seq chunk)) s (execRedContrib stream seq chunk s) := by
  conv => arg 1; whnf
  exact live_moves fun s => State.work0_moves rfl (.refl ..) fun _ _ _ _ => .of (kernel3_moves ..)

theorem execContribTurn_moves (stream seq s) : AnswerMoves (touches (.contribTurn stream seq)) s (execContribTurn stream seq s) := by
  conv => arg 1; whnf
  refine live_moves fun s => ?_
  dsimp only
  exact .ite (.of (State.onWb_moves ..)) (.refl ..)

theorem execStagedPrefetch_moves (stream seq s) : AnswerMoves (touches (.stagedPrefetch stream seq)) s (execStagedPrefetch stream seq s) := by
  conv => arg 1; whnf
  refine live_moves fun s => ?_
  dsimp only
  exact .ite (.seq (.ite (.after (State.onWb_moves ..) <| .after (State.onCtx_moves ..) <| .of (State.takeStage_moves ..)) (.refl ..)) <|
    .of (State.readRange_moves ..)) (.refl ..)

theorem execGranuleLockGrant_moves (unit s) : AnswerMoves (touches (.granuleLockGrant unit)) s (execGranuleLockGrant unit s) := by
  conv => arg 1; whnf
  refine live_moves fun s => ?_
  dsimp only
  exact .record <| .refl ..

theorem execRedClose_moves (stream seq s) : AnswerMoves (touches (.redClose stream seq)) s (execRedClose stream seq s) := by
  conv => arg 1; whnf
  refine live_moves fun s => ?_
  dsimp only
  exact .ite (.refl ..) <| .ite (.after (State.closeChunk_moves ..) <| .of (State.onChunk_moves ..)) <| .of (State.startClose_moves ..)

theorem execRedContextComplete_moves (rctx s) : AnswerMoves (touches (.redContextComplete rctx)) s (execRedContextComplete rctx s) := by
  conv => arg 1; whnf
  refine live_moves fun s => ?_
  dsimp only
  split
  · exact .refl ..
  · exact .ite (.refl ..) <| .seq (.ite (.refl ..) <| .seq (.ite (.of (State.endCtx_moves ..)) (.refl ..)) <| .of (State.publishCtx_moves ..)) <|
      .ite_snd (.of (State.writeBack_moves ..)) (.refl ..)

theorem execReduce_moves (stream seq chunk s) : AnswerMoves (touches (.reduce stream seq chunk)) s (execReduce stream seq chunk s) := by
  conv => arg 1; whnf
  exact live_moves fun s => State.work0_moves rfl (.refl ..) fun _ _ _ _ => .of (kernel3_moves ..)

theorem execReshard_moves (stream seq chunk s) : AnswerMoves (touches (.reshard stream seq chunk)) s (execReshard stream seq chunk s) := by
  conv => arg 1; whnf
  exact live_moves fun s => State.work0_moves rfl (.refl ..) fun _ _ _ _ => .of (kernel4_moves ..)

theorem execMvb_moves (stream seq chunk s) : AnswerMoves (touches (.mvb stream seq chunk)) s (execMvb stream seq chunk s) := by
  conv => arg 1; whnf
  exact live_moves fun s => State.work0_moves rfl (.refl ..) fun _ _ _ _ => .of (kernelMvb_moves ..)

theorem execMoeffn_moves (stream seq chunk s) : AnswerMoves (touches (.moeffn stream seq chunk)) s (execMoeffn stream seq chunk s) := by
  conv => arg 1; whnf
  exact live_moves fun s => .ite (.ite (.of (State.runSlice_moves ..)) (.refl ..)) <|
    State.work0_moves rfl (.refl ..) fun _ _ _ _ => .of (kernelMoe_moves ..)

theorem execMoeffnExchangeDone_moves (stream seq s) :
    AnswerMoves (touches (.moeffnExchangeDone stream seq)) s (execMoeffnExchangeDone stream seq s) := by
  conv => arg 1; whnf
  refine live_moves fun s => ?_
  dsimp only
  exact .ite (.of (State.onWb_moves ..)) (.refl ..)

theorem execLayoutRegister_moves (s) : AnswerMoves (touches .layoutRegister) s (execLayoutRegister s) := by
  conv => arg 1; whnf
  refine record_moves fun s => ?_
  dsimp only
  refine .ite (.of (State.setReg_moves ..)) ?_
  split
  · exact .of (State.setReg_moves ..)
  · exact .after (State.setReg_moves ..) <| .after (State.setReg_moves ..) <| .after (State.writeLayout_moves ..) <| .record <| .refl ..

theorem execLayoutRemove_moves (s) : AnswerMoves (touches .layoutRemove) s (execLayoutRemove s) := by
  conv => arg 1; whnf
  have removed (i : Nat) (u : State) : Moves [.layouts] u { u with work := { u.work with layouts := u.work.layouts.del i } } := .record (.refl ..)
  exact record_moves fun s => .ite (.of (State.setReg_moves ..)) <| .ite (.of (State.setReg_moves ..)) <| .after (State.setReg_moves ..) <|
    .after (removed ..) <| .of (State.writeLayout_moves ..)

theorem execLayoutQuery_moves (s) : AnswerMoves (touches .layoutQuery) s (execLayoutQuery s) := by
  conv => arg 1; whnf
  refine record_moves fun s => ?_
  split
  · exact .of (State.setReg_moves ..)
  · exact .after (State.setReg_moves ..) <| .of (State.setBlob_moves ..)

/-! ### Translations and faults (R194 to R214) -/

theorem execCommit_moves (s) : AnswerMoves (touches .commit) s (execCommit s) := by
  conv => arg 1; whnf
  refine record_moves fun s => ?_
  dsimp only
  refine .ite (.of (State.refuseCommit_moves ..)) <| .ite (.of (State.refuseCommit_moves ..)) <| .ite (.of (State.refuseCommit_moves ..)) ?_
  split
  · exact .of (State.refuseCommit_moves ..)
  · exact .ite (.of (State.refuseCommit_moves ..)) <| .of (State.startCommit_moves ..)

theorem execCommitPoint_moves (s) : AnswerMoves (touches .commitPoint) s (execCommitPoint s) := by
  conv => arg 1; whnf
  refine live_moves fun s => ?_
  split
  · exact .ite (.of (State.commitPoint_moves ..)) <| .of (State.migrOn_moves ..)
  · exact .refl ..

theorem execCommitDrainDone_moves (s) : AnswerMoves (touches .commitDrainDone) s (execCommitDrainDone s) := by
  conv => arg 1; whnf
  refine live_moves fun s => ?_
  dsimp only
  split
  · exact .ite (.refl ..) <| .seq (.ite (.refl ..) <| .after (State.setReg_moves ..) <| .record <|
      .foldl (fun _ _ => .of (State.zeroTable_moves ..)) <| .foldl (fun _ _ => .of (State.lrcDrop_moves ..)) <| .refl ..) <|
      .foldl_snd (fun _ _ => .of (State.drainRange_moves ..)) <| .refl ..
  · exact .refl ..

theorem execTransQuery_moves (s) : AnswerMoves (touches .transQuery) s (execTransQuery s) := by
  conv => arg 1; whnf
  refine record_moves fun s => ?_
  dsimp only
  exact .ite (.after (State.setReg_moves ..) <| .after (State.setReg_moves ..) <| .after (State.setReg_moves ..) <|
    .after (State.setReg_moves ..) <| .of (State.setReg_moves ..)) <| .after (State.setReg_moves ..) <|
    .after (State.setReg_moves ..) <| .after (State.setReg_moves ..) <| .after (State.setReg_moves ..) <| .of (State.setReg_moves ..)

theorem execTranslationWalkDone_moves (trk s) : AnswerMoves (touches (.translationWalkDone trk)) s (execTranslationWalkDone trk s) := by
  conv => arg 1; whnf
  refine live_moves fun s => ?_
  split
  · split
    · exact .ite (.of (State.walked_moves ..)) <| .of (State.onReq_moves ..)
    · exact .refl ..
  · exact .refl ..

theorem execFaultHoldExpiry_moves (h s) : AnswerMoves (touches (.faultHoldExpiry h)) s (execFaultHoldExpiry h s) := by
  conv => arg 1; whnf
  refine live_moves fun s => ?_
  split
  · split
    · split
      · exact .after (State.endHold_moves ..) <| .after (State.endReq_moves ..) <| .after (State.leaveQ_moves ..) <|
          .of (State.markExpired_moves ..)
      · exact .refl ..
    · exact .refl ..
  · split
    · exact .after (State.expireGranule_moves ..) <| .of (State.markExpired_moves ..)
    · exact .refl ..
  · split
    · exact .after (State.fetchFail_moves ..) <| .of (State.markExpired_moves ..)
    · exact .refl ..
  · split
    · exact .after (State.nextBack_moves ..) <| .of (State.markExpired_moves ..)
    · exact .refl ..

theorem execFaultQueueRecord_moves (s) : AnswerMoves (touches .faultQueueRecord) s (execFaultQueueRecord s) := by
  conv => arg 1; whnf
  refine live_moves fun s => ?_
  dsimp only
  split
  · exact .ite (.after (State.originate_moves ..) <| .record <| .refl ..) (.refl ..)
  · exact .refl ..

theorem execFqHeadWrite_moves (v s) : AnswerMoves (touches (.fqHeadWrite v)) s (execFqHeadWrite v s) := by
  conv => arg 1; whnf
  exact managed_moves fun s => .of (State.setReg_moves ..)

theorem execFqConfigWrite_moves (which v s) : AnswerMoves (touches (.fqConfigWrite which v)) s (execFqConfigWrite which v s) := by
  conv => arg 1; whnf
  exact managed_moves fun s => .ite (.of (State.fqConfig_moves ..)) (.refl ..)

theorem execMigrateInDone_moves (s) : AnswerMoves (touches .migrateInDone) s (execMigrateInDone s) := by
  conv => arg 1; whnf
  refine live_moves fun s => ?_
  split
  · exact .ite (.of (State.commitPoint_moves ..)) <| .of (State.migrOn_moves ..)
  · exact .refl ..

theorem execMigrateOutDone_moves (s) : AnswerMoves (touches .migrateOutDone) s (execMigrateOutDone s) := by
  conv => arg 1; whnf
  refine live_moves fun s => ?_
  split
  · exact .ite (.of (State.commitPoint_moves ..)) <| .of (State.migrOn_moves ..)
  · exact .refl ..

theorem execMigrateTimeoutExpiry_moves (s) : AnswerMoves (touches .migrateTimeoutExpiry) s (execMigrateTimeoutExpiry s) := by
  conv => arg 1; whnf
  refine live_moves fun s => ?_
  split
  · exact .ite (.of (State.migrFail_moves ..)) (.refl ..)
  · exact .refl ..

theorem execLedgerDieLost_moves (die s) : AnswerMoves (touches (.ledgerDieLost die)) s (execLedgerDieLost die s) := by
  conv => arg 1; whnf
  refine live_moves fun s => ?_
  dsimp only
  exact .ite (.refl ..) <| .after (State.log_moves ..) <| .after (State.resnoop_moves ..) <| .after (State.useFree_moves ..) <|
    .after (State.recovery_moves ..) <| .record <| .refl ..

theorem execCoherenceUnmatched_moves (link p s) :
    AnswerMoves (touches (.coherenceUnmatched link p)) s (execCoherenceUnmatched link p s) := by
  conv => arg 1; whnf
  exact live_moves fun s => .ite (.of (State.receive_moves ..)) (.refl ..)

/-! ### The hearth (R217 to R239) -/

theorem execHearthLineDequeue_moves (line s) : AnswerMoves (touches (.hearthLineDequeue line)) s (execHearthLineDequeue line s) := by
  conv => arg 1; whnf
  refine live_moves fun s => ?_
  dsimp only
  refine .ite (.refl ..) ?_
  split
  · exact .refl ..
  · exact .seq (.after (State.flushOn_moves ..) <| .ite (.refl ..) <| .of (State.dequeue_moves ..)) <| .of (State.access_moves ..)

theorem execBackInvalidation_moves (line s) : AnswerMoves (touches (.backInvalidation line)) s (execBackInvalidation line s) := by
  conv => arg 1; whnf
  exact live_moves fun s => .ite (.of (State.backInvalidate_moves ..)) (.refl ..)

theorem execHearthSnoopTimeout_moves (line ceid s) :
    AnswerMoves (touches (.hearthSnoopTimeout line ceid)) s (execHearthSnoopTimeout line ceid s) := by
  conv => arg 1; whnf
  refine live_moves fun s => ?_
  split
  · exact .ite (.after (State.flushOn_moves ..) <| .after (State.fence_moves ..) <| .of (State.atomicLate_moves ..)) (.refl ..)
  · exact .refl ..

theorem execFenceWalkDone_moves (ceid s) : AnswerMoves (touches (.fenceWalkDone ceid)) s (execFenceWalkDone ceid s) := by
  conv => arg 1; whnf
  refine live_moves fun s => ?_
  dsimp only
  split
  · exact .ite (.refl ..) <| .seq (.after (State.flushOn_moves ..) <| .foldl (fun _ _ => .of (State.dropDir_moves ..)) <| .refl ..) <|
      .record <| .refl ..
  · exact .refl ..

theorem execRegisterCe_moves (s) : AnswerMoves (touches .registerCe) s (execRegisterCe s) := by
  conv => arg 1; whnf
  refine hearthCmd_moves fun s => ?_
  dsimp only
  split
  · exact .of (State.hearthResult_moves ..)
  · exact .after (State.hearthResult_moves ..) <| .after (State.setReg_moves ..) <| .record <| .refl ..

theorem execRemoveCe_moves (s) : AnswerMoves (touches .removeCe) s (execRemoveCe s) := by
  conv => arg 1; whnf
  refine hearthCmd_moves fun s => ?_
  dsimp only
  exact .ite (.after (State.flushOn_moves ..) <| .after (State.hearthResult_moves ..) <| .record <| .refl ..) <|
    .of (State.hearthResult_moves ..)

theorem execResetCe_moves (s) : AnswerMoves (touches .resetCe) s (execResetCe s) := by
  conv => arg 1; whnf
  refine hearthCmd_moves fun s => ?_
  dsimp only
  split
  · exact .of (State.hearthResult_moves ..)
  · exact .ite (.of (State.hearthResult_moves ..)) <| .after (State.hearthResult_moves ..) <| .record <| .refl ..

theorem execQueryCe_moves (s) : AnswerMoves (touches .queryCe) s (execQueryCe s) := by
  conv => arg 1; whnf
  refine hearthCmd_moves fun s => ?_
  dsimp only
  exact .after (State.hearthResult_moves ..) <| .of (State.setReg_moves ..)

theorem execFlush_moves (s) : AnswerMoves (touches .flush) s (execFlush s) := by
  conv => arg 1; whnf
  refine hearthCmd_moves fun s => ?_
  dsimp only
  exact .ite (.after (State.flushOn_moves ..) <| .after (State.hearthResult_moves ..) <| .record <| .refl ..) <|
    .of (State.hearthResult_moves ..)

theorem execQueryLine_moves (s) : AnswerMoves (touches .queryLine) s (execQueryLine s) := by
  conv => arg 1; whnf
  refine hearthCmd_moves fun s => ?_
  dsimp only
  exact .ite (.after (State.hearthResult_moves ..) <| .of (State.setBlob_moves ..)) <| .of (State.hearthResult_moves ..)

theorem execHearthRecallDone_moves (line s) : AnswerMoves (touches (.hearthRecallDone line)) s (execHearthRecallDone line s) := by
  conv => arg 1; whnf
  refine live_moves fun s => ?_
  dsimp only
  split
  · refine .ite (.refl ..) ?_
    split
    · refine .after (State.flushOn_moves ..) ?_
      split
      · exact .after (State.access_moves ..) <| .of (State.uncachedEnd_moves ..)
      · exact .after (State.uncachedFree_moves ..) <| .of (State.uncachedEnd_moves ..)
    · exact .seq (.after (State.flushOn_moves ..) <| .ite (.refl ..) <| .of (State.uncachedFree_moves ..)) <|
        .of (State.uncachedEnd_moves ..)
    · exact .after (State.flushOn_moves ..) <| .of (State.hfinish_moves ..)
  · exact .refl ..

/-! ### Links (R241 to R274, R489) -/

theorem execFlitReceive_moves (link f word ends next s) :
    AnswerMoves (touches (.flitReceive link f word ends next)) s (execFlitReceive link f word ends next s) := by
  conv => arg 1; whnf
  refine live_moves fun s => ?_
  dsimp only
  exact .seq (.after (State.serCheck_moves ..) <| .ite (.of (State.recvFlit_moves ..)) (.refl ..)) <| .of (State.countFixed_moves ..)

theorem execRetryReq_moves (link h fseq s) : AnswerMoves (touches (.retryReq link h fseq)) s (execRetryReq link h fseq s) := by
  conv => arg 1; whnf
  exact live_moves fun s => State.ctrlIn_moves rfl (.refl ..) fun s => .of (State.takeRetry_moves ..)

theorem execNull_moves (link h s) : AnswerMoves (touches (.null link h)) s (execNull link h s) := by
  conv => arg 1; whnf
  exact live_moves fun s => State.ctrlIn_moves rfl (.refl ..) fun s => .refl ..

theorem execReplayTimeout_moves (link s) : AnswerMoves (touches (.replayTimeout link)) s (execReplayTimeout link s) := by
  conv => arg 1; whnf
  refine live_moves fun s => ?_
  dsimp only
  exact .ite (.refl ..) <| .ite (.of (State.setLink_moves ..)) <| .of (State.startReplay_moves ..)

theorem execLaneFailing_moves (link lane s) : AnswerMoves (touches (.laneFailing link lane)) s (execLaneFailing link lane s) := by
  conv => arg 1; whnf
  exact live_moves fun s => .of (State.laneFail_moves ..)

theorem execSpareUnusable_moves (link s) : AnswerMoves (touches (.spareUnusable link)) s (execSpareUnusable link s) := by
  conv => arg 1; whnf
  refine live_moves fun s => ?_
  dsimp only
  exact .ite (.after (State.countLink_moves ..) <| .of (State.setLink_moves ..)) (.refl ..)

theorem execLaneMap_moves (link h lane map s) : AnswerMoves (touches (.laneMap link h lane map)) s (execLaneMap link h lane map s) := by
  conv => arg 1; whnf
  exact live_moves fun s => State.ctrlIn_moves rfl (.refl ..) fun s => .of (State.takeLaneMap_moves ..)

theorem execLaneMapAck_moves (link h lane map s) :
    AnswerMoves (touches (.laneMapAck link h lane map)) s (execLaneMapAck link h lane map s) := by
  conv => arg 1; whnf
  exact live_moves fun s => State.ctrlIn_moves rfl (.refl ..) fun s => .of (State.takeLaneMapAck_moves ..)

theorem execLaneMapResend_moves (link s) : AnswerMoves (touches (.laneMapResend link)) s (execLaneMapResend link s) := by
  conv => arg 1; whnf
  refine live_moves fun s => ?_
  split
  · exact .of (State.sendCtrl_moves ..)
  · exact .refl ..

theorem execLaneSparingDone_moves (link s) : AnswerMoves (touches (.laneSparingDone link)) s (execLaneSparingDone link s) := by
  conv => arg 1; whnf
  refine live_moves fun s => ?_
  dsimp only
  exact .ite (.after (State.sendCtrl_moves ..) <| .after (State.countLink_moves ..) <| .of (State.setLink_moves ..)) <|
    .of (State.onLink_moves ..)

theorem execCreditQuietExpiry_moves (link vc s) :
    AnswerMoves (touches (.creditQuietExpiry link vc)) s (execCreditQuietExpiry link vc s) := by
  conv => arg 1; whnf
  refine live_moves fun s => ?_
  dsimp only
  exact .ite (.seq (.ite (.of (State.syncStart_moves ..)) (.refl ..)) <| .of (State.onLink_moves ..)) (.refl ..)

theorem execCreditSyncRequest_moves (link s) : AnswerMoves (touches (.creditSyncRequest link)) s (execCreditSyncRequest link s) := by
  conv => arg 1; whnf
  refine live_moves fun s => ?_
  dsimp only
  exact .ite (.after (State.sendCtrl_moves ..) <| .of (State.setLink_moves ..)) (.refl ..)

theorem execCreditSyncReq_moves (link h s) : AnswerMoves (touches (.creditSyncReq link h)) s (execCreditSyncReq link h s) := by
  conv => arg 1; whnf
  exact live_moves fun s => State.ctrlIn_moves rfl (.refl ..) fun s => .of (State.takeSyncReq_moves ..)

theorem execCreditSyncRsp_moves (link h blocks s) :
    AnswerMoves (touches (.creditSyncRsp link h blocks)) s (execCreditSyncRsp link h blocks s) := by
  conv => arg 1; whnf
  exact live_moves fun s => State.ctrlIn_moves rfl (.refl ..) fun s => .of (State.takeSyncRsp_moves ..)

theorem execCreditSyncTimeout_moves (link s) : AnswerMoves (touches (.creditSyncTimeout link)) s (execCreditSyncTimeout link s) := by
  conv => arg 1; whnf
  refine live_moves fun s => ?_
  dsimp only
  exact .ite (.ite (.of (State.linkDown_moves ..)) <| .after (State.sendCtrl_moves ..) <| .of (State.setLink_moves ..)) (.refl ..)

theorem execLinkDown_moves (link h _cause s) : AnswerMoves (touches (.linkDown link h _cause)) s (execLinkDown link h _cause s) := by
  conv => arg 1; whnf
  exact live_moves fun s => .ite (.after (State.linkDown_moves ..) <| .of (State.applyHdr_moves ..)) (.refl ..)

theorem execStandbyReq_moves (link h s) : AnswerMoves (touches (.standbyReq link h)) s (execStandbyReq link h s) := by
  conv => arg 1; whnf
  exact live_moves fun s => State.ctrlIn_moves rfl (.refl ..) fun s => .of (State.takeStandbyReq_moves ..)

theorem execStandbyAck_moves (link h s) : AnswerMoves (touches (.standbyAck link h)) s (execStandbyAck link h s) := by
  conv => arg 1; whnf
  exact live_moves fun s => State.ctrlIn_moves rfl (.refl ..) fun s => .of (State.takeStandbyAck_moves ..)

theorem execStandbyAckTimeout_moves (link s) : AnswerMoves (touches (.standbyAckTimeout link)) s (execStandbyAckTimeout link s) := by
  conv => arg 1; whnf
  refine live_moves fun s => ?_
  dsimp only
  exact .ite (.seq (.ite (.record <| .refl ..) (.refl ..)) <| .of (State.onLink_moves ..)) (.refl ..)

theorem execLinkStandbyIdleExpiry_moves (link s) :
    AnswerMoves (touches (.linkStandbyIdleExpiry link)) s (execLinkStandbyIdleExpiry link s) := by
  conv => arg 1; whnf
  exact live_moves fun s => .ite (.of (State.askStandby_moves ..)) (.refl ..)

theorem execLinkWake_moves (link s) : AnswerMoves (touches (.linkWake link)) s (execLinkWake link s) := by
  conv => arg 1; whnf
  exact awake_moves fun s => .ite (.ite (.of (State.wakeSource_moves ..)) (.refl ..)) <| .of (State.wakeLink_moves ..)

theorem execHello_moves (link version audit narrow s) :
    AnswerMoves (touches (.hello link version audit narrow)) s (execHello link version audit narrow s) := by
  conv => arg 1; whnf
  refine live_moves fun s => ?_
  dsimp only
  exact .ite (.after (State.keyxSend_moves ..) <| .after (State.onLink_moves ..) <| .of (State.keyxTake_moves ..)) (.refl ..)

theorem execCert_moves (link chain s) : AnswerMoves (touches (.cert link chain)) s (execCert link chain s) := by
  conv => arg 1; whnf
  refine live_moves fun s => ?_
  dsimp only
  exact .ite (.ite (.of (State.keyxFail_moves ..)) <| .ite (.refl ..) <| .after (State.keyxSend_moves ..) <|
    .after (State.onLink_moves ..) <| .after (State.draw_moves ..) <| .of (State.keyxTake_moves ..)) (.refl ..)

theorem execShare_moves (link pub sig s) : AnswerMoves (touches (.share link pub sig)) s (execShare link pub sig s) := by
  conv => arg 1; whnf
  refine live_moves fun s => ?_
  dsimp only
  exact .ite (.ite (.after (State.keyxSend_moves ..) <| .after (State.onLink_moves ..) <| .of (State.keyxTake_moves ..)) <|
    .of (State.keyxFail_moves ..)) (.refl ..)

theorem execFinished_moves (link mac s) : AnswerMoves (touches (.finished link mac)) s (execFinished link mac s) := by
  conv => arg 1; whnf
  refine live_moves fun s => ?_
  dsimp only
  exact .ite (.ite (.after (State.retrainEnd_moves ..) <| .record <| .of (State.setLink_moves ..)) <|
    .of (State.keyxFail_moves ..)) (.refl ..)

theorem execKeyxRetransmit_moves (link s) : AnswerMoves (touches (.keyxRetransmit link)) s (execKeyxRetransmit link s) := by
  conv => arg 1; whnf
  refine live_moves fun s => ?_
  dsimp only
  refine .ite ?_ (.refl ..)
  split
  · exact .after (State.sendCtrl_moves ..) <| .of (State.setLink_moves ..)
  · exact .refl ..

theorem execKeyxTimeout_moves (link s) : AnswerMoves (touches (.keyxTimeout link)) s (execKeyxTimeout link s) := by
  conv => arg 1; whnf
  exact live_moves fun s => .ite (.of (State.keyxFail_moves ..)) (.refl ..)

theorem execPeerDetected_moves (link s) : AnswerMoves (touches (.peerDetected link)) s (execPeerDetected link s) := by
  conv => arg 1; whnf
  exact live_moves fun s => .of (State.onLink_moves ..)

theorem execTrainingDone_moves (link s) : AnswerMoves (touches (.trainingDone link)) s (execTrainingDone link s) := by
  conv => arg 1; whnf
  refine live_moves fun s => ?_
  dsimp only
  exact .ite (.after (State.keyxSend_moves ..) <| .of (State.setLink_moves ..)) (.refl ..)

theorem execTrainingFailed_moves (link s) : AnswerMoves (touches (.trainingFailed link)) s (execTrainingFailed link s) := by
  conv => arg 1; whnf
  exact live_moves fun s => .ite (.after (State.retrainEnd_moves ..) <| .of (State.linkDown_moves ..)) (.refl ..)

theorem execLinkDeadTimeout_moves (link s) : AnswerMoves (touches (.linkDeadTimeout link)) s (execLinkDeadTimeout link s) := by
  conv => arg 1; whnf
  exact live_moves fun s => .ite (.of (State.linkDown_moves ..)) (.refl ..)

theorem execLinkRetry_moves (link s) : AnswerMoves (touches (.linkRetry link)) s (execLinkRetry link s) := by
  conv => arg 1; whnf
  exact live_moves fun s => .ite (.of (State.toDetect_moves ..)) (.refl ..)

theorem execGatehouseDieLost_moves (gh s) : AnswerMoves (touches (.gatehouseDieLost gh)) s (execGatehouseDieLost gh s) := by
  conv => arg 1; whnf
  refine live_moves fun s => ?_
  dsimp only
  exact .ite (.after (State.log_moves ..) <| .after (State.loseLink_moves ..) <| .after (State.loseLink_moves ..) <| .record <|
    .refl ..) (.refl ..)

theorem execDedupExpiry_moves (epid tc s) : AnswerMoves (touches (.dedupExpiry epid tc)) s (execDedupExpiry epid tc s) := by
  conv => arg 1; whnf
  refine live_moves fun s => ?_
  dsimp only
  exact .record <| .refl ..

theorem execRetrain_moves (s) : AnswerMoves (touches .retrain) s (execRetrain s) := by
  conv => arg 1; whnf
  refine linkCmd_moves fun l s => ?_
  dsimp only
  exact .ite (.of (State.setReg_moves ..)) <| .ite (.of (State.setReg_moves ..)) <| .seq (.seq (.ite (.of (State.setReg_moves ..)) <|
    .after (State.setReg_moves ..) <| .of (State.onLink_moves ..)) <| .of (State.toDetect_moves ..)) <| .ite (.refl ..) <|
    .of (State.linkDown_moves ..)

theorem execDisable_moves (s) : AnswerMoves (touches .disable) s (execDisable s) := by
  conv => arg 1; whnf
  refine linkCmd_moves fun l s => ?_
  dsimp only
  exact .ite (.of (State.setReg_moves ..)) <| .after (State.setReg_moves ..) <| .ite (.refl ..) <| .of (State.linkDown_moves ..)

theorem execEnable_moves (s) : AnswerMoves (touches .enable) s (execEnable s) := by
  conv => arg 1; whnf
  refine linkCmd_moves fun l s => ?_
  dsimp only
  exact .after (State.setReg_moves ..) <| .ite (.of (State.toDetect_moves ..)) (.refl ..)

theorem execLinkQuery_moves (s) : AnswerMoves (touches .linkQuery) s (execLinkQuery s) := by
  conv => arg 1; whnf
  refine linkCmd_moves fun l s => ?_
  dsimp only
  exact .after (State.setReg_moves ..) <| .after (State.setBlob_moves ..) <| .of (State.setReg_moves ..)

theorem execDedupClear_moves (s) : AnswerMoves (touches .dedupClear) s (execDedupClear s) := by
  conv => arg 1; whnf
  refine record_moves fun s => ?_
  dsimp only
  exact .after (State.setReg_moves ..) <| .record <| .refl ..

/-! ### Fabric (R288 to R322) -/

theorem execCnpSend_moves (src tc s) : AnswerMoves (touches (.cnpSend src tc)) s (execCnpSend src tc s) := by
  conv => arg 1; whnf
  refine live_moves fun s => ?_
  dsimp only
  split
  · exact .refl ..
  · exact .ite (.refl ..) <| .after (State.countLink_moves ..) <| .after (State.originate_moves ..) <| .record <| .record <| .refl ..

theorem execCcRateIncrease_moves (epid tc s) : AnswerMoves (touches (.ccRateIncrease epid tc)) s (execCcRateIncrease epid tc s) := by
  conv => arg 1; whnf
  refine live_moves fun s => ?_
  dsimp only
  split
  · exact .refl ..
  · exact .ite (.refl ..) <| .record <| .refl ..

theorem execEgressSelect_moves (link s) : AnswerMoves (touches (.egressSelect link)) s (execEgressSelect link s) := by
  conv => arg 1; whnf
  refine live_moves fun s => ?_
  dsimp only
  refine .ite (.refl ..) ?_
  split
  · exact .of (State.resend_moves ..)
  · exact .ite (.of (State.sendCtrl_moves ..)) <| .ite (.of (State.formIdle_moves ..)) <| .ite (.of (State.startNext_moves ..)) <|
      .of (State.nextFlit_moves ..)

theorem execExpressWindowOpen_moves (link s) : AnswerMoves (touches (.expressWindowOpen link)) s (execExpressWindowOpen link s) := by
  conv => arg 1; whnf
  refine live_moves fun s => ?_
  dsimp only
  exact .after (State.onEg_moves ..) <| .ite (.of (State.countLink_moves ..)) (.refl ..)

theorem execExpressWindowClose_moves (link s) : AnswerMoves (touches (.expressWindowClose link)) s (execExpressWindowClose link s) := by
  conv => arg 1; whnf
  exact live_moves fun s => .of (State.onEg_moves ..)

theorem execSetBlock_moves (s) : AnswerMoves (touches .setBlock) s (execSetBlock s) := by
  conv => arg 1; whnf
  refine routeCmd_moves fun s => ?_
  dsimp only
  exact .ite (.of (State.routeResult_moves ..)) <| .after (State.routeUpdate_moves ..) <| .record <| .refl ..

theorem execSetExact_moves (s) : AnswerMoves (touches .setExact) s (execSetExact s) := by
  conv => arg 1; whnf
  refine routeCmd_moves fun s => ?_
  dsimp only
  exact .ite (.of (State.routeResult_moves ..)) <| .ite (.of (State.routeResult_moves ..)) <| .after (State.routeUpdate_moves ..) <|
    .record <| .refl ..

theorem execClearExact_moves (s) : AnswerMoves (touches .clearExact) s (execClearExact s) := by
  conv => arg 1; whnf
  refine routeCmd_moves fun s => ?_
  dsimp only
  exact .ite (.of (State.routeResult_moves ..)) <| .after (State.routeUpdate_moves ..) <| .record <| .refl ..

theorem execPairOut_moves (s) : AnswerMoves (touches .pairOut) s (execPairOut s) := by
  conv => arg 1; whnf
  exact routeCmd_moves fun s => .of (State.pairCmd_moves ..)

theorem execPairIn_moves (s) : AnswerMoves (touches .pairIn) s (execPairIn s) := by
  conv => arg 1; whnf
  exact routeCmd_moves fun s => .of (State.pairCmd_moves ..)

theorem execRouteQuery_moves (s) : AnswerMoves (touches .routeQuery) s (execRouteQuery s) := by
  conv => arg 1; whnf
  exact routeCmd_moves fun s => .after (State.routeResult_moves ..) <| .of (State.setReg_moves ..)

theorem execEpochDrainDone_moves (route s) : AnswerMoves (touches (.epochDrainDone route)) s (execEpochDrainDone route s) := by
  conv => arg 1; whnf
  refine live_moves fun s => ?_
  dsimp only
  refine .ite ?_ ?_
  · split
    · exact .ite (.refl ..) <| .after (State.routeResult_moves ..) <| .record <| .refl ..
    · exact .refl ..
  · split
    · exact .ite (.refl ..) <| .after (State.gmapResult_moves ..) <| .record <| .refl ..
    · exact .refl ..

theorem execGmapSet_moves (s) : AnswerMoves (touches .gmapSet) s (execGmapSet s) := by
  conv => arg 1; whnf
  refine gmapCmd_moves fun s => ?_
  dsimp only
  exact .ite (.of (State.gmapResult_moves ..)) <| .ite (.of (State.gmapResult_moves ..)) <| .ite (.of (State.gmapResult_moves ..)) <|
    .ite (.of (State.gmapUpdate_moves ..)) <| .of (State.gmapUpdate_moves ..)

theorem execGmapClear_moves (s) : AnswerMoves (touches .gmapClear) s (execGmapClear s) := by
  conv => arg 1; whnf
  refine gmapCmd_moves fun s => ?_
  dsimp only
  exact .ite (.of (State.gmapResult_moves ..)) <| .ite (.of (State.gmapResult_moves ..)) <| .ite (.of (State.gmapUpdate_moves ..)) <|
    .of (State.gmapUpdate_moves ..)

theorem execGmapQuery_moves (s) : AnswerMoves (touches .gmapQuery) s (execGmapQuery s) := by
  conv => arg 1; whnf
  refine gmapCmd_moves fun s => ?_
  split
  · exact .after (State.gmapResult_moves ..) <| .of (State.setReg_moves ..)
  · exact .of (State.gmapResult_moves ..)

theorem execPkeyAdd_moves (s) : AnswerMoves (touches .pkeyAdd) s (execPkeyAdd s) := by
  conv => arg 1; whnf
  exact pkeyCmd_moves fun s l k => .ite (.of (State.setReg_moves ..)) <| .ite (.of (State.setReg_moves ..)) <| .of (State.setKeys_moves ..)

theorem execPkeyRemove_moves (s) : AnswerMoves (touches .pkeyRemove) s (execPkeyRemove s) := by
  conv => arg 1; whnf
  exact pkeyCmd_moves fun s l k => .ite (.of (State.setKeys_moves ..)) <| .of (State.setReg_moves ..)

theorem execPkeyQuery_moves (s) : AnswerMoves (touches .pkeyQuery) s (execPkeyQuery s) := by
  conv => arg 1; whnf
  refine record_moves fun s => ?_
  dsimp only
  exact .after (State.setReg_moves ..) <| .of (State.setBlob_moves ..)

theorem execQueueSet_moves (s) : AnswerMoves (touches .queueSet) s (execQueueSet s) := by
  conv => arg 1; whnf
  refine record_moves fun s => ?_
  dsimp only
  exact .ite (.of (State.queueResult_moves ..)) <| .ite (.of (State.setDefault_moves ..)) <| .of (State.setQueue_moves ..)

theorem execQueueRemove_moves (s) : AnswerMoves (touches .queueRemove) s (execQueueRemove s) := by
  conv => arg 1; whnf
  refine record_moves fun s => ?_
  dsimp only
  exact .ite (.of (State.queueResult_moves ..)) <| .ite (.of (State.queueResult_moves ..)) <| .after (State.queueResult_moves ..) <|
    .record <| .of (State.emptyQueue_moves ..)

theorem execQueueQuery_moves (s) : AnswerMoves (touches .queueQuery) s (execQueueQuery s) := by
  conv => arg 1; whnf
  refine record_moves fun s => ?_
  dsimp only
  exact .ite (.of (State.queueResult_moves ..)) <| .ite (.after (State.queueResult_moves ..) <| .of (State.showQueue_moves ..)) <|
    .after (State.queueResult_moves ..) <| .of (State.showQueue_moves ..)

/-! ### Memory channels and sidebands (R331 to R358) -/

theorem execColumnCommandIssue_moves (ch sub ready retire s) :
    AnswerMoves (touches (.columnCommandIssue ch sub ready retire)) s (execColumnCommandIssue ch sub ready retire s) := by
  conv => arg 1; whnf
  refine live_moves fun s => ?_
  dsimp only
  exact .ite (.refl ..) <| .seq (.ite (.refl ..) <| .seq (by
    split
    · exact .after (State.issueFor_moves ..) <| .ite (.of (State.countChan_moves ..)) (.refl ..)
    · exact .refl ..) <| .after (State.onChan_moves ..) <| .of (State.onSub_moves ..)) <| .of (State.onSub_moves ..)

theorem execDramReadReturn_moves (ch line e1 e2 s) :
    AnswerMoves (touches (.dramReadReturn ch line e1 e2)) s (execDramReadReturn ch line e1 e2 s) := by
  conv => arg 1; whnf
  refine live_moves fun s => ?_
  dsimp only
  split
  · exact .refl ..
  · split
    · exact .after (State.weightBack_moves ..) <| .of (State.onSub_moves ..)
    · exact .of (State.onSub_moves ..)
    · split
      · exact .of (State.onSub_moves ..)
      · split
        · exact .of (State.onSub_moves ..)
        · split
          · exact .of (State.onSub_moves ..)
          · exact .seq (.ite (.of (State.onSub_moves ..)) <| .after (State.access_moves ..) <|
              .seq (.ite (.of (State.lrcFill_moves ..)) (.refl ..)) <| .of (State.onReq_moves ..)) <|
              .after (State.readIssued_moves ..) <| .of (State.onSub_moves ..)

theorem execWcbDrain_moves (ch line s) : AnswerMoves (touches (.wcbDrain ch line)) s (execWcbDrain ch line s) := by
  conv => arg 1; whnf
  refine live_moves fun s => ?_
  dsimp only
  exact .ite (.refl ..) <| .seq (.after (State.resume_moves ..) <| .ite (.after (State.enterQ_moves ..) <|
    .of (State.onSub_moves ..)) (.refl ..)) <| .after (State.drainParity_moves ..) <| .of (State.drainLine_moves ..)

theorem execPageIdleExpiry_moves (ch sub bank s) :
    AnswerMoves (touches (.pageIdleExpiry ch sub bank)) s (execPageIdleExpiry ch sub bank s) := by
  conv => arg 1; whnf
  refine live_moves fun s => ?_
  split
  · exact .ite (.refl ..) <| .of (State.closeRow_moves ..)
  · exact .refl ..

theorem execRefresh_moves (ch sub rank ba due s) :
    AnswerMoves (touches (.refresh ch sub rank ba due)) s (execRefresh ch sub rank ba due s) := by
  conv => arg 1; whnf
  refine live_moves fun s => ?_
  dsimp only
  exact .ite (.refl ..) <| .ite (.ite (.of (State.onSub_moves ..)) <| .ite (.of (State.onSub_moves ..)) <|
    .of (State.refresh_moves ..)) <| .ite (.after (State.refresh_moves ..) <| .of (State.onSub_moves ..)) (.refl ..)

theorem execDimmTempPoll_moves (ch t s) : AnswerMoves (touches (.dimmTempPoll ch t)) s (execDimmTempPoll ch t s) := by
  conv => arg 1; whnf
  exact live_moves fun s => .ite (.refl ..) <| .ite (.ite (.of (State.onBus_moves ..)) (.refl ..)) <| .of (State.dimmTemp_moves ..)

theorem execChIdleSrExpiry_moves (ch s) : AnswerMoves (touches (.chIdleSrExpiry ch)) s (execChIdleSrExpiry ch s) := by
  conv => arg 1; whnf
  refine live_moves fun s => ?_
  dsimp only
  exact .ite (.after (State.countChan_moves ..) <| .of (State.onChan_moves ..)) (.refl ..)

theorem execSelfRefreshExit_moves (ch s) : AnswerMoves (touches (.selfRefreshExit ch)) s (execSelfRefreshExit ch s) := by
  conv => arg 1; whnf
  exact live_moves fun s => .ite (.after (State.resumeMem_moves ..) <| .after (State.irqEdge_moves ..) <|
    .of (State.onChan_moves ..)) (.refl ..)

theorem execChIdlePdExpiry_moves (ch s) : AnswerMoves (touches (.chIdlePdExpiry ch)) s (execChIdlePdExpiry ch s) := by
  conv => arg 1; whnf
  refine live_moves fun s => ?_
  dsimp only
  exact .ite (.after (State.countChan_moves ..) <| .of (State.onChan_moves ..)) (.refl ..)

theorem execAlertNAssert_moves (ch s) : AnswerMoves (touches (.alertNAssert ch)) s (execAlertNAssert ch s) := by
  conv => arg 1; whnf
  refine live_moves fun s => ?_
  dsimp only
  exact .ite (.refl ..) <| .of (State.onChan_moves ..)

theorem execAlertRelease_moves (ch s) : AnswerMoves (touches (.alertRelease ch)) s (execAlertRelease ch s) := by
  conv => arg 1; whnf
  refine live_moves fun s => ?_
  dsimp only
  exact .ite (.refl ..) <| .after (State.countChan_moves ..) <| .after (State.replayCmds_moves ..) <|
    .after (State.replayCmds_moves ..) <| .of (State.onChan_moves ..)

theorem execChannelTrainingDone_moves (ch ok lanes osc s) :
    AnswerMoves (touches (.channelTrainingDone ch ok lanes osc)) s (execChannelTrainingDone ch ok lanes osc s) := by
  conv => arg 1; whnf
  refine live_moves fun s => ?_
  dsimp only
  exact .ite (.refl ..) <| .ite (.after (State.onChan_moves ..) <| .of (State.trained_moves ..)) <|
    .ite (.after (State.failChannel_moves ..) <| .of (State.onChan_moves ..)) <| .of (State.onChan_moves ..)

theorem execChannelFillDone_moves (ch s) : AnswerMoves (touches (.channelFillDone ch)) s (execChannelFillDone ch s) := by
  conv => arg 1; whnf
  refine live_moves fun s => ?_
  dsimp only
  exact .ite (.refl ..) <| .after (State.resumeMem_moves ..) <| .after (State.startRebuilds_moves ..) <| .after (State.onChan_moves ..) <|
    .record (.refl ..) (k_dram := Memory.wf_filter _ _)

theorem execDqsOscMeasure_moves (ch rank change s) :
    AnswerMoves (touches (.dqsOscMeasure ch rank change)) s (execDqsOscMeasure ch rank change s) := by
  conv => arg 1; whnf
  refine live_moves fun s => ?_
  dsimp only
  exact .ite (.refl ..) <| .ite (.of (State.wantRetrain_moves ..)) <| .after (State.countChan_moves ..) <| .of (State.onChan_moves ..)

theorem execReadCentreRecheck_moves (ch lane off s) :
    AnswerMoves (touches (.readCentreRecheck ch lane off)) s (execReadCentreRecheck ch lane off s) := by
  conv => arg 1; whnf
  refine live_moves fun s => ?_
  dsimp only
  exact .ite (.refl ..) <| .ite (.of (State.wantRetrain_moves ..)) <| .after (State.countChan_moves ..) <| .of (State.onChan_moves ..)

theorem execRetrainStart_moves (ch s) : AnswerMoves (touches (.retrainStart ch)) s (execRetrainStart ch s) := by
  conv => arg 1; whnf
  refine live_moves fun s => ?_
  dsimp only
  exact .ite (.refl ..) <| .ite (.after (State.trainResult_moves ..) <| .after (State.onChan_moves ..) <|
    .of (State.recovery_moves ..)) <| .ite (.after (State.failChannel_moves ..) <| .of (State.trainResult_moves ..)) <|
    .after (State.countChan_moves ..) <| .after (State.trainResult_moves ..) <| .after (State.onChan_moves ..) <|
    .of (State.recovery_moves ..)

theorem execRetrainDone_moves (ch lanes osc s) : AnswerMoves (touches (.retrainDone ch lanes osc)) s (execRetrainDone ch lanes osc s) := by
  conv => arg 1; whnf
  refine live_moves fun s => ?_
  dsimp only
  exact .ite (.refl ..) <| .ite (.after (State.resumeMem_moves ..) <| .after (State.trainResult_moves ..) <|
    .after (State.onChan_moves ..) <| .ite (.of (State.trained_moves ..)) <| .of (State.onChan_moves ..)) <|
    .after (State.failChannel_moves ..) <| .after (State.trainResult_moves ..) <| .of (State.onChan_moves ..)

theorem execTrainRetrain_moves (s) : AnswerMoves (touches .trainRetrain) s (execTrainRetrain s) := by
  conv => arg 1; whnf
  exact record_moves fun s => .of (State.trainCmd_moves ..)

theorem execTrainFull_moves (s) : AnswerMoves (touches .trainFull) s (execTrainFull s) := by
  conv => arg 1; whnf
  exact record_moves fun s => .of (State.trainCmd_moves ..)

theorem execSbArbLost_moves (bus s) : AnswerMoves (touches (.sbArbLost bus)) s (execSbArbLost bus s) := by
  conv => arg 1; whnf
  exact live_moves fun s => .ite (.of (State.arbLost_moves ..)) (.refl ..)

theorem execSbBackoffExpiry_moves (bus answer s) :
    AnswerMoves (touches (.sbBackoffExpiry bus answer)) s (execSbBackoffExpiry bus answer s) := by
  conv => arg 1; whnf
  exact live_moves fun s => .ite (.after (State.busFree_moves ..) <| .of (State.sbTransfer_moves ..)) <| .of (State.onBus_moves ..)

theorem execSbBusRecovery_moves (bus s) : AnswerMoves (touches (.sbBusRecovery bus)) s (execSbBusRecovery bus s) := by
  conv => arg 1; whnf
  exact live_moves fun s => .after (State.countBus_moves ..) <| .after (State.emit_moves ..) <| .of (State.onBus_moves ..)

theorem execSbRead_moves (lost answer s) : AnswerMoves (touches (.sbRead lost answer)) s (execSbRead lost answer s) := by
  conv => arg 1; whnf
  exact record_moves fun s => .of (State.sbStart_moves ..)

theorem execSbWrite_moves (lost acked s) : AnswerMoves (touches (.sbWrite lost acked)) s (execSbWrite lost acked s) := by
  conv => arg 1; whnf
  exact record_moves fun s => .of (State.sbStart_moves ..)

/-! ### Stored data protection (R363 to R388) -/

theorem execScrubLine_moves (ch s) : AnswerMoves (touches (.scrubLine ch)) s (execScrubLine ch s) := by
  conv => arg 1; whnf
  refine live_moves fun s => ?_
  dsimp only
  refine .ite (.refl ..) ?_
  generalize moved : s.onChan ch.val _ = u
  have move : Moves [.chans] s u := moved ▸ State.onChan_moves ..
  refine .seq (.ite (.refl ..) <| .after (State.countChan_moves ..) ?_) (.of move)
  split
  · exact .seq (.ite (.of (State.checkStripe_moves ..)) <| .ite (.of (State.enterStale_moves ..)) (.refl ..)) <| .of (State.fetch_moves ..)
  · exact .of (State.fetch_moves ..)

theorem execParityDelta_moves (ch m line s) : AnswerMoves (touches (.parityDelta ch m line)) s (execParityDelta ch m line s) := by
  conv => arg 1; whnf
  refine live_moves fun s => ?_
  split
  · exact .ite (.of (State.deltaStale_moves ..)) <| .after (State.mergeDelta_moves ..) <| .of (State.onChan_moves ..)
  · exact .refl ..

theorem execParityAckTimeout_moves (ch m line s) :
    AnswerMoves (touches (.parityAckTimeout ch m line)) s (execParityAckTimeout ch m line s) := by
  conv => arg 1; whnf
  refine live_moves fun s => ?_
  split
  · exact .of (State.deltaStale_moves ..)
  · exact .refl ..

theorem execStaleStripeRebuild_moves (group stripe s) :
    AnswerMoves (touches (.staleStripeRebuild group stripe)) s (execStaleStripeRebuild group stripe s) := by
  conv => arg 1; whnf
  refine live_moves fun s => ?_
  dsimp only
  split
  · exact .ite (.refl ..) <| .after (State.countChan_moves ..) <| .record <| .foldl (fun _ _ => .of (State.rebuildStale_moves ..)) <|
      .refl ..
  · exact .refl ..

theorem execChannelFailed_moves (ch s) : AnswerMoves (touches (.channelFailed ch)) s (execChannelFailed ch s) := by
  conv => arg 1; whnf
  refine live_moves fun s => ?_
  dsimp only
  exact .ite (.of (State.failChannel_moves ..)) (.refl ..)

theorem execRebuildStripe_moves (group s) : AnswerMoves (touches (.rebuildStripe group)) s (execRebuildStripe group s) := by
  conv => arg 1; whnf
  refine live_moves fun s => ?_
  dsimp only
  split
  · exact .refl ..
  · exact .ite (.refl ..) <| .seq (.ite (.of (State.endRebuild_moves ..)) (.refl ..)) <| .after (State.countChan_moves ..) <|
      .after (State.onGroup_moves ..) <| .seq (.ite (.record <| .refl ..) (.refl ..)) <|
      .foldl (fun _ _ => .after (State.rebuildWrite_moves ..) <| .of (State.rebuildRead_moves ..)) <|
      .foldl (fun _ _ => .of (State.drainLine_moves ..)) <| .refl ..

theorem execRowRepair_moves (ch left s) : AnswerMoves (touches (.rowRepair ch left)) s (execRowRepair ch left s) := by
  conv => arg 1; whnf
  refine live_moves fun s => ?_
  split
  · exact .of (State.endRepair_moves ..)
  · exact .ite (.refl ..) <| .ite (.of (State.startRepair_moves ..)) <| .of (State.onChan_moves ..)
  · exact .refl ..

theorem execWriteRaw_moves (s) : AnswerMoves (touches .writeRaw) s (execWriteRaw s) := by
  conv => arg 1; whnf
  exact eccCmd_moves fun s ch line => .after (State.eccResult_moves ..) <| .of (State.putRaw_moves ..)

theorem execReadRaw_moves (s) : AnswerMoves (touches .readRaw) s (execReadRaw s) := by
  conv => arg 1; whnf
  refine eccCmd_moves fun s ch line => ?_
  dsimp only
  exact .after (State.eccResult_moves ..) <| .after (State.setBlob_moves ..) <| .of (State.setBlob_moves ..)

theorem execReadDecoded_moves (s) : AnswerMoves (touches .readDecoded) s (execReadDecoded s) := by
  conv => arg 1; whnf
  refine eccCmd_moves fun s ch line => ?_
  dsimp only
  exact .after (State.eccResult_moves ..) <| .after (State.setBlob_moves ..) <| .after (State.setBlob_moves ..) <|
    .ite (.of (State.corrected_moves ..)) <| .ite (.of (State.countChan_moves ..)) (.refl ..)

theorem execCeLogClear_moves (s) : AnswerMoves (touches .ceLogClear) s (execCeLogClear s) := by
  conv => arg 1; whnf
  exact eccCmd_moves fun s ch x => .after (State.eccResult_moves ..) <| .of (State.onChan_moves ..)

theorem execPpr_moves (s) : AnswerMoves (touches .ppr) s (execPpr s) := by
  conv => arg 1; whnf
  exact eccCmd_moves fun s ch line => .ite (.of (State.eccResult_moves ..)) <| .after (State.eccResult_moves ..) <|
    .of (State.startRepair_moves ..)

theorem execEvacuate_moves (s) : AnswerMoves (touches .evacuate) s (execEvacuate s) := by
  conv => arg 1; whnf
  refine eccCmd_moves fun s ch x => ?_
  split
  · exact .ite (.after (State.eccResult_moves ..) <| .of (State.failChannel_moves ..)) <| .of (State.eccResult_moves ..)
  · exact .of (State.eccResult_moves ..)

/-! ### Keys, firmware, attestation and debug (R391 to R416) -/

theorem execEntropyHealthFail_moves (s) : AnswerMoves (touches .entropyHealthFail) s (execEntropyHealthFail s) := by
  conv => arg 1; whnf
  refine awake_moves fun s => ?_
  dsimp only
  exact .after (State.irqEdge_moves ..) <| .record <| .refl ..

theorem execEntropyRetest_moves (ok s) : AnswerMoves (touches (.entropyRetest ok)) s (execEntropyRetest ok s) := by
  conv => arg 1; whnf
  refine awake_moves fun s => ?_
  dsimp only
  exact .ite (.after (State.makePending_moves ..) <| .record <| .refl ..) (.refl ..)

theorem execDrbgReseed_moves (s) : AnswerMoves (touches .drbgReseed) s (execDrbgReseed s) := by
  conv => arg 1; whnf
  refine awake_moves fun s => ?_
  dsimp only
  exact .ite (.refl ..) <| .after (State.makePending_moves ..) <| .after (State.countIk_moves ..) <| .record <| .refl ..

theorem execKeyCacheFill_moves (die gid s) : AnswerMoves (touches (.keyCacheFill die gid)) s (execKeyCacheFill die gid s) := by
  conv => arg 1; whnf
  refine live_moves fun s => ?_
  dsimp only
  refine .ite (.refl ..) ?_
  split
  · exact .after (State.keyFail_moves ..) <| .record <| .refl ..
  · exact .record <| .refl ..

theorem execTeardown_moves (s) : AnswerMoves (touches .teardown) s (execTeardown s) := by
  conv => arg 1; whnf
  exact record_moves fun s => .ite (.of (State.teardownResult_moves ..)) <| .ite (.of (State.teardownResult_moves ..)) <|
    .ite (.of (State.teardownResult_moves ..)) <| .after (State.teardownResult_moves ..) <| .after (State.distributeAll_moves ..) <|
    .of (State.startTeardown_moves ..)

theorem execTeardownDrainDone_moves (s) : AnswerMoves (touches .teardownDrainDone) s (execTeardownDrainDone s) := by
  conv => arg 1; whnf
  exact live_moves fun s => .foldl (fun _ _ => .of (State.tearOne_moves ..)) <| .refl ..

theorem execQueryKey_moves (s) : AnswerMoves (touches .queryKey) s (execQueryKey s) := by
  conv => arg 1; whnf
  refine record_moves fun s => ?_
  split
  · exact .of (State.teardownResult_moves ..)
  · exact .after (State.teardownResult_moves ..) <| .of (State.setReg_moves ..)

theorem execWriteChunk_moves (s) : AnswerMoves (touches .writeChunk) s (execWriteChunk s) := by
  conv => arg 1; whnf
  refine fwCmd_moves fun s => ?_
  dsimp only
  exact .ite (.of (State.fwResult_moves ..)) <| .after (State.fwResult_moves ..) <| .record <| .refl ..

theorem execVerify_moves (s) : AnswerMoves (touches .verify) s (execVerify s) := by
  conv => arg 1; whnf
  refine fwCmd_moves fun s => ?_
  dsimp only
  split
  · exact .after (State.fwResult_moves ..) <| .record <| .of (State.noteSlot_moves ..)
  · exact .after (State.fwResult_moves ..) <| .record <| .refl ..

theorem execActivate_moves (s) : AnswerMoves (touches .activate) s (execActivate s) := by
  conv => arg 1; whnf
  refine fwCmd_moves fun s => ?_
  dsimp only
  exact .ite (.of (State.fwResult_moves ..)) <| .ite (.of (State.fwResult_moves ..)) <| .after (State.fwResult_moves ..) <| .record <|
    .refl ..

theorem execFwConfirm_moves (s) : AnswerMoves (touches .fwConfirm) s (execFwConfirm s) := by
  conv => arg 1; whnf
  refine managed_moves fun s => ?_
  dsimp only
  split
  · exact .refl ..
  · exact .after (State.fwResult_moves ..) <| .record <| .refl ..

theorem execCommitSvn_moves (s) : AnswerMoves (touches .commitSvn) s (execCommitSvn s) := by
  conv => arg 1; whnf
  refine fwCmd_moves fun s => ?_
  dsimp only
  exact .ite (.of (State.fwOpen_moves ..)) <| .ite (.of (State.fwResult_moves ..)) <| .after (State.fwResult_moves ..) <| .record <|
    .refl ..

theorem execAttest_moves (nonce s) : AnswerMoves (touches (.attest nonce)) s (execAttest nonce s) := by
  conv => arg 1; whnf
  refine managed_moves fun s => ?_
  dsimp only
  exact .ite (.refl ..) <| .seq (.ite (.refl ..) <| .of (State.setBlob_moves ..)) <| .of (State.setBlob_moves ..)

theorem execChallenge_moves (s) : AnswerMoves (touches .challenge) s (execChallenge s) := by
  conv => arg 1; whnf
  refine record_moves fun s => ?_
  dsimp only
  exact .ite (.of (State.debugResult_moves ..)) <| .ite (.after (State.debugResult_moves ..) <| .record <| .refl ..) <|
    .after (State.debugResult_moves ..) <| .after (State.setBlob_moves ..) <| .record <| .of (State.draw_moves ..)

theorem execUnlock_moves (s) : AnswerMoves (touches .unlock) s (execUnlock s) := by
  conv => arg 1; whnf
  refine record_moves fun s => ?_
  dsimp only
  split
  · exact .of (State.debugResult_moves ..)
  · exact .ite (.after (State.debugResult_moves ..) <| .of (State.unlockDebug_moves ..)) <| .after (State.debugResult_moves ..) <|
      .record <| .refl ..

theorem execDebugNonceExpiry_moves (s) : AnswerMoves (touches .debugNonceExpiry) s (execDebugNonceExpiry s) := by
  conv => arg 1; whnf
  refine awake_moves fun s => ?_
  dsimp only
  exact .record <| .refl ..

theorem execExtest_moves (s) : AnswerMoves (touches .extest) s (execExtest s) := by
  conv => arg 1; whnf
  refine .next ?_
  dsimp only
  exact .ite (.refl ..) <| .seq (.ite (.refl ..) <| .of (State.halt_moves ..)) <| .record <| .refl ..

theorem execTapReset_moves (s) : AnswerMoves (touches .tapReset) s (execTapReset s) := by
  conv => arg 1; whnf
  refine .next ?_
  dsimp only
  exact .ite (.record <| .refl ..) (.refl ..)

/-! ### Innkeeper, interrupts and pigeonholes (R422 to R455) -/

theorem execHeartbeat_moves (s) : AnswerMoves (touches .heartbeat) s (execHeartbeat s) := by
  conv => arg 1; whnf
  refine ikEvent_moves fun s => ?_
  dsimp only
  exact .ite (.record <| .refl ..) (.refl ..)

theorem execHeartbeatTimeout_moves (s) : AnswerMoves (touches .heartbeatTimeout) s (execHeartbeatTimeout s) := by
  conv => arg 1; whnf
  exact ikEvent_moves fun s => .ite (.of (State.ikFail_moves ..)) (.refl ..)

theorem execWatchdogExpiry_moves (s) : AnswerMoves (touches .watchdogExpiry) s (execWatchdogExpiry s) := by
  conv => arg 1; whnf
  exact ikEvent_moves fun s => .of (State.ikFail_moves ..)

theorem execInnkeeperFailure_moves (die cause s) :
    AnswerMoves (touches (.innkeeperFailure die cause)) s (execInnkeeperFailure die cause s) := by
  conv => arg 1; whnf
  refine ikEvent_moves fun s => ?_
  split
  · exact .ite (.of (State.targetFail_moves ..)) (.refl ..)
  · exact .ite (.refl ..) <| .ite (.of (State.ikFail_moves ..)) <| .ite (.after (State.irqEdge_moves ..) <|
      .of (State.failDie_moves ..)) (.refl ..)

theorem execTakeoverDone_moves (s) : AnswerMoves (touches .takeoverDone) s (execTakeoverDone s) := by
  conv => arg 1; whnf
  refine ikEvent_moves fun s => ?_
  dsimp only
  split
  · exact .refl ..
  · exact .ite (.refl ..) <| .seq (.seq (.seq (.after (State.drainSet_moves ..) <| .after (State.makePending_moves ..) <|
      .after (State.irqEdge_moves ..) <| .ite (.of (State.switchEnd_moves ..)) (.refl ..)) <| .after (State.trial_moves ..) <|
      .after (State.releaseOutputs_moves ..) <| .after (State.endSessions_moves ..) <| .of (State.countTakeover_moves ..)) <|
      .ite (.of (State.onIkd_moves ..)) (.refl ..)) <| .after (State.takeIrq_moves ..) <| .of (State.onIkd_moves ..)

theorem execCheckpoint_moves (s) : AnswerMoves (touches .checkpoint) s (execCheckpoint s) := by
  conv => arg 1; whnf
  exact ikEvent_moves fun s => .of (State.startCkpt_moves ..)

theorem execCheckpointComplete_moves (s) : AnswerMoves (touches .checkpointComplete) s (execCheckpointComplete s) := by
  conv => arg 1; whnf
  refine ikEvent_moves fun s => ?_
  split
  · exact .ite (.refl ..) <| .ite (.after (State.startCkpt_moves ..) <| .of (State.completeCkpt_moves ..)) <|
      .of (State.completeCkpt_moves ..)
  · exact .refl ..

theorem execCheckpointLate_moves (s) : AnswerMoves (touches .checkpointLate) s (execCheckpointLate s) := by
  conv => arg 1; whnf
  refine ikEvent_moves fun s => ?_
  dsimp only
  exact .ite (.after (State.countIk_moves ..) <| .after (State.irqEdge_moves ..) <| .record <| .refl ..) (.refl ..)

theorem execIkSelfTestRun_moves (die pass s) : AnswerMoves (touches (.ikSelfTestRun die pass)) s (execIkSelfTestRun die pass s) := by
  conv => arg 1; whnf
  refine ikEvent_moves fun s => ?_
  dsimp only
  exact .ite (.refl ..) <| .ite (.of (State.failRun_moves ..)) <| .seq (.ite (.record <| .refl ..) (.refl ..)) <|
    .of (State.passRun_moves ..)

theorem execIkRecoveryTest_moves (die pass s) : AnswerMoves (touches (.ikRecoveryTest die pass)) s (execIkRecoveryTest die pass s) := by
  conv => arg 1; whnf
  refine ikEvent_moves fun s => ?_
  dsimp only
  refine .ite (.refl ..) ?_
  split
  · exact .refl ..
  · exact .after (State.drainSet_moves ..) <| .after (State.makePending_moves ..) <| .after (State.endSessions_moves ..) <| .record <|
      .after (State.trial_moves ..) <| .after (State.takeIrq_moves ..) <| .of (State.onIkd_moves ..)

theorem execSwitch_moves (s) : AnswerMoves (touches .switch) s (execSwitch s) := by
  conv => arg 1; whnf
  refine record_moves fun s => ?_
  dsimp only
  exact .ite (.of (State.ikResult_moves ..)) <| .after (State.ikResult_moves ..) <| .record <| .refl ..

theorem execRetest_moves (s) : AnswerMoves (touches .retest) s (execRetest s) := by
  conv => arg 1; whnf
  exact ikDieCmd_moves fun s d => .ite (.after (State.irqEdge_moves ..) <| .of (State.onIkd_moves ..)) (.refl ..)

theorem execHoldOut_moves (s) : AnswerMoves (touches .holdOut) s (execHoldOut s) := by
  conv => arg 1; whnf
  refine ikDieCmd_moves fun s d => ?_
  dsimp only
  exact .seq (.ite (.refl ..) <| .of (State.irqEdge_moves ..)) <| .after (State.onIkd_moves ..) <| .of (State.dropRevert_moves ..)

theorem execRelease_moves (s) : AnswerMoves (touches .release) s (execRelease s) := by
  conv => arg 1; whnf
  exact ikDieCmd_moves fun s d => .ite (.after (State.irqEdge_moves ..) <| .of (State.onIkd_moves ..)) (.refl ..)

theorem execIrqEdge_moves (src s) : AnswerMoves (touches (.irqEdge src)) s (execIrqEdge src s) := by
  conv => arg 1; whnf
  exact awake_moves fun s => .of (State.irqEdge_moves ..)

theorem execIrqDeliver_moves (reenabled s) : AnswerMoves (touches (.irqDeliver reenabled)) s (execIrqDeliver reenabled s) := by
  conv => arg 1; whnf
  refine managed_moves fun s => ?_
  dsimp only
  split
  · exact .after (State.countIk_moves ..) <| .record <| .refl ..
  · exact .record <| .refl ..

theorem execIrqQuery_moves (s) : AnswerMoves (touches .irqQuery) s (execIrqQuery s) := by
  conv => arg 1; whnf
  exact irqCmd_moves fun s n => .after (State.setReg_moves ..) <| .of (State.setReg_moves ..)

theorem execSetPending_moves (s) : AnswerMoves (touches .setPending) s (execSetPending s) := by
  conv => arg 1; whnf
  exact irqCmd_moves fun s n => .of (State.onPend_moves ..)

theorem execClearPending_moves (s) : AnswerMoves (touches .clearPending) s (execClearPending s) := by
  conv => arg 1; whnf
  exact irqCmd_moves fun s n => .of (State.onPend_moves ..)

theorem execClearCount_moves (s) : AnswerMoves (touches .clearCount) s (execClearCount s) := by
  conv => arg 1; whnf
  exact irqCmd_moves fun s n => .of (State.onPend_moves ..)

theorem execIrqAlertStatusWrite_moves (v s) : AnswerMoves (touches (.irqAlertStatusWrite v)) s (execIrqAlertStatusWrite v s) := by
  conv => arg 1; whnf
  refine managed_moves fun s => ?_
  dsimp only
  exact .record <| .refl ..

theorem execIrqOverrunWrite_moves (v s) : AnswerMoves (touches (.irqOverrunWrite v)) s (execIrqOverrunWrite v s) := by
  conv => arg 1; whnf
  refine managed_moves fun s => ?_
  dsimp only
  exact .record <| .refl ..

theorem execReadIn_moves (s) : AnswerMoves (touches .readIn) s (execReadIn s) := by
  conv => arg 1; whnf
  refine pigeonCmd_moves fun s h => ?_
  dsimp only
  exact .ite (.after (State.setReg_moves ..) <| .of (State.setReg_moves ..)) <| .after (State.setReg_moves ..) <|
    .after (State.setBlob_moves ..) <| .after (State.setReg_moves ..) <| .of (State.setHole_moves ..)

theorem execWriteOut_moves (s) : AnswerMoves (touches .writeOut) s (execWriteOut s) := by
  conv => arg 1; whnf
  refine pigeonCmd_moves fun s h => ?_
  dsimp only
  exact .ite (.of (State.setReg_moves ..)) <| .ite (.of (State.setReg_moves ..)) <| .after (State.setReg_moves ..) <|
    .of (State.setHole_moves ..)

theorem execPigeonOwnerWrite_moves (hole v s) : AnswerMoves (touches (.pigeonOwnerWrite hole v)) s (execPigeonOwnerWrite hole v s) := by
  conv => arg 1; whnf
  exact managed_moves fun s => .ite (.of (State.setHole_moves ..)) (.refl ..)

/-! ### The dictionary (R456 to R485) -/

theorem execT1sFrame_moves (f s) : AnswerMoves (touches (.t1sFrame f)) s (execT1sFrame f s) := by
  conv => arg 1; whnf
  refine awake_moves fun s => ?_
  dsimp only
  exact .ite (.refl ..) <| .seq (.ite (.of (State.wakeSource_moves ..)) (.refl ..)) <| .ite (.of (State.dictDropped_moves ..)) <|
    .of (State.dictArrive_moves ..)

theorem execPlcaBeaconTimeout_moves (s) : AnswerMoves (touches .plcaBeaconTimeout) s (execPlcaBeaconTimeout s) := by
  conv => arg 1; whnf
  refine awake_moves fun s => ?_
  dsimp only
  exact .ite (.after (State.countIk_moves ..) <| .record <| .refl ..) (.refl ..)

theorem execDictRead_moves (s) : AnswerMoves (touches .dictRead) s (execDictRead s) := by
  conv => arg 1; whnf
  refine dict_moves fun s => State.serveFront_moves rfl (.refl ..) fun u a p d => ?_
  split
  · exact .done <| .refl ..
  · split
    · exact .done <| .refl ..
    · exact State.serveRead_moves rfl ..

theorem execDescribe_moves (s) : AnswerMoves (touches .describe) s (execDescribe s) := by
  conv => arg 1; whnf
  refine dict_moves fun s => State.serveFront_moves rfl (.refl ..) fun u a p d => ?_
  split
  · exact .done <| .refl ..
  · exact .done <| .refl ..

theorem execDefaults_moves (s) : AnswerMoves (touches .defaults) s (execDefaults s) := by
  conv => arg 1; whnf
  exact dict_moves fun s => State.serveFront_moves rfl (.refl ..) fun u a p d => .ite (.done <| .refl ..) <| .ite (.done <| .refl ..) <|
    .ite .wait <| .done <| .foldl (fun _ _ => .after (State.journalled_moves ..) <| .of (State.toDefault_moves ..)) <| .refl ..

theorem execOpenHello_moves (s) : AnswerMoves (touches .openHello) s (execOpenHello s) := by
  conv => arg 1; whnf
  refine dict_moves fun s => State.serveFront_moves rfl (.refl ..) fun u a p d => ?_
  dsimp only
  refine .ite (.done <| .of (State.seePeer_moves ..)) ?_
  split
  · exact .done <| .of (State.seePeer_moves ..)
  · exact .done <| .record <| .after (State.draw_moves ..) <| .after (State.draw_moves ..) <| .of (State.seePeer_moves ..)

theorem execOpenCert_moves (s) : AnswerMoves (touches .openCert) s (execOpenCert s) := by
  conv => arg 1; whnf
  refine dict_moves fun s => State.serveFront_moves rfl (.refl ..) fun u a p d => ?_
  dsimp only
  split
  · exact .done <| .refl ..
  · refine .ite (.done <| .refl ..) ?_
    split
    · exact .done <| .of (State.stage_moves ..)
    · exact .done <| .of (State.stage_moves ..)
    · exact .done <| .record <| .of (State.stage_moves ..)

theorem execOpenProve_moves (s) : AnswerMoves (touches .openProve) s (execOpenProve s) := by
  conv => arg 1; whnf
  refine dict_moves fun s => State.serveFront_moves rfl (.refl ..) fun u a p d => ?_
  dsimp only
  split
  · exact .done <| .refl ..
  · exact .ite (.done <| .record <| .refl ..) <| .done <| .after (State.openFailed_moves ..) <| .of (State.freeSession_moves ..)

theorem execClose_moves (s) : AnswerMoves (touches .close) s (execClose s) := by
  conv => arg 1; whnf
  exact dict_moves fun s => State.serveFront_moves rfl (.refl ..) fun u a p d => .done <| .of (State.freeSession_moves ..)

theorem execSnapshotExpiry_moves (s) : AnswerMoves (touches .snapshotExpiry) s (execSnapshotExpiry s) := by
  conv => arg 1; whnf
  refine awake_moves fun s => ?_
  dsimp only
  exact .record <| .refl ..

theorem execStagingExpiry_moves (session s) : AnswerMoves (touches (.stagingExpiry session)) s (execStagingExpiry session s) := by
  conv => arg 1; whnf
  exact awake_moves fun s => .ite (.refl ..) <| .of (State.setStaging_moves ..)

theorem execSessionOpenTimeout_moves (session s) :
    AnswerMoves (touches (.sessionOpenTimeout session)) s (execSessionOpenTimeout session s) := by
  conv => arg 1; whnf
  refine awake_moves fun s => ?_
  split
  · exact .ite (.after (State.openFailed_moves ..) <| .of (State.freeSession_moves ..)) (.refl ..)
  · exact .refl ..

theorem execSessionIdleExpiry_moves (session s) :
    AnswerMoves (touches (.sessionIdleExpiry session)) s (execSessionIdleExpiry session s) := by
  conv => arg 1; whnf
  refine awake_moves fun s => ?_
  split
  · exact .ite (.of (State.freeSession_moves ..)) (.refl ..)
  · exact .refl ..

theorem execOpenLockoutExpiry_moves (inband addr s) :
    AnswerMoves (touches (.openLockoutExpiry inband addr)) s (execOpenLockoutExpiry inband addr s) := by
  conv => arg 1; whnf
  refine awake_moves fun s => ?_
  dsimp only
  exact .record <| .refl ..

theorem execFlashCompactionDone_moves (s) : AnswerMoves (touches .flashCompactionDone) s (execFlashCompactionDone s) := by
  conv => arg 1; whnf
  refine awake_moves fun s => ?_
  dsimp only
  exact .ite (.refl ..) <| .foldl (fun _ _ => .of (State.persist_moves ..)) <| .record <| .refl ..

theorem execClearTrained_moves (s) : AnswerMoves (touches .clearTrained) s (execClearTrained s) := by
  conv => arg 1; whnf
  refine record_moves fun s => ?_
  dsimp only
  exact .ite (.of (State.setReg_moves ..)) <| .after (State.setReg_moves ..) <| .foldl (fun _ _ => .after (State.persist_moves ..) <|
    .of (State.setBlob_moves ..)) <| .refl ..

theorem execRegisterWrite_moves (idx sub v s) : AnswerMoves (touches (.registerWrite idx sub v)) s (execRegisterWrite idx sub v s) := by
  conv => arg 1; whnf
  refine managed_moves fun s => ?_
  dsimp only
  split
  · exact .refl ..
  · exact .ite (.refl ..) <| .ite (.refl ..) <| .after (State.journalled_moves ..) <| .of (State.storeObj_moves ..)

/-! ### Power and clocks (R486 to R510) -/

theorem execClusterShutterExpiry_moves (cluster s) :
    AnswerMoves (touches (.clusterShutterExpiry cluster)) s (execClusterShutterExpiry cluster s) := by
  conv => arg 1; whnf
  exact live_moves fun s => .ite (.of (State.onCluster_moves ..)) (.refl ..)

theorem execClusterDarkExpiry_moves (cluster s) :
    AnswerMoves (touches (.clusterDarkExpiry cluster)) s (execClusterDarkExpiry cluster s) := by
  conv => arg 1; whnf
  refine live_moves fun s => ?_
  dsimp only
  exact .ite (.record <| .of (State.onCluster_moves ..)) (.refl ..)

theorem execClusterWakeDone_moves (cluster s) : AnswerMoves (touches (.clusterWakeDone cluster)) s (execClusterWakeDone cluster s) := by
  conv => arg 1; whnf
  refine live_moves fun s => ?_
  dsimp only
  exact .ite (.seq (.ite (.of (State.irqEdge_moves ..)) (.refl ..)) <| .of (State.onCluster_moves ..)) (.refl ..)

theorem execNight_moves (s) : AnswerMoves (touches .night) s (execNight s) := by
  conv => arg 1; whnf
  refine record_moves fun s => ?_
  dsimp only
  exact .ite (.after (State.setReg_moves ..) <| .of (State.setReg_moves ..)) <| .ite (.of (State.setReg_moves ..)) <|
    .ite (.of (State.setReg_moves ..)) <| .after (State.setReg_moves ..) <| .record <| .refl ..

theorem execNightEntryStepDone_moves (s) : AnswerMoves (touches .nightEntryStepDone) s (execNightEntryStepDone s) := by
  conv => arg 1; whnf
  refine live_moves fun s => ?_
  dsimp only
  exact .ite (.refl ..) <| .seq (.ite (.refl ..) <| .record <| .refl ..) <| .ite (.of (State.drainAll_moves ..)) <|
    .ite (.after (State.completeCkpt_moves ..) <| .record <| .refl ..) <| .ite (.after (State.askAll_moves ..) <| .record <|
    .refl ..) <| .ite (.of (State.stopRest_moves ..)) <| .ite (.after (State.sleepChans_moves ..) <| .record <| .refl ..) <|
    .of (State.enterNight_moves ..)

theorem execWake_moves (source link s) : AnswerMoves (touches (.wake source link)) s (execWake source link s) := by
  conv => arg 1; whnf
  exact awake_moves fun s => .ite (.ite (.of (State.wakeSource_moves ..)) (.refl ..)) <|
    .ite (.ite (.of (State.wake_moves ..)) (.refl ..)) <| .of (State.wakeSource_moves ..)

theorem execWakeNLow_moves (low s) : AnswerMoves (touches (.wakeNLow low)) s (execWakeNLow low s) := by
  conv => arg 1; whnf
  refine .next ?_
  dsimp only
  exact .seq (.ite (.of (State.wakeSource_moves ..)) (.refl ..)) <| .record <| .refl ..

theorem execWakeTimerExpiry_moves (s) : AnswerMoves (touches .wakeTimerExpiry) s (execWakeTimerExpiry s) := by
  conv => arg 1; whnf
  exact awake_moves fun s => .ite (.of (State.wakeSource_moves ..)) (.refl ..)

theorem execNightExitDone_moves (bad s) : AnswerMoves (touches (.nightExitDone bad)) s (execNightExitDone bad s) := by
  conv => arg 1; whnf
  refine live_moves fun s => ?_
  dsimp only
  exact .ite (.refl ..) <| .after (State.resumeMem_moves ..) <| .after (State.irqEdge_moves ..) <| .after (State.setReg_moves ..) <|
    .record <| .after (State.irqStart_moves ..) <| .after (State.recovery_moves ..) <| .after (State.wakeChans_moves ..) <|
    .of (State.wakeLinks_moves ..)

theorem execRefclkFail_moves (which s) : AnswerMoves (touches (.refclkFail which)) s (execRefclkFail which s) := by
  conv => arg 1; whnf
  refine .next ?_
  dsimp only
  exact .ite (.refl ..) <| .seq (.ite (.refl ..) <| .ite (.of (State.refSwitch_moves ..)) <| .of (State.loseClocks_moves ..)) <|
    .record <| .refl ..

theorem execRefclkRevert_moves (s) : AnswerMoves (touches .refclkRevert) s (execRefclkRevert s) := by
  conv => arg 1; whnf
  exact awake_moves fun s => .ite (.of (State.refSwitch_moves ..)) (.refl ..)

theorem execRefclkRecovery_moves (which bad s) : AnswerMoves (touches (.refclkRecovery which bad)) s (execRefclkRecovery which bad s) := by
  conv => arg 1; whnf
  refine awake_moves fun s => ?_
  dsimp only
  exact .ite (.refl ..) <| .after (State.resumeMem_moves ..) <| .after (State.irqStart_moves ..) <| .after (State.bootLinks_moves ..) <|
    .after (State.wakeChans_moves ..) <| .record <| .refl ..

theorem execDieTempSample_moves (die t s) : AnswerMoves (touches (.dieTempSample die t)) s (execDieTempSample die t s) := by
  conv => arg 1; whnf
  refine awake_moves fun s => ?_
  dsimp only
  exact .ite (.refl ..) <| .seq (.seq (.seq (.ite (.of (State.trip_moves ..)) (.refl ..)) <| .after (State.thermalLog_moves ..) <|
    .after (State.thermalLog_moves ..) <| .of (State.thermalLog_moves ..)) <| .ite (.of (State.irqEdge_moves ..)) (.refl ..)) <|
    .record <| .refl ..

theorem execCdcOverrunWrite_moves (v s) : AnswerMoves (touches (.cdcOverrunWrite v)) s (execCdcOverrunWrite v s) := by
  conv => arg 1; whnf
  exact managed_moves fun s => .of (State.setReg_moves ..)

/-! ### Counters, samples and the log (R514 to R539) -/

theorem execCtrConfig_moves (s) : AnswerMoves (touches .ctrConfig) s (execCtrConfig s) := by
  conv => arg 1; whnf
  exact ctrCmd_moves fun d c s => .ite (.of (State.ctrResult_moves ..)) <| .after (State.ctrResult_moves ..) <|
    .of (State.putCtr_moves s d c _ fun h => State.count_lt_of_sound h d c)

theorem execCtrRead_moves (s) : AnswerMoves (touches .ctrRead) s (execCtrRead s) := by
  conv => arg 1; whnf
  exact ctrCmd_moves fun d c s => .after (State.ctrResult_moves ..) <| .after (State.setReg_moves ..) <| .of (State.setReg_moves ..)

theorem execCtrWrite_moves (s) : AnswerMoves (touches .ctrWrite) s (execCtrWrite s) := by
  conv => arg 1; whnf
  exact ctrCmd_moves fun d c s => .after (State.ctrResult_moves ..) <| .of (State.putCtr_moves s d c _ fun _ => Nat.mod_lt _ (by decide))

theorem execSnapshot_moves (s) : AnswerMoves (touches .snapshot) s (execSnapshot s) := by
  conv => arg 1; whnf
  refine record_moves fun s => ?_
  dsimp only
  exact .after (State.ctrResult_moves ..) <| .after (State.setReg_moves ..) <| .record <| .refl ..

theorem execSnapshotCapture_moves (die s) : AnswerMoves (touches (.snapshotCapture die)) s (execSnapshotCapture die s) := by
  conv => arg 1; whnf
  refine live_moves fun s => ?_
  dsimp only
  split
  · exact .refl ..
  · exact .ite (.after (State.ctrResult_moves ..) <| .record <| .refl ..) <| .ite (.refl ..) <|
      .seq (.ite (.of (State.ctrResult_moves ..)) (.refl ..)) <| .record <| .refl ..

theorem execClearDie_moves (s) : AnswerMoves (touches .clearDie) s (execClearDie s) := by
  conv => arg 1; whnf
  refine record_moves fun s => ?_
  dsimp only
  exact .ite (.of (State.ctrResult_moves ..)) <| .after (State.ctrResult_moves ..) <|
    .record (.refl ..) (k_obs := fun h => Obs.sound_clear h fun k => k / 128 == s.reg Obj.ctrCmdDie)

theorem execCtrFreezeWrite_moves (v s) : AnswerMoves (touches (.ctrFreezeWrite v)) s (execCtrFreezeWrite v s) := by
  conv => arg 1; whnf
  exact managed_moves fun s => .of (State.writeFreeze_moves ..)

theorem execSampleTick_moves (s) : AnswerMoves (touches .sampleTick) s (execSampleTick s) := by
  conv => arg 1; whnf
  refine live_moves fun s => ?_
  dsimp only
  exact .ite (.refl ..) <| .record <| .refl ..

theorem execSamplerConfigWrite_moves (sampler v s) :
    AnswerMoves (touches (.samplerConfigWrite sampler v)) s (execSamplerConfigWrite sampler v s) := by
  conv => arg 1; whnf
  refine managed_moves fun s => ?_
  split
  · exact .ite (.of (State.writeSampleQueue_moves ..)) (.refl ..)
  · exact .ite (.of (State.writeSamplePeriod_moves ..)) (.refl ..)

theorem execHwmQueueWrite_moves (k v s) : AnswerMoves (touches (.hwmQueueWrite k v)) s (execHwmQueueWrite k v s) := by
  conv => arg 1; whnf
  exact managed_moves fun s => .ite (.of (State.writeHwmQueue_moves ..)) (.refl ..)

theorem execRecoveryHoldExpiry_moves (s) : AnswerMoves (touches .recoveryHoldExpiry) s (execRecoveryHoldExpiry s) := by
  conv => arg 1; whnf
  refine awake_moves fun s => ?_
  dsimp only
  exact .ite (.refl ..) <| .record <| .refl ..

theorem execStartPhaseExpiry_moves (s) : AnswerMoves (touches .startPhaseExpiry) s (execStartPhaseExpiry s) := by
  conv => arg 1; whnf
  refine awake_moves fun s => ?_
  dsimp only
  exact .record <| .refl ..

theorem execLogRead_moves (s) : AnswerMoves (touches .logRead) s (execLogRead s) := by
  conv => arg 1; whnf
  refine record_moves fun s => ?_
  dsimp only
  exact .ite (.of (State.setReg_moves ..)) <| .ite (.of (State.setReg_moves ..)) <| .ite (.of (State.setReg_moves ..)) <|
    .after (State.setReg_moves ..) <| .after (State.setReg_moves ..) <| .of (State.setBlob_moves ..)

theorem execStat3Toggle_moves (s) : AnswerMoves (touches .stat3Toggle) s (execStat3Toggle s) := by
  conv => arg 1; whnf
  refine ikEvent_moves fun s => ?_
  dsimp only
  exact .ite (.record <| .refl ..) (.refl ..)

theorem execPowerOff_moves (s) : AnswerMoves (touches .powerOff) s (execPowerOff s) := by
  conv => arg 1; whnf
  exact .next <| .ite (.of (State.offPower_moves ..)) (.refl ..)

theorem execDetectWithoutPeer_moves (link s) : AnswerMoves (touches (.detectWithoutPeer link)) s (execDetectWithoutPeer link s) := by
  conv => arg 1; whnf
  exact live_moves fun s => .ite (.of (State.retrainEnd_moves ..)) (.refl ..)

theorem execI3cInBandInterrupt_moves (ch t s) : AnswerMoves (touches (.i3cInBandInterrupt ch t)) s (execI3cInBandInterrupt ch t s) := by
  conv => arg 1; whnf
  exact live_moves fun s => .ite (.of (State.dimmTemp_moves ..)) (.refl ..)

theorem execPlcaBeaconHeard_moves (s) : AnswerMoves (touches .plcaBeaconHeard) s (execPlcaBeaconHeard s) := by
  conv => arg 1; whnf
  refine awake_moves fun s => ?_
  dsimp only
  exact .record <| .refl ..

theorem execClusterReturnsToService_moves (cluster s) :
    AnswerMoves (touches (.clusterReturnsToService cluster)) s (execClusterReturnsToService cluster s) := by
  conv => arg 1; whnf
  refine live_moves fun s => ?_
  dsimp only
  exact .ite (.of (State.onCluster_moves ..)) (.refl ..)

theorem execCellarDieLost_moves (die s) : AnswerMoves (touches (.cellarDieLost die)) s (execCellarDieLost die s) := by
  conv => arg 1; whnf
  refine live_moves fun s => ?_
  dsimp only
  exact .ite (.refl ..) <| .after (State.failChannel_moves ..) <| .after (State.failChannel_moves ..) <| .after (State.log_moves ..) <|
    .record <| .refl ..

theorem execRefclkGood_moves (which s) : AnswerMoves (touches (.refclkGood which)) s (execRefclkGood which s) := by
  conv => arg 1; whnf
  refine .next ?_
  dsimp only
  exact .ite (.record <| .refl ..) (.refl ..)

/-! ### A WRITE, which may set off another command (R463, R465) -/

theorem AnswerMoves.mono {ps qs s o} (h : AnswerMoves qs s o) (k : Part.within qs ps = true) : AnswerMoves ps s o :=
  fun t ht => (h t ht).mono k

/-- What an act that a WRITE sets off may change is among what the WRITE may change. -/
theorem recordsLow_moves (lost answer) :
    ∀ r ∈ recordsLow lost answer, ∀ f ∈ r.2.2, ∀ s, AnswerMoves (touches (.dictWrite lost answer)) s (f s) := by
  simp only [recordsLow, List.mem_cons, forall_eq_or_imp, List.not_mem_nil, IsEmpty.forall_iff, implies_true, and_true]
  refine ⟨⟨fun s => (execDefine_moves s).mono ?_, fun s => (execPin_moves s).mono ?_, fun s => (execUnpin_moves s).mono ?_,
      fun s => (execWindowSet_moves s).mono ?_, fun s => (execWindowClear_moves s).mono ?_, fun s => (execGuestQuery_moves s).mono ?_,
      fun s => (execSetPkey_moves s).mono ?_⟩,
    ⟨fun s => (execTeardown_moves s).mono ?_, fun s => (execQueryKey_moves s).mono ?_⟩,
    ⟨fun s => (execRetrain_moves s).mono ?_, fun s => (execDisable_moves s).mono ?_, fun s => (execEnable_moves s).mono ?_,
      fun s => (execLinkQuery_moves s).mono ?_, fun s => (execDedupClear_moves s).mono ?_⟩,
    ⟨fun s => (execSetBlock_moves s).mono ?_, fun s => (execSetExact_moves s).mono ?_, fun s => (execClearExact_moves s).mono ?_,
      fun s => (execPairOut_moves s).mono ?_, fun s => (execPairIn_moves s).mono ?_, fun s => (execRouteQuery_moves s).mono ?_⟩,
    ⟨fun s => (execGmapSet_moves s).mono ?_, fun s => (execGmapClear_moves s).mono ?_, fun s => (execGmapQuery_moves s).mono ?_⟩,
    ⟨fun s => (execPkeyAdd_moves s).mono ?_, fun s => (execPkeyRemove_moves s).mono ?_, fun s => (execPkeyQuery_moves s).mono ?_⟩,
    ⟨fun s => (execQueueSet_moves s).mono ?_, fun s => (execQueueRemove_moves s).mono ?_, fun s => (execQueueQuery_moves s).mono ?_⟩,
    ⟨fun s => (execSbRead_moves lost answer s).mono ?_, fun s => (execSbWrite_moves lost answer.isSome s).mono ?_⟩,
    ⟨fun s => (execTrainRetrain_moves s).mono ?_, fun s => (execTrainFull_moves s).mono ?_⟩,
    fun s => (execWriteRaw_moves s).mono ?_, fun s => (execReadRaw_moves s).mono ?_, fun s => (execReadDecoded_moves s).mono ?_,
      fun s => (execCeLogClear_moves s).mono ?_, fun s => (execPpr_moves s).mono ?_, fun s => (execEvacuate_moves s).mono ?_⟩ <;>
    (conv => lhs; arg 1; whnf) <;> (conv => lhs; arg 2; whnf) <;> rfl

theorem recordsHigh_moves (lost answer) :
    ∀ r ∈ recordsHigh, ∀ f ∈ r.2.2, ∀ s, AnswerMoves (touches (.dictWrite lost answer)) s (f s) := by
  simp only [recordsHigh, List.mem_cons, forall_eq_or_imp, List.not_mem_nil, IsEmpty.forall_iff, implies_true, and_true]
  refine ⟨⟨fun s => (execStreamCreate_moves s).mono ?_, fun s => (execStreamDestroy_moves s).mono ?_,
      fun s => (execStreamReset_moves s).mono ?_, fun s => (execStreamQuery_moves s).mono ?_⟩,
    ⟨fun s => (execTallyAlloc_moves s).mono ?_, fun s => (execTallyFree_moves s).mono ?_, fun s => (execTallyCmdArm_moves s).mono ?_,
      fun s => (execTallyCmdSet_moves s).mono ?_, fun s => (execTallyConfig_moves s).mono ?_, fun s => (execTallyQuery_moves s).mono ?_⟩,
    ⟨fun s => (execLayoutRegister_moves s).mono ?_, fun s => (execLayoutRemove_moves s).mono ?_, fun s => (execLayoutQuery_moves s).mono ?_⟩,
    ⟨fun s => (execCommit_moves s).mono ?_, fun s => (execTransQuery_moves s).mono ?_⟩,
    ⟨fun s => (execRegisterCe_moves s).mono ?_, fun s => (execRemoveCe_moves s).mono ?_, fun s => (execResetCe_moves s).mono ?_,
      fun s => (execQueryCe_moves s).mono ?_, fun s => (execFlush_moves s).mono ?_, fun s => (execQueryLine_moves s).mono ?_⟩,
    ⟨fun s => (execCtrConfig_moves s).mono ?_, fun s => (execCtrRead_moves s).mono ?_, fun s => (execCtrWrite_moves s).mono ?_,
      fun s => (execSnapshot_moves s).mono ?_, fun s => (execClearDie_moves s).mono ?_⟩,
    fun s => (execLogRead_moves s).mono ?_,
    fun s => (execClearTrained_moves s).mono ?_,
    ⟨fun s => (execWriteChunk_moves s).mono ?_, fun s => (execVerify_moves s).mono ?_, fun s => (execActivate_moves s).mono ?_,
      fun s => (execCommitSvn_moves s).mono ?_⟩,
    ⟨fun s => (execChallenge_moves s).mono ?_, fun s => (execUnlock_moves s).mono ?_⟩,
    ⟨fun s => (execNight_moves s).mono ?_, fun s => (execColdReset_moves s).mono ?_⟩,
    ⟨fun s => (execSwitch_moves s).mono ?_, fun s => (execRetest_moves s).mono ?_, fun s => (execHoldOut_moves s).mono ?_,
      fun s => (execRelease_moves s).mono ?_⟩,
    ⟨fun s => (execIrqQuery_moves s).mono ?_, fun s => (execSetPending_moves s).mono ?_, fun s => (execClearPending_moves s).mono ?_,
      fun s => (execClearCount_moves s).mono ?_⟩,
    fun s => (execReadIn_moves s).mono ?_, fun s => (execWriteOut_moves s).mono ?_⟩ <;>
    (conv => lhs; arg 1; whnf) <;> (conv => lhs; arg 2; whnf) <;> rfl

theorem recordOf_moves {lost answer k r f} (found : recordOf lost answer k = some r) (act : f ∈ r.2.2) (s) :
    AnswerMoves (touches (.dictWrite lost answer)) s (f s) := by
  rcases List.mem_append.mp (List.mem_of_find?_eq_some found) with low | high
  · exact recordsLow_moves lost answer r low f act s
  · exact recordsHigh_moves lost answer r high f act s

/-- A property of both choices of a conditional act is one of the act that is chosen. -/
theorem forall_ite_eq_some {α : Type} {P : α → Prop} {c : Prop} [Decidable c] {a : α} {o : Option α} (here : P a)
    (there : ∀ x, o = some x → P x) : ∀ x, (if c then some a else o) = some x → P x := by
  split
  · rintro _ ⟨⟩
    exact here
  · exact there

theorem actOf_moves (k bs lost answer) : ∀ f, actOf k bs = some f → ∀ s, AnswerMoves (touches (.dictWrite lost answer)) s (f s) := by
  unfold actOf
  refine forall_ite_eq_some (fun s => (execCtrFreezeWrite_moves _ s).mono ?_) <|
    forall_ite_eq_some (fun s => (execSamplerConfigWrite_moves _ _ s).mono ?_) <|
    forall_ite_eq_some (fun s => (execSamplerConfigWrite_moves _ _ s).mono ?_) <|
    forall_ite_eq_some (fun s => (execHwmQueueWrite_moves _ _ s).mono ?_) <|
    forall_ite_eq_some (fun s => (execPigeonOwnerWrite_moves _ _ s).mono ?_) <|
    forall_ite_eq_some (fun s => (execIrqAlertStatusWrite_moves _ s).mono ?_) <|
    forall_ite_eq_some (fun s => (execIrqOverrunWrite_moves _ s).mono ?_) <|
    forall_ite_eq_some (fun s => (execCdcOverrunWrite_moves _ s).mono ?_) <|
    forall_ite_eq_some (fun s => (execFqHeadWrite_moves _ s).mono ?_) <|
    forall_ite_eq_some (fun s => (execFqConfigWrite_moves _ _ s).mono ?_) <|
    forall_ite_eq_some (fun s => (execFqConfigWrite_moves _ _ s).mono ?_) <|
    forall_ite_eq_some (fun s => (execFqConfigWrite_moves _ _ s).mono ?_) <|
    forall_ite_eq_some (fun s => (execTrkHighWaterWrite_moves _ s).mono ?_) <|
    forall_ite_eq_some (fun s => (execArithFlagsSeenWrite_moves _ s).mono ?_) <|
    forall_ite_eq_some (fun s => (execAttest_moves _ s).mono ?_) nofun
  all_goals
    conv => lhs; arg 1; whnf
    conv => lhs; arg 2; whnf
    rfl

theorem State.applyValue_moves (s row k bs lost answer) :
    Served.Fr (touches (.dictWrite lost answer)) s (s.applyValue row k bs lost answer) := by
  have ok {t : State} (h : Moves (touches (.dictWrite lost answer)) s t) : Moves (touches (.dictWrite lost answer)) s (t.journalled k) := by
    refine (State.journalled_moves t k).after h ?_
    conv => lhs; arg 2; whnf
    rfl
  unfold State.applyValue
  dsimp only
  refine .ite (.done <| .refl ..) ?_
  split
  next found =>
    split
    · exact .done <| .refl ..
    next act =>
      refine .ite (.done <| .refl ..) <| .done <| ok <| after_moves (.refl ..) (recordOf_moves found ?_ s)
      split at act
      · cases act
      · exact List.mem_of_getElem? act
  · split
    next found => exact .ite (.done <| ok <| after_moves (.refl ..) (actOf_moves k bs lost answer _ found s)) (.done <| .refl ..)
    · refine .ite (.done <| .refl ..) <| .ite .wait <| .done <| ok ?_
      conv => arg 1; whnf
      exact .of (State.storeObj_moves ..)

theorem execDictWrite_moves (lost answer s) : AnswerMoves (touches (.dictWrite lost answer)) s (execDictWrite lost answer s) := by
  conv => arg 1; whnf
  refine dict_moves fun s => State.serveFront_moves rfl (.refl ..) fun u a p d => ?_
  dsimp only
  split
  · exact .done <| .refl ..
  · split
    · exact .done <| .refl ..
    · refine .ite (.done <| .refl ..) ?_
      split
      · exact .done <| .of (State.stage_moves ..)
      · exact .done <| .of (State.stage_moves ..)
      · exact .after (.of (State.stage_moves ..)) (State.applyValue_moves ..)

/-! ## The step -/

/-- Every command moves the state within the parts that `touches` names for it. -/
theorem exec_moves (c : Instr) (s : State) : AnswerMoves (touches c) s (exec c s) := by
  cases c with
  | powerOn => exact execPowerOn_moves s
  | resetNFall => exact execResetNFall_moves s
  | pwrGoodFall => exact execPwrGoodFall_moves s
  | resetRelease early late present => exact execResetRelease_moves early late present s
  | secureBoot ik0 ik1 dimms => exact execSecureBoot_moves ik0 ik1 dimms s
  | coldReset => exact execColdReset_moves s
  | coldResetDelayExpiry => exact execColdResetDelayExpiry_moves s
  | tamper cause => exact execTamper_moves cause s
  | define => exact execDefine_moves s
  | pin => exact execPin_moves s
  | unpin => exact execUnpin_moves s
  | windowSet => exact execWindowSet_moves s
  | windowClear => exact execWindowClear_moves s
  | guestQuery => exact execGuestQuery_moves s
  | setPkey => exact execSetPkey_moves s
  | guestCmdApplied => exact execGuestCmdApplied_moves s
  | guestSwapDone gid => exact execGuestSwapDone_moves gid s
  | guestSwapHoldExpiry gid => exact execGuestSwapHoldExpiry_moves gid s
  | swapVictimEligible => exact execSwapVictimEligible_moves s
  | announce _ _ _ _ _ => rw [exec]; exact received_moves (fun _ => ⟨_, _, _, rfl⟩) s
  | announceSend => exact execAnnounceSend_moves s
  | join _ _ _ _ _ => rw [exec]; exact received_moves (fun _ => ⟨_, _, _, rfl⟩) s
  | admitMsg _ _ _ => rw [exec]; exact received_moves (fun _ => ⟨_, _, _, rfl⟩) s
  | refuse _ _ _ _ => rw [exec]; exact received_moves (fun _ => ⟨_, _, _, rfl⟩) s
  | distribute _ _ _ _ _ => rw [exec]; exact received_moves (fun _ => ⟨_, _, _, rfl⟩) s
  | formTimeoutExpiry => exact execFormTimeoutExpiry_moves s
  | read _ _ => rw [exec]; exact received_moves (fun _ => ⟨_, _, _, rfl⟩) s
  | write _ _ => rw [exec]; exact received_moves (fun _ => ⟨_, _, _, rfl⟩) s
  | writeP _ _ => rw [exec]; exact received_moves (fun _ => ⟨_, _, _, rfl⟩) s
  | atomicPacket _ _ => rw [exec]; exact received_moves (fun _ => ⟨_, _, _, rfl⟩) s
  | doorbell _ _ => rw [exec]; exact received_moves (fun _ => ⟨_, _, _, rfl⟩) s
  | notifyReceived _ _ => rw [exec]; exact received_moves (fun _ => ⟨_, _, _, rfl⟩) s
  | cnp _ _ => rw [exec]; exact received_moves (fun _ => ⟨_, _, _, rfl⟩) s
  | rsp _ _ => rw [exec]; exact received_moves (fun _ => ⟨_, _, _, rfl⟩) s
  | mgmt _ _ => rw [exec]; exact received_moves (fun _ => ⟨_, _, _, rfl⟩) s
  | packetHeader _ _ => rw [exec]; exact received_moves (fun _ => ⟨_, _, _, rfl⟩) s
  | broadcastFilterExpiry src seq => exact execBroadcastFilterExpiry_moves src seq s
  | zeroFillDone gid pva => exact execZeroFillDone_moves gid pva s
  | lrcFill line => exact execLrcFill_moves line s
  | publish stream seq => exact execPublish_moves stream seq s
  | publishDrainDone stream seq => exact execPublishDrainDone_moves stream seq s
  | lrcSweepDone stream seq => exact execLrcSweepDone_moves stream seq s
  | streamCreate => exact execStreamCreate_moves s
  | streamDestroy => exact execStreamDestroy_moves s
  | streamReset => exact execStreamReset_moves s
  | streamQuery => exact execStreamQuery_moves s
  | streamSwapDone stream => exact execStreamSwapDone_moves stream s
  | waybillAccept stream => exact execWaybillAccept_moves stream s
  | descriptorPrefetch stream => exact execDescriptorPrefetch_moves stream s
  | waybillStart stream seq => exact execWaybillStart_moves stream seq s
  | waitTimeoutExpiry stream seq => exact execWaitTimeoutExpiry_moves stream seq s
  | tallyInc stream seq => exact execTallyInc_moves stream seq s
  | tallySet stream seq => exact execTallySet_moves stream seq s
  | tallyArm stream seq => exact execTallyArm_moves stream seq s
  | tallyRead stream seq => exact execTallyRead_moves stream seq s
  | drain stream seq => exact execDrain_moves stream seq s
  | nop stream seq => exact execNop_moves stream seq s
  | cancel stream seq => exact execCancel_moves stream seq s
  | tallyMirrorWrite tally => exact execTallyMirrorWrite_moves tally s
  | chunkDispatch stream seq => exact execChunkDispatch_moves stream seq s
  | clusterClearDone cluster => exact execClusterClearDone_moves cluster s
  | granuleCommit stream seq g cluster => exact execGranuleCommit_moves stream seq g cluster s
  | clusterLost cluster => exact execClusterLost_moves cluster s
  | chunkRedispatch stream seq chunk => exact execChunkRedispatch_moves stream seq chunk s
  | porterDieLost die => exact execPorterDieLost_moves die s
  | waybillComplete stream seq => exact execWaybillComplete_moves stream seq s
  | trackerGrant => exact execTrackerGrant_moves s
  | tallyAlloc => exact execTallyAlloc_moves s
  | tallyFree => exact execTallyFree_moves s
  | tallyCmdArm => exact execTallyCmdArm_moves s
  | tallyCmdSet => exact execTallyCmdSet_moves s
  | tallyConfig => exact execTallyConfig_moves s
  | tallyQuery => exact execTallyQuery_moves s
  | trkHighWaterWrite v => exact execTrkHighWaterWrite_moves v s
  | arithFlagsSeenWrite v => exact execArithFlagsSeenWrite_moves v s
  | copy stream seq chunk => exact execCopy_moves stream seq chunk s
  | convert stream seq chunk => exact execConvert_moves stream seq chunk s
  | fill stream seq chunk => exact execFill_moves stream seq chunk s
  | eltwise stream seq chunk => exact execEltwise_moves stream seq chunk s
  | deliver stream seq chunk => exact execDeliver_moves stream seq chunk s
  | gather stream seq chunk => exact execGather_moves stream seq chunk s
  | scatter stream seq chunk => exact execScatter_moves stream seq chunk s
  | atomic stream seq chunk => exact execAtomic_moves stream seq chunk s
  | cas stream seq chunk => exact execCas_moves stream seq chunk s
  | remoteTimeoutExpiry dst tc tag => exact execRemoteTimeoutExpiry_moves dst tc tag s
  | redOpen stream seq chunk => exact execRedOpen_moves stream seq chunk s
  | stagingAlloc stream seq => exact execStagingAlloc_moves stream seq s
  | redOpenTimeout stream seq => exact execRedOpenTimeout_moves stream seq s
  | redContrib stream seq chunk => exact execRedContrib_moves stream seq chunk s
  | contribTurn stream seq => exact execContribTurn_moves stream seq s
  | stagedPrefetch stream seq => exact execStagedPrefetch_moves stream seq s
  | granuleLockGrant unit => exact execGranuleLockGrant_moves unit s
  | redClose stream seq => exact execRedClose_moves stream seq s
  | redContextComplete rctx => exact execRedContextComplete_moves rctx s
  | reduce stream seq chunk => exact execReduce_moves stream seq chunk s
  | reshard stream seq chunk => exact execReshard_moves stream seq chunk s
  | mvb stream seq chunk => exact execMvb_moves stream seq chunk s
  | moeffn stream seq chunk => exact execMoeffn_moves stream seq chunk s
  | moeffnExchangeDone stream seq => exact execMoeffnExchangeDone_moves stream seq s
  | layoutRegister => exact execLayoutRegister_moves s
  | layoutRemove => exact execLayoutRemove_moves s
  | layoutQuery => exact execLayoutQuery_moves s
  | commit => exact execCommit_moves s
  | commitPoint => exact execCommitPoint_moves s
  | commitDrainDone => exact execCommitDrainDone_moves s
  | transQuery => exact execTransQuery_moves s
  | translationWalkDone trk => exact execTranslationWalkDone_moves trk s
  | faultHoldExpiry h => exact execFaultHoldExpiry_moves h s
  | faultQueueRecord => exact execFaultQueueRecord_moves s
  | fqHeadWrite v => exact execFqHeadWrite_moves v s
  | fqConfigWrite which v => exact execFqConfigWrite_moves which v s
  | migrateInDone => exact execMigrateInDone_moves s
  | migrateOutDone => exact execMigrateOutDone_moves s
  | migrateTimeoutExpiry => exact execMigrateTimeoutExpiry_moves s
  | ledgerDieLost die => exact execLedgerDieLost_moves die s
  | rdS _ _ => rw [exec]; exact received_moves (fun _ => ⟨_, _, _, rfl⟩) s
  | rdX _ _ => rw [exec]; exact received_moves (fun _ => ⟨_, _, _, rfl⟩) s
  | upg _ _ => rw [exec]; exact received_moves (fun _ => ⟨_, _, _, rfl⟩) s
  | wb _ _ => rw [exec]; exact received_moves (fun _ => ⟨_, _, _, rfl⟩) s
  | evc _ _ => rw [exec]; exact received_moves (fun _ => ⟨_, _, _, rfl⟩) s
  | snpAck _ _ => rw [exec]; exact received_moves (fun _ => ⟨_, _, _, rfl⟩) s
  | snpData _ _ => rw [exec]; exact received_moves (fun _ => ⟨_, _, _, rfl⟩) s
  | snpWbp _ _ => rw [exec]; exact received_moves (fun _ => ⟨_, _, _, rfl⟩) s
  | coherenceUnmatched link p => exact execCoherenceUnmatched_moves link p s
  | hearthLineDequeue line => exact execHearthLineDequeue_moves line s
  | backInvalidation line => exact execBackInvalidation_moves line s
  | hearthSnoopTimeout line ceid => exact execHearthSnoopTimeout_moves line ceid s
  | fenceWalkDone ceid => exact execFenceWalkDone_moves ceid s
  | registerCe => exact execRegisterCe_moves s
  | removeCe => exact execRemoveCe_moves s
  | resetCe => exact execResetCe_moves s
  | queryCe => exact execQueryCe_moves s
  | flush => exact execFlush_moves s
  | queryLine => exact execQueryLine_moves s
  | hearthRecallDone line => exact execHearthRecallDone_moves line s
  | flitReceive link f word ends next => exact execFlitReceive_moves link f word ends next s
  | retryReq link h fseq => exact execRetryReq_moves link h fseq s
  | null link h => exact execNull_moves link h s
  | replayTimeout link => exact execReplayTimeout_moves link s
  | laneFailing link lane => exact execLaneFailing_moves link lane s
  | spareUnusable link => exact execSpareUnusable_moves link s
  | laneMap link h lane map => exact execLaneMap_moves link h lane map s
  | laneMapAck link h lane map => exact execLaneMapAck_moves link h lane map s
  | laneMapResend link => exact execLaneMapResend_moves link s
  | laneSparingDone link => exact execLaneSparingDone_moves link s
  | creditQuietExpiry link vc => exact execCreditQuietExpiry_moves link vc s
  | creditSyncRequest link => exact execCreditSyncRequest_moves link s
  | creditSyncReq link h => exact execCreditSyncReq_moves link h s
  | creditSyncRsp link h blocks => exact execCreditSyncRsp_moves link h blocks s
  | creditSyncTimeout link => exact execCreditSyncTimeout_moves link s
  | linkDown link h _cause => exact execLinkDown_moves link h _cause s
  | standbyReq link h => exact execStandbyReq_moves link h s
  | standbyAck link h => exact execStandbyAck_moves link h s
  | standbyAckTimeout link => exact execStandbyAckTimeout_moves link s
  | linkStandbyIdleExpiry link => exact execLinkStandbyIdleExpiry_moves link s
  | linkWake link => exact execLinkWake_moves link s
  | hello link version audit narrow => exact execHello_moves link version audit narrow s
  | cert link chain => exact execCert_moves link chain s
  | share link pub sig => exact execShare_moves link pub sig s
  | finished link mac => exact execFinished_moves link mac s
  | keyxRetransmit link => exact execKeyxRetransmit_moves link s
  | keyxTimeout link => exact execKeyxTimeout_moves link s
  | peerDetected link => exact execPeerDetected_moves link s
  | trainingDone link => exact execTrainingDone_moves link s
  | trainingFailed link => exact execTrainingFailed_moves link s
  | linkDeadTimeout link => exact execLinkDeadTimeout_moves link s
  | linkRetry link => exact execLinkRetry_moves link s
  | gatehouseDieLost gh => exact execGatehouseDieLost_moves gh s
  | dedupExpiry epid tc => exact execDedupExpiry_moves epid tc s
  | retrain => exact execRetrain_moves s
  | disable => exact execDisable_moves s
  | enable => exact execEnable_moves s
  | linkQuery => exact execLinkQuery_moves s
  | dedupClear => exact execDedupClear_moves s
  | cnpSend src tc => exact execCnpSend_moves src tc s
  | ccRateIncrease epid tc => exact execCcRateIncrease_moves epid tc s
  | egressSelect link => exact execEgressSelect_moves link s
  | expressWindowOpen link => exact execExpressWindowOpen_moves link s
  | expressWindowClose link => exact execExpressWindowClose_moves link s
  | setBlock => exact execSetBlock_moves s
  | setExact => exact execSetExact_moves s
  | clearExact => exact execClearExact_moves s
  | pairOut => exact execPairOut_moves s
  | pairIn => exact execPairIn_moves s
  | routeQuery => exact execRouteQuery_moves s
  | epochDrainDone route => exact execEpochDrainDone_moves route s
  | gmapSet => exact execGmapSet_moves s
  | gmapClear => exact execGmapClear_moves s
  | gmapQuery => exact execGmapQuery_moves s
  | pkeyAdd => exact execPkeyAdd_moves s
  | pkeyRemove => exact execPkeyRemove_moves s
  | pkeyQuery => exact execPkeyQuery_moves s
  | queueSet => exact execQueueSet_moves s
  | queueRemove => exact execQueueRemove_moves s
  | queueQuery => exact execQueueQuery_moves s
  | columnCommandIssue ch sub ready retire => exact execColumnCommandIssue_moves ch sub ready retire s
  | dramReadReturn ch line e1 e2 => exact execDramReadReturn_moves ch line e1 e2 s
  | wcbDrain ch line => exact execWcbDrain_moves ch line s
  | pageIdleExpiry ch sub bank => exact execPageIdleExpiry_moves ch sub bank s
  | refresh ch sub rank ba due => exact execRefresh_moves ch sub rank ba due s
  | dimmTempPoll ch t => exact execDimmTempPoll_moves ch t s
  | chIdleSrExpiry ch => exact execChIdleSrExpiry_moves ch s
  | selfRefreshExit ch => exact execSelfRefreshExit_moves ch s
  | chIdlePdExpiry ch => exact execChIdlePdExpiry_moves ch s
  | alertNAssert ch => exact execAlertNAssert_moves ch s
  | alertRelease ch => exact execAlertRelease_moves ch s
  | channelTrainingDone ch ok lanes osc => exact execChannelTrainingDone_moves ch ok lanes osc s
  | channelFillDone ch => exact execChannelFillDone_moves ch s
  | dqsOscMeasure ch rank change => exact execDqsOscMeasure_moves ch rank change s
  | readCentreRecheck ch lane off => exact execReadCentreRecheck_moves ch lane off s
  | retrainStart ch => exact execRetrainStart_moves ch s
  | retrainDone ch lanes osc => exact execRetrainDone_moves ch lanes osc s
  | trainRetrain => exact execTrainRetrain_moves s
  | trainFull => exact execTrainFull_moves s
  | sbArbLost bus => exact execSbArbLost_moves bus s
  | sbBackoffExpiry bus answer => exact execSbBackoffExpiry_moves bus answer s
  | sbBusRecovery bus => exact execSbBusRecovery_moves bus s
  | sbRead lost answer => exact execSbRead_moves lost answer s
  | sbWrite lost acked => exact execSbWrite_moves lost acked s
  | scrubLine ch => exact execScrubLine_moves ch s
  | parityDelta ch m line => exact execParityDelta_moves ch m line s
  | parityAckTimeout ch m line => exact execParityAckTimeout_moves ch m line s
  | staleStripeRebuild group stripe => exact execStaleStripeRebuild_moves group stripe s
  | channelFailed ch => exact execChannelFailed_moves ch s
  | rebuildStripe group => exact execRebuildStripe_moves group s
  | rowRepair ch left => exact execRowRepair_moves ch left s
  | writeRaw => exact execWriteRaw_moves s
  | readRaw => exact execReadRaw_moves s
  | readDecoded => exact execReadDecoded_moves s
  | ceLogClear => exact execCeLogClear_moves s
  | ppr => exact execPpr_moves s
  | evacuate => exact execEvacuate_moves s
  | entropyHealthFail => exact execEntropyHealthFail_moves s
  | entropyRetest ok => exact execEntropyRetest_moves ok s
  | drbgReseed => exact execDrbgReseed_moves s
  | keyCacheFill die gid => exact execKeyCacheFill_moves die gid s
  | teardown => exact execTeardown_moves s
  | teardownDrainDone => exact execTeardownDrainDone_moves s
  | queryKey => exact execQueryKey_moves s
  | writeChunk => exact execWriteChunk_moves s
  | verify => exact execVerify_moves s
  | activate => exact execActivate_moves s
  | fwConfirm => exact execFwConfirm_moves s
  | commitSvn => exact execCommitSvn_moves s
  | attest nonce => exact execAttest_moves nonce s
  | challenge => exact execChallenge_moves s
  | unlock => exact execUnlock_moves s
  | debugNonceExpiry => exact execDebugNonceExpiry_moves s
  | extest => exact execExtest_moves s
  | tapReset => exact execTapReset_moves s
  | heartbeat => exact execHeartbeat_moves s
  | heartbeatTimeout => exact execHeartbeatTimeout_moves s
  | watchdogExpiry => exact execWatchdogExpiry_moves s
  | innkeeperFailure die cause => exact execInnkeeperFailure_moves die cause s
  | takeoverDone => exact execTakeoverDone_moves s
  | checkpoint => exact execCheckpoint_moves s
  | checkpointComplete => exact execCheckpointComplete_moves s
  | checkpointLate => exact execCheckpointLate_moves s
  | ikSelfTestRun die pass => exact execIkSelfTestRun_moves die pass s
  | ikRecoveryTest die pass => exact execIkRecoveryTest_moves die pass s
  | switch => exact execSwitch_moves s
  | retest => exact execRetest_moves s
  | holdOut => exact execHoldOut_moves s
  | release => exact execRelease_moves s
  | irqEdge src => exact execIrqEdge_moves src s
  | irqDeliver reenabled => exact execIrqDeliver_moves reenabled s
  | irqQuery => exact execIrqQuery_moves s
  | setPending => exact execSetPending_moves s
  | clearPending => exact execClearPending_moves s
  | clearCount => exact execClearCount_moves s
  | irqAlertStatusWrite v => exact execIrqAlertStatusWrite_moves v s
  | irqOverrunWrite v => exact execIrqOverrunWrite_moves v s
  | writeIn _ _ => rw [exec]; exact received_moves (fun _ => ⟨_, _, _, rfl⟩) s
  | readOut _ _ => rw [exec]; exact received_moves (fun _ => ⟨_, _, _, rfl⟩) s
  | poll _ _ => rw [exec]; exact received_moves (fun _ => ⟨_, _, _, rfl⟩) s
  | readIn => exact execReadIn_moves s
  | writeOut => exact execWriteOut_moves s
  | pigeonOwnerWrite hole v => exact execPigeonOwnerWrite_moves hole v s
  | t1sFrame f => exact execT1sFrame_moves f s
  | plcaBeaconTimeout => exact execPlcaBeaconTimeout_moves s
  | dictRead => exact execDictRead_moves s
  | dictWrite lost answer => exact execDictWrite_moves lost answer s
  | describe => exact execDescribe_moves s
  | defaults => exact execDefaults_moves s
  | openHello => exact execOpenHello_moves s
  | openCert => exact execOpenCert_moves s
  | openProve => exact execOpenProve_moves s
  | close => exact execClose_moves s
  | snapshotExpiry => exact execSnapshotExpiry_moves s
  | stagingExpiry session => exact execStagingExpiry_moves session s
  | sessionOpenTimeout session => exact execSessionOpenTimeout_moves session s
  | sessionIdleExpiry session => exact execSessionIdleExpiry_moves session s
  | openLockoutExpiry inband addr => exact execOpenLockoutExpiry_moves inband addr s
  | flashCompactionDone => exact execFlashCompactionDone_moves s
  | clearTrained => exact execClearTrained_moves s
  | registerWrite idx sub v => exact execRegisterWrite_moves idx sub v s
  | clusterShutterExpiry cluster => exact execClusterShutterExpiry_moves cluster s
  | clusterDarkExpiry cluster => exact execClusterDarkExpiry_moves cluster s
  | clusterWakeDone cluster => exact execClusterWakeDone_moves cluster s
  | night => exact execNight_moves s
  | nightEntryStepDone => exact execNightEntryStepDone_moves s
  | wake source link => exact execWake_moves source link s
  | wakeNLow low => exact execWakeNLow_moves low s
  | wakeTimerExpiry => exact execWakeTimerExpiry_moves s
  | nightExitDone bad => exact execNightExitDone_moves bad s
  | refclkFail which => exact execRefclkFail_moves which s
  | refclkRevert => exact execRefclkRevert_moves s
  | refclkRecovery which bad => exact execRefclkRecovery_moves which bad s
  | dieTempSample die t => exact execDieTempSample_moves die t s
  | cdcOverrunWrite v => exact execCdcOverrunWrite_moves v s
  | ctrConfig => exact execCtrConfig_moves s
  | ctrRead => exact execCtrRead_moves s
  | ctrWrite => exact execCtrWrite_moves s
  | snapshot => exact execSnapshot_moves s
  | snapshotCapture die => exact execSnapshotCapture_moves die s
  | clearDie => exact execClearDie_moves s
  | ctrFreezeWrite v => exact execCtrFreezeWrite_moves v s
  | sampleTick => exact execSampleTick_moves s
  | samplerConfigWrite sampler v => exact execSamplerConfigWrite_moves sampler v s
  | hwmQueueWrite k v => exact execHwmQueueWrite_moves k v s
  | recoveryHoldExpiry => exact execRecoveryHoldExpiry_moves s
  | startPhaseExpiry => exact execStartPhaseExpiry_moves s
  | logRead => exact execLogRead_moves s
  | stat3Toggle => exact execStat3Toggle_moves s
  | powerOff => exact execPowerOff_moves s
  | detectWithoutPeer link => exact execDetectWithoutPeer_moves link s
  | i3cInBandInterrupt ch t => exact execI3cInBandInterrupt_moves ch t s
  | plcaBeaconHeard => exact execPlcaBeaconHeard_moves s
  | clusterReturnsToService cluster => exact execClusterReturnsToService_moves cluster s
  | cellarDieLost die => exact execCellarDieLost_moves die s
  | refclkGood which => exact execRefclkGood_moves which s

/-- Settles O51: each command's operations keep the state sound, and so does the tick of an empty queue. -/
theorem everyStepKeepsSound : Obligations.EveryStepKeepsSound := by
  unfold Obligations.EveryStepKeepsSound
  intro s t sound stepped
  unfold step at stepped
  split at stepped
  · cases stepped
    exact (State.tick_moves s).sound sound
  next c rest _ => exact (exec_moves c { s with pending := rest } t stepped).sound sound

end Sys2Proof.Machine
end

section

/-! Proofs for the protection of stored data (chapter 11): what scrubbing, parity, stale stripes, failures, rebuilds and row repair do on
their own (O39). -/

namespace Sys2Proof.Machine

open Sys2Proof

/-! ## What an operation leaves of channels, groups and stale stripes -/

@[simp] theorem State.chan_log (s : State) (ty die w2 w3 w4 w5 c : Nat) : (s.log ty die w2 w3 w4 w5).chan c = s.chan c :=
  State.chan_congr (by simp) c

theorem Moves.chan {ps : List Part} {s t : State} (h : Moves ps s t) (away : Part.chans ∉ ps) (c : Nat) : t.chan c = s.chan c :=
  State.chan_congr (h.same away) c

theorem Moves.cap {ps : List Part} {s t : State} (h : Moves ps s t) (away : Part.map ∉ ps) : t.cellar.cap = s.cellar.cap := by
  obtain ⟨-, -, cap, -⟩ := h.same away
  exact cap

theorem Moves.stale {ps : List Part} {s t : State} (h : Moves ps s t) (away : Part.groups ∉ ps) : t.cellar.stale = s.cellar.stale := by
  obtain ⟨-, -, stale⟩ := h.same away
  exact stale

/-- What each step of a fold leaves alone, the fold does. -/
theorem foldl_same {α β : Type} (p : State → β) {f : State → α → State} (h : ∀ s a, p (f s a) = p s) (l : List α) (s : State) :
    p (l.foldl f s) = p s :=
  List.foldlRecOn l f (motive := fun t => p t = p s) rfl fun t same a _ => (h t a).trans same

theorem State.memberOf_congr {s t : State} (groups : t.cellar.groups = s.cellar.groups) (layout : t.cellar.layout = s.cellar.layout) (ch : Nat) :
    t.memberOf ch = s.memberOf ch := by
  simp only [State.memberOf, State.group, groups, layout]

theorem State.memberOf_of_plain {s : State} {ch : Nat} (plain : s.strongChan ch = false) : s.memberOf ch = none := by
  simp only [State.strongChan, Bool.or_eq_false_iff, Option.isSome_eq_false_iff, Option.isNone_iff_eq_none] at plain
  exact plain.1

theorem State.aboveRebuild_of_plain {s : State} {ch : Nat} (plain : s.strongChan ch = false) (line : Nat) : s.aboveRebuild ch line = false := by
  simp only [State.strongChan, Bool.or_eq_false_iff, List.any_eq_false] at plain
  obtain ⟨-, rebuilds⟩ := plain
  refine List.any_eq_false.mpr fun g listed => ?_
  have spare := rebuilds g listed
  split
  next rebuild =>
    simp only [rebuild, Bool.not_eq_true] at spare
    simp [spare]
  · simp

/-! ## Scrubbing, parity, failures, rebuilds and repair -/

/-! ### Reads of a line that is clean or corrected (R362, R363) -/

theorem State.readStored_clean {s : State} {ch line : Nat} {d : Decoded} (source e2 : Nat)
    (decoded : d = decodeLine (s.rawLine ch line) (s.strongChan ch)) (clean : d.res = 0) :
    s.readStored ch line source 0 e2 = (some { data := d.data, dmeta := d.dmeta }, s) := by
  subst decoded
  simp [State.readStored, clean]

theorem State.corrected_keeps (s : State) (ch line source : Nat) (synds : List Nat) :
    ((s.corrected ch line source synds).chan ch).ceCount = satInc 32 (s.chan ch).ceCount ∧
      ((s.corrected ch line source synds).chan ch).scrub = (s.chan ch).scrub ∧
      ((s.corrected ch line source synds).chan ch).wcb = (s.chan ch).wcb := by
  simp only [State.corrected_eq, State.chan_countChan, State.ceJudged, State.chan_onChan, if_true]
  unfold State.ceMarked
  split <;> simp [State.ceLogged]

theorem State.readStored_corrects {s : State} {ch line : Nat} {d : Decoded} (source e2 : Nat)
    (decoded : d = decodeLine (s.rawLine ch line) (s.strongChan ch)) (wrong : d.res = 1) (drained : (s.chan ch).wcb.has line = false) :
    s.readStored ch line source 0 e2 =
      (some { data := d.data, dmeta := d.dmeta }, (s.corrected ch line source d.synds).putLine ch line d.data d.dmeta) := by
  subst decoded
  obtain ⟨-, -, wcb⟩ := s.corrected_keeps ch line source (decodeLine (s.rawLine ch line) (s.strongChan ch)).synds
  simp [State.readStored, wrong, wcb, drained]

theorem State.fetch_plain {s t : State} {ch line source e1 e2 : Nat} {reader : Option Nat} {r : Got} (serves : (s.chan ch).serves = true)
    (read : s.readStored ch line source e1 e2 = (some r, t)) : s.fetch (.plain ch (line * 64)) source e1 e2 reader = (r, t) := by
  simp [State.fetch, Chan.gone_of_serves serves, Chan.awayAt_of_serves serves, read]

/-! ### Scrubbing (R368) -/

/-- The state in which a scrubber reads its line: it stands on the one after it. -/
def State.scrubMoved (s : State) (ch : Nat) : State :=
  s.onChan ch fun c => { c with scrub := if (s.chan ch).scrub + 1 < s.chanLines then (s.chan ch).scrub + 1 else 0 }

@[simp] theorem State.chan_scrubMoved (s : State) (ch : Nat) : (s.scrubMoved ch).chan ch =
    { (s.chan ch) with scrub := if (s.chan ch).scrub + 1 < s.chanLines then (s.chan ch).scrub + 1 else 0 } := by
  simp [State.scrubMoved]

section Scrub
variable {s : State} {ch : Fin 48} (hs : s.running = true) (st : (s.chan ch.val).st = 4) (repair : (s.chan ch.val).repair = none)
  (enabled : s.flag Obj.scrubEnable = true) (lines : s.chanLines ≠ 0) (drained : (s.chan ch.val).wcb.has (s.chan ch.val).scrub = false)
  (plain : s.strongChan ch.val = false)
include hs st repair enabled lines drained plain

/-- What a scrubber's read of its line of a plain channel leaves, counted. -/
theorem scrubLine_completes {r : Got} {t : State} {post : State → Prop}
    (read : (s.scrubMoved ch.val).readStored ch.val (s.chan ch.val).scrub 1 0 0 = (some r, t)) (h : post (t.countChan ch.val 0x3019 3)) :
    Completes (.scrubLine ch) s post := by
  refine completes_live hs (by rw [exec, execScrubLine]) ?_
  have moved : (s.scrubMoved ch.val).strongChan ch.val = false := plain
  have place := (State.groupless moved).2 (s.chan ch.val).scrub
  have serves : ((s.scrubMoved ch.val).chan ch.val).serves = true := by simp [Chan.serves, st, repair]
  have fetched := State.fetch_plain (reader := none) serves read
  have leaves := State.fetch_moves (s.scrubMoved ch.val) (.plain ch.val ((s.chan ch.val).scrub * 64)) 1 0 0 none
  rw [fetched] at leaves
  obtain ⟨groups, -⟩ := leaves.same (p := .groups) (by decide)
  obtain ⟨layout, -⟩ := leaves.same (p := .map) (by decide)
  have member := (State.memberOf_congr groups layout ch.val).trans (State.memberOf_of_plain moved)
  have above := State.aboveRebuild_of_plain moved (s.chan ch.val).scrub
  simp only [State.scrubMoved] at place fetched above
  simpa [enabled, st, repair, lines, drained, above, place, fetched, member] using h

theorem scrubLine_clean_completes {d : Decoded} (decoded : d = decodeLine (s.rawLine ch.val (s.chan ch.val).scrub) false) (clean : d.res = 0) :
    Completes (.scrubLine ch) s fun t => t.chan ch.val = { (s.chan ch.val) with
      scrub := if (s.chan ch.val).scrub + 1 < s.chanLines then (s.chan ch.val).scrub + 1 else 0 } ∧ t.cellar.dram = s.cellar.dram := by
  refine scrubLine_completes hs st repair enabled lines drained plain
    (State.readStored_clean 1 0 (decoded.trans (congrArg (decodeLine _) plain.symm)) clean) ?_
  exact ⟨by simp, by simp [State.scrubMoved]⟩

theorem scrubLine_corrects_completes {d : Decoded} (decoded : d = decodeLine (s.rawLine ch.val (s.chan ch.val).scrub) false)
    (wrong : d.res = 1) : Completes (.scrubLine ch) s fun t =>
      (t.chan ch.val).scrub = (if (s.chan ch.val).scrub + 1 < s.chanLines then (s.chan ch.val).scrub + 1 else 0) ∧
        (t.chan ch.val).ceCount = satInc 32 (s.chan ch.val).ceCount ∧
        t.cellar.dram = cellsPut (dramKey ch.val (s.chan ch.val).scrub 0)
          (padBytes 80 (padBytes 64 d.data ++ eccBytes (padBytes 64 d.data) d.dmeta)) s.cellar.dram := by
  have idle : ((s.scrubMoved ch.val).chan ch.val).wcb.has (s.chan ch.val).scrub = false := by simpa using drained
  refine scrubLine_completes hs st repair enabled lines drained plain
    (State.readStored_corrects 1 0 (decoded.trans (congrArg (decodeLine _) plain.symm)) wrong idle) ?_
  obtain ⟨count, scrub, -⟩ := (s.scrubMoved ch.val).corrected_keeps ch.val (s.chan ch.val).scrub 1 d.synds
  have dram := (State.corrected_moves (s.scrubMoved ch.val) ch.val (s.chan ch.val).scrub 1 d.synds).same (p := .dram) (by decide)
  refine ⟨by simp [scrub], by simp [count], ?_⟩
  rw [State.countChan_cellar, State.putLine, State.putRaw, dram]
  rfl

end Scrub

/-! ### Deltas that reach the parity Cellar, or do not (R371, R373) -/

/-- The stripe of a line enters the table of stale stripes, where it is not in it and there is room. -/
theorem State.enterStale_enters {s : State} {g m line : Nat} (fresh : s.staleOf g (line / 4) = none) (room : s.cellar.stale.length < 65536) :
    (s.enterStale g m line).1 = true ∧ (s.enterStale g m line).2.cellar.stale = s.cellar.stale ++
      [{ group := g, stripe := line / 4, lines := setBit 0 (line % 4), members := if m < 8 then setBit 0 m else 0, time := s.nowUs }] := by
  simp [State.enterStale, fresh, Nat.not_le.mpr room]

section Parity
variable {s : State} {ch : Fin 48} {m : Fin 8} {line g : Nat} {d : Nat × Nat × Nat × Bytes × Nat} (hs : s.running = true)
  (awaited : (s.chan ch.val).deltaOf m.val line = some d) (grouped : s.groupOf ch.val = some g)
include hs awaited grouped

theorem parityDelta_completes (there : (s.chan ch.val).gone = false) : Completes (.parityDelta ch m line) s fun t =>
    t.chan ch.val = { (s.chan ch.val) with
      deltas := (s.chan ch.val).deltas.erase d,
      plines := (s.chan ch.val).plines.put line
        { delta := xorBytes (padBytes 64 ((s.chan ch.val).plines.getD line { delta := zeroBytes 64 }).delta) d.2.2.2.1,
          dmeta := ((s.chan ch.val).plines.getD line { delta := zeroBytes 64 }).dmeta ^^^ d.2.2.2.2 } } := by
  refine completes_live hs (by rw [exec, execParityDelta]) ?_
  simp [awaited, grouped, there, State.mergeDelta]

theorem parityAckTimeout_completes (fresh : s.staleOf g (line / 4) = none) (room : s.cellar.stale.length < 65536) :
    Completes (.parityAckTimeout ch m line) s fun t =>
      t.cellar.stale = s.cellar.stale ++
        [{ group := g, stripe := line / 4, lines := setBit 0 (line % 4), members := setBit 0 m.val, time := s.nowUs }] ∧
      (t.chan ch.val).deltas = (s.chan ch.val).deltas.erase d := by
  refine completes_live hs (by rw [exec, execParityAckTimeout]) ?_
  obtain ⟨entered, stale⟩ := State.enterStale_enters (m := m.val) fresh room
  have chan := (State.enterStale_moves s g m.val line).chan (by decide) ch.val
  rw [if_pos m.isLt] at stale
  simp only [awaited, grouped, State.deltaStale, entered, Bool.not_true, Bool.false_eq_true, if_false]
  split
  next c _ =>
    have marked := State.setMeta_moves ((s.enterStale g m.val line).2.onChan ch.val fun c => { c with deltas := c.deltas.erase d }) c line (· ||| 4)
    exact ⟨(marked.stale (by decide)).trans stale, by rw [marked.chan (by decide), State.chan_onChan, if_pos rfl, chan]⟩
  · exact ⟨stale, by rw [State.chan_onChan, if_pos rfl, chan]⟩

end Parity

/-! ### Stale stripes (R374) -/

/-- A stripe's lines rebuilt leave the table of stale stripes as it is. -/
theorem State.rebuildStale_stale (s : State) (e : Stale) (p i : Nat) : (s.rebuildStale e p i).cellar.stale = s.cellar.stale := by
  unfold State.rebuildStale
  split
  · rfl
  generalize upto 8 = ms
  extract_lets line marked read
  have unmarked : marked.cellar.stale = s.cellar.stale := by
    refine foldl_same (fun t => t.cellar.stale) (fun t m => ?_) ms s
    split
    · split
      · exact (State.setMeta_moves ..).stale (by decide)
      · rfl
    · rfl
  have seen : read.cellar.stale = marked.cellar.stale :=
    foldl_same (fun t => t.cellar.stale) (fun t m => (t.fetch_moves ..).stale (by decide)) ms marked
  have made := ((read.dataXor_moves e.group line 0).stale (by decide)).trans (seen.trans unmarked)
  split
  next found =>
    rw [found] at made
    split
    · exact made
    · exact made

theorem staleStripeRebuild_completes {s : State} {group : Fin 5} {stripe p : Nat} {e : Stale} (hs : s.running = true)
    (stale : s.staleOf group.val stripe = some e) (parity : s.memberChan group.val 8 stripe = some p) (ready : (s.chan p).st = 4)
    (readable : ∀ m, m < 8 → ∃ c, s.memberChan group.val m stripe = some c ∧ (s.chan c).serves = true) :
    Completes (.staleStripeRebuild group stripe) s fun t => t.cellar.stale = s.cellar.stale.filter fun x => x != e := by
  refine completes_live hs (by rw [exec, execStaleStripeRebuild]) ?_
  have kept := foldl_same (fun t => t.cellar.stale) (fun t i => t.rebuildStale_stale e p i) (upto 4) s
  simp only [stale, parity]
  rw [if_neg ?_]
  · simp [kept]
  · simp only [ready, bne_self_eq_false, Bool.false_or, Bool.not_eq_true', Bool.not_eq_false, List.all_eq_true]
    intro m listed
    obtain ⟨c, member, serves⟩ := readable m (by simpa [upto] using listed)
    simp [member, serves]

/-! ### Channels that fail (R376) -/

theorem channelFailed_completes {s : State} {ch : Fin 48} (hs : s.running = true) (member : (s.memberOf ch.val).isSome = true)
    (rows : s.reg Obj.ueFailRows < ((s.chan ch.val).ueRows.filter fun r => decide (s.nowMs < r.2 + 86400000)).length) :
    Completes (.channelFailed ch) s fun t => t = s.failChannel ch.val 3 := by
  refine completes_live hs (by rw [exec, execChannelFailed]) ?_
  simp only [member, rows, decide_true, Bool.and_self, if_true]

theorem cellarDieLost_completes {s : State} {die : Fin 24} (hs : s.running = true) (there : s.hasDie (dieCL die.val) = true) :
    Completes (.cellarDieLost die) s fun t => t.power.present = clearBit s.power.present (dieCL die.val) ∧
      ∃ m : State, m.sec.caches = s.sec.caches.del die.val ∧ m.cellar = s.cellar ∧
        t = (m.failChannel (2 * die.val) 4).failChannel (2 * die.val + 1) 4 := by
  refine completes_live hs (by rw [exec, execCellarDieLost]) ?_
  simp only [there, Bool.not_true, Bool.false_eq_true, if_false]
  refine ⟨?_, _, ?_, ?_, rfl⟩
  · refine ((State.failChannel_moves ..).same (p := .present) (by decide)).trans ?_
    refine ((State.failChannel_moves ..).same (p := .present) (by decide)).trans ?_
    simp
  · simp
  · simp

/-! ### Rebuilds (R378) -/

@[simp] theorem State.group_countChan (s : State) (ch ev sel g : Nat) : (s.countChan ch ev sel).group g = s.group g := by
  simp [State.group]

@[simp] theorem State.group_onGroup (s : State) (g g' : Nat) (f : Group → Group) :
    (s.onGroup g f).group g' = if g' = g then f (s.group g) else s.group g' := by
  simp [State.group, State.onGroup]

theorem rebuildStripe_completes {s : State} {group : Fin 5} {m sp ptr : Nat} (hs : s.running = true)
    (rebuild : (s.group group.val).rebuild = some (m, sp, ptr)) (serves : (s.chan sp).serves = true)
    (there : ∀ c ∈ (s.group group.val).members, c ≠ (s.group group.val).members.getD m 0 → (s.chan c).awayAt (ptr * 4) = false) :
    Completes (.rebuildStripe group) s fun t => ∃ u : State, (u.group group.val).rebuild = some (m, sp, ptr + 1) ∧
      t = if s.cellar.cap / 256 ≤ ptr + 1 then u.endRebuild group.val m sp else u := by
  refine completes_live hs (by rw [exec, execRebuildStripe]) ?_
  have here : ((s.group group.val).members.any fun c => c != (s.group group.val).members.getD m 0 && (s.chan c).awayAt (ptr * 4)) = false := by
    refine List.any_eq_false.mpr fun c listed => ?_
    by_cases own : c = (s.group group.val).members.getD m 0
    · simp [own]
    · simp [there c listed own]
  split
  · next none => simp [rebuild] at none
  next m' sp' ptr' found =>
  obtain ⟨rfl, rfl, rfl⟩ : m = m' ∧ sp = sp' ∧ ptr = ptr' := by simpa [rebuild] using found
  extract_lets bad lines drained written cellar cleared next
  rw [if_neg (by rw [serves, here]; decide)]
  clear_value lines
  have drained_cap : drained.cellar.cap = s.cellar.cap :=
    foldl_same (fun t => t.cellar.cap) (fun t l => (t.drainLine_moves bad l).cap (by decide)) lines s
  have written_cap : written.cellar.cap = drained.cellar.cap :=
    foldl_same (fun t => t.cellar.cap) (fun t l => ((State.rebuildWrite_moves ..).cap (by decide)).trans
      ((t.rebuildRead_moves group.val m l).cap (by decide))) lines drained
  have cleared_cap : cleared.cellar.cap = written.cellar.cap := by
    unfold cleared
    split <;> rfl
  have next_cap : next.cellar.cap = s.cellar.cap := by
    rw [show next.cellar.cap = cleared.cellar.cap by simp [next, State.onGroup], cleared_cap, written_cap, drained_cap]
  exact ⟨next, by simp [next], by rw [next_cap]⟩

/-! ### Row repair (R382) -/

theorem State.pprResult_cases (s : State) (ch v : Nat) : s.pprResult ch v = s ∨ s.pprResult ch v = s.setReg Obj.eccCmdResult v := by
  unfold State.pprResult
  split
  · exact .inr rfl
  · exact .inl rfl

section Repair
variable {s : State} {ch : Fin 48} (hs : s.running = true)
include hs

theorem rowRepair_ends_completes {key : Nat} {hard : Bool} (left : Bool) (repair : (s.chan ch.val).repair = some (key, hard)) :
    Completes (.rowRepair ch left) s fun t => ∃ m : State,
      m.chan ch.val = { (s.chan ch.val) with
        repair := none, pprUsed := satInc 16 (s.chan ch.val).pprUsed,
        ceLog := (s.chan ch.val).ceLog.filter fun e => s.rowKey ch.val e.line != key } ∧
      (t = m.resumeMem ∨ t = m.resumeMem.setReg Obj.eccCmdResult 0x00) := by
  refine completes_live hs (by rw [exec, execRowRepair]) ?_
  simp only [repair, State.endRepair]
  refine ⟨_, ?_, State.pprResult_cases ..⟩
  simp

variable {key : Nat} {rest : List Nat} (repair : (s.chan ch.val).repair = none) (wanted : (s.chan ch.val).wantRepair = key :: rest)
  (free : s.repairFree ch.val = true)
include repair wanted free

theorem rowRepair_starts_completes : Completes (.rowRepair ch true) s fun t =>
    (t.chan ch.val).repair = some (key, s.inForce Obj.pprHardEn != 0 && s.groupWhole ch.val) ∧ key ∉ (t.chan ch.val).wantRepair := by
  refine completes_live hs (by rw [exec, execRowRepair]) ?_
  simp [repair, wanted, free, State.startRepair]

theorem rowRepair_lacks_completes : Completes (.rowRepair ch false) s fun t => t.chan ch.val = { (s.chan ch.val) with
    wantRepair := rest, ueRows := ueRow (s.chan ch.val).ueRows key s.nowMs,
    noRepair := if (s.chan ch.val).noRepair.contains (keyBankGroup key) then (s.chan ch.val).noRepair
      else (s.chan ch.val).noRepair ++ [keyBankGroup key] } := by
  refine completes_live hs (by rw [exec, execRowRepair]) ?_
  simp [repair, wanted, free]

end Repair

/-- Settles O39: each event that protects stored data has the outcome that its rule gives, on the channels, the stripe, the group or the
die that it names. -/
theorem protectionEventsComplete : Obligations.ProtectionEventsComplete := by
  unfold Obligations.ProtectionEventsComplete
  refine ⟨?_, fun s ch m line g d hs awaited grouped =>
      ⟨parityDelta_completes hs awaited grouped, parityAckTimeout_completes hs awaited grouped⟩,
    fun s group stripe p e hs => staleStripeRebuild_completes hs, fun s ch hs => channelFailed_completes hs,
    fun s group m sp ptr hs rebuild serves there => ⟨fun more => ?_, fun last => ?_⟩, ?_, fun s die hs => cellarDieLost_completes hs⟩
  · rintro s ch c d hs rfl st repair enabled lines drained plain decoded
    exact ⟨scrubLine_clean_completes hs st repair enabled lines drained plain decoded,
      scrubLine_corrects_completes hs st repair enabled lines drained plain decoded⟩
  · obtain ⟨t, stepped, u, next, rfl⟩ := rebuildStripe_completes hs rebuild serves there
    exact ⟨_, stepped, by rwa [if_neg (Nat.not_le.mpr more)]⟩
  · obtain ⟨t, stepped, u, next, rfl⟩ := rebuildStripe_completes hs rebuild serves there
    exact ⟨_, stepped, u, next, if_pos last⟩
  · rintro s ch c hs rfl
    exact ⟨fun key hard left repair => rowRepair_ends_completes hs left repair, fun key rest repair wanted free =>
      ⟨rowRepair_starts_completes hs repair wanted free, rowRepair_lacks_completes hs repair wanted free⟩⟩

end Sys2Proof.Machine
end
